-- ==== Sys2Proof/Word.lean ====
section
/-! DEFINITION. The words of the Caerpodon: 64-bit registers and words, 32-bit lanes, bytes, the core reference of
R35, the context identifier and the 48-bit context virtual address. -/

namespace Sys2Proof

/-- A 64-bit register, record word or scalar register. -/
abbrev Word := BitVec 64
/-- A 32-bit lane element, mask or register half. -/
abbrev Half := BitVec 32
/-- One byte of memory. -/
abbrev Byte := BitVec 8
/-- The 11-bit core reference of R35: bit 10 Lake, bits 9:0 the identifier. -/
abbrev CoreRef := BitVec 11
/-- The 20-bit context identifier (R250). -/
abbrev Ctx := BitVec 20

end Sys2Proof
end

