-- ==== Sys2Proof/Machine/Store.lean ====
section
/-! DEFINITION. Sparse maps keyed by Nat in one canonical form (keys strictly rising), sets of Nat in the same form, byte
memories, and the bit-field helpers that every other file uses. -/

namespace Sys2Proof.Machine

/-- A sparse map: key and value pairs, keys strictly rising. -/
abbrev Map (α : Type) := List (Nat × α)

/-- The value at a key, if listed. -/
def Map.find? {α : Type} : Map α → Nat → Option α
  | [], _ => none
  | (k, v) :: m, i => if i = k then some v else Map.find? m i

/-- Put a value at a key, keeping the keys strictly rising. -/
def Map.put {α : Type} : Map α → Nat → α → Map α
  | [], i, a => [(i, a)]
  | (k, v) :: m, i, a =>
    if i < k then (i, a) :: (k, v) :: m
    else if i = k then (i, a) :: m
    else (k, v) :: Map.put m i a

/-- Take a key out. -/
def Map.drop {α : Type} (m : Map α) (i : Nat) : Map α := m.filter (fun kv => kv.1 != i)

/-- The value at a key, or the value an unlisted key has. -/
def Map.getD {α : Type} (m : Map α) (i : Nat) (d : α) : α := (m.find? i).getD d

/-- Put a value, where an entry equal to the unlisted value is not listed. -/
def Map.putD {α : Type} [DecidableEq α] (m : Map α) (i : Nat) (d a : α) : Map α :=
  if a = d then m.drop i else m.put i a

/-- Apply a change to a listed value. -/
def Map.modify {α : Type} (m : Map α) (i : Nat) (f : α → α) : Map α :=
  match m.find? i with
  | some a => m.put i (f a)
  | none => m

/-- Keep the entries whose key passes. -/
def Map.keep {α : Type} (m : Map α) (p : Nat → Bool) : Map α := m.filter (fun kv => p kv.1)

/-- Keep the entries whose key and value pass. -/
def Map.keepV {α : Type} (m : Map α) (p : Nat → α → Bool) : Map α := m.filter (fun kv => p kv.1 kv.2)

/-- Change every value. -/
def Map.mapV {α : Type} (m : Map α) (f : Nat → α → α) : Map α := m.map (fun kv => (kv.1, f kv.1 kv.2))

/-- Keys strictly rising. -/
def Map.wf {α : Type} : Map α → Bool
  | [] => true
  | [_] => true
  | (a, _) :: (b, y) :: m => decide (a < b) && Map.wf ((b, y) :: m)

/-- A memory of bytes whose unlisted byte is 0: keys strictly rising and no listed byte 0. -/
abbrev Memory := Map Byte

/-- Read one byte; an unlisted byte is 0. -/
def Memory.read (m : Memory) (a : Nat) : Byte := Map.getD m a 0#8
/-- Write one byte; writing 0 removes the entry. -/
def Memory.write (m : Memory) (a : Nat) (b : Byte) : Memory := Map.putD m a 0#8 b
/-- The canonical form: keys strictly rising, no listed byte equal to an unlisted one. -/
def Memory.wf (m : Memory) : Bool := Map.wf m && m.all (fun kv => decide (kv.2 ≠ 0#8))

/-- Write a list of bytes from an address upward. -/
def Memory.writeBytes (m : Memory) : Nat → List Byte → Memory
  | _, [] => m
  | a, b :: bs => Memory.writeBytes (m.write a b) (a + 1) bs

/-- A set of Nat, strictly rising. -/
abbrev NSet := List Nat

/-- Put an element into a strictly rising list. -/
def NSet.ins : NSet → Nat → NSet
  | [], i => [i]
  | k :: m, i => if i < k then i :: k :: m else if i = k then k :: m else k :: NSet.ins m i

/-- Take an element out. -/
def NSet.del (m : NSet) (i : Nat) : NSet := m.filter (fun k => k != i)

/-- Add to or take out of a set. -/
def NSet.set (m : NSet) (i : Nat) (b : Bool) : NSet := if b then NSet.ins m i else NSet.del m i

/-- Bits hi down to lo of a word, as a number. -/
def fld (w : Nat) (hi lo : Nat) : Nat := w / 2 ^ lo % 2 ^ (hi + 1 - lo)

/-- Replace bits hi down to lo of a word. -/
def setFld (w : Nat) (hi lo v : Nat) : Nat :=
  w % 2 ^ lo + (v % 2 ^ (hi + 1 - lo)) * 2 ^ lo + w / 2 ^ (hi + 1) * 2 ^ (hi + 1)

/-- One bit of a word. -/
def bit (w n : Nat) : Bool := w / 2 ^ n % 2 == 1

/-- A Bool as a number. -/
def b2n (b : Bool) : Nat := if b then 1 else 0

/-- The bytes of a number, little-endian (R89). -/
def leBytes (n : Nat) : Nat → List Byte
  | 0 => []
  | k + 1 => BitVec.ofNat 8 n :: leBytes (n / 256) k

/-- The number that bytes hold, little-endian (R89). -/
def ofLe : List Byte → Nat
  | [] => 0
  | b :: bs => b.toNat + 256 * ofLe bs

/-- Two's complement reading of the low w bits. -/
def toSigned (w n : Nat) : Int :=
  let m := n % 2 ^ w
  if m < 2 ^ (w - 1) then (m : Int) else (m : Int) - (2 ^ w : Nat)

/-- The low w bits of an integer. -/
def ofSigned (w : Nat) (i : Int) : Nat := (i % (2 ^ w : Nat)).toNat

/-- Division rounded up. -/
def ceilDiv (a b : Nat) : Nat := (a + b - 1) / b

/-- The position of the first element that passes. -/
def findIdx? {α : Type} (l : List α) (p : α → Bool) : Option Nat :=
  let i := l.findIdx p
  if i < l.length then some i else none

/-- Mask of the low n bits. -/
def ones (n : Nat) : Nat := 2 ^ n - 1

end Sys2Proof.Machine
end

