-- ==== Sys2Proof/Machine/Numbers.lean ====
section
/-! DEFINITION. Number formats and arithmetic (chapter 6): decoding a float to its exact value, rounding an exact value
once (R92 to R96), the stochastic draw (R95), the operations, and the conversions of Table 06-3 and R99, R100. -/

namespace Sys2Proof.Machine

/-- A floating-point format (Table 06-1). `nan` is 0 for a format without NaN, 1 with the whole top exponent reserved,
2 for FP8 E4M3, which keeps one encoding for NaN. -/
structure Fmt where
  e    : Nat
  m    : Nat
  bias : Nat
  nan  : Nat
  canon : Nat
  deriving DecidableEq, Repr

def fmtF32 : Fmt := ⟨8, 23, 127, 1, 0x7FC00000⟩
def fmtBF16 : Fmt := ⟨8, 7, 127, 1, 0x7FC0⟩
def fmtF16 : Fmt := ⟨5, 10, 15, 1, 0x7E00⟩
def fmtE4M3 : Fmt := ⟨4, 3, 7, 2, 0x7F⟩
def fmtE5M2 : Fmt := ⟨5, 2, 15, 1, 0x7E⟩
def fmtE3M2 : Fmt := ⟨3, 2, 3, 0, 0⟩
def fmtE2M3 : Fmt := ⟨2, 3, 1, 0, 0⟩
def fmtE2M1 : Fmt := ⟨2, 1, 1, 0, 0⟩

/-- The format of a type code that is floating, plain or MX element (Table 05-4). -/
def fmtOf (t : Nat) : Option Fmt :=
  match t with
  | 0x04 => some fmtF32 | 0x05 => some fmtBF16 | 0x06 => some fmtF16 | 0x07 => some fmtE4M3 | 0x08 => some fmtE5M2
  | 0x0B => some fmtE4M3 | 0x0C => some fmtE5M2 | 0x0D => some fmtE3M2 | 0x0E => some fmtE2M3 | 0x0F => some fmtE2M1
  | _ => none

/-- A type code is an MX type. -/
def isMx (t : Nat) : Bool := 0x0B ≤ t && t ≤ 0x0F
/-- Width and signedness of an integer type code. -/
def intOf (t : Nat) : Option (Nat × Bool) :=
  match t with
  | 0x00 => some (32, true) | 0x01 => some (32, false) | 0x02 => some (64, true) | 0x03 => some (64, false)
  | 0x09 => some (8, true) | 0x0A => some (4, true) | _ => none
/-- A type code is an integer type. -/
def isInt (t : Nat) : Bool := (intOf t).isSome
/-- A plain floating type. -/
def isFlt (t : Nat) : Bool := 0x04 ≤ t && t ≤ 0x08
/-- Width in bits of an element of a type. -/
def typeBits (t : Nat) : Nat :=
  match t with
  | 0x00 => 32 | 0x01 => 32 | 0x02 => 64 | 0x03 => 64 | 0x04 => 32 | 0x05 => 16 | 0x06 => 16 | 0x07 => 8 | 0x08 => 8
  | 0x09 => 8 | 0x0A => 4 | 0x0B => 8 | 0x0C => 8 | 0x0D => 6 | 0x0E => 6 | 0x0F => 4 | _ => 12
/-- A 64-bit type, which uses register pairs (R148). -/
def isWide (t : Nat) : Bool := t == 2 || t == 3

/-- Total bits of a format. -/
def Fmt.bits (f : Fmt) : Nat := f.e + f.m + 1
/-- The encoding of the largest finite magnitude. -/
def Fmt.maxFin (f : Fmt) : Nat :=
  if f.nan == 1 then (2 ^ f.e - 1) * 2 ^ f.m - 1 else if f.nan == 2 then 2 ^ (f.e + f.m) - 2 else 2 ^ (f.e + f.m) - 1
/-- The encoding of infinity, for a format that has one. -/
def Fmt.inf (f : Fmt) : Nat := (2 ^ f.e - 1) * 2 ^ f.m

/-- An exact value: NaN, an infinity, or (−1)^neg · m · 2^e. -/
inductive FVal where
  | nan
  | inf (neg : Bool)
  | fin (neg : Bool) (m : Nat) (e : Int)
  deriving DecidableEq, Repr

/-- The exact value of an encoding (R88). -/
def Fmt.decode (f : Fmt) (w : Nat) : FVal :=
  let neg := bit w (f.e + f.m)
  let ex := w / 2 ^ f.m % 2 ^ f.e
  let mm := w % 2 ^ f.m
  if f.nan == 1 && ex == 2 ^ f.e - 1 then (if mm == 0 then .inf neg else .nan)
  else if f.nan == 2 && ex == 2 ^ f.e - 1 && mm == 2 ^ f.m - 1 then .nan
  else if ex == 0 then .fin neg mm (1 - (f.bias : Int) - f.m)
  else .fin neg (2 ^ f.m + mm) ((ex : Int) - f.bias - f.m)

/-- The exponent of the last place of a subnormal. -/
def Fmt.q0 (f : Fmt) : Int := 1 - (f.bias : Int) - f.m

/-- A magnitude m · 2^e truncated to a format: the encoding of the candidate, the remainder and its denominator's
exponent (R94 step 1). -/
def Fmt.trunc (f : Fmt) (m : Nat) (e : Int) : Nat × Nat × Nat :=
  let lg : Int := (Nat.log2 m : Int) + e
  let q : Int := max (lg - f.m) f.q0
  let sh : Int := q - e
  let base := (q - f.q0).toNat * 2 ^ f.m
  if sh ≤ 0 then (base + m * 2 ^ (-sh).toNat, 0, 0)
  else (base + m / 2 ^ sh.toNat, m % 2 ^ sh.toNat, sh.toNat)

/-- Round up by one unit, for a candidate of the given parity with remainder rem / 2^sh, under RM; `draw` gives r for the
candidate (R93, R94). -/
def roundUp (rm cand rem sh : Nat) (draw : Nat → Nat) : Bool :=
  if rem == 0 then false
  else if rm == 0 then (2 * rem > 2 ^ sh || (2 * rem == 2 ^ sh && cand % 2 == 1))
  else if rm == 1 then decide (draw cand < rem * 65536 / 2 ^ sh)
  else false

/-- An overflowed magnitude (R96). -/
def Fmt.over (f : Fmt) (rm : Nat) (sat : Bool) : Nat :=
  if rm == 2 || sat || f.nan == 0 then f.maxFin else if f.nan == 1 then f.inf else f.canon

/-- An infinite result (Table 06-3, R96). -/
def Fmt.ofInf (f : Fmt) (rm : Nat) (sat : Bool) : Nat :=
  if sat || f.nan == 0 then f.maxFin else if f.nan == 1 then f.inf else if rm == 2 then f.maxFin else f.canon

/-- Put a sign on a magnitude encoding; NaN stays canonical. -/
def Fmt.signed (f : Fmt) (neg : Bool) (mag : Nat) : Nat :=
  if neg && !(f.nan == 2 && mag == f.canon) then mag + 2 ^ (f.e + f.m) else mag

/-- Round an exact value once to a format under RM and SAT (R92 to R96). -/
def Fmt.round (f : Fmt) (rm : Nat) (sat : Bool) (draw : Nat → Nat) (v : FVal) : Nat :=
  match v with
  | .nan => f.canon
  | .inf n => f.signed n (f.ofInf rm sat)
  | .fin n m e =>
    if m == 0 then f.signed n 0
    else
      let (c, rem, sh) := f.trunc m e
      let c := if roundUp rm c rem sh draw then c + 1 else c
      f.signed n (if c > f.maxFin then f.over rm sat else c)

/-- The stochastic draw (R95). -/
def mix64 (z : BitVec 64) : BitVec 64 :=
  let z := (z ^^^ (z >>> 30)) * 0xBF58476D1CE4E5B9#64
  let z := (z ^^^ (z >>> 27)) * 0x94D049BB133111EB#64
  z ^^^ (z >>> 31)
/-- The 16-bit value r drawn for a candidate t (R95). -/
def draw (seed : BitVec 64) (p i t : Nat) : Nat :=
  ((mix64 (mix64 (mix64 (seed ^^^ BitVec.ofNat 64 p) ^^^ BitVec.ofNat 64 i) ^^^ BitVec.ofNat 64 t)) >>> 48).toNat

/-! ### Exact operations -/

/-- Signed mantissa of a finite value at exponent e, where e is not above the value's own. -/
def sInt (n : Bool) (m : Nat) (e0 e : Int) : Int :=
  let k : Int := (m : Int) * (2 ^ (e0 - e).toNat : Nat)
  if n then -k else k

/-- Exact sum; an exact zero of operands with opposite signs is +0 (R92). -/
def FVal.add : FVal → FVal → FVal
  | .nan, _ => .nan
  | _, .nan => .nan
  | .inf a, .inf b => if a == b then .inf a else .nan
  | .inf a, _ => .inf a
  | _, .inf b => .inf b
  | .fin a m e, .fin b k g =>
    let lo := min e g
    let z := sInt a m e lo + sInt b k g lo
    if z == 0 then .fin (a && b) 0 lo else .fin (decide (z < 0)) z.natAbs lo

/-- Exact product. -/
def FVal.mul : FVal → FVal → FVal
  | .nan, _ => .nan
  | _, .nan => .nan
  | .inf a, .inf b => .inf (a != b)
  | .inf a, .fin b k _ => if k == 0 then .nan else .inf (a != b)
  | .fin a m _, .inf b => if m == 0 then .nan else .inf (a != b)
  | .fin a m e, .fin b k g => .fin (a != b) (m * k) (e + g)

/-- Negation. -/
def FVal.neg : FVal → FVal
  | .nan => .nan
  | .inf a => .inf !a
  | .fin a m e => .fin (!a) m e

/-- a < b as real numbers, neither NaN. -/
def FVal.lt : FVal → FVal → Bool
  | .inf a, .inf b => a && !b
  | .inf a, .fin _ _ _ => a
  | .fin _ _ _, .inf b => !b
  | .fin a m e, .fin b k g =>
    let lo := min e g
    decide (sInt a m e lo < sInt b k g lo)
  | _, _ => false

/-- Equal as real numbers, neither NaN. -/
def FVal.eq (a b : FVal) : Bool := a != .nan && b != .nan && !a.lt b && !b.lt a
/-- The value is zero. -/
def FVal.isZero : FVal → Bool
  | .fin _ m _ => m == 0
  | _ => false
/-- The sign. -/
def FVal.isNeg : FVal → Bool
  | .nan => false
  | .inf n => n
  | .fin n _ _ => n

/-- MIN and MAX of R92: the operand that is not NaN, −0 below +0. -/
def FVal.minmax (isMax : Bool) (a b : FVal) : FVal :=
  if a == .nan then b else if b == .nan then a
  else
    let aLess := a.lt b || (a.isZero && b.isZero && a.isNeg && !b.isNeg)
    if aLess != isMax then a else b

/-! ### Conversion (Table 06-3) -/

/-- A pair of type codes that R97 lets a conversion take. -/
def cvtPair (src dst : Nat) : Bool :=
  if src == 0x10 || dst == 0x10 || src > 0x10 || dst > 0x10 then false
  else if src == dst then true
  else if isMx src then isFlt dst
  else if isMx dst then isFlt src
  else true

/-- A float type is wider than another: it represents every value of the other exactly (R97). -/
def floatWidens (src dst : Nat) : Bool :=
  src != dst && isFlt src && isFlt dst && (dst == 4 || ((dst == 5 || dst == 6) && (src == 7 || src == 8)))
/-- An integer type is wider than another (Table 06-3). -/
def intWidens (src dst : Nat) : Bool :=
  match intOf src, intOf dst with
  | some (w, _), some (v, _) => v > w
  | _, _ => false

/-- Saturate an integer to a width and signedness. -/
def satInt (w : Nat) (sgn : Bool) (z : Int) : Int :=
  let hi : Int := if sgn then (2 ^ (w - 1) : Nat) - 1 else (2 ^ w : Nat) - 1
  let lo : Int := if sgn then -((2 ^ (w - 1) : Nat) : Int) else 0
  if z > hi then hi else if z < lo then lo else z

/-- A float value to an integer type: rounded under RM, saturated always; NaN gives 0. -/
def floatToInt (w : Nat) (sgn : Bool) (rm : Nat) (draw : Nat → Nat) (v : FVal) : Nat :=
  match v with
  | .nan => 0
  | .inf n => ofSigned w (satInt w sgn (if n then -((2 ^ 70 : Nat) : Int) else (2 ^ 70 : Nat)))
  | .fin n m e =>
    let mag : Nat :=
      if 0 ≤ e then m * 2 ^ (min e.toNat 200)
      else
        let sh := (-e).toNat
        let c := m / 2 ^ sh
        if roundUp rm c (m % 2 ^ sh) sh draw then c + 1 else c
    ofSigned w (satInt w sgn (if n then -(mag : Int) else mag))

/-- The integer value of bits under an integer type. -/
def intVal (w : Nat) (sgn : Bool) (bits : Nat) : Int := if sgn then toSigned w bits else ((bits % 2 ^ w : Nat) : Int)

/-- Convert one element of a plain pair (Table 06-3); MX blocks are converted by `mxDecode` and `mxBlock`. -/
def convert (src dst rm : Nat) (sat : Bool) (draw : Nat → Nat) (bits : Nat) : Nat :=
  if src == dst then bits % 2 ^ typeBits src
  else match fmtOf src, fmtOf dst, intOf src, intOf dst with
    | some f, some g, _, _ =>
      if floatWidens src dst then g.round 0 false draw (f.decode bits) else g.round rm sat draw (f.decode bits)
    | some f, none, _, some (w, sgn) => floatToInt w sgn rm draw (f.decode bits)
    | none, some g, some (w, sgn), _ =>
      let z := intVal w sgn bits
      g.round rm sat draw (.fin (decide (z < 0)) z.natAbs 0)
    | none, none, some (w, sgn), some (v, tgn) =>
      let z := intVal w sgn bits
      if v > w then ofSigned v z else if sat then ofSigned v (satInt v tgn z) else ofSigned v z
    | _, _, _, _ => 0

/-- The value of an MX element under its scale byte (R99). -/
def mxDecode (t scale bits : Nat) : FVal :=
  if scale == 0xFF then .nan
  else match fmtOf t with
    | some f =>
      match f.decode bits with
      | .fin n m e => .fin n m (e + (scale : Int) - 127)
      | v => v
    | none => .nan

/-- emax of R100. -/
def mxEmax (t : Nat) : Int :=
  match t with | 0x0B => 8 | 0x0C => 15 | 0x0D => 4 | _ => 2

/-- ⌊log₂⌋ of the largest magnitude of finite values, none when all are zero. -/
def maxLog : List FVal → Option Int
  | [] => none
  | .fin _ m e :: vs =>
    if m == 0 then maxLog vs
    else
      let l : Int := (Nat.log2 m : Int) + e
      match maxLog vs with
      | some k => some (max l k)
      | none => some l
  | _ :: vs => maxLog vs

/-- Form an MX block from values: scale byte and elements (R100). `draw j` draws for element j. -/
def mxBlock (t rm : Nat) (draw : Nat → Nat → Nat) (vs : List FVal) : Nat × List Nat :=
  let special := vs.any (fun v => match v with | .fin _ _ _ => false | _ => true)
  if special then (0xFF, vs.map (fun _ => 0))
  else match maxLog vs with
    | none => (0, vs.map (fun _ => 0))
    | some l =>
      let ex : Int := max (-127) (min 127 (l - mxEmax t))
      match fmtOf t with
      | none => (0xFF, vs.map (fun _ => 0))
      | some f =>
        ((ex + 127).toNat, (List.range vs.length).map (fun j =>
          match vs[j]? with
          | some (FVal.fin n m e) => f.round rm true (draw j) (.fin n m (e - ex))
          | _ => 0))

/-- Add two elements of F32 or BF16, rounded to nearest even (R106). -/
def faddRne (t a b : Nat) : Nat :=
  match fmtOf t with
  | some f => f.round 0 false (fun _ => 0) ((f.decode a).add (f.decode b))
  | none => 0

end Sys2Proof.Machine
end

