-- ==== Sys2Proof/Syntax.lean ====
section
/-! DEFINITION. The commands of the block: one constructor of `Instr` for each row of the table of operations and events,
with the row's operands. A Glaper instruction names the group that issues it and carries the operand bits of Table 05-2
as they stand in its words; an event names the unit, command or message it happens to; what the outside supplies with an
event (a measured temperature, the outcome of a self-test, the columns a residue check finds wrong) is an operand. -/

namespace Sys2Proof

/-- A group: the core reference (R35) and the group slot (Table 04-2). -/
structure GroupRef where
  core : CoreRef
  slot : BitVec 7
  deriving DecidableEq, Repr

/-- The operand bits of one Glaper instruction (R74 to R77). OP and FN follow from the constructor of `Instr`; `imm`
tells the immediate form (VALUI, SALUI) from the register form. `ops` is bits 45:0 of the first word and `ext` the
whole second word. -/
structure Enc where
  imm : Bool
  x   : Bool
  gn  : Bool
  g   : BitVec 4
  ops : BitVec 46
  ext : BitVec 64
  deriving DecidableEq, Repr

/-- An access to a register of a function's BAR (R7 to R9, R394 to R400): function 0 is PF0 and p + 1 the VF of
partition p; BAR2 (the MSI-X table and its pending bits, R301) or BAR0; a size in bytes; a read, or a write of `val`. -/
structure RegAccess where
  fn   : Nat
  bar2 : Bool
  off  : Nat
  size : Nat
  read : Bool
  val  : BitVec 64
  deriving DecidableEq, Repr

/-- An Imwicel message (R284): its six header words, its payload, and the global sub-port it travels on. `last` is not in the
header: whether the message is the last of its RMO, which a target has to know before it answers COMP (R292, log entry 111). -/
structure Msg where
  w0 : Word
  w1 : Word
  w2 : Word
  w3 : Word
  w4 : Word
  w5 : Word
  payload : List Byte
  subport : Fin 48
  last : Bool
  deriving DecidableEq, Repr

/-- The unit whose walk finishes (R238, R239). -/
inductive WalkUnit where
  | group (g : GroupRef)          -- a group's fetch or data access, at its pending address
  | dma (id : Nat)                -- a DMA command's next row or its descriptor fetch
  | page (die : Nat) (ctx : Ctx) (va : BitVec 64)   -- a TLB miss of a die (15 for the Weir)
  deriving DecidableEq, Repr

/-- Requests with a feature the device does not support (R299). -/
inductive Unsupported where
  | pageRequest | atomicOp | ide | tph | cxl | streaming
  deriving DecidableEq, Repr

/-- What the power controller has measured over the last interval (R333 to R336), in mW and °C. -/
structure PowerSample where
  weirHeaps : Nat
  dies      : List Nat
  mean100us : Nat
  deriving DecidableEq, Repr

/-- An early event that wakes a basin (R347). -/
inductive WakeEvent where
  | placement | poolAccess | modeChange | partitionReset | hintZero
  deriving DecidableEq, Repr

/-- What a read finds: a good word or sector, one that its code corrects, or an error that it only detects, with what the rebuild
of a Guarded sector gives (R349, R350). -/
inductive SectorState where
  | good | correctable | uncorrectable (rebuilds : Bool)
  deriving DecidableEq, Repr

/-- A structure whose entries have parity alone (Table 21-1). -/
inductive ParityStore where
  | icache | tlb | utlb | walk1 | walk2
  deriving DecidableEq, Repr

/-- Where an error is met (Table 21-1); register lanes and datapath lanes are told apart by `residue`. A narrow or Shared sector
is one that a slice holds. -/
inductive ErrorSite where
  | channel (ch : Fin 384) (sector : Nat)
  | sharedSector (line : Nat) (sector : Fin 4)
  | narrowSector (region : Nat) (sector : Fin 4)
  | pool (core : CoreRef) (word : Nat)
  | l1 (cache : Fin 672) (line : Nat) (sector : Fin 4)
  | lanes (g : GroupRef) (reg : BitVec 6) (lanes : BitVec 32) (residue : Bool)
  | scalar (g : GroupRef) (reg : BitVec 6) (residue : Bool)
  | entry (store : ParityStore) (n : Nat)
  | queueWord (q : Nat)
  | weirStore (passEnds : Bool)
  | hostSector (sector : Nat)
  deriving DecidableEq, Repr

/-- A core that hangs (R367): the engines that did not stop, by EKIND and EIDX. -/
structure CoreHang where
  core    : CoreRef
  engines : List (BitVec 3 × BitVec 4)
  deriving DecidableEq, Repr

/-- The HST_PWRGD pin of a site and its new level (R308). -/
structure PowerPin where
  site : Fin 2
  high : Bool
  deriving DecidableEq, Repr

/-- One engine of a core (R370, Table 22-5): EKIND and EIDX. -/
structure EngineRef where
  core : CoreRef
  kind : BitVec 3
  idx  : BitVec 4
  deriving DecidableEq, Repr

/-- What the boot ROM finds of the two signatures of an image, record or certificate (R382, R383): whether the digest of each
public key is the ROM's, and whether each signature verifies. -/
structure Sig where
  ecdsaKey : Bool
  ecdsa    : Bool
  lmsKey   : Bool
  lms      : Bool
  deriving DecidableEq, Repr

/-- A firmware image (R383, R384): its signatures, its SVN and its digest. -/
structure Image where
  sig    : Sig
  svn    : BitVec 8
  digest : List Byte
  deriving DecidableEq, Repr

/-- The three firmware images of the Weir (R382). -/
inductive Firmware where | mgmt | power | pan
  deriving DecidableEq, Repr

/-- An image that is offered for one of the three (R383, R384). -/
structure ImageFile where
  what  : Firmware
  image : Image
  deriving DecidableEq, Repr

/-- A slot of the device records (R385, R386): its generation, whether the tag of each of the records 0x10, 0x11 and 0x12
verifies, and what the repair map and the channel record hold. -/
structure DevSlot where
  gen     : Nat
  mapTag  : Bool
  chanTag : Bool
  treeTag : Bool
  repairs : List Byte
  mapouts : List Nat
  deriving DecidableEq, Repr

/-- What the boot ROM finds at power-good (R383, R385, R387, R388, R407, R411): the rails, the flash and its counters; the copies
of the records 0x02 to 0x05; banks A and B of each image; the slots of the device records, where they are not as the device left
them; what the self-test finds, and whether the PUF gives the seed. -/
structure BootReport where
  railsOk     : Bool
  flashOk     : Bool
  counters    : Nat
  sku         : List Sig
  leakage     : List Sig
  helper      : List Sig
  deviceId    : List Sig
  mgmt        : Image × Image
  power       : Image × Image
  pan         : Image × Image
  slots       : Option (List DevSlot)
  pufOk       : Bool
  mgAddr      : BitVec 3
  badChannels : List (Fin 384)
  badLinks    : List (Fin 12 × Fin 3)
  repairs     : List Byte
  deriving DecidableEq, Repr

/-- A power rail (Table 25-2, Table 25-4). -/
inductive Rail where
  | core (d : Fin 12) | sram (d : Fin 12) | heap (d : Fin 12) | lnk (d : Fin 12) | lnkh (d : Fin 12)
  | ucie | weir | v1v8 | v1v2
  deriving DecidableEq, Repr

/-- A bit of the ready map (R379) that a function sets when it passes its bring-up or self-test. -/
inductive ReadyBit where
  | link (k : Fin 12) | pan (d : Fin 12) | shared | security | mgmt | basin (b : Fin 96) | chan (c : Fin 384)
  deriving DecidableEq, Repr

/-- What a PLDM Platform Monitoring and Control request asks for (R393). -/
inductive PldmSensor where
  | temperature (d : Fin 12) | railPower (d : Fin 12) | energy
  deriving DecidableEq, Repr

/-- The commands of the block: the 331 rows of the table. -/
inductive Instr where
  /-- REGISTER_WRITE (R7). -/
  | registerWrite (a : RegAccess)
  /-- SITEB_TRAIN_REQUEST (R4). -/
  | sitebTrainRequest (module : Fin 2)
  /-- SITEB_CONFIG_ACCESS (R20). -/
  | sitebConfigAccess (off : Nat) (write : Bool)
  /-- MODE_CHANGE_WRITE (R29). -/
  | modeChangeWrite (b : Fin 96) (val : BitVec 32)
  /-- MODE_CHANGE_COMPLETE (R32). -/
  | modeChangeComplete (b : Fin 96) (selfTestOk : Bool)
  /-- POND_FALLBACK_COMPLETE (R33). -/
  | pondFallbackComplete (b : Fin 96) (selfTestOk : Bool)
  /-- SHARED_SIZE_CHANGE (R45). -/
  | sharedSizeChange (val : BitVec 32)
  /-- SHARED_SIZE_CHANGE_COMPLETE (R45). -/
  | sharedSizeChangeComplete
  /-- WHOLE_CHANNEL_FAILURE (R357). -/
  | wholeChannelFailure (ch : Fin 384)
  /-- NOP (R80). -/
  | nop (g : GroupRef) (e : Enc)
  /-- VADD (R149). -/
  | vadd (g : GroupRef) (e : Enc)
  /-- VSUB (R149). -/
  | vsub (g : GroupRef) (e : Enc)
  /-- VMUL (R149). -/
  | vmul (g : GroupRef) (e : Enc)
  /-- VMAD (R150). -/
  | vmad (g : GroupRef) (e : Enc)
  /-- VMIN (R149). -/
  | vmin (g : GroupRef) (e : Enc)
  /-- VMAX (R149). -/
  | vmax (g : GroupRef) (e : Enc)
  /-- VABS (R149). -/
  | vabs (g : GroupRef) (e : Enc)
  /-- VNEG (R149). -/
  | vneg (g : GroupRef) (e : Enc)
  /-- VAND (R149). -/
  | vand (g : GroupRef) (e : Enc)
  /-- VOR (R149). -/
  | vor (g : GroupRef) (e : Enc)
  /-- VXOR (R149). -/
  | vxor (g : GroupRef) (e : Enc)
  /-- VNOT (R149). -/
  | vnot (g : GroupRef) (e : Enc)
  /-- VSHL (R149). -/
  | vshl (g : GroupRef) (e : Enc)
  /-- VSHR (R149). -/
  | vshr (g : GroupRef) (e : Enc)
  /-- VSRA (R149). -/
  | vsra (g : GroupRef) (e : Enc)
  /-- VSEL (R149). -/
  | vsel (g : GroupRef) (e : Enc)
  /-- VCLZ (R149). -/
  | vclz (g : GroupRef) (e : Enc)
  /-- VPOPC (R149). -/
  | vpopc (g : GroupRef) (e : Enc)
  /-- VMOV (R150). -/
  | vmov (g : GroupRef) (e : Enc)
  /-- VRCP (R151). -/
  | vrcp (g : GroupRef) (e : Enc)
  /-- VRSQ (R151). -/
  | vrsq (g : GroupRef) (e : Enc)
  /-- VSQRT (R151). -/
  | vsqrt (g : GroupRef) (e : Enc)
  /-- VEXP2 (R151). -/
  | vexp2 (g : GroupRef) (e : Enc)
  /-- VLOG2 (R151). -/
  | vlog2 (g : GroupRef) (e : Enc)
  /-- VSIN (R151). -/
  | vsin (g : GroupRef) (e : Enc)
  /-- VCOS (R151). -/
  | vcos (g : GroupRef) (e : Enc)
  /-- VTANH (R151). -/
  | vtanh (g : GroupRef) (e : Enc)
  /-- VSIGMOID (R151). -/
  | vsigmoid (g : GroupRef) (e : Enc)
  /-- VCVT (R152). -/
  | vcvt (g : GroupRef) (e : Enc)
  /-- VCMP (R148). -/
  | vcmp (g : GroupRef) (e : Enc)
  /-- PAND (R148). -/
  | pand (g : GroupRef) (e : Enc)
  /-- POR (R148). -/
  | por (g : GroupRef) (e : Enc)
  /-- PXOR (R148). -/
  | pxor (g : GroupRef) (e : Enc)
  /-- PNOT (R148). -/
  | pnot (g : GroupRef) (e : Enc)
  /-- PMOV (R148). -/
  | pmov (g : GroupRef) (e : Enc)
  /-- PTOS (R148). -/
  | ptos (g : GroupRef) (e : Enc)
  /-- PCNT (R148). -/
  | pcnt (g : GroupRef) (e : Enc)
  /-- SHFL (R153). -/
  | shfl (g : GroupRef) (e : Enc)
  /-- BCAST (R153). -/
  | bcast (g : GroupRef) (e : Enc)
  /-- ROT (R153). -/
  | rot (g : GroupRef) (e : Enc)
  /-- REDADD (R154). -/
  | redadd (g : GroupRef) (e : Enc)
  /-- REDMIN (R154). -/
  | redmin (g : GroupRef) (e : Enc)
  /-- REDMAX (R154). -/
  | redmax (g : GroupRef) (e : Enc)
  /-- SCANADD (R155). -/
  | scanadd (g : GroupRef) (e : Enc)
  /-- VTOS (R153). -/
  | vtos (g : GroupRef) (e : Enc)
  /-- STOV (R153). -/
  | stov (g : GroupRef) (e : Enc)
  /-- ROUTE (R135). -/
  | route (g : GroupRef) (e : Enc)
  /-- ROUTE_COMPLETE (R137). -/
  | routeComplete (id : Nat)
  /-- VLD (R156). -/
  | vld (g : GroupRef) (e : Enc)
  /-- VST (R156). -/
  | vst (g : GroupRef) (e : Enc)
  /-- ATOM (R210). -/
  | atom (g : GroupRef) (e : Enc)
  /-- FENCE (R204). -/
  | fence (g : GroupRef) (e : Enc)
  /-- TLD_F (R125). -/
  | tldF (g : GroupRef) (e : Enc)
  /-- TST_F (R125). -/
  | tstF (g : GroupRef) (e : Enc)
  /-- SADD (R149). -/
  | sadd (g : GroupRef) (e : Enc)
  /-- SSUB (R149). -/
  | ssub (g : GroupRef) (e : Enc)
  /-- SMUL (R149). -/
  | smul (g : GroupRef) (e : Enc)
  /-- SMAD (R150). -/
  | smad (g : GroupRef) (e : Enc)
  /-- SMIN (R149). -/
  | smin (g : GroupRef) (e : Enc)
  /-- SMAX (R149). -/
  | smax (g : GroupRef) (e : Enc)
  /-- SABS (R149). -/
  | sabs (g : GroupRef) (e : Enc)
  /-- SNEG (R149). -/
  | sneg (g : GroupRef) (e : Enc)
  /-- SAND (R149). -/
  | sand (g : GroupRef) (e : Enc)
  /-- SOR (R149). -/
  | sor (g : GroupRef) (e : Enc)
  /-- SXOR (R149). -/
  | sxor (g : GroupRef) (e : Enc)
  /-- SNOT (R149). -/
  | snot (g : GroupRef) (e : Enc)
  /-- SSHL (R149). -/
  | sshl (g : GroupRef) (e : Enc)
  /-- SSHR (R149). -/
  | sshr (g : GroupRef) (e : Enc)
  /-- SSRA (R149). -/
  | ssra (g : GroupRef) (e : Enc)
  /-- SSEL (R149). -/
  | ssel (g : GroupRef) (e : Enc)
  /-- SCLZ (R149). -/
  | sclz (g : GroupRef) (e : Enc)
  /-- SPOPC (R149). -/
  | spopc (g : GroupRef) (e : Enc)
  /-- SMOV (R150). -/
  | smov (g : GroupRef) (e : Enc)
  /-- SDIV (R149). -/
  | sdiv (g : GroupRef) (e : Enc)
  /-- SREM (R149). -/
  | srem (g : GroupRef) (e : Enc)
  /-- SDIVU (R149). -/
  | sdivu (g : GroupRef) (e : Enc)
  /-- SREMU (R149). -/
  | sremu (g : GroupRef) (e : Enc)
  /-- SCMP (R79). -/
  | scmp (g : GroupRef) (e : Enc)
  /-- RDCTR (R323). -/
  | rdctr (g : GroupRef) (e : Enc)
  /-- RDCTX (R80). -/
  | rdctx (g : GroupRef) (e : Enc)
  /-- TSET (R108). -/
  | tset (g : GroupRef) (e : Enc)
  /-- SLD (R81). -/
  | sld (g : GroupRef) (e : Enc)
  /-- SST (R81). -/
  | sst (g : GroupRef) (e : Enc)
  /-- BRA (R74). -/
  | bra (g : GroupRef) (e : Enc)
  /-- B_CC (R74). -/
  | bCc (g : GroupRef) (e : Enc)
  /-- CALL (R74). -/
  | call (g : GroupRef) (e : Enc)
  /-- JR (R56). -/
  | jr (g : GroupRef) (e : Enc)
  /-- RET (R56). -/
  | ret (g : GroupRef) (e : Enc)
  /-- SPLIT (R60). -/
  | split (g : GroupRef) (e : Enc)
  /-- ELSE (R60). -/
  | elseMask (g : GroupRef) (e : Enc)
  /-- JOIN (R60). -/
  | join (g : GroupRef) (e : Enc)
  /-- CUT (R60). -/
  | cut (g : GroupRef) (e : Enc)
  /-- ELECT (R66). -/
  | elect (g : GroupRef) (e : Enc)
  /-- TWAIT (R63). -/
  | twait (g : GroupRef) (e : Enc)
  /-- TWAIT_RETURN (R208). -/
  | twaitReturn (g : GroupRef)
  /-- SWAIT (R63). -/
  | swait (g : GroupRef) (e : Enc)
  /-- SWAIT_RETURN (R208). -/
  | swaitReturn (g : GroupRef)
  /-- END (R69). -/
  | endGroup (g : GroupRef) (e : Enc)
  /-- LAUNCH_COMPLETE (R69). -/
  | launchComplete (id : Nat)
  /-- MMA (R112). -/
  | mma (g : GroupRef) (e : Enc)
  /-- MMA_COMPLETE (R117). -/
  | mmaComplete (id : Nat)
  /-- MZERO (R118). -/
  | mzero (g : GroupRef) (e : Enc)
  /-- MDRAIN (R119). -/
  | mdrain (g : GroupRef) (e : Enc)
  /-- MDRAIN_COMPLETE (R127). -/
  | mdrainComplete (id : Nat) (bad : BitVec 512)
  /-- DMA_COPY (R163). -/
  | dmaCopy (g : GroupRef) (e : Enc)
  /-- DMA_GATHER (R163). -/
  | dmaGather (g : GroupRef) (e : Enc)
  /-- DMA_SCATTER (R163). -/
  | dmaScatter (g : GroupRef) (e : Enc)
  /-- DMA_XPOSE (R163). -/
  | dmaXpose (g : GroupRef) (e : Enc)
  /-- DMA_NARROW (R51). -/
  | dmaNarrow (g : GroupRef) (e : Enc)
  /-- DMA_BUCKET (R141). -/
  | dmaBucket (g : GroupRef) (e : Enc)
  /-- DMA_COMMAND_START (R170). -/
  | dmaCommandStart (id : Nat)
  /-- DMA_ROW_DELIVERED (R172). -/
  | dmaRowDelivered (id row : Nat)
  /-- DMA_COMMAND_COMPLETE (R173). -/
  | dmaCommandComplete (id : Nat)
  /-- PUT (R186). -/
  | put (g : GroupRef) (e : Enc)
  /-- GET (R186). -/
  | get (g : GroupRef) (e : Enc)
  /-- RATOM (R186). -/
  | ratom (g : GroupRef) (e : Enc)
  /-- SIG (R186). -/
  | sig (g : GroupRef) (e : Enc)
  /-- PUTS (R186). -/
  | puts (g : GroupRef) (e : Enc)
  /-- IPUT (R143). -/
  | iput (g : GroupRef) (e : Enc)
  /-- RED (R186). -/
  | red (g : GroupRef) (e : Enc)
  /-- RMO_TARGET_APPLY (R185). -/
  | rmoTargetApply (id : Nat)
  /-- RMO_COMPLETE (R188). -/
  | rmoComplete (id : Nat)
  /-- RMO_TIMEOUT (R190). -/
  | rmoTimeout (id : Nat)
  /-- WINDOW_EXPORT (R182). -/
  | windowExport (fn : Nat) (val : BitVec 32)
  /-- WINDOW_WITHDRAW (R182). -/
  | windowWithdraw (fn : Nat) (val : BitVec 32)
  /-- WINDOW_WITHDRAW_COMPLETE (R182). -/
  | windowWithdrawComplete (part window : Nat)
  /-- GETS (R224). -/
  | gets (c : Fin 672) (line : Nat)
  /-- GETM (R223). -/
  | getm (c : Fin 672) (line : Nat)
  /-- PUTE (R226). -/
  | pute (c : Fin 672) (line : Nat)
  /-- PUTO (R226). -/
  | puto (c : Fin 672) (line : Nat)
  /-- PUTM (R226). -/
  | putm (c : Fin 672) (line : Nat)
  /-- PUT_ACK (R227). -/
  | putAck (c : Fin 672) (line : Nat)
  /-- FWDGETS (R224). -/
  | fwdgets (c : Fin 672) (line : Nat)
  /-- FWDGETM (R224). -/
  | fwdgetm (c : Fin 672) (line : Nat)
  /-- INV (R224). -/
  | inv (c : Fin 672) (line : Nat)
  /-- SNPINVDATA (R224). -/
  | snpinvdata (c : Fin 672) (line : Nat)
  /-- SNPRD (R224). -/
  | snprd (c : Fin 672) (line : Nat)
  /-- INV_ACK (R223). -/
  | invAck (c : Fin 672) (line : Nat)
  /-- GETM_GRANT (R223). -/
  | getmGrant (c : Fin 672) (line : Nat)
  /-- PRESENCE_CLEAR (R221). -/
  | presenceClear (d : Fin 12) (line : Nat)
  /-- NCACHE_CONFIG (R230). -/
  | ncacheConfig (d : Fin 12) (val : BitVec 32)
  /-- NCACHE_CONVERSION_COMPLETE (R230). -/
  | ncacheConversionComplete (d : Fin 12)
  /-- WALK_COMPLETE (R238). -/
  | walkComplete (u : WalkUnit)
  /-- S1_RANGE (R241). -/
  | s1Range (fn p : Nat) (hi : BitVec 64)
  /-- S1_CTX (R241). -/
  | s1Ctx (fn p : Nat) (hi : BitVec 64)
  /-- S1_ALL (R241). -/
  | s1All (fn p : Nat) (hi : BitVec 64)
  /-- S2_RANGE (R241). -/
  | s2Range (fn p : Nat) (hi : BitVec 64)
  /-- S2_PART (R241). -/
  | s2Part (fn p : Nat) (hi : BitVec 64)
  /-- INVALIDATE_ALL (R241). -/
  | invalidateAll (fn p : Nat) (hi : BitVec 64)
  /-- INVALIDATION_COMPLETE (R242). -/
  | invalidationComplete (owner : Nat)
  /-- FRESP_RETRY (R249). -/
  | frespRetry (fn p : Nat) (page : BitVec 32) (ctx : Ctx)
  /-- FRESP_FAIL_PAGE (R249). -/
  | frespFailPage (fn p : Nat) (page : BitVec 32) (ctx : Ctx)
  /-- FRESP_FAIL_CONTEXT (R249). -/
  | frespFailContext (fn p : Nat) (page : BitVec 32) (ctx : Ctx)
  /-- FRING_HEAD_WRITE (R248). -/
  | fringHeadWrite (fn p : Nat) (val : BitVec 32)
  /-- SCHED_RANGE_WRITE (R250). -/
  | schedRangeWrite (p : Fin 96) (contexts : Bool) (val : BitVec 64)
  /-- DOORBELL (R259). -/
  | doorbell (fn idx size : Nat) (val : BitVec 64)
  /-- PACKET_READ (R260). -/
  | packetRead (q : Nat)
  /-- SCHEDULE (R254). -/
  | schedule (p : Nat)
  /-- SCHEDULER_TICK (R254). -/
  | schedulerTick
  /-- PREEMPTION_POINT (R255). -/
  | preemptionPoint (id : Nat)
  /-- SWITCH_COMPLETE (R256). -/
  | switchComplete (core : CoreRef)
  /-- CONTEXT_RECORD_WRITEBACK (R253). -/
  | contextRecordWriteback
  /-- COND_LAUNCH (R144). -/
  | condLaunch (q : Nat)
  /-- FANOUT (R145). -/
  | fanout (q : Nat)
  /-- DMA_PACKET (R263). -/
  | dmaPacket (q : Nat)
  /-- SIGNAL_PACKET (R262). -/
  | signalPacket (q : Nat)
  /-- WAIT_PACKET (R262). -/
  | waitPacket (q : Nat)
  /-- WAIT_TIMEOUT (R262). -/
  | waitTimeout (q : Nat)
  /-- PHASE_PACKET (R262). -/
  | phasePacket (q : Nat)
  /-- BARRIER_PACKET (R262). -/
  | barrierPacket (q : Nat)
  /-- PACKET_COMPLETE (R264). -/
  | packetComplete (q seq : Nat)
  /-- ENABLE (R258). -/
  | enable (fn : Nat) (queue : BitVec 18)
  /-- DISABLE (R258). -/
  | disable (fn : Nat) (queue : BitVec 18)
  /-- DISABLE_COMPLETE (R258). -/
  | disableComplete (q : Nat)
  /-- RESUME (R258). -/
  | resume (fn : Nat) (queue : BitVec 18)
  /-- RELOAD (R258). -/
  | reload (fn : Nat) (ctx : Ctx)
  /-- PARTITION_ENABLE (R269). -/
  | partitionEnable (p : Fin 96) (val : BitVec 64)
  /-- PARTITION_BASIN_WRITE (R268). -/
  | partitionBasinWrite (p : Fin 96) (high : Bool) (val : BitVec 64)
  /-- PARTITION_RESOURCE_WRITE (R268). -/
  | partitionResourceWrite (p : Fin 96) (reg : Fin 7) (val : BitVec 64)
  /-- PARTITION_RESET (R272). -/
  | partitionReset (p : Fin 96) (val : BitVec 64)
  /-- PARTITION_REMOVE (R272). -/
  | partitionRemove (p : Fin 96) (val : BitVec 64)
  /-- PARTITION_DRAIN_TIMEOUT (R272). -/
  | partitionDrainTimeout (p : Fin 96)
  /-- PARTITION_RESET_COMPLETE (R274). -/
  | partitionResetComplete (p : Fin 96)
  /-- PARTITION_RESET_HANG (R275). -/
  | partitionResetHang (p : Fin 96)
  /-- FLR (R273). -/
  | flr (p : Fin 96)
  /-- COMMON_RANGE_WRITE (R270). -/
  | commonRangeWrite (n : Fin 8) (val : BitVec 64)
  /-- CFG_COMMIT (R276). -/
  | cfgCommit (val : BitVec 64)
  /-- COMMIT_PARTIAL_TIMEOUT (R277). -/
  | commitPartialTimeout (unit : Fin 25)
  /-- PORT_CONTROL_WRITE (R280). -/
  | portControlWrite (k : Fin 12) (val : BitVec 32)
  /-- SUBPORT_LINK_UP (R279). -/
  | subportLinkUp (n : Fin 48)
  /-- SUBPORT_LINK_DOWN (R280). -/
  | subportLinkDown (n : Fin 48)
  /-- LINK_IDENTITY_WRITE (R281). -/
  | linkIdentityWrite (reg : Fin 4) (val : BitVec 64)
  /-- CONTROL_FRAME (R278). -/
  | controlFrame (k : Fin 12)
  /-- FOREIGN_FRAME (R283). -/
  | foreignFrame (k : Fin 12)
  /-- SESSION_OPEN (R286). -/
  | sessionOpen (val : BitVec 64)
  /-- SESSION_CLOSE (R293). -/
  | sessionClose (val : BitVec 64)
  /-- SESSION_CLOSE_COMPLETE (R293). -/
  | sessionCloseComplete (idx : Nat)
  /-- PUT_DATA (R290). -/
  | putData (m : Msg)
  /-- GET_REQUEST (R290). -/
  | getRequest (m : Msg)
  /-- GET_RESPONSE (R292). -/
  | getResponse (m : Msg)
  /-- RATOM_MESSAGE (R290). -/
  | ratomMessage (m : Msg)
  /-- RATOM_RESPONSE (R292). -/
  | ratomResponse (m : Msg)
  /-- SIG_MESSAGE (R290). -/
  | sigMessage (m : Msg)
  /-- PUTS_DATA (R290). -/
  | putsData (m : Msg)
  /-- PUTS_SIGNAL (R292). -/
  | putsSignal (m : Msg)
  /-- IPUT_ROW (R290). -/
  | iputRow (m : Msg)
  /-- RED_MESSAGE (R290). -/
  | redMessage (m : Msg)
  /-- COMP (R292). -/
  | comp (m : Msg)
  /-- ACK (R291). -/
  | ack (m : Msg)
  /-- NAK (R291). -/
  | nak (m : Msg)
  /-- HELLO (R287). -/
  | hello (m : Msg)
  /-- HELLO_ACK (R287). -/
  | helloAck (m : Msg)
  /-- REFUSE (R288). -/
  | refuse (m : Msg)
  /-- CLOSE (R293). -/
  | close (m : Msg)
  /-- KEEPALIVE (R293). -/
  | keepalive (m : Msg)
  /-- HELLO_RETRY (R288). -/
  | helloRetry (idx : Nat)
  /-- RETRANSMIT_TIMEOUT (R291). -/
  | retransmitTimeout (idx : Nat)
  /-- ACK_TIMER (R290). -/
  | ackTimer (idx : Nat)
  /-- KEEPALIVE_INTERVAL (R293). -/
  | keepaliveInterval (idx : Nat)
  /-- PEER_SILENCE (R293). -/
  | peerSilence (idx : Nat)
  /-- ARBITRATION_ROUND_END (R294). -/
  | arbitrationRoundEnd (n : Fin 48)
  /-- HOST_POWER_GOOD (R310). -/
  | hostPowerGood (pin : PowerPin)
  /-- HOST_LINK_UP (R297). -/
  | hostLinkUp (site : Fin 2) (trained : BitVec 4) (fast : Bool)
  /-- HOST_LINK_DOWN (R298). -/
  | hostLinkDown (site : Fin 2)
  /-- UCIE_FLIT_REPLAY (R298). -/
  | ucieFlitReplay (site : Fin 2)
  /-- CONFIG_REQUEST (R310). -/
  | configRequest (fn off : Nat) (write : Option (BitVec 32))
  /-- UNSUPPORTED_REQUEST (R299). -/
  | unsupportedRequest (site : Fin 2) (fn : Nat) (what : Unsupported)
  /-- SITEB_MMIO (R306). -/
  | sitebMmio (a : RegAccess)
  /-- SITEB_MAP_WRITE (R307). -/
  | sitebMapWrite (high : Bool) (val : BitVec 64)
  /-- SITE_A_PERST (R309). -/
  | siteAPerst
  /-- SITE_B_PERST (R309). -/
  | siteBPerst
  /-- MSIX_UNMASK (R302). -/
  | msixUnmask (fn vector : Nat)
  /-- EDGE_FLIT_REPLAY (R319). -/
  | edgeFlitReplay (d : Fin 12) (edge : Fin 3)
  /-- EDGE_LINK_OUT_OF_SERVICE (R319). -/
  | edgeLinkOutOfService (d : Fin 12) (edge : Fin 3)
  /-- CORRELATION_SAMPLE (R325). -/
  | correlationSample
  /-- D2D_OFFER (R327). -/
  | d2dOffer (d : Fin 12) (vmin vmax : BitVec 8)
  /-- D2D_HANDSHAKE_END (R327). -/
  | d2dHandshakeEnd
  /-- CONTROL_INTERVAL (R335). -/
  | controlInterval (m : PowerSample)
  /-- STEP_CHANGE_COMPLETE (R331). -/
  | stepChangeComplete (d : Fin 12)
  /-- PWR_CAP_WRITE (R332). -/
  | pwrCapWrite (val : BitVec 32)
  /-- PWR_FIXED_WRITE (R337). -/
  | pwrFixedWrite (val : BitVec 32)
  /-- BRAKE_ASSERT (R334). -/
  | brakeAssert
  /-- BRAKE_DEASSERT (R334). -/
  | brakeDeassert
  /-- EBB_STRETCH (R339). -/
  | ebbStretch (d : Fin 12)
  /-- EBB_STRETCH_END (R339). -/
  | ebbStretchEnd (d : Fin 12)
  /-- EBB_LIMIT_EXPIRY (R340). -/
  | ebbLimitExpiry (d : Fin 12)
  /-- EBB_RESET (R340). -/
  | ebbReset (die : Fin 13)
  /-- THERMAL_SAMPLE (R341). -/
  | thermalSample (d : Fin 12) (tempC : Nat)
  /-- BALANCE_ENABLE (R342). -/
  | balanceEnable (val : BitVec 64)
  /-- BALANCE_PERIOD (R343). -/
  | balancePeriod
  /-- BASIN_IDLE (R345). -/
  | basinIdle (b : Fin 96)
  /-- GATED_TO_RETAINED (R346). -/
  | gatedToRetained (b : Fin 96)
  /-- IDLE_EXPIRY_WAKE (R346). -/
  | idleExpiryWake (b : Fin 96)
  /-- BASIN_WAKE (R347). -/
  | basinWake (b : Fin 96) (why : WakeEvent)
  /-- BASIN_WAKE_COMPLETE (R347). -/
  | basinWakeComplete (b : Fin 96)
  /-- IDLE_HINT_WRITE (R346). -/
  | idleHintWrite (p : Nat) (val : BitVec 64)
  /-- VCMD_ACK (R406). -/
  | vcmdAck (d : Fin 12)
  /-- VCMD_ACK_TIMEOUT (R406). -/
  | vcmdAckTimeout (d : Fin 12)
  /-- RAKE_PATROL (R355): `patrol` tells a patrol's read from an access. -/
  | rakePatrol (site : ErrorSite) (patrol : Bool) (found : SectorState)
  /-- COMMON_REPAIR_COMPLETE (R358). -/
  | commonRepairComplete (row : Nat) (readbackOk : Bool)
  /-- LOCKSTEP_MISMATCH (R361). -/
  | lockstepMismatch
  /-- MGMT_RESTART_COMPLETE (R361). -/
  | mgmtRestartComplete
  /-- LAUNCH_WATCHDOG (R366). -/
  | launchWatchdog (id : Nat)
  /-- DMA_WATCHDOG (R366). -/
  | dmaWatchdog (id : Nat)
  /-- MATRIX_WATCHDOG (R366). -/
  | matrixWatchdog (id : Nat)
  /-- SUSPEND_WATCHDOG (R366). -/
  | suspendWatchdog (g : GroupRef)
  /-- INVALIDATION_WATCHDOG (R244). -/
  | invalidationWatchdog (owner : Nat)
  /-- WEIR_NO_RESPONSE (R366). -/
  | weirNoResponse
  /-- SHARED_UNIT_NO_RESPONSE (R366). -/
  | sharedUnitNoResponse (d : Fin 12)
  /-- STOP_TIMEOUT (R367). -/
  | stopTimeout (hang : CoreHang)
  /-- COLLECTION_COMPLETE (R368). -/
  | collectionComplete (partial_ : Bool)
  /-- ENGINE_RESET (R370). -/
  | engineReset (u : EngineRef)
  /-- CORE_RESET (R370). -/
  | coreReset (core : CoreRef) (l1Answers : Bool)
  /-- DIE_RESET (R372). -/
  | dieReset (d : Fin 12)
  /-- WARM_DEVICE_RESET (R370). -/
  | warmDeviceReset
  /-- COLD_RESET (R370). -/
  | coldReset
  /-- RESET_STEP_COMPLETE (R370). -/
  | resetStepComplete
  /-- RESET_ESCALATION (R370). -/
  | resetEscalation
  /-- REPLAY_COMPLETE (R377). -/
  | replayComplete (id : Nat)
  /-- REPLAY_WATCHDOG (R377). -/
  | replayWatchdog (id : Nat)
  /-- SLUICE_TIMEOUT (R374). -/
  | sluiceTimeout (p : Fin 96)
  /-- RST_REQ_ENGINE (R370). -/
  | rstReqEngine (val : BitVec 64)
  /-- RST_REQ_CORE (R370). -/
  | rstReqCore (val : BitVec 64)
  /-- RST_REQ_DIE (R370). -/
  | rstReqDie (val : BitVec 64)
  /-- RST_REQ_WARM (R370). -/
  | rstReqWarm (val : BitVec 64)
  /-- RST_REQ_COLD (R370). -/
  | rstReqCold (val : BitVec 64)
  /-- POWER_GOOD_RISE (R407). -/
  | powerGoodRise (r : BootReport)
  /-- POWER_GOOD_FALL (R408). -/
  | powerGoodFall
  /-- COLD_RST_ASSERT (R409). -/
  | coldRstAssert
  /-- RAIL_FAULT (R408). -/
  | railFault (r : Rail)
  /-- MGMT_START_TIMEOUT (R383). -/
  | mgmtStartTimeout
  /-- RECOVERY_IMAGE (R383). -/
  | recoveryImage (file : ImageFile)
  /-- READY_BIT_SET (R379). -/
  | readyBitSet (b : ReadyBit)
  /-- BOOT_DONE (R380). -/
  | bootDone
  /-- ALIAS_TREE_GENERATE (R390). -/
  | aliasTreeGenerate
  /-- GET_VERSION (R392). -/
  | getVersion (req : List Byte)
  /-- GET_CAPABILITIES (R392). -/
  | getCapabilities (req : List Byte)
  /-- NEGOTIATE_ALGORITHMS (R392). -/
  | negotiateAlgorithms (req : List Byte)
  /-- GET_DIGESTS (R392). -/
  | getDigests (req : List Byte)
  /-- GET_CERTIFICATE (R392). -/
  | getCertificate (slot : Nat) (offset length : Nat)
  /-- CHALLENGE (R392). -/
  | challenge (slot : Nat) (req : List Byte)
  /-- GET_MEASUREMENTS (R392). -/
  | getMeasurements (index : Nat) (signed : Bool) (req : List Byte)
  /-- PLDM_PLATFORM_REQUEST (R393). -/
  | pldmPlatformRequest (sensor : PldmSensor)
  /-- PLDM_FIRMWARE_UPDATE (R384). -/
  | pldmFirmwareUpdate (file : ImageFile)
  /-- MCTP_CONTROL (R393). -/
  | mctpControl (req : List Byte)
  /-- I3C_DYNAMIC_ADDRESS (R410). -/
  | i3cDynamicAddress (addr : BitVec 7)
  /-- CHAN_MAPOUT (R402). -/
  | chanMapout (tok : BitVec 8) (len : BitVec 16)
  /-- CHAN_CLEAR (R402). -/
  | chanClear (tok : BitVec 8) (len : BitVec 16)
  /-- PWR_TABLE (R402). -/
  | pwrTable (tok : BitVec 8) (len : BitVec 16)
  /-- SVN_COMMIT (R384). -/
  | svnCommit (tok : BitVec 8) (len : BitVec 16)
  /-- MEAS_EXTEND (R391). -/
  | measExtend (tok : BitVec 8) (len : BitVec 16)
  /-- BTN_DIRECTORY (R402). -/
  | btnDirectory (tok : BitVec 8) (len : BitVec 16)
  /-- MBOX_COMPLETE (R401). -/
  | mboxComplete (flashOk : Bool)
  /-- PLL_LOCK_LOSS (R348). -/
  | pllLockLoss (die : Fin 13)
  /-- HOST_LINK_RETRAIN (R298). -/
  | hostLinkRetrain (site : Fin 2)
  /-- ATS_INVALIDATION (R304). -/
  | atsInvalidation (site : Fin 2) (pasid page pages : Nat)
  /-- EDGE_MESOCHRONOUS_RETURN (R318). -/
  | edgeMesochronousReturn (d : Fin 12) (edge : Fin 2)
  /-- GETS_DATA (R224). -/
  | getsData (c : Fin 672) (line : Nat)
  /-- SNOOP_RESPONSE (R225). -/
  | snoopResponse (c : Fin 672) (line : Nat)
  /-- FEC_UNCORRECTABLE_FRAME (R280). -/
  | fecUncorrectableFrame (k : Fin 12)
  /-- RESERVED_OPC_MESSAGE (R284). -/
  | reservedOpcMessage (m : Msg)
  deriving DecidableEq, Repr

end Sys2Proof
end

