-- ==== Sys2Proof/Machine/Operands.lean ====
section
/-! DEFINITION. The operand forms of a Glaper instruction (Tables 05-1 to 05-6): its fields, its words, its immediate,
and the decode checks of R84 and R85, one for each format and major opcode. -/

namespace Sys2Proof.Machine

/-! ### Fields of the first word (Table 05-2) -/

/-- Bits hi down to lo of the operand bits. -/
def encF (e : Enc) (hi lo : Nat) : Nat := fld e.ops.toNat hi lo
/-- Bits hi down to lo of the extension word. -/
def encX (e : Enc) (hi lo : Nat) : Nat := fld e.ext.toNat hi lo
def encD (e : Enc) : Nat := encF e 45 40
def encA (e : Enc) : Nat := encF e 39 34
def encB (e : Enc) : Nat := encF e 33 28
def encC (e : Enc) : Nat := encF e 27 22
/-- T of the Reg and Imm formats. -/
def encT (e : Enc) : Nat := if e.imm then encF e 33 29 else encF e 21 17
def encRM (e : Enc) : Nat := encF e 16 15
def encSAT (e : Enc) : Bool := encF e 14 14 == 1
def encBS (e : Enc) : Bool := encF e 13 13 == 1

/-- The first word of an instruction with the given OP and FN (Table 05-1). -/
def encWord (op fn : Nat) (e : Enc) : Word :=
  BitVec.ofNat 64 (op % 64 * 2 ^ 58 + b2n e.x * 2 ^ 57 + e.g.toNat * 2 ^ 53 + b2n e.gn * 2 ^ 52 + fn % 64 * 2 ^ 46 +
    e.ops.toNat)
/-- The second word as a record shows it: 0 for a 64-bit form (R73). -/
def encHi (e : Enc) : Word := if e.x then e.ext else 0

/-- A signed field in units of 8 bytes as a byte offset (R74). -/
def encOff (e : Enc) : Int := toSigned 24 (encF e 23 0) * 8

/-- Every given range of the operand bits is 0. -/
def zeros (e : Enc) (rs : List (Nat × Nat)) : Bool := rs.all (fun r => encF e r.1 r.2 == 0)

/-- The three classes of decode fault, the lowest code reported (R84 to R86, R72). -/
def decodeCode (reserved absent invalid : Bool) : Option Nat :=
  if reserved then some 2 else if absent then some 3 else if invalid then some 4 else none

/-- The header breaks R76 or R84: lengths the opcode permits, the extension marker, a guard where none is taken. -/
def headerBad (e : Enc) (guard only64 only128 : Bool) : Bool :=
  (only64 && e.x) || (only128 && !e.x) || (e.x && encX e 63 58 != 63) || (!guard && (e.g != 0 || e.gn))

/-- A six-bit field that names a predicate or tile descriptor has its high two bits 0 (R77). -/
def num4 (n : Nat) : Bool := n < 16

/-- A type code is reserved (Table 05-4). -/
def typeReserved (t : Nat) : Bool := t > 0x10
/-- A type the vector and scalar ALUs, compare and permute accept. -/
def aluType (t : Nat) : Bool := t ≤ 6
/-- An odd register where a pair is needed. -/
def oddIf (wide : Bool) (r : Nat) : Bool := wide && r % 2 == 1

/-- FN of an operation that has no B operand: ABS, NEG, NOT, CLZ, POPC, MOV. -/
def unaryFn (fn : Nat) : Bool := fn == 6 || fn == 7 || fn == 0x0B || fn == 0x10 || fn == 0x11 || fn == 0x12
/-- FN of an operation that takes integer types only (R149). -/
def intOnlyFn (fn : Nat) : Bool := (8 ≤ fn && fn ≤ 0x0E) || fn == 0x10 || fn == 0x11 || 0x13 ≤ fn
/-- FN of a floating operation that rounds: ADD, SUB, MUL, MAD. MIN and MAX round nothing, so a non-zero RM is reserved on
them (R84), although R150 names them under RM (DEDUCED, log entry 114). -/
def roundFn (fn : Nat) : Bool := fn ≤ 3
/-- FN that VALUI (and SALUI) lists (Table 05-5). -/
def immFn (scalar : Bool) (fn : Nat) : Bool :=
  fn ≤ 2 || fn == 4 || fn == 5 || (8 ≤ fn && fn ≤ 0x0A) || (0x0C ≤ fn && fn ≤ 0x0E) || fn == 0x12 ||
    (scalar && (fn == 0x13 || fn == 0x15))

/-- Decode checks of VALU, VALUI, SALU and SALUI (R77 to R79, R82, R84, R85, R149); RM on MIN and MAX by log entry 114. -/
def decodeAlu (scalar : Bool) (fn : Nat) (e : Enc) : Option Nat :=
  let t := encT e
  let flt := isFlt t
  let wide := isWide t && !scalar
  if e.imm then
    let res := headerBad e (!scalar) false false || !immFn scalar fn || typeReserved t ||
      (fn == 0x12 && encA e != 0) ||
      (e.x && (encF e 28 0 != 0 || (!isWide t && encX e 57 32 != 0)))
    decodeCode res false (!aluType t || (flt && intOnlyFn fn) || oddIf wide (encD e) || (fn != 0x12 && oddIf wide (encA e)))
  else
    let hasB := !unaryFn fn
    let hasC := fn == 3 || fn == 0x0F
    let rounds := flt && roundFn fn
    let res := headerBad e (!scalar) true false || typeReserved t || encRM e == 3 || encF e 12 0 != 0 ||
      (!hasB && encB e != 0) || (!hasC && encC e != 0) || (!rounds && (encRM e != 0 || encSAT e)) ||
      (encBS e && (scalar || !hasB)) || (fn == 0x0F && !num4 (encC e))
    decodeCode res false (!aluType t || (flt && intOnlyFn fn) || oddIf wide (encD e) || oddIf wide (encA e) ||
      (hasB && !encBS e && oddIf wide (encB e)) || (fn == 3 && oddIf wide (encC e)))

/-- The immediate of the Imm format as bits of type t (R82, R98). -/
def immBits (e : Enc) (t : Nat) : Nat :=
  let raw := encF e 28 0
  if isFlt t then
    let f32 := if e.x then encX e 31 0 else raw * 8
    if t == 4 then f32 else convert 4 t 0 false (fun _ => 0) f32
  else
    let z : Int := if e.x then (if isWide t then toSigned 58 (encX e 57 0) else (encX e 31 0 : Nat)) else toSigned 29 raw
    ofSigned (typeBits t) z

/-- Decode checks of VSFU. -/
def decodeSfu (e : Enc) : Option Nat :=
  let t := encT e
  decodeCode (headerBad e true true false || typeReserved t || !zeros e [(33, 28), (27, 22), (16, 0)])
    false (!(t == 4 || t == 5 || t == 6))

/-- Source type of VCVT: C[5:1]. -/
def cvtSrc (e : Enc) : Nat := encC e / 2

/-- Decode checks of VCVT (R84, R97). An MX source takes RM and SAT as a narrower float row does (log entry 115). -/
def decodeCvt (e : Enc) : Option Nat :=
  let t := encT e
  let u := cvtSrc e
  let same := t == u
  let res := headerBad e true true false || typeReserved t || typeReserved u || encC e % 2 != 0 || encRM e == 3 ||
    encB e != 0 || encBS e || encF e 12 0 != 0 || ((same || floatWidens u t) && (encRM e != 0 || encSAT e)) ||
    (isInt t && isInt u && (encRM e != 0 || (encSAT e && intWidens u t)))
  decodeCode res false (!cvtPair u t || oddIf (isWide t) (encD e) || oddIf (isWide u) (encA e))

/-- A condition code is reserved, or does not match the operand types (Table 05-5a, R79). -/
def ccReserved (cc : Nat) : Bool := cc > 0xB
def ccMismatch (flt : Bool) (cc : Nat) : Bool := if flt then 6 ≤ cc && cc ≤ 9 else cc == 0xA || cc == 0xB

/-- Decode checks of VCMP and SCMP: C[5:2] is CC. -/
def decodeCmp (scalar : Bool) (e : Enc) : Option Nat :=
  let t := encT e
  let cc := encC e / 4
  let wide := isWide t && !scalar
  let res := headerBad e (!scalar) true false || encC e % 4 != 0 || ccReserved cc || !zeros e [(16, 14), (12, 0)] ||
    (if scalar then encF e 21 17 != 0 || encBS e else typeReserved t || !num4 (encD e))
  decodeCode res false
    (if scalar then ccMismatch false cc
     else !aluType t || ccMismatch (isFlt t) cc || oddIf wide (encA e) || (!encBS e && oddIf wide (encB e)))

/-- Decode checks of PRED. -/
def decodePred (fn : Nat) (e : Enc) : Option Nat :=
  let sc := fn == 5 || fn == 6
  let two := fn ≤ 2
  let res := headerBad e (!sc) true false || !zeros e [(27, 0)] || (!two && encB e != 0) ||
    (if sc then !num4 (encA e) else !num4 (encD e)) || (fn ≤ 3 && !num4 (encA e)) || (two && !num4 (encB e))
  decodeCode res false false

/-- Decode checks of VPERM: FN SHFL 0, BCAST 1, ROT 2, REDADD 3, REDMIN 4, REDMAX 5, SCANADD 6, VTOS 7, STOV 8. The sums of
REDADD and SCANADD take RM and SAT as a float ADD does (R84, R96, log entry 96). -/
def decodePerm (fn : Nat) (e : Enc) : Option Nat :=
  let t := encT e
  let wide := isWide t
  let hasB := fn ≤ 2 || fn == 7
  let rounds := isFlt t && (fn == 3 || fn == 6)
  let dVec := fn ≤ 2 || fn == 6 || fn == 8
  let res := headerBad e true true false || typeReserved t || encRM e == 3 || !zeros e [(27, 22), (12, 0)] ||
    (!hasB && encB e != 0) || (!rounds && (encRM e != 0 || encSAT e)) || (encBS e && fn != 0)
  decodeCode res false
    (!aluType t || (dVec && oddIf wide (encD e)) || (fn != 8 && oddIf wide (encA e)) ||
      (fn == 0 && !encBS e && oddIf wide (encB e)))

/-- Decode checks of ROUTE (Table 05-6, R82, R85, R135, R139). -/
def decodeRoute (kind : Nat) (e : Enc) : Option Nat :=
  let t := encT e
  let k := encX e 57 54
  let res := headerBad e false false true || typeReserved t || !zeros e [(16, 0)] || encX e 53 53 != 0 ||
    encX e 40 0 != 0 || encX e 42 41 == 3
  decodeCode res (kind == 0) (!(t == 4 || t == 5 || t == 6) || k == 0 || k > 8 || k > encX e 52 43 + 1)

/-- Decode checks of VLD, VST, SLD and SST (R81). SZ is bits 25:23, SX bit 22, IX bit 27, SPC bit 26. -/
def decodeMem (scalar store : Bool) (e : Enc) : Option Nat :=
  let sz := encF e 25 23
  let ix := encF e 27 27 == 1
  let res := headerBad e (!scalar) true false || sz > 3 || (ix && scalar) || (!ix && encB e != 0) ||
    (encF e 22 22 == 1 && (store || sz > 1))
  decodeCode res false (oddIf (sz == 3 && !scalar) (encD e))

/-- Decode checks of ATOM (R81, R84, R85). AOP bits 19:16, SZ bit 15, SPC bit 14, VEC bit 13. FADD, an F32 operation, with
SZ = 1 is an invalid operand, 0x04: the manual gives the pair no code (DESIGN CHOICE, log entry 113). -/
def decodeAtom (e : Enc) : Option Nat :=
  let aop := encF e 19 16
  let vec := encF e 13 13 == 1
  let wide := encF e 15 15 == 1 && vec
  let res := headerBad e vec true false || aop > 0xA || encF e 12 0 != 0 || (aop != 9 && encC e != 0)
  decodeCode res false
    ((aop == 0xA && encF e 15 15 == 1) || oddIf wide (encD e) || oddIf wide (encB e) || (aop == 9 && oddIf wide (encC e)))

/-- Decode checks of FENCE (`scope`), and of NOP and END, whose SC is 0. -/
def decodeBare (scope : Bool) (e : Enc) : Option Nat :=
  decodeCode (headerBad e false true false || !zeros e [(45, 22), (19, 0)] || (!scope && encF e 21 20 != 0)) false false

/-- Decode checks of TLD.F and TST.F: V bits 45:40, A 39:34, TD 33:30 (R125). -/
def decodeFrag (e : Enc) : Option Nat :=
  decodeCode (headerBad e false true false || encF e 29 0 != 0) false (encD e > 60)

/-- Decode checks of SSYS: RDCTR 0, RDCTX 1, TSET 2. -/
def decodeSys (fn : Nat) (e : Enc) : Option Nat :=
  let res := headerBad e false true false || !zeros e [(27, 0)] ||
    (if fn == 2 then !num4 (encD e) else encA e != 0 || encB e != 0)
  decodeCode res false false

/-- Decode checks of BR: BRA 0, B.cc 1, CALL 2, JR 3, RET 4. -/
def decodeBr (fn : Nat) (e : Enc) : Option Nat :=
  let cc := encF e 27 24
  let un : List (Nat × Nat) :=
    match fn with
    | 0 => [(45, 24)]
    | 1 => [(45, 40)]
    | 2 => [(39, 24)]
    | _ => [(45, 40), (33, 0)]
  decodeCode (headerBad e false true false || !zeros e un || (fn == 1 && ccReserved cc)) false
    (fn == 1 && ccMismatch false cc)

/-- Decode checks of MASK: SPLIT 0, ELSE 1, JOIN 2, CUT 3, ELECT 4. P bits 45:42, S 41:36, OFF 23:0. -/
def decodeMask (fn : Nat) (e : Enc) : Option Nat :=
  let un : List (Nat × Nat) :=
    match fn with
    | 0 => [(41, 24)]
    | 1 => [(45, 24)]
    | 2 => [(45, 0)]
    | 3 => [(41, 24)]
    | _ => [(35, 0)]
  decodeCode (headerBad e false true false || !zeros e un) false false

/-- Decode checks of WAIT: TWAIT 0, SWAIT 1. A 39:34, B 33:28, CC 27:24, TMASK 15:0. -/
def decodeWait (fn : Nat) (e : Enc) : Option Nat :=
  let cc := encF e 27 24
  if fn == 0 then decodeCode (headerBad e false true false || !zeros e [(45, 16)]) false false
  else decodeCode (headerBad e false true false || !zeros e [(45, 40), (23, 0)] || ccReserved cc) false (ccMismatch false cc)

/-- A floating matrix type of R111. -/
def mmaFlt (t : Nat) : Bool := t == 5 || t == 6 || t == 7 || t == 8 || (0x0B ≤ t && t ≤ 0x0F)
/-- FA and FB are a pair that R111 accepts. -/
def mmaPair (fa fb : Nat) : Bool :=
  (mmaFlt fa && (mmaFlt fb || fb == 0x10)) || ((fa == 9 || fa == 0x0A) && (fb == 9 || fb == 0x0A))

/-- Decode checks of MMA. TA 45:42, TB 41:38, TM 37:34, ACC 33, ARR 32, FA 31:27, FB 26:22, SP 21:20, BS 19, ZS 18,
CLR 17. -/
def decodeMma (kind : Nat) (e : Enc) : Option Nat :=
  let fa := encF e 31 27
  let fb := encF e 26 22
  let res := headerBad e true true false || encF e 16 0 != 0 || encF e 21 20 == 3 || typeReserved fa || typeReserved fb ||
    (encF e 19 19 == 0 && encF e 37 34 != 0)
  decodeCode res (kind == 1 || kind == 2) (!mmaPair fa fb || (kind == 3 && encF e 32 32 == 1))

/-- A drain type (R119). -/
def drainType (t : Nat) : Bool := (4 ≤ t && t ≤ 9) || t == 0x0B || t == 0x0C

/-- Decode checks of MTILE: MZERO 0, MDRAIN 1. -/
def decodeTile (fn kind : Nat) (e : Enc) : Option Nat :=
  let t := encF e 21 17
  let hdr := headerBad e true true false
  let lake := kind == 3 && encF e 32 32 == 1
  let absent := kind == 1 || kind == 2
  if fn == 0 then decodeCode (hdr || !zeros e [(45, 34), (31, 0)]) absent lake
  else
    let res := hdr || !zeros e [(41, 34), (31, 22), (13, 0)] || typeReserved t || encRM e == 3 ||
      (t == 4 && (encRM e != 0 || encSAT e)) || (t == 9 && encRM e != 0)
    decodeCode res absent (!drainType t || lake)

/-- Decode checks of DMA: CH 45:43, TS 42:39, TU 38, A 37:32, SPC 31 (R24). -/
def decodeDma (kind : Nat) (e : Enc) : Option Nat :=
  let ch := encF e 45 43
  decodeCode (headerBad e true true false || encF e 30 0 != 0 || (encF e 38 38 == 0 && encF e 42 39 != 0)) false
    (if kind == 3 then ch == 7 else ch != 0)

/-- Decode checks of RMO (Table 05-7, R83, R186): PUT 0, GET 1, RATOM 2, SIG 3, PUTS 4, IPUT 5, RED 6. L 45:40, O 39:34,
N 33:28, V 27:22, TS 21:18, TU 17, NL 16, AOP 15:12, T 11:7. -/
def decodeRmo (fn : Nat) (e : Enc) : Option Nat :=
  let aop := encF e 15 12
  let t := encF e 11 7
  let hasL := fn != 3
  let hasN := fn == 0 || fn == 1 || fn == 4 || fn == 5 || fn == 6
  let hasV := fn == 2 || fn == 3 || fn == 4
  let typed := fn == 2 || fn == 6
  let v := encF e 27 22
  let res := headerBad e true false true || encF e 6 0 != 0 || encX e 9 0 != 0 || (fn != 4 && encX e 25 10 != 0) ||
    (!hasL && encD e != 0) || (!hasN && encF e 33 28 != 0) || (!hasV && v != 0) ||
    (encF e 17 17 == 0 && encF e 21 18 != 0) || (!typed && (aop != 0 || t != 0)) ||
    (typed && (aop > 0xA || typeReserved t))
  decodeCode res false
    ((fn == 4 && v % 2 == 1) || (fn == 2 && aop == 9 && v % 2 == 1) || (fn == 2 && (t > 4 || (aop == 0xA && t != 4))) ||
      (fn == 6 && (aop != 0xA || !(t == 4 || t == 5))))

end Sys2Proof.Machine
end

