-- ==== Sys2Proof/WellFormed.lean ====
section
/-! DEFINITION. Well-formed commands: every number names something the device has (a core, a group slot, a queue, a
function, a line), and an instruction carries a second word or an immediate form only where Table 05-5 has one. -/

namespace Sys2Proof

/-- A core reference names a core of Pond mode or a Lake core (R35). -/
def coreWf (c : CoreRef) : Bool :=
  if c.toNat < 1024 then decide (c.toNat < 768 ∧ c.toNat % 8 ≠ 7) else decide (c.toNat % 1024 < 96)

/-- A group slot exists on its kind of core (Table 04-2). -/
def GroupRef.wf (g : GroupRef) : Bool :=
  coreWf g.core &&
    (if g.core.toNat < 1024 then
      (if g.core.toNat % 8 < 4 then decide (g.slot.toNat < 8) else if g.core.toNat % 8 < 6 then decide (g.slot.toNat < 32)
       else decide (g.slot.toNat < 16))
     else decide (g.slot.toNat < 112))

/-- A 64-bit form has no second word; the immediate form exists only where it is listed (R74, Table 05-5). -/
def Enc.wf (e : Enc) (immForm : Bool) : Bool := (e.x || e.ext == 0) && (immForm || !e.imm)

/-- A partition, or 127 for PF0. -/
def unitWf (p : Nat) : Bool := decide (p < 96 ∨ p = 127)

/-- A function that reaches the instance block of p: PF0, or the VF of p (R398). -/
def blockWf (fn p : Nat) : Bool := unitWf p && decide (fn = 0 ∨ (p < 96 ∧ fn = p + 1))

/-- The size of an access that reaches a BAR. -/
def sizeWf (n : Nat) : Bool := n == 1 || n == 2 || n == 4 || n == 8 || n == 16

/-- A register access lies in the BAR of its function (R394). -/
def RegAccess.wf (a : RegAccess) : Bool :=
  decide (a.fn ≤ 96) && sizeWf a.size && decide (a.off < (if a.bar2 then 2 ^ 14 else if a.fn = 0 then 2 ^ 27 else 2 ^ 20))

/-- A message's payload is at most a datagram's (R284). -/
def Msg.wf (m : Msg) : Bool := decide (m.payload.length ≤ 4096)

/-- An engine exists on its core (Table 22-5). -/
def EngineRef.wf (u : EngineRef) : Bool := coreWf u.core

/-- The unit whose walk finishes exists. -/
def WalkUnit.wf : WalkUnit → Bool
  | .group g => g.wf
  | .dma _ => true
  | .page die _ _ => decide (die < 12 ∨ die = 15)

/-- A command is well formed. -/
def Instr.wf : Instr → Bool
  | .registerWrite a => a.wf
  | .sitebTrainRequest _ => true
  | .sitebConfigAccess off _ => decide (off < 4096)
  | .modeChangeWrite _ _ => true
  | .modeChangeComplete _ _ => true
  | .pondFallbackComplete _ _ => true
  | .sharedSizeChange _ => true
  | .sharedSizeChangeComplete => true
  | .wholeChannelFailure _ => true
  | .nop g e => g.wf && e.wf false
  | .vadd g e => g.wf && e.wf true
  | .vsub g e => g.wf && e.wf true
  | .vmul g e => g.wf && e.wf true
  | .vmad g e => g.wf && e.wf false
  | .vmin g e => g.wf && e.wf true
  | .vmax g e => g.wf && e.wf true
  | .vabs g e => g.wf && e.wf false
  | .vneg g e => g.wf && e.wf false
  | .vand g e => g.wf && e.wf true
  | .vor g e => g.wf && e.wf true
  | .vxor g e => g.wf && e.wf true
  | .vnot g e => g.wf && e.wf false
  | .vshl g e => g.wf && e.wf true
  | .vshr g e => g.wf && e.wf true
  | .vsra g e => g.wf && e.wf true
  | .vsel g e => g.wf && e.wf false
  | .vclz g e => g.wf && e.wf false
  | .vpopc g e => g.wf && e.wf false
  | .vmov g e => g.wf && e.wf true
  | .vrcp g e => g.wf && e.wf false
  | .vrsq g e => g.wf && e.wf false
  | .vsqrt g e => g.wf && e.wf false
  | .vexp2 g e => g.wf && e.wf false
  | .vlog2 g e => g.wf && e.wf false
  | .vsin g e => g.wf && e.wf false
  | .vcos g e => g.wf && e.wf false
  | .vtanh g e => g.wf && e.wf false
  | .vsigmoid g e => g.wf && e.wf false
  | .vcvt g e => g.wf && e.wf false
  | .vcmp g e => g.wf && e.wf false
  | .pand g e => g.wf && e.wf false
  | .por g e => g.wf && e.wf false
  | .pxor g e => g.wf && e.wf false
  | .pnot g e => g.wf && e.wf false
  | .pmov g e => g.wf && e.wf false
  | .ptos g e => g.wf && e.wf false
  | .pcnt g e => g.wf && e.wf false
  | .shfl g e => g.wf && e.wf false
  | .bcast g e => g.wf && e.wf false
  | .rot g e => g.wf && e.wf false
  | .redadd g e => g.wf && e.wf false
  | .redmin g e => g.wf && e.wf false
  | .redmax g e => g.wf && e.wf false
  | .scanadd g e => g.wf && e.wf false
  | .vtos g e => g.wf && e.wf false
  | .stov g e => g.wf && e.wf false
  | .route g e => g.wf && e.wf false
  | .routeComplete _ => true
  | .vld g e => g.wf && e.wf false
  | .vst g e => g.wf && e.wf false
  | .atom g e => g.wf && e.wf false
  | .fence g e => g.wf && e.wf false
  | .tldF g e => g.wf && e.wf false
  | .tstF g e => g.wf && e.wf false
  | .sadd g e => g.wf && e.wf true
  | .ssub g e => g.wf && e.wf true
  | .smul g e => g.wf && e.wf true
  | .smad g e => g.wf && e.wf false
  | .smin g e => g.wf && e.wf true
  | .smax g e => g.wf && e.wf true
  | .sabs g e => g.wf && e.wf false
  | .sneg g e => g.wf && e.wf false
  | .sand g e => g.wf && e.wf true
  | .sor g e => g.wf && e.wf true
  | .sxor g e => g.wf && e.wf true
  | .snot g e => g.wf && e.wf false
  | .sshl g e => g.wf && e.wf true
  | .sshr g e => g.wf && e.wf true
  | .ssra g e => g.wf && e.wf true
  | .ssel g e => g.wf && e.wf false
  | .sclz g e => g.wf && e.wf false
  | .spopc g e => g.wf && e.wf false
  | .smov g e => g.wf && e.wf true
  | .sdiv g e => g.wf && e.wf true
  | .srem g e => g.wf && e.wf false
  | .sdivu g e => g.wf && e.wf true
  | .sremu g e => g.wf && e.wf false
  | .scmp g e => g.wf && e.wf false
  | .rdctr g e => g.wf && e.wf false
  | .rdctx g e => g.wf && e.wf false
  | .tset g e => g.wf && e.wf false
  | .sld g e => g.wf && e.wf false
  | .sst g e => g.wf && e.wf false
  | .bra g e => g.wf && e.wf false
  | .bCc g e => g.wf && e.wf false
  | .call g e => g.wf && e.wf false
  | .jr g e => g.wf && e.wf false
  | .ret g e => g.wf && e.wf false
  | .split g e => g.wf && e.wf false
  | .elseMask g e => g.wf && e.wf false
  | .join g e => g.wf && e.wf false
  | .cut g e => g.wf && e.wf false
  | .elect g e => g.wf && e.wf false
  | .twait g e => g.wf && e.wf false
  | .twaitReturn g => g.wf
  | .swait g e => g.wf && e.wf false
  | .swaitReturn g => g.wf
  | .endGroup g e => g.wf && e.wf false
  | .launchComplete _ => true
  | .mma g e => g.wf && e.wf false
  | .mmaComplete _ => true
  | .mzero g e => g.wf && e.wf false
  | .mdrain g e => g.wf && e.wf false
  | .mdrainComplete _ _ => true
  | .dmaCopy g e => g.wf && e.wf false
  | .dmaGather g e => g.wf && e.wf false
  | .dmaScatter g e => g.wf && e.wf false
  | .dmaXpose g e => g.wf && e.wf false
  | .dmaNarrow g e => g.wf && e.wf false
  | .dmaBucket g e => g.wf && e.wf false
  | .dmaCommandStart _ => true
  | .dmaRowDelivered _ _ => true
  | .dmaCommandComplete _ => true
  | .put g e => g.wf && e.wf false
  | .get g e => g.wf && e.wf false
  | .ratom g e => g.wf && e.wf false
  | .sig g e => g.wf && e.wf false
  | .puts g e => g.wf && e.wf false
  | .iput g e => g.wf && e.wf false
  | .red g e => g.wf && e.wf false
  | .rmoTargetApply _ => true
  | .rmoComplete _ => true
  | .rmoTimeout _ => true
  | .windowExport fn _ => decide (fn ≤ 96)
  | .windowWithdraw fn _ => decide (fn ≤ 96)
  | .windowWithdrawComplete part window => unitWf part && decide (window < 65536)
  | .gets _ line => decide (line < 2 ^ 23)
  | .getm _ line => decide (line < 2 ^ 23)
  | .pute _ line => decide (line < 2 ^ 23)
  | .puto _ line => decide (line < 2 ^ 23)
  | .putm _ line => decide (line < 2 ^ 23)
  | .putAck _ line => decide (line < 2 ^ 23)
  | .fwdgets _ line => decide (line < 2 ^ 23)
  | .fwdgetm _ line => decide (line < 2 ^ 23)
  | .inv _ line => decide (line < 2 ^ 23)
  | .snpinvdata _ line => decide (line < 2 ^ 23)
  | .snprd _ line => decide (line < 2 ^ 23)
  | .invAck _ line => decide (line < 2 ^ 23)
  | .getmGrant _ line => decide (line < 2 ^ 23)
  | .presenceClear _ line => decide (line < 2 ^ 23)
  | .ncacheConfig _ _ => true
  | .ncacheConversionComplete _ => true
  | .walkComplete u => u.wf
  | .s1Range fn p _ => blockWf fn p
  | .s1Ctx fn p _ => blockWf fn p
  | .s1All fn p _ => blockWf fn p
  | .s2Range fn p _ => blockWf fn p
  | .s2Part fn p _ => blockWf fn p
  | .invalidateAll fn p _ => blockWf fn p
  | .invalidationComplete owner => unitWf owner
  | .frespRetry fn p _ _ => blockWf fn p
  | .frespFailPage fn p _ _ => blockWf fn p
  | .frespFailContext fn p _ _ => blockWf fn p
  | .fringHeadWrite fn p _ => blockWf fn p
  | .schedRangeWrite _ _ _ => true
  | .doorbell fn idx size _ => decide (fn ≤ 96) && decide (idx < 2 ^ 18) && sizeWf size
  | .packetRead q => decide (q < 2 ^ 18)
  | .schedule p => unitWf p
  | .schedulerTick => true
  | .preemptionPoint _ => true
  | .switchComplete core => coreWf core
  | .contextRecordWriteback => true
  | .condLaunch q => decide (q < 2 ^ 18)
  | .fanout q => decide (q < 2 ^ 18)
  | .dmaPacket q => decide (q < 2 ^ 18)
  | .signalPacket q => decide (q < 2 ^ 18)
  | .waitPacket q => decide (q < 2 ^ 18)
  | .waitTimeout q => decide (q < 2 ^ 18)
  | .phasePacket q => decide (q < 2 ^ 18)
  | .barrierPacket q => decide (q < 2 ^ 18)
  | .packetComplete q _ => decide (q < 2 ^ 18)
  | .enable fn _ => decide (fn ≤ 96)
  | .disable fn _ => decide (fn ≤ 96)
  | .disableComplete q => decide (q < 2 ^ 18)
  | .resume fn _ => decide (fn ≤ 96)
  | .reload fn _ => decide (fn ≤ 96)
  | .partitionEnable _ _ => true
  | .partitionBasinWrite _ _ _ => true
  | .partitionResourceWrite _ _ _ => true
  | .partitionReset _ _ => true
  | .partitionRemove _ _ => true
  | .partitionDrainTimeout _ => true
  | .partitionResetComplete _ => true
  | .partitionResetHang _ => true
  | .flr _ => true
  | .commonRangeWrite _ _ => true
  | .cfgCommit _ => true
  | .commitPartialTimeout _ => true
  | .portControlWrite _ _ => true
  | .subportLinkUp _ => true
  | .subportLinkDown _ => true
  | .linkIdentityWrite _ _ => true
  | .controlFrame _ => true
  | .foreignFrame _ => true
  | .sessionOpen _ => true
  | .sessionClose _ => true
  | .sessionCloseComplete idx => decide (idx < 4096)
  | .putData m => m.wf
  | .getRequest m => m.wf
  | .getResponse m => m.wf
  | .ratomMessage m => m.wf
  | .ratomResponse m => m.wf
  | .sigMessage m => m.wf
  | .putsData m => m.wf
  | .putsSignal m => m.wf
  | .iputRow m => m.wf
  | .redMessage m => m.wf
  | .comp m => m.wf
  | .ack m => m.wf
  | .nak m => m.wf
  | .hello m => m.wf
  | .helloAck m => m.wf
  | .refuse m => m.wf
  | .close m => m.wf
  | .keepalive m => m.wf
  | .helloRetry idx => decide (idx < 4096)
  | .retransmitTimeout idx => decide (idx < 4096)
  | .ackTimer idx => decide (idx < 4096)
  | .keepaliveInterval idx => decide (idx < 4096)
  | .peerSilence idx => decide (idx < 4096)
  | .arbitrationRoundEnd _ => true
  | .hostPowerGood _ => true
  | .hostLinkUp _ _ _ => true
  | .hostLinkDown _ => true
  | .ucieFlitReplay _ => true
  | .configRequest fn off _ => decide (fn ≤ 96) && decide (off < 4096)
  | .unsupportedRequest _ fn _ => decide (fn ≤ 96)
  | .sitebMmio a => a.wf
  | .sitebMapWrite _ _ => true
  | .siteAPerst => true
  | .siteBPerst => true
  | .msixUnmask fn vector => decide (fn ≤ 96) && decide (vector < 64)
  | .edgeFlitReplay _ _ => true
  | .edgeLinkOutOfService _ _ => true
  | .correlationSample => true
  | .d2dOffer _ _ _ => true
  | .d2dHandshakeEnd => true
  | .controlInterval _ => true
  | .stepChangeComplete _ => true
  | .pwrCapWrite _ => true
  | .pwrFixedWrite _ => true
  | .brakeAssert => true
  | .brakeDeassert => true
  | .ebbStretch _ => true
  | .ebbStretchEnd _ => true
  | .ebbLimitExpiry _ => true
  | .ebbReset _ => true
  | .thermalSample _ _ => true
  | .balanceEnable _ => true
  | .balancePeriod => true
  | .basinIdle _ => true
  | .gatedToRetained _ => true
  | .idleExpiryWake _ => true
  | .basinWake _ _ => true
  | .basinWakeComplete _ => true
  | .idleHintWrite p _ => unitWf p
  | .vcmdAck _ => true
  | .vcmdAckTimeout _ => true
  | .rakePatrol site _ _ => (match site with
      | .channel _ sector => decide (sector < 2 ^ 19)
      | .sharedSector line _ => decide (line < 2 ^ 23)
      | .narrowSector region _ => decide (region < 384 * 2 ^ 17)
      | .l1 _ line _ => decide (line < 2 ^ 23)
      | .queueWord q => decide (q < 2 ^ 18)
      | _ => true)
  | .commonRepairComplete row _ => decide (row < 384 * 2 ^ 12)
  | .lockstepMismatch => true
  | .mgmtRestartComplete => true
  | .launchWatchdog _ => true
  | .dmaWatchdog _ => true
  | .matrixWatchdog _ => true
  | .suspendWatchdog g => g.wf
  | .invalidationWatchdog owner => unitWf owner
  | .weirNoResponse => true
  | .sharedUnitNoResponse _ => true
  | .stopTimeout hang => coreWf hang.core
  | .collectionComplete _ => true
  | .engineReset u => u.wf
  | .coreReset core _ => coreWf core
  | .dieReset _ => true
  | .warmDeviceReset => true
  | .coldReset => true
  | .resetStepComplete => true
  | .resetEscalation => true
  | .replayComplete _ => true
  | .replayWatchdog _ => true
  | .sluiceTimeout _ => true
  | .rstReqEngine _ => true
  | .rstReqCore _ => true
  | .rstReqDie _ => true
  | .rstReqWarm _ => true
  | .rstReqCold _ => true
  | .powerGoodRise _ => true
  | .powerGoodFall => true
  | .coldRstAssert => true
  | .railFault _ => true
  | .mgmtStartTimeout => true
  | .recoveryImage _ => true
  | .readyBitSet _ => true
  | .bootDone => true
  | .aliasTreeGenerate => true
  | .getVersion _ => true
  | .getCapabilities _ => true
  | .negotiateAlgorithms _ => true
  | .getDigests _ => true
  | .getCertificate _ _ _ => true
  | .challenge _ _ => true
  | .getMeasurements _ _ _ => true
  | .pldmPlatformRequest _ => true
  | .pldmFirmwareUpdate _ => true
  | .mctpControl _ => true
  | .i3cDynamicAddress _ => true
  | .chanMapout _ _ => true
  | .chanClear _ _ => true
  | .pwrTable _ _ => true
  | .svnCommit _ _ => true
  | .measExtend _ _ => true
  | .btnDirectory _ _ => true
  | .mboxComplete _ => true
  | .pllLockLoss _ => true
  | .hostLinkRetrain _ => true
  | .atsInvalidation _ pasid _ _ => decide (pasid < 2 ^ 20)
  | .edgeMesochronousReturn _ _ => true
  | .getsData _ line => decide (line < 2 ^ 23)
  | .snoopResponse _ line => decide (line < 2 ^ 23)
  | .fecUncorrectableFrame _ => true
  | .reservedOpcMessage m => m.wf

end Sys2Proof
end

