-- ==== Sys2Proof/Decode.lean ====
section
/-! DEFINITION. The rows of the table carry no bits, so no table word spells a command. The Glaper instructions among the
commands have words of their own (chapter 5): their parts, their encoder, and the decoder from two words. -/

namespace Sys2Proof

/-- The command a word spells by the table's bits: no row of the table gives bits. -/
def decodeTableWord (_nbits _w : Nat) : Option Instr := none

/-- The parts of a Glaper instruction: the group that issues it, its operand bits, OP and FN (Table 05-5). -/
structure Glaper where
  g : GroupRef
  e : Enc
  op : Nat
  fn : Nat
  deriving DecidableEq, Repr

/-- OP of an instruction with a register and an immediate form. -/
def opImm (reg imm : Nat) (e : Enc) : Nat := if e.imm then imm else reg

/-- The parts of an instruction, none for a command that is no Glaper instruction. -/
def glaper : Instr → Option Glaper
  | .nop g e => some ⟨g, e, 0x01, 0x00⟩
  | .vadd g e => some ⟨g, e, opImm 0x04 0x05 e, 0x00⟩
  | .vsub g e => some ⟨g, e, opImm 0x04 0x05 e, 0x01⟩
  | .vmul g e => some ⟨g, e, opImm 0x04 0x05 e, 0x02⟩
  | .vmad g e => some ⟨g, e, 0x04, 0x03⟩
  | .vmin g e => some ⟨g, e, opImm 0x04 0x05 e, 0x04⟩
  | .vmax g e => some ⟨g, e, opImm 0x04 0x05 e, 0x05⟩
  | .vabs g e => some ⟨g, e, 0x04, 0x06⟩
  | .vneg g e => some ⟨g, e, 0x04, 0x07⟩
  | .vand g e => some ⟨g, e, opImm 0x04 0x05 e, 0x08⟩
  | .vor g e => some ⟨g, e, opImm 0x04 0x05 e, 0x09⟩
  | .vxor g e => some ⟨g, e, opImm 0x04 0x05 e, 0x0A⟩
  | .vnot g e => some ⟨g, e, 0x04, 0x0B⟩
  | .vshl g e => some ⟨g, e, opImm 0x04 0x05 e, 0x0C⟩
  | .vshr g e => some ⟨g, e, opImm 0x04 0x05 e, 0x0D⟩
  | .vsra g e => some ⟨g, e, opImm 0x04 0x05 e, 0x0E⟩
  | .vsel g e => some ⟨g, e, 0x04, 0x0F⟩
  | .vclz g e => some ⟨g, e, 0x04, 0x10⟩
  | .vpopc g e => some ⟨g, e, 0x04, 0x11⟩
  | .vmov g e => some ⟨g, e, opImm 0x04 0x05 e, 0x12⟩
  | .vrcp g e => some ⟨g, e, 0x06, 0x00⟩
  | .vrsq g e => some ⟨g, e, 0x06, 0x01⟩
  | .vsqrt g e => some ⟨g, e, 0x06, 0x02⟩
  | .vexp2 g e => some ⟨g, e, 0x06, 0x03⟩
  | .vlog2 g e => some ⟨g, e, 0x06, 0x04⟩
  | .vsin g e => some ⟨g, e, 0x06, 0x05⟩
  | .vcos g e => some ⟨g, e, 0x06, 0x06⟩
  | .vtanh g e => some ⟨g, e, 0x06, 0x07⟩
  | .vsigmoid g e => some ⟨g, e, 0x06, 0x08⟩
  | .vcvt g e => some ⟨g, e, 0x07, 0x00⟩
  | .vcmp g e => some ⟨g, e, 0x08, 0x00⟩
  | .pand g e => some ⟨g, e, 0x09, 0x00⟩
  | .por g e => some ⟨g, e, 0x09, 0x01⟩
  | .pxor g e => some ⟨g, e, 0x09, 0x02⟩
  | .pnot g e => some ⟨g, e, 0x09, 0x03⟩
  | .pmov g e => some ⟨g, e, 0x09, 0x04⟩
  | .ptos g e => some ⟨g, e, 0x09, 0x05⟩
  | .pcnt g e => some ⟨g, e, 0x09, 0x06⟩
  | .shfl g e => some ⟨g, e, 0x0A, 0x00⟩
  | .bcast g e => some ⟨g, e, 0x0A, 0x01⟩
  | .rot g e => some ⟨g, e, 0x0A, 0x02⟩
  | .redadd g e => some ⟨g, e, 0x0A, 0x03⟩
  | .redmin g e => some ⟨g, e, 0x0A, 0x04⟩
  | .redmax g e => some ⟨g, e, 0x0A, 0x05⟩
  | .scanadd g e => some ⟨g, e, 0x0A, 0x06⟩
  | .vtos g e => some ⟨g, e, 0x0A, 0x07⟩
  | .stov g e => some ⟨g, e, 0x0A, 0x08⟩
  | .route g e => some ⟨g, e, 0x0B, 0x00⟩
  | .vld g e => some ⟨g, e, 0x0C, 0x00⟩
  | .vst g e => some ⟨g, e, 0x0D, 0x00⟩
  | .atom g e => some ⟨g, e, 0x0E, 0x00⟩
  | .fence g e => some ⟨g, e, 0x0F, 0x00⟩
  | .tldF g e => some ⟨g, e, 0x10, 0x00⟩
  | .tstF g e => some ⟨g, e, 0x11, 0x00⟩
  | .sadd g e => some ⟨g, e, opImm 0x18 0x19 e, 0x00⟩
  | .ssub g e => some ⟨g, e, opImm 0x18 0x19 e, 0x01⟩
  | .smul g e => some ⟨g, e, opImm 0x18 0x19 e, 0x02⟩
  | .smad g e => some ⟨g, e, 0x18, 0x03⟩
  | .smin g e => some ⟨g, e, opImm 0x18 0x19 e, 0x04⟩
  | .smax g e => some ⟨g, e, opImm 0x18 0x19 e, 0x05⟩
  | .sabs g e => some ⟨g, e, 0x18, 0x06⟩
  | .sneg g e => some ⟨g, e, 0x18, 0x07⟩
  | .sand g e => some ⟨g, e, opImm 0x18 0x19 e, 0x08⟩
  | .sor g e => some ⟨g, e, opImm 0x18 0x19 e, 0x09⟩
  | .sxor g e => some ⟨g, e, opImm 0x18 0x19 e, 0x0A⟩
  | .snot g e => some ⟨g, e, 0x18, 0x0B⟩
  | .sshl g e => some ⟨g, e, opImm 0x18 0x19 e, 0x0C⟩
  | .sshr g e => some ⟨g, e, opImm 0x18 0x19 e, 0x0D⟩
  | .ssra g e => some ⟨g, e, opImm 0x18 0x19 e, 0x0E⟩
  | .ssel g e => some ⟨g, e, 0x18, 0x0F⟩
  | .sclz g e => some ⟨g, e, 0x18, 0x10⟩
  | .spopc g e => some ⟨g, e, 0x18, 0x11⟩
  | .smov g e => some ⟨g, e, opImm 0x18 0x19 e, 0x12⟩
  | .sdiv g e => some ⟨g, e, opImm 0x18 0x19 e, 0x13⟩
  | .srem g e => some ⟨g, e, 0x18, 0x14⟩
  | .sdivu g e => some ⟨g, e, opImm 0x18 0x19 e, 0x15⟩
  | .sremu g e => some ⟨g, e, 0x18, 0x16⟩
  | .scmp g e => some ⟨g, e, 0x1A, 0x00⟩
  | .rdctr g e => some ⟨g, e, 0x1B, 0x00⟩
  | .rdctx g e => some ⟨g, e, 0x1B, 0x01⟩
  | .tset g e => some ⟨g, e, 0x1B, 0x02⟩
  | .sld g e => some ⟨g, e, 0x1C, 0x00⟩
  | .sst g e => some ⟨g, e, 0x1D, 0x00⟩
  | .bra g e => some ⟨g, e, 0x20, 0x00⟩
  | .bCc g e => some ⟨g, e, 0x20, 0x01⟩
  | .call g e => some ⟨g, e, 0x20, 0x02⟩
  | .jr g e => some ⟨g, e, 0x20, 0x03⟩
  | .ret g e => some ⟨g, e, 0x20, 0x04⟩
  | .split g e => some ⟨g, e, 0x21, 0x00⟩
  | .elseMask g e => some ⟨g, e, 0x21, 0x01⟩
  | .join g e => some ⟨g, e, 0x21, 0x02⟩
  | .cut g e => some ⟨g, e, 0x21, 0x03⟩
  | .elect g e => some ⟨g, e, 0x21, 0x04⟩
  | .twait g e => some ⟨g, e, 0x22, 0x00⟩
  | .swait g e => some ⟨g, e, 0x22, 0x01⟩
  | .endGroup g e => some ⟨g, e, 0x23, 0x00⟩
  | .mma g e => some ⟨g, e, 0x28, 0x00⟩
  | .mzero g e => some ⟨g, e, 0x29, 0x00⟩
  | .mdrain g e => some ⟨g, e, 0x29, 0x01⟩
  | .dmaCopy g e => some ⟨g, e, 0x2A, 0x00⟩
  | .dmaGather g e => some ⟨g, e, 0x2A, 0x01⟩
  | .dmaScatter g e => some ⟨g, e, 0x2A, 0x02⟩
  | .dmaXpose g e => some ⟨g, e, 0x2A, 0x03⟩
  | .dmaNarrow g e => some ⟨g, e, 0x2A, 0x04⟩
  | .dmaBucket g e => some ⟨g, e, 0x2A, 0x05⟩
  | .put g e => some ⟨g, e, 0x2B, 0x00⟩
  | .get g e => some ⟨g, e, 0x2B, 0x01⟩
  | .ratom g e => some ⟨g, e, 0x2B, 0x02⟩
  | .sig g e => some ⟨g, e, 0x2B, 0x03⟩
  | .puts g e => some ⟨g, e, 0x2B, 0x04⟩
  | .iput g e => some ⟨g, e, 0x2B, 0x05⟩
  | .red g e => some ⟨g, e, 0x2B, 0x06⟩
  | _ => none

/-- The operand bits of two words. -/
def encOfWords (w0 w1 : Word) : Enc where
  imm := Machine.fld w0.toNat 63 58 == 0x05 || Machine.fld w0.toNat 63 58 == 0x19
  x := Machine.bit w0.toNat 57
  gn := Machine.bit w0.toNat 52
  g := BitVec.ofNat 4 (Machine.fld w0.toNat 56 53)
  ops := BitVec.ofNat 46 (Machine.fld w0.toNat 45 0)
  ext := if Machine.bit w0.toNat 57 then w1 else 0

/-- OP and FN, as OP · 64 + FN, name an instruction of Table 05-5; every other value is reserved (R80). -/
def ofOpFn (g : GroupRef) (e : Enc) : Nat → Option Instr
  | 0x040 => some (.nop g e)
  | 0x100 | 0x140 => some (.vadd g e)
  | 0x101 | 0x141 => some (.vsub g e)
  | 0x102 | 0x142 => some (.vmul g e)
  | 0x103 => some (.vmad g e)
  | 0x104 | 0x144 => some (.vmin g e)
  | 0x105 | 0x145 => some (.vmax g e)
  | 0x106 => some (.vabs g e)
  | 0x107 => some (.vneg g e)
  | 0x108 | 0x148 => some (.vand g e)
  | 0x109 | 0x149 => some (.vor g e)
  | 0x10A | 0x14A => some (.vxor g e)
  | 0x10B => some (.vnot g e)
  | 0x10C | 0x14C => some (.vshl g e)
  | 0x10D | 0x14D => some (.vshr g e)
  | 0x10E | 0x14E => some (.vsra g e)
  | 0x10F => some (.vsel g e)
  | 0x110 => some (.vclz g e)
  | 0x111 => some (.vpopc g e)
  | 0x112 | 0x152 => some (.vmov g e)
  | 0x180 => some (.vrcp g e)
  | 0x181 => some (.vrsq g e)
  | 0x182 => some (.vsqrt g e)
  | 0x183 => some (.vexp2 g e)
  | 0x184 => some (.vlog2 g e)
  | 0x185 => some (.vsin g e)
  | 0x186 => some (.vcos g e)
  | 0x187 => some (.vtanh g e)
  | 0x188 => some (.vsigmoid g e)
  | 0x1C0 => some (.vcvt g e)
  | 0x200 => some (.vcmp g e)
  | 0x240 => some (.pand g e)
  | 0x241 => some (.por g e)
  | 0x242 => some (.pxor g e)
  | 0x243 => some (.pnot g e)
  | 0x244 => some (.pmov g e)
  | 0x245 => some (.ptos g e)
  | 0x246 => some (.pcnt g e)
  | 0x280 => some (.shfl g e)
  | 0x281 => some (.bcast g e)
  | 0x282 => some (.rot g e)
  | 0x283 => some (.redadd g e)
  | 0x284 => some (.redmin g e)
  | 0x285 => some (.redmax g e)
  | 0x286 => some (.scanadd g e)
  | 0x287 => some (.vtos g e)
  | 0x288 => some (.stov g e)
  | 0x2C0 => some (.route g e)
  | 0x300 => some (.vld g e)
  | 0x340 => some (.vst g e)
  | 0x380 => some (.atom g e)
  | 0x3C0 => some (.fence g e)
  | 0x400 => some (.tldF g e)
  | 0x440 => some (.tstF g e)
  | 0x600 | 0x640 => some (.sadd g e)
  | 0x601 | 0x641 => some (.ssub g e)
  | 0x602 | 0x642 => some (.smul g e)
  | 0x603 => some (.smad g e)
  | 0x604 | 0x644 => some (.smin g e)
  | 0x605 | 0x645 => some (.smax g e)
  | 0x606 => some (.sabs g e)
  | 0x607 => some (.sneg g e)
  | 0x608 | 0x648 => some (.sand g e)
  | 0x609 | 0x649 => some (.sor g e)
  | 0x60A | 0x64A => some (.sxor g e)
  | 0x60B => some (.snot g e)
  | 0x60C | 0x64C => some (.sshl g e)
  | 0x60D | 0x64D => some (.sshr g e)
  | 0x60E | 0x64E => some (.ssra g e)
  | 0x60F => some (.ssel g e)
  | 0x610 => some (.sclz g e)
  | 0x611 => some (.spopc g e)
  | 0x612 | 0x652 => some (.smov g e)
  | 0x613 | 0x653 => some (.sdiv g e)
  | 0x614 => some (.srem g e)
  | 0x615 | 0x655 => some (.sdivu g e)
  | 0x616 => some (.sremu g e)
  | 0x680 => some (.scmp g e)
  | 0x6C0 => some (.rdctr g e)
  | 0x6C1 => some (.rdctx g e)
  | 0x6C2 => some (.tset g e)
  | 0x700 => some (.sld g e)
  | 0x740 => some (.sst g e)
  | 0x800 => some (.bra g e)
  | 0x801 => some (.bCc g e)
  | 0x802 => some (.call g e)
  | 0x803 => some (.jr g e)
  | 0x804 => some (.ret g e)
  | 0x840 => some (.split g e)
  | 0x841 => some (.elseMask g e)
  | 0x842 => some (.join g e)
  | 0x843 => some (.cut g e)
  | 0x844 => some (.elect g e)
  | 0x880 => some (.twait g e)
  | 0x881 => some (.swait g e)
  | 0x8C0 => some (.endGroup g e)
  | 0xA00 => some (.mma g e)
  | 0xA40 => some (.mzero g e)
  | 0xA41 => some (.mdrain g e)
  | 0xA80 => some (.dmaCopy g e)
  | 0xA81 => some (.dmaGather g e)
  | 0xA82 => some (.dmaScatter g e)
  | 0xA83 => some (.dmaXpose g e)
  | 0xA84 => some (.dmaNarrow g e)
  | 0xA85 => some (.dmaBucket g e)
  | 0xAC0 => some (.put g e)
  | 0xAC1 => some (.get g e)
  | 0xAC2 => some (.ratom g e)
  | 0xAC3 => some (.sig g e)
  | 0xAC4 => some (.puts g e)
  | 0xAC5 => some (.iput g e)
  | 0xAC6 => some (.red g e)
  | _ => none

/-- The instruction that two fetched words spell for a group; none where OP or FN is reserved (R84). -/
def decodeWords (g : GroupRef) (w0 w1 : Word) : Option Instr :=
  ofOpFn g (encOfWords w0 w1) (Machine.fld w0.toNat 63 58 * 64 + Machine.fld w0.toNat 51 46)

/-- The two words of an instruction (R74, R75). -/
def encodeWords (i : Instr) : Option (Word × Word) :=
  (glaper i).map (fun p => (Machine.encWord p.op p.fn p.e, Machine.encHi p.e))

end Sys2Proof
end

