-- ==== Sys2Proof/Config.lean ====
section
/-! DEFINITION. What an implementation fixes and what the manual leaves open: the constants below have no body, so no
proof can rest on a value of theirs. Each is named in a log entry. -/

namespace Sys2Proof.Config

/-- The candidate result of a VSFU function (index of Table 09-1's row, type code, input bits): R151 gives bounds and
exact special values only. A candidate outside the bounds is not used. -/
opaque vsfuChoice (fn ty : Nat) (x : BitVec 32) : BitVec 32
/-- A byte of host memory that the device has not written: host memory is no part of the device (R2). -/
opaque hostByte (key : Nat) : BitVec 8
/-- The per-step power seed of the SKU record (R336), in mW. -/
opaque powerSeed (step : Nat) : Nat
/-- The leakage of a die at a step, from the leakage record, scaled by temperature (R335), in mW. -/
opaque leakage (die step tempC : Nat) : Nat
/-- A signature, certificate, digest or key dependent byte string that only the part's keys determine
(R388 to R392): named by what is asked for. -/
opaque secretBytes (what : Nat) (request : List (BitVec 8)) : List (BitVec 8)
/-- A word of the body of a Bittern collection, by its offset: the layout that FORMAT names is private to the device (R369). -/
opaque bitternWord (format : Nat) (body : List (BitVec 64)) (offset : Nat) : BitVec 64
/-- The description of a body layout that the mailbox serves (R369). -/
opaque itemDirectory (format : Nat) : List (BitVec 8)
/-- A fresh free value: the n-th value that the manual leaves undefined. -/
opaque freeValue (n : Nat) : BitVec 64
/-- Bits 63 to 32 of a scalar register that takes a 32-bit integer from a reduction or an atomic, where the manual does not
say what stands there: a fixed function of the operation and its operands (R105). -/
opaque highBits (fn : Nat) (operands : List Nat) : BitVec 32
/-- The set of an 8-way die TLB that a context's page takes, modulo 1,024: R240 gives the ways, no rule the index. -/
opaque tlbSet (ctx page : Nat) : Nat
/-- The set of its home slice that a Shared line takes, modulo 1,024: R215 names the sets, no rule maps a Shared line to
one. -/
opaque sliceSet (line : Nat) : Nat
/-- The first dword, in configuration space, of a capability of PF0 or of a VF, numbered as `Machine.capFields` numbers them:
R299 lists the capabilities and places none. -/
opaque capDword (pf : Bool) (cap : Nat) : Nat
/-- Pyrem Systems' PCI vendor identifier (R301), which the manual does not give. -/
opaque vendorId : BitVec 16

end Sys2Proof.Config
end

