-- ==== Sys2Proof/Machine/Regs.lean ====
section
/-! DEFINITION. The register map (R394 to R403): one constructor of `Reg` for each register of Tables 24-6 and 24-7,
its place, its width, and its fields with access code, reset value and reset domain as their tables give them. A field
whose table says "From flash" has reset value 0 here and is loaded from the flash record (R395). -/

namespace Sys2Proof.Machine

/-- The registers of the device; an index is a partition, die, basin, Heap, port, node or entry number. -/
inductive Reg where
  | glbId
  | glbReadyFn
  | glbReadyBsnLo
  | glbReadyBsnHi
  | glbReadyChan (k : Nat)
  | glbSharedCtl
  | glbSharedSts
  | glbD2dVer
  | glbCorrHdr (n : Nat)
  | glbCorrWeir (n : Nat)
  | glbCorrPan (n d : Nat)
  | hstLinkSts (s : Nat)
  | hstCrcRetry (s : Nat)
  | hstSitebMapLo
  | hstSitebMapHi
  | mboxDb
  | mboxSts
  | queRange (p : Nat)
  | schCtxRange (p : Nat)
  | schCtab (p : Nat)
  | schQtab (p : Nat)
  | schPsave (p : Nat)
  | schQuantum (p : Nat)
  | queCmd
  | queCmdSts
  | xltS2Root (p : Nat)
  | xltInvLo (p : Nat)
  | xltInvHi (p : Nat)
  | xltInvSts (p : Nat)
  | xltFringBase (p : Nat)
  | xltFringHead (p : Nat)
  | xltFringTail (p : Nat)
  | xltFresp (p : Nat)
  | xltFringLost (p : Nat)
  | xltWinTab (p : Nat)
  | xltWinDb
  | pwrCap
  | pwrSts
  | pwrEnergy
  | pwrFixed
  | pwrEbbCtl
  | pwrBalCtl
  | pwrBalSts
  | pwrBalNode (i : Nat)
  | pwrPhasePref (n : Nat)
  | pwrDieSts (d : Nat)
  | pwrEbbCnt (d : Nat)
  | pwrIdleHint (p : Nat)
  | rasRingBase
  | rasRingHead
  | rasRingTail
  | rasLost
  | rasStoreSeq
  | rasRakeCtl
  | rasRakeSts (d : Nat)
  | rasCommonMapLo (n : Nat)
  | rasCommonMapHi (n : Nat)
  | rstWdog (p : Nat)
  | rstReq
  | rstSts
  | rstBtnSel
  | rstBtnSts
  | rstQuarLo
  | rstQuarHi
  | secSts
  | secMeas (i w : Nat)
  | bsnModeCtl (b : Nat)
  | bsnModeSts (b : Nat)
  | bsnPwrSts (b : Nat)
  | bsnMtxErr (b : Nat)
  | dmaEngSts (b s : Nat)
  | panHeapCtl (h : Nat)
  | panChanState (h : Nat)
  | panNcacheCtl (d : Nat)
  | panNcacheHits (d : Nat)
  | panEdgeSts (d e : Nat)
  | lnkNode
  | lnkEncap
  | lnkMac
  | lnkVer
  | lnkSessTab
  | lnkSessDb
  | lnkTimer
  | lnkIp6Hi
  | lnkIp6Lo
  | lnkRetx
  | lnkPortCtl (k : Nat)
  | lnkPortSts (k : Nat)
  | lnkFecCorr (k : Nat)
  | lnkFecUnc (k : Nat)
  | lnkRxDrop (k : Nat)
  | cfgStage (e w : Nat)
  | cfgCommit
  | cfgCommitSts
  | cfgCommon (n : Nat)
  | cfgPartCtl (p : Nat)
  | cfgPartSts (p : Nat)
  | cfgPartBsnLo (p : Nat)
  | cfgPartBsnHi (p : Nat)
  | cfgPartChan (p k : Nat)
  | cfgPartShr (p : Nat)
  | cfgPartTag (p : Nat)
  | cfgPartRst (p : Nat)
  | cfgPartTcw (p : Nat)
  | vfQueCmdSts (p : Nat)
  | vfXltInvLo (p : Nat)
  deriving DecidableEq, Repr

/-- Access codes of Table 00-4 (R7). -/
inductive Access where | ro | rw | wo | w1c | rws
  deriving DecidableEq, Repr

/-- Reset domains of Table 24-2 (R395). -/
inductive Domain where | o | c | w | p
  deriving DecidableEq, Repr

/-- One field of a register. -/
structure Field where
  hi : Nat
  lo : Nat
  acc : Access
  reset : Nat
  dom : Domain
  deriving DecidableEq, Repr

/-- Base of the Pan window of a die (Table 24-1). -/
def panBase (d : Nat) : Nat := 0x4000000 + d * 0x100000
/-- Keys of the registers that a VF alone reaches (R398, R400) lie above PF0 BAR0. -/
def vfBase (p : Nat) : Nat := 0x8000000 + p * 0x100000

/-- The PF0 BAR0 offset of a register (Tables 24-6 and 24-7), or its key above BAR0 for a VF's own register. -/
def Reg.key : Reg → Nat
  | .glbId => 0x0
  | .glbReadyFn => 0x100
  | .glbReadyBsnLo => 0x108
  | .glbReadyBsnHi => 0x110
  | .glbReadyChan k => 0x118 + k * 8
  | .glbSharedCtl => 0x400
  | .glbSharedSts => 0x408
  | .glbD2dVer => 0x420
  | .glbCorrHdr n => 0x800 + n * 0x80
  | .glbCorrWeir n => 0x808 + n * 0x80
  | .glbCorrPan n d => 0x810 + n * 0x80 + d * 8
  | .hstLinkSts s => 0x1000 + s * 0x100
  | .hstCrcRetry s => 0x1008 + s * 0x100
  | .hstSitebMapLo => 0x1200
  | .hstSitebMapHi => 0x1208
  | .mboxDb => 0x102000
  | .mboxSts => 0x102008
  | .queRange p => 0x1800000 + p * 0x40 + 0
  | .schCtxRange p => 0x1800000 + p * 0x40 + 8
  | .schCtab p => 0x1800000 + p * 0x40 + 16
  | .schQtab p => 0x1800000 + p * 0x40 + 24
  | .schPsave p => 0x1800000 + p * 0x40 + 32
  | .schQuantum p => 0x1800000 + p * 0x40 + 40
  | .queCmd => 0x1810000
  | .queCmdSts => 0x1810008
  | .xltS2Root p => 0x2000000 + p * 0x10
  | .xltInvLo p => 0x2010000 + p * 0x100
  | .xltInvHi p => 0x2010008 + p * 0x100
  | .xltInvSts p => 0x2010010 + p * 0x100
  | .xltFringBase p => 0x2010018 + p * 0x100
  | .xltFringHead p => 0x2010020 + p * 0x100
  | .xltFringTail p => 0x2010028 + p * 0x100
  | .xltFresp p => 0x2010030 + p * 0x100
  | .xltFringLost p => 0x2010038 + p * 0x100
  | .xltWinTab p => 0x20F0000 + p * 0x10
  | .xltWinDb => 0x20F1000
  | .pwrCap => 0x3000000
  | .pwrSts => 0x3000008
  | .pwrEnergy => 0x3000010
  | .pwrFixed => 0x3000018
  | .pwrEbbCtl => 0x3000020
  | .pwrBalCtl => 0x3000040
  | .pwrBalSts => 0x3000048
  | .pwrBalNode i => 0x3000080 + i * 8
  | .pwrPhasePref n => 0x3001000 + n * 8
  | .pwrDieSts d => 0x3002000 + d * 0x20
  | .pwrEbbCnt d => 0x3002008 + d * 0x20
  | .pwrIdleHint p => 0x3003000 + p * 8
  | .rasRingBase => 0x3400000
  | .rasRingHead => 0x3400008
  | .rasRingTail => 0x3400010
  | .rasLost => 0x3400018
  | .rasStoreSeq => 0x3400020
  | .rasRakeCtl => 0x3400100
  | .rasRakeSts d => 0x3400200 + d * 8
  | .rasCommonMapLo n => 0x3400400 + n * 0x10
  | .rasCommonMapHi n => 0x3400408 + n * 0x10
  | .rstWdog p => 0x3800000 + p * 8
  | .rstReq => 0x3800800
  | .rstSts => 0x3800808
  | .rstBtnSel => 0x3800810
  | .rstBtnSts => 0x3800818
  | .rstQuarLo => 0x3800820
  | .rstQuarHi => 0x3800828
  | .secSts => 0x3C00000
  | .secMeas i w => 0x3C00100 + i * 0x40 + w * 8
  | .bsnModeCtl b => panBase (b / 8) + 0x20000 + b % 8 * 0x1000
  | .bsnModeSts b => panBase (b / 8) + 0x20008 + b % 8 * 0x1000
  | .bsnPwrSts b => panBase (b / 8) + 0x20010 + b % 8 * 0x1000
  | .bsnMtxErr b => panBase (b / 8) + 0x20100 + b % 8 * 0x1000
  | .dmaEngSts b s => panBase (b / 8) + 0x20200 + b % 8 * 0x1000 + s * 0x10
  | .panHeapCtl h => panBase (h / 2) + 0x30000 + h % 2 * 0x100
  | .panChanState h => panBase (h / 2) + 0x30008 + h % 2 * 0x100
  | .panNcacheCtl d => panBase d + 0x40000
  | .panNcacheHits d => panBase d + 0x40008
  | .panEdgeSts d e => panBase d + 0x50000 + e * 0x100
  | .lnkNode => 0x5000000 + 0
  | .lnkEncap => 0x5000000 + 8
  | .lnkMac => 0x5000000 + 16
  | .lnkVer => 0x5000000 + 24
  | .lnkSessTab => 0x5000000 + 32
  | .lnkSessDb => 0x5000000 + 40
  | .lnkTimer => 0x5000000 + 48
  | .lnkIp6Hi => 0x5000000 + 56
  | .lnkIp6Lo => 0x5000000 + 64
  | .lnkRetx => 0x5000000 + 72
  | .lnkPortCtl k => 0x5010000 + k * 0x1000
  | .lnkPortSts k => 0x5010008 + k * 0x1000
  | .lnkFecCorr k => 0x5010010 + k * 0x1000
  | .lnkFecUnc k => 0x5010018 + k * 0x1000
  | .lnkRxDrop k => 0x5010020 + k * 0x1000
  | .cfgStage e w => 0x6000000 + e * 16 + w * 8
  | .cfgCommit => 0x6010000
  | .cfgCommitSts => 0x6010008
  | .cfgCommon n => 0x6011000 + n * 8
  | .cfgPartCtl p => 0x6020000 + p * 0x100 + 0x0
  | .cfgPartSts p => 0x6020000 + p * 0x100 + 0x8
  | .cfgPartBsnLo p => 0x6020000 + p * 0x100 + 0x10
  | .cfgPartBsnHi p => 0x6020000 + p * 0x100 + 0x18
  | .cfgPartChan p k => 0x6020000 + p * 0x100 + 0x20 + k * 8
  | .cfgPartShr p => 0x6020000 + p * 0x100 + 0x50
  | .cfgPartTag p => 0x6020000 + p * 0x100 + 0x58
  | .cfgPartRst p => 0x6020000 + p * 0x100 + 0x60
  | .cfgPartTcw p => 0x6020000 + p * 0x100 + 0x68
  | .vfQueCmdSts p => vfBase p + 0xFD008
  | .vfXltInvLo p => vfBase p + 0xFE000

/-- Width in bits (Table 24-7). -/
def Reg.width : Reg → Nat
  | .glbSharedCtl => 32
  | .glbSharedSts => 32
  | .glbD2dVer => 32
  | .xltFringHead _ => 32
  | .xltFringTail _ => 32
  | .xltFringLost _ => 32
  | .xltWinDb => 32
  | .pwrCap => 32
  | .pwrSts => 32
  | .pwrFixed => 32
  | .pwrEbbCtl => 32
  | .bsnModeCtl _ => 32
  | .bsnModeSts _ => 32
  | .bsnPwrSts _ => 32
  | .bsnMtxErr _ => 32
  | .dmaEngSts _ _ => 32
  | .panHeapCtl _ => 32
  | .panChanState _ => 32
  | .panNcacheCtl _ => 32
  | .lnkPortCtl _ => 32
  | .lnkPortSts _ => 32
  | _ => 64

/-- The indexes are in range: the register exists. -/
def Reg.exists_ : Reg → Bool
  | .glbReadyChan k => k < 6
  | .glbCorrHdr n => n < 16
  | .glbCorrWeir n => n < 16
  | .glbCorrPan n d => n < 16 && d < 12
  | .hstLinkSts s => s < 2
  | .hstCrcRetry s => s < 2
  | .queRange p => p < 96
  | .schCtxRange p => p < 96
  | .schCtab p => (p < 96 || p == 127)
  | .schQtab p => (p < 96 || p == 127)
  | .schPsave p => (p < 96 || p == 127)
  | .schQuantum p => (p < 96 || p == 127)
  | .xltS2Root p => (p < 96 || p == 127)
  | .xltInvLo p => (p < 96 || p == 127)
  | .xltInvHi p => (p < 96 || p == 127)
  | .xltInvSts p => (p < 96 || p == 127)
  | .xltFringBase p => (p < 96 || p == 127)
  | .xltFringHead p => (p < 96 || p == 127)
  | .xltFringTail p => (p < 96 || p == 127)
  | .xltFresp p => (p < 96 || p == 127)
  | .xltFringLost p => (p < 96 || p == 127)
  | .xltWinTab p => (p < 96 || p == 127)
  | .pwrBalNode i => i < 32
  | .pwrPhasePref n => n < 64
  | .pwrDieSts d => d < 12
  | .pwrEbbCnt d => d < 12
  | .pwrIdleHint p => (p < 96 || p == 127)
  | .rasRakeSts d => (d < 12 || d == 15)
  | .rasCommonMapLo n => n < 8
  | .rasCommonMapHi n => n < 8
  | .rstWdog p => (p < 96 || p == 127)
  | .secMeas i w => i < 8 && w < 6
  | .bsnModeCtl b => b < 96
  | .bsnModeSts b => b < 96
  | .bsnPwrSts b => b < 96
  | .bsnMtxErr b => b < 96
  | .dmaEngSts b s => b < 96 && s < 7
  | .panHeapCtl h => h < 24
  | .panChanState h => h < 24
  | .panNcacheCtl d => d < 12
  | .panNcacheHits d => d < 12
  | .panEdgeSts d e => d < 12 && e < 3
  | .lnkPortCtl k => k < 12
  | .lnkPortSts k => k < 12
  | .lnkFecCorr k => k < 12
  | .lnkFecUnc k => k < 12
  | .lnkRxDrop k => k < 12
  | .cfgStage e w => e < 256 && w < 2
  | .cfgCommon n => n < 8
  | .cfgPartCtl p => p < 96
  | .cfgPartSts p => p < 96
  | .cfgPartBsnLo p => p < 96
  | .cfgPartBsnHi p => p < 96
  | .cfgPartChan p k => p < 96 && k < 6
  | .cfgPartShr p => p < 96
  | .cfgPartTag p => p < 96
  | .cfgPartRst p => p < 96
  | .cfgPartTcw p => p < 96
  | .vfQueCmdSts p => p < 96
  | .vfXltInvLo p => p < 96
  | _ => true

/-- The fields of a register, from its defining table. -/
def Reg.fields : Reg → List Field
  | .glbId => [⟨63, 48, .ro, 0, .c⟩, ⟨47, 40, .ro, 0, .c⟩, ⟨39, 28, .ro, 0x12, .c⟩, ⟨27, 20, .ro, 0xa1, .c⟩, ⟨15, 0, .ro, 0x7012, .c⟩]
  | .glbReadyFn => [⟨32, 32, .ro, 0, .w⟩, ⟨31, 20, .ro, 0, .w⟩, ⟨19, 8, .ro, 0, .w⟩, ⟨4, 4, .ro, 0, .w⟩, ⟨3, 3, .ro, 0, .w⟩, ⟨2, 2, .ro, 0, .w⟩, ⟨1, 1, .ro, 0, .w⟩, ⟨0, 0, .ro, 0, .w⟩]
  | .glbReadyBsnLo => [⟨63, 0, .ro, 0, .w⟩]
  | .glbReadyBsnHi => [⟨31, 0, .ro, 0, .w⟩]
  | .glbReadyChan _ => [⟨63, 0, .ro, 0, .w⟩]
  | .glbSharedCtl => [⟨15, 8, .wo, 0, .w⟩, ⟨1, 0, .wo, 0, .w⟩]
  | .glbSharedSts => [⟨31, 20, .ro, 0x156, .c⟩, ⟨19, 12, .ro, 0, .w⟩, ⟨11, 8, .ro, 0, .w⟩, ⟨1, 0, .ro, 1, .c⟩]
  | .glbD2dVer => [⟨23, 16, .ro, 0x20, .c⟩, ⟨15, 8, .ro, 0x23, .c⟩, ⟨7, 0, .ro, 0, .w⟩]
  | .glbCorrHdr _ => [⟨43, 32, .ro, 0, .w⟩, ⟨31, 0, .ro, 0, .w⟩]
  | .glbCorrWeir _ => [⟨63, 0, .ro, 0, .w⟩]
  | .glbCorrPan _ _ => [⟨63, 0, .ro, 0, .w⟩]
  | .hstLinkSts _ => [⟨47, 32, .ro, 0, .w⟩, ⟨23, 20, .ro, 0, .w⟩, ⟨15, 12, .ro, 0, .w⟩, ⟨11, 8, .ro, 0, .w⟩, ⟨1, 1, .ro, 0, .w⟩, ⟨0, 0, .ro, 0, .w⟩]
  | .hstCrcRetry _ => [⟨63, 0, .ro, 0, .w⟩]
  | .hstSitebMapLo => [⟨63, 0, .rw, 0, .w⟩]
  | .hstSitebMapHi => [⟨31, 0, .rw, 0, .w⟩]
  | .mboxDb => [⟨39, 32, .wo, 0, .w⟩, ⟨31, 16, .wo, 0, .w⟩, ⟨15, 0, .wo, 0, .w⟩]
  | .mboxSts => [⟨47, 40, .ro, 0, .w⟩, ⟨39, 24, .ro, 0, .w⟩, ⟨23, 16, .ro, 0, .w⟩, ⟨3, 0, .ro, 0, .w⟩]
  | .queRange _ => [⟨46, 32, .rw, 0, .w⟩, ⟨17, 0, .rw, 0, .w⟩]
  | .schCtxRange _ => [⟨52, 32, .rw, 0, .w⟩, ⟨19, 0, .rw, 0, .w⟩]
  | .schCtab _ => [⟨51, 16, .rw, 0, .w⟩, ⟨0, 0, .rw, 0, .w⟩]
  | .schQtab _ => [⟨51, 16, .rw, 0, .w⟩, ⟨0, 0, .rw, 0, .w⟩]
  | .schPsave _ => [⟨51, 16, .rw, 0, .w⟩, ⟨0, 0, .rw, 0, .w⟩]
  | .schQuantum _ => [⟨23, 0, .ro, 0xc8, .w⟩]
  | .queCmd => [⟨63, 60, .wo, 0, .p⟩, ⟨55, 36, .wo, 0, .p⟩, ⟨17, 0, .wo, 0, .p⟩]
  | .queCmdSts => [⟨55, 52, .ro, 0, .p⟩, ⟨31, 0, .ro, 0, .p⟩]
  | .xltS2Root _ => [⟨51, 16, .rw, 0, .w⟩, ⟨0, 0, .rw, 0, .w⟩]
  | .xltInvLo _ => [⟨47, 16, .rw, 0, .p⟩]
  | .xltInvHi _ => [⟨63, 60, .wo, 0, .p⟩, ⟨58, 52, .wo, 0, .p⟩, ⟨51, 32, .wo, 0, .p⟩, ⟨31, 0, .wo, 0, .p⟩]
  | .xltInvSts _ => [⟨47, 32, .ro, 0, .p⟩, ⟨31, 16, .ro, 0, .p⟩, ⟨15, 0, .ro, 0, .p⟩]
  | .xltFringBase _ => [⟨47, 12, .rw, 0, .p⟩, ⟨4, 1, .rw, 0, .p⟩, ⟨0, 0, .rw, 0, .p⟩]
  | .xltFringHead _ => [⟨31, 0, .rw, 0, .p⟩]
  | .xltFringTail _ => [⟨31, 0, .ro, 0, .p⟩]
  | .xltFresp _ => [⟨63, 32, .wo, 0, .p⟩, ⟨21, 20, .wo, 0, .p⟩, ⟨19, 0, .wo, 0, .p⟩]
  | .xltFringLost _ => [⟨31, 0, .rw, 0, .p⟩]
  | .xltWinTab _ => [⟨51, 12, .rw, 0, .w⟩, ⟨4, 4, .rw, 0, .w⟩, ⟨3, 0, .rw, 0, .w⟩]
  | .xltWinDb => [⟨22, 16, .wo, 0, .w⟩, ⟨15, 0, .wo, 0, .w⟩]
  | .pwrCap => [⟨26, 16, .ro, 0, .c⟩, ⟨10, 0, .rw, 0, .w⟩]
  | .pwrSts => [⟨7, 7, .ro, 0, .c⟩, ⟨6, 6, .ro, 0, .w⟩, ⟨5, 5, .ro, 0, .w⟩, ⟨4, 4, .w1c, 0, .w⟩, ⟨3, 3, .ro, 0, .w⟩, ⟨2, 2, .ro, 0, .w⟩, ⟨1, 1, .w1c, 0, .w⟩]
  | .pwrEnergy => [⟨63, 0, .ro, 0, .c⟩]
  | .pwrFixed => [⟨8, 8, .rw, 0, .w⟩, ⟨3, 0, .rw, 0xc, .w⟩]
  | .pwrEbbCtl => [⟨15, 8, .rw, 8, .w⟩, ⟨3, 0, .rw, 6, .w⟩]
  | .pwrBalCtl => [⟨63, 48, .rw, 0, .w⟩, ⟨47, 32, .rw, 0, .w⟩, ⟨25, 21, .rw, 0, .w⟩, ⟨20, 16, .rw, 0, .w⟩, ⟨15, 1, .rw, 0xa, .w⟩, ⟨0, 0, .rw, 0, .w⟩]
  | .pwrBalSts => [⟨63, 32, .ro, 0, .w⟩, ⟨31, 16, .ro, 0, .w⟩, ⟨15, 0, .ro, 0, .w⟩]
  | .pwrBalNode _ => [⟨15, 0, .rw, 0, .w⟩]
  | .pwrPhasePref _ => [⟨3, 0, .ro, 0xc, .w⟩]
  | .pwrDieSts _ => [⟨63, 48, .ro, 0, .w⟩, ⟨47, 40, .ro, 0, .w⟩, ⟨35, 32, .ro, 0xc, .w⟩, ⟨31, 28, .ro, 0xc, .w⟩, ⟨27, 22, .ro, 0, .w⟩]
  | .pwrEbbCnt _ => [⟨63, 0, .ro, 0, .w⟩]
  | .pwrIdleHint _ => [⟨31, 0, .rw, 0, .w⟩]
  | .rasRingBase => [⟨47, 12, .rw, 0, .w⟩, ⟨4, 1, .rw, 0, .w⟩, ⟨0, 0, .rw, 0, .w⟩]
  | .rasRingHead => [⟨31, 0, .rw, 0, .w⟩]
  | .rasRingTail => [⟨31, 0, .ro, 0, .w⟩]
  | .rasLost => [⟨31, 0, .rw, 0, .o⟩]
  | .rasStoreSeq => [⟨63, 0, .ro, 0, .o⟩]
  | .rasRakeCtl => [⟨31, 16, .rw, 0x100, .w⟩, ⟨15, 0, .rw, 0x168, .w⟩]
  | .rasRakeSts _ => [⟨63, 32, .ro, 0, .w⟩, ⟨31, 0, .ro, 0, .w⟩]
  | .rasCommonMapLo _ => [⟨63, 0, .w1c, 0, .w⟩]
  | .rasCommonMapHi _ => [⟨31, 0, .w1c, 0, .w⟩]
  | .rstWdog _ => [⟨32, 32, .rw, 0, .w⟩, ⟨31, 16, .rw, 0xa, .w⟩, ⟨15, 0, .rw, 0x64, .w⟩]
  | .rstReq => [⟨39, 32, .wo, 0, .w⟩, ⟨26, 16, .wo, 0, .w⟩, ⟨10, 7, .wo, 0, .w⟩, ⟨6, 4, .wo, 0, .w⟩, ⟨3, 0, .wo, 0, .w⟩]
  | .rstSts => [⟨39, 32, .ro, 0, .w⟩, ⟨11, 8, .ro, 0, .w⟩, ⟨7, 4, .ro, 0, .w⟩, ⟨3, 0, .ro, 0, .w⟩]
  | .rstBtnSel => [⟨6, 0, .rw, 0, .w⟩]
  | .rstBtnSts => [⟨63, 32, .ro, 0, .o⟩, ⟨6, 0, .ro, 0, .o⟩]
  | .rstQuarLo => [⟨63, 0, .ro, 0, .w⟩]
  | .rstQuarHi => [⟨31, 0, .ro, 0, .w⟩]
  | .secSts => [⟨63, 48, .ro, 0, .w⟩, ⟨47, 32, .ro, 0, .w⟩, ⟨31, 24, .ro, 0, .w⟩, ⟨23, 16, .ro, 0, .w⟩, ⟨12, 12, .ro, 0, .w⟩, ⟨11, 8, .ro, 0, .w⟩, ⟨2, 2, .ro, 0, .w⟩, ⟨1, 1, .ro, 0, .w⟩, ⟨0, 0, .ro, 0, .w⟩]
  | .secMeas _ _ => [⟨63, 0, .ro, 0, .w⟩]
  | .bsnModeCtl _ => [⟨15, 8, .wo, 0, .w⟩, ⟨1, 0, .wo, 0, .w⟩]
  | .bsnModeSts _ => [⟨23, 16, .ro, 0, .w⟩, ⟨11, 8, .ro, 0, .w⟩, ⟨7, 4, .ro, 0, .w⟩, ⟨1, 1, .ro, 0, .w⟩, ⟨0, 0, .ro, 0, .w⟩]
  | .bsnPwrSts _ => [⟨2, 2, .ro, 0, .w⟩, ⟨1, 0, .ro, 0, .w⟩]
  | .bsnMtxErr _ => [⟨31, 24, .rw, 0, .w⟩, ⟨15, 10, .ro, 0, .w⟩, ⟨9, 9, .ro, 0, .w⟩, ⟨8, 8, .ro, 0, .w⟩, ⟨3, 1, .ro, 0, .w⟩, ⟨0, 0, .w1c, 0, .w⟩]
  | .dmaEngSts _ _ => [⟨28, 24, .ro, 0, .w⟩, ⟨20, 18, .ro, 0, .w⟩, ⟨16, 16, .ro, 0, .w⟩, ⟨15, 8, .ro, 0, .w⟩, ⟨7, 0, .rw, 0, .w⟩]
  | .panHeapCtl _ => [⟨9, 8, .ro, 0, .c⟩, ⟨1, 0, .rw, 0, .c⟩]
  | .panChanState _ => [⟨31, 0, .ro, 0, .c⟩]
  | .panNcacheCtl _ => [⟨8, 8, .ro, 0, .w⟩, ⟨4, 4, .rw, 1, .w⟩, ⟨3, 0, .rw, 4, .w⟩]
  | .panNcacheHits _ => [⟨63, 0, .ro, 0, .w⟩]
  | .panEdgeSts _ _ => [⟨63, 48, .ro, 0, .w⟩, ⟨39, 32, .ro, 0, .w⟩, ⟨23, 16, .ro, 0, .w⟩, ⟨3, 2, .ro, 0, .w⟩, ⟨0, 0, .ro, 0, .w⟩]
  | .lnkNode => [⟨63, 32, .ro, 0, .w⟩, ⟨15, 0, .rw, 0, .w⟩]
  | .lnkEncap => [⟨31, 16, .rw, 0xd020, .w⟩, ⟨15, 0, .rw, 0x88b5, .w⟩]
  | .lnkMac => [⟨47, 0, .ro, 0, .c⟩]
  | .lnkVer => [⟨15, 8, .ro, 0x10, .c⟩, ⟨7, 0, .ro, 0x12, .c⟩]
  | .lnkSessTab => [⟨51, 12, .rw, 0, .w⟩, ⟨4, 4, .rw, 0, .w⟩, ⟨3, 0, .rw, 0, .w⟩]
  | .lnkSessDb => [⟨11, 0, .wo, 0, .w⟩]
  | .lnkTimer => [⟨47, 32, .rw, 1, .w⟩, ⟨31, 24, .rw, 8, .w⟩, ⟨15, 0, .rw, 0x10, .w⟩]
  | .lnkIp6Hi => [⟨63, 0, .rw, 0, .w⟩]
  | .lnkIp6Lo => [⟨63, 0, .rw, 0, .w⟩]
  | .lnkRetx => [⟨63, 0, .ro, 0, .w⟩]
  | .lnkPortCtl _ => [⟨5, 4, .rw, 0, .w⟩, ⟨3, 2, .rw, 0, .w⟩, ⟨0, 0, .rw, 0, .w⟩]
  | .lnkPortSts _ => [⟨27, 24, .ro, 0, .w⟩, ⟨23, 16, .ro, 0, .w⟩]
  | .lnkFecCorr _ => [⟨63, 0, .ro, 0, .w⟩]
  | .lnkFecUnc _ => [⟨63, 0, .ro, 0, .w⟩]
  | .lnkRxDrop _ => [⟨63, 0, .ro, 0, .w⟩]
  | .cfgStage _ w => if w == 0 then [⟨63, 63, .rw, 0, .w⟩, ⟨25, 0, .rw, 0, .w⟩] else [⟨63, 0, .rw, 0, .w⟩]
  | .cfgCommit => [⟨7, 0, .wo, 0, .w⟩]
  | .cfgCommitSts => [⟨47, 40, .ro, 0, .w⟩, ⟨39, 32, .ro, 0, .w⟩, ⟨31, 28, .ro, 0, .w⟩, ⟨24, 0, .ro, 0, .w⟩]
  | .cfgCommon _ => [⟨63, 63, .rw, 0, .w⟩, ⟨62, 62, .rw, 0, .w⟩, ⟨61, 59, .rw, 0, .w⟩, ⟨52, 36, .rw, 0, .w⟩, ⟨35, 0, .rw, 0, .w⟩]
  | .cfgPartCtl _ => [⟨39, 32, .wo, 0, .w⟩, ⟨1, 1, .rw, 0, .w⟩, ⟨0, 0, .wo, 0, .w⟩]
  | .cfgPartSts _ => [⟨47, 32, .ro, 0, .w⟩, ⟨31, 24, .ro, 0, .w⟩, ⟨23, 20, .ro, 0, .w⟩, ⟨19, 16, .ro, 0, .w⟩, ⟨15, 12, .ro, 0, .w⟩]
  | .cfgPartBsnLo _ => [⟨63, 0, .rw, 0, .w⟩]
  | .cfgPartBsnHi _ => [⟨31, 0, .rw, 0, .w⟩]
  | .cfgPartChan _ _ => [⟨63, 0, .rw, 0, .w⟩]
  | .cfgPartShr _ => [⟨46, 32, .rw, 0, .w⟩, ⟨13, 0, .rw, 0, .w⟩]
  | .cfgPartTag _ => [⟨31, 0, .rw, 0, .w⟩]
  | .cfgPartRst _ => [⟨39, 32, .wo, 0, .w⟩, ⟨25, 16, .wo, 0, .w⟩, ⟨3, 0, .wo, 0, .w⟩]
  | .cfgPartTcw _ => [⟨7, 0, .ro, 0x10, .w⟩]
  | .vfQueCmdSts _ => [⟨55, 52, .ro, 0, .p⟩, ⟨31, 0, .ro, 0, .p⟩]
  | .vfXltInvLo _ => [⟨47, 16, .rw, 0, .p⟩]

/-- The value of a register with every field at its reset value. -/
def Reg.resetVal (r : Reg) : Nat := r.fields.foldl (fun w f => setFld w f.hi f.lo f.reset) 0

/-- The register at an 8-byte aligned offset of a Pan window (Table 24-6). -/
def Reg.atPan (d o : Nat) : Option Reg :=
  if 0x20000 ≤ o && o < 0x28000 then
    let b := d * 8 + (o - 0x20000) / 0x1000
    let x := o % 0x1000
    if x == 0 then some (.bsnModeCtl b) else if x == 8 then some (.bsnModeSts b)
    else if x == 0x10 then some (.bsnPwrSts b) else if x == 0x100 then some (.bsnMtxErr b)
    else if 0x200 ≤ x && x < 0x270 && x % 16 == 0 then some (.dmaEngSts b ((x - 0x200) / 16)) else none
  else if 0x30000 ≤ o && o < 0x30200 then
    let h := d * 2 + (o - 0x30000) / 0x100
    let x := o % 0x100
    if x == 0 then some (.panHeapCtl h) else if x == 8 then some (.panChanState h) else none
  else if o == 0x40000 then some (.panNcacheCtl d) else if o == 0x40008 then some (.panNcacheHits d)
  else if 0x50000 ≤ o && o < 0x50300 && o % 0x100 == 0 then some (.panEdgeSts d ((o - 0x50000) / 0x100))
  else none

/-- The register at an 8-byte aligned offset of PF0 BAR0 (Tables 24-1, 24-6 and 24-7), before its index is checked. -/
def Reg.at8 (o : Nat) : Option Reg :=
  if o < 0x2000 then
    if o == 0 then some .glbId else if o == 0x100 then some .glbReadyFn else if o == 0x108 then some .glbReadyBsnLo
    else if o == 0x110 then some .glbReadyBsnHi else if 0x118 ≤ o && o < 0x148 then some (.glbReadyChan ((o - 0x118) / 8))
    else if o == 0x400 then some .glbSharedCtl else if o == 0x408 then some .glbSharedSts
    else if o == 0x420 then some .glbD2dVer
    else if 0x800 ≤ o && o < 0x1000 then
      let n := (o - 0x800) / 0x80
      let x := o % 0x80
      if x == 0 then some (.glbCorrHdr n) else if x == 8 then some (.glbCorrWeir n) else some (.glbCorrPan n ((x - 16) / 8))
    else if o == 0x1200 then some .hstSitebMapLo else if o == 0x1208 then some .hstSitebMapHi
    else if 0x1000 ≤ o && o < 0x1200 then
      let x := o % 0x100
      if x == 0 then some (.hstLinkSts ((o - 0x1000) / 0x100)) else if x == 8 then some (.hstCrcRetry ((o - 0x1000) / 0x100)) else none
    else none
  else if o == 0x102000 then some .mboxDb else if o == 0x102008 then some .mboxSts
  else if 0x1800000 ≤ o && o < 0x1802000 then
    let p := (o - 0x1800000) / 0x40
    match o % 0x40 / 8 with
    | 0 => some (.queRange p) | 1 => some (.schCtxRange p) | 2 => some (.schCtab p) | 3 => some (.schQtab p)
    | 4 => some (.schPsave p) | 5 => some (.schQuantum p) | _ => none
  else if o == 0x1810000 then some .queCmd else if o == 0x1810008 then some .queCmdSts
  else if 0x2000000 ≤ o && o < 0x2000800 then
    if o % 16 == 0 then some (.xltS2Root ((o - 0x2000000) / 16)) else none
  else if 0x2010000 ≤ o && o < 0x2018000 then
    let p := (o - 0x2010000) / 0x100
    match o % 0x100 / 8 with
    | 0 => some (.xltInvLo p) | 1 => some (.xltInvHi p) | 2 => some (.xltInvSts p) | 3 => some (.xltFringBase p)
    | 4 => some (.xltFringHead p) | 5 => some (.xltFringTail p) | 6 => some (.xltFresp p) | 7 => some (.xltFringLost p)
    | _ => none
  else if 0x20F0000 ≤ o && o < 0x20F0800 then
    if o % 16 == 0 then some (.xltWinTab ((o - 0x20F0000) / 16)) else none
  else if o == 0x20F1000 then some .xltWinDb
  else if 0x3000000 ≤ o && o < 0x3004000 then
    if o == 0x3000000 then some .pwrCap else if o == 0x3000008 then some .pwrSts else if o == 0x3000010 then some .pwrEnergy
    else if o == 0x3000018 then some .pwrFixed else if o == 0x3000020 then some .pwrEbbCtl
    else if o == 0x3000040 then some .pwrBalCtl else if o == 0x3000048 then some .pwrBalSts
    else if 0x3000080 ≤ o && o < 0x3000180 then some (.pwrBalNode ((o - 0x3000080) / 8))
    else if 0x3001000 ≤ o && o < 0x3001200 then some (.pwrPhasePref ((o - 0x3001000) / 8))
    else if 0x3002000 ≤ o && o < 0x3002180 then
      if o % 0x20 == 0 then some (.pwrDieSts ((o - 0x3002000) / 0x20))
      else if o % 0x20 == 8 then some (.pwrEbbCnt ((o - 0x3002000) / 0x20)) else none
    else if 0x3003000 ≤ o && o < 0x3003400 then some (.pwrIdleHint ((o - 0x3003000) / 8)) else none
  else if 0x3400000 ≤ o && o < 0x3400480 then
    if o == 0x3400000 then some .rasRingBase else if o == 0x3400008 then some .rasRingHead
    else if o == 0x3400010 then some .rasRingTail else if o == 0x3400018 then some .rasLost
    else if o == 0x3400020 then some .rasStoreSeq else if o == 0x3400100 then some .rasRakeCtl
    else if 0x3400200 ≤ o && o < 0x3400280 then some (.rasRakeSts ((o - 0x3400200) / 8))
    else if 0x3400400 ≤ o then
      if o % 16 == 0 then some (.rasCommonMapLo ((o - 0x3400400) / 16)) else some (.rasCommonMapHi ((o - 0x3400400) / 16))
    else none
  else if 0x3800000 ≤ o && o < 0x3800830 then
    if o < 0x3800400 then some (.rstWdog ((o - 0x3800000) / 8))
    else if o == 0x3800800 then some .rstReq else if o == 0x3800808 then some .rstSts
    else if o == 0x3800810 then some .rstBtnSel else if o == 0x3800818 then some .rstBtnSts
    else if o == 0x3800820 then some .rstQuarLo else if o == 0x3800828 then some .rstQuarHi else none
  else if o == 0x3C00000 then some .secSts
  else if 0x3C00100 ≤ o && o < 0x3C00300 then some (.secMeas ((o - 0x3C00100) / 0x40) (o % 0x40 / 8))
  else if 0x4000000 ≤ o && o < 0x4C00000 then Reg.atPan ((o - 0x4000000) / 0x100000) (o % 0x100000)
  else if 0x5000000 ≤ o && o < 0x5000050 then
    match (o - 0x5000000) / 8 with
    | 0 => some .lnkNode | 1 => some .lnkEncap | 2 => some .lnkMac | 3 => some .lnkVer | 4 => some .lnkSessTab
    | 5 => some .lnkSessDb | 6 => some .lnkTimer | 7 => some .lnkIp6Hi | 8 => some .lnkIp6Lo | _ => some .lnkRetx
  else if 0x5010000 ≤ o && o < 0x501C000 then
    let k := (o - 0x5010000) / 0x1000
    match o % 0x1000 / 8 with
    | 0 => some (.lnkPortCtl k) | 1 => some (.lnkPortSts k) | 2 => some (.lnkFecCorr k) | 3 => some (.lnkFecUnc k)
    | 4 => some (.lnkRxDrop k) | _ => none
  else if 0x6000000 ≤ o && o < 0x6001000 then some (.cfgStage ((o - 0x6000000) / 16) (o % 16 / 8))
  else if o == 0x6010000 then some .cfgCommit else if o == 0x6010008 then some .cfgCommitSts
  else if 0x6011000 ≤ o && o < 0x6011040 then some (.cfgCommon ((o - 0x6011000) / 8))
  else if 0x6020000 ≤ o && o < 0x6026000 then
    let p := (o - 0x6020000) / 0x100
    match o % 0x100 / 8 with
    | 0 => some (.cfgPartCtl p) | 1 => some (.cfgPartSts p) | 2 => some (.cfgPartBsnLo p) | 3 => some (.cfgPartBsnHi p)
    | 4 => some (.cfgPartChan p 0) | 5 => some (.cfgPartChan p 1) | 6 => some (.cfgPartChan p 2)
    | 7 => some (.cfgPartChan p 3) | 8 => some (.cfgPartChan p 4) | 9 => some (.cfgPartChan p 5)
    | 10 => some (.cfgPartShr p) | 11 => some (.cfgPartTag p) | 12 => some (.cfgPartRst p) | 13 => some (.cfgPartTcw p)
    | _ => none
  else none

/-- The register that a PF0 BAR0 offset falls in, and whether the offset is that of the register's high half (R394,
R396). -/
def Reg.ofOffset (off : Nat) : Option (Reg × Bool) :=
  match Reg.at8 (off / 8 * 8) with
  | some r =>
    if r.exists_ && (off % 8 == 0 || (off % 8 == 4 && r.width == 64)) then some (r, off % 8 == 4) else none
  | none => none

end Sys2Proof.Machine
end

