-- ==== Sys2Proof/Machine/State.lean ====
section
/-! DEFINITION. The state of the block: every register, memory, buffer, command in flight, mode and pin the manual gives
the Caerpodon, as plain data; the queue of commands that wait; the faults and refusals; the state at reset. -/

namespace Sys2Proof.Machine

/-! ### Thread groups and launches (chapter 4) -/

/-- One entry of a group's mask stack (R60): saved mask, pending mask, else target. -/
structure MaskEntry where
  m : Half
  f : Half
  e : BitVec 48
  deriving DecidableEq, Repr

/-- What a group waits for (R59, R63, R71). -/
inductive GStat where
  /-- Ready to issue. -/
  | run
  /-- In TWAIT on the descriptors of a mask. -/
  | twait (mask : BitVec 16)
  /-- In SWAIT on the pool word at an offset, compared with a value under CC; the instruction's word. -/
  | swait (off : Nat) (rhs : Word) (cc : BitVec 4) (w0 : Word)
  /-- An address of its next instruction awaits a walk: fetch or data, the rights needed, the address, the lanes that
  fault if the walk fails, the instruction's words. -/
  | walk (fetch write atomic : Bool) (va : BitVec 64) (lanes : Half) (w0 w1 : Word)
  /-- Suspended on a restartable translation fault at an address (codes 0x01 and 0x0D). -/
  | susp (fetch write atomic : Bool) (va : BitVec 64) (lanes : Half) (w0 w1 : Word)
  deriving DecidableEq, Repr

/-- The state of one group (Table 04-1). Registers are sparse: an unlisted register or lane is 0. -/
structure Group where
  launch  : Nat
  index   : Nat
  v       : Map Half             -- key register * 32 + lane
  s       : Map Word             -- key register
  p       : Map Half             -- key register; p0 is not held
  t       : Map (BitVec 128)     -- key register
  stack   : List MaskEntry       -- top entry first
  act     : Half
  present : Half
  pc      : BitVec 48
  vpois   : NSet                 -- poisoned vector lanes (R351)
  spois   : NSet                 -- poisoned scalar registers
  sbusy   : NSet                 -- scalar registers that await a ROUTE (R59, R139)
  stat    : GStat
  deriving DecidableEq, Repr

/-- How far a launch is (R69, R71, R255, R367). -/
inductive LPhase where
  | running | failing | preempting | preempted
  deriving DecidableEq, Repr

/-- A launch that has been placed and has not completed (R69, R254, R262). -/
structure Launch where
  ctx     : Nat
  part    : Nat
  queue   : Nat
  seq     : Nat
  core    : Nat
  entry   : BitVec 48
  arg     : BitVec 48
  threads : Nat
  phase   : LPhase
  tag     : Nat                  -- phase number of its queue at placement (R335)
  status  : Nat                  -- packet status at completion (Table 15-10); 0 while nothing failed
  cycles  : Nat                  -- cycles charged (R254)
  ran     : Nat                  -- reference periods since it was placed or resumed (R254)
  live    : NSet                 -- physical accumulator sets that it has written (R122)
  fixed   : Bool                 -- it has issued a command that keeps it from being replayed (R190, R376)
  slot0   : Nat                  -- lowest group slot that it holds or held (R366)
  suspect : Bool                 -- a watchdog or its core's hang makes its context a suspect (R375)
  replay  : Bool                 -- this run is the replay of an ended launch (R377)
  saved   : Map Group            -- groups saved at preemption, by group slot (R255)
  savedAcc : Map Half            -- live accumulator elements saved at preemption (R255)
  saveSlot : Nat                 -- its slot of the partition's preemption save region (R255)
  root    : Nat                  -- S1ROOT, SEED and PASID of its context's record at placement (R258)
  seed    : Word
  pasid   : Nat
  deriving DecidableEq, Repr

/-! ### Commands in flight (chapters 7, 8, 10, 11) -/

/-- What issued a command: the launch and group, or a queue packet, with the words its records carry. -/
structure Origin where
  launch : Option Nat
  ctx    : Nat
  part   : Nat
  core   : Nat
  slot   : Nat
  grp    : Nat                   -- index of the group in its launch
  pc     : Nat
  w0     : Word
  w1     : Word
  queue  : Nat
  seq    : Nat
  deriving DecidableEq, Repr

inductive MtxKind where | mma | mzero | mdrain
  deriving DecidableEq, Repr

/-- A matrix command (R117): its captured fields and descriptors (R62), and what a drain has read of its set. -/
structure MtxCmd where
  id   : Nat
  org  : Origin
  kind : MtxKind
  arr  : Nat
  set  : Nat
  enc  : Enc
  ta   : BitVec 128
  tb   : BitVec 128
  tm   : BitVec 128
  read : Option (Map Half)        -- MDRAIN: the elements it has read, once a later MMA has gone ahead of its pool writes
  deriving DecidableEq, Repr

/-- A held combined translation (R240). `die` is 15 for the Weir. -/
structure TlbEntry where
  die  : Nat
  ctx  : Nat
  part : Nat
  va   : Nat
  size : Nat
  ipa  : Nat
  dpa  : Nat
  r    : Bool
  w    : Bool
  a    : Bool
  deriving DecidableEq, Repr

/-- An entry of a stage-1 walk cache (R240): the table entry read at a level, 2 or 1, for the input bits above it, and the
IPA of the next table. `die` is 15 for the Weir. -/
structure Wc1 where
  die   : Nat
  ctx   : Nat
  part  : Nat
  level : Nat
  va    : Nat
  next  : Nat
  deriving DecidableEq, Repr

/-- An entry of a stage-2 walk cache (R240): the leaf of an IPA page of a partition. -/
structure Wc2 where
  die   : Nat
  part  : Nat
  page  : Nat
  e     : Nat
  level : Nat
  size  : Nat
  eaddr : Nat
  deriving DecidableEq, Repr

/-- Why a DMA command waits (R175). -/
structure DmaSusp where
  va    : Nat
  write : Bool
  onDesc : Bool
  row   : Nat                     -- the row that faulted (R173)
  deriving DecidableEq, Repr

/-- Rights an access needs (Table 14-4). -/
structure Need where
  r : Bool
  w : Bool
  a : Bool
  deriving DecidableEq, Repr

/-- A translation that a DMA command waits for: of its descriptor, or of a row (R172, R239). -/
structure DmaAsk where
  va   : Nat
  need : Need
  row  : Nat
  onDesc : Bool
  deriving DecidableEq, Repr

/-- A DMA command, from its issue to its completion (R160 to R177). -/
structure DmaCmd where
  id     : Nat
  org    : Origin
  pkt    : Bool
  chan   : Nat
  kind   : Nat
  ts     : Option Nat
  spc    : Bool
  daddr  : Nat
  desc   : Option (List Word)     -- the engine's own copy, once it has left the queue
  cursor : Nat                    -- lowest undelivered row
  done   : NSet                   -- delivered rows above the cursor
  claims : Map Nat                -- BUCKET: slot claimed for each entry (R142)
  unplaced : Nat                  -- BUCKET: entries not placed
  fail   : Option (Nat × Nat)     -- status and failing row
  susp   : Option DmaSusp
  held   : Bool                   -- held for a preempted launch (R177)
  srcR   : Option (Nat × Nat)     -- pool source hull registered, lowest byte and length (R199)
  dstR   : Option (Nat × Nat)     -- pool destination hull registered
  srcSp  : Option Nat             -- space of the source's first page (R170)
  dstSp  : Option Nat             -- space of the destination's first page
  looked : List TlbEntry          -- translations walked for a row that is not begun (R172, R242)
  asked  : List DmaAsk            -- misses that the command has made and no walk has answered (R239)
  deriving DecidableEq, Repr

/-- A failure of an RMO (Table 11-7): status, window, row, offset, whether target bytes may be partly written. -/
structure RmoFail where
  code : Nat
  win  : Nat
  row  : Nat
  off  : Nat
  part_ : Bool
  deriving DecidableEq, Repr

/-- An RMO command (R186 to R193). -/
structure RmoCmd where
  id    : Nat
  org   : Origin
  fn    : Nat
  node  : Nat
  own   : Bool                    -- the target is this device (R179)
  win   : Nat
  swin  : Nat
  l     : Nat
  o     : Nat
  n     : Nat
  v     : Word
  v1    : Word
  aop   : Nat
  ty    : Nat
  ts    : Option Nat
  next  : Nat                     -- messages applied at a local target, or sent to another node
  acked : Nat                     -- messages of another node known applied
  fail  : Option RmoFail
  deriving DecidableEq, Repr

/-- A ROUTE command (R135 to R139). -/
structure RouteCmd where
  id    : Nat
  org   : Origin
  eng   : Nat                     -- vector engine of the core
  score : Nat
  list_ : Nat
  count : Nat
  ty    : Nat
  dst   : Nat
  k     : Nat
  experts : Nat
  norm  : Nat
  deriving DecidableEq, Repr

/-! ### Queues, contexts and scheduling (chapter 15) -/

/-- A packet that has been read: its SEQ, its eight words, and the status it completes with when its read failed. -/
structure Packet where
  seq   : Nat
  words : List Word
  bad   : Option Nat
  deriving DecidableEq, Repr

/-- A packet that has started and not completed (R262): what it still waits for. -/
structure Started where
  pkt     : Packet
  live    : NSet                  -- launches and DMA commands of the packet in flight
  toPlace : List Nat              -- FANOUT children not yet placed
  failId  : Option Nat            -- lowest launch of the packet that failed (R146)
  count   : Nat                   -- launches started
  status  : Nat
  detail  : Nat
  cycles  : Nat
  deriving DecidableEq, Repr

/-- A queue (R257 to R265). -/
structure Queue where
  host    : Bool
  size    : Nat
  ring    : Nat
  ctx     : Nat
  owner   : Nat                   -- partition, 127 for PF0
  head    : BitVec 32
  tail    : BitVec 32
  cmpl    : BitVec 32
  st      : Nat                   -- STATE of Table 15-11
  last    : Nat                   -- LAST_STATUS
  phase   : Nat
  fetched : List Packet           -- read and not started, oldest first
  started : List Started
  disabledBy : Option Nat         -- QUE_CMD pair whose DISABLE is in progress
  since   : Nat                   -- Weir counter when the packet at the start point began to wait (R262, R346)
  barAdded : Bool                 -- the BARRIER at the start point has added its 1
  deriving DecidableEq, Repr

/-- An active context (R253): the words of its record, its time and virtual time. -/
structure ActiveCtx where
  part   : Nat
  w0     : Word
  seed   : Word
  w2     : Word
  w3     : Word
  w4     : Word
  time   : Nat
  vt     : Nat
  charged : Nat                  -- cycles charged since the last update (R254)
  reread : Bool
  valid  : Bool
  poison : Bool                  -- its record was poisoned when it was read (R352)
  deriving DecidableEq, Repr

/-- A core between a preemption or eviction and SWITCH_COMPLETE (R255, R256): the launch that leaves, the queue or preempted
launch that takes its place, and the launch whose groups may not issue yet. -/
structure Switch where
  victim   : Option Nat
  forQueue : Option Nat
  forLaunch : Option Nat
  incoming : Option Nat
  deriving DecidableEq, Repr

/-- A context resident on a core (R252): its pool range in granules. -/
structure Resident where
  ctx  : Nat
  base : Nat
  len  : Nat
  deriving DecidableEq, Repr

/-! ### Translation (chapter 14) and windows (chapter 11) -/

/-- An outstanding invalidation (R241). -/
structure Inval where
  seq   : Nat
  kind  : Nat
  part  : Nat
  ctx   : Nat
  addr  : Nat
  npm1  : Nat
  valid : Bool
  deriving DecidableEq, Repr

/-- An exported window as the translation block holds it (R182, R183). -/
structure Window where
  space : Nat
  r : Bool
  w : Bool
  a : Bool
  s : Bool
  base : Nat
  len  : Nat
  core : Nat
  ctx  : Nat
  withdrawing : Bool
  deriving DecidableEq, Repr

/-! ### Coherence (chapter 13) -/

/-- The state of an L1 line other than I (R217, R224). -/
inductive L1St where | s | e | o | m
  deriving DecidableEq, Repr

/-- A forward that reached an L1 (R223): to which requester, and whether it is a FwdGetM. -/
structure Fwd where
  dest : Nat
  excl : Bool
  deriving DecidableEq, Repr

/-- An L1 line: its state, its dirty sectors, and the forwards that wait for the store it was filled for (R223). -/
structure L1Line where
  st    : L1St
  dirty : BitVec 4
  held  : List Fwd
  deriving DecidableEq, Repr

/-- What leaves an L1 through its write-back buffer: PutE, PutO or PutM. -/
inductive Put where | putE | putO | putM
  deriving DecidableEq, Repr

/-- An entry of a write-back buffer (R226): the Put, its dirty sectors, and whether it has answered a forward. -/
structure WbEntry where
  put   : Put
  dirty : BitVec 4
  spent : Bool
  deriving DecidableEq, Repr

/-- What the home awaits responses for: the grant of a cache's GetM, where later requests queue behind it if no owner was
recorded when it was served; a recall, behind which they queue too; or a snoop, behind which none does (R222). -/
inductive Waiter where
  | grant (cache : Nat) (blocks : Bool)
  | recall
  | snoop
  deriving DecidableEq, Repr

/-- A Shared line frame of a slice (R215, R219): its way, the sectors it holds and those newer than the backing channel; the
directory entry with the dies present and the owner; what awaits responses, from which caches; the requests that wait (R222);
and the sectors whose poison bit in the backing channel is not that of the slice (R215). -/
structure Frame where
  way     : Nat
  valid   : BitVec 4
  dirty   : BitVec 4
  present : BitVec 12
  owner   : Option Nat
  waits   : List (Waiter × List Nat)
  queue   : List (Nat × Bool)      -- cache, and whether it asks GetM
  under   : BitVec 4
  deriving DecidableEq, Repr

/-- An outstanding miss of an L1 (R223): whether it asked GetM, whether its home has served it, whether an Inv reached it
first, the forwards on their way to the cache that the home sent before it served the miss, the dirty sectors that come with
its data, and the forwards it holds. -/
structure Mshr where
  excl   : Bool
  served : Bool
  drop   : Bool
  old    : Nat
  dirty  : BitVec 4
  held   : List Fwd
  deriving DecidableEq, Repr

/-- Coherence messages in flight. -/
inductive CKind where
  | put (p : Put) | putAck | fwdGetS (dest : Nat) | fwdGetM (dest : Nat) | inv | snpInvData | snpRd
  | data (excl : Bool) (excOk : Bool) | grant | invAck | snoopRsp (dirty : BitVec 4) (kept : Bool)
  | presenceClear (stale : Bool)
  deriving DecidableEq, Repr

/-- One message: kind, cache that sent it or it is sent to (0 to 671; a die number for a presence-clear), line. -/
structure CMsg where
  kind : CKind
  cache : Nat
  line : Nat
  deriving DecidableEq, Repr

/-- The coherence structures of the device. Cache keys are cache * 2^23 + line; frames are keyed by line. -/
structure Coh where
  l1   : Map L1Line
  wbuf : Map WbEntry
  dir  : Map Frame
  mshr : Map Mshr
  msgs : List CMsg
  deriving DecidableEq, Repr

/-- A narrow way that holds sectors (R228): its 128 B region (Heap key / 128), its way, its sectors. -/
structure NFrame where
  region : Nat
  way    : Nat
  secs   : BitVec 4
  bad    : BitVec 4                -- sectors whose copy is poisoned (R351)
  deriving DecidableEq, Repr

/-- A line of an instruction cache (R56): its 64 bytes and the poison of its two sectors. -/
structure ILine where
  bytes  : List Byte
  poison : BitVec 2
  deriving DecidableEq, Repr

/-! ### Errors, recovery, partitions, links, power, boot -/

/-- An entry of the RAS store (Table 21-4). -/
structure RasEntry where
  cls : Nat
  sev : Nat
  die : Nat
  unit : Nat
  index : Nat
  count : Nat
  addr : Nat
  detail : Nat
  part : Nat
  core : Nat
  ctx : Nat
  extra4 : Nat
  extra5 : Nat
  seq : Nat
  time : Nat
  first : Option Nat               -- Weir counter at the first occurrence (R363); none once that counter has been reset
  deriving DecidableEq, Repr

/-- A basin mode change in progress (R29 to R33): the mode it changes to, and whether the fallback to Pond runs. -/
structure ModeChange where
  toLake   : Bool
  fallback : Bool
  deriving DecidableEq, Repr

/-- A partition operation in progress (R272): the ACTION, its TIMEOUT in ms, and the resets it stands for. -/
structure PartOp where
  action  : Nat
  timeout : Nat
  scrub   : Bool
  draining : Bool                -- work drains; false once it is squashed (Table 16-5)
  begun   : Bool                 -- false while it waits for a mode change of a basin (R34)
  flr     : Bool
  deriving DecidableEq, Repr

/-- A staged commit in progress (R276, R277): its copied entries with the unit of each and whether it is adopted. -/
structure Commit where
  entries : List (Word × Word)
  pendingUnits : NSet
  deriving DecidableEq, Repr

/-- A sequenced message that is not acknowledged (R290, R291): its PSN, the message, the timeouts since the cumulative
acknowledgement last moved, and whether the last ACK bitmap marks it. -/
structure SentMsg where
  psn    : Nat
  msg    : Msg
  rounds : Nat
  marked : Bool
  deriving DecidableEq, Repr

/-- A session (R285 to R293): its entry, its STATUS (Table 17-10), and the two directions. -/
structure Session where
  part    : Nat
  peer    : Nat
  remoteSess : Nat
  entry   : List Word
  st      : Nat                    -- STATUS of Table 17-10
  closing : Bool                   -- a doorbell with VALID = 0 was rung (R293)
  version : Nat
  isn     : Nat                    -- first PSN this device uses
  peerIsn : Nat
  peerInc : Nat
  gotAck  : Bool                   -- HELLO_ACK to its own HELLO has arrived (R287)
  known   : Bool                   -- the peer's parameters are recorded
  sndPsn  : Nat                    -- next PSN to send
  rcvPsn  : Nat                    -- next PSN expected
  sent    : List SentMsg           -- oldest first
  waiting : List Msg               -- responses that wait for a PSN
  heldMsgs : List (Nat × Msg)      -- received and not applied, by PSN
  tags    : Map (Nat × Nat)        -- by TAG at this target: data messages applied, failure status
  retries : Nat                    -- HELLO timeouts in a row
  ackCount : Nat                   -- arrivals not yet acknowledged
  rr      : Nat                    -- sub-port that carried the last message
  deriving DecidableEq, Repr

/-- One MSI-X vector (R301, R302). -/
structure Msix where
  addr : Word
  data : Half
  mask : Bool
  pend : Bool
  deriving DecidableEq, Repr

/-- The pins (R308 to R310, R409, R410; Table 25-5). An `_N` pin holds its level. -/
structure Pins where
  pwrGood   : Bool
  coldRstN  : Bool
  brakeN    : Bool
  hstPwrGd  : List Bool
  perstN    : List Bool
  devPwrGd  : List Bool
  alertN    : List Bool
  brdAlertN : Bool
  mgAddr    : BitVec 3
  i3cAddr   : BitVec 7
  deriving DecidableEq, Repr

/-- The power controller's own state (chapter 20). -/
structure Power where
  stepChg  : Map Nat               -- step change in progress, by die: the step it goes to (R331)
  ptab     : Map Nat               -- learned power, key phase * 16 + step (R336)
  cyc      : Map Nat               -- core cycles of this interval: key die * 64 + phase; 768 + die charged to any
                                   -- context; 780 + die elapsed (R335)
  moved    : NSet                  -- dies that changed step in this interval (R336)
  waitCyc  : Nat                   -- core cycles charged while every group of the core waited (R343)
  allCyc   : Nat                   -- core cycles charged (R343)
  capStretch : Bool                -- CCLK stretched because the cap is passed at step 0 (R334)
  capN     : Nat                   -- one of this many CCLK pulses is then suppressed, 0 while CCLK is not stretched
  heldCap  : Option Nat            -- the cap in W held while the management controller restarts (R361)
  ebbTimes : Map (List Nat)        -- times of the die's stretches in the last ms (R340)
  ebbLimit : Map Nat               -- ceiling of a rate-limited die (R340)
  thermCeil : Map Nat              -- ceiling set by temperature (R341)
  stretch  : NSet                  -- dies whose CCLK an Ebb detector stretches now (R339)
  vcmd     : Map (Nat × Nat)       -- regulator frame outstanding per die: step and tries (R406)
  held     : NSet                  -- dies held at their step because a regulator failed (R406)
  balRecs  : Map (Nat × Nat)       -- by member: sequence last seen, periods since it advanced (R343)
  balSeq   : Nat
  hot      : NSet                  -- dies whose step is lowered until they are below 98 °C (R341)
  hintAt   : Map Nat               -- Weir counter when an idle hint was written (R346)
  deriving DecidableEq, Repr

/-- A suspect context awaiting replay or report (R375 to R377). -/
structure Suspect where
  id     : Nat                   -- the launch, or the DMA command of a packet
  isDma  : Bool
  ctx    : Nat
  queue  : Nat
  seq    : Nat
  core   : Nat
  packet : List Word
  replayable : Bool
  replaying : Bool
  deriving DecidableEq, Repr

/-- A reset in progress (R370): its LEVEL (6 for a partition reset of the ladder, R371), unit, engine, what triggered it, and
how far it is. -/
structure ResetReq where
  level : Nat
  unit  : Nat
  ekind : Nat
  eidx  : Nat
  collected : Bool               -- the Bittern collection is done or given up (R368)
  applied : Bool                 -- its effect has happened
  escalated : Bool               -- it follows a step that did not complete
  pf0 : Bool                     -- PF0 asked for it through RST_REQ
  trigger : Nat                  -- event code of Table 22-6 that asked for it, 0 for none
  ctx : Nat                      -- context of the expired launch or command, or 0
  rasSeq : Nat                   -- SEQ of the RAS entry that records the trigger, or 0
  dieTime : Nat                  -- counter of the unit's die at the trigger
  weirTime : Nat                 -- Weir counter at the trigger
  began : Nat                    -- Weir counter at the end of its collection, where its bound starts (R370)
  deriving DecidableEq, Repr

/-- Bring-up, identity and attestation (chapter 23). -/
structure Boot where
  phase   : Nat                    -- 0 before PWR_GOOD, 1 bring-up, 2 done, 3 recovery mode, 4 held by a fault
  puf     : Nat                    -- the outcome of the PUF at this boot (R388): 0 good, 1 helper data invalid, 2 not reconstructed
  treeNow : Option Nat             -- the identity leaf that certified the current alias tree (R390)
  treeNext : Option Nat            -- the leaf that certified the tree after it
  failedBits : NSet                -- ready bits clear at BOOT_DONE (R380): GLB_READY_FN bits; 100 + basin; 1000 + channel
  mismatches : Nat                 -- lockstep mismatches since power-on (R361)
  lastMismatch : Nat               -- Weir counter at the last one plus 1, 0 for none since warm device reset
  mgmtDown : Bool                  -- the management controller restarts (R361)
  mgmtHalted : Bool
  offers  : Map (Nat × Nat)        -- D2D version offers (R327)
  rejected : NSet                  -- dies without a common version
  linksOut : Map Nat               -- die * 3 + edge: links out of service until the next device reset (R319)
  retraining : List Bool           -- by site: a host link that stopped is being retrained (R298)
  eid : Nat                        -- MCTP endpoint identifier (R393)
  deriving DecidableEq, Repr

/-- The ordering codes of stepping A1 (R3, Table 00-1). -/
inductive Order where | sa | sab | sal
  deriving DecidableEq, Repr

/-- The banks A and B of a firmware image, and whether B runs (R383). -/
structure Banks where
  a   : Image
  b   : Image
  run : Bool
  deriving DecidableEq, Repr

/-- The serial flash (R383 to R389): the signed records, the images, the slots of the device records, and the counters. -/
structure Flash where
  order    : Order
  macBase  : Nat
  answers  : Bool                  -- the flash answers and has its counters
  sku      : List Sig              -- the copies of record 0x02
  leakage  : List Sig              -- of 0x03
  helper   : List Sig              -- of 0x04
  deviceId : List Sig              -- of 0x05
  mgmt     : Banks
  power    : Banks
  pan      : Banks
  slots    : List DevSlot
  mapouts  : NSet                  -- channels with a map-out record, as applied
  repairs  : List Byte             -- the repair map as applied
  incarnation : Nat
  fwSvn    : Nat
  recordGen : Nat
  idLms    : Nat
  deriving DecidableEq, Repr

/-- What the part itself is like: what the self-test of its arrays and links finds (R319, R387). -/
structure Silicon where
  badChans : NSet                  -- channels that fail their test
  badLinks : Map Nat               -- die * 3 + edge: links that fail
  repairs  : List Byte             -- the repairs that the test of the SRAM arrays assigns
  deriving DecidableEq, Repr

/-- One Bittern collection (R369): its first slot, its slots, its header words (Table 22-2), and the body that follows. -/
structure Collection where
  slot  : Nat
  slots : Nat
  words : List Word
  body  : List Word
  deriving DecidableEq, Repr

/-- A mailbox command in progress (R401). -/
structure MboxCmd where
  cmd   : Nat
  token : Nat
  req   : List Byte
  deriving DecidableEq, Repr

/-- What the device sends across its boundary, newest first in `out` (log entry 3). -/
inductive Out where
  | msix (site fn vector : Nat)
  | readData (fn off size : Nat) (value : Word)
  | completion (site fn : Nat) (status : Nat)
  | message (m : Msg)
  | controlFrame (port : Nat)
  | spdm (kind : Nat) (bytes : List Byte)
  | mctp (bytes : List Byte)
  | pldm (bytes : List Byte)
  | vcmd (die step : Nat)
  | pin (name level : Nat)
  | atsDone (site : Nat)
  | packageFault (dies : Nat)
  deriving DecidableEq, Repr

/-- The state of the Caerpodon. -/
structure State where
  -- registers and memories
  regs     : Map Nat              -- register values other than their reset values, by `Reg.key`
  mboxReq  : Memory
  mboxRsp  : Memory
  heap     : Memory               -- key logical channel * 2^24 + offset (R42, R44)
  heapPoison : NSet               -- key / 32 of each poisoned sector
  repair   : NSet                 -- key / 4096 of each row in repair (R358)
  pool     : Memory               -- key (basin * 8 + slot) * 2^22 + offset (R26)
  poolPoison : NSet
  hostMem  : Map Byte             -- key domain * 2^48 + address, the domain by site, function and PASID (R304, R306); unlisted: Config.hostByte
  hostPoison : NSet
  badSectors : NSet               -- key / 32 of sectors found uncorrectable and stored so, without poison written yet
  badRows  : List (Nat × Nat)     -- key / 4096 of rows found uncorrectable, and when (R357)
  -- cores
  groups   : Map Group            -- key core reference * 128 + slot
  launches : Map Launch
  acc      : Map Half             -- key ((array * 2 + set) * 1024 + row * 64 + column)
  accCtx   : Map Nat              -- key array * 2 + set: context of the last launch that wrote it (R121)
  mtxHolder : Map Nat             -- core to launch (R120)
  mtx      : List MtxCmd          -- oldest first
  dma      : List DmaCmd
  rmo      : List RmoCmd
  routes   : List RouteCmd
  modeChg  : Map ModeChange
  outOfService : NSet             -- basins whose Pond self-test failed (R33)
  sharedChg : Option Nat          -- Shared size change in progress (R45)
  -- queues, contexts, scheduling
  residents : Map (List Resident)
  ctxs     : Map ActiveCtx
  failed   : NSet                 -- contexts marked failed (R353)
  queues   : Map Queue
  lastServed : Map Nat            -- by context: the queue last served (R254)
  cmdBusy  : NSet                 -- QUE_CMD pairs whose command is in progress: 127 or the VF's partition
  switching : Map Switch           -- by core (R255, R256)
  evictedFrom : NSet               -- core * 2^20 + context: evicted there, its pool image in SAVE (R252)
  -- translation
  tlb      : List TlbEntry        -- die TLBs and the Weir's (R240)
  utlb     : List (Nat × TlbEntry) -- µTLBs: a core's by its number, a DMA engine's from 2,048 on (R240)
  wc1      : List Wc1             -- stage-1 walk caches
  wc2      : List Wc2             -- stage-2 walk caches
  walkQ    : Map (List Nat)       -- per die: contexts and pages that miss, in arrival order (R239)
  invs     : Map (List Inval)     -- by instance
  heldRecs : Map (List (List Word))
  posted   : NSet                 -- context * 2^32 + page of each posted translation record (R246)
  windows  : Map Window           -- partition * 65536 + window
  -- coherence and narrow cache
  coh      : Coh
  narrow   : List NFrame          -- narrow ways in use, most recently used first
  nmiss    : List Nat             -- regions of the last narrow misses, newest first
  ncacheChg : Map (Nat × Nat)     -- by die in conversion: narrow ways usable, ways kept from Shared lines (R230)
  icache   : Map ILine            -- instruction cache lines, key cache * 2^24 + line of 64 B (R56)
  -- errors, recovery, partitions, links, power, boot
  ras      : List RasEntry        -- newest first, at most 4,096
  bitternLog : List RasEntry      -- entries that the Bittern also holds (R325, R361)
  rakeCe   : Map Nat              -- corrected errors of the patrol period, by channel (R356)
  bittern  : List Collection
  suspects : List Suspect
  resetQ   : List ResetReq
  hung     : NSet                 -- cores that did not stop
  guilty   : NSet                 -- cores whose replays have found a suspect guilty (R377)
  dieReset : NSet                 -- dies in their own reset (R372)
  quarantined : NSet
  sluiced  : NSet
  partOps  : Map PartOp
  lastTag  : Map Nat              -- OWNER_TAG at the last enable or completed reset (R271)
  commit   : Option Commit
  adopted  : Map Nat
  sessions : Map Session
  txq      : Map (List (Nat × Msg)) -- by sub-port: messages that wait for its rounds, with their partition (R294)
  deficits : Map Nat              -- sub-port * 128 + partition: excess taken from its next round
  power    : Power
  boot     : Boot
  flash    : Flash
  silicon  : Silicon
  msix     : Map Msix             -- function * 64 + vector
  cfg      : Map Nat              -- written configuration dwords: function * 1,024 + dword (R301)
  pins     : Pins
  weirCtr  : BitVec 64
  panCtr   : Map Nat
  mbox     : Option MboxCmd
  -- the model's own
  nextId   : Nat
  freeIx   : Nat
  out      : List Out
  pending  : List Instr
  deriving DecidableEq, Repr

/-- The block ends in no fault: every error the manual names is a state with its record posted. The type is closed and
its one constructor is raised by a command that names a unit outside the package. Safe: nothing is executed. -/
inductive Fault where
  /-- Raised by a command that names a core, die, channel or vector that no Caerpodon has. Safe. -/
  | absentUnit
  deriving DecidableEq, Repr

/-- Why a command is turned away without effect. -/
inductive Refusal where
  /-- Raised by a command that this model does not give a meaning: none is left. Safe: nothing is executed. -/
  | notModelled (mnemonic : String)
  deriving DecidableEq, Repr

/-- Banks that hold no image. -/
def Banks.blank : Banks := ⟨⟨⟨false, false, false, false⟩, 0, []⟩, ⟨⟨false, false, false, false⟩, 0, []⟩, false⟩

/-- The machine right after power is applied, before PWR_GOOD rises: every register at its reset value, memories as
Table 23-1 leaves them, nothing in flight. -/
def State.reset : State where
  regs := []
  mboxReq := []
  mboxRsp := []
  heap := []
  heapPoison := []
  repair := []
  pool := []
  poolPoison := []
  hostMem := []
  hostPoison := []
  badSectors := []
  badRows := []
  groups := []
  launches := []
  acc := []
  accCtx := []
  mtxHolder := []
  mtx := []
  dma := []
  rmo := []
  routes := []
  modeChg := []
  outOfService := []
  sharedChg := none
  residents := []
  ctxs := []
  failed := []
  queues := []
  lastServed := []
  cmdBusy := []
  switching := []
  evictedFrom := []
  tlb := []
  utlb := []
  wc1 := []
  wc2 := []
  walkQ := []
  invs := []
  heldRecs := []
  posted := []
  windows := []
  coh := ⟨[], [], [], [], []⟩
  narrow := []
  nmiss := []
  ncacheChg := []
  icache := []
  ras := []
  bitternLog := []
  rakeCe := []
  bittern := []
  suspects := []
  resetQ := []
  hung := []
  guilty := []
  dieReset := []
  quarantined := []
  sluiced := []
  partOps := []
  lastTag := []
  commit := none
  adopted := []
  sessions := []
  txq := []
  deficits := []
  power := ⟨[], [], [], [], 0, 0, false, 0, none, [], [], [], [], [], [], [], 0, [], []⟩
  boot := ⟨0, 0, none, none, [], 0, 0, false, false, [], [], [], [false, false], 0⟩
  flash := ⟨.sa, 0, false, [], [], [], [], Banks.blank, Banks.blank, Banks.blank, [], [], [], 0, 0, 0, 0⟩
  silicon := ⟨[], [], []⟩
  msix := []
  cfg := []
  pins := ⟨false, true, true, [false, false], [false, false], [false, false], [true, true], true, 0, 0⟩
  weirCtr := 0
  panCtr := []
  mbox := none
  nextId := 0
  freeIx := 0
  out := []
  pending := []

end Sys2Proof.Machine
end

