-- ==== Sys2Proof/Machine/Ops.lean ====
section
/-! DEFINITION. The named operations over registers, counters, interrupts, the RAS log and memory that every meaning
uses: reading and writing a register field, logging an entry (R363, R364), firing a vector (R302), resolving a
device-physical address (R38 to R46), and reading and writing located bytes with their poison (R351, R354). -/

namespace Sys2Proof.Machine

/-- The answer of a meaning. -/
abbrev Res := Host.Outcome State Fault Refusal

/-- An event that cannot happen in the present state does not happen: the machine stays as it is (log entry 12). The text
says what is missing. -/
def State.idle (s : State) (_why : String) : Res := .next s

/-! ### Registers -/

/-- The value of a register. -/
def State.reg (s : State) (r : Reg) : Nat := Map.getD s.regs r.key r.resetVal
/-- Set a whole register. -/
def State.setReg (s : State) (r : Reg) (v : Nat) : State := { s with regs := Map.putD s.regs r.key r.resetVal v }
/-- A field of a register. -/
def State.rf (s : State) (r : Reg) (hi lo : Nat) : Nat := fld (s.reg r) hi lo
/-- Set a field of a register. -/
def State.setRf (s : State) (r : Reg) (hi lo v : Nat) : State := s.setReg r (setFld (s.reg r) hi lo v)

/-- What one field takes from a write of bits whi to wlo (R7). -/
def Field.write (f : Field) (whi wlo old new : Nat) : Nat :=
  let h := min f.hi whi
  let l := max f.lo wlo
  if l ≤ h then
    match f.acc with
    | .rw => setFld old h l (fld new h l)
    | .rws => setFld old h l (fld new h l)
    | .w1c => setFld old h l (fld old h l - (fld old h l &&& fld new h l))
    | _ => old
  else old

/-- The register's value after a write of bits whi to wlo: every field by its access code (R7, R8). -/
def Reg.written (r : Reg) (whi wlo old new : Nat) : Nat :=
  r.fields.foldl (fun w f => f.write whi wlo w new) old

/-- What a read returns: WO fields read as 0 (R7). -/
def Reg.shown (r : Reg) (v : Nat) : Nat :=
  r.fields.foldl (fun w f => if f.acc = .wo then setFld w f.hi f.lo 0 else w) v

/-- Restore every field of the given domains to its reset value (R395). -/
def State.restore (s : State) (r : Reg) (ds : List Domain) : State :=
  s.setReg r (r.fields.foldl (fun w f => if ds.contains f.dom then setFld w f.hi f.lo f.reset else w) (s.reg r))

/-! ### Counters, interrupts, output -/

/-- The local counter of a die, 15 for the Weir (R323). -/
def State.dieTime (s : State) (d : Nat) : Nat := if d < 12 then Map.getD s.panCtr d 0 else s.weirCtr.toNat

/-- Send something across the boundary. -/
def State.emit (s : State) (o : Out) : State := { s with out := o :: s.out }

/-- The host site that serves a partition (R306): site B on a part with both sites, where HST_SITEB_MAP says so. -/
def State.siteOf (s : State) (p : Nat) : Nat :=
  if s.flash.order == .sab && p < 96 && (if p < 64 then bit (s.reg .hstSitebMapLo) p else bit (s.reg .hstSitebMapHi) (p - 64))
  then 1 else 0

/-- The site that carries the traffic of a function (R306): PF0's is site A. -/
def State.fnSite (s : State) (fn : Nat) : Nat := if fn == 0 then 0 else s.siteOf (fn - 1)

/-- Fire a vector through its MSI-X entry, by the function's site, or set its pending bit while the entry is masked (R302,
R306). -/
def State.fire (s : State) (fn vec : Nat) : State :=
  let e := Map.getD s.msix (fn * 64 + vec) ⟨0, 0, true, false⟩
  if e.mask then { s with msix := Map.put s.msix (fn * 64 + vec) { e with pend := true } }
  else s.emit (.msix (s.fnSite fn) fn vec)

/-- The function of an instance: PF0 for 127, VF p + 1 otherwise (R267). -/
def fnOf (p : Nat) : Nat := if p < 96 then p + 1 else 0

/-- Take the next free value (a value the manual leaves undefined). -/
def State.fresh (s : State) : Word × State := (Config.freeValue s.freeIx, { s with freeIx := s.freeIx + 1 })

/-- Take the next identifier for a launch or command. -/
def State.newId (s : State) : Nat × State := (s.nextId, { s with nextId := s.nextId + 1 })

/-! ### Ready map, alerts, die clocks (R379, R308, R330) -/

/-- A bit of GLB_READY_FN. -/
def State.readyFn (s : State) (i : Nat) : Bool := bit (s.reg .glbReadyFn) i
/-- Set or clear a bit of GLB_READY_FN; a change fires PF0 vector 3 (R379). -/
def State.setReadyFn (s : State) (i : Nat) (b : Bool) : State :=
  if s.readyFn i == b then s else (s.setRf .glbReadyFn i i (b2n b)).fire 0 3
/-- A Pan die is in service. -/
def State.dieUp (s : State) (d : Nat) : Bool := s.readyFn (8 + d)
/-- The Shared space, the unified cache and the queues are in service (R17). -/
def State.sharedUp (s : State) : Bool := s.readyFn 4
/-- Bring-up has ended (R380). -/
def State.bootDone (s : State) : Bool := s.readyFn 32
/-- A basin's ready bit. -/
def State.basinReady (s : State) (b : Nat) : Bool :=
  if b < 64 then bit (s.reg .glbReadyBsnLo) b else bit (s.reg .glbReadyBsnHi) (b - 64)
/-- Set or clear a basin's ready bit (R379). -/
def State.setBasinReady (s : State) (b : Nat) (v : Bool) : State :=
  if s.basinReady b == v then s
  else (if b < 64 then s.setRf .glbReadyBsnLo b b (b2n v) else s.setRf .glbReadyBsnHi (b - 64) (b - 64) (b2n v)).fire 0 3
/-- A channel's ready bit. -/
def State.chanReady (s : State) (c : Nat) : Bool := bit (s.reg (.glbReadyChan (c / 64))) (c % 64)
/-- Set or clear a channel's ready bit (R379). -/
def State.setChanReady (s : State) (c : Nat) (v : Bool) : State :=
  if s.chanReady c == v then s else (s.setRf (.glbReadyChan (c / 64)) (c % 64) (c % 64) (b2n v)).fire 0 3
/-- Assert HST_ALERT_N on both sites, and with it BRD_ALERT_N (R308, R409). -/
def State.alert (s : State) : State := { s with pins := { s.pins with alertN := [false, false], brdAlertN := false } }
/-- K of a clock step (Table 20-1). -/
def stepK (n : Nat) : Nat :=
  if n == 0 then 18 else if n ≤ 12 then 18 + 2 * n else if n == 13 then 44 else if n == 14 then 47 else 50
/-- The current step of a die. -/
def State.dieStep (s : State) (d : Nat) : Nat := s.rf (.pwrDieSts d) 35 32

/-! ### Host memory -/

/-- A byte of host memory (R2, R38). -/
def State.hostRead (s : State) (key : Nat) : Byte := (Map.find? s.hostMem key).getD (Config.hostByte key)

/-- Write bytes of host memory from a key upward. -/
def State.hostWrite (s : State) : Nat → List Byte → State
  | _, [] => s
  | k, b :: bs => State.hostWrite { s with hostMem := Map.put s.hostMem k b } (k + 1) bs

/-- The bytes of 64-bit words, little-endian (R89). -/
def wordsBytes (ws : List Word) : List Byte := ws.flatMap (fun w => leBytes w.toNat 8)

/-- Saturating increment of an n-bit count. -/
def satInc (n v : Nat) : Nat := if v + 1 < 2 ^ n then v + 1 else 2 ^ n - 1

/-! ### The RAS log (R362 to R364) -/

/-- The eight words of a RAS entry (Table 21-4). -/
def RasEntry.toWords (e : RasEntry) : List Word :=
  [ BitVec.ofNat 64 (e.cls * 2 ^ 56 + e.sev * 2 ^ 52 + e.die * 2 ^ 48 + e.unit * 2 ^ 40 + e.index % 2 ^ 16 * 2 ^ 24 + e.count),
    BitVec.ofNat 64 (e.addr % 2 ^ 52), BitVec.ofNat 64 e.detail,
    BitVec.ofNat 64 (e.part * 2 ^ 48 + e.core * 2 ^ 22 + e.ctx), BitVec.ofNat 64 e.extra4, BitVec.ofNat 64 e.extra5,
    BitVec.ofNat 64 e.seq, BitVec.ofNat 64 e.time ]

/-- A fresh entry with the given identity; the remaining fields as "none". -/
def rasOf (cls sev die unit index detail : Nat) : RasEntry :=
  ⟨cls, sev, die, unit, index, 1, 0, detail, 0x7F, 0, 0, 0, 0, 0, 0, some 0⟩

/-- Two entries that R363 combines. -/
def RasEntry.same (a b : RasEntry) : Bool :=
  a.cls == b.cls && a.die == b.die && a.unit == b.unit && a.index == b.index && a.detail == b.detail

/-- Take the oldest entry of the given severity out of the store (newest first). -/
def dropOldest (sev : Nat) (l : List RasEntry) : List RasEntry :=
  match l.reverse.findIdx? (fun e => e.sev == sev) with
  | some i => (l.reverse.eraseIdx i).reverse
  | none => l

/-- The least severity present. -/
def leastSev (l : List RasEntry) : Nat := l.foldl (fun m e => min m e.sev) 3

/-- Post an entry to the PF0 RAS ring while it is in use (R364). -/
def State.rasPost (s : State) (e : RasEntry) : State :=
  let size := s.rf .rasRingBase 4 1
  if s.rf .rasRingBase 0 0 == 1 && size ≤ 10 then
    let n := 64 * 2 ^ size
    let head := s.reg .rasRingHead
    let tail := s.reg .rasRingTail
    if (tail + 2 ^ 32 - head) % 2 ^ 32 == n then s.setReg .rasLost (satInc 32 (s.reg .rasLost))
    else
      ((s.hostWrite (s.rf .rasRingBase 47 12 * 2 ^ 12 + tail % n * 64) (wordsBytes e.toWords)).setReg .rasRingTail
        ((tail + 1) % 2 ^ 32)).fire 0 1
  else s

/-- Write an entry to the RAS store, or combine it with one written less than 100 µs earlier (R363), and post it. -/
def State.ras_ (s : State) (e : RasEntry) : State :=
  match findIdx? s.ras (fun o => o.same e && o.first.any (fun f => s.weirCtr.toNat < f + 10000)) with
  | some i => { s with ras := s.ras.modify i (fun o => { o with count := satInc 24 o.count }) }
  | none =>
    let e := { e with seq := s.reg .rasStoreSeq + 1, time := s.dieTime e.die, first := some s.weirCtr.toNat }
    if s.ras.length < 4096 then
      ({ s with ras := e :: s.ras }.setReg .rasStoreSeq e.seq).rasPost e
    else if leastSev s.ras == 0 || e.sev != 0 then
      ({ s with ras := e :: dropOldest (leastSev s.ras) s.ras }.setReg .rasStoreSeq e.seq).rasPost e
    else s.setReg .rasLost (satInc 32 (s.reg .rasLost))

/-- Log a rejected register access: class 0x09, UNIT 0x0B, DETAIL the rule (R9, Table 21-4). -/
def State.accessError (s : State) (rule fn off : Nat) : State :=
  let die := if fn == 0 && 0x4000000 ≤ off && off < 0x4C00000 then (off - 0x4000000) / 0x100000 else 15
  s.ras_ { rasOf 0x09 0 die 0x0B fn rule with addr := off, part := if fn == 0 then 0x7F else fn - 1 }

/-- Log a dropped request: class 0x0A, DETAIL the rule. -/
def State.dropped (s : State) (rule p : Nat) : State :=
  s.ras_ { rasOf 0x0A 0 15 0x08 0 rule with part := p }

/-! ### Cores, basins and pools (R21, R26, R35) -/

/-- A basin is in Lake mode. -/
def State.lake (s : State) (b : Nat) : Bool := s.rf (.bsnModeSts b) 0 0 == 1
/-- The basin of a core reference. -/
def coreBasin (core : Nat) : Nat := if core < 1024 then core / 8 else core % 1024
/-- The die of a core reference. -/
def coreDie (core : Nat) : Nat := coreBasin core / 8
/-- A core reference is valid (R35). -/
def State.coreValid (s : State) (core : Nat) : Bool :=
  coreBasin core < 96 && core < 2048 &&
    (if core < 1024 then core % 8 != 7 && !s.lake (core / 8) else s.lake (core % 1024))
/-- Kind of a core: 0 M, 1 V, 2 S, 3 Lake (Table 02-1, word 0 of Table 15-7). -/
def coreKind (core : Nat) : Nat := if core < 1024 then (if core % 8 < 4 then 0 else if core % 8 < 6 then 1 else 2) else 3
/-- Group slots of a core kind (Table 02-1). -/
def kindSlots (k : Nat) : Nat := if k == 0 then 8 else if k == 1 then 32 else if k == 2 then 16 else 112
/-- Pool bytes of a core kind (R27). -/
def kindPool (k : Nat) : Nat :=
  if k == 0 then 4 * 2 ^ 20 else if k == 1 then 2 * 2 ^ 20 else if k == 2 then 2 ^ 20 else 21 * 2 ^ 20
/-- The pool size of a core. -/
def poolSize (core : Nat) : Nat := kindPool (coreKind core)

/-- The physical pool and its offset that a Lake offset maps onto (R26, Table 02-3). -/
def lakePool (a : Nat) : Nat × Nat :=
  let g := a / 512
  let r := a % 512
  let stripe := g / 21
  let e : Nat × Nat × Nat := match g % 21 with
    | 0 => (0, 4, 0) | 7 => (0, 4, 1) | 13 => (0, 4, 2) | 17 => (0, 4, 3)
    | 1 => (1, 4, 0) | 8 => (1, 4, 1) | 14 => (1, 4, 2) | 18 => (1, 4, 3)
    | 2 => (2, 4, 0) | 9 => (2, 4, 1) | 15 => (2, 4, 2) | 19 => (2, 4, 3)
    | 3 => (3, 4, 0) | 10 => (3, 4, 1) | 16 => (3, 4, 2) | 20 => (3, 4, 3)
    | 4 => (4, 2, 0) | 11 => (4, 2, 1)
    | 5 => (5, 2, 0) | 12 => (5, 2, 1)
    | _ => (6, 1, 0)
  (e.1, stripe * e.2.1 * 512 + e.2.2 * 512 + r)

/-- The key of a pool byte. -/
def poolKey (core off : Nat) : Nat :=
  if core < 1024 then core * 2 ^ 22 + off
  else (core % 1024 * 8 + (lakePool off).1) * 2 ^ 22 + (lakePool off).2

/-! ### Heap channels (R42 to R50) -/

/-- State of a physical channel (Table 03-8). -/
def State.chanState (s : State) (c : Nat) : Nat := s.rf (.panChanState (c / 16)) (c % 16 * 2 + 1) (c % 16 * 2)
/-- A Heap runs Guarded protection. -/
def State.guarded (s : State) (h : Nat) : Bool := s.rf (.panHeapCtl h) 9 8 == 1
/-- In-service physical channels of a Heap, ascending: all that are not mapped out. -/
def State.heapChans (s : State) (h : Nat) : List Nat :=
  (List.range 16).filterMap (fun c => if s.chanState (h * 16 + c) == 3 then none else some (h * 16 + c))
/-- Logical channels of a Heap (R42). -/
def State.heapLogical (s : State) (h : Nat) : List Nat :=
  if s.guarded h then (s.heapChans h).dropLast else s.heapChans h
/-- The ascending list of logical channels in service. -/
def State.logical (s : State) : List Nat := (List.range 24).flatMap s.heapLogical

/-- A partition owns what it names: its STATE is not disabled (R266). -/
def State.partOn (s : State) (p : Nat) : Bool := s.rf (.cfgPartSts p) 23 20 != 0
/-- A partition's channel bit. -/
def State.partChanBit (s : State) (p c : Nat) : Bool := bit (s.reg (.cfgPartChan p (c / 64))) (c % 64)
/-- The enabled partition that owns a channel. -/
def State.chanOwner (s : State) (c : Nat) : Nat :=
  ((List.range 96).find? (fun p => s.partOn p && s.partChanBit p c)).getD 127
/-- The owner of a physical channel: the highest of a Guarded Heap, which is no logical one, goes with the Heap's others
(R42, R43). -/
def State.physOwner (s : State) (c : Nat) : Nat :=
  match (s.heapLogical (c / 16)).head? with
  | some l => s.chanOwner (if (s.heapLogical (c / 16)).contains c then c else l)
  | none => s.chanOwner c
/-- The ascending list of a partition's logical channels; 127 holds the rest (R41). -/
def State.partChans (s : State) (p : Nat) : List Nat :=
  if p < 96 then (if s.partOn p then s.logical.filter (s.partChanBit p) else [])
  else if p == 127 then s.logical.filter (fun c => s.chanOwner c == 127) else []
/-- A partition's basin bit. -/
def State.partBasinBit (s : State) (p b : Nat) : Bool :=
  if b < 64 then bit (s.reg (.cfgPartBsnLo p)) b else bit (s.reg (.cfgPartBsnHi p)) (b - 64)
/-- The enabled partition that owns a basin, 127 for PF0. -/
def State.basinOwner (s : State) (b : Nat) : Nat :=
  ((List.range 96).find? (fun p => s.partOn p && s.partBasinBit p b)).getD 127

/-- A request that arrives through a VF's BAR: while the partition is disabled it is dropped and logged (R267). -/
def State.throughVf (s : State) (fn off : Nat) (act : Host.Outcome State Fault Refusal) : Host.Outcome State Fault Refusal :=
  if 1 ≤ fn && fn ≤ 96 && !s.partOn (fn - 1) then .next (s.accessError 267 fn off) else act

/-- Count squashed commands and packets; the count saturates. -/
def State.countSquash (s : State) (p n : Nat) : State :=
  let r : Reg := .cfgPartSts p
  s.setRf r 47 32 (min (s.rf r 47 32 + n) 0xFFFF)

/-- Granules K of the Shared carve-out per logical channel (R44, R45). -/
def State.kGran (s : State) : Nat := s.rf .glbSharedSts 31 20
/-- Bytes of the Deep part of each logical channel. -/
def State.deepSize (s : State) : Nat := 2 ^ 24 - s.kGran * 4096
/-- The size S of the Shared space; 0 where no carve-out is formed. -/
def State.sharedSize (s : State) : Nat := if s.kGran == 0 then 0 else (s.rf .glbSharedSts 1 0 + 1) * 2 ^ 28

/-- The Heap key of an offset o over a channel list, from a channel offset upward (R44, R46). -/
def overList (l : List Nat) (base o : Nat) : Option Nat :=
  (l[o / 4096 % l.length]?).map (fun c => c * 2 ^ 24 + base + o / 4096 / l.length * 4096 + o % 4096)

/-- Where a byte lies. -/
inductive Loc where
  | heap (key : Nat)
  | pool (key : Nat)
  | host (addr : Nat)
  | mmio (off : Nat)
  deriving DecidableEq, Repr

/-- Space code of a DPA (Table 03-1). -/
def spaceOf (dpa : Nat) : Nat := fld dpa 51 48
/-- Form of a Deep DPA (Table 03-3). -/
def formOf (dpa : Nat) : Nat := fld dpa 47 46
/-- Partition field of a Near or Spread DPA. -/
def dpaPart (dpa : Nat) : Nat := fld dpa 41 35

/-- The Heap key of a Shared offset (R44). -/
def State.sharedKey (s : State) (o : Nat) : Option Nat :=
  if o < s.sharedSize then overList s.logical (2 ^ 24 - s.kGran * 4096) o else none

/-- The Heap key of a Deep DPA, none where R39 makes it invalid. -/
def State.deepKey (s : State) (dpa : Nat) : Option Nat :=
  match formOf dpa with
  | 0 =>
    if fld dpa 45 33 == 0 && s.logical.contains (fld dpa 32 24) && fld dpa 23 0 < s.deepSize
    then some (fld dpa 32 24 * 2 ^ 24 + fld dpa 23 0) else none
  | 1 =>
    let l := (s.partChans (dpaPart dpa)).filter (fun c => c / 32 == fld dpa 45 42)
    if fld dpa 34 29 == 0 && fld dpa 45 42 < 12 && fld dpa 28 0 < l.length * s.deepSize
    then overList l 0 (fld dpa 28 0) else none
  | 2 =>
    let l := s.partChans (dpaPart dpa)
    if fld dpa 45 42 == 0 && fld dpa 34 33 == 0 && fld dpa 32 0 < l.length * s.deepSize
    then overList l 0 (fld dpa 32 0) else none
  | _ => none

/-- The location of one byte of a DPA, none where the DPA is invalid (R39). -/
def State.locate (s : State) (dpa : Nat) : Option Loc :=
  match spaceOf dpa with
  | 0 => (s.deepKey dpa).map .heap
  | 1 => if fld dpa 47 30 == 0 then (s.sharedKey (fld dpa 29 0)).map .heap else none
  | 2 =>
    if fld dpa 47 36 == 0 && s.coreValid (fld dpa 35 25) && fld dpa 24 0 < poolSize (fld dpa 35 25)
    then some (.pool (poolKey (fld dpa 35 25) (fld dpa 24 0))) else none
  | 3 => some (.host (fld dpa 47 0))
  | 4 => if fld dpa 47 27 == 0 then some (.mmio (fld dpa 26 0)) else none
  | _ => none

/-- The locations of n bytes from a DPA. -/
def State.locateN (s : State) (dpa : Nat) : Nat → Option (List Loc)
  | 0 => some []
  | n + 1 => (s.locate dpa).bind (fun l => (s.locateN (dpa + 1) n).map (fun ls => l :: ls))

/-- The physical channel that holds a Heap byte (R42). -/
def State.physChan (s : State) (key : Nat) : Nat :=
  let c := key / 2 ^ 24
  if s.guarded (c / 16) then
    let l := s.heapChans (c / 16)
    (l[(l.idxOf c + key % 2 ^ 24 / 4096) % l.length]?).getD c
  else c

/-- The Shared offset that a Heap byte backs (R44). -/
def State.sharedOff (s : State) (key : Nat) : Option Nat :=
  if key % 2 ^ 24 < s.deepSize || !s.logical.contains (key / 2 ^ 24) then none
  else
    let o := (((key % 2 ^ 24 - s.deepSize) / 4096) * s.logical.length + s.logical.idxOf (key / 2 ^ 24)) * 4096 + key % 4096
    if o < s.sharedSize then some o else none

/-- A slice holds the sector of a Heap byte, which backs Shared: the newest copy is not the channel's (R215, R217). -/
def State.sliceHolds (s : State) (key : Nat) : Bool :=
  match s.sharedOff key with
  | some o => (Map.find? s.coh.dir (o / 128)).any (fun f => f.valid.getLsbD (o / 32 % 4))
  | none => false

/-- The Heap byte lies on a channel in state Failing (Table 03-8). -/
def State.onFailing (s : State) (key : Nat) : Bool := s.chanState (s.physChan key) == 1

/-- A write of the Heap byte reaches a Failing channel: no slice takes it (R49, R217). -/
def State.failing (s : State) (key : Nat) : Bool := s.onFailing key && !s.sliceHolds key

/-- A Heap byte that its channel cannot give: the channel is Failing, or it is Degraded and another of the stripe is Failing,
so that parity does not rebuild it (R43, R49). -/
def State.chanLost (s : State) (key : Nat) : Bool :=
  s.onFailing key || (s.chanState (s.physChan key) == 2 && (s.heapChans (key / 2 ^ 28)).any (fun c => s.chanState c == 1))

/-- A Heap byte that a read cannot give: its channel cannot, and no slice holds it. -/
def State.lost (s : State) (key : Nat) : Bool := s.chanLost key && !s.sliceHolds key

/-- A Heap byte lies in the Shared carve-out (R44). -/
def State.inShared (s : State) (key : Nat) : Bool := s.deepSize ≤ key % 2 ^ 24

/-- The row of a Heap byte is in repair (R358). -/
def State.inRepair (s : State) (l : Loc) : Bool :=
  match l with
  | .heap k => s.repair.contains (k / 4096)
  | _ => false

/-- The die that holds a Heap byte is in service and its channel is behind no closed Sluice gate (R18, R374). -/
def State.heapUp (s : State) (l : Loc) : Bool :=
  match l with
  | .heap k => s.dieUp (s.physChan k / 32) && !s.sluiced.contains (s.chanOwner (k / 2 ^ 24))
  | _ => true

/-- The thermal trip holds the clocks of every Pan die (Table 20-3). -/
def State.tripped (s : State) : Bool := s.rf .pwrSts 7 7 == 1

/-- What a Pan die does of itself: with its clocks stopped by the thermal trip, nothing (Table 20-3). -/
def State.clocked (s : State) (act : Host.Outcome State Fault Refusal) : Host.Outcome State Fault Refusal :=
  if s.tripped then .next s else act

/-- CAP_MAX of an ordering code, in W (R3, R4, R332). -/
def Order.capMax : Order → Nat
  | .sal => 900
  | _ => 1400

/-- The host link that serves a partition is up (R298). -/
def State.hostUp (s : State) (p : Nat) : Bool := s.readyFn (s.siteOf p)

/-- Below die-to-die version 0x21, poison in any sector poisons the 64 B flit that carries it (R328). -/
def State.wideFlits (s : State) : Bool := s.rf .glbD2dVer 7 0 == 0x20

/-- The sectors whose poison a read of a sector meets: its own, and that of the other half of its flit (R351, R328). -/
def State.flitSecs (s : State) (sec : Nat) : List Nat := if s.wideFlits then [sec / 2 * 2, sec / 2 * 2 + 1] else [sec]

/-- Read a located byte: its value and whether it is poisoned (R49, R328, R351). -/
def State.readLoc (s : State) (pasid : Nat) (l : Loc) : Byte × Bool :=
  match l with
  | .heap k => (s.heap.read k, (s.flitSecs (k / 32)).any (fun x => s.heapPoison.contains x || s.lost (x * 32)))
  | .pool k => (s.pool.read k, s.poolPoison.contains (k / 32))
  | .host a => (s.hostRead (pasid * 2 ^ 48 + a), s.hostPoison.contains ((pasid * 2 ^ 48 + a) / 32))
  | .mmio _ => (0#8, false)

/-- Read located bytes: the bytes and whether any is poisoned. -/
def State.readLocs (s : State) (pasid : Nat) (ls : List Loc) : List Byte × Bool :=
  (ls.map (fun l => (s.readLoc pasid l).1), ls.any (fun l => (s.readLoc pasid l).2))

/-- Take out of a poison set the sectors that a write covers whole (R354). -/
def clearCovered (poison : NSet) (keys : List Nat) : NSet :=
  poison.filter (fun sec => !((List.range 32).all (fun i => keys.contains (sec * 32 + i))))

/-- Write one located byte (a Failing channel discards it, R49). -/
def State.writeLoc (s : State) (pasid : Nat) (l : Loc) (b : Byte) : State :=
  match l with
  | .heap k => if s.failing k then s else { s with heap := s.heap.write k b }
  | .pool k => { s with pool := s.pool.write k b }
  | .host a => { s with hostMem := Map.put s.hostMem (pasid * 2 ^ 48 + a) b }
  | .mmio _ => s

/-- Write located bytes one after another. -/
def State.writeAll (s : State) (pasid : Nat) : List Loc → List Byte → State
  | l :: ls, b :: bs => State.writeAll (s.writeLoc pasid l b) pasid ls bs
  | _, _ => s

/-- The Heap keys among locations. -/
def heapKeys (ls : List Loc) : List Nat := ls.filterMap (fun l => match l with | .heap k => some k | _ => none)
/-- The host keys among locations of a domain. -/
def hostKeys (dom : Nat) (ls : List Loc) : List Nat :=
  ls.filterMap (fun l => match l with | .host a => some (dom * 2 ^ 48 + a) | _ => none)
/-- The pool keys among locations. -/
def poolKeys (ls : List Loc) : List Nat := ls.filterMap (fun l => match l with | .pool k => some k | _ => none)

/-- Log a write that Failing channels discard, once for each of them (R49). -/
def State.discardNote (s : State) (keys : List Nat) : State :=
  ((keys.filter s.failing).map s.physChan).dedup.foldl (fun (t : State) c =>
    t.ras_ { rasOf 0x04 1 (c / 32) 0x01 c 0x101 with part := s.physOwner c }) s

/-- An event that the manual says is logged without naming its class: the class is a free value (R327, R380, R383). -/
def State.logPlain (s : State) (sev die unit index : Nat) : State :=
  let (w, t) := s.fresh
  t.ras_ (rasOf (w.toNat % 256) sev die unit index 0)

/-- Narrow ways without the given sectors (R228). -/
def dropNarrow (fs : List NFrame) (secs : List Nat) : List NFrame :=
  fs.filterMap (fun f =>
    let left := (List.range 4).foldl (fun (b : BitVec 4) i => if secs.contains (f.region * 4 + i) then b &&& ~~~(1#4 <<< i) else b) f.secs
    if left == 0 then none else some { f with secs := left, bad := f.bad &&& left })

/-- Write bytes at locations: covered sectors lose their poison (R354), cached narrow sectors are dropped (R228), and a
write discarded by a Failing channel is reported (R49). -/
def State.writeLocs (s : State) (pasid : Nat) (ls : List Loc) (bs : List Byte) : State :=
  let hk := heapKeys ls
  let t := s.writeAll pasid ls bs
  let t := { t with
    heapPoison := clearCovered t.heapPoison (hk.filter (fun k => !s.failing k))
    poolPoison := clearCovered t.poolPoison (poolKeys ls)
    hostPoison := clearCovered t.hostPoison (hostKeys pasid ls)
    narrow := dropNarrow t.narrow (hk.map (· / 32)) }
  t.discardNote hk

/-- Turn the poison bit of a sector over. -/
def flipPoison (m : NSet) (sec : Nat) : NSet := NSet.set m sec (!m.contains sec)

/-- Poison the sectors of locations. -/
def State.poisonLocs (s : State) (ls : List Loc) : State :=
  { s with
    heapPoison := (heapKeys ls).foldl (fun m k => NSet.ins m (k / 32)) s.heapPoison
    poolPoison := (poolKeys ls).foldl (fun m k => NSet.ins m (k / 32)) s.poolPoison }

/-! ### The pool of a core by offset -/

/-- Locations of n pool bytes of a core. -/
def poolLocs (core off n : Nat) : List Loc := (List.range n).map (fun i => .pool (poolKey core (off + i)))

/-- Read n pool bytes: the bytes and whether any is poisoned. -/
def State.poolRead (s : State) (core off n : Nat) : List Byte × Bool := s.readLocs 0 (poolLocs core off n)

/-- Write pool bytes. -/
def State.poolWrite (s : State) (core off : Nat) (bs : List Byte) : State :=
  s.writeLocs 0 (poolLocs core off bs.length) bs

/-- Zero a physical pool and its poison. -/
def State.zeroPool (s : State) (phys : Nat) : State :=
  { s with
    pool := Map.keep s.pool (fun k => k / 2 ^ 22 != phys)
    poolPoison := s.poolPoison.filter (fun k => k * 32 / 2 ^ 22 != phys) }

/-- Set the accumulators of a basin's arrays to +0 and forget who wrote them (R31, R121). -/
def State.zeroAcc (s : State) (b : Nat) : State :=
  { s with
    acc := Map.keep s.acc (fun k => k / 2048 / 16 != b)
    accCtx := Map.keep s.accCtx (fun k => k / 2 / 16 != b) }

end Sys2Proof.Machine
end

