-- ==== Sys2Proof/Machine/Commit.lean ====
section
/-! DEFINITION. Staged commit (R276, R277): submitting the staging table, and the units' adoption of its values. -/

namespace Sys2Proof.Machine

/-- The units, by DONE_MAP bit, that a staged register belongs to (R277). -/
def stagedUnits (r : Reg) : List Nat :=
  match r with
  | .cfgPartTcw _ => List.range 12
  | .pwrPhasePref _ => (List.range 12).map (· + 12)
  | .schQuantum _ => [24]
  | _ => []

/-- The value a unit uses for a staged register: the value it adopted, else the reset value (R277). -/
def State.adoptedVal (s : State) (unit : Nat) (r : Reg) : Nat := Map.getD s.adopted (unit * 2 ^ 28 + r.key) r.resetVal

/-- The staged register a staging entry names by bits 25 to 0 of its offset (R276); those of CFG_PART_TCW stand for an offset
of 27 bits, and no other register has them (log entry 112). -/
def entryReg (w0 : Word) : Option Reg :=
  let o := fld w0.toNat 25 0
  match Reg.ofOffset o, Reg.ofOffset (o + 2 ^ 26) with
  | some (r, false), _ => some r
  | none, some (.cfgPartTcw p, false) => some (.cfgPartTcw p)
  | _, _ => none

/-- A staging entry with VALID = 1 is invalid by itself: it names no staged register, or its value sets a reserved bit of it or
is out of range (R276). The reserved bits of word 0 read 0 (R8). -/
def entryInvalid (w0 w1 : Word) : Bool :=
  match entryReg w0 with
  | none => true
  | some r => (stagedUnits r).isEmpty || r.written 63 0 0 (2 ^ 64 - 1) != 0 ||
    (match r with
     | .cfgPartTcw _ => fld w1.toNat 63 8 != 0 || fld w1.toNat 7 0 == 0
     | .pwrPhasePref _ => fld w1.toNat 63 4 != 0
     | _ => fld w1.toNat 63 24 != 0)

/-- The valid entries of the staging table, with their numbers. -/
def State.staged (s : State) : List (Nat × Word × Word) :=
  (List.range 256).filterMap (fun e =>
    if bit (s.reg (.cfgStage e 0)) 63 then
      some (e, BitVec.ofNat 64 (s.reg (.cfgStage e 0)), BitVec.ofNat 64 (s.reg (.cfgStage e 1)))
    else none)

/-- The lowest invalid entry: wrong by itself, or naming a register that a lower entry names (R276). -/
def badEntry (es : List (Nat × Word × Word)) : Option Nat :=
  (es.find? (fun x => entryInvalid x.2.1 x.2.2 ||
    es.any (fun y => y.1 < x.1 && fld y.2.1.toNat 25 0 == fld x.2.1.toNat 25 0))).map (fun x => x.1)

/-- Units that belong to some entry of a commit. -/
def commitUnits (es : List (Word × Word)) : NSet :=
  (List.range 25).filter (fun u => es.any (fun x =>
    match entryReg x.1 with
    | some r => (stagedUnits r).contains u
    | none => false))

/-- A unit adopts its entries of a commit. -/
def State.adoptVals (s : State) (u : Nat) (es : List (Word × Word)) : State :=
  es.foldl (fun t x =>
    match entryReg x.1 with
    | some r => if (stagedUnits r).contains u then { t with adopted := Map.put t.adopted (u * 2 ^ 28 + r.key) x.2.toNat } else t
    | none => t) s

/-- The state of the commit once a unit is done or is given up: STATE 1 while units are pending, else `final`. -/
def State.commitNext (s : State) (c : Commit) (u final : Nat) : State :=
  let rest := NSet.del c.pendingUnits u
  if rest.isEmpty then ({ s with commit := none }).setRf .cfgCommitSts 31 28 final
  else ({ s with commit := some { c with pendingUnits := rest } }).setRf .cfgCommitSts 31 28 1

/-- A unit reaches its epoch point: it adopts every entry that belongs to it (R277). -/
def State.adoptUnit (s : State) (u : Nat) : State :=
  match s.commit with
  | none => s
  | some c =>
    if c.pendingUnits.contains u then
      ((s.adoptVals u c.entries).setRf .cfgCommitSts u u 1).commitNext c u 2
    else s

/-- CFG_COMMIT: refused while a commit is in progress or when an entry is invalid, else accepted (R276). -/
def execCfgCommit (val : BitVec 64) (s : State) : Res :=
  let t := s.setRf .cfgCommitSts 47 40 (fld val.toNat 7 0)
  if s.commit.isSome then .next (t.setRf .cfgCommitSts 31 28 3)
  else match badEntry s.staged with
    | some e => .next ((t.setRf .cfgCommitSts 31 28 4).setRf .cfgCommitSts 39 32 e)
    | none =>
      let es := s.staged.map (fun x => x.2)
      let us := commitUnits es
      let t := es.foldl (fun t x => match entryReg x.1 with | some r => t.setReg r x.2.toNat | none => t) t
      let t := t.setRf .cfgCommitSts 24 0 (ones 25 - (us.map (fun u => 2 ^ u)).sum)
      if us.isEmpty then .next (t.setRf .cfgCommitSts 31 28 2)
      else .next ({ t with commit := some ⟨es, us⟩ }.setRf .cfgCommitSts 31 28 1)

/-- COMMIT_PARTIAL_TIMEOUT: a unit that was reset has not returned within 100 ms; it keeps the old values (R277). -/
def execCommitPartialTimeout (unit : Fin 25) (s : State) : Res :=
  match s.commit with
  | none => s.idle "no commit is in progress"
  | some c =>
    if c.pendingUnits.contains unit.val then .next (s.commitNext { c with pendingUnits := [unit.val] } unit.val 5)
    else s.idle "the unit is not pending"

end Sys2Proof.Machine
end

