-- ==== Sys2Proof/Machine/Coherence.lean ====
section
/-! DEFINITION. Coherence of the Shared space (R215 to R230): the line frames of the slices with their directory entries,
the L1s and their write-back buffers, and the messages in flight. The bytes of a line's newest copy are held once, in the
Heap memory; which cache or slice holds which sectors, and how new they are, is held here (log entry 92). A core's access is
a whole transaction while nothing else is in flight for its line; the rows of the table are the single events. -/

namespace Sys2Proof.Machine

/-! ### Caches, lines, frames -/

/-- The core slot of a group slot of a Lake core (Table 04-2). -/
def lakeSlot (slot : Nat) : Nat := if slot < 32 then slot / 8 else if slot < 64 then 4 else if slot < 96 then 5 else 6
/-- The L1 that serves a group (R217). -/
def cacheOf (core slot : Nat) : Nat := if core < 1024 then core / 8 * 7 + core % 8 else core % 1024 * 7 + lakeSlot slot
/-- The die of an L1. -/
def cacheDie (c : Nat) : Nat := c / 56
/-- A die's bit of a presence vector. -/
def dieBit (d : Nat) : BitVec 12 := 1#12 <<< d
/-- The key of a line in a cache. -/
def lineKey (c line : Nat) : Nat := c * 2 ^ 23 + line
/-- The line of a cache key. -/
def keyLine (k : Nat) : Nat := k % 2 ^ 23
/-- The cache of a cache key. -/
def keyCache (k : Nat) : Nat := k / 2 ^ 23
/-- The home slice of a line (R216). -/
def homeSlice (line : Nat) : Nat :=
  let h := (line ^^^ line / 2 ^ 8 ^^^ line / 2 ^ 16) % 192
  h % 12 * 16 + h / 12 % 16
/-- The die of a line's home. -/
def homeDie (line : Nat) : Nat := homeSlice line / 16

/-- The lines of n bytes from a Shared offset. -/
def linesOf (o n : Nat) : List Nat := if n == 0 then [] else (List.range ((o + n - 1) / 128 - o / 128 + 1)).map (· + o / 128)
/-- The sectors of a line that n bytes from a Shared offset touch. -/
def secsOf (line o n : Nat) : BitVec 4 :=
  BitVec.ofNat 4 (((List.range 4).filter (fun k => o < line * 128 + k * 32 + 32 && line * 128 + k * 32 < o + n)).map (2 ^ ·)).sum
/-- The Shared lines that bytes at DPAs lie in. -/
def sharedOf (dpas : List Nat) : List Nat := ((dpas.filter (fun d => spaceOf d == 1)).map (fun d => fld d 29 0 / 128)).dedup
/-- The sectors of a line that bytes at DPAs lie in. -/
def secsAt (dpas : List Nat) (line : Nat) : BitVec 4 :=
  BitVec.ofNat 4 (((List.range 4).filter (fun k => dpas.any (fun d => spaceOf d == 1 && fld d 29 0 / 32 == line * 4 + k))).map
    (2 ^ ·)).sum

/-- The frame of a line that no slice holds. -/
def Frame.none_ : Frame := ⟨0, 0, 0, 0, none, [], [], 0⟩
/-- Later requests queue behind what the home awaits (R222). -/
def Waiter.blocks : Waiter → Bool
  | .grant _ b => b
  | .recall => true
  | .snoop => false
/-- Requests for the line queue (R222). -/
def Frame.busy (f : Frame) : Bool := f.waits.any (fun w => w.1.blocks)
/-- A line's frame, if a slice holds it. -/
def State.frame? (s : State) (line : Nat) : Option Frame := Map.find? s.coh.dir line
/-- A line's frame. -/
def State.dirOf (s : State) (line : Nat) : Frame := Map.getD s.coh.dir line Frame.none_
/-- Set a line's frame. -/
def State.setDir (s : State) (line : Nat) (d : Frame) : State := { s with coh := { s.coh with dir := Map.put s.coh.dir line d } }
/-- Change a line's frame where a slice holds it. -/
def State.modDir (s : State) (line : Nat) (f : Frame → Frame) : State :=
  { s with coh := { s.coh with dir := Map.modify s.coh.dir line f } }
/-- An L1's line. -/
def State.l1 (s : State) (c line : Nat) : Option L1Line := Map.find? s.coh.l1 (lineKey c line)
/-- Set an L1's line. -/
def State.setL1 (s : State) (c line : Nat) (x : L1Line) : State :=
  { s with coh := { s.coh with l1 := Map.put s.coh.l1 (lineKey c line) x } }
/-- An L1 no longer holds a line. -/
def State.dropL1 (s : State) (c line : Nat) : State :=
  { s with coh := { s.coh with l1 := Map.drop s.coh.l1 (lineKey c line) } }
/-- An L1's write-back buffer entry of a line. -/
def State.wb (s : State) (c line : Nat) : Option WbEntry := Map.find? s.coh.wbuf (lineKey c line)
/-- An L1's outstanding miss of a line. -/
def State.miss (s : State) (c line : Nat) : Option Mshr := Map.find? s.coh.mshr (lineKey c line)
/-- Set an outstanding miss. -/
def State.setMiss (s : State) (c line : Nat) (m : Mshr) : State :=
  { s with coh := { s.coh with mshr := Map.put s.coh.mshr (lineKey c line) m } }
/-- A miss has ended. -/
def State.endMiss (s : State) (c line : Nat) : State :=
  { s with coh := { s.coh with mshr := Map.drop s.coh.mshr (lineKey c line) } }
/-- A message leaves. -/
def State.send (s : State) (k : CKind) (c line : Nat) : State :=
  { s with coh := { s.coh with msgs := s.coh.msgs ++ [⟨k, c, line⟩] } }
/-- The first message in flight that passes. -/
def State.msg (s : State) (p : CMsg → Bool) : Option CMsg := s.coh.msgs.find? p
/-- A message arrives. -/
def State.take (s : State) (m : CMsg) : State := { s with coh := { s.coh with msgs := s.coh.msgs.erase m } }

/-- A presence-clear. -/
def CKind.clears : CKind → Bool
  | .presenceClear _ => true
  | _ => false
/-- A forward or snoop from a home: what the network FWD carries (R313). -/
def CKind.fwd : CKind → Bool
  | .fwdGetS _ => true
  | .fwdGetM _ => true
  | .inv => true
  | .snpInvData => true
  | .snpRd => true
  | _ => false
/-- A PutO or PutM, which carries write data (R313). -/
def CKind.putData : CKind → Bool
  | .put .putO => true
  | .put .putM => true
  | _ => false
/-- An acknowledgement or a snoop response of an L1. -/
def CKind.answer : CKind → Bool
  | .invAck => true
  | .snoopRsp _ _ => true
  | _ => false
/-- The next message that a cache meets from a line's home, if it is about the line: forwards and snoops of one slice arrive in
the order they were sent (R314), and the acknowledgement of a Put after those for its line (log entry 129). -/
def State.nextTo (s : State) (c line : Nat) : Option CMsg :=
  (s.msg (fun m => m.cache == c && ((m.kind.fwd && homeSlice m.line == homeSlice line) || (m.kind == .putAck && m.line == line)))).filter
    (fun m => m.line == line)
/-- No forward or snoop is on its way from a line's home slice to a cache. -/
def State.pathClear (s : State) (c line : Nat) : Bool :=
  !s.coh.msgs.any (fun m => m.kind.fwd && m.cache == c && homeSlice m.line == homeSlice line)
/-- The next message of some kinds from a cache or die that a line's home meets, if it is about the line (R314). -/
def State.inOrder (s : State) (kinds : CKind → Bool) (c line : Nat) : Option CMsg :=
  (s.msg (fun m => kinds m.kind && m.cache == c && homeSlice m.line == homeSlice line)).filter (fun m => m.line == line)

/-- Caches that hold a line. -/
def State.holders (s : State) (line : Nat) : List Nat :=
  (s.coh.l1.filter (fun kv => keyLine kv.1 == line)).map (fun kv => keyCache kv.1)
/-- Caches whose GetS of a line the home has served and whose data has not arrived. -/
def State.filling (s : State) (line : Nat) : List Nat :=
  (s.coh.mshr.filter (fun kv => keyLine kv.1 == line && kv.2.served && !kv.2.excl && !kv.2.drop)).map (fun kv => keyCache kv.1)
/-- Some cache of a die holds a line, or the home has served its request for it. -/
def State.dieHolds (s : State) (line d : Nat) : Bool :=
  (s.holders line).any (fun c => cacheDie c == d) ||
    s.coh.mshr.any (fun kv => keyLine kv.1 == line && kv.2.served && !kv.2.drop && cacheDie (keyCache kv.1) == d)
/-- The last copy on a die has left: its snoop filter sends a presence-clear (R221). -/
def State.noteLeft (s : State) (c line : Nat) : State :=
  if s.dieHolds line (cacheDie c) then s else s.send (.presenceClear false) (cacheDie c) line
/-- Dirty sectors of a line over every L1 and every buffer entry that has answered no forward. -/
def State.dirtyOf (s : State) (line : Nat) : BitVec 4 :=
  (s.coh.l1.filter (fun kv => keyLine kv.1 == line)).foldl (fun d kv => d ||| kv.2.dirty) 0 |||
    (s.coh.wbuf.filter (fun kv => keyLine kv.1 == line && !kv.2.spent)).foldl (fun d kv => d ||| kv.2.dirty) 0

/-- The home slice of a line lies on a die that is out of service (R18). -/
def State.lineDown (s : State) (line : Nat) : Bool := !s.dieUp (homeDie line)
/-- The slice holds the Shared sector of a DPA. -/
def State.inSlice (s : State) (dpa : Nat) : Bool :=
  spaceOf dpa == 1 && (s.dirOf (fld dpa 29 0 / 128)).valid.getLsbD (fld dpa 29 0 / 32 % 4)
/-- A line that its home cannot fill: sectors that no slice holds lie on a channel that is down or behind a closed Sluice gate
(R18, R374). -/
def State.lineGone (s : State) (line : Nat) : Bool :=
  (s.dirOf line).valid != 15 && !(s.sharedKey (line * 128)).all (fun k => s.heapUp (.heap k))
/-- Located bytes of a DPA cannot be reached: Shared is out of service (R17), the home of their line is down, or their
channel is down or behind a closed Sluice gate and no slice holds them (R18, R374). -/
def State.unreachable (s : State) (dpa : Nat) (ls : List Loc) : Bool :=
  (spaceOf dpa == 1 && (!s.sharedUp || s.lineDown (fld dpa 29 0 / 128))) ||
    !((ls.zipIdx).all (fun x => s.heapUp x.1 || s.inSlice (dpa + x.2)))

/-! ### Frames of a slice (R215, R219) -/

/-- Ways of a die's slices that Shared lines may take: those below the narrow ways, and below the ways in conversion
(R215, R230). -/
def State.sharedWays (s : State) (d : Nat) : Nat :=
  16 - (match Map.find? s.ncacheChg d with | some x => x.2 | none => s.rf (.panNcacheCtl d) 3 0)
/-- Other Shared lines in a line's set of its home slice. -/
def State.setFrames (s : State) (line : Nat) : List (Nat × Frame) :=
  s.coh.dir.filter (fun kv => kv.1 != line && homeSlice kv.1 == homeSlice line && Config.sliceSet kv.1 % 1024 == Config.sliceSet line % 1024)
/-- Nothing is in flight for a line that its home or an owner has yet to serve: a Put, its acknowledgement or a
presence-clear may be. -/
def State.lineIdle (s : State) (line : Nat) : Bool :=
  !s.coh.msgs.any (fun m => m.line == line && (match m.kind with
    | .put _ => false | .putAck => false | .presenceClear _ => false | _ => true)) &&
    !s.coh.mshr.any (fun kv => keyLine kv.1 == line) && !(s.dirOf line).busy && (s.dirOf line).waits.isEmpty &&
    (s.dirOf line).queue.isEmpty && !s.coh.l1.any (fun kv => keyLine kv.1 == line && !kv.2.held.isEmpty)

/-- The home recalls a line from every L1 with SnpInvData: no copy, no owner, dirty sectors in the slice (R219, R226). -/
def State.recallLine (s : State) (line : Nat) : State :=
  let d := s.dirtyOf line
  let t := s.modDir line (fun f => { f with
    valid := f.valid ||| d
    dirty := f.dirty ||| d
    present := 0
    owner := none })
  { t with coh := { t.coh with
    l1 := Map.keep t.coh.l1 (fun k => keyLine k != line)
    wbuf := Map.mapV t.coh.wbuf (fun k w => if keyLine k == line then { w with spent := true } else w) } }
/-- Heap keys of the sectors of a line. -/
def State.secKeys (s : State) (line : Nat) (secs : BitVec 4) : List Nat :=
  ((List.range 4).filter secs.getLsbD).filterMap (fun i => s.sharedKey (line * 128 + i * 32))
/-- A line leaves its slice: recalled, its dirty sectors written to the backing channel, which discards them when it is Failing
(R49, R219). The other sectors are again as the channel holds them. -/
def State.evictFrame (s : State) (line : Nat) : State :=
  let t := s.recallLine line
  let f := t.dirOf line
  let t := { t with
    coh := { t.coh with dir := Map.drop t.coh.dir line }
    heapPoison := (t.secKeys line (f.under &&& ~~~f.dirty)).foldl (fun m k => flipPoison m (k / 32)) t.heapPoison }
  t.discardNote (t.secKeys line f.dirty)
/-- A line's frame is filled with the sectors it does not hold: those that the channel cannot give are poisoned (R49, R215). A
channel that is down gives none (R18). -/
def State.fillSecs (s : State) (line : Nat) (secs : BitVec 4) : State :=
  let miss := if (s.sharedKey (line * 128)).all (fun k => s.heapUp (.heap k)) then secs &&& ~~~(s.dirOf line).valid else 0
  let bad := (s.secKeys line miss).filter s.lost
  { s.modDir line (fun f => { f with valid := f.valid ||| miss }) with
    heapPoison := bad.foldl (fun m k => NSet.ins m (k / 32)) s.heapPoison }
/-- A line's frame with the given sectors filled: the one it has, a free way, or the way of a line that leaves. Which line
leaves is not specified: a free value chooses (log entry 1). None while every line of the set is in flight. -/
def State.frameFor (s : State) (line : Nat) (secs : BitVec 4) : Option State :=
  if (s.frame? line).isSome then some (s.fillSecs line secs)
  else
    let fs := s.setFrames line
    let n := s.sharedWays (homeDie line)
    match (List.range n).find? (fun w => !fs.any (fun kv => kv.2.way == w)) with
    | some w => some ((s.setDir line { Frame.none_ with way := w }).fillSecs line secs)
    | none =>
      let vs := fs.filter (fun kv => kv.2.way < n && s.lineIdle kv.1)
      let (x, t) := s.fresh
      (vs[x.toNat % vs.length]?).map (fun v =>
        ((t.evictFrame v.1).setDir line { Frame.none_ with way := v.2.way }).fillSecs line secs)

/-! ### Leaving an L1 -/

/-- The Put of a state, none for a silent eviction (R224). -/
def putOf : L1St → Option Put
  | .s => none
  | .e => some .putE
  | .o => some .putO
  | .m => some .putM

/-- Write-back buffer entries of a cache (R217). -/
def State.wbufCount (s : State) (c : Nat) : Nat := (s.coh.wbuf.filter (fun kv => keyCache kv.1 == c)).length

/-- A Put reaches the home (R226): acknowledged always; its dirty sectors are accepted from the recorded owner only, whose
ownership ends. -/
def State.putHome (s : State) (c line : Nat) : State :=
  let d := match s.wb c line with | some w => w.dirty | none => 0
  if (s.dirOf line).owner == some c then
    s.modDir line (fun f => { f with
      owner := none
      valid := f.valid ||| d
      dirty := f.dirty ||| d })
  else s

/-- A write-back buffer entry is freed (R227). -/
def State.freeWb (s : State) (c line : Nat) : State := { s with coh := { s.coh with wbuf := Map.drop s.coh.wbuf (lineKey c line) } }

/-- The oldest message about a buffer entry of a cache whose arrival can free it: a Put, or its acknowledgement, with no forward
or snoop of the line on its way to the cache, which the entry would have to answer (R226). -/
def State.drainable (s : State) (c : Nat) : Option CMsg :=
  s.msg (fun m => m.cache == c && (match m.kind with | .put _ => true | .putAck => true | _ => false) &&
    !s.coh.msgs.any (fun x => x.kind.fwd && x.cache == c && x.line == m.line))

/-- A write-back buffer can take an entry (R217). -/
def State.wbRoom (s : State) (c : Nat) : Bool := s.wbufCount c < 8 || (s.drainable c).isSome

/-- The oldest such Put reaches its home and is acknowledged: room in a full buffer. -/
def State.drainPut (s : State) (c : Nat) : State :=
  match s.drainable c with
  | some m => if m.kind == .putAck then (s.take m).freeWb c m.line else ((s.take m).putHome c m.line).freeWb c m.line
  | none => s

/-- A line leaves an L1: silently from S, else through the write-back buffer with its Put in flight (R224, R226). A line
whose home is down goes nowhere: it is poisoned when the die returns (R372). -/
def State.evictLine (s : State) (c line : Nat) : State :=
  match s.l1 c line with
  | none => s
  | some x =>
    match (if s.lineDown line then none else putOf x.st) with
    | none => (s.dropL1 c line).noteLeft c line
    | some k =>
      let t := ((if s.wbufCount c < 8 then s else s.drainPut c).dropL1 c line)
      (({ t with coh := { t.coh with wbuf := Map.put t.coh.wbuf (lineKey c line) ⟨k, x.dirty, false⟩ } }).send (.put k) c
        line).noteLeft c line

/-- Lines of a cache that share a line's set of 8 ways (R217). -/
def State.setLines (s : State) (c line : Nat) : List Nat :=
  (s.coh.l1.filter (fun kv => keyCache kv.1 == c && kv.1 % 64 == line % 64 && keyLine kv.1 != line)).map (fun kv => keyLine kv.1)

/-- Make room for a line in its set: a line without an outstanding upgrade and without held forwards leaves, through the
write-back buffer where that has room. Which way leaves is not specified: a free value chooses (log entry 1). None while no line
of the set may leave. -/
def State.makeRoom (s : State) (c line : Nat) : Option State :=
  let ls := s.setLines c line
  if ls.length < 8 then some s
  else
    let vs := ls.filter (fun v => (s.miss c v).isNone && (s.l1 c v).any (fun x =>
      x.held.isEmpty && (s.wbRoom c || s.lineDown v || (putOf x.st).isNone)))
    let (f, t) := s.fresh
    (vs[f.toNat % vs.length]?).map (t.evictLine c)

/-! ### Whole transactions -/

/-- A cache may begin a whole transaction on a line: nothing of its own is outstanding (R227), and the home and owner have
served everything before it. -/
def State.mayBegin (s : State) (c line : Nat) : Bool := (s.wb c line).isNone && s.lineIdle line

/-- The presence-clear messages of a die that are on their way when the home serves a request of that die clear nothing when
they arrive. -/
def State.voidClears (s : State) (d line : Nat) : State :=
  { s with coh := { s.coh with msgs := s.coh.msgs.map (fun m =>
    if m.kind == .presenceClear false && m.cache == d && m.line == line then ⟨.presenceClear true, d, line⟩ else m) } }

/-- The home records a copy on a cache's die. -/
def State.present_ (s : State) (c line : Nat) : State :=
  (s.voidClears (cacheDie c) line).modDir line (fun f => { f with present := f.present ||| dieBit (cacheDie c) })

/-- A core read: a hit, or the whole GetS (R224); none while the line is in flight. A line whose owner's copy is in the
owner's write-back buffer is answered from there: its dirty sectors go to the home, which records no owner (R226). -/
def State.cohRead (s : State) (c line : Nat) : Option State :=
  if (s.l1 c line).isSome then some s
  else if !s.mayBegin c line then none
  else
    ((s.makeRoom c line).bind (fun t => t.frameFor line 15)).map (fun (s : State) =>
      let d := s.dirOf line
      match d.owner with
      | some o =>
        let t := match s.l1 o line with
          | some x =>
            if x.st == L1St.e then (s.setL1 o line { x with st := .s }).modDir line (fun f => { f with owner := none })
            else s.setL1 o line { x with st := .o }
          | none =>
            let w := match s.wb o line with | some w => w.dirty | none => 0
            let t := s.modDir line (fun f => { f with
              owner := none
              valid := f.valid ||| w
              dirty := f.dirty ||| w })
            { t with coh := { t.coh with wbuf := Map.modify t.coh.wbuf (lineKey o line) (fun w => { w with spent := true }) } }
        (t.setL1 c line ⟨.s, 0, []⟩).present_ c line
      | none =>
        if d.present == 0 then
          ((s.setL1 c line ⟨.e, 0, []⟩).present_ c line).modDir line (fun f => { f with owner := some c })
        else (s.setL1 c line ⟨.s, 0, []⟩).present_ c line)

/-- A forward is served by an L1 line (R224): the answer to a FwdGetS from E clears the home's owner field. -/
def State.forwardLine (s : State) (c line dest : Nat) (excl : Bool) (x : L1Line) : State :=
  if excl then
    let t := { s with coh := { s.coh with mshr := Map.modify s.coh.mshr (lineKey dest line) (fun m => { m with dirty := m.dirty ||| x.dirty }) } }
    ((t.dropL1 c line).send (.data true false) dest line).noteLeft c line
  else
    let t := match x.st with
      | .e => (s.setL1 c line { x with st := .s }).modDir line (fun f => { f with owner := if f.owner == some c then none else f.owner })
      | .s => s
      | _ => s.setL1 c line { x with st := .o }
    t.send (.data false false) dest line

/-- A cache answers a forward (R224, R226): from its L1, from its write-back buffer, or, where neither holds the line any
more, the home answers from the slice (log entry 93). -/
def State.forward (s : State) (c line dest : Nat) (excl : Bool) : State :=
  match s.l1 c line with
  | some x => s.forwardLine c line dest excl x
  | none =>
    match s.wb c line with
    | some w =>
      if w.spent then s.send (.data excl false) dest line
      else
        let t := { s with coh := { s.coh with wbuf := Map.put s.coh.wbuf (lineKey c line) { w with spent := true } } }
        if excl then
          let t := { t with coh := { t.coh with
            mshr := Map.modify t.coh.mshr (lineKey dest line) (fun m => { m with dirty := m.dirty ||| w.dirty }) } }
          t.send (.data true false) dest line
        else
          (t.modDir line (fun f => { f with
            owner := if f.owner == some c then none else f.owner
            valid := f.valid ||| w.dirty
            dirty := f.dirty ||| w.dirty })).send (.data false false) dest line
    | none => s.send (.data excl false) dest line

/-- Serve forwards that were held (R223). -/
def State.serveHeld (s : State) (c line : Nat) (fs : List Fwd) : State :=
  fs.foldl (fun t f => t.forward c line f.dest f.excl) s

/-- A line held in M or E takes a store of sectors; the forwards that waited for it are served (R217, R223). -/
def State.storeHit (s : State) (c line : Nat) (secs : BitVec 4) (x : L1Line) : State :=
  (s.setL1 c line ⟨.m, x.dirty ||| secs, []⟩).serveHeld c line x.held

/-- A core write of sectors: a hit in M or E, or the line is taken in M first with the whole GetM (R217, R218, R224); none
while the line is in flight. -/
def State.cohWrite (s : State) (c line : Nat) (secs : BitVec 4) : Option State :=
  match s.l1 c line with
  | some ⟨.m, d, h⟩ => some (s.storeHit c line secs ⟨.m, d, h⟩)
  | some ⟨.e, d, h⟩ => some (s.storeHit c line secs ⟨.e, d, h⟩)
  | _ =>
    if !s.mayBegin c line then none
    else
      ((s.makeRoom c line).bind (fun t => t.frameFor line 15)).map (fun (s : State) =>
        let d := s.dirtyOf line
        let t := { s with coh := { s.coh with
          l1 := Map.keep s.coh.l1 (fun k => keyLine k != line)
          wbuf := Map.mapV s.coh.wbuf (fun k w => if keyLine k == line then { w with spent := true } else w) } }
        ((t.setL1 c line ⟨.m, d ||| secs, []⟩).voidClears (cacheDie c) line).modDir line (fun f => { f with
          present := dieBit (cacheDie c)
          owner := some c }))

/-- The home recalls a line from every L1 for a write or atomic of an agent that does not cache, which is applied to the given
sectors in the slice (Table 13-3). -/
def State.cohRecall (s : State) (line : Nat) (secs : BitVec 4) : Option State :=
  if !s.lineIdle line then none
  else (s.frameFor line secs).map (fun t => (t.recallLine line).modDir line (fun f => { f with dirty := f.dirty ||| (secs &&& f.valid) }))

/-- The home serves a read of an agent that does not cache: SnpRd to an owner, who keeps the line; else from the slice, filled
from the channel on a miss (Table 13-3). -/
def State.cohSnoop (s : State) (line : Nat) (secs : BitVec 4) : Option State :=
  if !s.lineIdle line then none else s.frameFor line secs

/-- Apply an operation to each line of a list. -/
def overLines (f : State → Nat → Option State) : List Nat → State → Option State
  | [], s => some s
  | x :: xs, s => (f s x).bind (overLines f xs)

/-- The homes take the Shared lines of bytes at DPAs for a write of an agent that does not cache (R225). -/
def State.homeWrite (s : State) (dpas : List Nat) : Option State :=
  overLines (fun t line => t.cohRecall line (secsAt dpas line)) (sharedOf dpas) s
/-- The homes serve a read of bytes at DPAs to an agent that does not cache (R225). -/
def State.homeRead (s : State) (dpas : List Nat) : Option State :=
  overLines (fun t line => t.cohSnoop line (secsAt dpas line)) (sharedOf dpas) s

/-! ### Single events: the home -/

/-- Forwards of a line on their way to a cache. -/
def State.forwardsTo (s : State) (c line : Nat) : Nat :=
  (s.coh.msgs.filter (fun m => m.cache == c && m.line == line && (match m.kind with
    | .fwdGetS _ => true | .fwdGetM _ => true | _ => false))).length

/-- The snoop filter of a die answers for an L1 without a copy: one other than c's stands for it (R221, R224). -/
def filterOf (d c : Nat) : Nat := if c == d * 56 then d * 56 + 1 else d * 56

/-- Sharers that a GetM of c invalidates, on the dies of the presence vector: every cache with a copy, or with data of a served
GetS on its way, but c and the owner; and, of a further die whose bit stands though its copies have left, the snoop filter, which
acknowledges (R219, R220). A cache to which an Inv is on its way is not asked twice. -/
def State.sharers (s : State) (c line : Nat) : List Nat :=
  let f := s.dirOf line
  let with_ := (s.holders line ++ s.filling line).dedup
  let stale := (List.range 12).filter (fun d => f.present.getLsbD d && d != cacheDie c && f.owner.map cacheDie != some d &&
    !with_.any (fun x => cacheDie x == d))
  (with_ ++ stale.map (fun d => filterOf d c)).filter (fun x => x != c && f.owner != some x &&
    !s.coh.msgs.any (fun m => m.kind == .inv && m.cache == x && m.line == line))

/-- The home serves one request (R222, R223, R224): with an owner recorded it forwards and does not wait; with none, a GetM
waits for the acknowledgements and later requests queue behind it. -/
def State.serve (s : State) (line c : Nat) (excl : Bool) : State :=
  let d := s.dirOf line
  let s := ({ s with coh := { s.coh with mshr := Map.modify s.coh.mshr (lineKey c line) (fun m => { m with
    served := true
    old := s.forwardsTo c line }) } }).present_ c line
  if excl then
    let sh := s.sharers c line
    let s := match d.owner with
      | some o => if o == c then s.send (.data true true) c line else s.send (.fwdGetM c) o line
      | none => s.send (.data true true) c line
    let s := sh.foldl (fun t x => t.send .inv x line) s
    if sh.isEmpty then (s.send .grant c line).modDir line (fun f => { f with owner := some c })
    else s.modDir line (fun f => { f with
      owner := some c
      waits := f.waits ++ [(.grant c d.owner.isNone, sh)] })
  else
    match d.owner with
    | some o => s.send (.fwdGetS c) o line
    | none =>
      if d.present == 0 then (s.send (.data false true) c line).modDir line (fun f => { f with owner := some c })
      else s.send (.data false false) c line

/-- Serve queued requests in arrival order until one has to wait. -/
def State.serveQueue (s : State) (line : Nat) : Nat → State
  | 0 => s
  | n + 1 =>
    let d := s.dirOf line
    match d.busy, d.queue with
    | false, (c, x) :: rest => State.serveQueue ((s.modDir line (fun f => { f with queue := rest })).serve line c x) line n
    | _, _ => s

/-- Requests that wait in a slice (R222). -/
def State.sliceQueued (s : State) (slice : Nat) : Nat :=
  ((s.coh.dir.filter (fun kv => homeSlice kv.1 == slice)).map (fun kv => kv.2.queue.length)).sum

/-! ### Caches that are written back or lost -/

/-- What is in flight for a line is abandoned: its copies are recalled, its messages dropped, and the home serves the requests
that caches still wait for again, from the slice (R371, log entry 94). -/
def State.collapse (s : State) (gone : Nat → Bool) (line : Nat) : State :=
  let queued := ((s.dirOf line).queue).filter (fun q => !gone q.1)
  let served := ((s.coh.mshr.filter (fun kv => keyLine kv.1 == line && kv.2.served && !gone (keyCache kv.1))).map
    (fun kv => (keyCache kv.1, kv.2.excl)))
  let t := (s.recallLine line).modDir line (fun f => { f with
    waits := []
    queue := served ++ queued })
  let t := { t with coh := { t.coh with
    wbuf := Map.keep t.coh.wbuf (fun k => keyLine k != line)
    mshr := Map.mapV (Map.keep t.coh.mshr (fun k => keyLine k != line || !gone (keyCache k))) (fun k m =>
      if keyLine k == line then ⟨m.excl, false, false, 0, 0, []⟩ else m)
    msgs := t.coh.msgs.filter (fun m => m.line != line || m.kind.clears) } }
  t.serveQueue line (served.length + queued.length)

/-- Lines with something in flight that involves a cache of a set. -/
def State.linesInFlight (s : State) (gone : Nat → Bool) : List Nat :=
  ((s.coh.msgs.filter (fun m => !m.kind.clears && (gone m.cache || (match m.kind with
      | .fwdGetS x => gone x | .fwdGetM x => gone x | _ => false)))).map (fun m => m.line) ++
    (s.coh.mshr.filter (fun kv => gone (keyCache kv.1))).map (fun kv => keyLine kv.1) ++
    (s.coh.wbuf.filter (fun kv => gone (keyCache kv.1))).map (fun kv => keyLine kv.1) ++
    (s.coh.l1.filter (fun kv => kv.2.held.any (fun f => gone f.dest))).map (fun kv => keyLine kv.1) ++
    (s.coh.dir.filter (fun kv => kv.2.queue.any (fun q => gone q.1))).map (fun kv => kv.1)).dedup

/-- Poison every sector of a Shared line. -/
def State.poisonLine (s : State) (line : Nat) : State :=
  let ks := (List.range 4).filterMap (fun i => (s.sharedKey (line * 128 + i * 32)).map (· / 32))
  { s with heapPoison := ks.foldl NSet.ins s.heapPoison }

/-- Lines whose newest bytes only caches of a set hold: those they own, and those they hold dirty or are to answer a forward for
(R371). -/
def State.linesLost (s : State) (gone : Nat → Bool) : List Nat :=
  ((s.coh.dir.filter (fun kv => kv.2.owner.any gone)).map (fun kv => kv.1) ++
    (s.coh.l1.filter (fun kv => gone (keyCache kv.1) && kv.2.dirty != 0)).map (fun kv => keyLine kv.1) ++
    (s.coh.wbuf.filter (fun kv => gone (keyCache kv.1) && !kv.2.spent && kv.2.dirty != 0)).map (fun kv => keyLine kv.1)).dedup

/-- Caches are written back and invalidated, and the directory names them no more. Where a cache does not answer, nothing is
written back, and each line that it owned or held dirty is poisoned (R31, R371, Table 20-4). -/
def State.dropCaches (s : State) (gone : Nat → Bool) (lost : Bool) : State :=
  let losing := s.linesLost gone
  let t := (s.linesInFlight gone).foldl (fun (t : State) line => t.collapse gone line) s
  let mine := (t.coh.l1.filter (fun kv => gone (keyCache kv.1))).map (fun kv => (keyCache kv.1, keyLine kv.1, kv.2.dirty))
  let t := { t with coh := { t.coh with l1 := Map.keep t.coh.l1 (fun k => !gone (keyCache k)) } }
  let t := mine.foldl (fun (t : State) x => t.modDir x.2.1 (fun f => { f with
    valid := f.valid ||| x.2.2
    dirty := f.dirty ||| x.2.2
    owner := if f.owner == some x.1 then none else f.owner
    present := if t.dieHolds x.2.1 (cacheDie x.1) then f.present else f.present &&& ~~~(dieBit (cacheDie x.1)) })) t
  if lost then losing.foldl State.poisonLine t else t

/-- Write back and invalidate the L1s of a basin (R31, Table 20-4). -/
def State.flushBasin (s : State) (b : Nat) : State := s.dropCaches (fun c => c / 7 == b) false

/-- A request reaches the home: served, or queued behind those that wait (R222). Held at the slice's input while its 64
places are taken or no frame can be had; while Shared is out of service, the home is down, or the line cannot be filled, none is
served, and the access that asks fails (R17, R18). -/
def State.request (s : State) (line c : Nat) (excl : Bool) : Res :=
  if !s.sharedUp || s.lineDown line || s.lineGone line || s.sliceQueued (homeSlice line) ≥ 64 then s.idle "the home takes no request"
  else match s.frameFor line 15 with
    | none => s.idle "no frame can be had"
    | some t =>
      let t := t.setMiss c line ⟨excl, false, false, 0, 0, []⟩
      let d := t.dirOf line
      if d.busy || !d.queue.isEmpty then .next (t.modDir line (fun f => { f with queue := f.queue ++ [(c, excl)] }))
      else .next (t.serve line c excl)

/-- An L1 may send a request: nothing of its own is outstanding for the line (R227). -/
def State.mayRequest (s : State) (c line : Nat) : Bool := (s.miss c line).isNone && (s.wb c line).isNone

/-- GETS: a read miss reaches the home (R224). -/
def execGets (c : Fin 672) (line : Nat) (s : State) : Res :=
  s.clocked <|
  if (s.l1 c.val line).isNone && s.mayRequest c.val line then s.request line c.val false
  else s.idle "the cache sends no GetS for this line"

/-- GETM: a write miss or upgrade reaches the home, which records the requester as owner when it forwards (R223). -/
def execGetm (c : Fin 672) (line : Nat) (s : State) : Res :=
  s.clocked <|
  let ok := match s.l1 c.val line with
    | none => true
    | some x => x.st == .s || x.st == .o
  if ok && s.mayRequest c.val line then s.request line c.val true
  else s.idle "the cache sends no GetM for this line"

/-- A Put reaches the home (R226). A line that is still in the L1 leaves it first; one that has an upgrade outstanding or
forwards to serve stays. -/
def State.putArrives (s : State) (k : Put) (c line : Nat) : Res :=
  let t := match s.l1 c line with
    | some x => if putOf x.st == some k && s.mayRequest c line && x.held.isEmpty && s.wbRoom c then s.evictLine c line else s
    | none => s
  match t.inOrder (fun x => x == .put k || (k != .putE && x.putData)) c line with
  | none => s.idle "the cache has no such Put next in flight"
  | some m =>
    if m.kind == .put k then .next (((t.take m).putHome c line).send .putAck c line) else s.idle "an earlier message comes first"

/-- PUTE (R226). -/
def execPute (c : Fin 672) (line : Nat) (s : State) : Res := s.clocked (s.putArrives .putE c.val line)
/-- PUTO (R226). -/
def execPuto (c : Fin 672) (line : Nat) (s : State) : Res := s.clocked (s.putArrives .putO c.val line)
/-- PUTM (R226). -/
def execPutm (c : Fin 672) (line : Nat) (s : State) : Res := s.clocked (s.putArrives .putM c.val line)

/-- The next message that the home sent to a cache for a line arrives, if it is of the wanted kind. -/
def State.arrive (s : State) (c line : Nat) (want : CKind → Bool) (k : State → CMsg → Res) : Res :=
  match s.nextTo c line with
  | none => s.idle "no message is in flight to the cache"
  | some m => if want m.kind then k (s.take m) m else s.idle "an earlier message comes first"

/-- PUT_ACK: the acknowledgement frees the write-back buffer entry (R227). -/
def execPutAck (c : Fin 672) (line : Nat) (s : State) : Res :=
  s.clocked <|
  s.arrive c.val line (fun k => k == .putAck) (fun t _ => .next (t.freeWb c.val line))

/-! ### Single events: the L1 -/

/-- A forward at a cache that awaits its own data, or the store it took the line for, is held (R223); one that the home sent
before it served the cache's own miss is not. -/
def State.forwardAt (s : State) (c line dest : Nat) (excl : Bool) : State :=
  match s.miss c line with
  | some m =>
    if m.served && m.old == 0 then s.setMiss c line { m with held := m.held ++ [⟨dest, excl⟩] }
    else (s.setMiss c line { m with old := m.old - 1 }).forward c line dest excl
  | none =>
    match s.l1 c line with
    | some x => if x.held.isEmpty then s.forward c line dest excl
      else s.setL1 c line { x with held := x.held ++ [⟨dest, excl⟩] }
    | none => s.forward c line dest excl

/-- FWDGETS reaches an owner (R224). -/
def execFwdgets (c : Fin 672) (line : Nat) (s : State) : Res :=
  s.clocked <|
  match s.nextTo c.val line with
  | some ⟨.fwdGetS dest, a, b⟩ => .next ((s.take ⟨.fwdGetS dest, a, b⟩).forwardAt c.val line dest false)
  | _ => s.idle "no FwdGetS is next in flight"

/-- FWDGETM reaches an owner (R224). -/
def execFwdgetm (c : Fin 672) (line : Nat) (s : State) : Res :=
  s.clocked <|
  match s.nextTo c.val line with
  | some ⟨.fwdGetM dest, a, b⟩ => .next ((s.take ⟨.fwdGetM dest, a, b⟩).forwardAt c.val line dest true)
  | _ => s.idle "no FwdGetM is next in flight"

/-- INV: a sharer acknowledges and drops its copy (R224); data of its own served GetS that has yet to arrive is used once and
not kept (log entry 93). -/
def execInv (c : Fin 672) (line : Nat) (s : State) : Res :=
  s.clocked <|
  s.arrive c.val line (fun k => k == .inv) (fun t _ =>
    let t := t.send .invAck c.val line
    let t := { t with coh := { t.coh with mshr := Map.modify t.coh.mshr (lineKey c.val line) (fun m =>
      if m.served && !m.excl then { m with drop := true } else m) } }
    .next (if (s.l1 c.val line).isSome then (t.dropL1 c.val line).noteLeft c.val line else t))

/-- A response of a cache ends its part of the first wait that names it; the waits after it stay. -/
def answerWait (c : Nat) : List (Waiter × List Nat) → List (Waiter × List Nat)
  | [] => []
  | (w, cs) :: rest => if cs.contains c then (w, cs.erase c) :: rest else (w, cs) :: answerWait c rest

/-- Waits with no response due end: a requester is told that every sharer has acknowledged (R223), and the home serves what
queued behind a wait of its own (R222). -/
def State.endWaits (s : State) (line : Nat) : State :=
  let ended := (s.dirOf line).waits.filter (fun w => w.2.isEmpty)
  let t := ended.foldl (fun t w => match w.1 with | .grant q _ => t.send .grant q line | _ => t) s
  let t := t.modDir line (fun f => { f with waits := f.waits.filter (fun w => !w.2.isEmpty) })
  t.serveQueue line 64

/-- INV_ACK: the home counts it; after the last it tells the requester and serves the next request (R223). -/
def execInvAck (c : Fin 672) (line : Nat) (s : State) : Res :=
  s.clocked <|
  match (s.inOrder CKind.answer c.val line).filter (fun m => m.kind == .invAck) with
  | none => s.idle "no acknowledgement is next in flight"
  | some m => .next (((s.take m).modDir line (fun f => { f with waits := answerWait c.val f.waits })).endWaits line)

/-- GETM_GRANT: data and the home's message have both arrived; the line is installed in M, and forwards that it held wait for
the store (R223). -/
def execGetmGrant (c : Fin 672) (line : Nat) (s : State) : Res :=
  s.clocked <|
  match s.msg (fun m => m.cache == c.val && m.line == line && (match m.kind with | .data true _ => true | _ => false)),
      s.msg (fun m => m.cache == c.val && m.line == line && m.kind == .grant), s.miss c.val line with
  | some d, some g, some x =>
    match ((s.take d).take g).makeRoom c.val line with
    | none => .next s
    | some t =>
      let old := match s.l1 c.val line with | some y => y.dirty | none => 0
      .next ((t.endMiss c.val line).setL1 c.val line ⟨.m, x.dirty ||| old, x.held⟩)
  | _, _, _ => s.idle "the grant is not complete"

/-- GETS_DATA: the line is installed in S or E (R224) and the forwards it held are served; data that an Inv overtook is not
kept. -/
def execGetsData (c : Fin 672) (line : Nat) (s : State) : Res :=
  s.clocked <|
  match s.msg (fun m => m.cache == c.val && m.line == line && (match m.kind with | .data false _ => true | _ => false)),
      s.miss c.val line with
  | some d, some x =>
    if x.drop then .next ((((s.take d).endMiss c.val line).noteLeft c.val line).serveHeld c.val line x.held)
    else match (s.take d).makeRoom c.val line with
      | none => .next s
      | some t =>
        .next (((t.endMiss c.val line).setL1 c.val line ⟨if d.kind == .data false true then .e else .s, 0, []⟩).serveHeld c.val line
          x.held)
  | _, _ => s.idle "no data for a GetS is in flight"

/-- The home begins a recall of a line from caches that hold it, or forwards a snoop to its owner, whose reply nothing waits
for (R219, R222, R225). -/
def State.beginRecall (s : State) (line : Nat) (k : CKind) (cs : List Nat) : State :=
  (cs.foldl (fun t c => t.send k c line) s).modDir line (fun f => { f with
    waits := f.waits ++ [(if k == .snpRd then .snoop else .recall, cs)] })

/-- A snoop of the given kind is in flight to a cache; from rest the home starts one. -/
def State.snoopReady (s : State) (k : CKind) (c line : Nat) (cs : List Nat) : State :=
  if s.pathClear c line && s.lineIdle line && cs.contains c then s.beginRecall line k cs else s

/-- Caches that a recall of a line reaches: those with a copy, and the owner whose copy is in its write-back buffer (R226). -/
def State.recallees (s : State) (line : Nat) : List Nat :=
  (s.holders line ++ ((s.dirOf line).owner.filter (fun o => (s.wb o line).any (fun w => !w.spent))).toList).dedup

/-- The dirty sectors that a cache answers a snoop with: its L1's, or those of a buffer entry that has answered no forward
(R226). -/
def State.snoopDirty (s : State) (c line : Nat) : BitVec 4 :=
  match s.l1 c line with
  | some x => x.dirty
  | none => match s.wb c line with | some w => if w.spent then 0 else w.dirty | none => 0

/-- SNPINVDATA: dirty sectors go to the home and the copy is dropped (R224, R226). -/
def execSnpinvdata (c : Fin 672) (line : Nat) (s : State) : Res :=
  s.clocked <|
  let u := s.snoopReady CKind.snpInvData c.val line (s.recallees line)
  if (match u.nextTo c.val line with | some m => m.kind == CKind.snpInvData | none => false) then
    u.arrive c.val line (fun k => k == CKind.snpInvData) (fun t _ =>
      let r := (t.send (.snoopRsp (t.snoopDirty c.val line) false) c.val line)
      .next (if (t.l1 c.val line).isSome then (r.dropL1 c.val line).noteLeft c.val line else r))
  else s.idle "no SnpInvData is in flight"

/-- SNPRD: the owner returns data to the home and keeps its line (R224). -/
def execSnprd (c : Fin 672) (line : Nat) (s : State) : Res :=
  s.clocked <|
  let u := s.snoopReady CKind.snpRd c.val line ((s.dirOf line).owner.toList)
  if (match u.nextTo c.val line with | some m => m.kind == CKind.snpRd | none => false) then
    u.arrive c.val line (fun k => k == CKind.snpRd) (fun t _ =>
      .next (t.send (.snoopRsp (t.snoopDirty c.val line) true) c.val line))
  else s.idle "no SnpRd is in flight"

/-- SNOOP_RESPONSE: the home takes the dirty sectors, ends the recall after the last response, and serves the next request
(R225). An invalidating recall leaves no owner. -/
def execSnoopResponse (c : Fin 672) (line : Nat) (s : State) : Res :=
  s.clocked <|
  match (s.inOrder CKind.answer c.val line).filter (fun m => m.kind != .invAck) with
  | none => s.idle "no snoop response is next in flight"
  | some m =>
    let (dirty, kept) := match m.kind with | .snoopRsp d k => (d, k) | _ => (0, true)
    .next (((s.take m).modDir line (fun f => { f with
      valid := f.valid ||| dirty
      dirty := if kept then f.dirty else f.dirty ||| dirty
      owner := if !kept && f.owner == some c.val then none else f.owner
      waits := answerWait c.val f.waits })).endWaits line)

/-- PRESENCE_CLEAR: the home clears a die's presence bit, unless it has served that die since (R221). -/
def execPresenceClear (d : Fin 12) (line : Nat) (s : State) : Res :=
  s.clocked <|
  match s.inOrder CKind.clears d.val line with
  | none => s.idle "no presence-clear is next in flight"
  | some m =>
    let t := s.take m
    if m.kind == .presenceClear true then .next t
    else .next (t.modDir line (fun f => { f with present := f.present &&& ~~~(dieBit d.val) }))

/-! ### Narrow ways (R228 to R230) -/

/-- Where a narrow region is cached (R228): die, slice, set. -/
def State.narrowSet (s : State) (region : Nat) : Nat × Nat × Nat :=
  let ch := s.physChan (region * 128)
  let x := region % 2 ^ 17
  (ch / 32, (x % 16) ^^^ (ch % 32 % 16), x % 1024)

/-- Keep the newest 4,096 misses of each slice (R229). -/
def State.trimMisses (s : State) (sl : Nat × Nat) (l : List Nat) : List Nat :=
  let same := fun (r : Nat) => (((s.narrowSet r).1, (s.narrowSet r).2.1) : Nat × Nat) == sl
  let keep := (l.filter same).take 4096
  if (l.filter same).length ≤ 4096 then l else l.filter (fun r => !same r || keep.contains r)

/-- Narrow ways of a die that may take sectors: while CHANGING is 1, those in narrow use before and after (R230). -/
def State.narrowWays (s : State) (d : Nat) : Nat :=
  match Map.find? s.ncacheChg d with | some x => x.1 | none => s.rf (.panNcacheCtl d) 3 0

/-- A narrow way takes a sector of a region, as the most recently used. -/
def State.narrowFill (s : State) (f : NFrame) : State :=
  { s with narrow := f :: s.narrow.filter (fun g => g.region != f.region) }

/-- Whether the narrow copy of a sector is poisoned; none where no slice holds one. -/
def State.narrowBad (s : State) (sec : Nat) : Option Bool :=
  (s.narrow.find? (fun f => f.region == sec / 4 && f.secs.getLsbD (sec % 4))).map (fun f => f.bad.getLsbD (sec % 4))

/-- A narrow read of a located byte meets poison: its cached copy's, or what a read of the channel meets (R228, R351). -/
def State.narrowPois (s : State) (l : Loc) : Bool :=
  match l with
  | .heap k => (s.narrowBad (k / 32)).getD (s.readLoc 0 l).2
  | _ => (s.readLoc 0 l).2

/-- One narrow request of a sector (R228, R229): a hit counts; a miss is noted and may be cached in a free way or the least
recently used one of its set. -/
def State.narrowTouch (s : State) (sec : Nat) : State :=
  let region := sec / 4
  let (d, sl, set) := s.narrowSet region
  let one : BitVec 4 := 1#4 <<< (sec % 4)
  let mine := s.narrow.find? (fun f => f.region == region)
  match mine.filter (fun f => f.secs &&& one != 0) with
  | some f =>
    (s.narrowFill f).setReg (.panNcacheHits d) ((s.reg (.panNcacheHits d) + 1) % 2 ^ 64)
  | none =>
    let seen := (s.nmiss.filter (fun r => (s.narrowSet r).1 == d && (s.narrowSet r).2.1 == sl)).contains region
    let s := { s with nmiss := s.trimMisses (d, sl) (region :: s.nmiss) }
    let bad := if (s.readLoc 0 (.heap (sec * 32))).2 then one else 0
    if s.narrowWays d == 0 || (s.rf (.panNcacheCtl d) 4 4 == 1 && !seen) then s
    else match mine with
      | some f => s.narrowFill { f with secs := f.secs ||| one, bad := f.bad ||| bad }
      | none =>
        let fs := s.narrow.filter (fun f => s.narrowSet f.region == (d, sl, set))
        let ways := (List.range (s.narrowWays d)).map (15 - ·)
        match ways.find? (fun w => !fs.any (fun f => f.way == w)) with
        | some w => s.narrowFill ⟨region, w, one, bad⟩
        | none =>
          match (fs.filter (fun f => ways.contains f.way)).getLast? with
          | some v => ({ s with narrow := s.narrow.erase v }).narrowFill ⟨region, v.way, one, bad⟩
          | none => s

/-- NCACHE_CONFIG: NARROW_WAYS above 8 is ignored; a new number of ways starts the conversion, and the sectors of a way that
leaves narrow use are dropped (R230, Table 13-4). -/
def execNcacheConfig (d : Fin 12) (val : BitVec 32) (s : State) : Res :=
  let r := Reg.panNcacheCtl d.val
  let w := fld val.toNat 3 0
  let old := s.rf r 3 0
  if !s.dieUp d.val then .next (s.dropped 399 0x7F)
  else
    let t := s.setRf r 4 4 (fld val.toNat 4 4)
    if w > 8 || w == old then .next t
    else
      let t := (t.setRf r 3 0 w).setRf r 8 8 1
      let (lo, hi) := Map.getD s.ncacheChg d.val (old, old)
      .next { t with
        ncacheChg := Map.put t.ncacheChg d.val (min lo w, max hi w)
        narrow := t.narrow.filter (fun f => (t.narrowSet f.region).1 != d.val || 16 - w ≤ f.way) }

/-- Shared lines of a die in ways that enter narrow use. -/
def State.entering (s : State) (d : Nat) : List Nat :=
  (s.coh.dir.filter (fun kv => homeDie kv.1 == d && 16 - s.rf (.panNcacheCtl d) 3 0 ≤ kv.2.way)).map (fun kv => kv.1)

/-- NCACHE_CONVERSION_COMPLETE: the Shared lines of every way that enters narrow use have been recalled and written back, and
CHANGING returns to 0 (R230). -/
def execNcacheConversionComplete (d : Fin 12) (s : State) : Res :=
  s.clocked <|
  if (Map.find? s.ncacheChg d.val).isNone then s.idle "no conversion is in progress"
  else if !(s.entering d.val).all s.lineIdle then s.idle "a line that must be recalled is in flight"
  else
    let t := (s.entering d.val).foldl State.evictFrame s
    .next ({ t with ncacheChg := Map.drop t.ncacheChg d.val }.setRf (.panNcacheCtl d.val) 8 8 0)

end Sys2Proof.Machine
end

