-- ==== Sys2Proof/Machine/Tiles.lean ====
section
/-! DEFINITION. Tile descriptors (Table 07-1, R109, R110) and the pool areas they name, and ranges of pool bytes as the
range scoreboard compares them (R198). -/

namespace Sys2Proof.Machine

/-- A descriptor as a number: word 0 low, word 1 high. -/
def tdValid (t : BitVec 128) : Bool := bit t.toNat 63
def tdType (t : BitVec 128) : Nat := fld t.toNat 61 57
def tdRows (t : BitVec 128) : Nat := fld t.toNat 56 45 + 1
def tdStride (t : BitVec 128) : Nat := fld t.toNat 44 25
def tdBase (t : BitVec 128) : Nat := fld t.toNat 24 0
def tdK (t : BitVec 128) : Nat := fld t.toNat 77 64 + 1
def tdScale (t : BitVec 128) : Nat := fld t.toNat 102 78
def tdMeta (t : BitVec 128) : Nat := fld t.toNat 127 103

/-- Stored elements per row: K, or K/2 and K/4 of a sparse weight row (SP 1, 2). -/
def storedK (k sp : Nat) : Nat := if sp == 1 then k / 2 else if sp == 2 then k / 4 else k

/-- Bytes of a row (R109). -/
def rowBytes (t : BitVec 128) (sp : Nat) : Nat :=
  if tdType t == 0x10 then tdK t / 32 * (if sp == 1 then 40 else if sp == 2 then 36 else 48)
  else ceilDiv (storedK (tdK t) sp * typeBits (tdType t)) 8

/-- Metadata bytes of a row: K/8 for 2:4, K/16 for 1:4 (R109). -/
def metaBytes (t : BitVec 128) (sp : Nat) : Nat := if sp == 1 then tdK t / 8 else if sp == 2 then tdK t / 16 else 0

/-- The pool areas a use of a descriptor touches, as offset and length: rows, scale area, metadata. -/
def tileAreas (t : BitVec 128) (sp : Nat) : List (Nat × Nat) :=
  (List.range (tdRows t)).map (fun r => (tdBase t + r * tdStride t, rowBytes t sp)) ++
    (if isMx (tdType t) then [(tdScale t, tdRows t * (tdK t / 32))] else []) ++
    (if sp != 0 then [(tdMeta t, tdRows t * metaBytes t sp)] else [])

/-- The fault, if any, that a use of a valid descriptor raises (R110): its type accepted, sparse form, whether it is
written with rows that must not overlap, and the pool size. -/
def tileFault (t : BitVec 128) (accepted : Bool) (sp : Nat) (written : Bool) (pool : Nat) : Option Nat :=
  if !tdValid t then some 5
  else
    let need32 := isMx (tdType t) || tdType t == 0x10 || sp != 0
    if bit t.toNat 62 || !accepted || (need32 && tdK t % 32 != 0) || (written && tdStride t < rowBytes t sp) then some 4
    else if tdBase t % 16 != 0 || tdStride t % 16 != 0 || (isMx (tdType t) && tdScale t % 16 != 0) ||
        (sp != 0 && tdMeta t % 16 != 0) then some 0x0A
    else if (tileAreas t sp).any (fun a => a.2 != 0 && a.1 + a.2 > pool) then some 0x0C
    else none

/-- Two byte ranges, each offset and length, overlap after widening to aligned 64 B granules (R198). -/
def rangesMeet (a b : Nat × Nat) : Bool :=
  a.2 != 0 && b.2 != 0 && a.1 / 64 ≤ (b.1 + b.2 - 1) / 64 && b.1 / 64 ≤ (a.1 + a.2 - 1) / 64

/-- Registered accesses: a range and whether it writes. -/
abbrev Access1 := (Nat × Nat) × Bool

/-- Two lists of registered accesses conflict (R198). -/
def conflicts (xs ys : List Access1) : Bool :=
  xs.any (fun x => ys.any (fun y => (x.2 || y.2) && rangesMeet x.1 y.1))

end Sys2Proof.Machine
end

