-- ==== Sys2Proof/Machine/Xlate.lean ====
section
/-! DEFINITION. Address translation as shared operations (chapter 14): the two-stage walk (R232 to R238), the held
translations (R240), the fault ring (R248) and the translation record (R246). -/

namespace Sys2Proof.Machine

/-! ### The fault ring (R248) -/

/-- The host-memory domain of a function's accesses through a site, with or without a PASID (R304, R306). -/
def hostDom (site fn : Nat) (pasid : Option Nat) : Nat :=
  site * 2 ^ 32 + fn * (2 ^ 20 + 1) + (match pasid with | some p => p + 1 | none => 0)

/-- The number of records a ring of an instance holds, 0 while it is disabled. -/
def State.fringEntries (s : State) (p : Nat) : Nat :=
  if s.rf (.xltFringBase p) 0 0 == 1 && s.rf (.xltFringBase p) 4 1 ≤ 10 then 64 * 2 ^ s.rf (.xltFringBase p) 4 1 else 0

/-- The records in the ring that software has not consumed. -/
def State.fringUsed (s : State) (p : Nat) : Nat :=
  (s.reg (.xltFringTail p) + 2 ^ 32 - s.reg (.xltFringHead p)) % 2 ^ 32

/-- Count a dropped record. -/
def State.fringLose (s : State) (p : Nat) : State := s.setReg (.xltFringLost p) (satInc 32 (s.reg (.xltFringLost p)))

/-- Write a record at TAIL and raise the fault-ring interrupt (R248, Table 18-3). -/
def State.fringWrite (s : State) (p : Nat) (ws : List Word) : State :=
  let tail := s.reg (.xltFringTail p)
  let a := s.rf (.xltFringBase p) 47 12 * 2 ^ 12 + tail % s.fringEntries p * 64
  ((s.hostWrite (hostDom (s.siteOf p) (fnOf p) none * 2 ^ 48 + a) (wordsBytes ws)).setReg (.xltFringTail p) ((tail + 1) % 2 ^ 32)).fire
    (fnOf p) (if p < 96 then 0 else 2)

/-- Bit 40 of word 0: the restartable flag (R245). -/
def recRestart (ws : List Word) : Bool := bit (ws.headD 0).toNat 40

/-- Post a record to an instance's ring, hold it back, or drop and count it; whether it was not dropped. -/
def State.post (s : State) (p : Nat) (ws : List Word) : State × Bool :=
  if s.fringEntries p == 0 then (s.fringLose p, false)
  else if s.fringUsed p == s.fringEntries p then
    let h := Map.getD s.heldRecs p []
    if recRestart ws && h.length < 256 then ({ s with heldRecs := Map.put s.heldRecs p (h ++ [ws]) }, true)
    else (s.fringLose p, false)
  else (s.fringWrite p ws, true)

/-- Post held records in creation order while the ring has room. -/
def State.drainHeld (s : State) (p : Nat) : Nat → State
  | 0 => s
  | n + 1 =>
    match Map.getD s.heldRecs p [] with
    | [] => s
    | r :: rest =>
      if s.fringEntries p == 0 || s.fringUsed p == s.fringEntries p then s
      else State.drainHeld ({ s with heldRecs := Map.putD s.heldRecs p [] rest }.fringWrite p r) p n

/-! ### The walk -/

/-- A fault a walk ends in (Table 14-11), with what its record carries. Two further codes are the model's own: 9, no walk
faulted but a context record is poisoned (R352); 10, a row in repair is met and the access stalls (R358). -/
structure XFault where
  code  : Nat
  stage : Nat
  level : Nat
  ipa   : Nat
  entry : Nat
  eaddr : Nat
  deriving DecidableEq, Repr

def needR : Need := ⟨true, false, false⟩
def needW : Need := ⟨false, true, false⟩
def needRWA : Need := ⟨true, true, true⟩
def needWA : Need := ⟨false, true, true⟩

/-- A leaf found: the entry, its level, the bytes it maps as held, and a run-hint mismatch (R236). -/
structure Leaf where
  e     : Nat
  level : Nat
  size  : Nat
  mismatch : Bool
  eaddr : Nat
  deriving DecidableEq, Repr

/-- The index of an input at a level (Table 14-2). -/
def walkIndex (input level : Nat) : Nat :=
  if level == 2 then fld input 47 42 else if level == 1 then fld input 41 29 else fld input 28 16

/-- A valid entry breaks R235. -/
def entryBad (stage level e : Nat) : Bool :=
  let leaf := bit e 62
  fld e 55 52 != 0 || (stage == 1 && fld e 51 48 != 0) || (stage == 2 && fld e 57 56 != 0) || fld e 57 56 == 3 ||
    (if leaf then level == 2 || (level == 1 && (bit e 61 || fld e 28 16 != 0))
     else level == 0 || fld e 61 56 != 0)

/-- Read a table entry at a DPA: the space must be Shared or Deep (R232), the DPA valid, the bytes not poisoned. An entry whose
home or channel is down cannot be read, and ends the walk as a poisoned one does, with ENTRY 0 (R18, log entry 98). -/
def State.readEntry (s : State) (stage level ipa ea : Nat) : Except XFault Nat :=
  if !(spaceOf ea == 0 || spaceOf ea == 1) then .error ⟨7, stage, level, ipa, 0, ea⟩
  else match s.locateN ea 8 with
    | none => .error ⟨4, stage, level, ipa, 0, ea⟩
    | some ls =>
      if ls.any s.inRepair then .error ⟨10, stage, level, ipa, 0, ea⟩
      else
        let (bs, bad) := s.readLocs 0 ls
        if bad || s.unreachable ea ls then .error ⟨8, stage, level, ipa, 0, ea⟩ else .ok (ofLe bs)

/-- The entries of a run, read as one: a poisoned one ends the walk (R236, R352). -/
def State.readRun (s : State) (stage ipa base : Nat) : Nat → Except XFault (List Nat)
  | 0 => .ok []
  | n + 1 => do
    let xs ← State.readRun s stage ipa base n
    let x ← s.readEntry stage 0 ipa (base + n * 8)
    .ok (xs ++ [x])

/-- The bytes a level-0 leaf with the run hint maps: 2 MiB when the aligned 32 entries agree (R236). -/
def State.runSize (s : State) (stage ipa ea e : Nat) : Except XFault (Nat × Bool) :=
  if !bit e 61 then .ok (2 ^ 16, false)
  else do
    let xs ← s.readRun stage ipa (ea / 256 * 256) 32
    let first := fld e 51 16 - ea / 8 % 32
    let ok := fld e 51 16 % 32 == ea / 8 % 32 && (List.range 32).all (fun i =>
      fld (xs.getD i 0) 63 52 == fld e 63 52 && fld (xs.getD i 0) 51 16 == first + i)
    .ok (if ok then (2 ^ 21, false) else (2 ^ 16, true))

/-- The entry at one level decides: a fault, a leaf, or the next table. -/
def State.walkEntry (s : State) (stage level ipa ea e : Nat) : Except XFault (Leaf ⊕ Nat) :=
  if !bit e 63 then .error ⟨1, stage, level, ipa, e, ea⟩
  else if entryBad stage level e then .error ⟨2, stage, level, ipa, e, ea⟩
  else if bit e 62 then
    if level == 1 then .ok (.inl ⟨e, 1, 2 ^ 29, false, ea⟩)
    else (s.runSize stage ipa ea e).map (fun x => .inl ⟨e, 0, x.1, x.2, ea⟩)
  else .ok (.inr (fld e 51 16 * 2 ^ 16))

/-- The stage-2 walk of an IPA (R238), from a table down. -/
def State.walk2From (s : State) (ipa : Nat) : Nat → Nat → Except XFault Leaf
  | 0, t => do
    let ea := t + walkIndex ipa 0 * 8
    match ← s.walkEntry 2 0 ipa ea (← s.readEntry 2 0 ipa ea) with
    | .inl l => .ok l
    | .inr _ => .error ⟨2, 2, 0, ipa, 0, ea⟩
  | n + 1, t => do
    let ea := t + walkIndex ipa (n + 1) * 8
    match ← s.walkEntry 2 (n + 1) ipa ea (← s.readEntry 2 (n + 1) ipa ea) with
    | .inl l => .ok l
    | .inr t' => State.walk2From s ipa n t'

/-- The stage-2 walk of a partition (R232, Table 14-1). -/
def State.walk2 (s : State) (p ipa : Nat) : Except XFault Leaf :=
  if s.rf (.xltS2Root p) 0 0 == 0 then .error ⟨1, 2, 2, ipa, 0, 0⟩
  else s.walk2From ipa 2 (s.rf (.xltS2Root p) 51 16 * 2 ^ 16)

/-- The bytes one leaf maps without the run hint. -/
def Leaf.span (l : Leaf) : Nat := if l.level == 1 then 2 ^ 29 else 2 ^ 16
/-- Where a leaf sends an input. -/
def Leaf.out (l : Leaf) (input : Nat) : Nat := fld l.e 51 16 * 2 ^ 16 + input % l.span

/-- Common range n covers a DPA range (R233, R270). -/
def State.inCommon (s : State) (n dpa len : Nat) : Bool :=
  let w := s.reg (.cfgCommon n)
  bit w 63 && fld w 35 0 * 2 ^ 16 ≤ dpa && dpa + len ≤ fld w 35 0 * 2 ^ 16 + fld w 52 36 * 2 ^ 16

/-- A stage-2 leaf of partition p names a DPA that R38, R39 and R233 allow it to name. -/
def State.leafAllowed (s : State) (p : Nat) (l : Leaf) : Bool :=
  let base := fld l.e 51 16 * 2 ^ 16
  if p == 127 then true
  else match spaceOf base with
    | 0 =>
      (formOf base == 1 || formOf base == 2) &&
        (dpaPart base == p ||
          (dpaPart base == 0x7F && bit l.e 60 && !bit l.e 59 && !bit l.e 58 &&
            (List.range 8).any (fun n => s.inCommon n base l.span)))
    | 1 =>
      let sh := s.reg (.cfgPartShr p)
      fld sh 13 0 * 2 ^ 16 ≤ fld base 29 0 && fld base 29 0 + l.span ≤ (fld sh 13 0 + fld sh 46 32) * 2 ^ 16
    | 4 => false
    | _ => true

/-- A DPA is valid for n bytes (R39); a pool offset beyond the pool's size is R27's concern, and the DPA of its first byte
then counts as valid. -/
def State.dpaValid (s : State) (dpa n : Nat) : Bool :=
  (s.locateN dpa n).isSome || (spaceOf dpa == 2 && fld dpa 47 36 == 0 && s.coreValid (fld dpa 35 25))

/-- The stage-2 walk cache of a die, or of the Weir as 15, holds an IPA page of a partition (R240). -/
def State.wc2Find (s : State) (die p ipa : Nat) : Option Leaf :=
  (s.wc2.find? (fun x => x.die == die && x.part == p && x.page == ipa / 65536)).map (fun x => ⟨x.e, x.level, x.size, false, x.eaddr⟩)

/-- The stage-2 leaf of an IPA, from the walk cache or by a walk, which the cache then holds (R238, R240). -/
def State.stage2 (s : State) (die p ipa : Nat) : Except XFault (Leaf × List Wc2) :=
  match s.wc2Find die p ipa with
  | some l => .ok (l, [])
  | none => do
    let l ← s.walk2 p ipa
    .ok (l, [⟨die, p, ipa / 65536, l.e, l.level, l.size, l.eaddr⟩])

/-- Translate an IPA through stage 2 alone, for a read or write of n bytes (tables, rings, save areas); a pointer to a table
must give Shared or Deep (R232). -/
def State.translate2On (s : State) (die p ipa n : Nat) (write table : Bool) : Except XFault (Nat × Leaf × List Wc2) := do
  let (l, c) ← s.stage2 die p ipa
  let dpa := l.out ipa
  if table && !(spaceOf dpa == 0 || spaceOf dpa == 1) then .error ⟨7, 2, l.level, ipa, l.e, l.eaddr⟩
  else if !s.leafAllowed p l || !s.dpaValid dpa n then .error ⟨4, 2, l.level, ipa, l.e, l.eaddr⟩
  else if !(if write then bit l.e 59 else bit l.e 60) then .error ⟨3, 2, l.level, ipa, l.e, l.eaddr⟩
  else .ok (dpa, l, c)

/-- The Weir's own translation of an IPA (R250). -/
def State.translate2 (s : State) (p ipa n : Nat) (write : Bool) : Except XFault (Nat × Leaf) :=
  (s.translate2On 15 p ipa n write false).map (fun x => (x.1, x.2.1))

/-- A leaf that a walk met, of a table page or of the access itself: a run-hint mismatch (R236), and the DPA that a stage-2 leaf
resolves to (R359). -/
structure Met where
  mismatch : Bool
  dpa      : Option Nat
  deriving DecidableEq, Repr

/-- What a stage-2 look-up met: nothing where the walk cache answered it. -/
def met2Of (ipa : Nat) (x : Leaf × List Wc2) : List Met := if x.2.isEmpty then [] else [⟨x.1.mismatch, some (x.1.out ipa)⟩]

/-- What a walk found: the leaf, the leaves that it met, and the table entries that the walk caches take. -/
structure Walked where
  leaf : Leaf
  met  : List Met
  c1   : List Wc1
  c2   : List Wc2
  deriving DecidableEq, Repr

/-- The input bits that a table entry of a level serves. -/
def walkPre (va level : Nat) : Nat := if level == 2 then va / 2 ^ 42 else va / 2 ^ 29

/-- The stage-1 walk of a VA from a table on (R238): table addresses are IPAs read through stage 2. -/
def State.walk1From (s : State) (die p ctx va : Nat) : Nat → Nat → Except XFault Walked
  | 0, t => do
    let ipa := t + walkIndex va 0 * 8
    let (ea, m, c) ← s.translate2On die p ipa 8 false true
    match ← s.walkEntry 1 0 0 ea (← s.readEntry 1 0 0 ea) with
    | .inl l => .ok ⟨l, met2Of ipa (m, c) ++ [⟨l.mismatch, none⟩], [], c⟩
    | .inr _ => .error ⟨2, 1, 0, 0, 0, ea⟩
  | n + 1, t => do
    let ipa := t + walkIndex va (n + 1) * 8
    let (ea, m, c) ← s.translate2On die p ipa 8 false true
    match ← s.walkEntry 1 (n + 1) 0 ea (← s.readEntry 1 (n + 1) 0 ea) with
    | .inl l => .ok ⟨l, met2Of ipa (m, c) ++ [⟨l.mismatch, none⟩], [], c⟩
    | .inr t' => do
      let w ← State.walk1From s die p ctx va n t'
      .ok ⟨w.leaf, met2Of ipa (m, c) ++ w.met, ⟨die, ctx, p, n + 1, walkPre va (n + 1), t'⟩ :: w.c1, c ++ w.c2⟩

/-- Where the stage-1 walk of a VA starts, its level and table: the lowest that the walk cache names, else the root (R240). -/
def State.walk1Start (s : State) (die ctx root va : Nat) : Nat × Nat :=
  let at_ := fun (lv : Nat) => s.wc1.find? (fun x => x.die == die && x.ctx == ctx && x.level == lv && x.va == walkPre va lv)
  match at_ 1, at_ 2 with
  | some x, _ => (0, x.next)
  | none, some x => (1, x.next)
  | none, none => (2, root * 2 ^ 16)

/-- The stage-1 walk of a VA (R240). -/
def State.walk1 (s : State) (die p ctx root va : Nat) : Except XFault Walked :=
  let start := s.walk1Start die ctx root va
  s.walk1From die p ctx va start.1 start.2

/-- The leaves that a stage-2 look-up of an IPA meets, whatever it ends in. -/
def State.met2 (s : State) (die p ipa : Nat) : List Met :=
  match s.stage2 die p ipa with
  | .ok x => met2Of ipa x
  | .error _ => []

/-- What a stage-1 table entry at an IPA decides, none where the walk ends in a fault there. -/
def State.entry1 (s : State) (die p ipa level : Nat) : Option (Leaf ⊕ Nat) :=
  match (do
    let (ea, _, _) ← s.translate2On die p ipa 8 false true
    s.walkEntry 1 level 0 ea (← s.readEntry 1 level 0 ea)) with
  | .ok x => some x
  | .error _ => none

/-- The leaves that the walk of a VA from a table on meets, whatever it ends in. -/
def State.met1From (s : State) (die p va : Nat) : Nat → Nat → List Met
  | 0, t =>
    let ipa := t + walkIndex va 0 * 8
    s.met2 die p ipa ++ (match s.entry1 die p ipa 0 with
      | some (.inl l) => ⟨l.mismatch, none⟩ :: s.met2 die p (l.out va)
      | _ => [])
  | n + 1, t =>
    let ipa := t + walkIndex va (n + 1) * 8
    s.met2 die p ipa ++ (match s.entry1 die p ipa (n + 1) with
      | some (.inl l) => ⟨l.mismatch, none⟩ :: s.met2 die p (l.out va)
      | some (.inr t') => State.met1From s die p va n t'
      | none => [])

/-- The leaves that the walk of a VA of a context meets, whatever it ends in (R236, R359). -/
def State.met (s : State) (die p ctx root va : Nat) : List Met :=
  if va / 2 ^ 48 != 0 then []
  else
    let start := s.walk1Start die ctx root va
    s.met1From die p va start.1 start.2

/-- The result of both walks: DPA, the entry a TLB would hold, the leaves met, and what the walk caches take. -/
structure Xlat where
  dpa : Nat
  entry : TlbEntry
  met : List Met
  c1  : List Wc1
  c2  : List Wc2
  deriving DecidableEq, Repr

/-- The full translation of a VA of a context, for n bytes and the rights needed (R237, R238). -/
def State.translate (s : State) (die p ctx root va n : Nat) (need : Need) : Except XFault Xlat := do
  if va / 2 ^ 48 != 0 then throw ⟨6, 1, 2, 0, 0, 0⟩
  let w ← s.walk1 die p ctx root va
  let l1 := w.leaf
  let ipa := l1.out va
  let (l2, c) ← s.stage2 die p ipa
  let dpa := l2.out ipa
  let pl := fld l1.e 57 56
  let has := fun (b : Nat) => bit l1.e b && bit l2.e b
  if !s.leafAllowed p l2 || !s.dpaValid dpa n then throw ⟨4, 2, l2.level, ipa, l2.e, l2.eaddr⟩
  else if pl != 0 && !(spaceOf dpa == 0 && formOf dpa == pl) then throw ⟨5, 1, l1.level, ipa, l1.e, l1.eaddr⟩
  else
    let lacks := fun (e : Nat) => (need.r && !bit e 60) || (need.w && !bit e 59) || (need.a && !bit e 58)
    if lacks l1.e then throw ⟨3, 1, l1.level, 0, l1.e, l1.eaddr⟩
    else if lacks l2.e then throw ⟨3, 2, l2.level, ipa, l2.e, l2.eaddr⟩
    else
      let size := min l1.size l2.size
      .ok ⟨dpa, ⟨die, ctx, p, va / size * size, size, (ipa - va % size) / l2.span * l2.span, dpa - va % size,
        has 60, has 59, has 58⟩, w.met ++ met2Of ipa (l2, c), w.c1, w.c2 ++ c⟩

/-! ### Held translations (R240, Table 14-5) -/

/-- The DPA that a held translation gives. -/
def TlbEntry.at_ (e : TlbEntry) (va : Nat) : Nat := e.dpa + (va - e.va)

/-- A page of a held translation lies where R233 lets its partition reach: each page of a run has a leaf of its own. -/
def State.pageAllowed (s : State) (e : TlbEntry) (va : Nat) : Bool :=
  let page := e.at_ va / 65536 * 65536
  if e.part == 127 || e.size == 2 ^ 16 then true
  else match spaceOf page with
    | 0 => dpaPart page == e.part || (List.range 8).any (fun n => s.inCommon n page 65536)
    | 1 =>
      let sh := s.reg (.cfgPartShr e.part)
      fld sh 13 0 * 2 ^ 16 ≤ fld page 29 0 && fld page 29 0 + 65536 ≤ (fld sh 13 0 + fld sh 46 32) * 2 ^ 16
    | _ => true

/-- A held translation serves an access. -/
def State.serves (s : State) (die ctx va : Nat) (need : Need) (e : TlbEntry) : Bool :=
  e.die == die && e.ctx == ctx && e.va ≤ va && va < e.va + e.size && (!need.r || e.r) && (!need.w || e.w) && (!need.a || e.a) &&
    s.pageAllowed e va

/-- The translation of a die's TLB, or of the Weir's, that serves an access. -/
def State.tlbFind (s : State) (die ctx va : Nat) (need : Need) : Option TlbEntry := s.tlb.find? (s.serves die ctx va need)

/-- The µTLB of a DMA engine. -/
def dmaUnit (core chan : Nat) : Nat := 2048 + core * 8 + chan

/-- The translation of a unit's µTLB that serves an access. -/
def State.utlbFind (s : State) (unit die ctx va : Nat) (need : Need) : Option TlbEntry :=
  (s.utlb.find? (fun x => x.1 == unit && s.serves die ctx va need x.2)).map (fun x => x.2)

/-- The translation that serves an access of a unit: its µTLB's, else its die's. -/
def State.held (s : State) (unit die ctx va : Nat) (need : Need) : Option TlbEntry :=
  match s.utlbFind unit die ctx va need with
  | some e => some e
  | none => s.tlbFind die ctx va need

/-- Put into a bounded structure: the oldest of its entries makes room (log entry 99). -/
def putBounded {α : Type} (same : α → Bool) (cap : Nat) (l : List α) (x : α) : List α :=
  match l.find? same with
  | some _ => if (l.filter same).length < cap then l ++ [x] else l.eraseP same ++ [x]
  | none => l ++ [x]

/-- An access of a unit used a translation of its die: the unit's µTLB holds it, 48 of a core, 64 of a DMA engine. -/
def State.touch (s : State) (unit die ctx va : Nat) (need : Need) : State :=
  match s.utlbFind unit die ctx va need, s.tlbFind die ctx va need with
  | none, some e =>
    { s with utlb := putBounded (fun x => x.1 == unit) (if unit < 2048 then 48 else 64) s.utlb (unit, e) }
  | _, _ => s

/-- A TLB takes a translation: a set of a die TLB has 8 ways, the Weir's holds 4,096 entries. -/
def State.addTlb (s : State) (x : TlbEntry) : State :=
  let set := fun (e : TlbEntry) => Config.tlbSet e.ctx (e.va / 65536) % 1024
  let rest := s.tlb.filter (fun e => !(e.die == x.die && e.ctx == x.ctx && e.va == x.va && e.size == x.size))
  { s with tlb :=
      if x.die == 15 then putBounded (fun e => e.die == 15) 4096 rest x
      else putBounded (fun e => e.die == x.die && set e == set x) 8 rest x }

/-- The walk caches take the table entries of a walk, 1,024 and 2,048 of a die or of the Weir. -/
def State.addWalk (s : State) (c1 : List Wc1) (c2 : List Wc2) : State :=
  { s with
    wc1 := c1.foldl (fun l x => putBounded (fun y => y.die == x.die) 1024 l x) s.wc1
    wc2 := c2.foldl (fun l x => putBounded (fun y => y.die == x.die) 2048 l x) s.wc2 }

/-- Drop held translations and walk-cache entries. -/
def State.dropXlat (s : State) (gone : TlbEntry → Bool) (gone1 : Wc1 → Bool) (gone2 : Wc2 → Bool) : State :=
  { s with
    tlb := s.tlb.filter (fun e => !gone e)
    utlb := s.utlb.filter (fun x => !gone x.2)
    wc1 := s.wc1.filter (fun x => !gone1 x)
    wc2 := s.wc2.filter (fun x => !gone2 x) }

/-! ### Walkers (R239) -/

/-- The key of a context's page in a walk queue. -/
def walkKey (ctx va : Nat) : Nat := ctx * 2 ^ 32 + va % 2 ^ 48 / 65536
/-- Misses that a die's walkers serve or that wait, in arrival order. -/
def State.walksOf (s : State) (die : Nat) : List Nat := Map.getD s.walkQ die []
/-- A miss of a die can be taken: it merges into a walk, or the 16 walkers and the queue of 64 have room. -/
def State.walkRoom (s : State) (die key : Nat) : Bool := (s.walksOf die).contains key || (s.walksOf die).length < 80
/-- A miss is taken. -/
def State.walkAsk (s : State) (die key : Nat) : State :=
  if (s.walksOf die).contains key then s else { s with walkQ := Map.putD s.walkQ die [] (s.walksOf die ++ [key]) }
/-- A walk ends. -/
def State.walkEnd (s : State) (die key : Nat) : State :=
  { s with walkQ := Map.putD s.walkQ die [] ((s.walksOf die).filter (fun k => k != key)) }

/-! ### The translation record (R246, Table 14-10) -/

/-- A translation can succeed on a retry (Table 14-11). -/
def codeRestart (code : Nat) : Bool := code == 1 || code == 3

/-- The instance a walk fault is posted to: PF0 for stage-2, invalid-DPA and walk-poison faults (R246). -/
def XFault.ring (f : XFault) (p : Nat) : Nat := if f.stage == 2 || f.code == 4 || f.code == 8 then 127 else p

/-- The record's words. -/
def xlatRecord (f : XFault) (need : Need) (p ctx va core source queue seq time : Nat) : List Word :=
  [ BitVec.ofNat 64 (0x01 * 2 ^ 56 + f.code * 2 ^ 48 + b2n need.a * 2 ^ 42 + b2n need.w * 2 ^ 41 +
      b2n (codeRestart f.code) * 2 ^ 40 + core * 2 ^ 22 + ctx),
    BitVec.ofNat 64 (va % 2 ^ 48), BitVec.ofNat 64 (if f.stage == 2 then f.ipa % 2 ^ 48 else 0),
    BitVec.ofNat 64 (source * 2 ^ 60 + f.stage * 2 ^ 58 + f.level * 2 ^ 56 + p * 2 ^ 48),
    BitVec.ofNat 64 f.entry, BitVec.ofNat 64 (if f.ring p == 127 then f.eaddr % 2 ^ 52 else 0),
    BitVec.ofNat 64 (queue * 2 ^ 32 + seq), BitVec.ofNat 64 time ]

/-- A walk of partition p resolved a leaf in a common range: set its bit in RAS_COMMON_MAP (R359). -/
def State.noteCommon (s : State) (p dpa : Nat) : State :=
  if p < 96 then
    (List.range 8).foldl (fun t n =>
      if t.inCommon n dpa 1 then
        if p < 64 then t.setRf (.rasCommonMapLo n) p p 1 else t.setRf (.rasCommonMapHi n) (p - 64) (p - 64) 1
      else t) s
  else s

/-- A run-hint mismatch is counted in the RAS log (R236). -/
def State.noteRun (s : State) (p : Nat) (m : Bool) : State :=
  if m then s.ras_ { rasOf 0x12 0 15 0x08 0 1 with part := p } else s

/-- A walk of partition p is noted, however it ends: a run-hint mismatch among its leaves, and each leaf in a common range (R236,
R359). -/
def State.noteMet (s : State) (p : Nat) (ms : List Met) : State :=
  ms.foldl (fun (t : State) m => match m.dpa with | some d => t.noteCommon p d | none => t)
    (s.noteRun p (ms.any (fun m => m.mismatch)))

/-- Post the translation record of a fault, once per context and page until a response (R246), and note its walk (`met`); a
walk that reads poison also logs its consumption (R352). Where no walk faulted, nothing is posted. -/
def State.postXlat (s : State) (f : XFault) (met : List Met) (need : Need) (p ctx va core source queue seq die : Nat) : State :=
  let key := ctx * 2 ^ 32 + va % 2 ^ 48 / 2 ^ 16
  let s := s.noteMet p met
  let s := if f.code == 8 then
      s.ras_ { rasOf 0x03 2 15 0x08 0 8 with part := p, core := core, ctx := ctx, addr := f.eaddr }
    else s
  if s.posted.contains key || f.code == 0 || f.code ≥ 9 then s
  else
    let (t, ok) := s.post (f.ring p) (xlatRecord f need p ctx va core source queue seq (s.dieTime die))
    if ok then { t with posted := NSet.ins t.posted key } else t

/-- A fault of a table or save area that the Weir reads or writes through stage 2 alone goes to PF0's ring (R246, R250). One
for a context is posted once per context and IPA page until a response; one for no context is posted each time (log entry
104). -/
def State.weirFault (s : State) (p : Nat) (ctx : Option Nat) (f : XFault) (write : Bool) : State :=
  let c := ctx.getD 0
  let s := s.noteMet p (s.met2 15 p f.ipa)
  let key := (2 ^ 20 + c) * 2 ^ 32 + f.ipa % 2 ^ 48 / 65536
  let s := if f.code == 8 then
      s.ras_ { rasOf 0x03 2 15 0x08 0 8 with part := p, ctx := c, addr := f.eaddr }
    else s
  if ctx.isSome && s.posted.contains key then s
  else
    let (t, ok) := s.post 127 (xlatRecord { f with stage := 2 } ⟨!write, write, false⟩ p c 0 0 5 0 0 s.weirCtr.toNat)
    if ok && ctx.isSome then { t with posted := NSet.ins t.posted key } else t

/-! ### Contexts' records and the Weir's own accesses (R250, R251) -/

/-- The instance that owns a context (R250). -/
def State.ctxOwner (s : State) (ctx : Nat) : Nat :=
  ((List.range 96).find? (fun p => s.rf (.schCtxRange p) 19 0 ≤ ctx &&
    ctx < s.rf (.schCtxRange p) 19 0 + s.rf (.schCtxRange p) 52 32)).getD 127

/-- The instance that owns a queue (R250). -/
def State.queueOwner (s : State) (q : Nat) : Nat :=
  ((List.range 96).find? (fun p => s.rf (.queRange p) 17 0 ≤ q &&
    q < s.rf (.queRange p) 17 0 + s.rf (.queRange p) 46 32)).getD 127

/-- First context of an instance. -/
def State.cbase (s : State) (p : Nat) : Nat := if p < 96 then s.rf (.schCtxRange p) 19 0 else 0
/-- First queue of an instance. -/
def State.qbase (s : State) (p : Nat) : Nat := if p < 96 then s.rf (.queRange p) 17 0 else 0

/-- Read n bytes at an IPA through stage 2 alone; bytes that cannot be reached read as poisoned (R18, log entry 98), and a row in
repair stalls the read (R358). -/
def State.ipaRead (s : State) (p ipa n : Nat) : Except XFault (List Byte × Bool) := do
  let (dpa, _) ← s.translate2 p ipa n false
  match s.locateN dpa n with
  | some ls =>
    if ls.any s.inRepair then .error ⟨10, 2, 0, ipa, 0, dpa⟩
    else
      let (bs, bad) := s.readLocs 0 ls
      .ok (bs, bad || s.unreachable dpa ls)
  | none => .error ⟨4, 2, 0, ipa, 0, 0⟩

/-- The Weir has accessed n bytes at an IPA: the walk it made is held and noted (R236, R240, R359). -/
def State.noteIpa (s : State) (p ipa n : Nat) (write : Bool) : State :=
  match s.translate2On 15 p ipa n write false with
  | .ok (_, l, c) => (s.noteMet p (met2Of ipa (l, c))).addWalk [] c
  | .error _ => s

/-- Write bytes at an IPA through stage 2 alone; bytes that cannot be reached end it as a walk that reads poison does (R18, log
entry 98), and a row in repair stalls the write (R360). -/
def State.ipaWrite (s : State) (p ipa : Nat) (bs : List Byte) : Except XFault State := do
  let (dpa, _) ← s.translate2 p ipa bs.length true
  match s.locateN dpa bs.length with
  | some ls =>
    if s.unreachable dpa ls then .error ⟨8, 2, 0, ipa, 0, dpa⟩
    else if ls.any s.inRepair then .error ⟨10, 2, 0, ipa, 0, dpa⟩
    else .ok ((s.noteIpa p ipa bs.length true).writeLocs 0 ls bs)
  | none => .error ⟨4, 2, 0, ipa, 0, 0⟩

/-- The i-th 64-bit word of bytes. -/
def wordAt (bs : List Byte) (i : Nat) : Word := BitVec.ofNat 64 (ofLe ((bs.drop (8 * i)).take 8))

/-- A context record is valid (R251). -/
def recordValid (w0 w2 w3 w4 : Word) : Bool :=
  bit w0.toNat 63 && fld w0.toNat 15 0 != 0 && fld w0.toNat 62 52 == 0 && fld w2.toNat 63 52 == 0 &&
    fld w2.toNat 31 0 == 0 && fld w3.toNat 63 52 == 0 && fld w3.toNat 15 0 == 0 && fld w4.toNat 63 25 == 0 &&
    fld w4.toNat 15 9 == 0

/-- The address of a context's record in its instance's table (R251). -/
def State.recordIpa (s : State) (ctx : Nat) : Nat :=
  let p := s.ctxOwner ctx
  s.rf (.schCtab p) 51 16 * 2 ^ 16 + (ctx - s.cbase p) * 64

/-- Read the record of a context from the instance's table (R251); a disabled or poisoned one is invalid. -/
def State.readRecord (s : State) (ctx : Nat) : Except XFault ActiveCtx :=
  let p := s.ctxOwner ctx
  if s.rf (.schCtab p) 0 0 == 0 then .ok ⟨p, 0, 0, 0, 0, 0, 0, 0, 0, false, false, false⟩
  else do
    let (bs, bad) ← s.ipaRead p (s.recordIpa ctx) 64
    let w := wordAt bs
    .ok (if bad then ⟨p, 0, 0, 0, 0, 0, 0, 0, 0, false, false, true⟩
      else ⟨p, w 0, w 1, w 2, w 3, w 4, (w 5).toNat, (w 6).toNat, 0, false,
        recordValid (w 0) (w 2) (w 3) (w 4) && w 7 == 0, false⟩)

/-- The record that serves a context now: the active one, else as read. A read that faults, or that finds poison (code 9), ends
the access that needs it (R246, R250, R352). -/
def State.recordE (s : State) (ctx : Nat) : Except XFault (Option ActiveCtx) :=
  match Map.find? s.ctxs ctx with
  | some c => .ok (if c.valid then some c else none)
  | none => do
    let c ← s.readRecord ctx
    if c.poison then .error ⟨9, 2, 0, 0, 0, 0⟩ else .ok (if c.valid then some c else none)

/-- The Weir has read the record of a context that is not active: its walk is held and noted (R236, R240). -/
def State.noteRecord (s : State) (ctx : Nat) : State :=
  if (Map.find? s.ctxs ctx).isSome || s.rf (.schCtab (s.ctxOwner ctx)) 0 0 == 0 then s
  else s.noteIpa (s.ctxOwner ctx) (s.recordIpa ctx) 64 false

/-- The record that serves a context now, none where it is invalid or cannot be read. -/
def State.record (s : State) (ctx : Nat) : Option ActiveCtx :=
  match s.recordE ctx with
  | .ok c => c
  | .error _ => none

/-- The stage-1 root of a unit's accesses: of its launch, else of its context's record (R258). -/
def State.rootOf (s : State) (own : Option Launch) (ctx : Nat) : Nat :=
  match own, s.record ctx with
  | some l, _ => l.root
  | none, some c => fld c.w0.toNat 51 16
  | none, none => 0

/-- PASID of a context's host-window accesses (Table 15-2). -/
def State.pasid (s : State) (ctx : Nat) : Nat :=
  match s.record ctx with
  | some c => fld c.w2.toNat 51 32
  | none => 0

/-- The host-memory domain of a context (R304). -/
def State.ctxDom (s : State) (ctx : Nat) : Nat :=
  hostDom (s.siteOf (s.ctxOwner ctx)) (fnOf (s.ctxOwner ctx)) (some (s.pasid ctx))

/-- A finished walk is held and noted (R236, R240, R359). -/
def State.install (s : State) (x : Xlat) : State := ((s.noteMet x.entry.part x.met).addTlb x.entry).addWalk x.c1 x.c2

/-- What a walk of a held page that cannot serve n bytes ends in: the fault of R39 at that byte (R237). -/
def State.refault (s : State) (die : Nat) (c : ActiveCtx) (ctx va n : Nat) (need : Need) : XFault :=
  match s.translate die c.part ctx (fld c.w0.toNat 51 16) va n need with
  | .error f => f
  | .ok x => ⟨4, 2, 0, x.entry.ipa + va % 65536, 0, 0⟩

/-- The translation of a context's address for the Weir or an RMO target: the state that holds the walk made for it, the context's
record and the DPA (R185, R240, R260). Code 0 stands for a context without a valid record. -/
def State.ctxPage (s : State) (die ctx va : Nat) (need : Need) : Except XFault (State × ActiveCtx × Nat) := do
  match ← s.recordE ctx with
  | none => .error ⟨0, 1, 2, 0, 0, 0⟩
  | some c =>
    match s.tlbFind die ctx va need with
    | some e =>
      if s.dpaValid (e.at_ va) 1 then .ok (s.noteRecord ctx, c, e.at_ va) else .error (s.refault die c ctx va 1 need)
    | none => do
      let x ← s.translate die c.part ctx (fld c.w0.toNat 51 16) va 1 need
      .ok ((s.noteRecord ctx).install x, c, x.dpa)

/-- An access of n bytes: its DPA and the locations of its bytes. -/
def State.ctxAccess (s : State) (die ctx va n : Nat) (need : Need) : Except XFault (State × Nat × List Loc) := do
  let (t, c, dpa) ← s.ctxPage die ctx va need
  match t.locateN dpa n with
  | some ls => .ok (t, dpa, ls)
  | none => .error (t.refault die c ctx va n need)

end Sys2Proof.Machine
end

