-- ==== Sys2Proof/Machine/Groups.lean ====
section
/-! DEFINITION. The front end of a core: a group's registers (R53, R54), when it is ready (R59), its fetch (R56), the
range scoreboard (R198 to R202), and taking a group fault as one shared operation (R70 to R73). -/

namespace Sys2Proof.Machine

/-! ### Registers of a group -/

/-- Vector register r, lane i. -/
def Group.gv (g : Group) (r i : Nat) : Half := Map.getD g.v (r * 32 + i) 0
/-- Scalar register r; s0 reads as 0 (R54). -/
def Group.gs (g : Group) (r : Nat) : Word := if r == 0 then 0 else Map.getD g.s r 0
/-- Predicate r; p0 reads as all ones (R54). -/
def Group.gp (g : Group) (r : Nat) : Half := if r == 0 then 0xFFFFFFFF#32 else Map.getD g.p r 0
/-- Tile descriptor r. -/
def Group.gt (g : Group) (r : Nat) : BitVec 128 := Map.getD g.t r 0
/-- Write a vector lane; the write clears its poison. -/
def Group.setV (g : Group) (r i : Nat) (x : Half) : Group :=
  { g with v := Map.putD g.v (r * 32 + i) 0 x, vpois := NSet.del g.vpois (r * 32 + i) }
/-- Write a scalar register; a write of s0 is discarded (R54). A register that a ROUTE was to write takes the later
write. -/
def Group.setS (g : Group) (r : Nat) (x : Word) : Group :=
  if r == 0 then g
  else { g with s := Map.putD g.s r 0 x, spois := NSet.del g.spois r, sbusy := NSet.del g.sbusy r }
/-- Write a predicate; a write of p0 is discarded (R54). -/
def Group.setP (g : Group) (r : Nat) (x : Half) : Group := if r == 0 then g else { g with p := Map.putD g.p r 0 x }
/-- Write a tile descriptor (R108). -/
def Group.setT (g : Group) (r : Nat) (x : BitVec 128) : Group := { g with t := Map.putD g.t r 0 x }

/-- A lane's element: 32 bits, or the pair element of a 64-bit type (R53). -/
def Group.elem (g : Group) (wide : Bool) (r i : Nat) : Nat :=
  if wide then (g.gv r i).toNat + (g.gv (r + 1) i).toNat * 2 ^ 32 else (g.gv r i).toNat
/-- Write a lane's element. -/
def Group.setElem (g : Group) (wide : Bool) (r i x : Nat) : Group :=
  if wide then (g.setV r i (BitVec.ofNat 32 x)).setV (r + 1) i (BitVec.ofNat 32 (x / 2 ^ 32))
  else g.setV r i (BitVec.ofNat 32 x)

/-- The effective mask of an instruction that takes a guard (R76). -/
def effMask (g : Group) (e : Enc) : Half :=
  if e.gn then g.act &&& ~~~(g.gp e.g.toNat) else g.act &&& g.gp e.g.toNat

/-- The lanes of a mask, ascending. -/
def lanesOf (m : Half) : List Nat := (List.range 32).filter (fun i => m.getLsbD i)
/-- The mask of a list of lanes. -/
def maskOf (l : List Nat) : Half := BitVec.ofNat 32 (l.foldl (fun a i => a ||| 2 ^ i) 0)
/-- The lowest lane of a mask (R62, R66). -/
def lowLane (m : Half) : Nat := (lanesOf m).headD 0

/-- The next instruction (R74). -/
def Group.advance (g : Group) (e : Enc) : Group := { g with pc := g.pc + (if e.x then 16#48 else 8#48) }
/-- Continue at a byte offset from this instruction (R74). -/
def Group.jumpBy (g : Group) (off : Int) : Group := { g with pc := BitVec.ofInt 48 ((g.pc.toNat : Int) + off) }

/-- The key of a group. -/
def gkey (core slot : Nat) : Nat := core * 128 + slot
/-- The key of a group reference. -/
def refKey (r : GroupRef) : Nat := gkey r.core.toNat r.slot.toNat
/-- The group stands in the state. -/
def State.putGroup (s : State) (r : GroupRef) (g : Group) : State := { s with groups := Map.put s.groups (refKey r) g }

/-! ### Commands in flight and the range scoreboard -/

/-- A command belongs to a launch. -/
def Origin.of (o : Origin) (launch : Nat) : Bool := o.launch == some launch

/-- Ranges an RMO registers (Table 12-1). -/
def RmoCmd.ranges (c : RmoCmd) : List Access1 :=
  match c.fn with
  | 0 => [((c.l, c.n), false)]
  | 1 => [((c.l, c.n), true)]
  | 2 => [((c.l, if c.ty == 2 || c.ty == 3 then 8 else 4), true)]
  | 4 => [((c.l, c.n), false)]
  | 5 => [((c.l, c.n % 2 ^ 32 * (c.n / 2 ^ 32)), false), ((c.o, c.n / 2 ^ 32 * 4), false)]
  | 6 => [((c.l, c.n), false)]
  | _ => []

/-- Ranges a matrix command registers (Table 12-1). -/
def MtxCmd.ranges (c : MtxCmd) : List Access1 :=
  match c.kind with
  | .mma =>
    (tileAreas c.ta 0 ++ tileAreas c.tb (encF c.enc 21 20) ++
      (if encF c.enc 19 19 == 1 then tileAreas c.tm 0 else [])).map (fun a => (a, false))
  | .mdrain => (tileAreas c.ta 0).map (fun a => (a, true))
  | .mzero => []

/-- Ranges a DMA command registers (Table 12-1, R200, R263). -/
def DmaCmd.ranges (c : DmaCmd) : List Access1 :=
  if c.pkt then []
  else match c.desc with
    | none => [((0, poolSize c.org.core), true)]
    | some d =>
      if c.kind == 5 then [((0, poolSize c.org.core), true)]
      else (match c.srcR with | some r => [(r, false)] | none => []) ++
        (match c.dstR with
         | some r => if bit (d.getD 7 0).toNat 46 then [] else [(r, true)]
         | none => [])

/-- Bytes of one score of a ROUTE. -/
def scoreBytes (t : Nat) : Nat := if t == 4 then 4 else 2
/-- Bytes from one score row to the next, RS of R135. -/
def scoreStride (experts t : Nat) : Nat := ceilDiv (experts * scoreBytes t) 16 * 16
/-- Bytes from the first score byte to the last. -/
def scoreSpan (count experts t : Nat) : Nat :=
  if count == 0 then 0 else (count - 1) * scoreStride experts t + experts * scoreBytes t

/-- Ranges a ROUTE registers (Table 12-1). -/
def RouteCmd.ranges (c : RouteCmd) : List Access1 :=
  [((c.score, scoreSpan c.count c.experts c.ty), false), ((c.list_, c.count * c.k * 8), true)]

/-- The registrations of a core by commands issued before `before`. -/
def State.registered (s : State) (core before : Nat) : List Access1 :=
  ((s.mtx.filter (fun c => c.org.core == core && c.id < before)).flatMap MtxCmd.ranges) ++
  ((s.dma.filter (fun c => c.org.core == core && c.id < before)).flatMap DmaCmd.ranges) ++
  ((s.rmo.filter (fun c => c.org.core == core && c.id < before)).flatMap RmoCmd.ranges) ++
  ((s.routes.filter (fun c => c.org.core == core && c.id < before)).flatMap RouteCmd.ranges)

/-- Registrations in use on a core (R202): a DMA command with two pool sides counts two, every other access one. -/
def State.regCount (s : State) (core : Nat) : Nat :=
  (s.mtx.filter (fun c => c.org.core == core && c.kind != .mzero)).length +
  ((s.dma.filter (fun c => c.org.core == core)).map (fun c => c.ranges.length)).sum +
  ((s.rmo.filter (fun c => c.org.core == core)).filter (fun c => c.fn != 3)).length +
  (s.routes.filter (fun c => c.org.core == core)).length

/-- The scoreboard of a core has a free registration (R202). -/
def State.regFree (s : State) (core : Nat) : Bool := s.regCount core < (if core < 1024 then 64 else 448)

/-- A group's pool access is held by an earlier registration (R198, R201). -/
def State.poolHeld (s : State) (core : Nat) (xs : List Access1) : Bool :=
  conflicts xs (s.registered core s.nextId) || !s.regFree core

/-- A command's pool accesses are held by earlier commands of the core (R201). -/
def State.cmdHeld (s : State) (core id : Nat) (xs : List Access1) : Bool := conflicts xs (s.registered core id)

/-- A command belongs to a group of a launch, by the group's index: a resumed group may hold another slot (R177). -/
def Origin.ofGroup (o : Origin) (launch index : Nat) : Bool := o.of launch && o.grp == index

/-- Solo commands a group itself has in flight (FLAGS bit 42 of Table 04-6). -/
def State.soloOf (s : State) (launch index : Nat) : Bool :=
  let f := fun (o : Origin) => o.ofGroup launch index
  s.mtx.any (fun c => f c.org) || s.dma.any (fun c => f c.org) || s.rmo.any (fun c => f c.org)

/-- A launch has a command in flight. -/
def State.busyLaunch (s : State) (launch : Nat) : Bool :=
  s.mtx.any (fun c => c.org.of launch) || s.dma.any (fun c => c.org.of launch) ||
    s.rmo.any (fun c => c.org.of launch) || s.routes.any (fun c => c.org.of launch)

/-- Commands that hold the scoreboard of a descriptor of a group (R123). -/
def State.tileBusy (s : State) (launch index t : Nat) : Bool :=
  let f := fun (o : Origin) => o.ofGroup launch index
  s.mtx.any (fun c => f c.org && (match c.kind with
    | .mma => encF c.enc 45 42 == t || encF c.enc 41 38 == t || (encF c.enc 19 19 == 1 && encF c.enc 37 34 == t)
    | .mdrain => encF c.enc 45 42 == t
    | .mzero => false)) ||
  s.dma.any (fun c => f c.org && c.ts == some t) || s.rmo.any (fun c => f c.org && c.ts == some t)

/-! ### Ending a launch and failing a context -/

/-- The groups of a launch leave their slots (R69, R71). -/
def State.dropGroups (s : State) (launch : Nat) : State :=
  { s with groups := Map.keepV s.groups (fun _ g => g.launch != launch) }

/-- End a launch as under a fatal fault (R71): its groups stop, its commands run on, those held for it while it was preempted
too, and its packet will complete with the status. -/
def State.failLaunch (s : State) (launch status : Nat) : State :=
  match Map.find? s.launches launch with
  | none => s
  | some l =>
    if l.phase == .failing then s
    else ({ s with
      launches := Map.put s.launches launch { l with phase := .failing, status := status, saved := [] }
      switching := Map.keepV s.switching (fun _ w => w.victim != some launch && w.incoming != some launch)
      dma := s.dma.map (fun (c : DmaCmd) => if c.org.of launch then { c with held := false } else c) }).dropGroups launch

/-- Launches of a context that are placed. -/
def State.ctxLaunches (s : State) (ctx : Nat) : List Nat :=
  (s.launches.filter (fun kv => kv.2.ctx == ctx)).map (fun kv => kv.1)

/-- A context that consumes poison fails (R353). -/
def State.failCtx (s : State) (ctx : Nat) : State :=
  (s.ctxLaunches ctx).foldl (fun t l => t.failLaunch l 2) { s with failed := NSet.ins s.failed ctx }

/-! ### Taking a group fault (R70 to R73, Table 04-6) -/

/-- What a fault names. -/
structure FaultInfo where
  code : Nat
  lanes : Half
  addr : Nat
  deriving DecidableEq, Repr

/-- A code is restartable (Table 04-5). -/
def restartable (code : Nat) : Bool := code == 1 || code == 0x0D

/-- The group fault record (Table 04-6). -/
def groupRecord (r : GroupRef) (g : Group) (l : Launch) (f : FaultInfo) (restart inflight : Bool) (w0 w1 : Word)
    (time : Nat) : List Word :=
  [ BitVec.ofNat 64 (0x02 * 2 ^ 56 + f.code * 2 ^ 48 + b2n inflight * 2 ^ 42 + b2n (r.core.toNat ≥ 1024) * 2 ^ 41 +
      b2n restart * 2 ^ 40 + r.slot.toNat * 2 ^ 33 + r.core.toNat * 2 ^ 22 + l.ctx),
    BitVec.ofNat 64 g.pc.toNat, BitVec.ofNat 64 (g.act.toNat * 2 ^ 32 + f.lanes.toNat),
    BitVec.ofNat 64 (g.stack.length * 2 ^ 52 + f.addr % 2 ^ 48), w0, w1,
    BitVec.ofNat 64 (l.queue * 2 ^ 32 + l.seq), BitVec.ofNat 64 time ]

/-- Post the record of a fatal group fault (Table 04-6). -/
def State.postGroup (s : State) (r : GroupRef) (g : Group) (l : Launch) (f : FaultInfo) (w0 w1 : Word) : State :=
  let core := r.core.toNat
  (s.post l.part (groupRecord r g l f false (s.soloOf g.launch g.index) w0 w1 (s.dieTime (coreDie core)))).1

/-- Take a fatal group fault: post the record, end the launch; poison also fails the context (R353). -/
def State.fatal (s : State) (r : GroupRef) (g : Group) (l : Launch) (f : FaultInfo) (w0 w1 : Word) : State :=
  let core := r.core.toNat
  let s := (s.postGroup r g l f w0 w1).failLaunch g.launch 2
  if f.code == 0x0E then
    (s.ras_ { rasOf 0x03 2 (coreDie core) 0x03 core 0x0E with part := l.part, core := core, ctx := l.ctx, addr := 0 }).failCtx
      l.ctx
  else s

/-- Suspend a group on a restartable fault at its pending address: post its record (R71). -/
def State.suspend (s : State) (r : GroupRef) (g : Group) (l : Launch) (fetch write atomic : Bool) (va : BitVec 64)
    (lanes : Half) (w0 w1 : Word) : State :=
  let core := r.core.toNat
  let f : FaultInfo := ⟨if fetch then 1 else 0x0D, lanes, va.toNat⟩
  let rec_ := groupRecord r g l f true (s.soloOf g.launch g.index) w0 w1 (s.dieTime (coreDie core))
  (s.post l.part rec_).1.putGroup r { g with stat := .susp fetch write atomic va lanes w0 w1 }

/-- The group waits for a walk of an address of its context. While the walk queue of its die is full, it does not start the
access (R239). -/
def State.awaitWalk (s : State) (r : GroupRef) (g : Group) (ctx : Nat) (fetch write atomic : Bool) (va : Nat) (lanes : Half)
    (w0 w1 : Word) : State :=
  let die := coreDie r.core.toNat
  if s.walkRoom die (walkKey ctx va) then
    (s.walkAsk die (walkKey ctx va)).putGroup r { g with stat := .walk fetch write atomic (BitVec.ofNat 64 va) lanes w0 w1 }
  else s

/-! ### Fetch and issue -/

/-- The outcome of looking up a translated access: locations, a walk to wait for, or a space the access may not reach. -/
inductive Look where
  | ok (dpa : Nat) (locs : List Loc)
  | walk
  | space
  deriving DecidableEq, Repr

/-- Look up n bytes of a context address that must lie in Shared (R37, R56). An invalid DPA comes before a space that the access
may not reach: its walk ends with code 0x04 (R237). -/
def State.look (s : State) (core ctx va n : Nat) (need : Need) : Look :=
  match s.held core (coreDie core) ctx va need with
  | none => .walk
  | some e =>
    match s.locateN (e.at_ va) n with
    | none => .walk
    | some ls => if spaceOf (e.at_ va) != 1 then .space else .ok (e.at_ va) ls

/-- What an instruction brings to the front end: OP and FN as encoded, the decode fault, scalar registers it names. -/
structure Ins where
  op : Nat
  fn : Nat
  code : Option Nat
  sregs : List Nat
  deriving DecidableEq, Repr

/-! #### The instruction cache (R21, R23, R56, R57) -/

/-- The instruction cache that holds a 64 B line of Shared for a core: its own, or in Lake mode that of the slot of the line's
address modulo 7 (Table 02-2). -/
def icacheOf (core line : Nat) : Nat := if core < 1024 then core / 8 * 7 + core % 8 else core % 1024 * 7 + line % 7
/-- The instruction caches of a core. -/
def icachesOf (core : Nat) : List Nat :=
  if core < 1024 then [core / 8 * 7 + core % 8] else (List.range 7).map (core % 1024 * 7 + ·)
/-- The key of a line in an instruction cache. -/
def icKey (cache line : Nat) : Nat := cache * 2 ^ 24 + line
/-- Invalidate instruction caches. -/
def State.dropIcache (s : State) (gone : Nat → Bool) : State := { s with icache := Map.keep s.icache (fun k => !gone (k / 2 ^ 24)) }

/-- A 64 B line of Shared as memory holds it now. -/
def State.sharedLine (s : State) (line : Nat) : ILine :=
  let locs := fun (o n : Nat) => (List.range n).map (fun i => match s.sharedKey (o + i) with | some k => Loc.heap k | none => .mmio 0)
  let lo := s.readLocs 0 (locs (line * 64) 32)
  let hi := s.readLocs 0 (locs (line * 64 + 32) 32)
  ⟨lo.1 ++ hi.1, BitVec.ofNat 2 (b2n lo.2 + 2 * b2n hi.2)⟩

/-- An instruction cache takes a line; at 128 KiB one of its lines leaves, which one a free value chooses (log entry 1). -/
def State.icFill (s : State) (cache line : Nat) (x : ILine) : State :=
  let mine := s.icache.filter (fun kv => kv.1 / 2 ^ 24 == cache && kv.1 % 2 ^ 24 != line)
  let t := if mine.length < 2048 then s
    else
      let (v, t) := s.fresh
      match mine[v.toNat % mine.length]? with
      | some kv => { t with icache := Map.drop t.icache kv.1 }
      | none => t
  { t with icache := Map.put t.icache (icKey cache line) x }

/-- The line that a core fetches. A line in the cache serves; one that has changed since is the old or the new one, as a free
value says (R57). A line that is not there is served by its home and cached (R225). None while the home is busy; a line
that cannot be reached reads as poisoned (R18). -/
def State.icLine (s : State) (core line : Nat) : Option (State × ILine) :=
  let cache := icacheOf core line
  let dpa := 2 ^ 48 + line * 64
  let now := s.sharedLine line
  let down := s.unreachable dpa (match s.sharedKey (line * 64) with | some k => [.heap k] | none => [])
  let refill := fun (t : State) => if down then some (t, (⟨now.bytes, 3⟩ : ILine))
    else (t.homeRead ((List.range 64).map (dpa + ·))).map (fun (u : State) => (u.icFill cache line now, now))
  match Map.find? s.icache (icKey cache line) with
  | some x =>
    if x = now then some (s, x)
    else
      let (v, t) := s.fresh
      if v.getLsbD 0 then refill t else some (t, x)
  | none => refill s

/-- What a fetch of one 64-bit word gives: a walk to wait for, a space that holds no instructions, a home to wait for, or the
state after the fetch, the word, and whether its bytes are poisoned. -/
inductive Fetch where
  | walk
  | space
  | wait
  | word (s : State) (w : Word) (bad : Bool)

/-- Fetch a word of an instruction at an address (R56). -/
def State.fetchWord (s : State) (core ctx va : Nat) : Fetch :=
  match s.look core ctx va 8 needR with
  | .walk => .walk
  | .space => .space
  | .ok dpa _ =>
    match (s.touch core (coreDie core) ctx va needR).icLine core (fld dpa 29 6) with
    | none => .wait
    | some (t, x) => .word t (BitVec.ofNat 64 (ofLe ((x.bytes.drop (fld dpa 5 0)).take 8))) (x.poison.getLsbD (fld dpa 5 5))

/-- What a fetch of an instruction gives: the address whose translation is missing or wrong and the first word where only the
second's is, a home to wait for, or the state after the fetch, the two words, and the address of the first poisoned one. -/
inductive FetchedInsn where
  | walk (va : Nat) (w0 : Word)
  | space (va : Nat) (w0 : Word)
  | wait
  | got (s : State) (w0 w1 : Word) (bad : Option Nat)

/-- Fetch the instruction at an address: its first word says whether a second follows (R74, R87). -/
def State.fetchInsn (s : State) (core ctx pc : Nat) : FetchedInsn :=
  match s.fetchWord core ctx pc with
  | .walk => .walk pc 0
  | .space => .space pc 0
  | .wait => .wait
  | .word t w0 bad =>
    if bad then .got t w0 0 (some pc)
    else if !bit w0.toNat 57 then .got t w0 0 none
    else match t.fetchWord core ctx (pc + 8) with
      | .walk => .walk (pc + 8) w0
      | .space => .space (pc + 8) w0
      | .wait => .wait
      | .word u w1 bad => .got u w0 w1 (if bad then some (pc + 8) else none)

/-- A launch arrives on a core: its groups may not issue before the switch is complete (R255). -/
def State.arriving (s : State) (core launch : Nat) : Bool :=
  match Map.find? s.switching core with
  | some w => w.incoming == some launch
  | none => false

/-- Issue an instruction of a group: readiness (R59), fetch (R56), decode (R84 to R86), then `k` in the state after the fetch. A
group that is not ready leaves the state as it is. The words fetched are the instruction that the group executes: where
they spell another, this command is not its next instruction and nothing happens; where OP or FN is reserved, as in an
extension word reached as a first word or in an all-zero word, it takes the fault 0x02 (R74, R80, R84; log entry 47). LANES
of a fetch, decode or control fault is A, and a word whose fetch failed is shown as 0 (log entry 95). -/
def issue (s : State) (r : GroupRef) (e : Enc) (i : Ins) (k : State → Group → Launch → Res) : Res :=
  match Map.find? s.groups (refKey r) with
  | none => s.idle "no group holds this slot"
  | some g =>
    match Map.find? s.launches g.launch with
    | none => s.idle "the group has no launch"
    | some l =>
      if g.stat != .run || l.phase != .running || s.hung.contains r.core.toNat || s.tripped ||
          s.arriving r.core.toNat g.launch then .next s
      else if g.pc.toNat % 8 != 0 then .next (s.fatal r g l ⟨0x0A, g.act, g.pc.toNat⟩ 0 0)
      else
        match s.fetchInsn r.core.toNat l.ctx g.pc.toNat with
        | .walk va w0 => .next (s.awaitWalk r g l.ctx true false false va g.act w0 0)
        | .space va w0 => .next (s.fatal r g l ⟨0x0B, g.act, va⟩ w0 0)
        | .wait => .next s
        | .got t w0 w1 (some va) => .next (t.fatal r g l ⟨0x0E, g.act, va⟩ w0 w1)
        | .got t w0 w1 none =>
          if w0 = encWord i.op i.fn e ∧ w1 = encHi e then
            match i.code with
            | some c => .next (t.fatal r g l ⟨c, g.act, 0⟩ w0 w1)
            | none => if i.sregs.any (fun x => g.sbusy.contains x) then .next t else k t g l
          else if (decodeWords r w0 w1).isNone then .next (t.fatal r g l ⟨0x02, g.act, 0⟩ w0 w1)
          else s.idle "the group's next instruction is another"

/-- End an instruction: the group with its effects at the next instruction. -/
def State.finish (s : State) (r : GroupRef) (e : Enc) (g : Group) : Res := .next (s.putGroup r (g.advance e))

/-- Raise a fatal fault at this instruction. -/
def raise (s : State) (r : GroupRef) (e : Enc) (i : Ins) (g : Group) (l : Launch) (code : Nat) (lanes : Half)
    (addr : Nat) : Res :=
  .next (s.fatal r g l ⟨code, lanes, addr⟩ (encWord i.op i.fn e) (encHi e))

/-- A vector or scalar source is poisoned in a lane that the instruction uses (R352). -/
def srcPoison (g : Group) (vregs : List Nat) (m : Half) (sregs : List Nat) : Half :=
  if sregs.any (fun x => g.spois.contains x) then g.act
  else maskOf ((lanesOf m).filter (fun i => vregs.any (fun x => g.vpois.contains (x * 32 + i))))

/-- The origin of a command that a group issues (R62). -/
def originOf (r : GroupRef) (g : Group) (l : Launch) (e : Enc) (i : Ins) : Origin :=
  ⟨some g.launch, l.ctx, l.part, r.core.toNat, r.slot.toNat, g.index, g.pc.toNat, encWord i.op i.fn e, encHi e, l.queue, l.seq⟩

/-- The launch that a command comes from. -/
def State.ownOf (s : State) (o : Origin) : Option Launch := o.launch.bind (Map.find? s.launches)

/-- The seed of a command (R95): of its launch, or of its context's record (R258). -/
def State.seed (s : State) (o : Origin) : Word :=
  match s.ownOf o, s.record o.ctx with
  | some l, _ => l.seed
  | none, some c => c.seed
  | none, none => 0

/-- The host-memory domain of a command (R304), with the PASID of its launch or of its context's record (R258). -/
def State.orgDom (s : State) (o : Origin) : Nat :=
  hostDom (s.siteOf (s.ctxOwner o.ctx)) (fnOf (s.ctxOwner o.ctx)) (some (match s.ownOf o with | some l => l.pasid | none => s.pasid o.ctx))

end Sys2Proof.Machine
end

