-- ==== Sys2Proof/Machine/Access.lean ====
section
/-! DEFINITION. A group's own accesses to a pool or to Shared (R81, R156, R197, R198, R218): the checks of every lane, the
lanes named by the lowest code (R72), the walk to wait for, and the coherence transaction. -/

namespace Sys2Proof.Machine

/-- The full translation of a context's address, without a TLB (R238). A launch keeps the root that its context's record had
when it was placed (R258). -/
def State.walkVa (s : State) (own : Option Launch) (die ctx va n : Nat) (need : Need) : Except XFault Xlat :=
  match own with
  | some l => s.translate die l.part ctx l.root va n need
  | none =>
    match s.recordE ctx with
    | .error f => .error f
    | .ok none => .error ⟨1, 1, 2, 0, 0, 0⟩
    | .ok (some c) => s.translate die c.part ctx (fld c.w0.toNat 51 16) va n need

/-- One lane's access: lane number and address. -/
abbrev LaneAcc := Nat × Nat

/-- What one lane's address gives in Shared: a look-up, or on a miss what the walk would give. -/
structure LaneLook where
  lane : Nat
  addr : Nat
  look : Look
  fails : Bool
  space : Bool
  deriving DecidableEq, Repr

/-- Look up one lane's Shared access. -/
def State.laneLook (s : State) (core n : Nat) (l : Launch) (need : Need) (x : LaneAcc) : LaneLook :=
  let lk := s.look core l.ctx x.2 n need
  match lk with
  | .walk =>
    match s.walkVa (some l) (coreDie core) l.ctx x.2 n need with
    | .ok t => ⟨x.1, x.2, lk, false, spaceOf t.dpa != 1⟩
    | .error _ => ⟨x.1, x.2, lk, true, false⟩
  | .space => ⟨x.1, x.2, lk, false, true⟩
  | .ok _ _ => ⟨x.1, x.2, lk, false, false⟩

/-- A lane's bytes once every check has passed. -/
structure LaneBytes where
  lane : Nat
  addr : Nat
  dpa  : Nat
  locs : List Loc
  deriving DecidableEq, Repr

/-- The bytes of a lane whose look-up answers. -/
def LaneLook.bytes (x : LaneLook) : Option LaneBytes :=
  match x.look with
  | .ok dpa locs => some ⟨x.lane, x.addr, dpa, locs⟩
  | _ => none

/-- A launch has issued an RMO, an ATOM at .dev or .sys scope, a reduce-on-write, a BUCKET command or a write to the host
window (R376). -/
def State.noteUnreplayable (s : State) (launch : Nat) : State :=
  { s with launches := Map.modify s.launches launch (fun l => { l with fixed := true }) }

/-- The lines and sectors of Shared that lanes touch. -/
def sharedLines (bs : List LaneBytes) (n : Nat) : List Nat := (bs.flatMap (fun b => linesOf (fld b.dpa 29 0) n)).dedup
/-- Sectors of one line that lanes touch. -/
def laneSecs (bs : List LaneBytes) (n line : Nat) : BitVec 4 :=
  bs.foldl (fun d b => d ||| secsOf line (fld b.dpa 29 0) n) 0

/-- How an access takes part in coherence: a load, a store, an atomic in the L1, or an atomic at the home (R218). -/
inductive CohUse where | load | store | home
  deriving DecidableEq, Repr

/-- The coherence transaction of a group's access; none while a line is in flight. -/
def State.cohAccess (s : State) (u : CohUse) (cache : Nat) (bs : List LaneBytes) (n : Nat) : Option State :=
  overLines (fun t line =>
    match u with
    | .load => t.cohRead cache line
    | .store => t.cohWrite cache line (laneSecs bs n line)
    | .home => t.cohRecall line (laneSecs bs n line)) (sharedLines bs n) s

/-- An access of a line goes to the line's home: the L1 does not hold the line as it needs it (R218). -/
def State.needsHome (s : State) (u : CohUse) (cache line : Nat) : Bool :=
  match u, s.l1 cache line with
  | .load, some _ => false
  | .store, some x => x.st == .s || x.st == .o
  | _, _ => true

/-- A lane's bytes cannot be reached, and its L1 alone cannot serve it (R17, R18). -/
def State.laneDown (s : State) (u : CohUse) (cache n : Nat) (b : LaneBytes) : Bool :=
  let ls := linesOf (fld b.dpa 29 0) n
  (s.unreachable b.dpa b.locs || (u != .home && ls.any s.lineGone)) && ls.any (s.needsHome u cache)

/-- Lanes of an access that consume poison, or whose bytes cannot be reached (R18, R352): those whose registers are poisoned,
and, for an access that reads, those whose bytes are. -/
def State.consuming (s : State) (u : CohUse) (cache n : Nat) (reads : Bool) (bad : Half) (bs : List LaneBytes) : Half :=
  bad ||| maskOf ((bs.filter (fun b => (reads && (s.readLocs 0 b.locs).2) || (b.addr != b.dpa && s.laneDown u cache n b))).map
    (fun b => b.lane))

/-- A group's access of n bytes in each of the given lanes: checks, then `k` with each lane's bytes. An access that has
to wait leaves the state as it is. `bad` holds the lanes with a poisoned register among those they use; a lane whose
address is poisoned is not in `xs`. A fault names the lanes that raised the lowest code (R72); of a scalar instruction,
every active lane. -/
def access (s : State) (r : GroupRef) (e : Enc) (i : Ins) (g : Group) (l : Launch) (spc : Bool) (need : Need) (u : CohUse)
    (writes reads scalar : Bool) (n : Nat) (bad : Half) (xs : List LaneAcc) (k : State → List LaneBytes → Res) : Res :=
  let core := r.core.toNat
  let cache := cacheOf core r.slot.toNat
  let mis := xs.filter (fun x => x.2 % n != 0)
  let lanes := fun (ys : List LaneAcc) => if scalar then g.act else maskOf (ys.map (fun y => y.1))
  let fst := fun (ys : List LaneAcc) => (ys.head?.map (fun y => y.2)).getD 0
  let poison := fun (m : Half) =>
    raise s r e i g l 0x0E (if scalar then g.act else m)
      (if bad.getLsbD (lowLane m) then 0 else ((xs.find? (fun x => x.1 == lowLane m)).map (fun x => x.2)).getD 0)
  if !mis.isEmpty then raise s r e i g l 0x0A (lanes mis) (fst mis)
  else if !spc then
    let out := xs.filter (fun x => x.2 + n > poolSize core)
    let bs := xs.map (fun x => (⟨x.1, x.2, x.2, poolLocs core x.2 n⟩ : LaneBytes))
    if !out.isEmpty then raise s r e i g l 0x0C (lanes out) (fst out)
    else if s.consuming u cache n false bad bs != 0 then poison (s.consuming u cache n reads bad bs)
    else if s.poolHeld core (xs.map (fun x => ((x.2, n), writes))) then .next s
    else if s.consuming u cache n reads bad bs != 0 then poison (s.consuming u cache n reads bad bs)
    else k s bs
  else
    let ls := xs.map (s.laneLook core n l need)
    let sp := (ls.filter (fun x => x.space)).map (fun x => (x.lane, x.addr))
    let fl := (ls.filter (fun x => x.fails)).map (fun x => (x.lane, x.addr))
    let ms := (ls.filter (fun x => x.look == .walk)).map (fun x => (x.lane, x.addr))
    let wait := fun (ys : List LaneAcc) =>
      Host.Outcome.next (s.awaitWalk r g l.ctx false need.w need.a (fst ys) (lanes ys) (encWord i.op i.fn e) (encHi e))
    if !sp.isEmpty then raise s r e i g l 0x0B (lanes sp) (fst sp)
    else if !fl.isEmpty then wait fl
    else if !ms.isEmpty then wait ms
    else
      let bs := ls.filterMap LaneLook.bytes
      if bs.any (fun b => b.locs.any s.inRepair) then .next s
      else if s.consuming u cache n reads bad bs != 0 then poison (s.consuming u cache n reads bad bs)
      else
        match s.cohAccess u cache bs n with
        | none => .next s
        | some t => k (xs.foldl (fun (t : State) x => t.touch core (coreDie core) l.ctx x.2 need) t) bs

/-- Write the bytes of lanes as one write, the highest lane last (R156, R354). -/
def State.writeLanes (s : State) (bs : List LaneBytes) (val : LaneBytes → List Byte) : State :=
  s.writeLocs 0 (bs.flatMap (fun b => b.locs)) (bs.flatMap val)

end Sys2Proof.Machine
end

