-- ==== Sys2Proof/Machine/Codec.lean ====
section
/-! DEFINITION. The zero-run codec (R133, R134), packing of elements (R89), and the fields and geometry of a DMA
descriptor (Table 10-1, R162). -/

namespace Sys2Proof.Machine

/-- Element i of packed elements of w bits (R89). -/
def packed (w n i : Nat) : Nat := fld n (i * w + w - 1) (i * w)
/-- Pack elements of w bits (R89). -/
def packAll (w : Nat) : List Nat → Nat
  | [] => 0
  | x :: xs => x % 2 ^ w + 2 ^ w * packAll w xs

/-! ### Zero-run codec -/

/-- Decode tokens to `want` granules of 32 B; none on a codec error, or where the bytes run out. -/
def zrDecode : Nat → Nat → List Byte → Option (List Byte)
  | _, 0, _ => some []
  | 0, _, _ => none
  | f + 1, want, bs =>
    match bs with
    | [] => none
    | t :: rest =>
      let n := t.toNat % 128 + 1
      if n > want then none
      else if t.toNat ≥ 128 then (zrDecode f (want - n) rest).map (fun r => List.replicate (32 * n) 0#8 ++ r)
      else if rest.length < 32 * n then none
      else (zrDecode f (want - n) (rest.drop (32 * n))).map (fun r => rest.take (32 * n) ++ r)

/-- Bytes that the decoder uses for `want` granules, and whether the coded bytes end before they are decoded (R134). -/
def zrUsed : Nat → Nat → List Byte → Nat × Bool
  | _, 0, _ => (0, false)
  | 0, _, _ => (0, false)
  | _ + 1, _, [] => (0, true)
  | f + 1, want, t :: rest =>
    let n := t.toNat % 128 + 1
    if n > want then (1, false)
    else if t.toNat ≥ 128 then
      let r := zrUsed f (want - n) rest
      (r.1 + 1, r.2)
    else if rest.length < 32 * n then (rest.length + 1, true)
    else
      let r := zrUsed f (want - n) (rest.drop (32 * n))
      (r.1 + 1 + 32 * n, r.2)

/-- The most bytes that a row of L bytes codes to (R133). -/
def codedMax (l : Nat) : Nat := l + ceilDiv l 4096

/-- Split bytes into granules of 32 B. -/
def granules : Nat → List Byte → List (List Byte)
  | 0, _ => []
  | n + 1, bs => bs.take 32 :: granules n (bs.drop 32)

/-- The length of the leading run of granules that are all zero, or all not (R134). -/
def runLen (z : Bool) : List (List Byte) → Nat
  | [] => 0
  | g :: gs => if (g.all (· == 0#8)) == z then runLen z gs + 1 else 0

/-- Encode granules: runs as long as possible, split at 128 (R134). -/
def zrEncode : Nat → List (List Byte) → List Byte
  | 0, _ => []
  | _, [] => []
  | f + 1, g :: gs =>
    let z := g.all (· == 0#8)
    let n := min 128 (runLen z (g :: gs))
    if z then BitVec.ofNat 8 (128 + n - 1) :: zrEncode f ((g :: gs).drop n)
    else BitVec.ofNat 8 (n - 1) :: (((g :: gs).take n).flatten ++ zrEncode f ((g :: gs).drop n))

/-! ### The descriptor (Table 10-1) -/

/-- Bits of word w of a descriptor. -/
def dF (d : List Word) (w hi lo : Nat) : Nat := fld (d.getD w 0).toNat hi lo
def dSV (d : List Word) : Bool := dF d 0 63 63 == 1
def dDV (d : List Word) : Bool := dF d 1 63 63 == 1
def dSwrap (d : List Word) : Nat := dF d 0 62 58
def dDwrap (d : List Word) : Nat := dF d 1 62 58
def dSrc (d : List Word) : Nat := dF d 0 47 0
def dDst (d : List Word) : Nat := dF d 1 47 0
def dLen (d : List Word) : Nat := dF d 2 63 48 + 1
def dC1 (d : List Word) : Nat := dF d 2 47 32 + 1
def dC2 (d : List Word) : Nat := dF d 2 31 20 + 1
def dC3 (d : List Word) : Nat := dF d 2 19 10 + 1
def dC4 (d : List Word) : Nat := dF d 2 9 0 + 1
/-- Source stride of dimension k, signed. -/
def dSstr (d : List Word) (k : Nat) : Int := toSigned 32 (dF d (2 + k) 63 32)
/-- Destination stride of dimension k. -/
def dDstr (d : List Word) (k : Nat) : Int := toSigned 32 (dF d (2 + k) 31 0)
def dStype (d : List Word) : Nat := dF d 7 63 59
def dDtype (d : List Word) : Nat := dF d 7 58 54
def dRM (d : List Word) : Nat := dF d 7 53 52
def dSAT (d : List Word) : Bool := dF d 7 51 51 == 1
def dRed (d : List Word) : Bool := dF d 7 50 50 == 1
def dCodec (d : List Word) : Nat := dF d 7 49 47
def dSige (d : List Word) : Bool := dF d 7 46 46 == 1
/-- Pool offset of the status block. -/
def dStat (d : List Word) : Nat := dF d 7 45 25 * 16
def dAux (d : List Word) : Nat := dF d 7 24 0

/-- Bytes of a row of LEN elements of a type. -/
def typeRow (t len : Nat) : Nat := if t == 0x10 then len / 32 * 48 else len * typeBits t / 8
/-- Source and destination bytes of a row. -/
def dSrcBytes (d : List Word) : Nat := typeRow (dStype d) (dLen d)
def dDstBytes (d : List Word) : Nat := typeRow (dDtype d) (dLen d)

/-- Conversion to or from an MX type (R165). -/
def dMx (d : List Word) : Bool := dStype d != dDtype d && (isMx (dStype d) || isMx (dDtype d))

/-- Counters e1 to e4 of row n (R162). -/
def dE (d : List Word) (n k : Nat) : Nat :=
  if k == 1 then n % dC1 d else if k == 2 then n / dC1 d % dC2 d
  else if k == 3 then n / (dC1 d * dC2 d) % dC3 d else n / (dC1 d * dC2 d * dC3 d)

/-- Source offset of row n by its counters. -/
def dSoff (d : List Word) (n : Nat) : Int :=
  (dE d n 1 : Int) * dSstr d 1 + (dE d n 2 : Int) * dSstr d 2 + (dE d n 3 : Int) * dSstr d 3 + (dE d n 4 : Int) * dSstr d 4
/-- Destination offset of row n from dimensions 2 to 4. -/
def dDtail (d : List Word) (n : Nat) : Int :=
  (dE d n 2 : Int) * dDstr d 2 + (dE d n 3 : Int) * dDstr d 3 + (dE d n 4 : Int) * dDstr d 4
/-- Destination offset of row n. -/
def dDoff (d : List Word) (n : Nat) : Int := (dE d n 1 : Int) * dDstr d 1 + dDtail d n

/-- Base plus a wrapped offset (R162). -/
def wrapAddr (base : Nat) (off : Int) (wrap : Nat) : Nat :=
  if wrap == 0 then ofSigned 64 (base + off) else base + ofSigned wrap off

/-- Addresses of n source bytes from a source offset. -/
def srcAddrs (d : List Word) (off : Int) (n : Nat) : List Nat :=
  (List.range n).map (fun (k : Nat) => wrapAddr (dSrc d) (off + (k : Int)) (dSwrap d))
/-- Addresses of n destination bytes from a destination offset. -/
def dstAddrs (d : List Word) (off : Int) (n : Nat) : List Nat :=
  (List.range n).map (fun (k : Nat) => wrapAddr (dDst d) (off + (k : Int)) (dDwrap d))

/-- Destination addresses of row n of an XPOSE (Table 10-2). -/
def xposeAddrs (d : List Word) (n : Nat) : List Nat :=
  let w := typeBits (dDtype d) / 8
  (List.range (dLen d)).flatMap (fun (e0 : Nat) =>
    dstAddrs d ((e0 : Int) * dDstr d 1 + ((dE d n 1 * w : Nat) : Int) + dDtail d n) w)

/-- Kinds with an index list: GATHER, SCATTER, NARROW. -/
def indexed (kind : Nat) : Bool := kind == 1 || kind == 2 || kind == 4

/-- Rows of a command that the descriptor alone fixes. -/
def dRows (d : List Word) : Nat := dC1 d * dC2 d * dC3 d * dC4 d

/-- A descriptor breaks R161 to R169, whatever memory holds (Table 10-3, status 0x0A). -/
def descBad (kind : Nat) (pkt : Bool) (d : List Word) : Bool :=
  let s := dStype d
  let t := dDtype d
  let wrapBad := fun (w : Nat) => !(w == 0 || (9 ≤ w && w ≤ 30))
  let some0 := fun (l : List Int) => l.any (fun x => x != 0)
  let counts := [dC2 d, dC3 d, dC4 d]
  dF d 0 57 48 != 0 || dF d 1 57 48 != 0 || wrapBad (dSwrap d) || wrapBad (dDwrap d) || dCodec d > 3 || dRM d == 3 ||
    s > 0x10 || t > 0x10 || (!dSV d && dSrc d ≥ 2 ^ 25) || (!dDV d && dDst d ≥ 2 ^ 25) ||
    (dCodec d != 3 && ((s != 0x10 && dLen d * typeBits s % 8 != 0) || (t != 0x10 && dLen d * typeBits t % 8 != 0) ||
      ((s == 0x10 || t == 0x10) && dLen d % 32 != 0))) ||
    (s != t && !cvtPair s t) ||
    (dMx d && (dLen d % 32 != 0 || kind != 0 || (isMx s && dSV d) || (isMx t && dDV d))) ||
    (dRed d && (!(t == 4 || t == 5) || dDstBytes d > 4096 || dCodec d == 2)) ||
    (dCodec d != 0 && kind != 0) ||
    (!indexed kind && kind != 5 && !dMx d && dCodec d != 3 && dAux d != 0) ||
    (dCodec d == 1 && dSrcBytes d % 32 != 0) || (dCodec d == 2 && dDstBytes d % 32 != 0) ||
    (dCodec d == 3 && (dDV d || dF d 2 63 0 != 0 || some0 [dSstr d 2, dSstr d 3, dSstr d 4, dDstr d 2, dDstr d 3, dDstr d 4] ||
      s != t || dRed d || dSwrap d != 0 || dDwrap d != 0)) ||
    ((kind == 1 || kind == 4) && some0 [dSstr d 2, dSstr d 3, dSstr d 4]) ||
    (kind == 2 && some0 [dDstr d 2, dDstr d 3, dDstr d 4]) ||
    (kind == 3 && (s != t || !(typeBits s == 8 || typeBits s == 16 || typeBits s == 32) || dRed d)) ||
    (kind == 4 && (!dSV d || dDV d || s != t || dSrcBytes d % 32 != 0 || dSrcBytes d > 4096)) ||
    (kind == 5 && (!dDV d || dDst d % 32 != 0 || counts.any (· != 1) || s != t || dRed d || dDwrap d != 0 ||
      some0 [dSstr d 2, dSstr d 3, dSstr d 4, dDstr d 1, dDstr d 2, dDstr d 3, dDstr d 4])) ||
    (pkt && (!dSV d || !dDV d || dF d 7 46 25 != 0))

end Sys2Proof.Machine
end

