-- ==== Sys2Proof/Machine/Matrix.lean ====
section
/-! DEFINITION. The matrix engine (chapter 7): the arithmetic of MMA (R99 to R104, R112 to R114, R128 to R130), the
commands MMA, MZERO and MDRAIN with their order (R117), the holder of the engine (R120, R121), the residue check (R127),
and the fragment instructions (R125). -/

namespace Sys2Proof.Machine

/-! ### Accumulator sets -/

/-- Rows M of the array a core addresses (R107). -/
def mtxRows (core : Nat) : Nat := if core < 1024 then 16 else 64
/-- Columns N. -/
def mtxCols (core : Nat) : Nat := if core < 1024 then 64 else 128

/-- The key of an accumulator element (R25, R107). -/
def accKey (core arr set i j : Nat) : Nat :=
  if core < 1024 then ((core * 2 + arr) * 2 + set) * 1024 + i * 64 + j
  else (((core % 1024 * 8 + i / 16) * 2 + j / 64) * 2 + set) * 1024 + i % 16 * 64 + j % 64

/-- The physical sets that a set of a core consists of, as array · 2 + set (R25). -/
def physSets (core arr set : Nat) : List Nat :=
  if core < 1024 then [(core * 2 + arr) * 2 + set]
  else (List.range 8).map (fun x => (core % 1024 * 16 + x) * 2 + set)

/-- Every physical set of a core (R121). -/
def coreSets (core : Nat) : List Nat :=
  if core < 1024 then (List.range 4).map (fun x => core * 4 + x)
  else (List.range 16).map (fun x => core % 1024 * 32 + x)

/-- Set the elements of physical sets to +0. -/
def State.zeroSets (s : State) (ps : List Nat) : State := { s with acc := Map.keep s.acc (fun k => !ps.contains (k / 1024)) }

/-- Physical sets are written by a launch of a context (R121); they are live from now on (R122). -/
def State.noteSets (s : State) (ps : List Nat) (launch : Option Nat) (ctx : Nat) : State :=
  { s with
    accCtx := ps.foldl (fun m p => Map.put m p ctx) s.accCtx
    launches := Map.modify s.launches (launch.getD 0) (fun l =>
      if launch.isSome then { l with live := ps.foldl NSet.ins l.live } else l) }

/-- A launch takes the matrix engine of a core: sets that another context wrote are set to +0 (R120, R121). -/
def State.takeEngine (s : State) (core launch ctx : Nat) : State :=
  match Map.find? s.mtxHolder core with
  | some _ => s
  | none =>
    let ps := (coreSets core).filter (fun p => match Map.find? s.accCtx p with | some c => c != ctx | none => false)
    let s := s.zeroSets ps
    { s with
      mtxHolder := Map.put s.mtxHolder core launch
      accCtx := Map.keep s.accCtx (fun k => !ps.contains k) }

/-! ### Operand values -/

/-- The value of an element: MX under its scale, a float, or an integer. -/
def elemVal (t scale bits : Nat) : FVal :=
  if isMx t then mxDecode t scale bits
  else match fmtOf t, intOf t with
    | some f, _ => f.decode bits
    | none, some (w, sg) => .fin (decide (intVal w sg bits < 0)) (intVal w sg bits).natAbs 0
    | none, none => .nan

/-- A read of an MMA: pool offset, length, and the logical columns that use it. -/
structure MtxRead where
  off  : Nat
  len  : Nat
  cols : Nat
  deriving DecidableEq, Repr

/-- k values in block b. -/
def blockK (k b : Nat) : Nat := min 32 (k - 32 * b)
/-- Number of k-blocks. -/
def blocksOf (t : BitVec 128) : Nat := ceilDiv (tdK t) 32

/-- Offset in a row and bytes of one k-block of a row (R109, R101). -/
def blockBytes (t : BitVec 128) (sp b : Nat) : Nat × Nat :=
  if tdType t == 0x10 then
    let n := if sp == 1 then 40 else if sp == 2 then 36 else 48
    (b * n, n)
  else
    let full := storedK 32 sp * typeBits (tdType t) / 8
    (b * full, ceilDiv (storedK (blockK (tdK t) b) sp * typeBits (tdType t)) 8)

/-- Metadata bytes of one k-block. -/
def blockMeta (sp : Nat) : Nat := if sp == 1 then 4 else if sp == 2 then 2 else 0

/-- The reads of block b of row r: elements, scale byte, metadata. -/
def blockReads (t : BitVec 128) (sp r b cols : Nat) : List MtxRead :=
  let (o, n) := blockBytes t sp b
  [⟨tdBase t + r * tdStride t + o, n, cols⟩] ++
    (if isMx (tdType t) then [⟨tdScale t + r * (tdK t / 32) + b, 1, cols⟩] else []) ++
    (if sp != 0 then [⟨tdMeta t + r * metaBytes t sp + b * blockMeta sp, blockMeta sp, cols⟩] else [])

/-- A pool value. -/
def State.poolNum (s : State) (core off n : Nat) : Nat := ofLe (s.poolRead core off n).1

/-- The stored values of block b of row r, in stored order. -/
def State.storedVals (s : State) (core : Nat) (t : BitVec 128) (sp r b : Nat) : List FVal :=
  let (o, n) := blockBytes t sp b
  let x := s.poolNum core (tdBase t + r * tdStride t + o) n
  let ty := tdType t
  if ty == 0x10 then
    (List.range (storedK 32 sp)).map (fun i => fmtBF16.decode (packed 16 x (packed 4 (x / 2 ^ 256) i)))
  else
    let sc := if isMx ty then s.poolNum core (tdScale t + r * (tdK t / 32) + b) 1 else 0
    (List.range (storedK (blockK (tdK t) b) sp)).map (fun i => elemVal ty sc (packed (typeBits ty) x i))

/-- The position in its block of stored element i, from the block's metadata (R128 to R130). -/
def metaPos (sp m i : Nat) : Nat :=
  if sp == 1 then
    let e := packed 4 m (i / 2)
    4 * (i / 2) + (if i % 2 == 0 then e % 4 else (e % 4 + 1 + e / 4) % 4)
  else if sp == 2 then 4 * i + packed 2 m i
  else i

/-- The terms of a weight block: position and value, with exact zeros where nothing is stored (R113). -/
def State.weightBlock (s : State) (core : Nat) (t : BitVec 128) (sp r b : Nat) : List (Nat × FVal) :=
  let vs := s.storedVals core t sp r b
  let m := if sp == 0 then 0 else s.poolNum core (tdMeta t + r * metaBytes t sp + b * blockMeta sp) (blockMeta sp)
  let ts := (List.range vs.length).map (fun i => (metaPos sp m i, vs.getD i .nan))
  ts ++ ((List.range (blockK (tdK t) b)).filter (fun p => !(ts.any (fun x => x.1 == p)))).map (fun p => (p, .fin false 0 0))

/-- Bit b of row g of a block-skip bitmap (R114). -/
def State.blockPresent (s : State) (core : Nat) (tm : BitVec 128) (g b : Nat) : Bool :=
  bit (s.poolNum core (tdBase tm + g * tdStride tm + b / 8) 1) (b % 8)

/-- The exact sum S_b of a block, none where the accumulator stays unchanged (R103). -/
def blockSum (a : List FVal) (w : List (Nat × FVal)) : Option FVal :=
  if a.all FVal.isZero then none
  else
    let v := w.foldl (fun acc x => acc.add ((a.getD x.1 (.fin false 0 0)).mul x.2)) (.fin false 0 0)
    if v.isZero then none else some v

/-- One accumulate step: FP32 rounded to nearest even, or I32 wrapping (R102, R104). -/
def accStep (int : Bool) (acc : Nat) (v : FVal) : Nat :=
  if int then
    match v with
    | .fin n m e => (acc + ofSigned 32 (sInt n m e 0)) % 2 ^ 32
    | _ => acc
  else fmtF32.round 0 false (fun _ => 0) ((fmtF32.decode acc).add v)

/-! ### The commands -/

/-- SP, BS, CLR and SET of an MMA. -/
def MtxCmd.sp (c : MtxCmd) : Nat := encF c.enc 21 20
def MtxCmd.bs (c : MtxCmd) : Bool := encF c.enc 19 19 == 1
def MtxCmd.clr (c : MtxCmd) : Bool := encF c.enc 17 17 == 1
/-- An MMA on integer types. -/
def MtxCmd.int (c : MtxCmd) : Bool := isInt (encF c.enc 31 27)

/-- Block b of weight row j takes part (R114). -/
def State.mmaPresent (s : State) (c : MtxCmd) (j b : Nat) : Bool := !c.bs || s.blockPresent c.org.core c.tm (j / 32) b

/-- Every pool read of an MMA, with the columns it concerns. The activations of a k-block whose bitmap bits are all 0 are read
as well: only weights are named as not read (R114; DEDUCED, log entry 116). -/
def State.mmaReads (s : State) (c : MtxCmd) : List MtxRead :=
  let all := ones (tdRows c.tb)
  let nb := blocksOf c.ta
  (if c.bs then (List.range (ceilDiv (tdRows c.tb) 32)).map (fun g =>
      (⟨tdBase c.tm + g * tdStride c.tm, ceilDiv nb 8, all &&& (ones 32 * 2 ^ (32 * g))⟩ : MtxRead)) else []) ++
  (List.range (tdRows c.ta)).flatMap (fun i => (List.range nb).flatMap (fun b => blockReads c.ta 0 i b all)) ++
  (List.range (tdRows c.tb)).flatMap (fun j => ((List.range nb).filter (s.mmaPresent c j)).flatMap (fun b =>
    blockReads c.tb c.sp j b (2 ^ j)))

/-- The poisoned reads of an MMA. -/
def State.mmaPoison (s : State) (c : MtxCmd) : List MtxRead :=
  (s.mmaReads c).filter (fun r => (s.poolRead c.org.core r.off r.len).2)

/-- Element (i, j) after an MMA, from its value before (R112). -/
def State.mmaElem (s : State) (c : MtxCmd) (i j acc : Nat) : Nat :=
  ((List.range (blocksOf c.ta)).filter (s.mmaPresent c j)).foldl (fun a b =>
    match blockSum (s.storedVals c.org.core c.ta 0 i b) (s.weightBlock c.org.core c.tb c.sp j b) with
    | some v => accStep c.int a v
    | none => a) acc

/-- The value of an accumulator element. -/
def State.accAt (s : State) (core arr set i j : Nat) : Nat := (Map.getD s.acc (accKey core arr set i j) 0).toNat

/-- The effect of an MMA on its set (R112). -/
def State.mmaApply (s : State) (c : MtxCmd) : State :=
  let core := c.org.core
  let t := if c.clr then s.zeroSets (physSets core c.arr c.set) else s
  let t := (List.range (tdRows c.ta)).foldl (fun (t : State) i => (List.range (tdRows c.tb)).foldl (fun (t : State) j =>
    let v : Half := BitVec.ofNat 32 (s.mmaElem c i j (t.accAt core c.arr c.set i j))
    { t with acc := Map.putD t.acc (accKey core c.arr c.set i j) 0 v }) t) t
  t.noteSets (physSets core c.arr c.set) c.org.launch c.org.ctx

/-- Two commands on one array of one core. -/
def MtxCmd.sameArr (a b : MtxCmd) : Bool := a.org.core == b.org.core && a.arr == b.arr
/-- Two commands on one set. -/
def MtxCmd.sameSet (a b : MtxCmd) : Bool := a.sameArr b && a.set == b.set

/-- No earlier command of the array keeps a command from taking effect: commands of one set in issue order, but that an MMA
does not wait for the pool writes of a drain; MMAs of the array one at a time (R117). -/
def State.mtxFirst (s : State) (c : MtxCmd) : Bool :=
  !s.mtx.any (fun o => o.id < c.id && ((o.sameSet c && !(o.kind == .mdrain && c.kind == .mma)) ||
    (o.sameArr c && o.kind == .mma && c.kind == .mma)))

/-- The drains of the set that were issued before an MMA have read it, and keep what they read (R117). -/
def State.readDrains (s : State) (c : MtxCmd) : State :=
  let ps := physSets c.org.core c.arr c.set
  { s with mtx := s.mtx.map (fun (o : MtxCmd) =>
      if o.id < c.id && o.sameSet c && o.kind == .mdrain && o.read.isNone then
        { o with read := some (Map.keep s.acc (fun k => ps.contains (k / 1024))) }
      else o) }

/-- Take a command out. -/
def State.dropMtx (s : State) (id : Nat) : State := { s with mtx := s.mtx.filter (fun c => c.id != id) }

/-- Take an MZERO out. -/
def State.dropZero (s : State) (c : MtxCmd) : State := { s with mtx := s.mtx.erase c }

/-- MZERO commands that stand first on their set take effect (R117, R118). -/
def State.runZeros (s : State) : Nat → State
  | 0 => s
  | n + 1 =>
    match s.mtx.find? (fun c => c.kind == .mzero && s.mtxFirst c) with
    | none => s
    | some c =>
      let ps := physSets c.org.core c.arr c.set
      State.runZeros ((s.dropZero c).zeroSets ps |>.noteSets ps c.org.launch c.org.ctx) n

/-- The matrix command record (Table 07-4). -/
def mtxRecord (c : MtxCmd) (code cols addr time : Nat) : List Word :=
  [ BitVec.ofNat 64 (0x03 * 2 ^ 56 + code * 2 ^ 48 + c.set * 2 ^ 41 + c.org.slot * 2 ^ 33 + c.org.core * 2 ^ 22 +
      c.arr * 2 ^ 21 + c.org.ctx),
    BitVec.ofNat 64 c.org.pc, BitVec.ofNat 64 cols, BitVec.ofNat 64 (cols / 2 ^ 64), c.org.w0, BitVec.ofNat 64 addr,
    BitVec.ofNat 64 (c.org.queue * 2 ^ 32 + c.org.seq), BitVec.ofNat 64 time ]

/-- A matrix command fails: its record, the launch's matrix commands discarded, the launch ended (R124). -/
def State.mtxFail (s : State) (c : MtxCmd) (code cols addr : Nat) : State :=
  let l := c.org.launch.getD 0
  let s := { s with mtx := s.mtx.filter (fun o => !(o.org.of l)) }
  let s := (s.post c.org.part (mtxRecord c code cols addr (s.dieTime (coreDie c.org.core)))).1.failLaunch l 2
  let s := if code == 1 then
      (s.ras_ { rasOf 0x03 2 (coreDie c.org.core) 0x03 c.org.core 1 with
        part := c.org.part, core := c.org.core, ctx := c.org.ctx }).failCtx c.org.ctx
    else s
  s.runZeros s.mtx.length

/-! ### Issue -/

/-- A solo instruction: with an empty effective mask it is not issued and has no effect (R62). A fault found at its issue
names the whole effective mask (log entry 95). -/
def runSolo (s : State) (r : GroupRef) (e : Enc) (i : Ins) (k : State → Group → Launch → Res) : Res :=
  issue s r e i (fun s g l => if effMask g e == 0 then s.finish r e g else k s g l)

/-- The lowest of the faults found (R72, R110). -/
def lowestFault (l : List (Option Nat)) : Option Nat :=
  l.foldl (fun a x =>
    match a, x with
    | some m, some n => some (min m n)
    | none, x => x
    | a, none => a) none

/-- The fault of a tracking descriptor, named by TS with TU = 1: of it only the valid bit is used (R64, R110, Table 04-5). -/
def trackFault (g : Group) (tu : Bool) (ts : Nat) : Option Nat := if tu && !tdValid (g.gt ts) then some 5 else none

/-- The fault of a condition on a valid descriptor. -/
def faultIf (t : BitVec 128) (b : Bool) : Option Nat := if tdValid t && b then some 4 else none

/-- A matrix command has to wait at its issue: the array holds eight, another launch holds the engine, or the range
scoreboard is full (R117, R120, R202). -/
def State.mtxWaits (s : State) (core launch arr : Nat) (kind : MtxKind) : Bool :=
  decide ((s.mtx.filter (fun c => c.org.core == core && c.arr == arr)).length ≥ 8) ||
    (match Map.find? s.mtxHolder core with | some h => h != launch | none => false) ||
    (kind != .mzero && !s.regFree core)

/-- Queue a matrix command whose checks passed (R117, R120, R202). -/
def queueMtx (s : State) (r : GroupRef) (e : Enc) (i : Ins) (g : Group) (l : Launch) (kind : MtxKind) (arr set : Nat)
    (ta tb tm : BitVec 128) : Res :=
  let core := r.core.toNat
  if s.mtxWaits core g.launch arr kind then .next s
  else
    let (id, s) := s.newId
    let s := s.takeEngine core g.launch l.ctx
    let c : MtxCmd := ⟨id, originOf r g l e i, kind, arr, set, e, ta, tb, tm, none⟩
    let s := { s with mtx := s.mtx ++ [c] }
    (s.runZeros s.mtx.length).finish r e g

/-- The metadata descriptor of an MMA, none without BS. -/
def mmaTM (h : Group) (e : Enc) : BitVec 128 := if encF e 19 19 == 1 then h.gt (encF e 37 34) else 0

/-- The fault of an MMA's descriptors (R110, R111, R114). -/
def mmaFault (h : Group) (e : Enc) (core : Nat) : Option Nat :=
  let ta := h.gt (encF e 45 42)
  let tb := h.gt (encF e 41 38)
  let tm := mmaTM h e
  lowestFault [tileFault ta (tdType ta == encF e 31 27) 0 false (poolSize core),
    tileFault tb (tdType tb == encF e 26 22) (encF e 21 20) false (poolSize core),
    faultIf ta (tdRows ta > mtxRows core), faultIf tb (tdRows tb > mtxCols core),
    if tdValid ta && tdValid tb && tdK ta != tdK tb then some 4 else none,
    if encF e 19 19 == 1 then
      lowestFault [tileFault tm (tdType tm == 1) 0 false (poolSize core),
        faultIf tm (tdValid tb && (tdRows tm < ceilDiv (tdRows tb) 32 || tdK tm < ceilDiv (blocksOf tb) 32))]
    else none]

/-- MMA (R112, R114). -/
def execMma (g : GroupRef) (e : Enc) (s : State) : Res :=
  let core := g.core.toNat
  let i : Ins := ⟨0x28, 0, decodeMma (coreKind core) e, []⟩
  runSolo s g e i (fun s h l =>
    if s.mtxWaits core h.launch (encF e 32 32) .mma then .next s
    else match mmaFault h e core with
    | some c => raise s g e i h l c (effMask h e) 0
    | none => queueMtx s g e i h l .mma (encF e 32 32) (encF e 33 33) (h.gt (encF e 45 42)) (h.gt (encF e 41 38)) (mmaTM h e))

/-- MZERO (R118). -/
def execMzero (g : GroupRef) (e : Enc) (s : State) : Res :=
  let i : Ins := ⟨0x29, 0, decodeTile 0 (coreKind g.core.toNat) e, []⟩
  runSolo s g e i (fun s h l => queueMtx s g e i h l .mzero (encF e 32 32) (encF e 33 33) 0 0 0)

/-- The fault of an MDRAIN's descriptor (R110, R119). -/
def drainFault (h : Group) (e : Enc) (core : Nat) : Option Nat :=
  let td := h.gt (encF e 45 42)
  lowestFault [tileFault td (tdType td == encF e 21 17) 0 true (poolSize core),
    faultIf td (tdRows td > mtxRows core), faultIf td (tdK td > mtxCols core)]

/-- MDRAIN (R119). -/
def execMdrain (g : GroupRef) (e : Enc) (s : State) : Res :=
  let core := g.core.toNat
  let i : Ins := ⟨0x29, 1, decodeTile 1 (coreKind core) e, []⟩
  runSolo s g e i (fun s h l =>
    if s.mtxWaits core h.launch (encF e 32 32) .mdrain then .next s
    else match drainFault h e core with
    | some c => raise s g e i h l c (effMask h e) 0
    | none => queueMtx s g e i h l .mdrain (encF e 32 32) (encF e 33 33) (h.gt (encF e 45 42)) 0 0)

/-! ### Completion -/

/-- MMA_COMPLETE (R117, R123, R124). A failing MMA leaves its set and the record of who wrote it as they were, also with
CLR = 1: the manual does not say what the set holds then (DESIGN CHOICE, log entry 117). -/
def execMmaComplete (id : Nat) (s : State) : Res :=
  s.clocked <|
  match s.mtx.find? (fun c => c.id == id && c.kind == .mma) with
  | none => s.idle "no such MMA"
  | some c =>
    if !s.mtxFirst c || s.cmdHeld c.org.core id c.ranges then s.idle "the MMA waits for earlier commands"
    else
      match s.mmaPoison c with
      | [] =>
        let s := ((s.readDrains c).mmaApply c).dropMtx id
        .next (s.runZeros s.mtx.length)
      | ps =>
        let cols := ps.foldl (fun a p => a ||| p.cols) 0
        let secs := ps.flatMap (fun p => (List.range p.len).filterMap (fun j =>
          if (s.poolRead c.org.core (p.off + j) 1).2 then some ((p.off + j) / 32 * 32) else none))
        .next (s.mtxFail c 1 cols (secs.foldl min (secs.headD 0)))

/-- T, RM and SAT of a drain. -/
def MtxCmd.drainT (c : MtxCmd) : Nat := encF c.enc 21 17
def MtxCmd.drainRM (c : MtxCmd) : Nat := encF c.enc 16 15
def MtxCmd.drainSAT (c : MtxCmd) : Bool := encF c.enc 14 14 == 1

/-- The draw for element (i, j) of a drain (Table 06-2). -/
def State.drainDraw (s : State) (c : MtxCmd) (i j : Nat) : Nat → Nat := draw (s.seed c.org) c.org.pc (i * 65536 + j)

/-- The pool bytes that row i of a drain writes: pool offset and bytes, elements then scales (R119). -/
def State.drainRow (s : State) (c : MtxCmd) (i : Nat) : List (Nat × List Byte) :=
  let t := c.drainT
  let k := tdK c.ta
  let v := fun j => (Map.getD (c.read.getD s.acc) (accKey c.org.core c.arr c.set i j) 0).toNat
  let at_ := tdBase c.ta + i * tdStride c.ta
  if isMx t then
    let bl := (List.range (k / 32)).map (fun b =>
      mxBlock t c.drainRM (fun j => s.drainDraw c i (32 * b + j)) ((List.range 32).map (fun j => fmtF32.decode (v (32 * b + j)))))
    [(at_, bl.flatMap (fun x => x.2.map (BitVec.ofNat 8))),
      (tdScale c.ta + i * (k / 32), bl.map (fun x => BitVec.ofNat 8 x.1))]
  else
    let conv := fun j =>
      if t == 4 then v j
      else if t == 9 then convert 0 9 0 c.drainSAT (fun _ => 0) (v j)
      else convert 4 t c.drainRM c.drainSAT (s.drainDraw c i j) (v j)
    [(at_, (List.range k).flatMap (fun j => leBytes (conv j) (typeBits t / 8)))]

/-- Failing physical columns of a drain as (slot, array, column): bit slot · 128 + array · 64 + column of the event's
operand, where the set has that column. -/
def drainBad (c : MtxCmd) (bad : BitVec 512) : List (Nat × Nat × Nat) :=
  (List.range 64).flatMap (fun col => (List.range 4).flatMap (fun slot => (List.range 2).filterMap (fun a =>
    if bad.getLsbD (slot * 128 + a * 64 + col) && (c.org.core ≥ 1024 || (c.org.core % 8 == slot && c.arr == a)) then
      some (slot, a, col) else none)))

/-- The logical columns of failing physical columns (COLS of Table 07-4). -/
def badCols (c : MtxCmd) (l : List (Nat × Nat × Nat)) : Nat :=
  l.foldl (fun m x => m ||| 2 ^ (if c.org.core < 1024 then x.2.2 else x.2.1 * 64 + x.2.2)) 0

/-- BSN_MTX_ERR takes the last mismatch (Table 07-6) and the RAS log an entry of class 0x07. COUNT advances once for a failing
drain, however many of its columns mismatch (DEDUCED, log entry 118). -/
def State.noteResidue (s : State) (c : MtxCmd) (x : Nat × Nat × Nat) : State :=
  let b := coreBasin c.org.core
  let n := satInc 8 (s.rf (.bsnMtxErr b) 31 24)
  let where_ := x.2.2 * 2 ^ 10 + c.set * 2 ^ 9 + x.2.1 * 2 ^ 8 + x.1 * 2
  (s.setReg (.bsnMtxErr b) (n * 2 ^ 24 + where_ + 1)).ras_
    { rasOf 0x07 2 (coreDie c.org.core) 0x03 c.org.core where_ with
      part := c.org.part, core := c.org.core, ctx := c.org.ctx }

/-- MDRAIN_COMPLETE: the residues are compared, then the bytes are written (R119, R123, R127). -/
def execMdrainComplete (id : Nat) (bad : BitVec 512) (s : State) : Res :=
  s.clocked <|
  match s.mtx.find? (fun c => c.id == id && c.kind == .mdrain) with
  | none => s.idle "no such MDRAIN"
  | some c =>
    if !s.mtxFirst c || s.cmdHeld c.org.core id c.ranges then
      s.idle "the MDRAIN waits for earlier commands"
    else
      match drainBad c bad with
      | [] =>
        let ws := (List.range (tdRows c.ta)).flatMap (s.drainRow c)
        let s := ws.foldl (fun (t : State) w => t.poolWrite c.org.core w.1 w.2) (s.dropMtx id)
        .next (s.runZeros s.mtx.length)
      | x :: xs => .next ((s.noteResidue c x).mtxFail c 2 (badCols c (x :: xs)) 0)

/-! ### Fragments (R125) -/

/-- Types a fragment accepts. -/
def fragType (t : Nat) : Bool := t ≤ 1 || (4 ≤ t && t ≤ 9)

/-- TD of the Frag format. -/
def fragTD (e : Enc) : Nat := encF e 33 30

/-- The fault of a fragment instruction at issue (R65, R110, R125). -/
def fragFault (h : Group) (e : Enc) (store : Bool) (pool : Nat) : Option Nat :=
  let t := h.gt (fragTD e)
  lowestFault [tileFault t (fragType (tdType t)) 0 store pool,
    if !h.spois.contains (encA e) && (h.gs (encA e)).toNat / 2 ^ 32 != 0 then some 4 else none,
    if h.act != 0xFFFFFFFF#32 then some 9 else none]

/-- The elements of a fragment inside its tile: lane, register, pool offset. -/
def fragElems (h : Group) (e : Enc) : List (Nat × Nat × Nat) :=
  let t := h.gt (fragTD e)
  let a := (h.gs (encA e)).toNat
  let w := typeBits (tdType t) / 8
  (List.range 32).flatMap (fun i => (List.range 4).filterMap (fun j =>
    let r := 32 * fld a 31 16 + i
    let c := 4 * fld a 15 0 + j
    if r < tdRows t && c < tdK t then some (i, j, tdBase t + r * tdStride t + c * w) else none))

/-- Bytes of one element of a fragment. -/
def fragBytes (h : Group) (e : Enc) : Nat := typeBits (tdType (h.gt (fragTD e))) / 8

/-- TLD.F (R125). -/
def execTldF (g : GroupRef) (e : Enc) (s : State) : Res :=
  let core := g.core.toNat
  let i : Ins := ⟨0x10, 0, decodeFrag e, [encA e]⟩
  issue s g e i (fun s h l =>
    match fragFault h e false (poolSize core) with
    | some c => raise s g e i h l c h.act 0
    | none =>
      if h.spois.contains (encA e) then raise s g e i h l 0x0E h.act 0
      else
        let xs := fragElems h e
        let n := fragBytes h e
        if s.poolHeld core (xs.map (fun x => ((x.2.2, n), false))) then .next s
        else
          let ps := xs.filter (fun x => (s.poolRead core x.2.2 n).2)
          if !ps.isEmpty then
            raise s g e i h l 0x0E (maskOf ((ps.map (fun x => x.1)).dedup)) ((ps.head?.map (fun x => x.2.2)).getD 0)
          else
            let h0 := (List.range 4).foldl (fun (h : Group) j => (List.range 32).foldl (fun h i => h.setV (encD e + j) i 0) h) h
            s.finish g e (xs.foldl (fun h x =>
              h.setV (encD e + x.2.1) x.1 (BitVec.ofNat 32 (s.poolNum core x.2.2 n))) h0))

/-- TST.F (R125). -/
def execTstF (g : GroupRef) (e : Enc) (s : State) : Res :=
  let core := g.core.toNat
  let i : Ins := ⟨0x11, 0, decodeFrag e, [encA e]⟩
  issue s g e i (fun s h l =>
    match fragFault h e true (poolSize core) with
    | some c => raise s g e i h l c h.act 0
    | none =>
      if h.spois.contains (encA e) then raise s g e i h l 0x0E h.act 0
      else
        let xs := fragElems h e
        let n := fragBytes h e
        let pm := maskOf ((xs.filter (fun x => h.vpois.contains ((encD e + x.2.1) * 32 + x.1))).map (fun x => x.1)).dedup
        if pm != 0 then raise s g e i h l 0x0E pm 0
        else if s.poolHeld core (xs.map (fun x => ((x.2.2, n), true))) then .next s
        else
          let t := s.writeLocs 0 (xs.flatMap (fun x => poolLocs core x.2.2 n))
            (xs.flatMap (fun x => leBytes (h.gv (encD e + x.2.1) x.1).toNat n))
          t.finish g e h)

end Sys2Proof.Machine
end

