-- ==== Sys2Proof/Machine/Dma.lean ====
section
/-! DEFINITION. The DMA engine (chapter 10): issue, the descriptor check (R170), rows with their translations, conversion,
reduce-on-write and codecs (R162 to R169), BUCKET (R141, R142), completion and records (R173 to R175). -/

namespace Sys2Proof.Machine

/-- Commands of one engine of a core (R24). -/
def State.engineCmds (s : State) (core chan : Nat) : List DmaCmd := s.dma.filter (fun c => c.org.core == core && c.chan == chan)

/-! ### Resolving addresses -/

/-- What stops a command or one of its rows: a status of Table 10-3, a fault of a translation, or a miss, for whose walk it waits
(R239). -/
inductive DmaStop where
  | status (code : Nat)
  | xlat (f : XFault) (va : Nat) (need : Need)
  | miss (va : Nat) (need : Need)
  deriving DecidableEq, Repr

/-- A side of a row, resolved: the locations of its bytes, the DPAs of bytes given by address, and an address in each page that
was looked up. -/
structure DmaSide where
  locs : List Loc
  dpas : List Nat
  pages : List (Nat × Need)
  deriving DecidableEq, Repr

/-- A side with nothing resolved. -/
def DmaSide.empty : DmaSide := ⟨[], [], []⟩

/-- Which space a side given by address may be in, by DPA: Table 03-2 with the narrow source (R51), a reduce-on-write
destination (R166), bucket rows (Table 08-4), the descriptor (R159), the issuing core's own pool or not, and the space of the
side's first page (R170). -/
structure SpaceRule where
  spaces : List Nat
  own    : Bool
  first  : Option Nat
  deriving DecidableEq, Repr

def anySpace : List Nat := [0, 1, 3]

/-- A DPA meets the rule. -/
def SpaceRule.ok (r : SpaceRule) (core dpa : Nat) : Bool :=
  (r.spaces.contains (spaceOf dpa) || (r.own && spaceOf dpa == 2 && fld dpa 35 25 == core)) &&
    (match r.first with | some x => x == spaceOf dpa | none => true)

/-- The rule for the bytes of a side after one at a DPA: they lie in the space of its first page (R170). -/
def SpaceRule.after (r : SpaceRule) (dpa : Nat) : SpaceRule := { r with first := r.first <|> some (spaceOf dpa) }

/-- The translation that serves a command's access: one walked for it, else one that its µTLB or its die's TLB holds (R240). -/
def State.dmaHeld (s : State) (c : DmaCmd) (va : Nat) (need : Need) : Option TlbEntry :=
  let die := coreDie c.org.core
  match c.looked.find? (s.serves die c.org.ctx va need) with
  | some e => some e
  | none => s.held (dmaUnit c.org.core c.chan) die c.org.ctx va need

/-- The DPA of a context's address: held, or a miss to walk (R239). An address beyond the 48 bits faults without a walk (R237). -/
def State.dmaLook (s : State) (c : DmaCmd) (va : Nat) (need : Need) : Except DmaStop Nat :=
  if va / 2 ^ 48 != 0 then .error (.xlat ⟨6, 1, 2, 0, 0, 0⟩ va need)
  else match s.dmaHeld c va need with
    | some e => .ok (e.at_ va)
    | none => .error (.miss va need)

/-- The pool of a core's basin is in a mode change: an access to it meets target-not-present (R30). -/
def State.poolChanging (s : State) (core : Nat) : Bool := (Map.find? s.modeChg (coreBasin core)).isSome

/-- The location of the byte at a DPA that a command's address gives, or what stops the row, the first of: an invalid DPA (R39,
R237), a space that the side may not be in (R37), a pool offset beyond the pool (R27), a target that is not present (R18,
R30). -/
def State.dmaByte (s : State) (c : DmaCmd) (rule : SpaceRule) (va dpa : Nat) (need : Need) : Except DmaStop Loc :=
  if !s.dpaValid dpa 1 then
    .error (.xlat (match s.walkVa (s.ownOf c.org) (coreDie c.org.core) c.org.ctx va 1 need with
      | .error f => f
      | .ok x => ⟨4, 2, 0, x.entry.ipa + va % 65536, 0, 0⟩) va need)
  else if !rule.ok c.org.core dpa then .error (.status 2)
  else match s.locate dpa with
    | none => .error (.status 1)
    | some l =>
      if s.unreachable dpa [l] || (l == .host (fld dpa 47 0) && !s.hostUp c.org.part) ||
          (spaceOf dpa == 2 && s.poolChanging c.org.core) then .error (.status 9)
      else .ok l

/-- Resolve bytes given by context address, page by page. `page` is the last page resolved and the DPA of its start. -/
def State.resolveVa (s : State) (c : DmaCmd) (need : Need) :
    SpaceRule → Option (Nat × Nat) → List Nat → Except (DmaStop × DmaSide) DmaSide
  | _, _, [] => .ok .empty
  | rule, page, va :: vas =>
    let here := match page with
      | some (p, d) => if va / 65536 == p && va / 2 ^ 48 == 0 then some d else none
      | none => none
    let found : Except DmaStop (Nat × List (Nat × Need)) :=
      match here with
      | some d => .ok (d + va % 65536, [])
      | none => (s.dmaLook c va need).map (fun x => (x, [(va, need)]))
    match found with
    | .error st => .error (st, .empty)
    | .ok (dpa, pg) =>
      match s.dmaByte c rule va dpa need with
      | .error st => .error (st, ⟨[], [], pg⟩)
      | .ok l =>
        match State.resolveVa s c need (rule.after dpa) (some (va / 65536, dpa - va % 65536)) vas with
        | .ok r => .ok ⟨l :: r.locs, dpa :: r.dpas, pg ++ r.pages⟩
        | .error (st, r) => .error (st, ⟨l :: r.locs, dpa :: r.dpas, pg ++ r.pages⟩)

/-- Resolve pool offsets, to the first beyond the pool (R27). -/
def resolvePool (core : Nat) : List Nat → Except (DmaStop × DmaSide) DmaSide
  | [] => .ok .empty
  | a :: as =>
    if a ≥ poolSize core then .error (.status 1, .empty)
    else match resolvePool core as with
      | .ok r => .ok { r with locs := .pool (poolKey core a) :: r.locs }
      | .error (st, r) => .error (st, { r with locs := .pool (poolKey core a) :: r.locs })

/-- Resolve one side. -/
def State.resolve (s : State) (c : DmaCmd) (isVa : Bool) (need : Need) (rule : SpaceRule) (as : List Nat) :
    Except (DmaStop × DmaSide) DmaSide :=
  if isVa then s.resolveVa c need rule none as
  else if s.poolChanging c.org.core then .error (.status 9, .empty)
  else resolvePool c.org.core as

/-- The resolved side, or what stops it. -/
def State.resolve1 (s : State) (c : DmaCmd) (isVa : Bool) (need : Need) (rule : SpaceRule) (as : List Nat) :
    Except DmaStop DmaSide :=
  match s.resolve c isVa need rule as with
  | .ok r => .ok r
  | .error (st, _) => .error st

/-- The translations that a row's sides used are held by the engine's µTLB too (R240). -/
def State.holdSides (s : State) (c : DmaCmd) (xs : List DmaSide) : State :=
  (xs.flatMap (fun x => x.pages)).foldl
    (fun (t : State) p => t.touch (dmaUnit c.org.core c.chan) (coreDie c.org.core) c.org.ctx p.1 p.2) s

/-! ### Data of a row -/

/-- The draw for element j of row n (Table 06-2). -/
def State.dmaDraw (s : State) (c : DmaCmd) (d : List Word) (n j : Nat) : Nat → Nat :=
  draw (s.seed c.org) (if c.pkt then c.daddr else c.org.pc) (j + dLen d * n)

/-- Convert a row (R165): its bytes, and the scale bytes of an MX destination. -/
def State.dmaConvert (s : State) (c : DmaCmd) (d : List Word) (n : Nat) (data scales : List Byte) : List Byte × List Byte :=
  let u := dStype d
  let t := dDtype d
  if u == t then (data, [])
  else
    let x := ofLe data
    let el := fun j => packed (typeBits u) x j
    if isMx t then
      let f := fun j => match fmtOf u with | some f => f.decode (el j) | none => FVal.nan
      let bl := (List.range (dLen d / 32)).map (fun b =>
        mxBlock t (dRM d) (fun j => s.dmaDraw c d n (32 * b + j)) ((List.range 32).map (fun j => f (32 * b + j))))
      (leBytes (packAll (typeBits t) (bl.flatMap (fun x => x.2))) (dDstBytes d), bl.map (fun x => BitVec.ofNat 8 x.1))
    else
      let v := fun j =>
        if isMx u then
          match fmtOf t with
          | some f => f.round (dRM d) (dSAT d) (s.dmaDraw c d n j) (mxDecode u (scales.getD (j / 32) 0).toNat (el j))
          | none => 0
        else convert u t (dRM d) (dSAT d) (s.dmaDraw c d n j) (el j)
      (leBytes (packAll (typeBits t) ((List.range (dLen d)).map v)) (dDstBytes d), [])

/-- Add a row into the destination's bytes (R166). -/
def reduceRow (t : Nat) (old new : List Byte) : List Byte :=
  let w := typeBits t
  let n := new.length * 8 / w
  leBytes (packAll w ((List.range n).map (fun j => faddRne t (packed w (ofLe old) j) (packed w (ofLe new) j)))) new.length

/-- The index of row n (R163) and whether it is poisoned. -/
def State.dmaIndex (s : State) (c : DmaCmd) (d : List Word) (n : Nat) : Nat × Bool :=
  let (bs, bad) := s.poolRead c.org.core (dAux d + 4 * n) 4
  (ofLe bs, bad)

/-- The scale bytes of row n in the pool. -/
def scaleOff (d : List Word) (n : Nat) : Nat := dAux d + n * (dLen d / 32)

/-- Add a row into its destination, one element after another (R166). -/
def State.addRow (s : State) (dom ty : Nat) (locs : List Loc) (new : List Byte) : State :=
  let w := typeBits ty / 8
  (List.range (new.length / w)).foldl (fun (t : State) j =>
    let ls := (locs.drop (j * w)).take w
    t.writeLocs dom ls (leBytes (faddRne ty (ofLe (t.readLocs dom ls).1) (ofLe ((new.drop (j * w)).take w))) w)) s

/-- The source space rule of a kind. -/
def DmaCmd.srcRule (c : DmaCmd) : SpaceRule := if c.kind == 4 then ⟨[0], false, c.srcSp⟩ else ⟨anySpace, true, c.srcSp⟩
/-- The destination space rule. -/
def DmaCmd.dstRule (c : DmaCmd) (d : List Word) : SpaceRule := ⟨if dRed d then [0, 1] else anySpace, true, c.dstSp⟩

/-- Source addresses of row n; none for a row of +0 (GATHER and NARROW), which reads nothing. -/
def rowSrc (c : DmaCmd) (d : List Word) (idx n : Nat) : Option (List Nat) :=
  if c.kind == 1 || c.kind == 4 then
    if idx == 0xFFFFFFFF then none else some (srcAddrs d ((idx : Int) * dSstr d 1) (dSrcBytes d))
  else some (srcAddrs d (dSoff d n) (dSrcBytes d))

/-- Destination addresses of row n; none for a row that is skipped. -/
def rowDst (c : DmaCmd) (d : List Word) (idx n : Nat) : Option (List Nat) :=
  if c.kind == 2 then
    if idx == 0xFFFFFFFF then none else some (dstAddrs d ((idx : Int) * dDstr d 1) (dDstBytes d))
  else if (c.kind == 1 || c.kind == 4) && idx == 0xFFFFFFFF && dRed d then none
  else if c.kind == 3 then some (xposeAddrs d n)
  else some (dstAddrs d (dDoff d n) (dDstBytes d))

/-- The result of working on a row: the state, the command, and what stopped it. -/
structure DmaStep where
  s : State
  c : DmaCmd
  stop : Option DmaStop
  /-- A Shared line is in flight or a Heap row in repair: the row cannot be performed now. -/
  wait : Bool

/-- The row has to wait. -/
def waits (s : State) (c : DmaCmd) : DmaStep := ⟨s, c, none, true⟩
/-- A row of a command has begun nothing. -/
def stopped (s : State) (c : DmaCmd) (st : DmaStop) : DmaStep := ⟨s, c, some st, false⟩
/-- The row is delivered. -/
def delivered (s : State) (c : DmaCmd) : DmaStep := ⟨s, c, none, false⟩

/-- Note the spaces of the first pages (R170). -/
def DmaCmd.noteSpaces (c : DmaCmd) (src dst : List Nat) : DmaCmd :=
  { c with
    srcSp := c.srcSp <|> (src.head?.map spaceOf)
    dstSp := c.dstSp <|> (dst.head?.map spaceOf) }

/-- The write of a row: coherence at the homes, then the bytes (R225). None while a line is in flight. -/
def State.dmaWrite (s : State) (c : DmaCmd) (dst : DmaSide) (bs : List Byte) : Option State :=
  (s.homeWrite dst.dpas).map (fun t => t.writeLocs (t.orgDom c.org) dst.locs bs)

/-- The read of a row: data and poison, with the snoops of an owner (R225). -/
def State.dmaRead (s : State) (c : DmaCmd) (src : DmaSide) : Option (State × List Byte × Bool) :=
  (s.homeRead src.dpas).map (fun t => (t, t.readLocs (t.orgDom c.org) src.locs))

/-- A byte of host memory. -/
def Loc.isHost : Loc → Bool
  | .host _ => true
  | _ => false

/-- Whether the host completes the reads of a row with Unsupported Request or Completer Abort (R304): a free value where the row
reads host memory (log entry 1). -/
def State.hostAborts (s : State) (locs : List Loc) : Bool × State :=
  if locs.any Loc.isHost then
    let (v, t) := s.fresh
    (v.getLsbD 0, t)
  else (false, s)

/-- A write to the host window keeps a launch from being replayed (R376). -/
def State.noteHost (s : State) (c : DmaCmd) (locs : List Loc) : State :=
  match c.org.launch with
  | some id => if locs.any Loc.isHost then s.noteUnreplayable id else s
  | none => s

/-- The most bytes that a decoder takes for a row of n bytes: a token for every granule (R133). -/
def longestCode (n : Nat) : Nat := n / 32 * 33

/-- The coded source of a row, decoded from the bytes that its tokens take (R133, R134). -/
def State.codedSource (s : State) (c : DmaCmd) (d : List Word) (n : Nat) : Except DmaStop (DmaSide × List Byte) :=
  let want := dSrcBytes d / 32
  let (st, side) := match s.resolve c (dSV d) needR c.srcRule (srcAddrs d (dSoff d n) (longestCode (dSrcBytes d))) with
    | .ok r => (none, r)
    | .error (st, r) => (some st, r)
  let dom := s.orgDom c.org
  let (used, short) := zrUsed want want (s.readLocs dom side.locs).1
  if (s.readLocs dom (side.locs.take used)).2 then .error (.status 8)
  else if short then .error (match st with | some (.status 1) => .status 4 | some st => st | none => .status 4)
  else match s.resolve1 c (dSV d) needR c.srcRule (srcAddrs d (dSoff d n) used) with
    | .error st => .error st
    | .ok side =>
      match zrDecode want want (s.readLocs dom side.locs).1 with
      | some out => .ok (side, out)
      | none => .error (.status 4)

/-- The source of row n: its side, and the bytes it gives where they are not those at its locations: a row of +0, or a decoded
row. -/
def State.rowSource (s : State) (c : DmaCmd) (d : List Word) (idx n : Nat) : Except DmaStop (DmaSide × Option (List Byte)) :=
  match rowSrc c d idx n with
  | none => .ok (.empty, some (List.replicate (dSrcBytes d) 0#8))
  | some as =>
    if dCodec d == 1 then (s.codedSource c d n).map (fun x => (x.1, some x.2))
    else (s.resolve1 c (dSV d) needR c.srcRule as).map (fun x => (x, none))

/-- The bytes a row delivers, and the scale bytes of an MX destination: converted, then encoded (R165, R168). -/
def State.rowOut (s : State) (c : DmaCmd) (d : List Word) (idx n : Nat) (data scales : List Byte) : List Byte × List Byte :=
  let (out, sc) :=
    if (rowSrc c d idx n).isNone then (List.replicate (dDstBytes d) 0#8, []) else s.dmaConvert c d n data scales
  (if dCodec d == 2 then zrEncode (dDstBytes d / 32) (granules (dDstBytes d / 32) out) else out, sc)

/-- Destination addresses of the rows above n of a SCATTER that are delivered: their bytes remain (Table 10-2). -/
def State.laterBytes (s : State) (c : DmaCmd) (d : List Word) (n : Nat) : List Nat :=
  if c.kind == 2 && !dRed d then
    (c.done.filter (fun m => m > n)).flatMap (fun m => (rowDst c d (s.dmaIndex c d m).1 m).getD [])
  else []

/-- Deliver the bytes of a row to its destination, or add them (R166); none while a line is in flight. -/
def State.rowWrite (s : State) (c : DmaCmd) (d : List Word) (n : Nat) (das : List Nat) (dst : DmaSide) (out : List Byte) :
    Option State :=
  if dRed d then (s.homeWrite dst.dpas).map (fun t => t.addRow (t.orgDom c.org) (dDtype d) dst.locs out)
  else
    let later := s.laterBytes c d n
    let ws := ((das.zip dst.locs).zip out).filter (fun x => !later.contains x.1.1)
    s.dmaWrite c { dst with locs := ws.map (fun x => x.1.2) } (ws.map (fun x => x.2))

/-- Row n of COPY, GATHER, SCATTER, XPOSE or NARROW: every translation first (R172), then the data. -/
def State.plainRow (s : State) (c : DmaCmd) (d : List Word) (n : Nat) : DmaStep :=
  let (idx, ibad) := if indexed c.kind then s.dmaIndex c d n else (0, false)
  if ibad then stopped s c (.status 8)
  else
    match rowDst c d idx n with
    | none => delivered s c
    | some das =>
      let w := typeBits (dDtype d) / 8
      if dRed d && (List.range (dLen d)).any (fun j => das.getD (j * w) 0 % w != 0) then stopped s c (.status 5)
      else if c.kind == 4 && (match rowSrc c d idx n with | some (a :: _) => a % 32 != 0 | _ => false) then
        stopped s c (.status 5)
      else
        match s.rowSource c d idx n with
        | .error st => stopped s c st
        | .ok (src, given) =>
          match s.dmaRead c src with
          | none => waits s c
          | some (t, raw, bad) =>
            let (scales, sbad) := if dMx d && isMx (dStype d) then t.poolRead c.org.core (scaleOff d n) (dLen d / 32)
              else ([], false)
            let (out, newScales) := t.rowOut c d idx n (given.getD raw) scales
            let das := if dCodec d == 2 then dstAddrs d (dDoff d n) out.length else das
            match t.resolve1 c (dDV d) (if dRed d then needWA else needW) (c.dstRule d) das with
            | .error st => stopped s c st
            | .ok dst =>
              let c' := c.noteSpaces src.dpas dst.dpas
              let held := fun (u : State) => u.holdSides c [src, dst]
              let (aborts, t) := t.hostAborts src.locs
              let bad := if c.kind == 4 then src.locs.any t.narrowPois else bad
              if (src.locs ++ dst.locs).any t.inRepair then waits s c
              else if bad || sbad || (dRed d && (t.readLocs (t.orgDom c.org) dst.locs).2) then stopped (held s) c' (.status 8)
              else if aborts then stopped (held t) c' (.status 7)
              else
                let t := if c.kind == 4 then ((heapKeys src.locs).map (· / 32)).dedup.foldl State.narrowTouch t else t
                match t.rowWrite c d n das dst out with
                | none => waits s c
                | some t =>
                  let t := if newScales.isEmpty then t else t.poolWrite c.org.core (scaleOff d n) newScales
                  delivered ((held t).noteHost c dst.locs) c'

/-! ### Block-skip packed tiles (R131, R132, R169) -/

/-- BLOCK_BYTES, NG and NB of an opened tile. -/
def DmaCmd.bb (c : DmaCmd) : Nat := Map.getD c.claims 2 0
def DmaCmd.ng (c : DmaCmd) : Nat := Map.getD c.claims 0 0
def DmaCmd.nb (c : DmaCmd) : Nat := Map.getD c.claims 1 0
/-- The header of the packed tile has been read. -/
def DmaCmd.opened (c : DmaCmd) : Bool := (Map.find? c.claims 2).isSome
/-- Bytes of the packed bitmap. -/
def bitmapBytes (ng nb : Nat) : Nat := ng * (ceilDiv nb 32 * 4)
/-- The source length of a packed tile. -/
def packedLen (d : List Word) : Nat := dF d 3 63 32

/-- Where a present block's rows go: pool offset of row r of block g, b (R132). -/
def blockRowOff (d : List Word) (bb g b r : Nat) : Nat :=
  ofSigned 64 ((dDst d : Int) + ((32 * g + r : Nat) : Int) * dDstr d 1 + ((b * bb : Nat) : Int))

/-- Read a part of the packed tile. -/
def State.packedRead (s : State) (c : DmaCmd) (d : List Word) (off n : Nat) :
    Except DmaStop (DmaSide × List Byte × Bool) :=
  if off + n > packedLen d then .error (.status 3)
  else (s.resolve1 c (dSV d) needR c.srcRule (srcAddrs d off n)).map (fun r =>
    (r, s.readLocs (s.orgDom c.org) r.locs))

/-- Least and greatest of a list of offsets, as offset and length. -/
def hullOf (l : List Nat) : Option (Nat × Nat) :=
  match l with
  | [] => none
  | x :: xs => some (xs.foldl min x, xs.foldl max x + 1 - xs.foldl min x)

/-- Open a packed tile: header, bitmap, the pool bytes checked, the bitmap written to its area (R132, R170). Its rows of
ceil(NB / 32) * 4 bytes lie one directly after another: a packed tile names no stride for them (log entry 119). -/
def State.openPacked (s : State) (c : DmaCmd) (d : List Word) : DmaStep :=
  match s.packedRead c d 0 16 with
  | .error st => stopped s c st
  | .ok (h, hb, bad) =>
    let x := ofLe hb
    let bb := fld x 15 0
    let ng := fld x 31 16
    let nb := fld x 47 32
    let c := c.noteSpaces h.dpas []
    if h.locs.any s.inRepair then waits s c
    else if bad then stopped s c (.status 8)
    else if x / 2 ^ 48 != 0 || bb == 0 || ng == 0 || nb == 0 then stopped s c (.status 3)
    else match s.packedRead c d 16 (bitmapBytes ng nb) with
      | .error st => stopped s c st
      | .ok (m, mb, bad) =>
        if m.locs.any s.inRepair then waits s c
        else if bad then stopped s c (.status 8)
        else
          let bits := ofLe mb
          let row := ceilDiv nb 32 * 32
          let present := (List.range (ng * nb)).filter (fun k => bit bits (k / nb * row + k % nb))
          let beyond := fun k => (List.range 32).any (fun r =>
            blockRowOff d bb (k / nb) (k % nb) r + bb > poolSize c.org.core)
          if dAux d + bitmapBytes ng nb > poolSize c.org.core || present.any beyond then stopped s c (.status 1)
          else match s.homeRead (h.dpas ++ m.dpas) with
            | none => waits s c
            | some t =>
              let (aborts, t) := t.hostAborts (h.locs ++ m.locs)
              let cl := (List.range present.length).foldl (fun cl i => Map.put cl (3 + i) (present.getD i 0))
                [(0, ng), (1, nb), (2, bb)]
              let ends := present.flatMap (fun k => (List.range 32).flatMap (fun r =>
                [blockRowOff d bb (k / nb) (k % nb) r, blockRowOff d bb (k / nb) (k % nb) r + bb - 1]))
              let c' := { c with
                claims := cl
                dstR := hullOf (ends ++ [dAux d, dAux d + bitmapBytes ng nb - 1]) }
              if aborts then stopped (t.holdSides c [h, m]) c (.status 7)
              else delivered ((t.holdSides c [h, m]).poolWrite c.org.core (dAux d) mb) c'

/-- Row n of a packed tile: present block n (R169). -/
def State.packedRow (s : State) (c : DmaCmd) (d : List Word) (n : Nat) : DmaStep :=
  let bb := c.bb
  let k := Map.getD c.claims (3 + n) 0
  match s.packedRead c d (16 + bitmapBytes c.ng c.nb + n * (32 * bb)) (32 * bb) with
  | .error st => stopped s c st
  | .ok (src, bs, bad) =>
    if src.locs.any s.inRepair then waits s c
    else if bad then stopped s c (.status 8)
    else match s.homeRead src.dpas with
      | none => waits s c
      | some t =>
        let (aborts, t) := t.hostAborts src.locs
        if aborts then stopped (t.holdSides c [src]) c (.status 7)
        else
        let t := (List.range 32).foldl (fun (t : State) r =>
          t.poolWrite c.org.core (blockRowOff d bb (k / c.nb) (k % c.nb) r) ((bs.drop (r * bb)).take bb)) t
        delivered (t.holdSides c [src]) c

/-! ### BUCKET (R140 to R142) -/

/-- An address of a bucket: the pool, or a context address in Shared or Deep (Table 08-4). -/
def State.bucketSide (s : State) (c : DmaCmd) (w : Nat) (off n : Nat) : Except DmaStop DmaSide :=
  s.resolve1 c (bit w 63) needW ⟨[0, 1], false, none⟩ ((List.range n).map (fun k => fld w 47 0 + off + k))

/-- Copy the row and tag of an entry into a claimed slot (R141). -/
def State.bucketCopy (s : State) (c : DmaCmd) (d : List Word) (entry slot : Nat) (tab : List Byte) : DmaStep :=
  let w := fun i => (wordAt tab i).toNat
  if slot ≥ fld (w 1) 63 32 then delivered s { c with unplaced := c.unplaced + 1 }
  else
    match s.resolve1 c (dSV d) needR c.srcRule (srcAddrs d ((fld entry 15 0 : Nat) * dSstr d 1) (dSrcBytes d)),
      s.bucketSide c (w 2) (slot * fld (w 1) 31 0) (dDstBytes d), s.bucketSide c (w 3) (slot * 4) 4 with
    | .error st, _, _ => stopped s c st
    | _, .error st, _ => stopped s c st
    | _, _, .error st => stopped s c st
    | .ok src, .ok dst, .ok tag =>
      match s.dmaRead c src with
      | none => waits s c
      | some (t, bs, bad) =>
        let (aborts, t) := t.hostAborts src.locs
        if (src.locs ++ dst.locs ++ tag.locs).any t.inRepair then waits s c
        else if bad then stopped s c (.status 8)
        else if aborts then stopped t c (.status 7)
        else match (t.dmaWrite c dst bs).bind (fun t => t.dmaWrite c tag (leBytes (entry % 2 ^ 32) 4)) with
          | none => waits s c
          | some t =>
            delivered (t.holdSides c [src, dst, tag]) (c.noteSpaces src.dpas [])

/-- Slot of a bucket, given by its table entry's words, has a row or a tag beyond the pool (R27). -/
def bucketBeyond (core bytes slot : Nat) (w : Nat → Nat) : Bool :=
  let beyond := fun (a off n : Nat) => !bit a 63 && fld a 47 0 + off + n > poolSize core
  slot < fld (w 1) 63 32 && (beyond (w 2) (slot * fld (w 1) 31 0) bytes || beyond (w 3) (slot * 4) 4)

/-- The first page of a BUCKET command's source, translated before any byte is written (R170). -/
def State.bucketFirst (s : State) (c : DmaCmd) (d : List Word) (entry : Nat) : Except DmaStop DmaSide :=
  if dSV d && c.srcSp.isNone then s.resolve1 c true needR c.srcRule (srcAddrs d ((fld entry 15 0 : Nat) * dSstr d 1) 1)
  else .ok .empty

/-- Entry n of a BUCKET command: claim once, then copy (R141, R142). -/
def State.bucketRow (s : State) (c : DmaCmd) (d : List Word) (n : Nat) : DmaStep :=
  let (eb, ebad) := s.poolRead c.org.core (dAux d + 8 * n) 8
  let entry := ofLe eb
  if ebad then stopped s c (.status 8)
  else
    let va := dDst d + 32 * fld entry 31 22
    match s.resolve1 c true needRWA ⟨[1], false, none⟩ ((List.range 32).map (va + ·)) with
    | .error st => stopped s c st
    | .ok tab =>
      let (tb, tbad) := s.readLocs 0 tab.locs
      let w := fun i => (wordAt tb i).toNat
      if tab.locs.any s.inRepair then waits s c
      else if tbad then stopped (s.holdSides c [tab]) c (.status 8)
      else if fld (w 2) 62 48 != 0 || fld (w 3) 62 48 != 0 then stopped (s.holdSides c [tab]) c (.status 3)
      else match Map.find? c.claims n with
        | some slot => s.bucketCopy c d entry slot tb
        | none =>
          let count := w 0
          match s.bucketFirst c d entry, s.homeWrite tab.dpas with
          | .error st, _ => stopped s c st
          | _, none => waits s c
          | .ok _, some t =>
            if bucketBeyond c.org.core (dDstBytes d) count w then stopped (s.holdSides c [tab]) c (.status 1)
            else
              let t := (t.writeLocs 0 (tab.locs.take 8) (leBytes ((count + 1) % 2 ^ 64) 8)).holdSides c [tab]
              t.bucketCopy { c with claims := Map.put c.claims n count } d entry count tb

/-! ### Records and completion -/

/-- The DMA command record (Table 10-4). -/
def dmaRecord (c : DmaCmd) (code : Nat) (restart write onDesc : Bool) (va time : Nat) : List Word :=
  let done := (c.done.filter (fun r => c.cursor < r && r ≤ c.cursor + 64)).foldl (fun m r => m + 2 ^ (r - c.cursor - 1)) 0
  [ BitVec.ofNat 64 (0x04 * 2 ^ 56 + code * 2 ^ 48 + b2n c.pkt * 2 ^ 44 + b2n onDesc * 2 ^ 43 + b2n write * 2 ^ 42 +
      b2n (c.org.core ≥ 1024) * 2 ^ 41 + b2n restart * 2 ^ 40 + (if c.pkt then 0 else c.org.slot) * 2 ^ 33 +
      c.org.core * 2 ^ 22 + c.org.ctx),
    BitVec.ofNat 64 (if c.pkt then 0 else c.org.pc), BitVec.ofNat 64 (c.chan * 2 ^ 61 + c.kind * 2 ^ 58 + c.cursor),
    BitVec.ofNat 64 done, BitVec.ofNat 64 (va % 2 ^ 48), BitVec.ofNat 64 (b2n c.spc * 2 ^ 48 + c.daddr % 2 ^ 48),
    BitVec.ofNat 64 (c.org.queue * 2 ^ 32 + c.org.seq), BitVec.ofNat 64 time ]

/-- Put a command back. -/
def State.putDma (s : State) (c : DmaCmd) : State := { s with dma := s.dma.map (fun o => if o.id == c.id then c else o) }

/-- The status of a packet whose command ended (R263, Table 15-10). -/
def Started.dmaDone (p : Started) (c : DmaCmd) (status : Nat) : Started :=
  if !p.live.contains c.id then p
  else
    let st := if status == 0 then 0
      else if c.desc.isNone && status == 8 then 8
      else if c.desc.isNone && (status == 7 || status == 6 || status == 2) then 4 else 2
    { p with live := NSet.del p.live c.id, status := st, detail := status }

/-- A command completes (R173): its COMPLETION word, DMA_ENG_STS (Table 10-6), poison fails the context (R171), a packet's
status. -/
def State.dmaDone (s : State) (c : DmaCmd) (status detail : Nat) : State :=
  let s := { s with dma := s.dma.filter (fun o => o.id != c.id) }
  let s := match c.desc with
    | some d =>
      if c.pkt || dStat d + 16 > poolSize c.org.core then s
      else s.poolWrite c.org.core (dStat d + 8) (leBytes (2 ^ 63 + status * 2 ^ 48 + detail % 2 ^ 48) 8)
    | none => s
  let r : Reg := .dmaEngSts (coreBasin c.org.core) (if c.org.core < 1024 then c.org.core % 8 else c.chan)
  let s := if status == 0 then s
    else (s.setRf r 15 8 status).setRf r 7 0 (satInc 8 (s.rf r 7 0))
  let s := if c.pkt then
      { s with queues := Map.modify s.queues c.org.queue (fun q => { q with started := q.started.map (fun p => p.dmaDone c status) }) }
    else s
  if status == 8 then
    (s.ras_ { rasOf 0x03 2 (coreDie c.org.core) 0x03 c.org.core 8 with
      part := c.org.part, core := c.org.core, ctx := c.org.ctx }).failCtx c.org.ctx
  else s

/-- A command ends whose status block is unknown or outside the pool: a record holds the status and the launch ends
(R174). -/
def State.dmaLost (s : State) (c : DmaCmd) (code : Nat) : State :=
  if c.pkt then s.dmaDone c code 0
  else
    let s := (s.post c.org.part (dmaRecord c code false false false 0 (s.dieTime (coreDie c.org.core)))).1
    (s.dmaDone { c with desc := none } code 0).failLaunch (c.org.launch.getD 0) 2

/-- A command suspends on a translation: its record is posted (R175). -/
def State.dmaSuspend (s : State) (c : DmaCmd) (n va : Nat) (write onDesc : Bool) : State :=
  let s := s.putDma { c with
    susp := some ⟨va, write, onDesc, n⟩
    looked := []
    asked := [] }
  (s.post c.org.part (dmaRecord c 0x80 true write onDesc va (s.dieTime (coreDie c.org.core)))).1

/-- A translation of a command faults: the translation record (R246), then the effect of Table 14-11. One that meets a row in
repair stalls (R358). -/
def State.dmaFault (s : State) (c : DmaCmd) (n : Nat) (onDesc : Bool) (f : XFault) (va : Nat) (need : Need) : State :=
  if f.code == 10 then s else
  let met := s.met (coreDie c.org.core) c.org.part c.org.ctx (s.rootOf (s.ownOf c.org) c.org.ctx) va
  let s := s.postXlat f met need c.org.part c.org.ctx va c.org.core (if c.kind == 4 && !onDesc then 3 else 2) c.org.queue c.org.seq
    (coreDie c.org.core)
  if f.code == 3 || f.code ≥ 8 then
    let st := if f.code == 3 then 6 else 8
    if onDesc then s.dmaLost c st else s.putDma { c with fail := some (st, n), looked := [], asked := [] }
  else s.dmaSuspend c n va need.w onDesc

/-- A command misses: its die's walkers take the miss, or their queue is full, and it asks again later (R239). -/
def State.dmaMiss (s : State) (c : DmaCmd) (n : Nat) (onDesc : Bool) (va : Nat) (need : Need) : State :=
  let die := coreDie c.org.core
  let ask : DmaAsk := ⟨va, need, n, onDesc⟩
  if c.asked.contains ask || !s.walkRoom die (walkKey c.org.ctx va) then s.putDma c
  else (s.walkAsk die (walkKey c.org.ctx va)).putDma { c with asked := c.asked ++ [ask] }

/-- A row stops: it fails, waits for a walk, or the command suspends (R171, R175, R239). -/
def State.dmaStop (s : State) (c : DmaCmd) (n : Nat) : DmaStop → State
  | .status code => s.putDma { c with fail := some (code, n), looked := [], asked := [] }
  | .xlat f va need => s.dmaFault c n false f va need
  | .miss va need => s.dmaMiss c n false va need

/-! ### DMA_COMMAND_START -/

/-- The bytes of row n on one side by R162: of a coded row, the most it can take (R133). -/
def coded (d : List Word) (src : Bool) : Bool := if src then dCodec d == 1 else dCodec d == 2

/-- The pool bytes of each row of a side: every byte, since a wrap may cut the row. -/
def State.startRows (s : State) (c : DmaCmd) (d : List Word) (src : Bool) : List (Nat × List Nat) :=
  (List.range (dRows d)).filterMap (fun n =>
    let (idx, bad) := if indexed c.kind then s.dmaIndex c d n else (0, false)
    if bad then none
    else match rowDst c d idx n with
      | none => none
      | some das =>
        if src then
          (if coded d true then some (n, srcAddrs d (dSoff d n) (longestCode (dSrcBytes d)))
           else (rowSrc c d idx n).map (fun as => (n, as)))
        else if coded d false then some (n, dstAddrs d (dDoff d n) (codedMax (dDstBytes d))) else some (n, das))

/-- The first row of a pool side that reaches beyond the pool. A coded source is bound by its start alone: its tokens decide how
far it reaches (R134). -/
def rangeRow (core : Nat) (start : Bool) (rows : List (Nat × List Nat)) : Option Nat :=
  (rows.find? (fun r => (if start then r.2.take 1 else r.2).any (fun a => a ≥ poolSize core))).map (fun r => r.1)

/-- The source rows in the pool that the entries of a BUCKET command name (R170). -/
def State.bucketRows (s : State) (c : DmaCmd) (d : List Word) : List (Nat × List Nat) :=
  (List.range (dC1 d)).filterMap (fun n =>
    let (eb, bad) := s.poolRead c.org.core (dAux d + 8 * n) 8
    if bad then none else some (n, srcAddrs d ((fld (ofLe eb) 15 0 : Nat) * dSstr d 1) (dSrcBytes d)))

/-- The rows of a side that is given by address, as far as the descriptor and the lists in the pool name them. -/
def State.vaRows (s : State) (c : DmaCmd) (d : List Word) (src : Bool) : List (Nat × List Nat) :=
  if !(if src then dSV d else dDV d) then []
  else if c.kind == 5 then (if src then s.bucketRows c d else [])
  else if dCodec d == 3 then [(0, srcAddrs d 0 (packedLen d))]
  else s.startRows c d src

/-- The first row of a side given by address that reaches the command's own pool beyond its size, as far as its pages translate
when the descriptor is checked: then too nothing is transferred (R27, Table 10-3, log entry 124). -/
def State.vaBeyond (s : State) (c : DmaCmd) (d : List Word) (src : Bool) : Option Nat :=
  let out := fun (pg : Nat) =>
    match s.walkVa (s.ownOf c.org) (coreDie c.org.core) c.org.ctx (pg * 65536) 1 ⟨false, false, false⟩ with
    | .ok x => spaceOf x.dpa == 2 && fld x.dpa 35 25 == c.org.core && fld x.dpa 24 0 ≥ poolSize c.org.core
    | .error _ => false
  ((s.vaRows c d src).find? (fun r => ((r.2.map (· / 65536)).dedup).any out)).map (fun r => r.1)

/-- The words of the bucket table entry that entry n of the dispatch list names, as it stands when the descriptor is checked. -/
def State.bucketPeek (s : State) (c : DmaCmd) (d : List Word) (n : Nat) : Option (Nat × (Nat → Nat)) :=
  let (eb, bad) := s.poolRead c.org.core (dAux d + 8 * n) 8
  let expert := fld (ofLe eb) 31 22
  if bad then none
  else match s.walkVa (s.ownOf c.org) (coreDie c.org.core) c.org.ctx (dDst d + 32 * expert) 32 ⟨false, false, false⟩ with
    | .error _ => none
    | .ok x => if spaceOf x.dpa != 1 then none else (s.locateN x.dpa 32).map (fun ls =>
        (expert, fun i => (wordAt (s.readLocs 0 ls).1 i).toNat))

/-- The first entry of a BUCKET command whose slot, counted from COUNT as it stands when the descriptor is checked, lies beyond
the pool (R27, log entry 124). -/
def State.slotsBeyond (s : State) (c : DmaCmd) (d : List Word) : Option Nat :=
  let expert := fun (n : Nat) => (s.bucketPeek c d n).map (fun x => x.1)
  (List.range (dC1 d)).find? (fun n =>
    match s.bucketPeek c d n with
    | some (_, w) =>
      bucketBeyond c.org.core (dDstBytes d) (w 0 + ((List.range n).filter (fun m => expert m == expert n)).length) w
    | none => false)

/-- The checks of R170 after the descriptor's own: index list or dispatch list, pool bytes, scale area. A status and the
failing row. A coded destination needs room for the longest code of its rows, so that nothing is transferred where one might
not fit (R27, R133, log entry 100). -/
def State.startCheck (s : State) (c : DmaCmd) (d : List Word) : Option (Nat × Nat) :=
  let core := c.org.core
  let out := fun (a b : Option Nat) =>
    match a, b with
    | some a, some b => some (1, min a b)
    | some a, none => some (1, a)
    | none, some b => some (1, b)
    | none, none => none
  if descBad c.kind c.pkt d then some (0x0A, 0)
  else if indexed c.kind && dAux d % 4 != 0 then some (5, 0)
  else if c.kind == 5 && dAux d % 8 != 0 then some (5, 0)
  else if indexed c.kind && dAux d + 4 * dRows d > poolSize core then some (1, 0)
  else if c.kind == 5 then
    (if dAux d + 8 * dC1 d > poolSize core then some (1, 0)
     else out (if dSV d then s.vaBeyond c d true else rangeRow core false (s.bucketRows c d)) (s.slotsBeyond c d))
  else if dCodec d == 3 then
    (if !dSV d && dSrc d + packedLen d > poolSize core then some (1, 0) else out (s.vaBeyond c d true) none)
  else if dMx d && dAux d + dRows d * (dLen d / 32) > poolSize core then some (1, 0)
  else out (if dSV d then s.vaBeyond c d true else rangeRow core (coded d true) (s.startRows c d true))
    (if dDV d then s.vaBeyond c d false else rangeRow core false (s.startRows c d false))

/-- The hull of a pool side: its lowest to its highest byte that the walk of R162 touches, with coded rows at their longest
(R133, R199). The destination of a packed tile is the whole pool until its header is read. -/
def State.hull (s : State) (c : DmaCmd) (d : List Word) (src : Bool) : Option (Nat × Nat) :=
  if c.kind == 5 then none
  else if dCodec d == 3 then
    (if src then (if dSV d then none else some (dSrc d, packedLen d)) else some (0, poolSize c.org.core))
  else if (if src then dSV d else dDV d) then none
  else hullOf ((s.startRows c d src).flatMap (fun r => r.2))

/-- Read the descriptor: its words, or what stops the fetch. -/
def State.fetchDesc (s : State) (c : DmaCmd) : Except DmaStop (DmaSide × List Byte × Bool) :=
  if c.spc then
    (s.resolve1 c true needR ⟨[1], false, none⟩ ((List.range 64).map (c.daddr + ·))).map (fun r => (r, s.readLocs 0 r.locs))
  else .ok (.empty, s.poolRead c.org.core c.daddr 64)

/-- Commands of an engine that run: they have left the queue and are not suspended (R160). -/
def State.running (s : State) (core chan : Nat) : List DmaCmd :=
  (s.engineCmds core chan).filter (fun c => c.desc.isSome && c.susp.isNone && !c.held)

/-- An earlier command of the same context on the channel is not restored yet (R177). -/
def State.behindHeld (s : State) (c : DmaCmd) : Bool :=
  (s.engineCmds c.org.core c.chan).any (fun o => o.id < c.id && o.held && o.org.ctx == c.org.ctx)

/-- DMA_COMMAND_START: the descriptor is read and checked, and the registrations narrow to the hulls, or the command
completes with an error (R159, R170, R174). Where its two hulls need a registration more than is free, the command stays where
it is (R202, log entry 125). -/
def execDmaCommandStart (id : Nat) (s : State) : Res :=
  s.clocked <|
  match s.dma.find? (fun c => c.id == id) with
  | none => s.idle "no such DMA command"
  | some c =>
    let eng := s.engineCmds c.org.core c.chan
    if c.desc.isSome || c.susp.isSome || c.held || s.behindHeld c || (s.running c.org.core c.chan).length ≥ 4 ||
        eng.any (fun o => o.id < id && o.desc.isNone && o.susp.isNone && !o.held) then
      s.idle "the command cannot leave the queue"
    else
      match s.fetchDesc c with
      | .error (.status code) => .next (s.dmaLost c code)
      | .error (.xlat f va need) => .next (s.dmaFault c 0 true f va need)
      | .error (.miss va need) => .next (s.dmaMiss c 0 true va need)
      | .ok (side, bs, bad) =>
        if side.locs.any s.inRepair then s.idle "the descriptor's row is in repair"
        else match s.homeRead side.dpas with
        | none => s.idle "a line of the descriptor is in flight"
        | some s =>
          let s := s.holdSides c [side]
          if bad then .next (s.dmaLost c 8)
          else
            let d := (List.range 8).map (fun i => wordAt bs i)
            if !c.pkt && dStat d + 16 > poolSize c.org.core then .next (s.dmaLost c 1)
            else
              let c := { c with desc := some d, looked := [] }
              let s := match c.org.launch with | some id => if dRed d then s.noteUnreplayable id else s | none => s
              match s.startCheck c d with
              | some (st, row) => .next ((s.putDma c).dmaDone c st row)
              | none =>
                let c' := { c with srcR := s.hull c d true, dstR := s.hull c d false }
                if c'.ranges.length == 2 && !s.regFree c.org.core then s.idle "no second registration is free"
                else .next (s.putDma c')

/-! ### Issue -/

/-- The DPA of an address of a command's context, whether or not its translation is held. -/
def State.dpaOf (s : State) (c : DmaCmd) (va : Nat) : Option Nat :=
  match s.walkVa (s.ownOf c.org) (coreDie c.org.core) c.org.ctx va 1 ⟨false, false, false⟩ with
  | .ok x => some x.dpa
  | .error _ => none

/-- The descriptor of a command as it stands: the engine's copy, or its bytes in memory. -/
def State.peekDesc (s : State) (c : DmaCmd) : Option (List Word) :=
  match c.desc with
  | some d => some d
  | none =>
    let locs := if c.spc then (s.dpaOf c c.daddr).bind (fun dpa => s.locateN dpa 64) else some (poolLocs c.org.core c.daddr 64)
    locs.map (fun ls => (List.range 8).map (wordAt (s.readLocs 0 ls).1))

/-- A command keeps its launch or packet from being replayed: a BUCKET, a reduce-on-write, or a write to the host window (R376).
The core records it at issue, by the descriptor as it then stands (log entry 132). -/
def State.dmaFixes (s : State) (c : DmaCmd) : Bool :=
  c.kind == 5 || c.dstSp == some 3 ||
    (s.peekDesc c).any (fun d => dRed d ||
      (dDV d && (((rowDst c d 0 0).bind List.head?).bind (s.dpaOf c)).any (fun dpa => spaceOf dpa == 3)))

/-- Queue a DMA command (R159, R160, R202). -/
def queueDma (kind : Nat) (r : GroupRef) (e : Enc) (s : State) : Res :=
  let core := r.core.toNat
  let i : Ins := ⟨0x2A, kind, decodeDma (coreKind core) e, [encF e 37 32]⟩
  let spc := encF e 31 31 == 1
  runSolo s r e i (fun s g l =>
    let a := (g.gs (encF e 37 32)).toNat
    if (s.engineCmds core (encF e 45 43)).length ≥ 16 || !s.regFree core then .next s
    else if (trackFault g (encF e 38 38 == 1) (encF e 42 39)).isSome then raise s r e i g l 5 (effMask g e) 0
    else if g.spois.contains (encF e 37 32) then raise s r e i g l 0x0E (effMask g e) 0
    else if a % 64 != 0 then raise s r e i g l 0x0A (effMask g e) a
    else if !spc && a + 64 > poolSize core then raise s r e i g l 0x0C (effMask g e) a
    else
      let (id, s) := s.newId
      let c : DmaCmd := ⟨id, originOf r g l e i, false, encF e 45 43, kind,
        if encF e 38 38 == 1 then some (encF e 42 39) else none, spc, a, none, 0, [], [], 0, none, none, false, none, none,
        none, none, [], []⟩
      let s := if s.dmaFixes c then s.noteUnreplayable g.launch else s
      ({ s with dma := s.dma ++ [c] }).finish r e g)

/-- COPY (R163). -/
def execDmaCopy (g : GroupRef) (e : Enc) (s : State) : Res := queueDma 0 g e s
/-- GATHER (R163). -/
def execDmaGather (g : GroupRef) (e : Enc) (s : State) : Res := queueDma 1 g e s
/-- SCATTER (R163). -/
def execDmaScatter (g : GroupRef) (e : Enc) (s : State) : Res := queueDma 2 g e s
/-- XPOSE (R163). -/
def execDmaXpose (g : GroupRef) (e : Enc) (s : State) : Res := queueDma 3 g e s
/-- NARROW (R51, R163). -/
def execDmaNarrow (g : GroupRef) (e : Enc) (s : State) : Res := queueDma 4 g e s
/-- BUCKET (R141, R163). -/
def execDmaBucket (g : GroupRef) (e : Enc) (s : State) : Res := queueDma 5 g e s

/-! ### Rows and completion -/

/-- Rows of a command that has started. -/
def DmaCmd.rows (c : DmaCmd) (d : List Word) : Nat :=
  if dCodec d == 3 && c.kind == 0 then c.claims.length - 3 else dRows d

/-- A row is delivered already. -/
def DmaCmd.has (c : DmaCmd) (n : Nat) : Bool := n < c.cursor || c.done.contains n

/-- Rows must be taken in order: BUCKET entries, blocks of a packed tile, coded destinations, and while a first page is not
resolved (R132, R141, R168, R170). -/
def DmaCmd.inOrder (c : DmaCmd) (d : List Word) : Bool :=
  c.kind == 5 || dCodec d ≥ 2 || (dSV d && c.srcSp.isNone) || (dDV d && c.dstSp.isNone)

/-- The cursor moves over an unbroken prefix of delivered rows: new cursor and the rows it passed. -/
def advanceCursor : Nat → Nat → NSet → Nat
  | 0, cur, _ => cur
  | f + 1, cur, done => if done.contains cur then advanceCursor f (cur + 1) done else cur

/-- Row n is delivered: PROGRESS follows the cursor (R172, R173). -/
def State.rowDone (s : State) (c : DmaCmd) (d : List Word) (n : Nat) : State :=
  let done := NSet.ins c.done n
  let cur := advanceCursor (done.length + 1) c.cursor done
  let c' := { c with
    cursor := cur
    done := done.filter (fun r => r ≥ cur)
    looked := if n == c.cursor then [] else c.looked }
  let s := s.putDma c'
  if dSige d && !c.pkt && cur > c.cursor then
    let old := ofLe (s.poolRead c.org.core (dStat d) 8).1
    s.poolWrite c.org.core (dStat d) (leBytes ((old + (cur - c.cursor)) % 2 ^ 64) 8)
  else s

/-- The command is a packed tile whose header has not been read. -/
def DmaCmd.closed (c : DmaCmd) (d : List Word) : Bool := dCodec d == 3 && c.kind == 0 && !c.opened

/-! ### The order of one engine's commands (R160, R197) -/

/-- The command is one of the four that its engine runs: the oldest that are not suspended or held (R160, log entry 101). -/
def State.runsNow (s : State) (c : DmaCmd) : Bool :=
  ((s.running c.org.core c.chan).take 4).any (fun o => o.id == c.id) && !s.behindHeld c

/-- Context addresses of the bucket row and tag that a slot gives: none below the pool's own space (Table 08-4). -/
def slotVas (bytes slot : Nat) (w : Nat → Nat) : List Nat :=
  let at_ := fun (a off n : Nat) => if bit a 63 then (List.range n).map (fld a 47 0 + off + ·) else []
  if slot < fld (w 1) 63 32 then at_ (w 2) (slot * fld (w 1) 31 0) bytes ++ at_ (w 3) (slot * 4) 4 else []

/-- Context addresses that entry n of a BUCKET command writes besides its table entry: of its slot, claimed or counted from
COUNT. -/
def State.bucketVas (s : State) (c : DmaCmd) (d : List Word) (n : Nat) : List Nat :=
  match s.bucketPeek c d n with
  | some (_, w) => slotVas (dDstBytes d) ((Map.find? c.claims n).getD (w 0)) w
  | none => []

/-- Context addresses that row n reads and writes. A packed tile that is not open may read any byte of its source. -/
def State.rowVas (s : State) (c : DmaCmd) (d : List Word) (n : Nat) : List Nat × List Nat :=
  if c.kind == 5 then
    let entry := ofLe (s.poolRead c.org.core (dAux d + 8 * n) 8).1
    (if dSV d then srcAddrs d ((fld entry 15 0 : Nat) * dSstr d 1) (dSrcBytes d) else [],
      (List.range 32).map (dDst d + 32 * fld entry 31 22 + ·) ++ s.bucketVas c d n)
  else if dCodec d == 3 then
    (if !dSV d then []
     else if c.opened then srcAddrs d ((16 + bitmapBytes c.ng c.nb + n * (32 * c.bb) : Nat) : Int) (32 * c.bb)
     else srcAddrs d 0 (packedLen d), [])
  else
    let idx := if indexed c.kind then (s.dmaIndex c d n).1 else 0
    (if !dSV d then [] else if coded d true then srcAddrs d (dSoff d n) (longestCode (dSrcBytes d)) else (rowSrc c d idx n).getD [],
      if !dDV d then [] else if coded d false then dstAddrs d (dDoff d n) (codedMax (dDstBytes d)) else (rowDst c d idx n).getD [])

/-- The DPAs of a command's addresses, as far as they translate. -/
def State.vaDpas (s : State) (c : DmaCmd) (vas : List Nat) (need : Need) : List Nat :=
  vas.filterMap (fun va =>
    match s.dmaHeld c va need, s.walkVa (s.ownOf c.org) (coreDie c.org.core) c.org.ctx va 1 need with
    | some e, _ => some (e.at_ va)
    | none, .ok x => some x.dpa
    | none, .error _ => none)

/-- The bytes that row n reads and writes outside the pool, by DPA. -/
def State.rowDpas (s : State) (c : DmaCmd) (d : List Word) (n : Nat) : List Nat × List Nat :=
  let (r, w) := s.rowVas c d n
  (s.vaDpas c r needR, s.vaDpas c w needW)

/-- An earlier command of the engine has a row to deliver whose bytes outside the pool overlap those of row n, and one of the two
writes: they take effect in issue order (R197). What an earlier command of the same context touches is not known before its
descriptor is read, so row n waits for that (log entry 126). -/
def State.rowHeld (s : State) (c : DmaCmd) (d : List Word) (n : Nat) : Bool :=
  s.dma.any (fun o => o.id < c.id && o.org.core == c.org.core && o.chan == c.chan && o.fail.isNone &&
    (match o.desc with
     | none => o.org.ctx == c.org.ctx && (let (r, w) := s.rowVas c d n; !(r.isEmpty && w.isEmpty))
     | some od =>
       let (r, w) := s.rowDpas c d n
       (List.range (if o.closed od then 1 else o.rows od)).any (fun m => !o.has m &&
         (let (r', w') := s.rowDpas o od m
          w'.any (fun x => r.contains x || w.contains x) || r'.any (fun x => w.contains x)))))

/-- Row n of a command (R172). -/
def State.dmaRow (s : State) (c : DmaCmd) (d : List Word) (n : Nat) : DmaStep :=
  if c.kind == 5 then s.bucketRow c d n else if dCodec d == 3 then s.packedRow c d n else s.plainRow c d n

/-- A row has been worked on: it is delivered, it waits, or it stops. A row above the cursor that fails does so only once the rows
before it are delivered (Table 10-3). -/
def DmaStep.after (x : DmaStep) (d : List Word) (n : Nat) (s : State) : Res :=
  match x.wait, x.stop with
  | true, _ => s.idle "a line of the row is in flight, or a row of memory in repair"
  | _, some (.status code) =>
    if n > x.c.cursor then s.idle "rows before the failing row are not delivered" else .next (x.s.dmaStop x.c n (.status code))
  | _, some st => .next (x.s.dmaStop x.c n st)
  | _, none => .next (x.s.rowDone x.c d n)

/-- DMA_ROW_DELIVERED (R172). Where the command is a packed tile whose header has not been read, that comes first (R132). -/
def execDmaRowDelivered (id row : Nat) (s : State) : Res :=
  s.clocked <|
  match s.dma.find? (fun c => c.id == id) with
  | none => s.idle "no such DMA command"
  | some c =>
    match c.desc with
    | none => s.idle "the command has not left the queue"
    | some d =>
      if c.susp.isSome || c.held || c.fail.isSome || !s.runsNow c || s.cmdHeld c.org.core id c.ranges then
        s.idle "the command is held"
      else if c.closed d then
        (if s.rowHeld c d 0 then s.idle "an earlier command of the engine has to deliver the bytes first"
         else
           let x := s.openPacked c d
           match x.wait, x.stop with
           | true, _ => s.idle "a line of the tile is in flight, or a row of memory in repair"
           | _, some st => .next (x.s.dmaStop x.c 0 st)
           | _, none => .next (x.s.putDma { x.c with looked := [] }))
      else if row ≥ c.rows d || c.has row || row > c.cursor + 64 || (c.inOrder d && row != c.cursor) then
        s.idle "the row is delivered, or not within reach"
      else if s.rowHeld c d row then s.idle "an earlier command of the engine has to deliver the bytes first"
      else (s.dmaRow c d row).after d row s

/-- DMA_COMMAND_COMPLETE: every row is delivered, or the command has failed (R171, R173). -/
def execDmaCommandComplete (id : Nat) (s : State) : Res :=
  s.clocked <|
  match s.dma.find? (fun c => c.id == id) with
  | none => s.idle "no such DMA command"
  | some c =>
    match c.desc with
    | none => s.idle "the command has not left the queue"
    | some d =>
      if c.susp.isSome || c.held then s.idle "the command is suspended or held"
      else match c.fail with
        | some (st, row) => .next (s.dmaDone c st row)
        | none =>
          if c.closed d || c.cursor < c.rows d then s.idle "rows are not delivered"
          else .next (s.dmaDone c 0 (if c.kind == 5 then c.unplaced else c.cursor))

end Sys2Proof.Machine
end

