-- ==== Sys2Proof/Machine/Flags.lean ====
section
/-! DEFINITION. Conditions: the block has no status flags; what decides a branch, a compare, a wait or a WAIT packet is
the condition code of Table 05-5a over integers or floats (R79). -/

namespace Sys2Proof.Machine

/-- A condition code on two integers of w bits: the code alone sets the signedness (R79). -/
def condInt (w cc a b : Nat) : Bool :=
  let x := a % 2 ^ w
  let y := b % 2 ^ w
  match cc with
  | 0 => x == y
  | 1 => x != y
  | 2 => decide (toSigned w x < toSigned w y)
  | 3 => decide (toSigned w y ≤ toSigned w x)
  | 4 => decide (toSigned w x ≤ toSigned w y)
  | 5 => decide (toSigned w y < toSigned w x)
  | 6 => decide (x < y)
  | 7 => decide (y ≤ x)
  | 8 => decide (x ≤ y)
  | 9 => decide (y < x)
  | _ => false

/-- A condition code on two floating values (R79): with a NaN every ordered code is false and NE is true. -/
def condFlt (cc : Nat) (a b : FVal) : Bool :=
  let un := a == .nan || b == .nan
  match cc with
  | 0 => a.eq b
  | 1 => !a.eq b
  | 2 => !un && a.lt b
  | 3 => !un && !a.lt b
  | 4 => !un && !b.lt a
  | 5 => !un && b.lt a
  | 10 => un
  | 11 => !un
  | _ => false

/-- A condition code on two elements of a type. -/
def condOf (t cc a b : Nat) : Bool :=
  match fmtOf t with
  | some f => condFlt cc (f.decode a) (f.decode b)
  | none => condInt (typeBits t) cc a b

end Sys2Proof.Machine
end

