-- ==== Sys2Proof/Machine/Special.lean ====
section
/-! DEFINITION. The special functions of VSFU (R151): the exactly rounded result, computed in fixed point with 640
fraction bits, and the choice within the bounds of Table 09-1 where it is not correctly rounded. -/

namespace Sys2Proof.Machine

/-- Fraction bits of the fixed point. -/
def fpBits : Nat := 640
/-- 1 in fixed point. -/
def fpOne : Int := ((2 ^ fpBits : Nat) : Int)
/-- Fixed-point product. -/
def fpMul (a b : Int) : Int := a * b / fpOne
/-- Fixed-point quotient. -/
def fpDiv (a b : Int) : Int := a * fpOne / b

/-- x + x^3/3 + x^5/5 + ... with alternating signs when `alt`: atanh or atan of a small x. -/
def fpAtan (alt : Bool) (x2 : Int) : Nat → Nat → Int → Int
  | 0, _, _ => 0
  | n + 1, k, p => p / (k : Int) + (if alt then - fpAtan alt x2 n (k + 2) (fpMul p x2) else fpAtan alt x2 n (k + 2) (fpMul p x2))

/-- ln of a fixed-point value in [1, 2). -/
def fpLn (y : Int) : Int :=
  let z := fpDiv (y - fpOne) (y + fpOne)
  2 * fpAtan false (fpMul z z) 210 1 z
/-- ln 2. -/
def fpLn2 : Int := 2 * fpAtan false (fpDiv fpOne (9 * fpOne)) 210 1 (fpOne / 3)
/-- atan of 1/n. -/
def fpAtanInv (n : Int) : Int := fpAtan true (fpOne / (n * n)) 160 1 (fpOne / n)

/-- exp of a small fixed-point value by its series. -/
def fpExpSer (x : Int) : Nat → Nat → Int → Int
  | 0, _, _ => 0
  | n + 1, k, p => p + fpExpSer x n (k + 1) (fpMul p x / (k : Int))
/-- exp of a fixed-point value with magnitude below 1. -/
def fpExp (x : Int) : Int := fpExpSer x 120 1 fpOne

/-- Sine or cosine series of a small fixed-point value. -/
def fpTrig (x2 : Int) : Nat → Nat → Int → Int
  | 0, _, _ => 0
  | n + 1, k, p => p - fpTrig x2 n (k + 2) (fpMul p x2 / ((k * (k + 1) : Nat) : Int))

/-- A magnitude in fixed point as an exact value with a sticky last bit. -/
def fpVal (x : Int) : FVal := .fin (decide (x < 0)) (2 * x.natAbs + 1) (-(fpBits : Int) - 1)

/-- m · 2^e in fixed point, truncated. -/
def fpOf (n : Bool) (m : Nat) (e : Int) : Int :=
  let k : Int := e + fpBits
  let a : Int := if 0 ≤ k then (m : Int) * (2 ^ k.toNat : Nat) else (m / 2 ^ (-k).toNat : Nat)
  if n then -a else a

/-- 1 / (m · 2^e), m not 0, with a sticky bit. -/
def invVal (n : Bool) (m : Nat) (e : Int) : FVal :=
  let q := 2 ^ 400 / m
  if q * m == 2 ^ 400 then .fin n q (-400 - e) else .fin n (2 * q + 1) (-401 - e)

/-- The square root of m · 2^e with a sticky bit. -/
def sqrtVal (m : Nat) (e : Int) : FVal :=
  let odd := e % 2 != 0
  let m' := (if odd then m * 2 else m) * 2 ^ 400
  let e' := ((if odd then e - 1 else e) - 400) / 2
  let r := Nat.sqrt m'
  if r * r == m' then .fin false r e' else .fin false (2 * r + 1) (e' - 1)

/-- 1 / √(m · 2^e) with a sticky bit. -/
def rsqVal (m : Nat) (e : Int) : FVal :=
  let odd := e % 2 != 0
  let m1 := if odd then m * 2 else m
  let e1 := (if odd then e - 1 else e) / 2
  let n := 2 ^ 600 / m1
  let r := Nat.sqrt n
  if r * r * m1 == 2 ^ 600 then .fin false r (-300 - e1) else .fin false (2 * r + 1) (-301 - e1)

/-- 2^x of a finite x: exact for an integer x. -/
def exp2Val (n : Bool) (m : Nat) (e : Int) : FVal :=
  if m == 0 then .fin false 1 0
  else if (Nat.log2 m : Int) + e > 12 then (if n then .fin false 0 0 else .inf false)
  else
    let x := fpOf n m e
    let k := x / fpOne
    let f := x - k * fpOne
    if f == 0 && 0 ≤ e + fpBits then .fin false 1 k
    else match fpVal (fpExp (fpMul f fpLn2)) with
      | .fin s a b => .fin s a (b + k)
      | v => v

/-- log₂ of m · 2^e, m not 0: exact for a power of two. -/
def log2Val (m : Nat) (e : Int) : FVal :=
  let l := Nat.log2 m
  let k : Int := (l : Int) + e
  if m == 2 ^ l then .fin (decide (k < 0)) k.natAbs 0
  else fpVal (k * fpOne + fpDiv (fpLn (fpOf false m (-(l : Int)))) fpLn2)

/-- e^x of a fixed-point x in ±512, in fixed point. -/
def fpExpBig (x : Int) : Int :=
  let k := x / fpLn2
  let r := fpExp (x - k * fpLn2)
  if 0 ≤ k then r * (2 ^ k.toNat : Nat) else r / (2 ^ (-k).toNat : Nat)

/-- tanh of a finite value. -/
def tanhVal (n : Bool) (m : Nat) (e : Int) : FVal :=
  if m == 0 then .fin n 0 0
  else if (Nat.log2 m : Int) + e > 6 then .fin n (2 ^ 300 - 1) (-300)
  else
    let ex := fpExpBig (2 * fpOf false m e)
    match fpVal (fpDiv (ex - fpOne) (ex + fpOne)) with
    | .fin _ a b => .fin n a b
    | v => v

/-- 1 / (1 + e^−x) of a finite value. -/
def sigmoidVal (n : Bool) (m : Nat) (e : Int) : FVal :=
  if m == 0 then .fin false 1 (-1)
  else if (Nat.log2 m : Int) + e > 8 then (if n then .fin false 1 (-2000) else .fin false (2 ^ 300 - 1) (-300))
  else fpVal (fpDiv fpOne (fpOne + fpExpBig (- fpOf n m e)))

/-- π with extra integer headroom: 4 · (4 atan 1/5 − atan 1/239), in fixed point. -/
def fpPi : Int := 4 * (4 * fpAtanInv 5 - fpAtanInv 239)

/-- sin (or cos) of a finite value: reduced by multiples of π/2. -/
def sinVal (cosine : Bool) (n : Bool) (m : Nat) (e : Int) : FVal :=
  if m == 0 then (if cosine then .fin false 1 0 else .fin n 0 0)
  else
    let x := fpOf n m e
    let q := (2 * x + fpPi / 2) / fpPi
    let r := x - q * fpPi / 2
    let r2 := fpMul r r
    let sin := fpTrig r2 80 2 r
    let cos := fpTrig r2 80 1 fpOne
    let i := (q + (if cosine then 1 else 0)) % 4
    fpVal (if i == 0 then sin else if i == 1 then cos else if i == 2 then -sin else -cos)

/-- The exact value of VSFU function `fn` (FN of Table 05-5), with the special values of Table 09-1. -/
def sfuExact (fn : Nat) (f : Fmt) (v : FVal) : FVal :=
  match v with
  | .nan => .nan
  | .inf n =>
    match fn with
    | 0 => .fin n 0 0
    | 1 => if n then .nan else .fin false 0 0
    | 2 => if n then .nan else .inf false
    | 3 => if n then .fin false 0 0 else .inf false
    | 4 => if n then .nan else .inf false
    | 5 => .nan
    | 6 => .nan
    | 7 => .fin n 1 0
    | _ => if n then .fin false 0 0 else .fin false 1 0
  | .fin n m e =>
    match fn with
    | 0 => if m == 0 then .inf n else invVal n m e
    | 1 => if m == 0 then .inf n else if n then .nan else rsqVal m e
    | 2 => if m == 0 then .fin n 0 0 else if n then .nan else sqrtVal m e
    | 3 =>
      let r := exp2Val n m e
      if r.lt (.fin false 1 f.q0) then .fin false 0 0 else r
    | 4 => if m == 0 then .inf true else if n then .nan else log2Val m e
    | 5 => sinVal false n m e
    | 6 => sinVal true n m e
    | 7 => tanhVal n m e
    | _ => sigmoidVal n m e

/-- An encoding as an integer in order of value. -/
def ordOf (f : Fmt) (w : Nat) : Int :=
  if bit w (f.e + f.m) then -((w % 2 ^ (f.e + f.m) : Nat) : Int) else (w : Int)

/-- |a − b| ≤ 2^−k for finite values. -/
def within (k : Nat) (a b : FVal) : Bool :=
  match a.add b.neg with
  | .fin _ m e => !(FVal.lt (.fin false 1 (-(k : Int))) (.fin false m e))
  | _ => false

/-- A candidate lies within the bound of Table 09-1 of the exactly rounded result. Units in the last place are counted as steps
of the encoding, across powers of two as well (DEDUCED, log entry 121). -/
def sfuAllowed (fn ty : Nat) (f : Fmt) (x r c : Nat) : Bool :=
  let ulp := fun (n : Nat) => decide ((ordOf f c - ordOf f r).natAbs ≤ n) && c < 2 ^ f.bits && r % 2 ^ (f.e + f.m) ≤ f.maxFin
    && c % 2 ^ (f.e + f.m) ≤ f.maxFin
  let v := f.decode x
  let av : FVal := match v with | .fin _ m e => .fin false m e | w => w
  let fin := v != .nan && (match v with | .inf _ => false | _ => true)
  if ty == 0x04 then
    if fn == 0 || fn == 1 then fin && !v.isZero && ulp 1
    else if fn == 3 then fin && f.decode r != .fin false 0 f.q0 && ulp 2
    else if fn == 4 then
      fin && !v.isZero && !v.isNeg &&
        (if !(av.lt (.fin false 1 (-1))) && !(FVal.lt (.fin false 2 0) av) then ulp 2
         else c < 2 ^ 32 && within 22 (f.decode c) (f.decode r))
    else if fn == 5 || fn == 6 then
      fin && c < 2 ^ 32 && (if !(FVal.lt (fpVal (fpPi * 2 ^ 15)) av) then within 21 (f.decode c) (f.decode r)
        else within 10 (f.decode c) (f.decode r))
    else if fn == 7 || fn == 8 then fin && ulp 2
    else false
  else if fn == 5 || fn == 6 then fin && ulp 1
  else false

/-- The result of a VSFU function on bits x of type ty (R151): the exactly rounded result, or the implementation's
choice where Table 09-1 leaves one within its bound. -/
def sfu (fn ty x : Nat) : Nat :=
  match fmtOf ty with
  | none => 0
  | some f =>
    let x := x % 2 ^ f.bits
    let r := f.round 0 false (fun _ => 0) (sfuExact fn f (f.decode x))
    let c := (Config.vsfuChoice fn ty (BitVec.ofNat 32 x)).toNat
    if sfuAllowed fn ty f x r c then c else r

end Sys2Proof.Machine
end

