-- ==== Sys2Proof/Machine/Alu.lean ====
section
/-! DEFINITION. The element operations of the vector and scalar ALUs (R92, R98, R149, R150), by FN of Table 05-5. -/

namespace Sys2Proof.Machine

/-- Set bits of the low w bits. -/
def popcount (w n : Nat) : Nat := ((List.range w).map (fun i => b2n (bit n i))).sum

/-- Quotient rounded toward zero; a divisor of 0 gives all ones, and the most negative value over −1 itself (R149). -/
def divInt (w a b : Nat) : Nat :=
  if b % 2 ^ w == 0 then ones w else ofSigned w (Int.tdiv (toSigned w a) (toSigned w b))
/-- Remainder with the sign of the dividend; a divisor of 0 gives the dividend (R149). -/
def remInt (w a b : Nat) : Nat :=
  if b % 2 ^ w == 0 then a % 2 ^ w else ofSigned w (Int.tmod (toSigned w a) (toSigned w b))

/-- Integer operations on w bits, `sgn` for I32 and I64 (R98, R149). DIV and REM are signed and DIVU and REMU unsigned by FN
alone, whatever the type (DEDUCED, log entry 120). -/
def intOp (fn w : Nat) (sgn : Bool) (a b c : Nat) : Nat :=
  let a := a % 2 ^ w
  let b := b % 2 ^ w
  let less : Bool := if sgn then decide (toSigned w a < toSigned w b) else decide (a < b)
  match fn with
  | 0x00 => (a + b) % 2 ^ w
  | 0x01 => (a + (2 ^ w - b)) % 2 ^ w
  | 0x02 => a * b % 2 ^ w
  | 0x03 => (a * b + c) % 2 ^ w
  | 0x04 => if less then a else b
  | 0x05 => if less then b else a
  | 0x06 => if toSigned w a < 0 then (2 ^ w - a) % 2 ^ w else a
  | 0x07 => (2 ^ w - a) % 2 ^ w
  | 0x08 => a &&& b
  | 0x09 => a ||| b
  | 0x0A => a ^^^ b
  | 0x0B => ones w - a
  | 0x0C => a * 2 ^ (b % w) % 2 ^ w
  | 0x0D => a / 2 ^ (b % w)
  | 0x0E => ofSigned w (toSigned w a / (2 ^ (b % w) : Nat))
  | 0x10 => if a == 0 then w else w - 1 - Nat.log2 a
  | 0x11 => popcount w a
  | 0x12 => a
  | 0x13 => divInt w a b
  | 0x14 => remInt w a b
  | 0x15 => if b == 0 then ones w else a / b
  | 0x16 => if b == 0 then a else a % b
  | _ => 0

/-- Floating operations in a format (R92, R150). -/
def fltOp (fn : Nat) (f : Fmt) (rm : Nat) (sat : Bool) (dr : Nat → Nat) (a b c : Nat) : Nat :=
  let x := f.decode a
  let y := f.decode b
  let z := f.decode c
  match fn with
  | 0x00 => f.round rm sat dr (x.add y)
  | 0x01 => f.round rm sat dr (x.add y.neg)
  | 0x02 => f.round rm sat dr (x.mul y)
  | 0x03 => f.round rm sat dr ((x.mul y).add z)
  | 0x04 => f.round 0 false dr (x.minmax false y)
  | 0x05 => f.round 0 false dr (x.minmax true y)
  | 0x06 => if x == .nan then f.canon else a % 2 ^ (f.e + f.m)
  | 0x07 => if x == .nan then f.canon else (a % 2 ^ f.bits + 2 ^ (f.e + f.m)) % 2 ^ f.bits
  | 0x12 => a % 2 ^ f.bits
  | _ => 0

/-- One element of an ALU operation under a type code. -/
def aluElem (fn t rm : Nat) (sat : Bool) (dr : Nat → Nat) (a b c : Nat) : Nat :=
  match fmtOf t with
  | some f => fltOp fn f rm sat dr a b c
  | none => intOp fn (typeBits t) (t == 0 || t == 2) a b c

/-- How a result stands in a scalar register: I32 sign-extended, U32 and floats with 0 above (R149, R150). -/
def scalarForm (t x : Nat) : Nat := if t == 0 then ofSigned 64 (toSigned 32 x) else x % 2 ^ typeBits t

end Sys2Proof.Machine
end

