-- ==== Sys2Proof/Machine/Vector.lean ====
section
/-! DEFINITION. Vector instructions: ALU, special functions, conversion, compares and predicates (R148 to R152). -/

namespace Sys2Proof.Machine

/-- The keys of lane i of a register operand. -/
def laneKeys (wide : Bool) (r i : Nat) : List Nat := if wide then [r * 32 + i, (r + 1) * 32 + i] else [r * 32 + i]

/-- The lanes of a mask that use a poisoned source: `vuse` gives the vector lanes lane i uses, `suse` the scalar
registers every lane uses (R352). -/
def poisonMask (g : Group) (m : Half) (suse : List Nat) (vuse : Nat → List Nat) : Half :=
  if suse.any (fun x => g.spois.contains x) then m
  else maskOf ((lanesOf m).filter (fun i => (vuse i).any (fun k => g.vpois.contains k)))

/-- A vector instruction: poison in a source is a group fault, else `k` gives the group's new registers. -/
def runVec (s : State) (r : GroupRef) (e : Enc) (i : Ins) (suse : List Nat) (vuse : Group → Nat → List Nat)
    (k : Group → Launch → Half → Group) : Res :=
  issue s r e i (fun s g l =>
    let m := effMask g e
    let pm := poisonMask g m suse (vuse g)
    if pm != 0 then raise s r e i g l 0x0E pm 0 else s.finish r e (k g l m))

/-- Write the elements of the lanes of a mask, sources read first (R148). -/
def Group.writeLanes (g : Group) (wide : Bool) (d : Nat) (m : Half) (f : Nat → Nat) : Group :=
  ((lanesOf m).map (fun i => (i, f i))).foldl (fun h p => h.setElem wide d p.1 p.2) g

/-- The draw for lane i of an instruction (Table 06-2). -/
def laneDraw (l : Launch) (g : Group) (i : Nat) : Nat → Nat :=
  draw l.seed g.pc.toNat (g.index * 32 + i)

/-- Operand B of a lane: the immediate, a broadcast scalar (BS), or a vector lane. -/
def vecB (g : Group) (e : Enc) (t i : Nat) : Nat :=
  if e.imm then immBits e t
  else if encBS e then (g.gs (encB e)).toNat % 2 ^ (if isWide t then 64 else 32)
  else g.elem (isWide t) (encB e) i

/-- VALU and VALUI at the front end. -/
def valuIns (fn : Nat) (e : Enc) : Ins :=
  ⟨if e.imm then 0x05 else 0x04, fn, decodeAlu false fn e, if !e.imm && encBS e then [encB e] else []⟩

/-- The vector lanes that lane i of a VALU or VALUI operation reads. -/
def valuLanes (fn : Nat) (e : Enc) (i : Nat) : List Nat :=
  (if e.imm && fn == 0x12 then [] else laneKeys (isWide (encT e)) (encA e) i) ++
    (if e.imm || unaryFn fn || encBS e then [] else laneKeys (isWide (encT e)) (encB e) i) ++
    (if fn == 0x03 then laneKeys (isWide (encT e)) (encC e) i else [])

/-- The element that a VALU or VALUI operation gives lane i (R149, R150): SEL takes vA or vB by pC, MOV of an immediate
takes it, every other operation is the element operation on vA, operand B and vC. -/
def valuElem (l : Launch) (g : Group) (e : Enc) (fn i : Nat) : Nat :=
  let t := encT e
  let w := isWide t
  let a := g.elem w (encA e) i
  let b := vecB g e t i
  if fn == 0x0F then (if (g.gp (encC e)).getLsbD i then a else b) % 2 ^ typeBits t
  else if fn == 0x12 && e.imm then b
  else aluElem fn t (if e.imm then 0 else encRM e) (!e.imm && encSAT e) (laneDraw l g i) a b
    (if fn == 0x03 then g.elem w (encC e) i else 0)

/-- VALU and VALUI (R149, R150). -/
def vectorAlu (fn : Nat) (r : GroupRef) (e : Enc) (s : State) : Res :=
  runVec s r e (valuIns fn e) (valuIns fn e).sregs (fun _ => valuLanes fn e)
    (fun g l m => g.writeLanes (isWide (encT e)) (encD e) m (valuElem l g e fn))

/-- VSFU (R151). -/
def vectorSfu (fn : Nat) (r : GroupRef) (e : Enc) (s : State) : Res :=
  runVec s r e ⟨0x06, fn, decodeSfu e, []⟩ [] (fun _ i => laneKeys false (encA e) i)
    (fun g _ m => g.writeLanes false (encD e) m (fun i => sfu fn (encT e) (g.gv (encA e) i).toNat))

/-- The value that lane i gives an MX block: +0 outside the mask (R152). -/
def blockVal (g : Group) (e : Enc) (m : Half) (i : Nat) : FVal :=
  match fmtOf (cvtSrc e) with
  | some f => if m.getLsbD i then f.decode ((g.gv (encA e) i).toNat % 2 ^ f.bits) else .fin false 0 0
  | none => .fin false 0 0

/-- One lane of VCVT, but for MX results (R97, R152). The exact value of an MX element is converted by the row "Float →
narrower float", under RM and SAT, for every result type (DESIGN CHOICE, log entry 115). -/
def cvtLane (l : Launch) (g : Group) (e : Enc) (i : Nat) : Nat :=
  let t := encT e
  let u := cvtSrc e
  let x := g.elem (isWide u) (encA e) i
  if isMx u then
    if t == u then x % 2 ^ 16
    else match fmtOf t with
      | some f => f.round (encRM e) (encSAT e) (laneDraw l g i) (mxDecode u (fld x 15 8) (x % 2 ^ typeBits u))
      | none => 0
  else convert u t (encRM e) (encSAT e) (laneDraw l g i) (x % 2 ^ typeBits u)

/-- VCVT (R152). -/
def execVcvt (g : GroupRef) (e : Enc) (s : State) : Res :=
  runVec s g e ⟨0x07, 0, decodeCvt e, []⟩ [] (fun _ i => laneKeys (isWide (cvtSrc e)) (encA e) i)
    (fun g l m =>
      if isMx (encT e) && encT e != cvtSrc e then
        let b := mxBlock (encT e) (encRM e) (fun j => laneDraw l g j) ((List.range 32).map (blockVal g e m))
        g.writeLanes false (encD e) m (fun i => b.2.getD i 0 + b.1 * 256)
      else g.writeLanes (isWide (encT e)) (encD e) m (cvtLane l g e))

/-- VCMP: bits outside the mask are 0 (R148, R79). -/
def execVcmp (g : GroupRef) (e : Enc) (s : State) : Res :=
  let t := encT e
  let w := isWide t
  let suse := if encBS e then [encB e] else []
  runVec s g e ⟨0x08, 0, decodeCmp false e, suse⟩ suse
    (fun _ i => laneKeys w (encA e) i ++ (if encBS e then [] else laneKeys w (encB e) i))
    (fun g _ m => g.setP (encD e) (maskOf ((lanesOf m).filter (fun i =>
      condOf t (encC e / 4) (g.elem w (encA e) i) (vecB g e t i)))))

/-- A predicate operation: all 32 bits of pD, 0 outside the mask (R148). -/
def predOp (fn : Nat) (r : GroupRef) (e : Enc) (s : State) (f : Group → Half) (suse : List Nat) : Res :=
  runVec s r e ⟨0x09, fn, decodePred fn e, suse⟩ suse (fun _ _ => []) (fun g _ m => g.setP (encD e) (f g &&& m))

/-- PAND (R148). -/
def execPand (g : GroupRef) (e : Enc) (s : State) : Res := predOp 0 g e s (fun g => g.gp (encA e) &&& g.gp (encB e)) []
/-- POR (R148). -/
def execPor (g : GroupRef) (e : Enc) (s : State) : Res := predOp 1 g e s (fun g => g.gp (encA e) ||| g.gp (encB e)) []
/-- PXOR (R148). -/
def execPxor (g : GroupRef) (e : Enc) (s : State) : Res := predOp 2 g e s (fun g => g.gp (encA e) ^^^ g.gp (encB e)) []
/-- PNOT (R148). -/
def execPnot (g : GroupRef) (e : Enc) (s : State) : Res := predOp 3 g e s (fun g => ~~~(g.gp (encA e))) []
/-- PMOV: the low 32 bits of sA (R148). -/
def execPmov (g : GroupRef) (e : Enc) (s : State) : Res :=
  predOp 4 g e s (fun g => BitVec.ofNat 32 (g.gs (encA e)).toNat) [encA e]
/-- PTOS: all 32 bits of pA (R148). -/
def execPtos (g : GroupRef) (e : Enc) (s : State) : Res :=
  issue s g e ⟨0x09, 5, decodePred 5 e, []⟩ (fun s h _ =>
    s.finish g e (h.setS (encD e) (BitVec.ofNat 64 (h.gp (encA e)).toNat)))
/-- PCNT: the set bits of pA (R148). -/
def execPcnt (g : GroupRef) (e : Enc) (s : State) : Res :=
  issue s g e ⟨0x09, 6, decodePred 6 e, []⟩ (fun s h _ =>
    s.finish g e (h.setS (encD e) (BitVec.ofNat 64 (popcount 32 (h.gp (encA e)).toNat))))

/-- VADD (R149, R150). -/
def execVadd (g : GroupRef) (e : Enc) (s : State) : Res := vectorAlu 0x00 g e s
/-- VSUB (R149, R150). -/
def execVsub (g : GroupRef) (e : Enc) (s : State) : Res := vectorAlu 0x01 g e s
/-- VMUL (R149, R150). -/
def execVmul (g : GroupRef) (e : Enc) (s : State) : Res := vectorAlu 0x02 g e s
/-- VMAD (R149, R150). -/
def execVmad (g : GroupRef) (e : Enc) (s : State) : Res := vectorAlu 0x03 g e s
/-- VMIN (R149, R150). -/
def execVmin (g : GroupRef) (e : Enc) (s : State) : Res := vectorAlu 0x04 g e s
/-- VMAX (R149, R150). -/
def execVmax (g : GroupRef) (e : Enc) (s : State) : Res := vectorAlu 0x05 g e s
/-- VABS (R149, R150). -/
def execVabs (g : GroupRef) (e : Enc) (s : State) : Res := vectorAlu 0x06 g e s
/-- VNEG (R149, R150). -/
def execVneg (g : GroupRef) (e : Enc) (s : State) : Res := vectorAlu 0x07 g e s
/-- VAND (R149, R150). -/
def execVand (g : GroupRef) (e : Enc) (s : State) : Res := vectorAlu 0x08 g e s
/-- VOR (R149, R150). -/
def execVor (g : GroupRef) (e : Enc) (s : State) : Res := vectorAlu 0x09 g e s
/-- VXOR (R149, R150). -/
def execVxor (g : GroupRef) (e : Enc) (s : State) : Res := vectorAlu 0x0A g e s
/-- VNOT (R149, R150). -/
def execVnot (g : GroupRef) (e : Enc) (s : State) : Res := vectorAlu 0x0B g e s
/-- VSHL (R149, R150). -/
def execVshl (g : GroupRef) (e : Enc) (s : State) : Res := vectorAlu 0x0C g e s
/-- VSHR (R149, R150). -/
def execVshr (g : GroupRef) (e : Enc) (s : State) : Res := vectorAlu 0x0D g e s
/-- VSRA (R149, R150). -/
def execVsra (g : GroupRef) (e : Enc) (s : State) : Res := vectorAlu 0x0E g e s
/-- VSEL (R149, R150). -/
def execVsel (g : GroupRef) (e : Enc) (s : State) : Res := vectorAlu 0x0F g e s
/-- VCLZ (R149, R150). -/
def execVclz (g : GroupRef) (e : Enc) (s : State) : Res := vectorAlu 0x10 g e s
/-- VPOPC (R149, R150). -/
def execVpopc (g : GroupRef) (e : Enc) (s : State) : Res := vectorAlu 0x11 g e s
/-- VMOV (R149, R150). -/
def execVmov (g : GroupRef) (e : Enc) (s : State) : Res := vectorAlu 0x12 g e s
/-- VRCP (R151). -/
def execVrcp (g : GroupRef) (e : Enc) (s : State) : Res := vectorSfu 0x00 g e s
/-- VRSQ (R151). -/
def execVrsq (g : GroupRef) (e : Enc) (s : State) : Res := vectorSfu 0x01 g e s
/-- VSQRT (R151). -/
def execVsqrt (g : GroupRef) (e : Enc) (s : State) : Res := vectorSfu 0x02 g e s
/-- VEXP2 (R151). -/
def execVexp2 (g : GroupRef) (e : Enc) (s : State) : Res := vectorSfu 0x03 g e s
/-- VLOG2 (R151). -/
def execVlog2 (g : GroupRef) (e : Enc) (s : State) : Res := vectorSfu 0x04 g e s
/-- VSIN (R151). -/
def execVsin (g : GroupRef) (e : Enc) (s : State) : Res := vectorSfu 0x05 g e s
/-- VCOS (R151). -/
def execVcos (g : GroupRef) (e : Enc) (s : State) : Res := vectorSfu 0x06 g e s
/-- VTANH (R151). -/
def execVtanh (g : GroupRef) (e : Enc) (s : State) : Res := vectorSfu 0x07 g e s
/-- VSIGMOID (R151). -/
def execVsigmoid (g : GroupRef) (e : Enc) (s : State) : Res := vectorSfu 0x08 g e s

end Sys2Proof.Machine
end

