-- ==== Sys2Proof/Machine/Permute.lean ====
section
/-! DEFINITION. Lane permutes, reductions and scans (R153 to R155). -/

namespace Sys2Proof.Machine

/-- The lane index of SHFL, BCAST and VTOS, or ROT's source lane, for lane i (R153). -/
def permLane (fn : Nat) (g : Group) (e : Enc) (i : Nat) : Nat :=
  if fn == 0 then (if encBS e then (g.gs (encB e)).toNat else g.elem (isWide (encT e)) (encB e) i) % 32
  else if fn == 2 then (i + (g.gs (encB e)).toNat) % 32
  else (g.gs (encB e)).toNat % 32

/-- SHFL, BCAST and ROT. -/
def permOp (fn : Nat) (r : GroupRef) (e : Enc) (s : State) : Res :=
  let w := isWide (encT e)
  let sc := fn != 0 || encBS e
  let suse := if sc then [encB e] else []
  runVec s r e ⟨0x0A, fn, decodePerm fn e, suse⟩ suse
    (fun g i => laneKeys w (encA e) (permLane fn g e i) ++ (if sc then [] else laneKeys w (encB e) i))
    (fun g _ m => g.writeLanes w (encD e) m (fun i => g.elem w (encA e) (permLane fn g e i) % 2 ^ typeBits (encT e)))

/-- SHFL (R153). -/
def execShfl (g : GroupRef) (e : Enc) (s : State) : Res := permOp 0 g e s
/-- BCAST (R153). -/
def execBcast (g : GroupRef) (e : Enc) (s : State) : Res := permOp 1 g e s
/-- ROT (R153). -/
def execRot (g : GroupRef) (e : Enc) (s : State) : Res := permOp 2 g e s

/-- VTOS: one lane, zero-extended, whatever the mask holds (R76, R153). -/
def execVtos (g : GroupRef) (e : Enc) (s : State) : Res :=
  let w := isWide (encT e)
  let i : Ins := ⟨0x0A, 7, decodePerm 7 e, [encB e]⟩
  issue s g e i (fun s h l =>
    let k := permLane 7 h e 0
    if h.spois.contains (encB e) || (laneKeys w (encA e) k).any (fun x => h.vpois.contains x) then
      raise s g e i h l 0x0E (if h.spois.contains (encB e) then h.act else maskOf [k]) 0
    else s.finish g e (h.setS (encD e) (BitVec.ofNat 64 (h.elem w (encA e) k % 2 ^ typeBits (encT e)))))

/-- STOV: a 64-bit type takes the whole of sA, every other type its low 32 bits (R153). -/
def execStov (g : GroupRef) (e : Enc) (s : State) : Res :=
  let w := isWide (encT e)
  runVec s g e ⟨0x0A, 8, decodePerm 8 e, [encA e]⟩ [encA e] (fun _ _ => [])
    (fun g _ m => g.writeLanes w (encD e) m (fun _ => (g.gs (encA e)).toNat % 2 ^ (if w then 64 else 32)))

/-! ### Reductions (R154) and scans (R155) -/

/-- One level of the pairwise tree: level k combines node pairs; an absent node's partner passes up unchanged. The
combiner is given the lowest lane position of the higher node (Table 06-2). -/
def treeLevel (comb : Nat → Nat → Nat → Nat) (k : Nat) : Nat → List (Option Nat) → List (Option Nat)
  | j, a :: b :: rest =>
    (match a, b with
     | some x, some y => some (comb (2 ^ k * j + 2 ^ (k - 1)) x y)
     | some x, none => some x
     | none, y => y) :: treeLevel comb k (j + 1) rest
  | _, _ => []

/-- The whole tree over 32 positions. -/
def treeReduce (comb : Nat → Nat → Nat → Nat) (xs : List (Option Nat)) : Option Nat :=
  ((List.range 5).foldl (fun ys k => treeLevel comb (k + 1) 0 ys) xs).head?.getD none

/-- The identity of a reduction when no lane is active (R154). -/
def redIdentity (fn t : Nat) : Nat :=
  if fn == 3 then 0
  else match fmtOf t with
    | some f => if fn == 4 then f.inf else f.inf + 2 ^ (f.e + f.m)
    | none =>
      let w := typeBits t
      let sgn := t == 0 || t == 2
      if fn == 4 then (if sgn then 2 ^ (w - 1) - 1 else ones w) else if sgn then 2 ^ (w - 1) else 0

/-- ALU FN of a reduction. -/
def redFn (fn : Nat) : Nat := if fn == 3 then 0x00 else if fn == 4 then 0x04 else 0x05

/-- A result x of type t in a scalar register: the manual does not say what stands above 32 integer bits, and those bits
are a free value, fixed by the operation and its operands (R105, log entry 1). -/
def lowScalar (fn t : Nat) (operands : List Nat) (x : Nat) : Word :=
  BitVec.ofNat 64 (x % 2 ^ typeBits t + (if t ≤ 1 then (Config.highBits fn operands).toNat * 2 ^ 32 else 0))

/-- REDADD, REDMIN and REDMAX (R154): at an effective mask of 0 the whole of sD is the identity, with I32 sign-extended as
in R149 (log entry 97). -/
def redOp (fn : Nat) (r : GroupRef) (e : Enc) (s : State) : Res :=
  let t := encT e
  let w := isWide t
  let i : Ins := ⟨0x0A, fn, decodePerm fn e, []⟩
  issue s r e i (fun s g l =>
    let m := effMask g e
    let pm := poisonMask g m [] (fun i => laneKeys w (encA e) i)
    if pm != 0 then raise s r e i g l 0x0E pm 0
    else
      let comb := fun p x y => aluElem (redFn fn) t (if fn == 3 then encRM e else 0) (fn == 3 && encSAT e) (laneDraw l g p) x y 0
      let xs := (List.range 32).map (fun i => if m.getLsbD i then some (g.elem w (encA e) i % 2 ^ typeBits t) else none)
      s.finish r e (g.setS (encD e) (match treeReduce comb xs with
        | some v => lowScalar (0x40 + fn) t (xs.map (fun x => x.getD (2 ^ 64))) v
        | none => BitVec.ofNat 64 (scalarForm t (redIdentity fn t)))))

/-- REDADD (R154). -/
def execRedadd (g : GroupRef) (e : Enc) (s : State) : Res := redOp 3 g e s
/-- REDMIN (R154). -/
def execRedmin (g : GroupRef) (e : Enc) (s : State) : Res := redOp 4 g e s
/-- REDMAX (R154). -/
def execRedmax (g : GroupRef) (e : Enc) (s : State) : Res := redOp 5 g e s

/-- Inclusive prefix sums over active lanes, ascending (R155). The first active lane takes its element unchanged, a NaN with
its payload: no addition is made there (DEDUCED, log entry 122). -/
def scanLanes (add : Nat → Nat → Nat → Nat) (val : Nat → Nat) : Option Nat → List Nat → List (Nat × Nat)
  | _, [] => []
  | none, i :: is => (i, val i) :: scanLanes add val (some (val i)) is
  | some a, i :: is => (i, add i a (val i)) :: scanLanes add val (some (add i a (val i))) is

/-- SCANADD (R155). -/
def execScanadd (g : GroupRef) (e : Enc) (s : State) : Res :=
  let t := encT e
  let w := isWide t
  runVec s g e ⟨0x0A, 6, decodePerm 6 e, []⟩ [] (fun _ i => laneKeys w (encA e) i)
    (fun g l m =>
      (scanLanes (fun i a b => aluElem 0x00 t (encRM e) (encSAT e) (laneDraw l g i) a b 0)
        (fun i => g.elem w (encA e) i % 2 ^ typeBits t) none (lanesOf m)).foldl
        (fun h p => h.setElem w (encD e) p.1 p.2) g)

end Sys2Proof.Machine
end

