-- ==== Sys2Proof/Machine/LoadStore.lean ====
section
/-! DEFINITION. Vector and scalar loads and stores, atomics and FENCE (R81, R156, R204, R210 to R212). -/

namespace Sys2Proof.Machine

/-- Bytes of SZ of the Mem format. -/
def memBytes (e : Enc) : Nat := 2 ^ encF e 25 23
/-- sA + IMM of the Mem format. -/
def memBase (g : Group) (e : Enc) : Int := ((g.gs (encA e)).toNat : Int) + toSigned 22 (encF e 21 0)
/-- The address of a vector lane (R81). -/
def memLane (g : Group) (e : Enc) (i : Nat) : Nat :=
  ofSigned 64 (memBase g e + (if encF e 27 27 == 1 then ((g.gv (encB e) i).toNat : Int) else ((i * memBytes e : Nat) : Int)))

/-- A loaded value extended to the register (SX). -/
def extended (e : Enc) (bs : List Byte) : Nat :=
  let n := ofLe bs
  if encF e 22 22 == 1 then ofSigned (if encF e 25 23 == 3 then 64 else 32) (toSigned (8 * memBytes e) n) else n

/-- VLD (R156). -/
def execVld (g : GroupRef) (e : Enc) (s : State) : Res :=
  let i : Ins := ⟨0x0C, 0, decodeMem false false e, [encA e]⟩
  let ix := encF e 27 27 == 1
  issue s g e i (fun s h l =>
    let m := effMask h e
    let pa := poisonMask h m [encA e] (fun j => if ix then laneKeys false (encB e) j else [])
    let xs := (lanesOf (m &&& ~~~pa)).map (fun j => (j, memLane h e j))
    access s g e i h l (encF e 26 26 == 1) needR .load false true false (memBytes e) pa xs (fun t bs =>
      t.finish g e (bs.foldl (fun h b =>
        h.setElem (encF e 25 23 == 3) (encD e) b.lane (extended e (t.readLocs 0 b.locs).1)) h)))

/-- VST (R156). -/
def execVst (g : GroupRef) (e : Enc) (s : State) : Res :=
  let i : Ins := ⟨0x0D, 0, decodeMem false true e, [encA e]⟩
  let ix := encF e 27 27 == 1
  let w := encF e 25 23 == 3
  issue s g e i (fun s h l =>
    let m := effMask h e
    let pa := poisonMask h m [encA e] (fun j => if ix then laneKeys false (encB e) j else [])
    let pd := poisonMask h m [] (fun j => laneKeys w (encD e) j)
    let xs := (lanesOf (m &&& ~~~pa)).map (fun j => (j, memLane h e j))
    access s g e i h l (encF e 26 26 == 1) needW .store true false false (memBytes e) (pa ||| pd) xs (fun t bs =>
      (t.writeLanes bs (fun b => leBytes (h.elem w (encD e) b.lane) (memBytes e))).finish g e h))

/-- A scalar register of those listed is poisoned: the mask of the scalar access's lane (R352). -/
def scalarBad (h : Group) (rs : List Nat) : Half := if rs.any (fun x => h.spois.contains x) then maskOf [lowLane h.act] else 0

/-- SLD (R81, R149). The bits of sD above a loaded value of 32 bits or fewer: SX extends a value of 8 or 16 bits to the
register; a 32-bit load is zero-extended (R81, Table 05-3). -/
def execSld (g : GroupRef) (e : Enc) (s : State) : Res :=
  let i : Ins := ⟨0x1C, 0, decodeMem true false e, [encA e]⟩
  issue s g e i (fun s h l =>
    let pa := scalarBad h [encA e]
    let xs := if pa == 0 then [(lowLane h.act, ofSigned 64 (memBase h e))] else []
    access s g e i h l (encF e 26 26 == 1) needR .load false true true (memBytes e) pa xs (fun t bs =>
      let v := match bs with | [] => 0 | b :: _ => ofLe (t.readLocs 0 b.locs).1
      let v := if encF e 22 22 == 1 then ofSigned 64 (toSigned (8 * memBytes e) v) else v
      t.finish g e (h.setS (encD e) (BitVec.ofNat 64 v))))

/-- SST (R81). -/
def execSst (g : GroupRef) (e : Enc) (s : State) : Res :=
  let i : Ins := ⟨0x1D, 0, decodeMem true true e, [encA e, encD e]⟩
  issue s g e i (fun s h l =>
    let xs := if scalarBad h [encA e] == 0 then [(lowLane h.act, ofSigned 64 (memBase h e))] else []
    access s g e i h l (encF e 26 26 == 1) needW .store true false true (memBytes e) (scalarBad h [encA e, encD e]) xs
      (fun t bs => (t.writeLanes bs (fun _ => leBytes (h.gs (encD e)).toNat (memBytes e))).finish g e h))

/-! ### Atomics (R210 to R212) -/

/-- The new value of an atomic on w bits: AOP of Table 05-3, operand and compare value; FADD on F32 or BF16 (R106). -/
def atomNew (aop w ty old opd cmp : Nat) : Nat :=
  let less : Bool := decide (toSigned w old < toSigned w opd)
  match aop with
  | 0 => (old + opd) % 2 ^ w
  | 1 => old &&& opd
  | 2 => old ||| opd
  | 3 => old ^^^ opd
  | 4 => if less then old else opd
  | 5 => if less then opd else old
  | 6 => min old opd
  | 7 => max old opd
  | 8 => opd
  | 9 => if old == cmp then opd else old
  | 0xA => faddRne ty old opd
  | _ => old

/-- Perform the lanes of an atomic one after another in ascending lane order (R212); the old values are returned. -/
def State.atomLanes (aop n ty : Nat) (opd cmp : Nat → Nat) : State → List LaneBytes → State × List (Nat × Nat)
  | s, [] => (s, [])
  | s, b :: bs =>
    let old := ofLe (s.readLocs 0 b.locs).1
    let w := 8 * n
    let s := s.writeLocs 0 b.locs (leBytes (atomNew aop w ty old (opd b.lane % 2 ^ w) (cmp b.lane % 2 ^ w)) n)
    let (t, olds) := State.atomLanes aop n ty opd cmp s bs
    (t, (b.lane, old) :: olds)

/-- A ROUTE of the group has not written its results: a fence, or the fence that an atomic begins with, waits for it
(R204, R206, R210). -/
def State.ownRoute (s : State) (r : GroupRef) (launch : Nat) : Bool :=
  s.routes.any (fun c => c.org.of launch && c.org.core == r.core.toNat && c.org.slot == r.slot.toNat)

/-- ATOM (R81, R210). -/
def execAtom (g : GroupRef) (e : Enc) (s : State) : Res :=
  let vec := encF e 13 13 == 1
  let wide := encF e 15 15 == 1
  let n := if wide then 8 else 4
  let aop := encF e 19 16
  let cas := aop == 9
  let sregs := if vec then [] else [encA e, encB e] ++ (if cas then [encC e] else [])
  let i : Ins := ⟨0x0E, 0, decodeAtom e, sregs⟩
  let use : CohUse := if encF e 21 20 ≤ 1 then .store else .home
  issue s g e i (fun s h l =>
    let m := if vec then effMask h e else maskOf [lowLane h.act]
    let pa := if vec then poisonMask h m [] (fun j => laneKeys false (encA e) j) else scalarBad h [encA e]
    let pd := if vec then
        poisonMask h m [] (fun j => laneKeys wide (encB e) j ++ (if cas then laneKeys wide (encC e) j else []))
      else scalarBad h sregs
    let xs := (lanesOf (m &&& ~~~pa)).map (fun j => (j, if vec then h.elem false (encA e) j else (h.gs (encA e)).toNat))
    if s.ownRoute g h.launch then .next s
    else
      access s g e i h l (encF e 14 14 == 1) needRWA use true true (!vec) n (pa ||| pd) xs (fun t bs =>
        let (t, olds) := t.atomLanes aop n 4
          (fun j => if vec then h.elem wide (encB e) j else (h.gs (encB e)).toNat)
          (fun j => if vec then h.elem wide (encC e) j else (h.gs (encC e)).toNat) bs
        let t := if bs.isEmpty || encF e 21 20 ≤ 1 then t else t.noteUnreplayable h.launch
        if vec then t.finish g e (olds.foldl (fun h p => h.setElem wide (encD e) p.1 p.2) h)
        else
          let old := (olds.head?.map Prod.snd).getD 0
          t.finish g e (h.setS (encD e) (lowScalar 0x0E (if wide then 3 else 1) [old] old))))

/-- FENCE: every load, store and atomic of a group is performed when it issues, so the fence waits for the group's ROUTE
alone, whose list is written after its issue (R204, R206). -/
def execFence (g : GroupRef) (e : Enc) (s : State) : Res :=
  issue s g e ⟨0x0F, 0, decodeBare true e, []⟩ (fun s h _ =>
    if s.ownRoute g h.launch then .next s else s.finish g e h)

end Sys2Proof.Machine
end

