-- ==== Sys2Proof/Machine/RmoTarget.lean ====
section
/-! DEFINITION. The target side of an RMO: the checks of a byte range (R184, R185), what a message does to its bytes
(R186, R192, R193); the failure of an RMO at its requester (R189); and the end of a launch that a watchdog ends (R366,
R367). -/

namespace Sys2Proof.Machine

/-! ### The checks of R185 -/

/-- The device takes requests for a core's pool (R18, R30, R374). -/
def State.poolOpen (s : State) (core : Nat) : Bool :=
  s.coreValid core && s.dieUp (coreDie core) && (Map.find? s.modeChg (coreBasin core)).isNone &&
    !s.sluiced.contains (s.basinOwner (coreBasin core))

/-- The bytes of a window range, found: their locations and DPAs (an own-pool byte has none). -/
structure Target where
  s    : State
  locs : List Loc
  dpas : List Nat

/-- A range that the target refuses: the status of Table 11-7 and the offset of the first failing byte. -/
structure Refused where
  s    : State
  code : Nat
  off  : Nat

/-- Cut a range at 64 KiB boundaries of its address. -/
def pageParts : Nat → Nat → Nat → List (Nat × Nat)
  | 0, _, _ => []
  | f + 1, va, n =>
    let m := min n (65536 - va % 65536)
    if n == 0 then [] else (va, m) :: pageParts f (va + m) (n - m)

/-- The status that a fault of a target-side walk gives (R185, R352); 10 stands for a row in repair, which the message waits
for. -/
def targetStatus (f : XFault) : Nat := if f.code == 8 || f.code == 9 then 7 else if f.code == 10 then 10 else 5

/-- Translate one part of a Deep or Shared window range (R185 item 4): with the context table of its partition disabled no walk
can start, also for an active context. A byte whose DPA is not valid meets its fault there (R39); a refusal names its first
byte. -/
def State.targetPart (s : State) (w : Window) (va n : Nat) (need : Need) : Except (State × Nat × Nat) Target :=
  let p := s.ctxOwner w.ctx
  let refused := fun (t : State) (f : XFault) (va : Nat) =>
    (if f.code == 10 then t
      else t.postXlat f (t.met 15 p w.ctx (t.rootOf none w.ctx) va) need p w.ctx va 0 4 0 0 15, targetStatus f, va)
  if s.rf (.schCtab p) 0 0 == 0 then .error (s, 5, va)
  else match s.ctxPage 15 w.ctx va need with
  | .error f => .error (refused s f va)
  | .ok (t, c, dpa) =>
    if spaceOf dpa != w.space then .error (t, 4, va)
    else match t.locateN dpa n with
      | none =>
        let k := (List.range n).findIdx (fun i => (t.locateN (dpa + i) 1).isNone)
        .error (refused t (t.refault 15 c w.ctx (va + k) 1 need) (va + k))
      | some ls =>
        if t.unreachable dpa ls then .error (t, 6, va) else .ok ⟨t, ls, (List.range n).map (dpa + ·)⟩

/-- Translate the parts in ascending order, to the first that is refused. -/
def State.targetParts (s : State) (w : Window) (need : Need) : List (Nat × Nat) → Except Refused Target
  | [] => .ok ⟨s, [], []⟩
  | (va, n) :: rest =>
    match s.targetPart w va n need with
    | .error (t, code, at_) => .error ⟨t, code, at_ - w.base⟩
    | .ok a =>
      match State.targetParts a.s w need rest with
      | .error r => .error r
      | .ok b => .ok ⟨b.s, a.locs ++ b.locs, a.dpas ++ b.dpas⟩

/-- Entries of an instance's window table (R180); 0 while it is disabled. -/
def State.winEntries (s : State) (p : Nat) : Nat :=
  if s.rf (.xltWinTab p) 4 4 == 1 && s.rf (.xltWinTab p) 3 0 < 0xD then 16 * 2 ^ s.rf (.xltWinTab p) 3 0 else 0

/-- The window w of an instance, exported and named by its table (R180, R182). -/
def State.window? (s : State) (p w : Nat) : Option Window :=
  if w < s.winEntries p then (Map.find? s.windows (p * 65536 + w)).filter (fun x => !x.withdrawing) else none

/-- Windows over pools, those being withdrawn with them (R183). -/
def State.poolWindows (s : State) : List Window :=
  (s.windows.filter (fun kv => kv.2.space == 2 && kv.1 % 65536 < s.winEntries (kv.1 / 65536))).map (fun kv => kv.2)

/-- Check a range of a window in the order of R185: the window, its length, the right, then its bytes. -/
def State.target (s : State) (p win off n : Nat) (right : Window → Bool) (need : Need) : Except Refused Target :=
  match s.window? p win with
  | none => .error ⟨s, 1, off⟩
  | some w =>
    if off + n > w.len then .error ⟨s, 2, max off w.len⟩
    else if !right w then .error ⟨s, 3, off⟩
    else if w.space == 2 then
      if s.poolOpen w.core then .ok ⟨s, poolLocs w.core (w.base + off) n, []⟩ else .error ⟨s, 6, off⟩
    else s.targetParts w need (pageParts (n / 65536 + 2) (w.base + off) n)

/-! ### What a message does -/

/-- What a message asks of its target (Table 11-5). -/
inductive TOp where
  | write (bs : List Byte)
  | read (n : Nat)
  | atomic (aop ty : Nat) (opd cmp : Nat)
  | signal (v : Nat)
  | reduce (ty : Nat) (bs : List Byte)
  deriving DecidableEq, Repr

/-- The outcome of a message at its target. -/
inductive TRes where
  /-- A line is in flight or a row in repair: the message is not applied yet. -/
  | wait
  | fail (r : Refused)
  | ok (s : State) (bs : List Byte)

/-- Bytes of an element of a type that RATOM or RED names. -/
def rmoSize (ty : Nat) : Nat := if ty == 2 || ty == 3 then 8 else if ty == 5 then 2 else 4

def TOp.len : TOp → Nat
  | .write bs => bs.length
  | .read n => n
  | .atomic _ ty _ _ => rmoSize ty
  | .signal _ => 8
  | .reduce _ bs => bs.length

/-- The window right (Table 11-2). -/
def TOp.right : TOp → Window → Bool
  | .write _ => Window.w
  | .read _ => Window.r
  | .atomic _ _ _ _ => Window.a
  | .signal _ => Window.s
  | .reduce _ _ => Window.a

/-- The rights of the translation (Table 14-4). -/
def TOp.need : TOp → Need
  | .write _ => needW
  | .read _ => needR
  | .atomic _ _ _ _ => needRWA
  | .signal _ => needWA
  | .reduce _ _ => needWA

/-- A partly written sector that is poisoned, or any poison of a read: the message consumes it (R352, R354). -/
def TOp.consumes : TOp → Bool
  | .write _ => false
  | _ => true

/-- The bytes that replace the old ones. -/
def TOp.newBytes (o : TOp) (old : List Byte) : List Byte :=
  match o with
  | .write bs => bs
  | .read _ => old
  | .atomic aop ty opd cmp =>
    let n := rmoSize ty
    leBytes (atomNew aop (8 * n) ty (ofLe old) (opd % 2 ^ (8 * n)) (cmp % 2 ^ (8 * n))) n
  | .signal v => leBytes ((ofLe old + v) % 2 ^ 64) 8
  | .reduce ty bs => reduceRow ty old bs

/-- Offset of the first poisoned byte among located bytes. -/
def State.firstPoison (s : State) (ls : List Loc) : Nat := ls.findIdx (fun l => (s.readLoc 0 l).2)

/-- The window lies over a pool whose basin is in Retained or Off, so an access waits for its wake (R347). -/
def State.poolAsleep (s : State) (p win : Nat) : Bool :=
  match s.window? p win with
  | some w => w.space == 2 && s.rf (.bsnPwrSts (coreBasin w.core)) 1 0 ≥ 2
  | none => false

/-- Apply a message, whole or not at all (R193): the checks of R185, the homes of its Shared lines (R225), its bytes. The
old bytes are returned. -/
def State.applyT (s : State) (p win off : Nat) (o : TOp) : TRes :=
  match s.target p win off o.len o.right o.need with
  | .error r => if r.code == 10 then .wait else .fail r
  | .ok t =>
    if t.locs.any t.s.inRepair || s.poolAsleep p win then .wait
    else
      let coh := match o with
        | .read _ => t.s.homeRead t.dpas
        | _ => t.s.homeWrite t.dpas
      match coh with
      | none => .wait
      | some s1 =>
        let (old, bad) := s1.readLocs 0 t.locs
        if o.consumes && bad then .fail ⟨s1, 7, off + s1.firstPoison t.locs⟩
        else match o with
          | .read _ => .ok s1 old
          | _ => .ok (s1.writeLocs 0 t.locs (o.newBytes old)) old

/-! ### Messages of an RMO (R193) -/

/-- Number of pieces of a range cut at every 4 KiB boundary of the window offset. -/
def pieceCount (o n : Nat) : Nat := ceilDiv (o % 4096 + n) 4096
/-- Piece k: its offset and length. -/
def piece (o n k : Nat) : Nat × Nat :=
  let lo := max o ((o / 4096 + k) * 4096)
  let hi := min (o + n) ((o / 4096 + k + 1) * 4096)
  (lo, hi - lo)

/-- IPUT row length and count (Table 05-7). -/
def RmoCmd.rowLen (c : RmoCmd) : Nat := c.n % 2 ^ 32
def RmoCmd.rowCount (c : RmoCmd) : Nat := c.n / 2 ^ 32

/-- Messages of an RMO. -/
def RmoCmd.count (c : RmoCmd) : Nat :=
  match c.fn with
  | 2 => 1
  | 3 => 1
  | 4 => pieceCount c.o c.n + 1
  | 5 => c.rowCount
  | _ => pieceCount c.o c.n

/-- One message of an RMO: window, row, offset and what it asks; none for an IPUT row that is not sent. A poisoned local
byte gives status 0x07 instead. -/
inductive Piece where
  | skip
  | bad (win row off : Nat)
  | op (win row off : Nat) (o : TOp)
  deriving DecidableEq, Repr

/-- Message k of an RMO, with its local bytes read now (R187). -/
def State.rmoPiece (s : State) (c : RmoCmd) (k : Nat) : Piece :=
  let core := c.org.core
  match c.fn with
  | 1 => let p := piece c.o c.n k; .op c.win 0 p.1 (.read p.2)
  | 2 => .op c.win 0 c.o (.atomic c.aop c.ty c.v.toNat c.v1.toNat)
  | 3 => .op c.win 0 c.o (.signal c.v.toNat)
  | 5 =>
    let (ib, ibad) := s.poolRead core (c.o + 4 * k) 4
    let slot := ofLe ib
    if ibad then .bad c.win k 0
    else if slot == 0xFFFFFFFF then .skip
    else
      let ls := poolLocs core (c.l + k * c.rowLen) c.rowLen
      let (bs, bad) := s.readLocs 0 ls
      if bad then .bad c.win k (slot * c.rowLen + s.firstPoison ls) else .op c.win k (slot * c.rowLen) (.write bs)
  | _ =>
    if c.fn == 4 && k == pieceCount c.o c.n then .op c.swin 0 c.v1.toNat (.signal c.v.toNat)
    else
      let p := piece c.o c.n k
      let ls := poolLocs core (c.l + (p.1 - c.o)) p.2
      let (bs, bad) := s.readLocs 0 ls
      if bad then .bad c.win 0 (p.1 + s.firstPoison ls)
      else .op c.win 0 p.1 (if c.fn == 6 then .reduce c.ty bs else .write bs)

/-- What a message brings back is written to the local result (R186): the bytes of a GET piece, or the old value. -/
def State.rmoResult (s : State) (c : RmoCmd) (off : Nat) (bs : List Byte) : State :=
  match c.fn with
  | 1 => s.poolWrite c.org.core (c.l + (off - c.o)) bs
  | 2 => s.poolWrite c.org.core c.l bs
  | _ => s

/-! ### Failure at the requester (R189) -/

/-- The RMO command record (Table 11-8). -/
def rmoRecord (c : RmoCmd) (f : RmoFail) (time : Nat) : List Word :=
  [ BitVec.ofNat 64 (0x05 * 2 ^ 56 + f.code * 2 ^ 48 + b2n (!c.own) * 2 ^ 43 + b2n f.part_ * 2 ^ 42 +
      b2n (c.org.core ≥ 1024) * 2 ^ 41 + c.org.slot * 2 ^ 33 + c.org.core * 2 ^ 22 + c.org.ctx),
    BitVec.ofNat 64 c.org.pc, BitVec.ofNat 64 (c.fn * 2 ^ 61 + c.node * 2 ^ 32 + f.win * 2 ^ 16 + f.row % 2 ^ 16),
    BitVec.ofNat 64 f.off, c.org.w0, c.org.w1, BitVec.ofNat 64 (c.org.queue * 2 ^ 32 + c.org.seq), BitVec.ofNat 64 time ]

/-- Target bytes may be partly written: a message of a writing RMO has left. -/
def RmoCmd.partly (c : RmoCmd) : Bool := (c.fn == 0 || c.fn ≥ 4) && c.next > 0

/-- An RMO fails: its record is posted, its launch ends, and consumed poison fails the context (R189, R353). -/
def State.failRmo (s : State) (c : RmoCmd) (f : RmoFail) : State :=
  let s := { s with rmo := s.rmo.filter (fun o => o.id != c.id) }
  let s := (s.post c.org.part (rmoRecord c f (s.dieTime (coreDie c.org.core)))).1
  let s := s.failLaunch (c.org.launch.getD 0) 2
  if f.code == 7 then
    (s.ras_ { rasOf 0x03 2 (coreDie c.org.core) 0x03 c.org.core 7 with
      part := c.org.part, core := c.org.core, ctx := c.org.ctx }).failCtx c.org.ctx
  else s

/-- The window, row and offset of the first message of an RMO that is not known to be applied: of a local RMO the next, of a
remote GET the next response, of another remote RMO the first (Table 11-8, log entry 102). -/
def State.failPoint (s : State) (c : RmoCmd) : Nat × Nat × Nat :=
  let k := if c.own then min c.next (c.count - 1) else if c.fn == 1 then min c.acked (c.count - 1) else 0
  ((List.range (c.count - k)).findSome? (fun i =>
    match s.rmoPiece c (k + i) with
    | .skip => none
    | .bad win row off => some (win, row, off)
    | .op win row off _ => some (win, row, off))).getD (c.win, 0, if c.fn == 5 then 0 else c.o)

/-- An RMO fails with a status that no message of its own met. -/
def State.failRmoAs (s : State) (c : RmoCmd) (code : Nat) : State :=
  let p := s.failPoint c
  s.failRmo c ⟨code, p.1, p.2.1, p.2.2, c.partly⟩

/-- The RMOs that meet a test fail with a code, in issue order. -/
def State.failRmos (s : State) (code : Nat) (p : RmoCmd → Bool) : State :=
  (s.rmo.filter p).foldl (fun t c => if t.rmo.any (fun o => o.id == c.id) then t.failRmoAs c code else t) s

/-- Put an RMO back. -/
def State.putRmo (s : State) (c : RmoCmd) : State := { s with rmo := s.rmo.map (fun o => if o.id == c.id then c else o) }

/-! ### Ending a launch (R366, R367) -/

/-- The lowest group of a launch that still runs. -/
def State.lowGroup (s : State) (launch : Nat) : Option (Nat × Group) :=
  List.find? (fun kv => kv.2.launch == launch) s.groups

/-- The words of the instruction at a group's PC: those it waits with, or those a fetch would give it now; 0 where it would
give none (log entry 95). -/
def State.insnWords (s : State) (core ctx : Nat) (g : Group) : Word × Word :=
  match g.stat with
  | .susp _ _ _ _ _ w0 w1 => (w0, w1)
  | .walk _ _ _ _ _ w0 w1 => (w0, w1)
  | .swait _ _ _ w0 => (w0, 0)
  | _ =>
    match s.fetchInsn core ctx g.pc.toNat with
    | .got _ w0 w1 _ => (w0, w1)
    | _ => (0, 0)

/-- The record of a launch that Table 22-1 ends: code 0x0F, its lowest running group, or the lowest slot it held. -/
def State.hangRecord (s : State) (launch : Nat) (l : Launch) : State :=
  let t := s.dieTime (coreDie l.core)
  match s.lowGroup launch with
  | some (k, g) =>
    let r : GroupRef := ⟨BitVec.ofNat 11 (k / 128), BitVec.ofNat 7 (k % 128)⟩
    let w := s.insnWords l.core l.ctx g
    (s.post l.part (groupRecord r g l ⟨0x0F, g.act, 0⟩ false (s.soloOf launch g.index) w.1 w.2 t)).1
  | none =>
    (s.post l.part [
      BitVec.ofNat 64 (0x02 * 2 ^ 56 + 0x0F * 2 ^ 48 + b2n (s.busyLaunch launch) * 2 ^ 42 + b2n (l.core ≥ 1024) * 2 ^ 41 +
        l.slot0 * 2 ^ 33 + l.core * 2 ^ 22 + l.ctx), 0, 0, 0, 0, 0, BitVec.ofNat 64 (l.queue * 2 ^ 32 + l.seq),
      BitVec.ofNat 64 t]).1

/-- End a launch: its groups stop, its queued matrix commands are discarded, its DMA commands complete with 0x0B and its
RMOs fail with 0x0A (R367). -/
def State.endLaunch (s : State) (launch status : Nat) : State :=
  let s := s.failLaunch launch status
  let s := { s with mtx := s.mtx.filter (fun c => !c.org.of launch), routes := s.routes.filter (fun c => !c.org.of launch) }
  let s := (s.dma.filter (fun c => c.org.of launch)).foldl (fun (t : State) c =>
    if t.dma.any (fun o => o.id == c.id) then
      (if c.desc.isNone then t.dmaLost c 0x0B else t.dmaDone c 0x0B c.cursor)
    else t) s
  s.failRmos 0x0A (fun c => c.org.of launch)

/-- The context of a launch is a hang suspect (R375). -/
def State.markSuspect (s : State) (launch : Nat) : State :=
  { s with launches := Map.modify s.launches launch (fun l => { l with suspect := true }) }

/-- Table 22-1 ends a launch: its record, the end of R367, packet status 0x02. -/
def State.watchdogEnd (s : State) (launch event : Nat) : State :=
  match Map.find? s.launches launch with
  | none => s
  | some l =>
    let s := s.hangRecord launch l
    let s := s.ras_ { rasOf 0x0E 2 (coreDie l.core) 0x03 l.core event with part := l.part, core := l.core, ctx := l.ctx }
    (s.endLaunch launch 2).markSuspect launch

end Sys2Proof.Machine
end

