-- ==== Sys2Proof/Machine/Session.lean ====
section
/-! DEFINITION. Imwicel as sent: the header (R284), the sub-port that carries a message (R294), numbering and the window of
8,192 (R290), the opening, refusal and failure of a session (R286 to R293), and the transmit rounds (R294). -/

namespace Sys2Proof

open Machine

/-! ### Header fields (Table 17-6) -/

def Msg.ver (m : Msg) : Nat := fld m.w0.toNat 63 56
def Msg.opc (m : Msg) : Nat := fld m.w0.toNat 55 48
def Msg.dstNode (m : Msg) : Nat := fld m.w0.toNat 47 32
def Msg.srcNode (m : Msg) : Nat := fld m.w0.toNat 31 16
def Msg.srcInc (m : Msg) : Nat := fld m.w1.toNat 63 32
def Msg.dstInc (m : Msg) : Nat := fld m.w1.toNat 31 0
def Msg.dstSess (m : Msg) : Nat := fld m.w2.toNat 63 52
def Msg.srcSess (m : Msg) : Nat := fld m.w2.toNat 51 40
def Msg.psn (m : Msg) : Nat := fld m.w2.toNat 39 16
def Msg.win (m : Msg) : Nat := fld m.w3.toNat 63 48
def Msg.row (m : Msg) : Nat := fld m.w3.toNat 47 32
def Msg.tag (m : Msg) : Nat := fld m.w3.toNat 31 0
def Msg.off (m : Msg) : Nat := m.w4.toNat
def Msg.aop (m : Msg) : Nat := fld m.w5.toNat 63 60
def Msg.ty (m : Msg) : Nat := fld m.w5.toNat 59 55
def Msg.ndata (m : Msg) : Nat := fld m.w5.toNat 47 32
def Msg.status (m : Msg) : Nat := fld m.w5.toNat 31 24
/-- Bytes of a message: header, payload, ICRC (R283). -/
def Msg.bytes (m : Msg) : Nat := 48 + m.payload.length + 4

end Sys2Proof

namespace Sys2Proof.Machine

/-! ### Identity and sub-ports -/

/-- This device's node identifier and incarnation (Table 17-4). -/
def State.nodeId (s : State) : Nat := s.rf .lnkNode 15 0
def State.incarnation (s : State) : Nat := s.rf .lnkNode 63 32

/-- Sub-port n has link (Table 17-3). -/
def State.subUp (s : State) (n : Nat) : Bool := s.rf (.lnkPortSts (n / 4)) (24 + n % 4) (24 + n % 4) == 1

/-- Sub-ports that may carry a session and are up. -/
def State.sessPorts (s : State) (ss : Session) : List Nat :=
  (List.range 48).filter (fun n => bit (ss.entry.getD 4 0).toNat n && s.subUp n)

/-- A sub-port's transmit queue holds more than 64 KiB (R294). -/
def State.txFull (s : State) (n : Nat) : Bool :=
  decide (((Map.getD s.txq n []).map (fun x => x.2.bytes)).sum > 65536)

/-- Round robin: the first of ascending numbers after the last one used. -/
def nextAfter (last : Nat) (l : List Nat) : Option Nat :=
  match l.find? (fun n => n > last) with
  | some n => some n
  | none => l.head?


/-- What a message names beyond its session (Table 17-6, words 3 to 5). -/
structure Body where
  win : Nat := 0
  row : Nat := 0
  tag : Nat := 0
  off : Nat := 0
  aop : Nat := 0
  ty  : Nat := 0
  ndata : Nat := 0
  status : Nat := 0
  last : Bool := false

/-- A message to a node. -/
def State.mkMsg (s : State) (ver opc node dstInc dstSess srcSess psn : Nat) (b : Body) (payload : List Byte)
    (sub : Fin 48) : Msg :=
  ⟨BitVec.ofNat 64 (ver * 2 ^ 56 + opc * 2 ^ 48 + node * 2 ^ 32 + s.nodeId * 2 ^ 16 + payload.length),
   BitVec.ofNat 64 (s.incarnation * 2 ^ 32 + dstInc),
   BitVec.ofNat 64 (dstSess * 2 ^ 52 + srcSess * 2 ^ 40 + psn % 2 ^ 24 * 2 ^ 16),
   BitVec.ofNat 64 (b.win * 2 ^ 48 + b.row % 2 ^ 16 * 2 ^ 32 + b.tag % 2 ^ 32), BitVec.ofNat 64 b.off,
   BitVec.ofNat 64 (b.aop * 2 ^ 60 + b.ty * 2 ^ 55 + b.ndata % 2 ^ 16 * 2 ^ 32 + b.status * 2 ^ 24), payload, sub, b.last⟩

/-- Put a session back. -/
def State.putSess (s : State) (i : Nat) (ss : Session) : State := { s with sessions := Map.put s.sessions i ss }

/-- Change a session. -/
def State.modSess (s : State) (i : Nat) (f : Session → Session) : State := { s with sessions := Map.modify s.sessions i f }

/-- A sub-port number as the message carries it. -/
def fin48 (n : Nat) : Fin 48 := Fin.ofNat 48 n

/-! ### Unsequenced messages: outside the rounds (R294) -/

/-- Send a message that is not sequenced on the session's next sub-port; with none up it is lost. -/
def State.sendCtl (s : State) (i opc psn : Nat) (b : Body) (payload : List Byte) : State :=
  match Map.find? s.sessions i with
  | none => s
  | some ss =>
    match nextAfter ss.rr (s.sessPorts ss) with
    | none => s
    | some n =>
      let ver := if opc == 0x20 || opc == 0x22 then 0x12 else ss.version
      let dinc := if opc == 0x20 then 0 else ss.peerInc
      ((s.putSess i { ss with rr := n }).emit
        (.message (s.mkMsg ver opc ss.peer dinc ss.remoteSess i psn b payload (fin48 n))))

/-- The payload of HELLO and HELLO_ACK (Table 17-8). -/
def helloPayload (ss : Session) (vmin vmax : Nat) : List Byte :=
  leBytes vmin 1 ++ leBytes vmax 1 ++ leBytes ss.isn 3 ++ leBytes 0 3 ++
    leBytes (ss.entry.getD 7 0).toNat 8 ++ leBytes (ss.entry.getD 6 0).toNat 8 ++ leBytes 0 8

/-- Send HELLO. -/
def State.sendHello (s : State) (i : Nat) : State :=
  match Map.find? s.sessions i with
  | none => s
  | some ss => s.sendCtl i 0x20 0 {} (helloPayload ss 0x10 0x12)

/-- The bitmap of a selective ACK: bit j marks PSN expected + 1 + j as received (Table 17-11). -/
def ackBitmap (ss : Session) : Nat :=
  (List.range 64).foldl (fun a j =>
    if ss.heldMsgs.any (fun h => h.1 == (ss.rcvPsn + 1 + j) % 2 ^ 24) then a + 2 ^ j else a) 0

/-- Send ACK: the last PSN received in order, and the bitmap from version 0x11 on (R289, R290). -/
def State.sendAck (s : State) (i : Nat) : State :=
  match Map.find? s.sessions i with
  | none => s
  | some ss =>
    (s.modSess i (fun x => { x with ackCount := 0 })).sendCtl i 0x10 ((ss.rcvPsn + 2 ^ 24 - 1) % 2 ^ 24) {}
      (if ss.version ≥ 0x11 then leBytes (ackBitmap ss) 8 else [])

/-! ### Session STATUS (Table 17-10) -/

/-- Instance-physical address of a session table entry. -/
def State.sessAddr (s : State) (i : Nat) : Nat := s.rf .lnkSessTab 51 12 * 2 ^ 12 + i * 64

/-- Entries of the session table; 0 while it is disabled. -/
def State.sessEntries (s : State) : Nat :=
  if s.rf .lnkSessTab 4 4 == 1 && s.rf .lnkSessTab 3 0 ≤ 8 then 16 * 2 ^ s.rf .lnkSessTab 3 0 else 0

/-- A doorbell whose table access faults: dropped and counted, with a translation record to PF0's ring. -/
def State.tableFault (s : State) (rule p : Nat) (f : XFault) (write : Bool) : State := (s.weirFault p none f write).dropped rule p

/-- Write STATUS of a session's entry, then act; where the write faults the doorbell is dropped and the session keeps its
former state (R182, R285). -/
def State.sessStatus (s : State) (i st : Nat) (act : State → State) : State :=
  match s.ipaWrite 127 (s.sessAddr i + 6) [BitVec.ofNat 8 st] with
  | .ok t => act t
  | .error f => if f.code == 10 then s else s.tableFault 285 127 f true

/-- A session takes a STATUS that the protocol gives it. -/
def State.setSessSt (s : State) (i st : Nat) : State :=
  (s.modSess i (fun x => { x with st := st })).sessStatus i st (fun (t : State) => t)

/-- The session of an issuing partition for a node (R285). -/
def State.sessFor (s : State) (p node : Nat) : Option (Nat × Session) :=
  List.find? (fun kv => kv.2.part == p && kv.2.peer == node) s.sessions

/-- An RMO travels on a session. -/
def RmoCmd.on (c : RmoCmd) (ss : Session) : Bool := !c.own && c.org.part == ss.part && c.node == ss.peer

/-- A session ends or restarts: what it holds of both directions is gone. -/
def Session.cleared (x : Session) : Session :=
  { x with
    sent := []
    waiting := []
    heldMsgs := []
    tags := []
    gotAck := false
    known := false
    retries := 0
    ackCount := 0 }

/-- A session fails: its RMOs that have not completed fail with a code (R291, R293), and its partition is told (Table 18-3). -/
def State.failSess (s : State) (i code st : Nat) : State :=
  match Map.find? s.sessions i with
  | none => s
  | some ss =>
    let s := s.failRmos code (fun c => c.on ss)
    let s := (s.modSess i Session.cleared).setSessSt i st
    if ss.part < 96 then s.fire (ss.part + 1) 1 else s

/-- Begin or repeat the handshake: a first PSN of the device's own choice, HELLO, STATUS 0x02 (R286, R291). -/
def State.startHello (s : State) (i : Nat) : State :=
  let (w, s) := s.fresh
  let isn := w.toNat % 2 ^ 24
  let s := s.modSess i (fun x => { x.cleared with
    isn := isn
    sndPsn := isn })
  (s.setSessSt i 2).sendHello i

/-! ### Sequenced messages -/

/-- Number a message and put it into the transmit queue of the next eligible sub-port; none while 8,192 are unacknowledged or
no sub-port takes it (R290, R294). -/
def State.sendSeq (s : State) (i opc : Nat) (b : Body) (payload : List Byte) : Option State :=
  match Map.find? s.sessions i with
  | none => none
  | some ss =>
    if ss.sent.length ≥ 8192 then none
    else match nextAfter ss.rr ((s.sessPorts ss).filter (fun n => !s.txFull n)) with
      | none => none
      | some n =>
        let m := s.mkMsg ss.version opc ss.peer ss.peerInc ss.remoteSess i ss.sndPsn b payload (fin48 n)
        let ss' := { ss with
          sent := ss.sent ++ [⟨ss.sndPsn, m, 0, false⟩]
          sndPsn := (ss.sndPsn + 1) % 2 ^ 24
          rr := n }
        some ({ s with txq := Map.put s.txq n (Map.getD s.txq n [] ++ [(ss.part, m)]) }.putSess i ss')

/-- The body of a message that asks for an operation. -/
def opBody (win row off tag : Nat) (o : TOp) : Body :=
  match o with
  | .atomic aop ty _ _ => { win := win, row := row, tag := tag, off := off, aop := aop, ty := ty }
  | .reduce ty _ => { win := win, row := row, tag := tag, off := off, aop := 0xA, ty := ty }
  | _ => { win := win, row := row, tag := tag, off := off }

/-- The payload of a message that asks for an operation (Table 17-7). -/
def opPayload (o : TOp) : List Byte :=
  match o with
  | .write bs => bs
  | .read n => leBytes n 8
  | .atomic aop _ opd cmp => leBytes opd 8 ++ (if aop == 9 then leBytes cmp 8 else [])
  | .signal v => leBytes v 8
  | .reduce _ bs => bs

/-- The opcode of an RMO's message under a version (Table 17-7, Table 17-11). -/
def opcOf (fn ver : Nat) (o : TOp) : Nat :=
  match fn with
  | 0 => 0x01
  | 1 => 0x02
  | 2 => 0x04
  | 3 => 0x06
  | 4 => (match o with | .signal _ => 0x08 | _ => 0x07)
  | 5 => if ver ≥ 0x12 then 0x09 else 0x01
  | _ => 0x0A

/-- What sending the next message of an RMO gives. -/
inductive Sent1 where
  | stuck
  | more (s : State)

/-- The message that an RMO sends next is its last: no later piece asks for anything. -/
def State.lastPiece (s : State) (c : RmoCmd) : Bool :=
  (List.range (c.count - c.next - 1)).all (fun j => s.rmoPiece c (c.next + 1 + j) == .skip)

/-- Send the next message of an RMO (R193, R289). -/
def State.sendNext (s : State) (i : Nat) (ss : Session) (c : RmoCmd) : Sent1 :=
  if s.cmdHeld c.org.core c.id c.ranges then .stuck
  else if c.fn == 6 && c.ty == 5 && ss.version < 0x12 then .more (s.failRmoAs c 9)
  else match s.rmoPiece c c.next with
    | .skip => .more (s.putRmo { c with next := c.next + 1 })
    | .bad win row off => .more (s.failRmo c ⟨7, win, row, off, c.partly⟩)
    | .op win row off o =>
      let opc := opcOf c.fn ss.version o
      let b := opBody win (if opc == 9 then row else 0) off c.id o
      let b := if opc == 8 then { b with ndata := pieceCount c.o c.n } else b
      let b := { b with last := s.lastPiece c }
      match s.sendSeq i opc b (opPayload o) with
      | none => .stuck
      | some t => .more (t.putRmo { c with
          next := c.next + 1
          acked := if c.fn == 1 then c.acked else c.acked + 1 })

/-- Send what an open session has to send, responses first, RMOs in issue order. -/
def State.pump (s : State) (i : Nat) : Nat → State
  | 0 => s
  | f + 1 =>
    match Map.find? s.sessions i with
    | none => s
    | some ss =>
      if ss.st != 0 then s
      else match ss.waiting with
        | m :: rest =>
          let b : Body := { win := m.win, row := m.row, tag := m.tag, off := m.off, status := m.status, last := m.last }
          match s.sendSeq i m.opc b m.payload with
          | none => s
          | some t => (t.modSess i (fun x => { x with waiting := rest })).pump i f
        | [] =>
          match s.rmo.find? (fun c => c.on ss && c.fail.isNone && c.next < c.count) with
          | none => s
          | some c =>
            match s.sendNext i ss c with
            | .stuck => s
            | .more t => t.pump i f

/-- Send as much as the window allows. -/
def State.pumpAll (s : State) (i : Nat) : State := s.pump i 16384

/-- A message that the device itself sends on a session, a response or a balance record, waits for its PSN, then is sent. -/
def State.respond (s : State) (i opc : Nat) (b : Body) (payload : List Byte) : State :=
  let m := s.mkMsg 0 opc 0 0 0 0 0 b payload 0
  (s.modSess i (fun x => { x with waiting := x.waiting ++ [m] })).pumpAll i

/-- Both conditions of R287 hold: the session is open, and what waits is sent. -/
def State.tryOpen (s : State) (i : Nat) : State :=
  match Map.find? s.sessions i with
  | none => s
  | some ss => if ss.gotAck && ss.known && ss.st != 0 then (s.setSessSt i 0).pumpAll i else s

/-! ### The doorbell (R285, R286, R293) -/

/-- A session entry breaks the form of R286, apart from what other entries hold; the low bits of PEER_MAC and PEER_IP6, which
must be 0, are not among its cases. -/
def State.sessBad (s : State) (ws : List Word) : Bool :=
  let w := fun i => (ws.getD i 0).toNat
  fld (w 0) 15 0 != 0 || fld (w 1) 63 48 != 0 || w 5 != 0 ||
    fld (w 0) 19 16 > 1 || fld (w 0) 47 32 == s.nodeId || fld (w 4) 47 0 == 0

/-- A session that its entry no longer holds: its RMOs fail with 0x09 (log entry 22). -/
def State.endSess (s : State) (i : Nat) : State :=
  match Map.find? s.sessions i with
  | some old => { s.failRmos 9 (fun c => c.on old) with sessions := Map.drop s.sessions i }
  | none => s

/-- Open the session of an entry (R286). -/
def State.sessOpen (s : State) (i : Nat) (ws : List Word) : State :=
  let w0 := (ws.getD 0 0).toNat
  let p := fld w0 62 56
  let peer := fld w0 47 32
  let other := s.sessions.any (fun kv => kv.1 != i && kv.2.part == p && kv.2.peer == peer)
  if s.sessBad ws || other then s.sessStatus i 8 (fun (t : State) => t.endSess i)
  else if (p < 96 && s.rf (.cfgPartSts p) 23 20 != 1) || (96 ≤ p && p ≤ 126) then s.sessStatus i 9 (fun (t : State) => t.endSess i)
  else s.sessStatus i 2 (fun (t : State) =>
    ((t.endSess i).putSess i ⟨p, peer, fld w0 31 20, ws, 2, false, 0x12, 0, 0, 0, false, false, 0, 0, [], [], [], [], 0, 0, 47⟩).startHello i)

/-- A message of an RMO has been sent on its session. -/
def RmoCmd.begun (c : RmoCmd) : Bool := if c.fn == 1 then c.next > 0 else c.acked > 0

/-- Close the session of an entry: new RMOs fail with 0x06, as those do that wait and of which nothing is sent (R293, log entry
127); STATUS follows when those sent have ended. -/
def State.sessClose (s : State) (i : Nat) : State :=
  match Map.find? s.sessions i with
  | none => s.sessStatus i 1 (fun (t : State) => t)
  | some ss => (s.failRmos 6 (fun c => c.on ss && !c.begun)).modSess i (fun x => { x with closing := true })

/-- LNK_SESS_DB is written: the entry is read and acted on (R285). While the row of the entry is in repair, the doorbell stalls and
has no effect (R358, log entry 123). -/
def State.sessDoorbell (s : State) (val : BitVec 64) : State :=
  let i := fld val.toNat 11 0
  if i ≥ s.sessEntries then s.dropped 285 127
  else match s.ipaRead 127 (s.sessAddr i) 64 with
    | .error f => if f.code == 10 then s else s.tableFault 285 127 f false
    | .ok (bs, bad) =>
      if bad then (s.ras_ { rasOf 0x03 2 15 0x08 0 8 with part := 127 }).dropped 285 127
      else
        let s := s.noteIpa 127 (s.sessAddr i) 64 false
        let ws := (List.range 8).map (wordAt bs)
        if bit (ws.getD 0 0).toNat 63 then s.sessOpen i ws else s.sessClose i

/-- SESSION_OPEN: the doorbell of an entry with VALID = 1 (R286). -/
def execSessionOpen (val : BitVec 64) (s : State) : Res := .next (s.sessDoorbell val)

/-- SESSION_CLOSE: the doorbell of an entry with VALID = 0 (R293). -/
def execSessionClose (val : BitVec 64) (s : State) : Res := .next (s.sessDoorbell val)

/-- SESSION_CLOSE_COMPLETE: the RMOs sent have ended; CLOSE is sent and STATUS becomes 0x01 (R293). Where STATUS cannot be
written, the session is held as before (R182, R285). -/
def execSessionCloseComplete (idx : Nat) (s : State) : Res :=
  match Map.find? s.sessions idx with
  | none => s.idle "no such session"
  | some ss =>
    if !ss.closing || s.rmo.any (fun c => c.on ss) then s.idle "the session is not ready to close"
    else
      .next (((s.sendCtl idx 0x23 0 {} []).modSess idx (fun x => { x with closing := false })).sessStatus idx 1 (fun (u : State) =>
        { u with sessions := Map.drop u.sessions idx }))

/-! ### Timers (R288, R290, R291, R293) -/

/-- HELLO_RETRY: 1 ms after a refusal that is not final (R288). -/
def execHelloRetry (idx : Nat) (s : State) : Res :=
  match Map.find? s.sessions idx with
  | none => s.idle "no such session"
  | some ss => if ss.st == 5 then .next (s.sendHello idx) else s.idle "the session is not waiting"

/-- RETRY of LNK_TIMER; 0 acts as 1. -/
def State.retryLimit (s : State) : Nat := max 1 (s.rf .lnkTimer 31 24)

/-- Put a message into the transmit queue of the next eligible sub-port again. -/
def State.resend (s : State) (i : Nat) (m : SentMsg) : State :=
  match Map.find? s.sessions i with
  | none => s
  | some ss =>
    match nextAfter m.msg.subport.val ((s.sessPorts ss).filter (fun n => !s.txFull n)) with
    | none => s
    | some n =>
      let m' := { m.msg with subport := fin48 n }
      let ss' := { ss with sent := ss.sent.map (fun x => if x.psn == m.psn then { x with msg := m' } else x) }
      ({ s with txq := Map.put s.txq n (Map.getD s.txq n [] ++ [(ss.part, m')]) }.putSess i ss').setReg .lnkRetx
        ((s.reg .lnkRetx + 1) % 2 ^ 64)

/-- RETRANSMIT_TIMEOUT: the oldest message, or HELLO, was not answered for RTO_US (R291, Table 17-12). -/
def execRetransmitTimeout (idx : Nat) (s : State) : Res :=
  match Map.find? s.sessions idx with
  | none => s.idle "no such session"
  | some ss =>
    if ss.st == 2 then
      if ss.retries + 1 ≥ s.retryLimit then .next (s.failSess idx 8 7)
      else .next ((s.modSess idx (fun x => { x with retries := x.retries + 1 })).sendHello idx)
    else if ss.st != 0 then s.idle "the session is not open"
    else match ss.sent with
      | [] => s.idle "every message is acknowledged"
      | m :: _ =>
        if m.rounds + 1 ≥ s.retryLimit then .next (s.failSess idx 8 7)
        else
          let again := if ss.version == 0x10 then ss.sent else ss.sent.filter (fun x => !x.marked)
          let t := s.modSess idx (fun x => { x with
            sent := x.sent.map (fun y => if y.psn == m.psn then { y with rounds := y.rounds + 1 } else y) })
          .next (again.foldl (fun t x => t.resend idx x) t)

/-- KEEPALIVE_INTERVAL: an open session with no message to send (R293). -/
def execKeepaliveInterval (idx : Nat) (s : State) : Res :=
  match Map.find? s.sessions idx with
  | none => s.idle "no such session"
  | some ss =>
    if ss.st != 0 then s.idle "the session is not open"
    else if ss.waiting.isEmpty && !(s.rmo.any (fun c => c.on ss && c.next < c.count)) then .next (s.sendCtl idx 0x24 0 {} [])
    else .next s

/-- PEER_SILENCE: nothing has arrived for 4 × KA_MS (R293). -/
def execPeerSilence (idx : Nat) (s : State) : Res :=
  match Map.find? s.sessions idx with
  | none => s.idle "no such session"
  | some ss => if ss.st == 0 then .next (s.failSess idx 8 7) else s.idle "the session is not open"

/-! ### Transmit rounds (R294) -/

/-- Bytes a partition may send in a round of a sub-port: WEIGHT × 16 as its port has adopted it; PF0's sessions have 16. -/
def State.roundBytes (s : State) (n p : Nat) : Int :=
  (if p < 96 then s.adoptedVal (n / 4) (.cfgPartTcw p) % 256 else 16) * 16

/-- What a round leaves: messages sent and kept, and the budget left of each partition. -/
structure Round where
  sent : List Msg
  kept : List (Nat × Msg)
  left : List (Nat × Int)

/-- One message meets its partition's budget: it goes whole while any budget is left. -/
def State.roundStep (s : State) (n : Nat) (r : Round) (x : Nat × Msg) : Round :=
  let b := match r.left.find? (fun y => y.1 == x.1) with
    | some y => y.2
    | none => s.roundBytes n x.1 - Map.getD s.deficits (n * 128 + x.1) 0
  let others := r.left.filter (fun y => y.1 != x.1)
  if b > 0 then ⟨r.sent ++ [x.2], r.kept, (x.1, b - x.2.bytes) :: others⟩
  else ⟨r.sent, r.kept ++ [x], (x.1, b) :: others⟩

/-- One transmit round of a sub-port. -/
def State.transmit (s : State) (n : Nat) : State :=
  let r := (Map.getD s.txq n []).foldl (s.roundStep n) ⟨[], [], []⟩
  let d := r.left.foldl (fun m x => Map.putD m (n * 128 + x.1) 0 (-x.2).toNat) s.deficits
  r.sent.foldl (fun (t : State) m => t.emit (.message m)) { s with
    txq := Map.putD s.txq n [] r.kept
    deficits := d }

/-- ARBITRATION_ROUND_END: what can be sent is queued, the round's messages leave, and the port's epoch point passes; the rounds
of a port without a link are empty (R277, R294, log entry 133). -/
def execArbitrationRoundEnd (n : Fin 48) (s : State) : Res :=
  if !s.subUp n.val then
    if (List.range 4).any (fun k => s.subUp (n.val / 4 * 4 + k)) then s.idle "the sub-port is down"
    else .next (s.adoptUnit (n.val / 4))
  else
    let s := (s.sessions.map Prod.fst).foldl (fun t i => t.pumpAll i) s
    .next ((s.transmit n.val).adoptUnit (n.val / 4))

end Sys2Proof.Machine
end

