-- ==== Sys2Proof/Machine/Rmo.lean ====
section
/-! DEFINITION. The RMO instructions (R64, R186), their application to windows of this device (R191 to R194), their
completion (R188) and their timeout (R190). -/

namespace Sys2Proof.Machine

/-! ### Issue -/

/-- The fault of the issue checks of Table 11-5, lowest code first (R72, R73). -/
def rmoFault (fn pool l o n v1 ty : Nat) : Option Nat :=
  let len := n % 2 ^ 32
  let cnt := n / 2 ^ 32
  let size := rmoSize ty
  let k := fun (b : Bool) (c : Nat) => if b then some c else none
  match fn with
  | 2 => lowestFault [k (o % size != 0 || l % size != 0) 0x0A, k (l + size > pool) 0x0C]
  | 3 => k (o % 8 != 0) 0x0A
  | 4 => lowestFault [k (n > 2 ^ 24) 4, k (l + n > pool) 0x0C, k (v1 % 8 != 0) 0x0A]
  | 5 => lowestFault [k (len == 0 || len > 4096 || cnt == 0 || cnt > 65536) 4, k (o % 4 != 0) 0x0A,
      k (l + len * cnt > pool || o + 4 * cnt > pool) 0x0C]
  | 6 => lowestFault [k (o % size != 0 || l % size != 0 || n % size != 0) 0x0A, k (l + n > pool) 0x0C]
  | _ => lowestFault [k (n > 2 ^ 24) 4, k (l + n > pool) 0x0C]

/-- A new RMO to another node meets its session (R291): it waits, is sent, or fails with 0x06. -/
def State.rmoStart (s : State) (c : RmoCmd) : State :=
  if c.own then s
  else match s.sessFor c.org.part c.node with
    | none => s.failRmoAs c 6
    | some (i, ss) =>
      if ss.closing then s.failRmoAs c 6
      else if ss.st == 0 then s.pumpAll i
      else if ss.st == 2 || ss.st == 5 then s
      else s.failRmoAs c 6

/-- Issue an RMO: its operands are captured and its command created (R62, R64, R179, R186). A poisoned register stands in
the checks for a value that no check stops, so that a lower code is reported only where the other registers give it (R72,
log entry 89). -/
def queueRmo (fn : Nat) (r : GroupRef) (e : Enc) (s : State) : Res :=
  let core := r.core.toNat
  let vreg := encC e
  let pair := fn == 4 || (fn == 2 && encF e 15 12 == 9)
  let sregs := (if fn == 3 then [] else [encD e]) ++ [encA e] ++ (if fn == 2 || fn == 3 then [] else [encB e]) ++
    (if fn == 2 || fn == 3 || fn == 4 then [vreg] else []) ++ (if pair then [vreg + 1] else [])
  let i : Ins := ⟨0x2B, fn, decodeRmo fn e, sregs⟩
  runSolo s r e i (fun s g lc =>
    let val := fun (x d : Nat) => if g.spois.contains x then d else (g.gs x).toNat
    let l := if fn == 3 then 0 else val (encD e) 0
    let o := val (encA e) 0
    let n := if fn == 2 || fn == 3 then 0 else val (encB e) (if fn == 5 then 2 ^ 32 + 1 else 0)
    let v := g.gs vreg
    let v1 : Word := if pair then BitVec.ofNat 64 (val (vreg + 1) 0) else 0
    let ty := encF e 11 7
    if fn != 3 && !s.regFree core then .next s
    else match lowestFault [trackFault g (encF e 17 17 == 1) (encF e 21 18), rmoFault fn (poolSize core) l o n v1.toNat ty] with
    | some code => raise s r e i g lc code (effMask g e) 0
    | none =>
      if i.sregs.any (fun x => g.spois.contains x) then raise s r e i g lc 0x0E (effMask g e) 0
      else if fn != 2 && fn != 3 && n == 0 then s.finish r e g
      else
        let node := if encF e 16 16 == 1 then s.nodeId else encX e 57 42
        let own := node == s.nodeId
        let (id, s) := s.newId
        let c : RmoCmd := ⟨id, originOf r g lc e i, fn, node, own, encX e 41 26, encX e 25 10, l, o, n, v, v1,
          encF e 15 12, ty, if encF e 17 17 == 1 then some (encF e 21 18) else none, 0, 0, none⟩
        let s := s.noteUnreplayable g.launch
        let s := { s with rmo := s.rmo ++ [c] }.putGroup r (g.advance e)
        .next (s.rmoStart c))

/-- PUT (R186). -/
def execPut (g : GroupRef) (e : Enc) (s : State) : Res := queueRmo 0 g e s
/-- GET (R186). -/
def execGet (g : GroupRef) (e : Enc) (s : State) : Res := queueRmo 1 g e s
/-- RATOM (R186). -/
def execRatom (g : GroupRef) (e : Enc) (s : State) : Res := queueRmo 2 g e s
/-- SIG (R186). -/
def execSig (g : GroupRef) (e : Enc) (s : State) : Res := queueRmo 3 g e s
/-- PUTS (R186). -/
def execPuts (g : GroupRef) (e : Enc) (s : State) : Res := queueRmo 4 g e s
/-- IPUT (R143, R186). -/
def execIput (g : GroupRef) (e : Enc) (s : State) : Res := queueRmo 5 g e s
/-- RED (R186). -/
def execRed (g : GroupRef) (e : Enc) (s : State) : Res := queueRmo 6 g e s

/-! ### RMOs to this device -/

/-- The target bytes of an RMO: window, offset and length, the signal word of a PUTS with them. The rows of an IPUT count as
its whole window. -/
def RmoCmd.spans (c : RmoCmd) : List (Nat × Nat × Nat) :=
  match c.fn with
  | 2 => [(c.win, c.o, rmoSize c.ty)]
  | 3 => [(c.win, c.o, 8)]
  | 4 => [(c.win, c.o, c.n), (c.swin, c.v1.toNat, 8)]
  | 5 => [(c.win, 0, 2 ^ 64)]
  | _ => [(c.win, c.o, c.n)]

/-- Target bytes of two RMOs of one flow may overlap (R191). -/
def RmoCmd.overlaps (a b : RmoCmd) : Bool :=
  a.spans.any (fun x => b.spans.any (fun y => x.1 == y.1 && x.2.1 < y.2.1 + y.2.2 && y.2.1 < x.2.1 + x.2.2))

/-- An earlier RMO of the flow that the target has to apply first. -/
def State.flowBlocked (s : State) (c : RmoCmd) : Bool :=
  s.rmo.any (fun o => o.id < c.id && o.own && o.org.core == c.org.core && o.fail.isNone && o.next < o.count && o.overlaps c)

/-- RMO_TARGET_APPLY: the next message of an RMO to this device is checked and applied, or refused (R184, R185, R193). -/
def execRmoTargetApply (id : Nat) (s : State) : Res :=
  s.clocked <|
  match s.rmo.find? (fun c => c.id == id) with
  | none => s.idle "no such RMO"
  | some c =>
    if !c.own || c.fail.isSome || c.next ≥ c.count || s.cmdHeld c.org.core id c.ranges || s.flowBlocked c then
      s.idle "the RMO has no message to apply here"
    else match s.rmoPiece c c.next with
      | .skip => .next (s.putRmo { c with next := c.next + 1 })
      | .bad win row off => .next (s.putRmo { c with fail := some ⟨7, win, row, off, c.partly⟩ })
      | .op win row off o =>
        match s.applyT c.org.part win off o with
        | .wait => s.idle "a line or row of the target is in flight"
        | .fail r => .next (r.s.putRmo { c with fail := some ⟨r.code, win, row, r.off, c.partly⟩ })
        | .ok t bs => .next ((t.rmoResult c off bs).putRmo { c with next := c.next + 1 })

/-- Every message of an RMO is answered without a message of its own: a local RMO applied whole, or an IPUT none of whose
rows is sent. -/
def RmoCmd.settled (c : RmoCmd) : Bool := c.next ≥ c.count && (c.own || (c.fn == 5 && c.acked == 0))

/-- RMO_COMPLETE: the acknowledgement reaches the requester: the RMO completes or fails, and its scoreboard clears
(R188, R189). -/
def execRmoComplete (id : Nat) (s : State) : Res :=
  match s.rmo.find? (fun c => c.id == id) with
  | none => s.idle "no such RMO"
  | some c =>
    match c.fail with
    | some f => .next (s.failRmo c f)
    | none =>
      if c.settled then .next { s with rmo := s.rmo.filter (fun o => o.id != id) }
      else s.idle "the RMO is not answered"

/-- RMO_TIMEOUT: status 0x08 after the watchdog period, and the launch ends (R190, R366). -/
def execRmoTimeout (id : Nat) (s : State) : Res :=
  match s.rmo.find? (fun c => c.id == id) with
  | none => s.idle "no such RMO"
  | some c =>
    let l := c.org.launch.getD 0
    let s := match Map.find? s.launches l with | some x => s.hangRecord l x | none => s
    let s := s.ras_ { rasOf 0x0E 2 (coreDie c.org.core) 0x03 c.org.core 2 with
      part := c.org.part, core := c.org.core, ctx := c.org.ctx }
    .next (((s.failRmoAs c 8).endLaunch l 2).markSuspect l)

end Sys2Proof.Machine
end

