-- ==== Sys2Proof/Machine/Windows.lean ====
section
/-! DEFINITION. Windows (R180 to R183): the doorbell that exports or withdraws one, and its STATUS. -/

namespace Sys2Proof.Machine

/-- Instance-physical address of a window table entry. -/
def State.winAddr (s : State) (p w : Nat) : Nat := s.rf (.xltWinTab p) 51 12 * 2 ^ 12 + w * 32

/-- Write STATUS of a window's entry, then act: where the write faults, the doorbell is dropped and the window keeps its former
state (R182). -/
def State.winStatus (s : State) (p w st : Nat) (act : State → State) : State :=
  match s.ipaWrite p (s.winAddr p w + 6) [BitVec.ofNat 8 st] with
  | .ok t => act t
  | .error f => if f.code == 10 then s else s.tableFault 182 p f true

/-- A window table entry breaks R181 in its own form (STATUS 0x03): reserved fields, SPACE, BASE, LEN, CORE. -/
def winBad (w : Nat → Nat) : Bool :=
  let space := fld (w 0) 62 60
  let base := fld (w 0) 47 0
  let len := fld (w 1) 39 0
  fld (w 1) 63 40 != 0 || fld (w 2) 63 43 != 0 || fld (w 2) 31 20 != 0 || w 3 != 0 || space > 2 || base % 64 != 0 ||
    len == 0 || len % 64 != 0 || (space != 2 && fld (w 2) 42 32 != 0)

/-- The core of a pool window holds its bytes (R181). -/
def State.winRange (s : State) (w : Nat → Nat) : Bool :=
  fld (w 0) 62 60 != 2 || !s.coreValid (fld (w 2) 42 32) || fld (w 0) 47 0 + fld (w 1) 39 0 ≤ poolSize (fld (w 2) 42 32)

/-- CORE and CONTEXT belong to the partition (R181). -/
def State.winOwned (s : State) (p : Nat) (w : Nat → Nat) : Bool :=
  s.ctxOwner (fld (w 2) 19 0) == p &&
    (fld (w 0) 62 60 != 2 ||
      (s.coreValid (fld (w 2) 42 32) && s.basinOwner (coreBasin (fld (w 2) 42 32)) == p))

/-- The STATUS an export ends in: the first refusal of 0x03, 0x04, 0x02, else exported (R182). -/
def State.exportStatus (s : State) (p : Nat) (w : Nat → Nat) : Nat :=
  if winBad w || !s.winRange w then 3
  else if !s.winOwned p w then 4
  else if fld (w 0) 62 60 == 2 && (Map.find? s.modeChg (coreBasin (fld (w 2) 42 32))).isSome then 2
  else 0

/-- The window an entry describes. -/
def windowOf (w : Nat → Nat) : Window :=
  let b := fun i => bit (w 0) i
  ⟨fld (w 0) 62 60, b 59, b 58, b 57, b 56, fld (w 0) 47 0, fld (w 1) 39 0, fld (w 2) 42 32, fld (w 2) 19 0, false⟩

/-- The translation block acts on an entry it has read: an export or the start of a withdrawal. -/
def State.winAct (s : State) (p n : Nat) (w : Nat → Nat) : State :=
  let key := p * 65536 + n
  if bit (w 0) 63 then
    let st := s.exportStatus p w
    s.winStatus p n st (fun (t : State) =>
      { t with windows := if st == 0 then Map.put t.windows key (windowOf w) else Map.drop t.windows key })
  else match Map.find? s.windows key with
    | some x => { s with windows := Map.put s.windows key { x with withdrawing := true } }
    | none => s.winStatus p n 1 (fun (t : State) => t)

/-- XLT_WIN_DB is written by a function (R182). While the row of the entry is in repair, the doorbell stalls and has no effect
(R358, log entry 123). -/
def State.winDoorbell (s : State) (fn : Nat) (val : BitVec 32) : State :=
  let p := if fn == 0 then fld val.toNat 22 16 else fn - 1
  let n := fld val.toNat 15 0
  if !(p < 96 || p == 127) || n ≥ s.winEntries p then s.dropped 182 (if p < 96 then p else 127)
  else match s.ipaRead p (s.winAddr p n) 32 with
    | .error f => if f.code == 10 then s else s.tableFault 182 p f false
    | .ok (bs, bad) =>
      if bad then (s.ras_ { rasOf 0x03 2 15 0x08 0 8 with part := p }).dropped 182 p
      else (s.noteIpa p (s.winAddr p n) 32 false).winAct p n (fun i => (wordAt bs i).toNat)

/-- WINDOW_EXPORT: the doorbell of an entry with VALID = 1 (R182). -/
def execWindowExport (fn : Nat) (val : BitVec 32) (s : State) : Res :=
  if fn ≤ 96 then s.throughVf fn 0xFF000 (.next (s.winDoorbell fn val)) else .fault .absentUnit

/-- WINDOW_WITHDRAW: the doorbell of an entry with VALID = 0 (R182). -/
def execWindowWithdraw (fn : Nat) (val : BitVec 32) (s : State) : Res :=
  if fn ≤ 96 then s.throughVf fn 0xFF000 (.next (s.winDoorbell fn val)) else .fault .absentUnit

/-- WINDOW_WITHDRAW_COMPLETE: RMOs already translated have completed: here a message is translated and applied in one step,
so none is ever left. Where STATUS cannot be written, the window is exported as before (R182). -/
def execWindowWithdrawComplete (part window : Nat) (s : State) : Res :=
  let key := part * 65536 + window
  match Map.find? s.windows key with
  | none => s.idle "no such window"
  | some x =>
    if x.withdrawing then
      let t := { s with windows := Map.put s.windows key { x with withdrawing := false } }
      match t.ipaWrite part (t.winAddr part window + 6) [1#8] with
      | .ok u => .next { u with windows := Map.drop u.windows key }
      | .error f => if f.code == 10 then s.idle "the row of the entry is in repair" else .next (t.tableFault 182 part f true)
    else s.idle "the window is not being withdrawn"

end Sys2Proof.Machine
end

