-- ==== Sys2Proof/Machine/Invalidate.lean ====
section
/-! DEFINITION. Walks that finish (R238, R246), invalidations (R241 to R244), fault responses (R249) and the fault ring's
HEAD (R248). -/

namespace Sys2Proof.Machine

/-! ### WALK_COMPLETE -/

/-- Rights of a group's access: an atomic needs all, a store W, a load or fetch R (Table 14-4). -/
def groupNeed (write atomic : Bool) : Need := if atomic then needRWA else if write then needW else needR

/-- The walk of a group's pending address: held and the group issues again, or posted and the group suspended (R71). -/
def State.walkGroup (s : State) (r : GroupRef) (g : Group) (l : Launch) (fetch write atomic : Bool) (va : BitVec 64)
    (lanes : Half) (w0 w1 : Word) : State :=
  let die := coreDie r.core.toNat
  let need := groupNeed write atomic
  match s.walkVa (some l) die l.ctx va.toNat (if fetch then 8 else 1) need with
  | .ok x => (s.install x).putGroup r { g with stat := .run }
  | .error f =>
    (s.postXlat f (s.met die l.part l.ctx l.root va.toNat) need l.part l.ctx va.toNat r.core.toNat (if fetch then 0 else 1)
      l.queue l.seq die).suspend r g l fetch write atomic va lanes w0 w1

/-- Groups of a die that wait for a walk of a context's page. -/
def State.walkers (s : State) (die key : Nat) : List (Nat × Group × Launch) :=
  s.groups.filterMap (fun kv =>
    match kv.2.stat, Map.find? s.launches kv.2.launch with
    | .walk _ _ _ va _ _ _, some l => if coreDie (kv.1 / 128) == die && walkKey l.ctx va.toNat == key then some (kv.1, kv.2, l) else none
    | _, _ => none)

/-- A walk stalls at a row in repair (R358). -/
def stalled {α : Type} (x : Except XFault α) : Bool := match x with | .error f => f.code == 10 | .ok _ => false

/-- Misses of DMA commands of a die that wait for a walk of a context's page. -/
def State.dmaWalkers (s : State) (die key : Nat) : List (Nat × DmaAsk) :=
  (s.dma.filter (fun c => coreDie c.org.core == die)).flatMap (fun c =>
    (c.asked.filter (fun a => walkKey c.org.ctx a.va == key)).map (fun a => (c.id, a)))

/-- The walk of a miss of a DMA command: its row or descriptor has the translation, or it faults (R172, R175, R246). -/
def State.walkDma (s : State) (id : Nat) (a : DmaAsk) : State :=
  match s.dma.find? (fun c => c.id == id) with
  | none => s
  | some c =>
    if !c.asked.contains a then s
    else match s.walkVa (s.ownOf c.org) (coreDie c.org.core) c.org.ctx a.va 1 a.need with
      | .ok x => (s.install x).putDma { c with
          asked := c.asked.erase a
          looked := c.looked ++ [x.entry] }
      | .error f => s.dmaFault c a.row a.onDesc f a.va a.need

/-- The walk of a context's page ends: every group and every DMA command of the die that waits for it is answered (R239). -/
def State.finishWalk (s : State) (die key : Nat) : State :=
  let t := (s.walkers die key).foldl (fun (t : State) x =>
    match x.2.1.stat with
    | .walk f w a va lanes w0 w1 =>
      t.walkGroup ⟨BitVec.ofNat 11 (x.1 / 128), BitVec.ofNat 7 (x.1 % 128)⟩ x.2.1 x.2.2 f w a va lanes w0 w1
    | _ => t) (s.walkEnd die key)
  (s.dmaWalkers die key).foldl (fun (t : State) x => t.walkDma x.1 x.2) t

/-- The walk of a waiting group or DMA command stalls at a row in repair. -/
def State.walkStalls (s : State) (die key : Nat) : Bool :=
  (s.walkers die key).any (fun x => match x.2.1.stat with
    | .walk f w a va _ _ _ => stalled (s.walkVa (some x.2.2) die x.2.2.ctx va.toNat (if f then 8 else 1) (groupNeed w a))
    | _ => false) ||
  (s.dmaWalkers die key).any (fun x => (s.dma.find? (fun c => c.id == x.1)).any (fun c =>
    stalled (s.walkVa (s.ownOf c.org) die c.org.ctx x.2.va 1 x.2.need)))

/-- A walk of a die, or of the Weir, is on one of its 16 or 32 walkers: the oldest that wait are (R239). -/
def State.onWalker (s : State) (die key : Nat) : Bool :=
  ((s.walksOf die).take (if die == 15 then 32 else 16)).contains key

/-- The walk is one of a Pan die's walkers. -/
def walkOnPan (u : WalkUnit) : Bool := match u with | .page die _ _ => die != 15 | _ => true

/-- WALK_COMPLETE (R238, R246): of a group's page, of a page that a DMA command's descriptor or row misses, or of a page named by
itself. A fault of a page that groups or DMA commands wait for is theirs: each posts it with its own source. -/
def execWalkComplete (u : WalkUnit) (s : State) : Res :=
  if s.tripped && walkOnPan u then .next s
  else match u with
  | .group r =>
    match Map.find? s.groups (refKey r) with
    | none => s.idle "no group holds this slot"
    | some g =>
      match g.stat, Map.find? s.launches g.launch with
      | .walk _ _ _ va _ _ _, some l =>
        let die := coreDie r.core.toNat
        let key := walkKey l.ctx va.toNat
        if !s.onWalker die key then s.idle "the miss waits for a walker"
        else if s.walkStalls die key then s.idle "the walk stalls at a row in repair"
        else .next (s.finishWalk die key)
      | _, _ => s.idle "the group awaits no walk"
  | .dma id =>
    match s.dma.find? (fun c => c.id == id) with
    | none => s.idle "no such DMA command"
    | some c =>
      let die := coreDie c.org.core
      match (c.asked.map (fun a => walkKey c.org.ctx a.va)).find? (fun k => s.onWalker die k && !s.walkStalls die k) with
      | some key => .next (s.finishWalk die key)
      | none => s.idle "the command awaits no walk that can end"
  | .page die ctx va =>
    let key := walkKey ctx.toNat va.toNat
    let x := s.walkVa none die ctx.toNat va.toNat 1 ⟨false, false, false⟩
    if (s.walksOf die).contains key && !s.onWalker die key then s.idle "the miss waits for a walker"
    else if s.walkStalls die key || stalled x then s.idle "the walk stalls at a row in repair"
    else
      let t := match x with
        | .ok x => s.install x
        | .error f =>
          if (s.walkers die key).isEmpty && (s.dmaWalkers die key).isEmpty then
            s.postXlat f (s.met die (s.ctxOwner ctx.toNat) ctx.toNat (s.rootOf none ctx.toNat) va.toNat) needR
              (s.ctxOwner ctx.toNat) ctx.toNat va.toNat 0 5 0 0 die
          else s
      .next (t.finishWalk die key)

/-! ### Invalidations (R241, R242) -/

/-- A command has no effect (R241): its kind, its PART, a reserved bit, or a VF beyond its own contexts. -/
def State.invInvalid (s : State) (fn p : Nat) (hi : Nat) : Bool :=
  let k := fld hi 63 60
  k == 0 || k > 6 || bit hi 59 || ((k == 4 || k == 5) && 96 ≤ fld hi 58 52 && fld hi 58 52 ≤ 126) ||
    (fn != 0 && (k ≥ 4 || (k ≤ 2 && s.ctxOwner (fld hi 51 32) != p)))

/-- Commands submitted and not completed. -/
def State.invOpen (s : State) (p : Nat) : Nat :=
  (s.rf (.xltInvSts p) 15 0 + 2 ^ 16 - s.rf (.xltInvSts p) 31 16) % 2 ^ 16

/-- A command completes: DONE advances; without effect, ERR_SEQ holds its number. -/
def State.invDone (s : State) (p : Nat) (i : Inval) : State :=
  let r : Reg := .xltInvSts p
  let s := s.setRf r 31 16 (s.rf r 31 16 + 1)
  if i.valid then s else s.setRf r 47 32 i.seq

/-- Commands without effect complete as they reach the front. -/
def State.invSettle (s : State) (p : Nat) : Nat → State
  | 0 => s
  | f + 1 =>
    match Map.getD s.invs p [] with
    | [] => s
    | i :: rest =>
      if i.valid then s
      else State.invSettle ({ s with invs := Map.putD s.invs p [] rest }.invDone p i) p f

/-- The ADDR copy of the function that writes XLT_INV_HI (R398). -/
def State.invAddr (s : State) (fn p : Nat) : Nat :=
  fld (s.reg (if fn == 0 then .xltInvLo p else .vfXltInvLo p)) 47 16

/-- XLT_INV_HI of the block of p is written by a function: the command is submitted, or dropped while 16 are outstanding. -/
def State.submitInv (s : State) (fn p : Nat) (hi : BitVec 64) : State :=
  if s.invOpen p ≥ 16 then s.dropped 241 p
  else
    let r : Reg := .xltInvSts p
    let seq := (s.rf r 15 0 + 1) % 2 ^ 16
    let h := hi.toNat
    let part := if fld h 63 60 == 3 then p else fld h 58 52
    let i : Inval := ⟨seq, fld h 63 60, part, fld h 51 32, s.invAddr fn p, fld h 31 0, !s.invInvalid fn p h⟩
    let s := s.setRf r 15 0 seq
    { s with invs := Map.put s.invs p (Map.getD s.invs p [] ++ [i]) }.invSettle p 17

/-- Ranges of pages meet. -/
def pagesMeet (a n b m : Nat) : Bool := decide (a < b + m ∧ b < a + n)

/-- An invalidation covers a held translation (R242). A stage-2 range is matched against the largest leaf that the entry may
come from. -/
def Inval.covers (i : Inval) (e : TlbEntry) : Bool :=
  let a := i.addr * 65536
  let n := (i.npm1 + 1) * 65536
  match i.kind with
  | 1 => e.ctx == i.ctx && pagesMeet a n e.va e.size
  | 2 => e.ctx == i.ctx
  | 3 => e.part == i.part
  | 4 => e.part == i.part && pagesMeet a n e.ipa (2 ^ 29)
  | 5 => e.part == i.part
  | _ => true

/-- An invalidation covers a table entry of a stage-1 walk cache: its range lies on the path (R242). -/
def Inval.covers1 (i : Inval) (x : Wc1) : Bool :=
  let span := if x.level == 2 then 2 ^ 42 else 2 ^ 29
  match i.kind with
  | 1 => x.ctx == i.ctx && pagesMeet (i.addr * 65536) ((i.npm1 + 1) * 65536) (x.va * span) span
  | 2 => x.ctx == i.ctx
  | 3 => x.part == i.part
  | 4 => false
  | 5 => x.part == i.part
  | _ => true

/-- An invalidation covers an entry of a stage-2 walk cache. -/
def Inval.covers2 (i : Inval) (x : Wc2) : Bool :=
  match i.kind with
  | 4 => x.part == i.part &&
      pagesMeet (i.addr * 65536) ((i.npm1 + 1) * 65536) (x.page * 65536 / x.size * x.size) x.size
  | 5 => x.part == i.part
  | 6 => true
  | _ => false

/-- The instance whose fetches an invalidation covers (R242): its basins' instruction caches hold the lines, and all of them
leave (log entry 103). -/
def State.invFetches (s : State) (i : Inval) : Option Nat :=
  if i.kind == 3 then some i.part else if i.kind == 1 || i.kind == 2 then some (s.ctxOwner i.ctx) else none

/-- The first address of the row at a command's cursor that a translation serves, and whether the row writes there. -/
def State.rowAt (s : State) (c : DmaCmd) (e : TlbEntry) : Nat × Bool :=
  let inside := fun (va : Nat) => e.va ≤ va && va < e.va + e.size
  match c.desc with
  | none => (e.va, false)
  | some d =>
    let (r, w) := s.rowVas c d c.cursor
    match r.find? inside, w.find? inside with
    | some va, _ => (va, false)
    | none, some va => (va, true)
    | none, none => (e.va, false)

/-- A row that is translated with a covered entry and not begun is squashed: its command suspends at its cursor, posts its
record, and resumes as the invalidation completes (R175, Table 14-8). -/
def State.squashRows (s : State) (i : Inval) : State :=
  s.dma.foldl (fun (t : State) (c : DmaCmd) =>
    match c.looked.find? i.covers with
    | none => t
    | some e =>
      let (va, write) := s.rowAt c e
      let t := t.putDma { c with looked := [] }
      (t.post c.org.part (dmaRecord c 0x80 true write false va (t.dieTime (coreDie c.org.core)))).1) s

/-- The command at the front completes: no structure holds a covered entry, and no row translated with one is left (R242). -/
def State.invComplete (s : State) (p : Nat) : Option State :=
  match Map.getD s.invs p [] with
  | [] => none
  | i :: rest =>
    let t := (s.squashRows i).dropXlat i.covers i.covers1 i.covers2
    let t := match t.invFetches i with
      | some q => t.dropIcache (fun c => t.basinOwner (c / 7) == q)
      | none => t
    some (({ t with invs := Map.putD t.invs p [] rest }.invDone p i).invSettle p 17)

/-- S1_RANGE (R241). -/
def execS1Range (fn p : Nat) (hi : BitVec 64) (s : State) : Res :=
  s.throughVf fn 0xFE008 (.next (s.submitInv fn p hi))
/-- S1_CTX (R241). -/
def execS1Ctx (fn p : Nat) (hi : BitVec 64) (s : State) : Res :=
  s.throughVf fn 0xFE008 (.next (s.submitInv fn p hi))
/-- S1_ALL (R241). -/
def execS1All (fn p : Nat) (hi : BitVec 64) (s : State) : Res :=
  s.throughVf fn 0xFE008 (.next (s.submitInv fn p hi))
/-- S2_RANGE (R241). -/
def execS2Range (fn p : Nat) (hi : BitVec 64) (s : State) : Res :=
  s.throughVf fn 0xFE008 (.next (s.submitInv fn p hi))
/-- S2_PART (R241). -/
def execS2Part (fn p : Nat) (hi : BitVec 64) (s : State) : Res :=
  s.throughVf fn 0xFE008 (.next (s.submitInv fn p hi))
/-- ALL (R241). -/
def execInvalidateAll (fn p : Nat) (hi : BitVec 64) (s : State) : Res :=
  s.throughVf fn 0xFE008 (.next (s.submitInv fn p hi))

/-- INVALIDATION_COMPLETE: an access of a group, of an RMO or of the Weir translates when it is performed, so rows of DMA
commands are all that is in flight (R242). -/
def execInvalidationComplete (owner : Nat) (s : State) : Res :=
  match s.invComplete owner with
  | some t => .next t
  | none => s.idle "no invalidation is outstanding"

/-- INVALIDATION_WATCHDOG: the access still incomplete is squashed, and the invalidation completes (R244, R366). -/
def execInvalidationWatchdog (owner : Nat) (s : State) : Res :=
  match s.invComplete owner with
  | some t => .next (t.ras_ { rasOf 0x0E 2 15 0x08 0 2 with part := owner })
  | none => s.idle "no invalidation is outstanding"

/-! ### XLT_FRESP (R249) -/

/-- The suspended groups among numbered ones whose pending address passes, in ascending order of slot. -/
def suspIn (p : Nat → Bool) (gs : Map Group) : List (Nat × Group) :=
  gs.filter (fun kv => match kv.2.stat with | .susp _ _ _ va _ _ _ => p va.toNat | _ => false)

/-- The record of a suspended group that fails, not restartable. -/
def State.postSusp (s : State) (r : GroupRef) (g : Group) (l : Launch) : State :=
  match g.stat with
  | .susp fetch _ _ va lanes w0 w1 => s.postGroup r g l ⟨if fetch then 1 else 0x0D, lanes, va.toNat⟩ w0 w1
  | _ => s

/-- A group of a launch at its key, put among others in ascending order of core and slot. -/
def insKey (x : Nat × Group × Launch) : List (Nat × Group × Launch) → List (Nat × Group × Launch)
  | [] => [x]
  | y :: ys => if x.1 < y.1 then x :: y :: ys else y :: insKey x ys

/-- The suspended groups of a context whose address passes, those saved at a preemption too, by core and slot. -/
def State.suspOf (s : State) (ctx : Nat) (p : Nat → Bool) : List (Nat × Group × Launch) :=
  let here := (suspIn p s.groups).filterMap (fun kv => match Map.find? s.launches kv.2.launch with
    | some l => if l.ctx == ctx then some (kv.1, kv.2, l) else none
    | none => none)
  let away := (s.launches.filter (fun kv => kv.2.ctx == ctx)).flatMap (fun kv =>
    (suspIn p kv.2.saved).map (fun g => (gkey kv.2.core g.1, g.2, kv.2)))
  away.foldl (fun l x => insKey x l) here

/-- Suspended groups of a context fail: each posts its record, by core in ascending order of slot, and their launches end
(R71, R72). -/
def State.failSusp (s : State) (xs : List (Nat × Group × Launch)) : State :=
  let t := xs.foldl (fun (t : State) x =>
    t.postSusp ⟨BitVec.ofNat 11 (x.1 / 128), BitVec.ofNat 7 (x.1 % 128)⟩ x.2.1 x.2.2) s
  ((xs.map (fun x => x.2.1.launch)).dedup).foldl (fun (t : State) id => t.failLaunch id 2) t

/-- Suspended units of a context whose address passes fail: groups fatally, DMA commands with status 0x07 at the row that
faulted. -/
def State.failUnits (s : State) (ctx : Nat) (p : Nat → Bool) : State :=
  let s := s.failSusp (s.suspOf ctx p)
  (s.dma.filter (fun c => c.org.ctx == ctx)).foldl (fun (t : State) c =>
    match c.susp with
    | some x =>
      if !p x.va || !t.dma.any (fun o => o.id == c.id) then t
      else if x.onDesc then t.dmaLost c 7 else t.dmaDone c 7 x.row
    | none => t) s

/-- A suspended group issues its instruction again, and so translates again. -/
def Group.retry (g : Group) : Group :=
  match g.stat with
  | .susp _ _ _ _ _ _ _ => { g with stat := .run }
  | _ => g

/-- Suspended units of a context translate again, those of preempted launches with them. -/
def State.retryUnits (s : State) (ctx : Nat) : State :=
  let mine := fun (id : Nat) => match Map.find? s.launches id with | some l => l.ctx == ctx | none => false
  { s with
    groups := Map.mapV s.groups (fun _ g => if mine g.launch then g.retry else g)
    launches := Map.mapV s.launches (fun id l =>
      if mine id then { l with saved := Map.mapV l.saved (fun _ g => g.retry) } else l)
    dma := s.dma.map (fun c => if c.org.ctx == ctx then { c with susp := none } else c) }

/-- XLT_FRESP of the block of p names a context: of another instance it is dropped; else its pages may be posted anew, and
`act` follows. -/
def State.fresp (s : State) (p ctx : Nat) (act : State → State) : State :=
  if s.ctxOwner ctx != p then s.dropped 249 p
  else act { s with posted := s.posted.filter (fun k => k / 2 ^ 32 % 2 ^ 20 != ctx) }

/-- XLT_FRESP, retry (R249). -/
def execFrespRetry (fn p : Nat) (_page : BitVec 32) (ctx : Ctx) (s : State) : Res :=
  s.throughVf fn 0xFE030 (.next (s.fresp p ctx.toNat (fun t => t.retryUnits ctx.toNat)))

/-- XLT_FRESP, fail page (R249). -/
def execFrespFailPage (fn p : Nat) (page : BitVec 32) (ctx : Ctx) (s : State) : Res :=
  s.throughVf fn 0xFE030 (.next (s.fresp p ctx.toNat (fun t => t.failUnits ctx.toNat (fun va => va / 65536 % 2 ^ 32 == page.toNat))))

/-- XLT_FRESP, fail context (R249). -/
def execFrespFailContext (fn p : Nat) (_page : BitVec 32) (ctx : Ctx) (s : State) : Res :=
  s.throughVf fn 0xFE030 (.next (s.fresp p ctx.toNat (fun t => t.failUnits ctx.toNat (fun _ => true))))

/-- XLT_FRING_HEAD is written: held records are posted as space appears (R248). -/
def execFringHeadWrite (fn p : Nat) (val : BitVec 32) (s : State) : Res :=
  s.throughVf fn 0xFE020 (.next ((s.setReg (.xltFringHead p) val.toNat).drainHeld p 256))

end Sys2Proof.Machine
end

