-- ==== Sys2Proof/Machine/Queues.lean ====
section
/-! DEFINITION. Queues (R257 to R265): the commands of QUE_CMD, doorbells, reading packets, what makes a packet invalid, and
the activity of contexts (R251, R253, R254). -/

namespace Sys2Proof.Machine

/-! ### Naming -/

/-- Queues an instance owns by register. -/
def State.qcount (s : State) (p : Nat) : Nat := if p < 96 then s.rf (.queRange p) 46 32 else 2 ^ 18

/-- The global queue that a function names: PF0 any, a VF one of its own (Table 15-6). -/
def State.queueOf (s : State) (fn i : Nat) : Option Nat :=
  if fn == 0 then (if i < 2 ^ 18 then some i else none)
  else if i < s.qcount (fn - 1) then some (s.qbase (fn - 1) + i) else none

/-- A queue's state; an unlisted queue is disabled and empty. -/
def State.queue (s : State) (q : Nat) : Queue :=
  Map.getD s.queues q ⟨false, 0, 0, 0, 127, 0, 0, 0, 0, 0, 0, [], [], none, 0, false⟩

/-- Set a queue's state. -/
def State.setQueue (s : State) (q : Nat) (x : Queue) : State := { s with queues := Map.put s.queues q x }

/-- Change a listed queue. -/
def State.modQueue (s : State) (q : Nat) (f : Queue → Queue) : State := { s with queues := Map.modify s.queues q f }

/-- Entries of a queue's ring (R257). -/
def Queue.entries (q : Queue) : Nat := 16 * 2 ^ q.size

/-! ### QUE_CMD (R258) -/

/-- The pair of a function, and its status register (R400). -/
def pairOf (fn : Nat) : Nat := if fn == 0 then 127 else fn - 1
def pairReg (fn : Nat) : Reg := if fn == 0 then .queCmdSts else .vfQueCmdSts (fn - 1)

/-- A command of a pair finishes with a RESULT; DONE advances. -/
def State.queDone (s : State) (fn res : Nat) : State :=
  let r := pairReg fn
  ({ s with cmdBusy := NSet.del s.cmdBusy (pairOf fn) }.setRf r 55 52 res).setRf r 31 0 (s.rf r 31 0 + 1)

/-- Run a command of a pair; one that arrives while another is in progress is dropped and counted. -/
def State.queRun (s : State) (fn : Nat) (k : State → State) : Res :=
  if fn > 96 then .fault .absentUnit
  else s.throughVf fn 0xFD000 <| if s.cmdBusy.contains (pairOf fn) then .next (s.dropped 258 (pairOf fn))
  else .next (k s)

/-- A queue entry that ENABLE accepts (Table 15-4). -/
def State.entryOk (s : State) (p : Nat) (w0 w1 : Nat) : Bool :=
  fld w0 62 60 == 0 && fld w0 55 48 == 0 && fld w0 59 56 ≤ 12 && fld w0 11 0 == 0 && fld w1 63 20 == 0 &&
    s.ctxOwner (fld w1 19 0) == p

/-- ENABLE: the entry is read and checked; HEAD, TAIL, CMPL and the phase become 0 (R258). While queues are out of service
(R17) no queue can be enabled, nor while its partition is reset, when it shows disabling (Table 16-5): wrong state (log entry
105). A table row in repair stalls the command (R358, log entry 123). -/
def State.enableQueue (s : State) (fn q : Nat) : State :=
  let p := s.queueOwner q
  if (s.queue q).st != 0 || !s.sharedUp || (Map.find? s.partOps p).isSome then s.queDone fn 4
  else if s.rf (.schQtab p) 0 0 == 0 then s.queDone fn 2
  else match s.ipaRead p (s.rf (.schQtab p) 51 16 * 2 ^ 16 + (q - s.qbase p) * 16) 16 with
    | .error f => if f.code == 10 then s else (s.weirFault p none f false).queDone fn 2
    | .ok (bs, bad) =>
      let s := s.noteIpa p (s.rf (.schQtab p) 51 16 * 2 ^ 16 + (q - s.qbase p) * 16) 16 false
      let w0 := (wordAt bs 0).toNat
      let w1 := (wordAt bs 1).toNat
      if bad then (s.ras_ { rasOf 0x03 2 15 0x08 0 8 with part := p }).queDone fn 2
      else if !s.entryOk p w0 w1 then s.queDone fn 2
      else
        (s.setQueue q ⟨bit w0 63, fld w0 59 56, fld w0 47 0, fld w1 19 0, p, 0, 0, 0, 1, 0, 0, [], [], none, s.weirCtr.toNat,
          false⟩).queDone fn 0

/-- ENABLE (R258). -/
def execEnable (fn : Nat) (queue : BitVec 18) (s : State) : Res :=
  s.queRun fn (fun (s : State) =>
    match s.queueOf fn queue.toNat with
    | none => s.queDone fn 3
    | some q => s.enableQueue fn q)

/-- A packet that is only partly placed stops placing; one with nothing placed is discarded. -/
def Queue.discard (x : Queue) : Queue :=
  { x with
    fetched := []
    started := (x.started.filter (fun p => p.toPlace.isEmpty || p.count != 0)).map (fun p => { p with toPlace := [] }) }

/-- RESUME: a queue stopped on error continues with its next unstarted packet (R258). -/
def execResume (fn : Nat) (queue : BitVec 18) (s : State) : Res :=
  s.queRun fn (fun s =>
    match s.queueOf fn queue.toNat with
    | none => s.queDone fn 3
    | some q =>
      if (s.queue q).st == 5 then (s.modQueue q (fun x => { x with st := 1 })).queDone fn 0 else s.queDone fn 4)

/-- RELOAD: the record is reread before the next placement, and the failed mark goes (R258, R353). -/
def execReload (fn : Nat) (ctx : Ctx) (s : State) : Res :=
  s.queRun fn (fun s =>
    if fn != 0 && s.ctxOwner ctx.toNat != fn - 1 then s.queDone fn 3
    else
      ({ s with
        failed := NSet.del s.failed ctx.toNat
        ctxs := Map.modify s.ctxs ctx.toNat (fun a => { a with reread := true }) }).queDone fn 0)

/-! ### Doorbells (R259) -/

/-- DOORBELL: a 64-bit write gives a new TAIL, or is dropped and counted (R259, R396). -/
def execDoorbell (fn idx size : Nat) (val : BitVec 64) (s : State) : Res :=
  if fn > 96 then .fault .absentUnit
  else s.throughVf fn (idx * 8) <| if size != 8 then .next (s.accessError 396 fn (if fn == 0 then 0x1000000 + idx * 8 else idx * 8))
  else if !s.sharedUp then .next (s.dropped 17 (pairOf fn))
  else match s.queueOf fn idx with
    | none => .next (s.dropped 259 (pairOf fn))
    | some q =>
      let x := s.queue q
      let new := BitVec.ofNat 32 (fld val.toNat 31 0)
      if x.st == 0 || x.st == 6 || (Map.find? s.partOps x.owner).isSome || s.quarantined.contains x.owner ||
          decide ((new - x.head).toNat > x.entries) || decide ((new - x.tail).toNat ≥ 2 ^ 31) then
        .next (s.dropped 259 (pairOf fn))
      else .next (s.setQueue q { x with tail := new })

/-! ### Contexts become active (R251, R253, R254) -/

/-- Least virtual time among the other active contexts of a partition. -/
def State.leastVt (s : State) (p ctx : Nat) : Option Nat :=
  (s.ctxs.filter (fun kv => kv.2.part == p && kv.1 != ctx)).foldl (fun m kv =>
    match m with
    | some v => some (min v kv.2.vt)
    | none => some kv.2.vt) none

/-- Poison that the queue manager consumes is logged and fails the context (R352, R353). -/
def State.quePoison (s : State) (p ctx : Nat) : State :=
  (s.ras_ { rasOf 0x03 2 15 0x08 0 8 with part := p, ctx := ctx }).failCtx ctx

/-- A fault of a walk that the queue manager needs for a context: its record is posted, and poison in a table entry fails the
context (R246, R352, R353). -/
def State.queFault (s : State) (x : Queue) (va : Nat) (need : Need) (f : XFault) : State :=
  if f.code == 9 then s.quePoison x.owner x.ctx
  else
    let t := s.postXlat f (s.met 15 x.owner x.ctx (s.rootOf none x.ctx) va) need x.owner x.ctx va 0 5 0 0 15
    if f.code == 8 then t.failCtx x.ctx else t

/-- The status of a packet that a fault of a walk stops: an invalid context, poison, or a translation (R251, Table 15-10). -/
def queStatus (f : XFault) : Nat := if f.code == 0 then 5 else if f.code == 8 || f.code == 9 then 8 else 4

/-- A record as an active context holds it: one that cannot be read is invalid, and a poisoned one fails its context (R251, R352,
R353). None while a row in repair stalls the read (R358). -/
def State.readActive (s : State) (ctx : Nat) : Option (State × ActiveCtx) :=
  let p := s.ctxOwner ctx
  match s.readRecord ctx with
  | .ok a => some (if a.poison then (s.noteRecord ctx).quePoison p ctx else s.noteRecord ctx, a)
  | .error f =>
    if f.code == 10 then none
    else
      let t := s.weirFault p (some ctx) f false
      some (if f.code == 8 then t.failCtx ctx else t, ⟨p, 0, 0, 0, 0, 0, 0, 0, 0, false, false, f.code == 8⟩)

/-- A context becomes active; with 16,384 active, or while its record cannot be read, it has to wait (R253, R358). -/
def State.activate (s : State) (ctx : Nat) : State :=
  if (Map.find? s.ctxs ctx).isSome || s.ctxs.length ≥ 16384 then s
  else match s.readActive ctx with
    | none => s
    | some (s, a) =>
      let vt := match s.leastVt a.part ctx with | some v => max a.vt v | none => a.vt
      { s with ctxs := Map.put s.ctxs ctx { a with vt := vt } }

/-- The packet at the start point of a queue: the first that has been read and not started, while no packet still places. -/
def Queue.front (x : Queue) : Option Packet :=
  if x.started.any (fun p => !p.toPlace.isEmpty) then none else x.fetched.head?

/-- A packet has reached the start point: its context becomes active. -/
def State.activateFront (s : State) (q : Nat) : State :=
  let x := s.queue q
  if x.front.isSome then (s.modQueue q (fun y => { y with since := s.weirCtr.toNat })).activate x.ctx else s

/-- Some queue of a context has a packet at its start point. -/
def State.atStart (s : State) (ctx : Nat) : Bool :=
  s.queues.any (fun kv => kv.2.ctx == ctx && kv.2.st != 0 && (!kv.2.fetched.isEmpty || kv.2.started.any (fun p => !p.toPlace.isEmpty)))

/-- The context stays active (R253). -/
def State.keepsActive (s : State) (ctx : Nat) : Bool :=
  s.atStart ctx || s.launches.any (fun kv => kv.2.ctx == ctx) || s.residents.any (fun kv => kv.2.any (fun r => r.ctx == ctx))

/-- Write TIME and VT of an active context back to its record (R253). -/
def State.writeBack (s : State) (ctx : Nat) : State :=
  match Map.find? s.ctxs ctx with
  | none => s
  | some a =>
    if s.rf (.schCtab a.part) 0 0 == 0 then s
    else match s.ipaWrite a.part (s.rf (.schCtab a.part) 51 16 * 2 ^ 16 + (ctx - s.cbase a.part) * 64 + 40)
        (leBytes a.time 8 ++ leBytes a.vt 8) with
      | .ok t => t
      | .error f => if f.code == 10 then s else s.weirFault a.part (some ctx) f true

/-- The row of an active context's record is in repair: a write to it stalls (R360). -/
def State.recordStalled (s : State) (ctx : Nat) : Bool :=
  match Map.find? s.ctxs ctx with
  | none => false
  | some a =>
    s.rf (.schCtab a.part) 0 0 == 1 &&
      (match s.translate2 a.part (s.rf (.schCtab a.part) 51 16 * 2 ^ 16 + (ctx - s.cbase a.part) * 64 + 40) 16 true with
       | .ok (dpa, _) => ((s.locateN dpa 16).getD []).any s.inRepair
       | .error f => f.code == 10)

/-- Packets whose contexts wait because 16,384 are active reach them as room appears, in ascending queue order (R253, log
entry 106). -/
def State.activateWaiting (s : State) : State :=
  (s.queues.filter (fun kv => kv.2.st != 0 && kv.2.front.isSome && (Map.find? s.ctxs kv.2.ctx).isNone)).foldl
    (fun (t : State) kv => t.activate kv.2.ctx) s

/-- A context that nothing keeps active is written back and let go, once its record can be written; one that waited takes its
place. -/
def State.settleCtx (s : State) (ctx : Nat) : State :=
  if s.keepsActive ctx || (Map.find? s.ctxs ctx).isNone || s.recordStalled ctx then s
  else ({ (s.writeBack ctx) with ctxs := Map.drop s.ctxs ctx } : State).activateWaiting

/-- DISABLE: packet reads stop, packets not started are discarded; DISABLE_COMPLETE ends the command (R258). -/
def execDisable (fn : Nat) (queue : BitVec 18) (s : State) : Res :=
  s.queRun fn (fun s =>
    match s.queueOf fn queue.toNat with
    | none => s.queDone fn 3
    | some q =>
      let x := s.queue q
      if x.st == 0 || x.st == 6 then s.queDone fn 4
      else
        (({ s with cmdBusy := NSet.ins s.cmdBusy (pairOf fn) }.setQueue q { x.discard with
          st := 6
          disabledBy := some fn }).setRf (pairReg fn) 55 52 1).settleCtx x.ctx)

/-- DISABLE_COMPLETE: every started packet has completed (R258). -/
def execDisableComplete (q : Nat) (s : State) : Res :=
  let x := s.queue q
  match x.disabledBy with
  | none => s.idle "the queue is not disabling"
  | some fn =>
    if x.st != 6 || !x.started.isEmpty then s.idle "started packets have not completed"
    else .next (((s.setQueue q { x with
      st := 0
      disabledBy := none }).queDone fn 0).settleCtx x.ctx)

/-- stride(x) of R254. -/
def ActiveCtx.stride (a : ActiveCtx) : Nat := 2 ^ 24 / max 1 (fld a.w0.toNat 15 0)

/-- Cycles charged since the last update enter TIME and VT (R254). -/
def State.charge (s : State) : State :=
  { s with ctxs := Map.mapV s.ctxs (fun _ a => { a with
      time := (a.time + a.charged) % 2 ^ 64
      vt := (a.vt + a.charged * a.stride) % 2 ^ 64
      charged := 0 }) }

/-- CONTEXT_RECORD_WRITEBACK: every 1 ms, each active context's times; one that only its record's row kept active is let go
(R253). -/
def execContextRecordWriteback (s : State) : Res :=
  let s := s.charge
  .next ((s.ctxs.map Prod.fst).foldl (fun (t : State) c => (t.writeBack c).settleCtx c) s)

/-! ### Reading packets (R260) -/

/-- A ring entry: its bytes, or the status its packet completes with; the fault posted, and poison consumed (R260, R352). None
while the home of its line is busy or its row is in repair (R225, R358). -/
def State.ringRead (s : State) (x : Queue) (a : Nat) : Option (State × Except Nat (List Byte)) :=
  if x.host then
    let k := s.ctxDom x.ctx * 2 ^ 48 + a
    if !s.hostUp x.owner then some (s, .error 4)
    else
      let bs := (List.range 64).map (fun i => s.hostRead (k + i))
      some (if (List.range 64).any (fun i => s.hostPoison.contains ((k + i) / 32)) then
        (s.quePoison x.owner x.ctx, .error 8) else (s, .ok bs))
  else match s.ctxAccess 15 x.ctx a 64 needR with
    | .error f => if f.code == 10 then none else some (s.queFault x a needR f, .error (queStatus f))
    | .ok (s, dpa, ls) =>
      if !(spaceOf dpa == 0 || spaceOf dpa == 1) || s.unreachable dpa ls then some (s, .error 4)
      else if ls.any s.inRepair then none
      else (s.homeRead ((List.range 64).map (dpa + ·))).map (fun (t : State) =>
        let (bs, bad) := t.readLocs 0 ls
        if bad then (t.quePoison x.owner x.ctx, .error 8) else (t, .ok bs))

/-- PACKET_READ: the next packet is read, at most four of them ahead; HEAD advances (R260). -/
def execPacketRead (q : Nat) (s : State) : Res :=
  let x := s.queue q
  if x.st != 1 || x.head == x.tail || x.fetched.length ≥ 4 || !s.sharedUp || (Map.find? s.partOps x.owner).isSome then
    s.idle "the queue reads no packet"
  else match s.ringRead x (x.ring + x.head.toNat % x.entries * 64) with
  | none => s.idle "the line of the packet is in flight"
  | some (s, r) =>
    let pkt : Packet := match r with
      | .ok bs => ⟨x.head.toNat, (List.range 8).map (wordAt bs), none⟩
      | .error c => ⟨x.head.toNat, [], some c⟩
    let t := s.modQueue q (fun y => { y with
      head := y.head + 1
      fetched := y.fetched ++ [pkt] })
    .next (if x.fetched.isEmpty then t.activateFront q else t)

/-! ### Packets (R261, Tables 15-7, 15-8, 08-5) -/

/-- Bits hi down to lo of word i of a packet. -/
def Packet.f (p : Packet) (i hi lo : Nat) : Nat := fld (p.words.getD i 0).toNat hi lo
def Packet.type (p : Packet) : Nat := p.f 0 7 0
def Packet.bar (p : Packet) : Bool := p.f 0 8 8 == 1
def Packet.kind (p : Packet) : Nat := p.f 0 14 12
def Packet.threads (p : Packet) : Nat := p.f 0 43 32 + 1
def Packet.groups (p : Packet) : Nat := ceilDiv p.threads 32
def Packet.addr (p : Packet) : Nat := p.f 1 47 0
def Packet.sig (p : Packet) : Nat := p.f 3 47 0
def Packet.crec (p : Packet) : Nat := p.f 5 47 0

/-- A launch, conditional launch or fanout. -/
def Packet.launches (p : Packet) : Bool := 1 ≤ p.type && p.type ≤ 3

/-- The core a DMA packet names belongs to the partition. -/
def State.dmaCoreOk (s : State) (owner core : Nat) : Bool :=
  core == 0x7FF || (s.coreValid core && s.basinOwner (coreBasin core) == owner)

/-- A packet is invalid (R144, R261, R263). -/
def State.pktInvalid (s : State) (owner : Nat) (p : Packet) : Bool :=
  let t := p.type
  let la := p.launches
  let z := fun (i : Nat) => p.words.getD i 0 != 0
  let common := p.f 0 63 44 != 0 || p.f 0 31 18 != 0 || p.f 0 15 15 != 0 || p.f 0 11 10 != 0 || p.f 3 63 48 != 0 ||
    p.sig % 8 != 0 || p.f 5 63 48 != 0 || p.crec % 16 != 0 || (t != 5 && p.f 0 17 16 != 0) || p.f 0 17 16 > 1 ||
    (!la && (p.f 0 43 32 != 0 || p.kind != 0 || p.f 0 9 9 != 0)) ||
    (la && (p.kind > 3 || p.groups > kindSlots p.kind || p.f 1 63 48 != 0 || p.f 2 63 48 != 0))
  let word := p.f 1 63 48 != 0 || p.addr % 8 != 0
  common || (match t with
    | 1 => z 6 || z 7
    | 2 => p.f 6 63 48 != 0 || p.f 6 2 0 != 0 || z 7
    | 3 => p.f 6 63 48 != 0 || p.f 6 4 0 != 0 || p.f 7 15 10 != 0 || p.f 7 31 26 != 0 || p.f 7 34 32 != 0 ||
        p.f 7 9 0 + p.f 7 25 16 > 1023
    | 4 => p.f 1 63 48 != 0 || p.addr % 64 != 0 || p.f 2 63 19 != 0 || p.f 2 15 11 != 0 || p.f 2 18 16 > 5 ||
        !s.dmaCoreOk owner (p.f 2 10 0) || z 6 || z 7
    | 5 => word || z 6 || z 7
    | 6 => word || p.f 6 31 4 != 0 || p.f 6 3 0 > 9 || z 7
    | 7 => p.f 1 63 6 != 0 || z 2 || z 6 || z 7
    | 8 => word || z 6 || z 7
    | _ => true)

/-- The record that placements use from now on, reread when RELOAD asked for it (R258). -/
def State.freshRecord (s : State) (ctx : Nat) : State :=
  match Map.find? s.ctxs ctx with
  | none => s
  | some a =>
    if a.reread then
      match s.readActive ctx with
      | none => s
      | some (t, b) =>
        { t with ctxs := Map.put t.ctxs ctx { b with
            time := a.time
            vt := a.vt
            charged := a.charged } }
    else s

/-- Why launches and DMA commands of an active context cannot start: its record was poisoned when it was read, or it is invalid
or failed (R251, R353). The packet that meets the poison completes with 0x08, every later one with 0x05. -/
def State.ctxStop (s : State) (ctx : Nat) : Option Nat :=
  match Map.find? s.ctxs ctx with
  | none => none
  | some a => if a.poison then some 8 else if !a.valid || s.failed.contains ctx then some 5 else none

/-- A context's pool range does not fit a kind of core (R251). -/
def State.rangeTooBig (s : State) (ctx kind : Nat) : Bool :=
  match Map.find? s.ctxs ctx with
  | none => false
  | some a => (fld a.w4.toNat 8 0 + fld a.w4.toNat 24 16) * 65536 > kindPool kind

/-- The status of a packet that cannot start at all: its read failed, it is invalid, its context is invalid or failed, or, for a
launch, the context's pool range does not fit the kind of core (R251, R260, R261, R353). A conditional launch or a fanout
meets the range check where it is placed. -/
def State.pktStop (s : State) (x : Queue) (p : Packet) : Option Nat :=
  match p.bad with
  | some c => some c
  | none =>
    if s.pktInvalid x.owner p then some 3
    else if p.launches || p.type == 4 then
      match s.ctxStop x.ctx with
      | some st => some st
      | none => if p.type == 1 && s.rangeTooBig x.ctx p.kind then some 5 else none
    else none

/-- What stops a packet may change before it is placed: RELOAD has marked its context's record (R258). -/
def State.judgedLater (s : State) (x : Queue) (p : Packet) : Bool :=
  p.bad.isNone && !s.pktInvalid x.owner p && (match Map.find? s.ctxs x.ctx with | some a => a.reread | none => false)

/-- A started packet has ended with an error and only its completion is left: no packet starts behind it (R264). -/
def Started.stops (e : Started) : Bool := e.live.isEmpty && e.toPlace.isEmpty && decide (e.status > 1)

/-- The packet at the start point may start now: the queue runs, its context is active, and BAR holds (R262). -/
def State.startable (s : State) (q : Nat) : Option Packet :=
  let x := s.queue q
  if x.st != 1 || (Map.find? s.partOps x.owner).isSome || !s.sharedUp || x.started.any Started.stops then none
  else match x.front with
    | none => none
    | some p => if (p.bad.isNone && p.bar && !x.started.isEmpty) || (Map.find? s.ctxs x.ctx).isNone then none else some p

/-- Before a packet at the start point is judged, its context becomes active where it had to wait, and its record is reread
where RELOAD asked for it (R253, R258). -/
def State.freshFront (s : State) (q : Nat) : State :=
  let t := if (s.queue q).st == 1 && (s.queue q).front.isSome then s.activate (s.queue q).ctx else s
  if (t.startable q).isSome then t.freshRecord (t.queue q).ctx else t

/-- The packet at the start point starts: it leaves the packets read, as `e`. -/
def State.startFront (s : State) (q : Nat) (e : Started) : State :=
  (s.modQueue q (fun x => { x with
    fetched := x.fetched.drop 1
    started := x.started ++ [e]
    barAdded := false })).activateFront q

/-- A started packet with nothing in flight and a status. -/
def Packet.done (p : Packet) (status : Nat) : Started := ⟨p, [], [], none, 0, status, 0, 0⟩

/-- STATE of the status mirror (Table 15-11). -/
def State.queueState (s : State) (q : Nat) : Nat :=
  let x := s.queue q
  if (Map.find? s.partOps (s.queueOwner q)).isSome then 6
  else if x.st != 1 then x.st
  else if x.started.any (fun p => !p.toPlace.isEmpty) then 4
  else match x.fetched.head? with
    | some p =>
      if (Map.find? s.ctxs x.ctx).isNone then 4
      else if (p.bar && !x.started.isEmpty) || p.type == 6 || p.type == 8 then 3
      else if p.launches then 4
      else 2
    | none => if x.started.isEmpty && x.head == x.tail then 1 else 2

/-- The two words of a queue's status mirror entry (R265). -/
def State.mirror (s : State) (q : Nat) : Nat × Nat :=
  let x := s.queue q
  (x.tail.toNat * 2 ^ 32 + x.head.toNat, s.queueState q * 2 ^ 60 + x.last * 2 ^ 52 + x.cmpl.toNat)

end Sys2Proof.Machine
end

