-- ==== Sys2Proof/Machine/Sched.lean ====
section
/-! DEFINITION. The scheduler (R36, R252, R254 to R256): placing launches, evicting and restoring contexts, preempting and
resuming launches. -/

namespace Sys2Proof.Machine

/-! ### Cores (R36) -/

/-- Cores of a kind in R36 order. -/
def coresOf (kind : Nat) : List Nat :=
  if kind == 3 then (List.range 96).map (· + 1024)
  else (List.range 768).filter (fun c => c % 8 != 7 && coreKind c == kind)

/-- Free group slots of a core, ascending. -/
def State.freeSlots (s : State) (core : Nat) : List Nat :=
  (List.range (kindSlots (coreKind core))).filter (fun i => (Map.find? s.groups (gkey core i)).isNone)

/-- A core is kept from placement: it did not stop, or a suspect of it awaits its replay (R367, R377). -/
def State.withheld (s : State) (core : Nat) : Bool := s.hung.contains core || s.suspects.any (fun x => x.core == core)

/-- A core may take launches of a partition (R36). -/
def State.candidate (s : State) (p core : Nat) : Bool :=
  s.coreValid core && s.basinReady (coreBasin core) && s.basinOwner (coreBasin core) == p && !s.withheld core

/-- Contexts resident on a core. -/
def State.res (s : State) (core : Nat) : List Resident := Map.getD s.residents core []

/-- The pool range of a context's record, in granules. -/
def ActiveCtx.range (a : ActiveCtx) : Nat × Nat := (fld a.w4.toNat 8 0, fld a.w4.toNat 24 16)

/-- Two granule ranges meet; an empty one meets nothing. -/
def granulesMeet (a b : Nat × Nat) : Bool := decide (0 < a.2 ∧ 0 < b.2 ∧ a.1 < b.1 + b.2 ∧ b.1 < a.1 + a.2)

/-- Residents that keep a context from becoming resident: their ranges meet its own. -/
def State.inTheWay (s : State) (core ctx : Nat) (r : Nat × Nat) : List Resident :=
  (s.res core).filter (fun x => x.ctx != ctx && granulesMeet (x.base, x.len) r)

/-- A context can be resident on a core without an eviction (R252). -/
def State.canReside (s : State) (core ctx : Nat) (r : Nat × Nat) : Bool :=
  (s.res core).any (fun x => x.ctx == ctx) || ((s.res core).length < 8 && (s.inTheWay core ctx r).isEmpty)

/-- A resident context is idle on a core: no group slot, no preempted launch, no window over its pool there (R183, R252). -/
def State.idleOn (s : State) (core ctx : Nat) : Bool :=
  !(s.launches.any (fun kv => kv.2.ctx == ctx && kv.2.core == core)) &&
    !(s.poolWindows.any (fun w => w.core == core && w.ctx == ctx))

/-- A basin runs: it is in no low-power state (R347). -/
def State.awake (s : State) (b : Nat) : Bool := s.rf (.bsnPwrSts b) 1 0 == 0

/-! ### Pool images (R252) -/

/-- Copy 32 B sectors, poison with them; none where a location does not exist. -/
def State.copySectors (s : State) (src dst : Nat → Option (List Loc)) : List Nat → Option State
  | [] => some s
  | i :: rest =>
    match src i, dst i with
    | some a, some b =>
      let (bs, bad) := s.readLocs 0 a
      let t := s.writeLocs 0 b bs
      State.copySectors (if bad then t.poisonLocs b else t) src dst rest
    | _, _ => none

/-- The locations of sector i of a context's SAVE area, through stage 2, which must be Deep with R and W, reachable (R18), and in
no row in repair (R358, R360). -/
def State.saveSector (s : State) (a : ActiveCtx) (i : Nat) : Option (List Loc) :=
  let ipa := fld a.w3.toNat 51 16 * 2 ^ 16 + i * 32
  match s.translate2 a.part ipa 32 false, s.translate2 a.part ipa 32 true with
  | .ok (dpa, _), .ok _ => if spaceOf dpa == 0 then (s.locateN dpa 32).filter (fun ls => !s.unreachable dpa ls && !ls.any s.inRepair) else none
  | _, _ => none

/-- The locations of sector i of the pool range from granule base on. -/
def poolSector (core base i : Nat) : Option (List Loc) := some (poolLocs core (base * 65536 + i * 32) 32)

/-- Sectors of len granules. -/
def sectors (len : Nat) : List Nat := List.range (len * 2048)

/-- The record of a resident context: active, since residency keeps it so. -/
def State.actOf? (s : State) (ctx : Nat) : Option ActiveCtx := Map.find? s.ctxs ctx

/-- The stage-2 walks of a context's SAVE area are held and noted (R236, R359). -/
def State.noteImage (s : State) (a : ActiveCtx) : State :=
  (List.range a.range.2).foldl (fun (t : State) i => t.noteIpa a.part (fld a.w3.toNat 51 16 * 2 ^ 16 + i * 65536) 32 false) s

/-- Evict a resident context from a core: its range there is written to SAVE (R252). None where the save faults. -/
def State.evict (s : State) (core : Nat) (r : Resident) : Option State :=
  match s.actOf? r.ctx with
  | none => none
  | some a =>
    (s.copySectors (poolSector core r.base) (s.saveSector a) (sectors r.len)).map (fun t =>
      { t.noteImage a with
        residents := Map.putD t.residents core [] ((t.res core).filter (fun x => x.ctx != r.ctx))
        evictedFrom := NSet.ins t.evictedFrom (core * 2 ^ 20 + r.ctx) })

/-- A context becomes resident on a core; an image of it is read back from SAVE (R252). None where the restore faults. -/
def State.reside (s : State) (core ctx : Nat) (a : ActiveCtx) : Option State :=
  if (s.res core).any (fun x => x.ctx == ctx) then some s
  else
    let r : Resident := ⟨ctx, a.range.1, a.range.2⟩
    let key := core * 2 ^ 20 + ctx
    let t := if s.evictedFrom.contains key then 
        (s.copySectors (s.saveSector a) (poolSector core a.range.1) (sectors a.range.2)).map (fun t => t.noteImage a)
      else some s
    t.map (fun t => { t with
      residents := Map.put t.residents core (t.res core ++ [r])
      evictedFrom := NSet.del t.evictedFrom key })

/-- Pool bytes that a placement reads back. -/
def State.restoreBytes (s : State) (core ctx : Nat) (a : ActiveCtx) : Nat :=
  if s.evictedFrom.contains (core * 2 ^ 20 + ctx) then a.range.2 * 65536 else 0

/-! ### Starting groups (R55) -/

/-- The state of group g of a launch at its start. -/
def freshGroup (launch core g n threads : Nat) (entry arg : BitVec 48) : Group :=
  let m := if g + 1 == n && threads % 32 != 0 then ones (threads % 32) else 0xFFFFFFFF
  let pm := BitVec.ofNat 32 m
  let lanes := (List.range 32).filter (fun i => pm.getLsbD i && g * 32 + i != 0)
  let sv := [(1, g), (2, n), (3, arg.toNat), (4, core)].filter (fun x => x.2 != 0)
  { launch := launch
    index := g
    v := lanes.map (fun i => (i, BitVec.ofNat 32 (g * 32 + i)))
    s := sv.map (fun x => (x.1, BitVec.ofNat 64 x.2))
    p := []
    t := []
    stack := []
    act := pm
    present := pm
    pc := entry
    vpois := []
    spois := []
    sbusy := []
    stat := .run }

/-- The vector engines of a core as the ranges of their group slots, in the order of ties (R23, R414, Table 04-2): first slot
and number. -/
def engineSlots (core : Nat) : List (Nat × Nat) :=
  if core ≥ 1024 then (List.range 12).map (fun e => (8 * e, 8)) ++ [(96, 16)]
  else match coreKind core with
    | 0 => [(0, 8)]
    | 1 => (List.range 4).map (fun e => (8 * e, 8))
    | _ => [(0, 16)]

/-- The engine with the most free slots, the first on a tie. -/
def mostFree : List (List Nat) → List Nat
  | [] => []
  | e :: es => if (mostFree es).length > e.length then mostFree es else e

/-- The slots of n groups, one group at a time: the lowest free slot of the engine with the most (R414). -/
def pickSlots : Nat → List (List Nat) → List Nat
  | 0, _ => []
  | n + 1, es =>
    match mostFree es with
    | [] => []
    | x :: _ => x :: pickSlots n (es.map (fun e => e.erase x))

/-- The group slots that n new groups of a core take (R414). -/
def State.slotsFor (s : State) (core n : Nat) : List Nat :=
  pickSlots n ((engineSlots core).map (fun e => (s.freeSlots core).filter (fun x => e.1 ≤ x && x < e.1 + e.2)))

/-- The least of some slots. -/
def lowest : List Nat → Nat
  | [] => 0
  | x :: xs => if xs.isEmpty then x else min x (lowest xs)

/-- Groups stand in the slots that R414 gives them. -/
def State.putGroups (s : State) (core : Nat) (gs : List Group) : State :=
  { s with groups := ((s.slotsFor core gs.length).zip gs).foldl (fun m x => Map.put m (gkey core x.1) x.2) s.groups }

/-! ### Items (R254) -/

/-- An item at a start point: a queue's launch or fanout child, or the resume of a preempted launch. -/
inductive Item where
  | queue (q : Nat)
  | resume (launch : Nat)
  deriving DecidableEq, Repr

/-- What a queue has to place: the packet, and the index of the child for a packet that has begun to place. -/
def State.queueItem (s : State) (q : Nat) : Option (Packet × Nat) :=
  let x := s.queue q
  if (Map.find? s.partOps x.owner).isSome || !(x.st == 1) then none
  else match x.started.find? (fun p => !p.toPlace.isEmpty) with
    | some e => some (e.pkt, e.toPlace.headD 0)
    | none =>
      match s.startable q with
      | some p => if p.type == 1 && ((s.pktStop x p).isNone || s.judgedLater x p) then some (p, 0) else none
      | none => none

/-- The core kind, groups and context of an item. -/
def State.itemShape (s : State) : Item → Option (Nat × Nat × Nat)
  | .queue q => (s.queueItem q).map (fun x => (x.1.kind, x.1.groups, (s.queue q).ctx))
  | .resume id => (Map.find? s.launches id).map (fun l => (coreKind l.core, l.saved.length, l.ctx))

/-- An item already has a core that a switch prepares for it. -/
def State.assigned (s : State) (i : Item) : Bool :=
  s.switching.any (fun kv => match i with | .queue q => kv.2.forQueue == some q | .resume id => kv.2.forLaunch == some id)

/-- Cores an item may go to, in R36 order. -/
def State.itemCores (s : State) (i : Item) (kind : Nat) : List Nat :=
  match i with
  | .queue _ => coresOf kind
  | .resume id => (match Map.find? s.launches id with | some l => [l.core] | none => [])

/-- A resumed launch with live sets needs the matrix engine (R120, R121). -/
def State.engineFree (s : State) (i : Item) (core : Nat) : Bool :=
  match i with
  | .queue _ => true
  | .resume id =>
    (match Map.find? s.launches id with | some l => l.live.isEmpty | none => true) || (Map.find? s.mtxHolder core).isNone

/-- Cycles of a switch (R256). -/
def switchTime (vOut vIn aOut aIn e : Nat) : Nat := 400 + ceilDiv (8704 * (vOut + vIn) + 4096 * (aOut + aIn) + e) 256

/-- Charge a switch to the incoming context (R254). -/
def State.chargeSwitch (s : State) (ctx t : Nat) : State :=
  { s with ctxs := Map.modify s.ctxs ctx (fun a => { a with charged := a.charged + t }) }

/-- A launch of a queue's packet is placed on a core: its groups start, its packet counts it. A FRESH one empties the core's
instruction caches first (R57). -/
def State.placeNew (s : State) (core q : Nat) (p : Packet) (child : Nat) : State × Nat :=
  let x := s.queue q
  let (id, s) := s.newId
  let n := p.groups
  let entry := BitVec.ofNat 48 p.addr
  let arg := BitVec.ofNat 48 (p.f 2 47 0 + (if p.type == 3 then child * p.f 7 63 32 else 0))
  let slots := s.slotsFor core n
  let rec_ := s.actOf? x.ctx
  let l : Launch := {
    ctx := x.ctx
    part := x.owner
    queue := q
    seq := p.seq
    core := core
    entry := entry
    arg := arg
    threads := p.threads
    phase := .running
    tag := x.phase
    status := 0
    cycles := 0
    ran := 0
    live := []
    fixed := false
    slot0 := lowest slots
    suspect := false
    replay := false
    saved := []
    savedAcc := []
    saveSlot := 0
    root := match rec_ with | some a => fld a.w0.toNat 51 16 | none => 0
    seed := match rec_ with | some a => a.seed | none => 0
    pasid := match rec_ with | some a => fld a.w2.toNat 51 32 | none => 0 }
  let s := if p.f 0 9 9 == 1 then s.dropIcache (fun c => (icachesOf core).contains c) else s
  let s := { s with
    launches := Map.put s.launches id l
    lastServed := Map.put s.lastServed x.ctx q }
  let s := s.putGroups core ((List.range n).map (fun g => freshGroup id core g n p.threads entry arg))
  let begun := x.started.any (fun e => !e.toPlace.isEmpty)
  let s := if begun then
      s.modQueue q (fun y => { y with started := y.started.map (fun e =>
        if e.toPlace.isEmpty then e
        else { e with
          toPlace := e.toPlace.drop 1
          live := NSet.ins e.live id
          count := e.count + 1 }) })
    else s.startFront q ⟨p, [id], [], none, 1, 0, 0, 0⟩
  (if begun then s.activateFront q else s, id)

/-! ### The preemption save region (R255) -/

/-- Offset of a core's part of a save slot, in KiB (R255). -/
def saveCoreKib (core : Nat) : Nat :=
  if core ≥ 1024 then 0
  else match core % 8 with
    | 0 => 0 | 1 => 96 | 2 => 192 | 3 => 288 | 4 => 384 | 5 => 688 | _ => 992

/-- Basins of a partition below a basin. -/
def State.basinRank (s : State) (p b : Nat) : Nat := ((List.range b).filter (fun x => s.basinOwner x == p)).length

/-- The IPA of a core's part of a slot of a partition's save region (R255). -/
def State.saveBase (s : State) (p core slot : Nat) : Nat :=
  s.rf (.schPsave p) 51 16 * 2 ^ 16 + (2 * s.basinRank p (coreBasin core) + slot) * 1152 * 1024 + saveCoreKib core * 1024

/-- Bytes that a launch's groups and live sets take in the save region (R256). -/
def saveLen (groups sets : Nat) : Nat := 8704 * groups + 4096 * sets

/-- The first fault of n bytes of the save region (R255). -/
def State.saveFault (s : State) (p core slot n : Nat) (write : Bool) : Option XFault :=
  (List.range (n / 65536 + 2)).findSome? (fun i =>
    let ipa := s.saveBase p core slot + min (i * 65536) (n - 1)
    match s.translate2 p ipa 1 write with
    | .error f => some f
    | .ok (dpa, l) =>
      if s.unreachable dpa ((s.locateN dpa 1).getD []) then some ⟨8, 2, l.level, ipa, 0, dpa⟩
      else if !s.repair.isEmpty && (List.range 2048).any (fun i =>
          ((s.locateN (dpa / 65536 * 65536 + i * 32) 1).getD []).any s.inRepair) then some ⟨10, 2, l.level, ipa, 0, dpa⟩ else none)

/-- The save region is set and takes, or gives back, n bytes: its pages translate (R255). -/
def State.saveOk (s : State) (p core slot n : Nat) (write : Bool) : Bool :=
  s.rf (.schPsave p) 0 0 == 1 && (s.saveFault p core slot n write).isNone

/-- The slot of the save region that a core's next preempted launch takes. -/
def State.saveSlotFor (s : State) (core : Nat) : Nat :=
  if s.launches.any (fun kv => kv.2.core == core && kv.2.phase == .preempted && kv.2.saveSlot == 0) then 1 else 0

/-- n bytes without a value the manual gives. -/
def State.freshBytes (s : State) : Nat → List Byte × State
  | 0 => ([], s)
  | n + 1 =>
    let (w, t) := s.fresh
    let (bs, u) := State.freshBytes t n
    (w.setWidth 8 :: bs, u)

/-- The numbers below n that free values choose. -/
def State.freshSet (s : State) : Nat → NSet × State
  | 0 => ([], s)
  | n + 1 =>
    let (xs, t) := State.freshSet s n
    let (w, u) := t.fresh
    (if w.getLsbD 0 then xs ++ [n] else xs, u)

/-- Sectors of the save region are written: their format is the device's own, so each byte is a free value (R255). -/
def State.writeSave (s : State) (p base : Nat) : List Nat → State
  | [] => s
  | i :: rest =>
    let t := match s.translate2 p (base + i * 32) 32 true with
      | .ok (dpa, _) =>
        match s.locateN dpa 32 with
        | some ls =>
          let (bs, u) := s.freshBytes 32
          (u.noteIpa p (base + i * 32) 32 true).writeLocs 0 ls bs
        | none => s
      | .error _ => s
    State.writeSave t p base rest

/-- The saved groups of a launch, by the slot each held, in ascending group index. -/
def Launch.savedByIndex (l : Launch) : List (Nat × Group) :=
  (List.range 112).filterMap (fun i => List.find? (fun kv => kv.2.index == i) l.saved)

/-- A part of the save region holds poison. -/
def State.savePoisoned (s : State) (p base n : Nat) : Bool :=
  (List.range (n / 32)).any (fun i =>
    match s.translate2 p (base + i * 32) 32 false with
    | .ok (dpa, _) => (s.readLocs 0 ((s.locateN dpa 32).getD [])).2
    | .error _ => false)

/-- Groups that a poisoned part of the save region gives back: free values choose the register lanes that the poison covers, since
the region's format is the device's own (R255, R351, log entry 54). -/
def State.poisonSaved (s : State) : List Group → List Group × State
  | [] => ([], s)
  | g :: gs =>
    let (vs, t) := s.freshSet 2048
    let (ss, t) := t.freshSet 64
    let (rest, u) := State.poisonSaved t gs
    ({ g with
      vpois := vs.foldl NSet.ins g.vpois
      spois := ss.foldl NSet.ins g.spois } :: rest, u)

/-- The groups of a preempted launch as the save region gives them back. -/
def State.savedGroups (s : State) (l : Launch) : List Group × State :=
  let gs := l.savedByIndex.map Prod.snd
  if s.savePoisoned l.part (s.saveBase l.part l.core l.saveSlot) (saveLen l.saved.length l.live.length) then s.poisonSaved gs
  else (gs, s)

/-- A preempted launch resumes on its core: its groups, in slots as for new ones (log entry 107), its live sets, its held DMA
commands. With live sets it takes the matrix engine, and the sets that another context wrote become +0 (R120, R121, R177,
R255). -/
def State.placeResume (s : State) (id : Nat) : State :=
  match Map.find? s.launches id with
  | none => s
  | some l =>
    let (gs, s) := s.savedGroups l
    let slots := (s.slotsFor l.core gs.length).zip (l.savedByIndex.map Prod.fst)
    let newSlot := fun (old : Nat) => match slots.find? (fun x => x.2 == old) with | some x => x.1 | none => old
    let s := s.putGroups l.core gs
    let s := if l.live.isEmpty then s else s.takeEngine l.core id l.ctx
    { s with
      launches := Map.put s.launches id { l with
        phase := .running
        saved := []
        savedAcc := []
        ran := 0 }
      acc := l.savedAcc.foldl (fun m x => Map.putD m x.1 0 x.2) (Map.keep s.acc (fun k => !l.live.contains (k / 1024)))
      accCtx := l.live.foldl (fun m x => Map.put m x l.ctx) s.accCtx
      dma := s.dma.map (fun c => if c.org.of id then { c with
        held := false
        org := { c.org with slot := newSlot c.org.slot } } else c) }

/-- Put an item onto a core whose slots are free: the state and the launch. -/
def State.putItem (s : State) (core : Nat) (i : Item) : State × Option Nat :=
  match i with
  | .resume id => (s.placeResume id, some id)
  | .queue q =>
    match s.queueItem q with
    | none => (s, none)
    | some (p, child) =>
      let (t, id) := s.placeNew core q p child
      (t, some id)

/-- The launch of an item cannot be placed: it completes with a status (R251, R256). Of a fanout this is the one child
(R145), which takes a number so that the lowest child that failed decides (R146). -/
def State.failItem (s : State) (i : Item) (st : Nat) : State :=
  match i with
  | .resume id => s.failLaunch id st
  | .queue q =>
    match s.queueItem q with
    | none => s
    | some (p, _) =>
      if (s.queue q).started.any (fun e => !e.toPlace.isEmpty) then
        let (id, s) := s.newId
        (s.modQueue q (fun y => { y with started := y.started.map (fun e =>
          if e.toPlace.isEmpty then e
          else { e with
            toPlace := e.toPlace.drop 1
            failId := some (e.failId.getD id)
            status := if e.failId.isNone then st else e.status }) })).activateFront q
      else s.startFront q (p.done st)

/-- What a resumed launch is read back from can be read: its part of the save region (R255); a new launch has none. -/
def State.resumeOk (s : State) (i : Item) : Bool :=
  match i with
  | .queue _ => true
  | .resume id =>
    match Map.find? s.launches id with
    | none => true
    | some l => s.saveOk l.part l.core l.saveSlot (saveLen l.saved.length l.live.length) false

/-- The first fault of a context's SAVE area (R252). -/
def State.imageFault (s : State) (a : ActiveCtx) : Option XFault :=
  (sectors a.range.2).findSome? (fun i =>
    let ipa := fld a.w3.toNat 51 16 * 2 ^ 16 + i * 32
    match s.translate2 a.part ipa 32 false, s.translate2 a.part ipa 32 true with
    | .error f, _ => some f
    | _, .error f => some f
    | .ok (dpa, l), _ =>
      if spaceOf dpa != 0 then some ⟨4, 2, l.level, ipa, l.e, l.eaddr⟩
      else if s.unreachable dpa ((s.locateN dpa 32).getD []) then some ⟨8, 2, l.level, ipa, 0, dpa⟩
      else if ((s.locateN dpa 32).getD []).any s.inRepair then some ⟨10, 2, l.level, ipa, 0, dpa⟩ else none)

/-- A save or restore of a placement faulted: the record of the fault (R246), and the item's launch completes with status
0x04 (R256). At a row in repair it stalls: the item is placed later (R358, R360). -/
def State.placeFault (s : State) (core ctx : Nat) (a : ActiveCtx) (i : Item) (out : List Resident) : State :=
  let images := out.filterMap (fun r => (s.actOf? r.ctx).map (fun x => (r.ctx, x))) ++
    (if s.restoreBytes core ctx a == 0 then [] else [(ctx, a)])
  let taken := fun (p c : Nat) (f : XFault) (write : Bool) =>
    if f.code == 10 then s else (s.weirFault p (some c) f write).failItem i 4
  match images.findSome? (fun x => (s.imageFault x.2).map (fun f => (x, f))) with
  | some (x, f) => taken x.2.part x.1 f true
  | none =>
    match i with
    | .queue _ => s.failItem i 4
    | .resume id =>
      match Map.find? s.launches id with
      | none => s
      | some l =>
        match s.saveFault l.part l.core l.saveSlot (saveLen l.saved.length l.live.length) false with
        | some f => taken l.part l.ctx f false
        | none => s.failItem i 4

/-- Contexts are evicted from a core one after another. -/
def State.evictAll (s : State) (core : Nat) (out : List Resident) : Option State :=
  out.foldl (fun (t : Option State) r => t.bind (fun t => t.evict core r)) (some s)

/-- Groups and live sets that an item reads back: those of a resumed launch (R256). -/
def State.resumed (s : State) (i : Item) : Nat × Nat :=
  match i with
  | .queue _ => (0, 0)
  | .resume id => match Map.find? s.launches id with | some l => (l.saved.length, l.live.length) | none => (0, 0)

/-- The term E of a switch: bytes written by evictions and read back for the incoming context (R256). -/
def State.moved (s : State) (core ctx : Nat) (a : ActiveCtx) (out : List Resident) : Nat :=
  (out.map (fun r => r.len * 65536)).sum + s.restoreBytes core ctx a

/-- Place an item on a core, after evicting the given contexts: a switch if any is evicted, or an image read back (R256, R347). -/
def State.placeOn (s : State) (core ctx : Nat) (i : Item) (out : List Resident) : State :=
  match s.actOf? ctx with
  | none => s
  | some a =>
    match ((s.evictAll core out).bind (fun t => t.reside core ctx a)).filter (fun t => t.resumeOk i) with
    | none => s.placeFault core ctx a i out
    | some t =>
      let live := t.resumed i
      let (t, id) := t.putItem core i
      let t := out.foldl (fun (t : State) r => t.settleCtx r.ctx) t
      if out.isEmpty && s.restoreBytes core ctx a == 0 then t
      else ({ t with switching := Map.put t.switching core ⟨none, none, none, id⟩ }).chargeSwitch ctx
        (switchTime 0 live.1 0 live.2 (s.moved core ctx a out))

/-- A launch may be preempted (R254). -/
def State.preemptible (s : State) (p : Nat) (id : Nat) (l : Launch) : Bool :=
  let q := s.adoptedVal 24 (.schQuantum p)
  let quantum := if 1 ≤ q && q ≤ 9 then 10 else q
  l.phase == .running && quantum != 0 && l.ran ≥ quantum * 100 && (Map.find? s.switching l.core).isNone && !l.replay &&
    (s.launches.filter (fun kv => kv.2.core == l.core && kv.2.phase == .preempted)).length < 2 &&
    s.groups.any (fun kv => kv.2.launch == id) && s.candidate p l.core

/-- The launch that an item preempts: of the context with the greatest virtual time, if it exceeds the item's (R254). -/
def State.victim (s : State) (p vt : Nat) (cores : List Nat) : Option (Nat × Launch) :=
  (s.launches.filter (fun kv => kv.2.part == p && cores.contains kv.2.core && s.preemptible p kv.1 kv.2)).foldl (fun b kv =>
    let v := match s.actOf? kv.2.ctx with | some a => a.vt | none => 0
    if v ≤ vt then b
    else match b with
      | none => some kv
      | some o =>
        let w := match s.actOf? o.2.ctx with | some a => a.vt | none => 0
        if v > w || (v == w && kv.2.core ≥ o.2.core) then some kv else b) none

/-- The idle residents that leave a core so that a context can be resident there (R252, R254): none of them where it can be as it
is; none at all where one that must leave is not idle. -/
def State.evictions (s : State) (core ctx : Nat) (r : Nat × Nat) : Option (List Resident) :=
  if s.canReside core ctx r then some []
  else
    let w := s.inTheWay core ctx r
    let out := if w.isEmpty then ((s.res core).filter (fun x => s.idleOn core x.ctx)).take 1 else w
    if out.isEmpty || !(out.all (fun x => s.idleOn core x.ctx)) || (s.res core).length - out.length ≥ 8 then none else some out

/-- A core has room for an item once a victim's groups leave (R254, R256). -/
def State.roomAfter (s : State) (l : Launch) (id n ctx : Nat) (r : Nat × Nat) : Bool :=
  (s.freeSlots l.core).length + (s.groups.filter (fun kv => kv.2.launch == id)).length ≥ n &&
    (s.evictions l.core ctx r).isSome

/-- An item about to be placed: its context's record is reread where RELOAD asked for it, and what stops its launch (R251,
R258). -/
def State.itemStop (s : State) (i : Item) (kind ctx : Nat) : State × Option Nat :=
  match i with
  | .resume _ => (s, none)
  | .queue _ =>
    let t := s.freshRecord ctx
    (t, match t.ctxStop ctx with | some st => some st | none => if t.rangeTooBig ctx kind then some 5 else none)

/-- An item can go to a core that stands as it is: its context can be resident there, and no image has to be read back while another
switch is in progress (R254, R256, log entry 108). -/
def State.fits (s : State) (core ctx : Nat) (a : ActiveCtx) : Bool :=
  s.canReside core ctx a.range && (s.restoreBytes core ctx a == 0 || (Map.find? s.switching core).isNone)

/-- Place one item, evict for it, or preempt for it (R254). A core makes one switch at a time: an eviction or a preemption
waits while another is in progress there (log entry 108). -/
def State.scheduleItem (s : State) (p : Nat) (i : Item) : State :=
  match s.itemShape i with
  | none => s
  | some (kind, n, ctx) =>
    if s.assigned i then s
    else
      let (s, stop) := s.itemStop i kind ctx
      match s.actOf? ctx, stop with
      | none, _ => s
      | some _, some st => s.failItem i st
      | some a, none =>
        let cores := (s.itemCores i kind).filter (fun c => s.candidate p c && s.engineFree i c && (s.freeSlots c).length ≥ n)
        match cores.find? (fun c => s.fits c ctx a) with
        | some c => if s.awake (coreBasin c) then s.placeOn c ctx i [] else s
        | none =>
          match cores.find? (fun c => (Map.find? s.switching c).isNone && (s.evictions c ctx a.range).isSome) with
          | some c => if s.awake (coreBasin c) then s.placeOn c ctx i ((s.evictions c ctx a.range).getD []) else s
          | none =>
            match s.victim p a.vt (s.itemCores i kind) with
            | none => s
            | some (id, l) =>
              if !s.roomAfter l id n ctx a.range then s
              else { s with
                launches := Map.put s.launches id { l with phase := .preempting }
                switching := Map.put s.switching l.core ⟨some id, match i with | .queue q => some q | .resume _ => none,
                  match i with | .queue _ => none | .resume x => some x, none⟩ }

/-- The order of items: virtual time of the context, context, resumes first, then queues round robin after the last served
(R254). -/
def State.itemKey (s : State) (i : Item) : Nat :=
  match s.itemShape i with
  | none => 0
  | some (_, _, ctx) =>
    let vt := match s.actOf? ctx with | some a => a.vt | none => 0
    let k := match i with
      | .resume id => id % 2 ^ 30
      | .queue q => 2 ^ 30 + (q + 2 ^ 18 - Map.getD s.lastServed ctx 0 - 1) % 2 ^ 18
    (vt * 2 ^ 20 + ctx) * 2 ^ 32 + k

/-- Insert by key. -/
def insertBy (key : Item → Nat) (i : Item) : List Item → List Item
  | [] => [i]
  | x :: xs => if key i < key x then i :: x :: xs else x :: insertBy key i xs

/-- Every item at a start point of a partition, in the scheduler's order. -/
def State.items (s : State) (p : Nat) : List Item :=
  let rs := (s.launches.filter (fun kv => kv.2.part == p && kv.2.phase == .preempted)).map (fun kv => Item.resume kv.1)
  let qs := (s.queues.filter (fun kv => kv.2.owner == p && (s.queueItem kv.1).isSome)).map (fun kv => Item.queue kv.1)
  (rs ++ qs).foldl (fun l i => insertBy s.itemKey i l) []

/-- schedule(p) of R254. -/
def State.schedulePart (s : State) (p : Nat) : State :=
  let s := s.charge
  (s.items p).foldl (fun t i => t.scheduleItem p i) s

/-- SCHEDULE (R254). -/
def execSchedule (p : Nat) (s : State) : Res := .next (s.schedulePart p)

/-- SCHEDULER_TICK: every 1 µs; staged quanta are adopted (Table 15-1), contexts are charged, every partition scheduled. -/
def execSchedulerTick (s : State) : Res :=
  .next ((List.range 96 ++ [127]).foldl State.schedulePart (s.adoptUnit 24).charge)

/-! ### Preemption (R255, R256) -/

/-- The groups and live sets of a launch are saved and the matrix engine released (R255 item 6). -/
def State.savePreempted (s : State) (id : Nat) (l : Launch) : State :=
  let gs := s.groups.filter (fun kv => kv.2.launch == id)
  let slot := s.saveSlotFor l.core
  let s := s.writeSave l.part (s.saveBase l.part l.core slot) (List.range (saveLen gs.length l.live.length / 32))
  { s with
    launches := Map.put s.launches id { l with
      phase := .preempted
      saveSlot := slot
      saved := gs.map (fun kv => (kv.1 % 128, kv.2))
      savedAcc := Map.keep s.acc (fun k => l.live.contains (k / 1024)) }
    groups := Map.keepV s.groups (fun _ g => g.launch != id)
    mtxHolder := Map.keepV s.mtxHolder (fun _ h => h != id)
    dma := s.dma.map (fun c => if c.org.of id then { c with held := true, looked := [], asked := [] } else c) }

/-- PREEMPTION_POINT: the launch's commands have drained; its state is saved and the item takes its place (R255). -/
def execPreemptionPoint (id : Nat) (s : State) : Res :=
  match Map.find? s.launches id with
  | none => s.idle "no such launch"
  | some l =>
    match Map.find? s.switching l.core with
    | none => s.idle "the launch is not being preempted"
    | some w =>
      if l.phase != .preempting || w.victim != some id || s.mtx.any (fun c => c.org.of id) || s.routes.any (fun c => c.org.of id) ||
          s.rmo.any (fun c => c.org.of id) ||
          s.groups.any (fun kv => kv.2.launch == id && (match kv.2.stat with | .walk _ _ _ _ _ _ _ => true | _ => false)) then
        s.idle "commands of the launch have not drained"
      else
        let n := (s.groups.filter (fun kv => kv.2.launch == id)).length
        let len := saveLen n l.live.length
        let item : Option Item := match w.forQueue, w.forLaunch with
          | some q, _ => some (.queue q)
          | none, some x => some (.resume x)
          | none, none => none
        let s0 := s
        let s := { s with switching := Map.drop s.switching l.core }.charge
        let slot := s.saveSlotFor l.core
        if !s.saveOk l.part l.core slot len true then
          match s.saveFault l.part l.core slot len true with
          | some f => if f.code == 10 then s0.idle "the save region's row is in repair"
            else .next ((s.weirFault l.part (some l.ctx) f true).failLaunch id 4)
          | none => .next (s.failLaunch id 4)
        else
          let t := (s.savePreempted id l).writeBack l.ctx
          match item with
          | none => .next t
          | some i =>
            match t.itemShape i with
            | none => .next t
            | some (kind, m, ctx) =>
              let (t, stop) := t.itemStop i kind ctx
              match t.actOf? ctx, stop with
              | none, _ => .next t
              | some _, some st => .next (t.failItem i st)
              | some a, none =>
                if !(t.engineFree i l.core && (t.freeSlots l.core).length ≥ m) then .next t
                else match t.evictions l.core ctx a.range with
                  | none => .next t
                  | some out =>
                    match ((t.evictAll l.core out).bind (fun t => t.reside l.core ctx a)).filter (fun t => t.resumeOk i) with
                    | none => .next (t.placeFault l.core ctx a i out)
                    | some u =>
                      let inL := t.resumed i
                      let (u, new) := u.putItem l.core i
                      let u := out.foldl (fun (u : State) r => u.settleCtx r.ctx) u
                      .next (({ u with switching := Map.put u.switching l.core ⟨none, none, none, new⟩ }).chargeSwitch ctx
                        (switchTime n inL.1 l.live.length inL.2 (t.moved l.core ctx a out)))

/-- SWITCH_COMPLETE: the incoming groups may issue (R256). -/
def execSwitchComplete (core : CoreRef) (s : State) : Res :=
  match Map.find? s.switching core.toNat with
  | none => s.idle "no switch is in progress on the core"
  | some w =>
    if w.victim.isSome then s.idle "the preemption point is not reached"
    else .next { s with switching := Map.drop s.switching core.toNat }

end Sys2Proof.Machine
end

