-- ==== Sys2Proof/Machine/Packets.lean ====
section
/-! DEFINITION. Packets that the queue manager runs itself (R144 to R146, R262, R263) and the completion of every packet
(R264). -/

namespace Sys2Proof.Machine

/-! ### The queue manager's accesses -/

/-- What an access of the queue manager gives: a row in repair to wait for, its bytes' places, or the status the packet
takes. -/
inductive QAcc where
  | wait
  | ok (s : State) (locs : List Loc) (dpas : List Nat)
  | fail (s : State) (status : Nat)

/-- Find n bytes of Shared at an address of a queue's context (R144, R260, R262). -/
def State.queAccess (s : State) (x : Queue) (va n : Nat) (need : Need) : QAcc :=
  match s.ctxAccess 15 x.ctx va n need with
  | .error f => if f.code == 10 then .wait else .fail (s.queFault x va need f) (queStatus f)
  | .ok (t, dpa, ls) =>
    if spaceOf dpa != 1 || t.unreachable dpa ls then .fail t 4
    else if ls.any t.inRepair then .wait
    else .ok t ls ((List.range n).map (dpa + ·))

/-- Read a 64-bit word of Shared at .dev scope, at its home: its value, or the status; none while the home is busy (R225). -/
def State.queRead (s : State) (x : Queue) (va : Nat) : Option (State × Except Nat Nat) :=
  match s.queAccess x va 8 needR with
  | .wait => none
  | .fail t st => some (t, .error st)
  | .ok t ls dpas =>
    (t.homeRead dpas).map (fun (t : State) =>
      let (bs, bad) := t.readLocs 0 ls
      if bad then (t.quePoison x.owner x.ctx, .error 8) else (t, .ok (ofLe bs)))

/-- Change bytes of Shared at .dev scope, at their homes: none while a line is in flight. -/
def State.queUpdate (s : State) (x : Queue) (va n : Nat) (need : Need) (f : List Byte → List Byte) :
    Option (State × Option Nat) :=
  match s.queAccess x va n need with
  | .wait => none
  | .fail t st => some (t, some st)
  | .ok t ls dpas =>
    match t.homeWrite dpas with
      | none => none
      | some t =>
        let (bs, bad) := t.readLocs 0 ls
        if bad && need.a then some (t.quePoison x.owner x.ctx, some 8)
        else some (t.writeLocs 0 ls (f bs), none)

/-- Add to a 64-bit word. -/
def addWord (v : Nat) (bs : List Byte) : List Byte := leBytes ((ofLe bs + v) % 2 ^ 64) 8

/-- The packet of a type at the start point of a queue, with nothing that stops it. -/
def State.frontOf (s : State) (q t : Nat) : Option Packet :=
  match s.startable q with
  | some p => if p.bad.isNone && p.type == t && (s.pktStop (s.queue q) p).isNone then some p else none
  | none => none

/-! ### Conditional launches (R144, R145) -/

/-- COND_LAUNCH: COUNTER is read once; 0 skips the packet, any other value makes it a launch (R144). -/
def execCondLaunch (q : Nat) (s : State) : Res :=
  let s := s.freshFront q
  match s.frontOf q 2 with
  | none => s.idle "no conditional launch is at the start point"
  | some p =>
    match s.queRead (s.queue q) (p.f 6 47 0) with
    | none => s.idle "the line of the counter is in flight"
    | some (t, .error st) => .next (t.startFront q (p.done st))
    | some (t, .ok v) =>
      .next (if v == 0 then t.startFront q (p.done 1) else t.startFront q { p.done 0 with toPlace := [0] })

/-- The experts of a fanout that have rows: indexes from FIRST on, or the status of a read that fails. -/
def State.fanoutRows (s : State) (x : Queue) (p : Packet) : List Nat → Option (State × Except Nat (List Nat))
  | [] => some (s, .ok [])
  | i :: rest =>
    match s.queRead x (p.f 6 47 0 + 32 * (p.f 7 9 0 + i)) with
    | none => none
    | some (t, .error st) => some (t, .error st)
    | some (t, .ok v) =>
      match State.fanoutRows t x p rest with
      | none => none
      | some (u, .error st) => some (u, .error st)
      | some (u, .ok l) => some (u, .ok (if v == 0 then l else i :: l))

/-- FANOUT: one child launch for each expert with rows; none at all skips the packet (R145). -/
def execFanout (q : Nat) (s : State) : Res :=
  let s := s.freshFront q
  match s.frontOf q 3 with
  | none => s.idle "no fanout is at the start point"
  | some p =>
    match s.fanoutRows (s.queue q) p (List.range (p.f 7 25 16 + 1)) with
    | none => s.idle "a line of the table is in flight"
    | some (t, .error st) => .next (t.startFront q (p.done st))
    | some (t, .ok []) => .next (t.startFront q (p.done 1))
    | some (t, .ok l) => .next (t.startFront q { p.done 0 with toPlace := l })

/-! ### DMA packets (R263) -/

/-- A core whose channel-0 DMA queue has room, and that no replay withholds (R377). -/
def State.dmaRoom (s : State) (core : Nat) : Bool := !s.withheld core && (s.engineCmds core 0).length < 16

/-- The core that runs a DMA packet: the one it names, or the first of the partition in R36 order with room. -/
def State.dmaCore (s : State) (owner core : Nat) : Option Nat :=
  if core == 0x7FF then
    ((List.range 768).filter (fun c => c % 8 != 7) ++ coresOf 3).find? (fun c =>
      s.coreValid c && s.basinOwner (coreBasin c) == owner && s.dmaRoom c && s.basinReady (coreBasin c))
  else if s.dmaRoom core then some core else none

/-- DMA_PACKET: a DMA engine accepts the packet's command (R263). -/
def execDmaPacket (q : Nat) (s : State) : Res :=
  let s := s.freshFront q
  match s.frontOf q 4 with
  | none => s.idle "no DMA packet is at the start point"
  | some p =>
    let x := s.queue q
    match s.dmaCore x.owner (p.f 2 10 0) with
    | none => s.idle "no DMA queue has room"
    | some core =>
      if !s.awake (coreBasin core) then s.idle "the basin of the DMA engine sleeps"
      else
      let (id, s) := s.newId
      let org : Origin := ⟨none, x.ctx, x.owner, core, 0, 0, 0, 0, 0, q, p.seq⟩
      let c : DmaCmd := ⟨id, org, true, 0, p.f 2 18 16, none, true, p.addr, none, 0, [], [], 0, none, none, false, none, none,
        none, none, [], []⟩
      .next ({ s with dma := s.dma ++ [c] }.startFront q { p.done 0 with live := [id] })

/-! ### SIGNAL, WAIT, PHASE, BARRIER (R262) -/

/-- SIGNAL: once every earlier packet has completed, OP is performed at ADDR. -/
def execSignalPacket (q : Nat) (s : State) : Res :=
  match s.frontOf q 5 with
  | none => s.idle "no signal is at the start point"
  | some p =>
    let x := s.queue q
    if !x.started.isEmpty then s.idle "an earlier packet has not completed"
    else
      let v := (p.words.getD 2 0).toNat
      let add := p.f 0 17 16 == 0
      match s.queUpdate x p.addr 8 (if add then needWA else needW) (if add then addWord v else fun _ => leBytes v 8) with
      | none => s.idle "a line of the word is in flight"
      | some (t, st) => .next (t.startFront q (p.done (st.getD 0)))

/-- WAIT: its word is read again; it starts when the word meets CC against VALUE. -/
def execWaitPacket (q : Nat) (s : State) : Res :=
  match s.frontOf q 6 with
  | none => s.idle "no wait is at the start point"
  | some p =>
    match s.queRead (s.queue q) p.addr with
    | none => s.idle "the line of the word is in flight"
    | some (t, .error st) => .next (t.startFront q (p.done st))
    | some (t, .ok v) =>
      if condInt 64 (p.f 6 3 0) v (p.words.getD 2 0).toNat then .next (t.startFront q (p.done 0)) else .next t

/-- WAIT_TIMEOUT: a WAIT completes with status 0x06. -/
def execWaitTimeout (q : Nat) (s : State) : Res :=
  match s.frontOf q 6 with
  | none => s.idle "no wait is at the start point"
  | some p => if p.f 6 63 32 == 0 then s.idle "the wait has no timeout" else .next (s.startFront q (p.done 6))

/-- PHASE: later launches of the queue carry the tag. -/
def execPhasePacket (q : Nat) (s : State) : Res :=
  match s.frontOf q 7 with
  | none => s.idle "no phase packet is at the start point"
  | some p => .next ((s.modQueue q (fun x => { x with phase := p.f 1 5 0 })).startFront q (p.done 0))

/-- BARRIER: once every earlier packet has completed, 1 is added once; it starts when the word has reached TARGET. -/
def execBarrierPacket (q : Nat) (s : State) : Res :=
  match s.frontOf q 8 with
  | none => s.idle "no barrier is at the start point"
  | some p =>
    let x := s.queue q
    if !x.started.isEmpty then s.idle "an earlier packet has not completed"
    else
      let added := if x.barAdded then some (s, none) else s.queUpdate x p.addr 8 needWA (addWord 1)
      match added with
      | none => s.idle "a line of the word is in flight"
      | some (t, some st) => .next (t.startFront q (p.done st))
      | some (t, none) =>
        let t := t.modQueue q (fun y => { y with barAdded := true })
        match t.queRead x p.addr with
        | none => .next t
        | some (t, .error st) => .next (t.startFront q (p.done st))
        | some (t, .ok v) => .next (if v ≥ (p.words.getD 2 0).toNat then t.startFront q (p.done 0) else t)

/-! ### Completion (R264) -/

/-- DETAIL of a completion record (Table 15-9). -/
def Started.shownDetail (e : Started) : Nat :=
  if e.pkt.bad.isSome then 0
  else if e.pkt.launches then (if e.status == 1 then 0 else e.count)
  else if e.pkt.type == 4 then e.detail else 0

/-- The completion record. -/
def completionRecord (e : Started) : List Byte :=
  leBytes (2 ^ 63 + e.status * 2 ^ 48 + e.shownDetail % 2 ^ 16 * 2 ^ 32 + e.pkt.seq) 8 ++ leBytes e.cycles 8

/-- The record, then the signal on status 0x00 or 0x01; a fault of either gives status 0x04, but a packet that an invalid context
already ended keeps its 0x05 (R251, R264). None while a line is in flight. -/
def State.writeCompletion (s : State) (x : Queue) (e : Started) : Option (State × Nat) :=
  let crec := if e.pkt.f 5 63 48 == 0 && e.pkt.crec % 16 == 0 then e.pkt.crec else 0
  let rec_ := if crec == 0 then some (s, none) else s.queUpdate x crec 16 needW (fun _ => completionRecord e)
  match rec_ with
  | none => none
  | some (t, some st) => some (t, if st == 5 && e.status == 5 then 5 else 4)
  | some (t, none) =>
    if e.status > 1 || e.pkt.sig == 0 then some (t, e.status)
    else match t.queUpdate x e.pkt.sig 8 needWA (addWord (e.pkt.words.getD 4 0).toNat) with
      | none => none
      | some (t, some _) => some (t, 4)
      | some (t, none) => some (t, e.status)

/-- The interrupt of a queue that stops on error (Table 18-3). -/
def State.queueInterrupt (s : State) (q : Nat) (x : Queue) : State :=
  if x.owner < 96 then s.fire (x.owner + 1) (2 + (q - s.qbase x.owner) % 30) else s.fire 0 (4 + q % 60)

/-- A packet leaves its queue: CMPL advances, and a status other than 0x00 and 0x01 stops the queue (R264). The packet that met
a poisoned context record was the last to complete with 0x08 for it (R353). -/
def State.retire (s : State) (q : Nat) (e : Started) (status : Nat) : State :=
  let s := s.modQueue q (fun x => { x with
    started := x.started.filter (fun y => y.pkt.seq != e.pkt.seq)
    cmpl := x.cmpl + 1
    last := if status > 1 then status else x.last
    st := if status > 1 && x.st == 1 then 5 else x.st })
  let x := s.queue q
  let s := if status > 1 then s.queueInterrupt q x else s
  let s := if status == 8 then { s with ctxs := Map.modify s.ctxs x.ctx (fun a => { a with poison := false }) } else s
  (s.charge.writeBack x.ctx).settleCtx x.ctx

/-- PACKET_COMPLETE: a packet whose work has ended, or one that cannot start at all, completes (R264). -/
def execPacketComplete (q seq : Nat) (s : State) : Res :=
  let s := s.freshFront q
  let x := s.queue q
  let go := fun (s : State) (e : Started) =>
    match s.writeCompletion (s.queue q) e with
    | none => s.idle "a line of the record or signal is in flight"
    | some (t, st) => Host.Outcome.next (t.retire q e st)
  match x.started.find? (fun e => e.pkt.seq == seq) with
  | some e =>
    if e.live.isEmpty && e.toPlace.isEmpty then go s e else s.idle "the packet's work has not ended"
  | none =>
    match s.startable q with
    | some p =>
      match s.pktStop x p with
      | some st =>
        if p.seq == seq then go (s.startFront q (p.done st)) (p.done st)
        else s.idle "no such packet is at the start point"
      | none => s.idle "the packet has not started"
    | none => s.idle "no such packet"

end Sys2Proof.Machine
end

