-- ==== Sys2Proof/Machine/Basins.lean ====
section
/-! DEFINITION. Basins: their low-power states (R345 to R347), what keeps a basin busy (Table 02-4), and the change of the
Shared carve-out (R45). -/

namespace Sys2Proof.Machine

/-! ### What a basin holds -/

/-- The cores of a basin in both modes. -/
def basinCores (b : Nat) : List Nat := (List.range 7).map (b * 8 + ·) ++ [1024 + b]

/-- A command of the basin's cores is in flight or suspended: matrix, DMA, ROUTE or RMO. -/
def State.basinCmds (s : State) (b : Nat) : Bool :=
  s.mtx.any (fun c => coreBasin c.org.core == b) || s.dma.any (fun c => coreBasin c.org.core == b) ||
    s.routes.any (fun c => coreBasin c.org.core == b) || s.rmo.any (fun c => coreBasin c.org.core == b)

/-- An exported window covers a pool of the basin (R183). -/
def State.basinWindow (s : State) (b : Nat) : Bool :=
  s.poolWindows.any (fun w => coreBasin w.core == b)

/-- A context is resident on a core of the basin. -/
def State.basinResident (s : State) (b : Nat) : Bool :=
  (basinCores b).any (fun c => !(s.res c).isEmpty)

/-- A window of an instance lies over a pool of the basin. -/
def State.winInto (s : State) (p b w : Nat) : Bool :=
  match s.window? p w with
  | some x => x.space == 2 && coreBasin x.core == b
  | none => false

/-- An opcode of Table 17-7 asks for an operation on the window that its message names. -/
def asksTarget (opc : Nat) : Bool := [0x01, 0x02, 0x04, 0x06, 0x07, 0x08, 0x09, 0x0A].contains opc

/-- An RMO targets a pool of the basin: one to this device, by its window or its signal window, or one of another node whose
message waits here. -/
def State.rmoInto (s : State) (b : Nat) : Bool :=
  s.rmo.any (fun c => c.own && (s.winInto c.org.part b c.win || (c.fn == 4 && s.winInto c.org.part b c.swin))) ||
    s.sessions.any (fun kv => kv.2.heldMsgs.any (fun h => asksTarget h.2.opc && s.winInto kv.2.part b h.2.win))

/-- BUSY_WHY of a basin: the conditions of Table 02-4 that do not hold, as bits 3:0 of the field. -/
def State.basinBusy (s : State) (b : Nat) : Nat :=
  b2n (s.basinResident b) * 8 +
    b2n (s.dma.any (fun c => coreBasin c.org.core == b) || s.rmo.any (fun c => coreBasin c.org.core == b) || s.rmoInto b) * 4 +
    b2n (s.basinWindow b) * 2 + b2n (Map.find? s.modeChg b).isSome

/-- The caches of a basin are written back and invalidated, its instruction caches with them (R31, Table 20-4, Table 22-4). -/
def State.emptyCaches (s : State) (b : Nat) : State := (s.flushBasin b).dropIcache (fun c => c / 7 == b)

/-- Zero the seven pools of a basin (R31). -/
def State.zeroPools (s : State) (b : Nat) : State := (List.range 7).foldl (fun t i => t.zeroPool (b * 8 + i)) s

/-! ### Low-power states (R345 to R347) -/

/-- STATE of BSN_PWR_STS (Table 20-12). -/
def State.sleep (s : State) (b : Nat) : Nat := s.rf (.bsnPwrSts b) 1 0

/-- A wake begins; an awake basin stays as it is. -/
def State.wake (s : State) (b : Nat) : State := if s.sleep b == 0 then s else s.setRf (.bsnPwrSts b) 2 2 1

/-- A basin is awake and no wake is in progress. -/
def State.wakeEnd (s : State) (b : Nat) : State := (s.setRf (.bsnPwrSts b) 1 0 0).setRf (.bsnPwrSts b) 2 2 0

/-- The basin is idle (R345). -/
def State.basinIdle (s : State) (b : Nat) : Bool :=
  !s.groups.any (fun kv => coreBasin (kv.1 / 128) == b) &&
    !s.launches.any (fun kv => kv.2.phase == .preempted && coreBasin kv.2.core == b) &&
    !s.basinCmds b && (Map.find? s.modeChg b).isNone

/-- The lesser of two times, where none is no finite value. -/
def minTime : Option Nat → Option Nat → Option Nat
  | some a, some b => some (min a b)
  | some a, none => some a
  | none, b => b

/-- Ticks left of the timed WAIT at a queue's start point (R262, R346). -/
def State.waitLeft (s : State) (x : Queue) : Option Nat :=
  match x.front with
  | some p => if p.type == 6 && p.f 6 63 32 != 0 then some (x.since + p.f 6 63 32 * 100 - s.weirCtr.toNat) else none
  | none => none

/-- Ticks left of the owner's idle hint, while one is set (R346). -/
def State.hintLeft (s : State) (p : Nat) : Option Nat :=
  let us := s.rf (.pwrIdleHint p) 31 0
  if us == 0 then none else some (Map.getD s.power.hintAt p 0 + us * 100 - s.weirCtr.toNat)

/-- The expected idle time I of a basin in ticks of 10 ns; none without a finite value (R346). -/
def State.idleTime (s : State) (b : Nat) : Option Nat :=
  let p := s.basinOwner b
  let qs := s.queues.filter (fun kv => kv.2.owner == p && kv.2.st != 0)
  if qs.any (fun kv => s.queueState kv.1 == 2 || s.queueState kv.1 == 4) then some 0
  else minTime (qs.foldl (fun m kv => minTime m (s.waitLeft kv.2)) none) (s.hintLeft p)

/-- The state that an idle basin takes: the deepest that repays itself (Table 20-4, R346). -/
def State.sleepFor (s : State) (b : Nat) : Nat :=
  match s.idleTime b with
  | none => 1
  | some i => if i ≥ 200000 && !s.basinWindow b then 3 else if i ≥ 20000 then 2 else if i ≥ 200 then 1 else 0

/-- Evict every resident context of a basin; none where a save faults (R252). -/
def State.evictBasin (s : State) (b : Nat) : Option State :=
  (basinCores b).foldl (fun t core => t.bind (fun t =>
    (t.res core).foldl (fun u r => u.bind (fun u => (u.evict core r).map (fun (v : State) => v.settleCtx r.ctx))) (some t))) (some s)

/-- A basin enters Retained: its caches are written back and invalidated and its accumulators become +0. -/
def State.retain (s : State) (b : Nat) : State := ((s.emptyCaches b).zeroAcc b).setRf (.bsnPwrSts b) 1 0 2

/-- A basin enters a state: Off where its contexts could be evicted, whose pools are then lost; else Retained. -/
def State.enterSleep (s : State) (b st : Nat) : State :=
  if st == 1 then s.setRf (.bsnPwrSts b) 1 0 1
  else if st == 2 then s.retain b
  else match s.evictBasin b with
    | some t => ((t.retain b).zeroPools b).setRf (.bsnPwrSts b) 1 0 3
    | none => s.retain b

/-- BASIN_IDLE: an idle basin takes the deepest state that its expected idle time repays (R345, R346). -/
def execBasinIdle (b : Fin 96) (s : State) : Res :=
  let st := s.sleepFor b.val
  if !s.basinIdle b.val || !s.dieUp (b.val / 8) || s.rf (.bsnPwrSts b.val) 2 2 == 1 then
    s.idle "the basin is not idle"
  else if st ≤ s.sleep b.val then .next s
  else .next (s.enterSleep b.val st)

/-- GATED_TO_RETAINED: 1 ms of idle time without a finite expectation (R346). -/
def execGatedToRetained (b : Fin 96) (s : State) : Res :=
  if s.sleep b.val != 1 || s.rf (.bsnPwrSts b.val) 2 2 == 1 || (s.idleTime b.val).isSome then
    s.idle "the basin is not Gated without an expectation"
  else .next (s.retain b.val)

/-- IDLE_EXPIRY_WAKE: the wake begins before I runs out (R346). -/
def execIdleExpiryWake (b : Fin 96) (s : State) : Res :=
  if s.sleep b.val == 0 || s.rf (.bsnPwrSts b.val) 2 2 == 1 || (s.idleTime b.val).isNone then
    s.idle "the basin awaits no expiry"
  else .next (s.wake b.val)

/-- The event that a wake names has happened for a basin (R347); a hint of 0 only when it is written now. -/
def State.wakeCause (s : State) (b : Nat) (w : WakeEvent) : Bool :=
  let p := s.basinOwner b
  match w with
  | .placement => (s.items p).any (fun i => match s.itemShape i with | some x => (x.1 == 3) == s.lake b | none => false) ||
      s.queues.any (fun kv => kv.2.owner == p && (match kv.2.front with | some k => k.type == 4 | none => false))
  | .poolAccess => s.rmoInto b
  | .modeChange => (Map.find? s.modeChg b).isSome
  | .partitionReset => (Map.find? s.partOps p).isSome
  | .hintZero => s.rf (.pwrIdleHint p) 31 0 == 0 && Map.find? s.power.hintAt p == some s.weirCtr.toNat

/-- BASIN_WAKE: an early event wakes a basin at once (R347). -/
def execBasinWake (b : Fin 96) (why : WakeEvent) (s : State) : Res :=
  if s.sleep b.val == 0 || s.rf (.bsnPwrSts b.val) 2 2 == 1 || !s.wakeCause b.val why then
    s.idle "nothing wakes the basin"
  else .next (s.wake b.val)

/-- BASIN_WAKE_COMPLETE: the basin is awake (R347). -/
def execBasinWakeComplete (b : Fin 96) (s : State) : Res :=
  if s.rf (.bsnPwrSts b.val) 2 2 == 1 then .next (s.wakeEnd b.val) else s.idle "no wake is in progress"

/-- PWR_IDLE_HINT takes a value, counted from the write; 0 wakes the owner's basins (R346, R347). -/
def State.writeHint (s : State) (p us : Nat) : State :=
  let t := s.setRf (.pwrIdleHint p) 31 0 us
  let t := { t with power := { t.power with hintAt := Map.put t.power.hintAt p t.weirCtr.toNat } }
  if us == 0 then ((List.range 96).filter (fun b => t.basinOwner b == p)).foldl State.wake t else t

/-- IDLE_HINT_WRITE (R346). -/
def execIdleHintWrite (p : Nat) (val : BitVec 64) (s : State) : Res :=
  if p < 96 || p == 127 then .next (s.writeHint p (fld val.toNat 31 0)) else .fault .absentUnit

/-! ### The Shared carve-out (R45) -/

/-- K for a SIZE code over n logical channels: granules per channel, rounded up (R44). -/
def kFor (size n : Nat) : Nat := ceilDiv ((size + 1) * 65536) n

/-- A partition owns a channel or a context is resident on any core (R45). -/
def State.sharedInUse (s : State) : Bool :=
  (List.range 96).any (fun p => s.partOn p && (List.range 384).any (s.partChanBit p)) || s.residents.any (fun kv => !kv.2.isEmpty)

/-- A write of GLB_SHARED_CTL ends with a RESULT. -/
def State.sharedResult (s : State) (tok res : Nat) : State := (s.setRf .glbSharedSts 19 12 tok).setRf .glbSharedSts 11 8 res

/-- SHARED_SIZE_CHANGE: refused while in use or in progress, or where K would exceed 2,048 (R45). -/
def execSharedSizeChange (val : BitVec 32) (s : State) : Res :=
  let tok := fld val.toNat 15 8
  let size := fld val.toNat 1 0
  if !s.sharedUp || s.sharedChg.isSome || s.sharedInUse then .next (s.sharedResult tok 2)
  else if s.logical.isEmpty || kFor size s.logical.length > 2048 then .next (s.sharedResult tok 3)
  else .next ({ s with sharedChg := some size }.sharedResult tok 1)

/-- The carve-out is formed with a SIZE and K, zeroed, and every channel's Deep part is formed anew: contents held before
are lost, those of every cache with them (R45). -/
def State.formShared (s : State) (size k : Nat) : State :=
  { (s.setRf .glbSharedSts 31 20 k).setRf .glbSharedSts 1 0 size with
    heap := []
    heapPoison := []
    coh := ⟨[], [], [], [], []⟩
    icache := []
    narrow := []
    nmiss := [] }

/-- SHARED_SIZE_CHANGE_COMPLETE (R45). -/
def execSharedSizeChangeComplete (s : State) : Res :=
  s.clocked <|
  match s.sharedChg with
  | none => s.idle "no change is in progress"
  | some size =>
    .next (({ s with sharedChg := none }.formShared size (kFor size s.logical.length)).setRf .glbSharedSts 11 8 0)

end Sys2Proof.Machine
end

