-- ==== Sys2Proof/Machine/Heaps.lean ====
section
/-! DEFINITION. Heap channels: whole-channel failure (R49, R357), storage errors and the Rake (Table 21-1, R349, R350, R355), the
repair of common-region rows (R358), and the registration of common ranges (R270). -/

namespace Sys2Proof.Machine

/-! ### Naming a Heap byte -/

/-- The logical sector key that a sector of a physical channel holds; none for the parity row of a Guarded Heap (R42). -/
def State.logicalKey (s : State) (c off : Nat) : Option Nat :=
  let h := c / 16
  if s.guarded h then
    let l := s.heapChans h
    let n := l.length
    let r := off / 4096
    let j := (l.idxOf c + n - r % n) % n
    if n < 2 || j == n - 1 then none else ((s.heapLogical h)[j]?).map (fun x => x * 2 ^ 24 + off)
  else some (c * 2 ^ 24 + off)

/-- The offset over a channel list that a Heap key has: the inverse of R46, for a Deep byte. -/
def overInv (l : List Nat) (key : Nat) : Nat :=
  let o := key % 2 ^ 24
  (o / 4096 * l.length + l.idxOf (key / 2 ^ 24)) * 4096 + o % 4096

/-- Spread offset of a Heap key in its owner's region; 0 for a byte of the carve-out, which has none (R46, Table 21-3). -/
def State.spreadOff (s : State) (key : Nat) : Nat :=
  if key % 2 ^ 24 < s.deepSize then overInv (s.partChans (s.chanOwner (key / 2 ^ 24))) key else 0

/-- The common range that covers a Heap key and the byte offset in it (R270). -/
def State.commonOf (s : State) (key : Nat) : Option (Nat × Nat) :=
  if key % 2 ^ 24 ≥ s.deepSize || s.chanOwner (key / 2 ^ 24) != 127 then none
  else (List.range 8).findSome? (fun n =>
    let w := s.reg (.cfgCommon n)
    let base := fld w 35 0 * 2 ^ 16
    let die := key / 2 ^ 29
    let dpa := if formOf base == 2 then 2 * 2 ^ 46 + 0x7F * 2 ^ 35 + overInv (s.partChans 127) key
      else 2 ^ 46 + die * 2 ^ 42 + 0x7F * 2 ^ 35 + overInv ((s.partChans 127).filter (fun c => c / 32 == die)) key
    if s.inCommon n dpa 1 then some (n, dpa - base) else none)

/-- SECTORS of a notice: the poisoned sectors of the 1 KiB block that holds a Heap key (Table 21-3). -/
def State.sectorMap (s : State) (key : Nat) : Nat :=
  (List.range 32).foldl (fun m i => m + (if s.heapPoison.contains (key / 1024 * 32 + i) then 2 ^ i else 0)) 0

/-- A memory notice (Table 21-3). -/
def notice (type event range off chan sectors time : Nat) : List Word :=
  [ BitVec.ofNat 64 (type * 2 ^ 56 + event * 2 ^ 48), BitVec.ofNat 64 (range * 2 ^ 48 + off % 2 ^ 48), BitVec.ofNat 64 chan,
    BitVec.ofNat 64 sectors, 0, 0, 0, BitVec.ofNat 64 time ]

/-- The instances that RAS_COMMON_MAP names for a range. -/
def State.commonUsers (s : State) (n : Nat) : List Nat :=
  (List.range 96).filter (fun p =>
    if p < 64 then bit (s.reg (.rasCommonMapLo n)) p else bit (s.reg (.rasCommonMapHi n)) (p - 64))

/-! ### Whole-channel failure (R49, R357) -/

/-- The common ranges that a logical channel of PF0 carries. -/
def State.rangesOn (s : State) (c : Nat) : List Nat :=
  (List.range 8).filter (fun n =>
    let w := s.reg (.cfgCommon n)
    bit w 63 && (formOf (fld w 35 0 * 2 ^ 16) == 2 || fld w 29 26 == c / 32))

/-- The instances that map a channel: its owner, and for a channel of PF0 the partitions that map a common range on it. -/
def State.chanUsers (s : State) (c : Nat) : List Nat :=
  let o := s.physOwner c
  if o == 127 then 127 :: ((s.rangesOn c).flatMap s.commonUsers).dedup else [o]

/-- A channel fails: it becomes Failing, or Degraded where its Guarded Heap masks the failure; the event is logged and posted
(R49, R357, Table 03-8). -/
def State.failChannel (s : State) (c : Nat) : State :=
  let h := c / 16
  let masked := s.guarded h && (s.heapChans h).all (fun x => s.chanState x == 0)
  let st := if masked then 2 else 1
  let users := s.chanUsers c
  let t := s.setRf (.panChanState h) (c % 16 * 2 + 1) (c % 16 * 2) st
  let t := if masked then t else t.setChanReady c false
  let t := t.ras_ { rasOf 0x04 1 (c / 32) 0x01 c st with part := s.physOwner c }
  users.foldl (fun t p => (t.post p (notice 0x10 st 0 0 c 0 (t.dieTime (c / 32)))).1) t

/-- WHOLE_CHANNEL_FAILURE: the parity check of a channel's commands or addresses fails on 16 consecutive accesses (R357). -/
def execWholeChannelFailure (ch : Fin 384) (s : State) : Res :=
  let c := ch.val
  if s.chanState c != 0 || !s.dieUp (c / 32) then s.idle "the channel is not in service" else .next (s.failChannel c)

/-! ### Errors of Heap sectors, and the Rake (R349, R350, R355) -/

/-- The Rake writes a sector back: its cached narrow copy goes first (R228). -/
def State.rakeWrite (s : State) (key : Option Nat) : State :=
  match key with
  | some k => { s with narrow := dropNarrow s.narrow [k / 32] }
  | none => s

/-- A row is in repair from the detection of a bad sector in it (R358, R360). -/
def State.beginRepair (s : State) (key : Nat) : State :=
  { s with repair := NSet.ins s.repair (key / 4096), badSectors := NSet.ins s.badSectors (key / 32) }

/-- A channel's sector is poisoned: where a slice holds the sector, its copy stays as it is (R215, R351). -/
def State.poisonChannel (s : State) (key : Nat) : State :=
  match s.sharedOff key with
  | some o =>
    if s.sliceHolds key then
      let one : BitVec 4 := 1#4 <<< (o / 32 % 4)
      s.modDir (o / 128) (fun f => { f with
        under := if s.heapPoison.contains (key / 32) then f.under &&& ~~~one else f.under ||| one })
    else { s with heapPoison := NSet.ins s.heapPoison (key / 32) }
  | none => { s with heapPoison := NSet.ins s.heapPoison (key / 32) }

/-- An uncorrectable sector that cannot be rebuilt: a row of the common region goes into repair, any other sector is poisoned
and its owner told (R355, R358). -/
def State.badSector (s : State) (c key : Nat) : State :=
  match s.commonOf key with
  | some _ => s.beginRepair key
  | none =>
    let s := s.poisonChannel key
    (s.post (s.chanOwner (key / 2 ^ 24))
      (notice 0x10 3 0 (s.spreadOff key) (key / 2 ^ 24) (s.sectorMap key) (s.dieTime (c / 32)))).1

/-- A patrol corrects a word or sector: its CORRECTED counts it (Table 21-6). -/
def State.countCorrected (s : State) (d : Nat) (patrol : Bool) : State :=
  if patrol then s.setRf (.rasRakeSts d) 31 0 (satInc 32 (s.rf (.rasRakeSts d) 31 0)) else s

/-- A corrected sector of a channel, whose code corrects one symbol: logged; the Rake counts it, for its channel against CE_LIMIT
too, and writes it back (R349, R355, R357). -/
def State.corrected (s : State) (c addr : Nat) (patrol : Bool) (key : Option Nat) : State :=
  let e := rasOf 0x01 0 (c / 32) 0x01 c 1
  let s := (s.countCorrected (c / 32) patrol).ras_ { e with addr := addr }
  if !patrol then s
  else
    let n := Map.getD s.rakeCe c 0 + 1
    let s := { s with rakeCe := Map.put s.rakeCe c n }.rakeWrite key
    if n == s.rf .rasRakeCtl 31 16 + 1 then s.ras_ { e with sev := 1, detail := 2 ^ 31 } else s

/-- An uncorrectable sector of a channel is one of its rows; with 64 distinct ones within 1 ms the channel has failed (R357). -/
def State.badRow (s : State) (c sector : Nat) : State :=
  let row := c * 4096 + sector / 128
  let now := s.weirCtr.toNat
  let rows := (row, now) :: s.badRows.filter (fun x => x.1 != row && decide (now < x.2 + 100000))
  let t := { s with badRows := rows }
  if t.chanState c == 0 && (rows.filter (fun x => x.1 / 4096 == c)).length ≥ 64 then t.failChannel c else t

/-- The last channel that the Rake of a die reads. -/
def State.lastChan (s : State) (d : Nat) : Option Nat :=
  ((List.range 32).filter (fun i => s.chanState (d * 32 + i) != 3)).getLast?.map (d * 32 + ·)

/-- The last sector of a die's last channel ends a pass: PASSES counts it and the channel counts start anew. -/
def State.passEnd (s : State) (c sector : Nat) : State :=
  if sector == 2 ^ 19 - 1 && s.lastChan (c / 32) == some c then
    { s.setRf (.rasRakeSts (c / 32)) 63 32 (s.rf (.rasRakeSts (c / 32)) 63 32 + 1) with
      rakeCe := Map.keep s.rakeCe (fun k => k / 32 != c / 32) }
  else s

/-- A sector of a physical channel is read, by the Rake or by an access: corrected, rebuilt, or poisoned (R349, R350, R355,
R357). -/
def State.channelRead (s : State) (c sector : Nat) (patrol : Bool) (found : SectorState) : State :=
  let d := c / 32
  let key := s.logicalKey c (sector * 32)
  let addr := key.getD 0
  let part := match key with | some k => s.chanOwner (k / 2 ^ 24) | none => s.physOwner c
  match found with
  | .good => s
  | .correctable => s.corrected c addr patrol key
  | .uncorrectable rebuilds =>
    let t :=
      if s.guarded (c / 16) && rebuilds then (s.ras_ { rasOf 0x06 0 d 0x01 c 0 with addr := addr, part := part }).rakeWrite key
      else
        let t := if s.guarded (c / 16) then s.ras_ { rasOf 0x06 1 d 0x01 c 1 with addr := addr, part := part }
          else s.ras_ { rasOf 0x02 1 d 0x01 c (if patrol then 1 else 0) with addr := addr, part := part }
        match key with
        | some k => (t.badSector c k).rakeWrite key
        | none => t
    t.badRow c sector

/-! ### Errors of the other structures (Table 21-1) -/

/-- A word or sector of a unit that its code corrects, or that it poisons: the entry of class 0x01 or 0x02 that is logged. A
sector's code corrects one symbol; a word's has none (log entry 65). -/
def State.noteError (s : State) (d unit index : Nat) (patrol : Bool) (symbols detail : Nat) (found : SectorState) : State :=
  match found with
  | .good => s
  | .correctable => (s.countCorrected d patrol).ras_ (rasOf 0x01 0 d unit index symbols)
  | .uncorrectable _ => s.ras_ (rasOf 0x02 1 d unit index detail)

/-- An error of a sector of a Shared line that a slice holds: corrected, or the slice's copy is poisoned (R351, R355). -/
def State.sharedError (s : State) (line sec : Nat) (patrol : Bool) (found : SectorState) : State :=
  match s.sharedKey (line * 128 + sec * 32) with
  | none => s
  | some k =>
    let sl := homeSlice line
    let t := s.noteError (sl / 16) 0x02 sl patrol 1 (if patrol then 1 else 0) found
    match found with
    | .uncorrectable _ =>
      if t.heapPoison.contains (k / 32) then t
      else { t.modDir line (fun f => { f with under := f.under ^^^ (1#4 <<< sec) }) with
        heapPoison := NSet.ins t.heapPoison (k / 32) }
    | _ => t

/-- An error of the narrow copy of a sector: corrected, or the copy is poisoned. -/
def State.narrowError (s : State) (region sec : Nat) (patrol : Bool) (found : SectorState) : State :=
  let (d, sl, _) := s.narrowSet region
  let t := s.noteError d 0x02 (d * 16 + sl) patrol 1 (if patrol then 1 else 0) found
  match found with
  | .uncorrectable _ =>
    { t with narrow := t.narrow.map (fun f => if f.region == region then { f with bad := f.bad ||| (1#4 <<< sec) } else f) }
  | _ => t

/-- An error of an L1 word: corrected; else a dirty sector is poisoned and a clean line is dropped, to be fetched again. -/
def State.l1Error (s : State) (cache line sec : Nat) (x : L1Line) (found : SectorState) : State :=
  let core := if s.lake (cache / 7) then 1024 + cache / 7 else cache / 7 * 8 + cache % 7
  match found with
  | .good => s
  | .correctable => s.noteError (cache / 56) 0x03 core false 0 0 found
  | .uncorrectable _ =>
    if x.dirty == 0 then (s.noteError (cache / 56) 0x03 core false 0 0 .correctable).evictLine cache line
    else
      let t := s.noteError (cache / 56) 0x03 core false 0 0 found
      match s.sharedKey (line * 128 + sec * 32) with
      | some k => { t with heapPoison := NSet.ins t.heapPoison (k / 32) }
      | none => t

/-- Register lanes fail their parity when they are read, or the datapath's residue check fails for the lanes of a result: the
lanes are poisoned (Table 21-1). -/
def State.laneError (s : State) (r : GroupRef) (g : Group) (residue : Bool) : State :=
  let core := r.core.toNat
  (s.putGroup r g).noteError (coreDie core) 0x03 core false 0 (if residue then 3 else 2) (.uncorrectable false)

/-- An entry that fails its parity is dropped, and refilled when it is next needed. -/
def State.dropEntry (s : State) (store : ParityStore) (n : Nat) : State :=
  match store with
  | .icache => { s with icache := s.icache.eraseIdx n }
  | .tlb => { s with tlb := s.tlb.eraseIdx n }
  | .utlb => { s with utlb := s.utlb.eraseIdx n }
  | .walk1 => { s with wc1 := s.wc1.eraseIdx n }
  | .walk2 => { s with wc2 := s.wc2.eraseIdx n }

/-- A queue state word is uncorrectable: the queue stops on error with LAST_STATUS 0x08, and its context has consumed poison
(Table 21-2, R353). -/
def State.queueWordLost (s : State) (q : Nat) : State :=
  let x := s.queue q
  let t := ((s.noteError 15 0x08 0 false 0 0 (.uncorrectable false)).quePoison x.owner x.ctx).modQueue q (fun y => { y with
    last := 8
    st := if y.st == 1 then 5 else y.st })
  if x.st == 1 then t.queueInterrupt q x else t

/-- The structure is on a Pan die. -/
def errorOnPan (x : ErrorSite) : Bool :=
  match x with | .queueWord _ | .weirStore _ | .hostSector _ => false | .entry _ _ => false | _ => true

/-- RAKE_PATROL: a patrol or an access reads a word or sector, and what it finds has the effect of its structure's row of Table
21-1; the last sector of a patrol ends its pass (R348 to R351, R355). -/
def execRakePatrol (site : ErrorSite) (patrol : Bool) (found : SectorState) (s : State) : Res :=
  if s.tripped && errorOnPan site then .next s
  else match site with
  | .channel ch sector =>
    let c := ch.val
    if s.chanState c == 3 || !s.dieUp (c / 32) then s.idle "no access reaches the channel, and the Rake skips it"
    else
      let t := s.channelRead c sector patrol found
      .next (if patrol then t.passEnd c sector else t)
  | .sharedSector line sec =>
    if !(s.frame? line).any (fun f => f.valid.getLsbD sec.val) then s.idle "the slice does not hold the sector"
    else .next (s.sharedError line sec.val patrol found)
  | .narrowSector region sec =>
    if (s.narrowBad (region * 4 + sec.val)).isNone then s.idle "the slice does not hold the sector"
    else .next (s.narrowError region sec.val patrol found)
  | .pool core word =>
    let n := core.toNat
    if !s.coreValid n || !s.dieUp (coreDie n) || poolSize n ≤ word * 8 then s.idle "the core has no such word"
    else
      let t := s.noteError (coreDie n) 0x03 n false 0 0 found
      .next (match found with | .uncorrectable _ => t.poisonLocs (poolLocs n (word * 8) 1) | _ => t)
  | .l1 cache line sec =>
    match s.l1 cache.val line with
    | some x => .next (s.l1Error cache.val line sec.val x found)
    | none => s.idle "the L1 does not hold the line"
  | .lanes r reg lanes residue =>
    match Map.find? s.groups (refKey r), found with
    | some g, .uncorrectable _ =>
      .next (s.laneError r { g with vpois := (lanesOf lanes).foldl (fun m i => NSet.ins m (reg.toNat * 32 + i)) g.vpois } residue)
    | _, _ => s.idle "the lanes are good"
  | .scalar r reg residue =>
    match Map.find? s.groups (refKey r), found with
    | some g, .uncorrectable _ =>
      if reg == 0 then s.idle "s0 is wired to 0" else .next (s.laneError r { g with spois := NSet.ins g.spois reg.toNat } residue)
    | _, _ => s.idle "the register is good"
  | .entry store n =>
    match found with
    | .uncorrectable _ => .next (s.dropEntry store n)
    | _ => s.idle "the entry is good"
  | .queueWord q =>
    match (Map.find? s.queues q), found with
    | none, _ => s.idle "no such queue"
    | some _, .uncorrectable _ => .next (s.queueWordLost q)
    | some _, _ => .next (s.noteError 15 0x08 0 patrol 0 0 found)
  | .weirStore ends =>
    let t := s.noteError 15 0x08 0 patrol 0 (if patrol then 1 else 0) found
    .next (if patrol && ends then t.setRf (.rasRakeSts 15) 63 32 (t.rf (.rasRakeSts 15) 63 32 + 1) else t)
  | .hostSector sector =>
    match found with
    | .uncorrectable _ => .next { s with hostPoison := NSet.ins s.hostPoison sector }
    | _ => s.idle "the completion is not poisoned"

/-! ### Repair of a common-region row (R358) -/

/-- The Heap keys of a row's replica: REPL_EN is set and the range it names is VALID with the same LEN. -/
def State.replicaKeys (s : State) (n off : Nat) : Option (List Loc) :=
  let w := s.reg (.cfgCommon n)
  let r := s.reg (.cfgCommon (fld w 61 59))
  if bit w 62 && bit r 63 && fld r 52 36 == fld w 52 36 then s.locateN (fld r 35 0 * 2 ^ 16 + off) 4096 else none

/-- Located bytes of a Heap are good: no sector is poisoned or bad, and none lies on a Failing channel or in a row under
repair. -/
def State.goodLocs (s : State) (ls : List Loc) : Bool :=
  ls.all (fun l => match l with
    | .heap k => !(s.readLoc 0 l).2 && !s.badSectors.contains (k / 32) && !s.repair.contains (k / 4096)
    | _ => false)

/-- The repair fails: the bad sectors are poisoned and every user of the range is told. -/
def State.repairFailed (s clean : State) (bad : NSet) (n off key c : Nat) : State :=
  let t := { clean with heapPoison := bad.foldl NSet.ins clean.heapPoison }
  let rec_ := notice 0x11 1 n off (key / 2 ^ 24) (t.sectorMap key) (t.dieTime (c / 32))
  let t := (127 :: s.commonUsers n).foldl (fun (t : State) p => (t.post p rec_).1) t
  t.ras_ { rasOf 0x0F 1 (c / 32) 0x01 c 1 with addr := key }

/-- COMMON_REPAIR_COMPLETE: the row holds its replica's bytes, or its bad sectors are poisoned; records 0x11 (R358). -/
def execCommonRepairComplete (row : Nat) (readbackOk : Bool) (s : State) : Res :=
  s.clocked <|
  if !s.repair.contains row then s.idle "the row is not in repair"
  else
    let key := row * 4096
    let c := s.physChan key
    let (n, off) := (s.commonOf key).getD (0, 0)
    let s := { s with repair := NSet.del s.repair row }
    let bad := s.badSectors.filter (fun k => k / 128 == row)
    let clean := { s with badSectors := s.badSectors.filter (fun k => k / 128 != row) }
    let row0 : List Loc := (List.range 4096).map (fun i => Loc.heap (key + i))
    match s.replicaKeys n off with
    | some ls =>
      if readbackOk && s.goodLocs ls && !s.lost key then
        let t := clean.writeLocs 0 row0 (s.readLocs 0 ls).1
        let t := (t.post 127 (notice 0x11 2 n off (key / 2 ^ 24) 0 (t.dieTime (c / 32)))).1
        .next (t.ras_ { rasOf 0x0F 0 (c / 32) 0x01 c 2 with addr := key })
      else .next (s.repairFailed clean bad n off key c)
    | none => .next (s.repairFailed clean bad n off key c)

/-! ### Common ranges (R270) -/

/-- A CFG_COMMON value meets R270: a Deep Near or Spread range of PF0 that lies within its region. -/
def State.commonOk (s : State) (w : Nat) : Bool :=
  let base := fld w 35 0 * 2 ^ 16
  let len := fld w 52 36 * 2 ^ 16
  fld w 52 36 ≤ 98304 && len != 0 && spaceOf base == 0 && (formOf base == 1 || formOf base == 2) && dpaPart base == 0x7F &&
    (s.deepKey base).isSome && (s.deepKey (base + len - 1)).isSome && (base + len - 1) / 2 ^ 35 == base / 2 ^ 35

/-- CFG_COMMON[n] is written: a range that breaks R270 is ignored and logged. -/
def State.writeCommon (s : State) (n v : Nat) : State :=
  if bit v 63 && !s.commonOk v then s.accessError 270 0 (Reg.cfgCommon n).key
  else s.setReg (.cfgCommon n) (Reg.written (.cfgCommon n) 63 0 (s.reg (.cfgCommon n)) v)

/-- COMMON_RANGE_WRITE (R270). -/
def execCommonRangeWrite (n : Fin 8) (val : BitVec 64) (s : State) : Res := .next (s.writeCommon n.val val.toNat)

end Sys2Proof.Machine
end

