-- ==== Sys2Proof/Machine/Partitions.lean ====
section
/-! DEFINITION. Partitions (R266 to R275): scheduler ranges, enabling, changing, resetting and removing them, and the
quarantine of one that hangs (R374). -/

namespace Sys2Proof.Machine

/-! ### Status (Tables 16-2 and 16-3) -/

/-- STATE of a partition. -/
def State.partState (s : State) (p : Nat) : Nat := s.rf (.cfgPartSts p) 23 20

/-- STATE, RESULT and BUSY_WHY take values; a change of STATE or RESULT fires the partition's event vector (Table 18-3). -/
def State.partStatus (s : State) (p st res why : Nat) : State :=
  let r : Reg := .cfgPartSts p
  let t := ((s.setRf r 23 20 st).setRf r 19 16 res).setRf r 15 12 why
  if s.rf r 23 20 == st && s.rf r 19 16 == res then t else t.fire (p + 1) 1

/-- A RESULT without a change of STATE. -/
def State.partResult (s : State) (p res why : Nat) : State := s.partStatus p (s.partState p) res why

/-- TOKEN of a request. -/
def State.partToken (s : State) (p tok : Nat) : State := s.setRf (.cfgPartSts p) 31 24 tok

/-- The partition is being reset or removed. -/
def State.partBusy (s : State) (p : Nat) : Bool := s.partState p == 2 || s.partState p == 3

/-! ### What it holds -/

/-- Basins of a partition's registers, ascending. -/
def State.partBasins (s : State) (p : Nat) : List Nat := (List.range 96).filter (s.partBasinBit p)

/-- First byte and length of its Shared range. -/
def State.partShared (s : State) (p : Nat) : Nat × Nat :=
  (s.rf (.cfgPartShr p) 13 0 * 65536, s.rf (.cfgPartShr p) 46 32 * 65536)

/-- Zero the Deep part of channels and their poison there (R271). -/
def State.zeroDeep (s : State) (cs : List Nat) : State :=
  let hit := fun (k : Nat) => cs.contains (k / 2 ^ 24) && k % 2 ^ 24 < s.deepSize
  { s with
    heap := Map.keep s.heap (fun k => !hit k)
    heapPoison := s.heapPoison.filter (fun x => !hit (x * 32))
    narrow := s.narrow.filter (fun f => !hit (f.region * 128)) }

/-- Zero a range of Shared and its poison (R271). -/
def State.zeroShared (s : State) (o n : Nat) : State :=
  let hit := fun (k : Nat) => match s.sharedOff k with | some x => o ≤ x && x < o + n | none => false
  { s with
    heap := Map.keep s.heap (fun k => !hit k)
    heapPoison := s.heapPoison.filter (fun x => !hit (x * 32)) }

/-- Every byte that a partition owns becomes zero: its pools, the Deep part of its channels, its Shared range (R271). -/
def State.scrubPart (s : State) (p : Nat) : State :=
  let t := (s.partBasins p).foldl State.zeroPools s
  (t.zeroDeep (t.partChans p)).zeroShared (t.partShared p).1 (t.partShared p).2

/-- R271 retains the bytes: policy Keep, and OWNER_TAG as at the last enable or completed reset. -/
def State.retains (s : State) (p : Nat) : Bool :=
  s.rf (.cfgPartCtl p) 1 1 == 1 && Map.find? s.lastTag p == some (s.rf (.cfgPartTag p) 31 0)

/-! ### Scheduler ranges (R250) -/

/-- Two ranges meet; an empty one meets nothing. -/
def spansMeet (a n b m : Nat) : Bool := decide (0 < n ∧ 0 < m ∧ a < b + m ∧ b < a + n)

/-- R250 refuses a range: it overlaps another partition's, passes the end, is too long, or a queue of p is enabled. -/
def State.rangeBad (s : State) (p : Nat) (contexts : Bool) (v : Nat) : Bool :=
  let (base, n) := if contexts then (fld v 19 0, fld v 52 32) else (fld v 17 0, fld v 46 32)
  let others := (List.range 96).filter (· != p)
  s.queues.any (fun kv => kv.2.owner == p && kv.2.st != 0) ||
    (if contexts then
      base + n > 2 ^ 20 || others.any (fun q => spansMeet base n (s.rf (.schCtxRange q) 19 0) (s.rf (.schCtxRange q) 52 32))
    else
      base + n > 2 ^ 18 || n > 16384 ||
        others.any (fun q => spansMeet base n (s.rf (.queRange q) 17 0) (s.rf (.queRange q) 46 32)))

/-- QUE_RANGE or SCH_CTX_RANGE is written; the ranges of a quarantined partition stay as they are (R374). -/
def State.writeRange (s : State) (p : Nat) (contexts : Bool) (v : Nat) : State :=
  let r : Reg := if contexts then .schCtxRange p else .queRange p
  if s.quarantined.contains p then s.accessError 374 0 r.key
  else if s.rangeBad p contexts v then s.accessError 250 0 r.key
  else s.setReg r (r.written 63 0 (s.reg r) v)

/-- SCHED_RANGE_WRITE (R250). -/
def execSchedRangeWrite (p : Fin 96) (contexts : Bool) (val : BitVec 64) (s : State) : Res :=
  .next (s.writeRange p.val contexts val.toNat)

/-! ### Enabling (R269) -/

/-- Something of p belongs to another enabled partition. -/
def State.partConflict (s : State) (p : Nat) : Bool :=
  let sh := s.partShared p
  (List.range 96).any (fun q => q != p && s.partOn q &&
    ((s.partBasins p).any (s.partBasinBit q) || (List.range 384).any (fun c => s.partChanBit p c && s.partChanBit q c) ||
      (spansMeet sh.1 sh.2 (s.partShared q).1 (s.partShared q).2)))

/-- A channel of p is mapped out, or p holds part of a Guarded Heap (R43). -/
def State.partChanBad (s : State) (p : Nat) : Bool :=
  (List.range 384).any (fun c => s.partChanBit p c && s.chanState c == 3) ||
    (List.range 24).any (fun h => s.guarded h && (s.heapChans h).any (s.partChanBit p) &&
      !(s.heapLogical h).all (s.partChanBit p))

/-- CFG_PART_CTL is written: POLICY is stored, and ENABLE = 1 asks for the enable (R269, R381). -/
def State.writePartCtl (s : State) (p v : Nat) : State :=
  let ask := bit v 0
  let tok := fun (t : State) => if ask then t.partToken p (fld v 39 32) else t
  if s.partBusy p then (tok s).partResult p 2 0
  else
    let t := tok (s.setRf (.cfgPartCtl p) 1 1 (fld v 1 1))
    if !ask then t
    else if t.partState p != 0 then t.partResult p 7 0
    else if !t.sharedUp then t.partResult p 2 0
    else if t.partConflict p || t.partChanBad p || (t.partShared p).1 + (t.partShared p).2 > t.sharedSize then t.partResult p 3 0
    else if (t.partBasins p).any (fun b => (Map.find? t.modeChg b).isSome) then t.partResult p 2 1
    else
      let keep := t.retains p
      let u := t.partStatus p 1 0 0
      let u := if keep then u else (u.partBasins p).foldl State.zeroAcc (u.scrubPart p)
      { u with lastTag := Map.put u.lastTag p (u.rf (.cfgPartTag p) 31 0) }

/-- PARTITION_ENABLE (R269). -/
def execPartitionEnable (p : Fin 96) (val : BitVec 64) (s : State) : Res := .next (s.writePartCtl p.val val.toNat)

/-! ### Basins, channels and Shared range (R268) -/

/-- CFG_PART_BSN_LO or _HI is written: stored while p is disabled; while it is enabled, all the basins change or none. -/
def State.writePartBasins (s : State) (p : Nat) (high : Bool) (v : Nat) : State :=
  let r : Reg := if high then .cfgPartBsnHi p else .cfgPartBsnLo p
  let old := s.reg r
  let new := r.written 63 0 old v
  let changed := ((List.range 64).filter (fun i => bit old i != bit new i)).map (fun i => if high then i + 64 else i)
  match s.partState p with
  | 0 => s.setReg r new
  | 1 =>
    let why := changed.foldl (fun m b => m ||| s.basinBusy b) 0
    let added := changed.filter (fun b => !s.partBasinBit p b)
    if why != 0 || added.any (fun b => s.basinOwner b != 127) then s.partResult p 2 why
    else (s.setReg r new).partResult p 0 0
  | 4 => s.partResult p 7 0
  | _ => s.partResult p 2 0

/-- CFG_PART_TAG is written: stored, but while p is resetting or removing (R269). -/
def State.writePartTag (s : State) (p v : Nat) : State :=
  if s.partBusy p then s.partResult p 2 0 else s.setReg (.cfgPartTag p) ((Reg.cfgPartTag p).written 63 0 (s.reg (.cfgPartTag p)) v)

/-- PARTITION_BASIN_WRITE (R268). -/
def execPartitionBasinWrite (p : Fin 96) (high : Bool) (val : BitVec 64) (s : State) : Res :=
  .next (s.writePartBasins p.val high val.toNat)

/-- CFG_PART_CHAN[k] (reg 0 to 5) or CFG_PART_SHR (6) is written: stored only while p is disabled (R268, R269). -/
def State.writePartResource (s : State) (p reg v : Nat) : State :=
  let r : Reg := if reg < 6 then .cfgPartChan p reg else .cfgPartShr p
  match s.partState p with
  | 0 => s.setReg r (r.written 63 0 (s.reg r) v)
  | 1 => s.partResult p 4 0
  | 4 => s.partResult p 7 0
  | _ => s.partResult p 2 0

/-- PARTITION_RESOURCE_WRITE (R268). -/
def execPartitionResourceWrite (p : Fin 96) (reg : Fin 7) (val : BitVec 64) (s : State) : Res :=
  .next (s.writePartResource p.val reg.val val.toNat)

/-! ### Reset and removal (R272, Table 16-5) -/

/-- The LEVEL that RST_STS shows for a step: 0x3 also for a partition step. -/
def stsLevel (level : Nat) : Nat := if level == 6 then 3 else level

/-- ACTIVE is the widest step in progress. -/
def State.noteActive (s : State) : State := s.setRf .rstSts 7 4 (s.resetQ.foldl (fun m r => max m (stsLevel r.level)) 0)

/-- Step 4: work still in flight is squashed: its commands, and the packets of its DMA commands, are counted. The packet of a
stopped launch is no squash: step 2 gives it its status (Table 16-6, log entry 109). -/
def State.squash (s : State) (p : Nat) : State :=
  let mine := fun (o : Origin) => o.part == p
  let n := (s.mtx.filter (fun c => mine c.org)).length + (s.dma.filter (fun c => mine c.org)).length +
    (s.rmo.filter (fun c => mine c.org)).length + (s.routes.filter (fun c => mine c.org)).length
  let pkts := (s.dma.filter (fun c => mine c.org && c.pkt)).map (fun c => c.id)
  let n := n + pkts.length
  let squashed := fun (e : Started) => e.live.any pkts.contains
  let which := fun (q : Queue) => (q.started.filter squashed).map (fun e => e.pkt.seq)
  let seqs : Map (List Nat) := s.queues.map (fun kv => (kv.1, which kv.2))
  let s := { s with
    mtx := s.mtx.filter (fun c => !mine c.org)
    routes := s.routes.filter (fun c => !mine c.org) }
  let s := (List.filter (fun (c : DmaCmd) => mine c.org) s.dma).foldl (fun (t : State) (c : DmaCmd) =>
    if t.dma.any (fun o => o.id == c.id) then
      (if c.desc.isNone then t.dmaLost c 0x0B else t.dmaDone c 0x0B c.cursor)
    else t) s
  let s := { s with queues := Map.mapV s.queues (fun k q => if q.owner != p then q else { q with started := q.started.map (fun (e : Started) =>
    if (Map.getD seqs k []).contains e.pkt.seq then { e with status := 7 } else e) }) }
  let s := (s.failRmos 0x0A (fun c => mine c.org)).countSquash p n
  { s with partOps := Map.modify s.partOps p (fun o => { o with draining := false }) }

/-- Steps 1 and 2: no packet starts, every running launch stops with status 0x07, replays are abandoned (R373); TIMEOUT 0
squashes at once. -/
def State.beginPart (s : State) (p : Nat) : State :=
  match Map.find? s.partOps p with
  | none => s
  | some o =>
    let lost := (s.suspects.filter (fun x => x.isDma && s.ctxOwner x.ctx == p && !s.dma.any (fun c => c.id == x.id))).map (fun x => x.id)
    let s := { s with
      partOps := Map.put s.partOps p { o with begun := true }
      queues := Map.mapV s.queues (fun _ q => if q.owner != p || q.st == 0 then q else { q.discard with
        st := 6
        started := q.discard.started.map (fun (e : Started) =>
          if e.live.any lost.contains then { e with live := e.live.filter (fun i => !lost.contains i), status := 7 } else e)
        disabledBy := none })
      cmdBusy := NSet.del s.cmdBusy p
      suspects := s.suspects.filter (fun x => s.ctxOwner x.ctx != p)
      launches := Map.mapV s.launches (fun _ l => if l.part == p then { l with suspect := false } else l) }
    let s := ((s.launches.filter (fun kv => kv.2.part == p)).map Prod.fst).foldl (fun t l => t.failLaunch l 7) s
    let s := (s.partBasins p).foldl State.wake s
    if o.timeout == 0 then s.squash p else s

/-- A reset of p in progress, or a removal, takes TIMEOUT 0 (R370, R372). -/
def State.hurryPart (s : State) (p : Nat) : State :=
  match Map.find? s.partOps p with
  | none => s
  | some o =>
    let t := { s with partOps := Map.put s.partOps p { o with timeout := 0 } }
    if o.begun && o.draining then t.squash p else t

/-- A basin of p is changing mode, which delays the operation (R34). -/
def State.partChanging (s : State) (p : Nat) : Bool := (s.partBasins p).any (fun b => (Map.find? s.modeChg b).isSome)

/-- An accepted request starts, or waits for a mode change of a basin of p. It supersedes the engine and core resets of p's
basins (R373). -/
def State.startPart (s : State) (p action timeout : Nat) (flr : Bool) : State :=
  let s := (s.setRf (.cfgPartSts p) 47 32 0).partStatus p (if action == 2 then 3 else 2) 1 0
  let s := { s with
    partOps := Map.put s.partOps p ⟨action, timeout, action == 2 || !s.retains p, true, false, flr⟩
    resetQ := s.resetQ.filter (fun r => !(r.level ≤ 2 && s.basinOwner (coreBasin r.unit) == p)) }.noteActive
  if s.partChanging p then s else s.beginPart p

/-- CFG_PART_RST is written (R272). -/
def State.writePartRst (s : State) (p v : Nat) : State :=
  let s := s.partToken p (fld v 39 32)
  let action := fld v 3 0
  if s.partBusy p then s.partResult p 2 0
  else if s.partState p != 1 || (action != 1 && action != 2) then s.partResult p 7 0
  else s.startPart p action (fld v 25 16) false

/-- PARTITION_RESET (R272). -/
def execPartitionReset (p : Fin 96) (val : BitVec 64) (s : State) : Res := .next (s.writePartRst p.val val.toNat)
/-- PARTITION_REMOVE (R272). -/
def execPartitionRemove (p : Fin 96) (val : BitVec 64) (s : State) : Res := .next (s.writePartRst p.val val.toNat)

/-- FLR: ACTION 0x1 with TIMEOUT 10, refused as that is on a partition disabled or quarantined; one that meets a reset in
progress is merged into it (R272, R273, R373). -/
def execFlr (p : Fin 96) (s : State) : Res :=
  if s.partState p.val == 1 then
    .next ({ s with cfg := Map.keep s.cfg (fun k => k / 1024 != p.val + 1) }.startPart p.val 1 10 true)
  else if s.partBusy p.val then .next s
  else .next (s.partResult p.val 7 0)

/-- PARTITION_DRAIN_TIMEOUT: TIMEOUT is reached and the rest is squashed (Table 16-5 step 4). -/
def execPartitionDrainTimeout (p : Fin 96) (s : State) : Res :=
  match Map.find? s.partOps p.val with
  | some o => if o.begun && o.draining then .next (s.squash p.val) else s.idle "the partition does not drain"
  | none => s.idle "the partition does not drain"

/-- A message of another node for a window of p is next in its session's order and waits to be applied. -/
def State.partInbound (s : State) (p : Nat) : Bool :=
  s.sessions.any (fun kv => kv.2.part == p && kv.2.heldMsgs.any (fun h => h.1 == kv.2.rcvPsn && asksTarget h.2.opc))

/-- Nothing of p is in flight: launches, commands, RMOs to its windows, started packets. -/
def State.partDrained (s : State) (p : Nat) : Bool :=
  !s.launches.any (fun kv => kv.2.part == p) && !s.mtx.any (fun c => c.org.part == p) && !s.dma.any (fun c => c.org.part == p) &&
    !s.rmo.any (fun c => c.org.part == p) && !s.routes.any (fun c => c.org.part == p) &&
    !s.queues.any (fun kv => kv.2.owner == p && !kv.2.started.isEmpty) && !s.partInbound p

/-- Step 5: every window of p is withdrawn, its STATUS written; every translation of p is invalidated (R242). -/
def State.dropWindows (s : State) (p : Nat) : State :=
  let ws := (s.windows.filter (fun kv => kv.1 / 65536 == p)).map (fun kv => kv.1 % 65536)
  let s := ws.foldl (fun (t : State) n => t.winStatus p n 1 (fun (u : State) => u)) { s with windows := Map.keep s.windows (fun k => k / 65536 != p) }
  { s.dropXlat (fun e => e.part == p) (fun x => x.part == p) (fun x => x.part == p) with invs := Map.drop s.invs p }

/-- Registers of domain (P) of a partition. -/
def partRegs (p : Nat) : List Reg :=
  [.vfQueCmdSts p, .vfXltInvLo p, .xltInvLo p, .xltInvHi p, .xltInvSts p, .xltFringBase p, .xltFringHead p, .xltFringTail p,
    .xltFresp p, .xltFringLost p]

/-- Registers of domain (P) take their reset values; no queue, context, or record of p stays (Table 16-5 step 6). -/
def State.clearPart (s : State) (p : Nat) : State :=
  let s := (partRegs p).foldl (fun (t : State) r => t.restore r [.p]) s
  let mine := fun (c : Nat) => s.ctxOwner c == p
  let bs := s.partBasins p
  { s with
    queues := Map.keepV s.queues (fun _ q => q.owner != p)
    ctxs := Map.keepV s.ctxs (fun _ a => a.part != p)
    lastServed := Map.keep s.lastServed (fun c => !mine c)
    residents := Map.keep s.residents (fun c => !bs.contains (coreBasin c))
    heldRecs := Map.drop s.heldRecs p
    posted := s.posted.filter (fun k => !mine (k / 2 ^ 32 % 2 ^ 20))
    walkQ := (Map.mapV s.walkQ (fun _ l => l.filter (fun k => !mine (k / 2 ^ 32)))).filter (fun kv => !kv.2.isEmpty)
    cmdBusy := NSet.del s.cmdBusy p
    switching := Map.keep s.switching (fun c => !bs.contains (coreBasin c))
    mtxHolder := Map.keep s.mtxHolder (fun c => !bs.contains (coreBasin c))
    hung := s.hung.filter (fun c => !bs.contains (coreBasin c)) }

/-- Close every session of p with STATUS 0x09 (R293, R374). -/
def State.closeSessions (s : State) (p : Nat) : State :=
  ((s.sessions.filter (fun kv => kv.2.part == p)).map Prod.fst).foldl (fun (t : State) i =>
    let t := match Map.find? t.sessions i with
      | some ss => if ss.known then t.sendCtl i 0x23 0 {} [] else t
      | none => t
    { t with sessions := Map.drop t.sessions i }.sessStatus i 9 (fun (u : State) => u)) s

/-- Bit p of every RAS_COMMON_MAP is cleared (R359). -/
def State.clearCommon (s : State) (p : Nat) : State :=
  (List.range 8).foldl (fun (t : State) n =>
    if p < 64 then t.setRf (.rasCommonMapLo n) p p 0 else t.setRf (.rasCommonMapHi n) (p - 64) (p - 64) 0) s

/-- Steps 5 to 7 of Table 16-5. -/
def State.finishPart (s : State) (p : Nat) (o : PartOp) : State :=
  let bs := s.partBasins p
  let res := if s.rf (.cfgPartSts p) 47 32 == 0 then 0 else 5
  let s := s.dropWindows p
  let s := bs.foldl (fun (t : State) b => ((t.wakeEnd b).emptyCaches b).zeroAcc b) s
  let s := if o.scrub then { s.scrubPart p with evictedFrom := s.evictedFrom.filter (fun k => s.ctxOwner (k % 2 ^ 20) != p) } else s
  let s := { s.clearPart p with partOps := Map.drop s.partOps p }
  let s := (if o.action == 2 then s.closeSessions p else s).activateWaiting
  let s := s.dropXlat (fun e => e.part == p) (fun x => x.part == p) (fun x => x.part == p)
  if o.action == 2 then (s.clearCommon p).partStatus p 0 res 0
  else { s with lastTag := Map.put s.lastTag p (s.rf (.cfgPartTag p) 31 0) }.partStatus p 1 res 0

/-- PARTITION_RESET_COMPLETE: the work has drained or is squashed; the partition's memory and registers are reset
(R271, R272, R274). -/
def execPartitionResetComplete (p : Fin 96) (s : State) : Res :=
  match Map.find? s.partOps p.val with
  | none => s.idle "no reset or removal is in progress"
  | some o =>
    if !o.begun || !s.partDrained p.val then s.idle "the partition's work has not ended"
    else .next (s.finishPart p.val o)

/-! ### Quarantine (R275, R374) -/

/-- What a quarantined partition had in flight is cut off behind the Sluice: it neither runs nor completes. -/
def State.cutOff (s : State) (p : Nat) : State :=
  { s with
    groups := Map.keepV s.groups (fun _ g => match Map.find? s.launches g.launch with | some l => l.part != p | none => true)
    launches := Map.keepV s.launches (fun _ l => l.part != p)
    mtx := s.mtx.filter (fun c => c.org.part != p)
    dma := s.dma.filter (fun c => c.org.part != p)
    rmo := s.rmo.filter (fun c => c.org.part != p)
    routes := s.routes.filter (fun c => c.org.part != p)
    suspects := s.suspects.filter (fun x => s.ctxOwner x.ctx != p)
    partOps := Map.drop s.partOps p
    resetQ := s.resetQ.filter (fun r => !(r.level == 6 && r.unit == p)) }

/-- A partition reset that hangs: the Sluice gates close and p is quarantined (R275, R374). -/
def State.quarantine (s : State) (p : Nat) : State :=
  let s := (s.closeSessions p).cutOff p
  let s := (s.partBasins p).foldl (fun t b => t.setBasinReady b false) s
  let s := if p < 64 then s.setRf .rstQuarLo p p 1 else s.setRf .rstQuarHi (p - 64) (p - 64) 1
  let s := { s with
    quarantined := NSet.ins s.quarantined p
    sluiced := NSet.ins s.sluiced p }
  (s.partStatus p 4 6 0).ras_ { rasOf 0x0E 2 15 0x08 p 0x30 with part := p }

/-- PARTITION_RESET_HANG: step 2 or 4 did not finish within 10 ms (R275, R374). -/
def execPartitionResetHang (p : Fin 96) (s : State) : Res :=
  match Map.find? s.partOps p.val with
  | none => s.idle "no reset or removal is in progress"
  | some o =>
    if !o.begun then s.idle "the reset waits for a mode change"
    else .next (s.quarantine p.val)

end Sys2Proof.Machine
end

