-- ==== Sys2Proof/Machine/ModeChange.lean ====
section
/-! DEFINITION. Changing a basin between Pond and Lake mode (R28 to R34). -/

namespace Sys2Proof.Machine

/-- The fields of BSN_MODE_STS that a write of BSN_MODE_CTL leaves: TOKEN, RESULT, BUSY_WHY (Table 02-7). -/
def State.modeStatus (s : State) (b tok res why : Nat) : State :=
  let r : Reg := .bsnModeSts b
  ((s.setRf r 23 16 tok).setRf r 11 8 res).setRf r 7 4 why

/-- An accepted change starts: the ready bit is cleared, CHANGING is set, and a sleeping basin wakes (R30, R32). -/
def State.beginMode (s : State) (b tok mode : Nat) : State :=
  let t := ((s.setBasinReady b false).modeStatus b tok 1 0).setRf (.bsnModeSts b) 1 1 1
  ({ t with modeChg := Map.put t.modeChg b ⟨mode == 1, false⟩ }).wake b

/-- BSN_MODE_CTL[b] is written by PF0: refused out of service, with an invalid MODE, or while the basin is busy; the current
mode is done at once (R29, R33). -/
def State.writeMode (s : State) (b v : Nat) : State :=
  let tok := fld v 15 8
  let mode := fld v 1 0
  if !s.dieUp (b / 8) then s.dropped 399 0x7F
  else if s.outOfService.contains b then s.modeStatus b tok 5 0
  else if mode ≥ 2 then s.modeStatus b tok 3 0
  else
    let why := s.basinBusy b
    if why != 0 then s.modeStatus b tok 2 why
    else if mode == s.rf (.bsnModeSts b) 0 0 then s.modeStatus b tok 0 0
    else s.beginMode b tok mode

/-- MODE_CHANGE_WRITE (R29). -/
def execModeChangeWrite (b : Fin 96) (val : BitVec 32) (s : State) : Res := .next (s.writeMode b.val val.toNat)

/-- What no mode change preserves: caches, pools, accumulators (R31). An image in SAVE stays where it is, and the next
placement there reads it back (R252). -/
def State.wipeBasin (s : State) (b : Nat) : State :=
  let t := (((s.emptyCaches b).zeroPools b).zeroAcc b)
  { t with mtxHolder := Map.keep t.mtxHolder (fun c => coreBasin c != b) }

/-- Partition operations that waited for the basin begin (R34). -/
def State.releaseParts (s : State) : State :=
  (s.partOps.filter (fun kv => !kv.2.begun)).foldl (fun t kv => if t.partChanging kv.1 then t else t.beginPart kv.1) s

/-- A change ends: MODE and RESULT, the ready bit where the basin returns to service, a basin awake (R32, R33). A basin in
quarantine, or one that failed at BOOT_DONE, stays out of service (R275, R380). -/
def State.endMode (s : State) (b mode res : Nat) (ready : Bool) : State :=
  let t := { s with modeChg := Map.drop s.modeChg b }
  let t := ((t.setRf (.bsnModeSts b) 0 0 mode).setRf (.bsnModeSts b) 11 8 res).setRf (.bsnModeSts b) 1 1 0
  ((t.wakeEnd b).setBasinReady b (ready && !s.quarantined.contains (s.basinOwner b) &&
    !s.boot.failedBits.contains (100 + b))).releaseParts

/-- MODE_CHANGE_COMPLETE: the new mode is in force, or the Pond fallback begins (R32, R33). -/
def execModeChangeComplete (b : Fin 96) (selfTestOk : Bool) (s : State) : Res :=
  s.clocked <|
  match Map.find? s.modeChg b.val with
  | none => s.idle "no mode change is in progress"
  | some m =>
    if m.fallback then s.idle "the fallback to Pond is in progress"
    else
      let t := s.wipeBasin b.val
      if selfTestOk then .next (t.endMode b.val (b2n m.toLake) 0 true)
      else
        let t := { t with modeChg := Map.put t.modeChg b.val ⟨false, true⟩ }
        .next (t.setRf (.bsnModeSts b.val) 0 0 0)

/-- POND_FALLBACK_COMPLETE: back in Pond mode with RESULT 0x4, or out of service with RESULT 0x5 (R33). -/
def execPondFallbackComplete (b : Fin 96) (selfTestOk : Bool) (s : State) : Res :=
  s.clocked <|
  match Map.find? s.modeChg b.val with
  | none => s.idle "no mode change is in progress"
  | some m =>
    if !m.fallback then s.idle "no fallback is in progress"
    else
      let t := s.wipeBasin b.val
      if selfTestOk then .next ((t.endMode b.val 0 4 true).ras_ (rasOf 0x13 1 (b.val / 8) 0x04 b.val 1))
      else
        let t := { t with outOfService := NSet.ins t.outOfService b.val }
        .next ((t.endMode b.val 0 5 false).ras_ (rasOf 0x13 2 (b.val / 8) 0x04 b.val 2))

end Sys2Proof.Machine
end

