-- ==== Sys2Proof/Machine/Balance.lean ====
section
/-! DEFINITION. The balance group (R342, R343): joining it, and what a member does in every PERIOD. -/

namespace Sys2Proof.Machine

/-- Members of the group. -/
def State.balMembers (s : State) : Nat := s.rf .pwrBalCtl 20 16 + 1

/-- This device's member index. -/
def State.balSelf (s : State) : Nat := s.rf .pwrBalCtl 25 21

/-- Node identifier of a member. -/
def State.balNode (s : State) (i : Nat) : Nat := s.rf (.pwrBalNode i) 15 0

/-- The other members. -/
def State.balOthers (s : State) : List Nat := (List.range s.balMembers).filter (· != s.balSelf)

/-- PF0's window WIN, exported over Shared with the W right and room for 32 records (R342). -/
def State.balWindow (s : State) : Option Window :=
  (s.window? 127 (s.rf .pwrBalCtl 47 32)).filter (fun w => w.space == 1 && w.w && w.len ≥ 1024)

/-- PF0 holds an open session to a node. -/
def State.balOpen (s : State) (node : Nat) : Bool :=
  match s.sessFor 127 node with
  | some (_, ss) => ss.st == 0 && !ss.closing
  | none => false

/-- The conditions of R342 hold. -/
def State.balReady (s : State) : Bool :=
  s.balWindow.isSome && s.balOthers.all (fun i => s.balOpen (s.balNode i)) &&
    s.rf .pwrBalCtl 63 48 ≥ s.balMembers * s.rf .pwrCap 10 0

/-- Balancing stops: delta returns to 0 (R343). -/
def State.balStop (s : State) : State :=
  let t := (s.setRf .pwrSts 3 3 0).setRf .pwrBalSts 31 16 0
  { t with power := { t.power with balRecs := [] } }

/-- PWR_BAL_CTL is written: EN = 1 starts balancing and its first PERIOD, or is refused and sets BAL_REFUSED (R342, R343). -/
def State.writeBal (s : State) (v : Nat) : State :=
  let t := s.setReg .pwrBalCtl (Reg.written .pwrBalCtl 63 0 (s.reg .pwrBalCtl) v)
  if !bit v 0 then (t.balStop).setRf .pwrSts 2 2 0
  else if t.balReady then
    { (t.setRf .pwrSts 2 2 0).setRf .pwrSts 3 3 1 with power := { t.power with waitCyc := 0, allCyc := 0 } }
  else (t.balStop).setRf .pwrSts 2 2 1

/-- BALANCE_ENABLE (R342). -/
def execBalanceEnable (val : BitVec 64) (s : State) : Res := .next (s.writeBal val.toNat)

/-! ### One PERIOD (R343) -/

/-- The wait fraction in units of 1/65536; 0 where no cycle was charged. -/
def State.waitFrac (s : State) : Nat := if s.power.allCyc == 0 then 0 else s.power.waitCyc * 65536 / s.power.allCyc

/-- The 32 B record: node, sequence number, cap, wait fraction, each a 64-bit word. -/
def balRecord (node seq cap w : Nat) : List Byte := leBytes node 8 ++ leBytes seq 8 ++ leBytes cap 8 ++ leBytes w 8

/-- Send the record to a member by PUT into its window, on an open session; it waits while the session's window is full (R290,
R343 item 2). -/
def State.balSend (s : State) (bs : List Byte) (i : Nat) : State :=
  match s.sessFor 127 (s.balNode i) with
  | none => s
  | some (j, ss) =>
    if ss.st != 0 || ss.closing then s
    else
      let (tag, s) := s.newId
      s.respond j 0x01 { win := s.rf .pwrBalCtl 47 32, off := s.balSelf * 32, tag := tag % 2 ^ 32, last := true } bs

/-- The record of a member in this device's window: sequence number and wait fraction; none where it cannot be read. -/
def State.balRead (s : State) (w : Window) (i : Nat) : Option (Nat × Nat) :=
  match s.ctxAccess 15 w.ctx (w.base + i * 32) 32 needR with
  | .error _ => none
  | .ok (_, _, ls) =>
    let (bs, bad) := s.readLocs 0 ls
    if bad || (wordAt bs 0).toNat != s.balNode i then none else some ((wordAt bs 1).toNat, (wordAt bs 3).toNat)

/-- What is known of a member after this period: sequence last seen, and periods since it advanced. -/
def State.balNote (s : State) (w : Window) (m : Map (Nat × Nat)) (i : Nat) : Map (Nat × Nat) :=
  let old := Map.getD s.power.balRecs i (0, 3)
  match s.balRead w i with
  | some (q, _) => if q > old.1 then Map.put m i (q, 0) else Map.put m i (old.1, old.2 + 1)
  | none => Map.put m i (old.1, old.2 + 1)

/-- Clamp to plus or minus a bound. -/
def clampTo (b x : Int) : Int := max (-b) (min b x)

/-- t_self of R343 in units of 1/65536 W, from the wait fractions of F with this device's own first. -/
def balTarget (cap budget members : Nat) (own : Nat) (others : List Nat) : Int :=
  let f := own :: others
  let n := f.length
  let mean : Int := (f.sum / n : Nat)
  let t := fun (w : Nat) => clampTo ((cap * 65536 / 5 : Nat) : Int) ((mean - w) * cap)
  let ts := f.map t
  let neg := (ts.map (fun x => min x 0)).sum
  let pos := (ts.map (fun x => max x 0)).sum
  let room : Int := ((budget : Int) - (cap * n : Nat)) * 65536 - neg
  let self := t own
  let self := if self > 0 && room < pos then Int.tdiv (self * room) pos else self
  if n < members then min self 0 else self

/-- delta after one period, in W: it moves toward its target by at most 5% of the cap. -/
def balDelta (cap : Nat) (delta target : Int) : Int :=
  delta + Int.tdiv (clampTo ((cap * 65536 / 20 : Nat) : Int) (target - delta * 65536)) 65536

/-- BALANCE_PERIOD: measure, send the record, set the effective cap (R343). -/
def execBalancePeriod (s : State) : Res :=
  match s.balWindow with
  | none => s.idle "the device is not balancing"
  | some w =>
    if s.rf .pwrSts 3 3 != 1 then s.idle "the device is not balancing"
    else
      let own := s.waitFrac
      let cap := s.rf .pwrCap 10 0
      let seq := s.power.balSeq + 1
      let recs := s.balOthers.foldl (s.balNote w) []
      let fresh := s.balOthers.filter (fun i => (Map.getD recs i (0, 3)).2 < 3)
      let ws := fresh.map (fun i => match s.balRead w i with | some x => x.2 | none => 0)
      let target := balTarget cap (s.rf .pwrBalCtl 63 48) s.balMembers own ws
      let delta := balDelta cap (toSigned 16 (s.rf .pwrBalSts 31 16)) target
      let map := (s.balSelf :: fresh).foldl (fun m i => m ||| 2 ^ i) 0
      let t := s.balOthers.foldl (fun t i => t.balSend (balRecord s.nodeId seq cap own) i) s
      let t := ((t.setRf .pwrBalSts 63 32 map).setRf .pwrBalSts 31 16 (ofSigned 16 delta)).setRf .pwrBalSts 15 0 (min own 0xFFFF)
      .next { t with power := { t.power with
        balRecs := recs
        balSeq := seq
        waitCyc := 0
        allCyc := 0 } }

end Sys2Proof.Machine
end

