-- ==== Sys2Proof/Machine/Fabric.lean ====
section
/-! DEFINITION. The die fabric: edges between dies (R316 to R319), the die-to-die version (R327 to R329), and the
correlation samples (R325). -/

namespace Sys2Proof.Machine

/-- The die and edge on the other side of a Pan–Pan edge: 0 west, 1 east (Table 01-1, R10). -/
def facing (d e : Nat) : Nat × Nat :=
  if e == 0 then (if d == 0 then (6, 0) else if d == 6 then (0, 0) else (d - 1, 1))
  else (if d == 5 then (11, 1) else if d == 11 then (5, 1) else (d + 1, 0))

/-- An edge carries traffic. -/
def State.edgeUp (s : State) (d e : Nat) : Bool := s.rf (.panEdgeSts d e) 0 0 == 1

/-- The two ends of an edge, as die and edge; a Pan–Weir edge has one of its own (Table 01-1). -/
def edgeEnds (d e : Nat) : List (Nat × Nat) := if e < 2 then [(d, e), facing d e] else [(d, e)]

/-- The links of an edge that are in service (R319). -/
def State.edgeLinks (s : State) (d e : Nat) : Nat := (if e == 2 then 32 else 64) - Map.getD s.boot.linksOut (d * 3 + e) 0

/-- Put an edge into service, in the asynchronous mode, on the links that have not failed; an edge with none stays out (R318,
R319). -/
def State.startEdge (s : State) (d e : Nat) : State :=
  let t := s.setRf (.panEdgeSts d e) 39 32 (s.edgeLinks d e)
  if s.edgeLinks d e == 0 then t else (t.setRf (.panEdgeSts d e) 0 0 1).setRf (.panEdgeSts d e) 3 2 2

/-- Take an edge out of service. -/
def State.stopEdge (s : State) (d e : Nat) : State := (s.setRf (.panEdgeSts d e) 0 0 0).setRf (.panEdgeSts d e) 3 2 0

/-- Both Pan–Pan edges of a die become asynchronous before a step change (R318). -/
def State.edgesAsync (s : State) (d : Nat) : State :=
  [0, 1].foldl (fun t e =>
    let f := facing d e
    let t := if t.edgeUp d e then t.setRf (.panEdgeSts d e) 3 2 2 else t
    if t.edgeUp f.1 f.2 then t.setRf (.panEdgeSts f.1 f.2) 3 2 2 else t) s

/-- EDGE_FLIT_REPLAY: a flit with a CRC mismatch is replayed and counted (R319). -/
def execEdgeFlitReplay (d : Fin 12) (edge : Fin 3) (s : State) : Res :=
  let r := Reg.panEdgeSts d.val edge.val
  if s.edgeUp d.val edge.val then .next (s.setRf r 63 48 (satInc 16 (s.rf r 63 48)))
  else s.idle "the edge is down"

/-- A link of an edge end leaves service; with none left the edge is routed around (R319). -/
def State.loseLink (s : State) (d e : Nat) : State :=
  let t := { s with boot := { s.boot with linksOut := Map.put s.boot.linksOut (d * 3 + e) (Map.getD s.boot.linksOut (d * 3 + e) 0 + 1) } }
  let t := t.setRf (.panEdgeSts d e) 39 32 (t.edgeLinks d e)
  if t.edgeLinks d e == 0 then t.stopEdge d e else t

/-- EDGE_LINK_OUT_OF_SERVICE: a link leaves service at both ends of its edge (R319). -/
def execEdgeLinkOutOfService (d : Fin 12) (edge : Fin 3) (s : State) : Res :=
  if s.edgeUp d.val edge.val then
    .next (((edgeEnds d.val edge.val).foldl (fun (t : State) x => t.loseLink x.1 x.2) s).ras_
      (rasOf 0x08 1 d.val 0x05 edge.val 0))
  else s.idle "the edge is down"

/-- EDGE_MESOCHRONOUS_RETURN: both dies of a Pan–Pan edge have held one step for 1 µs (R318); not below version 0x22
(R328). -/
def execEdgeMesochronousReturn (d : Fin 12) (edge : Fin 2) (s : State) : Res :=
  let f := facing d.val edge.val
  if s.edgeUp d.val edge.val && s.edgeUp f.1 f.2 && s.rf (.panEdgeSts d.val edge.val) 3 2 == 2 &&
      s.rf .glbD2dVer 7 0 ≥ 0x22 && s.dieStep d.val == s.dieStep f.1 &&
      (Map.find? s.power.stepChg d.val).isNone && (Map.find? s.power.stepChg f.1).isNone then
    .next ((s.setRf (.panEdgeSts d.val edge.val) 3 2 1).setRf (.panEdgeSts f.1 f.2) 3 2 1)
  else s.idle "the dies do not hold one step"

/-- SET reaches a die, which configures its three edges. Its Weir edge starts, and each Pan–Pan edge whose other end has been set
to the same version; at another version the edge stays down, and the mismatch is logged (R327). -/
def State.setDie (s : State) (d ver : Nat) : State :=
  let t := ([0, 1, 2].foldl (fun (t : State) e => t.setRf (.panEdgeSts d e) 23 16 ver) s).startEdge d 2
  [0, 1].foldl (fun (t : State) e =>
    let f := facing d e
    let other := t.rf (.panEdgeSts f.1 f.2) 23 16
    if other == 0 then t
    else if other != ver then t.logPlain 1 15 0x05 e
    else if t.edgeUp f.1 2 then (t.startEdge d e).startEdge f.1 f.2 else t) t

/-- D2D_OFFER: out of the Weir's range it is rejected; during bring-up it becomes a candidate; a die that returns from
its own reset is sent SET when the package version lies within its offer (R327, R329). A die once rejected stays so until the
next device reset. -/
def execD2dOffer (d : Fin 12) (vmin vmax : BitVec 8) (s : State) : Res :=
  if s.boot.phase == 0 || s.dieUp d.val || (Map.find? s.boot.offers d.val).isSome || s.boot.rejected.contains d.val then
    s.idle "the die has made its offer"
  else
    let active := s.rf .glbD2dVer 7 0
    let rejectDie := { s with boot := { s.boot with rejected := NSet.ins s.boot.rejected d.val } }
    if vmax.toNat < 0x20 || vmin.toNat > 0x23 then .next rejectDie
    else if active == 0 then
      .next { s with boot := { s.boot with offers := Map.put s.boot.offers d.val (vmin.toNat, vmax.toNat) } }
    else if vmin.toNat ≤ active && active ≤ vmax.toNat then
      .next ({ s with boot := { s.boot with offers := Map.put s.boot.offers d.val (vmin.toNat, vmax.toNat) } }.setDie d.val active)
    else .next rejectDie

/-- D2D_HANDSHAKE_END: the lowest candidate becomes the package version, SET is sent to every accepted die, and ACTIVE is
written (R327). -/
def execD2dHandshakeEnd (s : State) : Res :=
  if s.rf .glbD2dVer 7 0 != 0 || (s.boot.offers.isEmpty && s.boot.rejected.isEmpty) then
    s.idle "no handshake is in progress"
  else
    let ver := s.boot.offers.foldl (fun v o => min v (min o.2.2 0x23)) 0x23
    let late := (s.boot.offers.filter (fun o => o.2.1 > ver)).map (fun o => o.1)
    let ok := (s.boot.offers.filter (fun o => o.2.1 ≤ ver)).map (fun o => o.1)
    if s.boot.offers.isEmpty then .next s
    else
      let t := { s with boot := { s.boot with
        rejected := late.foldl NSet.ins s.boot.rejected
        offers := Map.keep s.boot.offers ok.contains } }
      .next ((ok.foldl (fun t d => t.setDie d ver) t).setRf .glbD2dVer 7 0 ver)

/-- The number of the newest correlation sample. -/
def State.corrSeq (s : State) : Nat := (List.range 16).foldl (fun m n => max m (s.rf (.glbCorrHdr n) 31 0)) 0

/-- CORRELATION_SAMPLE: every counter is latched at once; the sample is written to GLB_CORR, the RAS log and the Bittern
(R325). -/
def execCorrelationSample (s : State) : Res :=
  if s.boot.phase == 0 || s.boot.phase == 4 then s.idle "the Weir is not running"
  else
    let q := (s.corrSeq + 1) % 2 ^ 32
    let n := q % 16
    let down := ((List.range 12).map (fun d => if s.dieUp d then 0 else 2 ^ d)).sum
    let t := (List.range 12).foldl (fun t d =>
      t.setReg (.glbCorrPan n d) (if s.dieUp d then s.dieTime d else 0)) (s.setReg (.glbCorrWeir n) s.weirCtr.toNat)
    let t := t.setReg (.glbCorrHdr n) (down * 2 ^ 32 + q)
    .next ({ t with bitternLog := { rasOf 0x11 0 15 0x08 0 q with time := t.weirCtr.toNat } :: t.bitternLog }.ras_
      (rasOf 0x11 0 15 0x08 0 q))

end Sys2Proof.Machine
end

