-- ==== Sys2Proof/Machine/Ladder.lean ====
section
/-! DEFINITION. The reset ladder (R368 to R370, R373): asking for a step, the steps that meet, the Bittern collections, and
what PF0 asks through RST_REQ (Table 22-5). LEVEL 6 is a partition reset that the ladder begins (R371). -/

namespace Sys2Proof.Machine

/-! ### Steps in progress -/

/-- The partition that owns the unit of a step, 127 for PF0 and for the package. -/
def State.resetPart (s : State) (r : ResetReq) : Nat :=
  if r.level == 6 then r.unit else if r.level ≤ 2 then s.basinOwner (coreBasin r.unit) else 127

/-- The die of the unit of a step, 15 for one that no Pan die holds. -/
def resetDie (level unit : Nat) : Nat := if level ≤ 2 then coreDie unit else if level == 3 then unit else 15

/-- The scope of a step lies inside that of another (R373). -/
def State.inScope (s : State) (r of : ResetReq) : Bool :=
  match of.level with
  | 5 => true
  | 4 => r.level != 5
  | 3 => (r.level == 3 && r.unit == of.unit) || (r.level ≤ 2 && coreDie r.unit == of.unit)
  | 6 => (r.level == 6 && r.unit == of.unit) || (r.level ≤ 2 && s.basinOwner (coreBasin r.unit) == of.unit)
  | 2 => r.level ≤ 2 && r.unit == of.unit
  | _ => r.level == 1 && r.unit == of.unit && r.ekind == of.ekind && r.eidx == of.eidx

/-- Suspects on the units of a step. -/
def State.resetSuspects (s : State) (r : ResetReq) : List Suspect :=
  s.suspects.filter (fun x => s.inScope ⟨2, x.core, 0, 0, false, false, false, false, 0, 0, 0, 0, 0, 0⟩ { r with level := max r.level 2 })

/-! ### Collections (R368, R369, Table 22-2) -/

/-- STEP of a collection header; the table has no code for a cold reset, whose STEP is a free value. -/
def State.stepCode (s : State) (level : Nat) : Nat × State :=
  match level with
  | 1 => (1, s)
  | 2 => (2, s)
  | 6 => (3, s)
  | 3 => (4, s)
  | 4 => (5, s)
  | _ => (s.fresh.1.toNat % 16, s.fresh.2)

/-- The slots a collection takes minus 1: what is collected decides, so a free value does; a header alone takes one. -/
def State.slotCount (s : State) (skipped : Bool) : Nat × State := if skipped then (0, s) else (s.fresh.1.toNat % 16, s.fresh.2)

/-- The eight words of a collection header. -/
def collectionHeader (seq step slots part core corr nsusp : Nat) (skipped missing : Bool) (r : ResetReq) : List Word :=
  [ BitVec.ofNat 64 (seq * 2 ^ 32 + r.trigger * 2 ^ 24 + step * 2 ^ 20 + slots * 2 ^ 16 + 2 ^ 8 + b2n skipped * 2 + b2n missing),
    BitVec.ofNat 64 (resetDie r.level r.unit * 2 ^ 48 + part * 2 ^ 41 + core * 2 ^ 30 + r.ctx),
    BitVec.ofNat 64 r.rasSeq, BitVec.ofNat 64 corr, BitVec.ofNat 64 r.dieTime, BitVec.ofNat 64 r.weirTime, BitVec.ofNat 64 nsusp, 0 ]

/-- What the queue manager holds of a queue, and its status mirror entry (R368). -/
def State.queueBody (s : State) (q : Nat) : List Nat :=
  let x := s.queue q
  [q, (s.mirror q).1, (s.mirror q).2, x.ctx, x.owner, x.head.toNat, x.tail.toNat, x.cmpl.toNat, x.st, x.last, x.phase, x.size, x.ring]

/-- A WAIT or BARRIER packet that has started and not completed, or stands at the start point, with its signal word read at .dev
scope (R368). -/
def State.waitBody (s : State) (q : Nat) : List Word :=
  let x := s.queue q
  ((x.started.map (fun e => e.pkt) ++ x.fetched).filter (fun p => p.type == 6 || p.type == 8)).flatMap (fun p =>
    p.words ++ (match s.queAccess x p.addr 8 needR with
      | .ok t ls _ => [BitVec.ofNat 64 (ofLe (t.readLocs 0 ls).1)]
      | _ => []))

/-- The words of a mask stack entry. -/
def MaskEntry.words (e : MaskEntry) : List Word := [e.f ++ e.m, e.e.setWidth 64]

/-- The control record of a group (Table 04-1): all of its state but the vector and scalar registers. -/
def controlBody (k : Nat) (g : Group) : List Word :=
  [BitVec.ofNat 64 k, g.pc.setWidth 64, BitVec.ofNat 64 g.stack.length, (g.act ++ g.present)] ++
    (List.range 16).map (fun i => (Map.getD g.p i 0).setWidth 64) ++
    (List.range 16).flatMap (fun i => [(Map.getD g.t i 0).setWidth 64, (Map.getD g.t i 0 >>> 64).setWidth 64]) ++
    g.stack.flatMap MaskEntry.words

/-- A range-scoreboard registration. -/
def rangeBody (x : Access1) : List Nat := [x.1.1, x.1.2, b2n x.2]

/-- The command queues of the engines of cores, with their cursors and registrations (R368). -/
def State.commandBody (s : State) (p : Nat → Bool) : List Nat :=
  (s.mtx.filter (fun c => p c.org.core)).flatMap (fun c => c.id :: c.arr :: c.set :: c.org.w0.toNat :: (c.ranges).flatMap rangeBody) ++
    (s.dma.filter (fun c => p c.org.core)).flatMap (fun c =>
      c.id :: c.chan :: c.kind :: c.daddr :: c.cursor :: c.done ++ (c.ranges).flatMap rangeBody) ++
    (s.rmo.filter (fun c => p c.org.core)).flatMap (fun c => c.id :: c.next :: c.acked :: (c.ranges).flatMap rangeBody) ++
    (s.routes.filter (fun c => p c.org.core)).flatMap (fun c => [c.id, c.eng, c.score, c.list_, c.count])

/-- The cores of the unit of a step. -/
def State.unitCores (s : State) (r : ResetReq) (core : Nat) : Bool :=
  s.inScope ⟨2, core, 0, 0, false, false, false, false, 0, 0, 0, 0, 0, 0⟩ { r with level := max r.level 2 }

/-- What a collection holds (R368): the queues of the suspects' contexts, the Weir's copies of the context records, the pending
waits, the control records of the groups on the unit, and the engines' commands. -/
def State.collectionBody (s : State) (r : ResetReq) : List Word :=
  let cs := ((s.resetSuspects r).map (fun x => x.ctx)).dedup
  let qs := (s.queues.filter (fun kv => cs.contains kv.2.ctx)).map Prod.fst
  (qs.flatMap s.queueBody).map (BitVec.ofNat 64) ++
    (cs.filterMap (Map.find? s.ctxs)).flatMap (fun a => [a.w0, a.seed, a.w2, a.w3, a.w4]) ++
    qs.flatMap s.waitBody ++
    (s.groups.filter (fun kv => s.unitCores r (kv.1 / 128))).flatMap (fun kv => controlBody kv.1 kv.2) ++
    (s.commandBody (s.unitCores r)).map (BitVec.ofNat 64)

/-- Slot i belongs to a collection. -/
def Collection.has (c : Collection) (i : Nat) : Bool := (i + 128 - c.slot) % 128 < c.slots

/-- Write a collection into the ring, over the oldest that stand in its slots. -/
def State.collect (s : State) (r : ResetReq) (skipped missing : Bool) : State :=
  let (step, s) := s.stepCode r.level
  let (n, s) := s.slotCount skipped
  let seq := (s.rf .rstBtnSts 63 32 + 1) % 2 ^ 32
  let first := match s.bittern.head? with | some c => (c.slot + c.slots) % 128 | none => 0
  let core := if r.level ≤ 2 then r.unit else 0
  let ws := collectionHeader seq step n (s.resetPart r) core s.corrSeq (s.resetSuspects r).length skipped missing r
  let new : Collection := ⟨first, n + 1, ws, if skipped then [] else s.collectionBody r⟩
  let keep := s.bittern.filter (fun c => !(List.range 128).any (fun i => c.has i && new.has i))
  ({ s with bittern := new :: keep }.setRf .rstBtnSts 63 32 seq).setRf .rstBtnSts 6 0 first

/-! ### Asking for a step -/

/-- The last step of a superseded one abandons its suspects: they end unfailed (R373). -/
def State.abandon (s : State) (xs : List Suspect) : State :=
  let ids := xs.map (fun x => x.id)
  { s with
    suspects := s.suspects.filter (fun x => !ids.contains x.id)
    launches := Map.mapV s.launches (fun k l => if ids.contains k then { l with suspect := false } else l)
    queues := Map.mapV s.queues (fun _ q => { q with started := q.started.map (fun (e : Started) =>
      if xs.any (fun x => x.isDma && e.live.contains x.id) then
        { e with live := e.live.filter (fun i => !ids.contains i), status := 2, detail := 0x0B } else e) }) }

/-- A step asked for now. -/
def State.newReset (s : State) (level unit ekind eidx trigger ctx : Nat) : ResetReq :=
  ⟨level, unit, ekind, eidx, false, false, false, false, trigger, ctx, if trigger == 0 then 0 else s.reg .rasStoreSeq,
    s.dieTime (resetDie level unit), s.weirCtr.toNat, s.weirCtr.toNat⟩

/-- The unit of an engine or core step lies in a partition that is being reset or removed (R373). -/
def State.insidePart (s : State) (r : ResetReq) : Bool := r.level ≤ 2 && (Map.find? s.partOps (s.basinOwner (coreBasin r.unit))).isSome

/-- Ask for a step: merged into one of its scope or wider; else narrower ones are superseded (R373). A step that proceeds
without a collection writes its header at once (R368). -/
def State.askReset (s : State) (r : ResetReq) (skip : Bool) : State :=
  if s.insidePart r then s
  else if s.resetQ.any (fun e => s.inScope r e) then
    { s with resetQ := s.resetQ.map (fun e => if s.inScope r e then { e with pf0 := e.pf0 || r.pf0 } else e) }
  else
    let gone := s.resetQ.filter (fun e => s.inScope e r)
    let s := s.abandon (if r.escalated then [] else gone.flatMap s.resetSuspects)
    let s := if skip then s.collect r true false else s
    { s with resetQ := s.resetQ.filter (fun e => !s.inScope e r) ++ [{ r with collected := skip }] }.noteActive

/-- The step that a COLLECTION_COMPLETE ends: the first whose collection runs. -/
def State.collecting (s : State) : Option ResetReq := s.resetQ.find? (fun r => !r.collected)

/-- COLLECTION_COMPLETE: the unit's state is in the Bittern and the step runs; a partition step is begun as Table 16-5 with
TIMEOUT 0 (R368, R370). -/
def execCollectionComplete (partial_ : Bool) (s : State) : Res :=
  match s.collecting with
  | none => s.idle "no collection runs"
  | some r =>
    let t := s.collect r false partial_
    let t := { t with resetQ := t.resetQ.map (fun e => if e == r then { e with collected := true, applied := r.level == 6, began := t.weirCtr.toNat } else e) }
    .next (if r.level == 6 then (if t.partState r.unit == 1 then t.startPart r.unit 1 0 false else t.hurryPart r.unit) else t)

/-- The Weir has stopped answering: warm device reset (Table 22-1). -/
def State.requestLogged (s : State) (level unit event die unitCode : Nat) : State :=
  let s := s.ras_ (rasOf 0x0E 2 die unitCode (if level == 3 then unit else 0) event)
  s.askReset (s.newReset level unit 0 0 event 0) false

/-- WEIR_NO_RESPONSE: warm device reset (Table 22-1). -/
def execWeirNoResponse (s : State) : Res := .next (s.requestLogged 4 0 4 15 0x08)

/-- SHARED_UNIT_NO_RESPONSE: die reset (Table 22-1). -/
def execSharedUnitNoResponse (d : Fin 12) (s : State) : Res := .next (s.requestLogged 3 d.val 4 d.val 0x09)

/-- SLUICE_TIMEOUT: gates that have not closed within 1 ms cause warm device reset (R374). -/
def execSluiceTimeout (p : Fin 96) (s : State) : Res :=
  if s.quarantined.contains p.val then .next (s.askReset (s.newReset 4 0 0 0 0x30 0) false)
  else s.idle "no gates of the partition close"

/-! ### RST_REQ (Table 22-5) -/

/-- The engine exists on the core. -/
def engineExists (core kind idx : Nat) : Bool :=
  match kind with
  | 0 => idx == 0 && (coreKind core == 0 || coreKind core == 3)
  | 1 => if coreKind core == 1 then idx < 4 else if coreKind core == 3 then idx < 13 else idx == 0
  | 2 => idx == 0
  | 3 => if core < 1024 then idx == 0 else idx < 7
  | _ => false

/-- The unit that RST_REQ names exists. -/
def State.rstUnit (s : State) (r : ResetReq) : Bool :=
  match r.level with
  | 1 => s.coreValid r.unit && engineExists r.unit r.ekind r.eidx
  | 2 => s.coreValid r.unit
  | 3 => r.unit < 12
  | 4 => true
  | 5 => true
  | _ => false

/-- RST_REQ is written. -/
def State.writeRstReq (s : State) (v : Nat) : State :=
  let s := s.setRf .rstSts 39 32 (fld v 39 32)
  let r : ResetReq := { s.newReset (fld v 3 0) (fld v 26 16) (fld v 6 4) (fld v 10 7) 0 0 with pf0 := true }
  let r : ResetReq := if r.level ≥ 4 then { r with unit := 0 } else r
  if !s.rstUnit r then s.setRf .rstSts 11 8 3
  else if s.quarantined.contains (s.resetPart r) || s.insidePart r || s.resetQ.any (fun e => s.inScope r e && !s.inScope e r) then
    s.setRf .rstSts 11 8 4
  else (s.setRf .rstSts 11 8 1).askReset r false

/-- RST_REQ_ENGINE (R370). -/
def execRstReqEngine (val : BitVec 64) (s : State) : Res := .next (s.writeRstReq val.toNat)
/-- RST_REQ_CORE (R370). -/
def execRstReqCore (val : BitVec 64) (s : State) : Res := .next (s.writeRstReq val.toNat)
/-- RST_REQ_DIE (R370). -/
def execRstReqDie (val : BitVec 64) (s : State) : Res := .next (s.writeRstReq val.toNat)
/-- RST_REQ_WARM (R370). -/
def execRstReqWarm (val : BitVec 64) (s : State) : Res := .next (s.writeRstReq val.toNat)
/-- RST_REQ_COLD (R370). -/
def execRstReqCold (val : BitVec 64) (s : State) : Res := .next (s.writeRstReq val.toNat)

end Sys2Proof.Machine
end

