-- ==== Sys2Proof/Machine/Messages.lean ====
section
/-! DEFINITION. Imwicel as received: the checks of a header (R284), order and duplicates (R290), the operations at this
target (R292), responses and acknowledgements (R291, R292), and the handshake (R287, R288, R295). -/

namespace Sys2Proof.Machine

/-! ### Form (R284) -/

/-- Count a dropped frame or message on its port. -/
def State.rxDrop (s : State) (k : Nat) : State := s.setReg (.lnkRxDrop k) ((s.reg (.lnkRxDrop k) + 1) % 2 ^ 64)

/-- A header field is used by an opcode (Table 17-6, Table 17-7). A COMP or response that reports a failure names the
window, row and offset that failed. -/
structure Uses where
  psn : Bool := false
  win : Bool := false
  row : Bool := false
  tag : Bool := false
  off : Bool := false
  atom : Bool := false
  ndata : Bool := false
  status : Bool := false

def usesOf (opc : Nat) (failed : Bool) : Uses :=
  match opc with
  | 0x01 => { psn := true, win := true, tag := true, off := true }
  | 0x02 => { psn := true, win := true, tag := true, off := true }
  | 0x03 => { psn := true, tag := true, off := true, status := true, win := failed, row := failed }
  | 0x04 => { psn := true, win := true, tag := true, off := true, atom := true }
  | 0x05 => { psn := true, tag := true, status := true, win := failed, row := failed, off := failed }
  | 0x06 => { psn := true, win := true, tag := true, off := true }
  | 0x07 => { psn := true, win := true, tag := true, off := true }
  | 0x08 => { psn := true, win := true, tag := true, off := true, ndata := true }
  | 0x09 => { psn := true, win := true, row := true, tag := true, off := true }
  | 0x0A => { psn := true, win := true, tag := true, off := true, atom := true }
  | 0x0B => { psn := true, tag := true, status := true, win := failed, row := failed, off := failed }
  | 0x10 => { psn := true }
  | 0x11 => { status := true }
  | 0x22 => { status := true }
  | _ => {}

/-- The payload length an opcode allows (Table 17-7). -/
def lenOk (m : Msg) : Bool :=
  let n := m.payload.length
  match m.opc with
  | 0x02 => n == 8 && ofLe m.payload ≤ 4096
  | 0x03 => n ≤ 4096
  | 0x04 => n == (if m.aop == 9 then 16 else 8)
  | 0x05 => n == 4 || n == 8 || (n == 0 && m.status != 0)
  | 0x06 => n == 8
  | 0x08 => n == 8
  | 0x10 => n == 0 || n == 8
  | 0x20 => n == 32
  | 0x21 => n == 32
  | 0x0A => n ≤ 4096 && n % rmoSize m.ty == 0
  | opc => if opc == 0x01 || opc == 0x07 || opc == 0x09 then n ≤ 4096 else n == 0

/-- A type or operation code that RATOM or RED may carry (Table 05-7). -/
def atomOk (m : Msg) : Bool :=
  if m.opc == 0x04 then m.ty ≤ 4 && m.aop ≤ 0xA && (m.aop != 0xA || m.ty == 4)
  else if m.opc == 0x0A then m.aop == 0xA && (m.ty == 4 || m.ty == 5) else true

/-- A message has the form of R284. -/
def msgFormed (m : Msg) : Bool :=
  let u := usesOf m.opc (m.status != 0)
  fld m.w0.toNat 15 13 == 0 && fld m.w0.toNat 12 0 == m.payload.length && fld m.w2.toNat 15 0 == 0 &&
    fld m.w5.toNat 54 48 == 0 && fld m.w5.toNat 23 0 == 0 && (u.psn || m.psn == 0) && (u.win || m.win == 0) &&
    (u.row || m.row == 0) && (u.tag || m.tag == 0) && (u.off || m.off == 0) &&
    (u.atom || (m.aop == 0 && m.ty == 0)) && (u.ndata || m.ndata == 0) && (u.status || m.status == 0) &&
    (m.opc != 0x20 || m.dstInc == 0) && lenOk m && atomOk m

/-- The session that a message names, held by the sender's node and entry. -/
def State.boundSess (s : State) (m : Msg) : Option Session :=
  match Map.find? s.sessions m.dstSess with
  | some ss => if ss.peer == m.srcNode && ss.remoteSess == m.srcSess && !ss.closing then some ss else none
  | none => none

/-- The message comes from the session's peer, or is the refusal of a device that has this device's own node identifier
(R295). -/
def State.fromPeer (s : State) (ss : Session) (m : Msg) : Bool :=
  ss.peer == m.srcNode || (m.opc == 0x22 && m.status == 2 && m.srcNode == s.nodeId)

/-- The session of a message, closing ones with it. -/
def State.msgSess (s : State) (m : Msg) : Option Session :=
  match Map.find? s.sessions m.dstSess with
  | some ss => if s.fromPeer ss m && ss.remoteSess == m.srcSess then some ss else none
  | none => none

/-- Answer a message with NAK or REFUSE, back to where it came from (Table 17-9). -/
def State.answer (s : State) (m : Msg) (opc reason : Nat) : State :=
  s.emit (.message (s.mkMsg (match s.msgSess m with | some ss => ss.version | none => 0x12) opc m.srcNode m.srcInc m.srcSess
    m.dstSess 0 { status := reason } [] m.subport))

/-! ### Operations at this target -/

/-- A partition's work is being squashed (Table 16-5 step 4 on). -/
def State.squashing (s : State) (p : Nat) : Bool :=
  match Map.find? s.partOps p with
  | some o => !o.draining
  | none => false

/-- What a sequenced message asks of this target, if anything. -/
def msgOp (m : Msg) : Option TOp :=
  match m.opc with
  | 0x01 => some (.write m.payload)
  | 0x07 => some (.write m.payload)
  | 0x09 => some (.write m.payload)
  | 0x02 => some (.read (ofLe m.payload))
  | 0x04 => some (.atomic m.aop m.ty (ofLe (m.payload.take 8)) (ofLe (m.payload.drop 8)))
  | 0x06 => some (.signal (ofLe m.payload))
  | 0x08 => some (.signal (ofLe m.payload))
  | 0x0A => some (.reduce m.ty m.payload)
  | _ => none

/-- The opcode that answers an operation: its response, or COMP. -/
def answerOpc (m : Msg) : Nat := if m.opc == 0x02 then 0x03 else if m.opc == 0x04 then 0x05 else 0x0B

/-- The last message of a received RMO has been applied: COMP answers it unless a failure has (R292). -/
def State.endRmo (s : State) (i tag : Nat) : State :=
  match Map.find? s.sessions i with
  | none => s
  | some ss =>
    let t := s.modSess i (fun x => { x with tags := Map.drop x.tags tag })
    if (Map.getD ss.tags tag (0, 0)).2 == 0 then t.respond i 0x0B { tag := tag } [] else t

/-- An operation is refused or fails: its requester hears the status once per RMO. -/
def State.opFailed (s : State) (i : Nat) (m : Msg) (code off : Nat) : State :=
  match Map.find? s.sessions i with
  | none => s
  | some ss =>
    let t := Map.getD ss.tags m.tag (0, 0)
    let u := if t.2 != 0 then s
      else (s.modSess i (fun x => { x with tags := Map.put x.tags m.tag (t.1, code) })).respond i (answerOpc m)
        { win := m.win, row := m.row, tag := m.tag, off := off, status := code } []
    if m.last then u.modSess i (fun x => { x with tags := Map.drop x.tags m.tag }) else u

/-- An operation is applied: a response goes back; COMP only after the RMO's last message (R292). The header names no last
message of a PUT, an IPUT or a RED; the target is taken to know it (log entry 111). -/
def State.opApplied (s : State) (i : Nat) (m : Msg) (bs : List Byte) : State :=
  match Map.find? s.sessions i with
  | none => s
  | some ss =>
    let t := Map.getD ss.tags m.tag (0, 0)
    match m.opc with
    | 0x02 => s.respond i 0x03 { tag := m.tag, off := m.off } bs
    | 0x04 => s.respond i 0x05 { tag := m.tag } bs
    | 0x06 => s.respond i 0x0B { tag := m.tag } []
    | 0x07 => s.modSess i (fun x => { x with tags := Map.put x.tags m.tag (t.1 + 1, t.2) })
    | 0x08 => s.endRmo i m.tag
    | _ =>
      if m.last then s.endRmo i m.tag
      else s.modSess i (fun x => { x with tags := Map.put x.tags m.tag (t.1 + 1, t.2) })

/-- A message of another node consumes poison at its target: the consumption is logged, with the window's context (R352). -/
def State.targetPoison (s : State) (p win : Nat) : State :=
  s.ras_ { rasOf 0x03 2 15 0x08 0 7 with
    part := p
    ctx := match s.window? p win with | some w => if w.space == 2 then 0 else w.ctx | none => 0 }

/-- Apply a message that asks for an operation; none while it has to wait. -/
def State.applyOp (s : State) (i : Nat) (ss : Session) (m : Msg) (o : TOp) : Option State :=
  let t := Map.getD ss.tags m.tag (0, 0)
  if s.squashing ss.part then some ((if t.2 == 0 then s.countSquash ss.part 1 else s).opFailed i m 0x0A m.off)
  else if m.opc == 0x08 && t.2 != 0 then some (s.modSess i (fun x => { x with tags := Map.drop x.tags m.tag }))
  else if m.opc == 0x08 && t.1 < m.ndata then none
  else match s.applyT ss.part m.win m.off o with
    | .wait => none
    | .fail r => some ((if r.code == 7 then r.s.targetPoison ss.part m.win else r.s).opFailed i m r.code r.off)
    | .ok u bs => some (u.opApplied i m bs)

/-- The RMO that a response names. -/
def State.rmoTagged (s : State) (ss : Session) (tag : Nat) : Option RmoCmd :=
  s.rmo.find? (fun c => c.on ss && c.id % 2 ^ 32 == tag)

/-- A response or COMP reaches its RMO; an RMO that has ended already takes no notice (R190, R292). -/
def State.applyAnswer (s : State) (ss : Session) (m : Msg) : State :=
  match s.rmoTagged ss m.tag with
  | none => s
  | some c =>
    if m.status != 0 then s.failRmo c ⟨m.status, m.win, m.row, m.off, c.partly⟩
    else match m.opc with
      | 0x03 =>
        let s := s.rmoResult c m.off m.payload
        if c.acked + 1 ≥ c.count then { s with rmo := s.rmo.filter (fun o => o.id != c.id) }
        else s.putRmo { c with acked := c.acked + 1 }
      | 0x05 =>
        let s := s.rmoResult c m.off m.payload
        { s with rmo := s.rmo.filter (fun o => o.id != c.id) }
      | _ => { s with rmo := s.rmo.filter (fun o => o.id != c.id) }

/-- Apply the next message in PSN order; none while it has to wait. -/
def State.applyMsg (s : State) (i : Nat) (ss : Session) (m : Msg) : Option State :=
  match msgOp m with
  | some o => s.applyOp i ss m o
  | none => some (s.applyAnswer ss m)

/-- Apply what is next in PSN order from the reorder buffer (R290). -/
def State.drainSess (s : State) (i : Nat) : Nat → State
  | 0 => s
  | f + 1 =>
    match Map.find? s.sessions i with
    | none => s
    | some ss =>
      match ss.heldMsgs.find? (fun h => h.1 == ss.rcvPsn) with
      | none => s
      | some h =>
        match s.applyMsg i ss h.2 with
        | none => s
        | some t => (t.modSess i (fun x => { x with
            heldMsgs := x.heldMsgs.filter (fun y => y.1 != h.1)
            rcvPsn := if x.rcvPsn == h.1 then (h.1 + 1) % 2 ^ 24 else x.rcvPsn })).drainSess i f

/-- Bytes held in the reorder buffer of a port. -/
def State.heldBytes (s : State) (k : Nat) : Nat :=
  (s.sessions.map (fun kv => ((kv.2.heldMsgs.filter (fun h => h.2.subport.val / 4 == k)).map (fun h => h.2.bytes)).sum)).sum

/-- A sequenced message of an open session (R290): accepted into the window, acknowledged again, or dropped. -/
def State.acceptSeq (s : State) (i : Nat) (ss : Session) (m : Msg) : State :=
  let ahead := (m.psn + 2 ^ 24 - ss.rcvPsn) % 2 ^ 24
  let k := m.subport.val / 4
  if ahead ≥ 8192 then (if ahead ≥ 2 ^ 23 then s.sendAck i else s)
  else if ss.heldMsgs.any (fun h => h.1 == m.psn) then (s.drainSess i 8193).sendAck i
  else if ahead != 0 && s.heldBytes k + m.bytes > 4 * 2 ^ 20 then s.rxDrop k
  else
    let s := (s.modSess i (fun x => { x with
      heldMsgs := x.heldMsgs ++ [(m.psn, m)]
      ackCount := x.ackCount + 1 })).drainSess i 8193
    match Map.find? s.sessions i with
    | some x => if x.ackCount ≥ 32 then s.sendAck i else s
    | none => s

/-- An opcode or form that the session's version lacks (R289). -/
def lacks (ver : Nat) (m : Msg) : Bool :=
  (m.opc == 0x09 && ver < 0x12) || (m.opc == 0x0A && m.ty == 5 && ver < 0x12) ||
    (m.opc == 0x10 && (m.payload.isEmpty != (ver < 0x11)))

/-- A sequenced message arrives (Table 17-9, R289, R290). -/
def State.recvSeq (s : State) (m : Msg) : State :=
  let k := m.subport.val / 4
  if !msgFormed m then s.rxDrop k
  else if m.dstInc != s.incarnation then s.answer m 0x11 5
  else match s.msgSess m with
    | none => s.answer m 0x11 6
    | some ss =>
      if ss.st != 0 then s.answer m 0x11 6
      else if m.srcInc != ss.peerInc then s.answer m 0x11 5
      else if lacks ss.version m then s.rxDrop k
      else s.acceptSeq m.dstSess ss m

/-- A received message with the opcode of its command, on a sub-port that is up. -/
def recv (opc : Nat) (m : Msg) (s : State) (k : State → State) : Res :=
  if m.opc != opc then s.idle "the message has another opcode"
  else if !s.subUp m.subport.val then s.idle "the sub-port is down"
  else .next (k s)

/-- PUT data (R290). -/
def execPutData (m : Msg) (s : State) : Res := recv 0x01 m s (fun s => s.recvSeq m)
/-- GET request (R290). -/
def execGetRequest (m : Msg) (s : State) : Res := recv 0x02 m s (fun s => s.recvSeq m)
/-- GET response (R292). -/
def execGetResponse (m : Msg) (s : State) : Res := recv 0x03 m s (fun s => s.recvSeq m)
/-- RATOM (R290). -/
def execRatomMessage (m : Msg) (s : State) : Res := recv 0x04 m s (fun s => s.recvSeq m)
/-- RATOM response (R292). -/
def execRatomResponse (m : Msg) (s : State) : Res := recv 0x05 m s (fun s => s.recvSeq m)
/-- SIG (R290). -/
def execSigMessage (m : Msg) (s : State) : Res := recv 0x06 m s (fun s => s.recvSeq m)
/-- PUTS data (R290). -/
def execPutsData (m : Msg) (s : State) : Res := recv 0x07 m s (fun s => s.recvSeq m)
/-- PUTS signal (R292). -/
def execPutsSignal (m : Msg) (s : State) : Res := recv 0x08 m s (fun s => s.recvSeq m)
/-- IPUT row (R290). -/
def execIputRow (m : Msg) (s : State) : Res := recv 0x09 m s (fun s => s.recvSeq m)
/-- RED (R290). -/
def execRedMessage (m : Msg) (s : State) : Res := recv 0x0A m s (fun s => s.recvSeq m)
/-- COMP (R292). -/
def execComp (m : Msg) (s : State) : Res := recv 0x0B m s (fun s => s.recvSeq m)

/-- ACK_TIMER: 2 µs after an unacknowledged arrival (R290). The next message in order, which had to wait, is tried again. -/
def execAckTimer (idx : Nat) (s : State) : Res :=
  match Map.find? s.sessions idx with
  | none => s.idle "no such session"
  | some ss =>
    if ss.st != 0 || (ss.ackCount == 0 && !ss.heldMsgs.any (fun h => h.1 == ss.rcvPsn)) then
      s.idle "no arrival awaits an acknowledgement"
    else .next ((s.drainSess idx 8193).sendAck idx)

/-! ### ACK and NAK (R291) -/

/-- Messages that a peer which was reset sends with its new incarnation: NAK 0x05 and REFUSE (R291, Table 17-12). -/
def restarted (m : Msg) : Bool := m.opc == 0x22 || (m.opc == 0x11 && m.status == 5)

/-- Check an unsequenced message, then `k`: one that carries an old incarnation of this device is answered with NAK 0x05 whether
or not its session exists, but no NAK is answered (R295). -/
def State.recvCtl (s : State) (m : Msg) (k : Session → State) : State :=
  let stale := if m.opc == 0x11 then s else s.answer m 0x11 5
  if !msgFormed m then s.rxDrop (m.subport.val / 4)
  else if m.dstInc != s.incarnation then stale
  else match s.msgSess m with
    | none => s
    | some ss => if ss.known && m.srcInc != ss.peerInc && !restarted m then stale else k ss

/-- PSNs acknowledged by a cumulative acknowledgement. -/
def acked (ack psn : Nat) : Bool := (ack + 2 ^ 24 - psn) % 2 ^ 24 < 2 ^ 23

/-- The bitmap of an ACK marks a PSN (Table 17-11). -/
def ackMarks (ack bm psn : Nat) : Bool :=
  let j := (psn + 2 ^ 24 - ack - 2) % 2 ^ 24
  j < 64 && bit bm j

/-- ACK: the cumulative acknowledgement advances, the bitmap marks, and what the window held back is sent (R291). -/
def execAck (m : Msg) (s : State) : Res :=
  recv 0x10 m s (fun s => s.recvCtl m (fun ss =>
    if ss.st != 0 || lacks ss.version m then s.rxDrop (m.subport.val / 4)
    else
      let moved := ss.sent.any (fun x => acked m.psn x.psn)
      let bm := ofLe m.payload
      (s.modSess m.dstSess (fun x => { x with
        sent := (x.sent.filter (fun y => !acked m.psn y.psn)).map (fun y => { y with
          rounds := if moved then 0 else y.rounds
          marked := ackMarks m.psn bm y.psn }) })).pumpAll m.dstSess))

/-- NAK: a stale incarnation restarts the handshake; without a session at the peer, the session fails (R291,
Table 17-9). -/
def execNak (m : Msg) (s : State) : Res :=
  recv 0x11 m s (fun s => s.recvCtl m (fun ss =>
    if ss.st != 0 then s
    else if m.status == 5 then (s.failRmos 9 (fun c => c.on ss)).startHello m.dstSess
    else if m.status == 6 then s.failSess m.dstSess 8 7
    else s))

/-! ### The handshake (R287, R288) -/

/-- Log a refusal (R288). -/
def State.logRefusal (s : State) (peer reason : Nat) : State :=
  s.ras_ { rasOf 0x10 1 15 0x08 0 reason with extra4 := peer }

/-- The fields of a HELLO or HELLO_ACK payload (Table 17-8). -/
def helloV (m : Msg) (i : Nat) : Nat := (m.payload.getD i 0).toNat
def helloIsn (m : Msg) : Nat := ofLe ((m.payload.drop 2).take 3)
def helloDigest (m : Msg) : Nat := ofLe ((m.payload.drop 8).take 16)
def entryDigest (ss : Session) : Nat := (ss.entry.getD 7 0).toNat + (ss.entry.getD 6 0).toNat * 2 ^ 64

/-- The first reason of Table 17-9 that refuses a HELLO. -/
def State.refusal (s : State) (m : Msg) : Option Nat :=
  match s.boundSess m with
  | none => some 1
  | some ss =>
    if m.srcNode == s.nodeId then some 2
    else if max (helloV m 0) 0x10 > min (helloV m 1) 0x12 then some 3
    else if helloDigest m != entryDigest ss then some 4
    else none

/-- Record the peer's parameters (R287). -/
def Session.learn (x : Session) (inc isn ver : Nat) : Session :=
  { x with
    peerInc := inc
    peerIsn := isn
    rcvPsn := isn
    version := ver
    known := true
    heldMsgs := []
    tags := []
    ackCount := 0 }

/-- Answer HELLO_ACK. -/
def State.sendHelloAck (s : State) (i : Nat) : State :=
  match Map.find? s.sessions i with
  | none => s
  | some ss => s.sendCtl i 0x21 0 {} (helloPayload ss ss.version ss.version)

/-- An accepted HELLO: its parameters are recorded and HELLO_ACK answers; an entry that was not opening begins to, with a
HELLO of its own (R287, Table 17-12). -/
def State.takeHello (s : State) (m : Msg) (ss : Session) : State :=
  let i := m.dstSess
  let isn := helloIsn m
  let ver := min (helloV m 1) 0x12
  let learn := fun (u : State) => u.modSess i (fun x => x.learn m.srcInc isn ver)
  if ss.st == 0 then
    if ss.peerInc == m.srcInc && ss.peerIsn == isn then s.sendHelloAck i
    else if ss.peerInc == m.srcInc then
      let first := match ss.sent with | x :: _ => x.psn | [] => ss.sndPsn
      ((learn s).modSess i (fun x => { x with isn := first })).sendHelloAck i
    else
      let s := s.failRmos 9 (fun c => c.on ss)
      let (w, s) := s.fresh
      let own := w.toNat % 2 ^ 24
      ((learn (s.modSess i (fun x => { x.cleared with
        isn := own
        sndPsn := own
        gotAck := true }))).sendHelloAck i).pumpAll i
  else
    let s := if ss.st == 2 || ss.st == 5 then s else s.startHello i
    let s := (learn s).sendHelloAck i
    let s := if ss.st == 5 then (s.setSessSt i 2).sendHello i else s
    s.tryOpen i

/-- HELLO: refused with the first reason that applies, or answered (R287). -/
def execHello (m : Msg) (s : State) : Res :=
  recv 0x20 m s (fun s =>
    if !msgFormed m || ofLe ((m.payload.drop 5).take 3) != 0 || ofLe (m.payload.drop 24) != 0 then s.rxDrop (m.subport.val / 4)
    else match s.refusal m with
      | some r => (s.answer m 0x22 r).logRefusal m.srcNode r
      | none => match s.boundSess m with | some ss => s.takeHello m ss | none => s)

/-- HELLO_ACK: the answer to this device's HELLO opens the session at its version (R287). -/
def execHelloAck (m : Msg) (s : State) : Res :=
  recv 0x21 m s (fun s =>
    if !msgFormed m || ofLe ((m.payload.drop 5).take 3) != 0 || ofLe (m.payload.drop 24) != 0 then s.rxDrop (m.subport.val / 4)
    else if m.dstInc != s.incarnation then s.answer m 0x11 5
    else match s.boundSess m with
      | none => s
      | some ss =>
        let ver := helloV m 0
        if !(ss.st == 2 || ss.st == 5) || ver < 0x10 || ver > 0x12 then s
        else
          let s := if ss.known && ss.peerInc == m.srcInc && ss.peerIsn == helloIsn m then s
            else s.modSess m.dstSess (fun x => x.learn m.srcInc (helloIsn m) ver)
          (s.modSess m.dstSess (fun x => { x with
            gotAck := true
            retries := 0 })).tryOpen m.dstSess)

/-- STATUS that a refusal gives (Table 17-9). -/
def refusedSt (r : Nat) : Nat := if r == 1 then 5 else if r == 2 then 6 else if r == 3 then 3 else 4

/-- REFUSE: STATUS takes the reason's code; a final one ends the handshake and the RMOs that waited (R288, R291). -/
def execRefuse (m : Msg) (s : State) : Res :=
  recv 0x22 m s (fun s => s.recvCtl m (fun ss =>
    if !(ss.st == 2 || ss.st == 5) || m.status == 0 || m.status > 4 then s
    else
      let s := (s.logRefusal ss.peer m.status).setSessSt m.dstSess (refusedSt m.status)
      if m.status == 1 then s.modSess m.dstSess (fun x => { x with retries := 0 })
      else s.failRmos 6 (fun c => c.on ss)))

/-- CLOSE: the session's incomplete RMOs fail with 0x09 and STATUS becomes 0x07 (R293). -/
def execClose (m : Msg) (s : State) : Res :=
  recv 0x23 m s (fun s => s.recvCtl m (fun ss => if ss.known then s.failSess m.dstSess 9 7 else s))

/-- KEEPALIVE: the peer is alive and has no message to send (R293). -/
def execKeepalive (m : Msg) (s : State) : Res := recv 0x24 m s (fun s => s.recvCtl m (fun _ => s))

/-- A reserved opcode: dropped and counted (R284). -/
def execReservedOpcMessage (m : Msg) (s : State) : Res :=
  if (1 ≤ m.opc && m.opc ≤ 0x0B) || m.opc == 0x10 || m.opc == 0x11 || (0x20 ≤ m.opc && m.opc ≤ 0x24) then
    s.idle "the opcode is assigned"
  else if !s.subUp m.subport.val then s.idle "the sub-port is down"
  else .next (s.rxDrop (m.subport.val / 4))

end Sys2Proof.Machine
end

