-- ==== Sys2Proof/Machine/Ports.lean ====
section
/-! DEFINITION. The link ports (R278 to R283): control, sub-ports going up and down, the network identity, and frames that
are dropped. -/

namespace Sys2Proof.Machine

/-- Sub-port s of a port exists under its SPLIT (Table 17-1). -/
def State.subValid (s : State) (n : Nat) : Bool := n % 4 < 2 ^ s.rf (.lnkPortCtl (n / 4)) 3 2

/-- The lanes of a sub-port, as a mask (Table 17-1). -/
def State.subLanes (s : State) (n : Nat) : Nat :=
  let per := 8 / 2 ^ s.rf (.lnkPortCtl (n / 4)) 3 2
  (2 ^ per - 1) * 2 ^ (per * (n % 4))

/-- A sub-port goes down: its link and lane locks are lost, and the messages it held with them (R280). -/
def State.subDown (s : State) (n : Nat) : State :=
  let r : Reg := .lnkPortSts (n / 4)
  let lock := s.rf r 23 16
  { (s.setRf r (24 + n % 4) (24 + n % 4) 0).setRf r 23 16 (lock - (lock &&& s.subLanes n)) with
    txq := Map.drop s.txq n }

/-- PORT_CONTROL_WRITE: SPLIT and MEDIA change only while ENABLE is 0; ENABLE from 1 to 0 takes every sub-port down
(R280). -/
def execPortControlWrite (k : Fin 12) (val : BitVec 32) (s : State) : Res :=
  let r : Reg := .lnkPortCtl k.val
  let v := val.toNat
  let on := s.rf r 0 0 == 1
  let split := if fld v 3 2 == 3 then s.rf r 3 2 else fld v 3 2
  let media := if fld v 5 4 == 3 then s.rf r 5 4 else fld v 5 4
  let changed := split != s.rf r 3 2 || media != s.rf r 5 4
  let t := if on then (if changed then s.accessError 280 0 r.key else s) else (s.setRf r 3 2 split).setRf r 5 4 media
  let t := if on && fld v 0 0 == 0 then (List.range 4).foldl (fun t j => t.subDown (k.val * 4 + j)) t else t
  .next (t.setRf r 0 0 (fld v 0 0))

/-- SUBPORT_LINK_UP: a sub-port of an enabled port in service trains (R279, R379, R380). -/
def execSubportLinkUp (n : Fin 48) (s : State) : Res :=
  let k := n.val / 4
  let r : Reg := .lnkPortSts k
  if s.rf (.lnkPortCtl k) 0 0 == 1 && s.subValid n.val && !s.subUp n.val && s.readyFn (20 + k) then
    .next ((s.setRf r (24 + n.val % 4) (24 + n.val % 4) 1).setRf r 23 16 (s.rf r 23 16 ||| s.subLanes n.val))
  else s.idle "the sub-port does not train"

/-- SUBPORT_LINK_DOWN (R280). -/
def execSubportLinkDown (n : Fin 48) (s : State) : Res :=
  if s.subUp n.val then .next (s.subDown n.val) else s.idle "the sub-port is down"

/-- The identity registers (Table 17-4). -/
def identityReg (i : Fin 4) : Reg :=
  if i.val == 0 then .lnkNode else if i.val == 1 then .lnkEncap else if i.val == 2 then .lnkIp6Hi else .lnkIp6Lo

/-- Bits whi to wlo of an identity register are written: while any session is open or opening, a write that names a writable
field is ignored and logged (R281); one of read-only bits alone is no error (R7, R8). -/
def State.writeIdentity (s : State) (r : Reg) (whi wlo v : Nat) : State :=
  let names := r.fields.any (fun f => f.acc == .rw && f.lo ≤ whi && wlo ≤ f.hi)
  if names && s.sessions.any (fun kv => kv.2.st == 0 || kv.2.st == 2) then s.accessError 281 0 r.key
  else s.setReg r (r.written whi wlo (s.reg r) v)

/-- LINK_IDENTITY_WRITE: ignored and logged while any session is open or opening (R281). -/
def execLinkIdentityWrite (reg : Fin 4) (val : BitVec 64) (s : State) : Res :=
  .next (s.writeIdentity (identityReg reg) 63 0 val.toNat)

/-- A port receives: some sub-port of it is up. -/
def State.portUp (s : State) (k : Nat) : Bool := (List.range 4).any (fun j => s.subUp (k * 4 + j))

/-- CONTROL_FRAME: dropped and counted (R278). -/
def execControlFrame (k : Fin 12) (s : State) : Res :=
  if s.portUp k.val then .next (s.rxDrop k.val) else s.idle "the port is down"

/-- FOREIGN_FRAME: dropped and counted (R283). -/
def execForeignFrame (k : Fin 12) (s : State) : Res :=
  if s.portUp k.val then .next (s.rxDrop k.val) else s.idle "the port is down"

/-- FEC_UNCORRECTABLE_FRAME: the codeword is counted and its frame dropped (Table 17-3). -/
def execFecUncorrectableFrame (k : Fin 12) (s : State) : Res :=
  if s.portUp k.val then .next (s.setReg (.lnkFecUnc k.val) ((s.reg (.lnkFecUnc k.val) + 1) % 2 ^ 64))
  else s.idle "the port is down"

end Sys2Proof.Machine
end

