-- ==== Sys2Proof/Machine/Sha384.lean ====
section
/-! DEFINITION. SHA-384 as FIPS 180-4 defines it, which the measurement registers use (R391). -/

namespace Sys2Proof.Machine

/-- No prime of a list divides n. -/
def coprimeTo (ps : List Nat) (n : Nat) : Bool := ps.all (fun p => n % p != 0)

/-- The primes among the next k numbers from n, after those of `ps`, ascending. -/
def primesFrom : Nat → Nat → List Nat → List Nat
  | 0, _, ps => ps
  | k + 1, n, ps => primesFrom k (n + 1) (if coprimeTo ps n then ps ++ [n] else ps)

/-- The first 80 primes: those up to 409. -/
def shaPrimes : List Nat := primesFrom 408 2 []

/-- The integer k-th root of n, one bit at a time from the highest of b. -/
def kthRoot (k n : Nat) : Nat → Nat → Nat
  | 0, r => r
  | b + 1, r => kthRoot k n b (if (r + 2 ^ b) ^ k ≤ n then r + 2 ^ b else r)

/-- The first 64 bits of the fractional part of the k-th root of p. -/
def rootFrac (k p : Nat) : Nat := kthRoot k (p * 2 ^ (64 * k)) 69 0 % 2 ^ 64

/-- Round constants: cube roots of the first 80 primes. -/
def shaK : List Nat := shaPrimes.map (rootFrac 3)

/-- Initial hash value: square roots of the ninth to sixteenth primes. -/
def shaH : List Nat := ((shaPrimes.drop 8).take 8).map (rootFrac 2)

/-- The eight working variables. -/
abbrev Sha := List (BitVec 64)

/-- The exclusive or of a word's rotations to the right. -/
def spin (x : BitVec 64) (ns : List Nat) : BitVec 64 := (ns.map x.rotateRight).foldl (· ^^^ ·) 0

/-- Each bit of f where e has 1, of g where it has 0. -/
def pick (e f g : BitVec 64) : BitVec 64 := g ^^^ (e &&& (f ^^^ g))

/-- The bit that two or three of the words have. -/
def most (a b c : BitVec 64) : BitVec 64 := (a &&& b) ||| (c &&& (a ||| b))

/-- Pad a message to whole 128-byte blocks: a 1 bit, zeros, the length in bits. -/
def shaPad (m : List (BitVec 8)) : List (BitVec 8) :=
  let z := (239 - m.length % 128) % 128
  m ++ [0x80#8] ++ List.replicate z 0#8 ++ (List.range 16).map (fun i => BitVec.ofNat 8 (m.length * 8 / 2 ^ (8 * (15 - i))))

/-- The big-endian word of eight bytes. -/
def beWord (bs : List (BitVec 8)) : BitVec 64 := BitVec.ofNat 64 (bs.foldl (fun a b => a * 256 + b.toNat) 0)

/-- The schedule's next word from the sixteen before it, newest first. -/
def nextWord (w : List (BitVec 64)) : BitVec 64 :=
  let far := w.getD 14 0
  let near := w.getD 1 0
  (spin near [19, 61] ^^^ (near >>> 6)) + w.getD 6 0 + (spin far [1, 8] ^^^ (far >>> 7)) + w.getD 15 0

/-- Extend the message schedule, newest word first. -/
def shaSchedule : Nat → List (BitVec 64) → List (BitVec 64)
  | 0, w => w
  | n + 1, w => shaSchedule n (nextWord w :: w)

/-- One round: every variable moves on by one, the fifth and the first take new sums. -/
def shaRound (v : Sha) (k : Nat) (w : BitVec 64) : Sha :=
  let x := fun (i : Nat) => v.getD i 0
  let sum := x 7 + w + BitVec.ofNat 64 k + pick (x 4) (x 5) (x 6) + spin (x 4) [14, 18, 41]
  (sum + spin (x 0) [28, 34, 39] + most (x 0) (x 1) (x 2)) :: (v.take 7).set 3 (x 3 + sum)

/-- Add one block of 128 bytes into the hash value. -/
def shaBlock (h : Sha) (bs : List (BitVec 8)) : Sha :=
  let w0 := ((List.range 16).map (fun i => beWord ((bs.drop (8 * i)).take 8))).reverse
  let ws := (shaSchedule 64 w0).reverse
  let v := (shaK.zip ws).foldl (fun v x => shaRound v x.1 x.2) h
  (h.zip v).map (fun x => x.1 + x.2)

/-- Every block in turn. -/
def shaBlocks (m : List (BitVec 8)) : Nat → Nat → Sha → Sha
  | 0, _, h => h
  | n + 1, i, h => shaBlocks m n (i + 1) (shaBlock h ((m.drop (128 * i)).take 128))

/-- SHA-384 of a byte string: 48 bytes. -/
def sha384 (m : List (BitVec 8)) : List (BitVec 8) :=
  let p := shaPad m
  let h := shaBlocks p (p.length / 128) 0 (shaH.map (BitVec.ofNat 64))
  (h.take 6).flatMap (fun x => (List.range 8).map (fun i => BitVec.ofNat 8 (x.toNat / 2 ^ (8 * (7 - i)))))

end Sys2Proof.Machine
end

