-- ==== Sys2Proof/Machine/Boot.lean ====
section
/-! DEFINITION. Bring-up (R379 to R391): what every boot does with the flash records, the warm device reset, the cold reset
and the loss of power (Table 22-4), the ready map, and the board's power and reset signals (R405 to R411). -/

namespace Sys2Proof.Machine

/-! ### Registers by key -/

/-- The register that a listed key belongs to. -/
def Reg.ofKey (k : Nat) : Option Reg :=
  if k < 0x8000000 then Reg.at8 k
  else
    let p := (k - 0x8000000) / 0x100000
    if k == vfBase p + 0xFD008 then some (.vfQueCmdSts p) else some (.vfXltInvLo p)

/-- Every field of the given domains takes its reset value (R395). A register that is not listed holds its reset value. -/
def State.restoreAll (s : State) (ds : List Domain) : State :=
  s.regs.foldl (fun t kv => match Reg.ofKey kv.1 with | some r => t.restore r ds | none => t) s

/-! ### Measurements (R391, Table 23-6) -/

/-- The 48 bytes of a measurement register. -/
def State.measurement (s : State) (i : Nat) : List Byte := (List.range 6).flatMap (fun w => leBytes (s.reg (.secMeas i w)) 8)

/-- A measurement register takes 48 bytes. -/
def State.setMeasurement (s : State) (i : Nat) (m : List Byte) : State :=
  (List.range 6).foldl (fun t w => t.setReg (.secMeas i w) (wordAt m w).toNat) s

/-- M takes SHA-384(M ‖ d). -/
def State.extend (s : State) (i : Nat) (d : List Byte) : State := s.setMeasurement i (sha384 (s.measurement i ++ d))

/-- Each register starts at 48 zero bytes at a boot. -/
def State.clearMeasurements (s : State) : State := (List.range 8).foldl (fun t i => t.setMeasurement i []) s

/-- Digests that only the part and its flash determine: 0 boot ROM; 4, 5 records 0x02 and 0x03; 6 repair map; 7 channel
record. -/
def digestOf (what : Nat) (of : List Byte) : List Byte := Config.secretBytes what of

/-- The image of a bank, B where the flag is set. -/
def Banks.image (x : Banks) (b : Bool) : Image := if b then x.b else x.a

/-- What a boot measures. -/
def State.measureBoot (s : State) : State :=
  let f := s.flash
  let chans := f.mapouts.flatMap (fun c => leBytes c 2)
  let of := fun (x : Banks) => (x.image x.run).digest
  let t := s.clearMeasurements.extend 0 (digestOf 0 [])
  let t := ((t.extend 1 (of f.mgmt)).extend 1 (of f.power)).extend 2 (of f.pan)
  let t := (t.extend 3 (digestOf 4 [])).extend 3 (digestOf 5 [])
  (t.extend 4 (digestOf 6 f.repairs)).extend 4 (digestOf 7 chans)

/-! ### Firmware banks and records (R382 to R386) -/

/-- Both keys are the ROM's and both signatures verify (R382, R383). -/
def sigOk (x : Sig) : Bool := x.ecdsaKey && x.ecdsa && x.lmsKey && x.lms
/-- Both signatures of an image verify (R383). -/
def imageOk (i : Image) : Bool := sigOk i.sig
/-- Some copy of a signed record is valid (R385). -/
def anyCopy (xs : List Sig) : Bool := xs.any sigOk

/-- A bank may be booted: its image is valid and its SVN is not below FW_SVN (R383, R384). -/
def Banks.bootable (x : Banks) (fwSvn : Nat) (b : Bool) : Bool := imageOk (x.image b) && (x.image b).svn.toNat ≥ fwSvn

/-- The bank to boot: the higher SVN, A on a tie. -/
def Banks.choose (x : Banks) (fwSvn : Nat) : Option Bool :=
  if x.bootable fwSvn true && (!x.bootable fwSvn false || x.b.svn.toNat > x.a.svn.toNat) then some true
  else if x.bootable fwSvn false then some false else none

/-- The bank of the management firmware that runs. -/
def Flash.bank (f : Flash) : Bool := f.mgmt.run

/-- The flash with a bank chosen for each of its images, none where an image has no bank to boot, the flash does not answer, or a
required record is invalid (R383, R385). -/
def Flash.start (f : Flash) : Option Flash :=
  if !f.answers || !anyCopy f.sku || !anyCopy f.leakage then none
  else
    match f.mgmt.choose f.fwSvn, f.power.choose f.fwSvn, f.pan.choose f.fwSvn with
    | some m, some p, some d => some { f with
        mgmt := { f.mgmt with run := m }
        power := { f.power with run := p }
        pan := { f.pan with run := d } }
    | _, _, _ => none

/-- The slot whose record of a kind is accepted: its generation is RECORD_GEN and its tag verifies (R386). -/
def Flash.accepted (f : Flash) (tag : DevSlot → Bool) : Option DevSlot := f.slots.find? (fun x => x.gen == f.recordGen && tag x)

/-- The device records are written, at the next generation, into the slot not in use, and RECORD_GEN counts (R386, log entry
130). -/
def Flash.writeRecords (f : Flash) (mapouts : NSet) (repairs : List Byte) : Flash :=
  let new : DevSlot := ⟨f.recordGen + 1, true, true, true, repairs, mapouts⟩
  { f with
    mapouts := mapouts
    repairs := repairs
    slots := (f.slots.filter (fun x => x.gen == f.recordGen)).take 1 ++ [new]
    recordGen := f.recordGen + 1 }

/-- SEC_STS shows the firmware that runs. -/
def State.noteFirmware (s : State) : State :=
  let f := s.flash
  let run := (f.mgmt.image f.bank).svn.toNat
  let t := ((s.setRf .secSts 31 24 f.fwSvn).setRf .secSts 23 16 run).setRf .secSts 12 12 (b2n f.bank)
  t.setRf .secSts 0 0 (b2n (run > f.fwSvn))

/-! ### Channels and the carve-out (R42 to R50) -/

/-- A channel is mapped out and recorded (R50). -/
def State.mapOut (s : State) (c : Nat) : State :=
  let t := s.setRf (.panChanState (c / 16)) (c % 16 * 2 + 1) (c % 16 * 2) 3
  { t with flash := t.flash.writeRecords (NSet.ins t.flash.mapouts c) t.flash.repairs }.ras_ (rasOf 0x05 1 (c / 32) 0x01 c 0)

/-- The state a channel takes at a boot: mapped out with a record, after Failing or Degraded, where it is tested and fails, and
where it was mapped out before a warm device reset; else in service. -/
def State.bootChan (s : State) (cold tested : Bool) (c : Nat) : State :=
  let st := s.chanState c
  let r : Reg := .panChanState (c / 16)
  if s.flash.mapouts.contains c || (!cold && st == 3) then s.setRf r (c % 16 * 2 + 1) (c % 16 * 2) 3
  else if st == 1 || st == 2 || (tested && s.silicon.badChans.contains c) then s.mapOut c
  else s.setRf r (c % 16 * 2 + 1) (c % 16 * 2) 0

/-- PROT_NEXT comes into force. -/
def State.takeProt (s : State) : State :=
  (List.range 24).foldl (fun t h => t.setRf (.panHeapCtl h) 9 8 (t.rf (.panHeapCtl h) 1 0)) s

/-- The largest SIZE not above one whose K is at most 2,048. -/
def fitSize (n : Nat) : Nat → Option Nat
  | 0 => if kFor 0 n ≤ 2048 then some 0 else none
  | k + 1 => if kFor (k + 1) n ≤ 2048 then some (k + 1) else fitSize n k

/-- K and SIZE are formed over the logical channels in service (R44, R45). -/
def State.formK (s : State) : State :=
  let n := s.logical.length
  let size := s.rf .glbSharedSts 1 0
  let set := fun (t : State) (k z : Nat) => (t.setRf .glbSharedSts 31 20 k).setRf .glbSharedSts 1 0 z
  match (if n < 32 then none else fitSize n size) with
  | none => (set s 0 0).ras_ (rasOf 0x12 1 15 0x08 0 5)
  | some z =>
    let t := set s (kFor z n) z
    if z == size then t else t.ras_ (rasOf 0x12 1 15 0x08 0 2)

/-- A Guarded Heap with one channel in service is a Heap fault (R415). -/
def State.heapFaults (s : State) : State :=
  ((List.range 24).filter (fun h => s.guarded h && (s.heapChans h).length == 1)).foldl (fun t h =>
    t.ras_ (rasOf 0x04 1 (h / 2) 0x0A h 4)) s

/-- The channels of a boot: states, protection, lists, K. Where a channel is mapped out or the lists change, no Heap contents
survive (R50); the carve-out's do not in any case. -/
def State.bootHeaps (s : State) (cold tested : Bool) : State :=
  let old := s.logical
  let out := fun (x : State) => (List.range 384).filter (fun c => x.chanState c == 3)
  let t := (List.range 384).foldl (fun t c => t.bootChan cold tested c) s
  let same := out t == out s
  let t := (if cold then t else t.takeProt).formK.heapFaults
  let keep := fun (k : Nat) => !cold && same && t.logical == old && k % 2 ^ 24 < t.deepSize
  { t with
    heap := Map.keep t.heap keep
    heapPoison := t.heapPoison.filter (fun x => keep (x * 32)) }

/-! ### Bring-up (R382 to R385) -/

/-- The code that GLB_ID.ORDER shows (Table 23-7). -/
def Order.code : Order → Nat
  | .sa => 0
  | .sab => 1
  | .sal => 2

/-- Fields that are loaded from flash (R395): those of domain (C) at power and at a cold reset, those of (W) always. -/
def State.loadFlash (s : State) (cold : Bool) : State :=
  let f := s.flash
  let t := if cold then
      (((s.setRf .glbId 63 48 Config.vendorId.toNat).setRf .glbId 47 40 f.order.code).setRf .pwrCap 26 16 f.order.capMax).setRf .lnkMac 47 0 f.macBase
    else s
  (t.setRf .pwrCap 10 0 f.order.capMax).setRf .lnkNode 63 32 f.incarnation

/-- The ROM enters recovery: DEV_PWRGD low, SEC_STS.RECOVERY, the alerts (R383). -/
def State.enterRecovery (s : State) : State :=
  let t := (s.setRf .secSts 2 2 1).alert
  { t with
    pins := { t.pins with devPwrGd := [false, false] }
    boot := { t.boot with phase := 3 } }

/-- PRESENT of a site: its HST_PWRGD is high; site B is populated on SAB alone (R4, R308). -/
def State.notePresent (s : State) : State :=
  [0, 1].foldl (fun (t : State) i =>
    t.setRf (.hstLinkSts i) 0 0 (b2n (t.pins.hstPwrGd.getD i false && (i == 0 || t.flash.order == .sab)))) s

/-- The records a boot accepts (R385, R386): the map-outs of the channel record, none where it is invalid; the repair map, that of
the self-test where one is made and the two differ, which is then written (R387). -/
def State.takeRecords (s : State) (cold : Bool) : State :=
  let f := s.flash
  let map := f.accepted DevSlot.mapTag
  let chans := ((f.accepted DevSlot.chanTag).map (fun x => x.mapouts)).getD []
  match (if cold then none else map.map (fun x => x.repairs)) with
  | some r => { s with flash := { f with
      mapouts := chans
      repairs := r } }
  | none =>
    if map.any (fun x => x.repairs == s.silicon.repairs) then { s with flash := { f with
      mapouts := chans
      repairs := s.silicon.repairs } }
    else { s with flash := f.writeRecords chans s.silicon.repairs }

/-- Links that boot self-repair cannot replace: each Pan–Pan edge has 4 spares, each Pan–Weir edge 2 (R319). -/
def linksLeftOut (bad : Map Nat) : Map Nat := Map.mapV bad (fun k n => n - (if k % 3 == 2 then 2 else 4))

/-- The start of a boot, once every register of the reset's domains has its reset value; the PUF may give the seed or not
(R388). -/
def State.bringUp (s : State) (cold pufOk : Bool) : State :=
  let s := { s with flash := { s.flash with incarnation := s.flash.incarnation + 1 } }
  match s.flash.start with
  | none => s.enterRecovery
  | some f =>
    let chanOk := (f.accepted DevSlot.chanTag).isSome
    let puf := if !anyCopy f.helper then 1 else if pufOk then 0 else 2
    let t := ({ s with flash := f }.takeRecords cold).loadFlash cold
    let t := if chanOk then t else t.ras_ (rasOf 0x12 1 15 0x08 0 4)
    let t := (t.bootHeaps cold (cold || !chanOk)).noteFirmware
    let t := (t.setRf .secSts 11 8 puf).setRf .secSts 63 48 (32768 - t.flash.idLms)
    let t := (t.setRf .secSts 1 1 (b2n (t.flash.idLms ≥ 32768))).measureBoot.notePresent
    { t with
      boot := { t.boot with
        phase := 1
        puf := puf
        linksOut := linksLeftOut t.silicon.badLinks }
      pins := { t.pins with
        devPwrGd := [true, t.flash.order == .sab]
        coldRstN := true } }

/-! ### Resets of the device (Table 22-4) -/

/-- What no reset of the device touches: the records of domain (O), the flash, the host's memory, the pins, and the model's
own fields. -/
def State.survivors (s : State) : State :=
  { State.reset with
    hostMem := s.hostMem
    hostPoison := s.hostPoison
    ras := s.ras.map (fun e => { e with first := none })
    bitternLog := s.bitternLog
    bittern := s.bittern
    flash := s.flash
    silicon := s.silicon
    pins := { s.pins with
      alertN := [true, true]
      brdAlertN := true
      devPwrGd := [false, false] }
    boot := { State.reset.boot with
      mismatches := s.boot.mismatches
      eid := s.boot.eid }
    nextId := s.nextId
    freeIx := s.freeIx
    out := s.out
    pending := s.pending }

/-- Sectors found uncorrectable in a row under repair stay so: what reads them again finds poison (R355, R360). -/
def State.settleBad (s : State) : State := { s with heapPoison := s.badSectors.foldl NSet.ins s.heapPoison }

/-- Some bit of the ready map is set. -/
def State.anyReady (s : State) : Bool :=
  s.reg .glbReadyFn != 0 || s.reg .glbReadyBsnLo != 0 || s.reg .glbReadyBsnHi != 0 ||
    (List.range 6).any (fun k => s.reg (.glbReadyChan k) != 0)

/-- A device reset is about to clear the ready map: PF0 vector 3 fires, once for all of its bits (R379). -/
def State.readyLost (s : State) : State := if s.anyReady then s.fire 0 3 else s

/-- Warm device reset: registers of domains (W) and (P), every unit, and a new boot. Whether the PUF then gives the seed is a
free value (R388, log entry 134). A thermal trip holds (Table 20-3). -/
def State.warmReset (s : State) : State :=
  let t := s.readyLost.settleBad.restoreAll [.w, .p]
  let u := { t.survivors with
    regs := t.regs
    heap := t.heap
    heapPoison := t.heapPoison }
  let (w, u) := u.fresh
  (if u.rf .pwrSts 7 7 == 1 then u.alert else u).bringUp false (bit w.toNat 0)

/-- Channels that have failed are mapped out and recorded before a cold reset restores their states (R49, R50). -/
def State.mapOutFailed (s : State) : State :=
  ((List.range 384).filter (fun c => s.chanState c == 1 || s.chanState c == 2)).foldl State.mapOut s

/-- Cold reset: also domain (C); every memory is zeroed. Whether the PUF then gives the seed is a free value (R388). -/
def State.coldReset (s : State) : State :=
  let s := s.readyLost.mapOutFailed
  let (w, u) := { s.survivors with regs := (s.restoreAll [.c, .w, .p]).regs }.fresh
  u.bringUp true (bit w.toNat 0)

/-- Loss of power: everything is lost but the flash; the host's side and the model's own fields stay. -/
def State.powerLoss (s : State) : State :=
  { State.reset with
    hostMem := s.hostMem
    hostPoison := s.hostPoison
    flash := s.flash
    silicon := s.silicon
    pins := { s.pins with
      pwrGood := false
      alertN := [true, true]
      brdAlertN := true
      devPwrGd := [false, false] }
    nextId := s.nextId
    freeIx := s.freeIx
    out := s.out
    pending := s.pending }

/-! ### The board's signals (R405 to R411) -/

/-- POWER_GOOD_RISE: the boot ROM starts, or stays silent with a rail out of tolerance (R407, R408). -/
def execPowerGoodRise (r : BootReport) (s : State) : Res :=
  if s.pins.pwrGood then s.idle "power is good"
  else
    let pins := { s.pins with
      pwrGood := true
      mgAddr := r.mgAddr
      i3cAddr := BitVec.ofNat 7 (0x50 + r.mgAddr.toNat) }
    if !r.railsOk then
      .next { s with
        pins := { pins with brdAlertN := false }
        boot := { s.boot with phase := 4 } }
    else
      let t := { s with
        pins := pins
        flash := { s.flash with
          answers := r.flashOk && r.counters ≥ 4
          sku := r.sku
          leakage := r.leakage
          helper := r.helper
          deviceId := r.deviceId
          mgmt := ⟨r.mgmt.1, r.mgmt.2, false⟩
          power := ⟨r.power.1, r.power.2, false⟩
          pan := ⟨r.pan.1, r.pan.2, false⟩
          slots := r.slots.getD s.flash.slots }
        silicon := {
          badChans := r.badChannels.foldl (fun (m : NSet) (c : Fin 384) => NSet.ins m c.val) []
          badLinks := r.badLinks.foldl (fun (m : Map Nat) (x : Fin 12 × Fin 3) =>
            Map.put m (x.1.val * 3 + x.2.val) (Map.getD m (x.1.val * 3 + x.2.val) 0 + 1)) []
          repairs := r.repairs } }
      .next (t.bringUp true r.pufOk)

/-- POWER_GOOD_FALL: loss of power (R408). -/
def execPowerGoodFall (s : State) : Res :=
  if s.pins.pwrGood then .next s.powerLoss else s.idle "power is not good"

/-- The ROM or the Weir runs: power is good and no rail fault holds the device. -/
def State.alive (s : State) : Bool := s.boot.phase != 0 && s.boot.phase != 4

/-- COLD_RST_ASSERT: an assertion of at least 100 µs requests cold reset (R409). -/
def execColdRstAssert (s : State) : Res :=
  let t := { s with pins := { s.pins with coldRstN := false } }
  .next (if s.alive then t.askReset (t.newReset 5 0 0 0 0 0) false else t)

/-- A port goes down and its LINK bit clears (Table 25-4). -/
def State.portLost (s : State) (k : Nat) : State :=
  ((List.range 4).foldl (fun t j => t.subDown (k * 4 + j)) s).setReadyFn (20 + k) false

/-- A host link is down: the registers of the site and its ready bit (R298, Table 18-6). -/
def State.hostLinkLost (s : State) (i : Nat) : State :=
  let r : Reg := .hstLinkSts i
  let t := ((s.setRf r 1 1 0).setRf r 23 20 0).setRf r 15 12 0
  { t.setReadyFn i false with boot := { t.boot with retraining := t.boot.retraining.set i false } }

/-- A supply has sagged below a reset level: a die reset, or 12 for the Weir a warm device reset; no collection (R340,
R368). -/
def State.supplyReset (s : State) (die : Nat) (skip : Bool) : State :=
  let t := if die < 12 then s.ras_ (rasOf 0x0B 2 die 0x09 die 1) else s.ras_ (rasOf 0x0B 2 15 0x08 0 2)
  let r : ResetReq := if die < 12 then t.newReset 3 die 0 0 0 0 else t.newReset 4 0 0 0 0 0
  t.askReset { r with rasSeq := t.reg .rasStoreSeq } skip

/-- RAIL_FAULT: the effect of Table 25-4 (R408). -/
def execRailFault (r : Rail) (s : State) : Res :=
  if !s.alive then s.idle "the device does not run"
  else match r with
    | .core _ => .next s
    | .sram d => .next (s.supplyReset d.val false)
    | .heap d => .next (s.supplyReset d.val false)
    | .lnk d => .next (s.portLost d.val)
    | .lnkh d => .next (s.portLost d.val)
    | .ucie => .next (({ s with pins := { s.pins with devPwrGd := [false, false] } }.hostLinkLost 0).hostLinkLost 1)
    | .weir => .next (s.supplyReset 12 true)
    | .v1v8 => .next s.powerLoss
    | .v1v2 => .next s

/-- EBB_RESET: a rail below its reset level (R340). -/
def execEbbReset (die : Fin 13) (s : State) : Res :=
  if s.alive then .next (s.supplyReset die.val true) else s.idle "the device does not run"

/-- PLL_LOCK_LOSS: die reset, or warm device reset for the Weir (R348, Table 21-1). -/
def execPllLockLoss (die : Fin 13) (s : State) : Res :=
  if s.alive then .next (s.supplyReset die.val (decide (die.val < 12))) else s.idle "the device does not run"

/-- MGMT_START_TIMEOUT: management firmware has not set MGMT within 100 ms; the ROM restarts from the other bank (R383). -/
def execMgmtStartTimeout (s : State) : Res :=
  if s.boot.phase != 1 || s.readyFn 2 then s.idle "the management firmware has started"
  else
    let b := !s.flash.bank
    let t := s.logPlain 1 15 0x08 0
    .next (if s.flash.mgmt.bootable s.flash.fwSvn b then
        { t with flash := { t.flash with mgmt := { t.flash.mgmt with run := b } } }.noteFirmware.measureBoot
      else t.enterRecovery)

/-- Change the banks of one of the three images. -/
def Flash.modBanks (f : Flash) (what : Firmware) (g : Banks → Banks) : Flash :=
  match what with
  | .mgmt => { f with mgmt := g f.mgmt }
  | .power => { f with power := g f.power }
  | .pan => { f with pan := g f.pan }

/-- RECOVERY_IMAGE: an image is verified into bank A, and a cold reset follows (R383). -/
def execRecoveryImage (file : ImageFile) (s : State) : Res :=
  if s.boot.phase != 3 then s.idle "the ROM is not in recovery"
  else
    let t := { s with flash := s.flash.modBanks file.what (fun x => { x with a := file.image }) }
    .next (if imageOk file.image then t.coldReset else t)

/-! ### The ready map (R379, R380) -/

/-- Shared offsets whose lines have their home on a die. -/
def State.linesHomed (s : State) (d : Nat) : List Nat := (List.range (s.sharedSize / 128)).filter (fun l => homeDie l == d)

/-- A die returns from its own reset: L1 copies of lines homed on it are gone, and those lines are poisoned (R372 item 4). -/
def State.returnDie (s : State) (d : Nat) : State :=
  let home := fun (line : Nat) => homeDie line == d
  let t := (s.linesHomed d).foldl State.poisonLine s
  { t with
    dieReset := NSet.del t.dieReset d
    coh := {
      l1 := Map.keep t.coh.l1 (fun k => !home (keyLine k))
      wbuf := Map.keep t.coh.wbuf (fun k => !home (keyLine k))
      dir := Map.keep t.coh.dir (fun l => !home l)
      mshr := Map.keep t.coh.mshr (fun k => !home (keyLine k))
      msgs := t.coh.msgs.filter (fun (m : CMsg) => !home m.line) } }

/-- What SHARED needs: all twelve dies, every channel in service, and a carve-out (R380). -/
def State.sharedReady (s : State) : Bool :=
  (List.range 12).all s.dieUp && (List.range 384).all (fun c => s.chanState c == 3 || s.chanReady c) && s.kGran != 0

/-- The number of a ready bit among those that failed at BOOT_DONE. -/
def readyCode : ReadyBit → Nat
  | .link k => 20 + k.val
  | .pan d => 8 + d.val
  | .shared => 4
  | .security => 3
  | .mgmt => 2
  | .basin b => 100 + b.val
  | .chan c => 1000 + c.val

/-- A bit is set already. -/
def State.bitSet (s : State) : ReadyBit → Bool
  | .link k => s.readyFn (20 + k.val)
  | .pan d => s.dieUp d.val
  | .shared => s.sharedUp
  | .security => s.readyFn 3
  | .mgmt => s.readyFn 2
  | .basin b => s.basinReady b.val
  | .chan c => s.chanReady c.val

/-- The function's bring-up can have passed. -/
def State.canReady (s : State) : ReadyBit → Bool
  | .link k => s.dieUp k.val
  | .pan d => s.edgeUp d.val 2 && !s.resetQ.any (fun r => r.level == 3 && r.unit == d.val && !r.applied)
  | .shared => s.sharedReady
  | .security => s.boot.puf == 0 && anyCopy s.flash.deviceId && s.boot.treeNow.isSome && s.readyFn 2
  | .mgmt => !s.boot.mgmtDown
  | .basin b => s.dieUp (b.val / 8) && !s.outOfService.contains b.val && (Map.find? s.modeChg b.val).isNone &&
      !s.sluiced.contains (s.basinOwner b.val)
  | .chan c => s.dieUp (c.val / 32) && (s.chanState c.val == 0 || s.chanState c.val == 2)

/-- READY_BIT_SET: the function passes its bring-up or self-test and its bit is set (R379, R380). -/
def execReadyBitSet (b : ReadyBit) (s : State) : Res :=
  if !(s.boot.phase == 1 || s.boot.phase == 2) || s.boot.failedBits.contains (readyCode b) || s.bitSet b || !s.canReady b then
    s.idle "the function cannot come into service now"
  else match b with
    | .link k => .next ((s.setReadyFn (20 + k.val) true).adoptUnit k.val)
    | .pan d => .next (((if s.dieReset.contains d.val then s.returnDie d.val else s).setReadyFn (8 + d.val) true).adoptUnit (12 + d.val))
    | .shared =>
      .next ({ s with
        heap := Map.keep s.heap (fun k => k % 2 ^ 24 < s.deepSize)
        heapPoison := s.heapPoison.filter (fun x => x * 32 % 2 ^ 24 < s.deepSize)
        coh := ⟨[], [], [], [], []⟩
        icache := [] }.setReadyFn 4 true)
    | .security => .next (s.setReadyFn 3 true)
    | .mgmt => .next (s.setReadyFn 2 true)
    | .basin b => .next (s.setBasinReady b.val true)
    | .chan c => .next (s.setChanReady c.val true)

/-- UNIT, INDEX and DIE of a function's log entry. -/
def readyUnit (code : Nat) : Nat × Nat × Nat :=
  if code ≥ 1000 then (0x01, code - 1000, (code - 1000) / 32)
  else if code ≥ 100 then (0x04, code - 100, (code - 100) / 8)
  else if code ≥ 20 then (0x06, code - 20, code - 20)
  else if code ≥ 8 then (0x09, code - 8, code - 8)
  else if code < 2 then (0x07, code * 4, 15) else (0x08, code, 15)

/-- Bits that are clear. -/
def State.clearBits (s : State) : List Nat :=
  ((List.range 5 ++ (List.range 24).map (· + 8)).filter (fun i => !s.readyFn i)) ++
    ((List.range 96).filter (fun b => !s.basinReady b)).map (100 + ·) ++
    ((List.range 384).filter (fun c => !s.chanReady c)).map (1000 + ·)

/-- BOOT_DONE: bring-up ends; every function whose bit is clear is logged, and a die missing is a package fault (R17,
R380), reported by one output (log entry 88). -/
def execBootDone (s : State) : Res :=
  if s.boot.phase != 1 then s.idle "bring-up is not in progress"
  else
    let clear := s.clearBits
    let dies := ((List.range 12).filter (fun d => !s.dieUp d)).foldl (fun m d => m + 2 ^ d) 0
    let t := clear.foldl (fun t c => t.logPlain 2 (readyUnit c).2.2 (readyUnit c).1 (readyUnit c).2.1) (s.setReadyFn 32 true)
    let t := { t with boot := { t.boot with
      phase := 2
      failedBits := clear.filter (· ≥ 2) } }
    .next (if dies == 0 then t else t.emit (.packageFault dies))

end Sys2Proof.Machine
end

