-- ==== Sys2Proof/Machine/Scalar.lean ====
section
/-! DEFINITION. Scalar instructions: ALU, compare, RDCTR, RDCTX, TSET (R108, R149, R150, R323). -/

namespace Sys2Proof.Machine

/-- A scalar instruction: a poisoned source is a group fault (R352), else `k` gives the group's new registers. -/
def runScalar (s : State) (r : GroupRef) (e : Enc) (i : Ins) (k : Group → Launch → Group) : Res :=
  issue s r e i (fun s g l =>
    if i.sregs.any (fun x => g.spois.contains x) then raise s r e i g l 0x0E g.act 0 else s.finish r e (k g l))

/-- The element of a scalar source register (R149, R150). -/
def scalarSrc (g : Group) (t r : Nat) : Nat := (g.gs r).toNat % 2 ^ typeBits t

/-- SALU and SALUI at the front end: the scalar registers that the operation reads. -/
def saluIns (fn : Nat) (e : Enc) : Ins :=
  ⟨if e.imm then 0x19 else 0x18, fn, decodeAlu true fn e,
    (if !(e.imm && fn == 0x12) then [encA e] else []) ++ (if !e.imm && !unaryFn fn then [encB e] else []) ++
      (if fn == 0x03 then [encC e] else [])⟩

/-- The element that a SALU or SALUI operation gives (R149, R150). -/
def saluElem (l : Launch) (g : Group) (e : Enc) (fn : Nat) : Nat :=
  let t := encT e
  let a := scalarSrc g t (encA e)
  let b := if e.imm then immBits e t else scalarSrc g t (encB e)
  if fn == 0x0F then (if g.gp (encC e) ≠ 0 then a else b)
  else if fn == 0x12 && e.imm then b
  else aluElem fn t (if e.imm then 0 else encRM e) (!e.imm && encSAT e) (laneDraw l g 0) a b
    (if fn == 0x03 then scalarSrc g t (encC e) else 0)

/-- SALU and SALUI. -/
def scalarAlu (fn : Nat) (r : GroupRef) (e : Enc) (s : State) : Res :=
  runScalar s r e (saluIns fn e) (fun g l => g.setS (encD e) (BitVec.ofNat 64 (scalarForm (encT e) (saluElem l g e fn))))

/-- SCMP: sD is 1 when the condition holds between the 64-bit integers, else 0 (R79). -/
def execScmp (g : GroupRef) (e : Enc) (s : State) : Res :=
  runScalar s g e ⟨0x1A, 0, decodeCmp true e, [encA e, encB e]⟩ (fun h _ =>
    h.setS (encD e) (BitVec.ofNat 64 (b2n (condInt 64 (encC e / 4) (h.gs (encA e)).toNat (h.gs (encB e)).toNat))))

/-- RDCTR: the counter of the die that holds the group's core (R323). -/
def execRdctr (g : GroupRef) (e : Enc) (s : State) : Res :=
  runScalar s g e ⟨0x1B, 0, decodeSys 0 e, []⟩ (fun h _ =>
    h.setS (encD e) (BitVec.ofNat 64 (s.dieTime (coreDie g.core.toNat))))

/-- RDCTX: the context identifier (Table 05-5). -/
def execRdctx (g : GroupRef) (e : Enc) (s : State) : Res :=
  runScalar s g e ⟨0x1B, 1, decodeSys 1 e, []⟩ (fun h l => h.setS (encD e) (BitVec.ofNat 64 l.ctx))

/-- TSET: descriptor D[3:0] takes sA as word 0 and sB as word 1, unchecked (R108). -/
def execTset (g : GroupRef) (e : Enc) (s : State) : Res :=
  runScalar s g e ⟨0x1B, 2, decodeSys 2 e, [encA e, encB e]⟩ (fun h _ =>
    h.setT (encD e % 16) (h.gs (encB e) ++ h.gs (encA e)))

/-- SADD (R149, R150). -/
def execSadd (g : GroupRef) (e : Enc) (s : State) : Res := scalarAlu 0x00 g e s
/-- SSUB (R149, R150). -/
def execSsub (g : GroupRef) (e : Enc) (s : State) : Res := scalarAlu 0x01 g e s
/-- SMUL (R149, R150). -/
def execSmul (g : GroupRef) (e : Enc) (s : State) : Res := scalarAlu 0x02 g e s
/-- SMAD (R149, R150). -/
def execSmad (g : GroupRef) (e : Enc) (s : State) : Res := scalarAlu 0x03 g e s
/-- SMIN (R149, R150). -/
def execSmin (g : GroupRef) (e : Enc) (s : State) : Res := scalarAlu 0x04 g e s
/-- SMAX (R149, R150). -/
def execSmax (g : GroupRef) (e : Enc) (s : State) : Res := scalarAlu 0x05 g e s
/-- SABS (R149, R150). -/
def execSabs (g : GroupRef) (e : Enc) (s : State) : Res := scalarAlu 0x06 g e s
/-- SNEG (R149, R150). -/
def execSneg (g : GroupRef) (e : Enc) (s : State) : Res := scalarAlu 0x07 g e s
/-- SAND (R149, R150). -/
def execSand (g : GroupRef) (e : Enc) (s : State) : Res := scalarAlu 0x08 g e s
/-- SOR (R149, R150). -/
def execSor (g : GroupRef) (e : Enc) (s : State) : Res := scalarAlu 0x09 g e s
/-- SXOR (R149, R150). -/
def execSxor (g : GroupRef) (e : Enc) (s : State) : Res := scalarAlu 0x0A g e s
/-- SNOT (R149, R150). -/
def execSnot (g : GroupRef) (e : Enc) (s : State) : Res := scalarAlu 0x0B g e s
/-- SSHL (R149, R150). -/
def execSshl (g : GroupRef) (e : Enc) (s : State) : Res := scalarAlu 0x0C g e s
/-- SSHR (R149, R150). -/
def execSshr (g : GroupRef) (e : Enc) (s : State) : Res := scalarAlu 0x0D g e s
/-- SSRA (R149, R150). -/
def execSsra (g : GroupRef) (e : Enc) (s : State) : Res := scalarAlu 0x0E g e s
/-- SSEL (R149, R150). -/
def execSsel (g : GroupRef) (e : Enc) (s : State) : Res := scalarAlu 0x0F g e s
/-- SCLZ (R149, R150). -/
def execSclz (g : GroupRef) (e : Enc) (s : State) : Res := scalarAlu 0x10 g e s
/-- SPOPC (R149, R150). -/
def execSpopc (g : GroupRef) (e : Enc) (s : State) : Res := scalarAlu 0x11 g e s
/-- SMOV (R149, R150). -/
def execSmov (g : GroupRef) (e : Enc) (s : State) : Res := scalarAlu 0x12 g e s
/-- SDIV (R149, R150). -/
def execSdiv (g : GroupRef) (e : Enc) (s : State) : Res := scalarAlu 0x13 g e s
/-- SREM (R149, R150). -/
def execSrem (g : GroupRef) (e : Enc) (s : State) : Res := scalarAlu 0x14 g e s
/-- SDIVU (R149, R150). -/
def execSdivu (g : GroupRef) (e : Enc) (s : State) : Res := scalarAlu 0x15 g e s
/-- SREMU (R149, R150). -/
def execSremu (g : GroupRef) (e : Enc) (s : State) : Res := scalarAlu 0x16 g e s

end Sys2Proof.Machine
end

