-- ==== Sys2Proof/Machine/Control.lean ====
section
/-! DEFINITION. Control instructions: branches, the mask stack, waits and END (R56, R60 to R63, R66, R69, R208), NOP, and
the completion of a launch (R69). -/

namespace Sys2Proof.Machine

/-- NOP (R80). -/
def execNop (g : GroupRef) (e : Enc) (s : State) : Res :=
  issue s g e ⟨0x01, 0, decodeBare false e, []⟩ (fun s h _ => s.finish g e h)

/-! ### Branches (R74) -/

/-- BRA (R74). -/
def execBra (g : GroupRef) (e : Enc) (s : State) : Res :=
  issue s g e ⟨0x20, 0, decodeBr 0 e, []⟩ (fun s h _ => .next (s.putGroup g (h.jumpBy (encOff e))))

/-- A branch instruction over scalar sources: a poisoned source is a group fault. -/
def runBranch (s : State) (r : GroupRef) (e : Enc) (i : Ins) (k : State → Group → Launch → Res) : Res :=
  issue s r e i (fun s g l =>
    if i.sregs.any (fun x => g.spois.contains x) then raise s r e i g l 0x0E g.act 0 else k s g l)

/-- B.cc compares sA with sB as 64-bit integers (R79). -/
def execBCc (g : GroupRef) (e : Enc) (s : State) : Res :=
  runBranch s g e ⟨0x20, 1, decodeBr 1 e, [encA e, encB e]⟩ (fun s h _ =>
    if condInt 64 (encF e 27 24) (h.gs (encA e)).toNat (h.gs (encB e)).toNat then .next (s.putGroup g (h.jumpBy (encOff e)))
    else s.finish g e h)

/-- CALL: sD takes the return address (Table 05-5). -/
def execCall (g : GroupRef) (e : Enc) (s : State) : Res :=
  issue s g e ⟨0x20, 2, decodeBr 2 e, []⟩ (fun s h _ =>
    .next (s.putGroup g ((h.setS (encD e) (BitVec.ofNat 64 (h.pc + 8#48).toNat)).jumpBy (encOff e))))

/-- JR and RET: a target that is not a multiple of 8 is the alignment fault (R56). -/
def jumpReg (fn : Nat) (r : GroupRef) (e : Enc) (s : State) : Res :=
  let i : Ins := ⟨0x20, fn, decodeBr fn e, [encA e]⟩
  runBranch s r e i (fun s g l =>
    let t := (g.gs (encA e)).toNat
    if t % 8 != 0 then raise s r e i g l 0x0A g.act t
    else .next (s.putGroup r { g with pc := BitVec.ofNat 48 t }))

/-- JR (R56). -/
def execJr (g : GroupRef) (e : Enc) (s : State) : Res := jumpReg 3 g e s
/-- RET (R56). -/
def execRet (g : GroupRef) (e : Enc) (s : State) : Res := jumpReg 4 g e s

/-! ### The mask stack (Table 04-4, R61) -/

/-- P of the Mask format. -/
def maskP (e : Enc) : Nat := encF e 45 42

/-- SPLIT (R60). -/
def execSplit (g : GroupRef) (e : Enc) (s : State) : Res :=
  let i : Ins := ⟨0x21, 0, decodeMask 0 e, []⟩
  issue s g e i (fun s h l =>
    if h.stack.length ≥ 32 then raise s g e i h l 0x06 h.act 0
    else
      let t := h.act &&& h.gp (maskP e)
      let f := h.act &&& ~~~(h.gp (maskP e))
      let x := (h.jumpBy (encOff e)).pc
      if t != 0 then s.finish g e { h with act := t, stack := ⟨h.act, f, x⟩ :: h.stack }
      else .next (s.putGroup g { h with act := f, stack := ⟨h.act, 0, x⟩ :: h.stack, pc := x }))

/-- ELSE (R60). -/
def execElseMask (g : GroupRef) (e : Enc) (s : State) : Res :=
  let i : Ins := ⟨0x21, 1, decodeMask 1 e, []⟩
  issue s g e i (fun s h l =>
    match h.stack with
    | [] => raise s g e i h l 0x07 h.act 0
    | x :: xs =>
      if x.f != 0 then .next (s.putGroup g { h with act := x.f, stack := { x with f := 0 } :: xs, pc := x.e })
      else .next (s.putGroup g (h.jumpBy (encOff e))))

/-- JOIN (R60). -/
def execJoin (g : GroupRef) (e : Enc) (s : State) : Res :=
  let i : Ins := ⟨0x21, 2, decodeMask 2 e, []⟩
  issue s g e i (fun s h l =>
    match h.stack with
    | [] => raise s g e i h l 0x07 h.act 0
    | x :: xs => s.finish g e { h with act := x.m, stack := xs })

/-- CUT (R60). -/
def execCut (g : GroupRef) (e : Enc) (s : State) : Res :=
  let i : Ins := ⟨0x21, 3, decodeMask 3 e, []⟩
  issue s g e i (fun s h l =>
    match h.stack with
    | [] => raise s g e i h l 0x07 h.act 0
    | _ =>
      let a := h.act &&& ~~~(h.gp (maskP e))
      if a != 0 then s.finish g e { h with act := a }
      else .next (s.putGroup g ({ h with act := a }.jumpBy (encOff e))))

/-- ELECT (R66). -/
def execElect (g : GroupRef) (e : Enc) (s : State) : Res :=
  issue s g e ⟨0x21, 4, decodeMask 4 e, []⟩ (fun s h _ =>
    let n := lowLane h.act
    s.finish g e ((h.setP (maskP e) (maskOf [n])).setS (encF e 41 36) (BitVec.ofNat 64 n)))

/-! ### Waits (R63, R208) -/

/-- A command that names one of the descriptors of a group is in flight. -/
def State.anyTile (s : State) (launch index mask : Nat) : Bool :=
  (List.range 16).any (fun t => bit mask t && s.tileBusy launch index t)

/-- TWAIT (R63). -/
def execTwait (g : GroupRef) (e : Enc) (s : State) : Res :=
  issue s g e ⟨0x22, 0, decodeWait 0 e, []⟩ (fun s h _ =>
    if s.anyTile h.launch h.index (encF e 15 0) then
      .next (s.putGroup g { h with stat := .twait (BitVec.ofNat 16 (encF e 15 0)) })
    else s.finish g e h)

/-- TWAIT_RETURN: the scoreboards have cleared (R208). -/
def execTwaitReturn (g : GroupRef) (s : State) : Res :=
  s.clocked <|
  match Map.find? s.groups (refKey g) with
  | none => s.idle "no group holds this slot"
  | some h =>
    match h.stat with
    | .twait m =>
      if s.anyTile h.launch h.index m.toNat then s.idle "a command is in flight"
      else .next (s.putGroup g { h with stat := .run, pc := h.pc + 8#48 })
    | _ => s.idle "the group is not in TWAIT"

/-- SWAIT checks its word, then waits for it (R63). A poisoned register or word is reported after the lower codes that the
registers without poison give (R72, log entry 89). -/
def execSwait (g : GroupRef) (e : Enc) (s : State) : Res :=
  let i : Ins := ⟨0x22, 1, decodeWait 1 e, [encA e, encB e]⟩
  issue s g e i (fun s h l =>
    let core := g.core.toNat
    let a := (h.gs (encA e)).toNat
    if h.spois.contains (encA e) then raise s g e i h l 0x0E h.act 0
    else if a % 8 != 0 then raise s g e i h l 0x0A h.act a
    else if a + 8 > poolSize core then raise s g e i h l 0x0C h.act a
    else
      let (bs, bad) := s.poolRead core a 8
      if bad || h.spois.contains (encB e) then raise s g e i h l 0x0E h.act (if bad then a else 0)
      else if condInt 64 (encF e 27 24) (ofLe bs) (h.gs (encB e)).toNat then s.finish g e h
      else .next (s.putGroup g { h with stat := .swait a (h.gs (encB e)) (BitVec.ofNat 4 (encF e 27 24)) (encWord 0x22 1 e) }))

/-- SWAIT_RETURN: the word meets the comparison (R208); a poisoned word is a group fault (R63). -/
def execSwaitReturn (g : GroupRef) (s : State) : Res :=
  s.clocked <|
  match Map.find? s.groups (refKey g) with
  | none => s.idle "no group holds this slot"
  | some h =>
    match h.stat, Map.find? s.launches h.launch with
    | .swait a rhs cc w0, some l =>
      let (bs, bad) := s.poolRead g.core.toNat a 8
      if bad then .next (s.fatal g h l ⟨0x0E, h.act, a⟩ w0 0)
      else if condInt 64 cc.toNat (ofLe bs) rhs.toNat then .next (s.putGroup g { h with stat := .run, pc := h.pc + 8#48 })
      else s.idle "the word does not meet the comparison"
    | _, _ => s.idle "the group is not in SWAIT"

/-! ### END and the completion of a launch (R69) -/

/-- END: the group's slot is freed (R61, R69). -/
def execEndGroup (g : GroupRef) (e : Enc) (s : State) : Res :=
  let i : Ins := ⟨0x23, 0, decodeBare false e, []⟩
  issue s g e i (fun s h l =>
    if h.stack.length != 0 then raise s g e i h l 0x08 h.act 0
    else .next { s with groups := Map.drop s.groups (refKey g) })

/-- A launch's status reaches its packet: the lowest child that failed decides (R146, R264). -/
def Started.launchDone (p : Started) (id : Nat) (l : Launch) : Started :=
  if !p.live.contains id then p
  else
    let p := { p with live := NSet.del p.live id, cycles := p.cycles + l.cycles }
    if l.status == 0 then p
    else match p.failId with
      | some k => if id < k then { p with failId := some id, status := l.status } else p
      | none => { p with failId := some id, status := l.status }

/-- A launch leaves: the matrix engine is released and its status reaches the queue (R69, R120). -/
def State.finishLaunch (s : State) (id : Nat) (l : Launch) : State :=
  { s with
    launches := Map.drop s.launches id
    mtxHolder := Map.keepV s.mtxHolder (fun _ h => h != id)
    queues := Map.modify s.queues l.queue (fun q => { q with started := q.started.map (fun p => p.launchDone id l) }) }

end Sys2Proof.Machine
end

