-- ==== Sys2Proof/Machine/HostSite.lean ====
section
/-! DEFINITION. The host sites (chapter 18): the life of a site's link (R296 to R298, R308 to R310), the completions of
configuration and unsupported requests (R4, R20, R299, R310), the assignment of partitions to site B (R307), MSI-X unmasking
(R302) and ATS invalidation (R304). -/

namespace Sys2Proof.Machine

/-- Site A is always there; site B only on the SAB part (R4, R306). -/
def State.populated (s : State) (site : Nat) : Bool := site == 0 || s.flash.order == .sab

/-- Status of a completion: successful, Unsupported Request, Configuration Request Retry, not present. -/
def cplOk : Nat := 0
/-- Unsupported Request. -/
def cplUr : Nat := 1
/-- Configuration Request Retry Status. -/
def cplCrs : Nat := 2
/-- The not-present status of R4. -/
def cplNotPresent : Nat := 3

/-! ### The link of a site -/

/-- HOST_POWER_GOOD: HST_PWRGD is high and HST_PERST_N released; training begins once DEV_PWRGD is high too (R310). With HST_PWRGD
low the site is absent, and its link is down (R308). -/
def execHostPowerGood (pin : PowerPin) (s : State) : Res :=
  let site := pin.site
  if !s.populated site.val then s.idle "the site is not populated"
  else if !pin.high then
    let t := { s with pins := { s.pins with hstPwrGd := s.pins.hstPwrGd.set site.val false } }
    let t := if t.rf (.hstLinkSts site.val) 1 1 == 1 then t.hostLinkLost site.val else t
    .next (if s.alive then t.setRf (.hstLinkSts site.val) 0 0 0 else t)
  else
    let t := { s with pins := { s.pins with
      hstPwrGd := s.pins.hstPwrGd.set site.val true
      perstN := s.pins.perstN.set site.val true } }
    .next (if s.alive then t.setRf (.hstLinkSts site.val) 0 0 1 else t)

/-- The modules that carry flits: all of a site, else the first pair whose modules both trained, else the lowest trained one
(R297). -/
def inUse (site : Nat) (trained : Nat) : Nat :=
  let m := trained % 16
  if site == 1 then (if m % 4 == 3 then 3 else if m % 2 == 1 then 1 else if m % 4 == 2 then 2 else 0)
  else if m == 15 then 15
  else if m % 4 == 3 then 3
  else if m / 4 == 3 then 12
  else if bit m 0 then 1 else if bit m 1 then 2 else if bit m 2 then 4 else if bit m 3 then 8 else 0

/-- Modules of a site. -/
def siteModules (site : Nat) : Nat := if site == 0 then 4 else 2

/-- HOST_LINK_UP: training ends with the modules that trained, all at one rate; modules left out are logged; the link comes
up, or back from a retrain, where any trained (R296, R297, R298). -/
def execHostLinkUp (site : Fin 2) (trained : BitVec 4) (fast : Bool) (s : State) : Res :=
  let i := site.val
  let r : Reg := .hstLinkSts i
  if !(s.pins.hstPwrGd.getD i false && s.pins.perstN.getD i false && s.pins.devPwrGd.getD i false && s.populated i) ||
      (s.rf r 1 1 == 1 && !s.boot.retraining.getD i false) then
    s.idle "the site does not train"
  else
    let m := trained.toNat % 2 ^ siteModules i
    let out := (List.range (siteModules i)).filter (fun n => !bit m n)
    let t := out.foldl (fun t n => t.ras_ (rasOf 0x08 1 15 0x07 (i * 4 + n) 2)) (s.setRf r 11 8 m)
    if m == 0 then .next t
    else
      let t := ((t.setRf r 15 12 (inUse i m)).setRf r 23 20 (if fast then 2 else 1)).setRf r 1 1 1
      .next ({ t with boot := { t.boot with retraining := t.boot.retraining.set i false } }.setReadyFn i true)

/-- HOST_LINK_RETRAIN: a link that stopped exchanging flits is retrained (R298). -/
def execHostLinkRetrain (site : Fin 2) (s : State) : Res :=
  let r : Reg := .hstLinkSts site.val
  if s.rf r 1 1 == 0 || s.boot.retraining.getD site.val false then s.idle "the link does not run"
  else .next ({ s with boot := { s.boot with retraining := s.boot.retraining.set site.val true } }.setRf r 47 32
    (satInc 16 (s.rf r 47 32)))

/-- HOST_LINK_DOWN: the link is not back within 10 ms (R298). -/
def execHostLinkDown (site : Fin 2) (s : State) : Res :=
  if s.boot.retraining.getD site.val false then .next (s.hostLinkLost site.val)
  else s.idle "the link is not being retrained"

/-- UCIE_FLIT_REPLAY (R298). -/
def execUcieFlitReplay (site : Fin 2) (s : State) : Res :=
  if s.rf (.hstLinkSts site.val) 1 1 == 0 then s.idle "the link does not run"
  else .next (s.setReg (.hstCrcRetry site.val) ((s.reg (.hstCrcRetry site.val) + 1) % 2 ^ 64))

/-- SITE_A_PERST: requests warm device reset (R309). -/
def execSiteAPerst (s : State) : Res :=
  let t := { s with pins := { s.pins with perstN := s.pins.perstN.set 0 false } }
  .next (if s.alive then t.askReset (t.newReset 4 0 0 0 0 0) false else t)

/-- SITE_B_PERST: resets site B's link alone (R309). -/
def execSiteBPerst (s : State) : Res :=
  let t := { s with pins := { s.pins with perstN := s.pins.perstN.set 1 false } }
  .next (if s.rf (.hstLinkSts 1) 1 1 == 1 then t.hostLinkLost 1 else t)

/-! ### Requests that are completed with a status -/

/-- SITEB_TRAIN_REQUEST: an unpopulated site B answers as not present (R4). -/
def execSitebTrainRequest (_module : Fin 2) (s : State) : Res :=
  .next (if s.populated 1 then s else s.emit (.completion 1 0 cplNotPresent))

/-- SITEB_CONFIG_ACCESS: Unsupported Request, logged (R20). -/
def execSitebConfigAccess (_off : Nat) (_write : Bool) (s : State) : Res :=
  .next ((s.emit (.completion 1 0 cplUr)).dropped 20 0x7F)

/-! ### Configuration space (R299, R301; the places of fields are those of the PCIe standard, log entry 110) -/

/-- A field of a configuration dword: its bits, the value it reads as until it is written, and the greatest value of those it
keeps; none where a write changes nothing. -/
structure CfgField where
  hi   : Nat
  lo   : Nat
  val  : Nat
  kept : Option Nat
  deriving DecidableEq, Repr

/-- The two dwords of a 64-bit memory BAR that is not prefetchable, of 2^k bytes (R301): the address is kept. -/
def barFields (k : Nat) (upper : Bool) : List CfgField :=
  if upper then [⟨31, 0, 0, some (2 ^ 32 - 1)⟩] else [⟨31, k, 0, some (2 ^ 32 - 1)⟩, ⟨k - 1, 0, 4, none⟩]

/-- Dwords of the capabilities that R299 supports, by capability: 0 PCIe with payload and request sizes of at most 512 B and
4,096 B, the function level reset of VFs, and neither AtomicOps nor TPH, 1 SR-IOV with 96 VFs and their BARs, 2 ATS, 3 PASID of
20 bits, 4 MSI-X with its table and pending bits in BAR2, 5 DOE, 6 AER. -/
def capFields (pf : Bool) (cap i : Nat) : List CfgField :=
  match cap, i with
  | 0, 0 => [⟨7, 0, 0x10, none⟩]
  | 0, 1 => [⟨28, 28, if pf then 0 else 1, none⟩, ⟨2, 0, 2, none⟩]
  | 0, 2 => if pf then [⟨14, 12, 2, some 5⟩, ⟨7, 5, 0, some 2⟩] else []
  | 0, 9 => [⟨13, 12, 0, none⟩, ⟨9, 6, 0, none⟩]
  | 0, 10 => [⟨6, 6, 0, none⟩]
  | 1, 0 => [⟨15, 0, 0x10, none⟩]
  | 1, 3 => [⟨31, 16, 96, none⟩, ⟨15, 0, 96, none⟩]
  | 1, 6 => [⟨31, 16, 0x7013, none⟩]
  | 1, 9 => barFields 20 false
  | 1, 10 => barFields 20 true
  | 1, 11 => barFields 14 false
  | 1, 12 => barFields 14 true
  | 2, 0 => [⟨15, 0, 0x0F, none⟩]
  | 3, 0 => [⟨15, 0, 0x1B, none⟩]
  | 3, 1 => [⟨12, 8, 20, none⟩]
  | 4, 0 => [⟨26, 16, if pf then 63 else 31, none⟩, ⟨7, 0, 0x11, none⟩]
  | 4, 1 => [⟨31, 0, 2, none⟩]
  | 4, 2 => [⟨31, 0, 0x2002, none⟩]
  | 5, 0 => [⟨15, 0, 0x2E, none⟩]
  | 6, 0 => [⟨15, 0, 0x01, none⟩]
  | _, _ => []

/-- The capabilities of a function: SR-IOV and DOE are PF0's (R300, R301). -/
def capsOf (pf : Bool) : List Nat := if pf then [0, 1, 2, 3, 4, 5, 6] else [0, 2, 3, 4, 6]

/-- The defined fields of a configuration dword. -/
def cfgFields (fn dw : Nat) : List CfgField :=
  if dw == 0 then [⟨31, 16, if fn == 0 then 0x7012 else 0x7013, none⟩, ⟨15, 0, Config.vendorId.toNat, none⟩]
  else if dw == 4 || dw == 5 then (if fn == 0 then barFields 27 (dw == 5) else [⟨31, 0, 0, none⟩])
  else if dw == 6 || dw == 7 then (if fn == 0 then barFields 14 (dw == 7) else [⟨31, 0, 0, none⟩])
  else if dw < 16 then []
  else ((capsOf (fn == 0)).map (fun c =>
    let at_ := Config.capDword (fn == 0) c
    if at_ ≤ dw then capFields (fn == 0) c (dw - at_) else [])).flatten

/-- What a dword reads as: its defined fields over free bits, which the manual does not give. -/
def readCfg (fields : List CfgField) (written : Option Nat) (free : Nat) : Nat :=
  fields.foldl (fun v f =>
    setFld v f.hi f.lo (match written with | some w => (match f.kept with | some m => min (fld w f.hi f.lo) m | none => f.val) | none => f.val)) free

/-- The function of a configuration request does not answer yet: the link bit is clear, or its partition is resetting (R273,
R310). -/
def State.notReady (s : State) (fn : Nat) : Bool := !s.readyFn 0 || (1 ≤ fn && s.rf (.cfgPartSts (fn - 1)) 23 20 == 2)

/-- CONFIG_REQUEST: Retry Status while the function is not ready; then its configuration space answers (R299, R301, R310). The
functions are those of Table 18-2. -/
def execConfigRequest (fn off : Nat) (write : Option (BitVec 32)) (s : State) : Res :=
  if 96 < fn then .next (s.emit (.completion 0 fn cplUr))
  else if s.notReady fn then .next (s.emit (.completion 0 fn cplCrs))
  else match write with
    | some w => .next ({ s with cfg := Map.put s.cfg (fn * 1024 + off / 4 % 1024) w.toNat }.emit (.completion 0 fn cplOk))
    | none =>
      let dw := off / 4 % 1024
      let fields := cfgFields fn dw
      let (free, t) := s.fresh
      .next (t.emit (.readData fn off 4 (BitVec.ofNat 64
        (readCfg fields (Map.find? s.cfg (fn * 1024 + dw)) (free.toNat % 2 ^ 32)))))

/-- UNSUPPORTED_REQUEST: Unsupported Request, logged (R299). -/
def execUnsupportedRequest (site : Fin 2) (fn : Nat) (_what : Unsupported) (s : State) : Res :=
  .next ((s.emit (.completion site.val fn cplUr)).dropped 299 (if fn == 0 then 0x7F else fn - 1))

/-! ### Site B's partitions, interrupts, ATS -/

/-- Bits of a map register whose partitions are enabled. -/
def State.mapLocked (s : State) (high : Bool) : Nat :=
  (List.range (if high then 32 else 64)).foldl (fun m i =>
    if s.partOn ((if high then 64 else 0) + i) then m + 2 ^ i else m) 0

/-- A write of HST_SITEB_MAP: bits of disabled partitions are applied, changes of others logged; the register of a part without
site B ignores it (R307). -/
def State.writeSiteMap (s : State) (high : Bool) (val : Nat) : State :=
  let r : Reg := if high then .hstSitebMapHi else .hstSitebMapLo
  if !s.populated 1 then s
  else
    let old := s.reg r
    let lock := s.mapLocked high
    let want := r.written 63 0 old val
    let t := if ((old ^^^ want) &&& lock) != 0 then s.accessError 307 0 r.key else s
    t.setReg r ((old &&& lock) ||| (want - (want &&& lock)))

/-- SITEB_MAP_WRITE (R307). -/
def execSitebMapWrite (high : Bool) (val : BitVec 64) (s : State) : Res := .next (s.writeSiteMap high val.toNat)

/-- Vectors of a function (Table 18-2). -/
def vectorsOf (fn : Nat) : Nat := if fn == 0 then 64 else 32

/-- The mask bit of an entry is cleared: a pending vector fires once (R302). -/
def State.unmask (s : State) (fn vector : Nat) : State :=
  let e := Map.getD s.msix (fn * 64 + vector) ⟨0, 0, true, false⟩
  let t := { s with msix := Map.put s.msix (fn * 64 + vector) { e with
    mask := false
    pend := false } }
  if e.pend then t.emit (.msix (s.fnSite fn) fn vector) else t

/-- MSIX_UNMASK (R302). -/
def execMsixUnmask (fn vector : Nat) (s : State) : Res :=
  if vector ≥ vectorsOf fn then .fault .absentUnit else .next (s.unmask fn vector)

/-- ATS_INVALIDATION: the Weir's translations into the covered host pages of a PASID go, and the invalidation completes: the
accesses translated with them have been accepted (R304). -/
def execAtsInvalidation (site : Fin 2) (pasid page pages : Nat) (s : State) : Res :=
  let hit := fun (e : TlbEntry) => e.die == 15 && spaceOf e.dpa == 3 && s.siteOf e.part == site.val &&
    s.pasid e.ctx == pasid && decide (e.dpa % 2 ^ 48 / 4096 < page + pages && page * 4096 < e.dpa % 2 ^ 48 + e.size)
  .next ({ s with tlb := s.tlb.filter (fun e => !hit e) }.emit (.atsDone site.val))

end Sys2Proof.Machine
end

