-- ==== Sys2Proof/Machine/PowerCtl.lean ====
section
/-! DEFINITION. The power controller (R330 to R341, R344) and the core regulators (R406). Powers are in mW. -/

namespace Sys2Proof.Machine

/-- Core voltage of a clock step in mV (Table 20-1). -/
def stepVolt (n : Nat) : Nat :=
  if n == 0 then 620 else if n ≤ 11 then 620 + 15 * n else if n == 12 then 800 else if n == 13 then 840
  else if n == 14 then 890 else 950

/-- The regulator frame that sets a step's voltage: 0b1010, reserved, mV above 500 (R406). -/
def vcmdFrame (step : Nat) : Nat := 0xA000 + (stepVolt step - 500)

/-- FIXED_ACTIVE: every die is at PWR_FIXED.STEP in Fixed clock mode. -/
def State.noteFixed (s : State) : State :=
  s.setRf .pwrSts 5 5 (b2n (s.rf .pwrFixed 8 8 == 1 && (List.range 12).all (fun d => s.dieStep d == s.rf .pwrFixed 3 0)))

/-- A die's regulator is sent the frame of a step's voltage and has to acknowledge it (R406). -/
def State.sendFrame (s : State) (d step : Nat) : State :=
  ({ s with power := { s.power with vcmd := Map.put s.power.vcmd d (step, 0) } }).emit (.vcmd d (vcmdFrame step))

/-- A die begins a change to a step: its edges become asynchronous (R318). Upward, the rail ramps before K switches; downward, K
switches first (R331, R406). -/
def State.beginStep (s : State) (d step : Nat) : State :=
  let t := s.edgesAsync d
  let t := { t with power := { t.power with
    stepChg := Map.put t.power.stepChg d step
    moved := NSet.ins t.power.moved d } }
  if step > s.dieStep d then t.sendFrame d step else t

/-- A die's change to a step has not finished: K has not switched, or the rail has not reached its target (R331). -/
def State.changing (s : State) (d : Nat) : Bool := (Map.find? s.power.stepChg d).isSome || (Map.find? s.power.vcmd d).isSome

/-- A die switches K to a step. -/
def State.takeStep (s : State) (d step : Nat) : State :=
  let t := s.setRf (.pwrDieSts d) 35 32 step
  ({ t with power := { t.power with stepChg := Map.drop t.power.stepChg d, moved := NSet.ins t.power.moved d } }).noteFixed

/-- STEP_CHANGE_COMPLETE: the die switches K. An upward change needs its regulator's acknowledgement first; after a downward one the
voltage is lowered (R331). -/
def execStepChangeComplete (d : Fin 12) (s : State) : Res :=
  match Map.find? s.power.stepChg d.val with
  | none => s.idle "no step change is in progress"
  | some n =>
    if n > s.dieStep d.val && (Map.find? s.power.vcmd d.val).isSome then
      s.idle "the rail has not reached its target"
    else if n < s.dieStep d.val then .next ((s.takeStep d.val n).sendFrame d.val n)
    else .next (s.takeStep d.val n)

/-- VCMD_ACK: the rail is within tolerance of its target (R406). -/
def execVcmdAck (d : Fin 12) (s : State) : Res :=
  if (Map.find? s.power.vcmd d.val).isSome then
    .next { s with power := { s.power with vcmd := Map.drop s.power.vcmd d.val } }
  else s.idle "no frame awaits an acknowledgement"

/-- VCMD_ACK_TIMEOUT: the frame is resent twice; then the die is held at its present step (R406). -/
def execVcmdAckTimeout (d : Fin 12) (s : State) : Res :=
  match Map.find? s.power.vcmd d.val with
  | none => s.idle "no frame awaits an acknowledgement"
  | some (step, tries) =>
    if tries < 2 then
      .next (({ s with power := { s.power with vcmd := Map.put s.power.vcmd d.val (step, tries + 1) } }).emit
        (.vcmd d.val (vcmdFrame step)))
    else
      .next (({ s with power := { s.power with
        vcmd := Map.drop s.power.vcmd d.val, stepChg := Map.drop s.power.stepChg d.val,
        held := NSet.ins s.power.held d.val } }).ras_ (rasOf 0x0B 1 d.val 0x09 d.val 3))

/-- Set RANGE_ERR. -/
def State.rangeErr (s : State) : State := s.setRf .pwrSts 1 1 1

/-- PWR_CAP_WRITE: a cap of 500 W to CAP_MAX takes effect at the next interval; any other is ignored (R332). -/
def execPwrCapWrite (val : BitVec 32) (s : State) : Res :=
  let c := fld val.toNat 10 0
  if 500 ≤ c && c ≤ s.flash.order.capMax then .next (s.setRf .pwrCap 10 0 c) else .next s.rangeErr

/-- PWR_FIXED_WRITE: EN = 1 with a STEP above 12 is ignored (R337). -/
def execPwrFixedWrite (val : BitVec 32) (s : State) : Res :=
  if bit val.toNat 8 && fld val.toNat 3 0 > 12 then .next s.rangeErr
  else .next ((s.setReg .pwrFixed (Reg.written .pwrFixed 31 0 (s.reg .pwrFixed) val.toNat)).noteFixed)

/-- The brake takes a die to step 0, K first, and ends a change under way (R334). -/
def State.brakeDie (s : State) (d : Nat) : State :=
  if (s.dieStep d == 0 && (Map.find? s.power.stepChg d).isNone) || s.power.held.contains d then s
  else ((s.edgesAsync d).takeStep d 0).sendFrame d 0

/-- BRAKE_ASSERT: PWR_BRAKE_N is low and every Pan die runs at step 0 (R334). -/
def execBrakeAssert (s : State) : Res :=
  .next ((List.range 12).foldl State.brakeDie { s with pins := { s.pins with brakeN := false } })

/-- BRAKE_DEASSERT: the controller may raise steps at the next interval (R334). -/
def execBrakeDeassert (s : State) : Res := .next { s with pins := { s.pins with brakeN := true } }

/-- EBB_STRETCH: the die's clock is stretched; the entry is counted and logged. Too many in 1 ms limit it to one step below its
present one for 10 ms, anew where it is limited already (R339, R340). -/
def execEbbStretch (d : Fin 12) (s : State) : Res :=
  if s.power.stretch.contains d.val then s.idle "the die's clock is stretched"
  else
    let now := s.weirCtr.toNat
    let times := now :: (Map.getD s.power.ebbTimes d.val []).filter (fun t => now < t + 100000)
    let rate := s.rf .pwrEbbCtl 15 8
    let lim := rate != 0 && times.length > rate
    let t := (s.setReg (.pwrEbbCnt d.val) ((s.reg (.pwrEbbCnt d.val) + 1) % 2 ^ 64)).ras_ (rasOf 0x0B 0 d.val 0x09 d.val 0)
    .next { t with power := { t.power with
      stretch := NSet.ins t.power.stretch d.val
      ebbTimes := Map.put t.power.ebbTimes d.val times
      ebbLimit := if lim then Map.put t.power.ebbLimit d.val (s.dieStep d.val - 1) else t.power.ebbLimit } }

/-- EBB_STRETCH_END (R339). -/
def execEbbStretchEnd (d : Fin 12) (s : State) : Res :=
  if s.power.stretch.contains d.val then
    .next { s with power := { s.power with stretch := NSet.del s.power.stretch d.val } }
  else s.idle "the die's clock is not stretched"

/-- EBB_LIMIT_EXPIRY: the 10 ms limit ends (R340). -/
def execEbbLimitExpiry (d : Fin 12) (s : State) : Res :=
  if (Map.find? s.power.ebbLimit d.val).isSome then
    .next { s with power := { s.power with ebbLimit := Map.drop s.power.ebbLimit d.val } }
  else s.idle "the die is not limited"

/-- THERMAL_SAMPLE: a die's hottest sensor is read and Table 20-3 applies. -/
def execThermalSample (d : Fin 12) (tempC : Nat) (s : State) : Res :=
  let s := s.setRf (.pwrDieSts d.val) 47 40 (min tempC 255)
  if tempC < 98 then
    .next { s with power := { s.power with
      hot := NSet.del s.power.hot d.val, thermCeil := Map.drop s.power.thermCeil d.val } }
  else if tempC < 100 then .next s
  else
    let s := { s with power := { s.power with hot := NSet.ins s.power.hot d.val } }
    if tempC < 105 then .next s
    else
      let s := { s with power := { s.power with thermCeil := Map.put s.power.thermCeil d.val 0 } }
      if tempC < 110 then .next (s.ras_ (rasOf 0x0C 1 d.val 0x09 d.val 3))
      else .next (((s.ras_ (rasOf 0x0C 3 d.val 0x09 d.val 4)).setRf .pwrSts 7 7 1).alert)

/-! ### The control interval (R335, R336) -/

/-- Core cycles of a die charged to any context, and elapsed, in this interval: act is their quotient. -/
def State.actOf (s : State) (d : Nat) : Nat × Nat := (Map.getD s.power.cyc (768 + d) 0, Map.getD s.power.cyc (780 + d) 0)

/-- The phase that held the most core cycles on a die; ties to the lower number, 0 without cycles. -/
def State.phaseOf (s : State) (d : Nat) : Nat :=
  ((List.range 64).foldl (fun b p =>
    let n := Map.getD s.power.cyc (d * 64 + p) 0
    if n > b.2 then (p, n) else b) ((0, 0) : Nat × Nat)).1

/-- The learned power of a phase at a step, the seed until learned (R336). -/
def State.pTab (s : State) (phase step : Nat) : Nat := Map.getD s.power.ptab (phase * 16 + step) (Config.powerSeed step)

/-- Leakage of a die at a step and its measured temperature. -/
def State.leak (s : State) (d step : Nat) : Nat := Config.leakage d step (s.rf (.pwrDieSts d) 47 40)

/-- est(d, s) of R335. -/
def State.est (s : State) (d phase step : Nat) : Nat :=
  let a := s.actOf d
  a.1 * s.pTab phase step / max a.2 1 + s.leak d step

/-- One learning update: P + ((m − leak)/act − P)/16 (R336). -/
def learn (p m leak num den : Nat) : Nat :=
  let q : Int := ((m : Int) - leak) * den / (max num 1 : Nat)
  ((p : Int) + (q - p) / 16).toNat

/-- Learn from every die that held its step with act at least 1/16 (R336). -/
def State.learnAll (s : State) (dies : List Nat) : State :=
  (List.range 12).foldl (fun t d =>
    let a := s.actOf d
    if s.power.moved.contains d || a.1 * 16 < a.2 || a.1 == 0 then t
    else
      let ph := s.phaseOf d
      let st := s.dieStep d
      { t with power := { t.power with
        ptab := Map.put t.power.ptab (ph * 16 + st) (learn (t.pTab ph st) (dies.getD d 0) (s.leak d st) a.1 a.2) } }) s

/-- The effective cap in W: the cap and the balance delta, at most CAP_MAX (R343); the one held while the management controller
does not run (R361). -/
def State.effCap (s : State) : Nat :=
  let c := s.rf .pwrCap 10 0
  if let some h := s.power.heldCap then h
  else if s.rf .pwrSts 3 3 == 1 then
    min ((c : Int) + toSigned 16 (s.rf .pwrBalSts 31 16)).toNat s.flash.order.capMax
  else c

/-- The step a die wants (R335, R340, R341). -/
def State.wantOf (s : State) (d phase : Nat) : Nat :=
  let fixed := s.rf .pwrFixed 8 8 == 1
  let w := if fixed then s.rf .pwrFixed 3 0 else s.adoptedVal (12 + d) (.pwrPhasePref phase)
  let w := if s.rf (.pwrDieSts d) 47 40 ≥ 95 then min w 12 else w
  let w := if fixed then w else min w (Map.getD s.power.ebbLimit d 15)
  let w := min w (Map.getD s.power.thermCeil d 15)
  if s.pins.brakeN then w else 0

/-- The die that the loop of R335 lowers: highest step, then highest estimate, then highest number. -/
def pickDie (steps ests : List Nat) : Nat :=
  (List.range 12).foldl (fun b d =>
    let s := steps.getD d 0
    let e := ests.getD d 0
    if s > steps.getD b 0 || (s == steps.getD b 0 && e ≥ ests.getD b 0) then d else b) 0

/-- Lower steps until the estimates fit (R335). -/
def State.fitSteps (s : State) (phases : List Nat) (avail : Int) : Nat → List Nat → List Nat
  | 0, steps => steps
  | n + 1, steps =>
    let ests := (List.range 12).map (fun d => s.est d (phases.getD d 0) (steps.getD d 0))
    if ((ests.sum : Nat) : Int) ≤ avail then steps
    else
      let d := pickDie steps ests
      if steps.getD d 0 == 0 then steps else State.fitSteps s phases avail n (steps.set d (steps.getD d 0 - 1))

/-- A die that is hot has its ceiling lowered by one in each interval (R341). -/
def State.lowerHot (s : State) : State :=
  { s with power := { s.power with
    thermCeil := s.power.hot.foldl (fun m d => Map.put m d (min (Map.getD m d 15) (s.dieStep d) - 1)) s.power.thermCeil } }

/-- The next n of R334, where one of every n CCLK pulses is suppressed: 16, then one less in each control interval, to 2 (log entry
128). -/
def nextN (n : Nat) : Nat := if n == 0 then 16 else max 2 (n - 1)

/-- CONTROL_INTERVAL: learn, take the phases, share the cap, begin step changes, advance the energy counter
(R335, R336, R338, R344). -/
def execControlInterval (m : PowerSample) (s : State) : Res :=
  let s := s.learnAll m.dies
  let s := ((List.range 12).filter s.dieUp).foldl (fun t d => t.adoptUnit (12 + d)) s
  let s := s.lowerHot
  let phases := (List.range 12).map s.phaseOf
  let wants := (List.range 12).map (fun d => s.wantOf d (phases.getD d 0))
  let cap := s.effCap
  let steps := s.fitSteps phases ((cap * 970 : Nat) - (m.weirHeaps : Int)) 192 wants
  let fixed := s.rf .pwrFixed 8 8 == 1
  let lost := fixed && (List.range 12).any (fun d => steps.getD d 0 < s.rf .pwrFixed 3 0)
  let quiet := { s with power := { s.power with cyc := [], moved := s.power.stepChg.map Prod.fst } }
  let s := (List.range 12).foldl (fun (t : State) d =>
    let t := ((t.setRf (.pwrDieSts d) 63 48 (min (m.dies.getD d 0 / 100) 0xFFFF)).setRf (.pwrDieSts d) 31 28 (wants.getD d 0)).setRf
      (.pwrDieSts d) 27 22 (phases.getD d 0)
    if steps.getD d 0 == t.dieStep d || t.changing d || t.power.held.contains d || !t.dieUp d ||
        t.boot.mgmtDown || t.boot.mgmtHalted || t.tripped then t
    else t.beginStep d (steps.getD d 0)) quiet
  let gate := decide (m.mean100us > cap * 1000) && (List.range 12).all (fun d => s.dieStep d == 0)
  let s := { s.setRf .pwrSts 6 6 (b2n gate) with power := { s.power with
    capStretch := gate
    capN := if gate then nextN s.power.capN else 0 } }
  let s := s.setReg .pwrEnergy ((s.reg .pwrEnergy + (m.weirHeaps + m.dies.sum) / 100) % 2 ^ 64)
  let s := s.noteFixed
  .next (if lost then (s.setRf .pwrSts 4 4 1).ras_ (rasOf 0x12 0 15 0x08 0 3) else s)

end Sys2Proof.Machine
end

