-- ==== Sys2Proof/Machine/Mgmt.lean ====
section
/-! DEFINITION. The management controller and the root of trust: lockstep (R361), the alias trees (R389, R390), the SPDM, PLDM
and MCTP services (R384, R392, R393), the I3C address (R410), and the mailbox (R401, R402). -/

namespace Sys2Proof.Machine

/-! ### Lockstep (R361) -/

/-- The management controller serves requests: MGMT is set and it neither restarts nor is halted. -/
def State.mgmtServes (s : State) : Bool := s.readyFn 2 && !s.boot.mgmtDown && !s.boot.mgmtHalted

/-- The end of a mailbox command: ERR, RLEN, STATE done, PF0 vector 0 (R401). -/
def State.mboxEnd (s : State) (err : Nat) (rsp : List Byte) : State :=
  let t := { s with
    mbox := none
    mboxRsp := s.mboxRsp.writeBytes 0 rsp }
  (((t.setRf .mboxSts 39 24 rsp.length).setRf .mboxSts 23 16 err).setRf .mboxSts 3 0 2).fire 0 0

/-- LOCKSTEP_MISMATCH: both cores halt and the mismatch is logged in the RAS store and the Bittern; the controller restarts, or
after a second mismatch within 10 s stays halted with the alerts asserted (R361). -/
def execLockstepMismatch (s : State) : Res :=
  if !s.mgmtServes then s.idle "the controller does not run"
  else
    let now := s.weirCtr.toNat
    let e := rasOf 0x0D 2 15 0x08 0 (s.boot.mismatches + 1)
    let again := s.boot.lastMismatch != 0 && now + 1 ≤ s.boot.lastMismatch + 1000000000
    let t := { s with
      bitternLog := { e with time := now } :: s.bitternLog
      boot := { s.boot with
        mismatches := s.boot.mismatches + 1
        lastMismatch := now + 1
        mgmtDown := true
        mgmtHalted := again }
      power := { s.power with heldCap := some s.effCap } }.ras_ e
    let t := if t.mbox.isSome then t.mboxEnd 1 [] else t
    .next (if again then t.alert else t)

/-- MGMT_RESTART_COMPLETE: the controller serves again, and a cap written meanwhile takes effect (R361). -/
def execMgmtRestartComplete (s : State) : Res :=
  if s.boot.mgmtDown && !s.boot.mgmtHalted then .next { s with
      boot := { s.boot with mgmtDown := false }
      power := { s.power with heldCap := none } }
  else s.idle "the controller does not restart"

/-! ### Alias trees (R389, R390) -/

/-- ALIAS_LEFT. -/
def State.aliasLeft (s : State) : Nat := s.rf .secSts 47 32

/-- One identity leaf is used before its signature is released. -/
def State.useLeaf (s : State) : State :=
  let n := s.flash.idLms + 1
  let t := { s with flash := { s.flash with idLms := n } }.setRf .secSts 63 48 (32768 - n)
  if n ≥ 32768 then t.setRf .secSts 1 1 1 else t

/-- The certified next tree takes the place of a spent one. -/
def State.switchTree (s : State) : State :=
  if s.boot.treeNext.isSome && s.aliasLeft == 0 then
    { s with boot := { s.boot with
      treeNow := s.boot.treeNext
      treeNext := none } }.setRf .secSts 47 32 1024
  else s

/-- ALIAS_TREE_GENERATE: the boot's tree, or the next one once 64 signatures or fewer remain. -/
def execAliasTreeGenerate (s : State) : Res :=
  if !(s.boot.phase == 1 || s.boot.phase == 2) || s.boot.puf != 0 || s.flash.idLms ≥ 32768 then
    s.idle "no alias tree can be certified"
  else if s.boot.treeNow.isNone then
    .next (({ s with boot := { s.boot with treeNow := some s.flash.idLms } }.useLeaf).setRf .secSts 47 32 1024)
  else if s.aliasLeft ≤ 64 && s.boot.treeNext.isNone then
    .next ({ s with boot := { s.boot with treeNext := some s.flash.idLms } }.useLeaf.switchTree)
  else s.idle "more than 64 signatures remain"

/-! ### SPDM (R392) -/

/-- An SPDM response: its code and what follows it. The codes and layouts are those of the SPDM standard. -/
def State.spdmSend (s : State) (code : Nat) (body : List Byte) : State := s.emit (.spdm code body)

/-- The SPDM error response with an error code: 0x01 invalid request, 0x03 Busy, 0x05 Unspecified. -/
def State.spdmError (s : State) (e : Nat) : State := s.spdmSend 0x7F [BitVec.ofNat 8 e]

/-- A request that the responder answers only while SECURITY is set; unanswered while the controller does not serve. -/
def State.spdmServe (s : State) (f : State → State) : Res :=
  if !s.mgmtServes then .next s else if !s.readyFn 3 then .next (s.spdmError 3) else .next (f s)

/-- n bytes that only the part's keys determine. -/
def keyBytes (what n : Nat) (request : List Byte) : List Byte := (List.range n).map (fun i => (Config.secretBytes what request).getD i 0)

/-- The current alias tree, by the identity leaf that certified it. -/
def State.tree (s : State) : List Byte := leBytes (s.boot.treeNow.getD 0) 2

/-- A signed response uses one alias signature (R390). Its OpaqueData has one element, the alias LMS signature of 2,508 B over the
transcript hash that the ECDSA P-384 signature covers, which ends the response (R392, log entry 131). -/
def State.spdmSign (s : State) (code : Nat) (body : List Byte) (what : Nat) (req : List Byte) : State :=
  if s.aliasLeft == 0 then s.spdmError (if s.rf .secSts 1 1 == 1 && s.boot.treeNext.isNone then 5 else 3)
  else
    let transcript := s.tree ++ req ++ body
    let opaqueData := leBytes 2508 2 ++ keyBytes (what + 10) 2508 (leBytes (1024 - s.aliasLeft) 2 ++ transcript)
    ((s.setRf .secSts 47 32 (s.aliasLeft - 1)).switchTree).spdmSend code (body ++ opaqueData ++ keyBytes what 96 transcript)

/-- The certificate chain of slot 0: Pyrem root, DeviceID, and the alias certificate of the current tree. Slot 1 is its LMS
companion: for each of them, in that order, a 4 B index and its issuer's LMS signature, of 2,508 B by the Pyrem root and of 2,668 B by
the identity key (R392, log entry 131). -/
def State.certChain (s : State) (slot : Nat) : List Byte :=
  if slot == 0 then Config.secretBytes 10 [] ++ Config.secretBytes 14 [] ++ Config.secretBytes 15 s.tree
  else leBytes 0 4 ++ keyBytes 16 2508 [] ++ leBytes 1 4 ++ keyBytes 17 2508 [] ++ leBytes 2 4 ++ keyBytes 18 2668 s.tree

/-- GET_VERSION: versions 1.2 and 1.3; answered whatever SECURITY is. -/
def execGetVersion (_req : List Byte) (s : State) : Res :=
  .next (if s.mgmtServes then s.spdmSend 0x04 [2, 0x00, 0x12, 0x00, 0x13] else s)

/-- GET_CAPABILITIES: CERT, CHAL and MEAS with signature. -/
def execGetCapabilities (_req : List Byte) (s : State) : Res := s.spdmServe (fun t => t.spdmSend 0x61 (leBytes 0x16 4))

/-- NEGOTIATE_ALGORITHMS: ECDSA P-384 and SHA-384 only. -/
def execNegotiateAlgorithms (_req : List Byte) (s : State) : Res :=
  s.spdmServe (fun t => t.spdmSend 0x63 (leBytes 0x80 4 ++ leBytes 0x02 4))

/-- GET_DIGESTS: the digest of each slot's chain. -/
def execGetDigests (_req : List Byte) (s : State) : Res :=
  s.spdmServe (fun t => t.spdmSend 0x01 (3 :: sha384 (t.certChain 0) ++ sha384 (t.certChain 1)))

/-- GET_CERTIFICATE: a portion of a slot's chain, with its length and what remains. -/
def execGetCertificate (slot : Nat) (offset length : Nat) (s : State) : Res :=
  s.spdmServe (fun t =>
    let chain := t.certChain slot
    let part := (chain.drop offset).take length
    if slot > 1 then t.spdmError 1
    else t.spdmSend 0x02 (BitVec.ofNat 8 slot :: leBytes part.length 2 ++ leBytes (chain.length - offset - part.length) 2 ++ part))

/-- CHALLENGE: CHALLENGE_AUTH signed with both alias keys. -/
def execChallenge (slot : Nat) (req : List Byte) (s : State) : Res :=
  s.spdmServe (fun t =>
    if slot > 1 then t.spdmError 1
    else t.spdmSign 0x03 (BitVec.ofNat 8 slot :: sha384 (t.certChain slot)) 12 req)

/-- The measurement blocks that an index asks for: 0 their number alone, 1 to 8 one register, 0xFF all; else none is asked. -/
def State.measBlocks (s : State) (index : Nat) : Option (List Byte) :=
  if index == 0 then some [8]
  else if index ≤ 8 then some (1 :: BitVec.ofNat 8 index :: s.measurement (index - 1))
  else if index == 0xFF then some (8 :: (List.range 8).flatMap (fun i => BitVec.ofNat 8 (i + 1) :: s.measurement i))
  else none

/-- GET_MEASUREMENTS: measurement registers 0 to 7 as indices 1 to 8, signed on request. -/
def execGetMeasurements (index : Nat) (signed : Bool) (req : List Byte) (s : State) : Res :=
  s.spdmServe (fun t =>
    match t.measBlocks index with
    | none => t.spdmError 1
    | some body => if signed then t.spdmSign 0x60 body 13 req else t.spdmSend 0x60 body)

/-! ### PLDM, MCTP and I3C (R384, R393, R410) -/

/-- PLDM_PLATFORM_REQUEST: a temperature in °C, a rail's power, or the energy. -/
def execPldmPlatformRequest (sensor : PldmSensor) (s : State) : Res :=
  .next (if !s.mgmtServes then s
    else match sensor with
      | .temperature d => s.emit (.pldm (leBytes (s.rf (.pwrDieSts d.val) 47 40) 1))
      | .railPower d => s.emit (.pldm (leBytes (s.rf (.pwrDieSts d.val) 63 48) 2))
      | .energy => s.emit (.pldm (leBytes (s.reg .pwrEnergy) 8)))

/-- PLDM_FIRMWARE_UPDATE: an image is written to the bank that is not running, and measured (R384, R391). -/
def execPldmFirmwareUpdate (file : ImageFile) (s : State) : Res :=
  .next (if !s.mgmtServes then s
    else
      let put := fun (x : Banks) => if x.run then { x with a := file.image } else { x with b := file.image }
      { s with flash := s.flash.modBanks file.what put }.extend 5 file.image.digest)

/-- MCTP_CONTROL: set and get of the endpoint identifier; any other command is answered as unsupported. -/
def execMctpControl (req : List Byte) (s : State) : Res :=
  .next (if !s.mgmtServes then s
    else
      let cmd := (req.headD 0).toNat
      let eid := (req.getD 2 0).toNat
      if cmd == 1 then { s with boot := { s.boot with eid := eid } }.emit (.mctp [1, 0, 0, BitVec.ofNat 8 eid, 0])
      else if cmd == 2 then s.emit (.mctp [2, 0, BitVec.ofNat 8 s.boot.eid, 0, 0])
      else s.emit (.mctp [req.headD 0, 5]))

/-- I3C_DYNAMIC_ADDRESS: the target takes the address it is assigned. -/
def execI3cDynamicAddress (addr : BitVec 7) (s : State) : Res :=
  if s.alive then .next { s with pins := { s.pins with i3cAddr := addr } } else s.idle "the device does not run"

/-! ### The mailbox (R401, R402) -/

/-- A doorbell: dropped while a command runs, ended at once while the controller restarts, else accepted. -/
def State.mboxDoorbell (s : State) (cmd tok len : Nat) : State :=
  if s.rf .mboxSts 3 0 == 1 || !s.readyFn 2 then s.dropped 401 0x7F
  else
    let t := s.setRf .mboxSts 47 40 tok
    if !t.mgmtServes then t.mboxEnd 1 []
    else
      let req := (List.range (min len 4096)).map t.mboxReq.read
      { t with mbox := some ⟨cmd, tok, if len ≤ 4096 then req else req ++ [0]⟩ }.setRf .mboxSts 3 0 1

/-- CHAN_MAPOUT (Table 24-5). -/
def execChanMapout (tok : BitVec 8) (len : BitVec 16) (s : State) : Res := .next (s.mboxDoorbell 0x0001 tok.toNat len.toNat)
/-- CHAN_CLEAR (Table 24-5). -/
def execChanClear (tok : BitVec 8) (len : BitVec 16) (s : State) : Res := .next (s.mboxDoorbell 0x0002 tok.toNat len.toNat)
/-- PWR_TABLE (Table 24-5). -/
def execPwrTable (tok : BitVec 8) (len : BitVec 16) (s : State) : Res := .next (s.mboxDoorbell 0x0010 tok.toNat len.toNat)
/-- SVN_COMMIT (Table 24-5). -/
def execSvnCommit (tok : BitVec 8) (len : BitVec 16) (s : State) : Res := .next (s.mboxDoorbell 0x0020 tok.toNat len.toNat)
/-- MEAS_EXTEND (Table 24-5). -/
def execMeasExtend (tok : BitVec 8) (len : BitVec 16) (s : State) : Res := .next (s.mboxDoorbell 0x0021 tok.toNat len.toNat)
/-- BTN_DIRECTORY (Table 24-5). -/
def execBtnDirectory (tok : BitVec 8) (len : BitVec 16) (s : State) : Res := .next (s.mboxDoorbell 0x0030 tok.toNat len.toNat)

/-- The channel record is rewritten (R386). -/
def State.setMapouts (s : State) (m : NSet) : State := { s with flash := s.flash.writeRecords m s.flash.repairs }

/-- What a mailbox command does: its ERR, its response and the state after it. A command that ends with an ERR changes
nothing. -/
def State.mboxRun (s : State) (m : MboxCmd) (flashOk : Bool) : Nat × List Byte × State :=
  let len := m.req.length
  let b := (m.req.headD 0).toNat
  let chan := ofLe m.req
  match m.cmd with
  | 0x0001 =>
    if len != 2 || chan > 383 then (3, [], s) else if s.flash.mapouts.contains chan then (4, [], s)
    else if !flashOk then (5, [], s) else (0, [], s.setMapouts (NSet.ins s.flash.mapouts chan))
  | 0x0002 =>
    if len != 2 || chan > 383 then (3, [], s) else if !s.flash.mapouts.contains chan then (4, [], s)
    else if !flashOk then (5, [], s) else (0, [], s.setMapouts (NSet.del s.flash.mapouts chan))
  | 0x0010 =>
    if len != 1 || b > 63 then (3, [], s) else (0, (List.range 16).flatMap (fun i => leBytes (s.pTab b i) 4), s)
  | 0x0020 =>
    if len != 0 then (3, [], s) else if s.rf .secSts 0 0 == 0 then (4, [], s)
    else if !flashOk then (5, [], s)
    else
      let svn := s.rf .secSts 23 16
      (0, [BitVec.ofNat 8 svn], { s with flash := { s.flash with fwSvn := svn } }.noteFirmware)
  | 0x0021 =>
    if len != 49 || (b != 6 && b != 7) then (3, [], s) else (0, [], s.extend b (m.req.drop 1))
  | 0x0030 => if len != 1 || b != 1 then (3, [], s) else (0, (Config.itemDirectory b).take 4096, s)
  | _ => (2, [], s)

/-- MBOX_COMPLETE: the command ends, its flash write done or failed. -/
def execMboxComplete (flashOk : Bool) (s : State) : Res :=
  match s.mbox with
  | none => s.idle "no mailbox command runs"
  | some m =>
    let r := s.mboxRun m flashOk
    .next (r.2.2.mboxEnd r.1 r.2.1)

end Sys2Proof.Machine
end

