-- ==== Sys2Proof/Machine/Route.lean ====
section
/-! DEFINITION. ROUTE, the top-k gate (R135 to R139). -/

namespace Sys2Proof.Machine

/-- The vector engine of a group slot (Table 04-2). -/
def engineOf (core slot : Nat) : Nat :=
  if core < 1024 then (if coreKind core == 1 then slot / 8 else 0) else if slot < 96 then slot / 8 else 12

/-- Score a ranks above score b: higher value first, NaN below every number (R136). -/
def ranksAbove (a b : FVal) : Bool := a != .nan && (b == .nan || b.lt a)

/-- The best of the experts not yet taken; ties to the lower index. -/
def bestExpert (vs : List FVal) (taken : List Nat) : Option Nat :=
  (List.range vs.length).foldl (fun b i =>
    if taken.contains i then b
    else match b with
      | none => some i
      | some j => if ranksAbove (vs.getD i .nan) (vs.getD j .nan) then some i else b) none

/-- The K experts selected, in rank order (R136). -/
def topK (vs : List FVal) : Nat → List Nat → List Nat
  | 0, taken => taken
  | n + 1, taken =>
    match bestExpert vs taken with
    | some i => topK vs n (taken ++ [i])
    | none => taken

/-- An F32 operation rounded to nearest even. -/
def f32 (v : FVal) : Nat := fmtF32.round 0 false (fun _ => 0) v
/-- The value of F32 bits. -/
def f32v (x : Nat) : FVal := fmtF32.decode x

/-- The gate weights of the experts of a set, as (expert, F32 bits) (R138). -/
def softmax (scores : List Nat) (set : List Nat) : List (Nat × Nat) :=
  let m := set.foldl (fun (b : Option Nat) i =>
    match b with
    | none => some i
    | some j => if ranksAbove (f32v (scores.getD i 0)) (f32v (scores.getD j 0)) then some i else b) none
  let mv := f32v (match m with | some i => scores.getD i 0 | none => 0)
  let qs := set.map (fun i =>
    (i, sfu 3 4 (f32 ((f32v (f32 ((f32v (scores.getD i 0)).add mv.neg))).mul (f32v 0x3FB8AA3B)))))
  let sum := qs.foldl (fun a q => f32 ((f32v a).add (f32v q.2))) 0
  let rcp := sfu 0 4 sum
  qs.map (fun q => (q.1, f32 ((f32v q.2).mul (f32v rcp))))

/-- A dispatch entry (Table 08-3). -/
def dispatchEntry (weight expert rank token : Nat) : Nat :=
  weight % 2 ^ 32 * 2 ^ 32 + expert % 1024 * 2 ^ 22 + rank % 8 * 2 ^ 19 + token % 65536

/-- The entries of one token from its raw scores (R137, R138). -/
def routeToken (ty k norm token : Nat) (raw : List Nat) : List Nat :=
  let vs := match fmtOf ty with | some f => raw.map f.decode | none => []
  let sel := topK vs k []
  let fs := raw.map (convert ty 4 0 false (fun _ => 0))
  let ws := if norm == 0 then sel.map (fun i => (i, fs.getD i 0))
    else if norm == 1 then softmax fs (sel.mergeSort (fun a b => a ≤ b)) else softmax fs (List.range raw.length)
  (List.range sel.length).map (fun r =>
    let ex := sel.getD r 0
    dispatchEntry ((ws.lookup ex).getD 0) ex r token)

/-- ROUTE (R135, R139): not ready while its engine runs another. A poisoned register counts as 0 in the checks, so that a
lower code is reported only where the other registers give it (R72, log entry 89). -/
def execRoute (g : GroupRef) (e : Enc) (s : State) : Res :=
  let core := g.core.toNat
  let t := encT e
  let i : Ins := ⟨0x0B, 0, decodeRoute (coreKind core) e, [encA e, encB e, encC e]⟩
  issue s g e i (fun s h l =>
    let val := fun (x : Nat) => if h.spois.contains x then 0 else (h.gs x).toNat
    let a := val (encA e)
    let b := val (encB e)
    let n := val (encC e)
    let k := encX e 57 54
    let ex := encX e 52 43 + 1
    let eng := engineOf core g.slot.toNat
    if s.routes.any (fun c => c.org.core == core && c.eng == eng) then .next s
    else if n > 65536 then raise s g e i h l 0x04 h.act 0
    else if a % 16 != 0 || b % 16 != 0 then raise s g e i h l 0x0A h.act (if a % 16 != 0 then a else b)
    else if n != 0 && (a + scoreSpan n ex t > poolSize core || b + n * k * 8 > poolSize core) then
      raise s g e i h l 0x0C h.act (if a + scoreSpan n ex t > poolSize core then a else b)
    else if i.sregs.any (fun x => h.spois.contains x) then raise s g e i h l 0x0E h.act 0
    else if n == 0 then s.finish g e (h.setS (encD e) 0)
    else
      let (id, s') := s.newId
      let c : RouteCmd := ⟨id, originOf g h l e i, eng, a, b, n, t, encD e, k, ex, encX e 42 41⟩
      if conflicts c.ranges (s.registered core s.nextId) || !s.regFree core then .next s
      else if (s.poolRead core a (scoreSpan n ex t)).2 then raise s g e i h l 0x0E h.act a
      else
        ({ s' with routes := s'.routes ++ [c] }).finish g e
          { h with sbusy := if encD e == 0 then h.sbusy else NSet.ins h.sbusy (encD e) })

/-- The raw scores of a token. -/
def State.routeScores (s : State) (c : RouteCmd) (token : Nat) : List Nat :=
  let w := scoreBytes c.ty
  (List.range c.experts).map (fun i =>
    ofLe (s.poolRead c.org.core (c.score + token * scoreStride c.experts c.ty + i * w) w).1)

/-- ROUTE_COMPLETE: the dispatch list is written and sD becomes sC · K (R137). -/
def execRouteComplete (id : Nat) (s : State) : Res :=
  s.clocked <|
  match s.routes.find? (fun c => c.id == id) with
  | none => s.idle "no such ROUTE"
  | some c =>
    let bytes := (List.range c.count).flatMap (fun t =>
      (routeToken c.ty c.k c.norm t (s.routeScores c t)).flatMap (fun x => leBytes x 8))
    let s := ({ s with routes := s.routes.filter (fun x => x.id != id) }).poolWrite c.org.core c.list_ bytes
    let key := gkey c.org.core c.org.slot
    match Map.find? s.groups key with
    | none => .next s
    | some g =>
      if c.org.launch == some g.launch && g.sbusy.contains c.dst then
        .next { s with groups := Map.put s.groups key (g.setS c.dst (BitVec.ofNat 64 (c.count * c.k))) }
      else .next s

end Sys2Proof.Machine
end

