-- ==== Sys2Proof/Machine/Recovery.lean ====
section
/-! DEFINITION. Hang recovery (chapter 22): the watchdogs (R366, R367), the suspects of a hang and their replay (R375 to R377),
and the effects, completion and escalation of the reset steps (R370 to R372). -/

namespace Sys2Proof.Machine

/-! ### Suspects (R375, R376) -/

/-- REPLAY_EN of a partition. -/
def State.replayEn (s : State) (p : Nat) : Bool := s.rf (.rstWdog p) 32 32 == 1

/-- A launch may be replayed from its packet. -/
def State.launchReplayable (s : State) (l : Launch) : Bool := s.replayEn l.part && !l.fixed

/-- A DMA packet's command may be replayed: no BUCKET, no RED, no write to the host window. -/
def State.dmaReplayable (s : State) (c : DmaCmd) : Bool := s.replayEn c.org.part && !s.dmaFixes c

/-- The suspect that a launch makes. -/
def State.launchSuspect (s : State) (id : Nat) (l : Launch) : Suspect :=
  ⟨id, false, l.ctx, l.queue, l.seq, l.core, [], s.launchReplayable l, false⟩

/-- The suspect that a DMA packet's command makes. -/
def State.dmaSuspect (s : State) (c : DmaCmd) : Suspect :=
  let ws := match (s.queue c.org.queue).started.find? (fun e => e.pkt.seq == c.org.seq) with | some e => e.pkt.words | none => []
  ⟨c.id, true, c.org.ctx, c.org.queue, c.org.seq, c.org.core, ws, s.dmaReplayable c, false⟩

/-- Log an event of class 0x0E about a core (Table 22-6). -/
def State.hangEvent (s : State) (core sev event : Nat) (ctx : Nat) : State :=
  s.ras_ { rasOf 0x0E sev (coreDie core) 0x03 core event with
    part := s.basinOwner (coreBasin core)
    core := core
    ctx := ctx }

/-- A suspect is settled or replayed: it is one no longer. -/
def State.dropSuspect (s : State) (x : Suspect) : State :=
  { s with
    suspects := s.suspects.filter (fun y => y.id != x.id)
    launches := if x.isDma then s.launches else Map.modify s.launches x.id (fun l => { l with suspect := false }) }

/-- A suspect fails: its command ends, its packet completes with 0x02, its context fails (R353, R377). -/
def State.failSuspect (s : State) (x : Suspect) : State :=
  let t := s.dropSuspect x
  let t := if x.isDma then
      { t with
        dma := t.dma.filter (fun c => c.id != x.id)
        queues := Map.modify t.queues x.queue (fun q => { q with started := q.started.map (fun (e : Started) =>
          if e.live.contains x.id then { e with
            live := NSet.del e.live x.id
            status := 2
            detail := 0x0B } else e) }) }
    else t.endLaunch x.id 2
  t.failCtx x.ctx

/-- Every suspect of a core that cannot be replayed, or whose context has failed, fails (R377). -/
def State.settleCore (s : State) (core : Nat) : Nat → State
  | 0 => s
  | n + 1 =>
    match s.suspects.find? (fun x => x.core == core && !x.replaying && (!x.replayable || s.failed.contains x.ctx)) with
    | none => s
    | some x => State.settleCore ((s.hangEvent core 2 0x22 x.ctx).failSuspect x) core n

/-! ### Replay (R377) -/

/-- The command of a suspect runs again from its packet. -/
def State.startReplay (s : State) (x : Suspect) : State :=
  let s := { s with suspects := s.suspects.map (fun y => if y.id == x.id then { y with replaying := true } else y) }
  if x.isDma then
    let p : Packet := ⟨x.seq, x.packet, none⟩
    let org : Origin := ⟨none, x.ctx, (s.queue x.queue).owner, x.core, 0, 0, 0, 0, 0, x.queue, x.seq⟩
    { s with dma := s.dma ++ [⟨x.id, org, true, 0, p.f 2 18 16, none, true, p.addr, none, 0, [], [], 0, none, none, false, none,
      none, none, none, [], []⟩] }
  else match Map.find? s.launches x.id with
    | none => s
    | some l =>
      let n := ceilDiv l.threads 32
      let fresh := (s.queue x.queue).started.any (fun e => e.pkt.seq == x.seq && e.pkt.f 0 9 9 == 1)
      let s := if fresh then s.dropIcache (fun c => (icachesOf l.core).contains c) else s
      let t := { s with launches := Map.put s.launches x.id { l with
        phase := .running
        status := 0
        cycles := 0
        ran := 0
        live := []
        fixed := false
        slot0 := lowest (s.slotsFor l.core n)
        replay := true
        saved := []
        savedAcc := []
        saveSlot := 0 } }
      t.putGroups l.core ((List.range n).map (fun g => freshGroup x.id l.core g n l.threads l.entry l.arg))

/-- The suspect of least context number that waits on a core. -/
def State.nextSuspect (s : State) (core : Nat) : Option Suspect :=
  (s.suspects.filter (fun x => x.core == core)).foldl (fun b x =>
    match b with
    | none => some x
    | some y => if x.ctx < y.ctx || (x.ctx == y.ctx && x.id < y.id) then some x else b) none

/-- The next replay of a core begins once nothing else runs or is in flight there, a guilty command among it. -/
def State.nextReplay (s : State) (core : Nat) : State :=
  let ends := fun (kv : Nat × Launch) => kv.2.core == core && kv.2.phase == .failing && !s.suspects.any (fun x => x.id == kv.1)
  if s.hung.contains core || s.suspects.any (fun x => x.core == core && x.replaying) ||
      s.groups.any (fun kv => kv.1 / 128 == core) || List.any s.launches ends || s.mtx.any (fun c => c.org.core == core) ||
      s.dma.any (fun c => c.org.core == core) || s.rmo.any (fun c => c.org.core == core) ||
      s.routes.any (fun c => c.org.core == core) then s
  else match s.nextSuspect core with
    | none => s
    | some x => s.startReplay x

/-- A replay has ended: after the last, a core whose suspects were all innocent is logged (event 0x23). -/
def State.replayEnded (s : State) (core : Nat) : State :=
  let s := s.settleCore core s.suspects.length
  if s.suspects.any (fun x => x.core == core) then s.nextReplay core
  else
    let t := if s.guilty.contains core then s else s.hangEvent core 1 0x23 0
    { t with guilty := NSet.del t.guilty core }

/-- LAUNCH_COMPLETE: every group has ended and every command has completed (R69). A launch that its watchdog ended is the one
suspect of its hang (R375): it is replayed, or its context fails. -/
def execLaunchComplete (id : Nat) (s : State) : Res :=
  match Map.find? s.launches id with
  | none => s.idle "no such launch"
  | some l =>
    if s.groups.any (fun kv => kv.2.launch == id) || s.busyLaunch id || !(l.phase == .running || l.phase == .failing) then
      s.idle "the launch has groups or commands in flight"
    else if s.suspects.any (fun x => x.id == id) then s.idle "the launch is a suspect: its replay or reset ends it"
    else if !l.suspect then .next ((s.finishLaunch id l).nextReplay l.core)
    else if s.launchReplayable l && !s.failed.contains l.ctx then
      .next ({ s with
        suspects := s.suspects ++ [s.launchSuspect id l]
        mtxHolder := Map.keepV s.mtxHolder (fun _ h => h != id) }.nextReplay l.core)
    else .next (((s.hangEvent l.core 2 0x22 l.ctx).finishLaunch id l).failCtx l.ctx)

/-- REPLAY_COMPLETE: the command has completed alone: its suspect is innocent (event 0x20), its completion the packet's. -/
def execReplayComplete (id : Nat) (s : State) : Res :=
  match s.suspects.find? (fun x => x.id == id && x.replaying) with
  | none => s.idle "no such replay"
  | some x =>
    if x.isDma then
      if s.dma.any (fun c => c.id == id) then s.idle "the command is in flight"
      else .next (((s.hangEvent x.core 0 0x20 x.ctx).dropSuspect x).replayEnded x.core)
    else match Map.find? s.launches id with
      | none => s.idle "no such launch"
      | some l =>
        if s.groups.any (fun kv => kv.2.launch == id) || s.busyLaunch id then s.idle "the launch runs"
        else .next ((((s.hangEvent x.core 0 0x20 x.ctx).dropSuspect x).finishLaunch id { l with suspect := false }).replayEnded x.core)

/-- REPLAY_WATCHDOG: the command hangs again: its suspect is guilty (event 0x21) and fails. -/
def execReplayWatchdog (id : Nat) (s : State) : Res :=
  match s.suspects.find? (fun x => x.id == id && x.replaying) with
  | none => s.idle "no such replay"
  | some x =>
    let t := (s.hangEvent x.core 2 0x21 x.ctx).failSuspect x
    .next ({ t with guilty := NSet.ins t.guilty x.core }.replayEnded x.core)

/-! ### Watchdogs (R366) -/

/-- A launch runs as a replay, whose watchdog is its own. -/
def State.inReplay (s : State) (launch : Nat) : Bool := s.suspects.any (fun x => x.id == launch && x.replaying)

/-- A launch that hangs, or whose command does, ends; one that is ending already has its commands discarded, and the hang is
logged. -/
def State.commandHang (s : State) (launch event : Nat) : State :=
  match Map.find? s.launches launch with
  | none => s
  | some l =>
    if l.phase == .failing then ((s.hangEvent l.core 2 event l.ctx).endLaunch launch 2).markSuspect launch
    else s.watchdogEnd launch event

/-- LAUNCH_WATCHDOG: it has run PERIOD since placement. -/
def execLaunchWatchdog (id : Nat) (s : State) : Res :=
  match Map.find? s.launches id with
  | none => s.idle "no such launch"
  | some l =>
    if l.phase == .preempted || s.inReplay id || s.suspects.any (fun x => x.id == id) then s.idle "no watchdog runs for the launch"
    else .next (s.commandHang id 1)

/-- DMA_WATCHDOG: the command completes with status 0x0B and its launch ends; a packet's completes its packet with 0x02. -/
def execDmaWatchdog (id : Nat) (s : State) : Res :=
  match s.dma.find? (fun c => c.id == id) with
  | none => s.idle "no such command"
  | some c =>
    if s.inReplay id || s.inReplay (c.org.launch.getD 0) then s.idle "the replay has its own watchdog"
    else if c.pkt then .next ((s.hangEvent c.org.core 2 2 c.org.ctx).dmaDone c 0x0B c.cursor)
    else .next (s.commandHang (c.org.launch.getD 0) 2)

/-- MATRIX_WATCHDOG: the launch of the command ends. -/
def execMatrixWatchdog (id : Nat) (s : State) : Res :=
  match s.mtx.find? (fun c => c.id == id) with
  | none => s.idle "no such command"
  | some c =>
    if s.inReplay (c.org.launch.getD 0) then s.idle "the replay has its own watchdog"
    else .next (s.commandHang (c.org.launch.getD 0) 2)

/-- The launch whose preemption saved a suspended group that held a slot (R255). -/
def State.savedSusp (s : State) (g : GroupRef) : Option Nat :=
  (List.find? (fun (kv : Nat × Launch) => kv.2.core == g.core.toNat && (match Map.find? kv.2.saved g.slot.toNat with
    | some h => (match h.stat with | .susp _ _ _ _ _ _ _ => true | _ => false)
    | none => false)) s.launches).map Prod.fst

/-- SUSPEND_WATCHDOG: a restartable fault stayed unserved (R71): the launch ends, also where its preemption saved the group. -/
def execSuspendWatchdog (g : GroupRef) (s : State) : Res :=
  match Map.find? s.groups (refKey g) with
  | none =>
    match s.savedSusp g with
    | none => s.idle "no group holds this slot"
    | some l => .next (s.watchdogEnd l 1)
  | some h =>
    match h.stat with
    | .susp _ _ _ _ _ _ _ =>
      if s.inReplay h.launch then s.idle "the replay has its own watchdog" else .next (s.watchdogEnd h.launch 1)
    | _ => s.idle "the group is not suspended"

/-- The launches of a core that its hang makes suspects: running, preempted, ended by a watchdog, or ended with commands still in
flight (R375). -/
def State.hungLaunches (s : State) (core : Nat) : List (Nat × Launch) :=
  List.filter (fun (kv : Nat × Launch) => kv.2.core == core && (kv.2.phase != .failing || kv.2.suspect || s.busyLaunch kv.1) &&
    !s.suspects.any (fun x => x.id == kv.1)) s.launches

/-- The engines that the first steps of a hung core reset: those of the core named as not having stopped; where none of them is one,
the matrix engine, else vector engine 0 (log entry 71). -/
def hungEngines (core : Nat) (es : List (BitVec 3 × BitVec 4)) : List (Nat × Nat) :=
  let named := ((es.map (fun e => (e.1.toNat, e.2.toNat))).filter (fun e => engineExists core e.1 e.2)).dedup
  if named.isEmpty then [(if coreKind core == 0 || coreKind core == 3 then 0 else 1, 0)] else named

/-- The core is hung: its suspects are taken and the ladder starts at the engines that did not stop (R367, R375). -/
def State.hangCore (s : State) (core ctx : Nat) (es : List (BitVec 3 × BitVec 4)) : State :=
  let s := s.hangEvent core 2 3 ctx
  let ls := s.hungLaunches core
  let ds := s.dma.filter (fun c => c.pkt && c.org.core == core && !s.suspects.any (fun x => x.id == c.id))
  let s := { s with
    hung := NSet.ins s.hung core
    suspects := s.suspects ++ ls.map (fun (kv : Nat × Launch) => s.launchSuspect kv.1 kv.2) ++ ds.map s.dmaSuspect }
  let s := ls.foldl (fun t kv => (t.failLaunch kv.1 2).markSuspect kv.1) s
  (hungEngines core es).foldl (fun (t : State) e => t.askReset (t.newReset 1 core e.1 e.2 3 ctx) false) s

/-- STOP_TIMEOUT: a launch of the core that is being ended has not ended within 100 µs (R367). During a replay the core is
reset again, without a collection (R377). -/
def execStopTimeout (hang : CoreHang) (s : State) : Res :=
  let c := hang.core.toNat
  if s.hung.contains c then s.idle "the core is known to hang"
  else match List.find? (fun (kv : Nat × Launch) => kv.2.core == c && kv.2.phase == .failing && kv.2.replay) s.launches with
    | some (_, l) =>
      let t := { s with hung := NSet.ins s.hung c }.hangEvent c 2 3 l.ctx
      .next (t.askReset (t.newReset 2 c 0 0 3 l.ctx) true)
    | none =>
      match List.find? (fun (kv : Nat × Launch) => kv.2.core == c && kv.2.phase == .failing && kv.2.suspect) s.launches with
      | some (_, l) => .next (s.hangCore c l.ctx hang.engines)
      | none => s.idle "no launch of the core is being ended"

/-! ### The effects of the steps (R370 to R372) -/

/-- The step that runs for a unit: collected and not yet applied. -/
def State.stepFor (s : State) (p : ResetReq → Bool) : Option ResetReq := s.resetQ.find? (fun r => p r && r.collected && !r.applied)

/-- The step's effect has happened. -/
def State.markApplied (s : State) (r : ResetReq) : State :=
  { s with resetQ := s.resetQ.map (fun e => if e == r then { e with applied := true } else e) }

/-- Launches with groups or commands on an engine. -/
def State.onEngine (s : State) (core kind idx : Nat) : List Nat :=
  let groups := fun (p : Nat → Bool) =>
    (List.filter (fun (kv : Nat × Group) => kv.1 / 128 == core && p (kv.1 % 128)) s.groups).map (fun kv => kv.2.launch)
  (match kind with
   | 0 => (s.mtx.filter (fun (c : MtxCmd) => c.org.core == core)).filterMap (fun (c : MtxCmd) => c.org.launch)
   | 1 => groups (fun i => engineOf core i == idx) ++
       (s.routes.filter (fun (c : RouteCmd) => c.org.core == core && c.eng == idx)).filterMap (fun (c : RouteCmd) => c.org.launch)
   | 2 => groups (fun _ => true)
   | _ => (s.engineCmds core idx).filterMap (fun (c : DmaCmd) => c.org.launch)).dedup

/-- DMA packets' commands end: those of suspects await their replay, any other completes with 0x0B. -/
def State.endPackets (s : State) (p : DmaCmd → Bool) : State :=
  let cs := s.dma.filter (fun c => c.pkt && p c)
  cs.foldl (fun (t : State) c =>
    if t.suspects.any (fun x => x.id == c.id) then { t with dma := t.dma.filter (fun o => o.id != c.id) }
    else t.dmaDone c 0x0B c.cursor) s

/-- A matrix engine's accumulators become +0 (Table 22-3). -/
def State.zeroCore (s : State) (core : Nat) : State :=
  let ps := coreSets core
  { s.zeroSets ps with accCtx := Map.keep s.accCtx (fun k => !ps.contains k) }

/-- ENGINE_RESET (Table 22-3). -/
def execEngineReset (u : EngineRef) (s : State) : Res :=
  let core := u.core.toNat
  let kind := u.kind.toNat
  match s.stepFor (fun r => r.level == 1 && r.unit == core && r.ekind == kind && r.eidx == u.idx.toNat) with
  | none => s.idle "no such engine reset runs"
  | some r =>
    let t := (s.onEngine core kind u.idx.toNat).foldl (fun t l => t.endLaunch l 2) (s.markApplied r)
    let t := if kind == 0 then t.zeroCore core else t
    .next (if kind == 3 then t.endPackets (fun c => c.org.core == core && c.chan == u.idx.toNat) else t)

/-- The L1s of a core (R217). -/
def coreCaches (core : Nat) : List Nat :=
  if core < 1024 then [cacheOf core 0] else (List.range 7).map (core % 1024 * 7 + ·)

/-- Everything that runs on cores ends. -/
def State.endCores (s : State) (p : Nat → Bool) : State :=
  let ls := (List.filter (fun (kv : Nat × Launch) => p kv.2.core) s.launches).map Prod.fst
  let t := (ls.foldl (fun t l => t.endLaunch l 2) s).endPackets (fun c => p c.org.core)
  { t with
    mtxHolder := Map.keep t.mtxHolder (fun c => !p c)
    switching := Map.keep t.switching (fun c => !p c) }

/-- The cores that a core reference names once its basin may have changed mode: the Lake core of a Lake basin for any of its
Pond cores, and every Pond core of a Pond basin for its Lake core (R34). -/
def State.coresNow (s : State) (c : Nat) : List Nat :=
  let b := coreBasin c
  if c < 1024 && s.lake b then [1024 + b]
  else if 1024 ≤ c && !s.lake b then (List.range 7).map (b * 8 + ·)
  else [c]

/-- CORE_RESET: an engine reset of every engine, and the caches invalidated; it waits for a mode change of the basin (R34,
R370, R371). -/
def execCoreReset (core : CoreRef) (l1Answers : Bool) (s : State) : Res :=
  let c := core.toNat
  match s.stepFor (fun r => r.level == 2 && r.unit == c) with
  | none => s.idle "no such core reset runs"
  | some r =>
    if (Map.find? s.modeChg (coreBasin c)).isSome then s.idle "the basin changes mode"
    else .next ((s.coresNow c).foldl (fun (t : State) x =>
      (((t.endCores (fun y => y == x)).zeroCore x).dropCaches (coreCaches x).contains (!l1Answers)).dropIcache
        (icachesOf x).contains) (s.markApplied r))

/-- The registers of a die's Pan window of domain (W) take their reset values (R372 item 3). -/
def State.restorePan (s : State) (d : Nat) : State :=
  s.regs.foldl (fun t kv =>
    if panBase d ≤ kv.1 && kv.1 < panBase d + 0x100000 then
      (match Reg.ofKey kv.1 with | some r => t.restore r [.w] | none => t)
    else t) s

/-- Ready bits of a die and of what it holds are cleared (R18, R379). -/
def State.diesBits (s : State) (d : Nat) : State :=
  let t := (s.setReadyFn (8 + d) false).portLost d
  let t := (List.range 8).foldl (fun t b => t.setBasinReady (d * 8 + b) false) t
  (List.range 32).foldl (fun t c => t.setChanReady (d * 32 + c) false) t

/-- The die's own state is lost: what its controllers, caches and cores held (R372). -/
def State.loseDie (s : State) (d : Nat) : State :=
  let onDie := fun (core : Nat) => coreDie core == d
  let home := fun (line : Nat) => homeDie line == d
  let unit := fun (u : Nat) => coreDie (if u < 2048 then u else (u - 2048) / 8) == d
  let t := (s.dropCaches (fun c => cacheDie c == d) true).dropIcache (fun c => c / 56 == d)
  let t := t.dropXlat (fun e => e.die == d) (fun x => x.die == d) (fun x => x.die == d)
  let t := (List.range 8).foldl (fun t b => (t.zeroPools (d * 8 + b)).zeroAcc (d * 8 + b)) t
  let t := [0, 1].foldl (fun t e => t.stopEdge (facing d e).1 (facing d e).2) (t.restorePan d)
  let t : State := { t with
    panCtr := Map.drop t.panCtr d
    dieReset := NSet.ins t.dieReset d
    residents := Map.keep t.residents (fun c => !onDie c)
    evictedFrom := t.evictedFrom
    hung := t.hung.filter (fun c => !onDie c)
    guilty := t.guilty.filter (fun c => !onDie c)
    utlb := t.utlb.filter (fun x => !unit x.1)
    walkQ := Map.drop t.walkQ d
    narrow := t.narrow.filter (fun f => (t.narrowSet f.region).1 != d)
    nmiss := t.nmiss.filter (fun r => (t.narrowSet r).1 != d)
    ncacheChg := Map.drop t.ncacheChg d
    rakeCe := Map.keep t.rakeCe (fun c => c / 32 != d)
    coh := { t.coh with
      msgs := t.coh.msgs.filter (fun (m : CMsg) => !home m.line)
      mshr := Map.keep t.coh.mshr (fun k => !home (keyLine k))
      wbuf := Map.keep t.coh.wbuf (fun k => !home (keyLine k)) }
    power := { t.power with
      stepChg := Map.drop t.power.stepChg d
      vcmd := Map.drop t.power.vcmd d
      stretch := NSet.del t.power.stretch d }
    boot := { t.boot with
      offers := Map.drop t.boot.offers d } }
  (t.ctxs.map Prod.fst).foldl State.settleCtx t

/-- Enabled partitions that own a basin or a channel of a die, and those being reset or removed. -/
def State.diePartitions (s : State) (d : Nat) : List Nat :=
  (List.range 96).filter (fun p => (s.partState p == 1 || s.partBusy p) &&
    ((s.partBasins p).any (fun b => b / 8 == d) || (List.range 32).any (fun c => s.partChanBit p (d * 32 + c))))

/-- DIE_RESET (R372): the die goes out of service, the partitions on it are reset with TIMEOUT 0, and its state is lost. -/
def execDieReset (d : Fin 12) (s : State) : Res :=
  match s.stepFor (fun r => r.level == 3 && r.unit == d.val) with
  | none => s.idle "no such die reset runs"
  | some r =>
    let t := (s.markApplied r).diesBits d.val
    let t := { t with modeChg := Map.keep t.modeChg (fun b => b / 8 != d.val) }.releaseParts
    let t := t.abandon (t.suspects.filter (fun x => coreDie x.core == d.val))
    let t := (t.diePartitions d.val).foldl (fun (t : State) p => if t.partBusy p then t.hurryPart p else t.startPart p 1 0 false) t
    .next ((t.endCores (fun c => coreDie c == d.val)).loseDie d.val)

/-- WARM_DEVICE_RESET (R370, Table 22-4). -/
def execWarmDeviceReset (s : State) : Res :=
  match s.stepFor (fun r => r.level == 4) with
  | none => s.idle "no warm device reset runs"
  | some r => .next { s.warmReset with resetQ := [{ r with applied := true }] }

/-- COLD_RESET (R370, Table 22-4). -/
def execColdReset (s : State) : Res :=
  match s.stepFor (fun r => r.level == 5) with
  | none => s.idle "no cold reset runs"
  | some r => .next { s.coldReset with resetQ := [{ r with applied := true }] }

/-! ### The end of a step -/

/-- UNIT and INDEX of a step's log entry. -/
def resetUnit (r : ResetReq) : Nat × Nat :=
  if r.level ≤ 2 then (0x03, r.unit) else if r.level == 3 then (0x09, r.unit) else (0x08, if r.level == 6 then r.unit else 0)

/-- Log an event of a step with the newest collection (Table 22-6). -/
def State.stepEvent (s : State) (r : ResetReq) (sev event : Nat) : State :=
  s.ras_ { rasOf 0x0E sev (resetDie r.level r.unit) (resetUnit r).1 (resetUnit r).2 (s.rf .rstBtnSts 63 32 * 2 ^ 32 + event) with
    part := if s.resetPart r == 127 then 0x7F else s.resetPart r
    core := if r.level ≤ 2 then r.unit else 0
    ctx := r.ctx }

/-- EVENT of a completed step. -/
def doneEvent (level : Nat) : Nat :=
  match level with
  | 1 => 0x10
  | 2 => 0x11
  | 6 => 0x12
  | 3 => 0x13
  | 4 => 0x14
  | _ => 0x15

/-- What a step still waits for: its die in service, its partition's reset, or a cold reset's bring-up. -/
def State.stepDone (s : State) (r : ResetReq) : Bool :=
  match r.level with
  | 3 => s.dieUp r.unit
  | 6 => (Map.find? s.partOps r.unit).isNone
  | 5 => s.bootDone
  | _ => true

/-- RST_STS at the end of a step: LAST since warm device reset, and RESULT of the request that PF0 made. -/
def State.noteDone (s : State) (r : ResetReq) : State :=
  if r.level == 4 || r.level == 5 then s
  else
    let t := s.setRf .rstSts 3 0 (max (s.rf .rstSts 3 0) (stsLevel r.level))
    if r.pf0 then t.setRf .rstSts 11 8 (if r.escalated then 2 else 0) else t

/-- What the suspects of a core still have in flight ends: none of it is left when a replay begins (R367, R377). -/
def State.endSuspects (s : State) (core : Nat) : State :=
  (s.suspects.filter (fun x => x.core == core)).foldl (fun (t : State) x =>
    if x.isDma then { t with dma := t.dma.filter (fun c => c.id != x.id) } else t.endLaunch x.id 2) s

/-- RESET_STEP_COMPLETE: the step has completed within its bound; once the last step of a core is, its suspects are settled and
replayed (R370, R377). -/
def execResetStepComplete (s : State) : Res :=
  match s.resetQ.find? (fun r => r.applied && s.stepDone r) with
  | none => s.idle "no step has finished"
  | some r =>
    let t := ({ s with resetQ := s.resetQ.erase r }.stepEvent r 2 (doneEvent r.level)).noteDone r
    let t := if r.level == 4 || r.level == 5 then t else t.noteActive
    if r.level ≤ 2 && t.resetQ.any (fun e => e.level ≤ 2 && e.unit == r.unit) then .next t
    else if r.level ≤ 2 then
      let u := { t with hung := NSet.del t.hung r.unit }.endSuspects r.unit
      .next ((u.settleCore r.unit u.suspects.length).nextReplay r.unit)
    else .next t

/-- The step that follows one that did not complete (Table 22-3). -/
def State.escalated (s : State) (r : ResetReq) : Nat × Nat :=
  match r.level with
  | 1 => (2, r.unit)
  | 2 => if s.basinOwner (coreBasin r.unit) < 96 then (6, s.basinOwner (coreBasin r.unit)) else (4, 0)
  | 3 => (4, 0)
  | _ => (5, 0)

/-- The bound of a step of a level in ticks of the Weir counter: 20 µs, 200 µs, 5 ms, 20 ms, 1 s and, for a partition's, 10 ms
(Table 22-3). -/
def stepBound (level : Nat) : Nat :=
  match level with
  | 1 => 2000
  | 2 => 20000
  | 3 => 500000
  | 4 => 2000000
  | 6 => 1000000
  | _ => 100000000

/-- Of the steps that run, the one whose bound, counted from the end of its collection, ends first (R370). -/
def State.firstDue (s : State) : Option ResetReq :=
  (s.resetQ.filter (fun r => r.collected)).foldr
    (fun (r : ResetReq) (m : Option ResetReq) =>
      if m.any (fun x => x.began + stepBound x.level < r.began + stepBound r.level) then m else some r) none

/-- RESET_ESCALATION: a step has not completed within its bound: of those that run, the one whose bound ends first (R370). A
partition's hangs; after a cold reset the alerts hold until power is removed. -/
def execResetEscalation (s : State) : Res :=
  match s.firstDue with
  | none => s.idle "no step runs"
  | some r =>
    let t := { s with resetQ := s.resetQ.erase r }.stepEvent r 2 0x18
    match r.level with
    | 6 => .next ((t.quarantine r.unit).noteActive)
    | 5 =>
      let u := t.alert
      .next { u with boot := { u.boot with phase := 4 } }
    | _ =>
      let (level, unit) := s.escalated r
      let n : ResetReq := { t.newReset level unit 0 0 0x18 r.ctx with
        escalated := true
        pf0 := r.pf0 }
      let t := if r.pf0 then t.setRf .rstSts 11 8 2 else t
      .next (t.askReset n false)

end Sys2Proof.Machine
end

