-- ==== Sys2Proof/Machine/RegisterFile.lean ====
section
/-! DEFINITION. Reading and writing the registers through the BARs (R7 to R9, R303, R394 to R400, Tables 24-3, 24-6, 24-7):
the rules of an access, what each register's write does, and the buffers and apertures of BAR0 and BAR2. -/

namespace Sys2Proof.Machine

/-! ### What a register shows -/

/-- DMA_ENG_STS with its live fields (Table 10-6). -/
def State.dmaStatus (s : State) (b i : Nat) : Nat :=
  let core := if s.lake b then 1024 + b else b * 8 + i
  let chan := if s.lake b then i else 0
  let cs := s.engineCmds core chan
  setFld (setFld (setFld (s.reg (.dmaEngSts b i)) 28 24 cs.length) 20 18 ((s.running core chan).take 4).length) 16 16
    (b2n (cs.any (fun c => c.susp.isSome)))

/-- The ready bit of a register's own block is set, or the block has none (R310, R399). SEC_STS reports why SECURITY stays
clear (R388): it is read at all times. -/
def State.blockReady (s : State) (r : Reg) : Bool :=
  match r with
  | .mboxDb => s.readyFn 2
  | .mboxSts => s.readyFn 2
  | .secMeas _ _ => s.readyFn 3
  | .lnkPortCtl k => s.readyFn (20 + k)
  | .lnkPortSts k => s.readyFn (20 + k)
  | .lnkFecCorr k => s.readyFn (20 + k)
  | .lnkFecUnc k => s.readyFn (20 + k)
  | .lnkRxDrop k => s.readyFn (20 + k)
  | _ => !(panBase 0 ≤ r.key && r.key < panBase 12) || s.dieUp ((r.key - panBase 0) / 0x100000)

/-- What a read of a register returns: its reset value until its block is ready (R7, R310, R395, R399). -/
def State.readReg (s : State) (r : Reg) : Nat :=
  if !s.blockReady r then r.shown r.resetVal
  else match r with
    | .dmaEngSts b i => s.dmaStatus b i
    | _ => r.shown (s.reg r)

/-! ### What a write of a register does -/

/-- QUE_CMD is written by a function (R258). -/
def State.writeQueCmd (s : State) (fn v : Nat) : Res :=
  match fld v 63 60 with
  | 1 => execEnable fn (BitVec.ofNat 18 v) s
  | 2 => execDisable fn (BitVec.ofNat 18 v) s
  | 3 => execResume fn (BitVec.ofNat 18 v) s
  | 4 => execReload fn (BitVec.ofNat 20 (fld v 55 36)) s
  | _ => s.queRun fn (fun t => t.queDone fn 5)

/-- XLT_FRESP of the block of p is written (R249). -/
def State.writeFresp (s : State) (fn p v : Nat) : Res :=
  let page := BitVec.ofNat 32 (fld v 63 32)
  let ctx := BitVec.ofNat 20 v
  match fld v 21 20 with
  | 0 => execFrespRetry fn p page ctx s
  | 1 => execFrespFailPage fn p page ctx s
  | 2 => execFrespFailContext fn p page ctx s
  | _ => .next (s.dropped 249 p)

/-- Fields that take only some values, of a register that does nothing else: a value out of range leaves its field as it is. -/
def Reg.guarded (r : Reg) (old new : Nat) : Nat :=
  match r with
  | .rasRakeCtl => if 15 ≤ fld new 15 0 && fld new 15 0 ≤ 360 then new else setFld new 15 0 (fld old 15 0)
  | .pwrEbbCtl => if 4 ≤ fld new 3 0 && fld new 3 0 ≤ 10 then new else setFld new 3 0 (fld old 3 0)
  | .panHeapCtl _ => if fld new 1 0 ≤ 1 then new else setFld new 1 0 (fld old 1 0)
  | _ => new

/-- A write of bits whi to wlo of a register, `v` the whole register's bits with the others as they were (R7, R396). -/
def State.writeReg (s : State) (fn : Nat) (r : Reg) (whi wlo v : Nat) : Res :=
  let w32 := BitVec.ofNat 32 v
  let w64 := BitVec.ofNat 64 v
  match r with
  | .glbSharedCtl => execSharedSizeChange w32 s
  | .hstSitebMapLo => .next (s.writeSiteMap false v)
  | .hstSitebMapHi => .next (s.writeSiteMap true v)
  | .mboxDb => .next (s.mboxDoorbell (fld v 15 0) (fld v 39 32) (fld v 31 16))
  | .queRange p => .next (s.writeRange p false v)
  | .schCtxRange p => .next (s.writeRange p true v)
  | .queCmd => s.writeQueCmd fn v
  | .xltInvHi p => .next (s.submitInv fn p w64)
  | .xltFringHead p => execFringHeadWrite fn p w32 s
  | .xltFringBase p => .next ((s.setReg r (r.written whi wlo (s.reg r) v)).drainHeld p 256)
  | .xltFresp p => s.writeFresp fn p v
  | .xltWinDb => .next (s.winDoorbell fn w32)
  | .pwrCap => execPwrCapWrite w32 s
  | .pwrFixed => execPwrFixedWrite w32 s
  | .pwrBalCtl => .next (s.writeBal v)
  | .pwrIdleHint p => .next (if wlo == 0 then s.writeHint p (fld v 31 0) else s)
  | .rstReq => .next (s.writeRstReq v)
  | .bsnModeCtl b => .next (s.writeMode b v)
  | .panNcacheCtl d => if h : d < 12 then execNcacheConfig ⟨d, h⟩ w32 s else .fault .absentUnit
  | .lnkNode => .next (s.writeIdentity r whi wlo v)
  | .lnkEncap => .next (s.writeIdentity r whi wlo v)
  | .lnkIp6Hi => .next (s.writeIdentity r whi wlo v)
  | .lnkIp6Lo => .next (s.writeIdentity r whi wlo v)
  | .lnkSessDb => .next (s.sessDoorbell w64)
  | .lnkPortCtl k => if h : k < 12 then execPortControlWrite ⟨k, h⟩ w32 s else .fault .absentUnit
  | .cfgCommit => execCfgCommit w64 s
  | .cfgCommon n => .next (s.writeCommon n v)
  | .cfgPartCtl p => .next (s.writePartCtl p v)
  | .cfgPartTag p => .next (s.writePartTag p v)
  | .cfgPartBsnLo p => .next (s.writePartBasins p false v)
  | .cfgPartBsnHi p => .next (s.writePartBasins p true v)
  | .cfgPartChan p k => .next (s.writePartResource p k v)
  | .cfgPartShr p => .next (s.writePartResource p 6 v)
  | .cfgPartRst p => .next (s.writePartRst p v)
  | _ => .next (s.setReg r (r.guarded (s.reg r) (r.written whi wlo (s.reg r) v)))

/-- A 64-bit register that acts only on a 64-bit write (R396). -/
def Reg.wholeOnly (r : Reg) : Bool := r.width == 64 && r.fields.any (fun f => f.acc == .wo)

/-! ### Accesses -/

/-- A read's completion. -/
def State.reply (s : State) (a : RegAccess) (v : Nat) : Res := .next (s.emit (.readData a.fn a.off a.size (BitVec.ofNat 64 v)))

/-- A read returns 0 and a write is discarded, and either is logged (R9). -/
def State.reject (s : State) (a : RegAccess) : Res :=
  let t := s.accessError 9 a.fn a.off
  if a.read then t.reply a 0 else .next t

/-- A read returns 0; a write is dropped and logged under a rule. -/
def State.unassigned (s : State) (a : RegAccess) (rule : Nat) : Res :=
  if a.read then s.reply a 0 else .next (s.accessError rule a.fn a.off)

/-- The part of a word that an access of 4 or 8 bytes names. -/
def accessPart (a : RegAccess) (w : Nat) : Nat := if a.size == 8 then w else if a.off % 8 == 4 then fld w 63 32 else fld w 31 0

/-- Access a register, at its offset or at that of its high half (R7, R9, R396, R399). -/
def State.accessReg (s : State) (a : RegAccess) (r : Reg) (high : Bool) : Res :=
  let wide := a.size == 8
  if wide && r.width == 32 then s.reject a
  else if a.read then s.reply a (accessPart a (s.readReg r))
  else if panBase 0 ≤ r.key && r.key < panBase 12 && !s.dieUp ((r.key - panBase 0) / 0x100000) then .next (s.dropped 399 0x7F)
  else if !wide && r.wholeOnly then .next (s.accessError 396 a.fn a.off)
  else
    let (whi, wlo) := if wide then (63, 0) else if high then (63, 32) else (31, 0)
    s.writeReg a.fn r whi wlo (setFld (s.reg r) whi wlo a.val.toNat)

/-- Access a buffer of bytes: GLB_MBOX_REQ or GLB_MBOX_RSP (R401). -/
def State.accessMbox (s : State) (a : RegAccess) : Res :=
  let o := a.off % 4096
  let m := if a.off < 0x101000 then s.mboxReq else s.mboxRsp
  if a.read then s.reply a (if s.readyFn 2 then ofLe ((List.range a.size).map (fun i => m.read (o + i))) else 0)
  else if a.off < 0x101000 then .next { s with mboxReq := s.mboxReq.writeBytes o (leBytes a.val.toNat a.size) }
  else .next s

/-- Read a status mirror entry: 8 or 16 bytes, aligned (R303). -/
def State.accessMirror (s : State) (a : RegAccess) (i : Nat) : Res :=
  let w := match s.queueOf a.fn i with | some q => s.mirror q | none => (0, 0)
  if a.off % a.size != 0 || !(a.size == 8 || (a.read && a.size == 16) || (!a.read && a.size == 4)) then s.reject a
  else if !a.read then .next s
  else if a.size == 8 then s.reply a (if a.off % 16 == 0 then w.1 else w.2)
  else .next ((s.emit (.readData a.fn a.off 8 (BitVec.ofNat 64 w.1))).emit (.readData a.fn (a.off + 8) 8 (BitVec.ofNat 64 w.2)))

/-- The words of entry i of the RAS store: entry SEQ lies at SEQ mod 4,096 (R362). -/
def State.rasEntryWords (s : State) (i : Nat) : List Word :=
  match s.ras.find? (fun e => e.seq % 4096 == i) with
  | some e => e.toWords
  | none => []

/-- Read the aperture: the header words of the collection that the selected slot belongs to, then a body whose layout is
private (R369). -/
def State.accessBittern (s : State) (a : RegAccess) : Res :=
  let slot := s.rf .rstBtnSel 6 0
  match s.bittern.find? (fun c => c.has slot) with
  | none => s.reply a 0
  | some c =>
    let o := (slot + 128 - c.slot) % 128 * 65536 + a.off % 65536
    if o < 64 then s.reply a (accessPart a (c.words.getD (o / 8) 0).toNat)
    else s.reply a (accessPart a (Config.bitternWord 1 c.body (o / 8 * 8)).toNat)

/-- An access to PF0 BAR0 (Table 24-1). -/
def State.accessPf (s : State) (a : RegAccess) : Res :=
  if 0x200000 ≤ a.off && a.off < 0x600000 then s.accessMirror a ((a.off - 0x200000) / 16)
  else if !(a.size == 4 || a.size == 8) || a.off % a.size != 0 then s.reject a
  else if 0x100000 ≤ a.off && a.off < 0x102000 then s.accessMbox a
  else if 0x1000000 ≤ a.off && a.off < 0x1200000 then
    (if a.read then s.reply a 0 else execDoorbell 0 ((a.off - 0x1000000) / 8) a.size a.val s)
  else if 0x3480000 ≤ a.off && a.off < 0x34C0000 then
    (if a.read then s.reply a (accessPart a ((s.rasEntryWords ((a.off - 0x3480000) / 64)).getD (a.off % 64 / 8) 0).toNat) else .next s)
  else if 0x3810000 ≤ a.off && a.off < 0x3820000 then (if a.read then s.accessBittern a else .next s)
  else match Reg.ofOffset a.off with
    | some (r, high) => s.accessReg a r high
    | none => s.unassigned a 394

/-- The register at an offset of the VF BAR of p, and whether it is its high half (Table 24-3). -/
def vfReg (p off : Nat) : Option (Reg × Bool) :=
  let high := off % 8 == 4
  if off / 8 * 8 == 0xFD000 then some (.queCmd, high)
  else if off / 8 * 8 == 0xFD008 then some (.vfQueCmdSts p, high)
  else if off / 8 * 8 == 0xFE000 then some (.vfXltInvLo p, high)
  else if 0xFE008 ≤ off && off < 0xFE040 then Reg.ofOffset (0x2010000 + p * 0x100 + (off - 0xFE000))
  else if off == 0xFF000 then some (.xltWinDb, false)
  else none

/-- An access to the VF BAR of p (R267, R400, Tables 16-1 and 24-3). -/
def State.accessVf (s : State) (a : RegAccess) (p : Nat) : Res :=
  let inView := 0xFC000 ≤ a.off && a.off < 0xFC070
  let view := if inView then Reg.ofOffset (0x6020000 + p * 0x100 + (a.off - 0xFC000)) else none
  let sized := (a.size == 4 || a.size == 8) && a.off % a.size == 0
  if inView && !sized then s.reject a
  else match view with
  | some (r, high) => if a.read then s.accessReg a r high else .next (s.accessError 267 a.fn a.off)
  | none =>
    if !s.partOn p then s.unassigned a 267
    else if 0x40000 ≤ a.off && a.off < 0x80000 then s.accessMirror a ((a.off - 0x40000) / 16)
    else if !sized then s.reject a
    else if a.off < 0x20000 then (if a.read then s.reply a 0 else execDoorbell a.fn (a.off / 8) a.size a.val s)
    else match vfReg p a.off with
      | some (r, high) => s.accessReg a r high
      | none => s.unassigned a 394

/-- Bytes of an MSI-X table entry: address, data, vector control (R301). -/
def Msix.word (e : Msix) (high : Bool) : Nat := if high then e.data.toNat + b2n e.mask * 2 ^ 32 else e.addr.toNat

/-- An access to BAR2: the MSI-X table at 0x0000, its pending bits at 0x2000 (R301, R302). -/
def State.accessBar2 (s : State) (a : RegAccess) : Res :=
  let n := vectorsOf a.fn
  if !(a.size == 4 || a.size == 8) || a.off % a.size != 0 then (if a.read then s.reply a 0 else .next s)
  else if a.off < n * 16 then
    let v := a.off / 16
    let second := a.off % 16 ≥ 8
    let e := Map.getD s.msix (a.fn * 64 + v) ⟨0, 0, true, false⟩
    if a.read then s.reply a (accessPart a (e.word second))
    else
      let (whi, wlo) := if a.size == 8 then (63, 0) else if a.off % 8 == 4 then (63, 32) else (31, 0)
      let w := setFld (e.word second) whi wlo a.val.toNat
      let e2 : Msix := if second then { e with data := BitVec.ofNat 32 w } else { e with addr := BitVec.ofNat 64 w }
      let t := { s with msix := Map.put s.msix (a.fn * 64 + v) { e2 with mask := if second then bit w 32 else e.mask } }
      .next (if second && e.mask && !bit w 32 then t.unmask a.fn v else t)
  else if a.off / 8 * 8 == 0x2000 && a.read then
    s.reply a (accessPart a ((List.range n).foldl (fun m i =>
      if (Map.getD s.msix (a.fn * 64 + i) ⟨0, 0, true, false⟩).pend then m + 2 ^ i else m) 0))
  else if a.read then s.reply a 0 else .next s

/-- An access to a function's BAR. -/
def State.access (s : State) (a : RegAccess) : Res :=
  if a.bar2 then s.accessBar2 a else if a.fn == 0 then s.accessPf a else s.accessVf a (a.fn - 1)

/-- REGISTER_WRITE: an access to a register through a BAR (R7). -/
def execRegisterWrite (a : RegAccess) (s : State) : Res := if a.fn ≤ 96 then s.access a else .fault .absentUnit

/-- SITEB_MMIO: served only for the BARs of partitions mapped to site B (R306). -/
def execSitebMmio (a : RegAccess) (s : State) : Res :=
  if a.fn > 96 then .fault .absentUnit
  else if a.fn != 0 && s.siteOf (a.fn - 1) == 1 then s.access a
  else .next ((s.emit (.completion 1 a.fn cplUr)).dropped 306 (if a.fn == 0 then 0x7F else a.fn - 1))

end Sys2Proof.Machine
end

