-- ==== Sys2Proof/Machine/Dispatch.lean ====
section
/-! DEFINITION. One arm for each command: the direct call of its meaning. -/

namespace Sys2Proof.Machine

/-- The effect of a command on everything but the queue. -/
def exec (i : Instr) (s : State) : Host.Outcome State Fault Refusal :=
  match i with
  | .registerWrite a => Sys2Proof.Machine.execRegisterWrite a s
  | .sitebTrainRequest module => Sys2Proof.Machine.execSitebTrainRequest module s
  | .sitebConfigAccess off write => Sys2Proof.Machine.execSitebConfigAccess off write s
  | .modeChangeWrite b val => Sys2Proof.Machine.execModeChangeWrite b val s
  | .modeChangeComplete b selfTestOk => Sys2Proof.Machine.execModeChangeComplete b selfTestOk s
  | .pondFallbackComplete b selfTestOk => Sys2Proof.Machine.execPondFallbackComplete b selfTestOk s
  | .sharedSizeChange val => Sys2Proof.Machine.execSharedSizeChange val s
  | .sharedSizeChangeComplete => Sys2Proof.Machine.execSharedSizeChangeComplete s
  | .wholeChannelFailure ch => Sys2Proof.Machine.execWholeChannelFailure ch s
  | .nop g e => Sys2Proof.Machine.execNop g e s
  | .vadd g e => Sys2Proof.Machine.execVadd g e s
  | .vsub g e => Sys2Proof.Machine.execVsub g e s
  | .vmul g e => Sys2Proof.Machine.execVmul g e s
  | .vmad g e => Sys2Proof.Machine.execVmad g e s
  | .vmin g e => Sys2Proof.Machine.execVmin g e s
  | .vmax g e => Sys2Proof.Machine.execVmax g e s
  | .vabs g e => Sys2Proof.Machine.execVabs g e s
  | .vneg g e => Sys2Proof.Machine.execVneg g e s
  | .vand g e => Sys2Proof.Machine.execVand g e s
  | .vor g e => Sys2Proof.Machine.execVor g e s
  | .vxor g e => Sys2Proof.Machine.execVxor g e s
  | .vnot g e => Sys2Proof.Machine.execVnot g e s
  | .vshl g e => Sys2Proof.Machine.execVshl g e s
  | .vshr g e => Sys2Proof.Machine.execVshr g e s
  | .vsra g e => Sys2Proof.Machine.execVsra g e s
  | .vsel g e => Sys2Proof.Machine.execVsel g e s
  | .vclz g e => Sys2Proof.Machine.execVclz g e s
  | .vpopc g e => Sys2Proof.Machine.execVpopc g e s
  | .vmov g e => Sys2Proof.Machine.execVmov g e s
  | .vrcp g e => Sys2Proof.Machine.execVrcp g e s
  | .vrsq g e => Sys2Proof.Machine.execVrsq g e s
  | .vsqrt g e => Sys2Proof.Machine.execVsqrt g e s
  | .vexp2 g e => Sys2Proof.Machine.execVexp2 g e s
  | .vlog2 g e => Sys2Proof.Machine.execVlog2 g e s
  | .vsin g e => Sys2Proof.Machine.execVsin g e s
  | .vcos g e => Sys2Proof.Machine.execVcos g e s
  | .vtanh g e => Sys2Proof.Machine.execVtanh g e s
  | .vsigmoid g e => Sys2Proof.Machine.execVsigmoid g e s
  | .vcvt g e => Sys2Proof.Machine.execVcvt g e s
  | .vcmp g e => Sys2Proof.Machine.execVcmp g e s
  | .pand g e => Sys2Proof.Machine.execPand g e s
  | .por g e => Sys2Proof.Machine.execPor g e s
  | .pxor g e => Sys2Proof.Machine.execPxor g e s
  | .pnot g e => Sys2Proof.Machine.execPnot g e s
  | .pmov g e => Sys2Proof.Machine.execPmov g e s
  | .ptos g e => Sys2Proof.Machine.execPtos g e s
  | .pcnt g e => Sys2Proof.Machine.execPcnt g e s
  | .shfl g e => Sys2Proof.Machine.execShfl g e s
  | .bcast g e => Sys2Proof.Machine.execBcast g e s
  | .rot g e => Sys2Proof.Machine.execRot g e s
  | .redadd g e => Sys2Proof.Machine.execRedadd g e s
  | .redmin g e => Sys2Proof.Machine.execRedmin g e s
  | .redmax g e => Sys2Proof.Machine.execRedmax g e s
  | .scanadd g e => Sys2Proof.Machine.execScanadd g e s
  | .vtos g e => Sys2Proof.Machine.execVtos g e s
  | .stov g e => Sys2Proof.Machine.execStov g e s
  | .route g e => Sys2Proof.Machine.execRoute g e s
  | .routeComplete id => Sys2Proof.Machine.execRouteComplete id s
  | .vld g e => Sys2Proof.Machine.execVld g e s
  | .vst g e => Sys2Proof.Machine.execVst g e s
  | .atom g e => Sys2Proof.Machine.execAtom g e s
  | .fence g e => Sys2Proof.Machine.execFence g e s
  | .tldF g e => Sys2Proof.Machine.execTldF g e s
  | .tstF g e => Sys2Proof.Machine.execTstF g e s
  | .sadd g e => Sys2Proof.Machine.execSadd g e s
  | .ssub g e => Sys2Proof.Machine.execSsub g e s
  | .smul g e => Sys2Proof.Machine.execSmul g e s
  | .smad g e => Sys2Proof.Machine.execSmad g e s
  | .smin g e => Sys2Proof.Machine.execSmin g e s
  | .smax g e => Sys2Proof.Machine.execSmax g e s
  | .sabs g e => Sys2Proof.Machine.execSabs g e s
  | .sneg g e => Sys2Proof.Machine.execSneg g e s
  | .sand g e => Sys2Proof.Machine.execSand g e s
  | .sor g e => Sys2Proof.Machine.execSor g e s
  | .sxor g e => Sys2Proof.Machine.execSxor g e s
  | .snot g e => Sys2Proof.Machine.execSnot g e s
  | .sshl g e => Sys2Proof.Machine.execSshl g e s
  | .sshr g e => Sys2Proof.Machine.execSshr g e s
  | .ssra g e => Sys2Proof.Machine.execSsra g e s
  | .ssel g e => Sys2Proof.Machine.execSsel g e s
  | .sclz g e => Sys2Proof.Machine.execSclz g e s
  | .spopc g e => Sys2Proof.Machine.execSpopc g e s
  | .smov g e => Sys2Proof.Machine.execSmov g e s
  | .sdiv g e => Sys2Proof.Machine.execSdiv g e s
  | .srem g e => Sys2Proof.Machine.execSrem g e s
  | .sdivu g e => Sys2Proof.Machine.execSdivu g e s
  | .sremu g e => Sys2Proof.Machine.execSremu g e s
  | .scmp g e => Sys2Proof.Machine.execScmp g e s
  | .rdctr g e => Sys2Proof.Machine.execRdctr g e s
  | .rdctx g e => Sys2Proof.Machine.execRdctx g e s
  | .tset g e => Sys2Proof.Machine.execTset g e s
  | .sld g e => Sys2Proof.Machine.execSld g e s
  | .sst g e => Sys2Proof.Machine.execSst g e s
  | .bra g e => Sys2Proof.Machine.execBra g e s
  | .bCc g e => Sys2Proof.Machine.execBCc g e s
  | .call g e => Sys2Proof.Machine.execCall g e s
  | .jr g e => Sys2Proof.Machine.execJr g e s
  | .ret g e => Sys2Proof.Machine.execRet g e s
  | .split g e => Sys2Proof.Machine.execSplit g e s
  | .elseMask g e => Sys2Proof.Machine.execElseMask g e s
  | .join g e => Sys2Proof.Machine.execJoin g e s
  | .cut g e => Sys2Proof.Machine.execCut g e s
  | .elect g e => Sys2Proof.Machine.execElect g e s
  | .twait g e => Sys2Proof.Machine.execTwait g e s
  | .twaitReturn g => Sys2Proof.Machine.execTwaitReturn g s
  | .swait g e => Sys2Proof.Machine.execSwait g e s
  | .swaitReturn g => Sys2Proof.Machine.execSwaitReturn g s
  | .endGroup g e => Sys2Proof.Machine.execEndGroup g e s
  | .launchComplete id => Sys2Proof.Machine.execLaunchComplete id s
  | .mma g e => Sys2Proof.Machine.execMma g e s
  | .mmaComplete id => Sys2Proof.Machine.execMmaComplete id s
  | .mzero g e => Sys2Proof.Machine.execMzero g e s
  | .mdrain g e => Sys2Proof.Machine.execMdrain g e s
  | .mdrainComplete id bad => Sys2Proof.Machine.execMdrainComplete id bad s
  | .dmaCopy g e => Sys2Proof.Machine.execDmaCopy g e s
  | .dmaGather g e => Sys2Proof.Machine.execDmaGather g e s
  | .dmaScatter g e => Sys2Proof.Machine.execDmaScatter g e s
  | .dmaXpose g e => Sys2Proof.Machine.execDmaXpose g e s
  | .dmaNarrow g e => Sys2Proof.Machine.execDmaNarrow g e s
  | .dmaBucket g e => Sys2Proof.Machine.execDmaBucket g e s
  | .dmaCommandStart id => Sys2Proof.Machine.execDmaCommandStart id s
  | .dmaRowDelivered id row => Sys2Proof.Machine.execDmaRowDelivered id row s
  | .dmaCommandComplete id => Sys2Proof.Machine.execDmaCommandComplete id s
  | .put g e => Sys2Proof.Machine.execPut g e s
  | .get g e => Sys2Proof.Machine.execGet g e s
  | .ratom g e => Sys2Proof.Machine.execRatom g e s
  | .sig g e => Sys2Proof.Machine.execSig g e s
  | .puts g e => Sys2Proof.Machine.execPuts g e s
  | .iput g e => Sys2Proof.Machine.execIput g e s
  | .red g e => Sys2Proof.Machine.execRed g e s
  | .rmoTargetApply id => Sys2Proof.Machine.execRmoTargetApply id s
  | .rmoComplete id => Sys2Proof.Machine.execRmoComplete id s
  | .rmoTimeout id => Sys2Proof.Machine.execRmoTimeout id s
  | .windowExport fn val => Sys2Proof.Machine.execWindowExport fn val s
  | .windowWithdraw fn val => Sys2Proof.Machine.execWindowWithdraw fn val s
  | .windowWithdrawComplete part window => Sys2Proof.Machine.execWindowWithdrawComplete part window s
  | .gets c line => Sys2Proof.Machine.execGets c line s
  | .getm c line => Sys2Proof.Machine.execGetm c line s
  | .pute c line => Sys2Proof.Machine.execPute c line s
  | .puto c line => Sys2Proof.Machine.execPuto c line s
  | .putm c line => Sys2Proof.Machine.execPutm c line s
  | .putAck c line => Sys2Proof.Machine.execPutAck c line s
  | .fwdgets c line => Sys2Proof.Machine.execFwdgets c line s
  | .fwdgetm c line => Sys2Proof.Machine.execFwdgetm c line s
  | .inv c line => Sys2Proof.Machine.execInv c line s
  | .snpinvdata c line => Sys2Proof.Machine.execSnpinvdata c line s
  | .snprd c line => Sys2Proof.Machine.execSnprd c line s
  | .invAck c line => Sys2Proof.Machine.execInvAck c line s
  | .getmGrant c line => Sys2Proof.Machine.execGetmGrant c line s
  | .presenceClear d line => Sys2Proof.Machine.execPresenceClear d line s
  | .ncacheConfig d val => Sys2Proof.Machine.execNcacheConfig d val s
  | .ncacheConversionComplete d => Sys2Proof.Machine.execNcacheConversionComplete d s
  | .walkComplete u => Sys2Proof.Machine.execWalkComplete u s
  | .s1Range fn p hi => Sys2Proof.Machine.execS1Range fn p hi s
  | .s1Ctx fn p hi => Sys2Proof.Machine.execS1Ctx fn p hi s
  | .s1All fn p hi => Sys2Proof.Machine.execS1All fn p hi s
  | .s2Range fn p hi => Sys2Proof.Machine.execS2Range fn p hi s
  | .s2Part fn p hi => Sys2Proof.Machine.execS2Part fn p hi s
  | .invalidateAll fn p hi => Sys2Proof.Machine.execInvalidateAll fn p hi s
  | .invalidationComplete owner => Sys2Proof.Machine.execInvalidationComplete owner s
  | .frespRetry fn p page ctx => Sys2Proof.Machine.execFrespRetry fn p page ctx s
  | .frespFailPage fn p page ctx => Sys2Proof.Machine.execFrespFailPage fn p page ctx s
  | .frespFailContext fn p page ctx => Sys2Proof.Machine.execFrespFailContext fn p page ctx s
  | .fringHeadWrite fn p val => Sys2Proof.Machine.execFringHeadWrite fn p val s
  | .schedRangeWrite p contexts val => Sys2Proof.Machine.execSchedRangeWrite p contexts val s
  | .doorbell fn idx size val => Sys2Proof.Machine.execDoorbell fn idx size val s
  | .packetRead q => Sys2Proof.Machine.execPacketRead q s
  | .schedule p => Sys2Proof.Machine.execSchedule p s
  | .schedulerTick => Sys2Proof.Machine.execSchedulerTick s
  | .preemptionPoint id => Sys2Proof.Machine.execPreemptionPoint id s
  | .switchComplete core => Sys2Proof.Machine.execSwitchComplete core s
  | .contextRecordWriteback => Sys2Proof.Machine.execContextRecordWriteback s
  | .condLaunch q => Sys2Proof.Machine.execCondLaunch q s
  | .fanout q => Sys2Proof.Machine.execFanout q s
  | .dmaPacket q => Sys2Proof.Machine.execDmaPacket q s
  | .signalPacket q => Sys2Proof.Machine.execSignalPacket q s
  | .waitPacket q => Sys2Proof.Machine.execWaitPacket q s
  | .waitTimeout q => Sys2Proof.Machine.execWaitTimeout q s
  | .phasePacket q => Sys2Proof.Machine.execPhasePacket q s
  | .barrierPacket q => Sys2Proof.Machine.execBarrierPacket q s
  | .packetComplete q seq => Sys2Proof.Machine.execPacketComplete q seq s
  | .enable fn queue => Sys2Proof.Machine.execEnable fn queue s
  | .disable fn queue => Sys2Proof.Machine.execDisable fn queue s
  | .disableComplete q => Sys2Proof.Machine.execDisableComplete q s
  | .resume fn queue => Sys2Proof.Machine.execResume fn queue s
  | .reload fn ctx => Sys2Proof.Machine.execReload fn ctx s
  | .partitionEnable p val => Sys2Proof.Machine.execPartitionEnable p val s
  | .partitionBasinWrite p high val => Sys2Proof.Machine.execPartitionBasinWrite p high val s
  | .partitionResourceWrite p reg val => Sys2Proof.Machine.execPartitionResourceWrite p reg val s
  | .partitionReset p val => Sys2Proof.Machine.execPartitionReset p val s
  | .partitionRemove p val => Sys2Proof.Machine.execPartitionRemove p val s
  | .partitionDrainTimeout p => Sys2Proof.Machine.execPartitionDrainTimeout p s
  | .partitionResetComplete p => Sys2Proof.Machine.execPartitionResetComplete p s
  | .partitionResetHang p => Sys2Proof.Machine.execPartitionResetHang p s
  | .flr p => Sys2Proof.Machine.execFlr p s
  | .commonRangeWrite n val => Sys2Proof.Machine.execCommonRangeWrite n val s
  | .cfgCommit val => Sys2Proof.Machine.execCfgCommit val s
  | .commitPartialTimeout unit => Sys2Proof.Machine.execCommitPartialTimeout unit s
  | .portControlWrite k val => Sys2Proof.Machine.execPortControlWrite k val s
  | .subportLinkUp n => Sys2Proof.Machine.execSubportLinkUp n s
  | .subportLinkDown n => Sys2Proof.Machine.execSubportLinkDown n s
  | .linkIdentityWrite reg val => Sys2Proof.Machine.execLinkIdentityWrite reg val s
  | .controlFrame k => Sys2Proof.Machine.execControlFrame k s
  | .foreignFrame k => Sys2Proof.Machine.execForeignFrame k s
  | .sessionOpen val => Sys2Proof.Machine.execSessionOpen val s
  | .sessionClose val => Sys2Proof.Machine.execSessionClose val s
  | .sessionCloseComplete idx => Sys2Proof.Machine.execSessionCloseComplete idx s
  | .putData m => Sys2Proof.Machine.execPutData m s
  | .getRequest m => Sys2Proof.Machine.execGetRequest m s
  | .getResponse m => Sys2Proof.Machine.execGetResponse m s
  | .ratomMessage m => Sys2Proof.Machine.execRatomMessage m s
  | .ratomResponse m => Sys2Proof.Machine.execRatomResponse m s
  | .sigMessage m => Sys2Proof.Machine.execSigMessage m s
  | .putsData m => Sys2Proof.Machine.execPutsData m s
  | .putsSignal m => Sys2Proof.Machine.execPutsSignal m s
  | .iputRow m => Sys2Proof.Machine.execIputRow m s
  | .redMessage m => Sys2Proof.Machine.execRedMessage m s
  | .comp m => Sys2Proof.Machine.execComp m s
  | .ack m => Sys2Proof.Machine.execAck m s
  | .nak m => Sys2Proof.Machine.execNak m s
  | .hello m => Sys2Proof.Machine.execHello m s
  | .helloAck m => Sys2Proof.Machine.execHelloAck m s
  | .refuse m => Sys2Proof.Machine.execRefuse m s
  | .close m => Sys2Proof.Machine.execClose m s
  | .keepalive m => Sys2Proof.Machine.execKeepalive m s
  | .helloRetry idx => Sys2Proof.Machine.execHelloRetry idx s
  | .retransmitTimeout idx => Sys2Proof.Machine.execRetransmitTimeout idx s
  | .ackTimer idx => Sys2Proof.Machine.execAckTimer idx s
  | .keepaliveInterval idx => Sys2Proof.Machine.execKeepaliveInterval idx s
  | .peerSilence idx => Sys2Proof.Machine.execPeerSilence idx s
  | .arbitrationRoundEnd n => Sys2Proof.Machine.execArbitrationRoundEnd n s
  | .hostPowerGood pin => Sys2Proof.Machine.execHostPowerGood pin s
  | .hostLinkUp site trained fast => Sys2Proof.Machine.execHostLinkUp site trained fast s
  | .hostLinkDown site => Sys2Proof.Machine.execHostLinkDown site s
  | .ucieFlitReplay site => Sys2Proof.Machine.execUcieFlitReplay site s
  | .configRequest fn off write => Sys2Proof.Machine.execConfigRequest fn off write s
  | .unsupportedRequest site fn what => Sys2Proof.Machine.execUnsupportedRequest site fn what s
  | .sitebMmio a => Sys2Proof.Machine.execSitebMmio a s
  | .sitebMapWrite high val => Sys2Proof.Machine.execSitebMapWrite high val s
  | .siteAPerst => Sys2Proof.Machine.execSiteAPerst s
  | .siteBPerst => Sys2Proof.Machine.execSiteBPerst s
  | .msixUnmask fn vector => Sys2Proof.Machine.execMsixUnmask fn vector s
  | .edgeFlitReplay d edge => Sys2Proof.Machine.execEdgeFlitReplay d edge s
  | .edgeLinkOutOfService d edge => Sys2Proof.Machine.execEdgeLinkOutOfService d edge s
  | .correlationSample => Sys2Proof.Machine.execCorrelationSample s
  | .d2dOffer d vmin vmax => Sys2Proof.Machine.execD2dOffer d vmin vmax s
  | .d2dHandshakeEnd => Sys2Proof.Machine.execD2dHandshakeEnd s
  | .controlInterval m => Sys2Proof.Machine.execControlInterval m s
  | .stepChangeComplete d => Sys2Proof.Machine.execStepChangeComplete d s
  | .pwrCapWrite val => Sys2Proof.Machine.execPwrCapWrite val s
  | .pwrFixedWrite val => Sys2Proof.Machine.execPwrFixedWrite val s
  | .brakeAssert => Sys2Proof.Machine.execBrakeAssert s
  | .brakeDeassert => Sys2Proof.Machine.execBrakeDeassert s
  | .ebbStretch d => Sys2Proof.Machine.execEbbStretch d s
  | .ebbStretchEnd d => Sys2Proof.Machine.execEbbStretchEnd d s
  | .ebbLimitExpiry d => Sys2Proof.Machine.execEbbLimitExpiry d s
  | .ebbReset die => Sys2Proof.Machine.execEbbReset die s
  | .thermalSample d tempC => Sys2Proof.Machine.execThermalSample d tempC s
  | .balanceEnable val => Sys2Proof.Machine.execBalanceEnable val s
  | .balancePeriod => Sys2Proof.Machine.execBalancePeriod s
  | .basinIdle b => Sys2Proof.Machine.execBasinIdle b s
  | .gatedToRetained b => Sys2Proof.Machine.execGatedToRetained b s
  | .idleExpiryWake b => Sys2Proof.Machine.execIdleExpiryWake b s
  | .basinWake b why => Sys2Proof.Machine.execBasinWake b why s
  | .basinWakeComplete b => Sys2Proof.Machine.execBasinWakeComplete b s
  | .idleHintWrite p val => Sys2Proof.Machine.execIdleHintWrite p val s
  | .vcmdAck d => Sys2Proof.Machine.execVcmdAck d s
  | .vcmdAckTimeout d => Sys2Proof.Machine.execVcmdAckTimeout d s
  | .rakePatrol site patrol found => Sys2Proof.Machine.execRakePatrol site patrol found s
  | .commonRepairComplete row readbackOk => Sys2Proof.Machine.execCommonRepairComplete row readbackOk s
  | .lockstepMismatch => Sys2Proof.Machine.execLockstepMismatch s
  | .mgmtRestartComplete => Sys2Proof.Machine.execMgmtRestartComplete s
  | .launchWatchdog id => Sys2Proof.Machine.execLaunchWatchdog id s
  | .dmaWatchdog id => Sys2Proof.Machine.execDmaWatchdog id s
  | .matrixWatchdog id => Sys2Proof.Machine.execMatrixWatchdog id s
  | .suspendWatchdog g => Sys2Proof.Machine.execSuspendWatchdog g s
  | .invalidationWatchdog owner => Sys2Proof.Machine.execInvalidationWatchdog owner s
  | .weirNoResponse => Sys2Proof.Machine.execWeirNoResponse s
  | .sharedUnitNoResponse d => Sys2Proof.Machine.execSharedUnitNoResponse d s
  | .stopTimeout hang => Sys2Proof.Machine.execStopTimeout hang s
  | .collectionComplete partial_ => Sys2Proof.Machine.execCollectionComplete partial_ s
  | .engineReset u => Sys2Proof.Machine.execEngineReset u s
  | .coreReset core l1Answers => Sys2Proof.Machine.execCoreReset core l1Answers s
  | .dieReset d => Sys2Proof.Machine.execDieReset d s
  | .warmDeviceReset => Sys2Proof.Machine.execWarmDeviceReset s
  | .coldReset => Sys2Proof.Machine.execColdReset s
  | .resetStepComplete => Sys2Proof.Machine.execResetStepComplete s
  | .resetEscalation => Sys2Proof.Machine.execResetEscalation s
  | .replayComplete id => Sys2Proof.Machine.execReplayComplete id s
  | .replayWatchdog id => Sys2Proof.Machine.execReplayWatchdog id s
  | .sluiceTimeout p => Sys2Proof.Machine.execSluiceTimeout p s
  | .rstReqEngine val => Sys2Proof.Machine.execRstReqEngine val s
  | .rstReqCore val => Sys2Proof.Machine.execRstReqCore val s
  | .rstReqDie val => Sys2Proof.Machine.execRstReqDie val s
  | .rstReqWarm val => Sys2Proof.Machine.execRstReqWarm val s
  | .rstReqCold val => Sys2Proof.Machine.execRstReqCold val s
  | .powerGoodRise r => Sys2Proof.Machine.execPowerGoodRise r s
  | .powerGoodFall => Sys2Proof.Machine.execPowerGoodFall s
  | .coldRstAssert => Sys2Proof.Machine.execColdRstAssert s
  | .railFault r => Sys2Proof.Machine.execRailFault r s
  | .mgmtStartTimeout => Sys2Proof.Machine.execMgmtStartTimeout s
  | .recoveryImage file => Sys2Proof.Machine.execRecoveryImage file s
  | .readyBitSet b => Sys2Proof.Machine.execReadyBitSet b s
  | .bootDone => Sys2Proof.Machine.execBootDone s
  | .aliasTreeGenerate => Sys2Proof.Machine.execAliasTreeGenerate s
  | .getVersion req => Sys2Proof.Machine.execGetVersion req s
  | .getCapabilities req => Sys2Proof.Machine.execGetCapabilities req s
  | .negotiateAlgorithms req => Sys2Proof.Machine.execNegotiateAlgorithms req s
  | .getDigests req => Sys2Proof.Machine.execGetDigests req s
  | .getCertificate slot offset length => Sys2Proof.Machine.execGetCertificate slot offset length s
  | .challenge slot req => Sys2Proof.Machine.execChallenge slot req s
  | .getMeasurements index signed req => Sys2Proof.Machine.execGetMeasurements index signed req s
  | .pldmPlatformRequest sensor => Sys2Proof.Machine.execPldmPlatformRequest sensor s
  | .pldmFirmwareUpdate file => Sys2Proof.Machine.execPldmFirmwareUpdate file s
  | .mctpControl req => Sys2Proof.Machine.execMctpControl req s
  | .i3cDynamicAddress addr => Sys2Proof.Machine.execI3cDynamicAddress addr s
  | .chanMapout tok len => Sys2Proof.Machine.execChanMapout tok len s
  | .chanClear tok len => Sys2Proof.Machine.execChanClear tok len s
  | .pwrTable tok len => Sys2Proof.Machine.execPwrTable tok len s
  | .svnCommit tok len => Sys2Proof.Machine.execSvnCommit tok len s
  | .measExtend tok len => Sys2Proof.Machine.execMeasExtend tok len s
  | .btnDirectory tok len => Sys2Proof.Machine.execBtnDirectory tok len s
  | .mboxComplete flashOk => Sys2Proof.Machine.execMboxComplete flashOk s
  | .pllLockLoss die => Sys2Proof.Machine.execPllLockLoss die s
  | .hostLinkRetrain site => Sys2Proof.Machine.execHostLinkRetrain site s
  | .atsInvalidation site pasid page pages => Sys2Proof.Machine.execAtsInvalidation site pasid page pages s
  | .edgeMesochronousReturn d edge => Sys2Proof.Machine.execEdgeMesochronousReturn d edge s
  | .getsData c line => Sys2Proof.Machine.execGetsData c line s
  | .snoopResponse c line => Sys2Proof.Machine.execSnoopResponse c line s
  | .fecUncorrectableFrame k => Sys2Proof.Machine.execFecUncorrectableFrame k s
  | .reservedOpcMessage m => Sys2Proof.Machine.execReservedOpcMessage m s

end Sys2Proof.Machine
end

