-- ==== Sys2Proof/Machine/Tick.lean ====
section
/-! DEFINITION. One 10 ns period of the reference clock: the counters advance (R323) and cores charge their cycles
(R254, R335, R343). It is what a step does on an empty queue (log entry 2). -/

namespace Sys2Proof.Machine

/-- CCLK pulses of a die in n periods of 10 ns: K / 2 in each (R330). One of every capN is suppressed while the cap stretches the
clock (R334), and every second one while an Ebb detector does (R339). -/
def State.pulses (s : State) (d n : Nat) : Nat :=
  let p := stepK (s.dieStep d) * n / 2
  let p := if s.power.capN == 0 then p else p - p / s.power.capN
  if s.power.stretch.contains d then p / 2 else p

/-- CCLK cycles of a die in this period. -/
def State.tickCycles (s : State) (d : Nat) : Nat := s.pulses d (s.weirCtr.toNat + 1) - s.pulses d s.weirCtr.toNat

/-- The cores that hold a group slot. -/
def State.busyCores (s : State) : List Nat := (s.groups.map (fun kv => kv.1 / 128)).dedup

/-- Launches with a group slot on a core. -/
def State.coreLaunches (s : State) (core : Nat) : List Nat :=
  ((s.groups.filter (fun kv => kv.1 / 128 == core)).map (fun kv => kv.2.launch)).dedup

/-- Every group of a core waits in SWAIT or TWAIT. -/
def State.allWait (s : State) (core : Nat) : Bool :=
  (s.groups.filter (fun kv => kv.1 / 128 == core)).all (fun kv =>
    match kv.2.stat with | .twait _ => true | .swait _ _ _ _ => true | _ => false)

/-- Add to a counter. -/
def addTo (m : Map Nat) (k n : Nat) : Map Nat := Map.put m k (Map.getD m k 0 + n)

/-- Charge one core's cycles: 1 per cycle for a Pond core, 7 for a Lake core (R254). -/
def State.chargeCore (s : State) (core : Nat) : State :=
  let d := coreDie core
  let raw := s.tickCycles d
  let n := if core < 1024 then raw else 7 * raw
  let ls := s.coreLaunches core
  let ctxs := (ls.filterMap (fun l => (Map.find? s.launches l).map (fun x => x.ctx))).dedup
  let s := ls.foldl (fun t l =>
    match Map.find? t.launches l with
    | none => t
    | some x =>
      { t with
        launches := Map.put t.launches l { x with cycles := x.cycles + n, ran := x.ran + 1 }
        power := { t.power with cyc := addTo t.power.cyc (d * 64 + x.tag % 64) n } }) s
  let s := ctxs.foldl (fun t c => { t with ctxs := Map.modify t.ctxs c (fun a => { a with charged := a.charged + n }) }) s
  { s with power := { s.power with
    cyc := addTo s.power.cyc (768 + d) n
    allCyc := s.power.allCyc + n
    waitCyc := s.power.waitCyc + (if s.allWait core then n else 0) } }

/-- One period of the reference clock. -/
def State.tick (s : State) : State :=
  if s.boot.phase == 0 then s
  else
    let s := if s.tripped then s
      else
        let s := s.busyCores.foldl State.chargeCore s
        { s with power := { s.power with
          cyc := (List.range 12).foldl (fun m d => addTo m (780 + d) (56 * s.tickCycles d)) s.power.cyc } }
    { s with
      weirCtr := s.weirCtr + 1
      panCtr := (List.range 12).foldl (fun m d => Map.put m d ((Map.getD m d 0 + 1) % 2 ^ 64)) s.panCtr }

end Sys2Proof.Machine
end

