-- ==== Sys2Proof/Safety.lean ====
section
/-! DEFINITION. The vocabulary of the statements: memories in canonical form, what an instruction of a group brings to its
core's front end, when it issues, and what a group keeps. -/

namespace Sys2Proof.Machine

/-- Every memory of the block is in canonical form. -/
def State.memOk (s : State) : Prop :=
  Memory.wf s.heap = true ∧ Memory.wf s.pool = true ∧ Memory.wf s.mboxReq = true ∧ Memory.wf s.mboxRsp = true

/-- A step answers a next state. -/
def runs (s : State) : Prop := ∃ t, step s = .next t

/-! ### Instructions of a group -/

/-- The scalar registers of an ATOM. -/
def atomRegs (e : Enc) : List Nat :=
  if encF e 13 13 == 1 then [] else [encA e, encB e] ++ (if encF e 19 16 == 9 then [encC e] else [])

/-- The scalar registers of an RMO instruction (Table 05-7). -/
def rmoRegs (fn : Nat) (e : Enc) : List Nat :=
  (if fn == 3 then [] else [encD e]) ++ [encA e] ++ (if fn == 2 || fn == 3 then [] else [encB e]) ++
    (if fn == 2 || fn == 3 || fn == 4 then [encC e] else []) ++
    (if fn == 4 || (fn == 2 && encF e 15 12 == 9) then [encC e + 1] else [])

/-- What a Glaper instruction brings to the front end of its core: the group, its operand bits, OP, FN, the decode fault
and the scalar registers it reads (Table 05-5). None for a command that no group issues. -/
def frontEnd : Instr → Option (GroupRef × Enc × Ins)
  | .nop r e => some (r, e, ⟨0x01, 0, decodeBare false e, []⟩)
  | .vadd r e => some (r, e, valuIns 0x00 e)
  | .vsub r e => some (r, e, valuIns 0x01 e)
  | .vmul r e => some (r, e, valuIns 0x02 e)
  | .vmad r e => some (r, e, valuIns 0x03 e)
  | .vmin r e => some (r, e, valuIns 0x04 e)
  | .vmax r e => some (r, e, valuIns 0x05 e)
  | .vabs r e => some (r, e, valuIns 0x06 e)
  | .vneg r e => some (r, e, valuIns 0x07 e)
  | .vand r e => some (r, e, valuIns 0x08 e)
  | .vor r e => some (r, e, valuIns 0x09 e)
  | .vxor r e => some (r, e, valuIns 0x0A e)
  | .vnot r e => some (r, e, valuIns 0x0B e)
  | .vshl r e => some (r, e, valuIns 0x0C e)
  | .vshr r e => some (r, e, valuIns 0x0D e)
  | .vsra r e => some (r, e, valuIns 0x0E e)
  | .vsel r e => some (r, e, valuIns 0x0F e)
  | .vclz r e => some (r, e, valuIns 0x10 e)
  | .vpopc r e => some (r, e, valuIns 0x11 e)
  | .vmov r e => some (r, e, valuIns 0x12 e)
  | .vrcp r e => some (r, e, ⟨0x06, 0x00, decodeSfu e, []⟩)
  | .vrsq r e => some (r, e, ⟨0x06, 0x01, decodeSfu e, []⟩)
  | .vsqrt r e => some (r, e, ⟨0x06, 0x02, decodeSfu e, []⟩)
  | .vexp2 r e => some (r, e, ⟨0x06, 0x03, decodeSfu e, []⟩)
  | .vlog2 r e => some (r, e, ⟨0x06, 0x04, decodeSfu e, []⟩)
  | .vsin r e => some (r, e, ⟨0x06, 0x05, decodeSfu e, []⟩)
  | .vcos r e => some (r, e, ⟨0x06, 0x06, decodeSfu e, []⟩)
  | .vtanh r e => some (r, e, ⟨0x06, 0x07, decodeSfu e, []⟩)
  | .vsigmoid r e => some (r, e, ⟨0x06, 0x08, decodeSfu e, []⟩)
  | .vcvt r e => some (r, e, ⟨0x07, 0, decodeCvt e, []⟩)
  | .vcmp r e => some (r, e, ⟨0x08, 0, decodeCmp false e, if encBS e then [encB e] else []⟩)
  | .pand r e => some (r, e, ⟨0x09, 0, decodePred 0 e, []⟩)
  | .por r e => some (r, e, ⟨0x09, 1, decodePred 1 e, []⟩)
  | .pxor r e => some (r, e, ⟨0x09, 2, decodePred 2 e, []⟩)
  | .pnot r e => some (r, e, ⟨0x09, 3, decodePred 3 e, []⟩)
  | .pmov r e => some (r, e, ⟨0x09, 4, decodePred 4 e, [encA e]⟩)
  | .ptos r e => some (r, e, ⟨0x09, 5, decodePred 5 e, []⟩)
  | .pcnt r e => some (r, e, ⟨0x09, 6, decodePred 6 e, []⟩)
  | .shfl r e => some (r, e, ⟨0x0A, 0, decodePerm 0 e, if encBS e then [encB e] else []⟩)
  | .bcast r e => some (r, e, ⟨0x0A, 1, decodePerm 1 e, [encB e]⟩)
  | .rot r e => some (r, e, ⟨0x0A, 2, decodePerm 2 e, [encB e]⟩)
  | .redadd r e => some (r, e, ⟨0x0A, 3, decodePerm 3 e, []⟩)
  | .redmin r e => some (r, e, ⟨0x0A, 4, decodePerm 4 e, []⟩)
  | .redmax r e => some (r, e, ⟨0x0A, 5, decodePerm 5 e, []⟩)
  | .scanadd r e => some (r, e, ⟨0x0A, 6, decodePerm 6 e, []⟩)
  | .vtos r e => some (r, e, ⟨0x0A, 7, decodePerm 7 e, [encB e]⟩)
  | .stov r e => some (r, e, ⟨0x0A, 8, decodePerm 8 e, [encA e]⟩)
  | .route r e => some (r, e, ⟨0x0B, 0, decodeRoute (coreKind r.core.toNat) e, [encA e, encB e, encC e]⟩)
  | .vld r e => some (r, e, ⟨0x0C, 0, decodeMem false false e, [encA e]⟩)
  | .vst r e => some (r, e, ⟨0x0D, 0, decodeMem false true e, [encA e]⟩)
  | .atom r e => some (r, e, ⟨0x0E, 0, decodeAtom e, atomRegs e⟩)
  | .fence r e => some (r, e, ⟨0x0F, 0, decodeBare true e, []⟩)
  | .tldF r e => some (r, e, ⟨0x10, 0, decodeFrag e, [encA e]⟩)
  | .tstF r e => some (r, e, ⟨0x11, 0, decodeFrag e, [encA e]⟩)
  | .sadd r e => some (r, e, saluIns 0x00 e)
  | .ssub r e => some (r, e, saluIns 0x01 e)
  | .smul r e => some (r, e, saluIns 0x02 e)
  | .smad r e => some (r, e, saluIns 0x03 e)
  | .smin r e => some (r, e, saluIns 0x04 e)
  | .smax r e => some (r, e, saluIns 0x05 e)
  | .sabs r e => some (r, e, saluIns 0x06 e)
  | .sneg r e => some (r, e, saluIns 0x07 e)
  | .sand r e => some (r, e, saluIns 0x08 e)
  | .sor r e => some (r, e, saluIns 0x09 e)
  | .sxor r e => some (r, e, saluIns 0x0A e)
  | .snot r e => some (r, e, saluIns 0x0B e)
  | .sshl r e => some (r, e, saluIns 0x0C e)
  | .sshr r e => some (r, e, saluIns 0x0D e)
  | .ssra r e => some (r, e, saluIns 0x0E e)
  | .ssel r e => some (r, e, saluIns 0x0F e)
  | .sclz r e => some (r, e, saluIns 0x10 e)
  | .spopc r e => some (r, e, saluIns 0x11 e)
  | .smov r e => some (r, e, saluIns 0x12 e)
  | .sdiv r e => some (r, e, saluIns 0x13 e)
  | .srem r e => some (r, e, saluIns 0x14 e)
  | .sdivu r e => some (r, e, saluIns 0x15 e)
  | .sremu r e => some (r, e, saluIns 0x16 e)
  | .scmp r e => some (r, e, ⟨0x1A, 0, decodeCmp true e, [encA e, encB e]⟩)
  | .rdctr r e => some (r, e, ⟨0x1B, 0, decodeSys 0 e, []⟩)
  | .rdctx r e => some (r, e, ⟨0x1B, 1, decodeSys 1 e, []⟩)
  | .tset r e => some (r, e, ⟨0x1B, 2, decodeSys 2 e, [encA e, encB e]⟩)
  | .sld r e => some (r, e, ⟨0x1C, 0, decodeMem true false e, [encA e]⟩)
  | .sst r e => some (r, e, ⟨0x1D, 0, decodeMem true true e, [encA e, encD e]⟩)
  | .bra r e => some (r, e, ⟨0x20, 0, decodeBr 0 e, []⟩)
  | .bCc r e => some (r, e, ⟨0x20, 1, decodeBr 1 e, [encA e, encB e]⟩)
  | .call r e => some (r, e, ⟨0x20, 2, decodeBr 2 e, []⟩)
  | .jr r e => some (r, e, ⟨0x20, 3, decodeBr 3 e, [encA e]⟩)
  | .ret r e => some (r, e, ⟨0x20, 4, decodeBr 4 e, [encA e]⟩)
  | .split r e => some (r, e, ⟨0x21, 0, decodeMask 0 e, []⟩)
  | .elseMask r e => some (r, e, ⟨0x21, 1, decodeMask 1 e, []⟩)
  | .join r e => some (r, e, ⟨0x21, 2, decodeMask 2 e, []⟩)
  | .cut r e => some (r, e, ⟨0x21, 3, decodeMask 3 e, []⟩)
  | .elect r e => some (r, e, ⟨0x21, 4, decodeMask 4 e, []⟩)
  | .twait r e => some (r, e, ⟨0x22, 0, decodeWait 0 e, []⟩)
  | .swait r e => some (r, e, ⟨0x22, 1, decodeWait 1 e, [encA e, encB e]⟩)
  | .endGroup r e => some (r, e, ⟨0x23, 0, decodeBare false e, []⟩)
  | .mma r e => some (r, e, ⟨0x28, 0, decodeMma (coreKind r.core.toNat) e, []⟩)
  | .mzero r e => some (r, e, ⟨0x29, 0, decodeTile 0 (coreKind r.core.toNat) e, []⟩)
  | .mdrain r e => some (r, e, ⟨0x29, 1, decodeTile 1 (coreKind r.core.toNat) e, []⟩)
  | .dmaCopy r e => some (r, e, ⟨0x2A, 0, decodeDma (coreKind r.core.toNat) e, [encF e 37 32]⟩)
  | .dmaGather r e => some (r, e, ⟨0x2A, 1, decodeDma (coreKind r.core.toNat) e, [encF e 37 32]⟩)
  | .dmaScatter r e => some (r, e, ⟨0x2A, 2, decodeDma (coreKind r.core.toNat) e, [encF e 37 32]⟩)
  | .dmaXpose r e => some (r, e, ⟨0x2A, 3, decodeDma (coreKind r.core.toNat) e, [encF e 37 32]⟩)
  | .dmaNarrow r e => some (r, e, ⟨0x2A, 4, decodeDma (coreKind r.core.toNat) e, [encF e 37 32]⟩)
  | .dmaBucket r e => some (r, e, ⟨0x2A, 5, decodeDma (coreKind r.core.toNat) e, [encF e 37 32]⟩)
  | .put r e => some (r, e, ⟨0x2B, 0, decodeRmo 0 e, rmoRegs 0 e⟩)
  | .get r e => some (r, e, ⟨0x2B, 1, decodeRmo 1 e, rmoRegs 1 e⟩)
  | .ratom r e => some (r, e, ⟨0x2B, 2, decodeRmo 2 e, rmoRegs 2 e⟩)
  | .sig r e => some (r, e, ⟨0x2B, 3, decodeRmo 3 e, rmoRegs 3 e⟩)
  | .puts r e => some (r, e, ⟨0x2B, 4, decodeRmo 4 e, rmoRegs 4 e⟩)
  | .iput r e => some (r, e, ⟨0x2B, 5, decodeRmo 5 e, rmoRegs 5 e⟩)
  | .red r e => some (r, e, ⟨0x2B, 6, decodeRmo 6 e, rmoRegs 6 e⟩)
  | _ => none

/-- Group `g` of launch `l` stands at `r` and may issue (R59). -/
structure Ready (s : State) (r : GroupRef) (g : Group) (l : Launch) : Prop where
  group : Map.find? s.groups (refKey r) = some g
  launch : Map.find? s.launches g.launch = some l
  stat : g.stat = .run
  phase : l.phase = .running
  notHung : r.core.toNat ∉ s.hung
  notTripped : s.rf .pwrSts 7 7 ≠ 1
  notArriving : s.arriving r.core.toNat g.launch = false

/-- The words of instruction n with operand bits e are fetched for group g of launch l, free of poison, and leave state u: they
lie in Shared at an address that is a multiple of 8, and their translation is held (R56, R87). State u differs from s in the
caches alone (the statement `fetch_and_issue`). -/
structure Fetches (s u : State) (r : GroupRef) (e : Enc) (n : Ins) (g : Group) (l : Launch) : Prop where
  aligned : g.pc.toNat % 8 = 0
  words : s.fetchInsn r.core.toNat l.ctx g.pc.toNat = .got u (encWord n.op n.fn e) (encHi e) none

/-- Instruction `i` issues from group `g` of launch `l` and takes no fault of the front end: the group may issue (R59), its words
are fetched (R56) and leave state `u`, the encoding has no decode fault (R84 to R86), and no ROUTE is due into a scalar
register that it reads (R139). -/
structure Issues (s u : State) (i : Instr) (r : GroupRef) (e : Enc) (g : Group) (l : Launch) : Prop where
  ready : Ready s r g l
  decodes : ∃ n, frontEnd i = some (r, e, n) ∧ n.code = none ∧ (∀ x ∈ n.sregs, x ∉ g.sbusy) ∧ Fetches s u r e n g l

/-- No scalar register that instruction `i` reads is poisoned in the group (R352). -/
def scalarsClean (i : Instr) (g : Group) : Prop :=
  ∀ r e n, frontEnd i = some (r, e, n) → ∀ x ∈ n.sregs, x ∉ g.spois

/-- Lane i of a mask is set. -/
def inMask (m : Half) (i : Nat) : Prop := i < 32 ∧ m.getLsbD i = true

/-- What a group holds after an instruction at the next program counter that may write only vector registers. -/
def Group.sameButV (g h : Group) (e : Enc) : Prop :=
  h = { g with v := h.v, vpois := h.vpois, pc := g.pc + (if e.x then 16#48 else 8#48) }

/-- Group `h` is group `g` after an instruction that writes `f i` to element i of vector register `d` for every lane i of
`m`: those elements hold it and are free of poison, every other vector lane and its poison is as before, and nothing else
of the group changes but its program counter (R148). -/
structure VectorResult (g h : Group) (e : Enc) (wide : Bool) (d : Nat) (m : Half) (f : Nat → Nat) : Prop where
  lanes : ∀ i, inMask m i → h.elem wide d i = f i % 2 ^ (if wide then 64 else 32)
  clean : ∀ i, inMask m i → ∀ k ∈ laneKeys wide d i, k ∉ h.vpois
  others : ∀ k, (∀ i, inMask m i → k ∉ laneKeys wide d i) →
    Map.getD h.v k 0 = Map.getD g.v k 0 ∧ (k ∈ h.vpois ↔ k ∈ g.vpois)
  rest : g.sameButV h e

/-- Group `h` is group `g` after an instruction that writes `x` to scalar register `d`: a write of s0 is discarded
(R54), every other register is as before, and nothing else of the group changes but its program counter. -/
structure ScalarResult (g h : Group) (e : Enc) (d : Nat) (x : Word) : Prop where
  value : d ≠ 0 → h.gs d = x ∧ d ∉ h.spois ∧ d ∉ h.sbusy
  zero : h.gs 0 = 0
  others : ∀ r, r ≠ d → h.gs r = g.gs r ∧ (r ∈ h.spois ↔ r ∈ g.spois) ∧ (r ∈ h.sbusy ↔ r ∈ g.sbusy)
  rest : h = { g with s := h.s, spois := h.spois, sbusy := h.sbusy, pc := g.pc + (if e.x then 16#48 else 8#48) }

/-- Group `h` is group `g` after an instruction that writes `x` to predicate `d`: a write of p0 is discarded (R54). -/
structure PredResult (g h : Group) (e : Enc) (d : Nat) (x : Half) : Prop where
  value : d ≠ 0 → h.gp d = x
  ones : h.gp 0 = 0xFFFFFFFF#32
  others : ∀ r, r ≠ d → h.gp r = g.gp r
  rest : h = { g with p := h.p, pc := g.pc + (if e.x then 16#48 else 8#48) }

/-! ### Memory -/

/-- An access of n bytes at each (lane, address) of `xs` is performed: every address is aligned; what is read is not poisoned
(R352); a pool access lies in the pool and no registered range holds it (R198); the bytes of a Shared access are translated,
in no repair and, unless the L1 serves them, reachable (R18), and `t` is the state after their coherence transaction (R218),
in which their translations are the last used. `bs` gives each lane's bytes. -/
def Performs (s : State) (r : GroupRef) (l : Launch) (spc : Bool) (need : Need) (u : CohUse) (writes reads : Bool) (n : Nat)
    (xs : List LaneAcc) (t : State) (bs : List LaneBytes) : Prop :=
  let core := r.core.toNat
  let cache := cacheOf core r.slot.toNat
  (∀ x ∈ xs, x.2 % n = 0) ∧ (reads = true → ∀ b ∈ bs, (s.readLocs 0 b.locs).2 = false) ∧
  (spc = false → t = s ∧ bs = xs.map (fun x => ⟨x.1, x.2, x.2, poolLocs core x.2 n⟩) ∧
    (∀ x ∈ xs, x.2 + n ≤ poolSize core) ∧ s.poolHeld core (xs.map (fun x => ((x.2, n), writes))) = false) ∧
  (spc = true → bs.map (fun b => (b.lane, b.addr)) = xs ∧
    (∀ b ∈ bs, s.look core l.ctx b.addr n need = .ok b.dpa b.locs ∧ s.laneDown u cache n b = false ∧
      ∀ x ∈ b.locs, s.inRepair x = false) ∧
    ∃ w, s.cohAccess u cache bs n = some w ∧ t = xs.foldl (fun (v : State) x => v.touch core (coreDie core) l.ctx x.2 need) w)

/-- The last of the bytes that a write of `bs` at `ls` gives location `l`. -/
def lastByte (ls : List Loc) (bs : List Byte) (l : Loc) : Option Byte :=
  ((ls.zip bs).reverse.find? (fun p => p.1 == l)).map (fun p => p.2)

/-- State `u` is state `t` after a write of bytes `bs` at locations `ls`, a later byte of one location replacing an
earlier one: every byte of a pool or a Heap that no location names reads as before, a Heap byte on a Failing channel
keeps its value (R49), and groups, launches, queues, commands and translations are as before. -/
structure Wrote (t u : State) (ls : List Loc) (bs : List Byte) : Prop where
  pool : ∀ k, u.pool.read k = (lastByte ls bs (.pool k)).getD (t.pool.read k)
  heap : ∀ k, u.heap.read k = if t.failing k then t.heap.read k else (lastByte ls bs (.heap k)).getD (t.heap.read k)
  healed : ∀ sec, sec ∈ u.poolPoison → sec ∈ t.poolPoison ∧ ¬ (∀ i, i < 32 → .pool (sec * 32 + i) ∈ ls)
  poisoned : ∀ sec, sec ∈ t.poolPoison → ¬ (∀ i, i < 32 → .pool (sec * 32 + i) ∈ ls) → sec ∈ u.poolPoison
  rest : u.groups = t.groups ∧ u.launches = t.launches ∧ u.queues = t.queues ∧ u.mtx = t.mtx ∧ u.dma = t.dma ∧
    u.rmo = t.rmo ∧ u.routes = t.routes ∧ u.tlb = t.tlb ∧ u.coh = t.coh ∧ u.acc = t.acc ∧ u.failed = t.failed

/-- A group at the next instruction, unchanged otherwise. -/
def Group.next (g : Group) (e : Enc) : Group := { g with pc := g.pc + (if e.x then 16#48 else 8#48) }

/-! ### Commands that a group issues -/

/-- The effective mask holds a lane and no scalar register of the instruction is poisoned: a solo instruction issues its
command (R62, R352). -/
def issuesSolo (i : Instr) (e : Enc) (g : Group) : Prop := effMask g e ≠ 0 ∧ scalarsClean i g

/-! ### Messages -/

/-- Message m arrives on a sub-port that is up, has the form of R284, and names session ss of this incarnation (R284,
R287). -/
structure Heard (s : State) (m : Msg) (ss : Session) : Prop where
  up : s.subUp m.subport.val = true
  formed : msgFormed m = true
  sess : Map.find? s.sessions m.dstSess = some ss
  peer : s.fromPeer ss m = true ∧ ss.remoteSess = m.srcSess
  inc : m.dstInc = s.incarnation ∧ (ss.known = true → m.srcInc = ss.peerInc ∨ restarted m = true)

/-- Sequenced message m is the next of its open session, with nothing held behind it (R289, R290). -/
structure NextInOrder (s : State) (m : Msg) (ss : Session) : Prop where
  heard : Heard s m ss
  opened : ss.st = 0 ∧ m.srcInc = ss.peerInc
  form : lacks ss.version m = false
  order : m.psn = ss.rcvPsn ∧ ss.heldMsgs = []

/-- The state in which an arrived message stands in its session's reorder buffer. -/
def State.withHeld (s : State) (m : Msg) : State :=
  s.modSess m.dstSess (fun x => { x with
    heldMsgs := x.heldMsgs ++ [(m.psn, m)]
    ackCount := x.ackCount + 1 })

/-- A control message of an opcode leaves on sub-port n. -/
def Sends (s t : State) (opc n : Nat) : Prop :=
  ∃ m : Msg, t.out = .message m :: s.out ∧ m.opc = opc ∧ m.subport.val = n

/-! ### Packets -/

/-- The packet at the start point of queue q starts as `e` from state s to state u (R262): it leaves the packets read, joins
the packets started, and no other queue changes. -/
structure Starts (s u : State) (q : Nat) (e : Started) : Prop where
  started : (u.queue q).started = (s.queue q).started ++ [e]
  fetched : (u.queue q).fetched = (s.queue q).fetched.drop 1
  same : (u.queue q).cmpl = (s.queue q).cmpl ∧ (u.queue q).st = (s.queue q).st ∧ (u.queue q).head = (s.queue q).head ∧
    (u.queue q).tail = (s.queue q).tail
  others : ∀ k, k ≠ q → u.queue k = s.queue k

/-- What an active context holds once the cycles charged to it have entered its times (R254). -/
def ActiveCtx.settled (a : ActiveCtx) : ActiveCtx :=
  { a with
    time := (a.time + a.charged) % 2 ^ 64
    vt := (a.vt + a.charged * (2 ^ 24 / max 1 (fld a.w0.toNat 15 0))) % 2 ^ 64
    charged := 0 }

/-! ### Reset steps -/

/-- A reset step of the unit, or a wider one that covers it, is asked for or runs (R373). -/
def Covers (t : State) (level unit ekind eidx : Nat) : Prop :=
  ∃ e ∈ t.resetQ, t.inScope ⟨level, unit, ekind, eidx, false, false, false, false, 0, 0, 0, 0, 0, 0⟩ e = true

/-- Launch `id` is ending: it fails, and none of its groups stays in a slot (R71, R367). -/
def Ending (t : State) (id : Nat) : Prop :=
  (∃ l, Map.find? t.launches id = some l ∧ l.phase = .failing) ∧ ∀ x ∈ t.groups, x.2.launch ≠ id

end Sys2Proof.Machine
end

