-- ==== Sys2Proof/Certificates/Slice0/Obligations.lean ====
section
/-! DEFINITION. The statements for the provers. -/

section
open Sys2Proof Sys2Proof.Machine

/-! ### The step -/

/-- A step runs the command at the front of the queue with the queue's rest. -/
def Obligations.step_runs_front : Prop :=
  ∀ (c : Instr) (rest : List Instr) (s : State),
    step { s with pending := c :: rest } = exec c { s with pending := rest }

/-- An empty queue: a step answers the state after 10 ns of the reference clock, in which the Weir's counter and,
once power is good, every die's counter count one (R323). That the clock ticks on an empty queue is the model's
choice (log entry 2). Where the manual leaves a point open, this states the model's choice: log entry 2. -/
def Obligations.idle_step_ticks : Prop :=
  ∀ s : State, s.pending = [] →
    ∃ t, step s = .next t ∧ t.pending = [] ∧
      (s.boot.phase = 0 → t = s) ∧
      (s.boot.phase ≠ 0 → t.weirCtr = s.weirCtr + 1 ∧
        (∀ d, d < 12 → t.dieTime d = (s.dieTime d + 1) % 2 ^ 64) ∧
        t.regs = s.regs ∧ t.heap = s.heap ∧ t.pool = s.pool ∧ t.groups = s.groups ∧ t.queues = s.queues)

/-! ### Instructions of a group: the front end -/

/-- What every Glaper instruction does before its own effect. For a slot without a group nothing happens, and a group
that may not issue, one on a core that does not issue and one on a die whose clocks are stopped leave the state as it
is (R59, R367, Table 20-3). A program counter that is not a multiple of 8 is the fault 0x0A; a word whose translation
is not held makes the group wait for its walk, one in a space that holds no instructions is the fault 0x0B, and a
poisoned one the fault 0x0E (R56, R87). Fetched words that spell another instruction leave the group where it is;
words that spell none are the fault 0x02 (R84). An instruction with a decode fault ends its launch with that code on
every active lane (R70, R72, R86), and one that reads a register into which a ROUTE writes waits (R139). The fetch of
an instruction changes the caches alone: its core's instruction cache and µTLB, and the coherence state of the line
it reads (R56, R225). A word that the instruction cache holds as memory does comes from there. Where the manual
leaves a point open, this states the model's choice: log entries 11, 12, 13, 14, 47 and 95. -/
def Obligations.fetch_and_issue : Prop :=
  (∀ (i : Instr) (r : GroupRef) (e : Enc) (n : Ins) (s : State), frontEnd i = some (r, e, n) →
     (Map.find? s.groups (refKey r) = none → exec i s = .next s) ∧
     (∀ g l, Map.find? s.groups (refKey r) = some g → Map.find? s.launches g.launch = some l →
       let core := r.core.toNat
       let pc := g.pc.toNat
       (g.stat ≠ .run ∨ l.phase ≠ .running ∨ core ∈ s.hung ∨ s.tripped = true → exec i s = .next s) ∧
       (Ready s r g l →
         (pc % 8 ≠ 0 → exec i s = .next (s.fatal r g l ⟨0x0A, g.act, pc⟩ 0 0)) ∧
         (pc % 8 = 0 →
           (∀ va w0, s.fetchInsn core l.ctx pc = .walk va w0 →
             exec i s = .next (s.awaitWalk r g l.ctx true false false va g.act w0 0)) ∧
           (∀ va w0, s.fetchInsn core l.ctx pc = .space va w0 → exec i s = .next (s.fatal r g l ⟨0x0B, g.act, va⟩ w0 0)) ∧
           (s.fetchInsn core l.ctx pc = .wait → exec i s = .next s) ∧
           (∀ u w0 w1 va, s.fetchInsn core l.ctx pc = .got u w0 w1 (some va) →
             exec i s = .next (u.fatal r g l ⟨0x0E, g.act, va⟩ w0 w1)) ∧
           (∀ u w0 w1, s.fetchInsn core l.ctx pc = .got u w0 w1 none →
             (w0 ≠ encWord n.op n.fn e ∨ w1 ≠ encHi e → exec i s = .next (
               if decodeWords r w0 w1 = none then u.fatal r g l ⟨0x02, g.act, 0⟩ w0 w1 else s)))) ∧
         (∀ u, Fetches s u r e n g l →
           (∀ c, n.code = some c → exec i s = .next (u.fatal r g l ⟨c, g.act, 0⟩ (encWord n.op n.fn e) (encHi e))) ∧
           (n.code = none → (∃ x ∈ n.sregs, x ∈ g.sbusy) → exec i s = .next u))))) ∧
  (∀ (s u : State) (core ctx va : Nat),
     (∀ w0 w1 bad, s.fetchInsn core ctx va = .got u w0 w1 bad →
       u = { s with utlb := u.utlb, icache := u.icache, coh := u.coh, freeIx := u.freeIx }) ∧
     (∀ dpa ls, s.look core ctx va 8 needR = .ok dpa ls →
       let line := fld dpa 29 6
       Map.find? s.icache (icKey (icacheOf core line) line) = some (s.sharedLine line) →
       s.fetchWord core ctx va = .word (s.touch core (coreDie core) ctx va needR)
         (BitVec.ofNat 64 (ofLe (((s.sharedLine line).bytes.drop (fld dpa 5 0)).take 8)))
         ((s.sharedLine line).poison.getLsbD (fld dpa 5 5))))

/-- A fatal group fault: its record is posted for the launch's partition, the launch fails with packet status 2 and
none of its groups stays in a slot (R71, Table 04-6); poison also fails the context (R353). -/
def Obligations.fatal_fault_ends_launch : Prop :=
  ∀ (s : State) (r : GroupRef) (g : Group) (l : Launch) (f : FaultInfo) (w0 w1 : Word),
    Map.find? s.launches g.launch = some l → l.phase = .running →
    (∃ l', Map.find? (s.fatal r g l f w0 w1).launches g.launch = some l' ∧ l'.phase = .failing ∧ l'.status = 2) ∧
    (∀ k h, (k, h) ∈ (s.fatal r g l f w0 w1).groups → h.launch ≠ g.launch) ∧
    (f.code = 0x0E → l.ctx ∈ (s.fatal r g l f w0 w1).failed) ∧
    (f.code ≠ 0x0E → (s.fatal r g l f w0 w1).failed = s.failed)

/-- The state of a group is its own (R53): an instruction of one group changes no other group's registers, masks,
stack or program counter; a group of its own launch may leave its slot, when the instruction ends the launch. -/
def Obligations.groups_are_isolated : Prop :=
  ∀ (i : Instr) (r : GroupRef) (e : Enc) (n : Ins) (s t : State), frontEnd i = some (r, e, n) → exec i s = .next t →
    ∀ x ∈ t.groups, x.1 = refKey r ∨ x ∈ s.groups

/-! ### Vector and scalar arithmetic -/

/-- The integer operations of R149 in the words of the hardware: two's complement on 32 and 64 bits. Where the manual
leaves a point open, this states the model's choice: log entry 120. -/
def Obligations.integer_operations : Prop :=
  ∀ (w : Nat) (a b c : BitVec w) (sgn : Bool), w = 32 ∨ w = 64 →
    let op := fun fn => BitVec.ofNat w (intOp fn w sgn a.toNat b.toNat c.toNat)
    (∀ fn, intOp fn w sgn a.toNat b.toNat c.toNat < 2 ^ w) ∧
    op 0x00 = a + b ∧ op 0x01 = a - b ∧ op 0x02 = a * b ∧ op 0x03 = a * b + c ∧
    op 0x04 = (if (if sgn then a.slt b else a.ult b) then a else b) ∧
    op 0x05 = (if (if sgn then a.slt b else a.ult b) then b else a) ∧
    op 0x06 = (if a.msb then -a else a) ∧ op 0x07 = -a ∧
    op 0x08 = a &&& b ∧ op 0x09 = a ||| b ∧ op 0x0A = a ^^^ b ∧ op 0x0B = ~~~a ∧
    op 0x0C = a <<< (b.toNat % w) ∧ op 0x0D = a >>> (b.toNat % w) ∧ op 0x0E = a.sshiftRight (b.toNat % w) ∧
    op 0x10 = a.clz ∧ op 0x11 = a.cpop ∧ op 0x12 = a ∧
    op 0x13 = (if b = 0 then BitVec.allOnes w else a.sdiv b) ∧ op 0x14 = (if b = 0 then a else a.srem b) ∧
    op 0x15 = (if b = 0 then BitVec.allOnes w else a / b) ∧ op 0x16 = (if b = 0 then a else a % b)

/-- Rounding is exact where no rounding is needed (R92): a value that an encoding of a format holds rounds to that
encoding, under every rounding mode, with or without saturation. ABS and NEG of a floating type clear and invert the
sign bit; a NaN gives the canonical NaN (R91, R150); MOV copies; and MAD rounds once (R92): it is the rounding of the
exact product and sum. -/
def Obligations.floating_operations : Prop :=
  (∀ (t : Nat) (f : Fmt) (rm x : Nat) (sat : Bool) (dr : Nat → Nat), fmtOf t = some f → rm ≤ 2 → x < 2 ^ f.bits →
     (∃ n m e, f.decode x = .fin n m e) → f.round rm sat dr (f.decode x) = x) ∧
  (∀ (t : Nat) (f : Fmt) (rm a b c : Nat) (sat : Bool) (dr : Nat → Nat), fmtOf t = some f → t = 4 ∨ t = 5 ∨ t = 6 →
     a < 2 ^ f.bits →
     (f.decode a = .nan → aluElem 0x06 t rm sat dr a b c = f.canon ∧ aluElem 0x07 t rm sat dr a b c = f.canon) ∧
     (f.decode a ≠ .nan →
       aluElem 0x06 t rm sat dr a b c = a % 2 ^ (f.bits - 1) ∧
       aluElem 0x07 t rm sat dr a b c = (if a < 2 ^ (f.bits - 1) then a + 2 ^ (f.bits - 1) else a - 2 ^ (f.bits - 1))) ∧
     aluElem 0x12 t rm sat dr a b c = a ∧
     aluElem 0x03 t rm sat dr a b c = f.round rm sat dr (((f.decode a).mul (f.decode b)).add (f.decode c)) ∧
     (f.decode a = .nan ∨ f.decode b = .nan →
       aluElem 0x00 t rm sat dr a b c = f.canon ∧ aluElem 0x01 t rm sat dr a b c = f.canon ∧
       aluElem 0x02 t rm sat dr a b c = f.canon ∧ aluElem 0x03 t rm sat dr a b c = f.canon))

/-- The special values of Table 09-1 for F32, BF16 and F16. Where the manual leaves a point open, this states the
model's choice: log entries 44 and 121. -/
def Obligations.special_values : Prop :=
  ∀ (t : Nat) (f : Fmt) (x : Nat), t = 4 ∨ t = 5 ∨ t = 6 → fmtOf t = some f → x < 2 ^ f.bits →
    let neg := 2 ^ (f.bits - 1)
    let one := f.round 0 false (fun _ => 0) (.fin false 1 0)
    sfu 0 t 0 = f.inf ∧ sfu 0 t neg = f.inf + neg ∧ sfu 0 t f.inf = 0 ∧ sfu 0 t (f.inf + neg) = neg ∧
    sfu 1 t 0 = f.inf ∧ sfu 1 t neg = f.inf + neg ∧ sfu 1 t f.inf = 0 ∧
    sfu 2 t neg = neg ∧
    (∀ n m e, f.decode x = .fin n m e → n = true → m ≠ 0 →
      sfu 1 t x = f.canon ∧ sfu 2 t x = f.canon ∧ sfu 4 t x = f.canon) ∧
    sfu 1 t (f.inf + neg) = f.canon ∧ sfu 2 t (f.inf + neg) = f.canon ∧ sfu 4 t (f.inf + neg) = f.canon ∧
    sfu 3 t (f.inf + neg) = 0 ∧ sfu 3 t f.inf = f.inf ∧
    sfu 4 t 0 = f.inf + neg ∧ sfu 4 t neg = f.inf + neg ∧ sfu 4 t f.inf = f.inf ∧
    sfu 5 t f.inf = f.canon ∧ sfu 5 t (f.inf + neg) = f.canon ∧ sfu 6 t f.inf = f.canon ∧
    sfu 6 t (f.inf + neg) = f.canon ∧
    sfu 7 t f.inf = one ∧ sfu 7 t (f.inf + neg) = one + neg ∧
    sfu 8 t (f.inf + neg) = 0 ∧ sfu 8 t f.inf = one ∧
    (f.decode x = .nan → ∀ fn, sfu fn t x = f.canon)

/-- The VALU and VALUI operations complete: every lane of the effective mask of vD takes the operation's element, of
the sources as they were before, and nothing else changes (R148, R149, R150, R76). VSFU, VCVT, SHFL, BCAST, ROT and
STOV complete: the lanes of the effective mask take their elements (R148, R151 to R153). Where the manual leaves a
point open, this states the model's choice: log entries 44, 114, 115 and 120. -/
def Obligations.vector_operations_complete : Prop :=
  (∀ p ∈ ([(Instr.vadd, 0x00), (Instr.vsub, 0x01), (Instr.vmul, 0x02), (Instr.vmad, 0x03), (Instr.vmin, 0x04),
       (Instr.vmax, 0x05), (Instr.vabs, 0x06), (Instr.vneg, 0x07), (Instr.vand, 0x08), (Instr.vor, 0x09),
       (Instr.vxor, 0x0A), (Instr.vnot, 0x0B), (Instr.vshl, 0x0C), (Instr.vshr, 0x0D), (Instr.vsra, 0x0E),
       (Instr.vsel, 0x0F), (Instr.vclz, 0x10), (Instr.vpopc, 0x11), (Instr.vmov, 0x12)] :
       List ((GroupRef → Enc → Instr) × Nat)),
   ∀ (r : GroupRef) (e : Enc) (s s₁ : State) (g : Group) (l : Launch),
     Issues s s₁ (p.1 r e) r e g l → scalarsClean (p.1 r e) g →
     (∀ i, inMask (effMask g e) i → ∀ k ∈ valuLanes p.2 e i, k ∉ g.vpois) →
     ∃ h, exec (p.1 r e) s = .next (s₁.putGroup r h) ∧
       VectorResult g h e (isWide (encT e)) (encD e) (effMask g e) (valuElem l g e p.2)) ∧
  (∀ (r : GroupRef) (e : Enc) (s s₁ : State) (g : Group) (l : Launch),
     let m := effMask g e
     let w := isWide (encT e)
     (∀ p ∈ ([(Instr.vrcp, 0), (Instr.vrsq, 1), (Instr.vsqrt, 2), (Instr.vexp2, 3), (Instr.vlog2, 4), (Instr.vsin, 5),
         (Instr.vcos, 6), (Instr.vtanh, 7), (Instr.vsigmoid, 8)] : List ((GroupRef → Enc → Instr) × Nat)),
       Issues s s₁ (p.1 r e) r e g l → (∀ i, inMask m i → encA e * 32 + i ∉ g.vpois) →
       ∃ h, exec (p.1 r e) s = .next (s₁.putGroup r h) ∧
         VectorResult g h e false (encD e) m (fun i => sfu p.2 (encT e) (g.gv (encA e) i).toNat)) ∧
     (Issues s s₁ (.vcvt r e) r e g l → (∀ i, inMask m i → ∀ k ∈ laneKeys (isWide (cvtSrc e)) (encA e) i, k ∉ g.vpois) →
       (isMx (encT e) = false ∨ encT e = cvtSrc e) →
       ∃ h, exec (.vcvt r e) s = .next (s₁.putGroup r h) ∧ VectorResult g h e w (encD e) m (cvtLane l g e)) ∧
     (Issues s s₁ (.vcvt r e) r e g l → (∀ i, inMask m i → encA e * 32 + i ∉ g.vpois) →
       isMx (encT e) = true → isMx (cvtSrc e) = false → isWide (cvtSrc e) = false →
       let b := mxBlock (encT e) (encRM e) (fun j => laneDraw l g j) ((List.range 32).map (blockVal g e m))
       ∃ h, exec (.vcvt r e) s = .next (s₁.putGroup r h) ∧
         VectorResult g h e false (encD e) m (fun i => b.2.getD i 0 + b.1 * 256)) ∧
     (Issues s s₁ (.shfl r e) r e g l → scalarsClean (.shfl r e) g →
       let src := fun i => if encBS e then (g.gs (encB e)).toNat % 32 else g.elem w (encB e) i % 32
       (∀ i, inMask m i → (∀ k ∈ laneKeys w (encA e) (src i), k ∉ g.vpois) ∧ (encBS e = false → ∀ k ∈ laneKeys w (encB e) i, k ∉ g.vpois)) →
       ∃ h, exec (.shfl r e) s = .next (s₁.putGroup r h) ∧
         VectorResult g h e w (encD e) m (fun i => g.elem w (encA e) (src i) % 2 ^ typeBits (encT e))) ∧
     (Issues s s₁ (.bcast r e) r e g l → scalarsClean (.bcast r e) g →
       let src := (g.gs (encB e)).toNat % 32
       (∀ k ∈ laneKeys w (encA e) src, k ∉ g.vpois) →
       ∃ h, exec (.bcast r e) s = .next (s₁.putGroup r h) ∧
         VectorResult g h e w (encD e) m (fun _ => g.elem w (encA e) src % 2 ^ typeBits (encT e))) ∧
     (Issues s s₁ (.rot r e) r e g l → scalarsClean (.rot r e) g →
       let src := fun i => (i + (g.gs (encB e)).toNat) % 32
       (∀ i, inMask m i → ∀ k ∈ laneKeys w (encA e) (src i), k ∉ g.vpois) →
       ∃ h, exec (.rot r e) s = .next (s₁.putGroup r h) ∧
         VectorResult g h e w (encD e) m (fun i => g.elem w (encA e) (src i) % 2 ^ typeBits (encT e))) ∧
     (Issues s s₁ (.stov r e) r e g l → scalarsClean (.stov r e) g →
       ∃ h, exec (.stov r e) s = .next (s₁.putGroup r h) ∧
         VectorResult g h e w (encD e) m (fun _ => (g.gs (encA e)).toNat % 2 ^ (if w then 64 else 32))))

/-- A source lane that an active lane of a VALU or VALUI operation uses is poisoned: the group faults with code 0x0E
on exactly those lanes, and no lane is written (R352, R70). A misaligned lane of VLD or VST, and a pool access past
the pool, end the launch with code 0x0A or 0x0C, naming the lanes that raised it (R81, R72). A register branch to an
address that is not a multiple of 8 is the alignment fault 0x0A (R56). The mask stack's faults (Table 04-5): SPLIT on
a stack of 32 entries is 0x06, ELSE, JOIN and CUT on an empty stack 0x07, END on a stack that is not empty 0x08.
Where the manual leaves a point open, this states the model's choice: log entries 65 and 95. -/
def Obligations.group_faults : Prop :=
  (∀ p ∈ ([(Instr.vadd, 0x00), (Instr.vmad, 0x03), (Instr.vsel, 0x0F), (Instr.vmov, 0x12)] :
       List ((GroupRef → Enc → Instr) × Nat)),
   ∀ (r : GroupRef) (e : Enc) (n : Ins) (s s₁ : State) (g : Group) (l : Launch) (m : Half),
     Issues s s₁ (p.1 r e) r e g l → frontEnd (p.1 r e) = some (r, e, n) → scalarsClean (p.1 r e) g → m ≠ 0 →
     (∀ i, i < 32 → (m.getLsbD i = true ↔ inMask (effMask g e) i ∧ ∃ k ∈ valuLanes p.2 e i, k ∈ g.vpois)) →
     exec (p.1 r e) s = .next (s₁.fatal r g l ⟨0x0E, m, 0⟩ (encWord n.op n.fn e) (encHi e))) ∧
  (∀ p ∈ [Instr.vld, Instr.vst], ∀ (r : GroupRef) (e : Enc) (n : Ins) (s s₁ : State) (g : Group) (l : Launch) (m : Half),
     Issues s s₁ (p r e) r e g l → frontEnd (p r e) = some (r, e, n) → scalarsClean (p r e) g → m ≠ 0 →
     (encF e 27 27 = 1 → ∀ i, inMask (effMask g e) i → encB e * 32 + i ∉ g.vpois) →
     ((∀ i, i < 32 → (m.getLsbD i = true ↔ inMask (effMask g e) i ∧ memLane g e i % memBytes e ≠ 0)) →
       exec (p r e) s = .next (s₁.fatal r g l ⟨0x0A, m, memLane g e (lowLane m)⟩ (encWord n.op n.fn e) (encHi e))) ∧
     ((∀ i, inMask (effMask g e) i → memLane g e i % memBytes e = 0) → encF e 26 26 = 0 →
       (∀ i, i < 32 → (m.getLsbD i = true ↔
         inMask (effMask g e) i ∧ poolSize r.core.toNat < memLane g e i + memBytes e)) →
       exec (p r e) s = .next (s₁.fatal r g l ⟨0x0C, m, memLane g e (lowLane m)⟩ (encWord n.op n.fn e) (encHi e)))) ∧
  (∀ p ∈ [Instr.jr, Instr.ret], ∀ (r : GroupRef) (e : Enc) (n : Ins) (s s₁ : State) (g : Group) (l : Launch),
     Issues s s₁ (p r e) r e g l → frontEnd (p r e) = some (r, e, n) → scalarsClean (p r e) g →
     (g.gs (encA e)).toNat % 8 ≠ 0 →
     exec (p r e) s =
       .next (s₁.fatal r g l ⟨0x0A, g.act, (g.gs (encA e)).toNat⟩ (encWord n.op n.fn e) (encHi e))) ∧
  (∀ (r : GroupRef) (e : Enc) (s s₁ : State) (g : Group) (l : Launch) (n : Ins),
     let fault := fun (c : Nat) => s₁.fatal r g l ⟨c, g.act, 0⟩ (encWord n.op n.fn e) (encHi e)
     (Issues s s₁ (.split r e) r e g l → frontEnd (.split r e) = some (r, e, n) → 32 ≤ g.stack.length →
       exec (.split r e) s = .next (fault 0x06)) ∧
     (∀ p ∈ [Instr.elseMask, Instr.join, Instr.cut], Issues s s₁ (p r e) r e g l → frontEnd (p r e) = some (r, e, n) →
       g.stack = [] → exec (p r e) s = .next (fault 0x07)) ∧
     (Issues s s₁ (.endGroup r e) r e g l → frontEnd (.endGroup r e) = some (r, e, n) → g.stack ≠ [] →
       exec (.endGroup r e) s = .next (fault 0x08)))

/-- VCMP and the predicate instructions complete: all 32 bits of pD are written, a bit outside the effective mask
with 0; PTOS and PCNT read all 32 bits of pA (R148, R79). REDADD, REDMIN, REDMAX, SCANADD and VTOS complete (R153 to
R155). With no active lane sD is the identity of a reduction (log entry 97); with one active lane it holds that
lane's element. Of a 32-bit integer reduction the manual does not say what stands in the upper half of sD: the
statement holds for every value of it (log entry 1). Where the manual leaves a point open, this states the model's
choice: log entries 43 and 122. -/
def Obligations.predicates_and_reductions_complete : Prop :=
  (∀ (r : GroupRef) (e : Enc) (s s₁ : State) (g : Group) (l : Launch),
     let m := effMask g e
     let t := encT e
     let w := isWide t
     (Issues s s₁ (.vcmp r e) r e g l → scalarsClean (.vcmp r e) g →
       (∀ i, inMask m i → ∀ k ∈ laneKeys w (encA e) i ++ (if encBS e then [] else laneKeys w (encB e) i), k ∉ g.vpois) →
       e.imm = false →
       ∃ h x, exec (.vcmp r e) s = .next (s₁.putGroup r h) ∧ PredResult g h e (encD e) x ∧
         ∀ i, i < 32 → (x.getLsbD i = true ↔ inMask m i ∧
           condOf t (encC e / 4) (g.elem w (encA e) i)
             (if encBS e then (g.gs (encB e)).toNat % 2 ^ (if w then 64 else 32) else g.elem w (encB e) i) = true)) ∧
     (∀ p ∈ ([(Instr.pand, g.gp (encA e) &&& g.gp (encB e)), (Instr.por, g.gp (encA e) ||| g.gp (encB e)),
         (Instr.pxor, g.gp (encA e) ^^^ g.gp (encB e)), (Instr.pnot, ~~~ g.gp (encA e)),
         (Instr.pmov, (g.gs (encA e)).setWidth 32)] : List ((GroupRef → Enc → Instr) × Half)),
       Issues s s₁ (p.1 r e) r e g l → scalarsClean (p.1 r e) g →
       ∃ h, exec (p.1 r e) s = .next (s₁.putGroup r h) ∧ PredResult g h e (encD e) (p.2 &&& m)) ∧
     (Issues s s₁ (.ptos r e) r e g l →
       ∃ h, exec (.ptos r e) s = .next (s₁.putGroup r h) ∧ ScalarResult g h e (encD e) ((g.gp (encA e)).setWidth 64)) ∧
     (Issues s s₁ (.pcnt r e) r e g l →
       ∃ h, exec (.pcnt r e) s = .next (s₁.putGroup r h) ∧
         ScalarResult g h e (encD e) ((g.gp (encA e)).cpop.setWidth 64))) ∧
  (∀ (r : GroupRef) (e : Enc) (s s₁ : State) (g : Group) (l : Launch),
     let m := effMask g e
     let t := encT e
     let w := isWide t
     let el := fun i => g.elem w (encA e) i % 2 ^ typeBits t
     (∀ p ∈ ([(Instr.redadd, 3), (Instr.redmin, 4), (Instr.redmax, 5)] : List ((GroupRef → Enc → Instr) × Nat)),
       Issues s s₁ (p.1 r e) r e g l → (∀ i, inMask m i → ∀ k ∈ laneKeys w (encA e) i, k ∉ g.vpois) →
       ∃ h x, exec (p.1 r e) s = .next (s₁.putGroup r h) ∧ ScalarResult g h e (encD e) x ∧
         (m ≠ 0 → 1 < t → x.toNat < 2 ^ typeBits t) ∧
         (m = 0 → x = BitVec.ofNat 64 (scalarForm t (redIdentity p.2 t))) ∧
         (∀ i, i < 32 → m = BitVec.twoPow 32 i → x.toNat % 2 ^ typeBits t = el i)) ∧
     (Issues s s₁ (.scanadd r e) r e g l → (∀ i, inMask m i → ∀ k ∈ laneKeys w (encA e) i, k ∉ g.vpois) →
       ∃ h f, exec (.scanadd r e) s = .next (s₁.putGroup r h) ∧ VectorResult g h e w (encD e) m f ∧
         (∀ i, inMask m i → (∀ j, j < i → ¬ inMask m j) → f i = el i) ∧
         (∀ i j, inMask m i → inMask m j → j < i → (∀ k, j < k → k < i → ¬ inMask m k) →
           f i = aluElem 0x00 t (encRM e) false (laneDraw l g i) (f j) (el i) 0)) ∧
     (Issues s s₁ (.vtos r e) r e g l → scalarsClean (.vtos r e) g →
       let src := (g.gs (encB e)).toNat % 32
       (∀ k ∈ laneKeys w (encA e) src, k ∉ g.vpois) →
       ∃ h, exec (.vtos r e) s = .next (s₁.putGroup r h) ∧
         ScalarResult g h e (encD e) (BitVec.ofNat 64 (el src))))

/-- The SALU and SALUI operations, SCMP, RDCTR, RDCTX and TSET complete (R149, R150, R79, R323, R108). -/
def Obligations.scalar_completes : Prop :=
  (∀ p ∈ ([(Instr.sadd, 0x00), (Instr.ssub, 0x01), (Instr.smul, 0x02), (Instr.smad, 0x03), (Instr.smin, 0x04),
      (Instr.smax, 0x05), (Instr.sabs, 0x06), (Instr.sneg, 0x07), (Instr.sand, 0x08), (Instr.sor, 0x09),
      (Instr.sxor, 0x0A), (Instr.snot, 0x0B), (Instr.sshl, 0x0C), (Instr.sshr, 0x0D), (Instr.ssra, 0x0E),
      (Instr.ssel, 0x0F), (Instr.sclz, 0x10), (Instr.spopc, 0x11), (Instr.smov, 0x12), (Instr.sdiv, 0x13),
      (Instr.srem, 0x14), (Instr.sdivu, 0x15), (Instr.sremu, 0x16)] : List ((GroupRef → Enc → Instr) × Nat)),
    ∀ (r : GroupRef) (e : Enc) (s s₁ : State) (g : Group) (l : Launch),
      Issues s s₁ (p.1 r e) r e g l → scalarsClean (p.1 r e) g →
      ∃ h, exec (p.1 r e) s = .next (s₁.putGroup r h) ∧
        ScalarResult g h e (encD e) (BitVec.ofNat 64 (scalarForm (encT e) (saluElem l g e p.2)))) ∧
  (∀ (r : GroupRef) (e : Enc) (s s₁ : State) (g : Group) (l : Launch),
    (Issues s s₁ (.scmp r e) r e g l → scalarsClean (.scmp r e) g →
      ∃ h, exec (.scmp r e) s = .next (s₁.putGroup r h) ∧ ScalarResult g h e (encD e)
        (if condInt 64 (encC e / 4) (g.gs (encA e)).toNat (g.gs (encB e)).toNat then 1 else 0)) ∧
    (Issues s s₁ (.rdctr r e) r e g l →
      ∃ h, exec (.rdctr r e) s = .next (s₁.putGroup r h) ∧
        ScalarResult g h e (encD e) (BitVec.ofNat 64 (s₁.dieTime (coreDie r.core.toNat)))) ∧
    (Issues s s₁ (.rdctx r e) r e g l →
      ∃ h, exec (.rdctx r e) s = .next (s₁.putGroup r h) ∧ ScalarResult g h e (encD e) (BitVec.ofNat 64 l.ctx)) ∧
    (Issues s s₁ (.tset r e) r e g l → scalarsClean (.tset r e) g →
      ∃ h, exec (.tset r e) s = .next (s₁.putGroup r h) ∧
        h.gt (encD e) = g.gs (encB e) ++ g.gs (encA e) ∧ (∀ d, d ≠ encD e → h.gt d = g.gt d) ∧
        h = { g with t := h.t, pc := g.pc + (if e.x then 16#48 else 8#48) }))

/-! ### Loads, stores, atomics, fragments -/

/-- A write of bytes at locations writes exactly them (R49, R156, R354). VST and SST complete in a pool and in
Shared: each lane's bytes are stored at its address, of two lanes that write one byte the higher supplies it, and
every other byte of every pool and Heap reads as before (R81, R156). Where the manual leaves a point open, this
states the model's choice: log entry 14. -/
def Obligations.stores_complete : Prop :=
  (∀ (s : State) (ls : List Loc) (bs : List Byte), Wrote s (s.writeLocs 0 ls bs) ls bs) ∧
  (∀ (r : GroupRef) (e : Enc) (s s₁ t : State) (g : Group) (l : Launch) (bs : List LaneBytes),
     let spc := encF e 26 26 == 1
     let n := memBytes e
     let locs := bs.flatMap (fun b => b.locs)
     (Issues s s₁ (.vst r e) r e g l → scalarsClean (.vst r e) g →
       (encF e 27 27 = 1 → ∀ i, inMask (effMask g e) i → encB e * 32 + i ∉ g.vpois) →
       (∀ i, inMask (effMask g e) i → ∀ k ∈ laneKeys (encF e 25 23 == 3) (encD e) i, k ∉ g.vpois) →
       Performs s₁ r l spc needW .store true false n ((lanesOf (effMask g e)).map (fun i => (i, memLane g e i))) t bs →
       ∃ u, exec (.vst r e) s = .next (u.putGroup r (g.next e)) ∧
         Wrote t u locs (bs.flatMap (fun b => leBytes (g.elem (encF e 25 23 == 3) (encD e) b.lane) n))) ∧
     (Issues s s₁ (.sst r e) r e g l → scalarsClean (.sst r e) g →
       Performs s₁ r l spc needW .store true false n [(lowLane g.act, ofSigned 64 (memBase g e))] t bs →
       ∃ u, exec (.sst r e) s = .next (u.putGroup r (g.next e)) ∧
         Wrote t u locs (bs.flatMap (fun _ => leBytes (g.gs (encD e)).toNat n))))

/-- VLD and SLD complete in a pool and in Shared: each lane's register takes the bytes at its address, extended under
SX, and nothing else of the group changes (R81, R156, R148). TLD.F and TST.F complete (R125): element c of row 32 i +
lane of the tile and element j of the fragment stand in lane of register V + j; an element outside the tile loads as
0 and is not stored. Where the manual leaves a point open, this states the model's choice: log entry 14. -/
def Obligations.loads_and_fragments_complete : Prop :=
  (∀ (r : GroupRef) (e : Enc) (s s₁ t : State) (g : Group) (l : Launch) (bs : List LaneBytes),
     let spc := encF e 26 26 == 1
     let n := memBytes e
     (Issues s s₁ (.vld r e) r e g l → scalarsClean (.vld r e) g →
       (encF e 27 27 = 1 → ∀ i, inMask (effMask g e) i → encB e * 32 + i ∉ g.vpois) →
       Performs s₁ r l spc needR .load false true n ((lanesOf (effMask g e)).map (fun i => (i, memLane g e i))) t bs →
       ∃ h f, exec (.vld r e) s = .next (t.putGroup r h) ∧
         VectorResult g h e (encF e 25 23 == 3) (encD e) (effMask g e) f ∧
         ∀ b ∈ bs, f b.lane = extended e (t.readLocs 0 b.locs).1) ∧
     (Issues s s₁ (.sld r e) r e g l → scalarsClean (.sld r e) g →
       Performs s₁ r l spc needR .load false true n [(lowLane g.act, ofSigned 64 (memBase g e))] t bs →
       ∃ h b, bs = [b] ∧ exec (.sld r e) s = .next (t.putGroup r h) ∧
         ScalarResult g h e (encD e) (BitVec.ofNat 64 (
           if encF e 22 22 = 1 then ofSigned 64 (toSigned (8 * n) (ofLe (t.readLocs 0 b.locs).1))
           else ofLe (t.readLocs 0 b.locs).1)))) ∧
  (∀ (r : GroupRef) (e : Enc) (s s₁ : State) (g : Group) (l : Launch),
     let core := r.core.toNat
     let n := fragBytes g e
     let xs := fragElems g e
     (Issues s s₁ (.tldF r e) r e g l → scalarsClean (.tldF r e) g → fragFault g e false (poolSize core) = none →
       s₁.poolHeld core (xs.map (fun x => ((x.2.2, n), false))) = false →
       (∀ x ∈ xs, (s₁.poolRead core x.2.2 n).2 = false) →
       ∃ h, exec (.tldF r e) s = .next (s₁.putGroup r h) ∧ g.sameButV h e ∧
         (∀ x ∈ xs, h.gv (encD e + x.2.1) x.1 = BitVec.ofNat 32 (ofLe (s₁.poolRead core x.2.2 n).1)) ∧
         (∀ i j, i < 32 → j < 4 → (∀ o, (i, j, o) ∉ xs) → h.gv (encD e + j) i = 0) ∧
         (∀ v i, i < 32 → (v < encD e ∨ encD e + 4 ≤ v) → h.gv v i = g.gv v i)) ∧
     (Issues s s₁ (.tstF r e) r e g l → scalarsClean (.tstF r e) g → fragFault g e true (poolSize core) = none →
       (∀ x ∈ xs, (encD e + x.2.1) * 32 + x.1 ∉ g.vpois) →
       s₁.poolHeld core (xs.map (fun x => ((x.2.2, n), true))) = false →
       ∃ u, exec (.tstF r e) s = .next (u.putGroup r (g.next e)) ∧
         Wrote s₁ u (xs.flatMap (fun x => poolLocs core x.2.2 n))
           (xs.flatMap (fun x => leBytes (g.gv (encD e + x.2.1) x.1).toNat n))))

/-- ATOM completes (R81, R210 to R212); while a ROUTE of its group has not written its results, the fence that it
begins with holds it where it is. A scalar atomic replaces its word by the operation on it and returns the old value;
a vector atomic performs its lanes one after another and returns each lane's old value. Of a 32-bit scalar atomic the
manual does not say what stands in the upper half of sD: the statement holds for every value of it (log entry 1). The
lanes of a vector atomic are performed in ascending order, each on what the lanes before it left (R212). Where the
manual leaves a point open, this states the model's choice: log entry 43. -/
def Obligations.atomics_complete : Prop :=
  (∀ (r : GroupRef) (e : Enc) (s s₁ t : State) (g : Group) (l : Launch) (bs : List LaneBytes),
     let wide := encF e 15 15 == 1
     let n := if wide then 8 else 4
     let cas := encF e 19 16 == 9
     let use : CohUse := if encF e 21 20 ≤ 1 then .store else .home
     let near := encF e 21 20 ≤ 1
     Issues s s₁ (.atom r e) r e g l →
     (s₁.ownRoute r g.launch = true → exec (.atom r e) s = .next s₁) ∧
     (scalarsClean (.atom r e) g → s₁.ownRoute r g.launch = false → encF e 13 13 = 0 →
       Performs s₁ r l (encF e 14 14 == 1) needRWA use true true n [(lowLane g.act, (g.gs (encA e)).toNat)] t bs →
       ∃ u h x b, bs = [b] ∧
         exec (.atom r e) s = .next ((if near then u else u.noteUnreplayable g.launch).putGroup r h) ∧
         Wrote t u b.locs (leBytes (atomNew (encF e 19 16) (8 * n) 4 (ofLe (t.readLocs 0 b.locs).1)
           ((g.gs (encB e)).toNat % 2 ^ (8 * n)) ((g.gs (encC e)).toNat % 2 ^ (8 * n))) n) ∧
         ScalarResult g h e (encD e) x ∧ x.toNat % 2 ^ (8 * n) = ofLe (t.readLocs 0 b.locs).1 % 2 ^ (8 * n)) ∧
     (s₁.ownRoute r g.launch = false → encF e 13 13 = 1 →
       (∀ i, inMask (effMask g e) i → encA e * 32 + i ∉ g.vpois ∧
         ∀ k ∈ laneKeys wide (encB e) i ++ (if cas then laneKeys wide (encC e) i else []), k ∉ g.vpois) →
       Performs s₁ r l (encF e 14 14 == 1) needRWA use true true n
         ((lanesOf (effMask g e)).map (fun i => (i, g.elem false (encA e) i))) t bs →
       let u := t.atomLanes (encF e 19 16) n 4 (g.elem wide (encB e)) (g.elem wide (encC e)) bs
       ∃ h f, exec (.atom r e) s =
           .next ((if bs.isEmpty || near then u.1 else u.1.noteUnreplayable g.launch).putGroup r h) ∧
         VectorResult g h e wide (encD e) (effMask g e) f ∧ ∀ p ∈ u.2, f p.1 = p.2)) ∧
  (∀ (s : State) (aop n ty : Nat) (opd cmp : Nat → Nat) (b : LaneBytes) (bs : List LaneBytes),
     let old := ofLe (s.readLocs 0 b.locs).1
     let s1 := s.writeLocs 0 b.locs
       (leBytes (atomNew aop (8 * n) ty old (opd b.lane % 2 ^ (8 * n)) (cmp b.lane % 2 ^ (8 * n))) n)
     s.atomLanes aop n ty opd cmp [] = (s, []) ∧
     s.atomLanes aop n ty opd cmp (b :: bs) =
       ((s1.atomLanes aop n ty opd cmp bs).1, (b.lane, old) :: (s1.atomLanes aop n ty opd cmp bs).2))

/-- NOP completes: only the program counter moves (R80). FENCE completes once the group's ROUTE has written its
results, and waits until then: every load, store and atomic of a group is performed when it issues (R204). TWAIT and
SWAIT (R63, R208). Each waits, or goes on at once when what it waits for has come; the return of a wait moves the
group past it. END frees the group's slot and changes nothing else (R61, R69). Where the manual leaves a point open,
this states the model's choice: log entry 89. -/
def Obligations.waits_and_end_complete : Prop :=
  (∀ (r : GroupRef) (e : Enc) (s s₁ : State) (g : Group) (l : Launch),
     (Issues s s₁ (.nop r e) r e g l → exec (.nop r e) s = .next (s₁.putGroup r (g.next e))) ∧
     (Issues s s₁ (.fence r e) r e g l → exec (.fence r e) s =
       .next (if s₁.ownRoute r g.launch then s₁ else s₁.putGroup r (g.next e)))) ∧
  (∀ (r : GroupRef) (e : Enc) (s s₁ : State) (g : Group) (l : Launch),
     let core := r.core.toNat
     let busy := fun (u : State) (m : Nat) => ∃ t, t < 16 ∧ bit m t = true ∧ u.tileBusy g.launch g.index t = true
     let a := (g.gs (encA e)).toNat
     (Issues s s₁ (.twait r e) r e g l →
       (busy s₁ (encF e 15 0) →
         exec (.twait r e) s = .next (s₁.putGroup r { g with stat := .twait (BitVec.ofNat 16 (encF e 15 0)) })) ∧
       (¬ busy s₁ (encF e 15 0) → exec (.twait r e) s = .next (s₁.putGroup r (g.next e)))) ∧
     (∀ m, Map.find? s.groups (refKey r) = some g → s.tripped = false → g.stat = .twait m → ¬ busy s m.toNat →
       exec (.twaitReturn r) s = .next (s.putGroup r { g with stat := .run, pc := g.pc + 8#48 })) ∧
     (Issues s s₁ (.swait r e) r e g l → scalarsClean (.swait r e) g → a % 8 = 0 → a + 8 ≤ poolSize core →
       (s₁.poolRead core a 8).2 = false →
       exec (.swait r e) s = .next (s₁.putGroup r (
         if condInt 64 (encF e 27 24) (ofLe (s₁.poolRead core a 8).1) (g.gs (encB e)).toNat then g.next e
         else { g with stat := .swait a (g.gs (encB e)) (BitVec.ofNat 4 (encF e 27 24)) (encWord 0x22 1 e) }))) ∧
     (∀ off rhs cc w0, s.tripped = false → Map.find? s.groups (refKey r) = some g → Map.find? s.launches g.launch = some l →
       g.stat = .swait off rhs cc w0 → (s.poolRead core off 8).2 = false →
       condInt 64 cc.toNat (ofLe (s.poolRead core off 8).1) rhs.toNat = true →
       exec (.swaitReturn r) s = .next (s.putGroup r { g with stat := .run, pc := g.pc + 8#48 }))) ∧
  (∀ (r : GroupRef) (e : Enc) (s s₁ : State) (g : Group) (l : Launch),
     Issues s s₁ (.endGroup r e) r e g l → g.stack = [] →
     ∃ t, exec (.endGroup r e) s = .next t ∧ Map.find? t.groups (refKey r) = none ∧
       (∀ k, k ≠ refKey r → Map.find? t.groups k = Map.find? s.groups k) ∧ t = { s₁ with groups := t.groups })

/-! ### Control flow, the mask stack, waits -/

/-- The branches complete (R74, R56, R79). The mask stack (R60, R61, R66): SPLIT pushes and takes a side, ELSE
changes sides, JOIN pops, CUT takes lanes out, ELECT names the lowest active lane. Where the manual leaves a point
open, this states the model's choice: log entry 43. -/
def Obligations.control_flow_completes : Prop :=
  (∀ (r : GroupRef) (e : Enc) (s s₁ : State) (g : Group) (l : Launch),
     let target := BitVec.ofInt 48 ((g.pc.toNat : Int) + toSigned 24 (encF e 23 0) * 8)
     (Issues s s₁ (.bra r e) r e g l → exec (.bra r e) s = .next (s₁.putGroup r { g with pc := target })) ∧
     (Issues s s₁ (.bCc r e) r e g l → scalarsClean (.bCc r e) g →
       exec (.bCc r e) s = .next (s₁.putGroup r (
         if condInt 64 (encF e 27 24) (g.gs (encA e)).toNat (g.gs (encB e)).toNat then { g with pc := target }
         else g.next e))) ∧
     (Issues s s₁ (.call r e) r e g l →
       exec (.call r e) s = .next (s₁.putGroup r { g.setS (encD e) ((g.pc + 8#48).setWidth 64) with pc := target })) ∧
     (∀ p ∈ [Instr.jr, Instr.ret], Issues s s₁ (p r e) r e g l → scalarsClean (p r e) g →
       (g.gs (encA e)).toNat % 8 = 0 →
       exec (p r e) s = .next (s₁.putGroup r { g with pc := (g.gs (encA e)).setWidth 48 }))) ∧
  (∀ (r : GroupRef) (e : Enc) (s s₁ : State) (g : Group) (l : Launch),
     let target := BitVec.ofInt 48 ((g.pc.toNat : Int) + toSigned 24 (encF e 23 0) * 8)
     let p := g.gp (encF e 45 42)
     (Issues s s₁ (.split r e) r e g l → g.stack.length < 32 →
       exec (.split r e) s = .next (s₁.putGroup r (
         if g.act &&& p ≠ 0 then
           { g.next e with act := g.act &&& p, stack := ⟨g.act, g.act &&& ~~~p, target⟩ :: g.stack }
         else { g with act := g.act &&& ~~~p, stack := ⟨g.act, 0, target⟩ :: g.stack, pc := target }))) ∧
     (∀ x xs, g.stack = x :: xs → Issues s s₁ (.elseMask r e) r e g l →
       exec (.elseMask r e) s = .next (s₁.putGroup r (
         if x.f ≠ 0 then { g with act := x.f, stack := ⟨x.m, 0, x.e⟩ :: xs, pc := x.e } else { g with pc := target }))) ∧
     (∀ x xs, g.stack = x :: xs → Issues s s₁ (.join r e) r e g l →
       exec (.join r e) s = .next (s₁.putGroup r { g.next e with act := x.m, stack := xs })) ∧
     (g.stack ≠ [] → Issues s s₁ (.cut r e) r e g l →
       exec (.cut r e) s = .next (s₁.putGroup r (
         if g.act &&& ~~~p ≠ 0 then { g.next e with act := g.act &&& ~~~p }
         else { g with act := 0, pc := target }))) ∧
     (Issues s s₁ (.elect r e) r e g l → g.act ≠ 0 →
       ∃ h n, exec (.elect r e) s = .next (s₁.putGroup r h) ∧ inMask g.act n ∧ (∀ i, i < n → ¬ inMask g.act i) ∧
         (encF e 45 42 ≠ 0 → h.gp (encF e 45 42) = BitVec.twoPow 32 n) ∧
         (∀ q, q ≠ encF e 45 42 → h.gp q = g.gp q) ∧
         (encF e 41 36 ≠ 0 → h.gs (encF e 41 36) = BitVec.ofNat 64 n) ∧
         (∀ q, q ≠ encF e 41 36 → h.gs q = g.gs q) ∧
         h = { g.next e with p := h.p, s := h.s, spois := h.spois, sbusy := h.sbusy }))

/-! ### Matrix commands -/

/-- MMA and MDRAIN are queued with their descriptors captured, and take the engine (R62, R117, R120); a command that
finds eight in its array, another launch at the engine or no free registration waits. MZERO with no earlier command
on its set sets it to +0 at once; behind one it is queued (R118). Where the manual leaves a point open, this states
the model's choice: log entry 85. -/
def Obligations.matrix_issue_completes : Prop :=
  ∀ (r : GroupRef) (e : Enc) (s s₁ : State) (g : Group) (l : Launch),
    let core := r.core.toNat
    let arr := encF e 32 32
    let set := encF e 33 33
    (∀ p ∈ [(Instr.mma, MtxKind.mma), (Instr.mzero, MtxKind.mzero), (Instr.mdrain, MtxKind.mdrain)],
      Issues s s₁ (p.1 r e) r e g l → effMask g e ≠ 0 → s₁.mtxWaits core g.launch arr p.2 = true →
      exec (p.1 r e) s = .next s₁) ∧
    (Issues s s₁ (.mma r e) r e g l → effMask g e ≠ 0 → mmaFault g e core = none →
      s₁.mtxWaits core g.launch arr .mma = false →
      ∃ (t : State) (c : MtxCmd), exec (.mma r e) s = .next (t.putGroup r (g.next e)) ∧ c ∈ t.mtx ∧ c.id = s₁.nextId ∧ c.kind = .mma ∧
        c.arr = arr ∧ c.set = set ∧ c.ta = g.gt (encF e 45 42) ∧ c.tb = g.gt (encF e 41 38) ∧ c.tm = mmaTM g e ∧
        (∃ h, Map.find? t.mtxHolder core = some h) ∧ t.nextId = s₁.nextId + 1 ∧ t.pool = s₁.pool ∧ t.groups = s₁.groups) ∧
    (Issues s s₁ (.mdrain r e) r e g l → effMask g e ≠ 0 → drainFault g e core = none →
      s₁.mtxWaits core g.launch arr .mdrain = false →
      ∃ (t : State) (c : MtxCmd), exec (.mdrain r e) s = .next (t.putGroup r (g.next e)) ∧ c ∈ t.mtx ∧ c.id = s₁.nextId ∧ c.kind = .mdrain ∧
        c.arr = arr ∧ c.set = set ∧ c.ta = g.gt (encF e 45 42) ∧
        (∃ h, Map.find? t.mtxHolder core = some h) ∧ t.nextId = s₁.nextId + 1 ∧ t.pool = s₁.pool ∧ t.groups = s₁.groups) ∧
    (Issues s s₁ (.mzero r e) r e g l → effMask g e ≠ 0 → s₁.mtxWaits core g.launch arr .mzero = false →
      ∃ t : State, exec (.mzero r e) s = .next (t.putGroup r (g.next e)) ∧ t.pool = s₁.pool ∧ t.groups = s₁.groups ∧
        ((∀ o ∈ s₁.mtx, ¬ (o.org.core = core ∧ o.arr = arr ∧ o.set = set)) →
          ∀ i j, i < mtxRows core → j < mtxCols core → t.accAt core arr set i j = 0) ∧
        ((∃ o ∈ s₁.mtx, o.org.core = core ∧ o.arr = arr ∧ o.set = set ∧ o.id < s₁.nextId ∧ o.kind ≠ .mzero) →
          ∃ c ∈ t.mtx, c.id = s₁.nextId ∧ c.kind = .mzero))

/-- MMA_COMPLETE: every element of its rows and columns takes the sum of R112 over the value before (over +0 with
CLR), and no byte of a pool changes; the command leaves the queue. Poison ends the launch instead and fails the
context (R117, R123, R124). MDRAIN_COMPLETE: the rows' bytes are written to the pool and, with no MZERO waiting,
nothing of the accumulators changes; a failing column ends the launch and counts in BSN_MTX_ERR (R119, R127). Where
the manual leaves a point open, this states the model's choice: log entries 15, 116 and 117. -/
def Obligations.matrix_products_complete : Prop :=
  (∀ (s : State) (id : Nat) (c : MtxCmd), s.mtx.find? (fun o => o.id == id && o.kind == .mma) = some c → s.tripped = false →
     s.mtxFirst c = true → s.cmdHeld c.org.core id c.ranges = false →
     (s.mmaPoison c = [] →
       (∀ o ∈ s.mtx, o.kind = .mzero → ∀ p ∈ physSets o.org.core o.arr o.set, p ∉ physSets c.org.core c.arr c.set) →
       tdRows c.ta ≤ mtxRows c.org.core → tdRows c.tb ≤ mtxCols c.org.core →
       ∃ t : State, exec (.mmaComplete id) s = .next t ∧ (∀ o ∈ t.mtx, o.id ≠ id) ∧ t.pool = s.pool ∧ t.groups = s.groups ∧
         ∀ i j, i < tdRows c.ta → j < tdRows c.tb →
           t.accAt c.org.core c.arr c.set i j =
             s.mmaElem c i j (if c.clr then 0 else s.accAt c.org.core c.arr c.set i j) % 2 ^ 32) ∧
     (∀ l, s.mmaPoison c ≠ [] → Map.find? s.launches (c.org.launch.getD 0) = some l → l.phase = .running →
       ∃ (t : State) (l' : Launch), exec (.mmaComplete id) s = .next t ∧
         Map.find? t.launches (c.org.launch.getD 0) = some l' ∧ l'.phase = .failing ∧ c.org.ctx ∈ t.failed ∧ t.pool = s.pool)) ∧
  (∀ (s : State) (id : Nat) (bad : BitVec 512) (c : MtxCmd),
     s.mtx.find? (fun o => o.id == id && o.kind == .mdrain) = some c → s.tripped = false →
     s.mtxFirst c = true → s.cmdHeld c.org.core id c.ranges = false →
     let ws := (List.range (tdRows c.ta)).flatMap (s.drainRow c)
     (drainBad c bad = [] →
       ∃ t : State, exec (.mdrainComplete id bad) s = .next t ∧ (∀ o ∈ t.mtx, o.id ≠ id) ∧ t.heap = s.heap ∧
         t.groups = s.groups ∧ ((∀ o ∈ s.mtx, o.kind ≠ .mzero) → t.acc = s.acc) ∧
         ∀ k, t.pool.read k =
           (lastByte (ws.flatMap (fun w => poolLocs c.org.core w.1 w.2.length)) (ws.flatMap (fun w => w.2)) (.pool k)).getD
             (s.pool.read k)) ∧
     (∀ l, drainBad c bad ≠ [] → c.set < 2 → Map.find? s.launches (c.org.launch.getD 0) = some l → l.phase = .running →
       ∃ (t : State) (l' : Launch), exec (.mdrainComplete id bad) s = .next t ∧
         Map.find? t.launches (c.org.launch.getD 0) = some l' ∧ l'.phase = .failing ∧ t.pool = s.pool ∧
         t.rf (.bsnMtxErr (coreBasin c.org.core)) 31 24 = satInc 8 (s.rf (.bsnMtxErr (coreBasin c.org.core)) 31 24)))

/-! ### ROUTE, DMA and RMO commands -/

/-- ROUTE waits while its vector engine's unit is busy; it takes it and leaves sD waiting; ROUTE_COMPLETE writes the
dispatch list to the pool and sC · K to sD (R135 to R139). Where the manual leaves a point open, this states the
model's choice: log entries 46 and 89. -/
def Obligations.route_completes : Prop :=
  (∀ (r : GroupRef) (e : Enc) (n : Ins) (s s₁ : State) (g : Group) (l : Launch),
    let core := r.core.toNat
    let a := (g.gs (encA e)).toNat
    let b := (g.gs (encB e)).toNat
    let cnt := (g.gs (encC e)).toNat
    let k := encX e 57 54
    let ex := encX e 52 43 + 1
    Issues s s₁ (.route r e) r e g l → frontEnd (.route r e) = some (r, e, n) → scalarsClean (.route r e) g →
    let busy := ∃ o ∈ s₁.routes, o.org.core = core ∧ o.eng = engineOf core r.slot.toNat
    (busy → exec (.route r e) s = .next s₁) ∧
    (¬ busy → a % 16 = 0 → b % 16 = 0 → cnt = 0 →
      ∃ h, exec (.route r e) s = .next (s₁.putGroup r h) ∧ ScalarResult g h e (encD e) 0) ∧
    (
      let c : RouteCmd :=
        ⟨s₁.nextId, originOf r g l e n, engineOf core r.slot.toNat, a, b, cnt, encT e, encD e, k, ex, encX e 42 41⟩
      ¬ busy → a % 16 = 0 → b % 16 = 0 → cnt ≠ 0 → cnt ≤ 65536 → a + scoreSpan cnt ex (encT e) ≤ poolSize core → b + cnt * k * 8 ≤ poolSize core →
      conflicts c.ranges (s₁.registered core s₁.nextId) = false → s₁.regFree core = true →
      (s₁.poolRead core a (scoreSpan cnt ex (encT e))).2 = false →
      exec (.route r e) s = .next ({ s₁ with nextId := s₁.nextId + 1, routes := s₁.routes ++ [c] }.putGroup r
        { g.next e with sbusy := if encD e = 0 then g.sbusy else NSet.ins g.sbusy (encD e) }))) ∧
  (∀ (s : State) (id : Nat) (c : RouteCmd) (g : Group), s.routes.find? (fun o => o.id == id) = some c → s.tripped = false →
    Map.find? s.groups (gkey c.org.core c.org.slot) = some g → c.org.launch = some g.launch → c.dst ∈ g.sbusy →
    let bytes := (List.range c.count).flatMap (fun t =>
      (routeToken c.ty c.k c.norm t (s.routeScores c t)).flatMap (fun x => leBytes x 8))
    let s0 := { s with routes := s.routes.filter (fun o => o.id != id) }
    let h := g.setS c.dst (BitVec.ofNat 64 (c.count * c.k))
    ∃ u : State, Wrote s0 u (poolLocs c.org.core c.list_ bytes.length) bytes ∧
      exec (.routeComplete id) s = .next { u with groups := Map.put u.groups (gkey c.org.core c.org.slot) h })

/-- A DMA instruction queues its command: engine, kind, descriptor address and tile slot captured; a BUCKET, a
reduce-on-write or a write to the host window keeps its launch from being replayed. With sixteen commands in the
engine, or no free registration, it waits (R24, R159, R160, R376). DMA_COMMAND_START: the engine takes its own copy
of the descriptor and registers the hulls of the pool sides; a descriptor that breaks a rule completes the command
with its status (R159, R170, R174, R199). A second hull needs a free registration (R202). Where the manual leaves a
point open, this states the model's choice: log entries 17, 100, 124, 125 and 132. -/
def Obligations.dma_issue_and_start_complete : Prop :=
  (∀ p ∈ ([(Instr.dmaCopy, 0), (Instr.dmaGather, 1), (Instr.dmaScatter, 2), (Instr.dmaXpose, 3), (Instr.dmaNarrow, 4),
       (Instr.dmaBucket, 5)] : List ((GroupRef → Enc → Instr) × Nat)),
   ∀ (r : GroupRef) (e : Enc) (n : Ins) (s s₁ : State) (g : Group) (l : Launch),
     let core := r.core.toNat
     let a := (g.gs (encF e 37 32)).toNat
     Issues s s₁ (p.1 r e) r e g l → frontEnd (p.1 r e) = some (r, e, n) → issuesSolo (p.1 r e) e g → a % 64 = 0 →
     trackFault g (encF e 38 38 == 1) (encF e 42 39) = none →
     let u := { s₁ with nextId := s₁.nextId + 1 }
     (encF e 31 31 = 0 → a + 64 ≤ poolSize core) →
     ((s₁.engineCmds core (encF e 45 43)).length ≥ 16 ∨ s₁.regFree core = false → exec (p.1 r e) s = .next s₁) ∧
     ((s₁.engineCmds core (encF e 45 43)).length < 16 → s₁.regFree core = true →
     ∃ c : DmaCmd, c.id = s₁.nextId ∧ c.org = originOf r g l e n ∧ c.pkt = false ∧ c.chan = encF e 45 43 ∧ c.kind = p.2 ∧
       c.ts = (if encF e 38 38 = 1 then some (encF e 42 39) else none) ∧ c.spc = (encF e 31 31 == 1) ∧ c.daddr = a ∧
       c.desc = none ∧ c.cursor = 0 ∧ c.fail = none ∧ c.susp = none ∧ (p.2 = 5 → u.dmaFixes c = true) ∧
       exec (p.1 r e) s = .next ({ (if u.dmaFixes c then u.noteUnreplayable g.launch else u) with
         dma := s₁.dma ++ [c] }.putGroup r (g.next e)))) ∧
  (∀ (s u : State) (id : Nat) (c : DmaCmd) (side : DmaSide) (bs : List Byte), s.dma.find? (fun o => o.id == id) = some c →
     c.desc = none → c.susp = none → c.held = false → s.tripped = false → s.behindHeld c = false →
     (s.running c.org.core c.chan).length < 4 →
     (∀ o ∈ s.engineCmds c.org.core c.chan, o.id < id → o.desc ≠ none ∨ o.susp ≠ none ∨ o.held = true) →
     s.fetchDesc c = .ok (side, bs, false) → side.locs.any s.inRepair = false → s.homeRead side.dpas = some u →
     let d := (List.range 8).map (fun i => wordAt bs i)
     let u := u.holdSides c [side]
     let u := (match c.org.launch with | some l => if dRed d then u.noteUnreplayable l else u | none => u)
     let c' := { c with desc := some d, looked := [] }
     let c'' := { c' with srcR := u.hull c' d true, dstR := u.hull c' d false }
     (c.pkt = true ∨ dStat d + 16 ≤ poolSize c.org.core) →
     (u.startCheck c' d = none → (c''.ranges.length = 2 → u.regFree c.org.core = true) →
       exec (.dmaCommandStart id) s = .next (u.putDma c'')) ∧
     (∀ st row, u.startCheck c' d = some (st, row) →
       exec (.dmaCommandStart id) s = .next ((u.putDma c').dmaDone c' st row)))

/-- DMA_ROW_DELIVERED of a COPY from pool to pool without conversion: the row's bytes are moved, every other byte of
every pool and Heap reads as before, and the row counts as delivered (R162, R163, R172). DMA_ROW_DELIVERED of any
kind: a row that meets no fault is delivered in the state its kind's effect gives; one that does fails the command,
once the rows before it are delivered, or suspends it, and one whose translation is not held waits for its walk
(R171, R172, R175, R239). The header of a packed tile comes before its rows (R132). The engine runs the oldest four
of its commands, and a row waits for earlier rows of the engine that overlap its bytes (R160, R197). The progress of
a DMA command: a delivered row is marked, the cursor stands at the lowest undelivered row, and with SIGE the rows it
passes are added to PROGRESS (R172, R173). Where the manual leaves a point open, this states the model's choice: log
entries 16, 101, 119 and 126. -/
def Obligations.dma_rows_complete : Prop :=
  (∀ (s : State) (id n : Nat) (c : DmaCmd) (d : List Word), s.dma.find? (fun o => o.id == id) = some c →
     c.desc = some d → c.susp = none → c.held = false → c.fail = none → s.runsNow c = true →
     s.cmdHeld c.org.core id c.ranges = false → Map.find? s.modeChg (coreBasin c.org.core) = none → c.kind = 0 →
     s.tripped = false → dSV d = false → dDV d = false → dCodec d = 0 → dRed d = false → dStype d = dDtype d →
     n < dRows d → c.has n = false → n ≤ c.cursor + 64 →
     let src := srcAddrs d (dSoff d n) (dSrcBytes d)
     let dst := dstAddrs d (dDoff d n) (dDstBytes d)
     let locs := fun (as : List Nat) => as.map (fun a => Loc.pool (poolKey c.org.core a))
     (∀ a ∈ src ++ dst, a < poolSize c.org.core) → (s.readLocs 0 (locs src)).2 = false →
     ∃ u : State, Wrote s u (locs dst) (s.readLocs 0 (locs src)).1 ∧ exec (.dmaRowDelivered id n) s = .next (u.rowDone c d n)) ∧
  (∀ (s : State) (id n : Nat) (c : DmaCmd) (d : List Word), s.dma.find? (fun o => o.id == id) = some c →
     c.desc = some d → c.susp = none → c.held = false → c.fail = none → s.runsNow c = true →
     s.tripped = false → s.cmdHeld c.org.core id c.ranges = false →
     (c.closed d = true → s.rowHeld c d 0 = false →
       let x := s.openPacked c d
       x.wait = false →
         (x.stop = none → exec (.dmaRowDelivered id n) s = .next (x.s.putDma { x.c with looked := [] })) ∧
         (∀ st, x.stop = some st → exec (.dmaRowDelivered id n) s = .next (x.s.dmaStop x.c 0 st))) ∧
     (c.closed d = false → s.rowHeld c d n = false → n < c.rows d → c.has n = false → n ≤ c.cursor + 64 →
       (c.inOrder d = true → n = c.cursor) →
       let x := s.dmaRow c d n
       x.wait = false →
         (x.stop = none → exec (.dmaRowDelivered id n) s = .next (x.s.rowDone x.c d n)) ∧
         (∀ code, x.stop = some (.status code) → exec (.dmaRowDelivered id n) s = .next
           (if x.c.cursor < n then s else x.s.putDma { x.c with fail := some (code, n), looked := [], asked := [] })) ∧
         (∀ f va need, x.stop = some (.xlat f va need) →
           exec (.dmaRowDelivered id n) s = .next (x.s.dmaFault x.c n false f va need)) ∧
         (∀ va need, x.stop = some (.miss va need) →
           exec (.dmaRowDelivered id n) s = .next (x.s.dmaMiss x.c n false va need)))) ∧
  (∀ (s : State) (c : DmaCmd) (d : List Word) (n : Nat), c.has n = false → c ∈ s.dma →
     ∃ c', c' ∈ (s.rowDone c d n).dma ∧ c'.id = c.id ∧ c.cursor ≤ c'.cursor ∧
       (∀ m, c'.has m = true ↔ c.has m = true ∨ m = n) ∧ c'.has c'.cursor = false ∧
       (dSige d = false → (s.rowDone c d n).pool = s.pool))

/-- DMA_COMMAND_COMPLETE with every row delivered: the command leaves the engine, and its COMPLETION word holds the
valid bit, status 0 and the cursor, or a BUCKET's entries without a place (R142, R173). Where the manual leaves a
point open, this states the model's choice: log entries 16 and 17. -/
def Obligations.dma_command_completes : Prop :=
  ∀ (s : State) (id : Nat) (c : DmaCmd) (d : List Word), s.dma.find? (fun o => o.id == id) = some c →
    c.desc = some d → c.susp = none → c.held = false → s.tripped = false → c.pkt = false → dStat d + 16 ≤ poolSize c.org.core →
    let word := fun (status detail : Nat) => leBytes (2 ^ 63 + status * 2 ^ 48 + detail % 2 ^ 48) 8
    (c.fail = none → (dCodec d = 3 → c.kind = 0 → c.opened = true) → c.rows d ≤ c.cursor →
      ∃ u t : State, Wrote s u (poolLocs c.org.core (dStat d + 8) 8) (word 0 (if c.kind = 5 then c.unplaced else c.cursor)) ∧
        exec (.dmaCommandComplete id) s = .next t ∧ t.pool = u.pool ∧ (∀ o ∈ t.dma, o.id ≠ id) ∧
        t.launches = s.launches ∧ t.failed = s.failed) ∧
    (∀ st row, c.fail = some (st, row) →
      ∃ u t : State, Wrote s u (poolLocs c.org.core (dStat d + 8) 8) (word st row) ∧
        exec (.dmaCommandComplete id) s = .next t ∧ t.pool = u.pool ∧ (∀ o ∈ t.dma, o.id ≠ id) ∧
        (st = 8 → c.org.ctx ∈ t.failed))

/-- An RMO instruction creates its command with its operands captured and keeps its launch from being replayed; an
RMO of no bytes has no effect, and with no free registration it waits (R62, R64, R179, R186, R376). An RMO to another
node then meets its session (R291). RMO_TARGET_APPLY: a message that its target accepts is applied and its result
written at the requester; one that the target refuses fails the RMO with the status of Table 11-7, and so does a
poisoned local byte; an IPUT row without a slot is passed over (R184, R185, R193). Where the manual leaves a point
open, this states the model's choice: log entry 18. -/
def Obligations.rmo_issue_and_apply_complete : Prop :=
  (∀ p ∈ ([(Instr.put, 0), (Instr.get, 1), (Instr.ratom, 2), (Instr.sig, 3), (Instr.puts, 4), (Instr.iput, 5),
       (Instr.red, 6)] : List ((GroupRef → Enc → Instr) × Nat)),
   ∀ (r : GroupRef) (e : Enc) (s s₁ : State) (g : Group) (l : Launch),
     let fn := p.2
     let core := r.core.toNat
     let pair := fn = 4 ∨ (fn = 2 ∧ encF e 15 12 = 9)
     let lo := if fn = 3 then 0 else (g.gs (encD e)).toNat
     let o := (g.gs (encA e)).toNat
     let n := if fn = 2 ∨ fn = 3 then 0 else (g.gs (encB e)).toNat
     let v1 := if pair then g.gs (encC e + 1) else 0
     let node := if encF e 16 16 = 1 then s₁.nodeId else encX e 57 42
     Issues s s₁ (p.1 r e) r e g l → issuesSolo (p.1 r e) e g → rmoFault fn (poolSize core) lo o n v1.toNat (encF e 11 7) = none →
     trackFault g (encF e 17 17 == 1) (encF e 21 18) = none →
     (fn ≠ 3 → s₁.regFree core = false → exec (p.1 r e) s = .next s₁) ∧
     (fn ≠ 2 → fn ≠ 3 → s₁.regFree core = true → n = 0 → exec (p.1 r e) s = .next (s₁.putGroup r (g.next e))) ∧
     ((fn = 2 ∨ fn = 3 ∨ n ≠ 0) → (fn = 3 ∨ s₁.regFree core = true) →
       ∃ c : RmoCmd, c.id = s₁.nextId ∧ c.fn = fn ∧ c.node = node ∧ c.own = (node == s₁.nodeId) ∧ c.win = encX e 41 26 ∧
         c.swin = encX e 25 10 ∧ c.l = lo ∧ c.o = o ∧ c.n = n ∧ c.v = g.gs (encC e) ∧ c.v1 = v1 ∧ c.aop = encF e 15 12 ∧
         c.ty = encF e 11 7 ∧ c.next = 0 ∧ c.fail = none ∧
         let t := { s₁.noteUnreplayable g.launch with nextId := s₁.nextId + 1, rmo := s₁.rmo ++ [c] }.putGroup r (g.next e)
         exec (p.1 r e) s = .next (t.rmoStart c) ∧ (node = s₁.nodeId → t.rmoStart c = t))) ∧
  (∀ (s : State) (id : Nat) (c : RmoCmd) (win row off : Nat) (o : TOp), s.rmo.find? (fun x => x.id == id) = some c →
     c.own = true → c.fail = none → c.next < c.count → s.tripped = false → s.cmdHeld c.org.core id c.ranges = false → s.flowBlocked c = false →
     (s.rmoPiece c c.next = .skip → exec (.rmoTargetApply id) s = .next (s.putRmo { c with next := c.next + 1 })) ∧
     (s.rmoPiece c c.next = .bad win row off →
       exec (.rmoTargetApply id) s = .next (s.putRmo { c with fail := some ⟨7, win, row, off, c.partly⟩ })) ∧
     (∀ t bs, s.rmoPiece c c.next = .op win row off o → s.applyT c.org.part win off o = .ok t bs →
       exec (.rmoTargetApply id) s = .next ((t.rmoResult c off bs).putRmo { c with next := c.next + 1 })) ∧
     (∀ x, s.rmoPiece c c.next = .op win row off o → s.applyT c.org.part win off o = .fail x →
       exec (.rmoTargetApply id) s = .next (x.s.putRmo { c with fail := some ⟨x.code, win, row, x.off, c.partly⟩ })))

/-- A message to a window over a pool: the checks of R185 in their order, then its bytes. A signal adds to a 64-bit
word, a write replaces its bytes, a read changes none (R182 to R186, R192). RMO_COMPLETE and RMO_TIMEOUT: an RMO
whose messages are all answered leaves; a failed one, or one whose time is up, ends its launch with packet status 2
(R188 to R190). Where the manual leaves a point open, this states the model's choice: log entries 18, 55, 102 and
137. -/
def Obligations.rmo_results : Prop :=
  (∀ (s : State) (p win off : Nat) (o : TOp) (w : Window), Map.find? s.windows (p * 65536 + win) = some w →
     let fails := fun (code : Nat) => s.applyT p win off o = .fail ⟨s, code, off⟩
     let locs := poolLocs w.core (w.base + off) o.len
     let old := (s.readLocs 0 locs).1
     (w.withdrawing = true ∨ s.winEntries p ≤ win → fails 1) ∧
     (w.withdrawing = false → win < s.winEntries p → w.len < off + o.len →
       s.applyT p win off o = .fail ⟨s, 2, max off w.len⟩) ∧
     (w.withdrawing = false → win < s.winEntries p → off + o.len ≤ w.len → o.right w = false → fails 3) ∧
     (w.withdrawing = false → win < s.winEntries p → off + o.len ≤ w.len → o.right w = true → w.space = 2 →
       (s.poolOpen w.core = false → fails 6) ∧
       (s.poolOpen w.core = true → s.rf (.bsnPwrSts (coreBasin w.core)) 1 0 < 2 → (s.readLocs 0 locs).2 = false →
         (∀ n, o = .read n → s.applyT p win off o = .ok s old) ∧
         (∀ v, o = .signal v → ∃ t, s.applyT p win off o = .ok t old ∧
           Wrote s t locs (leBytes ((ofLe old + v) % 2 ^ 64) 8)) ∧
         (∀ bs, o = .write bs → ∃ t, s.applyT p win off o = .ok t old ∧ Wrote s t locs bs)))) ∧
  (∀ (s : State) (id : Nat) (c : RmoCmd), s.rmo.find? (fun x => x.id == id) = some c →
     (c.fail = none → c.count ≤ c.next → c.own = true →
       exec (.rmoComplete id) s = .next { s with rmo := s.rmo.filter (fun o => o.id != id) }) ∧
     (∀ f l, c.fail = some f → Map.find? s.launches (c.org.launch.getD 0) = some l → l.phase = .running →
       ∃ (t : State) (l' : Launch), exec (.rmoComplete id) s = .next t ∧ (∀ o ∈ t.rmo, o.id ≠ id) ∧
         Map.find? t.launches (c.org.launch.getD 0) = some l' ∧ l'.phase = .failing ∧ l'.status = 2) ∧
     (∀ l, Map.find? s.launches (c.org.launch.getD 0) = some l → l.phase = .running →
       ∃ (t : State) (l' : Launch), exec (.rmoTimeout id) s = .next t ∧ (∀ o ∈ t.rmo, o.id ≠ id) ∧
         Map.find? t.launches (c.org.launch.getD 0) = some l' ∧ l'.phase = .failing ∧ l'.status = 2 ∧ l'.suspect = true))

/-! ### Coherence of the Shared space -/

/-- A read or write miss at its home (R220, R222 to R224), which has a frame for the line. A line that no die holds
is granted in E; an owner is sent the request; a GetM records its requester as owner at once, and waits for the
sharers' acknowledgements; a request behind one that waits queues in arrival order. While Shared is out of service,
the home is down, or the line cannot be filled, no request is taken (R17, R18). A forward at a cache (R223, R224,
R226). A cache whose own miss the home has served holds it, and so does a line taken for a store that is still to
come; a line in E answers FwdGetS and stays in S, one in O or M stays in O; FwdGetM takes the line away; a line on
its way out is answered from the write-back buffer, whose entry stays until its acknowledgement. Without a forward
next in flight nothing happens: what is held waits for the store. Where the manual leaves a point open, this states
the model's choice: log entries 45, 56, 92, 93 and 129. -/
def Obligations.home_requests_and_forwards : Prop :=
  (∀ (s u : State) (c : Fin 672) (line : Nat), s.mayRequest c.val line = true → s.tripped = false →
     let d := u.dirOf line
     let idle := d.busy = false ∧ d.queue = []
     let seen := d.present ||| dieBit (cacheDie c.val)
     let sh := u.sharers c.val line
     let asked := fun (t : State) (excl : Bool) =>
       Map.find? t.coh.mshr (lineKey c.val line) = some ⟨excl, true, false, u.forwardsTo c.val line, 0, []⟩ ∧ t.coh.l1 = u.coh.l1
     let closed := s.sharedUp = false ∨ s.lineDown line = true ∨ s.lineGone line = true
     let ready := ¬ closed ∧ s.sliceQueued (homeSlice line) < 64 ∧ s.frameFor line 15 = some u
     (s.l1 c.val line = none →
       (closed → exec (.gets c line) s = .next s) ∧
       (ready → idle → d.owner = none → d.present = 0 →
         ∃ t : State, exec (.gets c line) s = .next t ∧ ⟨.data false true, c.val, line⟩ ∈ t.coh.msgs ∧
           (t.dirOf line).owner = some c.val ∧ (t.dirOf line).present = seen ∧ asked t false) ∧
       (ready → idle → d.owner = none → d.present ≠ 0 →
         ∃ t : State, exec (.gets c line) s = .next t ∧ ⟨.data false false, c.val, line⟩ ∈ t.coh.msgs ∧
           (t.dirOf line).owner = none ∧ (t.dirOf line).present = seen ∧ asked t false) ∧
       (∀ o, ready → idle → d.owner = some o →
         ∃ t : State, exec (.gets c line) s = .next t ∧ ⟨.fwdGetS c.val, o, line⟩ ∈ t.coh.msgs ∧
           (t.dirOf line).owner = some o ∧ (t.dirOf line).present = seen ∧ asked t false) ∧
       (ready → ¬ idle →
         ∃ t : State, exec (.gets c line) s = .next t ∧ (t.dirOf line).queue = d.queue ++ [(c.val, false)] ∧
           t.coh.msgs = u.coh.msgs ∧ t.coh.l1 = u.coh.l1)) ∧
     ((s.l1 c.val line = none ∨ ∃ x, s.l1 c.val line = some x ∧ (x.st = .s ∨ x.st = .o)) →
       (closed → exec (.getm c line) s = .next s) ∧
       (ready → idle →
         ∃ t : State, exec (.getm c line) s = .next t ∧ (t.dirOf line).owner = some c.val ∧ asked t true ∧
           (∀ o, d.owner = some o → o ≠ c.val → ⟨.fwdGetM c.val, o, line⟩ ∈ t.coh.msgs) ∧
           ((d.owner = none ∨ d.owner = some c.val) → ⟨.data true true, c.val, line⟩ ∈ t.coh.msgs) ∧
           (∀ x ∈ sh, ⟨.inv, x, line⟩ ∈ t.coh.msgs) ∧
           (sh = [] → ⟨.grant, c.val, line⟩ ∈ t.coh.msgs ∧ (t.dirOf line).waits = d.waits ∧ (t.dirOf line).busy = false) ∧
           (sh ≠ [] → (t.dirOf line).waits = d.waits ++ [(.grant c.val d.owner.isNone, sh)] ∧ (t.dirOf line).busy = d.owner.isNone)) ∧
       (ready → ¬ idle →
         ∃ t : State, exec (.getm c line) s = .next t ∧ (t.dirOf line).queue = d.queue ++ [(c.val, true)] ∧
           t.coh.msgs = u.coh.msgs ∧ t.coh.l1 = u.coh.l1))) ∧
  (∀ (s : State) (c : Fin 672) (line dest : Nat), line < 2 ^ 23 → s.tripped = false →
     let owns := (s.dirOf line).owner = some c.val
     (∀ p ∈ ([(Instr.fwdgets, CKind.fwdGetS dest, false), (Instr.fwdgetm, CKind.fwdGetM dest, true)] :
         List ((Fin 672 → Nat → Instr) × CKind × Bool)),
       (s.nextTo c.val line = some ⟨p.2.1, c.val, line⟩ →
         (∀ m, s.miss c.val line = some m → m.served = true → m.old = 0 →
           ∃ t : State, exec (p.1 c line) s = .next t ∧ t.coh.l1 = s.coh.l1 ∧
             t.miss c.val line = some { m with held := m.held ++ [⟨dest, p.2.2⟩] }) ∧
         (∀ x, s.miss c.val line = none → s.l1 c.val line = some x → x.held ≠ [] →
           ∃ t : State, exec (p.1 c line) s = .next t ∧
             t.l1 c.val line = some { x with held := x.held ++ [⟨dest, p.2.2⟩] })) ∧
       (s.nextTo c.val line = none → exec (p.1 c line) s = .next s)) ∧
     (s.nextTo c.val line = some ⟨.fwdGetS dest, c.val, line⟩ → s.miss c.val line = none →
       (∀ x, s.l1 c.val line = some x → x.held = [] →
         ∃ t : State, exec (.fwdgets c line) s = .next t ∧ ⟨.data false false, dest, line⟩ ∈ t.coh.msgs ∧
           t.l1 c.val line = some { x with st := if x.st = .e ∨ x.st = .s then .s else .o } ∧
           (t.dirOf line).owner = if x.st = .e ∧ owns then none else (s.dirOf line).owner) ∧
       (∀ w, s.l1 c.val line = none → s.wb c.val line = some w → w.spent = false → owns →
         ∃ t : State, exec (.fwdgets c line) s = .next t ∧ ⟨.data false false, dest, line⟩ ∈ t.coh.msgs ∧
           t.wb c.val line = some { w with spent := true } ∧ (t.dirOf line).owner = none ∧
           (t.dirOf line).dirty = (s.dirOf line).dirty ||| w.dirty)) ∧
     (s.nextTo c.val line = some ⟨.fwdGetM dest, c.val, line⟩ → s.miss c.val line = none →
       (∀ x, s.l1 c.val line = some x → x.held = [] →
         ∃ t : State, exec (.fwdgetm c line) s = .next t ∧ ⟨.data true false, dest, line⟩ ∈ t.coh.msgs ∧
           t.l1 c.val line = none ∧
           (∀ y, s.miss dest line = some y → t.miss dest line = some { y with dirty := y.dirty ||| x.dirty })) ∧
       (∀ w, s.l1 c.val line = none → s.wb c.val line = some w → w.spent = false →
         ∃ t : State, exec (.fwdgetm c line) s = .next t ∧ ⟨.data true false, dest, line⟩ ∈ t.coh.msgs ∧
           t.wb c.val line = some { w with spent := true } ∧
           (∀ y, s.miss dest line = some y → t.miss dest line = some { y with dirty := y.dirty ||| w.dirty }))))

/-- A Put (R224, R226, R227): a line that leaves an L1 in E, O or M stands in the write-back buffer until the home's
acknowledgement; the home acknowledges every Put, and takes its dirty sectors and clears the owner only where the
sender is the owner. Puts of one kind, and Puts with data, reach a slice in the order they left (R314). A recall
(R219, R224 to R226): SnpInvData sends the dirty sectors to the home and drops the copy, SnpRd sends them and keeps
it; the home takes them and ends the recall with the last response. Where the manual leaves a point open, this states
the model's choice: log entries 45, 56, 92, 93 and 129. -/
def Obligations.write_backs_and_recalls : Prop :=
  (∀ (s : State) (c : Fin 672) (line : Nat), line < 2 ^ 23 → s.tripped = false →
     let owns := (s.dirOf line).owner = some c.val
     let kin := fun (p : Put) (k : CKind) => k == .put p || (p != .putE && k.putData)
     (∀ p ∈ ([(Instr.pute, Put.putE, L1St.e), (Instr.puto, Put.putO, L1St.o), (Instr.putm, Put.putM, L1St.m)] :
         List ((Fin 672 → Nat → Instr) × Put × L1St)),
       (∀ w, s.l1 c.val line = none → s.inOrder (kin p.2.1) c.val line = some ⟨.put p.2.1, c.val, line⟩ →
         s.wb c.val line = some w →
         ∃ t : State, exec (p.1 c line) s = .next t ∧ ⟨.putAck, c.val, line⟩ ∈ t.coh.msgs ∧ t.coh.l1 = s.coh.l1 ∧
           t.coh.wbuf = s.coh.wbuf ∧ (t.dirOf line).present = (s.dirOf line).present ∧
           (t.dirOf line).owner = (if owns then none else (s.dirOf line).owner) ∧
           (t.dirOf line).dirty = if owns then (s.dirOf line).dirty ||| w.dirty else (s.dirOf line).dirty) ∧
       (∀ x, s.l1 c.val line = some x → x.st = p.2.2 → x.held = [] → s.mayRequest c.val line = true →
         s.wbufCount c.val < 8 → s.lineDown line = false →
         (∀ m ∈ s.coh.msgs, kin p.2.1 m.kind = true → m.cache = c.val → homeSlice m.line ≠ homeSlice line) →
         ∃ t : State, exec (p.1 c line) s = .next t ∧ t.l1 c.val line = none ∧
           t.wb c.val line = some ⟨p.2.1, x.dirty, false⟩ ∧ ⟨.putAck, c.val, line⟩ ∈ t.coh.msgs ∧
           (t.dirOf line).owner = (if owns then none else (s.dirOf line).owner) ∧
           (t.dirOf line).dirty = if owns then (s.dirOf line).dirty ||| x.dirty else (s.dirOf line).dirty)) ∧
     (s.nextTo c.val line = some ⟨.putAck, c.val, line⟩ →
       ∃ t : State, exec (.putAck c line) s = .next t ∧ t.wb c.val line = none ∧
         (∀ k, k ≠ lineKey c.val line → Map.find? t.coh.wbuf k = Map.find? s.coh.wbuf k) ∧
         t.coh.l1 = s.coh.l1 ∧ t.coh.dir = s.coh.dir)) ∧
  (∀ (s : State) (c : Fin 672) (line : Nat), line < 2 ^ 23 → s.tripped = false →
     let rest := s.nextTo c.val line = none ∧ s.pathClear c.val line = true ∧ s.lineIdle line = true
     ((s.nextTo c.val line = some ⟨.snpInvData, c.val, line⟩ ∨ (rest ∧ c.val ∈ s.recallees line)) →
       ∃ t : State, exec (.snpinvdata c line) s = .next t ∧ t.l1 c.val line = none ∧
         (∀ x, s.l1 c.val line = some x → ⟨.snoopRsp x.dirty false, c.val, line⟩ ∈ t.coh.msgs) ∧
         (s.l1 c.val line = none → ∀ w, s.wb c.val line = some w →
           ⟨.snoopRsp (if w.spent then 0 else w.dirty) false, c.val, line⟩ ∈ t.coh.msgs)) ∧
     ((s.nextTo c.val line = some ⟨.snpRd, c.val, line⟩ ∨ (rest ∧ (s.dirOf line).owner = some c.val)) →
       ∃ t : State, exec (.snprd c line) s = .next t ∧ t.coh.l1 = s.coh.l1 ∧ t.coh.wbuf = s.coh.wbuf ∧
         (∀ x, s.l1 c.val line = some x → ⟨.snoopRsp x.dirty true, c.val, line⟩ ∈ t.coh.msgs)) ∧
     (∀ dirty kept k cs ws, s.inOrder CKind.answer c.val line = some ⟨.snoopRsp dirty kept, c.val, line⟩ →
       (s.dirOf line).waits = (k, cs) :: ws → k = .recall ∨ k = .snoop → c.val ∈ cs →
       (∀ w ∈ ws, w.2 ≠ []) → (s.dirOf line).queue = [] →
       ∃ t : State, exec (.snoopResponse c line) s = .next t ∧ t.coh.l1 = s.coh.l1 ∧
         (t.dirOf line).owner = (if kept = false ∧ (s.dirOf line).owner = some c.val then none else (s.dirOf line).owner) ∧
         (t.dirOf line).dirty = (if kept then (s.dirOf line).dirty else (s.dirOf line).dirty ||| dirty) ∧
         (cs = [c.val] → (t.dirOf line).waits = ws) ∧
         (cs.erase c.val ≠ [] → (t.dirOf line).waits = (k, cs.erase c.val) :: ws)))

/-- An invalidation, its acknowledgement, and the clearing of a presence bit (R221, R223, R224). The last
acknowledgement of a GetM tells its requester; a presence-clear that the home has overtaken clears nothing. A fill
(R223, R224): a GetM is granted when the data and the home's message are both there, and the line stands in M, with
the forwards held until its store; a GetS installs S, or E where no die held the line, unless an Inv overtook its
data. Nothing of the cache's outstanding miss stays. A store takes its line in M (R217, R218), and a forward that
waited there for it is answered (R223): from a line that the cache holds in neither M nor E, no other cache holds it
afterwards, the directory names the cache as owner, and the bytes' sectors are dirty. Where the manual leaves a point
open, this states the model's choice: log entries 45, 56, 92, 93 and 129. -/
def Obligations.invalidations_and_fills : Prop :=
  (∀ (s : State) (c : Fin 672) (d : Fin 12) (line : Nat), line < 2 ^ 23 → s.tripped = false →
     (s.nextTo c.val line = some ⟨.inv, c.val, line⟩ →
       ∃ t : State, exec (.inv c line) s = .next t ∧ t.l1 c.val line = none ∧ ⟨.invAck, c.val, line⟩ ∈ t.coh.msgs ∧
         (∀ k, k ≠ lineKey c.val line → Map.find? t.coh.l1 k = Map.find? s.coh.l1 k) ∧ t.coh.dir = s.coh.dir ∧
         (∀ m, s.miss c.val line = some m → m.served = true → m.excl = false →
           t.miss c.val line = some { m with drop := true })) ∧
     (∀ q b cs rest, s.inOrder CKind.answer c.val line = some ⟨.invAck, c.val, line⟩ →
       (s.dirOf line).waits = (.grant q b, cs) :: rest → c.val ∈ cs →
       (∀ w ∈ rest, w.2 ≠ []) → (s.dirOf line).queue = [] →
       ∃ t : State, exec (.invAck c line) s = .next t ∧ t.coh.l1 = s.coh.l1 ∧
         (cs = [c.val] → ⟨.grant, q, line⟩ ∈ t.coh.msgs ∧ (t.dirOf line).waits = rest) ∧
         (cs.erase c.val ≠ [] → (t.dirOf line).waits = (.grant q b, cs.erase c.val) :: rest)) ∧
     (∀ stale, s.inOrder CKind.clears d.val line = some ⟨.presenceClear stale, d.val, line⟩ →
       ∃ t : State, exec (.presenceClear d line) s = .next t ∧ t.coh.l1 = s.coh.l1 ∧
         t.dirOf line = if stale then s.dirOf line
           else { s.dirOf line with present := (s.dirOf line).present &&& ~~~(dieBit d.val) })) ∧
  (∀ (s : State) (c : Fin 672) (line : Nat) (x : Mshr), s.miss c.val line = some x → (s.setLines c.val line).length < 8 →
     s.tripped = false →
     let others := fun (t : State) =>
       (∀ k, k ≠ lineKey c.val line → Map.find? t.coh.l1 k = Map.find? s.coh.l1 k) ∧ t.coh.dir = s.coh.dir
     (∀ b, s.msg (fun m => m.cache == c.val && m.line == line && (match m.kind with | .data true _ => true | _ => false)) =
         some ⟨.data true b, c.val, line⟩ → ⟨.grant, c.val, line⟩ ∈ s.coh.msgs →
       ∃ t : State, exec (.getmGrant c line) s = .next t ∧ t.miss c.val line = none ∧ others t ∧
         t.l1 c.val line = some ⟨.m, x.dirty ||| (match s.l1 c.val line with | some y => y.dirty | none => 0), x.held⟩) ∧
     (∀ b, s.msg (fun m => m.cache == c.val && m.line == line && (match m.kind with | .data false _ => true | _ => false)) =
         some ⟨.data false b, c.val, line⟩ → x.held = [] →
       (x.drop = false →
         ∃ t : State, exec (.getsData c line) s = .next t ∧ t.miss c.val line = none ∧ others t ∧
           t.l1 c.val line = some ⟨if b then .e else .s, 0, []⟩) ∧
       (x.drop = true →
         ∃ t : State, exec (.getsData c line) s = .next t ∧ t.miss c.val line = none ∧ t.coh.l1 = s.coh.l1))) ∧
  (∀ (s t : State) (c line : Nat) (secs : BitVec 4), line < 2 ^ 23 → s.cohWrite c line secs = some t →
     ((∀ x, s.l1 c line = some x → x.held = []) → ∃ d, t.l1 c line = some ⟨.m, d, []⟩ ∧ d &&& secs = secs) ∧
     (∀ x f, s.l1 c line = some x → x.st = .m → x.held = [f] → ⟨.data f.excl false, f.dest, line⟩ ∈ t.coh.msgs) ∧
     ((∀ x, s.l1 c line = some x → x.st = .s ∨ x.st = .o) →
       (∀ c', c' ≠ c → t.l1 c' line = none) ∧ (t.dirOf line).owner = some c ∧ (t.dirOf line).present = dieBit (cacheDie c)))

/-- The narrow ways (R230, Table 13-4): a legal number of ways is taken, the sectors of a way that leaves narrow use
are dropped, and CHANGING reads 1 until the conversion is complete, when the Shared lines of the ways that enter
narrow use have left their slices; a number above 8 is ignored. Where the manual leaves a point open, this states the
model's choice: log entry 57. -/
def Obligations.narrow_ways : Prop :=
  ∀ (s : State) (d : Fin 12) (val : BitVec 32),
    let r := Reg.panNcacheCtl d.val
    let w := fld val.toNat 3 0
    let old := s.rf r 3 0
    (s.dieUp d.val = true →
      (w ≤ 8 → w ≠ old →
        ∃ t : State, exec (.ncacheConfig d val) s = .next t ∧ t.rf r 3 0 = w ∧ t.rf r 8 8 = 1 ∧
          t.rf r 4 4 = fld val.toNat 4 4 ∧
          Map.find? t.ncacheChg d.val = some (min (Map.getD s.ncacheChg d.val (old, old)).1 w,
            max (Map.getD s.ncacheChg d.val (old, old)).2 w) ∧
          (∀ x, x ∈ t.narrow ↔ x ∈ s.narrow ∧ ((s.narrowSet x.region).1 ≠ d.val ∨ 16 - w ≤ x.way))) ∧
      (8 < w ∨ w = old →
        ∃ t : State, exec (.ncacheConfig d val) s = .next t ∧ t.rf r 3 0 = old ∧
          t.rf r 4 4 = fld val.toNat 4 4 ∧ t.ncacheChg = s.ncacheChg ∧ t.narrow = s.narrow)) ∧
    (s.tripped = false → (Map.find? s.ncacheChg d.val).isSome → (∀ line ∈ s.entering d.val, s.lineIdle line = true) →
      ∃ t : State, exec (.ncacheConversionComplete d) s = .next t ∧ t.rf r 8 8 = 0 ∧ Map.find? t.ncacheChg d.val = none ∧
        t.rf r 3 0 = old ∧ t.narrow = s.narrow ∧
        ∀ line ∈ s.entering d.val, t.frame? line = none ∧ t.holders line = [])

/-! ### Windows and translation -/

/-- The window doorbell (R181, R182): a valid entry is exported, with STATUS 0x00, where R181 admits it, and
otherwise holds no window and shows the first refusal of 0x03, 0x04 and 0x02; an entry whose VALID is 0 starts its
withdrawal, which ends with STATUS 0x01; a doorbell that names no entry is dropped, and one through the VF of a
disabled partition is an access error (R267). Where STATUS cannot be written, the window keeps its former state; a
row in repair stalls the write (R358). State u holds the walk made for the entry. Invalidations (R241, R242, R244): a
command is counted in SUBMITTED and queued; the 17th outstanding one is dropped; one without effect completes when it
is at the front, and ERR_SEQ names it; at completion no held translation, no entry of a walk cache and no row
translated and not begun is covered. A watchdog completes it too, and is logged with class 0x0E. Where the manual
leaves a point open, this states the model's choice: log entries 49, 50, 103 and 123. -/
def Obligations.windows_and_invalidations : Prop :=
  (∀ (s : State) (fn : Nat) (val : BitVec 32), fn ≤ 96 →
     let p := if fn = 0 then fld val.toNat 22 16 else fn - 1
     let n := fld val.toNat 15 0
     let key := p * 65536 + n
     let opens := fn = 0 ∨ s.partOn (fn - 1) = true
     let ends := fun (u stay : State) (p n st : Nat) (res : Res) (act : State → State) =>
       (∀ t, u.ipaWrite p (u.winAddr p n + 6) [BitVec.ofNat 8 st] = .ok t → res = .next (act t)) ∧
       (∀ f, u.ipaWrite p (u.winAddr p n + 6) [BitVec.ofNat 8 st] = .error f →
         res = .next (if f.code = 10 then stay else u.tableFault 182 p f true))
     (¬ opens → ∀ c ∈ [Instr.windowExport fn val, Instr.windowWithdraw fn val],
       exec c s = .next (s.accessError 267 fn 0xFF000)) ∧
     (opens → (¬ (p < 96 ∨ p = 127) ∨ s.winEntries p ≤ n) →
       ∀ c ∈ [Instr.windowExport fn val, Instr.windowWithdraw fn val],
         exec c s = .next (s.dropped 182 (if p < 96 then p else 127))) ∧
     (opens → p < 96 ∨ p = 127 → n < s.winEntries p → ∀ bs, s.ipaRead p (s.winAddr p n) 32 = .ok (bs, false) →
       let u := s.noteIpa p (s.winAddr p n) 32 false
       let w := fun i => (wordAt bs i).toNat
       let pool := fld (w 0) 62 60 = 2
       let core := fld (w 2) 42 32
       let bad := winBad w = true ∨
         (pool ∧ u.coreValid core = true ∧ poolSize core < fld (w 0) 47 0 + fld (w 1) 39 0)
       let owned := u.ctxOwner (fld (w 2) 19 0) = p ∧
         (pool → u.coreValid core = true ∧ u.basinOwner (coreBasin core) = p)
       let changing := pool ∧ (Map.find? u.modeChg (coreBasin core)).isSome = true
       let refused := fun (st : Nat) => ends u u p n st (exec (.windowExport fn val) s)
         (fun t => { t with windows := Map.drop t.windows key })
       (bit (w 0) 63 = true →
         (bad → refused 3) ∧ (¬ bad → ¬ owned → refused 4) ∧ (¬ bad → owned → changing → refused 2) ∧
         (¬ bad → owned → ¬ changing → ends u u p n 0 (exec (.windowExport fn val) s)
           (fun t => { t with windows := Map.put t.windows key (windowOf w) }))) ∧
       (bit (w 0) 63 = false →
         (∀ x, Map.find? u.windows key = some x →
           exec (.windowWithdraw fn val) s = .next { u with windows := Map.put u.windows key { x with withdrawing := true } }) ∧
         (Map.find? u.windows key = none → ends u u p n 1 (exec (.windowWithdraw fn val) s) (fun t => t)))) ∧
     (∀ q k x, Map.find? s.windows (q * 65536 + k) = some x → x.withdrawing = true →
       ends { s with windows := Map.put s.windows (q * 65536 + k) { x with withdrawing := false } } s q k 1
         (exec (.windowWithdrawComplete q k) s) (fun t => { t with windows := Map.drop t.windows (q * 65536 + k) }))) ∧
  (∀ (s : State) (p : Nat),
     let r := Reg.xltInvSts p
     let q := Map.getD s.invs p []
     p ≤ 127 → (∀ x ∈ q, x.valid = true) →
     (∀ c ∈ ([Instr.s1Range, Instr.s1Ctx, Instr.s1All, Instr.s2Range, Instr.s2Part, Instr.invalidateAll] :
         List (Nat → Nat → BitVec 64 → Instr)), ∀ (fn : Nat) (hi : BitVec 64), fn = 0 ∨ 96 < fn ∨ s.partOn (fn - 1) = true →
       (16 ≤ s.invOpen p → exec (c fn p hi) s = .next (s.dropped 241 p)) ∧
       (s.invOpen p < 16 →
         ∃ (t : State) (i : Inval), exec (c fn p hi) s = .next t ∧ i.seq = (s.rf r 15 0 + 1) % 65536 ∧
           i.kind = fld hi.toNat 63 60 ∧ i.ctx = fld hi.toNat 51 32 ∧ i.npm1 = fld hi.toNat 31 0 ∧
           t.rf r 15 0 = i.seq ∧ t.tlb = s.tlb ∧
           (s.invInvalid fn p hi.toNat = false →
             i.valid = true ∧ Map.getD t.invs p [] = q ++ [i] ∧ t.rf r 31 16 = s.rf r 31 16) ∧
           (s.invInvalid fn p hi.toNat = true → q ≠ [] →
             i.valid = false ∧ Map.getD t.invs p [] = q ++ [i] ∧ t.rf r 31 16 = s.rf r 31 16) ∧
           (s.invInvalid fn p hi.toNat = true → q = [] →
             Map.getD t.invs p [] = [] ∧ t.rf r 31 16 = (s.rf r 31 16 + 1) % 65536 ∧ t.rf r 47 32 = i.seq))) ∧
     (∀ i rest, q = i :: rest →
       ∀ c ∈ [Instr.invalidationComplete p, Instr.invalidationWatchdog p],
         ∃ t : State, exec c s = .next t ∧ t.tlb = s.tlb.filter (fun e => !i.covers e) ∧ Map.getD t.invs p [] = rest ∧
           (∀ x ∈ t.utlb, i.covers x.2 = false) ∧ (∀ x ∈ t.wc1, i.covers1 x = false) ∧ (∀ x ∈ t.wc2, i.covers2 x = false) ∧
           (∀ d ∈ t.dma, ∀ e ∈ d.looked, i.covers e = false) ∧
           t.rf r 31 16 = (s.rf r 31 16 + 1) % 65536 ∧ t.rf r 15 0 = s.rf r 15 0 ∧
           (i.kind = 2 → ∀ e ∈ t.tlb, e.ctx ≠ i.ctx) ∧ (i.kind = 3 ∨ i.kind = 5 → ∀ e ∈ t.tlb, e.part ≠ i.part) ∧
           (i.kind = 6 → t.tlb = []) ∧
           (c = .invalidationWatchdog p → ∃ e ∈ t.ras, e.cls = 0x0E ∧ e.detail = 2)))

/-- WALK_COMPLETE of a group's page answers every group of the die that waits for it, once the miss has reached a
walker: a finished walk is held and its group issues again; a failed one suspends the group (R71, R238, R239, R246).
That of a DMA command's miss gives the translation to the command, or its fault (R172, R175). XLT_FRESP and the fault
ring's HEAD (R248, R249): a response of another instance's context is dropped; a retry lets the context's suspended
units issue and translate again; a failure ends the launches of those on the page, or of all; held records are posted
while the ring has room. Where the manual leaves a point open, this states the model's choice: log entries 14, 34, 35
and 58. -/
def Obligations.walks_and_fault_responses : Prop :=
  (∀ s : State,
     (∀ r g l f w a va lanes w0 w1, Map.find? s.groups (refKey r) = some g → Map.find? s.launches g.launch = some l →
       g.stat = .walk f w a va lanes w0 w1 →
       let die := coreDie r.core.toNat
       let key := walkKey l.ctx va.toNat
       let u := s.walkEnd die key
       let res := u.walkVa (some l) die l.ctx va.toNat (if f then 8 else 1) (groupNeed w a)
       (s.onWalker die key = false → exec (.walkComplete (.group r)) s = .next s) ∧
       (s.tripped = false → s.onWalker die key = true → s.walkStalls die key = false →
         exec (.walkComplete (.group r)) s = .next (s.finishWalk die key) ∧
         (s.walkers die key = [(refKey r, g, l)] → s.dmaWalkers die key = [] →
           (∀ x, res = .ok x → s.finishWalk die key = (u.install x).putGroup r { g with stat := .run } ∧
             x.entry ∈ (u.install x).tlb) ∧
           (∀ x, res = .error x →
             Map.find? (s.finishWalk die key).groups (refKey r) = some { g with stat := .susp f w a va lanes w0 w1 } ∧
             (s.finishWalk die key).launches = s.launches ∧ (s.finishWalk die key).tlb = s.tlb)))) ∧
     (∀ id c a, s.dma.find? (fun o => o.id == id) = some c → c.asked = [a] →
       let die := coreDie c.org.core
       let key := walkKey c.org.ctx a.va
       let u := s.walkEnd die key
       let res := u.walkVa (u.ownOf c.org) die c.org.ctx a.va 1 a.need
       s.tripped = false → s.onWalker die key = true → s.walkStalls die key = false → s.walkers die key = [] →
         s.dmaWalkers die key = [(id, a)] →
         (∀ x, res = .ok x → exec (.walkComplete (.dma id)) s =
           .next ((u.install x).putDma { c with asked := [], looked := c.looked ++ [x.entry] })) ∧
         (∀ f, res = .error f → exec (.walkComplete (.dma id)) s = .next (u.dmaFault c a.row a.onDesc f a.va a.need))) ∧
     (∀ (die : Nat) (ctx : Ctx) (va : BitVec 64) x, s.tripped = false →
       s.walkStalls die (walkKey ctx.toNat va.toNat) = false → s.onWalker die (walkKey ctx.toNat va.toNat) = true →
       s.walkVa none die ctx.toNat va.toNat 1 ⟨false, false, false⟩ = .ok x →
       exec (.walkComplete (.page die ctx va)) s = .next ((s.install x).finishWalk die (walkKey ctx.toNat va.toNat)))) ∧
  (∀ (s : State) (fn p : Nat) (page : BitVec 32) (ctx : Ctx),
     let mine := fun (k : Nat) (g : Group) (l : Launch) (va : BitVec 64) => Map.find? s.groups k = some g ∧
       Map.find? s.launches g.launch = some l ∧ l.ctx = ctx.toNat ∧ l.phase = .running ∧
       ∃ f w a lanes w0 w1, g.stat = .susp f w a va lanes w0 w1
     let ended := fun (t : State) (g : Group) => (∀ h ∈ t.groups, h.2.launch ≠ g.launch) ∧
       ∃ l', Map.find? t.launches g.launch = some l' ∧ l'.phase = .failing ∧ l'.status = 2
     let opens := fn = 0 ∨ 96 < fn ∨ s.partOn (fn - 1) = true
     (¬ opens → ∀ c ∈ [Instr.frespRetry fn p page ctx, Instr.frespFailPage fn p page ctx, Instr.frespFailContext fn p page ctx],
       exec c s = .next (s.accessError 267 fn 0xFE030)) ∧
     (opens → s.ctxOwner ctx.toNat ≠ p →
       exec (.frespRetry fn p page ctx) s = .next (s.dropped 249 p) ∧
       exec (.frespFailPage fn p page ctx) s = .next (s.dropped 249 p) ∧
       exec (.frespFailContext fn p page ctx) s = .next (s.dropped 249 p)) ∧
     (opens → s.ctxOwner ctx.toNat = p →
       (∃ t : State, exec (.frespRetry fn p page ctx) s = .next t ∧ (∀ k ∈ t.posted, k / 2 ^ 32 % 2 ^ 20 ≠ ctx.toNat) ∧
         (∀ k g l va, mine k g l va → Map.find? t.groups k = some { g with stat := .run }) ∧
         (∀ c ∈ t.dma, c.org.ctx = ctx.toNat → c.susp = none)) ∧
       (∃ t : State, exec (.frespFailPage fn p page ctx) s = .next t ∧
         ∀ k g l va, mine k g l va → va.toNat / 65536 % 2 ^ 32 = page.toNat → ended t g) ∧
       (∃ t : State, exec (.frespFailContext fn p page ctx) s = .next t ∧ ∀ k g l va, mine k g l va → ended t g)) ∧
     (∀ val : BitVec 32, opens → p ≤ 127 →
       ∃ (t : State) (n : Nat), exec (.fringHeadWrite fn p val) s = .next t ∧ t.reg (.xltFringHead p) = val.toNat ∧
         Map.getD t.heldRecs p [] = (Map.getD s.heldRecs p []).drop n ∧ n ≤ (Map.getD s.heldRecs p []).length ∧
         t.reg (.xltFringTail p) % 2 ^ 32 = (s.reg (.xltFringTail p) + n) % 2 ^ 32 ∧
         (s.fringEntries p = 0 → n = 0) ∧
         (s.fringEntries p ≠ 0 →
           Map.getD t.heldRecs p [] = [] ∨ t.fringUsed p = t.fringEntries p ∨ 256 ≤ n)))

/-! ### Queues, packets and the scheduler -/

/-- The commands of QUE_CMD (R258, R353): the RESULT each ends in, DONE one further, and what it does to its queue or
context; a command that meets one in progress is dropped, and one through the VF of a disabled partition is an access
error (R267). Scheduler ranges, doorbells and packet reads (R250, R259, R260): a range that overlaps another's is
rejected; a TAIL is taken only within the ring and forward, and otherwise dropped; a read takes the next packet and
advances HEAD. Where the manual leaves a point open, this states the model's choice: log entries 51, 105 and 123. -/
def Obligations.queues_complete : Prop :=
  (∀ (s : State) (fn : Nat) (i : BitVec 18) (ctx : Ctx),
     let pr := pairReg fn
     let done := fun (t : State) (res : Nat) => t.rf pr 55 52 = res ∧ t.rf pr 31 0 = (s.rf pr 31 0 + 1) % 2 ^ 32
     let opens := fn ≤ 96 ∧ (fn = 0 ∨ s.partOn (fn - 1) = true)
     (fn ≤ 96 → ¬ opens → ∀ c ∈ [Instr.enable fn i, Instr.disable fn i, Instr.resume fn i, Instr.reload fn ctx],
       exec c s = .next (s.accessError 267 fn 0xFD000)) ∧
     (opens → pairOf fn ∈ s.cmdBusy →
       ∀ c ∈ [Instr.enable fn i, Instr.disable fn i, Instr.resume fn i, Instr.reload fn ctx],
         exec c s = .next (s.dropped 258 (pairOf fn))) ∧
     (opens → pairOf fn ∉ s.cmdBusy →
       (s.queueOf fn i.toNat = none → ∀ c ∈ [Instr.enable fn i, Instr.disable fn i, Instr.resume fn i],
         ∃ t : State, exec c s = .next t ∧ done t 3 ∧ t.queues = s.queues) ∧
       (∀ q, s.queueOf fn i.toNat = some q →
         let x := s.queue q
         let p := s.queueOwner q
         (x.st ≠ 0 ∨ s.sharedUp = false ∨ (Map.find? s.partOps p).isSome →
           ∃ t : State, exec (.enable fn i) s = .next t ∧ done t 4 ∧ t.queues = s.queues) ∧
         (x.st = 0 → s.sharedUp = true → Map.find? s.partOps p = none → s.rf (.schQtab p) 0 0 = 0 →
           ∃ t : State, exec (.enable fn i) s = .next t ∧ done t 2 ∧ t.queues = s.queues) ∧
         (∀ bs, x.st = 0 → s.sharedUp = true → Map.find? s.partOps p = none → s.rf (.schQtab p) 0 0 ≠ 0 →
           s.ipaRead p (s.rf (.schQtab p) 51 16 * 2 ^ 16 + (q - s.qbase p) * 16) 16 = .ok (bs, false) →
           let w0 := (wordAt bs 0).toNat
           let w1 := (wordAt bs 1).toNat
           let u := s.noteIpa p (s.rf (.schQtab p) 51 16 * 2 ^ 16 + (q - s.qbase p) * 16) 16 false
           (u.entryOk p w0 w1 = true →
             ∃ t : State, exec (.enable fn i) s = .next t ∧ done t 0 ∧ (t.queue q).st = 1 ∧ (t.queue q).head = 0 ∧
               (t.queue q).tail = 0 ∧ (t.queue q).cmpl = 0 ∧ (t.queue q).phase = 0 ∧ (t.queue q).ring = fld w0 47 0 ∧
               (t.queue q).size = fld w0 59 56 ∧ (t.queue q).host = bit w0 63 ∧ (t.queue q).ctx = fld w1 19 0 ∧
               ∀ k, k ≠ q → t.queue k = s.queue k) ∧
           (u.entryOk p w0 w1 = false → ∃ t : State, exec (.enable fn i) s = .next t ∧ done t 2 ∧ t.queues = s.queues)) ∧
         (x.st = 0 ∨ x.st = 6 → ∃ t : State, exec (.disable fn i) s = .next t ∧ done t 4 ∧ t.queues = s.queues) ∧
         (x.st ≠ 0 → x.st ≠ 6 → ∃ t : State, exec (.disable fn i) s = .next t ∧ t.rf pr 55 52 = 1 ∧ pairOf fn ∈ t.cmdBusy ∧
           (t.queue q).st = 6 ∧ (t.queue q).fetched = [] ∧ (t.queue q).disabledBy = some fn) ∧
         (x.st = 5 → ∃ t : State, exec (.resume fn i) s = .next t ∧ done t 0 ∧ t.queue q = { x with st := 1 }) ∧
         (x.st ≠ 5 → ∃ t : State, exec (.resume fn i) s = .next t ∧ done t 4 ∧ t.queues = s.queues)) ∧
       ((fn = 0 ∨ s.ctxOwner ctx.toNat = fn - 1) → ∃ t : State, exec (.reload fn ctx) s = .next t ∧ done t 0 ∧
         ctx.toNat ∉ t.failed ∧ ∀ a, Map.find? s.ctxs ctx.toNat = some a →
           Map.find? t.ctxs ctx.toNat = some { a with reread := true }) ∧
       (fn ≠ 0 → s.ctxOwner ctx.toNat ≠ fn - 1 →
         ∃ t : State, exec (.reload fn ctx) s = .next t ∧ done t 3 ∧ t.ctxs = s.ctxs ∧ t.failed = s.failed)) ∧
     (∀ q, (s.queue q).disabledBy = some fn → (s.queue q).st = 6 → (s.queue q).started = [] →
       ∃ t : State, exec (.disableComplete q) s = .next t ∧ done t 0 ∧ (t.queue q).st = 0)) ∧
  (∀ s : State,
     (∀ (p : Fin 96) (val : BitVec 64),
       (p.val ∈ s.quarantined → ∀ b, exec (.schedRangeWrite p b val) s =
         .next (s.accessError 374 0 (if b then Reg.schCtxRange p.val else Reg.queRange p.val).key)) ∧
       (p.val ∉ s.quarantined → ∀ b,
         (s.rangeBad p.val b val.toNat = true → exec (.schedRangeWrite p b val) s =
           .next (s.accessError 250 0 (if b then Reg.schCtxRange p.val else Reg.queRange p.val).key))) ∧
       (p.val ∉ s.quarantined → s.rangeBad p.val true val.toNat = false →
         ∃ t : State, exec (.schedRangeWrite p true val) s = .next t ∧ t.rf (.schCtxRange p.val) 19 0 = fld val.toNat 19 0 ∧
           t.rf (.schCtxRange p.val) 52 32 = fld val.toNat 52 32 ∧ t.queues = s.queues ∧ t.ctxs = s.ctxs) ∧
       (p.val ∉ s.quarantined → s.rangeBad p.val false val.toNat = false →
         ∃ t : State, exec (.schedRangeWrite p false val) s = .next t ∧ t.rf (.queRange p.val) 17 0 = fld val.toNat 17 0 ∧
           t.rf (.queRange p.val) 46 32 = fld val.toNat 46 32 ∧ t.queues = s.queues ∧ t.ctxs = s.ctxs)) ∧
     (∀ (fn idx : Nat) (val : BitVec 64), fn ≤ 96 → fn = 0 ∨ s.partOn (fn - 1) = true →
       (s.sharedUp = false → exec (.doorbell fn idx 8 val) s = .next (s.dropped 17 (pairOf fn))) ∧
       (s.sharedUp = true → s.queueOf fn idx = none → exec (.doorbell fn idx 8 val) s = .next (s.dropped 259 (pairOf fn))) ∧
       (∀ q, s.sharedUp = true → s.queueOf fn idx = some q →
         let x := s.queue q
         let new : Half := BitVec.ofNat 32 (fld val.toNat 31 0)
         let ok := x.st ≠ 0 ∧ x.st ≠ 6 ∧ Map.find? s.partOps x.owner = none ∧ x.owner ∉ s.quarantined ∧
           (new - x.head).toNat ≤ x.entries ∧ (new - x.tail).toNat < 2 ^ 31
         (ok → exec (.doorbell fn idx 8 val) s = .next (s.setQueue q { x with tail := new })) ∧
         (¬ ok → exec (.doorbell fn idx 8 val) s = .next (s.dropped 259 (pairOf fn))))) ∧
     (∀ q, (s.queue q).st = 1 → (s.queue q).head ≠ (s.queue q).tail → (s.queue q).fetched.length < 4 → s.sharedUp = true →
       Map.find? s.partOps (s.queue q).owner = none →
       let x := s.queue q
       ∀ u r, s.ringRead x (x.ring + x.head.toNat % x.entries * 64) = some (u, r) →
       ∃ (t : State) (p : Packet), exec (.packetRead q) s = .next t ∧ (t.queue q).head = x.head + 1 ∧
         (t.queue q).fetched = x.fetched ++ [p] ∧ p.seq = x.head.toNat ∧ (t.queue q).started = x.started ∧
         (∀ bs, r = .ok bs → p.bad = none ∧ p.words = (List.range 8).map (wordAt bs)) ∧ (∀ c, r = .error c → p.bad = some c)))

/-- Packets that the queue manager runs itself start (R144, R145, R262, R263): a conditional launch or fanout with
nothing to launch is skipped, a wait starts when its word meets its condition, a barrier when its word has reached
TARGET. PACKET_COMPLETE (R264): CMPL advances, the packet leaves its queue, and a status above 0x01 stops a running
queue. Where the manual leaves a point open, this states the model's choice: log entry 52. -/
def Obligations.packets_complete : Prop :=
  (∀ (s : State) (q : Nat) (p : Packet),
     let x := s.queue q
     let v := s.freshFront q
     let starts := fun (c : Instr) (e : Started) => ∃ u : State, exec c s = .next u ∧ Starts s u q e
     (v.frontOf q 2 = some p →
       (∀ t st, v.queRead x (p.f 6 47 0) = some (t, .error st) → starts (.condLaunch q) (p.done st)) ∧
       (∀ t, v.queRead x (p.f 6 47 0) = some (t, .ok 0) → starts (.condLaunch q) (p.done 1)) ∧
       (∀ t n, n ≠ 0 → v.queRead x (p.f 6 47 0) = some (t, .ok n) → starts (.condLaunch q) { p.done 0 with toPlace := [0] })) ∧
     (v.frontOf q 3 = some p →
       let rows := v.fanoutRows x p (List.range (p.f 7 25 16 + 1))
       (∀ t st, rows = some (t, .error st) → starts (.fanout q) (p.done st)) ∧
       (∀ t, rows = some (t, .ok []) → starts (.fanout q) (p.done 1)) ∧
       (∀ t l, l ≠ [] → rows = some (t, .ok l) → starts (.fanout q) { p.done 0 with toPlace := l })) ∧
     (∀ core, v.frontOf q 4 = some p → v.dmaCore x.owner (p.f 2 10 0) = some core → v.awake (coreBasin core) = true →
       ∃ (u : State) (c : DmaCmd), exec (.dmaPacket q) s = .next u ∧ u.dma = s.dma ++ [c] ∧ c.id = s.nextId ∧ c.pkt = true ∧
         c.org.core = core ∧ c.org.ctx = x.ctx ∧ c.daddr = p.addr ∧ c.kind = p.f 2 18 16 ∧
         Starts s u q { p.done 0 with live := [s.nextId] }) ∧
     (s.frontOf q 5 = some p → x.started = [] →
       let add := p.f 0 17 16 = 0
       let v := (p.words.getD 2 0).toNat
       ∀ t ls dpas u, s.queAccess x p.addr 8 (if add then needWA else needW) = .ok t ls dpas → (∀ l ∈ ls, t.inRepair l = false) →
         t.homeWrite dpas = some u → (add → (u.readLocs 0 ls).2 = false) →
         ∃ w : State, exec (.signalPacket q) s = .next w ∧ Starts s w q (p.done 0) ∧
           ∀ k, w.heap.read k = if u.failing k then u.heap.read k
             else (lastByte ls (if add then addWord v (u.readLocs 0 ls).1 else leBytes v 8) (.heap k)).getD (u.heap.read k)) ∧
     (s.frontOf q 6 = some p →
       (∀ t v, s.queRead x p.addr = some (t, .ok v) →
         (condInt 64 (p.f 6 3 0) v (p.words.getD 2 0).toNat = true → starts (.waitPacket q) (p.done 0)) ∧
         (condInt 64 (p.f 6 3 0) v (p.words.getD 2 0).toNat = false → exec (.waitPacket q) s = .next t)) ∧
       (p.f 6 63 32 ≠ 0 → starts (.waitTimeout q) (p.done 6))) ∧
     (s.frontOf q 7 = some p →
       ∃ u : State, exec (.phasePacket q) s = .next u ∧ Starts s u q (p.done 0) ∧ (u.queue q).phase = p.f 1 5 0) ∧
     (s.frontOf q 8 = some p → x.started = [] →
       ∀ t, (x.barAdded = true ∧ t = s) ∨ (x.barAdded = false ∧ s.queUpdate x p.addr 8 needWA (addWord 1) = some (t, none)) →
         ∀ u v, (t.modQueue q (fun y => { y with barAdded := true })).queRead x p.addr = some (u, .ok v) →
           ((p.words.getD 2 0).toNat ≤ v → starts (.barrierPacket q) (p.done 0)) ∧
           (v < (p.words.getD 2 0).toNat → exec (.barrierPacket q) s = .next u ∧ (u.queue q).barAdded = true))) ∧
  (∀ (s : State) (q seq : Nat),
     let x := s.queue q
     let v := s.freshFront q
     let ended := fun (u : State) (st : Nat) => (u.queue q).cmpl = x.cmpl + 1 ∧
       (u.queue q).st = (if 1 < st ∧ x.st = 1 then 5 else x.st) ∧ (u.queue q).last = (if 1 < st then st else x.last) ∧
       ∀ k, k ≠ q → u.queue k = s.queue k
     (∀ e t st, x.started.find? (fun e => e.pkt.seq == seq) = some e → e.live = [] → e.toPlace = [] →
       v.writeCompletion x e = some (t, st) →
       ∃ u : State, exec (.packetComplete q seq) s = .next u ∧ ended u st ∧
         (u.queue q).started = x.started.filter (fun y => y.pkt.seq != seq) ∧
         (e.pkt.crec = 0 → e.pkt.sig = 0 → st = e.status)) ∧
     (∀ p st t st', x.started.find? (fun e => e.pkt.seq == seq) = none → v.startable q = some p → v.pktStop x p = some st →
       p.seq = seq → (v.startFront q (p.done st)).writeCompletion ((v.startFront q (p.done st)).queue q) (p.done st) =
         some (t, st') →
       ∃ u : State, exec (.packetComplete q seq) s = .next u ∧ ended u st' ∧ (u.queue q).fetched = x.fetched.drop 1))

/-- The scheduler (R36, R55, R254, R414). SCHEDULE takes the items of a partition in their order, and SCHEDULER_TICK
does so for every partition after staged quanta are adopted. The one item of a partition whose context is resident
goes to the first core in R36 order that can take it, and its groups start in the slots of R414 as Table 04-1 says;
charged cycles enter the contexts' times; a written-back context that nothing keeps active is let go (R253).
Preemption (R255, R256): at its preemption point a launch's groups are saved, or the launch ends with status 0x04
where its save region faults; a complete switch lets the incoming groups issue. Where the manual leaves a point open,
this states the model's choice: log entries 53, 54, 107 and 108. -/
def Obligations.scheduling_completes : Prop :=
  (∀ s : State,
     (∀ p, exec (.schedule p) s = .next ((s.charge.items p).foldl (fun (t : State) i => t.scheduleItem p i) s.charge)) ∧
     exec .schedulerTick s = .next ((List.range 96 ++ [127]).foldl (fun (t : State) p =>
       (t.charge.items p).foldl (fun (t : State) i => t.scheduleItem p i) t.charge) (s.adoptUnit 24).charge) ∧
     (∀ p q pk child a c,
       let u := s.charge
       let ctx := (u.queue q).ctx
       u.items p = [.queue q] → u.queueItem q = some (pk, child) → u.assigned (.queue q) = false →
       Map.find? u.ctxs ctx = some a → a.reread = false → u.ctxStop ctx = none → u.rangeTooBig ctx pk.kind = false →
       ((coresOf pk.kind).filter (fun c => u.candidate p c && decide ((u.freeSlots c).length ≥ pk.groups))).find? (fun c => u.fits c ctx a) = some c →
       (u.res c).any (fun x => x.ctx == ctx) = true → u.awake (coreBasin c) = true →
       ∃ (t : State) (l : Launch), exec (.schedule p) s = .next t ∧ Map.find? t.launches s.nextId = some l ∧
         l.core = c ∧ l.ctx = ctx ∧ l.queue = q ∧ l.seq = pk.seq ∧ l.entry = BitVec.ofNat 48 pk.addr ∧
         l.threads = pk.threads ∧ l.phase = .running ∧ t.nextId = s.nextId + 1 ∧
         ∀ i, i < pk.groups → ∃ g, Map.find? t.groups (gkey c ((u.slotsFor c pk.groups).getD i 0)) = some g ∧
           g.launch = s.nextId ∧ g.pc = l.entry ∧ g.gs 1 = BitVec.ofNat 64 i ∧ g.gs 2 = BitVec.ofNat 64 pk.groups ∧
           g.gs 3 = l.arg.setWidth 64 ∧ g.gs 4 = BitVec.ofNat 64 c ∧ g.stat = .run ∧ g.stack = [] ∧ g.act = g.present ∧
           (∀ j, j < 32 → (g.present.getLsbD j = true ↔ i * 32 + j < pk.threads)) ∧
           (∀ j, inMask g.present j → g.gv 0 j = BitVec.ofNat 32 (i * 32 + j))) ∧
     (s.queues = [] → (∀ x ∈ s.launches, x.2.phase ≠ .preempted) →
       (∀ p, ∃ t : State, exec (.schedule p) s = .next t ∧ t.launches = s.launches ∧
         ∀ c a, Map.find? s.ctxs c = some a → Map.find? t.ctxs c = some a.settled) ∧
       ∃ t : State, exec .schedulerTick s = .next t ∧ t.launches = s.launches ∧
         (∀ c a, Map.find? s.ctxs c = some a → Map.find? t.ctxs c = some a.settled) ∧
         (∀ m, s.commit = some m → 24 ∈ m.pendingUnits → t.rf .cfgCommitSts 24 24 = 1)) ∧
     ((∀ kv ∈ s.queues, kv.2.st ≠ 0 → kv.2.front.isSome → Map.find? s.ctxs kv.2.ctx ≠ none) →
       ∃ t : State, exec .contextRecordWriteback s = .next t ∧ t.launches = s.launches ∧
         ∀ c a, Map.find? s.ctxs c = some a →
           Map.find? t.ctxs c = some a.settled ∨ (s.keepsActive c = false ∧ Map.find? t.ctxs c = none))) ∧
  (∀ (s : State) (id : Nat) (l : Launch) (w : Switch),
     let gs := s.groups.filter (fun kv => kv.2.launch == id)
     let len := saveLen gs.length l.live.length
     let u := { s with switching := Map.drop s.switching l.core }.charge
     let ok := u.saveOk l.part l.core (u.saveSlotFor l.core) len true
     (Map.find? s.launches id = some l → l.phase = .preempting → Map.find? s.switching l.core = some w → w.victim = some id →
       w.forLaunch ≠ some id → id < s.nextId → (∀ c ∈ s.mtx, c.org.launch ≠ some id) → (∀ c ∈ s.routes, c.org.launch ≠ some id) →
       (∀ c ∈ s.rmo, c.org.launch ≠ some id) → (∀ kv ∈ gs, ∀ f w a va m w0 w1, kv.2.stat ≠ .walk f w a va m w0 w1) →
       (ok = true → w.forQueue = none → w.forLaunch = none →
         exec (.preemptionPoint id) s = .next ((u.savePreempted id l).writeBack l.ctx)) ∧
       (ok = true → (∃ a, Map.find? s.ctxs l.ctx = some a ∧ a.reread = false) →
         ∃ (t : State) (l' : Launch), exec (.preemptionPoint id) s = .next t ∧ Map.find? t.launches id = some l' ∧
           l'.phase = .preempted ∧ l'.saved = gs.map (fun kv => (kv.1 % 128, kv.2)) ∧
           l'.savedAcc = Map.keep s.acc (fun k => l.live.contains (k / 1024))) ∧
       (ok = false → (∀ f, u.saveFault l.part l.core (u.saveSlotFor l.core) len true = some f → f.code ≠ 10) →
         ∃ (t : State) (l' : Launch), exec (.preemptionPoint id) s = .next t ∧ Map.find? t.launches id = some l' ∧
           l'.phase = .failing ∧ l'.status = 4 ∧ ∀ h ∈ t.groups, h.2.launch ≠ id)) ∧
     (∀ core : CoreRef, Map.find? s.switching core.toNat = some w → w.victim = none →
       exec (.switchComplete core) s = .next { s with switching := Map.drop s.switching core.toNat }))

/-! ### Partitions, staged values and modes -/

/-- Enabling and changing a partition (R268, R269, R271): an enable that meets R269 reaches Enabled with RESULT 0x0,
and without retention every byte of its pools and of the Deep part of its channels reads zero; basins change all or
none; channels and the Shared range only while it is disabled. Where the manual leaves a point open, this states the
model's choice: log entries 60 and 61. -/
def Obligations.partitions_change : Prop :=
  ∀ (s : State) (p : Fin 96) (val : BitVec 64),
    let sts := Reg.cfgPartSts p.val
    let res := fun (t : State) (st r : Nat) => t.partState p.val = st ∧ t.rf sts 19 16 = r
    let sh := s.partShared p.val
    let ok := s.sharedUp = true ∧ s.partConflict p.val = false ∧ s.partChanBad p.val = false ∧ sh.1 + sh.2 ≤ s.sharedSize
    let idle := ∀ b ∈ s.partBasins p.val, Map.find? s.modeChg b = none
    let keep := bit val.toNat 1 = true ∧ Map.find? s.lastTag p.val = some (s.rf (.cfgPartTag p.val) 31 0)
    (s.partState p.val = 2 ∨ s.partState p.val = 3 →
      ∃ t : State, exec (.partitionEnable p val) s = .next t ∧ res t (s.partState p.val) 2) ∧
    (s.partState p.val = 0 → bit val.toNat 0 = true →
      (s.sharedUp = true → ¬ ok → ∃ t : State, exec (.partitionEnable p val) s = .next t ∧ res t 0 3) ∧
      (ok → idle → ∃ t : State, exec (.partitionEnable p val) s = .next t ∧ res t 1 0 ∧
        Map.find? t.lastTag p.val = some (s.rf (.cfgPartTag p.val) 31 0) ∧
        (keep → t.heap = s.heap ∧ t.pool = s.pool) ∧
        (¬ keep →
          (∀ b i o, b ∈ s.partBasins p.val → i < 7 → o < 2 ^ 22 → t.pool.read ((b * 8 + i) * 2 ^ 22 + o) = 0) ∧
          (∀ c o, c ∈ s.logical → s.partChanBit p.val c = true → o < s.deepSize → o < 2 ^ 24 →
            t.heap.read (c * 2 ^ 24 + o) = 0)))) ∧
    (s.partState p.val = 1 ∨ s.partState p.val = 4 → bit val.toNat 0 = true →
      ∃ t : State, exec (.partitionEnable p val) s = .next t ∧ res t (s.partState p.val) 7) ∧
    (∀ high : Bool,
      let r := if high then Reg.cfgPartBsnHi p.val else Reg.cfgPartBsnLo p.val
      let new := r.written 63 0 (s.reg r) val.toNat
      let changes := fun i => i < 64 ∧ bit (s.reg r) i ≠ bit new i
      let b := fun (i : Nat) => if high then i + 64 else i
      let may := ∀ i, changes i → s.basinBusy (b i) = 0 ∧ (s.partBasinBit p.val (b i) = false → s.basinOwner (b i) = 127)
      (s.partState p.val = 0 → exec (.partitionBasinWrite p high val) s = .next (s.setReg r new)) ∧
      (s.partState p.val = 1 → may →
        ∃ t : State, exec (.partitionBasinWrite p high val) s = .next t ∧ res t 1 0 ∧ t.reg r = new) ∧
      (s.partState p.val = 1 → ¬ may →
        ∃ t : State, exec (.partitionBasinWrite p high val) s = .next t ∧ res t 1 2 ∧ t.reg r = s.reg r)) ∧
    (∀ reg : Fin 7,
      let r := if reg.val < 6 then Reg.cfgPartChan p.val reg.val else Reg.cfgPartShr p.val
      (s.partState p.val = 0 →
        ∃ t : State, exec (.partitionResourceWrite p reg val) s = .next t ∧ t.heap = s.heap ∧
          (reg.val < 6 → t.rf r 63 0 = val.toNat) ∧
          (reg.val = 6 → t.rf r 13 0 = fld val.toNat 13 0 ∧ t.rf r 46 32 = fld val.toNat 46 32)) ∧
      (s.partState p.val ≠ 0 → ∃ t : State, exec (.partitionResourceWrite p reg val) s = .next t ∧ t.reg r = s.reg r ∧
        res t (s.partState p.val) (if s.partState p.val = 1 then 4 else if s.partState p.val = 4 then 7 else 2)))

/-- Reset and removal of a partition (R272 to R275, R374, Table 16-5): an accepted request stops every launch with
status 0x07 and every queue; one on a partition that is disabled or quarantined is refused with RESULT 0x7, one on a
partition that is being reset with 0x2, into which an FLR merges; a drain timeout squashes what is left; at the end
the partition is Enabled or Disabled, its queues, windows and translations are gone; one that hangs is quarantined.
Where the manual leaves a point open, this states the model's choice: log entries 60, 61 and 109. -/
def Obligations.partition_resets_complete : Prop :=
  ∀ (s : State) (p : Fin 96) (val : BitVec 64),
    let sts := Reg.cfgPartSts p.val
    let res := fun (t : State) (st r : Nat) => t.partState p.val = st ∧ t.rf sts 19 16 = r
    let act := fld val.toNat 3 0
    let begins := fun (t : State) (a : Nat) => res t (if a = 2 then 3 else 2) 1 ∧
      (∃ o, Map.find? t.partOps p.val = some o ∧ o.action = a ∧ o.begun = true) ∧
      (∀ id l, Map.find? s.launches id = some l → l.part = p.val → l.phase ≠ .failing →
        ∃ l', Map.find? t.launches id = some l' ∧ l'.phase = .failing ∧ l'.status = 7) ∧
      (∀ q x, Map.find? s.queues q = some x → x.owner = p.val → x.st ≠ 0 → (t.queue q).st = 6) ∧
      (∀ r ∈ t.resetQ, r.level ≤ 2 → s.basinOwner (coreBasin r.unit) ≠ p.val)
    (s.partState p.val = 1 → (∀ b ∈ s.partBasins p.val, Map.find? s.modeChg b = none) →
      ((act = 1 ∨ act = 2) →
        (∃ t : State, exec (.partitionReset p val) s = .next t ∧ begins t act) ∧
        (∃ t : State, exec (.partitionRemove p val) s = .next t ∧ begins t act)) ∧
      (∃ t : State, exec (.flr p) s = .next t ∧ begins t 1)) ∧
    (s.partState p.val = 2 ∨ s.partState p.val = 3 →
      (∀ c ∈ [Instr.partitionReset p val, Instr.partitionRemove p val],
        ∃ t : State, exec c s = .next t ∧ res t (s.partState p.val) 2) ∧
      exec (.flr p) s = .next s) ∧
    (s.partState p.val = 0 ∨ s.partState p.val = 4 →
      ∀ c ∈ [Instr.partitionReset p val, Instr.partitionRemove p val, Instr.flr p],
        ∃ t : State, exec c s = .next t ∧ res t (s.partState p.val) 7) ∧
    (∀ o, Map.find? s.partOps p.val = some o → o.begun = true →
      (o.draining = true → ∃ t : State, exec (.partitionDrainTimeout p) s = .next t ∧
        (∀ c ∈ t.mtx, c.org.part ≠ p.val) ∧ (∀ c ∈ t.dma, c.org.part ≠ p.val) ∧ (∀ c ∈ t.rmo, c.org.part ≠ p.val) ∧
        (∀ c ∈ t.routes, c.org.part ≠ p.val)) ∧
      (s.partDrained p.val = true →
        ∃ t : State, exec (.partitionResetComplete p) s = .next t ∧ Map.find? t.partOps p.val = none ∧
          res t (if o.action = 2 then 0 else 1) (if s.rf sts 47 32 = 0 then 0 else 5) ∧
          (∀ x ∈ t.queues, x.2.owner ≠ p.val) ∧ (∀ w ∈ t.windows, w.1 / 65536 ≠ p.val) ∧ (∀ e ∈ t.tlb, e.part ≠ p.val) ∧
          (∀ x ∈ t.utlb, x.2.part ≠ p.val) ∧ (∀ x ∈ t.wc1, x.part ≠ p.val) ∧ (∀ x ∈ t.wc2, x.part ≠ p.val) ∧
          (o.scrub = true → o.action ≠ 2 → ∀ b i k, b ∈ s.partBasins p.val → i < 7 → k < 2 ^ 22 →
            t.pool.read ((b * 8 + i) * 2 ^ 22 + k) = 0)) ∧
      ∃ t : State, exec (.partitionResetHang p) s = .next t ∧ res t 4 6 ∧ p.val ∈ t.quarantined ∧ p.val ∈ t.sluiced ∧
        (∀ l ∈ t.launches, l.2.part ≠ p.val) ∧
        (if p.val < 64 then t.rf .rstQuarLo p.val p.val else t.rf .rstQuarHi (p.val - 64) (p.val - 64)) = 1)

/-- Common ranges and staged values (R270, R276, R277): a commit is refused while one is in progress, or with the
lowest invalid entry; an accepted one stores every entry and waits for its units; a unit that does not return ends it
with STATE 0x5. Where the manual leaves a point open, this states the model's choice: log entry 62. -/
def Obligations.configuration_commits : Prop :=
  ∀ s : State,
    (∀ (n : Fin 8) (val : BitVec 64),
      (bit val.toNat 63 = true → s.commonOk val.toNat = false →
        exec (.commonRangeWrite n val) s = .next (s.accessError 270 0 (Reg.cfgCommon n.val).key)) ∧
      (bit val.toNat 63 = false ∨ s.commonOk val.toNat = true →
        ∃ t : State, exec (.commonRangeWrite n val) s = .next t ∧ t.heap = s.heap ∧
          ∀ f ∈ [(63, 63), (62, 62), (61, 59), (52, 36), (35, 0)],
            t.rf (.cfgCommon n.val) f.1 f.2 = fld val.toNat f.1 f.2)) ∧
    (∀ val : BitVec 64,
      (∀ c, s.commit = some c → ∃ t : State, exec (.cfgCommit val) s = .next t ∧ t.rf .cfgCommitSts 31 28 = 3 ∧
        t.commit = some c) ∧
      (s.commit = none →
        (∀ e, badEntry s.staged = some e → ∃ t : State, exec (.cfgCommit val) s = .next t ∧
          t.rf .cfgCommitSts 31 28 = 4 ∧ t.rf .cfgCommitSts 39 32 = e ∧ t.commit = none ∧ t.adopted = s.adopted) ∧
        (badEntry s.staged = none →
          let es := s.staged.map (fun x => x.2)
          ∃ t : State, exec (.cfgCommit val) s = .next t ∧ t.rf .cfgCommitSts 47 40 = fld val.toNat 7 0 ∧
            t.adopted = s.adopted ∧
            (∀ x ∈ es, ∀ r, entryReg x.1 = some r → t.reg r = x.2.toNat) ∧
            (commitUnits es = [] → t.commit = none ∧ t.rf .cfgCommitSts 31 28 = 2) ∧
            (commitUnits es ≠ [] → t.commit = some ⟨es, commitUnits es⟩ ∧ t.rf .cfgCommitSts 31 28 = 1 ∧
              ∀ u, u < 25 → t.rf .cfgCommitSts u u = (if u ∈ commitUnits es then 0 else 1))))) ∧
    (∀ (u : Fin 25) (c : Commit), s.commit = some c → u.val ∈ c.pendingUnits →
      ∃ t : State, exec (.commitPartialTimeout u) s = .next t ∧ t.commit = none ∧ t.rf .cfgCommitSts 31 28 = 5 ∧
        t.adopted = s.adopted)

/-- Basin modes and the Shared size (R29 to R33, R45): a change is refused while the basin is busy; a completed one
reads zero in every pool; a failed self-test falls back to Pond, and a failed fallback leaves the basin out of
service. A basin of a quarantined partition, and one that failed at BOOT_DONE, stays out of service (R275, R380). A
completed size change loses every byte of every Heap. Low-power states (R345 to R347, Table 20-4): an idle basin
takes the state its expected idle time repays; Retained keeps the pools and loses caches and accumulators; a wake is
marked until the basin is awake. Where the manual leaves a point open, this states the model's choice: log entries
63, 64 and 90. -/
def Obligations.modes_and_power_states : Prop :=
  (∀ s : State,
     (∀ (b : Fin 96) (val : BitVec 32), s.dieUp (b.val / 8) = true → b.val ∉ s.outOfService →
       let r := Reg.bsnModeSts b.val
       let mode := fld val.toNat 1 0
       let res := fun (t : State) (x why : Nat) => t.rf r 23 16 = fld val.toNat 15 8 ∧ t.rf r 11 8 = x ∧ t.rf r 7 4 = why
       (2 ≤ mode → ∃ t : State, exec (.modeChangeWrite b val) s = .next t ∧ res t 3 0 ∧ t.modeChg = s.modeChg) ∧
       (mode < 2 → s.basinBusy b.val ≠ 0 →
         ∃ t : State, exec (.modeChangeWrite b val) s = .next t ∧ res t 2 (s.basinBusy b.val) ∧ t.modeChg = s.modeChg) ∧
       (mode < 2 → s.basinBusy b.val = 0 → mode = s.rf r 0 0 →
         ∃ t : State, exec (.modeChangeWrite b val) s = .next t ∧ res t 0 0 ∧ t.modeChg = s.modeChg) ∧
       (mode < 2 → s.basinBusy b.val = 0 → mode ≠ s.rf r 0 0 →
         ∃ t : State, exec (.modeChangeWrite b val) s = .next t ∧ res t 1 0 ∧ t.rf r 1 1 = 1 ∧
           t.basinReady b.val = false ∧ Map.find? t.modeChg b.val = some ⟨decide (mode = 1), false⟩)) ∧
     (∀ (b : Fin 96) (m : ModeChange), Map.find? s.modeChg b.val = some m → s.partOps = [] → s.tripped = false →
       let serves := decide (s.basinOwner b.val ∉ s.quarantined ∧ 100 + b.val ∉ s.boot.failedBits)
       let r := Reg.bsnModeSts b.val
       let zeroed := fun (t : State) => ∀ i k, i < 7 → k < 2 ^ 22 → t.pool.read ((b.val * 8 + i) * 2 ^ 22 + k) = 0
       let ended := fun (t : State) (mode x : Nat) => zeroed t ∧ Map.find? t.modeChg b.val = none ∧ t.rf r 0 0 = mode ∧
         t.rf r 11 8 = x ∧ t.rf r 1 1 = 0
       (m.fallback = false →
         (∃ t : State, exec (.modeChangeComplete b true) s = .next t ∧ ended t (if m.toLake then 1 else 0) 0 ∧
           t.basinReady b.val = serves) ∧
         (∃ t : State, exec (.modeChangeComplete b false) s = .next t ∧ zeroed t ∧ t.rf r 0 0 = 0 ∧
           Map.find? t.modeChg b.val = some ⟨false, true⟩)) ∧
       (m.fallback = true →
         (∃ t : State, exec (.pondFallbackComplete b true) s = .next t ∧ ended t 0 4 ∧
           t.basinReady b.val = serves) ∧
         (∃ t : State, exec (.pondFallbackComplete b false) s = .next t ∧ ended t 0 5 ∧ t.basinReady b.val = false ∧
           b.val ∈ t.outOfService))) ∧
     (∀ val : BitVec 32,
       let size := fld val.toNat 1 0
       let busy := s.sharedUp = false ∨ s.sharedChg.isSome = true ∨ s.sharedInUse = true
       let res := fun (t : State) (x : Nat) => t.rf .glbSharedSts 19 12 = fld val.toNat 15 8 ∧ t.rf .glbSharedSts 11 8 = x
       (busy → ∃ t : State, exec (.sharedSizeChange val) s = .next t ∧ res t 2 ∧ t.sharedChg = s.sharedChg) ∧
       (¬ busy → s.logical ≠ [] → kFor size s.logical.length ≤ 2048 →
         ∃ t : State, exec (.sharedSizeChange val) s = .next t ∧ res t 1 ∧ t.sharedChg = some size) ∧
       (¬ busy → 2048 < kFor size s.logical.length → ∃ t : State, exec (.sharedSizeChange val) s = .next t ∧ res t 3)) ∧
     (∀ size, s.tripped = false → s.sharedChg = some size → size < 4 →
       ∃ t : State, exec .sharedSizeChangeComplete s = .next t ∧ t.sharedChg = none ∧ t.rf .glbSharedSts 11 8 = 0 ∧
         t.rf .glbSharedSts 1 0 = size ∧ t.kGran = kFor size s.logical.length % 2 ^ 12 ∧ (∀ k, t.heap.read k = 0) ∧
         t.pool = s.pool)) ∧
  (∀ (s : State) (b : Fin 96),
     let sleep := fun (t : State) => t.rf (.bsnPwrSts b.val) 1 0
     let waking := fun (t : State) => t.rf (.bsnPwrSts b.val) 2 2
     let retained := fun (t : State) => sleep t = 2 ∧ (∀ x ∈ t.coh.l1, x.1 / 2 ^ 23 / 7 ≠ b.val) ∧
       (∀ x ∈ t.acc, x.1 / 2048 / 16 ≠ b.val)
     (s.basinIdle b.val = true → s.dieUp (b.val / 8) = true → waking s ≠ 1 →
       (s.sleepFor b.val ≤ sleep s → exec (.basinIdle b) s = .next s) ∧
       (sleep s = 0 → s.sleepFor b.val = 1 → ∃ t : State, exec (.basinIdle b) s = .next t ∧ sleep t = 1 ∧
         t.pool = s.pool ∧ t.coh = s.coh ∧ t.acc = s.acc) ∧
       (sleep s < 2 → s.sleepFor b.val = 2 →
         ∃ t : State, exec (.basinIdle b) s = .next t ∧ retained t ∧ t.pool = s.pool) ∧
       (sleep s < 3 → s.sleepFor b.val = 3 →
         (∀ u, s.evictBasin b.val = some u → ∃ t : State, exec (.basinIdle b) s = .next t ∧ sleep t = 3 ∧
           ∀ i k, i < 7 → k < 2 ^ 22 → t.pool.read ((b.val * 8 + i) * 2 ^ 22 + k) = 0) ∧
         (s.evictBasin b.val = none → ∃ t : State, exec (.basinIdle b) s = .next t ∧ retained t ∧ t.pool = s.pool))) ∧
     (sleep s = 1 → waking s ≠ 1 → s.idleTime b.val = none →
       ∃ t : State, exec (.gatedToRetained b) s = .next t ∧ retained t ∧ t.pool = s.pool) ∧
     (sleep s ≠ 0 → waking s ≠ 1 →
       (∀ i, s.idleTime b.val = some i → ∃ t : State, exec (.idleExpiryWake b) s = .next t ∧ waking t = 1 ∧ sleep t = sleep s) ∧
       (∀ w, s.wakeCause b.val w = true → ∃ t : State, exec (.basinWake b w) s = .next t ∧ waking t = 1 ∧ sleep t = sleep s)) ∧
     (waking s = 1 → ∃ t : State, exec (.basinWakeComplete b) s = .next t ∧ waking t = 0 ∧ sleep t = 0 ∧
       t.pool = s.pool ∧ t.heap = s.heap) ∧
     (∀ (p : Nat) (val : BitVec 64), p < 96 ∨ p = 127 →
       ∃ t : State, exec (.idleHintWrite p val) s = .next t ∧ t.rf (.pwrIdleHint p) 31 0 = fld val.toNat 31 0 ∧
         (fld val.toNat 31 0 = 0 → s.basinOwner b.val = p → sleep s ≠ 0 → waking t = 1) ∧ sleep t = sleep s))

/-! ### Basins' power states, storage errors, the power controller -/

/-- Storage errors (R49, R350, R355, R357, R358, Tables 03-8 and 21-2): a failed channel is masked where its Guarded
Heap can rebuild it, and otherwise Failing; a read of a channel's sector corrects it, rebuilds it or poisons it, the
slice's copy apart, a patrol counts what it corrects, the 64th bad row within 1 ms fails the channel, and a row of a
common range goes into repair, which ends with its replica's bytes or with poison. Slices, pools, register lanes,
queue state words and host sectors poison what they lose (Table 21-1). Where the manual leaves a point open, this
states the model's choice: log entry 65. -/
def Obligations.storage_errors_complete : Prop :=
  (∀ (s : State) (ch : Fin 384),
    let c := ch.val
    let d := c / 32
    (s.chanState c = 0 → s.dieUp d = true →
      let masked := s.guarded (c / 16) = true ∧ ∀ x ∈ s.heapChans (c / 16), s.chanState x = 0
      (masked → ∃ t : State, exec (.wholeChannelFailure ch) s = .next t ∧ t.chanState c = 2 ∧
        t.chanReady c = s.chanReady c ∧ t.heap = s.heap ∧ (∀ k, k < 384 → k ≠ c → t.chanState k = s.chanState k) ∧
        ∃ e ∈ t.ras, e.cls = 4 ∧ e.index = c ∧ e.detail = 2) ∧
      (¬ masked → ∃ t : State, exec (.wholeChannelFailure ch) s = .next t ∧ t.chanState c = 1 ∧
        t.chanReady c = false ∧ t.heap = s.heap ∧ (∀ k, k < 384 → k ≠ c → t.chanState k = s.chanState k) ∧
        ∃ e ∈ t.ras, e.cls = 4 ∧ e.index = c ∧ e.detail = 1)) ∧
    (∀ sector patrol, s.chanState c ≠ 3 → s.dieUp d = true → s.tripped = false → sector < 2 ^ 19 - 1 →
      let read := fun f => exec (.rakePatrol (.channel ch sector) patrol f) s
      let others := s.badRows.filter (fun x => x.1 / 4096 = c ∧ x.1 ≠ c * 4096 + sector / 128 ∧ s.weirCtr.toNat < x.2 + 100000)
      read .good = .next s ∧
      (∃ t : State, read .correctable = .next t ∧ t.heap = s.heap ∧ t.heapPoison = s.heapPoison ∧
        (patrol = true → t.rf (.rasRakeSts d) 31 0 = min (s.rf (.rasRakeSts d) 31 0 + 1) (2 ^ 32 - 1) ∧
          Map.find? t.rakeCe c = some (Map.getD s.rakeCe c 0 + 1)) ∧
        (patrol = false → t.rf (.rasRakeSts d) 31 0 = s.rf (.rasRakeSts d) 31 0 ∧ t.rakeCe = s.rakeCe)) ∧
      (∀ r, ∃ t : State, read (.uncorrectable r) = .next t ∧ t.heap = s.heap ∧
        (s.chanState c = 0 → 63 ≤ others.length → t.chanState c ≠ 0) ∧ (others.length < 63 → t.chanState c = s.chanState c)) ∧
      (s.guarded (c / 16) = true → others.length < 63 → ∃ t : State, read (.uncorrectable true) = .next t ∧
        t.heapPoison = s.heapPoison ∧ t.coh = s.coh ∧ (s.ras.length < 4096 → ∃ e ∈ t.ras, e.cls = 6 ∧ e.index = c)) ∧
      (s.guarded (c / 16) = false → ∀ r,
        let key := c * 2 ^ 24 + sector * 32
        ∃ t : State, read (.uncorrectable r) = .next t ∧
          (others.length < 63 → ∃ e ∈ t.ras, e.cls = 2 ∧ e.index = c) ∧
          (s.commonOf key = none → t.repair = s.repair ∧
            (s.sliceHolds key = false → key / 32 ∈ t.heapPoison) ∧
            (s.sliceHolds key = true → t.heapPoison = s.heapPoison ∧ ∀ o, s.sharedOff key = some o →
              ∃ f, Map.find? t.coh.dir (o / 128) = some f ∧
                f.under.getLsbD (o / 32 % 4) = !s.heapPoison.contains (key / 32))) ∧
          (s.commonOf key ≠ none → key / 4096 ∈ t.repair ∧ key / 32 ∈ t.badSectors ∧ t.heapPoison = s.heapPoison))) ∧
    (∀ row n off, row ∈ s.repair → s.commonOf (row * 4096) = some (n, off) → s.tripped = false →
      let u := { s with repair := NSet.del s.repair row }
      let good := fun (ls : List Loc) => u.replicaKeys n off = some ls ∧ u.goodLocs ls = true ∧ u.lost (row * 4096) = false
      (∀ ls, good ls → (∀ i, i < 4096 → s.failing (row * 4096 + i) = false) →
        ∃ t : State, exec (.commonRepairComplete row true) s = .next t ∧ row ∉ t.repair ∧
          ∀ i, i < 4096 → some (t.heap.read (row * 4096 + i)) = (u.readLocs 0 ls).1[i]?) ∧
      (∀ ok, (ok = false ∨ ∀ ls, ¬ good ls) → ∃ t : State, exec (.commonRepairComplete row ok) s = .next t ∧ row ∉ t.repair ∧
        t.heap = s.heap ∧ (∀ k ∈ s.badSectors, k / 128 = row → k ∈ t.heapPoison)))) ∧
  (∀ (s : State) (b : Bool), s.tripped = false →
    let bad := fun x patrol => exec (.rakePatrol x patrol (.uncorrectable b)) s
    (∀ line (sec : Fin 4) patrol k f, Map.find? s.coh.dir line = some f → f.valid.getLsbD sec.val = true →
      s.sharedKey (line * 128 + sec.val * 32) = some k →
      ∃ t : State, bad (.sharedSector line sec) patrol = .next t ∧ k / 32 ∈ t.heapPoison ∧ t.heap = s.heap) ∧
    (∀ core word patrol, s.coreValid core.toNat = true → s.dieUp (coreDie core.toNat) = true → word * 8 < poolSize core.toNat →
      ∃ t : State, bad (.pool core word) patrol = .next t ∧ poolKey core.toNat (word * 8) / 32 ∈ t.poolPoison ∧ t.pool = s.pool) ∧
    (∀ r reg (lanes : Half) residue patrol g, Map.find? s.groups (refKey r) = some g →
      ∃ (t : State) (h : Group), bad (.lanes r reg lanes residue) patrol = .next t ∧ Map.find? t.groups (refKey r) = some h ∧
        (∀ k, k ∈ h.vpois ↔ k ∈ g.vpois ∨ ∃ i, inMask lanes i ∧ k = reg.toNat * 32 + i) ∧ h.v = g.v ∧ h.pc = g.pc) ∧
    (∀ r (reg : BitVec 6) residue patrol g, Map.find? s.groups (refKey r) = some g → reg ≠ 0 →
      ∃ (t : State) (h : Group), bad (.scalar r reg residue) patrol = .next t ∧ Map.find? t.groups (refKey r) = some h ∧
        (∀ k, k ∈ h.spois ↔ k ∈ g.spois ∨ k = reg.toNat) ∧ h.s = g.s ∧ h.pc = g.pc) ∧
    (∀ q patrol x, Map.find? s.queues q = some x →
      ∃ (t : State) (y : Queue), bad (.queueWord q) patrol = .next t ∧ Map.find? t.queues q = some y ∧ y.last = 8 ∧
        y.st = (if x.st = 1 then 5 else x.st) ∧ x.ctx ∈ t.failed) ∧
    (∀ sector patrol, ∃ t : State, bad (.hostSector sector) patrol = .next t ∧ sector ∈ t.hostPoison ∧ t.hostMem = s.hostMem))

/-- Clock steps, the cap, the brake, the Ebb detectors and temperature (R331 to R341, R406, Table 20-3): with the
clocks stopped by the thermal trip, nothing that a Pan die does of itself happens. Where the manual leaves a point
open, this states the model's choice: log entries 68 and 141. -/
def Obligations.supply_events_complete : Prop :=
  ∀ (s : State) (d : Fin 12),
    let sts := Reg.pwrDieSts d.val
    (∀ n, Map.find? s.power.stepChg d.val = some n → n < 16 →
      (s.dieStep d.val < n → Map.find? s.power.vcmd d.val = none) →
      ∃ t : State, exec (.stepChangeComplete d) s = .next t ∧ t.dieStep d.val = n ∧
        Map.find? t.power.stepChg d.val = none ∧
        (n < s.dieStep d.val → Map.find? t.power.vcmd d.val = some (n, 0) ∧
          t.out = .vcmd d.val (0xA000 + (stepVolt n - 500)) :: s.out)) ∧
    (∀ x, Map.find? s.power.vcmd d.val = some x →
      exec (.vcmdAck d) s = .next { s with power := { s.power with vcmd := Map.drop s.power.vcmd d.val } } ∧
      (x.2 < 2 → ∃ t : State, exec (.vcmdAckTimeout d) s = .next t ∧
        Map.find? t.power.vcmd d.val = some (x.1, x.2 + 1) ∧ t.out = .vcmd d.val (0xA000 + (stepVolt x.1 - 500)) :: s.out) ∧
      (2 ≤ x.2 → ∃ t : State, exec (.vcmdAckTimeout d) s = .next t ∧ Map.find? t.power.vcmd d.val = none ∧
        d.val ∈ t.power.held ∧ Map.find? t.power.stepChg d.val = none ∧ ∃ e ∈ t.ras, e.cls = 0x0B ∧ e.die = d.val)) ∧
    (∀ val : BitVec 32,
      let c := fld val.toNat 10 0
      let legal := 500 ≤ c ∧ c ≤ s.flash.order.capMax
      (legal → ∃ t : State, exec (.pwrCapWrite val) s = .next t ∧ t.rf .pwrCap 10 0 = c ∧ t.rf .pwrSts 1 1 = s.rf .pwrSts 1 1) ∧
      (¬ legal → ∃ t : State, exec (.pwrCapWrite val) s = .next t ∧ t.reg .pwrCap = s.reg .pwrCap ∧ t.rf .pwrSts 1 1 = 1)) ∧
    (∀ val : BitVec 32,
      let bad := bit val.toNat 8 = true ∧ 12 < fld val.toNat 3 0
      (bad → ∃ t : State, exec (.pwrFixedWrite val) s = .next t ∧ t.reg .pwrFixed = s.reg .pwrFixed ∧ t.rf .pwrSts 1 1 = 1) ∧
      (¬ bad → ∃ t : State, exec (.pwrFixedWrite val) s = .next t ∧ t.rf .pwrFixed 8 8 = fld val.toNat 8 8 ∧
        t.rf .pwrFixed 3 0 = fld val.toNat 3 0 ∧
        (t.rf .pwrSts 5 5 = 1 ↔ bit val.toNat 8 = true ∧ ∀ k, k < 12 → s.dieStep k = fld val.toNat 3 0))) ∧
    (∃ t : State, exec .brakeAssert s = .next t ∧ t.pins.brakeN = false ∧
      (d.val ∉ s.power.held → t.dieStep d.val = 0 ∧ Map.find? t.power.stepChg d.val = none ∧
        (s.dieStep d.val ≠ 0 → Map.find? t.power.vcmd d.val = some (0, 0))) ∧
      (d.val ∈ s.power.held → t.dieStep d.val = s.dieStep d.val)) ∧
    exec .brakeDeassert s = .next { s with pins := { s.pins with brakeN := true } } ∧
    (d.val ∉ s.power.stretch →
      let rate := s.rf .pwrEbbCtl 15 8
      let times := (Map.getD s.power.ebbTimes d.val []).filter (fun t => s.weirCtr.toNat < t + 100000)
      ∃ t : State, exec (.ebbStretch d) s = .next t ∧ d.val ∈ t.power.stretch ∧
        t.reg (.pwrEbbCnt d.val) = (s.reg (.pwrEbbCnt d.val) + 1) % 2 ^ 64 ∧
        (s.ras.length < 4096 → ∃ e ∈ t.ras, e.cls = 0x0B ∧ e.die = d.val) ∧
        (rate ≠ 0 → rate ≤ times.length → Map.find? t.power.ebbLimit d.val = some (s.dieStep d.val - 1)) ∧
        (rate = 0 ∨ times.length < rate → t.power.ebbLimit = s.power.ebbLimit)) ∧
    (d.val ∈ s.power.stretch →
      exec (.ebbStretchEnd d) s =
        .next { s with power := { s.power with stretch := NSet.del s.power.stretch d.val } }) ∧
    (∀ x, Map.find? s.power.ebbLimit d.val = some x →
      exec (.ebbLimitExpiry d) s =
        .next { s with power := { s.power with ebbLimit := Map.drop s.power.ebbLimit d.val } }) ∧
    (∀ temp, ∃ t : State, exec (.thermalSample d temp) s = .next t ∧ t.rf sts 47 40 = min temp 255 ∧
      t.dieStep d.val = s.dieStep d.val ∧
      (temp < 98 → d.val ∉ t.power.hot ∧ Map.find? t.power.thermCeil d.val = none ∧ t.ras = s.ras) ∧
      (98 ≤ temp → temp < 100 → t.power = s.power ∧ t.ras = s.ras) ∧ (100 ≤ temp → d.val ∈ t.power.hot) ∧
      (100 ≤ temp → temp < 105 → t.power.thermCeil = s.power.thermCeil ∧ t.ras = s.ras) ∧
      (105 ≤ temp → Map.find? t.power.thermCeil d.val = some 0 ∧ ∃ e ∈ t.ras, e.cls = 0x0C ∧ e.die = d.val) ∧
      (temp < 110 → t.rf .pwrSts 7 7 = s.rf .pwrSts 7 7 ∧ t.pins = s.pins) ∧
      (110 ≤ temp → t.rf .pwrSts 7 7 = 1 ∧ t.pins.alertN = [false, false])) ∧
    (s.tripped = true → ∀ (id line : Nat) (r : GroupRef) (c : Fin 672), ∀ i ∈ [Instr.mmaComplete id, .routeComplete id,
      .dmaCommandStart id, .dmaCommandComplete id, .rmoTargetApply id, .twaitReturn r, .swaitReturn r, .gets c line, .getm c line,
      .inv c line, .sharedSizeChangeComplete], exec i s = .next s)

/-- One control interval (R335, R336, R338, R344): the steps chosen fit the cap less 3% and the measured rest, or are
all 0; a die that may move, and whose last change has finished, begins a change to its step; the energy counter
advances; with the brake on every die wants step 0. Balancing (R342, R343): it starts only with its window exported,
its sessions open and its budget met; in a PERIOD the delta moves by at most 5% of the cap. Where the manual leaves a
point open, this states the model's choice: log entries 7, 67 and 128. -/
def Obligations.power_control_completes : Prop :=
  (∀ (s : State) (m : PowerSample),
     let v := s.learnAll m.dies
     let u := (((List.range 12).filter v.dieUp).foldl (fun (t : State) d => t.adoptUnit (12 + d)) v).lowerHot
     let phases := (List.range 12).map u.phaseOf
     let wants := (List.range 12).map (fun d => u.wantOf d (phases.getD d 0))
     (∀ d, d < 12 → wants.getD d 0 ≤ 15) →
     ∃ (t : State) (steps : List Nat), exec (.controlInterval m) s = .next t ∧ steps.length = 12 ∧
       (∀ d, d < 12 → steps.getD d 0 ≤ wants.getD d 0) ∧
       ((∀ d, d < 12 → steps.getD d 0 = 0) ∨
         ((((List.range 12).map (fun d => u.est d (phases.getD d 0) (steps.getD d 0))).sum : Nat) : Int) ≤
           (s.effCap * 970 : Nat) - (m.weirHeaps : Int)) ∧
       (∀ d, d < 12 → Map.find? t.power.stepChg d =
         if steps.getD d 0 = s.dieStep d ∨ s.changing d = true ∨ d ∈ s.power.held ∨ s.dieUp d = false ∨
           s.boot.mgmtDown = true ∨ s.boot.mgmtHalted = true ∨ s.rf .pwrSts 7 7 = 1 then Map.find? s.power.stepChg d
         else some (steps.getD d 0)) ∧
       (∀ d, d < 12 → t.dieStep d = s.dieStep d ∧ t.rf (.pwrDieSts d) 63 48 = min (m.dies.getD d 0 / 100) 0xFFFF ∧
         (s.pins.brakeN = false → t.rf (.pwrDieSts d) 31 28 = 0)) ∧
       t.reg .pwrEnergy = (s.reg .pwrEnergy + (m.weirHeaps + m.dies.sum) / 100) % 2 ^ 64 ∧
       (t.power.capStretch = true ↔ s.effCap * 1000 < m.mean100us ∧ ∀ d, d < 12 → s.dieStep d = 0) ∧
       t.power.capN = if t.power.capStretch = true then nextN s.power.capN else 0) ∧
  (∀ s : State,
     (∀ val : BitVec 64,
       let u := s.setReg .pwrBalCtl (Reg.written .pwrBalCtl 63 0 (s.reg .pwrBalCtl) val.toNat)
       let sts := fun (t : State) (on refused : Nat) => t.rf .pwrSts 3 3 = on ∧ t.rf .pwrSts 2 2 = refused
       (bit val.toNat 0 = false → ∃ t : State, exec (.balanceEnable val) s = .next t ∧ sts t 0 0 ∧ t.rf .pwrBalSts 31 16 = 0) ∧
       (bit val.toNat 0 = true →
         (u.balReady = true → ∃ t : State, exec (.balanceEnable val) s = .next t ∧ sts t 1 0 ∧ t.power.waitCyc = 0 ∧
           t.power.allCyc = 0) ∧
         (u.balReady = false → ∃ t : State, exec (.balanceEnable val) s = .next t ∧ sts t 0 1 ∧
           t.rf .pwrBalSts 31 16 = 0))) ∧
     (∀ w, s.balWindow = some w → s.rf .pwrSts 3 3 = 1 →
       let old := toSigned 16 (s.rf .pwrBalSts 31 16)
       ∃ t : State, exec .balancePeriod s = .next t ∧ t.power.balSeq = s.power.balSeq + 1 ∧ t.power.waitCyc = 0 ∧
         t.power.allCyc = 0 ∧ t.rf .pwrBalSts 15 0 = min s.waitFrac 0xFFFF ∧
         (-30000 ≤ old → old ≤ 30000 →
           let new := toSigned 16 (t.rf .pwrBalSts 31 16)
           (new - old) * 20 ≤ s.rf .pwrCap 10 0 ∧ (old - new) * 20 ≤ s.rf .pwrCap 10 0)))

/-! ### The die fabric -/

/-- Edges, correlation samples and the die-to-die version (R318, R319, R325, R327 to R329): a link leaves service at
both ends of its edge, and a die once rejected makes no further offer. Where the manual leaves a point open, this
states the model's choice: log entries 68, 79 and 139. -/
def Obligations.fabric_events_complete : Prop :=
  ∀ (s : State) (d : Fin 12),
    (∀ e : Fin 3, s.edgeUp d.val e.val = true →
      let r := Reg.panEdgeSts d.val e.val
      (∃ t : State, exec (.edgeFlitReplay d e) s = .next t ∧ t.rf r 63 48 = min (s.rf r 63 48 + 1) 0xFFFF ∧ t.rf r 0 0 = 1) ∧
      (∃ t : State, exec (.edgeLinkOutOfService d e) s = .next t ∧
        (t.edgeUp d.val e.val = true ↔ 1 < s.edgeLinks d.val e.val) ∧
        (∀ x ∈ edgeEnds d.val e.val, t.edgeLinks x.1 x.2 = s.edgeLinks x.1 x.2 - 1 ∧
          t.rf (.panEdgeSts x.1 x.2) 39 32 = s.edgeLinks x.1 x.2 - 1 ∧
          (s.edgeLinks x.1 x.2 ≤ 1 → t.edgeUp x.1 x.2 = false)) ∧
        ∃ x ∈ t.ras, x.cls = 8 ∧ x.die = d.val)) ∧
    (∀ e : Fin 2,
      let f := facing d.val e.val
      s.edgeUp d.val e.val = true → s.edgeUp f.1 f.2 = true → s.rf (.panEdgeSts d.val e.val) 3 2 = 2 →
      0x22 ≤ s.rf .glbD2dVer 7 0 → s.dieStep d.val = s.dieStep f.1 → Map.find? s.power.stepChg d.val = none →
      Map.find? s.power.stepChg f.1 = none →
      ∃ t : State, exec (.edgeMesochronousReturn d e) s = .next t ∧ t.rf (.panEdgeSts d.val e.val) 3 2 = 1 ∧
        t.rf (.panEdgeSts f.1 f.2) 3 2 = 1) ∧
    (s.boot.phase ≠ 0 → s.boot.phase ≠ 4 →
      let q := (s.corrSeq + 1) % 2 ^ 32
      let n := q % 16
      ∃ t : State, exec .correlationSample s = .next t ∧ t.rf (.glbCorrHdr n) 31 0 = q ∧
        t.reg (.glbCorrWeir n) = s.weirCtr.toNat ∧
        t.reg (.glbCorrPan n d.val) = (if s.dieUp d.val = true then s.dieTime d.val else 0) ∧
        (bit (t.rf (.glbCorrHdr n) 43 32) d.val = true ↔ s.dieUp d.val = false) ∧
        ∃ x ∈ t.bitternLog, x.cls = 0x11 ∧ x.detail = q) ∧
    (∀ vmin vmax : BitVec 8, s.boot.phase ≠ 0 → s.dieUp d.val = false → Map.find? s.boot.offers d.val = none →
      d.val ∉ s.boot.rejected →
      let active := s.rf .glbD2dVer 7 0
      let takes := 0x20 ≤ vmax.toNat ∧ vmin.toNat ≤ 0x23
      (¬ takes ∨ (active ≠ 0 ∧ (active < vmin.toNat ∨ vmax.toNat < active)) →
        ∃ t : State, exec (.d2dOffer d vmin vmax) s = .next t ∧ d.val ∈ t.boot.rejected ∧ t.boot.offers = s.boot.offers ∧
          t.regs = s.regs) ∧
      (takes → active = 0 → ∃ t : State, exec (.d2dOffer d vmin vmax) s = .next t ∧
        Map.find? t.boot.offers d.val = some (vmin.toNat, vmax.toNat) ∧ t.regs = s.regs) ∧
      (takes → active ≠ 0 → vmin.toNat ≤ active → active ≤ vmax.toNat →
        ∃ t : State, exec (.d2dOffer d vmin vmax) s = .next t ∧
          Map.find? t.boot.offers d.val = some (vmin.toNat, vmax.toNat) ∧
          (s.edgeLinks d.val 2 ≠ 0 → t.edgeUp d.val 2 = true) ∧ ∀ e : Fin 3, t.rf (.panEdgeSts d.val e.val) 23 16 = active)) ∧
    (∀ vmin vmax : BitVec 8, d.val ∈ s.boot.rejected → exec (.d2dOffer d vmin vmax) s = .next s) ∧
    (s.rf .glbD2dVer 7 0 = 0 → s.boot.offers ≠ [] → (∀ o ∈ s.boot.offers, o.1 < 12) →
      ∃ (t : State) (ver : Nat), exec .d2dHandshakeEnd s = .next t ∧ t.rf .glbD2dVer 7 0 = ver % 256 ∧ ver ≤ 0x23 ∧
        (∀ o ∈ s.boot.offers, ver ≤ o.2.2) ∧ (ver = 0x23 ∨ ∃ o ∈ s.boot.offers, ver = o.2.2) ∧
        (∀ o ∈ s.boot.offers, o.2.1 ≤ ver → (s.edgeLinks o.1 2 ≠ 0 → t.edgeUp o.1 2 = true) ∧ t.rf (.panEdgeSts o.1 2) 23 16 = ver % 256) ∧
        (∀ o ∈ s.boot.offers, ver < o.2.1 → o.1 ∈ t.boot.rejected))

/-! ### Links and sessions -/

/-- Link ports (R278 to R283, Tables 17-1, 17-3, 17-4): SPLIT and MEDIA change only while ENABLE is 0; clearing
ENABLE takes every sub-port down; identity changes only without a session; frames that are no Imwicel messages are
dropped and counted. Sessions open and close by their doorbell (R285, R286, R293): an entry in bad form or of a pair
already served is refused with STATUS 0x08, one of a partition that is not enabled with 0x09; any other begins its
handshake with HELLO. At a close the RMOs of which nothing is sent fail, and the session closes when the others have
ended. Timers and transmit rounds (R288, R290, R291, R293, R294, Table 17-12). Where the manual leaves a point open,
this states the model's choice: log entries 19, 20, 22, 80, 86, 127 and 133. -/
def Obligations.links_and_sessions : Prop :=
  (∀ s : State,
     (∀ (k : Fin 12) (val : BitVec 32),
       let r := Reg.lnkPortCtl k.val
       let v := val.toNat
       let split := if fld v 3 2 = 3 then s.rf r 3 2 else fld v 3 2
       let media := if fld v 5 4 = 3 then s.rf r 5 4 else fld v 5 4
       ∃ t : State, exec (.portControlWrite k val) s = .next t ∧ t.rf r 0 0 = fld v 0 0 ∧
         (s.rf r 0 0 = 0 → t.rf r 3 2 = split ∧ t.rf r 5 4 = media ∧ t.ras = s.ras) ∧
         (s.rf r 0 0 = 1 → t.rf r 3 2 = s.rf r 3 2 ∧ t.rf r 5 4 = s.rf r 5 4 ∧
           (split = s.rf r 3 2 → media = s.rf r 5 4 → t.ras = s.ras) ∧
           (fld v 0 0 = 0 → ∀ j, j < 4 → t.subUp (k.val * 4 + j) = false ∧ Map.find? t.txq (k.val * 4 + j) = none))) ∧
     (∀ n : Fin 48,
       (s.rf (.lnkPortCtl (n.val / 4)) 0 0 = 1 → s.subValid n.val = true → s.subUp n.val = false → s.readyFn (20 + n.val / 4) = true →
         ∃ t : State, exec (.subportLinkUp n) s = .next t ∧ t.subUp n.val = true ∧
           t.rf (.lnkPortSts (n.val / 4)) 23 16 = s.rf (.lnkPortSts (n.val / 4)) 23 16 ||| s.subLanes n.val) ∧
       (s.subUp n.val = true →
         ∃ t : State, exec (.subportLinkDown n) s = .next t ∧ t.subUp n.val = false ∧ Map.find? t.txq n.val = none ∧
           ∀ j : Fin 48, j ≠ n → t.subUp j.val = s.subUp j.val)) ∧
     (∀ (i : Fin 4) (val : BitVec 64),
       ((∃ x ∈ s.sessions, x.2.st = 0 ∨ x.2.st = 2) →
         exec (.linkIdentityWrite i val) s = .next (s.accessError 281 0 (identityReg i).key)) ∧
       ((∀ x ∈ s.sessions, x.2.st ≠ 0 ∧ x.2.st ≠ 2) →
         ∃ t : State, exec (.linkIdentityWrite i val) s = .next t ∧ t.sessions = s.sessions ∧
           (i = 0 → t.nodeId = fld val.toNat 15 0 ∧ t.incarnation = s.incarnation) ∧
           (i = 1 → t.rf .lnkEncap 31 16 = fld val.toNat 31 16 ∧ t.rf .lnkEncap 15 0 = fld val.toNat 15 0) ∧
           (i = 2 → t.rf .lnkIp6Hi 63 0 = val.toNat) ∧ (i = 3 → t.rf .lnkIp6Lo 63 0 = val.toNat))) ∧
     (∀ k : Fin 12, s.portUp k.val = true →
       (∀ c ∈ [Instr.controlFrame k, Instr.foreignFrame k], ∃ t : State, exec c s = .next t ∧
         t.reg (.lnkRxDrop k.val) = (s.reg (.lnkRxDrop k.val) + 1) % 2 ^ 64 ∧ t.out = s.out ∧ t.sessions = s.sessions) ∧
       ∃ t : State, exec (.fecUncorrectableFrame k) s = .next t ∧
         t.reg (.lnkFecUnc k.val) = (s.reg (.lnkFecUnc k.val) + 1) % 2 ^ 64 ∧ t.sessions = s.sessions) ∧
     (∀ m : Msg, s.subUp m.subport.val = true → (m.opc = 0 ∨ 0x0B < m.opc) → m.opc ≠ 0x10 → m.opc ≠ 0x11 →
       (m.opc < 0x20 ∨ 0x24 < m.opc) →
       exec (.reservedOpcMessage m) s = .next (s.rxDrop (m.subport.val / 4)))) ∧
  (∀ (s : State) (val : BitVec 64),
     let i := fld val.toNat 11 0
     (s.sessEntries ≤ i → exec (.sessionOpen val) s = .next (s.dropped 285 127) ∧
       exec (.sessionClose val) s = .next (s.dropped 285 127)) ∧
     (∀ f, i < s.sessEntries → s.ipaRead 127 (s.sessAddr i) 64 = .error f → ∀ c ∈ [Instr.sessionOpen val, Instr.sessionClose val],
       exec c s = .next (if f.code = 10 then s else s.tableFault 285 127 f false)) ∧
     (∀ bs, i < s.sessEntries → s.ipaRead 127 (s.sessAddr i) 64 = .ok (bs, false) →
       let u := s.noteIpa 127 (s.sessAddr i) 64 false
       let ends := fun (t : State) => t.endSess i
       let ws := (List.range 8).map (wordAt bs)
       let w0 := (ws.getD 0 0).toNat
       let p := fld w0 62 56
       let peer := fld w0 47 32
       let taken := ∃ x ∈ s.sessions, x.1 ≠ i ∧ x.2.part = p ∧ x.2.peer = peer
       let off := (p < 96 ∧ s.rf (.cfgPartSts p) 23 20 ≠ 1) ∨ (96 ≤ p ∧ p ≤ 126)
       (bit w0 63 = true →
         (s.sessBad ws = true ∨ taken → exec (.sessionOpen val) s = .next (u.sessStatus i 8 ends)) ∧
         (s.sessBad ws = false → ¬ taken → off → exec (.sessionOpen val) s = .next (u.sessStatus i 9 ends)) ∧
         (∀ f, s.sessBad ws = false → ¬ taken → ¬ off → u.ipaWrite 127 (s.sessAddr i + 6) [2#8] = .error f →
           exec (.sessionOpen val) s = .next (if f.code = 10 then u else u.tableFault 285 127 f true)) ∧
         (∀ x, s.sessBad ws = false → ¬ taken → ¬ off → u.ipaWrite 127 (s.sessAddr i + 6) [2#8] = .ok x →
           ∃ (t : State) (ss : Session), exec (.sessionOpen val) s = .next t ∧ Map.find? t.sessions i = some ss ∧
             ss.st = 2 ∧ ss.part = p ∧ ss.peer = peer ∧ ss.known = false ∧ ss.sent = [] ∧ ss.entry = ws ∧
             ((∃ n, n < 48 ∧ bit (ws.getD 4 0).toNat n = true ∧ s.subUp n = true) →
               ∃ m, Out.message m ∈ t.out ∧ m.opc = 0x20 ∧ m.dstNode = peer))) ∧
       (bit w0 63 = false →
         (Map.find? s.sessions i = none → exec (.sessionClose val) s = .next (u.sessStatus i 1 (fun (t : State) => t))) ∧
         (∀ ss, Map.find? s.sessions i = some ss → ∃ t : State, exec (.sessionClose val) s = .next t ∧
           Map.find? t.sessions i = some { ss with closing := true } ∧
           ∀ c ∈ t.rmo, c.on ss = true → c.begun = true))) ∧
     (∀ idx ss, Map.find? s.sessions idx = some ss → ss.closing = true → (∀ c ∈ s.rmo, c.on ss = false) →
       let u := (s.sendCtl idx 0x23 0 {} []).modSess idx (fun x => { x with closing := false })
       ∃ t : State, exec (.sessionCloseComplete idx) s = .next t ∧
         ((∃ v, u.ipaWrite 127 (s.sessAddr idx + 6) [1#8] = .ok v) → Map.find? t.sessions idx = none) ∧
         (ss.peer < 65536 → s.sessPorts ss ≠ [] → ∃ m, Out.message m ∈ t.out ∧ m.opc = 0x23))) ∧
  (∀ (s : State) (idx : Nat) (ss : Session), Map.find? s.sessions idx = some ss → ss.peer < 65536 →
     let lost := fun (t : State) => ∃ x, Map.find? t.sessions idx = some x ∧ x.st = 7 ∧ x.sent = [] ∧ x.known = false ∧
       ∀ c ∈ t.rmo, c.on ss = false
     let ports := s.sessPorts ss
     (ss.st = 5 → ∃ t : State, exec (.helloRetry idx) s = .next t ∧
       (∀ n, nextAfter ss.rr ports = some n → Sends s t 0x20 n) ∧ (ports = [] → t = s)) ∧
     (ss.st = 2 →
       (s.retryLimit ≤ ss.retries + 1 → ∃ t : State, exec (.retransmitTimeout idx) s = .next t ∧ lost t) ∧
       (ss.retries + 1 < s.retryLimit → ∃ (t : State) (x : Session), exec (.retransmitTimeout idx) s = .next t ∧
         Map.find? t.sessions idx = some x ∧ x.retries = ss.retries + 1 ∧ x.st = 2 ∧
         (∀ n, nextAfter ss.rr ports = some n → Sends s t 0x20 n))) ∧
     (ss.st = 0 →
       (∀ m rest, ss.sent = m :: rest →
         (s.retryLimit ≤ m.rounds + 1 → ∃ t : State, exec (.retransmitTimeout idx) s = .next t ∧ lost t) ∧
         (m.rounds + 1 < s.retryLimit → ∃ (t : State) (x : Session), exec (.retransmitTimeout idx) s = .next t ∧
           Map.find? t.sessions idx = some x ∧ x.st = 0 ∧ x.sent.map (fun y => y.psn) = ss.sent.map (fun y => y.psn) ∧
           ∃ y ∈ x.sent, y.psn = m.psn ∧ y.rounds = m.rounds + 1)) ∧
       (ss.ackCount ≠ 0 → ∃ t : State, exec (.ackTimer idx) s = .next t ∧
         (∀ n, ss.heldMsgs = [] → nextAfter ss.rr ports = some n →
           ∃ m : Msg, t.out = .message m :: s.out ∧ m.opc = 0x10 ∧ m.psn = (ss.rcvPsn + 2 ^ 24 - 1) % 2 ^ 24 ∧
             ∃ x, Map.find? t.sessions idx = some x ∧ x.ackCount = 0)) ∧
       (ss.waiting = [] → (∀ c ∈ s.rmo, c.on ss = true → c.count ≤ c.next) →
         ∃ t : State, exec (.keepaliveInterval idx) s = .next t ∧
           (∀ n, nextAfter ss.rr ports = some n → Sends s t 0x24 n) ∧ (ports = [] → t = s)) ∧
       (∃ t : State, exec (.peerSilence idx) s = .next t ∧ lost t)) ∧
     (∀ n : Fin 48, (∀ k, k < 4 → s.subUp (n.val / 4 * 4 + k) = false) →
       exec (.arbitrationRoundEnd n) s = .next (s.adoptUnit (n.val / 4))) ∧
     (∀ n : Fin 48, s.subUp n.val = true →
       let q := Map.getD s.txq n.val []
       ∃ t : State, exec (.arbitrationRoundEnd n) s = .next t ∧
         (∀ x ∈ q, Out.message x.2 ∈ t.out ∨ x ∈ Map.getD t.txq n.val []) ∧
         (∀ x rest, q = x :: rest → Map.getD s.deficits (n.val * 128 + x.1) 0 = 0 → 0 < s.roundBytes n.val x.1 →
           Out.message x.2 ∈ t.out)))

/-- A sequenced message (R284, R289, R290, R292, Table 17-9): one in bad form is dropped and counted, one of another
incarnation or of no open session is answered with NAK, a repeated one is acknowledged again; the next one in order
is applied, and the PSN expected advances; a response ends or advances its RMO. Where the manual leaves a point open,
this states the model's choice: log entries 21, 23 and 111. -/
def Obligations.sequenced_messages_complete : Prop :=
  ∀ p ∈ ([(Instr.putData, 0x01), (Instr.getRequest, 0x02), (Instr.getResponse, 0x03), (Instr.ratomMessage, 0x04),
      (Instr.ratomResponse, 0x05), (Instr.sigMessage, 0x06), (Instr.putsData, 0x07), (Instr.putsSignal, 0x08),
      (Instr.iputRow, 0x09), (Instr.redMessage, 0x0A), (Instr.comp, 0x0B)] : List ((Msg → Instr) × Nat)),
  ∀ (s : State) (m : Msg), m.opc = p.2 → s.subUp m.subport.val = true →
    let nak := fun r => exec (p.1 m) s = .next (s.answer m 0x11 r)
    (msgFormed m = false → exec (p.1 m) s = .next (s.rxDrop (m.subport.val / 4))) ∧
    (msgFormed m = true → m.dstInc ≠ s.incarnation → nak 5) ∧
    (msgFormed m = true → m.dstInc = s.incarnation → s.msgSess m = none → nak 6) ∧
    (∀ ss, msgFormed m = true → m.dstInc = s.incarnation → s.msgSess m = some ss →
      (ss.st ≠ 0 → nak 6) ∧ (ss.st = 0 → m.srcInc ≠ ss.peerInc → nak 5) ∧
      (ss.st = 0 → m.srcInc = ss.peerInc → lacks ss.version m = false →
        2 ^ 23 ≤ (m.psn + 2 ^ 24 - ss.rcvPsn) % 2 ^ 24 → exec (p.1 m) s = .next (s.sendAck m.dstSess))) ∧
    (∀ ss, NextInOrder s m ss →
      let u := s.withHeld m
      let idle := ∀ c ∈ s.rmo, c.on ss = true → c.count ≤ c.next
      let advances := fun (w : State) => ∃ x, Map.find? w.sessions m.dstSess = some x ∧ x.rcvPsn = (m.psn + 1) % 2 ^ 24 ∧
        x.heldMsgs = []
      let tag := Map.getD ss.tags m.tag (0, 0)
      (∀ o, idle → msgOp m = some o → u.squashing ss.part = false → (p.2 = 0x08 → tag.2 = 0 ∧ m.ndata ≤ tag.1) →
        (∀ v bs, u.applyT ss.part m.win m.off o = .ok v bs →
          ∃ w : State, exec (p.1 m) s = .next w ∧ advances w ∧ w.heap = v.heap ∧ w.pool = v.pool) ∧
        (∀ r, u.applyT ss.part m.win m.off o = .fail r →
          ∃ w : State, exec (p.1 m) s = .next w ∧ advances w ∧ w.heap = r.s.heap ∧ w.pool = r.s.pool) ∧
        (u.applyT ss.part m.win m.off o = .wait → ∃ (w : State) (x : Session), exec (p.1 m) s = .next w ∧
          Map.find? w.sessions m.dstSess = some x ∧ x.rcvPsn = m.psn ∧ x.heldMsgs = [(m.psn, m)])) ∧
      (∀ c, msgOp m = none → u.rmoTagged ss m.tag = some c →
        (m.status ≠ 0 → ∃ w : State, exec (p.1 m) s = .next w ∧ advances w ∧ ∀ o ∈ w.rmo, o.id ≠ c.id) ∧
        (m.status = 0 → ∃ w : State, exec (p.1 m) s = .next w ∧ advances w ∧
          (p.2 = 0x0B → w.pool = s.pool ∧ ∀ o ∈ w.rmo, o.id ≠ c.id) ∧
          (p.2 = 0x05 → w.pool = (s.rmoResult c m.off m.payload).pool ∧ ∀ o ∈ w.rmo, o.id ≠ c.id) ∧
          (p.2 = 0x03 → w.pool = (s.rmoResult c m.off m.payload).pool ∧
            (c.count ≤ c.acked + 1 → ∀ o ∈ w.rmo, o.id ≠ c.id) ∧
            (c.acked + 1 < c.count → ∃ o ∈ w.rmo, o.id = c.id ∧ o.acked = c.acked + 1)))))

/-- Acknowledgements and the handshake (R287, R288, R291, R293, Tables 17-9 and 17-10). A message that carries an old
incarnation of this device is answered with NAK 0x05, whether or not its session exists (R295). Where the manual
leaves a point open, this states the model's choice: log entry 22. -/
def Obligations.control_messages_complete : Prop :=
  ∀ (s : State) (m : Msg) (ss : Session),
    let sess := fun (w : State) => Map.find? w.sessions m.dstSess
    let zeros := ofLe ((m.payload.drop 5).take 3) = 0 ∧ ofLe (m.payload.drop 24) = 0
    (m.opc = 0x20 → s.subUp m.subport.val = true → msgFormed m = true → zeros →
      (∀ r, s.refusal m = some r → ∃ (w : State) (a : Msg), exec (.hello m) s = .next w ∧ Out.message a ∈ w.out ∧
        a.opc = 0x22 ∧ a.status = r ∧ a.dstNode = m.srcNode ∧ w.sessions = s.sessions ∧
        ∃ e ∈ w.ras, e.cls = 0x10 ∧ e.detail = r) ∧
      (s.refusal m = none → sess s = some ss → ss.st = 2 →
        ∃ (w : State) (x : Session), exec (.hello m) s = .next w ∧ sess w = some x ∧
        x.known = true ∧ x.peerInc = m.srcInc ∧ x.rcvPsn = helloIsn m ∧ x.version = min (helloV m 1) 0x12 ∧
        x.st = if ss.gotAck then 0 else 2)) ∧
    (Heard s m ss →
    (m.opc = 0x10 → ss.st = 0 → lacks ss.version m = false → ∃ w : State, exec (.ack m) s = .next w ∧
      (s.rmo = [] → ss.waiting = [] → ∃ x, sess w = some x ∧
        x.sent.map (fun y => y.psn) = (ss.sent.filter (fun y => !acked m.psn y.psn)).map (fun y => y.psn))) ∧
    (m.opc = 0x11 → ss.st = 0 →
      (m.status = 5 → ∃ (w : State) (x : Session), exec (.nak m) s = .next w ∧ sess w = some x ∧ x.st = 2 ∧ x.sent = [] ∧
        ∀ c ∈ w.rmo, c.on ss = false) ∧
      (m.status = 6 → ∃ (w : State) (x : Session), exec (.nak m) s = .next w ∧ sess w = some x ∧ x.st = 7 ∧
        ∀ c ∈ w.rmo, c.on ss = false)) ∧
    (m.opc = 0x21 → zeros → ss.closing = false → (ss.st = 2 ∨ ss.st = 5) → 0x10 ≤ helloV m 0 → helloV m 0 ≤ 0x12 →
      ∃ (w : State) (x : Session), exec (.helloAck m) s = .next w ∧ sess w = some x ∧ x.st = 0 ∧ x.gotAck = true ∧
        x.known = true ∧ (ss.known = false → x.peerInc = m.srcInc ∧ x.rcvPsn = helloIsn m ∧ x.version = helloV m 0)) ∧
    (m.opc = 0x22 → (ss.st = 2 ∨ ss.st = 5) → 1 ≤ m.status → m.status ≤ 4 →
      ∃ (w : State) (x : Session), exec (.refuse m) s = .next w ∧ sess w = some x ∧ x.st = refusedSt m.status ∧
        (2 ≤ m.status → ∀ c ∈ w.rmo, c.on ss = false)) ∧
    (m.opc = 0x23 → ss.known = true →
      ∃ (w : State) (x : Session), exec (.close m) s = .next w ∧ sess w = some x ∧ x.st = 7 ∧ x.known = false ∧
        ∀ c ∈ w.rmo, c.on ss = false) ∧
    (m.opc = 0x24 → exec (.keepalive m) s = .next s)) ∧
    (∀ p ∈ ([(Instr.ack, 0x10), (Instr.helloAck, 0x21), (Instr.refuse, 0x22), (Instr.close, 0x23), (Instr.keepalive, 0x24)] :
        List ((Msg → Instr) × Nat)),
      m.opc = p.2 → s.subUp m.subport.val = true → msgFormed m = true → (p.2 = 0x21 → zeros) → m.dstInc ≠ s.incarnation →
      exec (p.1 m) s = .next (s.answer m 0x11 5))

/-! ### Register accesses and host sites -/

/-- Accesses to registers through BAR0 (R7 to R9, R394, R396, R399, R401, R306): a read returns the register's value
with WO fields as 0; a write gives each field what its access code takes; an access of a form that the register has
not is logged, a read of that form returns 0 and a write of it changes no register; registers whose block is not
ready read their reset values (R310, R379), and writes to a die out of service are dropped. The BARs of a partition
mapped to site B are served there, and no other. Where the manual leaves a point open, this states the model's
choice: log entries 30, 31, 36 and 135. -/
def Obligations.register_access_completes : Prop :=
  ∀ (s : State) (a : RegAccess), a.bar2 = false →
    let answer := fun v => Host.Outcome.next (s.emit (.readData a.fn a.off a.size (BitVec.ofNat 64 v)))
    let part := fun w => if a.size = 8 then w else if a.off % 8 = 4 then fld w 63 32 else fld w 31 0
    let sized := (a.size = 4 ∨ a.size = 8) ∧ a.off % a.size = 0
    (a.fn = 0 → sized → ∀ r high, Reg.ofOffset a.off = some (r, high) →
      let down := panBase 0 ≤ r.key ∧ r.key < panBase 12 ∧ s.dieUp ((r.key - panBase 0) / 0x100000) = false
      let fits := a.size = 4 ∨ r.width = 64
      (¬ fits → a.read = false → exec (.registerWrite a) s = .next (s.accessError 9 0 a.off)) ∧
      (down → s.blockReady r = false) ∧
      (fits → a.read = true → s.blockReady r = false → exec (.registerWrite a) s = answer (part (r.shown r.resetVal))) ∧
      (fits → a.read = true → s.blockReady r = true → (∀ b i, r ≠ .dmaEngSts b i) →
        exec (.registerWrite a) s = answer (part (r.shown (s.reg r)))) ∧
      (fits → a.read = false → down → exec (.registerWrite a) s = .next (s.dropped 399 0x7F)) ∧
      (a.read = false → ¬ down → a.size = 4 → r.wholeOnly = true →
        exec (.registerWrite a) s = .next (s.accessError 396 0 a.off)) ∧
      (fits → a.read = false → (∃ p, p < 128 ∧ r ∈ [Reg.rstWdog p, .rasRingBase, .rasRingHead, .rstBtnSel, .schCtab p, .schQtab p,
          .schPsave p, .schQuantum p, .xltWinTab p]) →
        ∃ t : State, exec (.registerWrite a) s = .next t ∧ t.heap = s.heap ∧ t.out = s.out ∧
          (∀ q, q.key ≠ r.key → t.reg q = s.reg q) ∧
          t.reg r = if a.size = 8 then r.written 63 0 (s.reg r) a.val.toNat
            else if high = true then r.written 63 32 (s.reg r) (setFld (s.reg r) 63 32 a.val.toNat)
            else r.written 31 0 (s.reg r) (setFld (s.reg r) 31 0 a.val.toNat))) ∧
    (a.fn = 0 → a.off < 0x100000 → ¬ sized → a.read = false → exec (.registerWrite a) s = .next (s.accessError 9 0 a.off)) ∧
    (a.fn = 0 → sized → a.off < 0x100000 → Reg.ofOffset a.off = none →
      (a.read = true → exec (.registerWrite a) s = answer 0) ∧
      (a.read = false → exec (.registerWrite a) s = .next (s.accessError 394 0 a.off))) ∧
    (a.fn = 0 → sized → 0x100000 ≤ a.off → a.off < 0x101000 → a.read = false →
      ∃ t : State, exec (.registerWrite a) s = .next t ∧ t.regs = s.regs ∧
        (∀ i, i < a.size → t.mboxReq.read (a.off - 0x100000 + i) = BitVec.ofNat 8 (a.val.toNat / 256 ^ i)) ∧
        ∀ o, o < a.off - 0x100000 ∨ a.off - 0x100000 + a.size ≤ o → t.mboxReq.read o = s.mboxReq.read o) ∧
    (∀ p, a.fn = p + 1 → p < 96 →
      (s.siteOf p = 1 → exec (.sitebMmio a) s = exec (.registerWrite a) s) ∧
      (s.siteOf p = 0 → exec (.sitebMmio a) s = .next ((s.emit (.completion 1 a.fn 1)).dropped 306 p)) ∧
      (s.partOn p = true → a.off < 0x20000 → sized → a.read = true →
        exec (.registerWrite a) s = answer 0 ∧ (s.siteOf p = 1 → exec (.sitebMmio a) s = answer 0)) ∧
      (0xFC000 ≤ a.off → a.off < 0xFC070 → ¬ sized → a.read = false →
        exec (.registerWrite a) s = .next (s.accessError 9 a.fn a.off)) ∧
      (s.partOn p = false → 0xFD000 ≤ a.off → a.read = false → exec (.registerWrite a) s = .next (s.accessError 267 a.fn a.off)))

/-- A host site's link (R296 to R298, R308 to R310, Tables 18-1 and 18-6): training begins with the site's signals
and ends with the modules that trained; the others are logged; without the host's power the site is absent and its
link down; a link that stops exchanging flits is retrained, and is down when it is not back. PERST# of site A asks
for warm device reset; that of site B resets its own link alone. Requests of a host, interrupts and translations of a
site (R4, R20, R299, R301, R302, R304, R307, R310). The numbers of the completion statuses (0 successful, 1
Unsupported Request, 2 Retry, 3 not present) are the model's (log entry 25). Where the manual leaves a point open,
this states the model's choice: log entries 26, 27, 28, 29 and 110. -/
def Obligations.host_sites_complete : Prop :=
  (∀ (s : State),
     (∀ i : Fin 2, s.populated i.val = true →
       let r := Reg.hstLinkSts i.val
       let retrains := s.boot.retraining.getD i.val false
       (∃ t : State, exec (.hostPowerGood ⟨i, false⟩) s = .next t ∧ t.pins.hstPwrGd = s.pins.hstPwrGd.set i.val false ∧
         t.rf r 1 1 = 0 ∧ (s.alive = true → t.rf r 0 0 = 0)) ∧
       (∃ t : State, exec (.hostPowerGood ⟨i, true⟩) s = .next t ∧ t.pins.hstPwrGd = s.pins.hstPwrGd.set i.val true ∧
         t.pins.perstN = s.pins.perstN.set i.val true ∧ (s.alive = true → t.rf r 0 0 = 1) ∧ t.rf r 1 1 = s.rf r 1 1) ∧
       (∀ (trained : BitVec 4) (fast : Bool), s.pins.hstPwrGd.getD i.val false = true → s.pins.perstN.getD i.val false = true →
         s.pins.devPwrGd.getD i.val false = true → s.rf r 1 1 = 0 ∨ retrains = true →
         let m := trained.toNat % 2 ^ (if i.val = 0 then 4 else 2)
         ∃ t : State, exec (.hostLinkUp i trained fast) s = .next t ∧ t.rf r 11 8 = m ∧
           (m = 0 → t.rf r 1 1 = s.rf r 1 1) ∧
           (m ≠ 0 → t.rf r 1 1 = 1 ∧ t.rf r 15 12 = inUse i.val m ∧ t.rf r 23 20 = (if fast then 2 else 1) ∧
             t.readyFn i.val = true ∧ t.boot.retraining = s.boot.retraining.set i.val false) ∧
           (s.ras.length + 4 ≤ 4096 → ∀ n, n < (if i.val = 0 then 4 else 2) → bit m n = false →
             ∃ e ∈ t.ras, e.cls = 8 ∧ e.unit = 7 ∧ e.index = i.val * 4 + n)) ∧
       (s.rf r 1 1 = 1 →
         (∃ t : State, exec (.ucieFlitReplay i) s = .next t ∧ t.reg (.hstCrcRetry i.val) = (s.reg (.hstCrcRetry i.val) + 1) % 2 ^ 64 ∧
           t.rf r 1 1 = 1) ∧
         (retrains = false → ∃ t : State, exec (.hostLinkRetrain i) s = .next t ∧ t.rf r 1 1 = 1 ∧
           t.rf r 47 32 = min (s.rf r 47 32 + 1) 0xFFFF ∧ t.boot.retraining = s.boot.retraining.set i.val true)) ∧
       (retrains = true → ∃ t : State, exec (.hostLinkDown i) s = .next t ∧ t.rf r 1 1 = 0 ∧ t.rf r 23 20 = 0 ∧
         t.rf r 15 12 = 0 ∧ t.readyFn i.val = false ∧ t.boot.retraining = s.boot.retraining.set i.val false)) ∧
     (∃ t : State, exec .siteAPerst s = .next t ∧ t.pins.perstN = s.pins.perstN.set 0 false ∧ t.heap = s.heap ∧
       (s.alive = true → ∃ e ∈ t.resetQ, e.level = 4 ∨ e.level = 5)) ∧
     (∃ t : State, exec .siteBPerst s = .next t ∧ t.pins.perstN = s.pins.perstN.set 1 false ∧ t.rf (.hstLinkSts 1) 1 1 = 0 ∧
       t.resetQ = s.resetQ ∧ t.queues = s.queues ∧ t.heap = s.heap ∧ t.rf (.hstLinkSts 0) 1 1 = s.rf (.hstLinkSts 0) 1 1 ∧
       (s.rf (.hstLinkSts 1) 1 1 = 1 → t.readyFn 1 = false))) ∧
  (∀ (s : State),
     (∀ m, (s.populated 1 = false → exec (.sitebTrainRequest m) s = .next (s.emit (.completion 1 0 3))) ∧
       (s.populated 1 = true → exec (.sitebTrainRequest m) s = .next s)) ∧
     (∀ off write, exec (.sitebConfigAccess off write) s = .next ((s.emit (.completion 1 0 1)).dropped 20 0x7F)) ∧
     (∀ (site : Fin 2) fn what, fn ≤ 96 → exec (.unsupportedRequest site fn what) s =
       .next ((s.emit (.completion site.val fn 1)).dropped 299 (if fn = 0 then 0x7F else fn - 1))) ∧
     (∀ fn off write,
       (96 < fn → exec (.configRequest fn off write) s = .next (s.emit (.completion 0 fn 1))) ∧
       (fn ≤ 96 → s.readyFn 0 = false ∨ (1 ≤ fn ∧ s.rf (.cfgPartSts (fn - 1)) 23 20 = 2) →
         exec (.configRequest fn off write) s = .next (s.emit (.completion 0 fn 2)))) ∧
     (∀ fn off, fn ≤ 96 → s.readyFn 0 = true → (1 ≤ fn → s.rf (.cfgPartSts (fn - 1)) 23 20 ≠ 2) →
       (∃ (t : State) (v : Word), exec (.configRequest fn off none) s = .next t ∧
         t.out = .readData fn off 4 v :: s.out ∧ t.regs = s.regs ∧ t.cfg = s.cfg ∧
         (off < 4 → v.toNat = (if fn = 0 then 0x7012 else 0x7013) * 2 ^ 16 + Config.vendorId.toNat) ∧
         (fn = 0 → off / 4 = 4 → v.toNat = Map.getD s.cfg 4 0 / 2 ^ 27 % 32 * 2 ^ 27 + 4)) ∧
       (∀ w : BitVec 32, ∃ t : State, exec (.configRequest fn off (some w)) s = .next t ∧ t.out = .completion 0 fn 0 :: s.out ∧
         Map.find? t.cfg (fn * 1024 + off / 4 % 1024) = some w.toNat ∧ t.regs = s.regs)) ∧
     (∀ (high : Bool) (val : BitVec 64),
       (s.populated 1 = false → exec (.sitebMapWrite high val) s = .next s) ∧
       (s.populated 1 = true → ∃ t : State, exec (.sitebMapWrite high val) s = .next t ∧ ∀ p, p < 96 →
         ((64 ≤ p ↔ high = true) → s.partOn p = false → t.siteOf p = if bit val.toNat (p % 64) = true then 1 else 0) ∧
         ((64 ≤ p ↔ high = false) ∨ s.partOn p = true → t.siteOf p = s.siteOf p))) ∧
     (∀ fn v, v < (if fn = 0 then 64 else 32) →
       let e := Map.getD s.msix (fn * 64 + v) ⟨0, 0, true, false⟩
       ∃ t : State, exec (.msixUnmask fn v) s = .next t ∧
         Map.find? t.msix (fn * 64 + v) = some ⟨e.addr, e.data, false, false⟩ ∧
         t.out = (if e.pend = true then .msix (if fn = 0 then 0 else s.siteOf (fn - 1)) fn v :: s.out else s.out) ∧
         ∀ k, k ≠ fn * 64 + v → Map.find? t.msix k = Map.find? s.msix k) ∧
     (∀ (site : Fin 2) pasid page pages, ∃ t : State, exec (.atsInvalidation site pasid page pages) s = .next t ∧
       t.out = .atsDone site.val :: s.out ∧ t.heap = s.heap ∧ t.regs = s.regs ∧ ∀ e, e ∈ t.tlb ↔ e ∈ s.tlb ∧
         ¬ (e.die = 15 ∧ spaceOf e.dpa = 3 ∧ s.siteOf e.part = site.val ∧ s.pasid e.ctx = pasid ∧
           e.dpa % 2 ^ 48 / 4096 < page + pages ∧ page * 4096 < e.dpa % 2 ^ 48 + e.size)))

/-! ### Watchdogs, suspects and replay -/

/-- Watchdogs (R366, R367, Table 22-1): the launch that hangs is ended with packet status 2, its queued matrix
commands, DMA commands and RMOs end with it, and it is marked as a hang suspect, one that was ending already as well;
a suspended group that a preemption saved keeps its watchdog; a DMA packet's command completes with 0x0B. The end of
a launch and of a replay (R69, R367, R375 to R377): a launch that no watchdog ended leaves with its status; the
suspect of a hang is kept for its replay where its packet may be replayed, and otherwise fails its context; a replay
that completes clears its suspect, one that hangs again fails its context; a core whose launch does not end within
100 µs is hung, every launch with work on it is a suspect, and the engines that did not stop are reset. Where the
manual leaves a point open, this states the model's choice: log entries 70 and 71. -/
def Obligations.hang_recovery_completes : Prop :=
  (∀ (s : State),
     let ends := fun (t : State) (id : Nat) => Ending t id ∧ (∃ l, Map.find? t.launches id = some l ∧ l.suspect = true) ∧
       (∀ c ∈ t.mtx, c.org.launch ≠ some id) ∧ (∀ c ∈ t.dma, c.org.launch ≠ some id) ∧ ∀ c ∈ t.rmo, c.org.launch ≠ some id
     let fails := fun (t : State) (id : Nat) => ∃ l, Map.find? t.launches id = some l ∧ l.status = 2
     (∀ id l, Map.find? s.launches id = some l → (∀ x ∈ s.suspects, x.id ≠ id) →
       (l.phase = .running ∨ l.phase = .preempting → ∃ t : State, exec (.launchWatchdog id) s = .next t ∧ ends t id ∧ fails t id) ∧
       (l.phase = .failing → ∃ t : State, exec (.launchWatchdog id) s = .next t ∧
         (∃ h, Map.find? t.launches id = some h ∧ h.suspect = true) ∧ (∀ c ∈ t.mtx, c.org.launch ≠ some id) ∧
         (∀ c ∈ t.dma, c.org.launch ≠ some id) ∧ ∀ c ∈ t.rmo, c.org.launch ≠ some id)) ∧
     (∀ c ∈ s.dma, (∀ o ∈ s.dma, o.id = c.id → o = c) → s.inReplay c.id = false →
       (c.pkt = true → s.inReplay (c.org.launch.getD 0) = false → ∃ t : State, exec (.dmaWatchdog c.id) s = .next t ∧
         (∀ o ∈ t.dma, o.id ≠ c.id) ∧ t.launches = s.launches) ∧
       (∀ id l, c.pkt = false → c.org.launch = some id → s.inReplay id = false → Map.find? s.launches id = some l →
         l.phase = .running → ∃ t : State, exec (.dmaWatchdog c.id) s = .next t ∧ ends t id ∧ fails t id)) ∧
     (∀ c ∈ s.mtx, (∀ o ∈ s.mtx, o.id = c.id → o = c) → ∀ id l, c.org.launch = some id → s.inReplay id = false →
       Map.find? s.launches id = some l → l.phase = .running →
       ∃ t : State, exec (.matrixWatchdog c.id) s = .next t ∧ ends t id ∧ fails t id) ∧
     (∀ (r : GroupRef) (g : Group) l, Map.find? s.groups (refKey r) = some g → (∃ a b c d e w0 w1, g.stat = .susp a b c d e w0 w1) →
       s.inReplay g.launch = false → Map.find? s.launches g.launch = some l → l.phase = .running →
       ∃ t : State, exec (.suspendWatchdog r) s = .next t ∧ ends t g.launch ∧ fails t g.launch) ∧
     (∀ (r : GroupRef) id l, Map.find? s.groups (refKey r) = none → s.savedSusp r = some id → Map.find? s.launches id = some l →
       l.phase = .preempted → ∃ t : State, exec (.suspendWatchdog r) s = .next t ∧ ends t id ∧ fails t id)) ∧
  (∀ (s : State),
     let gone := fun (t : State) (id : Nat) => ∀ y ∈ t.suspects, y.id ≠ id
     (∀ id l, Map.find? s.launches id = some l → (∀ x ∈ s.groups, x.2.launch ≠ id) → s.busyLaunch id = false →
       l.phase = .running ∨ l.phase = .failing → gone s id →
       (l.suspect = false → ∃ t : State, exec (.launchComplete id) s = .next t ∧ Map.find? t.launches id = none ∧
         (t.queue l.queue).started = (s.queue l.queue).started.map (fun p => p.launchDone id l) ∧
         ∀ x ∈ t.mtxHolder, x.2 ≠ id) ∧
       (l.suspect = true → s.launchReplayable l = true → l.ctx ∉ s.failed →
         ∃ t : State, exec (.launchComplete id) s = .next t ∧ t.failed = s.failed ∧
           ∃ y ∈ t.suspects, y.id = id ∧ y.ctx = l.ctx) ∧
       (l.suspect = true → s.launchReplayable l = false ∨ l.ctx ∈ s.failed →
         ∃ t : State, exec (.launchComplete id) s = .next t ∧ Map.find? t.launches id = none ∧ l.ctx ∈ t.failed)) ∧
     (∀ x ∈ s.suspects, (∀ y ∈ s.suspects, y.id = x.id → y = x) → x.replaying = true →
       (x.isDma = true → (∀ c ∈ s.dma, c.id ≠ x.id) → ∃ t : State, exec (.replayComplete x.id) s = .next t ∧ gone t x.id) ∧
       (∀ l, x.isDma = false → Map.find? s.launches x.id = some l → (∀ g ∈ s.groups, g.2.launch ≠ x.id) →
         s.busyLaunch x.id = false →
         ∃ t : State, exec (.replayComplete x.id) s = .next t ∧ gone t x.id ∧ Map.find? t.launches x.id = none) ∧
       (∃ t : State, exec (.replayWatchdog x.id) s = .next t ∧ gone t x.id ∧ x.ctx ∈ t.failed)) ∧
     (∀ (core : CoreRef) (es : List (BitVec 3 × BitVec 4)), core.toNat ∉ s.hung →
       Map.find? s.partOps (s.basinOwner (coreBasin core.toNat)) = none →
       let stuck := fun (l : Launch) => l.core = core.toNat ∧ l.phase = .failing
       ((∃ x ∈ s.launches, stuck x.2 ∧ x.2.replay = true) → ∃ t : State, exec (.stopTimeout ⟨core, es⟩) s = .next t ∧
         core.toNat ∈ t.hung ∧ Covers t 2 core.toNat 0 0 ∧ ∃ e ∈ t.ras, e.cls = 0x0E ∧ e.index = core.toNat) ∧
       ((∃ x ∈ s.launches, stuck x.2 ∧ x.2.suspect = true) → (∀ x ∈ s.launches, stuck x.2 → x.2.replay = false) →
         ∃ t : State, exec (.stopTimeout ⟨core, es⟩) s = .next t ∧ core.toNat ∈ t.hung ∧
           (∀ e ∈ es, engineExists core.toNat e.1.toNat e.2.toNat = true → Covers t 1 core.toNat e.1.toNat e.2.toNat) ∧
           (∀ id l, Map.find? s.launches id = some l → l.core = core.toNat → gone s id →
             l.phase ≠ .failing ∨ s.busyLaunch id = true → ∃ y ∈ t.suspects, y.id = id) ∧
           ∀ id l, Map.find? s.launches id = some l → l.core = core.toNat → l.phase ≠ .failing → gone s id → Ending t id)))

/-! ### The reset ladder -/

/-- What asks for a step (R340, R348, R366, R370, R373, R374, Tables 22-1 and 22-5): a step of the unit, or a wider
one, is then asked for or runs; RST_REQ answers a unit that does not exist with RESULT 3 and one that cannot be reset
now with 4. The end of a step (R370, R377, Table 22-3): once the last step of a core is complete it issues again, and
RST_STS shows the last step since warm device reset; of the steps that run, the one whose bound ends first escalates
to the next when it is not complete then. Where the manual leaves a point open, this states the model's choice: log
entries 73, 74 and 75. -/
def Obligations.reset_ladder_requests : Prop :=
  (∀ (s : State),
     (∃ t : State, exec .weirNoResponse s = .next t ∧ Covers t 4 0 0 0 ∧ ∃ e ∈ t.ras, e.cls = 0x0E ∧ e.detail = 4) ∧
     (∀ d : Fin 12, ∃ t : State, exec (.sharedUnitNoResponse d) s = .next t ∧ Covers t 3 d.val 0 0 ∧
       ∃ e ∈ t.ras, e.cls = 0x0E ∧ e.detail = 4 ∧ e.die = d.val) ∧
     (∀ p : Fin 96, p.val ∈ s.quarantined → ∃ t : State, exec (.sluiceTimeout p) s = .next t ∧ Covers t 4 0 0 0) ∧
     (s.alive = true → ∀ d : Fin 13, ∀ c ∈ [Instr.ebbReset d, Instr.pllLockLoss d],
       ∃ t : State, exec c s = .next t ∧ (if d.val < 12 then Covers t 3 d.val 0 0 else Covers t 4 0 0 0) ∧
         ∃ e ∈ t.ras, e.cls = 0x0B) ∧
     (∀ (v : BitVec 64) (c : Instr), c ∈ [Instr.rstReqEngine v, .rstReqCore v, .rstReqDie v, .rstReqWarm v, .rstReqCold v] →
       let w := v.toNat
       let level := fld w 3 0
       let unit := if level ≥ 4 then 0 else fld w 26 16
       let r : ResetReq := ⟨level, unit, fld w 6 4, fld w 10 7, false, false, false, true, 0, 0, 0, 0, 0, 0⟩
       let refused := s.resetPart r ∈ s.quarantined ∨ s.insidePart r = true ∨ ∃ e ∈ s.resetQ, s.inScope r e = true ∧ s.inScope e r = false
       ∃ t : State, exec c s = .next t ∧ t.rf .rstSts 39 32 = fld w 39 32 ∧
         (s.rstUnit r = false → t.rf .rstSts 11 8 = 3 ∧ t.resetQ = s.resetQ) ∧
         (s.rstUnit r = true → refused → t.rf .rstSts 11 8 = 4 ∧ t.resetQ = s.resetQ) ∧
         (s.rstUnit r = true → ¬ refused → t.rf .rstSts 11 8 = 1 ∧ Covers t level unit (fld w 6 4) (fld w 10 7)))) ∧
  (∀ (s : State) (r : ResetReq),
     (s.resetQ.find? (fun e => e.applied && s.stepDone e) = some r →
       ∃ t : State, exec .resetStepComplete s = .next t ∧ t.resetQ = s.resetQ.erase r ∧
         (r.level ≤ 2 → (∀ e ∈ s.resetQ.erase r, e.level ≤ 2 → e.unit ≠ r.unit) → r.unit ∉ t.hung) ∧
         (r.level ∈ [1, 2, 3, 6] → t.rf .rstSts 3 0 = max (s.rf .rstSts 3 0) (if r.level = 6 then 3 else r.level) ∧
           (r.pf0 = true → t.rf .rstSts 11 8 = if r.escalated = true then 2 else 0))) ∧
     (r ∈ s.resetQ → r.collected = true →
       (∀ e ∈ s.resetQ.erase r, e.collected = true → r.began + stepBound r.level < e.began + stepBound e.level) →
       ∃ t : State, exec .resetEscalation s = .next t ∧
         (r.level = 1 → Map.find? s.partOps (s.basinOwner (coreBasin r.unit)) = none → Covers t 2 r.unit 0 0) ∧
         (r.level = 2 → s.basinOwner (coreBasin r.unit) < 96 → Covers t 6 (s.basinOwner (coreBasin r.unit)) 0 0) ∧
         (r.level = 2 → s.basinOwner (coreBasin r.unit) = 127 → Covers t 4 0 0 0) ∧
         (r.level = 3 → Covers t 4 0 0 0) ∧ (r.level = 4 → Covers t 5 0 0 0) ∧
         (r.level = 6 → r.unit ∈ t.quarantined) ∧
         (r.level = 5 → t.boot.phase = 4 ∧ t.pins.alertN = [false, false] ∧ t.pins.brdAlertN = false)))

/-- The steps (R368 to R373, Tables 22-2 to 22-4): what each ends, clears and leaves. Where the manual leaves a point
open, this states the model's choice: log entries 72, 73 and 75. -/
def Obligations.reset_steps_complete : Prop :=
  ∀ (s : State) (r : ResetReq),
    let applied := fun (t : State) => { r with applied := true } ∈ t.resetQ
    (s.collecting = some r → ∀ b, ∃ t : State, exec (.collectionComplete b) s = .next t ∧
      t.rf .rstBtnSts 63 32 = (s.rf .rstBtnSts 63 32 + 1) % 2 ^ 32 ∧
      (∃ c, t.bittern.head? = some c ∧ c.words.length = 8 ∧ c.slot = t.rf .rstBtnSts 6 0 % 128) ∧
      (r.level ≠ 6 → { r with collected := true, applied := false, began := s.weirCtr.toNat } ∈ t.resetQ)) ∧
    (∀ u : EngineRef, s.stepFor (fun e => e.level == 1 && e.unit == u.core.toNat && e.ekind == u.kind.toNat &&
        e.eidx == u.idx.toNat) = some r →
      ∃ t : State, exec (.engineReset u) s = .next t ∧ applied t ∧
        (∀ id ∈ s.onEngine u.core.toNat u.kind.toNat u.idx.toNat, ∀ l, Map.find? s.launches id = some l →
          l.phase ≠ .failing → Ending t id) ∧
        (u.kind = 0 → ∀ x ∈ t.acc, x.1 / 1024 ∉ coreSets u.core.toNat) ∧
        (u.kind = 3 → ∀ c ∈ t.dma, c.pkt = true → ¬ (c.org.core = u.core.toNat ∧ c.chan = u.idx.toNat))) ∧
    (∀ (core : CoreRef) (answers : Bool), s.stepFor (fun e => e.level == 2 && e.unit == core.toNat) = some r →
      Map.find? s.modeChg (coreBasin core.toNat) = none →
      ∃ t : State, exec (.coreReset core answers) s = .next t ∧ applied t ∧ ∀ c ∈ s.coresNow core.toNat,
        (∀ id l, Map.find? s.launches id = some l → l.core = c → l.phase ≠ .failing → Ending t id) ∧
        (∀ x ∈ t.coh.l1, x.1 / 2 ^ 23 ∉ coreCaches c) ∧ Map.find? t.mtxHolder c = none ∧
        (∀ x ∈ t.icache, x.1 / 2 ^ 24 ∉ icachesOf c) ∧ ∀ x ∈ t.acc, x.1 / 1024 ∉ coreSets c) ∧
    (∀ d : Fin 12, s.stepFor (fun e => e.level == 3 && e.unit == d.val) = some r →
      ∃ t : State, exec (.dieReset d) s = .next t ∧ t.dieUp d.val = false ∧ d.val ∈ t.dieReset ∧ t.dieTime d.val = 0 ∧
        (∀ id l, Map.find? t.launches id = some l → coreDie l.core = d.val → l.phase = .failing) ∧
        (∀ x ∈ t.coh.l1, cacheDie (x.1 / 2 ^ 23) ≠ d.val) ∧ (∀ e ∈ t.tlb, e.die ≠ d.val) ∧
        (∀ b i k, b < 8 → i < 7 → k < 2 ^ 22 → t.pool.read (((d.val * 8 + b) * 8 + i) * 2 ^ 22 + k) = 0)) ∧
    (s.stepFor (fun e => e.level == 4) = some r →
      ∃ t : State, exec .warmDeviceReset s = .next t ∧ t.resetQ = [{ r with applied := true }] ∧ t.groups = [] ∧
        t.launches = [] ∧ t.dma = [] ∧ t.queues = [] ∧ t.sessions = [] ∧ t.pool = [] ∧ t.tlb = [] ∧ (∀ d, d < 12 → t.dieUp d = false) ∧
        t.flash.incarnation = s.flash.incarnation + 1 ∧ (t.boot.phase = 1 ∨ t.boot.phase = 3)) ∧
    (s.stepFor (fun e => e.level == 5) = some r →
      ∃ t : State, exec .coldReset s = .next t ∧ t.resetQ = [{ r with applied := true }] ∧ t.groups = [] ∧
        t.launches = [] ∧ t.queues = [] ∧ t.sessions = [] ∧ t.pool = [] ∧ t.heap = [] ∧ t.heapPoison = [] ∧
        (∀ d, d < 12 → t.dieUp d = false) ∧
        t.flash.incarnation = s.flash.incarnation + 1 ∧ (t.boot.phase = 1 ∨ t.boot.phase = 3))

/-! ### Bring-up and the board -/

/-- Power, reset pins and rails (R382 to R385, R407 to R409, Table 25-4): a boot with its rails in tolerance takes
for each of its three images the bank of the higher SVN, A on a tie, whose four checks pass, and enters recovery
where an image has none, a required record has no valid copy, or the flash or its counters are missing; loss of power
loses all but the flash. Firmware and the ready map (R361, R379, R380, R383): the ROM tries the other bank, then
recovery; a function's bit is set when its self-test passes, and PF0 vector 3 reports it; bring-up ends with every
clear function logged; a lockstep mismatch stops the management controller until it has restarted, with the cap held,
and a second one within 10 s for good. Where the manual leaves a point open, this states the model's choice: log
entries 37, 38, 76, 77 and 134. -/
def Obligations.bring_up_completes : Prop :=
  (∀ (s : State),
     (s.pins.pwrGood = false → ∀ b : BootReport,
       let good := fun (x : Sig) => x = ⟨true, true, true, true⟩
       let ok := fun (i : Image) => good i.sig ∧ s.flash.fwSvn ≤ i.svn.toNat
       let usable := b.flashOk = true ∧ 4 ≤ b.counters ∧ (∃ x ∈ b.sku, good x) ∧ (∃ x ∈ b.leakage, good x) ∧
         ∀ x ∈ [b.mgmt, b.power, b.pan], ok x.1 ∨ ok x.2
       let takes := fun (run : Bool) (x : Image × Image) => (run = true ↔ ok x.2 ∧ (¬ ok x.1 ∨ x.1.svn.toNat < x.2.svn.toNat))
       ∃ t : State, exec (.powerGoodRise b) s = .next t ∧ t.pins.pwrGood = true ∧
         (b.railsOk = false → t.boot.phase = 4 ∧ t.pins.brdAlertN = false ∧ t.regs = s.regs) ∧
         (b.railsOk = true → t.flash.incarnation = s.flash.incarnation + 1) ∧
         (b.railsOk = true → usable → t.boot.phase = 1 ∧ t.pins.devPwrGd = [true, s.flash.order == .sab] ∧
           takes t.flash.mgmt.run b.mgmt ∧ takes t.flash.power.run b.power ∧ takes t.flash.pan.run b.pan ∧
           t.rf .secSts 23 16 = (if t.flash.mgmt.run = true then b.mgmt.2 else b.mgmt.1).svn.toNat ∧
           t.rf .secSts 11 8 = (if (∃ x ∈ b.helper, good x) then (if b.pufOk = true then 0 else 2) else 1)) ∧
         (b.railsOk = true → ¬ usable → t.boot.phase = 3 ∧ t.pins.devPwrGd = [false, false] ∧
           t.pins.alertN = [false, false] ∧ t.rf .secSts 2 2 = 1)) ∧
     (s.pins.pwrGood = true → ∃ t : State, exec .powerGoodFall s = .next t ∧ t.regs = [] ∧ t.heap = [] ∧ t.pool = [] ∧
       t.groups = [] ∧ t.queues = [] ∧ t.ras = [] ∧ t.boot.phase = 0 ∧ t.flash = s.flash ∧ t.hostMem = s.hostMem) ∧
     (∃ t : State, exec .coldRstAssert s = .next t ∧ t.pins.coldRstN = false ∧ t.heap = s.heap ∧
       (s.alive = true → Covers t 5 0 0 0)) ∧
     (s.alive = true →
       (∀ d : Fin 12, exec (.railFault (.core d)) s = .next s ∧
         (∀ x ∈ [Rail.sram d, Rail.heap d], ∃ t : State, exec (.railFault x) s = .next t ∧ Covers t 3 d.val 0 0) ∧
         (∀ x ∈ [Rail.lnk d, Rail.lnkh d], ∃ t : State, exec (.railFault x) s = .next t ∧ t.readyFn (20 + d.val) = false ∧
           ∀ j, j < 4 → t.subUp (d.val * 4 + j) = false)) ∧
       (∃ t : State, exec (.railFault .ucie) s = .next t ∧ t.readyFn 0 = false ∧ t.readyFn 1 = false ∧
         t.pins.devPwrGd = [false, false]) ∧
       (∃ t : State, exec (.railFault .weir) s = .next t ∧ Covers t 4 0 0 0) ∧
       (∃ t : State, exec (.railFault .v1v8) s = .next t ∧ t.regs = [] ∧ t.heap = [] ∧ t.boot.phase = 0) ∧
       exec (.railFault .v1v2) s = .next s)) ∧
  (∀ (s : State),
     (s.boot.phase = 1 → s.readyFn 2 = false →
       (s.flash.mgmt.bootable s.flash.fwSvn (!s.flash.bank) = true → ∃ t : State, exec .mgmtStartTimeout s = .next t ∧
         t.flash.bank = (!s.flash.bank) ∧ t.boot.phase = 1) ∧
       (s.flash.mgmt.bootable s.flash.fwSvn (!s.flash.bank) = false → ∃ t : State, exec .mgmtStartTimeout s = .next t ∧ t.boot.phase = 3 ∧
         t.rf .secSts 2 2 = 1 ∧ t.pins.alertN = [false, false])) ∧
     (s.boot.phase = 3 → ∀ (what : Firmware) (img : Image),
       let placed := s.flash.modBanks what (fun x => { x with a := img })
       let bankA := fun (f : Flash) => (match what with | .mgmt => f.mgmt | .power => f.power | .pan => f.pan).a
       (img.sig ≠ ⟨true, true, true, true⟩ → ∃ t : State, exec (.recoveryImage ⟨what, img⟩) s = .next t ∧ t.flash = placed ∧
         t.boot.phase = 3 ∧ t.heap = s.heap) ∧
       (img.sig = ⟨true, true, true, true⟩ → ∃ t : State, exec (.recoveryImage ⟨what, img⟩) s = .next t ∧ bankA t.flash = img ∧
         t.heap = [] ∧ (t.boot.phase = 1 ↔ placed.start ≠ none))) ∧
     (s.boot.phase = 1 ∨ s.boot.phase = 2 → ∀ b, readyCode b ∉ s.boot.failedBits → s.bitSet b = false → s.canReady b = true →
       ∃ t : State, exec (.readyBitSet b) s = .next t ∧ t.bitSet b = true ∧
         (Out.msix 0 0 3 ∈ t.out ∨ (Map.getD t.msix 3 ⟨0, 0, true, false⟩).pend = true) ∧
         (b = .shared → t.coh.l1 = [] ∧ t.coh.dir = [] ∧ ∀ k, s.deepSize ≤ k % 2 ^ 24 → t.heap.read k = 0)) ∧
     (s.boot.phase = 1 → ∃ t : State, exec .bootDone s = .next t ∧ t.boot.phase = 2 ∧ t.readyFn 32 = true ∧
       (∀ d, d < 12 → s.dieUp d = false → 8 + d ∈ t.boot.failedBits) ∧
       ((∃ d, d < 12 ∧ s.dieUp d = false) → ∃ m, Out.packageFault m ∈ t.out ∧
         ∀ d, d < 12 → (bit m d = true ↔ s.dieUp d = false))) ∧
     (s.mgmtServes = true →
       let again := s.boot.lastMismatch ≠ 0 ∧ s.weirCtr.toNat + 1 ≤ s.boot.lastMismatch + 1000000000
       ∃ t : State, exec .lockstepMismatch s = .next t ∧ t.boot.mgmtDown = true ∧ t.mgmtServes = false ∧ t.mbox = none ∧
         t.power.heldCap = some s.effCap ∧ (∃ e ∈ t.ras, e.cls = 0x0D) ∧ (∃ e ∈ t.bitternLog, e.cls = 0x0D) ∧ (t.boot.mgmtHalted = true ↔ again) ∧
         (again → t.pins.alertN = [false, false] ∧ t.pins.brdAlertN = false)) ∧
     (s.boot.mgmtDown = true → s.boot.mgmtHalted = false → ∃ t : State, exec .mgmtRestartComplete s = .next t ∧
       t.boot.mgmtDown = false ∧ t.power.heldCap = none ∧ t.regs = s.regs ∧ t.mboxReq = s.mboxReq))

/-! ### The management controller's services -/

/-- Attestation (R389 to R392): a request that the controller cannot serve is unanswered, one that arrives while
SECURITY is clear is answered with Busy; a certified tree uses one identity leaf, a signed response one alias
signature, and the next tree is used once the current one is spent. The codes of the SPDM standard are the model's
(log entry 24). PLDM, MCTP and I3C (R384, R391, R393, R410): a firmware image is written to the bank that does not
run and extends measurement register 5. Where the manual leaves a point open, this states the model's choice: log
entries 39, 40, 41 and 131. -/
def Obligations.management_services_complete : Prop :=
  (∀ (s : State),
     let left := s.rf .secSts 47 32
     let up := s.mgmtServes = true ∧ s.readyFn 3 = true
     let sends := fun (c : Instr) (code : Nat) => ∃ body, exec c s = .next (s.emit (.spdm code body))
     let signs := fun (c : Instr) (code : Nat) => ∃ (t : State) (body : List Byte), exec c s = .next t ∧
       t.out = .spdm code body :: s.out ∧
       t.rf .secSts 47 32 = (if left = 1 ∧ s.boot.treeNext ≠ none then 1024 else left - 1) ∧
       t.boot.treeNow = if left = 1 ∧ s.boot.treeNext ≠ none then s.boot.treeNext else s.boot.treeNow
     (s.boot.phase = 1 ∨ s.boot.phase = 2 → s.boot.puf = 0 → s.flash.idLms < 32768 →
       (s.boot.treeNow = none → ∃ t : State, exec .aliasTreeGenerate s = .next t ∧ t.boot.treeNow = some s.flash.idLms ∧
         t.flash.idLms = s.flash.idLms + 1 ∧ t.rf .secSts 47 32 = 1024 ∧ t.rf .secSts 63 48 = 32768 - (s.flash.idLms + 1)) ∧
       (s.boot.treeNow ≠ none → left ≤ 64 → s.boot.treeNext = none → ∃ t : State, exec .aliasTreeGenerate s = .next t ∧
         t.flash.idLms = s.flash.idLms + 1 ∧
         (left = 0 → t.rf .secSts 47 32 = 1024 ∧ t.boot.treeNow = some s.flash.idLms) ∧
         (left ≠ 0 → t.rf .secSts 47 32 = left ∧ t.boot.treeNow = s.boot.treeNow ∧ t.boot.treeNext = some s.flash.idLms))) ∧
     (s.certChain 1).length = 12 + 2 * 2508 + 2668 ∧
     (∀ req,
       (s.mgmtServes = true → sends (.getVersion req) 0x04) ∧
       (∀ c ∈ [Instr.getCapabilities req, .negotiateAlgorithms req, .getDigests req, .getCertificate 0 0 0, .challenge 0 req,
           .getMeasurements 1 true req],
         (s.mgmtServes = false → exec c s = .next s) ∧
         (s.mgmtServes = true → s.readyFn 3 = false → exec c s = .next (s.emit (.spdm 0x7F [3])))) ∧
       (up → sends (.getCapabilities req) 0x61 ∧ sends (.negotiateAlgorithms req) 0x63 ∧ sends (.getDigests req) 0x01) ∧
       (∀ slot offset length, up → slot ≤ 1 →
         let part := ((s.certChain slot).drop offset).take length
         exec (.getCertificate slot offset length) s = .next (s.emit (.spdm 0x02 (BitVec.ofNat 8 slot ::
           leBytes part.length 2 ++ leBytes ((s.certChain slot).length - offset - part.length) 2 ++ part)))) ∧
       (∀ slot, up → slot ≤ 1 → left ≠ 0 → signs (.challenge slot req) 0x03) ∧
       (∀ index, up → 1 ≤ index → index ≤ 8 →
         exec (.getMeasurements index false req) s =
           .next (s.emit (.spdm 0x60 (1 :: BitVec.ofNat 8 index :: s.measurement (index - 1)))) ∧
         (left ≠ 0 → signs (.getMeasurements index true req) 0x60)))) ∧
  (∀ (s : State), (∀ addr, s.alive = true → ∃ t : State, exec (.i3cDynamicAddress addr) s = .next t ∧ t.pins.i3cAddr = addr) ∧
     (s.mgmtServes = true →
       (∀ d, exec (.pldmPlatformRequest (.temperature d)) s = .next (s.emit (.pldm (leBytes (s.rf (.pwrDieSts d.val) 47 40) 1)))) ∧
       (∀ d, exec (.pldmPlatformRequest (.railPower d)) s = .next (s.emit (.pldm (leBytes (s.rf (.pwrDieSts d.val) 63 48) 2)))) ∧
       exec (.pldmPlatformRequest .energy) s = .next (s.emit (.pldm (leBytes (s.reg .pwrEnergy) 8))) ∧
       (∀ (what : Firmware) (img : Image),
         ∃ t : State, exec (.pldmFirmwareUpdate ⟨what, img⟩) s = .next t ∧
           t.flash = s.flash.modBanks what (fun x => if x.run = true then { x with a := img } else { x with b := img }) ∧
           t.measurement 5 = sha384 (s.measurement 5 ++ img.digest) ∧
           (∀ i, i < 8 → i ≠ 5 → t.measurement i = s.measurement i)) ∧
       (∀ req, ∃ (t : State) (bs : List Byte), exec (.mctpControl req) s = .next t ∧ t.out = .mctp bs :: s.out ∧
         (req.headD 0 = 1 → t.boot.eid = (req.getD 2 0).toNat) ∧ (req.headD 0 ≠ 1 → t.boot = s.boot))))

/-- The mailbox (R386, R401, R402, Table 24-5): a doorbell starts its command, ends it at once with ERR 1 while the
controller restarts, and is dropped while a command runs; the command ends with its ERR, its response and PF0 vector
0. Where the manual leaves a point open, this states the model's choice: log entries 37, 42 and 130. -/
def Obligations.mailbox_completes : Prop :=
  ∀ (s : State),
    (∀ (tok : BitVec 8) (len : BitVec 16), ∀ p ∈ [(Instr.chanMapout tok len, 0x0001), (.chanClear tok len, 0x0002),
        (.pwrTable tok len, 0x0010), (.svnCommit tok len, 0x0020), (.measExtend tok len, 0x0021), (.btnDirectory tok len, 0x0030)],
      let busy := s.rf .mboxSts 3 0 = 1 ∨ s.readyFn 2 = false
      (busy → exec p.1 s = .next (s.dropped 401 0x7F)) ∧
      (¬ busy → s.mgmtServes = true → ∃ (t : State) (m : MboxCmd), exec p.1 s = .next t ∧ t.mbox = some m ∧ m.cmd = p.2 ∧
        t.rf .mboxSts 47 40 = tok.toNat ∧ t.rf .mboxSts 3 0 = 1 ∧
        (len.toNat ≤ 4096 → m.req = (List.range len.toNat).map s.mboxReq.read)) ∧
      (¬ busy → s.mgmtServes = false → ∃ t : State, exec p.1 s = .next t ∧ t.mbox = none ∧ t.rf .mboxSts 3 0 = 2 ∧
        t.rf .mboxSts 23 16 = 1 ∧ t.rf .mboxSts 39 24 = 0)) ∧
    (∀ m, s.mbox = some m → ∀ flashOk,
      let len := m.req.length
      let b := (m.req.headD 0).toNat
      let chan := ofLe m.req
      let has := chan ∈ s.flash.mapouts
      let ends := fun (t : State) (err n : Nat) => t.mbox = none ∧ t.rf .mboxSts 3 0 = 2 ∧ t.rf .mboxSts 23 16 = err ∧
        t.rf .mboxSts 39 24 = n ∧ (Out.msix 0 0 0 ∈ t.out ∨ (Map.getD t.msix 0 ⟨0, 0, true, false⟩).pend = true)
      let recorded := fun (t : State) => t.flash.recordGen = s.flash.recordGen + 1 ∧
        ∃ x, t.flash.accepted DevSlot.chanTag = some x ∧ x.mapouts = t.flash.mapouts ∧ x.repairs = s.flash.repairs
      ∃ t : State, exec (.mboxComplete flashOk) s = .next t ∧
        (m.cmd = 1 ∨ m.cmd = 2 → len ≠ 2 ∨ 383 < chan → ends t 3 0 ∧ t.flash = s.flash) ∧
        (m.cmd = 1 → len = 2 → chan ≤ 383 →
          (has → ends t 4 0 ∧ t.flash = s.flash) ∧ (¬ has → flashOk = false → ends t 5 0 ∧ t.flash = s.flash) ∧
          (¬ has → flashOk = true → ends t 0 0 ∧ recorded t ∧ (∀ c, c ∈ t.flash.mapouts ↔ c = chan ∨ c ∈ s.flash.mapouts))) ∧
        (m.cmd = 2 → len = 2 → chan ≤ 383 →
          (¬ has → ends t 4 0 ∧ t.flash = s.flash) ∧ (has → flashOk = false → ends t 5 0 ∧ t.flash = s.flash) ∧
          (has → flashOk = true → ends t 0 0 ∧ recorded t ∧ (∀ c, c ∈ t.flash.mapouts ↔ c ≠ chan ∧ c ∈ s.flash.mapouts))) ∧
        (m.cmd = 0x10 → (len ≠ 1 ∨ 63 < b → ends t 3 0) ∧
          (len = 1 → b ≤ 63 → ends t 0 64 ∧ ∀ i j, i < 16 → j < 4 →
            t.mboxRsp.read (4 * i + j) = BitVec.ofNat 8 (s.pTab b i / 256 ^ j))) ∧
        (m.cmd = 0x20 → (len ≠ 0 → ends t 3 0) ∧ (len = 0 → s.rf .secSts 0 0 = 0 → ends t 4 0) ∧
          (len = 0 → s.rf .secSts 0 0 = 1 → flashOk = true → ends t 0 1 ∧ t.flash.fwSvn = s.rf .secSts 23 16)) ∧
        (m.cmd = 0x21 → (len ≠ 49 ∨ (b ≠ 6 ∧ b ≠ 7) → ends t 3 0 ∧ ∀ i, i < 8 → t.measurement i = s.measurement i) ∧
          (len = 49 → b = 6 ∨ b = 7 → ends t 0 0 ∧ t.measurement b = sha384 (s.measurement b ++ m.req.drop 1))) ∧
        (m.cmd = 0x30 → (len ≠ 1 ∨ b ≠ 1 → ends t 3 0) ∧
          (len = 1 → b = 1 → ends t 0 (min 4096 (Config.itemDirectory 1).length))) ∧
        (m.cmd ∉ [1, 2, 0x10, 0x20, 0x21, 0x30] → ends t 2 0))

/-! ### Registers, logs, counters, memories and encodings -/

/-- The hard-wired registers of a group (R54): s0 reads as 0 and p0 as all ones, a write of either is discarded, and
a guard of p0 leaves an instruction unguarded. -/
def Obligations.hard_wired_registers : Prop :=
  ∀ g : Group, g.gs 0 = 0 ∧ g.gp 0 = 0xFFFFFFFF ∧
    (∀ x : Word, (g.setS 0 x).gs 0 = 0 ∧ ∀ r, r ≠ 0 → (g.setS 0 x).gs r = g.gs r) ∧
    (∀ x : Half, (g.setP 0 x).gp 0 = 0xFFFFFFFF ∧ ∀ r, r ≠ 0 → (g.setP 0 x).gp r = g.gp r) ∧
    (∀ e : Enc, e.g = 0 → e.gn = false → effMask g e = g.act)

/-- An entry whose CLASS, DIE, UNIT, INDEX and DETAIL equal those of an entry written less than 100 µs earlier is not
written: the earlier entry's COUNT is incremented, saturating (R363); an entry of an earlier boot is combined with
none. Any other entry of a severity above 0, or that finds room, is written with the next SEQ and the time of its
die. -/
def Obligations.log_entries_combine : Prop :=
  ∀ (s : State) (e : RasEntry),
    let recent := fun (o : RasEntry) => o.cls = e.cls ∧ o.die = e.die ∧ o.unit = e.unit ∧ o.index = e.index ∧
      o.detail = e.detail ∧ ∃ f, o.first = some f ∧ s.weirCtr.toNat < f + 10000
    ((∃ o ∈ s.ras, recent o) → ∃ (l r : List RasEntry) (o : RasEntry), s.ras = l ++ o :: r ∧ recent o ∧
      (s.ras_ e).ras = l ++ { o with count := min (o.count + 1) 0xFFFFFF } :: r ∧ (s.ras_ e).regs = s.regs ∧
      (s.ras_ e).out = s.out) ∧
    ((∀ o ∈ s.ras, ¬ recent o) → s.ras.length < 4096 ∨ e.sev ≠ 0 →
      ∃ n : RasEntry, (s.ras_ e).ras.head? = some n ∧ n.cls = e.cls ∧ n.die = e.die ∧ n.unit = e.unit ∧ n.index = e.index ∧
        n.detail = e.detail ∧ n.sev = e.sev ∧ n.count = e.count ∧ n.seq = s.reg .rasStoreSeq + 1 ∧ n.time = s.dieTime e.die ∧
        (s.ras.length < 4096 → (s.ras_ e).ras.tail = s.ras))

/-- The counters of the Pan dies and the Weir (R323): each advances by 1 every reference period of 10 ns, whatever
the state of clocks and power, and resets to 0 at cold reset and warm device reset; a die's counter also resets at
that die's reset. -/
def Obligations.counters_advance_and_reset : Prop :=
  ∀ (s : State),
    (s.boot.phase ≠ 0 → s.tick.weirCtr = s.weirCtr + 1 ∧ ∀ d, d < 12 → s.tick.dieTime d = (s.dieTime d + 1) % 2 ^ 64) ∧
    (∀ r, s.stepFor (fun e => e.level == 4) = some r →
      ∃ t : State, exec .warmDeviceReset s = .next t ∧ t.weirCtr = 0 ∧ ∀ d, d < 12 → t.dieTime d = 0) ∧
    (∀ r, s.stepFor (fun e => e.level == 5) = some r →
      ∃ t : State, exec .coldReset s = .next t ∧ t.weirCtr = 0 ∧ ∀ d, d < 12 → t.dieTime d = 0) ∧
    (∀ (d : Fin 12) r, s.stepFor (fun e => e.level == 3 && e.unit == d.val) = some r →
      ∃ t : State, exec (.dieReset d) s = .next t ∧ t.dieTime d.val = 0)

/-- What the manual states of the machine right after reset (Tables 23-2, 24-6, 24-7): every register that its tables
give a reset value holds it, no function is in service, every basin is in Pond mode, no partition is enabled, and no
session, queue or window is open. Power is not yet good: that the state before PWR_GOOD is the reset state is the
model's choice (log entry 10). Where the manual leaves a point open, this states the model's choice: log entries 4, 6
and 10. -/
def Obligations.reset_state : Prop :=
  (∀ r : Reg, State.reset.reg r = r.resetVal) ∧ (∀ i, State.reset.readyFn i = false) ∧
    (∀ b, b < 96 → State.reset.basinReady b = false ∧ State.reset.lake b = false) ∧
    (∀ c, c < 384 → State.reset.chanReady c = false) ∧ (∀ p, p < 96 → State.reset.partOn p = false) ∧
    (∀ p, State.reset.rf (.rstWdog p) 15 0 = 100 ∧ State.reset.rf (.rstWdog p) 31 16 = 10 ∧
      State.reset.rf (.rstWdog p) 32 32 = 0) ∧
    State.reset.rf .rasRakeCtl 15 0 = 360 ∧ State.reset.rf .rasRakeCtl 31 16 = 256 ∧
    State.reset.sessions = [] ∧ State.reset.queues = [] ∧ State.reset.windows = [] ∧ State.reset.pending = [] ∧
    State.reset.memOk

/-- Every step keeps the memories of the block in canonical form. -/
def Obligations.memories_stay_canonical : Prop :=
  ∀ s t : State, s.memOk → step s = .next t → t.memOk

/-- Decode and encode agree: for every well-formed Glaper instruction with any operands, decoding its words gives it
back, and its words carry its OP and FN (R74, R75, R80, Table 05-5). Where the manual leaves a point open, this
states the model's choice: log entry 47. -/
def Obligations.decode_encode : Prop :=
  ∀ (i : Instr) (p : Glaper), glaper i = some p → i.wf = true →
    ∃ w0 w1 : Word, encodeWords i = some (w0, w1) ∧ decodeWords p.g w0 w1 = some i ∧
      fld w0.toNat 63 58 = p.op ∧ fld w0.toNat 51 46 = p.fn ∧ (bit w0.toNat 57 = false → w1 = 0)

/-- Memory maps (R26, R44, Tables 02-3): the offsets of a Lake pool lie in its basin's seven pools, one byte each;
the Shared offsets below the space's size lie in the carve-out of the logical channels in service, one byte each. -/
def Obligations.maps_are_one_to_one : Prop :=
  (∀ b, b < 96 → ∀ a, a < 21 * 2 ^ 20 →
    (∃ i k, i < 7 ∧ k < kindPool (coreKind (b * 8 + i)) ∧ poolKey (1024 + b) a = poolKey (b * 8 + i) k) ∧
    ∀ a', a' < 21 * 2 ^ 20 → poolKey (1024 + b) a = poolKey (1024 + b) a' → a = a') ∧
  (∀ s : State, s.kGran ≤ 4096 → s.logical ≠ [] → s.sharedSize ≤ s.logical.length * s.kGran * 4096 → ∀ o, o < s.sharedSize →
    (∃ c k, c ∈ s.logical ∧ s.deepSize ≤ k ∧ k < 2 ^ 24 ∧ s.sharedKey o = some (c * 2 ^ 24 + k)) ∧
    ∀ o', o' < s.sharedSize → s.sharedKey o = s.sharedKey o' → o = o')

end
end

