-- ==== Sys2Proof/Laws/State.lean ====
section
/-! SUPPORT. What each named update of the state leaves: one lemma for each field. -/

namespace Sys2Proof.Machine

/-! ### State.putGroup -/

@[simp] theorem State.putGroup_regs (s : State) (r : GroupRef) (g : Group) : (s.putGroup r g).regs = s.regs := rfl
@[simp] theorem State.putGroup_mboxReq (s : State) (r : GroupRef) (g : Group) : (s.putGroup r g).mboxReq = s.mboxReq := rfl
@[simp] theorem State.putGroup_mboxRsp (s : State) (r : GroupRef) (g : Group) : (s.putGroup r g).mboxRsp = s.mboxRsp := rfl
@[simp] theorem State.putGroup_heap (s : State) (r : GroupRef) (g : Group) : (s.putGroup r g).heap = s.heap := rfl
@[simp] theorem State.putGroup_heapPoison (s : State) (r : GroupRef) (g : Group) : (s.putGroup r g).heapPoison = s.heapPoison := rfl
@[simp] theorem State.putGroup_repair (s : State) (r : GroupRef) (g : Group) : (s.putGroup r g).repair = s.repair := rfl
@[simp] theorem State.putGroup_pool (s : State) (r : GroupRef) (g : Group) : (s.putGroup r g).pool = s.pool := rfl
@[simp] theorem State.putGroup_poolPoison (s : State) (r : GroupRef) (g : Group) : (s.putGroup r g).poolPoison = s.poolPoison := rfl
@[simp] theorem State.putGroup_hostMem (s : State) (r : GroupRef) (g : Group) : (s.putGroup r g).hostMem = s.hostMem := rfl
@[simp] theorem State.putGroup_hostPoison (s : State) (r : GroupRef) (g : Group) : (s.putGroup r g).hostPoison = s.hostPoison := rfl
@[simp] theorem State.putGroup_badSectors (s : State) (r : GroupRef) (g : Group) : (s.putGroup r g).badSectors = s.badSectors := rfl
@[simp] theorem State.putGroup_badRows (s : State) (r : GroupRef) (g : Group) : (s.putGroup r g).badRows = s.badRows := rfl
@[simp] theorem State.putGroup_silicon (s : State) (r : GroupRef) (g : Group) : (s.putGroup r g).silicon = s.silicon := rfl
@[simp] theorem State.putGroup_groups (s : State) (r : GroupRef) (g : Group) : (s.putGroup r g).groups = Map.put s.groups (refKey r) g := rfl
@[simp] theorem State.putGroup_launches (s : State) (r : GroupRef) (g : Group) : (s.putGroup r g).launches = s.launches := rfl
@[simp] theorem State.putGroup_acc (s : State) (r : GroupRef) (g : Group) : (s.putGroup r g).acc = s.acc := rfl
@[simp] theorem State.putGroup_accCtx (s : State) (r : GroupRef) (g : Group) : (s.putGroup r g).accCtx = s.accCtx := rfl
@[simp] theorem State.putGroup_mtxHolder (s : State) (r : GroupRef) (g : Group) : (s.putGroup r g).mtxHolder = s.mtxHolder := rfl
@[simp] theorem State.putGroup_mtx (s : State) (r : GroupRef) (g : Group) : (s.putGroup r g).mtx = s.mtx := rfl
@[simp] theorem State.putGroup_dma (s : State) (r : GroupRef) (g : Group) : (s.putGroup r g).dma = s.dma := rfl
@[simp] theorem State.putGroup_rmo (s : State) (r : GroupRef) (g : Group) : (s.putGroup r g).rmo = s.rmo := rfl
@[simp] theorem State.putGroup_routes (s : State) (r : GroupRef) (g : Group) : (s.putGroup r g).routes = s.routes := rfl
@[simp] theorem State.putGroup_modeChg (s : State) (r : GroupRef) (g : Group) : (s.putGroup r g).modeChg = s.modeChg := rfl
@[simp] theorem State.putGroup_outOfService (s : State) (r : GroupRef) (g : Group) : (s.putGroup r g).outOfService = s.outOfService := rfl
@[simp] theorem State.putGroup_sharedChg (s : State) (r : GroupRef) (g : Group) : (s.putGroup r g).sharedChg = s.sharedChg := rfl
@[simp] theorem State.putGroup_residents (s : State) (r : GroupRef) (g : Group) : (s.putGroup r g).residents = s.residents := rfl
@[simp] theorem State.putGroup_ctxs (s : State) (r : GroupRef) (g : Group) : (s.putGroup r g).ctxs = s.ctxs := rfl
@[simp] theorem State.putGroup_failed (s : State) (r : GroupRef) (g : Group) : (s.putGroup r g).failed = s.failed := rfl
@[simp] theorem State.putGroup_queues (s : State) (r : GroupRef) (g : Group) : (s.putGroup r g).queues = s.queues := rfl
@[simp] theorem State.putGroup_lastServed (s : State) (r : GroupRef) (g : Group) : (s.putGroup r g).lastServed = s.lastServed := rfl
@[simp] theorem State.putGroup_cmdBusy (s : State) (r : GroupRef) (g : Group) : (s.putGroup r g).cmdBusy = s.cmdBusy := rfl
@[simp] theorem State.putGroup_switching (s : State) (r : GroupRef) (g : Group) : (s.putGroup r g).switching = s.switching := rfl
@[simp] theorem State.putGroup_evictedFrom (s : State) (r : GroupRef) (g : Group) : (s.putGroup r g).evictedFrom = s.evictedFrom := rfl
@[simp] theorem State.putGroup_tlb (s : State) (r : GroupRef) (g : Group) : (s.putGroup r g).tlb = s.tlb := rfl
@[simp] theorem State.putGroup_utlb (s : State) (r : GroupRef) (g : Group) : (s.putGroup r g).utlb = s.utlb := rfl
@[simp] theorem State.putGroup_wc1 (s : State) (r : GroupRef) (g : Group) : (s.putGroup r g).wc1 = s.wc1 := rfl
@[simp] theorem State.putGroup_wc2 (s : State) (r : GroupRef) (g : Group) : (s.putGroup r g).wc2 = s.wc2 := rfl
@[simp] theorem State.putGroup_walkQ (s : State) (r : GroupRef) (g : Group) : (s.putGroup r g).walkQ = s.walkQ := rfl
@[simp] theorem State.putGroup_invs (s : State) (r : GroupRef) (g : Group) : (s.putGroup r g).invs = s.invs := rfl
@[simp] theorem State.putGroup_heldRecs (s : State) (r : GroupRef) (g : Group) : (s.putGroup r g).heldRecs = s.heldRecs := rfl
@[simp] theorem State.putGroup_posted (s : State) (r : GroupRef) (g : Group) : (s.putGroup r g).posted = s.posted := rfl
@[simp] theorem State.putGroup_windows (s : State) (r : GroupRef) (g : Group) : (s.putGroup r g).windows = s.windows := rfl
@[simp] theorem State.putGroup_coh (s : State) (r : GroupRef) (g : Group) : (s.putGroup r g).coh = s.coh := rfl
@[simp] theorem State.putGroup_narrow (s : State) (r : GroupRef) (g : Group) : (s.putGroup r g).narrow = s.narrow := rfl
@[simp] theorem State.putGroup_nmiss (s : State) (r : GroupRef) (g : Group) : (s.putGroup r g).nmiss = s.nmiss := rfl
@[simp] theorem State.putGroup_ncacheChg (s : State) (r : GroupRef) (g : Group) : (s.putGroup r g).ncacheChg = s.ncacheChg := rfl
@[simp] theorem State.putGroup_icache (s : State) (r : GroupRef) (g : Group) : (s.putGroup r g).icache = s.icache := rfl
@[simp] theorem State.putGroup_ras (s : State) (r : GroupRef) (g : Group) : (s.putGroup r g).ras = s.ras := rfl
@[simp] theorem State.putGroup_bitternLog (s : State) (r : GroupRef) (g : Group) : (s.putGroup r g).bitternLog = s.bitternLog := rfl
@[simp] theorem State.putGroup_rakeCe (s : State) (r : GroupRef) (g : Group) : (s.putGroup r g).rakeCe = s.rakeCe := rfl
@[simp] theorem State.putGroup_bittern (s : State) (r : GroupRef) (g : Group) : (s.putGroup r g).bittern = s.bittern := rfl
@[simp] theorem State.putGroup_suspects (s : State) (r : GroupRef) (g : Group) : (s.putGroup r g).suspects = s.suspects := rfl
@[simp] theorem State.putGroup_resetQ (s : State) (r : GroupRef) (g : Group) : (s.putGroup r g).resetQ = s.resetQ := rfl
@[simp] theorem State.putGroup_hung (s : State) (r : GroupRef) (g : Group) : (s.putGroup r g).hung = s.hung := rfl
@[simp] theorem State.putGroup_guilty (s : State) (r : GroupRef) (g : Group) : (s.putGroup r g).guilty = s.guilty := rfl
@[simp] theorem State.putGroup_dieReset (s : State) (r : GroupRef) (g : Group) : (s.putGroup r g).dieReset = s.dieReset := rfl
@[simp] theorem State.putGroup_quarantined (s : State) (r : GroupRef) (g : Group) : (s.putGroup r g).quarantined = s.quarantined := rfl
@[simp] theorem State.putGroup_sluiced (s : State) (r : GroupRef) (g : Group) : (s.putGroup r g).sluiced = s.sluiced := rfl
@[simp] theorem State.putGroup_partOps (s : State) (r : GroupRef) (g : Group) : (s.putGroup r g).partOps = s.partOps := rfl
@[simp] theorem State.putGroup_lastTag (s : State) (r : GroupRef) (g : Group) : (s.putGroup r g).lastTag = s.lastTag := rfl
@[simp] theorem State.putGroup_commit (s : State) (r : GroupRef) (g : Group) : (s.putGroup r g).commit = s.commit := rfl
@[simp] theorem State.putGroup_adopted (s : State) (r : GroupRef) (g : Group) : (s.putGroup r g).adopted = s.adopted := rfl
@[simp] theorem State.putGroup_sessions (s : State) (r : GroupRef) (g : Group) : (s.putGroup r g).sessions = s.sessions := rfl
@[simp] theorem State.putGroup_txq (s : State) (r : GroupRef) (g : Group) : (s.putGroup r g).txq = s.txq := rfl
@[simp] theorem State.putGroup_deficits (s : State) (r : GroupRef) (g : Group) : (s.putGroup r g).deficits = s.deficits := rfl
@[simp] theorem State.putGroup_power (s : State) (r : GroupRef) (g : Group) : (s.putGroup r g).power = s.power := rfl
@[simp] theorem State.putGroup_boot (s : State) (r : GroupRef) (g : Group) : (s.putGroup r g).boot = s.boot := rfl
@[simp] theorem State.putGroup_flash (s : State) (r : GroupRef) (g : Group) : (s.putGroup r g).flash = s.flash := rfl
@[simp] theorem State.putGroup_msix (s : State) (r : GroupRef) (g : Group) : (s.putGroup r g).msix = s.msix := rfl
@[simp] theorem State.putGroup_cfg (s : State) (r : GroupRef) (g : Group) : (s.putGroup r g).cfg = s.cfg := rfl
@[simp] theorem State.putGroup_pins (s : State) (r : GroupRef) (g : Group) : (s.putGroup r g).pins = s.pins := rfl
@[simp] theorem State.putGroup_weirCtr (s : State) (r : GroupRef) (g : Group) : (s.putGroup r g).weirCtr = s.weirCtr := rfl
@[simp] theorem State.putGroup_panCtr (s : State) (r : GroupRef) (g : Group) : (s.putGroup r g).panCtr = s.panCtr := rfl
@[simp] theorem State.putGroup_mbox (s : State) (r : GroupRef) (g : Group) : (s.putGroup r g).mbox = s.mbox := rfl
@[simp] theorem State.putGroup_nextId (s : State) (r : GroupRef) (g : Group) : (s.putGroup r g).nextId = s.nextId := rfl
@[simp] theorem State.putGroup_freeIx (s : State) (r : GroupRef) (g : Group) : (s.putGroup r g).freeIx = s.freeIx := rfl
@[simp] theorem State.putGroup_out (s : State) (r : GroupRef) (g : Group) : (s.putGroup r g).out = s.out := rfl
@[simp] theorem State.putGroup_pending (s : State) (r : GroupRef) (g : Group) : (s.putGroup r g).pending = s.pending := rfl

/-! ### State.setReg -/

@[simp] theorem State.setReg_regs (s : State) (r : Reg) (v : Nat) : (s.setReg r v).regs = Map.putD s.regs r.key r.resetVal v := rfl
@[simp] theorem State.setReg_mboxReq (s : State) (r : Reg) (v : Nat) : (s.setReg r v).mboxReq = s.mboxReq := rfl
@[simp] theorem State.setReg_mboxRsp (s : State) (r : Reg) (v : Nat) : (s.setReg r v).mboxRsp = s.mboxRsp := rfl
@[simp] theorem State.setReg_heap (s : State) (r : Reg) (v : Nat) : (s.setReg r v).heap = s.heap := rfl
@[simp] theorem State.setReg_heapPoison (s : State) (r : Reg) (v : Nat) : (s.setReg r v).heapPoison = s.heapPoison := rfl
@[simp] theorem State.setReg_repair (s : State) (r : Reg) (v : Nat) : (s.setReg r v).repair = s.repair := rfl
@[simp] theorem State.setReg_pool (s : State) (r : Reg) (v : Nat) : (s.setReg r v).pool = s.pool := rfl
@[simp] theorem State.setReg_poolPoison (s : State) (r : Reg) (v : Nat) : (s.setReg r v).poolPoison = s.poolPoison := rfl
@[simp] theorem State.setReg_hostMem (s : State) (r : Reg) (v : Nat) : (s.setReg r v).hostMem = s.hostMem := rfl
@[simp] theorem State.setReg_hostPoison (s : State) (r : Reg) (v : Nat) : (s.setReg r v).hostPoison = s.hostPoison := rfl
@[simp] theorem State.setReg_badSectors (s : State) (r : Reg) (v : Nat) : (s.setReg r v).badSectors = s.badSectors := rfl
@[simp] theorem State.setReg_badRows (s : State) (r : Reg) (v : Nat) : (s.setReg r v).badRows = s.badRows := rfl
@[simp] theorem State.setReg_silicon (s : State) (r : Reg) (v : Nat) : (s.setReg r v).silicon = s.silicon := rfl
@[simp] theorem State.setReg_groups (s : State) (r : Reg) (v : Nat) : (s.setReg r v).groups = s.groups := rfl
@[simp] theorem State.setReg_launches (s : State) (r : Reg) (v : Nat) : (s.setReg r v).launches = s.launches := rfl
@[simp] theorem State.setReg_acc (s : State) (r : Reg) (v : Nat) : (s.setReg r v).acc = s.acc := rfl
@[simp] theorem State.setReg_accCtx (s : State) (r : Reg) (v : Nat) : (s.setReg r v).accCtx = s.accCtx := rfl
@[simp] theorem State.setReg_mtxHolder (s : State) (r : Reg) (v : Nat) : (s.setReg r v).mtxHolder = s.mtxHolder := rfl
@[simp] theorem State.setReg_mtx (s : State) (r : Reg) (v : Nat) : (s.setReg r v).mtx = s.mtx := rfl
@[simp] theorem State.setReg_dma (s : State) (r : Reg) (v : Nat) : (s.setReg r v).dma = s.dma := rfl
@[simp] theorem State.setReg_rmo (s : State) (r : Reg) (v : Nat) : (s.setReg r v).rmo = s.rmo := rfl
@[simp] theorem State.setReg_routes (s : State) (r : Reg) (v : Nat) : (s.setReg r v).routes = s.routes := rfl
@[simp] theorem State.setReg_modeChg (s : State) (r : Reg) (v : Nat) : (s.setReg r v).modeChg = s.modeChg := rfl
@[simp] theorem State.setReg_outOfService (s : State) (r : Reg) (v : Nat) : (s.setReg r v).outOfService = s.outOfService := rfl
@[simp] theorem State.setReg_sharedChg (s : State) (r : Reg) (v : Nat) : (s.setReg r v).sharedChg = s.sharedChg := rfl
@[simp] theorem State.setReg_residents (s : State) (r : Reg) (v : Nat) : (s.setReg r v).residents = s.residents := rfl
@[simp] theorem State.setReg_ctxs (s : State) (r : Reg) (v : Nat) : (s.setReg r v).ctxs = s.ctxs := rfl
@[simp] theorem State.setReg_failed (s : State) (r : Reg) (v : Nat) : (s.setReg r v).failed = s.failed := rfl
@[simp] theorem State.setReg_queues (s : State) (r : Reg) (v : Nat) : (s.setReg r v).queues = s.queues := rfl
@[simp] theorem State.setReg_lastServed (s : State) (r : Reg) (v : Nat) : (s.setReg r v).lastServed = s.lastServed := rfl
@[simp] theorem State.setReg_cmdBusy (s : State) (r : Reg) (v : Nat) : (s.setReg r v).cmdBusy = s.cmdBusy := rfl
@[simp] theorem State.setReg_switching (s : State) (r : Reg) (v : Nat) : (s.setReg r v).switching = s.switching := rfl
@[simp] theorem State.setReg_evictedFrom (s : State) (r : Reg) (v : Nat) : (s.setReg r v).evictedFrom = s.evictedFrom := rfl
@[simp] theorem State.setReg_tlb (s : State) (r : Reg) (v : Nat) : (s.setReg r v).tlb = s.tlb := rfl
@[simp] theorem State.setReg_utlb (s : State) (r : Reg) (v : Nat) : (s.setReg r v).utlb = s.utlb := rfl
@[simp] theorem State.setReg_wc1 (s : State) (r : Reg) (v : Nat) : (s.setReg r v).wc1 = s.wc1 := rfl
@[simp] theorem State.setReg_wc2 (s : State) (r : Reg) (v : Nat) : (s.setReg r v).wc2 = s.wc2 := rfl
@[simp] theorem State.setReg_walkQ (s : State) (r : Reg) (v : Nat) : (s.setReg r v).walkQ = s.walkQ := rfl
@[simp] theorem State.setReg_invs (s : State) (r : Reg) (v : Nat) : (s.setReg r v).invs = s.invs := rfl
@[simp] theorem State.setReg_heldRecs (s : State) (r : Reg) (v : Nat) : (s.setReg r v).heldRecs = s.heldRecs := rfl
@[simp] theorem State.setReg_posted (s : State) (r : Reg) (v : Nat) : (s.setReg r v).posted = s.posted := rfl
@[simp] theorem State.setReg_windows (s : State) (r : Reg) (v : Nat) : (s.setReg r v).windows = s.windows := rfl
@[simp] theorem State.setReg_coh (s : State) (r : Reg) (v : Nat) : (s.setReg r v).coh = s.coh := rfl
@[simp] theorem State.setReg_narrow (s : State) (r : Reg) (v : Nat) : (s.setReg r v).narrow = s.narrow := rfl
@[simp] theorem State.setReg_nmiss (s : State) (r : Reg) (v : Nat) : (s.setReg r v).nmiss = s.nmiss := rfl
@[simp] theorem State.setReg_ncacheChg (s : State) (r : Reg) (v : Nat) : (s.setReg r v).ncacheChg = s.ncacheChg := rfl
@[simp] theorem State.setReg_icache (s : State) (r : Reg) (v : Nat) : (s.setReg r v).icache = s.icache := rfl
@[simp] theorem State.setReg_ras (s : State) (r : Reg) (v : Nat) : (s.setReg r v).ras = s.ras := rfl
@[simp] theorem State.setReg_bitternLog (s : State) (r : Reg) (v : Nat) : (s.setReg r v).bitternLog = s.bitternLog := rfl
@[simp] theorem State.setReg_rakeCe (s : State) (r : Reg) (v : Nat) : (s.setReg r v).rakeCe = s.rakeCe := rfl
@[simp] theorem State.setReg_bittern (s : State) (r : Reg) (v : Nat) : (s.setReg r v).bittern = s.bittern := rfl
@[simp] theorem State.setReg_suspects (s : State) (r : Reg) (v : Nat) : (s.setReg r v).suspects = s.suspects := rfl
@[simp] theorem State.setReg_resetQ (s : State) (r : Reg) (v : Nat) : (s.setReg r v).resetQ = s.resetQ := rfl
@[simp] theorem State.setReg_hung (s : State) (r : Reg) (v : Nat) : (s.setReg r v).hung = s.hung := rfl
@[simp] theorem State.setReg_guilty (s : State) (r : Reg) (v : Nat) : (s.setReg r v).guilty = s.guilty := rfl
@[simp] theorem State.setReg_dieReset (s : State) (r : Reg) (v : Nat) : (s.setReg r v).dieReset = s.dieReset := rfl
@[simp] theorem State.setReg_quarantined (s : State) (r : Reg) (v : Nat) : (s.setReg r v).quarantined = s.quarantined := rfl
@[simp] theorem State.setReg_sluiced (s : State) (r : Reg) (v : Nat) : (s.setReg r v).sluiced = s.sluiced := rfl
@[simp] theorem State.setReg_partOps (s : State) (r : Reg) (v : Nat) : (s.setReg r v).partOps = s.partOps := rfl
@[simp] theorem State.setReg_lastTag (s : State) (r : Reg) (v : Nat) : (s.setReg r v).lastTag = s.lastTag := rfl
@[simp] theorem State.setReg_commit (s : State) (r : Reg) (v : Nat) : (s.setReg r v).commit = s.commit := rfl
@[simp] theorem State.setReg_adopted (s : State) (r : Reg) (v : Nat) : (s.setReg r v).adopted = s.adopted := rfl
@[simp] theorem State.setReg_sessions (s : State) (r : Reg) (v : Nat) : (s.setReg r v).sessions = s.sessions := rfl
@[simp] theorem State.setReg_txq (s : State) (r : Reg) (v : Nat) : (s.setReg r v).txq = s.txq := rfl
@[simp] theorem State.setReg_deficits (s : State) (r : Reg) (v : Nat) : (s.setReg r v).deficits = s.deficits := rfl
@[simp] theorem State.setReg_power (s : State) (r : Reg) (v : Nat) : (s.setReg r v).power = s.power := rfl
@[simp] theorem State.setReg_boot (s : State) (r : Reg) (v : Nat) : (s.setReg r v).boot = s.boot := rfl
@[simp] theorem State.setReg_flash (s : State) (r : Reg) (v : Nat) : (s.setReg r v).flash = s.flash := rfl
@[simp] theorem State.setReg_msix (s : State) (r : Reg) (v : Nat) : (s.setReg r v).msix = s.msix := rfl
@[simp] theorem State.setReg_cfg (s : State) (r : Reg) (v : Nat) : (s.setReg r v).cfg = s.cfg := rfl
@[simp] theorem State.setReg_pins (s : State) (r : Reg) (v : Nat) : (s.setReg r v).pins = s.pins := rfl
@[simp] theorem State.setReg_weirCtr (s : State) (r : Reg) (v : Nat) : (s.setReg r v).weirCtr = s.weirCtr := rfl
@[simp] theorem State.setReg_panCtr (s : State) (r : Reg) (v : Nat) : (s.setReg r v).panCtr = s.panCtr := rfl
@[simp] theorem State.setReg_mbox (s : State) (r : Reg) (v : Nat) : (s.setReg r v).mbox = s.mbox := rfl
@[simp] theorem State.setReg_nextId (s : State) (r : Reg) (v : Nat) : (s.setReg r v).nextId = s.nextId := rfl
@[simp] theorem State.setReg_freeIx (s : State) (r : Reg) (v : Nat) : (s.setReg r v).freeIx = s.freeIx := rfl
@[simp] theorem State.setReg_out (s : State) (r : Reg) (v : Nat) : (s.setReg r v).out = s.out := rfl
@[simp] theorem State.setReg_pending (s : State) (r : Reg) (v : Nat) : (s.setReg r v).pending = s.pending := rfl

/-! ### State.setRf -/

@[simp] theorem State.setRf_regs (s : State) (r : Reg) (hi lo v : Nat) : (s.setRf r hi lo v).regs = Map.putD s.regs r.key r.resetVal (setFld (s.reg r) hi lo v) := rfl
@[simp] theorem State.setRf_mboxReq (s : State) (r : Reg) (hi lo v : Nat) : (s.setRf r hi lo v).mboxReq = s.mboxReq := rfl
@[simp] theorem State.setRf_mboxRsp (s : State) (r : Reg) (hi lo v : Nat) : (s.setRf r hi lo v).mboxRsp = s.mboxRsp := rfl
@[simp] theorem State.setRf_heap (s : State) (r : Reg) (hi lo v : Nat) : (s.setRf r hi lo v).heap = s.heap := rfl
@[simp] theorem State.setRf_heapPoison (s : State) (r : Reg) (hi lo v : Nat) : (s.setRf r hi lo v).heapPoison = s.heapPoison := rfl
@[simp] theorem State.setRf_repair (s : State) (r : Reg) (hi lo v : Nat) : (s.setRf r hi lo v).repair = s.repair := rfl
@[simp] theorem State.setRf_pool (s : State) (r : Reg) (hi lo v : Nat) : (s.setRf r hi lo v).pool = s.pool := rfl
@[simp] theorem State.setRf_poolPoison (s : State) (r : Reg) (hi lo v : Nat) : (s.setRf r hi lo v).poolPoison = s.poolPoison := rfl
@[simp] theorem State.setRf_hostMem (s : State) (r : Reg) (hi lo v : Nat) : (s.setRf r hi lo v).hostMem = s.hostMem := rfl
@[simp] theorem State.setRf_hostPoison (s : State) (r : Reg) (hi lo v : Nat) : (s.setRf r hi lo v).hostPoison = s.hostPoison := rfl
@[simp] theorem State.setRf_badSectors (s : State) (r : Reg) (hi lo v : Nat) : (s.setRf r hi lo v).badSectors = s.badSectors := rfl
@[simp] theorem State.setRf_badRows (s : State) (r : Reg) (hi lo v : Nat) : (s.setRf r hi lo v).badRows = s.badRows := rfl
@[simp] theorem State.setRf_silicon (s : State) (r : Reg) (hi lo v : Nat) : (s.setRf r hi lo v).silicon = s.silicon := rfl
@[simp] theorem State.setRf_groups (s : State) (r : Reg) (hi lo v : Nat) : (s.setRf r hi lo v).groups = s.groups := rfl
@[simp] theorem State.setRf_launches (s : State) (r : Reg) (hi lo v : Nat) : (s.setRf r hi lo v).launches = s.launches := rfl
@[simp] theorem State.setRf_acc (s : State) (r : Reg) (hi lo v : Nat) : (s.setRf r hi lo v).acc = s.acc := rfl
@[simp] theorem State.setRf_accCtx (s : State) (r : Reg) (hi lo v : Nat) : (s.setRf r hi lo v).accCtx = s.accCtx := rfl
@[simp] theorem State.setRf_mtxHolder (s : State) (r : Reg) (hi lo v : Nat) : (s.setRf r hi lo v).mtxHolder = s.mtxHolder := rfl
@[simp] theorem State.setRf_mtx (s : State) (r : Reg) (hi lo v : Nat) : (s.setRf r hi lo v).mtx = s.mtx := rfl
@[simp] theorem State.setRf_dma (s : State) (r : Reg) (hi lo v : Nat) : (s.setRf r hi lo v).dma = s.dma := rfl
@[simp] theorem State.setRf_rmo (s : State) (r : Reg) (hi lo v : Nat) : (s.setRf r hi lo v).rmo = s.rmo := rfl
@[simp] theorem State.setRf_routes (s : State) (r : Reg) (hi lo v : Nat) : (s.setRf r hi lo v).routes = s.routes := rfl
@[simp] theorem State.setRf_modeChg (s : State) (r : Reg) (hi lo v : Nat) : (s.setRf r hi lo v).modeChg = s.modeChg := rfl
@[simp] theorem State.setRf_outOfService (s : State) (r : Reg) (hi lo v : Nat) : (s.setRf r hi lo v).outOfService = s.outOfService := rfl
@[simp] theorem State.setRf_sharedChg (s : State) (r : Reg) (hi lo v : Nat) : (s.setRf r hi lo v).sharedChg = s.sharedChg := rfl
@[simp] theorem State.setRf_residents (s : State) (r : Reg) (hi lo v : Nat) : (s.setRf r hi lo v).residents = s.residents := rfl
@[simp] theorem State.setRf_ctxs (s : State) (r : Reg) (hi lo v : Nat) : (s.setRf r hi lo v).ctxs = s.ctxs := rfl
@[simp] theorem State.setRf_failed (s : State) (r : Reg) (hi lo v : Nat) : (s.setRf r hi lo v).failed = s.failed := rfl
@[simp] theorem State.setRf_queues (s : State) (r : Reg) (hi lo v : Nat) : (s.setRf r hi lo v).queues = s.queues := rfl
@[simp] theorem State.setRf_lastServed (s : State) (r : Reg) (hi lo v : Nat) : (s.setRf r hi lo v).lastServed = s.lastServed := rfl
@[simp] theorem State.setRf_cmdBusy (s : State) (r : Reg) (hi lo v : Nat) : (s.setRf r hi lo v).cmdBusy = s.cmdBusy := rfl
@[simp] theorem State.setRf_switching (s : State) (r : Reg) (hi lo v : Nat) : (s.setRf r hi lo v).switching = s.switching := rfl
@[simp] theorem State.setRf_evictedFrom (s : State) (r : Reg) (hi lo v : Nat) : (s.setRf r hi lo v).evictedFrom = s.evictedFrom := rfl
@[simp] theorem State.setRf_tlb (s : State) (r : Reg) (hi lo v : Nat) : (s.setRf r hi lo v).tlb = s.tlb := rfl
@[simp] theorem State.setRf_utlb (s : State) (r : Reg) (hi lo v : Nat) : (s.setRf r hi lo v).utlb = s.utlb := rfl
@[simp] theorem State.setRf_wc1 (s : State) (r : Reg) (hi lo v : Nat) : (s.setRf r hi lo v).wc1 = s.wc1 := rfl
@[simp] theorem State.setRf_wc2 (s : State) (r : Reg) (hi lo v : Nat) : (s.setRf r hi lo v).wc2 = s.wc2 := rfl
@[simp] theorem State.setRf_walkQ (s : State) (r : Reg) (hi lo v : Nat) : (s.setRf r hi lo v).walkQ = s.walkQ := rfl
@[simp] theorem State.setRf_invs (s : State) (r : Reg) (hi lo v : Nat) : (s.setRf r hi lo v).invs = s.invs := rfl
@[simp] theorem State.setRf_heldRecs (s : State) (r : Reg) (hi lo v : Nat) : (s.setRf r hi lo v).heldRecs = s.heldRecs := rfl
@[simp] theorem State.setRf_posted (s : State) (r : Reg) (hi lo v : Nat) : (s.setRf r hi lo v).posted = s.posted := rfl
@[simp] theorem State.setRf_windows (s : State) (r : Reg) (hi lo v : Nat) : (s.setRf r hi lo v).windows = s.windows := rfl
@[simp] theorem State.setRf_coh (s : State) (r : Reg) (hi lo v : Nat) : (s.setRf r hi lo v).coh = s.coh := rfl
@[simp] theorem State.setRf_narrow (s : State) (r : Reg) (hi lo v : Nat) : (s.setRf r hi lo v).narrow = s.narrow := rfl
@[simp] theorem State.setRf_nmiss (s : State) (r : Reg) (hi lo v : Nat) : (s.setRf r hi lo v).nmiss = s.nmiss := rfl
@[simp] theorem State.setRf_ncacheChg (s : State) (r : Reg) (hi lo v : Nat) : (s.setRf r hi lo v).ncacheChg = s.ncacheChg := rfl
@[simp] theorem State.setRf_icache (s : State) (r : Reg) (hi lo v : Nat) : (s.setRf r hi lo v).icache = s.icache := rfl
@[simp] theorem State.setRf_ras (s : State) (r : Reg) (hi lo v : Nat) : (s.setRf r hi lo v).ras = s.ras := rfl
@[simp] theorem State.setRf_bitternLog (s : State) (r : Reg) (hi lo v : Nat) : (s.setRf r hi lo v).bitternLog = s.bitternLog := rfl
@[simp] theorem State.setRf_rakeCe (s : State) (r : Reg) (hi lo v : Nat) : (s.setRf r hi lo v).rakeCe = s.rakeCe := rfl
@[simp] theorem State.setRf_bittern (s : State) (r : Reg) (hi lo v : Nat) : (s.setRf r hi lo v).bittern = s.bittern := rfl
@[simp] theorem State.setRf_suspects (s : State) (r : Reg) (hi lo v : Nat) : (s.setRf r hi lo v).suspects = s.suspects := rfl
@[simp] theorem State.setRf_resetQ (s : State) (r : Reg) (hi lo v : Nat) : (s.setRf r hi lo v).resetQ = s.resetQ := rfl
@[simp] theorem State.setRf_hung (s : State) (r : Reg) (hi lo v : Nat) : (s.setRf r hi lo v).hung = s.hung := rfl
@[simp] theorem State.setRf_guilty (s : State) (r : Reg) (hi lo v : Nat) : (s.setRf r hi lo v).guilty = s.guilty := rfl
@[simp] theorem State.setRf_dieReset (s : State) (r : Reg) (hi lo v : Nat) : (s.setRf r hi lo v).dieReset = s.dieReset := rfl
@[simp] theorem State.setRf_quarantined (s : State) (r : Reg) (hi lo v : Nat) : (s.setRf r hi lo v).quarantined = s.quarantined := rfl
@[simp] theorem State.setRf_sluiced (s : State) (r : Reg) (hi lo v : Nat) : (s.setRf r hi lo v).sluiced = s.sluiced := rfl
@[simp] theorem State.setRf_partOps (s : State) (r : Reg) (hi lo v : Nat) : (s.setRf r hi lo v).partOps = s.partOps := rfl
@[simp] theorem State.setRf_lastTag (s : State) (r : Reg) (hi lo v : Nat) : (s.setRf r hi lo v).lastTag = s.lastTag := rfl
@[simp] theorem State.setRf_commit (s : State) (r : Reg) (hi lo v : Nat) : (s.setRf r hi lo v).commit = s.commit := rfl
@[simp] theorem State.setRf_adopted (s : State) (r : Reg) (hi lo v : Nat) : (s.setRf r hi lo v).adopted = s.adopted := rfl
@[simp] theorem State.setRf_sessions (s : State) (r : Reg) (hi lo v : Nat) : (s.setRf r hi lo v).sessions = s.sessions := rfl
@[simp] theorem State.setRf_txq (s : State) (r : Reg) (hi lo v : Nat) : (s.setRf r hi lo v).txq = s.txq := rfl
@[simp] theorem State.setRf_deficits (s : State) (r : Reg) (hi lo v : Nat) : (s.setRf r hi lo v).deficits = s.deficits := rfl
@[simp] theorem State.setRf_power (s : State) (r : Reg) (hi lo v : Nat) : (s.setRf r hi lo v).power = s.power := rfl
@[simp] theorem State.setRf_boot (s : State) (r : Reg) (hi lo v : Nat) : (s.setRf r hi lo v).boot = s.boot := rfl
@[simp] theorem State.setRf_flash (s : State) (r : Reg) (hi lo v : Nat) : (s.setRf r hi lo v).flash = s.flash := rfl
@[simp] theorem State.setRf_msix (s : State) (r : Reg) (hi lo v : Nat) : (s.setRf r hi lo v).msix = s.msix := rfl
@[simp] theorem State.setRf_cfg (s : State) (r : Reg) (hi lo v : Nat) : (s.setRf r hi lo v).cfg = s.cfg := rfl
@[simp] theorem State.setRf_pins (s : State) (r : Reg) (hi lo v : Nat) : (s.setRf r hi lo v).pins = s.pins := rfl
@[simp] theorem State.setRf_weirCtr (s : State) (r : Reg) (hi lo v : Nat) : (s.setRf r hi lo v).weirCtr = s.weirCtr := rfl
@[simp] theorem State.setRf_panCtr (s : State) (r : Reg) (hi lo v : Nat) : (s.setRf r hi lo v).panCtr = s.panCtr := rfl
@[simp] theorem State.setRf_mbox (s : State) (r : Reg) (hi lo v : Nat) : (s.setRf r hi lo v).mbox = s.mbox := rfl
@[simp] theorem State.setRf_nextId (s : State) (r : Reg) (hi lo v : Nat) : (s.setRf r hi lo v).nextId = s.nextId := rfl
@[simp] theorem State.setRf_freeIx (s : State) (r : Reg) (hi lo v : Nat) : (s.setRf r hi lo v).freeIx = s.freeIx := rfl
@[simp] theorem State.setRf_out (s : State) (r : Reg) (hi lo v : Nat) : (s.setRf r hi lo v).out = s.out := rfl
@[simp] theorem State.setRf_pending (s : State) (r : Reg) (hi lo v : Nat) : (s.setRf r hi lo v).pending = s.pending := rfl

/-! ### State.emit -/

@[simp] theorem State.emit_regs (s : State) (o : Out) : (s.emit o).regs = s.regs := rfl
@[simp] theorem State.emit_mboxReq (s : State) (o : Out) : (s.emit o).mboxReq = s.mboxReq := rfl
@[simp] theorem State.emit_mboxRsp (s : State) (o : Out) : (s.emit o).mboxRsp = s.mboxRsp := rfl
@[simp] theorem State.emit_heap (s : State) (o : Out) : (s.emit o).heap = s.heap := rfl
@[simp] theorem State.emit_heapPoison (s : State) (o : Out) : (s.emit o).heapPoison = s.heapPoison := rfl
@[simp] theorem State.emit_repair (s : State) (o : Out) : (s.emit o).repair = s.repair := rfl
@[simp] theorem State.emit_pool (s : State) (o : Out) : (s.emit o).pool = s.pool := rfl
@[simp] theorem State.emit_poolPoison (s : State) (o : Out) : (s.emit o).poolPoison = s.poolPoison := rfl
@[simp] theorem State.emit_hostMem (s : State) (o : Out) : (s.emit o).hostMem = s.hostMem := rfl
@[simp] theorem State.emit_hostPoison (s : State) (o : Out) : (s.emit o).hostPoison = s.hostPoison := rfl
@[simp] theorem State.emit_badSectors (s : State) (o : Out) : (s.emit o).badSectors = s.badSectors := rfl
@[simp] theorem State.emit_badRows (s : State) (o : Out) : (s.emit o).badRows = s.badRows := rfl
@[simp] theorem State.emit_silicon (s : State) (o : Out) : (s.emit o).silicon = s.silicon := rfl
@[simp] theorem State.emit_groups (s : State) (o : Out) : (s.emit o).groups = s.groups := rfl
@[simp] theorem State.emit_launches (s : State) (o : Out) : (s.emit o).launches = s.launches := rfl
@[simp] theorem State.emit_acc (s : State) (o : Out) : (s.emit o).acc = s.acc := rfl
@[simp] theorem State.emit_accCtx (s : State) (o : Out) : (s.emit o).accCtx = s.accCtx := rfl
@[simp] theorem State.emit_mtxHolder (s : State) (o : Out) : (s.emit o).mtxHolder = s.mtxHolder := rfl
@[simp] theorem State.emit_mtx (s : State) (o : Out) : (s.emit o).mtx = s.mtx := rfl
@[simp] theorem State.emit_dma (s : State) (o : Out) : (s.emit o).dma = s.dma := rfl
@[simp] theorem State.emit_rmo (s : State) (o : Out) : (s.emit o).rmo = s.rmo := rfl
@[simp] theorem State.emit_routes (s : State) (o : Out) : (s.emit o).routes = s.routes := rfl
@[simp] theorem State.emit_modeChg (s : State) (o : Out) : (s.emit o).modeChg = s.modeChg := rfl
@[simp] theorem State.emit_outOfService (s : State) (o : Out) : (s.emit o).outOfService = s.outOfService := rfl
@[simp] theorem State.emit_sharedChg (s : State) (o : Out) : (s.emit o).sharedChg = s.sharedChg := rfl
@[simp] theorem State.emit_residents (s : State) (o : Out) : (s.emit o).residents = s.residents := rfl
@[simp] theorem State.emit_ctxs (s : State) (o : Out) : (s.emit o).ctxs = s.ctxs := rfl
@[simp] theorem State.emit_failed (s : State) (o : Out) : (s.emit o).failed = s.failed := rfl
@[simp] theorem State.emit_queues (s : State) (o : Out) : (s.emit o).queues = s.queues := rfl
@[simp] theorem State.emit_lastServed (s : State) (o : Out) : (s.emit o).lastServed = s.lastServed := rfl
@[simp] theorem State.emit_cmdBusy (s : State) (o : Out) : (s.emit o).cmdBusy = s.cmdBusy := rfl
@[simp] theorem State.emit_switching (s : State) (o : Out) : (s.emit o).switching = s.switching := rfl
@[simp] theorem State.emit_evictedFrom (s : State) (o : Out) : (s.emit o).evictedFrom = s.evictedFrom := rfl
@[simp] theorem State.emit_tlb (s : State) (o : Out) : (s.emit o).tlb = s.tlb := rfl
@[simp] theorem State.emit_utlb (s : State) (o : Out) : (s.emit o).utlb = s.utlb := rfl
@[simp] theorem State.emit_wc1 (s : State) (o : Out) : (s.emit o).wc1 = s.wc1 := rfl
@[simp] theorem State.emit_wc2 (s : State) (o : Out) : (s.emit o).wc2 = s.wc2 := rfl
@[simp] theorem State.emit_walkQ (s : State) (o : Out) : (s.emit o).walkQ = s.walkQ := rfl
@[simp] theorem State.emit_invs (s : State) (o : Out) : (s.emit o).invs = s.invs := rfl
@[simp] theorem State.emit_heldRecs (s : State) (o : Out) : (s.emit o).heldRecs = s.heldRecs := rfl
@[simp] theorem State.emit_posted (s : State) (o : Out) : (s.emit o).posted = s.posted := rfl
@[simp] theorem State.emit_windows (s : State) (o : Out) : (s.emit o).windows = s.windows := rfl
@[simp] theorem State.emit_coh (s : State) (o : Out) : (s.emit o).coh = s.coh := rfl
@[simp] theorem State.emit_narrow (s : State) (o : Out) : (s.emit o).narrow = s.narrow := rfl
@[simp] theorem State.emit_nmiss (s : State) (o : Out) : (s.emit o).nmiss = s.nmiss := rfl
@[simp] theorem State.emit_ncacheChg (s : State) (o : Out) : (s.emit o).ncacheChg = s.ncacheChg := rfl
@[simp] theorem State.emit_icache (s : State) (o : Out) : (s.emit o).icache = s.icache := rfl
@[simp] theorem State.emit_ras (s : State) (o : Out) : (s.emit o).ras = s.ras := rfl
@[simp] theorem State.emit_bitternLog (s : State) (o : Out) : (s.emit o).bitternLog = s.bitternLog := rfl
@[simp] theorem State.emit_rakeCe (s : State) (o : Out) : (s.emit o).rakeCe = s.rakeCe := rfl
@[simp] theorem State.emit_bittern (s : State) (o : Out) : (s.emit o).bittern = s.bittern := rfl
@[simp] theorem State.emit_suspects (s : State) (o : Out) : (s.emit o).suspects = s.suspects := rfl
@[simp] theorem State.emit_resetQ (s : State) (o : Out) : (s.emit o).resetQ = s.resetQ := rfl
@[simp] theorem State.emit_hung (s : State) (o : Out) : (s.emit o).hung = s.hung := rfl
@[simp] theorem State.emit_guilty (s : State) (o : Out) : (s.emit o).guilty = s.guilty := rfl
@[simp] theorem State.emit_dieReset (s : State) (o : Out) : (s.emit o).dieReset = s.dieReset := rfl
@[simp] theorem State.emit_quarantined (s : State) (o : Out) : (s.emit o).quarantined = s.quarantined := rfl
@[simp] theorem State.emit_sluiced (s : State) (o : Out) : (s.emit o).sluiced = s.sluiced := rfl
@[simp] theorem State.emit_partOps (s : State) (o : Out) : (s.emit o).partOps = s.partOps := rfl
@[simp] theorem State.emit_lastTag (s : State) (o : Out) : (s.emit o).lastTag = s.lastTag := rfl
@[simp] theorem State.emit_commit (s : State) (o : Out) : (s.emit o).commit = s.commit := rfl
@[simp] theorem State.emit_adopted (s : State) (o : Out) : (s.emit o).adopted = s.adopted := rfl
@[simp] theorem State.emit_sessions (s : State) (o : Out) : (s.emit o).sessions = s.sessions := rfl
@[simp] theorem State.emit_txq (s : State) (o : Out) : (s.emit o).txq = s.txq := rfl
@[simp] theorem State.emit_deficits (s : State) (o : Out) : (s.emit o).deficits = s.deficits := rfl
@[simp] theorem State.emit_power (s : State) (o : Out) : (s.emit o).power = s.power := rfl
@[simp] theorem State.emit_boot (s : State) (o : Out) : (s.emit o).boot = s.boot := rfl
@[simp] theorem State.emit_flash (s : State) (o : Out) : (s.emit o).flash = s.flash := rfl
@[simp] theorem State.emit_msix (s : State) (o : Out) : (s.emit o).msix = s.msix := rfl
@[simp] theorem State.emit_cfg (s : State) (o : Out) : (s.emit o).cfg = s.cfg := rfl
@[simp] theorem State.emit_pins (s : State) (o : Out) : (s.emit o).pins = s.pins := rfl
@[simp] theorem State.emit_weirCtr (s : State) (o : Out) : (s.emit o).weirCtr = s.weirCtr := rfl
@[simp] theorem State.emit_panCtr (s : State) (o : Out) : (s.emit o).panCtr = s.panCtr := rfl
@[simp] theorem State.emit_mbox (s : State) (o : Out) : (s.emit o).mbox = s.mbox := rfl
@[simp] theorem State.emit_nextId (s : State) (o : Out) : (s.emit o).nextId = s.nextId := rfl
@[simp] theorem State.emit_freeIx (s : State) (o : Out) : (s.emit o).freeIx = s.freeIx := rfl
@[simp] theorem State.emit_out (s : State) (o : Out) : (s.emit o).out = o :: s.out := rfl
@[simp] theorem State.emit_pending (s : State) (o : Out) : (s.emit o).pending = s.pending := rfl

end Sys2Proof.Machine
end

