-- ==== Sys2Proof/Laws/Store.lean ====
section
/-! SUPPORT. Laws of sparse maps, sets and byte memories: a read after a write, and the canonical form. -/

namespace Sys2Proof.Machine

variable {α : Type}

@[simp] theorem Map.find?_nil (i : Nat) : Map.find? ([] : Map α) i = none := rfl

theorem Map.find?_put (m : Map α) (i j : Nat) (a : α) :
    Map.find? (Map.put m i a) j = if j = i then some a else Map.find? m j := by
  induction m with
  | nil => simp [Map.put, Map.find?]
  | cons kv m ih =>
    obtain ⟨k, v⟩ := kv
    simp only [Map.put]
    split_ifs <;> simp_all [Map.find?]

@[simp] theorem Map.find?_put_same (m : Map α) (i : Nat) (a : α) : Map.find? (Map.put m i a) i = some a := by
  simp [Map.find?_put]

theorem Map.find?_put_other (m : Map α) {i j : Nat} (a : α) (h : j ≠ i) :
    Map.find? (Map.put m i a) j = Map.find? m j := by
  simp [Map.find?_put, h]

theorem Map.find?_drop (m : Map α) (i j : Nat) :
    Map.find? (Map.drop m i) j = if j = i then none else Map.find? m j := by
  induction m with
  | nil => simp [Map.drop, Map.find?]
  | cons kv m ih =>
    obtain ⟨k, v⟩ := kv
    simp only [Map.drop] at ih ⊢
    by_cases hk : k = i
    · subst hk
      simp only [List.filter_cons, bne_self_eq_false, Bool.false_eq_true, if_false, ih, Map.find?]
      split_ifs <;> rfl
    · simp only [List.filter_cons, bne_iff_ne, ne_eq, hk, not_false_eq_true, if_true, Map.find?, ih]
      split_ifs <;> simp_all

/-- A read after a write of a map with an unlisted value. -/
theorem Map.getD_putD [DecidableEq α] (m : Map α) (i j : Nat) (d a : α) :
    Map.getD (Map.putD m i d a) j d = if j = i then a else Map.getD m j d := by
  unfold Map.getD Map.putD
  split_ifs <;> simp_all [Map.find?_put, Map.find?_drop]

@[simp] theorem Map.getD_nil (j : Nat) (d : α) : Map.getD ([] : Map α) j d = d := rfl

@[simp] theorem Map.getD_putD_same [DecidableEq α] (m : Map α) (i : Nat) (d a : α) :
    Map.getD (Map.putD m i d a) i d = a := by
  simp [Map.getD_putD]

/-- Read after write of one byte. -/
theorem Memory.read_write (m : Memory) (a b : Nat) (x : Byte) :
    Memory.read (Memory.write m a x) b = if b = a then x else Memory.read m b :=
  Map.getD_putD m a b 0#8 x

@[simp] theorem Memory.read_nil (a : Nat) : Memory.read [] a = 0#8 := rfl

/-! ### Sets -/

@[simp] theorem NSet.mem_ins (m : NSet) (i j : Nat) : j ∈ NSet.ins m i ↔ j = i ∨ j ∈ m := by
  induction m with
  | nil => simp [NSet.ins]
  | cons k m ih =>
    simp only [NSet.ins]
    split_ifs with h1 h2
    · simp
    · subst h2; simp
    · simp only [List.mem_cons, ih]; tauto

@[simp] theorem NSet.mem_del (m : NSet) (i j : Nat) : j ∈ NSet.del m i ↔ j ∈ m ∧ j ≠ i := by
  simp [NSet.del]

/-! ### The canonical form -/

/-- Strictly rising keys, as a pairwise fact. -/
theorem Map.wf_iff (m : Map α) : Map.wf m = true ↔ m.Pairwise (fun x y => x.1 < y.1) := by
  induction m with
  | nil => simp [Map.wf]
  | cons x m ih =>
    cases m with
    | nil => simp [Map.wf]
    | cons y m =>
      obtain ⟨a, x⟩ := x
      obtain ⟨b, y⟩ := y
      simp only [Map.wf, Bool.and_eq_true, decide_eq_true_eq, ih, List.pairwise_cons, List.mem_cons]
      constructor
      · rintro ⟨h, h1, h2⟩
        exact ⟨fun z hz => hz.elim (fun e => e ▸ h) (fun hz => lt_trans h (h1 z hz)), h1, h2⟩
      · rintro ⟨h, h1⟩
        exact ⟨h _ (.inl rfl), h1⟩

theorem Map.mem_put {m : Map α} {i : Nat} {a : α} {x : Nat × α} (h : x ∈ Map.put m i a) : x = (i, a) ∨ x ∈ m := by
  induction m with
  | nil => simpa [Map.put] using h
  | cons kv m ih =>
    obtain ⟨k, v⟩ := kv
    simp only [Map.put] at h
    split_ifs at h with h1 h2
    · simpa using h
    · rcases List.mem_cons.1 h with h | h
      · exact .inl h
      · exact .inr (List.mem_cons_of_mem _ h)
    · rcases List.mem_cons.1 h with h | h
      · exact .inr (h ▸ List.mem_cons_self)
      · exact (ih h).imp id (List.mem_cons_of_mem _)

theorem Map.wf_put (m : Map α) (i : Nat) (a : α) (h : Map.wf m = true) : Map.wf (Map.put m i a) = true := by
  rw [Map.wf_iff] at *
  induction m with
  | nil => simp [Map.put]
  | cons kv m ih =>
    obtain ⟨k, v⟩ := kv
    rw [List.pairwise_cons] at h
    simp only [Map.put]
    split_ifs with h1 h2
    · refine List.pairwise_cons.2 ⟨?_, List.pairwise_cons.2 h⟩
      intro x hx
      rcases List.mem_cons.1 hx with rfl | hx
      · exact h1
      · exact lt_trans h1 (h.1 x hx)
    · subst h2; exact List.pairwise_cons.2 h
    · refine List.pairwise_cons.2 ⟨?_, ih h.2⟩
      intro x hx
      rcases Map.mem_put hx with rfl | hx
      · simp only; omega
      · exact h.1 x hx

theorem Map.wf_filter (m : Map α) (p : Nat × α → Bool) (h : Map.wf m = true) : Map.wf (m.filter p) = true := by
  rw [Map.wf_iff] at *; exact h.sublist List.filter_sublist

theorem Memory.wf_nil : Memory.wf [] = true := rfl

/-- A filter of a memory keeps its canonical form. -/
theorem Memory.wf_filter (m : Memory) (p : Nat × Byte → Bool) (h : Memory.wf m = true) :
    Memory.wf (m.filter p) = true := by
  simp only [Memory.wf, Bool.and_eq_true, List.all_eq_true] at *
  exact ⟨Map.wf_filter m p h.1, fun x hx => h.2 x (List.mem_of_mem_filter hx)⟩

theorem Memory.wf_keep (m : Memory) (p : Nat → Bool) (h : Memory.wf m = true) : Memory.wf (Map.keep m p) = true :=
  Memory.wf_filter m _ h

/-- A write keeps the canonical form. -/
theorem Memory.wf_write (m : Memory) (a : Nat) (b : Byte) (h : Memory.wf m = true) :
    Memory.wf (Memory.write m a b) = true := by
  unfold Memory.write Map.putD
  split_ifs with hb
  · exact Memory.wf_filter m _ h
  · simp only [Memory.wf, Bool.and_eq_true, List.all_eq_true] at *
    refine ⟨Map.wf_put m a b h.1, fun x hx => ?_⟩
    rcases Map.mem_put hx with rfl | hx
    · simpa using hb
    · exact h.2 x hx

theorem Memory.wf_writeBytes (m : Memory) (a : Nat) (bs : List Byte) (h : Memory.wf m = true) :
    Memory.wf (Memory.writeBytes m a bs) = true := by
  induction bs generalizing m a with
  | nil => exact h
  | cons b bs ih => exact ih _ _ (Memory.wf_write m a b h)

end Sys2Proof.Machine
end

