-- ==== Sys2Proof/Laws/Groups.lean ====
section
/-! SUPPORT. Laws of a group's registers and of the front end of a core. -/

namespace Sys2Proof.Machine

/-! ### Registers -/

@[simp] theorem Group.gs_zero (g : Group) : g.gs 0 = 0 := rfl
@[simp] theorem Group.gp_zero (g : Group) : g.gp 0 = 0xFFFFFFFF#32 := rfl

theorem Group.gv_setV (g : Group) (r i r' i' : Nat) (x : Half) (hi : i < 32) (hi' : i' < 32) :
    (g.setV r i x).gv r' i' = if r' = r ∧ i' = i then x else g.gv r' i' := by
  have : (r' * 32 + i' = r * 32 + i) ↔ (r' = r ∧ i' = i) := by omega
  simp [Group.gv, Group.setV, Map.getD_putD, this]

theorem Group.getD_setV (g : Group) (r i k : Nat) (x : Half) :
    Map.getD (g.setV r i x).v k 0 = if k = r * 32 + i then x else Map.getD g.v k 0 := by
  simp [Group.setV, Map.getD_putD]

theorem Group.mem_vpois_setV (g : Group) (r i k : Nat) (x : Half) :
    k ∈ (g.setV r i x).vpois ↔ k ∈ g.vpois ∧ k ≠ r * 32 + i := by
  simp [Group.setV]

theorem Group.gs_setS (g : Group) (r r' : Nat) (x : Word) :
    (g.setS r x).gs r' = if r' = 0 then 0 else if r' = r then x else g.gs r' := by
  unfold Group.setS Group.gs
  by_cases h : r = 0 <;> by_cases h' : r' = 0 <;> simp [h, h', Map.getD_putD]

theorem Group.gp_setP (g : Group) (r r' : Nat) (x : Half) :
    (g.setP r x).gp r' = if r' = 0 then 0xFFFFFFFF#32 else if r' = r then x else g.gp r' := by
  unfold Group.setP Group.gp
  by_cases h : r = 0 <;> by_cases h' : r' = 0 <;> simp [h, h', Map.getD_putD]

theorem Group.gt_setT (g : Group) (r r' : Nat) (x : BitVec 128) :
    (g.setT r x).gt r' = if r' = r then x else g.gt r' := by
  simp [Group.setT, Group.gt, Map.getD_putD]

/-- A write of a scalar register and the advance of the program counter give a `ScalarResult`. -/
theorem scalarResult_setS (g : Group) (e : Enc) (d : Nat) (x : Word) : ScalarResult g ((g.setS d x).advance e) e d x := by
  have hs : ∀ r, ((g.setS d x).advance e).gs r = (g.setS d x).gs r := fun _ => rfl
  constructor
  · intro h
    refine ⟨by rw [hs, Group.gs_setS]; simp [h], ?_, ?_⟩ <;> simp [Group.setS, Group.advance, h]
  · rfl
  · intro r hr
    refine ⟨?_, ?_, ?_⟩
    · rw [hs, Group.gs_setS]; split_ifs with h
      · subst h; rfl
      · rfl
    · by_cases h : d = 0 <;> simp [Group.setS, Group.advance, h, hr]
    · by_cases h : d = 0 <;> simp [Group.setS, Group.advance, h, hr]
  · by_cases h : d = 0 <;> simp [Group.setS, Group.advance, h]

/-- A write of a predicate and the advance of the program counter give a `PredResult`. -/
theorem predResult_setP (g : Group) (e : Enc) (d : Nat) (x : Half) : PredResult g ((g.setP d x).advance e) e d x := by
  have hs : ∀ r, ((g.setP d x).advance e).gp r = (g.setP d x).gp r := fun _ => rfl
  constructor
  · intro h; rw [hs, Group.gp_setP]; simp [h]
  · rfl
  · intro r hr; rw [hs, Group.gp_setP]
    split_ifs with h
    · subst h; rfl
    · rfl
  · by_cases h : d = 0 <;> simp [Group.setP, Group.advance, h]

theorem mem_lanesOf (m : Half) (i : Nat) : i ∈ lanesOf m ↔ inMask m i := by
  simp [lanesOf, inMask]

/-! ### Writes of lanes -/

/-- The keys that a write of lanes touches. -/
theorem Group.setElem_rest (g : Group) (w : Bool) (d i x : Nat) :
    g.setElem w d i x = { g with v := (g.setElem w d i x).v, vpois := (g.setElem w d i x).vpois } := by
  cases w <;> rfl

theorem Group.getD_setElem (g : Group) (w : Bool) (d i x k : Nat) :
    Map.getD (g.setElem w d i x).v k 0 =
      if w = true ∧ k = (d + 1) * 32 + i then BitVec.ofNat 32 (x / 2 ^ 32)
      else if k = d * 32 + i then BitVec.ofNat 32 x else Map.getD g.v k 0 := by
  cases w
  · simp only [Group.setElem, Bool.false_eq_true, if_false, Group.getD_setV, false_and]
  · simp only [Group.setElem, if_true, Group.getD_setV, true_and]

theorem Group.mem_vpois_setElem (g : Group) (w : Bool) (d i x k : Nat) :
    k ∈ (g.setElem w d i x).vpois ↔ k ∈ g.vpois ∧ k ∉ laneKeys w d i := by
  cases w <;> simp [Group.setElem, laneKeys, Group.mem_vpois_setV, and_assoc]

/-- What a fold of lane writes leaves: the elements of the lanes listed, everything else as before. -/
theorem foldl_setElem (w : Bool) (d : Nat) (ps : List (Nat × Nat)) (hnd : (ps.map Prod.fst).Nodup)
    (hlt : ∀ p ∈ ps, p.1 < 32) (g : Group) :
    let h := ps.foldl (fun h p => h.setElem w d p.1 p.2) g
    (∀ p ∈ ps, h.elem w d p.1 = p.2 % 2 ^ (if w then 64 else 32) ∧ ∀ k ∈ laneKeys w d p.1, k ∉ h.vpois) ∧
    (∀ k, (∀ p ∈ ps, k ∉ laneKeys w d p.1) →
      Map.getD h.v k 0 = Map.getD g.v k 0 ∧ (k ∈ h.vpois ↔ k ∈ g.vpois)) ∧
    h = { g with v := h.v, vpois := h.vpois } := by
  induction ps generalizing g with
  | nil => simp
  | cons p ps ih =>
    simp only [List.map_cons, List.nodup_cons, List.mem_map, List.mem_cons] at hnd hlt
    obtain ⟨i1, i2, i3⟩ := ih hnd.2 (fun q hq => hlt q (.inr hq)) (g.setElem w d p.1 p.2)
    have hp := hlt p (.inl rfl)
    have hdis : ∀ k ∈ laneKeys w d p.1, ∀ q ∈ ps, k ∉ laneKeys w d q.1 := by
      intro k hk q hq hk'
      have hq' := hlt q (.inr hq)
      have : q.1 ≠ p.1 := fun h => hnd.1 ⟨q, hq, h⟩
      cases w <;> simp [laneKeys] at hk hk' <;> omega
    refine ⟨?_, ?_, ?_⟩
    · intro q hq
      rcases List.mem_cons.1 hq with rfl | hq
      · constructor
        · have e0 := (i2 (d * 32 + q.1) (hdis _ (by cases w <;> simp [laneKeys]))).1
          rw [Group.getD_setElem] at e0
          simp only [List.foldl_cons]
          cases hw : w with
          | false =>
            subst hw
            simp at e0
            simp [Group.elem, Group.gv, e0]
          | true =>
            subst hw
            have e1 := (i2 ((d + 1) * 32 + q.1) (hdis _ (by simp [laneKeys]))).1
            rw [Group.getD_setElem] at e1
            have : ¬ (d * 32 + q.1 = (d + 1) * 32 + q.1) := by omega
            simp at e0 e1
            simp [Group.elem, Group.gv, e0, e1]
            omega
        · intro k hk
          simp only [List.foldl_cons]
          rw [(i2 k (hdis k hk)).2, Group.mem_vpois_setElem]
          exact fun h => h.2 hk
      · exact i1 q hq
    · intro k hk
      have h1 := i2 k (fun q hq => hk q (List.mem_cons_of_mem _ hq))
      have h0 := hk p List.mem_cons_self
      simp only [List.foldl_cons]
      rw [h1.1, h1.2, Group.getD_setElem, Group.mem_vpois_setElem]
      cases w <;> simp [laneKeys] at h0 ⊢ <;> simp [h0]
    · simp only [List.foldl_cons]
      rw [i3, Group.setElem_rest]

theorem nodup_lanesOf (m : Half) : (lanesOf m).Nodup := List.nodup_range.filter _

/-- The lanes written by `Group.writeLanes`. -/
theorem vectorResult_writeLanes (g : Group) (e : Enc) (w : Bool) (d : Nat) (m : Half) (f : Nat → Nat) :
    VectorResult g ((g.writeLanes w d m f).advance e) e w d m f := by
  have key := foldl_setElem w d ((lanesOf m).map (fun i => (i, f i)))
    (by simpa [List.map_map, Function.comp_def] using nodup_lanesOf m)
    (by simp only [List.mem_map]; rintro p ⟨i, hi, rfl⟩; exact ((mem_lanesOf m i).1 hi).1) g
  obtain ⟨k1, k2, k3⟩ := key
  have hm : ∀ i, inMask m i → (i, f i) ∈ (lanesOf m).map (fun i => (i, f i)) := fun i hi =>
    List.mem_map.2 ⟨i, (mem_lanesOf m i).2 hi, rfl⟩
  constructor
  · intro i hi; exact (k1 _ (hm i hi)).1
  · intro i hi; exact (k1 _ (hm i hi)).2
  · intro k hk
    refine k2 k (fun p hp => ?_)
    obtain ⟨i, hi, rfl⟩ := List.mem_map.1 hp
    exact hk i ((mem_lanesOf m i).1 hi)
  · unfold Group.sameButV
    unfold Group.writeLanes Group.advance
    rw [k3]

/-! ### The front end -/

/-- An instruction that issues runs its own effect on the state that its fetch leaves. -/
theorem issue_of_issues {s u : State} {i : Instr} {r : GroupRef} {e : Enc} {g : Group} {l : Launch}
    (h : Issues s u i r e g l) {n : Ins} (hn : frontEnd i = some (r, e, n)) (k : State → Group → Launch → Res) :
    issue s r e n k = k u g l := by
  obtain ⟨⟨hg, hl, hs, hp, hh, ht, ha⟩, n', hn', hc, hsb, h8, hf⟩ := h
  obtain rfl : n' = n := by simpa [hn] using hn'.symm
  have ht' : s.tripped = false := by simpa [State.tripped] using ht
  simp [issue, hg, hl, hs, hp, hh, ht', ha, h8, hf, hc]
  exact fun x h1 h2 => absurd h2 (hsb x h1)

end Sys2Proof.Machine
end

