-- ==== Sys2Proof/Laws/Access.lean ====
section
/-! SUPPORT. Laws of a group's memory accesses: an access that is performed runs its effect on the state after its
coherence transaction; a write writes exactly the bytes it names. -/

namespace Sys2Proof.Machine

/-- No lane of an access consumes poison where no register is poisoned, no byte that it reads is, and every line that it needs
can be reached. -/
theorem State.consuming_eq_zero {s : State} {u : CohUse} {cache n : Nat} {reads : Bool} {bs : List LaneBytes}
    (hr : reads = true → ∀ b ∈ bs, (s.readLocs 0 b.locs).2 = false)
    (hd : ∀ b ∈ bs, b.addr = b.dpa ∨ s.laneDown u cache n b = false) : s.consuming u cache n reads 0 bs = 0 := by
  have h : bs.filter (fun b => (reads && (s.readLocs 0 b.locs).2) || (b.addr != b.dpa && s.laneDown u cache n b)) = [] := by
    rw [List.filter_eq_nil_iff]
    intro b hb
    rcases hd b hb with h | h <;> cases reads <;> simp_all
  unfold State.consuming
  rw [h]
  rfl

/-- An access that is performed continues with its bytes. -/
theorem access_of_performs {s : State} {r : GroupRef} {e : Enc} {i : Ins} {g : Group} {l : Launch} {spc : Bool}
    {need : Need} {u : CohUse} {writes reads scalar : Bool} {n : Nat} {xs : List LaneAcc} {t : State} {bs : List LaneBytes}
    (h : Performs s r l spc need u writes reads n xs t bs) (k : State → List LaneBytes → Res) :
    access s r e i g l spc need u writes reads scalar n 0 xs k = k t bs := by
  obtain ⟨ha, hrd, hp, hs⟩ := h
  have h1 : xs.filter (fun x => x.2 % n != 0) = [] := by
    rw [List.filter_eq_nil_iff]; intro x hx; simpa using ha x hx
  cases spc with
  | false =>
    obtain ⟨rfl, rfl, hr, hh⟩ := hp rfl
    have h2 : xs.filter (fun x => x.2 + n > poolSize r.core.toNat) = [] := by
      rw [List.filter_eq_nil_iff]; intro x hx; simpa using hr x hx
    have hd : ∀ b ∈ xs.map (fun x => (⟨x.1, x.2, x.2, poolLocs r.core.toNat x.2 n⟩ : LaneBytes)),
        b.addr = b.dpa ∨ t.laneDown u (cacheOf r.core.toNat r.slot.toNat) n b = false := by
      intro b hb
      obtain ⟨x, -, rfl⟩ := List.mem_map.1 hb
      exact .inl rfl
    have c0 := State.consuming_eq_zero (reads := false) (by simp) hd
    have c1 := State.consuming_eq_zero hrd hd
    simp only [access, h1, h2, hh, c0, c1]
    rfl
  | true =>
    obtain ⟨rfl, hb, w, hc, rfl⟩ := hs rfl
    have hl : ∀ b ∈ bs, s.laneLook r.core.toNat n l need (b.lane, b.addr) = ⟨b.lane, b.addr, .ok b.dpa b.locs, false, false⟩ := by
      intro b hbm
      simp [State.laneLook, (hb b hbm).1]
    have hmap : (bs.map (fun b => (b.lane, b.addr))).map (s.laneLook r.core.toNat n l need) =
        bs.map (fun b => ⟨b.lane, b.addr, .ok b.dpa b.locs, false, false⟩) := by
      rw [List.map_map]; exact List.map_congr_left hl
    have e1 : (bs.map (fun b => (⟨b.lane, b.addr, .ok b.dpa b.locs, false, false⟩ : LaneLook))).filter
        (fun x => x.space) = [] := by
      rw [List.filter_eq_nil_iff]; simp
    have e2 : (bs.map (fun b => (⟨b.lane, b.addr, .ok b.dpa b.locs, false, false⟩ : LaneLook))).filter
        (fun x => x.fails) = [] := by
      rw [List.filter_eq_nil_iff]; simp
    have e3 : (bs.map (fun b => (⟨b.lane, b.addr, .ok b.dpa b.locs, false, false⟩ : LaneLook))).filter
        (fun x => x.look == .walk) = [] := by
      rw [List.filter_eq_nil_iff]; simp
    have e4 : (bs.map (fun b => (⟨b.lane, b.addr, .ok b.dpa b.locs, false, false⟩ : LaneLook))).filterMap
        LaneLook.bytes = bs := by
      rw [List.filterMap_map]; simp [Function.comp_def, LaneLook.bytes]
    have e5 : (bs.any fun b => b.locs.any s.inRepair) = false := by
      simp only [List.any_eq_false]; intro b hbm; simpa using (hb b hbm).2.2
    have c1 := State.consuming_eq_zero hrd (fun b hbm => .inr (hb b hbm).2.1)
    simp only [access, h1, hmap, e1, e2, e3, e4, e5, c1, hc]
    rfl

/-! ### Exact writes -/

theorem State.failing_congr {s t : State} (h : s.regs = t.regs) (hd : s.coh = t.coh) (k : Nat) : s.failing k = t.failing k := by
  have hr : ∀ r, s.reg r = t.reg r := fun r => by unfold State.reg; rw [h]
  have hrf : ∀ r hi lo, s.rf r hi lo = t.rf r hi lo := fun r hi lo => by unfold State.rf; rw [hr]
  have hc : ∀ c, s.chanState c = t.chanState c := fun c => by unfold State.chanState; rw [hrf]
  have hg : ∀ c, s.guarded c = t.guarded c := fun c => by unfold State.guarded; rw [hrf]
  have hh : ∀ c, s.heapChans c = t.heapChans c := fun c => by unfold State.heapChans; simp only [hc]
  have hp : s.physChan k = t.physChan k := by unfold State.physChan; simp only [hg, hh]
  have hl : s.logical = t.logical := by
    have e : s.heapLogical = t.heapLogical := funext fun c => by unfold State.heapLogical; simp only [hg, hh]
    unfold State.logical; rw [e]
  have ho : s.sharedOff k = t.sharedOff k := by
    unfold State.sharedOff State.deepSize State.sharedSize State.kGran; simp only [hl, hrf]
  unfold State.failing State.onFailing State.sliceHolds; rw [hp, hc, ho, hd]

end Sys2Proof.Machine
end

