-- ==== Sys2Proof/Laws/Frames.lean ====
section
/-! SUPPORT. What the shared operations of logging, posting and writing leave unchanged: each lemma says once everything the
operation can do. -/

namespace Sys2Proof.Machine

/-! ### Logging and posting -/

/-- `t` is `s` but for what logging, interrupts and posting may write: registers, the log, host memory, MSI-X pending bits,
held records, the free-value counter, and what leaves the device. -/
def LogsOnly (s t : State) : Prop :=
  t = { s with
    regs := t.regs
    ras := t.ras
    hostMem := t.hostMem
    msix := t.msix
    heldRecs := t.heldRecs
    freeIx := t.freeIx
    out := t.out }

theorem LogsOnly.refl (s : State) : LogsOnly s s := rfl

theorem LogsOnly.trans {s t u : State} (h : LogsOnly s t) (k : LogsOnly t u) : LogsOnly s u := by
  unfold LogsOnly at *
  rw [k, h]

theorem LogsOnly.groups {s t : State} (h : LogsOnly s t) : t.groups = s.groups := by rw [h]
theorem LogsOnly.launches {s t : State} (h : LogsOnly s t) : t.launches = s.launches := by rw [h]
theorem LogsOnly.queues {s t : State} (h : LogsOnly s t) : t.queues = s.queues := by rw [h]
theorem LogsOnly.pool {s t : State} (h : LogsOnly s t) : t.pool = s.pool := by rw [h]
theorem LogsOnly.heap {s t : State} (h : LogsOnly s t) : t.heap = s.heap := by rw [h]
theorem LogsOnly.pending {s t : State} (h : LogsOnly s t) : t.pending = s.pending := by rw [h]

theorem logsOnly_setReg (s : State) (r : Reg) (v : Nat) : LogsOnly s (s.setReg r v) := rfl
theorem logsOnly_setRf (s : State) (r : Reg) (hi lo v : Nat) : LogsOnly s (s.setRf r hi lo v) := rfl
theorem logsOnly_emit (s : State) (o : Out) : LogsOnly s (s.emit o) := rfl
theorem logsOnly_fresh (s : State) : LogsOnly s s.fresh.2 := rfl

theorem logsOnly_fire (s : State) (fn vec : Nat) : LogsOnly s (s.fire fn vec) := by
  unfold State.fire
  dsimp only
  split
  · rfl
  · exact logsOnly_emit s _

theorem logsOnly_hostWrite (s : State) (k : Nat) (bs : List Byte) : LogsOnly s (s.hostWrite k bs) := by
  induction bs generalizing s k with
  | nil => exact LogsOnly.refl s
  | cons b bs ih =>
    have h : LogsOnly s { s with hostMem := Map.put s.hostMem k b } := rfl
    exact h.trans (ih _ _)

theorem logsOnly_setReadyFn (s : State) (i : Nat) (b : Bool) : LogsOnly s (s.setReadyFn i b) := by
  unfold State.setReadyFn
  split
  · exact LogsOnly.refl s
  · exact (logsOnly_setRf s _ _ _ _).trans (logsOnly_fire _ _ _)

theorem logsOnly_rasPost (s : State) (e : RasEntry) : LogsOnly s (s.rasPost e) := by
  unfold State.rasPost
  dsimp only
  split
  · split
    · exact logsOnly_setReg s _ _
    · exact ((logsOnly_hostWrite s _ _).trans (logsOnly_setReg _ _ _)).trans (logsOnly_fire _ _ _)
  · exact LogsOnly.refl s

/-- Logging an event changes the log and what its posting writes. -/
theorem logsOnly_ras (s : State) (e : RasEntry) : LogsOnly s (s.ras_ e) := by
  have h : ∀ (l : List RasEntry) (v : Nat) (x : RasEntry), LogsOnly s ((State.setReg { s with ras := l } .rasStoreSeq v).rasPost x) := by
    intro l v x
    have h0 : LogsOnly s (State.setReg { s with ras := l } .rasStoreSeq v) := rfl
    exact h0.trans (logsOnly_rasPost _ _)
  unfold State.ras_
  split
  · rfl
  · dsimp only
    split
    · exact h _ _ _
    · split
      · exact h _ _ _
      · exact logsOnly_setReg s _ _

theorem logsOnly_accessError (s : State) (rule fn off : Nat) : LogsOnly s (s.accessError rule fn off) := logsOnly_ras s _
theorem logsOnly_dropped (s : State) (rule p : Nat) : LogsOnly s (s.dropped rule p) := logsOnly_ras s _

theorem logsOnly_foldl {α : Type} {f : State → α → State} (h : ∀ u x, LogsOnly u (f u x)) (xs : List α) (s : State) :
    LogsOnly s (xs.foldl f s) := by
  induction xs generalizing s with
  | nil => exact LogsOnly.refl s
  | cons x xs ih => exact (h s x).trans (ih _)

/-- A write that a Failing channel discards is logged. -/
theorem logsOnly_discardNote (s : State) (ks : List Nat) : LogsOnly s (s.discardNote ks) :=
  logsOnly_foldl (fun u _ => logsOnly_ras u _) _ s

/-! ### Writes at locations -/

/-- `t` is `s` but for what a write at locations may write. -/
def WritesOnly (s t : State) : Prop :=
  t = { s with
    regs := t.regs
    ras := t.ras
    hostMem := t.hostMem
    msix := t.msix
    heldRecs := t.heldRecs
    freeIx := t.freeIx
    out := t.out
    heap := t.heap
    pool := t.pool
    heapPoison := t.heapPoison
    poolPoison := t.poolPoison
    hostPoison := t.hostPoison
    narrow := t.narrow
    wc1 := t.wc1
    wc2 := t.wc2 }

theorem WritesOnly.refl (s : State) : WritesOnly s s := rfl
theorem WritesOnly.trans {s t u : State} (h : WritesOnly s t) (k : WritesOnly t u) : WritesOnly s u := by
  unfold WritesOnly at *
  rw [k, h]
theorem LogsOnly.writes {s t : State} (h : LogsOnly s t) : WritesOnly s t := by
  unfold LogsOnly at h
  unfold WritesOnly
  rw [h]

theorem WritesOnly.groups {s t : State} (h : WritesOnly s t) : t.groups = s.groups := by rw [h]
theorem WritesOnly.launches {s t : State} (h : WritesOnly s t) : t.launches = s.launches := by rw [h]
theorem WritesOnly.queues {s t : State} (h : WritesOnly s t) : t.queues = s.queues := by rw [h]
theorem WritesOnly.pending {s t : State} (h : WritesOnly s t) : t.pending = s.pending := by rw [h]

theorem writesOnly_writeLoc (s : State) (pasid : Nat) (l : Loc) (b : Byte) : WritesOnly s (s.writeLoc pasid l b) := by
  cases l with
  | heap k =>
    simp only [State.writeLoc]
    split <;> rfl
  | pool k => rfl
  | host a => rfl
  | mmio o => rfl

theorem writesOnly_writeAll (s : State) (pasid : Nat) (ls : List Loc) (bs : List Byte) :
    WritesOnly s (s.writeAll pasid ls bs) := by
  induction ls generalizing s bs with
  | nil => exact WritesOnly.refl s
  | cons l ls ih =>
    cases bs with
    | nil => exact WritesOnly.refl s
    | cons b bs => exact (writesOnly_writeLoc s pasid l b).trans (ih _ _)

theorem writesOnly_writeLocs (s : State) (pasid : Nat) (ls : List Loc) (bs : List Byte) :
    WritesOnly s (s.writeLocs pasid ls bs) := by
  unfold State.writeLocs
  dsimp only
  have h := writesOnly_writeAll s pasid ls bs
  refine WritesOnly.trans h (WritesOnly.trans ?_ (logsOnly_discardNote _ _).writes)
  rfl

theorem writesOnly_poisonLocs (s : State) (ls : List Loc) : WritesOnly s (s.poisonLocs ls) := rfl

theorem logsOnly_freshBytes (s : State) (n : Nat) : LogsOnly s (s.freshBytes n).2 := by
  induction n generalizing s with
  | zero => exact LogsOnly.refl s
  | succ n ih => exact (logsOnly_fresh s).trans (ih _)

theorem logsOnly_noteCommon (s : State) (p dpa : Nat) : LogsOnly s (s.noteCommon p dpa) := by
  unfold State.noteCommon
  split
  · refine logsOnly_foldl (fun u n => ?_) _ s
    split
    · split <;> exact logsOnly_setRf u _ _ _ _
    · exact LogsOnly.refl u
  · exact LogsOnly.refl s

/-- Noting a walk writes registers and the log alone (R236, R359). -/
theorem logsOnly_noteMet (s : State) (p : Nat) (ms : List Met) : LogsOnly s (s.noteMet p ms) := by
  unfold State.noteMet
  refine LogsOnly.trans ?_ (logsOnly_foldl (fun u m => ?_) ms _)
  · unfold State.noteRun
    split
    · exact logsOnly_ras _ _
    · exact LogsOnly.refl s
  · split
    · exact logsOnly_noteCommon u _ _
    · exact LogsOnly.refl u

theorem writesOnly_addWalk (s : State) (a : List Wc1) (b : List Wc2) : WritesOnly s (s.addWalk a b) := rfl

theorem writesOnly_noteIpa (s : State) (p ipa n : Nat) (w : Bool) : WritesOnly s (s.noteIpa p ipa n w) := by
  unfold State.noteIpa
  split
  · exact (logsOnly_noteMet _ _ _).writes.trans (writesOnly_addWalk _ _ _)
  · exact WritesOnly.refl s

/-- Saving into the preemption save region writes memory and notes its walks (R255). -/
theorem writesOnly_writeSave (s : State) (p base : Nat) (is : List Nat) : WritesOnly s (s.writeSave p base is) := by
  induction is generalizing s with
  | nil => exact WritesOnly.refl s
  | cons i is ih =>
    unfold State.writeSave
    dsimp only
    refine WritesOnly.trans ?_ (ih _)
    split
    · split
      · exact (logsOnly_freshBytes s 32).writes.trans ((writesOnly_noteIpa _ _ _ _ _).trans (writesOnly_writeLocs _ _ _ _))
      · exact WritesOnly.refl s
    · exact WritesOnly.refl s

/-- Copying sectors writes memory alone (R252). -/
theorem writesOnly_copySectors {s t : State} (src dst : Nat → Option (List Loc)) (is : List Nat)
    (h : s.copySectors src dst is = some t) : WritesOnly s t := by
  induction is generalizing s with
  | nil =>
    cases h
    exact WritesOnly.refl _
  | cons i is ih =>
    unfold State.copySectors at h
    split at h
    · refine WritesOnly.trans ?_ (ih h)
      split
      · exact (writesOnly_writeLocs _ _ _ _).trans (writesOnly_poisonLocs _ _)
      · exact writesOnly_writeLocs _ _ _ _
    · cases h

/-! ### The canonical form of the memories -/

theorem memory_wf_writeLoc {s : State} (pasid : Nat) (l : Loc) (b : Byte) (hp : s.pool.wf = true) (hh : s.heap.wf = true) :
    (s.writeLoc pasid l b).pool.wf = true ∧ (s.writeLoc pasid l b).heap.wf = true := by
  cases l with
  | heap k =>
    simp only [State.writeLoc]
    split
    · exact ⟨hp, hh⟩
    · exact ⟨hp, Memory.wf_write _ _ _ hh⟩
  | pool k => exact ⟨Memory.wf_write _ _ _ hp, hh⟩
  | host a => exact ⟨hp, hh⟩
  | mmio o => exact ⟨hp, hh⟩

theorem memory_wf_writeAll {s : State} (pasid : Nat) (ls : List Loc) (bs : List Byte) (hp : s.pool.wf = true)
    (hh : s.heap.wf = true) : (s.writeAll pasid ls bs).pool.wf = true ∧ (s.writeAll pasid ls bs).heap.wf = true := by
  induction ls generalizing s bs with
  | nil => exact ⟨hp, hh⟩
  | cons l ls ih =>
    cases bs with
    | nil => exact ⟨hp, hh⟩
    | cons b bs =>
      obtain ⟨h1, h2⟩ := memory_wf_writeLoc pasid l b hp hh
      exact ih _ h1 h2

/-- Every write at locations keeps the canonical form of pools and Heaps. -/
theorem memory_wf_writeLocs {s : State} (pasid : Nat) (ls : List Loc) (bs : List Byte) (hp : s.pool.wf = true)
    (hh : s.heap.wf = true) : (s.writeLocs pasid ls bs).pool.wf = true ∧ (s.writeLocs pasid ls bs).heap.wf = true := by
  obtain ⟨h1, h2⟩ := memory_wf_writeAll pasid ls bs hp hh
  unfold State.writeLocs
  dsimp only
  rw [(logsOnly_discardNote _ _).pool, (logsOnly_discardNote _ _).heap]
  exact ⟨h1, h2⟩

/-! ### The bytes that a write leaves -/

theorem regs_writeLoc (s : State) (pasid : Nat) (l : Loc) (b : Byte) : (s.writeLoc pasid l b).regs = s.regs := by
  cases l with
  | heap k =>
    simp only [State.writeLoc]
    split <;> rfl
  | pool k => rfl
  | host a => rfl
  | mmio o => rfl

theorem coh_writeLoc (s : State) (pasid : Nat) (l : Loc) (b : Byte) : (s.writeLoc pasid l b).coh = s.coh := by
  rw [writesOnly_writeLoc s pasid l b]

theorem lastByte_nil (bs : List Byte) (l : Loc) : lastByte [] bs l = none := rfl
theorem lastByte_nil_right (ls : List Loc) (l : Loc) : lastByte ls [] l = none := by simp [lastByte]

theorem lastByte_cons (x : Loc) (b : Byte) (ls : List Loc) (bs : List Byte) (l : Loc) :
    lastByte (x :: ls) (b :: bs) l = (lastByte ls bs l).or (if x = l then some b else none) := by
  simp only [lastByte, List.zip_cons_cons, List.reverse_cons, List.find?_append]
  cases (ls.zip bs).reverse.find? (fun p => p.1 == l) with
  | some p => simp
  | none =>
    by_cases h : x = l
    · simp [h]
    · have hb : (x == l) = false := beq_eq_false_iff_ne.mpr h
      simp [h, hb]

/-- A write of bytes one after another leaves at each pool offset the last byte written there. -/
theorem pool_writeAll (s : State) (pasid : Nat) (ls : List Loc) (bs : List Byte) (k : Nat) :
    (s.writeAll pasid ls bs).pool.read k = (lastByte ls bs (.pool k)).getD (s.pool.read k) := by
  induction ls generalizing s bs with
  | nil => rfl
  | cons l ls ih =>
    cases bs with
    | nil => rw [lastByte_nil_right]; rfl
    | cons b bs =>
      simp only [State.writeAll, ih, lastByte_cons]
      cases lastByte ls bs (.pool k) with
      | some y => rfl
      | none =>
        cases l with
        | heap j =>
          simp only [State.writeLoc, reduceCtorEq, ↓reduceIte, Option.or_none, Option.getD_none]
          split <;> rfl
        | pool j =>
          by_cases h : j = k
          · subst h
            simp [State.writeLoc, Memory.read_write]
          · have h' : ¬ k = j := fun e => h e.symm
            simp [State.writeLoc, Memory.read_write, h, h']
        | host a => simp [State.writeLoc]
        | mmio o => simp [State.writeLoc]

/-- The same for a Heap; a Failing channel keeps its bytes (R49). -/
theorem heap_writeAll (s : State) (pasid : Nat) (ls : List Loc) (bs : List Byte) (k : Nat) :
    (s.writeAll pasid ls bs).heap.read k = if s.failing k then s.heap.read k else (lastByte ls bs (.heap k)).getD (s.heap.read k) := by
  induction ls generalizing s bs with
  | nil => simp [State.writeAll, lastByte_nil]
  | cons l ls ih =>
    cases bs with
    | nil => simp [State.writeAll, lastByte_nil_right]
    | cons b bs =>
      have hf : (s.writeLoc pasid l b).failing k = s.failing k := State.failing_congr (regs_writeLoc s pasid l b) (coh_writeLoc s pasid l b) k
      simp only [State.writeAll, ih, lastByte_cons, hf]
      cases l with
      | heap j =>
        by_cases hj : s.failing j
        · have e : s.writeLoc pasid (.heap j) b = s := by simp [State.writeLoc, hj]
          rw [e]
          by_cases h : j = k
          · subst h
            simp [hj]
          · simp [h]
        · have e : (s.writeLoc pasid (.heap j) b).heap = s.heap.write j b := by simp [State.writeLoc, hj]
          rw [e, Memory.read_write]
          by_cases h : j = k
          · subst h
            simp only [hj, Bool.false_eq_true, ↓reduceIte]
            cases lastByte ls bs (.heap j) <;> simp
          · have h' : ¬ k = j := fun x => h x.symm
            simp [h, h']
      | pool j => simp [State.writeLoc]
      | host a => simp [State.writeLoc]
      | mmio o => simp [State.writeLoc]

theorem poolPoison_writeAll (s : State) (pasid : Nat) (ls : List Loc) (bs : List Byte) :
    (s.writeAll pasid ls bs).poolPoison = s.poolPoison := by
  induction ls generalizing s bs with
  | nil => rfl
  | cons l ls ih =>
    cases bs with
    | nil => rfl
    | cons b bs =>
      simp only [State.writeAll, ih]
      cases l with
      | heap k =>
        simp only [State.writeLoc]
        split <;> rfl
      | pool k => rfl
      | host a => rfl
      | mmio o => rfl

theorem mem_poolKeys (ls : List Loc) (k : Nat) : k ∈ poolKeys ls ↔ .pool k ∈ ls := by
  simp only [poolKeys, List.mem_filterMap]
  constructor
  · rintro ⟨l, hl, h⟩
    cases l with
    | pool j => simp only [Option.some.injEq] at h; exact h ▸ hl
    | heap j => simp at h
    | host j => simp at h
    | mmio j => simp at h
  · intro h
    exact ⟨.pool k, h, rfl⟩

theorem mem_clearCovered (m : NSet) (ks : List Nat) (sec : Nat) :
    sec ∈ clearCovered m ks ↔ sec ∈ m ∧ ¬ ∀ i, i < 32 → sec * 32 + i ∈ ks := by
  simp [clearCovered]

/-- Writing bytes at locations is a `Wrote` (R49, R354). -/
theorem wrote_writeLocs (s : State) (pasid : Nat) (ls : List Loc) (bs : List Byte) : Wrote s (s.writeLocs pasid ls bs) ls bs := by
  have hpool : (s.writeLocs pasid ls bs).pool = (s.writeAll pasid ls bs).pool := by
    unfold State.writeLocs
    dsimp only
    rw [(logsOnly_discardNote _ _).pool]
  have hheap : (s.writeLocs pasid ls bs).heap = (s.writeAll pasid ls bs).heap := by
    unfold State.writeLocs
    dsimp only
    rw [(logsOnly_discardNote _ _).heap]
  have hpois : (s.writeLocs pasid ls bs).poolPoison = clearCovered s.poolPoison (poolKeys ls) := by
    unfold State.writeLocs
    dsimp only
    rw [logsOnly_discardNote]
    simp only [poolPoison_writeAll]
  have hw := writesOnly_writeLocs s pasid ls bs
  refine ⟨fun k => ?_, fun k => ?_, fun sec h => ?_, fun sec h hn => ?_, ?_⟩
  · rw [hpool, pool_writeAll]
  · rw [hheap, heap_writeAll]
  · rw [hpois, mem_clearCovered] at h
    exact ⟨h.1, fun hc => h.2 (fun i hi => (mem_poolKeys _ _).mpr (hc i hi))⟩
  · rw [hpois, mem_clearCovered]
    exact ⟨h, fun hc => hn (fun i hi => (mem_poolKeys _ _).mp (hc i hi))⟩
  · unfold WritesOnly at hw
    rw [hw]
    exact ⟨rfl, rfl, rfl, rfl, rfl, rfl, rfl, rfl, rfl, rfl, rfl⟩

/-! ### Posting records -/

theorem logsOnly_fringLose (s : State) (p : Nat) : LogsOnly s (s.fringLose p) := by
  exact logsOnly_setReg s _ _

theorem logsOnly_fringWrite (s : State) (p : Nat) (ws : List Word) : LogsOnly s (s.fringWrite p ws) := by
  exact ((logsOnly_hostWrite s _ _).trans (logsOnly_setReg _ _ _)).trans (logsOnly_fire _ _ _)

/-- Posting a record writes its ring, holds the record back, or counts it as lost (R246, R248). -/
theorem logsOnly_post (s : State) (p : Nat) (ws : List Word) : LogsOnly s (s.post p ws).1 := by
  unfold State.post
  split
  · exact logsOnly_fringLose s p
  · split
    · dsimp only
      split
      · rfl
      · exact logsOnly_fringLose s p
    · exact logsOnly_fringWrite s p ws

end Sys2Proof.Machine
end

