-- ==== Sys2Proof/Tests/Slice0.lean ====
section
/-! SUPPORT. Tests on small states: a witness for the hypotheses of each statement, the well-formedness checks, the words of
the spec's worked encodings, and worked examples of the spec. -/

set_option Elab.async false

namespace Sys2Proof.Tests
open Sys2Proof Sys2Proof.Machine

/-! ### Small states -/

/-- A device in service: every ready bit set, bring-up done. -/
def up : State :=
  { ((((List.range 6).foldl (fun (s : State) k => s.setReg (.glbReadyChan k) (2 ^ 64 - 1)) State.reset).setReg .glbReadyFn
      (2 ^ 33 - 1)).setReg .glbReadyBsnLo (2 ^ 64 - 1)).setReg .glbReadyBsnHi (2 ^ 32 - 1) with
    boot := { State.reset.boot with phase := 2 }
    pins := { State.reset.pins with pwrGood := true } }

/-- A launch of context 5 of PF0 on a core. -/
def launchOn (core : Nat) : Launch :=
  ⟨5, 127, 0, 0, core, 0x1000, 0, 32, .running, 0, 0, 0, 0, [], false, 0, false, false, [], [], 0, 0, 0, 0⟩

/-- A group of launch 1 at address 0x1000. -/
def grp : Group := ⟨1, 0, [], [], [], [], [], 0xFFFFFFFF, 0xFFFFFFFF, 0x1000, [], [], [], .run⟩

/-- M-core 0, group slot 0. -/
def r0 : GroupRef := ⟨0, 0⟩

/-- The first 64 KiB of context 5 are the first of Shared. -/
def page : TlbEntry := ⟨0, 5, 127, 0, 65536, 0, 2 ^ 48, true, true, true⟩

/-- A device on which group `g` of launch 1 stands at `r`. -/
def stands (r : GroupRef) (g : Group) : State :=
  { up with
    groups := [(refKey r, g)]
    launches := [(1, launchOn r.core.toNat)]
    tlb := [page] }

/-- Operand bits of a 64-bit form. -/
def enc (ops : Nat) : Enc := ⟨false, false, false, 0, BitVec.ofNat 46 ops, 0⟩

/-- Write a word at an offset of Shared. -/
def poke (s : State) (off w : Nat) : State :=
  match s.locateN (2 ^ 48 + off) 8 with
  | some ls => s.writeLocs 0 ls (leBytes w 8)
  | none => s

/-- Write words from an offset of Shared up. -/
def pokes (s : State) (off : Nat) : List Nat → State
  | [] => s
  | w :: ws => pokes (poke s off w) (off + 8) ws

/-- The words of an instruction stand in Shared at a 64 B line that `page` maps, and in its core's instruction cache. -/
def placed (s : State) (core pc : Nat) (i : Instr) : State :=
  match frontEnd i with
  | none => s
  | some (_, e, n) =>
    let t := poke (poke s pc (encWord n.op n.fn e).toNat) (pc + 8) (encHi e).toNat
    { t with icache := [(icKey (icacheOf core (pc / 64)) (pc / 64),
      ⟨leBytes (encWord n.op n.fn e).toNat 8 ++ leBytes (encHi e).toNat 8 ++ List.replicate 48 0, 0⟩)] }

/-- The state that a fetch leaves. -/
def fetched (s : State) (core ctx pc : Nat) : State :=
  match s.fetchInsn core ctx pc with
  | .got u _ _ none => u
  | _ => s

/-- `Ready`, as a Bool. -/
def readyB (s : State) (r : GroupRef) (g : Group) (l : Launch) : Bool :=
  decide (Map.find? s.groups (refKey r) = some g) && decide (Map.find? s.launches g.launch = some l) && decide (g.stat = .run) &&
    decide (l.phase = .running) && !s.hung.contains r.core.toNat && decide (s.rf .pwrSts 7 7 ≠ 1) &&
    !s.arriving r.core.toNat g.launch

theorem ready_of {s : State} {r : GroupRef} {g : Group} {l : Launch} (h : readyB s r g l = true) : Ready s r g l := by
  simp only [readyB, Bool.and_eq_true, decide_eq_true_eq, Bool.not_eq_true', List.contains_eq_mem] at h
  obtain ⟨⟨⟨⟨⟨⟨h1, h2⟩, h3⟩, h4⟩, h5⟩, h6⟩, h7⟩ := h
  exact ⟨h1, h2, h3, h4, by simpa using h5, h6, h7⟩

/-- The words fetched at a group's program counter are these, free of poison. -/
def fetches (s : State) (core ctx pc : Nat) (w0 w1 : Word) : Bool :=
  match s.fetchInsn core ctx pc with
  | .got _ v0 v1 none => decide (v0 = w0) && decide (v1 = w1)
  | _ => false

theorem fetched_of {s : State} {core ctx pc : Nat} {w0 w1 : Word} (h : fetches s core ctx pc w0 w1 = true) :
    s.fetchInsn core ctx pc = .got (fetched s core ctx pc) w0 w1 none := by
  unfold fetches at h
  unfold fetched
  split at h
  · rename_i u v0 v1 hf
    simp only [Bool.and_eq_true, decide_eq_true_eq] at h
    rw [hf, h.1, h.2]
  · simp at h

/-- `Issues` into the state that the fetch leaves, as a Bool. -/
def issuesB (s : State) (i : Instr) (r : GroupRef) (e : Enc) (g : Group) (l : Launch) : Bool :=
  readyB s r g l && decide (g.pc.toNat % 8 = 0) &&
    match frontEnd i with
    | some (r', e', n) => decide (r' = r) && decide (e' = e) && decide (n.code = none) && n.sregs.all (fun x => !g.sbusy.contains x) &&
      fetches s r.core.toNat l.ctx g.pc.toNat (encWord n.op n.fn e) (encHi e)
    | none => false

theorem issues_of {s : State} {i : Instr} {r : GroupRef} {e : Enc} {g : Group} {l : Launch} (h : issuesB s i r e g l = true) :
    Issues s (fetched s r.core.toNat l.ctx g.pc.toNat) i r e g l := by
  unfold issuesB at h
  simp only [Bool.and_eq_true, decide_eq_true_eq] at h
  obtain ⟨⟨h1, h2⟩, h4⟩ := h
  split at h4
  · rename_i r' e' n hf
    simp only [Bool.and_eq_true, decide_eq_true_eq, List.all_eq_true, Bool.not_eq_true'] at h4
    obtain ⟨⟨⟨⟨rfl, rfl⟩, hc⟩, hb⟩, hw⟩ := h4
    exact ⟨ready_of h1, n, hf, hc, fun x hx => by simpa using hb x hx, h2, fetched_of hw⟩
  · simp at h4

/-- The instruction stands first in a group's launch and meets no fault of the front end. -/
def issues (i : GroupRef → Enc → Instr) (r : GroupRef) (e : Enc) (g : Group) : Bool :=
  issuesB (placed (stands r g) r.core.toNat g.pc.toNat (i r e)) (i r e) r e g (launchOn r.core.toNat)

/-- The state in which it takes effect. -/
def after (i : GroupRef → Enc → Instr) (r : GroupRef) (e : Enc) (g : Group) : State :=
  fetched (placed (stands r g) r.core.toNat g.pc.toNat (i r e)) r.core.toNat 5 g.pc.toNat

/-- No scalar register that an instruction reads is poisoned, as a Bool. -/
def cleanB (i : Instr) (g : Group) : Bool :=
  match frontEnd i with
  | some (_, _, n) => n.sregs.all (fun x => !g.spois.contains x)
  | none => true

theorem clean_of {i : Instr} {g : Group} (h : cleanB i g = true) : scalarsClean i g := by
  intro r e n hf x hx
  unfold cleanB at h
  rw [hf] at h
  simp only [List.all_eq_true, Bool.not_eq_true'] at h
  simpa using h x hx

/-- Operand bits from fields: low bit and value. -/
def f (l : List (Nat × Nat)) : Enc := enc (l.foldl (fun n x => n + x.2 * 2 ^ x.1) 0)

/-- A group whose scalar registers 1 and 2 hold 64 and 0x2000. -/
def grpS : Group := { grp with s := [(1, 64), (2, 0x2000)] }

/-- The bytes of the lanes of `xs`. -/
def laneBytes (s : State) (r : GroupRef) (l : Launch) (spc : Bool) (need : Need) (n : Nat) (xs : List LaneAcc) : List LaneBytes :=
  if spc then
    xs.filterMap (fun x => match s.look r.core.toNat l.ctx x.2 n need with
      | .ok dpa ls => some (⟨x.1, x.2, dpa, ls⟩ : LaneBytes)
      | _ => none)
  else xs.map (fun x => ⟨x.1, x.2, x.2, poolLocs r.core.toNat x.2 n⟩)

/-- `Performs` for the lanes of `xs`, as a Bool. -/
def performsB (s : State) (r : GroupRef) (l : Launch) (spc : Bool) (need : Need) (u : CohUse) (writes reads : Bool) (n : Nat)
    (xs : List LaneAcc) : Bool :=
  let core := r.core.toNat
  let cache := cacheOf core r.slot.toNat
  let bs := laneBytes s r l spc need n xs
  xs.all (fun x => x.2 % n == 0) && (!reads || bs.all (fun b => !(s.readLocs 0 b.locs).2)) &&
  (if spc then
    decide (bs.map (fun b => (b.lane, b.addr)) = xs) &&
      bs.all (fun b => decide (s.look core l.ctx b.addr n need = .ok b.dpa b.locs) && !s.laneDown u cache n b &&
        b.locs.all (fun x => !s.inRepair x)) &&
      (s.cohAccess u cache bs n).isSome
  else xs.all (fun x => decide (x.2 + n ≤ poolSize core)) && !s.poolHeld core (xs.map (fun x => ((x.2, n), writes))))

theorem performs_of {s : State} {r : GroupRef} {l : Launch} {spc : Bool} {need : Need} {u : CohUse} {writes reads : Bool} {n : Nat}
    {xs : List LaneAcc} (h : performsB s r l spc need u writes reads n xs = true) :
    ∃ t bs, Performs s r l spc need u writes reads n xs t bs := by
  unfold performsB at h
  simp only [Bool.and_eq_true, Bool.or_eq_true, List.all_eq_true, Bool.not_eq_true', beq_iff_eq] at h
  obtain ⟨⟨h1, h2⟩, h3⟩ := h
  have hr : reads = true → ∀ b ∈ laneBytes s r l spc need n xs, (s.readLocs 0 b.locs).2 = false := by
    intro hr
    rcases h2 with h2 | h2
    · simp [hr] at h2
    · exact h2
  cases spc
  · simp only [Bool.and_eq_true, List.all_eq_true, decide_eq_true_eq, Bool.not_eq_true', Bool.false_eq_true, ↓reduceIte] at h3
    exact ⟨s, _, h1, hr, fun _ => ⟨rfl, rfl, h3.1, h3.2⟩, fun h => absurd h (by decide)⟩
  · simp only [Bool.and_eq_true, List.all_eq_true, decide_eq_true_eq, Bool.not_eq_true', ↓reduceIte] at h3
    obtain ⟨⟨h3, h4⟩, h5⟩ := h3
    obtain ⟨w, hw⟩ := Option.isSome_iff_exists.mp h5
    exact ⟨_, _, h1, hr, fun h => absurd h (by decide), fun _ => ⟨h3, fun b hb => ⟨(h4 b hb).1.1, (h4 b hb).1.2, (h4 b hb).2⟩, w, hw, rfl⟩⟩

/-! ### Instructions: each issues in a small state -/

theorem witness_valu : ∀ i ∈ [Instr.vadd, .vmov], issues i r0 (enc 0) grp = true ∧ cleanB (i r0 (enc 0)) grp = true := by decide +kernel

theorem witness_vsfu : ∀ i ∈ [Instr.vrcp, .vsigmoid],
    issues i r0 (f [(17, 4)]) grp = true := by decide +kernel

theorem witness_vcvt : issues .vcvt r0 (f [(17, 4)]) grp = true ∧ isMx (encT (f [(17, 4)])) = false ∧
    issues .vcvt r0 (f [(17, 0x0B), (23, 4)]) grp = true ∧ isMx (encT (f [(17, 0x0B), (23, 4)])) = true ∧
    cvtSrc (f [(17, 0x0B), (23, 4)]) = 4 := by decide +kernel

theorem witness_permute : ∀ i ∈ [Instr.shfl, .bcast, .redadd, .scanadd, .vtos, .vcmp],
    issues i r0 (enc 0) grp = true ∧ cleanB (i r0 (enc 0)) grp = true := by decide +kernel

theorem witness_predicates : ∀ i ∈ [Instr.pand, .pmov, .ptos],
    issues i r0 (enc 0) grp = true ∧ cleanB (i r0 (enc 0)) grp = true := by decide +kernel

theorem witness_reduction_of_no_lane : effMask grp ⟨false, false, true, 0, 0, 0⟩ = 0 ∧
    issues .redadd r0 ⟨false, false, true, 0, 0, 0⟩ grp = true := by decide +kernel

theorem witness_salu : ∀ i ∈ [Instr.sadd, .scmp, .rdctr, .tset],
    issues i r0 (enc 0) grp = true ∧ cleanB (i r0 (enc 0)) grp = true := by decide +kernel

theorem witness_poisoned_lane : issues .vadd r0 (enc 0) { grp with vpois := [31] } = true ∧
    31 ∈ valuLanes 0 (enc 0) 31 := by decide +kernel

/-- Lanes of VLD and VST at s1 = 64, 4 bytes each, in a pool and in Shared at s2 = 0x2000. -/
theorem witness_vector_memory :
    (∀ i ∈ [Instr.vld, .vst], issues i r0 (f [(34, 1), (23, 2)]) grpS = true) ∧
    issues .vld r0 (f [(34, 2), (26, 1), (23, 2)]) grpS = true ∧
    performsB (after .vst r0 (f [(34, 1), (23, 2)]) grpS) r0 (launchOn 0) false needW .store true false 4
      ((lanesOf 0xFFFFFFFF).map (fun j => (j, memLane grpS (f [(34, 1), (23, 2)]) j))) = true ∧
    performsB (after .vld r0 (f [(34, 2), (26, 1), (23, 2)]) grpS) r0 (launchOn 0) true needR .load false true 4
      ((lanesOf 0xFFFFFFFF).map (fun j => (j, memLane grpS (f [(34, 2), (26, 1), (23, 2)]) j))) = true := by decide +kernel

theorem witness_scalar_memory :
    issues .sld r0 (f [(34, 1), (23, 3)]) grpS = true ∧ issues .sst r0 (f [(34, 2), (26, 1), (23, 3)]) grpS = true ∧
    performsB (after .sld r0 (f [(34, 1), (23, 3)]) grpS) r0 (launchOn 0) false needR .load false true 8 [(0, 64)] = true ∧
    performsB (after .sst r0 (f [(34, 2), (26, 1), (23, 3)]) grpS) r0 (launchOn 0) true needW .store true false 8
      [(0, 0x2000)] = true := by decide +kernel

theorem witness_misaligned_lane : issues .vld r0 (f [(34, 1), (23, 2), (0, 1)]) grpS = true ∧
    memLane grpS (f [(34, 1), (23, 2), (0, 1)]) 0 % 4 ≠ 0 := by decide +kernel

theorem witness_past_the_pool : let g := { grp with s := [(1, 4 * 2 ^ 20 - 4)] }
    issues .vst r0 (f [(34, 1), (23, 2)]) g = true ∧ memLane g (f [(34, 1), (23, 2)]) 0 + 4 = poolSize 0 ∧
    poolSize 0 < memLane g (f [(34, 1), (23, 2)]) 1 + 4 := by decide +kernel

theorem witness_atom : issues .atom r0 (f [(34, 1), (15, 1)]) grpS = true ∧ cleanB (.atom r0 (f [(34, 1), (15, 1)])) grpS = true ∧
    performsB (after .atom r0 (f [(34, 1), (15, 1)]) grpS) r0 (launchOn 0) false needRWA .store true true 8 [(0, 64)] = true ∧
    issues .atom r0 (f [(34, 2), (20, 2), (14, 1)]) grpS = true ∧
    performsB (after .atom r0 (f [(34, 2), (20, 2), (14, 1)]) grpS) r0 (launchOn 0) true needRWA .home true true 4
      [(0, 0x2000)] = true ∧
    issues .atom r0 (f [(13, 1)]) grp = true ∧
    performsB (after .atom r0 (f [(13, 1)]) grp) r0 (launchOn 0) false needRWA .store true true 4
      ((lanesOf 0xFFFFFFFF).map (fun j => (j, grp.elem false 0 j))) = true := by decide +kernel

theorem witness_control : ∀ i ∈ [Instr.fence, .bra, .bCc, .call, .split, .elseMask, .join, .cut], issues i r0 (enc 0) { grp with stack := [⟨0xFFFFFFFF, 1, 0x1008⟩] } = true := by decide +kernel

/-- A valid tile descriptor: type, rows, stored K, row stride, base. -/
def tileD (ty rows k stride base : Nat) : BitVec 128 :=
  BitVec.ofNat 128 (2 ^ 63 + ty * 2 ^ 57 + (rows - 1) * 2 ^ 45 + stride * 2 ^ 25 + base + (k - 1) * 2 ^ 64)

/-- A group whose tile registers 1 and 2 name F32 tiles of 32 rows of 4 elements, t3 and t4 BF16 tiles of 16 and 32 rows, t5 an F32 tile of 16. -/
def grpT : Group :=
  { grp with t := [(1, tileD 4 32 4 16 0x400), (2, tileD 4 32 4 16 0x800), (3, tileD 5 16 32 64 0x1000), (4, tileD 5 32 32 64 0x2000),
    (5, tileD 4 16 4 16 0x400)] }

theorem witness_fragments :
    issues .tldF r0 (f [(30, 1)]) grpT = true ∧ fragFault grpT (f [(30, 1)]) false (poolSize 0) = none ∧
    issues .tstF r0 (f [(30, 1)]) grpT = true ∧ fragFault grpT (f [(30, 1)]) true (poolSize 0) = none ∧
    fragElems grpT (f [(30, 1)]) ≠ [] ∧
    (let s := after .tldF r0 (f [(30, 1)]) grpT
     s.poolHeld 0 ((fragElems grpT (f [(30, 1)])).map (fun x => ((x.2.2, 4), true))) = false ∧
     ∀ x ∈ fragElems grpT (f [(30, 1)]), (s.poolRead 0 x.2.2 (fragBytes grpT (f [(30, 1)]))).2 = false) := by decide +kernel

theorem witness_alignment_of_branches : ∀ i ∈ [Instr.jr, .ret],
    issues i r0 (f [(34, 1)]) { grp with s := [(1, 4)] } = true ∧ { grp with s := [(1, 4)] }.gs (encA (f [(34, 1)])) = 4 ∧
    issues i r0 (f [(34, 1)]) grpS = true ∧ grpS.gs (encA (f [(34, 1)])) = 64 := by decide +kernel

theorem witness_mask_stack_faults :
    issues .split r0 (enc 0) { grp with stack := List.replicate 32 ⟨1, 0, 0⟩ } = true ∧
    (∀ i ∈ [Instr.elseMask, .join, .cut], issues i r0 (enc 0) grp = true) ∧
    issues .endGroup r0 (enc 0) { grp with stack := [⟨1, 0, 0⟩] } = true ∧ issues .endGroup r0 (enc 0) grp = true := by
  decide +kernel

/-- A matrix command of group 0 of core 0 over t3 and t4. -/
def mtxCmd (kind : MtxKind) : MtxCmd :=
  ⟨0, ⟨some 1, 5, 127, 0, 0, 0, 0, 0, 0, 0, 0⟩, kind, 0, 0, f [(42, 3), (38, 4), (27, 5), (22, 5)], tileD 5 16 32 64 0x1000,
    tileD 5 32 32 64 0x2000, 0, none⟩

theorem witness_waits :
    (let i := Instr.twait r0 (f [(0, 8)])
     let s := placed { stands r0 grpT with mtx := [mtxCmd .mma] } 0 0x1000 i
     issuesB s i r0 (f [(0, 8)]) grpT (launchOn 0) = true ∧ (fetched s 0 5 0x1000).tileBusy 1 0 3 = true) ∧
    (∀ t, t < 16 → ¬ (bit 0 t = true)) ∧ (stands r0 grpT).tileBusy 1 0 1 = false ∧
    issues .swait r0 (f [(34, 1), (24, 1)]) grpS = true ∧ (64 + 8 ≤ poolSize 0) ∧
    (let s := after .swait r0 (f [(34, 1), (24, 1)]) grpS
     (s.poolRead 0 64 8).2 = false ∧ condInt 64 1 (ofLe (s.poolRead 0 64 8).1) 0 = false ∧
     condInt 64 0 (ofLe (s.poolRead 0 64 8).1) 0 = true) := by decide +kernel

/-- A ROUTE of group 0 of core 0 has not written its results: a FENCE and an ATOM of the group wait; without it they do not. -/
theorem witness_own_route :
    let o : RouteCmd := ⟨0, ⟨some 1, 5, 127, 0, 0, 0, 0, 0, 0, 0, 0⟩, 0, 64, 0x2000, 2, 4, 5, 2, 4, 0⟩
    (∀ i ∈ [Instr.fence, .atom],
      let s := placed { stands r0 grp with routes := [o] } 0 0x1000 (i r0 (enc 0))
      issuesB s (i r0 (enc 0)) r0 (enc 0) grp (launchOn 0) = true ∧ (fetched s 0 5 0x1000).ownRoute r0 1 = true) ∧
    (after .fence r0 (enc 0) grp).ownRoute r0 1 = false := by decide +kernel

theorem witness_fragment_of_control : issues .elect r0 (f [(42, 1), (36, 1)]) grp = true ∧ grp.act ≠ 0 ∧
    issues .split r0 (f [(42, 1)]) grp = true := by decide +kernel

/-- The operand bits of an MMA of t3 and t4, and of an MDRAIN into t5. -/
def mmaEnc : Enc := f [(42, 3), (38, 4), (27, 5), (22, 5)]
def drainEnc : Enc := f [(42, 5), (17, 4)]

theorem witness_matrix_issue :
    issues .mma r0 mmaEnc grpT = true ∧ mmaFault grpT mmaEnc 0 = none ∧ (after .mma r0 mmaEnc grpT).mtxWaits 0 1 0 .mma = false ∧
    issues .mdrain r0 drainEnc grpT = true ∧ drainFault grpT drainEnc 0 = none ∧
    (after .mdrain r0 drainEnc grpT).mtxWaits 0 1 0 .mdrain = false ∧ issues .mzero r0 (enc 0) grpT = true ∧
    (after .mzero r0 (enc 0) grpT).mtxWaits 0 1 0 .mzero = false ∧ effMask grpT mmaEnc ≠ 0 ∧ (after .mzero r0 (enc 0) grpT).mtx = [] := by
  decide +kernel

/-- A device on which a matrix command of group 0 is in flight. -/
def mtxS (kind : MtxKind) : State :=
  { stands r0 grpT with
    mtx := [mtxCmd kind]
    nextId := 1 }

theorem witness_queued_mzero :
    let i := Instr.mzero r0 (enc 0)
    let s := placed (mtxS .mma) 0 0x1000 i
    let u := fetched s 0 5 0x1000
    issuesB s i r0 (enc 0) grpT (launchOn 0) = true ∧ u.mtxWaits 0 1 0 .mzero = false ∧ u.nextId = 1 ∧
    (u.mtx.map (fun o => (o.id, o.org.core, o.arr, o.set, decide (o.kind = .mma)))) = [(0, 0, 0, 0, true)] ∧
    (let v := placed { mtxS .mma with mtx := List.replicate 8 (mtxCmd .mma) } 0 0x1000 i
     issuesB v i r0 (enc 0) grpT (launchOn 0) = true ∧ (fetched v 0 5 0x1000).mtxWaits 0 1 0 .mzero = true) := by decide +kernel

theorem witness_matrix_products :
    (mtxS .mma).mtxFirst (mtxCmd .mma) = true ∧ (mtxS .mma).cmdHeld 0 0 (mtxCmd .mma).ranges = false ∧
    (mtxS .mma).mmaPoison (mtxCmd .mma) = [] ∧ tdRows (mtxCmd .mma).ta ≤ mtxRows 0 ∧ tdRows (mtxCmd .mma).tb ≤ mtxCols 0 ∧
    { mtxS .mma with poolPoison := [128] }.mmaPoison (mtxCmd .mma) ≠ [] := by decide +kernel

theorem witness_matrix_drains :
    (mtxS .mdrain).mtxFirst (mtxCmd .mdrain) = true ∧ (mtxS .mdrain).cmdHeld 0 0 (mtxCmd .mdrain).ranges = false ∧
    drainBad (mtxCmd .mdrain) 0 = [] ∧ drainBad (mtxCmd .mdrain) 1 ≠ [] := by decide +kernel

/-! ### ROUTE, DMA, RMO -/

/-- V-core 4, group slot 0. -/
def r4 : GroupRef := ⟨4, 0⟩

/-- A ROUTE of two tokens over four F32 experts, K = 2: scores at s1, list at s2, count in s3. -/
def routeEnc : Enc :=
  ⟨false, true, false, 0, BitVec.ofNat 46 (5 * 2 ^ 40 + 2 ^ 34 + 2 * 2 ^ 28 + 3 * 2 ^ 22 + 4 * 2 ^ 17),
    BitVec.ofNat 64 (63 * 2 ^ 58 + 2 * 2 ^ 54 + 3 * 2 ^ 43)⟩

def grpR : Group := { grp with s := [(1, 64), (2, 0x2000), (3, 2)] }

def routeCmd : RouteCmd := ⟨0, ⟨some 1, 5, 127, 4, 0, 0, 0, 0, 0, 0, 0⟩, 0, 64, 0x2000, 2, 4, 5, 2, 4, 0⟩

theorem witness_route :
    issues .route r4 routeEnc grpR = true ∧ cleanB (.route r4 routeEnc) grpR = true ∧
    issues .route r4 routeEnc { grpR with s := [(1, 64), (2, 0x2000)] } = true ∧
    64 + scoreSpan 2 4 (encT routeEnc) ≤ poolSize 4 ∧ 0x2000 + 2 * 2 * 8 ≤ poolSize 4 ∧
    (let s := after .route r4 routeEnc grpR
     conflicts routeCmd.ranges (s.registered 4 s.nextId) = false ∧ s.regFree 4 = true ∧ s.routes = [] ∧
     (s.poolRead 4 64 (scoreSpan 2 4 (encT routeEnc))).2 = false) ∧
    (let v := placed { stands r4 grpR with routes := [routeCmd] } 4 0x1000 (.route r4 routeEnc)
     issuesB v (.route r4 routeEnc) r4 routeEnc grpR (launchOn 4) = true ∧
     (fetched v 4 5 0x1000).routes = [routeCmd] ∧ engineOf 4 0 = routeCmd.eng) := by decide +kernel

theorem witness_route_complete :
    let s := { stands r4 { grpR with sbusy := [5] } with routes := [routeCmd] }
    s.routes.find? (fun o => o.id == 0) = some routeCmd ∧ Map.find? s.groups (gkey 4 0) = some { grpR with sbusy := [5] } ∧
    routeCmd.org.launch = some grpR.launch ∧ routeCmd.dst = 5 := by decide +kernel

theorem witness_dma_issue : ∀ i ∈ [Instr.dmaCopy, .dmaBucket],
    issues i r0 (f [(32, 1)]) grpS = true ∧ cleanB (i r0 (f [(32, 1)])) grpS = true ∧ effMask grpS (f [(32, 1)]) ≠ 0 ∧
    ((after i r0 (f [(32, 1)]) grpS).engineCmds 0 0).length < 16 ∧ (after i r0 (f [(32, 1)]) grpS).regFree 0 = true := by
  decide +kernel

/-- A COPY of two rows of 32 bytes from 0x4000 to 0x8000, its status block at 0x100. -/
def copyD : List Word :=
  [0x4000, 0x8000, BitVec.ofNat 64 (31 * 2 ^ 48 + 2 ^ 32), BitVec.ofNat 64 (32 * 2 ^ 32 + 32), 0, 0, 0,
    BitVec.ofNat 64 (16 * 2 ^ 25)]

def copyCmd : DmaCmd :=
  ⟨0, ⟨some 1, 5, 127, 0, 0, 0, 0, 0, 0, 0, 0⟩, false, 0, 0, none, false, 64, none, 0, [], [], 0, none, none, false, none, none,
    none, none, [], []⟩

/-- Sixteen commands stand in the engine. -/
theorem witness_full_engine :
    let i := Instr.dmaCopy r0 (f [(32, 1)])
    let s := placed { stands r0 grpS with dma := List.replicate 16 copyCmd } 0 0x1000 i
    issuesB s i r0 (f [(32, 1)]) grpS (launchOn 0) = true ∧ 16 ≤ ((fetched s 0 5 0x1000).engineCmds 0 0).length ∧
    (fetched s 0 5 0x1000).regFree 0 = true := by decide +kernel

/-- A device with one DMA command in flight whose descriptor stands at 64 in the pool. -/
def dmaS (c : DmaCmd) : State :=
  { (stands r0 grpS).poolWrite 0 64 (copyD.flatMap (fun w => leBytes w.toNat 8)) with
    dma := [c]
    nextId := 1 }

/-- The command has left the queue; its first rows are delivered; it failed with status 8. -/
def copyRun (n : Nat) (fail : Option (Nat × Nat)) : DmaCmd :=
  { copyCmd with
    desc := some copyD
    cursor := n
    fail := fail
    srcR := some (0x4000, 64)
    dstR := some (0x8000, 64) }

theorem witness_dma_start :
    let s := dmaS copyCmd
    let bad : List Word := [0x4001, 0x8000, 0, 0, 0, 0, 0, BitVec.ofNat 64 (17 * 2 ^ 59)]
    s.running 0 0 = [] ∧ (∀ o ∈ s.engineCmds 0 0, ¬ o.id < 0) ∧
    (match s.fetchDesc copyCmd with
      | .ok (side, bs, false) => decide (bs = copyD.flatMap (fun w => leBytes w.toNat 8)) &&
        (match s.homeRead side.dpas with
          | some u => decide ((u.holdSides copyCmd [side]).startCheck { copyCmd with desc := some copyD } copyD = none) &&
              decide ((u.holdSides copyCmd [side]).startCheck { copyCmd with desc := some bad } bad = some (0x0A, 0))
          | none => false)
      | _ => false) = true ∧
    (List.range 8).map (wordAt (copyD.flatMap (fun w => leBytes w.toNat 8))) = copyD ∧ dStat copyD + 16 ≤ poolSize 0 := by
  decide +kernel

theorem witness_dma_rows :
    let s := dmaS (copyRun 0 none)
    let c := copyRun 0 none
    s.cmdHeld 0 0 c.ranges = false ∧ s.runsNow c = true ∧ s.rowHeld c copyD 1 = false ∧ Map.find? s.modeChg 0 = none ∧ dSV copyD = false ∧ dDV copyD = false ∧ dCodec copyD = 0 ∧ dRed copyD = false ∧
    dStype copyD = dDtype copyD ∧ 1 < dRows copyD ∧ c.has 1 = false ∧ c.rows copyD = 2 ∧
    (∀ a ∈ srcAddrs copyD (dSoff copyD 1) (dSrcBytes copyD) ++ dstAddrs copyD (dDoff copyD 1) (dDstBytes copyD),
      a < poolSize 0) ∧
    (s.plainRow c copyD 1).wait = false ∧ (s.plainRow c copyD 1).stop = none := by decide +kernel

theorem witness_dma_complete :
    (copyRun 2 none).rows copyD ≤ (copyRun 2 none).cursor ∧ (copyRun 2 none).susp = none ∧
    (copyRun 2 (some (8, 1))).fail = some (8, 1) := by decide +kernel

/-- Operand bits of an RMO: D (l) s1, A (o) s0, B (n) s3, C (v) s4, to this node, with a type and an operation. -/
def rmoEnc (ops : Nat) : Enc :=
  ⟨false, true, false, 0, BitVec.ofNat 46 (2 ^ 16 + ops), BitVec.ofNat 64 (63 * 2 ^ 58)⟩

def grpM : Group := { grp with s := [(1, 64), (3, 64), (5, 64), (7, 2 ^ 32 + 64)] }

theorem witness_rmo_issue :
    (∀ p ∈ ([(Instr.put, 0, rmoEnc (2 ^ 40 + 3 * 2 ^ 28)), (.get, 1, rmoEnc (2 ^ 40 + 3 * 2 ^ 28)),
        (.ratom, 2, rmoEnc (2 ^ 40 + 4 * 2 ^ 22)), (.sig, 3, rmoEnc (4 * 2 ^ 22)),
        (.puts, 4, rmoEnc (2 ^ 40 + 3 * 2 ^ 28 + 4 * 2 ^ 22)), (.iput, 5, rmoEnc (2 ^ 40 + 7 * 2 ^ 28)),
        (.red, 6, rmoEnc (2 ^ 40 + 3 * 2 ^ 28 + 10 * 2 ^ 12 + 4 * 2 ^ 7))] : List ((GroupRef → Enc → Instr) × Nat × Enc)),
      issues p.1 r0 p.2.2 grpM = true ∧ cleanB (p.1 r0 p.2.2) grpM = true ∧ effMask grpM p.2.2 ≠ 0 ∧
      rmoFault p.2.1 (poolSize 0) (if p.2.1 = 3 then 0 else (grpM.gs (encD p.2.2)).toNat) 0
        (if p.2.1 = 2 ∨ p.2.1 = 3 then 0 else (grpM.gs (encB p.2.2)).toNat)
        (if p.2.1 = 4 then (grpM.gs (encC p.2.2 + 1)).toNat else 0) (encF p.2.2 11 7) = none) ∧
    (let s := after .put r0 (rmoEnc (2 ^ 40 + 3 * 2 ^ 28)) grpM
     s.regFree 0 = true ∧ s.nodeId = 0) := by decide +kernel

/-- A PUT of 64 bytes to window 0 of this device; with a failure. -/
def putCmd (fail : Option RmoFail) : RmoCmd :=
  ⟨0, ⟨some 1, 5, 127, 0, 0, 0, 0, 0, 0, 0, 0⟩, 0, 0, true, 0, 0, 64, 0, 64, 0, 0, 0, 0, none, 0, 0, fail⟩

/-- Window 0 of PF0 over the pool of core 0: 4 KiB at 0x1000. -/
def win0 (r wdr : Bool) : Window := ⟨2, r, true, true, true, 0x1000, 4096, 0, 5, wdr⟩

def rmoS (c : RmoCmd) (w : Window) : State :=
  { (stands r0 grpM).setReg (.xltWinTab 127) (0x500000 + 16) with
    rmo := [c]
    nextId := 1
    windows := [(127 * 65536, w)] }

theorem witness_rmo_apply :
    let s := rmoS (putCmd none) (win0 true false)
    let o : TOp := .write (List.replicate 64 0)
    0 < s.winEntries 127 ∧ s.cmdHeld 0 0 (putCmd none).ranges = false ∧ s.flowBlocked (putCmd none) = false ∧ (putCmd none).count = 1 ∧
    s.rmoPiece (putCmd none) 0 = .op 0 0 0 o ∧ o.right (win0 true false) = true ∧ s.poolOpen 0 = true ∧
    s.rf (.bsnPwrSts 0) 1 0 < 2 ∧ (s.readLocs 0 (poolLocs 0 0x1000 64)).2 = false ∧
    (TOp.read 8).right (win0 false false) = false ∧
    ({ s with modeChg := [(0, ⟨true, false⟩)] }.poolOpen 0 = false) := by decide +kernel

theorem witness_rmo_outcomes :
    (match (rmoS (putCmd none) (win0 true false)).applyT 127 0 0 (.write (List.replicate 64 0)) with
      | .ok _ _ => true | _ => false) = true ∧
    (match (rmoS (putCmd none) (win0 true true)).applyT 127 0 0 (.write (List.replicate 64 0)) with
      | .fail x => x.code == 1 | _ => false) = true ∧
    (match (rmoS (putCmd none) (win0 true false)).applyT 127 0 4040 (.write (List.replicate 64 0)) with
      | .fail x => x.code == 2 | _ => false) = true := by decide +kernel

/-! ### Coherence -/

/-- A device whose caches, directory and messages are these. -/
def cohS (c : Coh) : State := { up with coh := c }

/-- The frame of line 5: present on die 0, its owner, and what the home awaits. -/
def frame5 (owner : Option Nat) (waits : List (Waiter × List Nat)) : Frame :=
  ⟨0, 0xF, 0, 1, owner, waits, [], 0⟩

/-- Line 5 is held by cache 0 in a state, dirty in sector 1, and by no other cache. -/
def held0 (st : L1St) (msgs : List CMsg) : State :=
  cohS ⟨[(lineKey 0 5, ⟨st, 2, []⟩)], [], [(5, frame5 (if st = .s then none else some 0) [])], [], msgs⟩

/-- The home can take a request for line 5. -/
def homeReady (s : State) : Bool := s.sharedUp && !s.lineDown 5 && !s.lineGone 5 && !s.tripped && decide (s.sliceQueued (homeSlice 5) < 64) && (s.frameFor 5 15).isSome

theorem witness_home_requests :
    (∀ s ∈ [up, held0 .s [], held0 .m []], s.mayRequest 3 5 = true ∧ s.l1 3 5 = none ∧ homeReady s = true ∧
      (s.dirOf 5).busy = false ∧ (s.dirOf 5).queue = []) ∧
    (match up.frameFor 5 15 with
      | some u => decide ((u.dirOf 5).owner = none ∧ (u.dirOf 5).present = 0) && decide (u.sharers 3 5 = []) | none => false) = true ∧
    (match (held0 .s []).frameFor 5 15 with
      | some u => decide ((u.dirOf 5).owner = none ∧ (u.dirOf 5).present ≠ 0) && decide (u.sharers 3 5 = [0]) | none => false) = true ∧
    (match (held0 .m []).frameFor 5 15 with
      | some u => decide ((u.dirOf 5).owner = some 0) && decide (u.sharers 3 5 = []) | none => false) = true ∧
    (held0 .o []).mayRequest 0 5 = true ∧ (held0 .o []).l1 0 5 = some ⟨.o, 2, []⟩ ∧ homeReady (held0 .o []) = true ∧
    (let s := cohS ⟨[], [], [(5, frame5 none [(.grant 9 true, [0])])], [], []⟩
     s.mayRequest 3 5 = true ∧ homeReady s = true ∧ (s.dirOf 5).busy = true) ∧
    (let s := up.setReg .glbReadyFn 0
     s.lineDown 5 = true ∧ s.sharedUp = false ∧ s.mayRequest 3 5 = true ∧ s.tripped = false) ∧
    (let s := up.setReg .glbReadyFn (2 ^ 33 - 1 - 256)
     s.lineDown 5 = false ∧ s.lineGone 5 = true ∧ s.sharedUp = true ∧ s.mayRequest 3 5 = true ∧ s.tripped = false) := by decide +kernel

theorem witness_forwards :
    (∀ k ∈ [CKind.fwdGetS 3, .fwdGetM 3],
      (∀ st ∈ [L1St.e, .m], (held0 st [⟨k, 0, 5⟩]).nextTo 0 5 = some ⟨k, 0, 5⟩ ∧ (held0 st [⟨k, 0, 5⟩]).miss 0 5 = none ∧
        (held0 st [⟨k, 0, 5⟩]).l1 0 5 = some ⟨st, 2, []⟩) ∧
      (let s := cohS ⟨[], [], [], [(lineKey 0 5, ⟨true, true, false, 0, 0, []⟩)], [⟨k, 0, 5⟩]⟩
       s.nextTo 0 5 = some ⟨k, 0, 5⟩ ∧ s.miss 0 5 = some ⟨true, true, false, 0, 0, []⟩) ∧
      (let s := cohS ⟨[(lineKey 0 5, ⟨.m, 0, [⟨4, false⟩]⟩)], [], [], [], [⟨k, 0, 5⟩]⟩
       s.nextTo 0 5 = some ⟨k, 0, 5⟩ ∧ s.miss 0 5 = none ∧ s.l1 0 5 = some ⟨.m, 0, [⟨4, false⟩]⟩) ∧
      (let s := cohS ⟨[], [(lineKey 0 5, ⟨.putE, 0, false⟩)], [(5, frame5 (some 0) [])], [], [⟨k, 0, 5⟩]⟩
       s.nextTo 0 5 = some ⟨k, 0, 5⟩ ∧ s.miss 0 5 = none ∧ s.l1 0 5 = none ∧ s.wb 0 5 = some ⟨.putE, 0, false⟩ ∧
       (s.dirOf 5).owner = some 0)) ∧
    (∀ b ∈ [true, false], let s := cohS ⟨[(lineKey 0 5, ⟨.m, 1, [⟨3, b⟩]⟩)], [], [], [], []⟩
      s.nextTo 0 5 = none ∧ s.l1 0 5 = some ⟨.m, 1, [⟨3, b⟩]⟩ ∧ s.tripped = false) := by decide +kernel

theorem witness_write_backs :
    (∀ p ∈ ([(Put.putE, L1St.e), (.putO, .o), (.putM, .m)] : List (Put × L1St)),
      ((held0 p.2 []).mayRequest 0 5 = true ∧ (held0 p.2 []).wbufCount 0 < 8 ∧ (held0 p.2 []).l1 0 5 = some ⟨p.2, 2, []⟩ ∧
        (held0 p.2 []).lineDown 5 = false ∧ (held0 p.2 []).coh.msgs = []) ∧
      (let s := cohS ⟨[], [(lineKey 0 5, ⟨p.1, 2, false⟩)], [(5, frame5 (some 0) [])], [], [⟨.put p.1, 0, 5⟩]⟩
       s.l1 0 5 = none ∧ s.inOrder (fun k => k == .put p.1 || (p.1 != .putE && k.putData)) 0 5 = some ⟨.put p.1, 0, 5⟩ ∧ s.wb 0 5 = some ⟨p.1, 2, false⟩)) ∧
    (held0 .s [⟨.putAck, 0, 5⟩]).nextTo 0 5 = some ⟨.putAck, 0, 5⟩ := by decide +kernel

theorem witness_recalls :
    ((held0 .m []).nextTo 0 5 = none ∧ (held0 .m []).pathClear 0 5 = true ∧ (held0 .m []).lineIdle 5 = true ∧
      0 ∈ (held0 .m []).recallees 5 ∧
      ((held0 .m []).dirOf 5).owner = some 0) ∧
    (∀ k ∈ [CKind.snpInvData, .snpRd], (held0 .m [⟨k, 0, 5⟩]).nextTo 0 5 = some ⟨k, 0, 5⟩) ∧
    (∀ kept ∈ [true, false], ∀ k ∈ [Waiter.recall, .snoop], ∀ cs ∈ [[0], [0, 1]],
      let s := cohS ⟨[], [], [(5, frame5 (some 0) [(k, cs)])], [], [⟨.snoopRsp 2 kept, 0, 5⟩]⟩
      s.inOrder CKind.answer 0 5 = some ⟨.snoopRsp 2 kept, 0, 5⟩ ∧ (s.dirOf 5).waits = [(k, cs)] ∧ 0 ∈ cs ∧ (s.dirOf 5).queue = []) := by
  decide +kernel

theorem witness_invalidations :
    (held0 .s [⟨.inv, 0, 5⟩]).nextTo 0 5 = some ⟨.inv, 0, 5⟩ ∧
    (∀ cs ∈ [[0], [0, 1]], ∀ b ∈ [true, false],
      let s := cohS ⟨[], [], [(5, frame5 (some 3) [(.grant 3 b, cs)])], [], [⟨.invAck, 0, 5⟩]⟩
      s.inOrder CKind.answer 0 5 = some ⟨.invAck, 0, 5⟩ ∧ (s.dirOf 5).waits = [(.grant 3 b, cs)] ∧ 0 ∈ cs ∧ (s.dirOf 5).queue = []) ∧
    (∀ b ∈ [true, false], (held0 .s [⟨.presenceClear b, 0, 5⟩]).inOrder CKind.clears 0 5 =
      some ⟨.presenceClear b, 0, 5⟩) := by decide +kernel

theorem witness_fills :
    let s := cohS ⟨[], [], [(5, frame5 (some 0) [])], [(lineKey 0 5, ⟨true, true, false, 0, 0, []⟩)],
      [⟨.data true false, 0, 5⟩, ⟨.grant, 0, 5⟩]⟩
    s.miss 0 5 = some ⟨true, true, false, 0, 0, []⟩ ∧ (s.setLines 0 5).length < 8 ∧
    s.msg (fun m => m.cache == 0 && m.line == 5 && (match m.kind with | .data true _ => true | _ => false)) =
      some ⟨.data true false, 0, 5⟩ ∧ ⟨.grant, 0, 5⟩ ∈ s.coh.msgs ∧
    (∀ drop ∈ [true, false],
      let t := cohS ⟨[], [], [(5, frame5 (some 0) [])], [(lineKey 0 5, ⟨false, true, drop, 0, 0, []⟩)], [⟨.data false true, 0, 5⟩]⟩
      t.miss 0 5 = some ⟨false, true, drop, 0, 0, []⟩ ∧
      t.msg (fun m => m.cache == 0 && m.line == 5 && (match m.kind with | .data false _ => true | _ => false)) =
        some ⟨.data false true, 0, 5⟩) := by decide +kernel

theorem witness_coherent_store : ((held0 .s []).cohWrite 3 5 1).isSome = true ∧ (held0 .s []).l1 3 5 = none ∧
    ((held0 .o []).cohWrite 0 5 1).isSome = true := by decide +kernel

theorem witness_narrow_ways : up.dieUp 0 = true ∧ up.rf (.panNcacheCtl 0) 3 0 ≠ 8 ∧
    fld (8 : Nat) 3 0 ≤ 8 ∧ 8 < fld (9 : Nat) 3 0 ∧
    (let s := { cohS ⟨[], [], [(5, { frame5 none [] with way := 15 })], [], []⟩ with ncacheChg := [(homeDie 5, (0, 16))] }
     let s := s.setReg (.panNcacheCtl (homeDie 5)) 8
     (Map.find? s.ncacheChg (homeDie 5)).isSome = true ∧ 5 ∈ s.entering (homeDie 5) ∧
     ∀ line ∈ s.entering (homeDie 5), s.lineIdle line = true) := by decide +kernel

/-! ### Windows and translation -/

/-- A leaf of 512 MiB with every right, and a table pointer. -/
def leafOf (base : Nat) : Nat := 2 ^ 63 + 2 ^ 62 + 7 * 2 ^ 58 + base
def tableOf (base : Nat) : Nat := 2 ^ 63 + base

/-- Group 0 of core 0 on a device whose PF0 maps IPA 0 up, and context 5 VA 0 up, to Shared, by tables in Shared. -/
def mapped (g : Group) : State :=
  let s := (stands r0 g).setReg (.xltS2Root 127) (2 ^ 48 + 0x100000 + 1)
  let s := poke (poke s 0x100000 (tableOf (2 ^ 48 + 0x200000))) 0x200000 (leafOf (2 ^ 48))
  let s := poke (poke s 0x300000 (tableOf 0x400000)) 0x400000 (leafOf 0)
  { s with
    tlb := []
    launches := [(1, { launchOn 0 with root := 0x30 })]
    ctxs := [(5, ⟨127, BitVec.ofNat 64 (2 ^ 63 + 0x300000 + 1), 0, 0, 0, 0, 0, 0, 0, false, true, false⟩)] }

/-- PF0's window table stands at IPA 0x500000 and its entry 0 is this. -/
def windowS (w0 w1 w2 : Nat) : State :=
  pokes ((mapped grp).setReg (.xltWinTab 127) (0x500000 + 16)) 0x500000 [w0, w1, w2, 0]

/-- Word 0 of a pool window with every right at 0x1000. -/
def winW0 (valid : Nat) : Nat := valid * 2 ^ 63 + 2 * 2 ^ 60 + 15 * 2 ^ 56 + 0x1000

/-- The words read at the window's entry. -/
def entryWords (s : State) : Option (Nat × Nat × Nat) :=
  match s.ipaRead 127 (s.winAddr 127 0) 32 with
  | .ok (bs, false) => some ((wordAt bs 0).toNat, (wordAt bs 1).toNat, (wordAt bs 2).toNat)
  | _ => none

/-- STATUS of the entry can be written. -/
def statusOk (s : State) : Bool :=
  match (s.noteIpa 127 (s.winAddr 127 0) 32 false).ipaWrite 127 (s.winAddr 127 0 + 6) [0#8] with
  | .ok _ => true
  | .error _ => false

theorem witness_windows :
    (windowS (winW0 1) 4096 5).winEntries 127 = 16 ∧ up.winEntries 127 = 0 ∧ statusOk (windowS (winW0 1) 4096 5) = true ∧
    entryWords (windowS (winW0 1) 4096 5) = some (winW0 1, 4096, 5) ∧
    entryWords (windowS (winW0 1) 0 5) = some (winW0 1, 0, 5) ∧ winBad (fun _ => 0) = true ∧
    winBad (fun i => if i = 0 then winW0 1 else if i = 1 then 4096 else if i = 2 then 5 else 0) = false ∧
    (let u := (windowS (winW0 1) 4096 5).noteIpa 127 0x500000 32 false
     u.ctxOwner 5 = 127 ∧ u.coreValid 0 = true ∧ u.basinOwner 0 = 127 ∧ u.coreValid 1023 = false ∧
     poolSize 0 < 0x1000 + fld (2 ^ 23 : Nat) 39 0) ∧
    entryWords (windowS (winW0 0) 4096 5) = some (winW0 0, 4096, 5) ∧
    (let w := { win0 true false with withdrawing := true }
     let s := { windowS (winW0 0) 4096 5 with windows := [(127 * 65536, w)] }
     Map.find? s.windows (127 * 65536 + 0) = some w ∧ statusOk s = true) ∧
    (match up.ipaWrite 127 0x500006 [0#8] with | .ok _ => false | .error _ => true) = true ∧ up.partOn 3 = false := by
  decide +kernel

/-- An invalidation of context 5. -/
def inval (kind : Nat) : Inval := ⟨1, kind, 127, 5, 0, 0, true⟩

theorem witness_invalidation_commands :
    up.invOpen 127 < 16 ∧ up.invInvalid 0 127 (2 * 2 ^ 60 + 5 * 2 ^ 32) = false ∧ up.invInvalid 0 127 (15 * 2 ^ 60) = true ∧
    16 ≤ (up.setReg (.xltInvSts 127) 16).invOpen 127 ∧ (inval 2).valid = true ∧
    (∀ k ∈ [2, 3, 5, 6], Map.getD { up with invs := [(127, [inval k])] }.invs 127 [] = [inval k]) ∧
    (inval 2).covers page = true := by decide +kernel

/-- A group whose next instruction awaits a walk of an address, and one that a failed walk suspended. -/
def walking (va : Nat) : Group := { grp with stat := .walk true false false (BitVec.ofNat 64 va) 0 0 0 }
def suspended : Group := { grp with stat := .susp true false false 0x1000 0 0 0 }

/-- The walk of the group's page is queued. -/
def walkS (va : Nat) : State := (mapped (walking va)).walkAsk 0 (walkKey 5 va)

theorem witness_walks :
    (∀ va ∈ [0x1000, 2 ^ 40], (walkS va).onWalker 0 (walkKey 5 va) = true ∧ (walkS va).walkStalls 0 (walkKey 5 va) = false ∧
      (walkS va).dmaWalkers 0 (walkKey 5 va) = [] ∧ (walkS va).tripped = false ∧
      (walkS va).walkers 0 (walkKey 5 va) = [(refKey r0, walking va, { launchOn 0 with root := 0x30 })]) ∧
    (mapped (walking 0x1000)).onWalker 0 (walkKey 5 0x1000) = false ∧
    (match ((walkS 0x1000).walkEnd 0 (walkKey 5 0x1000)).walkVa (some { launchOn 0 with root := 0x30 }) 0 5 0x1000 8 needR with
      | .ok x => x.dpa == 2 ^ 48 + 0x1000 | .error _ => false) = true ∧
    (match ((walkS (2 ^ 40)).walkEnd 0 (walkKey 5 (2 ^ 40))).walkVa (some { launchOn 0 with root := 0x30 }) 0 5 (2 ^ 40) 8 needR with
      | .ok _ => false | .error f => f.code == 1) = true ∧
    (let s := (mapped grp).walkAsk 15 (walkKey 5 0x1000)
     s.onWalker 15 (walkKey 5 0x1000) = true ∧
     (match s.walkVa none 15 5 0x1000 1 ⟨false, false, false⟩ with | .ok _ => true | .error _ => false) = true) ∧
    (∀ va ∈ [0x1000, 2 ^ 40],
      let a : DmaAsk := ⟨va, ⟨true, false, false⟩, 0, false⟩
      let s := ({ mapped grp with dma := [{ copyCmd with asked := [a] }] }).walkAsk 0 (walkKey 5 va)
      s.dma.find? (fun o => o.id == 0) = some { copyCmd with asked := [a] } ∧ s.onWalker 0 (walkKey 5 va) = true ∧
      s.walkStalls 0 (walkKey 5 va) = false ∧ s.walkers 0 (walkKey 5 va) = [] ∧ s.dmaWalkers 0 (walkKey 5 va) = [(0, a)] ∧
      s.tripped = false ∧
      (match (s.walkEnd 0 (walkKey 5 va)).walkVa ((s.walkEnd 0 (walkKey 5 va)).ownOf copyCmd.org) 0 5 va 1 a.need with
        | .ok _ => va == 0x1000 | .error _ => va == 2 ^ 40) = true) := by decide +kernel

theorem witness_fault_responses :
    (stands r0 suspended).ctxOwner 5 = 127 ∧ Map.find? (stands r0 suspended).groups (refKey r0) = some suspended ∧
    Map.find? (stands r0 suspended).launches 1 = some (launchOn 0) ∧
    (0x1000 : BitVec 64).toNat / 65536 % 2 ^ 32 = 0 ∧ up.fringEntries 127 = 0 ∧
    (up.setReg (.xltFringBase 127) (0x500000 + 1)).fringEntries 127 ≠ 0 ∧
    (up.setReg (.schCtxRange 3) (2 ^ 32 + 5)).ctxOwner 5 ≠ 127 := by decide +kernel

/-! ### Queues, packets and the scheduler -/

/-- A queue of context 5 of PF0: STATE, packets read, packets started, HEAD and TAIL. -/
def queueOf (st : Nat) (fetched : List Packet) (started : List Started) (head tail : Nat) : Queue :=
  ⟨false, 0, 0x600000, 5, 127, BitVec.ofNat 32 head, BitVec.ofNat 32 tail, 0, st, 0, 0, fetched, started, none, 0, false⟩

/-- Queue 7 is this queue, on a device that maps context 5; the queue table at 0x700000 gives its entry. -/
def queueS (x : Queue) : State :=
  let s := (mapped grp).setReg (.schQtab 127) (0x700000 + 1)
  { pokes s (0x700000 + 7 * 16) [0x600000, 5] with queues := [(7, x)] }

/-- A packet of SEQ 0: TYPE and the other words. -/
def pkt (ty : Nat) (ws : List Nat) : Packet := ⟨0, BitVec.ofNat 64 ty :: ws.map (BitVec.ofNat 64), none⟩

theorem witness_queue_commands :
    up.cmdBusy = [] ∧ pairOf 0 ∈ { up with cmdBusy := [127] }.cmdBusy ∧ up.queueOf 1 0 = none ∧ up.queueOf 0 7 = some 7 ∧
    (up.queue 7).st = 0 ∧ (queueS (queueOf 0 [] [] 0 0)).rf (.schQtab 127) 0 0 ≠ 0 ∧
    (match (queueS (queueOf 0 [] [] 0 0)).ipaRead 127 (0x700000 + 7 * 16) 16 with
      | .ok (bs, false) => ((queueS (queueOf 0 [] [] 0 0)).noteIpa 127 (0x700000 + 7 * 16) 16 false).entryOk 127 (wordAt bs 0).toNat (wordAt bs 1).toNat
      | _ => false) = true ∧
    up.entryOk 127 (2 ^ 60) 5 = false ∧ (∀ st ∈ [1, 5, 6], ((queueS (queueOf st [] [] 0 0)).queue 7).st = st) ∧
    up.ctxOwner 5 = 127 ∧
    (let s := { up with queues := [(7, { queueOf 6 [] [] 0 0 with disabledBy := some 0 })] }
     (s.queue 7).disabledBy = some 0 ∧ (s.queue 7).st = 6 ∧ (s.queue 7).started = []) ∧
    up.partOn 3 = false ∧ (up.setReg (.schCtxRange 3) (2 ^ 32 + 5)).ctxOwner 5 = 3 ∧ up.ctxOwner 5 ≠ 3 := by decide +kernel

theorem witness_doorbells_and_reads :
    up.rangeBad 3 true (2 ^ 32 + 2 ^ 20) = false ∧ up.rangeBad 3 true (2 ^ 52 + 2 ^ 20 - 1) = true ∧
    up.rangeBad 3 false (2 ^ 32 + 4) = false ∧ up.sharedUp = true ∧
    (let s := queueS (queueOf 1 [] [] 0 4)
     s.queueOf 0 7 = some 7 ∧ ((5 : BitVec 32) - (s.queue 7).head).toNat ≤ (s.queue 7).entries ∧
     ¬ ((20 : BitVec 32) - (s.queue 7).head).toNat ≤ (s.queue 7).entries ∧ (s.queue 7).head ≠ (s.queue 7).tail ∧
     (s.queue 7).fetched.length < 4 ∧ Map.find? s.partOps 127 = none ∧ 127 ∉ s.quarantined ∧
     (match s.ringRead (s.queue 7) 0x600000 with | some (_, .ok _) => true | _ => false) = true ∧
     (match { s with ctxs := [] }.ringRead (s.queue 7) 0x600000 with | some (_, .error _) => true | _ => false) = true) := by
  decide +kernel

theorem witness_packets :
    (∀ p ∈ [pkt 2 [0x1000, 0, 0, 0, 0, 0x900000, 0], pkt 3 [0x1000, 0, 0, 0, 0, 0x900000, 0], pkt 4 [0x1000, 0, 0, 0, 0, 0, 0],
        pkt 5 [0x900000, 1, 0, 0, 0, 0, 0], pkt 6 [0x900000, 0, 0, 0, 0, 2 ^ 40, 0], pkt 7 [3, 0, 0, 0, 0, 0, 0],
        pkt 8 [0x900000, 1, 0, 0, 0, 0, 0]],
      ((queueS (queueOf 1 [p] [] 1 1)).freshFront 7).frontOf 7 p.type = some p ∧
      (queueS (queueOf 1 [p] [] 1 1)).frontOf 7 p.type = some p) ∧
    (match (queueS (queueOf 1 [] [] 1 1)).queRead (queueOf 1 [] [] 1 1) 0x900000 with
      | some (_, .ok v) => v == 0 | _ => false) = true ∧
    (match (queueS (queueOf 1 [] [] 1 1)).queRead (queueOf 1 [] [] 1 1) (2 ^ 40) with
      | some (_, .error st) => st == 4 | _ => false) = true ∧
    (match (poke (queueS (queueOf 1 [] [] 1 1)) 0x900000 9).queRead (queueOf 1 [] [] 1 1) 0x900000 with
      | some (_, .ok v) => v == 9 | _ => false) = true ∧
    (match (queueS (queueOf 1 [] [] 1 1)).fanoutRows (queueOf 1 [] [] 1 1) (pkt 3 [0x1000, 0, 0, 0, 0, 0x900000, 0]) [0] with
      | some (_, .ok l) => l == [] | _ => false) = true ∧
    (queueS (queueOf 1 [] [] 1 1)).dmaCore 127 0 = some 0 ∧ (queueS (queueOf 1 [] [] 1 1)).awake 0 = true := by decide +kernel

theorem witness_packet_words :
    (match (queueS (queueOf 1 [] [] 1 1)).queAccess (queueOf 1 [] [] 1 1) 0x900000 8 needWA with
      | .ok t ls dpas => ls.all (fun l => !t.inRepair l) && (match t.homeWrite dpas with
          | some u => !(u.readLocs 0 ls).2 | none => false)
      | _ => false) = true ∧
    (match (queueS (queueOf 1 [] [] 1 1)).queUpdate (queueOf 1 [] [] 1 1) 0x900000 8 needWA (addWord 1) with
      | some (_, none) => true | _ => false) = true ∧
    condInt 64 0 0 0 = true ∧ condInt 64 1 0 0 = false ∧
    (pkt 6 [0x900000, 0, 0, 0, 0, 2 ^ 40, 0]).f 6 63 32 ≠ 0 := by decide +kernel

/-- A packet that has started. -/
def started0 : Started := (pkt 7 [3, 0, 0, 0, 0, 0, 0]).done 2

theorem witness_packet_completes :
    (queueOf 1 [] [started0] 1 1).started.find? (fun e => e.pkt.seq == 0) = some started0 ∧
    ((queueS (queueOf 1 [] [started0] 1 1)).writeCompletion (queueOf 1 [] [started0] 1 1) started0).isSome = true ∧
    (let v := (queueS (queueOf 1 [pkt 9 []] [] 1 1)).freshFront 7
     v.startable 7 = some (pkt 9 []) ∧ v.pktStop (queueOf 1 [pkt 9 []] [] 1 1) (pkt 9 []) = some 3 ∧
     ((v.startFront 7 ((pkt 9 []).done 3)).writeCompletion ((v.startFront 7 ((pkt 9 []).done 3)).queue 7) ((pkt 9 []).done 3)).isSome =
       true) := by decide +kernel

/-- Queue 7 has a LAUNCH of 33 threads on an M-core at its start point; context 5 is resident on core 1. -/
def launchS : State :=
  { queueS (queueOf 1 [pkt (1 + 32 * 2 ^ 32) [0x1000, 0, 0, 0, 0, 0, 0]] [] 1 1) with
    groups := []
    launches := []
    residents := [(0, [⟨5, 0, 0⟩])]
    nextId := 2 }

theorem witness_schedule :
    let u := launchS.charge
    u.items 127 = [.queue 7] ∧ u.queueItem 7 = some (pkt (1 + 32 * 2 ^ 32) [0x1000, 0, 0, 0, 0, 0, 0], 0) ∧
    u.assigned (.queue 7) = false ∧
    ((coresOf 0).filter (fun c => u.candidate 127 c && decide ((u.freeSlots c).length ≥ 2))).find?
      (fun c => (match Map.find? u.ctxs 5 with | some a => u.fits c 5 a | none => false)) = some 0 ∧
    (match Map.find? u.ctxs 5 with | some a => !a.reread && decide (a.range = (0, 0)) | none => false) = true ∧
    u.ctxStop 5 = none ∧ u.rangeTooBig 5 0 = false ∧ (u.res 0).any (fun x => x.ctx == 5) = true ∧ u.awake 0 = true ∧
    up.queues = [] ∧ (∀ x ∈ up.launches, x.2.phase ≠ .preempted) := by decide +kernel

/-- Launch 1 of core 0 is leaving. -/
def leaving (root : Nat) : State :=
  { (mapped grp).setReg (.schPsave 127) (root * 2 ^ 16 + 1) with
    launches := [(1, { launchOn 0 with phase := .preempting })]
    switching := [(0, ⟨some 1, none, none, none⟩)]
    nextId := 2 }

/-- The state in which its groups are saved. -/
def leavingS (root : Nat) : State := ({ leaving root with switching := Map.drop (leaving root).switching 0 }).charge

theorem witness_preemption :
    Map.find? (leaving 0x100).launches 1 = some { launchOn 0 with phase := .preempting } ∧
    ((leaving 0x100).groups.filter (fun kv => kv.2.launch == 1)).length = 1 ∧
    (leavingS 0x100).saveOk 127 0 ((leavingS 0x100).saveSlotFor 0) (saveLen 1 0) true = true ∧
    (leavingS (2 ^ 24)).saveOk 127 0 ((leavingS (2 ^ 24)).saveSlotFor 0) (saveLen 1 0) true = false ∧
    Map.find? { up with switching := [(0, ⟨none, none, none, none⟩)] }.switching 0 = some ⟨none, none, none, none⟩ := by
  decide +kernel

/-! ### Partitions, commits, modes and low power -/

/-- Partition 3 owns basin 0 and is in a state. -/
def partS (st : Nat) : State := (up.setReg (.cfgPartSts 3) (st * 2 ^ 20)).setReg (.cfgPartBsnLo 3) 1

theorem witness_partition_change :
    (∀ st ∈ [0, 1, 2, 3, 4], (partS st).partState 3 = st) ∧ (partS 0).sharedUp = true ∧ (partS 0).partConflict 3 = false ∧
    (partS 0).partChanBad 3 = false ∧ ((partS 0).partShared 3).1 + ((partS 0).partShared 3).2 ≤ (partS 0).sharedSize ∧
    (partS 0).modeChg = [] ∧
    ((partS 0).setReg (.cfgPartSts 4) (2 ^ 20) |>.setReg (.cfgPartBsnLo 4) 1).partConflict 3 = true ∧
    (partS 1).basinBusy 0 = 0 ∧ (partS 1).partBasinBit 3 1 = false ∧ (partS 1).basinOwner 1 = 127 ∧
    Map.find? { partS 0 with lastTag := [(3, 0)] }.lastTag 3 = some ((partS 0).rf (.cfgPartTag 3) 31 0) := by decide +kernel

theorem witness_busy_basin : { partS 1 with modeChg := [(0, ⟨true, false⟩)] }.basinBusy 0 ≠ 0 := by decide +kernel

/-- An operation on partition 3. -/
def partOpS (draining : Bool) : State := { partS 2 with partOps := [(3, ⟨1, 0, true, draining, true, false⟩)] }

theorem witness_partition_reset :
    Map.find? (partOpS true).partOps 3 = some ⟨1, 0, true, true, true, false⟩ ∧ (partOpS true).partDrained 3 = true ∧ fld (1 : Nat) 3 0 = 1 ∧ fld (2 : Nat) 3 0 = 2 := by
  decide +kernel

/-- The staging table holds one entry: this register offset and value. -/
def stageS (off v : Nat) : State := (up.setReg (.cfgStage 0 0) (2 ^ 63 + off)).setReg (.cfgStage 0 1) v

theorem witness_commits :
    badEntry (stageS (Reg.schQuantum 0).key 100).staged = none ∧
    commitUnits ((stageS (Reg.schQuantum 0).key 100).staged.map (fun x => x.2)) = [24] ∧
    badEntry (stageS 0x408 1).staged = some 0 ∧ badEntry up.staged = none ∧
    commitUnits (up.staged.map (fun x => x.2)) = [] ∧ up.commit = none := by decide +kernel

/-- A common range of one page at an offset over PF0's channels, with a replica in another range. -/
def rangeW (replica page : Nat) : Nat :=
  2 ^ 63 + (if replica = 8 then 0 else 2 ^ 62 + replica * 2 ^ 59) + 2 ^ 36 + (2 ^ 31 + 0x7F * 2 ^ 19 + page)

/-- Two common ranges, the second the replica of the first; row 0 of channel 0 in repair, its sector 3 bad. -/
def repairS : State :=
  { (up.setReg (.cfgCommon 0) (rangeW 1 0)).setReg (.cfgCommon 1) (rangeW 8 1) with
    repair := [0]
    badSectors := [3] }

theorem witness_common_ranges : up.commonOk (rangeW 8 1) = true ∧ up.commonOk (2 ^ 63) = false ∧
    repairS.commonOf 0 = some (0, 0) ∧
    { repairS with repair := [] }.failing 0 = false := by decide +kernel

theorem witness_modes :
    up.dieUp 0 = true ∧ up.basinBusy 0 = 0 ∧ up.rf (.bsnModeSts 0) 0 0 = 0 ∧ up.outOfService = [] ∧
    up.sharedChg = none ∧ up.sharedInUse = false ∧ up.logical ≠ [] ∧ kFor 3 up.logical.length ≤ 2048 ∧
    { up with residents := [(0, [⟨5, 0, 1⟩])] }.sharedInUse = true ∧
    Map.find? { up with modeChg := [(0, ⟨true, false⟩)] }.modeChg 0 = some ⟨true, false⟩ := by decide +kernel

/-- Two logical channels are left: a carve-out of every size needs K above 2,048. -/
def fewChannels : State :=
  (List.range 24).foldl (fun (s : State) h => s.setReg (.panChanState h) (if h = 0 then 0xFFFFFFF0 else 0xFFFFFFFF)) up

theorem witness_shared_size : fewChannels.logical.length = 2 ∧ 2048 < kFor 0 fewChannels.logical.length := by decide +kernel

/-- Basin 0 sleeps; PF0 expects to be idle for a time. -/
def sleepS (st hint : Nat) : State := (up.setReg (.bsnPwrSts 0) st).setReg (.pwrIdleHint 127) hint

theorem witness_low_power :
    up.basinIdle 0 = true ∧ up.rf (.bsnPwrSts 0) 2 2 = 0 ∧ up.sleepFor 0 = 1 ∧
    (sleepS 1 0).idleTime 0 = none ∧ (sleepS 0 400).sleepFor 0 = 2 ∧ (sleepS 0 4000).sleepFor 0 = 3 ∧
    ((sleepS 0 4000).evictBasin 0).isSome = true ∧
    ({ sleepS 0 4000 with residents := [(0, [⟨5, 0, 1⟩])] }.evictBasin 0).isNone = true ∧
    (sleepS 1 400).idleTime 0 ≠ none ∧ { sleepS 1 0 with power := { up.power with hintAt := [(127, up.weirCtr.toNat)] } }.wakeCause 0 .hintZero = true ∧
    (sleepS 4 0).rf (.bsnPwrSts 0) 2 2 = 1 := by decide +kernel

/-! ### Storage errors, power, the die fabric -/

theorem witness_storage_errors :
    up.chanState 0 = 0 ∧ up.dieUp 0 = true ∧ up.guarded 0 = false ∧ up.commonOf 0 = none ∧
    (up.setReg (.panHeapCtl 0) 0x100).guarded 0 = true ∧ (∀ x ∈ up.heapChans 0, up.chanState x = 0) ∧
    repairS.commonOf 0 ≠ none ∧ repairS.guarded 0 = false ∧
    (0 : Nat) ∈ repairS.repair ∧ (3 : Nat) ∈ repairS.badSectors := by decide +kernel

/-- The device of `repairS` with its row's repair taken up. -/
def repairU : State := { repairS with repair := NSet.del repairS.repair 0 }

/-- n bytes from a DPA are located and good, as a Bool. -/
def goodB (s : State) (dpa : Nat) : Nat → Bool
  | 0 => true
  | n + 1 => (match s.locate dpa with | some l => s.goodLocs [l] | none => false) && goodB s (dpa + 1) n

theorem good_add (s : State) (n : Nat) : ∀ (m dpa : Nat), goodB s dpa m = true → goodB s (dpa + m) n = true →
    goodB s dpa (m + n) = true
  | 0, dpa, _, h => by simpa using h
  | m + 1, dpa, h, h' => by
    simp only [goodB, Bool.and_eq_true] at h
    rw [Nat.add_right_comm, goodB, Bool.and_eq_true]
    exact ⟨h.1, good_add s n m (dpa + 1) h.2 (by rwa [Nat.add_right_comm, Nat.add_assoc])⟩

theorem good_chunks (s : State) (dpa : Nat) : ∀ k, (∀ c < k, goodB s (dpa + 256 * c) 256 = true) → goodB s dpa (256 * k) = true
  | 0, _ => rfl
  | k + 1, h => good_add s 256 (256 * k) dpa (good_chunks s dpa k (fun c hc => h c (by omega))) (h k (by omega))

theorem good_locs (s : State) : ∀ (n dpa : Nat), goodB s dpa n = true → ∃ ls, s.locateN dpa n = some ls ∧ s.goodLocs ls = true
  | 0, _, _ => ⟨[], rfl, rfl⟩
  | n + 1, dpa, h => by
    simp only [goodB, Bool.and_eq_true] at h
    obtain ⟨ls, h1, h2⟩ := good_locs s n (dpa + 1) h.2
    cases hl : s.locate dpa with
    | none => simp [hl] at h
    | some l =>
      refine ⟨l :: ls, by simp [State.locateN, hl, h1], ?_⟩
      have h3 := h.1
      simp only [hl, State.goodLocs, List.all_cons, List.all_nil, Bool.and_true] at h3
      simp only [State.goodLocs, List.all_cons, h3, Bool.true_and]
      exact h2

theorem test_replica_bytes : ∀ c < 16, goodB repairU ((2 ^ 31 + 0x7F * 2 ^ 19 + 1) * 2 ^ 16 + 256 * c) 256 = true := by decide +kernel

theorem witness_good_replica : ∃ ls, repairU.replicaKeys 0 0 = some ls ∧ repairU.goodLocs ls = true ∧ repairU.lost 0 = false := by
  obtain ⟨ls, h1, h2⟩ := good_locs repairU 4096 _ (good_chunks repairU ((2 ^ 31 + 0x7F * 2 ^ 19 + 1) * 2 ^ 16) 16 test_replica_bytes)
  refine ⟨ls, ?_, h2, by decide +kernel⟩
  rw [← h1]
  have h : (let w := repairU.reg (.cfgCommon 0)
      let r := repairU.reg (.cfgCommon (fld w 61 59))
      (bit w 62 && bit r 63 && fld r 52 36 == fld w 52 36) = true ∧
        fld r 35 0 * 2 ^ 16 = (2 ^ 31 + 0x7F * 2 ^ 19 + 1) * 2 ^ 16) := by decide +kernel
  simp only [State.replicaKeys, h.1, h.2, ↓reduceIte, Nat.add_zero]

/-- Die 0's step changes, its regulator owes an answer, its clock is stretched, its step is limited. -/
def powerS (step tries : Nat) : State :=
  { up with power := { up.power with
      stepChg := [(0, step)]
      vcmd := [(0, (step, tries))]
      stretch := [0]
      ebbLimit := [(0, 3)] } }

theorem witness_supply_events :
    Map.find? (powerS 0 1).power.stepChg 0 = some 0 ∧ (∀ n ∈ [0, 13], n < 16 ∧ (up.dieStep 0 < n → Map.find? up.power.vcmd 0 = none)) ∧ Map.find? (powerS 0 1).power.vcmd 0 = some (0, 1) ∧
    Map.find? (powerS 0 2).power.vcmd 0 = some (0, 2) ∧ 500 ≤ up.flash.order.capMax ∧ (0 : Nat) ∈ (powerS 0 1).power.stretch ∧
    (0 : Nat) ∉ up.power.stretch ∧ Map.find? (powerS 0 1).power.ebbLimit 0 = some 3 ∧ Map.find? up.power.ebbLimit 0 = none ∧
    (let s := { up.setReg .pwrEbbCtl (1 * 2 ^ 8) with power := { up.power with ebbTimes := [(0, [0])] } }
     s.rf .pwrEbbCtl 15 8 = 1 ∧ ((Map.getD s.power.ebbTimes 0 []).filter (fun t => s.weirCtr.toNat < t + 100000)).length = 1) := by
  decide +kernel

/-- The control interval's steps stay within Table 20-3 on a device in service. -/
theorem witness_control_interval :
    (let u := (((List.range 12).filter (up.learnAll []).dieUp).foldl (fun (t : State) d => t.adoptUnit (12 + d)) (up.learnAll [])).lowerHot
     ∀ d, d < 12 → u.wantOf d (((List.range 12).map u.phaseOf).getD d 0) ≤ 15) ∧ up.pins.brakeN = true := by decide +kernel

theorem witness_balancing :
    let s := (({ up with windows := [(127 * 65536, ⟨1, true, true, true, true, 0, 4096, 0, 5, false⟩)] }.setReg .pwrBalCtl
      (2 ^ 63)).setReg .pwrSts 8).setReg (.xltWinTab 127) (0x500000 + 16)
    up.balReady = false ∧ s.balReady = true ∧ s.balWindow ≠ none ∧ s.rf .pwrSts 3 3 = 1 ∧
    toSigned 16 (s.rf .pwrBalSts 31 16) = 0 ∧ bit (1 : Nat) 0 = true := by decide +kernel

/-- Every edge of die 0 and of the dies it faces is up at a version. -/
def edgesS (state : Nat) : State :=
  (List.range 12).foldl (fun (s : State) d => (List.range 3).foldl (fun (s : State) e =>
    s.setReg (.panEdgeSts d e) (16 * 2 ^ 32 + 0x23 * 2 ^ 16 + state * 4 + 1)) s) (up.setReg .glbD2dVer 0x23)

theorem witness_edges :
    (edgesS 1).edgeUp 0 0 = true ∧
    (let f := facing 0 0
     (edgesS 2).edgeUp 0 0 = true ∧ (edgesS 2).edgeUp f.1 f.2 = true ∧ (edgesS 2).rf (.panEdgeSts 0 0) 3 2 = 2 ∧
     0x22 ≤ (edgesS 2).rf .glbD2dVer 7 0 ∧ (edgesS 2).dieStep 0 = (edgesS 2).dieStep f.1) := by decide +kernel

/-- A device in bring-up before die 3 is ready. -/
def bringUp : State :=
  { State.reset with
    boot := { State.reset.boot with phase := 1 }
    pins := { State.reset.pins with pwrGood := true } }

theorem witness_versions :
    bringUp.boot.phase ≠ 0 ∧ bringUp.dieUp 3 = false ∧ Map.find? bringUp.boot.offers 3 = none ∧ bringUp.rf .glbD2dVer 7 0 = 0 ∧
    (∀ o ∈ { bringUp with boot := { bringUp.boot with offers := [(3, (0x20, 0x23))] } }.boot.offers, o.1 < 12) ∧
    (bringUp.setReg .glbD2dVer 0x23).rf .glbD2dVer 7 0 ≠ 0 := by decide +kernel

/-! ### Links and sessions -/

/-- A session of PF0 with node 2 over sub-port 0: STATUS, messages sent, messages held. -/
def sessOf (st : Nat) (sent : List SentMsg) : Session :=
  ⟨127, 2, 4, [0, 0, 0, 0, 1, 0, 0, 0], st, false, 0x12, 100, 200, 9, true, true, 100, 200, sent, [], [], [], 0, 1, 0⟩

/-- Sub-port 0 has link and session 3 is this; windows and RMOs as given. -/
def sessS (x : Session) (rmo : List RmoCmd) : State :=
  { ((up.setReg (.lnkPortSts 0) (2 ^ 24)).setReg (.lnkPortCtl 0) 1).setReg (.xltWinTab 127) (0x500000 + 16) with
    sessions := [(3, x)]
    rmo := rmo
    windows := [(127 * 65536, win0 true false)] }

/-- A message of node 2 to session 3. -/
def inMsg (opc psn : Nat) (b : Body) (payload : List Byte) : Msg :=
  (up.setReg .lnkNode (9 * 2 ^ 32 + 2)).mkMsg 0x12 opc 0 0 3 4 psn b payload 0

theorem witness_ports :
    up.rf (.lnkPortCtl 0) 0 0 = 0 ∧ (up.setReg (.lnkPortCtl 0) 1).rf (.lnkPortCtl 0) 0 0 = 1 ∧
    (up.setReg (.lnkPortCtl 0) 1).subValid 0 = true ∧ up.subUp 0 = false ∧ (sessS (sessOf 0 []) []).subUp 0 = true ∧
    (sessS (sessOf 0 []) []).portUp 0 = true ∧ (∀ x ∈ up.sessions, x.2.st ≠ 0 ∧ x.2.st ≠ 2) ∧
    (up.setReg (.lnkPortCtl 0) 1).dieUp 0 = true ∧ (∃ x ∈ (sessS (sessOf 0 []) []).sessions, x.2.st = 0 ∨ x.2.st = 2) ∧ (inMsg 0x0C 0 {} []).opc = 0x0C := by decide +kernel

/-- PF0's session table stands at IPA 0x500000 and its entry 0 is this. -/
def sessTabS (ws : List Nat) : State :=
  (pokes ((mapped grp).setReg .lnkSessTab (0x500000 + 16)) 0x500000 ws).setReg (.lnkPortSts 0) (2 ^ 24)

/-- An entry: VALID, a partition, peer 2, sub-port 0. -/
def sessEntry (valid p : Nat) : List Nat := [valid * 2 ^ 63 + p * 2 ^ 56 + 2 * 2 ^ 32, 0, 0, 0, 1, 0, 0, 0]

/-- The entry as read, with R285's checks on it. -/
def sessRead (s : State) : Option (Bool × Nat) :=
  match s.ipaRead 127 (s.sessAddr 0) 64 with
  | .ok (bs, false) => some (s.sessBad ((List.range 8).map (wordAt bs)), fld (wordAt bs 0).toNat 63 56)
  | _ => none

theorem witness_session_entries :
    (sessTabS (sessEntry 1 127)).sessEntries = 16 ∧ up.sessEntries = 0 ∧
    sessRead (sessTabS (sessEntry 1 127)) = some (false, 255) ∧ sessRead (sessTabS (sessEntry 1 100)) = some (false, 228) ∧
    sessRead (sessTabS (sessEntry 0 127)) = some (false, 127) ∧ sessRead (sessTabS []) = some (true, 0) := by decide +kernel

/-- The entry's STATUS can be written. -/
def sessWrite (s : State) : Bool :=
  match (s.noteIpa 127 (s.sessAddr 0) 64 false).ipaWrite 127 (s.sessAddr 0 + 6) [2#8] with
  | .ok _ => true
  | .error _ => false

/-- The stage-2 leaf that maps the table gives no W. -/
def readOnly (s : State) : State := poke s 0x200000 (2 ^ 63 + 2 ^ 62 + 2 ^ 60 + 2 ^ 48)

theorem witness_session_status : sessWrite (sessTabS (sessEntry 1 127)) = true ∧
    sessRead (readOnly (sessTabS (sessEntry 1 127))) = some (false, 255) ∧
    sessWrite (readOnly (sessTabS (sessEntry 1 127))) = false ∧
    (match (mapped grp).ipaRead 127 (2 ^ 40) 64 with | .ok _ => false | .error _ => true) = true ∧
    sessRead (let s := (sessTabS (sessEntry 1 127))
      { s with sessions := [(3, { sessOf 0 [] with entry := [] })] }) = some (false, 255) ∧
    (∃ x ∈ [((3 : Nat), sessOf 0 [])], x.1 ≠ 0 ∧ x.2.part = 127 ∧ x.2.peer = 2) := by decide +kernel

theorem witness_session_close :
    Map.find? (sessS { sessOf 0 [] with closing := true } []).sessions 3 = some { sessOf 0 [] with closing := true } ∧
    (sessS { sessOf 0 [] with closing := true } []).sessPorts (sessOf 0 []) = [0] := by decide +kernel

theorem witness_session_timers :
    (sessS (sessOf 0 []) []).retryLimit = 8 ∧ nextAfter 0 ((sessS (sessOf 0 []) []).sessPorts (sessOf 0 [])) = some 0 ∧
    (∀ st ∈ [0, 2, 5], Map.find? (sessS (sessOf st []) []).sessions 3 = some (sessOf st [])) ∧
    (sessOf 0 [⟨100, inMsg 0x01 0 {} [], 7, false⟩]).sent.head? = some ⟨100, inMsg 0x01 0 {} [], 7, false⟩ ∧
    (sessS (sessOf 0 []) []).roundBytes 0 127 = 256 ∧ (sessOf 0 []).ackCount ≠ 0 := by decide +kernel

/-- A well-formed message of each sequenced opcode, with PSN 200. -/
def seqMsg (opc : Nat) : Msg :=
  if opc = 0x02 then inMsg opc 200 {} (leBytes 8 8)
  else if opc = 0x04 then inMsg opc 200 { ty := 0 } (leBytes 1 8)
  else if opc = 0x05 ∨ opc = 0x06 ∨ opc = 0x08 then inMsg opc 200 {} (leBytes 1 8)
  else if opc = 0x0A then inMsg opc 200 { aop := 0xA, ty := 4 } (leBytes 1 8)
  else if opc = 0x0B then inMsg opc 200 {} []
  else inMsg opc 200 {} (leBytes 1 8)

theorem witness_sequenced : ∀ opc ∈ [1, 2, 3, 4, 5, 6, 7, 8, 9, 10, 11],
    (seqMsg opc).opc = opc ∧ msgFormed (seqMsg opc) = true ∧ msgFormed { seqMsg opc with payload := [0] } = false ∧
    (sessS (sessOf 0 []) []).msgSess (seqMsg opc) = some (sessOf 0 []) ∧ up.msgSess (seqMsg opc) = none ∧
    lacks 0x12 (seqMsg opc) = false ∧ (seqMsg opc).psn = 200 ∧ (seqMsg opc).srcInc = 9 ∧ (seqMsg opc).dstInc = 0 := by
  decide +kernel

theorem witness_next_in_order : NextInOrder (sessS (sessOf 0 []) []) (seqMsg 1) (sessOf 0 []) where
  heard := ⟨by decide +kernel, by decide +kernel, by decide +kernel, by decide +kernel, by decide +kernel⟩
  opened := by decide +kernel
  form := by decide +kernel
  order := by decide +kernel

/-- An RMO of PF0 to node 2 that waits for its answer. -/
def sentRmo (fn : Nat) : RmoCmd :=
  ⟨0, ⟨some 1, 5, 127, 0, 0, 0, 0, 0, 0, 0, 0⟩, fn, 2, false, 0, 0, 64, 0, 8, 0, 0, 0, 0, none, 1, 0, none⟩

theorem witness_message_effects :
    (∀ opc ∈ [1, 2, 4, 6, 7, 8, 9, 10],
      (match msgOp (seqMsg opc) with
        | some o =>
          (match ((sessS (sessOf 0 []) []).withHeld (seqMsg opc)).applyT 127 0 0 o with | .ok _ _ => true | _ => false)
        | none => false) = true) ∧
    (∀ opc ∈ [3, 5, 11], msgOp (seqMsg opc) = none ∧
      ((sessS (sessOf 0 []) [sentRmo 1]).withHeld (seqMsg opc)).rmoTagged (sessOf 0 []) (seqMsg opc).tag = some (sentRmo 1)) ∧
    (sessS (sessOf 0 []) []).squashing 127 = false ∧
    (sessS (sessOf 0 []) []).rmo = [] := by decide +kernel

/-- HELLO and HELLO_ACK of node 2: versions 0x10 to 0x12 or 0x12. -/
def helloMsg (opc v0 v1 : Nat) : Msg := inMsg opc 0 {} (leBytes v0 1 ++ leBytes v1 1 ++ leBytes 200 3 ++ List.replicate 27 0)

theorem witness_handshake :
    msgFormed (helloMsg 0x20 0x10 0x12) = true ∧ (sessS (sessOf 2 []) []).refusal (helloMsg 0x20 0x10 0x12) = none ∧
    (sessS (sessOf 2 []) []).refusal (helloMsg 0x20 0x20 0x30) = some 3 ∧ up.refusal (helloMsg 0x20 0x10 0x12) = some 1 ∧
    msgFormed (helloMsg 0x21 0x12 0) = true ∧ helloV (helloMsg 0x21 0x12 0) 0 = 0x12 ∧
    ofLe (((helloMsg 0x20 0x10 0x12).payload.drop 5).take 3) = 0 ∧ ofLe ((helloMsg 0x20 0x10 0x12).payload.drop 24) = 0 ∧
    (∀ opc ∈ [0x10, 0x11, 0x22, 0x23, 0x24], msgFormed (inMsg opc 0 { status := if opc = 0x11 ∨ opc = 0x22 then 1 else 0 }
      (if opc = 0x10 then leBytes 0 8 else [])) = true) ∧
    lacks 0x12 (inMsg 0x10 0 {} (leBytes 0 8)) = false := by decide +kernel

theorem witness_keepalive : (sessOf 0 []).waiting = [] ∧ (sessOf 0 []).heldMsgs = [] ∧ (sessS (sessOf 0 []) []).rmo = [] := by
  decide +kernel

theorem witness_stale_incarnation : ∀ opc ∈ [0x10, 0x21, 0x22, 0x23, 0x24],
    (let m := if opc = 0x21 then { helloMsg 0x21 0x12 0 with w1 := 1 } else { inMsg opc 0 { status := if opc = 0x22 then 1 else 0 }
      (if opc = 0x10 then leBytes 0 8 else []) with w1 := 1 }
     m.opc = opc ∧ (sessS (sessOf 0 []) []).subUp m.subport.val = true ∧ msgFormed m = true ∧
     m.dstInc ≠ (sessS (sessOf 0 []) []).incarnation) := by decide +kernel

theorem witness_heard : Heard (sessS (sessOf 2 []) []) (helloMsg 0x21 0x12 0) (sessOf 2 []) :=
  ⟨by decide +kernel, by decide +kernel, by decide +kernel, by decide +kernel, by decide +kernel⟩

theorem witness_heard_controls :
    Heard (sessS (sessOf 0 []) []) (inMsg 0x10 0 {} (leBytes 0 8)) (sessOf 0 []) ∧
    Heard (sessS (sessOf 0 []) []) (inMsg 0x11 0 { status := 5 } []) (sessOf 0 []) ∧
    Heard (sessS (sessOf 2 []) []) (inMsg 0x22 0 { status := 2 } []) (sessOf 2 []) ∧
    Heard (sessS (sessOf 0 []) []) (inMsg 0x23 0 {} []) (sessOf 0 []) ∧
    Heard (sessS (sessOf 0 []) []) (inMsg 0x24 0 {} []) (sessOf 0 []) := by
  refine ⟨?_, ?_, ?_, ?_, ?_⟩ <;>
    exact ⟨by decide +kernel, by decide +kernel, by decide +kernel, by decide +kernel, by decide +kernel⟩

/-! ### Registers, host sites, hangs, resets, bring-up, management -/

/-- Die 2 is out of service. -/
def down2 : State := up.setReg .glbReadyFn (2 ^ 33 - 1 - 2 ^ 10)

theorem witness_register_access :
    (∀ p ∈ ([(Reg.rstWdog 3, 8), (.rasRingBase, 8), (.schCtab 3, 8), (.glbSharedSts, 4)] : List (Reg × Nat)),
      Reg.ofOffset p.1.key = some (p.1, false) ∧ p.1.key % p.2 = 0 ∧ (p.2 = 4 ∨ p.1.width = 64)) ∧
    Reg.glbSharedSts.width = 32 ∧ Reg.ofOffset 0x8 = none ∧ (Reg.rstWdog 3).wholeOnly = false ∧
    (∃ r ∈ [Reg.rstReq, .rstWdog 3, .xltInvHi 127, .schCtab 3], r.wholeOnly = true) ∧
    panBase 2 ≤ (Reg.panHeapCtl 4).key ∧ down2.dieUp 2 = false ∧ down2.dieUp 1 = true ∧
    up.partOn 3 = false ∧ (partS 1).partOn 3 = true ∧ up.siteOf 3 = 0 ∧
    { up.setReg .hstSitebMapLo 8 with flash := { up.flash with order := .sab } }.siteOf 3 = 1 := by decide +kernel

/-- Site A's signals are good; its link is up or not, and retraining or not. -/
def siteS (link : Nat) (retrain : Bool) : State :=
  { up.setReg (.hstLinkSts 0) (link * 2) with
    pins := { up.pins with
      hstPwrGd := [true, false]
      perstN := [true, false]
      devPwrGd := [true, true] }
    boot := { up.boot with retraining := [retrain, false] } }

theorem witness_host_sites :
    up.populated 0 = true ∧ up.populated 1 = false ∧ { up with flash := { up.flash with order := .sab } }.populated 1 = true ∧
    (siteS 0 false).rf (.hstLinkSts 0) 1 1 = 0 ∧ (siteS 1 true).rf (.hstLinkSts 0) 1 1 = 1 ∧
    (siteS 1 true).boot.retraining.getD 0 false = true ∧ (siteS 0 false).pins.devPwrGd.getD 0 false = true ∧
    up.readyFn 0 = true ∧ State.reset.readyFn 0 = false ∧ up.ras.length + 4 ≤ 4096 := by decide +kernel

/-- The command of a DMA packet; a launch that a watchdog has ended. -/
def pktCmd : DmaCmd := { copyCmd with
  pkt := true
  org := { copyCmd.org with launch := none } }
def suspectL : Launch := { launchOn 0 with
  phase := .failing
  suspect := true }

theorem witness_watchdogs :
    Map.find? (stands r0 grp).launches 1 = some (launchOn 0) ∧ (launchOn 0).phase = .running ∧ (stands r0 grp).inReplay 1 = false ∧
    pktCmd.pkt = true ∧ (dmaS pktCmd).inReplay 0 = false ∧ (dmaS copyCmd).dma = [copyCmd] ∧ copyCmd.org.launch = some 1 ∧
    Map.find? (dmaS copyCmd).launches 1 = some (launchOn 0) ∧ (mtxS .mma).mtx = [mtxCmd .mma] ∧
    Map.find? (stands r0 suspended).groups (refKey r0) = some suspended := by decide +kernel

/-- A suspect of launch 1, or of DMA command 0, that is being replayed. -/
def suspectOf (id : Nat) (dma : Bool) : Suspect := ⟨id, dma, 5, 7, 0, 0, [], true, true⟩

theorem witness_launch_ends :
    (let s := { up with launches := [(1, launchOn 0)] }
     s.busyLaunch 1 = false ∧ s.groups = [] ∧ s.suspects = [] ∧ (launchOn 0).suspect = false) ∧
    ({ up.setReg (.rstWdog 127) (2 ^ 32) with launches := [(1, suspectL)] }.launchReplayable suspectL = true) ∧
    up.launchReplayable suspectL = false ∧ (5 : Nat) ∉ up.failed ∧
    (let s := { up with
        launches := [(1, launchOn 0)]
        suspects := [suspectOf 1 false] }
     ∀ x ∈ s.suspects, (∀ y ∈ s.suspects, y.id = x.id → y = x) ∧ x.replaying = true ∧ s.busyLaunch x.id = false) ∧
    (let s := { up with suspects := [suspectOf 0 true] }
     ∀ x ∈ s.suspects, x.isDma = true ∧ ∀ c ∈ s.dma, c.id ≠ x.id) ∧
    (∃ x ∈ [(1, suspectL)], x.2.core = 0 ∧ x.2.phase = .failing ∧ x.2.suspect = true ∧ x.2.replay = false) ∧
    (∃ x ∈ [(1, { suspectL with replay := true })], x.2.core = 0 ∧ x.2.phase = .failing ∧ x.2.replay = true) := by
  decide +kernel

/-- A step of the ladder is asked for: whether its collection is done and whether its effect has happened. -/
def stepOf (level unit : Nat) (collected applied : Bool) : ResetReq :=
  ⟨level, unit, 0, 0, collected, applied, false, true, 0, 0, 0, 0, 0, 0⟩
def ladderS (r : ResetReq) : State := { up with resetQ := [r] }

theorem witness_ladder_requests :
    up.alive = true ∧ (3 : Nat) ∈ { up with quarantined := [3] }.quarantined ∧
    up.rstUnit (stepOf 2 0 false false) = true ∧ up.rstUnit (stepOf 2 1023 false false) = false ∧
    (∀ e ∈ up.resetQ, ¬ up.inScope (stepOf 2 0 false false) e = true) ∧
    (∃ e ∈ (ladderS (stepOf 4 0 false false)).resetQ, (ladderS (stepOf 4 0 false false)).inScope (stepOf 2 0 false false) e = true ∧
      (ladderS (stepOf 4 0 false false)).inScope e (stepOf 2 0 false false) = false) ∧
    (∀ l ∈ [1, 2, 3, 6], (ladderS (stepOf l 0 true true)).resetQ.find? (fun e => e.applied && (ladderS (stepOf l 0 true true)).stepDone e) =
      some (stepOf l 0 true true)) ∧
    (∀ l ∈ [1, 2, 3, 4, 5, 6], (stepOf l 0 true true).collected = true ∧
      ∀ e ∈ [{ stepOf 5 1 true true with began := 9 }, stepOf l 0 true true].erase (stepOf l 0 true true), e.collected = true →
        (stepOf l 0 true true).began + stepBound l < e.began + stepBound e.level) ∧
    { up with resetQ := [stepOf 3 0 true false, { stepOf 2 0 true false with began := 400000 }] }.firstDue =
      some { stepOf 2 0 true false with began := 400000 } ∧
    up.basinOwner 0 = 127 ∧ (partS 1).basinOwner 0 = 3 := by decide +kernel

theorem witness_reset_steps :
    (∀ l ∈ [1, 2, 3, 4, 5, 6], (ladderS (stepOf l 0 false false)).collecting = some (stepOf l 0 false false)) ∧
    (∀ l ∈ [1, 2, 3, 4, 5], (ladderS (stepOf l 0 true false)).stepFor (fun e => e.level == l && e.unit == 0) =
      some (stepOf l 0 true false)) ∧
    (ladderS (stepOf 1 0 true false)).stepFor (fun e => e.level == 1 && e.unit == 0 && e.ekind == 0 && e.eidx == 0) =
      some (stepOf 1 0 true false) ∧
    (ladderS (stepOf 2 0 true false)).modeChg = [] := by decide +kernel

/-- Checks that all pass, and an image of an SVN that passes them. -/
def good : Sig := ⟨true, true, true, true⟩
def image (svn : BitVec 8) : Image := ⟨good, svn, [1, 2, 3]⟩

/-- What the boot ROM finds where all is well, with bank B's SVN. -/
def bootOk (svnB : BitVec 8) : BootReport :=
  { railsOk := true
    flashOk := true
    counters := 4
    sku := [good]
    leakage := [good]
    helper := [good]
    deviceId := [good]
    mgmt := (image 3, image svnB)
    power := (image 3, image svnB)
    pan := (image 3, image svnB)
    slots := none
    pufOk := true
    mgAddr := 0
    badChannels := []
    badLinks := []
    repairs := [] }

theorem witness_power :
    State.reset.pins.pwrGood = false ∧ up.pins.pwrGood = true ∧ (bootOk 4).railsOk = true ∧
    State.reset.flash.fwSvn ≤ (bootOk 4).mgmt.1.svn.toNat ∧ (bootOk 4).mgmt.1.svn.toNat < (bootOk 4).mgmt.2.svn.toNat ∧
    { bootOk 3 with flashOk := false }.flashOk = false ∧ { bootOk 3 with railsOk := false }.railsOk = false ∧
    good ∈ (bootOk 3).sku ∧ good ∈ (bootOk 3).leakage ∧ (image 3).sig = good ∧
    (∀ x ∈ [(bootOk 3).mgmt, (bootOk 3).power, (bootOk 3).pan], x.1 = image 3 ∧ x.2 = image 3) := by decide +kernel

/-- A device in a phase of its bring-up, with images in both banks. -/
def phaseS (phase : Nat) : State :=
  { bringUp with
    boot := { bringUp.boot with phase := phase }
    flash := { bringUp.flash with
      answers := true
      sku := [good]
      leakage := [good]
      mgmt := ⟨image 3, image 4, true⟩
      power := ⟨image 3, image 4, true⟩
      pan := ⟨image 3, image 4, true⟩ } }

theorem witness_bring_up :
    (phaseS 1).readyFn 2 = false ∧ (phaseS 1).flash.mgmt.bootable 0 false = true ∧ bringUp.flash.mgmt.bootable 0 false = false ∧
    (phaseS 1).flash.bank = true ∧ (phaseS 1).flash.fwSvn = 0 ∧
    ((phaseS 3).flash.modBanks .pan (fun x => { x with a := image 5 })).start ≠ none ∧ (phaseS 1).bitSet .mgmt = false ∧ (phaseS 1).canReady .mgmt = true ∧
    readyCode .mgmt ∉ (phaseS 1).boot.failedBits ∧ (phaseS 1).dieUp 0 = false ∧ up.mgmtServes = true ∧
    up.boot.lastMismatch = 0 ∧ { up.boot with mgmtDown := true }.mgmtHalted = false := by decide +kernel

theorem witness_management :
    up.mgmtServes = true ∧ up.readyFn 3 = true ∧ (phaseS 1).mgmtServes = false ∧ (phaseS 1).boot.puf = 0 ∧
    (phaseS 1).flash.idLms < 32768 ∧ (phaseS 1).boot.treeNow = none ∧ (up.setReg .glbReadyFn 4).mgmtServes = true ∧
    (up.setReg .glbReadyFn 4).readyFn 3 = false ∧ (up.setReg .secSts (2 ^ 32)).rf .secSts 47 32 = 1 ∧
    { (phaseS 1).boot with treeNow := some 0 }.treeNext = none := by decide +kernel

theorem witness_mailbox :
    ¬ (up.rf .mboxSts 3 0 = 1 ∨ up.readyFn 2 = false) ∧ (up.setReg .mboxSts 1).rf .mboxSts 3 0 = 1 ∧
    { up with boot := { up.boot with mgmtDown := true } }.mgmtServes = false ∧
    { up with mbox := some ⟨1, 0, [5, 0]⟩ }.mbox = some ⟨1, 0, [5, 0]⟩ ∧ ofLe [5#8, 0#8] = 5 ∧ (5 : Nat) ∉ up.flash.mapouts ∧
    (up.setReg .secSts 1).rf .secSts 0 0 = 1 ∧ up.rf .secSts 0 0 = 0 := by decide +kernel

theorem witness_counters : up.boot.phase ≠ 0 ∧
    (ladderS (stepOf 4 0 true false)).stepFor (fun e => e.level == 4) = some (stepOf 4 0 true false) ∧
    (ladderS (stepOf 5 0 true false)).stepFor (fun e => e.level == 5) = some (stepOf 5 0 true false) := by decide +kernel

theorem witness_log :
    (∃ o ∈ (up.ras_ (rasOf 3 2 0 8 1 8)).ras, o.cls = 3 ∧ o.die = 0 ∧ o.unit = 8 ∧ o.index = 1 ∧ o.detail = 8 ∧
      o.first = some 0 ∧ (up.ras_ (rasOf 3 2 0 8 1 8)).weirCtr.toNat < 0 + 10000) ∧ up.ras.length < 4096 := by decide +kernel

theorem witness_memories : Memory.wf State.reset.heap = true ∧ Memory.wf State.reset.pool = true ∧
    Memory.wf State.reset.mboxReq = true ∧ Memory.wf State.reset.mboxRsp = true ∧
    (match step (poke up 0x100 5) with | .next t => Memory.wf t.heap && t.heap.length == 1 | _ => false) = true := by decide +kernel

theorem witness_maps : up.kGran ≤ 4096 ∧ up.logical ≠ [] ∧ up.sharedSize ≤ up.logical.length * up.kGran * 4096 ∧
    0 < up.sharedSize := by decide +kernel

/-- The front end's cases at 0x1000 of a device whose Shared page is this. -/
def fetchS (pg : TlbEntry) (i : Instr) : State := { placed (stands r0 grp) 0 0x1000 i with tlb := [pg] }

theorem witness_front_end :
    Map.find? up.groups (refKey r0) = none ∧ { grp with stat := .twait 1 }.stat ≠ .run ∧
    (readyB (stands r0 { grp with pc := 4 }) r0 { grp with pc := 4 } (launchOn 0) = true ∧ (4 : BitVec 48).toNat % 8 ≠ 0) ∧
    (let s := stands r0 { grp with pc := 0x100000 }
     readyB s r0 { grp with pc := 0x100000 } (launchOn 0) = true ∧
     (match s.fetchInsn 0 5 0x100000 with | .walk va w0 => va == 0x100000 && w0 == 0 | _ => false) = true) ∧
    (let s := fetchS { page with dpa := 0 } (.nop r0 (enc 0))
     readyB s r0 grp (launchOn 0) = true ∧ (match s.fetchInsn 0 5 0x1000 with | .space va w0 => va == 0x1000 && w0 == 0 | _ => false) = true) ∧
    (let s := fetchS page (.nop r0 (enc 0))
     let t := { (match s.locateN (2 ^ 48 + 0x1000) 8 with | some ls => s.poisonLocs ls | none => s) with icache := [] }
     (match t.fetchInsn 0 5 0x1000 with | .got _ _ _ (some va) => va == 0x1000 | _ => false) = true ∧
     (match s.look 0 5 0x1000 8 needR with
       | .ok dpa _ => decide (Map.find? s.icache (icKey (icacheOf 0 (fld dpa 29 6)) (fld dpa 29 6)) =
           some (s.sharedLine (fld dpa 29 6)))
       | _ => false) = true) ∧
    decodeWords r0 0 0 = none ∧
    (match frontEnd (.nop r0 (enc 1)) with
      | some (_, _, n) => n.code.isSome && fetches (fetchS page (.nop r0 (enc 1))) 0 5 0x1000 (encWord n.op n.fn (enc 1)) (encHi (enc 1))
      | none => false) = true ∧
    (match frontEnd (.sadd r0 (f [(34, 1)])) with | some (_, _, n) => n.sregs.contains 1 | none => false) = true := by
  decide +kernel

theorem witness_fatal : Map.find? (stands r0 grp).launches grp.launch = some (launchOn 0) ∧ (launchOn 0).phase = .running := by
  decide +kernel


/-! ### States and operands of further clauses -/

/-- The clocks run, or the thermal trip has stopped them. -/
theorem witness_running_clocks :
    (∀ s ∈ [up, stands r0 grp, dmaS copyCmd, dmaS (copyRun 0 none), mtxS .mma, mtxS .mdrain, rmoS (putCmd none) (win0 true false), held0 .m [],
      repairS, partS 1], s.tripped = false) ∧ (up.setReg .pwrSts 128).tripped = true := by decide +kernel

/-- A channel has this many bad rows of the last millisecond; the slice of line 5 holds its first sector. -/
def rowsS (n : Nat) : State :=
  { held0 .s [] with badRows := (List.range n).map (fun i => (i + 1, 0)) }

theorem witness_sector_errors :
    (∀ n ∈ [0, 62, 63], ((rowsS n).badRows.filter (fun x => decide (x.1 / 4096 = 0 ∧ x.1 ≠ 0 * 4096 + 0 / 128 ∧
      (rowsS n).weirCtr.toNat < x.2 + 100000))).length = n) ∧
    up.chanState 0 ≠ 3 ∧ (0 : Nat) < 2 ^ 19 - 1 ∧ up.sliceHolds 0 = false ∧ up.commonOf 0 = none ∧
    (let key := 15377024 / 32 * 32
     (rowsS 0).sliceHolds key = true ∧ (rowsS 0).sharedOff key = some 640 ∧ (rowsS 0).commonOf key = none ∧ key / 32 < 2 ^ 19 - 1) ∧
    (Map.find? (rowsS 0).coh.dir 5).isSome = true ∧ ((rowsS 0).dirOf 5).valid.getLsbD 0 = true ∧
    (rowsS 0).sharedKey (5 * 128 + 0 * 32) = some 15377024 ∧
    up.coreValid 0 = true ∧ 0 * 8 < poolSize 0 ∧ up.dieUp (coreDie 0) = true ∧
    Map.find? (stands r0 grp).groups (refKey r0) = some grp ∧ (1 : BitVec 6) ≠ 0 ∧
    Map.find? (queueS (queueOf 1 [] [] 0 4)).queues 7 = some (queueOf 1 [] [] 0 4) := by decide +kernel

/-- A suspended group that a preemption saved. -/
def savedL : Launch := { launchOn 0 with
  phase := .preempted
  saved := [(0, suspended)] }

theorem witness_hangs :
    (let s := { up with launches := [(1, savedL)] }
     Map.find? s.groups (refKey r0) = none ∧ s.savedSusp r0 = some 1 ∧ Map.find? s.launches 1 = some savedL) ∧
    (let s := { up with launches := [(1, suspectL)] }
     Map.find? s.launches 1 = some suspectL ∧ suspectL.phase = .failing ∧ s.suspects = [] ∧
     (0 : Nat) ∉ s.hung ∧ Map.find? s.partOps (s.basinOwner (coreBasin 0)) = none ∧ engineExists 0 0 0 = true ∧
     (∀ x ∈ s.launches, x.2.replay = false)) ∧
    (let s := { up with
        launches := [(1, suspectL), (2, launchOn 0)]
        mtx := [{ mtxCmd .mma with org := { (mtxCmd .mma).org with launch := some 1 } }] }
     s.busyLaunch 1 = true ∧ (launchOn 0).phase ≠ .failing) := by decide +kernel

theorem witness_further_queue_states :
    (up.setReg .glbReadyFn 0).sharedUp = false ∧ ((up.setReg .glbReadyFn 0).queue 7).st = 0 ∧
    (Map.find? (partOpS true).partOps 3).isSome = true ∧
    ((leavingS (2 ^ 24)).saveFault 127 0 ((leavingS (2 ^ 24)).saveSlotFor 0) (saveLen 1 0) true).any (fun f => f.code != 10) = true ∧
    (∀ kv ∈ (queueS (queueOf 1 [] [] 0 4)).queues, kv.2.front.isSome = false) ∧
    (partOpS true).insidePart (stepOf 2 0 false false) = true ∧ up.insidePart (stepOf 2 0 false false) = false ∧
    (∃ e ∈ [stepOf 6 3 false false], e.level ≤ 2 ∨ e.level = 6) ∧
    up.basinOwner 0 ∉ up.quarantined ∧ 100 + 0 ∉ up.boot.failedBits := by decide +kernel

theorem witness_further_registers :
    down2.blockReady (.panHeapCtl 4) = false ∧ up.blockReady (.panHeapCtl 4) = true ∧
    (up.setReg .glbReadyFn (2 ^ 33 - 1 - 4)).blockReady .mboxSts = false ∧ (0xFC000 : Nat) ≤ 0xFC002 ∧ 0xFC002 < 0xFC070 ∧
    0xFC002 % 4 ≠ 0 ∧ (∀ k, k < 4 → up.subUp (0 / 4 * 4 + k) = false) ∧ (sessS (sessOf 0 []) []).readyFn (20 + 0 / 4) = true ∧
    (edgesS 1).edgeLinks 0 2 ≠ 0 ∧ 1 < (edgesS 1).edgeLinks 0 0 ∧
    { edgesS 1 with boot := { (edgesS 1).boot with linksOut := [(2, 31), (0, 63)] } }.edgeLinks 0 2 ≤ 1 ∧
    (3 : Nat) ∉ bringUp.boot.rejected ∧ (3 : Nat) ∈ { bringUp.boot with rejected := [3] }.rejected := by decide +kernel

theorem witness_waiting_fetch :
    let s := { placed (stands r0 grp) 0 0x1000 (.nop r0 (enc 0)) with
      icache := []
      coh := ⟨[(lineKey 0 32, ⟨.m, 2, []⟩)], [], [(32, frame5 (some 0) [])], [], [⟨.fwdGetS 3, 0, 32⟩]⟩ }
    (match s.fetchInsn 0 5 0x1000 with | .wait => true | _ => false) = true ∧ readyB s r0 grp (launchOn 0) = true := by
  decide +kernel

/-- A packed COPY whose header is not read yet. -/
def packedD : List Word := [0x4000, 0x8000, 0, 0, 0, 0, 0, BitVec.ofNat 64 (3 * 2 ^ 47)]

theorem witness_engine_order :
    (dmaS copyCmd).behindHeld copyCmd = false ∧ (copyRun 0 none).ranges.length = 2 ∧ (dmaS copyCmd).regFree 0 = true ∧
    (copyRun 0 none).closed copyD = false ∧ { copyRun 0 none with desc := some packedD }.closed packedD = true ∧
    (dmaS { copyRun 0 none with desc := some packedD }).rowHeld { copyRun 0 none with desc := some packedD } packedD 0 = false := by
  decide +kernel
/-! ### Well-formed commands -/

/-- Ill-formed commands: each breaks one check of `Instr.wf`, and the check refuses it. -/
theorem test_ill_formed : ∀ i ∈ [
    Instr.switchComplete 7, .switchComplete 768, .switchComplete 1120, .engineReset ⟨7, 0, 0⟩,
    .nop ⟨0, 8⟩ (enc 0), .nop ⟨4, 32⟩ (enc 0), .nop ⟨6, 16⟩ (enc 0), .nop ⟨1024, 112⟩ (enc 0), .twaitReturn ⟨0, 8⟩,
    .walkComplete (.group ⟨0, 8⟩), .walkComplete (.page 13 0 0),
    .nop r0 { enc 0 with ext := 1 }, .vmad r0 { enc 0 with imm := true }, .ret r0 { enc 0 with imm := true },
    .schedule 100, .invalidationComplete 126, .idleHintWrite 96 0, .windowWithdrawComplete 0 65536,
    .s1All 5 3 0, .s2Part 0 96 0, .fringHeadWrite 2 127 0,
    .registerWrite ⟨97, false, 0, 8, false, 0⟩, .registerWrite ⟨0, false, 0, 3, false, 0⟩,
    .registerWrite ⟨1, false, 2 ^ 20, 8, false, 0⟩, .registerWrite ⟨0, true, 2 ^ 14, 4, true, 0⟩, .doorbell 0 0 3 0,
    .sitebConfigAccess 4096 false, .configRequest 97 0 none, .windowExport 97 0, .enable 97 0, .msixUnmask 0 64,
    .gets 0 (2 ^ 23), .packetRead (2 ^ 18), .helloRetry 4096, .rakePatrol (.channel 0 (2 ^ 19)) false .good,
    .commonRepairComplete (384 * 2 ^ 12) false], i.wf = false := by decide +kernel

theorem test_ill_formed_message : (Msg.mk 0 0 0 0 0 0 (List.replicate 4097 0) 0 false).wf = false := by
  simp only [Msg.wf, List.length_replicate]
  decide

theorem test_well_formed : ∀ i ∈ [
    Instr.switchComplete 6, .switchComplete 1119, .engineReset ⟨0, 0, 0⟩, .nop ⟨0, 7⟩ (enc 0), .nop ⟨1024, 111⟩ (enc 0),
    .nop r0 { enc 0 with x := true, ext := 1 }, .vadd r0 { enc 0 with imm := true }, .schedule 127, .s1All 4 3 0,
    .registerWrite ⟨0, false, 2 ^ 27 - 8, 8, false, 0⟩, .gets 0 (2 ^ 23 - 1), .walkComplete (.page 15 0 0)], i.wf = true := by
  decide +kernel

/-! ### The words of Glaper instructions (worked examples of chapters 5 and 11) -/

/-- The operand bits of what two words decode to. -/
def bitsOf (w0 w1 : Word) : Enc := encOfWords w0 w1

/-- `atom.cas.dev s10, [s20], s0, s11` (Table 05-9). -/
theorem test_word_atom : decodeWords r0 0x38000A50B029C000 0 = some (.atom r0 (bitsOf 0x38000A50B029C000 0)) ∧
    (let e := bitsOf 0x38000A50B029C000 0
     (encD e, encA e, encB e, encC e) = (10, 20, 11, 0) ∧
     (encF e 21 20, encF e 19 16, encF e 15 15, encF e 14 14, encF e 13 13) = (2, 9, 1, 1, 0) ∧
     e.x = false ∧ e.g = 0 ∧ e.gn = false ∧ decodeAtom e = none) := by decide +kernel

/-- The same atomic with AOP 0xB faults at decode with code 0x02; with VEC = 1 and an odd D too, code 0x02 alone. -/
theorem test_word_atom_reserved : decodeAtom (bitsOf 0x38000A50B02BC000 0) = some 2 ∧
    decodeAtom (bitsOf 0x38000B50B02BE000 0) = some 2 ∧ decodeAtom (bitsOf 0x38000B50B029E000 0) = some 4 := by decide +kernel

/-- `bne s10, s0, spin` at spin + 8 (chapter 5). -/
theorem test_word_bne : decodeWords r0 0x8000402801FFFFFF 0 = some (.bCc r0 (bitsOf 0x8000402801FFFFFF 0)) ∧
    (let e := bitsOf 0x8000402801FFFFFF 0
     (encA e, encB e, encF e 27 24, encOff e) = (10, 0, 1, -8) ∧ decodeBr 1 e = none) := by decide +kernel

/-- `puts n:0x0213 w:7 sw:8, s10, s11, s12, s14` (Table 05-8). -/
theorem test_word_puts :
    decodeWords r0 0xAE010A2CC3800000 0xFC084C001C002000 = some (.puts r0 (bitsOf 0xAE010A2CC3800000 0xFC084C001C002000)) ∧
    (let e := bitsOf 0xAE010A2CC3800000 0xFC084C001C002000
     e.x = true ∧ (encD e, encA e, encB e, encC e) = (10, 11, 12, 14) ∧
     (encX e 57 42, encX e 41 26, encX e 25 10) = (0x0213, 7, 8) ∧ decodeRmo 4 e = none) := by decide +kernel

/-- A word for each family, its OP and FN written out from Table 05-5: bits 63:58 and 51:46. -/
theorem test_word_families :
    decodeWords r0 (0x01 * 2 ^ 58) 0 = some (.nop r0 (bitsOf (0x01 * 2 ^ 58) 0)) ∧
    decodeWords r0 (0x04 * 2 ^ 58 + 0x0F * 2 ^ 46) 0 = some (.vsel r0 (bitsOf (0x04 * 2 ^ 58 + 0x0F * 2 ^ 46) 0)) ∧
    decodeWords r0 (0x05 * 2 ^ 58) 0 = some (.vadd r0 { enc 0 with imm := true }) ∧
    decodeWords r0 (0x06 * 2 ^ 58 + 8 * 2 ^ 46) 0 = some (.vsigmoid r0 (enc 0)) ∧
    decodeWords r0 (0x07 * 2 ^ 58) 0 = some (.vcvt r0 (enc 0)) ∧ decodeWords r0 (0x08 * 2 ^ 58) 0 = some (.vcmp r0 (enc 0)) ∧
    decodeWords r0 (0x09 * 2 ^ 58 + 6 * 2 ^ 46) 0 = some (.pcnt r0 (enc 0)) ∧
    decodeWords r0 (0x0A * 2 ^ 58 + 7 * 2 ^ 46) 0 = some (.vtos r0 (enc 0)) ∧
    decodeWords r0 (0x0B * 2 ^ 58) 0 = some (.route r0 (enc 0)) ∧ decodeWords r0 (0x0C * 2 ^ 58) 0 = some (.vld r0 (enc 0)) ∧
    decodeWords r0 (0x11 * 2 ^ 58) 0 = some (.tstF r0 (enc 0)) ∧
    decodeWords r0 (0x19 * 2 ^ 58 + 0x15 * 2 ^ 46) 0 = some (.sdivu r0 { enc 0 with imm := true }) ∧
    decodeWords r0 (0x1B * 2 ^ 58 + 2 * 2 ^ 46) 0 = some (.tset r0 (enc 0)) ∧
    decodeWords r0 (0x21 * 2 ^ 58 + 4 * 2 ^ 46) 0 = some (.elect r0 (enc 0)) ∧
    decodeWords r0 (0x22 * 2 ^ 58 + 1 * 2 ^ 46) 0 = some (.swait r0 (enc 0)) ∧
    decodeWords r0 (0x28 * 2 ^ 58) 0 = some (.mma r0 (enc 0)) ∧
    decodeWords r0 (0x29 * 2 ^ 58 + 1 * 2 ^ 46) 0 = some (.mdrain r0 (enc 0)) ∧
    decodeWords r0 (0x2A * 2 ^ 58 + 5 * 2 ^ 46) 0 = some (.dmaBucket r0 (enc 0)) := by decide +kernel

/-- OP 0 and OP 0x3F are reserved, and so is an FN that an OP does not list. -/
theorem test_word_reserved : decodeWords r0 0 0 = none ∧ decodeWords r0 (2 ^ 64 - 1) 0 = none ∧
    decodeWords r0 (0x01 * 2 ^ 58 + 2 ^ 46) 0 = none ∧ decodeWords r0 (0x05 * 2 ^ 58 + 3 * 2 ^ 46) 0 = none := by decide +kernel

theorem witness_decode_encode : glaper (.vadd r0 { enc 0 with imm := true }) = some ⟨r0, { enc 0 with imm := true }, 5, 0⟩ ∧
    (Instr.vadd r0 { enc 0 with imm := true }).wf = true ∧
    encodeWords (.vadd r0 { enc 0 with imm := true }) = some (0x1400000000000000, 0) := by decide +kernel

/-! ### Worked examples of the spec -/

/-- Lake offsets 100,000 and 100,352 (R26): S0 at 0x12A0 and M0 at 0x4A00. -/
theorem test_lake_pool : poolKey 1024 100000 = poolKey 6 0x12A0 ∧ poolKey 1024 100352 = poolKey 0 0x4A00 ∧
    poolKey (1024 + 5) 100000 = poolKey (5 * 8 + 6) 0x12A0 := by decide +kernel

/-- S = 512 MiB on 384 channels gives K = 342 (R44); Spread offset 0x123456 of channels 96 to 127 (R46). -/
theorem test_shared_size : kFor 1 384 = 342 ∧
    overList ((List.range 32).map (96 + ·)) 0 0x123456 = some (99 * 2 ^ 24 + 0x9456) := by decide +kernel

/-- Shared offset 0x01234580 has its home at die 7, slice 6 (R216). -/
theorem test_home : homeSlice (0x01234580 / 128) = 7 * 16 + 6 := by decide +kernel

/-- BSN_MODE_STS of basin 59 lies at 0x4723008 (Table 24-1). -/
theorem test_register_offset : Reg.key (.bsnModeSts 59) = 0x4723008 := by decide +kernel

/-- 5.2, −1.3, 0.25 and 2.5 in MXFP4, the scale byte 0x7F (Table 06-4; 5.2 and 1.3 as tenths of a power of two). -/
theorem test_mxfp4 : mxBlock 0x0F 0 (fun _ _ => 0)
      [.fin false 5452595 (-20), .fin true 1363149 (-20), .fin false 1 (-2), .fin false 5 (-1)] =
    (0x7F, [0b0111, 0b1011, 0b0000, 0b0100]) := by decide +kernel

/-- 2^24, 1.0 and −2^24 in one block on an accumulator of 3.0 give 4.0 (R103). -/
theorem test_block_sum :
    (blockSum [.fin false 1 24, .fin false 1 0, .fin false 1 24]
        [(0, .fin false 1 0), (1, .fin false 1 0), (2, .fin true 1 0)]).map (accStep false 0x40400000) = some 0x40800000 := by
  decide +kernel

/-- Entries 0x5, 0x0, 0xC and 0x3 of 2:4 metadata (R113). -/
theorem test_sparsity : (List.range 4).map (metaPos 1 0x05) = [1, 3, 4, 5] ∧ (List.range 2).map (metaPos 1 0x0C) = [0, 0] ∧
    (List.range 2).map (metaPos 1 0x03) = [3, 0] := by decide +kernel

/-- The active lanes and the mask stack of the group after a next state. -/
def maskOfNext (o : Res) : Option (Half × List (Half × Half)) :=
  match o with
  | .next t => (Map.find? t.groups (refKey r0)).map (fun g => (g.act, g.stack.map (fun x => (x.m, x.f))))
  | _ => none

/-- The group of Table 04-7, with its predicates, its active lanes and its stack. -/
def maskS (act : Half) (st : List MaskEntry) : State :=
  stands r0 { grp with p := [(3, 0xFFFF0F0F), (4, 0x0000FFFF)], act := act, stack := st }

/-- The next state of an instruction whose words stand at the group's program counter. -/
def runPlaced (s : State) (i : Instr) : Res := exec i (placed s 0 0x1000 i)

/-- Steps 1 to 6′ of Table 04-7. -/
theorem test_mask_trace :
    maskOfNext (runPlaced (maskS 0xFFFFFFFF []) (.split r0 (f [(42, 3), (0, 8)]))) =
      some (0xFFFF0F0F, [(0xFFFFFFFF, 0x0000F0F0)]) ∧
    maskOfNext (runPlaced (maskS 0xFFFF0F0F [⟨0xFFFFFFFF, 0x0000F0F0, 0⟩]) (.split r0 (f [(42, 4), (0, 8)]))) =
      some (0x00000F0F, [(0xFFFF0F0F, 0xFFFF0000), (0xFFFFFFFF, 0x0000F0F0)]) ∧
    maskOfNext (runPlaced (maskS 0x00000F0F [⟨0xFFFF0F0F, 0xFFFF0000, 0⟩]) (.elseMask r0 (f [(0, 8)]))) =
      some (0xFFFF0000, [(0xFFFF0F0F, 0)]) ∧
    maskOfNext (runPlaced (maskS 0xFFFF0000 [⟨0xFFFF0F0F, 0, 0⟩]) (.join r0 (enc 0))) = some (0xFFFF0F0F, []) := by decide +kernel

/-- A code-2 fault of the atomic with AOP 0xB even with every lane masked off (R86): the launch fails. -/
theorem test_decode_fault_before_guard :
    (match runPlaced (stands r0 { grp with act := 0 }) (.atom r0 { bitsOf 0x38000A50B02BC000 0 with g := 0 }) with
     | .next t => (Map.find? t.launches 1).map (fun l => decide (l.phase = .failing ∧ l.status = 2))
     | _ => none) = some true := by decide +kernel

end Sys2Proof.Tests
end

/-! Proofs: the hard-wired registers of a group (R54). -/

namespace Sys2Proof.Machine

/-- R54: a write of s0 leaves the whole group as it was, not only what s0 reads as. -/
@[simp] theorem Group.setS_zero (g : Group) (x : Word) : g.setS 0 x = g := rfl

/-- R54: a write of p0 leaves the whole group as it was. -/
@[simp] theorem Group.setP_zero (g : Group) (x : Half) : g.setP 0 x = g := rfl

/-- R76: the effective mask of a guard that is not inverted. -/
theorem effMask_of_not_gn (g : Group) (e : Enc) (h : e.gn = false) : effMask g e = g.act &&& g.gp e.g.toNat := by
  simp [effMask, h]

/-- R54: under the guard p0 every active lane takes part. -/
theorem effMask_of_guard_p0 (g : Group) (e : Enc) (hg : e.g = 0) (hn : e.gn = false) : effMask g e = g.act :=
  calc effMask g e
    _ = g.act &&& g.gp e.g.toNat := effMask_of_not_gn g e hn
    _ = g.act &&& 0xFFFFFFFF#32 := by rw [hg]; rfl
    _ = g.act := BitVec.and_allOnes

/-- Settles O54: the fixed reads are the laws of s0 and p0, and a discarded write leaves the group itself unchanged. -/
theorem hardWiredRegisters : Obligations.hard_wired_registers := by
  unfold Obligations.hard_wired_registers
  intro g
  refine ⟨g.gs_zero, g.gp_zero, fun x => ?_, fun x => ?_, effMask_of_guard_p0 g⟩
  · rw [g.setS_zero x]
    exact ⟨g.gs_zero, fun _ _ => rfl⟩
  · rw [g.setP_zero x]
    exact ⟨g.gp_zero, fun _ _ => rfl⟩

end Sys2Proof.Machine

/-! Proofs: the counters of the Pan dies and the Weir (R323). -/

namespace Sys2Proof.Machine

/-! ### What leaves the counters as they are -/

/-- `t` holds the counters that `s` holds. -/
def KeepsCounters (s t : State) : Prop := t.weirCtr = s.weirCtr ∧ t.panCtr = s.panCtr

namespace KeepsCounters

theorem refl (s : State) : KeepsCounters s s := ⟨rfl, rfl⟩

theorem trans {s t u : State} (h : KeepsCounters s t) (k : KeepsCounters t u) : KeepsCounters s u :=
  ⟨k.1.trans h.1, k.2.trans h.2⟩

theorem of_eq {s t u : State} (h : KeepsCounters s t) (hweir : u.weirCtr = t.weirCtr) (hpan : u.panCtr = t.panCtr) :
    KeepsCounters s u := h.trans ⟨hweir, hpan⟩

theorem dieTime {s t : State} (h : KeepsCounters s t) (d : Nat) : t.dieTime d = s.dieTime d := by
  obtain ⟨hweir, hpan⟩ := h
  unfold State.dieTime
  rw [hweir, hpan]

theorem foldl {α : Type} {f : State → α → State} (h : ∀ u x, KeepsCounters u (f u x)) (xs : List α) (s : State) :
    KeepsCounters s (xs.foldl f s) := by
  induction xs generalizing s with
  | nil => exact refl s
  | cons x xs ih => exact (h s x).trans (ih _)

end KeepsCounters

theorem WritesOnly.keepsCounters {s t : State} (h : WritesOnly s t) : KeepsCounters s t := by
  rw [h]
  exact ⟨rfl, rfl⟩

theorem LogsOnly.keepsCounters {s t : State} (h : LogsOnly s t) : KeepsCounters s t := h.writes.keepsCounters

theorem keepsCounters_setRf (s : State) (r : Reg) (hi lo v : Nat) : KeepsCounters s (s.setRf r hi lo v) :=
  (logsOnly_setRf s r hi lo v).keepsCounters

theorem keepsCounters_ras (s : State) (e : RasEntry) : KeepsCounters s (s.ras_ e) := (logsOnly_ras s e).keepsCounters

theorem keepsCounters_post (s : State) (p : Nat) (ws : List Word) : KeepsCounters s (s.post p ws).1 :=
  (logsOnly_post s p ws).keepsCounters

/-! ### A period of the reference clock -/

theorem keepsCounters_chargeCore (s : State) (core : Nat) : KeepsCounters s (s.chargeCore core) := by
  unfold State.chargeCore KeepsCounters
  dsimp only
  refine KeepsCounters.trans (KeepsCounters.foldl (fun u l => ?_) _ s) (KeepsCounters.foldl (fun u c => ?_) _ _)
  · split
    · exact KeepsCounters.refl u
    · exact ⟨rfl, rfl⟩
  · exact ⟨rfl, rfl⟩

/-- The step of one die's counter, modulo 2^64. -/
def bumpCounter (m : Map Nat) (d : Nat) : Map Nat := Map.put m d ((Map.getD m d 0 + 1) % 2 ^ 64)

theorem getD_bumpCounter (m : Map Nat) (i d : Nat) :
    Map.getD (bumpCounter m i) d 0 = if d = i then (Map.getD m d 0 + 1) % 2 ^ 64 else Map.getD m d 0 := by
  unfold bumpCounter
  simp only [Map.getD, Map.find?_put]
  split
  case isTrue h => subst h; rfl
  case isFalse => rfl

/-- Counting each listed die once moves the listed counters by one and no other. -/
theorem getD_foldl_bumpCounter {ds : List Nat} (hnd : ds.Nodup) (m : Map Nat) (d : Nat) :
    Map.getD (ds.foldl bumpCounter m) d 0 =
      if d ∈ ds then (Map.getD m d 0 + 1) % 2 ^ 64 else Map.getD m d 0 := by
  induction ds generalizing m with
  | nil => simp
  | cons i ds ih =>
    obtain ⟨hi, hds⟩ := List.nodup_cons.mp hnd
    rw [List.foldl_cons, ih hds, getD_bumpCounter]
    by_cases h : d = i
    · subst h
      simp [hi]
    · simp [h]

/-- With power good, a period counts the Weir's counter and every die's from where they stood, whatever is charged. -/
theorem State.tick_counters {s : State} (h : s.boot.phase ≠ 0) :
    s.tick.weirCtr = s.weirCtr + 1 ∧ s.tick.panCtr = (List.range 12).foldl bumpCounter s.panCtr := by
  have charge : KeepsCounters s (s.busyCores.foldl State.chargeCore s) := KeepsCounters.foldl keepsCounters_chargeCore _ s
  obtain ⟨hweir, hpan⟩ := charge
  unfold State.tick
  rw [if_neg (by simpa using h)]
  dsimp only
  split
  case isTrue => exact ⟨rfl, rfl⟩
  case isFalse =>
    dsimp only
    rw [hweir, hpan]
    exact ⟨rfl, rfl⟩

theorem State.tick_dieTime {s : State} (h : s.boot.phase ≠ 0) {d : Nat} (hd : d < 12) :
    s.tick.dieTime d = (s.dieTime d + 1) % 2 ^ 64 := by
  obtain ⟨-, hpan⟩ := State.tick_counters h
  simp only [State.dieTime, hd, if_true, hpan, getD_foldl_bumpCounter List.nodup_range, List.mem_range]

/-! ### A boot -/

theorem keepsCounters_mapOut (s : State) (c : Nat) : KeepsCounters s (s.mapOut c) :=
  KeepsCounters.trans ⟨rfl, rfl⟩ (keepsCounters_ras _ _)

theorem keepsCounters_bootChan (s : State) (cold tested : Bool) (c : Nat) : KeepsCounters s (s.bootChan cold tested c) := by
  unfold State.bootChan
  dsimp only
  split
  · exact keepsCounters_setRf s _ _ _ _
  · split
    · exact keepsCounters_mapOut s c
    · exact keepsCounters_setRf s _ _ _ _

theorem keepsCounters_takeProt (s : State) : KeepsCounters s s.takeProt :=
  KeepsCounters.foldl (fun u _ => keepsCounters_setRf u _ _ _ _) _ s

theorem keepsCounters_formK (s : State) : KeepsCounters s s.formK := by
  unfold State.formK
  have set : ∀ k z, KeepsCounters s ((s.setRf .glbSharedSts 31 20 k).setRf .glbSharedSts 1 0 z) := fun _ _ =>
    (keepsCounters_setRf s _ _ _ _).trans (keepsCounters_setRf _ _ _ _ _)
  dsimp only
  split
  · exact (set _ _).trans (keepsCounters_ras _ _)
  · split
    · exact set _ _
    · exact (set _ _).trans (keepsCounters_ras _ _)

theorem keepsCounters_heapFaults (s : State) : KeepsCounters s s.heapFaults :=
  KeepsCounters.foldl (fun u _ => keepsCounters_ras u _) _ s

theorem keepsCounters_bootHeaps (s : State) (cold tested : Bool) : KeepsCounters s (s.bootHeaps cold tested) := by
  unfold State.bootHeaps
  dsimp only
  refine (KeepsCounters.foldl (fun u c => keepsCounters_bootChan u cold tested c) (List.range 384) s).trans ?_
  have prot : ∀ u : State, KeepsCounters u (if cold then u else u.takeProt) := fun u => by
    split
    · exact KeepsCounters.refl u
    · exact keepsCounters_takeProt u
  exact (prot _).trans ((keepsCounters_formK _).trans (KeepsCounters.trans (keepsCounters_heapFaults _) ⟨rfl, rfl⟩))

theorem keepsCounters_takeRecords (s : State) (cold : Bool) : KeepsCounters s (s.takeRecords cold) := by
  unfold State.takeRecords
  dsimp only
  split
  · exact ⟨rfl, rfl⟩
  · split <;> exact ⟨rfl, rfl⟩

theorem keepsCounters_loadFlash (s : State) (cold : Bool) : KeepsCounters s (s.loadFlash cold) := by
  unfold State.loadFlash
  dsimp only
  refine KeepsCounters.trans ?_ ((keepsCounters_setRf _ _ _ _ _).trans (keepsCounters_setRf _ _ _ _ _))
  split
  · exact (keepsCounters_setRf s _ _ _ _).trans <| (keepsCounters_setRf _ _ _ _ _).trans <|
      (keepsCounters_setRf _ _ _ _ _).trans (keepsCounters_setRf _ _ _ _ _)
  · exact KeepsCounters.refl s

theorem keepsCounters_noteFirmware (s : State) : KeepsCounters s s.noteFirmware :=
  (keepsCounters_setRf s _ _ _ _).trans <| (keepsCounters_setRf _ _ _ _ _).trans <|
    (keepsCounters_setRf _ _ _ _ _).trans (keepsCounters_setRf _ _ _ _ _)

theorem keepsCounters_setMeasurement (s : State) (i : Nat) (m : List Byte) : KeepsCounters s (s.setMeasurement i m) :=
  KeepsCounters.foldl (fun u _ => (logsOnly_setReg u _ _).keepsCounters) _ s

theorem keepsCounters_extend (s : State) (i : Nat) (m : List Byte) : KeepsCounters s (s.extend i m) :=
  keepsCounters_setMeasurement s i _

theorem keepsCounters_measureBoot (s : State) : KeepsCounters s s.measureBoot := by
  unfold State.measureBoot
  dsimp only
  have clear : KeepsCounters s s.clearMeasurements := KeepsCounters.foldl (fun u i => keepsCounters_setMeasurement u i []) _ s
  exact clear.trans <| (keepsCounters_extend _ _ _).trans <| (keepsCounters_extend _ _ _).trans <|
    (keepsCounters_extend _ _ _).trans <| (keepsCounters_extend _ _ _).trans <| (keepsCounters_extend _ _ _).trans <|
    (keepsCounters_extend _ _ _).trans <| (keepsCounters_extend _ _ _).trans (keepsCounters_extend _ _ _)

theorem keepsCounters_notePresent (s : State) : KeepsCounters s s.notePresent :=
  KeepsCounters.foldl (fun u _ => keepsCounters_setRf u _ _ _ _) _ s

/-- A boot, whether it ends in recovery or goes on, counts nothing. -/
theorem keepsCounters_bringUp (s : State) (cold pufOk : Bool) : KeepsCounters s (s.bringUp cold pufOk) := by
  unfold State.bringUp
  extract_lets flash₀ begun
  split
  case h_1 => exact ⟨rfl, rfl⟩
  case h_2 f _ =>
    extract_lets chanOk puf loaded noted heaps status measured
    have hloaded : KeepsCounters s loaded :=
      KeepsCounters.trans (keepsCounters_takeRecords { begun with flash := f } cold) (keepsCounters_loadFlash _ cold)
    have hnoted : KeepsCounters loaded noted := by
      unfold noted
      split
      · exact KeepsCounters.refl loaded
      · exact keepsCounters_ras loaded _
    have hheaps : KeepsCounters noted heaps := (keepsCounters_bootHeaps noted _ _).trans (keepsCounters_noteFirmware _)
    have hstatus : KeepsCounters heaps status := (keepsCounters_setRf heaps _ _ _ _).trans (keepsCounters_setRf _ _ _ _ _)
    have hmeasured : KeepsCounters status measured := by
      unfold measured
      exact (keepsCounters_setRf status _ _ _ _).trans ((keepsCounters_measureBoot _).trans (keepsCounters_notePresent _))
    have kept : KeepsCounters s measured := hloaded.trans (hnoted.trans (hheaps.trans (hstatus.trans hmeasured)))
    -- The boot's own fields and the pins change last; `measured` becomes opaque so that only the two counters are compared.
    clear_value measured
    exact kept.of_eq rfl rfl

/-! ### Resets of the device -/

/-- Every counter stands at 0. -/
def CountersZero (s : State) : Prop := s.weirCtr = 0 ∧ s.panCtr = []

theorem CountersZero.of_keeps {s t : State} (hs : CountersZero s) (h : KeepsCounters s t) : CountersZero t :=
  ⟨h.1.trans hs.1, h.2.trans hs.2⟩

theorem CountersZero.dieTime {s : State} (h : CountersZero s) {d : Nat} (hd : d < 12) : s.dieTime d = 0 := by
  simp [State.dieTime, hd, h.2]

/-- No counter is among what a reset of the device leaves (R323). -/
theorem countersZero_survivors (s : State) : CountersZero s.survivors := ⟨rfl, rfl⟩

theorem countersZero_warmReset (s : State) : CountersZero s.warmReset := by
  unfold State.warmReset
  dsimp only
  refine CountersZero.of_keeps ?_ (keepsCounters_bringUp _ _ _)
  obtain ⟨hweir, hpan⟩ := countersZero_survivors (s.readyLost.settleBad.restoreAll [.w, .p])
  split
  · exact ⟨hweir, hpan⟩
  · exact ⟨hweir, hpan⟩

theorem countersZero_coldReset (s : State) : CountersZero s.coldReset :=
  CountersZero.of_keeps (countersZero_survivors s.readyLost.mapOutFailed) (keepsCounters_bringUp _ _ _)

theorem exec_warmDeviceReset {s : State} {r : ResetReq} (h : s.stepFor (fun e => e.level == 4) = some r) :
    exec .warmDeviceReset s = .next { s.warmReset with resetQ := [{ r with applied := true }] } := by
  show execWarmDeviceReset s = _
  unfold execWarmDeviceReset
  rw [h]

theorem exec_coldReset {s : State} {r : ResetReq} (h : s.stepFor (fun e => e.level == 5) = some r) :
    exec .coldReset s = .next { s.coldReset with resetQ := [{ r with applied := true }] } := by
  show execColdReset s = _
  unfold execColdReset
  rw [h]

/-! ### A context that is let go -/

/-- A fault of an access of the Weir's own is logged and posted; it counts nothing (R246). -/
theorem keepsCounters_weirFault (s : State) (p : Nat) (ctx : Option Nat) (f : XFault) (write : Bool) :
    KeepsCounters s (s.weirFault p ctx f write) := by
  unfold State.weirFault
  extract_lets c walked key entry logged
  have hwalked : KeepsCounters s walked := (logsOnly_noteMet s _ _).keepsCounters
  have hlogged : KeepsCounters walked logged := by
    unfold logged
    split
    · exact keepsCounters_ras walked _
    · exact KeepsCounters.refl walked
  clear_value logged
  refine hwalked.trans (hlogged.trans ?_)
  split
  · exact KeepsCounters.refl logged
  · dsimp only
    split
    · exact keepsCounters_post logged 127 _
    · exact keepsCounters_post logged 127 _

theorem keepsCounters_ipaWrite {s t : State} {p ipa : Nat} {bs : List Byte} (h : s.ipaWrite p ipa bs = .ok t) :
    KeepsCounters s t := by
  unfold State.ipaWrite at h
  cases hx : s.translate2 p ipa bs.length true with
  | error f => rw [hx] at h; cases h
  | ok r =>
    rw [hx] at h
    simp only [bind, Except.bind] at h
    split at h
    · split at h
      · cases h
      · split at h
        · cases h
        · cases h
          exact ((writesOnly_noteIpa s _ _ _ _).trans (writesOnly_writeLocs _ _ _ _)).keepsCounters
    · cases h

theorem keepsCounters_writeBack (s : State) (ctx : Nat) : KeepsCounters s (s.writeBack ctx) := by
  unfold State.writeBack
  split
  · exact KeepsCounters.refl s
  · split
    · exact KeepsCounters.refl s
    · split
      case h_1 hw => exact keepsCounters_ipaWrite hw
      case h_2 =>
        split
        · exact KeepsCounters.refl s
        · exact keepsCounters_weirFault s _ _ _ _

theorem keepsCounters_failLaunch (s : State) (launch status : Nat) : KeepsCounters s (s.failLaunch launch status) := by
  unfold State.failLaunch
  split
  · exact KeepsCounters.refl s
  · split
    · exact KeepsCounters.refl s
    · exact ⟨rfl, rfl⟩

theorem keepsCounters_failCtx (s : State) (ctx : Nat) : KeepsCounters s (s.failCtx ctx) :=
  KeepsCounters.trans ⟨rfl, rfl⟩ (KeepsCounters.foldl (fun u l => keepsCounters_failLaunch u l 2) _ _)

theorem keepsCounters_quePoison (s : State) (p ctx : Nat) : KeepsCounters s (s.quePoison p ctx) :=
  (keepsCounters_ras s _).trans (keepsCounters_failCtx _ _)

theorem keepsCounters_noteRecord (s : State) (ctx : Nat) : KeepsCounters s (s.noteRecord ctx) := by
  unfold State.noteRecord
  split
  · exact KeepsCounters.refl s
  · exact (writesOnly_noteIpa s _ _ _ _).keepsCounters

theorem keepsCounters_readActive {s t : State} {ctx : Nat} {a : ActiveCtx} (h : s.readActive ctx = some (t, a)) :
    KeepsCounters s t := by
  unfold State.readActive at h
  dsimp only at h
  split at h
  case h_1 =>
    cases h
    split
    · exact (keepsCounters_noteRecord s ctx).trans (keepsCounters_quePoison _ _ _)
    · exact keepsCounters_noteRecord s ctx
  case h_2 =>
    split at h
    · cases h
    · cases h
      split
      · exact (keepsCounters_weirFault s _ _ _ _).trans (keepsCounters_failCtx _ _)
      · exact keepsCounters_weirFault s _ _ _ _

theorem keepsCounters_activate (s : State) (ctx : Nat) : KeepsCounters s (s.activate ctx) := by
  unfold State.activate
  split
  · exact KeepsCounters.refl s
  · split
    case h_1 => exact KeepsCounters.refl s
    case h_2 hr => exact KeepsCounters.trans (keepsCounters_readActive hr) ⟨rfl, rfl⟩

theorem keepsCounters_activateWaiting (s : State) : KeepsCounters s s.activateWaiting :=
  KeepsCounters.foldl (fun u (kv : Nat × Queue) => keepsCounters_activate u kv.2.ctx) _ s

theorem keepsCounters_settleCtx (s : State) (ctx : Nat) : KeepsCounters s (s.settleCtx ctx) := by
  unfold State.settleCtx
  split
  · exact KeepsCounters.refl s
  · have back : KeepsCounters s { (s.writeBack ctx) with ctxs := Map.drop s.ctxs ctx } :=
      (keepsCounters_writeBack s ctx).of_eq rfl rfl
    exact back.trans (keepsCounters_activateWaiting _)

/-! ### A die's reset -/

theorem dieTime_eq_zero_of_drop {s : State} {m : Map Nat} {d : Nat} (hd : d < 12) (h : s.panCtr = Map.drop m d) :
    s.dieTime d = 0 := by
  simp [State.dieTime, hd, h, Map.getD, Map.find?_drop]

/-- A die that is lost drops its counter, and the contexts then let go do not bring it back. -/
theorem State.loseDie_dieTime (s : State) {d : Nat} (hd : d < 12) : (s.loseDie d).dieTime d = 0 := by
  unfold State.loseDie
  dsimp only
  rw [(KeepsCounters.foldl keepsCounters_settleCtx _ _).dieTime d]
  exact dieTime_eq_zero_of_drop hd rfl

/-- Whatever a die's reset ends before, it ends in the loss of the die (R372). -/
theorem exec_dieReset {s : State} {d : Fin 12} {r : ResetReq}
    (h : s.stepFor (fun e => e.level == 3 && e.unit == d.val) = some r) :
    ∃ u : State, exec (.dieReset d) s = .next (u.loseDie d.val) := by
  show ∃ u : State, execDieReset d s = .next (u.loseDie d.val)
  unfold execDieReset
  rw [h]
  exact ⟨_, rfl⟩

/-! ### The obligation -/

/-- Settles O56: a period counts each counter once; the resets of the device keep none, and a die's reset drops its own. -/
theorem countersAdvanceAndReset : Obligations.counters_advance_and_reset := by
  unfold Obligations.counters_advance_and_reset
  intro s
  refine ⟨fun h => ⟨(State.tick_counters h).1, fun d hd => State.tick_dieTime h hd⟩, fun r h => ?_, fun r h => ?_,
    fun d r h => ?_⟩
  · have zero := countersZero_warmReset s
    exact ⟨_, exec_warmDeviceReset h, zero.1, fun d hd => zero.dieTime hd⟩
  · have zero := countersZero_coldReset s
    exact ⟨_, exec_coldReset h, zero.1, fun d hd => zero.dieTime hd⟩
  · obtain ⟨u, hu⟩ := exec_dieReset h
    exact ⟨_, hu, u.loseDie_dieTime d.isLt⟩

end Sys2Proof.Machine

/-! Proofs: the RAS store (R363). -/

namespace Sys2Proof.Machine

/-! ### The position of the first element that passes -/

/-- The model's search is the library's. -/
theorem findIdx?_eq_list_findIdx? {α : Type} (l : List α) (p : α → Bool) : findIdx? l p = l.findIdx? p := by
  unfold findIdx?
  dsimp only
  split
  · next h => exact (List.findIdx?_eq_some_iff_findIdx_eq.mpr ⟨h, rfl⟩).symm
  · next h => exact (List.findIdx?_eq_none_iff_findIdx_eq.mpr (Nat.le_antisymm List.findIdx_le_length (Nat.not_lt.mp h))).symm

/-- A list with an element that passes, changed at the first one. -/
theorem modify_findIdx {α : Type} {l : List α} {p : α → Bool} (f : α → α) (h : ∃ x ∈ l, p x = true) :
    ∃ (i : Nat) (a : List α) (x : α) (b : List α),
      findIdx? l p = some i ∧ l = a ++ x :: b ∧ p x = true ∧ l.modify i f = a ++ f x :: b := by
  have hlt : l.findIdx p < l.length := List.findIdx_lt_length.mpr h
  have hp : p l[l.findIdx p] = true := List.findIdx_getElem
  obtain ⟨a, x, b, hl, hlen, hmod⟩ := List.exists_of_modify f hlt
  refine ⟨l.findIdx p, a, x, b, if_pos hlt, hl, ?_, hmod⟩
  have hx : l[l.findIdx p] = x := by
    simp only [← hlen]
    simp [hl]
  rwa [hx] at hp

/-- The saturating count of n bits never passes the greatest. -/
theorem satInc_eq_min (n v : Nat) : satInc n v = min (v + 1) (2 ^ n - 1) := by
  unfold satInc
  split <;> omega

/-! ### Posting leaves the store -/

@[simp] theorem State.fire_ras (s : State) (fn vec : Nat) : (s.fire fn vec).ras = s.ras := by
  unfold State.fire
  dsimp only
  split <;> rfl

@[simp] theorem State.hostWrite_ras (s : State) (k : Nat) (bs : List Byte) : (s.hostWrite k bs).ras = s.ras := by
  induction bs generalizing s k with
  | nil => rfl
  | cons b bs ih => exact ih _ _

@[simp] theorem State.rasPost_ras (s : State) (e : RasEntry) : (s.rasPost e).ras = s.ras := by
  unfold State.rasPost
  dsimp only
  split
  · split <;> simp
  · rfl

/-! ### What logging an entry leaves in the store -/

/-- R363: an entry of the store takes up a new one that names the same event, if it was written less than 100 µs ago. -/
def State.takesUp (s : State) (e : RasEntry) : RasEntry → Bool :=
  fun o => o.same e && o.first.any (fun f => s.weirCtr.toNat < f + 10000)

/-- The entry as the store holds it: the next SEQ, the time of its die, and when it came. -/
def State.stamped (s : State) (e : RasEntry) : RasEntry :=
  { e with seq := s.reg .rasStoreSeq + 1, time := s.dieTime e.die, first := some s.weirCtr.toNat }

theorem State.takesUp_iff {s : State} {e o : RasEntry} :
    s.takesUp e o = true ↔ o.cls = e.cls ∧ o.die = e.die ∧ o.unit = e.unit ∧ o.index = e.index ∧
      o.detail = e.detail ∧ ∃ f, o.first = some f ∧ s.weirCtr.toNat < f + 10000 := by
  simp [State.takesUp, RasEntry.same, Option.any_eq_true, and_assoc]

/-- R363: of the entries that take up the new one, one counts it; nothing else of the state changes. -/
theorem State.ras_of_takesUp {s : State} {e : RasEntry} (h : ∃ o ∈ s.ras, s.takesUp e o = true) :
    ∃ (l r : List RasEntry) (o : RasEntry), s.ras = l ++ o :: r ∧ s.takesUp e o = true ∧
      s.ras_ e = { s with ras := l ++ { o with count := min (o.count + 1) 0xFFFFFF } :: r } := by
  obtain ⟨i, l, o, r, hfind, hras, ho, hmod⟩ := modify_findIdx (fun o => { o with count := satInc 24 o.count }) h
  refine ⟨l, r, o, hras, ho, ?_⟩
  have hcount : satInc 24 o.count = min (o.count + 1) 0xFFFFFF := satInc_eq_min 24 o.count
  rw [← hcount, ← hmod]
  unfold State.takesUp at hfind
  unfold State.ras_
  rw [hfind]

/-- An entry that no other takes up stands first in the store, before the others or, where the store is full, before those
that are left of them; an entry of severity 0 may find no room. -/
theorem State.ras_of_new {s : State} {e : RasEntry} (h : ∀ o ∈ s.ras, s.takesUp e o = false)
    (hroom : s.ras.length < 4096 ∨ e.sev ≠ 0) :
    (s.ras_ e).ras = s.stamped e :: if s.ras.length < 4096 then s.ras else dropOldest (leastSev s.ras) s.ras := by
  have hfind : findIdx? s.ras (s.takesUp e) = none := by
    rw [findIdx?_eq_list_findIdx?]
    exact List.findIdx?_eq_none_iff.mpr h
  unfold State.takesUp at hfind
  unfold State.ras_
  rw [hfind]
  dsimp only
  by_cases hlen : s.ras.length < 4096
  · rw [if_pos hlen, if_pos hlen, State.rasPost_ras]
    rfl
  · have hsev : e.sev ≠ 0 := hroom.resolve_left hlen
    rw [if_neg hlen, if_neg hlen, if_pos (by simp [hsev]), State.rasPost_ras]
    rfl

/-! ### The obligation -/

/-- Settles O55: an entry that takes the new one up counts it, and where none does the new one stands first, stamped. -/
theorem logEntriesCombine : Obligations.log_entries_combine := by
  unfold Obligations.log_entries_combine
  intro s e
  simp only [← State.takesUp_iff]
  refine ⟨fun h => ?_, fun h hroom => ?_⟩
  · obtain ⟨l, r, o, hras, ho, heq⟩ := State.ras_of_takesUp h
    rw [heq]
    exact ⟨l, r, o, hras, ho, rfl, rfl, rfl⟩
  · have hnew := State.ras_of_new (fun o ho => Bool.eq_false_iff.mpr (h o ho)) hroom
    rw [hnew]
    exact ⟨s.stamped e, rfl, rfl, rfl, rfl, rfl, rfl, rfl, rfl, rfl, rfl, fun hlen => if_pos hlen⟩

end Sys2Proof.Machine

/-! Proofs: decoding an encoded Glaper instruction (R74, R75, R80). -/

namespace Sys2Proof.Machine

/-! ### The fields of a first word -/

/-- The first word as a number: its fields side by side, none reaching into the next (Table 05-1). -/
theorem encWord_toNat (op fn : Nat) (e : Enc) : (encWord op fn e).toNat =
    op % 64 * 2 ^ 58 + b2n e.x * 2 ^ 57 + e.g.toNat * 2 ^ 53 + b2n e.gn * 2 ^ 52 + fn % 64 * 2 ^ 46 + e.ops.toNat := by
  have hg := e.g.isLt
  have hops := e.ops.isLt
  unfold encWord b2n
  rw [BitVec.toNat_ofNat, Nat.mod_eq_of_lt]
  split <;> split <;> omega

section
variable {op fn : Nat} (e : Enc)

theorem fld_encWord_op (h : op < 64) : fld (encWord op fn e).toNat 63 58 = op := by
  have hg := e.g.isLt
  have hops := e.ops.isLt
  rw [encWord_toNat]
  unfold fld b2n
  split <;> split <;> omega

theorem fld_encWord_fn (h : fn < 64) : fld (encWord op fn e).toNat 51 46 = fn := by
  have hg := e.g.isLt
  have hops := e.ops.isLt
  rw [encWord_toNat]
  unfold fld b2n
  split <;> split <;> omega

theorem fld_encWord_x : fld (encWord op fn e).toNat 57 57 = b2n e.x := by
  have hg := e.g.isLt
  have hops := e.ops.isLt
  rw [encWord_toNat]
  unfold fld b2n
  split <;> split <;> omega

theorem fld_encWord_g : fld (encWord op fn e).toNat 56 53 = e.g.toNat := by
  have hg := e.g.isLt
  have hops := e.ops.isLt
  rw [encWord_toNat]
  unfold fld b2n
  split <;> split <;> omega

theorem fld_encWord_gn : fld (encWord op fn e).toNat 52 52 = b2n e.gn := by
  have hg := e.g.isLt
  have hops := e.ops.isLt
  rw [encWord_toNat]
  unfold fld b2n
  split <;> split <;> omega

theorem fld_encWord_ops : fld (encWord op fn e).toNat 45 0 = e.ops.toNat := by
  have hg := e.g.isLt
  have hops := e.ops.isLt
  rw [encWord_toNat]
  unfold fld b2n
  split <;> split <;> omega

end

/-- A bit is a field of one bit. -/
theorem bit_of_fld {w n : Nat} {b : Bool} (h : fld w n n = b2n b) : bit w n = b := by
  have : w / 2 ^ n % 2 = b2n b := by rw [← h, fld, Nat.add_sub_cancel_left, pow_one]
  rw [bit, this]
  cases b <;> rfl

theorem bit_encWord_x (op fn : Nat) (e : Enc) : bit (encWord op fn e).toNat 57 = e.x := bit_of_fld (fld_encWord_x e)

theorem bit_encWord_gn (op fn : Nat) (e : Enc) : bit (encWord op fn e).toNat 52 = e.gn := bit_of_fld (fld_encWord_gn e)

/-- The operand bits come back from the two words, where OP tells the immediate form and a 64-bit form has no second word. -/
theorem encOfWords_encWord {op fn : Nat} {e : Enc} (hop : op < 64) (himm : e.imm = (op == 0x05 || op == 0x19))
    (hext : e.x = false → e.ext = 0) : encOfWords (encWord op fn e) (encHi e) = e := by
  obtain ⟨imm, x, gn, g, ops, ext⟩ := e
  simp only at himm hext
  unfold encOfWords
  rw [fld_encWord_op _ hop, bit_encWord_x, bit_encWord_gn, fld_encWord_g, fld_encWord_ops]
  simp only [himm, BitVec.ofNat_toNat, BitVec.setWidth_eq, encHi, Enc.mk.injEq, true_and]
  cases x with
  | false => exact (hext rfl).symm
  | true => rfl

/-! ### OP and FN of an instruction (Table 05-5) -/

/-- What the table of opcodes says of an instruction: OP and FN are six bits each, OP tells the immediate form, a 64-bit form
has no second word, and OP and FN name the instruction again. -/
structure Listed (i : Instr) (p : Glaper) : Prop where
  op : p.op < 64
  fn : p.fn < 64
  imm : p.e.imm = (p.op == 0x05 || p.op == 0x19)
  ext : p.e.x = false → p.e.ext = 0
  names : ofOpFn p.g p.e (p.op * 64 + p.fn) = some i

/-- A 64-bit form has no second word, and a form without an immediate carries none. -/
theorem Enc.wf_iff {e : Enc} {immForm : Bool} :
    e.wf immForm = true ↔ (e.x = false → e.ext = 0) ∧ (immForm = false → e.imm = false) := by
  cases hx : e.x <;> cases immForm <;> simp [Enc.wf, hx]

/-- A form without an immediate is listed once. -/
theorem listed_reg {i : Instr} {g : GroupRef} {e : Enc} {op fn : Nat} (hwf : (e.x = false → e.ext = 0) ∧ e.imm = false)
    (hop : op < 64 ∧ fn < 64 ∧ op ≠ 0x05 ∧ op ≠ 0x19) (names : ofOpFn g e (op * 64 + fn) = some i) :
    Listed i ⟨g, e, op, fn⟩ where
  op := hop.1
  fn := hop.2.1
  imm := by simp [hwf.2, hop.2.2]
  ext := hwf.1
  names := names

/-- A form with an immediate is listed under its two OPs. -/
theorem listed_opImm {i : Instr} {g : GroupRef} {e : Enc} {reg imm fn : Nat} (hext : e.x = false → e.ext = 0)
    (hop : reg < 64 ∧ imm < 64 ∧ fn < 64 ∧ (imm = 0x05 ∨ imm = 0x19) ∧ reg ≠ 0x05 ∧ reg ≠ 0x19)
    (nreg : ofOpFn g e (reg * 64 + fn) = some i) (nimm : ofOpFn g e (imm * 64 + fn) = some i) :
    Listed i ⟨g, e, opImm reg imm e, fn⟩ := by
  obtain ⟨hreg, himm, hfn, heq, hne⟩ := hop
  cases h : e.imm with
  | false =>
    rw [show opImm reg imm e = reg by simp [opImm, h]]
    exact listed_reg ⟨hext, h⟩ ⟨hreg, hfn, hne⟩ nreg
  | true =>
    rw [show opImm reg imm e = imm by simp [opImm, h]]
    exact ⟨himm, hfn, by simp [h, heq], hext, nimm⟩

/-- Every row of Table 05-5 (R80). -/
theorem listed_of_glaper {i : Instr} {p : Glaper} (h : glaper i = some p) (hwf : i.wf = true) : Listed i p := by
  cases i <;> simp only [glaper, Option.some.injEq, reduceCtorEq] at h
  all_goals
    simp only [Instr.wf, Bool.and_eq_true, Enc.wf_iff, forall_const, Bool.true_eq_false, false_implies, and_true] at hwf
    subst h
  case vadd | vsub | vmul | vmin | vmax | vand | vor | vxor | vshl | vshr | vsra | vmov | sadd | ssub | smul | smin | smax |
      sand | sor | sxor | sshl | sshr | ssra | smov | sdiv | sdivu =>
    exact listed_opImm hwf.2 (by decide) rfl rfl
  all_goals exact listed_reg hwf.2 (by decide) rfl

/-! ### The obligation -/

/-- Settles O59: the words carry OP, FN and the operand bits side by side, and Table 05-5 names one instruction by them. -/
theorem decodeEncode : Obligations.decode_encode := by
  unfold Obligations.decode_encode
  intro i p h hwf
  have listed := listed_of_glaper h hwf
  refine ⟨encWord p.op p.fn p.e, encHi p.e, by simp [encodeWords, h], ?_, fld_encWord_op _ listed.op,
    fld_encWord_fn _ listed.fn, fun hx => ?_⟩
  · rw [decodeWords, encOfWords_encWord listed.op listed.imm listed.ext, fld_encWord_op _ listed.op,
      fld_encWord_fn _ listed.fn]
    exact listed.names
  · rw [bit_encWord_x] at hx
    simp [encHi, hx]

end Sys2Proof.Machine

/-! Proofs: a step, its period of 10 ns, and what reset leaves. -/

namespace Sys2Proof.Machine

/-! ### A step -/

/-- Settles O1: by the definition of a step, which takes the front command off the queue. -/
theorem stepRunsFront : Obligations.step_runs_front := by
  unfold Obligations.step_runs_front
  intro c rest s
  exact step.eq_def _

/-- Charging cycles concerns launches, contexts and the power counters alone. -/
structure Charges (s t : State) : Prop where
  regs : t.regs = s.regs
  heap : t.heap = s.heap
  pool : t.pool = s.pool
  groups : t.groups = s.groups
  queues : t.queues = s.queues
  pending : t.pending = s.pending

theorem Charges.refl (s : State) : Charges s s := ⟨rfl, rfl, rfl, rfl, rfl, rfl⟩

theorem Charges.trans {s t u : State} (h : Charges s t) (k : Charges t u) : Charges s u :=
  ⟨k.regs.trans h.regs, k.heap.trans h.heap, k.pool.trans h.pool, k.groups.trans h.groups, k.queues.trans h.queues,
    k.pending.trans h.pending⟩

theorem Charges.foldl {α : Type} {f : State → α → State} (h : ∀ u x, Charges u (f u x)) (xs : List α) (s : State) :
    Charges s (xs.foldl f s) := by
  induction xs generalizing s with
  | nil => exact refl s
  | cons x xs ih => exact (h s x).trans (ih _)

theorem charges_chargeCore (s : State) (core : Nat) : Charges s (s.chargeCore core) := by
  unfold State.chargeCore
  dsimp only
  refine Charges.trans ?_ (Charges.trans (Charges.foldl (fun u c => ?_) _ _) ⟨rfl, rfl, rfl, rfl, rfl, rfl⟩)
  · refine Charges.foldl (fun u l => ?_) _ s
    split
    · exact Charges.refl u
    · exact ⟨rfl, rfl, rfl, rfl, rfl, rfl⟩
  · exact ⟨rfl, rfl, rfl, rfl, rfl, rfl⟩

theorem charges_tick (s : State) : Charges s s.tick := by
  have busy : Charges s (s.busyCores.foldl State.chargeCore s) := Charges.foldl charges_chargeCore _ s
  unfold State.tick
  split
  · exact Charges.refl s
  · dsimp only
    split
    · exact ⟨rfl, rfl, rfl, rfl, rfl, rfl⟩
    · exact busy.trans ⟨rfl, rfl, rfl, rfl, rfl, rfl⟩

/-- Settles O2: a period charges cycles and counts each counter once; without power nothing happens in it. -/
theorem idleStepTicks : Obligations.idle_step_ticks := by
  unfold Obligations.idle_step_ticks
  intro s hs
  have charges := charges_tick s
  refine ⟨s.tick, by simp [step, hs], charges.pending.trans hs, fun h0 => by simp [State.tick, h0], fun h => ?_⟩
  exact ⟨(State.tick_counters h).1, fun d hd => State.tick_dieTime h hd, charges.regs, charges.heap, charges.pool,
    charges.groups, charges.queues⟩

/-! ### Reset -/

@[simp] theorem reset_reg (r : Reg) : State.reset.reg r = r.resetVal := rfl

/-- A register whose fields all reset to 0 resets to 0. -/
theorem resetVal_of_zeros {r : Reg} (h : ∀ f ∈ r.fields, f.reset = 0) : r.resetVal = 0 := by
  have step : ∀ (fs : List Field), (∀ f ∈ fs, f.reset = 0) → fs.foldl (fun w f => setFld w f.hi f.lo f.reset) 0 = 0 := by
    intro fs hfs
    induction fs with
    | nil => rfl
    | cons f fs ih =>
      have h0 : setFld 0 f.hi f.lo f.reset = 0 := by simp [setFld, hfs f List.mem_cons_self]
      rw [List.foldl_cons, h0]
      exact ih fun g hg => hfs g (List.mem_cons_of_mem _ hg)
  exact step _ h

theorem resetVal_glbReadyFn : Reg.resetVal .glbReadyFn = 0 := resetVal_of_zeros (by decide)
theorem resetVal_glbReadyBsnLo : Reg.resetVal .glbReadyBsnLo = 0 := resetVal_of_zeros (by decide)
theorem resetVal_glbReadyBsnHi : Reg.resetVal .glbReadyBsnHi = 0 := resetVal_of_zeros (by decide)
theorem resetVal_glbReadyChan (k : Nat) : Reg.resetVal (.glbReadyChan k) = 0 := resetVal_of_zeros (by simp [Reg.fields])
theorem resetVal_bsnModeSts (b : Nat) : Reg.resetVal (.bsnModeSts b) = 0 := resetVal_of_zeros (by simp [Reg.fields])
theorem resetVal_cfgPartSts (p : Nat) : Reg.resetVal (.cfgPartSts p) = 0 := resetVal_of_zeros (by simp [Reg.fields])

/-- The watchdogs reset to 100 and 10 periods, with no replay (Table 22-1). -/
theorem resetVal_rstWdog (p : Nat) : Reg.resetVal (.rstWdog p) = 10 * 2 ^ 16 + 100 := by
  simp [Reg.resetVal, Reg.fields, setFld]

theorem bit_zero (n : Nat) : bit 0 n = false := by simp [bit]
theorem fld_zero (hi lo : Nat) : fld 0 hi lo = 0 := by simp [fld]

/-- Settles O57: the registers stand at their reset values, of which the ready bits, modes and states are 0, and the
memories are empty. -/
theorem resetState : Obligations.reset_state := by
  unfold Obligations.reset_state
  refine ⟨reset_reg, fun i => ?_, fun b _ => ⟨?_, ?_⟩, fun c _ => ?_, fun p _ => ?_, fun p => ?_, by decide, by decide,
    rfl, rfl, rfl, rfl, rfl, rfl, rfl, rfl⟩
  · simp only [State.readyFn, reset_reg, resetVal_glbReadyFn, bit_zero]
  · simp only [State.basinReady, reset_reg, resetVal_glbReadyBsnLo, resetVal_glbReadyBsnHi, bit_zero, ite_self]
  · simp only [State.lake, State.rf, reset_reg, resetVal_bsnModeSts, fld_zero]
    rfl
  · simp only [State.chanReady, reset_reg, resetVal_glbReadyChan, bit_zero]
  · simp only [State.partOn, State.rf, reset_reg, resetVal_cfgPartSts, fld_zero]
    rfl
  · simp only [State.rf, reset_reg, resetVal_rstWdog]
    decide

end Sys2Proof.Machine

/-! Proofs: the integer operations of R149 are those of machine words. -/

namespace Sys2Proof.Machine

/-! ### Signed numbers as words -/

section
variable {w : Nat} (a b : BitVec w)

theorem toSigned_toNat : toSigned w a.toNat = a.toInt := by
  unfold toSigned
  rw [Nat.mod_eq_of_lt a.isLt, BitVec.toInt_eq_toNat_cond]
  cases w with
  | zero => simp [BitVec.eq_nil a]
  | succ n =>
    have hpow : 2 ^ (n + 1) = 2 * 2 ^ n := by omega
    simp only [Nat.add_sub_cancel, hpow, Nat.mul_lt_mul_left (Nat.zero_lt_two)]

theorem ofSigned_lt (i : Int) : ofSigned w i < 2 ^ w := by
  unfold ofSigned
  have hpos : (0 : Int) < (2 ^ w : Nat) := by exact_mod_cast Nat.two_pow_pos w
  have := Int.emod_nonneg i hpos.ne'
  have := Int.emod_lt_of_pos i hpos
  omega

theorem ofNat_ofSigned (i : Int) : BitVec.ofNat w (ofSigned w i) = BitVec.ofInt w i := by
  apply BitVec.eq_of_toNat_eq
  rw [BitVec.toNat_ofInt, BitVec.toNat_ofNat, Nat.mod_eq_of_lt (ofSigned_lt i)]
  rfl

theorem ofNat_toNat_self : BitVec.ofNat w a.toNat = a := BitVec.eq_of_toNat_eq (by simp)

theorem ofNat_ones : BitVec.ofNat w (ones w) = BitVec.allOnes w := by
  apply BitVec.eq_of_toNat_eq
  simp [ones]

/-! ### Counts of bits -/

theorem ofNat_popcount : BitVec.ofNat w (popcount w a.toNat) = a.cpop := by
  have count : ∀ n acc, a.cpopNatRec n acc = acc + ((List.range n).map (fun i => b2n (bit a.toNat i))).sum := by
    intro n
    induction n with
    | zero => simp
    | succ n ih =>
      intro acc
      have hbit : (a.getLsbD n).toNat = b2n (bit a.toNat n) := by
        rw [BitVec.getLsbD, Nat.testBit_eq_decide_div_mod_eq, bit, b2n, Bool.toNat]
        simp [Bool.cond_eq_ite]
      rw [BitVec.cpopNatRec_succ, ih, List.range_succ, hbit]
      simp only [List.map_append, List.map_cons, List.map_nil, List.sum_append, List.sum_cons, List.sum_nil]
      omega
  rw [BitVec.cpop, count, popcount, Nat.zero_add]

theorem popcount_le (n : Nat) : popcount w n ≤ w := by
  have h := List.sum_le_card_nsmul ((List.range w).map (fun i => b2n (bit n i))) 1 (by
    intro x hx
    obtain ⟨i, -, rfl⟩ := List.mem_map.mp hx
    unfold b2n
    split <;> omega)
  simpa [popcount] using h

theorem ofNat_clz : BitVec.ofNat w (if a.toNat == 0 then w else w - 1 - Nat.log2 a.toNat) = a.clz := by
  by_cases h : a = 0#w
  · subst h
    simp only [BitVec.toNat_ofNat, Nat.zero_mod, beq_self_eq_true, if_true]
    exact (BitVec.clz_eq_iff_eq_zero.mpr rfl).symm
  · have hw : 0 < w := Nat.pos_of_ne_zero fun h0 => by subst h0; exact h (BitVec.eq_nil a)
    have hne : a.toNat ≠ 0 := fun h0 => h (BitVec.eq_of_toNat_eq (by simpa using h0))
    have hlow := BitVec.two_pow_sub_clz_le_toNat_of_ne_zero hw h
    have hhigh := BitVec.toNat_lt_two_pow_sub_clz (x := a)
    have hclz : a.clz.toNat < w := by
      have := BitVec.clz_lt_iff_ne_zero.mpr h
      rw [BitVec.lt_def] at this
      exact lt_of_lt_of_le this (Nat.mod_le _ _)
    have hlog : Nat.log2 a.toNat = w - 1 - a.clz.toNat := by
      rw [Nat.log2_eq_iff hne]
      refine ⟨hlow, ?_⟩
      rwa [show w - 1 - a.clz.toNat + 1 = w - a.clz.toNat by omega]
    rw [if_neg (by simpa using hne), hlog, show w - 1 - (w - 1 - a.clz.toNat) = a.clz.toNat by omega]
    exact BitVec.eq_of_toNat_eq (by simp)

/-! ### Division -/

theorem toNat_mod_eq_zero : (b.toNat % 2 ^ w == 0) = decide (b = 0#w) := by
  rw [Nat.mod_eq_of_lt b.isLt, Bool.eq_iff_iff, beq_iff_eq, decide_eq_true_eq, ← BitVec.toNat_inj]
  simp

theorem ofNat_divInt : BitVec.ofNat w (divInt w a.toNat b.toNat) = if b = 0#w then BitVec.allOnes w else a.sdiv b := by
  unfold divInt
  rw [toNat_mod_eq_zero]
  by_cases h : b = 0#w
  · rw [if_pos (by simpa using h), if_pos h, ofNat_ones]
  · rw [if_neg (by simpa using h), if_neg h, ofNat_ofSigned, toSigned_toNat, toSigned_toNat]
    apply BitVec.eq_of_toInt_eq
    rw [BitVec.toInt_ofInt, BitVec.toInt_sdiv]

theorem ofNat_remInt : BitVec.ofNat w (remInt w a.toNat b.toNat) = if b = 0#w then a else a.srem b := by
  unfold remInt
  rw [toNat_mod_eq_zero]
  by_cases h : b = 0#w
  · rw [if_pos (by simpa using h), if_pos h, Nat.mod_eq_of_lt a.isLt, BitVec.ofNat_toNat, BitVec.setWidth_eq]
  · rw [if_neg (by simpa using h), if_neg h, ofNat_ofSigned, toSigned_toNat, toSigned_toNat, ← BitVec.toInt_srem,
      BitVec.ofInt_toInt]

end

/-! ### Results fit -/

theorem ones_lt (w : Nat) : ones w < 2 ^ w := Nat.sub_lt (Nat.two_pow_pos w) Nat.one_pos

theorem intOp_lt (fn w : Nat) (sgn : Bool) (a b c : Nat) : intOp fn w sgn a b c < 2 ^ w := by
  have pos := Nat.two_pow_pos w
  have ha : a % 2 ^ w < 2 ^ w := Nat.mod_lt _ pos
  have hb : b % 2 ^ w < 2 ^ w := Nat.mod_lt _ pos
  have hw : w < 2 ^ w := Nat.lt_two_pow_self
  have hone := ones_lt w
  unfold intOp
  dsimp only
  split
  case h_5 | h_6 => split_ifs <;> assumption
  case h_7 => split; exacts [Nat.mod_lt _ pos, ha]
  case h_9 => exact Nat.and_lt_two_pow _ hb
  case h_10 => exact Nat.or_lt_two_pow ha hb
  case h_11 => exact Nat.xor_lt_two_pow ha hb
  case h_12 => omega
  case h_14 => exact lt_of_le_of_lt (Nat.div_le_self _ _) ha
  case h_15 => exact ofSigned_lt _
  case h_16 => split <;> omega
  case h_17 => exact lt_of_le_of_lt (popcount_le _) hw
  case h_18 => exact ha
  case h_19 => unfold divInt; split; exacts [hone, ofSigned_lt _]
  case h_20 => unfold remInt; split; exacts [Nat.mod_lt _ pos, ofSigned_lt _]
  case h_21 => split; exacts [hone, lt_of_le_of_lt (Nat.div_le_self _ _) ha]
  case h_22 => split; exacts [ha, lt_of_le_of_lt (Nat.mod_le _ _) ha]
  case h_23 => exact pos
  all_goals exact Nat.mod_lt _ pos

/-! ### The obligation -/

/-- Settles O6: operation by operation, from what the model's numbers are as words. -/
theorem integerOperations : Obligations.integer_operations := by
  unfold Obligations.integer_operations
  intro w a b c sgn hw op
  have ha : a.toNat % 2 ^ w = a.toNat := Nat.mod_eq_of_lt a.isLt
  have hb : b.toNat % 2 ^ w = b.toNat := Nat.mod_eq_of_lt b.isLt
  have hpick : ∀ (q : Bool) (x y : BitVec w), BitVec.ofNat w (if q then x.toNat else y.toNat) = if q then x else y :=
    fun q x y => by cases q <;> exact ofNat_toNat_self _
  have hneg : BitVec.ofNat w ((2 ^ w - a.toNat) % 2 ^ w) = -a := BitVec.eq_of_toNat_eq (by simp)
  have hless : (if sgn then decide (a.toInt < b.toInt) else decide (a.toNat < b.toNat)) =
      if sgn then a.slt b else a.ult b := rfl
  have hsgn : (a.toInt < 0) = (a.msb = true) := by simp [BitVec.msb_eq_toInt]
  have hzero : (b.toNat == 0) = decide (b = 0#w) := by
    rw [Bool.eq_iff_iff, beq_iff_eq, decide_eq_true_eq, ← BitVec.toNat_inj]
    simp
  refine ⟨fun fn => intOp_lt fn w sgn _ _ _, ?_⟩
  simp only [op, intOp, ha, hb, toSigned_toNat, hzero, hless, hpick, hsgn, hneg, ofNat_clz, ofNat_popcount,
    ofNat_toNat_self, ofNat_divInt, ofNat_remInt, ofNat_ofSigned, BitVec.ofNat_eq_ofNat, true_and]
  refine ⟨?add, ?sub, ?mul, ?mad, ?abs, ?and, ?or, ?xor, ?not, ?shl, ?shr, ?sra, ?divu, ?remu⟩
  case abs => split <;> simp [hneg]
  case sub => exact BitVec.eq_of_toNat_eq (by simp [Nat.add_comm])
  case not =>
    have hlt : ones w - a.toNat < 2 ^ w := lt_of_le_of_lt (Nat.sub_le _ _) (ones_lt w)
    exact BitVec.eq_of_toNat_eq (by rw [BitVec.toNat_ofNat, Nat.mod_eq_of_lt hlt, BitVec.toNat_not, ones])
  case shr =>
    have hlt : a.toNat / 2 ^ (b.toNat % w) < 2 ^ w := lt_of_le_of_lt (Nat.div_le_self _ _) a.isLt
    exact BitVec.eq_of_toNat_eq (by simp [Nat.shiftRight_eq_div_pow, Nat.mod_eq_of_lt hlt])
  case sra =>
    rw [← Int.shiftRight_eq_div_pow]
    rfl
  case divu =>
    by_cases h : b = 0#w
    · simp [h, ofNat_ones]
    · apply BitVec.eq_of_toNat_eq
      simp [h, Nat.mod_eq_of_lt (lt_of_le_of_lt (Nat.div_le_self _ _) a.isLt)]
  case remu =>
    by_cases h : b = 0#w
    · simp [h]
    · apply BitVec.eq_of_toNat_eq
      simp [h, Nat.mod_eq_of_lt (lt_of_le_of_lt (Nat.mod_le _ _) a.isLt)]
  all_goals
    apply BitVec.eq_of_toNat_eq
    simp [Nat.shiftLeft_eq]

end Sys2Proof.Machine

/-! Proofs: rounding of values that a format holds (R88, R92), and the signs and NaN of the floating operations (R91, R150). -/

namespace Sys2Proof.Machine

/-! ### The formats -/

/-- What the proofs use of the formats of Table 06-1. -/
structure Fmt.Ok (f : Fmt) : Prop where
  nan : f.nan = 0 ∨ f.nan = 1 ∨ f.nan = 2
  exp : 0 < f.e
  canon : f.nan = 2 → f.canon = 2 ^ (f.e + f.m) - 1

theorem fmtOf_ok {t : Nat} {f : Fmt} (h : fmtOf t = some f) : f.Ok := by
  unfold fmtOf at h
  split at h
  all_goals cases h
  all_goals exact ⟨by decide, by decide, by decide⟩

section
variable {f : Fmt}

/-- A word is its sign, its exponent and its mantissa (R88). -/
theorem Fmt.word_fields (f : Fmt) {x : Nat} (hx : x < 2 ^ f.bits) :
    x = b2n (bit x (f.e + f.m)) * 2 ^ (f.e + f.m) + (x / 2 ^ f.m % 2 ^ f.e * 2 ^ f.m + x % 2 ^ f.m) := by
  have hsign : x / 2 ^ (f.e + f.m) = b2n (bit x (f.e + f.m)) := by
    have : x / 2 ^ (f.e + f.m) < 2 := by
      rw [Nat.div_lt_iff_lt_mul (Nat.two_pow_pos _)]
      rw [Fmt.bits, pow_succ] at hx
      omega
    unfold b2n bit
    generalize x / 2 ^ (f.e + f.m) = q at this ⊢
    split
    case isTrue h => rw [beq_iff_eq] at h; omega
    case isFalse h => rw [beq_iff_eq] at h; omega
  have hmag : x % 2 ^ (f.e + f.m) = x / 2 ^ f.m % 2 ^ f.e * 2 ^ f.m + x % 2 ^ f.m := by
    rw [Nat.add_comm f.e f.m, pow_add, Nat.mod_mul]
    ring
  rw [← hsign, ← hmag, Nat.mul_comm]
  exact (Nat.div_add_mod x _).symm

/-- A magnitude below the first NaN gets its sign back. -/
theorem Fmt.signed_eq (ok : f.Ok) (n : Bool) {mag : Nat} (h : mag ≤ f.maxFin) :
    f.signed n mag = b2n n * 2 ^ (f.e + f.m) + mag := by
  have hcanon : (f.nan == 2 && mag == f.canon) = false := by
    rw [Bool.and_eq_false_iff]
    by_cases h2 : f.nan = 2
    · right
      have hpow : 2 ≤ 2 ^ (f.e + f.m) := Nat.pow_le_pow_right (n := 2) (by decide) (by have := ok.exp; omega : 1 ≤ f.e + f.m)
      rw [ok.canon h2, beq_eq_false_iff_ne]
      simp only [Fmt.maxFin, h2] at h
      norm_num at h
      omega
    · left
      simp [h2]
  cases n <;> simp [Fmt.signed, hcanon, b2n, Nat.add_comm]

/-- A magnitude that stands at its own last place is its own candidate. -/
theorem Fmt.trunc_exact {m : Nat} {e : Int} (h : max ((Nat.log2 m : Int) + e - f.m) f.q0 = e) :
    f.trunc m e = ((e - f.q0).toNat * 2 ^ f.m + m, 0, 0) := by
  unfold Fmt.trunc
  simp only [h, sub_self, le_refl, if_true, neg_zero, Int.toNat_zero, pow_zero, mul_one]

/-- Rounding a value whose magnitude is a candidate that does not overflow (R92). -/
theorem Fmt.round_exact (ok : f.Ok) {n : Bool} {m : Nat} {e : Int} (rm : Nat) (sat : Bool) (dr : Nat → Nat) (hm : m ≠ 0)
    (h : max ((Nat.log2 m : Int) + e - f.m) f.q0 = e) (hfit : (e - f.q0).toNat * 2 ^ f.m + m ≤ f.maxFin) :
    f.round rm sat dr (.fin n m e) = b2n n * 2 ^ (f.e + f.m) + ((e - f.q0).toNat * 2 ^ f.m + m) := by
  unfold Fmt.round
  dsimp only
  rw [if_neg (by simpa using hm), Fmt.trunc_exact h]
  simp only [roundUp, beq_self_eq_true, if_true, Bool.false_eq_true, if_false]
  rw [if_neg (Nat.not_lt.mpr hfit), Fmt.signed_eq ok n hfit]

theorem Fmt.round_zero (ok : f.Ok) (n : Bool) (e : Int) (rm : Nat) (sat : Bool) (dr : Nat → Nat) :
    f.round rm sat dr (.fin n 0 e) = b2n n * 2 ^ (f.e + f.m) := by
  show f.signed n 0 = _
  rw [Fmt.signed_eq ok n (Nat.zero_le _), Nat.add_zero]

/-- What a finite value tells of its word: the exponent of its format, and the hidden bit unless that is 0. -/
theorem Fmt.decode_eq_fin {x : Nat} {n : Bool} {m : Nat} {e : Int} (h : f.decode x = .fin n m e) :
    n = bit x (f.e + f.m) ∧
    ((x / 2 ^ f.m % 2 ^ f.e = 0 ∧ m = x % 2 ^ f.m ∧ e = f.q0) ∨
      (x / 2 ^ f.m % 2 ^ f.e ≠ 0 ∧ m = 2 ^ f.m + x % 2 ^ f.m ∧ e = (x / 2 ^ f.m % 2 ^ f.e : Nat) - f.bias - f.m)) ∧
    (f.nan = 1 → x / 2 ^ f.m % 2 ^ f.e ≠ 2 ^ f.e - 1) ∧
    (f.nan = 2 → ¬ (x / 2 ^ f.m % 2 ^ f.e = 2 ^ f.e - 1 ∧ x % 2 ^ f.m = 2 ^ f.m - 1)) := by
  unfold Fmt.decode at h
  dsimp only at h
  split at h
  · split at h <;> cases h
  · next h1 =>
    split at h
    · cases h
    · next h2 =>
      simp only [Bool.and_eq_true, beq_iff_eq, not_and] at h1 h2
      refine ⟨?_, ?_, h1, fun ha hb => h2 ⟨ha, hb.1⟩ hb.2⟩
      · split at h <;> cases h <;> rfl
      · split at h
        · next h0 => cases h; exact .inl ⟨by simpa using h0, rfl, rfl⟩
        · next h0 => cases h; exact .inr ⟨by simpa using h0, rfl, rfl⟩

/-- The finite encodings are those up to the largest finite magnitude. -/
theorem Fmt.finite_le_maxFin (ok : f.Ok) {x : Nat} {n : Bool} {m : Nat} {e : Int} (h : f.decode x = .fin n m e) :
    x / 2 ^ f.m % 2 ^ f.e * 2 ^ f.m + x % 2 ^ f.m ≤ f.maxFin := by
  obtain ⟨-, -, h1, h2⟩ := Fmt.decode_eq_fin h
  have hex : x / 2 ^ f.m % 2 ^ f.e < 2 ^ f.e := Nat.mod_lt _ (Nat.two_pow_pos _)
  have hmm : x % 2 ^ f.m < 2 ^ f.m := Nat.mod_lt _ (Nat.two_pow_pos _)
  generalize x / 2 ^ f.m % 2 ^ f.e = ex at *
  generalize x % 2 ^ f.m = mm at *
  unfold Fmt.maxFin
  rw [pow_add]
  generalize 2 ^ f.e = E at *
  generalize 2 ^ f.m = M at *
  have below : ∀ k, ex < k → ex * M + mm ≤ k * M - 1 := by
    intro k hk
    have : (ex + 1) * M ≤ k * M := Nat.mul_le_mul_right M hk
    rw [Nat.add_mul, one_mul] at this
    omega
  obtain hn | hn | hn := ok.nan
  · simpa [hn] using below E hex
  · have := h1 hn
    simpa [hn] using below (E - 1) (by omega)
  · have hall := h2 hn
    simp only [hn]
    norm_num
    by_cases htop : ex = E - 1
    · subst htop
      have hpos : 0 < E := by omega
      have hEM : (E - 1) * M + M = E * M := by rw [← Nat.succ_mul, Nat.succ_eq_add_one, Nat.sub_add_cancel hpos]
      have : mm ≠ M - 1 := fun hmm' => hall ⟨rfl, hmm'⟩
      omega
    · have := below (E - 1) (by omega)
      have hpos : 0 < E := by omega
      have hEM : (E - 1) * M + M = E * M := by rw [← Nat.succ_mul, Nat.succ_eq_add_one, Nat.sub_add_cancel hpos]
      omega

/-- R92: a value that a word of the format holds rounds to that word. -/
theorem Fmt.round_decode (ok : f.Ok) {x : Nat} (hx : x < 2 ^ f.bits) (rm : Nat) (sat : Bool) (dr : Nat → Nat)
    {n : Bool} {m : Nat} {e : Int} (h : f.decode x = .fin n m e) : f.round rm sat dr (f.decode x) = x := by
  have hfit := Fmt.finite_le_maxFin ok h
  have hword := f.word_fields hx
  have hmm : x % 2 ^ f.m < 2 ^ f.m := Nat.mod_lt _ (Nat.two_pow_pos _)
  obtain ⟨hn, hme, -, -⟩ := Fmt.decode_eq_fin h
  rw [h, hn]
  obtain ⟨hex, rfl, rfl⟩ | ⟨hex, rfl, rfl⟩ := hme
  · rw [hex, Nat.zero_mul, Nat.zero_add] at hword hfit
    by_cases h0 : x % 2 ^ f.m = 0
    · rw [h0, Fmt.round_zero ok]
      omega
    · have hlog : Nat.log2 (x % 2 ^ f.m) < f.m := (Nat.log2_lt h0).mpr hmm
      rw [Fmt.round_exact ok rm sat dr h0 (by omega) (by simpa using hfit)]
      simpa using hword.symm
  · have hlog : Nat.log2 (2 ^ f.m + x % 2 ^ f.m) = f.m :=
      (Nat.log2_eq_iff (by omega)).mpr ⟨by omega, by rw [pow_succ]; omega⟩
    have hsub : ((x / 2 ^ f.m % 2 ^ f.e : Nat) - f.bias - f.m - f.q0 : Int).toNat * 2 ^ f.m + (2 ^ f.m + x % 2 ^ f.m) =
        x / 2 ^ f.m % 2 ^ f.e * 2 ^ f.m + x % 2 ^ f.m := by
      obtain ⟨k, hk⟩ := Nat.exists_eq_succ_of_ne_zero hex
      rw [hk, show ((k.succ : Nat) - f.bias - f.m - f.q0 : Int).toNat = k by unfold Fmt.q0; omega, Nat.succ_mul]
      omega
    have hq : max ((Nat.log2 (2 ^ f.m + x % 2 ^ f.m) : Int) + ((x / 2 ^ f.m % 2 ^ f.e : Nat) - f.bias - f.m) - f.m) f.q0 =
        (x / 2 ^ f.m % 2 ^ f.e : Nat) - f.bias - f.m := by
      rw [hlog]
      unfold Fmt.q0
      omega
    rw [Fmt.round_exact ok rm sat dr (by omega) hq (hsub ▸ hfit), hsub]
    exact hword.symm

end

/-! ### The obligation -/

/-- Settles O7: a finite word rounds to itself; the operations on signs, NaN and the sum of MAD by their definitions. -/
theorem floatingOperations : Obligations.floating_operations := by
  unfold Obligations.floating_operations
  refine ⟨fun t f rm x sat dr hf _ hx ⟨n, m, e, h⟩ => Fmt.round_decode (fmtOf_ok hf) hx rm sat dr h, ?_⟩
  intro t f rm a b c sat dr hf _ ha
  have elem : ∀ fn, aluElem fn t rm sat dr a b c = fltOp fn f rm sat dr a b c := fun fn => by simp only [aluElem, hf]
  have hbits : f.bits - 1 = f.e + f.m := rfl
  have hpow : 2 ^ f.bits = 2 ^ (f.e + f.m) + 2 ^ (f.e + f.m) := by rw [Fmt.bits, pow_succ]; omega
  simp only [elem, fltOp, hbits, Nat.mod_eq_of_lt ha]
  refine ⟨fun h => by simp [h], fun h => ⟨by simp [h], ?_⟩, trivial, trivial, ?_⟩
  · rw [if_neg (by simpa using h), hpow]
    split
    · rw [Nat.mod_eq_of_lt (by omega)]
    · rw [Nat.mod_eq_sub_mod (by omega), Nat.mod_eq_of_lt (by omega)]
      omega
  · rintro (h | h)
    · simp [h, FVal.add, FVal.mul, Fmt.round]
    · cases f.decode a <;> simp [h, FVal.add, FVal.mul, FVal.neg, Fmt.round]

end Sys2Proof.Machine

/-! Proofs: the special values of the special functions (Table 09-1). -/

namespace Sys2Proof.Machine

/-- The types VSFU takes: F32, BF16 and F16, with the facts of their special words. -/
structure SfuFmt (t : Nat) (f : Fmt) : Prop where
  fmt : fmtOf t = some f
  ok : f.Ok
  ieee : f.nan = 1
  canon : f.maxFin < f.canon % 2 ^ (f.e + f.m)
  zero : f.decode 0 = .fin false 0 f.q0
  negZero : f.decode (2 ^ (f.bits - 1)) = .fin true 0 f.q0
  inf : f.decode f.inf = .inf false
  negInf : f.decode (f.inf + 2 ^ (f.bits - 1)) = .inf true
  infLt : f.inf + 2 ^ (f.bits - 1) < 2 ^ f.bits

theorem sfuFmt_of_type {t : Nat} {f : Fmt} (ht : t = 4 ∨ t = 5 ∨ t = 6) (hf : fmtOf t = some f) : SfuFmt t f := by
  have ok := fmtOf_ok hf
  obtain rfl | rfl | rfl := ht
  all_goals cases hf; exact ⟨rfl, ok, by decide, by decide, by decide, by decide, by decide, by decide, by decide⟩

/-- An input at which Table 09-1 leaves no choice. -/
def sfuFixed (fn : Nat) (v : FVal) : Prop :=
  (∀ n m e, v ≠ .fin n m e) ∨ (v.isZero = true ∧ (fn = 0 ∨ fn = 1 ∨ fn = 4)) ∨ fn = 2

theorem not_sfuAllowed {fn t x r c : Nat} {f : Fmt} (h : sfuFixed fn (f.decode x)) : sfuAllowed fn t f x r c = false := by
  unfold sfuAllowed
  rcases h with h | ⟨hz, rfl | rfl | rfl⟩ | rfl
  · cases hv : f.decode x with
    | nan => simp
    | inf n => simp
    | fin n m e => exact absurd hv (h n m e)
  · simp [hz]
  · simp [hz]
  · simp [hz]
  · simp

/-- The functions that give a zero argument a value without choice. -/
theorem sfuFixed_zero {fn : Nat} (n : Bool) (e : Int) (h : fn = 0 ∨ fn = 1 ∨ fn = 2 ∨ fn = 4) : sfuFixed fn (.fin n 0 e) := by
  rcases h with rfl | rfl | rfl | rfl <;> simp [sfuFixed, FVal.isZero]

section
variable {t : Nat} {f : Fmt} (k : SfuFmt t f)
include k

/-- Where there is no choice, the result is the rounding of the exact value. -/
theorem sfu_eq_round {fn x : Nat} (hx : x < 2 ^ f.bits) (h : sfuFixed fn (f.decode x)) :
    sfu fn t x = f.round 0 false (fun _ => 0) (sfuExact fn f (f.decode x)) := by
  unfold sfu
  rw [k.fmt]
  simp only [Nat.mod_eq_of_lt hx, not_sfuAllowed h, Bool.false_eq_true, if_false]

theorem sfu_nan {fn x : Nat} (hx : x < 2 ^ f.bits) (h : f.decode x = .nan) : sfu fn t x = f.canon := by
  rw [sfu_eq_round k hx (by simp [h, sfuFixed]), h]
  rfl

theorem sfu_posInf (fn : Nat) : sfu fn t f.inf = f.round 0 false (fun _ => 0) (sfuExact fn f (.inf false)) := by
  have hlt := k.infLt
  rw [sfu_eq_round k (lt_of_le_of_lt (Nat.le_add_right _ _) hlt) (by simp [k.inf, sfuFixed]), k.inf]

theorem sfu_negInf (fn : Nat) :
    sfu fn t (f.inf + 2 ^ (f.bits - 1)) = f.round 0 false (fun _ => 0) (sfuExact fn f (.inf true)) := by
  rw [sfu_eq_round k k.infLt (by simp [k.negInf, sfuFixed]), k.negInf]

theorem sfu_posZero {fn : Nat} (h : fn = 0 ∨ fn = 1 ∨ fn = 2 ∨ fn = 4) :
    sfu fn t 0 = f.round 0 false (fun _ => 0) (sfuExact fn f (.fin false 0 f.q0)) := by
  rw [sfu_eq_round k (Nat.two_pow_pos _) (k.zero ▸ sfuFixed_zero false f.q0 h), k.zero]

theorem sfu_negZero {fn : Nat} (h : fn = 0 ∨ fn = 1 ∨ fn = 2 ∨ fn = 4) :
    sfu fn t (2 ^ (f.bits - 1)) = f.round 0 false (fun _ => 0) (sfuExact fn f (.fin true 0 f.q0)) := by
  have hlt := k.infLt
  rw [sfu_eq_round k (by omega) (k.negZero ▸ sfuFixed_zero true f.q0 h), k.negZero]

/-- A negative finite argument of RSQ, SQRT and LOG2. -/
theorem sfu_negative {fn x : Nat} {m : Nat} {e : Int} (hx : x < 2 ^ f.bits) (h : f.decode x = .fin true m e) (hm : m ≠ 0)
    (hfn : fn = 1 ∨ fn = 2 ∨ fn = 4) : sfu fn t x = f.canon := by
  have hexact : f.round 0 false (fun _ => 0) (sfuExact fn f (f.decode x)) = f.canon := by
    rw [h]
    rcases hfn with rfl | rfl | rfl <;> simp [sfuExact, hm, Fmt.round]
  have hchoice : ∀ c, sfuAllowed fn t f x f.canon c = false := by
    intro c
    have hcanon := Nat.not_le.mpr k.canon
    unfold sfuAllowed
    rcases hfn with rfl | rfl | rfl <;> simp [h, FVal.isNeg, hcanon]
  unfold sfu
  rw [k.fmt]
  simp only [Nat.mod_eq_of_lt hx, hexact, hchoice, Bool.false_eq_true, if_false]

theorem round_inf (n : Bool) : f.round 0 false (fun _ => 0) (.inf n) = f.inf + if n then 2 ^ (f.bits - 1) else 0 := by
  have hbits : f.bits - 1 = f.e + f.m := rfl
  cases n <;> simp [Fmt.round, Fmt.signed, Fmt.ofInf, k.ieee, hbits]

theorem round_signedZero (n : Bool) (e : Int) :
    f.round 0 false (fun _ => 0) (.fin n 0 e) = if n then 2 ^ (f.bits - 1) else 0 := by
  have hbits : f.bits - 1 = f.e + f.m := rfl
  rw [Fmt.round_zero k.ok, hbits]
  cases n <;> simp [b2n]

theorem round_minus_one : f.round 0 false (fun _ => 0) (.fin true 1 0) =
    f.round 0 false (fun _ => 0) (.fin false 1 0) + 2 ^ (f.bits - 1) := by
  simp [Fmt.round, Fmt.signed, k.ieee]
  rfl

end

/-! ### The obligation -/

/-- Settles O8: at each special word the result is the rounding of a value without choice. -/
theorem specialValues : Obligations.special_values := by
  unfold Obligations.special_values
  intro t f x ht hf hx sgn one
  have k := sfuFmt_of_type ht hf
  have negative : ∀ {fn}, fn = 1 ∨ fn = 2 ∨ fn = 4 → ∀ n m e, f.decode x = .fin n m e → n = true → m ≠ 0 →
      sfu fn t x = f.canon := by
    rintro fn hfn n m e h rfl hm
    exact sfu_negative k hx h hm hfn
  have hcanon : f.round 0 false (fun _ => 0) .nan = f.canon := rfl
  simp only [sgn, one, sfu_posInf k, sfu_negInf k, sfu_posZero k, sfu_negZero k, sfuExact, round_inf k, round_signedZero k,
    round_minus_one k, hcanon, beq_self_eq_true, if_true, if_false, Bool.false_eq_true, Nat.add_zero, true_or, or_true,
    true_and]
  refine ⟨fun n m e h hn hm => ?_, fun h fn => sfu_nan k hx h⟩
  exact ⟨negative (.inl rfl) n m e h hn hm, negative (.inr (.inl rfl)) n m e h hn hm,
    negative (.inr (.inr rfl)) n m e h hn hm⟩

end Sys2Proof.Machine

/-! Proofs: the maps of a Lake pool (R26, Table 02-3) and of the Shared carve-out (R44) are one to one. -/

namespace Sys2Proof.Machine

/-! ### A Lake pool -/

/-- The place of a stripe's segment j of pool i among the 21 of Table 02-3. -/
def lakePlace (i j : Nat) : Nat :=
  if j = 0 then i else if i < 6 then (if j = 1 then 7 + i else if j = 2 then 13 + i else 17 + i) else 0

/-- Segments of 512 bytes that pool i has in each stripe. -/
def lakeWidth (i : Nat) : Nat := if i < 4 then 4 else if i < 6 then 2 else 1

/-- The Lake offset of byte k of pool i. -/
def lakeOffset (i k : Nat) : Nat :=
  (k / 512 / lakeWidth i * 21 + lakePlace i (k / 512 % lakeWidth i)) * 512 + k % 512

theorem lakeOffset_segment {i j r : Nat} (q : Nat) (hj : j < lakeWidth i) (hr : r < 512) :
    lakeOffset i (q * lakeWidth i * 512 + j * 512 + r) = (q * 21 + lakePlace i j) * 512 + r := by
  have hseg : (q * lakeWidth i * 512 + j * 512 + r) / 512 = j + lakeWidth i * q := by rw [Nat.mul_comm q]; omega
  have hbyte : (q * lakeWidth i * 512 + j * 512 + r) % 512 = r := by omega
  unfold lakeOffset
  rw [hseg, hbyte, Nat.add_mul_div_left _ _ (by omega), Nat.add_mul_mod_self_left, Nat.div_eq_of_lt hj,
    Nat.mod_eq_of_lt hj, Nat.zero_add]

/-- Table 02-3, a row for each of the 21 segments of a stripe. -/
theorem lakePool_eq (a : Nat) : ∃ i j, i < 7 ∧ j < lakeWidth i ∧ lakePlace i j = a / 512 % 21 ∧
    lakePool a = (i, a / 512 / 21 * lakeWidth i * 512 + j * 512 + a % 512) := by
  have hg : a / 512 % 21 < 21 := Nat.mod_lt _ (by decide)
  unfold lakePool
  dsimp only
  generalize a / 512 % 21 = g at hg
  interval_cases g <;> exact ⟨_, _, by decide, by decide, by decide, rfl⟩

/-- An offset maps to a byte of one of the seven pools, from which it is found again. -/
theorem lakePool_spec {a : Nat} (ha : a < 21 * 2 ^ 20) :
    (lakePool a).1 < 7 ∧ (lakePool a).2 < lakeWidth (lakePool a).1 * 2 ^ 20 ∧
      lakeOffset (lakePool a).1 (lakePool a).2 = a := by
  obtain ⟨i, j, hi, hj, hplace, h⟩ := lakePool_eq a
  rw [h]
  refine ⟨hi, ?_, ?_⟩
  · have hstripe : a / 512 / 21 + 1 ≤ 2048 := by omega
    have hrow := Nat.mul_le_mul_right (lakeWidth i * 512) hstripe
    rw [Nat.add_mul, one_mul, ← Nat.mul_assoc] at hrow
    dsimp only
    omega
  · rw [lakeOffset_segment _ hj (Nat.mod_lt _ (by decide)), hplace]
    omega

theorem lakePool_injective {a b : Nat} (ha : a < 21 * 2 ^ 20) (hb : b < 21 * 2 ^ 20) (h : lakePool a = lakePool b) : a = b := by
  rw [← (lakePool_spec ha).2.2, ← (lakePool_spec hb).2.2, h]

/-- A pool of a basin is as large as its share of the stripes. -/
theorem kindPool_coreKind {b i : Nat} (hb : b < 96) (hi : i < 7) : kindPool (coreKind (b * 8 + i)) = lakeWidth i * 2 ^ 20 := by
  have hcore : b * 8 + i < 1024 := by omega
  have hmod : (b * 8 + i) % 8 = i := by omega
  unfold coreKind lakeWidth
  rw [if_pos hcore, hmod]
  split
  · rfl
  · split <;> rfl

theorem poolKey_lake {b : Nat} (hb : b < 96) (a : Nat) :
    poolKey (1024 + b) a = (b * 8 + (lakePool a).1) * 2 ^ 22 + (lakePool a).2 := by
  unfold poolKey
  rw [if_neg (by omega), show (1024 + b) % 1024 = b by omega]

theorem lakeWidth_le (i : Nat) : lakeWidth i * 2 ^ 20 ≤ 2 ^ 22 := by
  unfold lakeWidth
  split
  · decide
  · split <;> decide

/-! ### The Shared carve-out -/

theorem State.mem_heapChans {s : State} {h c : Nat} (hc : c ∈ s.heapChans h) : c / 16 = h := by
  simp only [State.heapChans, List.mem_filterMap, List.mem_range] at hc
  obtain ⟨i, hi, heq⟩ := hc
  split at heq
  · cases heq
  · cases heq
    omega

theorem State.heapLogical_sublist (s : State) (h : Nat) : (s.heapLogical h).Sublist (s.heapChans h) := by
  unfold State.heapLogical
  split
  · exact List.dropLast_sublist _
  · exact List.Sublist.refl _

theorem State.heapChans_nodup (s : State) (h : Nat) : (s.heapChans h).Nodup := by
  refine List.nodup_range.filterMap fun i j c hi hj => ?_
  simp only [Option.mem_def] at hi hj
  split at hi
  · cases hi
  · split at hj
    · cases hj
    · cases hi
      simpa using hj.symm

/-- No channel is listed twice (R42). -/
theorem State.logical_nodup (s : State) : s.logical.Nodup := by
  refine List.nodup_flatMap.mpr ⟨fun h _ => (s.heapChans_nodup h).sublist (s.heapLogical_sublist h), ?_⟩
  refine List.nodup_range.imp_of_mem fun {h k} _ _ hne c hc hk => hne ?_
  exact (State.mem_heapChans ((s.heapLogical_sublist h).subset hc)).symm.trans
    (State.mem_heapChans ((s.heapLogical_sublist k).subset hk))

/-- The channel offset of byte o over n channels, from a base upward (R44). -/
def stripeOffset (n base o : Nat) : Nat := base + (o / 4096 / n * 4096 + o % 4096)

theorem overList_eq {l : List Nat} {base o : Nat} (h : o / 4096 % l.length < l.length) :
    overList l base o = some (l[o / 4096 % l.length] * 2 ^ 24 + stripeOffset l.length base o) := by
  unfold overList stripeOffset
  rw [List.getElem?_eq_getElem h, Option.map_some]
  simp only [Nat.add_assoc]

/-- Below n channels of K granules the offset stays inside the granules. -/
theorem stripeOffset_lt {n K base o : Nat} (h : o < n * K * 4096) : stripeOffset n base o < base + K * 4096 := by
  have hgran : o / 4096 / n < K := by
    rw [Nat.div_div_eq_div_mul]
    exact Nat.div_lt_of_lt_mul (by rw [Nat.mul_comm 4096, Nat.mul_right_comm]; exact h)
  have : (o / 4096 / n + 1) * 4096 ≤ K * 4096 := Nat.mul_le_mul_right _ hgran
  unfold stripeOffset
  omega

/-- A byte is known by its channel and its channel offset. -/
theorem stripe_injective {n base o p : Nat} (hmod : o / 4096 % n = p / 4096 % n)
    (h : stripeOffset n base o = stripeOffset n base p) : o = p := by
  unfold stripeOffset at h
  have hlow : o % 4096 = p % 4096 := by omega
  have hdiv : o / 4096 / n = p / 4096 / n := by omega
  have hgran : o / 4096 = p / 4096 := by
    rw [← Nat.div_add_mod (o / 4096) n, ← Nat.div_add_mod (p / 4096) n, hdiv, hmod]
  omega

/-! ### The obligation -/

/-- Settles O60: a Lake offset is found again from its pool and byte, and a Shared offset from its channel and byte. -/
theorem mapsAreOneToOne : Obligations.maps_are_one_to_one := by
  unfold Obligations.maps_are_one_to_one
  refine ⟨fun b hb a ha => ?_, fun s hK hne hsize o ho => ?_⟩
  · obtain ⟨hi, hk, -⟩ := lakePool_spec ha
    have hcap := lakeWidth_le (lakePool a).1
    refine ⟨⟨(lakePool a).1, (lakePool a).2, hi, kindPool_coreKind hb hi ▸ hk, ?_⟩, fun a' ha' h => ?_⟩
    · rw [poolKey_lake hb]
      unfold poolKey
      rw [if_pos (by omega)]
    · obtain ⟨-, hk', -⟩ := lakePool_spec ha'
      have hcap' := lakeWidth_le (lakePool a').1
      rw [poolKey_lake hb, poolKey_lake hb] at h
      exact lakePool_injective ha ha' (Prod.ext (by omega) (by omega))
  · have hlen : 0 < s.logical.length := List.length_pos_iff.mpr hne
    have hidx : ∀ p, p / 4096 % s.logical.length < s.logical.length := fun p => Nat.mod_lt _ hlen
    have key : ∀ p, p < s.sharedSize → s.sharedKey p = some (s.logical[p / 4096 % s.logical.length]'(hidx p) * 2 ^ 24 +
        stripeOffset s.logical.length s.deepSize p) := by
      intro p hp
      rw [State.sharedKey, if_pos hp]
      exact overList_eq (hidx p)
    have hdeep : s.deepSize + s.kGran * 4096 = 2 ^ 24 := by unfold State.deepSize; omega
    have fits : ∀ p, p < s.sharedSize → stripeOffset s.logical.length s.deepSize p < 2 ^ 24 := fun p hp =>
      hdeep ▸ stripeOffset_lt (lt_of_lt_of_le hp hsize)
    refine ⟨⟨_, _, List.getElem_mem (hidx o), Nat.le_add_right _ _, fits o ho, key o ho⟩, fun o' ho' h => ?_⟩
    rw [key o ho, key o' ho', Option.some.injEq] at h
    have := fits o ho
    have := fits o' ho'
    exact stripe_injective (s.logical_nodup.getElem_inj_iff.mp (by omega))
      (by omega : stripeOffset s.logical.length s.deepSize o = stripeOffset s.logical.length s.deepSize o')

end Sys2Proof.Machine

/-! Proofs: a fetch may poison sectors (R49, R225). -/

namespace Sys2Proof.Machine

/-- A device in service whose channel 0 is Failing; no slice holds a line, and context 5 maps its first page to Shared. -/
def lostLine : State :=
  { (State.reset.setReg .glbReadyFn (2 ^ 33 - 1)).setReg (.panChanState 0) 1 with
    tlb := [⟨0, 5, 127, 0, 65536, 0, 2 ^ 48, true, true, true⟩] }

/-- The fetch of an instruction reaches its words and leaves another set of poisoned Heap sectors. -/
def fetchPoisons (s : State) (core ctx va : Nat) : Bool :=
  match s.fetchInsn core ctx va with
  | .got u _ _ _ => decide (u.heapPoison ≠ s.heapPoison)
  | _ => false

theorem exists_of_fetchPoisons {s : State} {core ctx va : Nat} (h : fetchPoisons s core ctx va = true) :
    ∃ u w0 w1 bad, s.fetchInsn core ctx va = .got u w0 w1 bad ∧ u.heapPoison ≠ s.heapPoison := by
  unfold fetchPoisons at h
  split at h
  · next u w0 w1 bad hf => exact ⟨u, w0, w1, bad, hf, of_decide_eq_true h⟩
  · cases h

theorem lostLine_fetchPoisons : fetchPoisons lostLine 0 5 0 = true := by decide +kernel

/-- Refutes O3: a line that the fetch brings into its slice gets the sectors that its Failing channel cannot give poisoned, so
that the fetch changes the poison of the Heap besides the caches. -/
theorem not_fetchAndIssue : ¬ Obligations.fetch_and_issue := by
  unfold Obligations.fetch_and_issue
  rintro ⟨-, hfetch⟩
  obtain ⟨u, w0, w1, bad, hgot, hne⟩ := exists_of_fetchPoisons lostLine_fetchPoisons
  have hu := (hfetch lostLine u 0 5 0).1 w0 w1 bad hgot
  exact hne (by rw [hu])

end Sys2Proof.Machine

/-! Proofs: what caches, coherence transactions and fetches leave unchanged. -/

namespace Sys2Proof.Machine

/-- `t` is `s` but for what its caches hold, the poison of Heap sectors, and what logging writes. -/
def CachesOnly (s t : State) : Prop :=
  t = { s with
    coh := t.coh
    utlb := t.utlb
    icache := t.icache
    heapPoison := t.heapPoison
    regs := t.regs
    ras := t.ras
    hostMem := t.hostMem
    msix := t.msix
    heldRecs := t.heldRecs
    freeIx := t.freeIx
    out := t.out }

namespace CachesOnly
variable {s t u : State}

theorem refl (s : State) : CachesOnly s s := rfl

theorem trans (h : CachesOnly s t) (k : CachesOnly t u) : CachesOnly s u := by
  unfold CachesOnly at *
  rw [k, h]

theorem of_logs (h : LogsOnly s t) : CachesOnly s t := by
  unfold LogsOnly at h
  unfold CachesOnly
  rw [h]

theorem groups (h : CachesOnly s t) : t.groups = s.groups := by rw [h]
theorem launches (h : CachesOnly s t) : t.launches = s.launches := by rw [h]
theorem heap (h : CachesOnly s t) : t.heap = s.heap := by rw [h]
theorem pool (h : CachesOnly s t) : t.pool = s.pool := by rw [h]
theorem mboxReq (h : CachesOnly s t) : t.mboxReq = s.mboxReq := by rw [h]
theorem mboxRsp (h : CachesOnly s t) : t.mboxRsp = s.mboxRsp := by rw [h]
theorem counters (h : CachesOnly s t) : KeepsCounters s t := by rw [h]; exact ⟨rfl, rfl⟩

theorem foldl {α : Type} {f : State → α → State} (h : ∀ u x, CachesOnly u (f u x)) (xs : List α) (s : State) :
    CachesOnly s (xs.foldl f s) := by
  induction xs generalizing s with
  | nil => exact refl s
  | cons x xs ih => exact (h s x).trans (ih _)

theorem overLines {s t : State} {f : State → Nat → Option State} (h : ∀ u x v, f u x = some v → CachesOnly u v) {xs : List Nat}
    (ht : Sys2Proof.Machine.overLines f xs s = some t) : CachesOnly s t := by
  induction xs generalizing s with
  | nil =>
    cases ht
    exact refl _
  | cons x xs ih =>
    obtain ⟨v, hv, ht⟩ := Option.bind_eq_some_iff.mp ht
    exact (h s x v hv).trans (ih ht)

end CachesOnly

/-! ### Frames of a slice -/

section
variable (s : State)

theorem cachesOnly_fresh : CachesOnly s s.fresh.2 := rfl
theorem cachesOnly_modDir (line : Nat) (f : Frame → Frame) : CachesOnly s (s.modDir line f) := rfl
theorem cachesOnly_setDir (line : Nat) (d : Frame) : CachesOnly s (s.setDir line d) := rfl
theorem cachesOnly_recallLine (line : Nat) : CachesOnly s (s.recallLine line) := rfl
theorem cachesOnly_fillSecs (line : Nat) (secs : BitVec 4) : CachesOnly s (s.fillSecs line secs) := rfl

theorem cachesOnly_evictFrame (line : Nat) : CachesOnly s (s.evictFrame line) := by
  unfold State.evictFrame
  exact CachesOnly.trans (t := _) (by rfl) (.of_logs (logsOnly_discardNote _ _))

end

theorem cachesOnly_frameFor {s t : State} {line : Nat} {secs : BitVec 4} (h : s.frameFor line secs = some t) :
    CachesOnly s t := by
  unfold State.frameFor at h
  dsimp only at h
  split at h
  · cases h
    exact cachesOnly_fillSecs s line secs
  · split at h
    · cases h
      exact (cachesOnly_setDir s line _).trans (cachesOnly_fillSecs _ line secs)
    · obtain ⟨v, -, rfl⟩ := Option.map_eq_some_iff.mp h
      exact (((cachesOnly_fresh s).trans (cachesOnly_evictFrame _ _)).trans (cachesOnly_setDir _ _ _)).trans
        (cachesOnly_fillSecs _ line secs)

theorem cachesOnly_cohSnoop {s t : State} {line : Nat} {secs : BitVec 4} (h : s.cohSnoop line secs = some t) :
    CachesOnly s t := by
  unfold State.cohSnoop at h
  split at h
  · cases h
  · exact cachesOnly_frameFor h

theorem cachesOnly_cohRecall {s t : State} {line : Nat} {secs : BitVec 4} (h : s.cohRecall line secs = some t) :
    CachesOnly s t := by
  unfold State.cohRecall at h
  split at h
  · cases h
  · obtain ⟨v, hv, rfl⟩ := Option.map_eq_some_iff.mp h
    exact (cachesOnly_frameFor hv).trans ((cachesOnly_recallLine v line).trans (cachesOnly_modDir _ line _))

theorem cachesOnly_homeRead {s t : State} {dpas : List Nat} (h : s.homeRead dpas = some t) : CachesOnly s t :=
  CachesOnly.overLines (fun _ _ _ hv => cachesOnly_cohSnoop hv) h

theorem cachesOnly_homeWrite {s t : State} {dpas : List Nat} (h : s.homeWrite dpas = some t) : CachesOnly s t :=
  CachesOnly.overLines (fun _ _ _ hv => cachesOnly_cohRecall hv) h

/-! ### Fetches (R56) -/

theorem cachesOnly_touch (s : State) (unit die ctx va : Nat) (need : Need) : CachesOnly s (s.touch unit die ctx va need) := by
  unfold State.touch
  split <;> rfl

theorem cachesOnly_icFill (s : State) (cache line : Nat) (x : ILine) : CachesOnly s (s.icFill cache line x) := by
  unfold State.icFill
  dsimp only
  split
  · rfl
  · split <;> rfl

/-- A line that is not there is served by its home and cached, or cannot be reached. -/
theorem cachesOnly_refill {s t : State} {down : Bool} {dpas : List Nat} {cache line : Nat} {lost now x : ILine}
    (h : (if down then some (s, lost) else (s.homeRead dpas).map (fun (u : State) => (u.icFill cache line now, now))) =
      some (t, x)) : CachesOnly s t := by
  split at h
  · cases h
    exact .refl s
  · obtain ⟨u, hu, heq⟩ := Option.map_eq_some_iff.mp h
    cases heq
    exact (cachesOnly_homeRead hu).trans (cachesOnly_icFill u cache line now)

theorem cachesOnly_icLine {s t : State} {core line : Nat} {x : ILine} (h : s.icLine core line = some (t, x)) :
    CachesOnly s t := by
  unfold State.icLine at h
  dsimp only at h
  split at h
  · split at h
    · cases h
      exact .refl s
    · split at h
      · exact (cachesOnly_fresh s).trans (cachesOnly_refill h)
      · cases h
        exact cachesOnly_fresh s
  · exact cachesOnly_refill h

theorem cachesOnly_fetchWord {s t : State} {core ctx va : Nat} {w : Word} {bad : Bool}
    (h : s.fetchWord core ctx va = .word t w bad) : CachesOnly s t := by
  unfold State.fetchWord at h
  split at h
  · cases h
  · cases h
  · split at h
    · cases h
    · next hline =>
      cases h
      exact (cachesOnly_touch s _ _ _ _ _).trans (cachesOnly_icLine hline)

/-- R56: the fetch of an instruction changes caches alone, but for the poison that a line brings into its slice and the log of
what a line that leaves for it could not write back (R49, R219). -/
theorem cachesOnly_fetchInsn {s t : State} {core ctx pc : Nat} {w0 w1 : Word} {bad : Option Nat}
    (h : s.fetchInsn core ctx pc = .got t w0 w1 bad) : CachesOnly s t := by
  unfold State.fetchInsn at h
  split at h
  · cases h
  · cases h
  · cases h
  · next u _ _ hfirst =>
    have first := cachesOnly_fetchWord hfirst
    split at h
    · cases h
      exact first
    · split at h
      · cases h
        exact first
      · split at h
        · cases h
        · cases h
        · cases h
        · next hsecond =>
          cases h
          exact first.trans (cachesOnly_fetchWord hsecond)

/-- The state in which an instruction takes effect differs from the one before in what its fetch changes. -/
theorem Issues.cachesOnly {s u : State} {i : Instr} {r : GroupRef} {e : Enc} {g : Group} {l : Launch}
    (h : Issues s u i r e g l) : CachesOnly s u := by
  obtain ⟨n, -, -, -, fetch⟩ := h.decodes
  exact cachesOnly_fetchInsn fetch.words

end Sys2Proof.Machine

/-! Proofs: an instruction that issues, and what its poison checks find. -/

namespace Sys2Proof.Machine

/-! ### Masks of lanes -/

theorem testBit_foldl_or (l : List Nat) (a i : Nat) :
    (l.foldl (fun a i => a ||| 2 ^ i) a).testBit i = (a.testBit i || decide (i ∈ l)) := by
  induction l generalizing a with
  | nil => simp
  | cons k l ih =>
    rw [List.foldl_cons, ih, Nat.testBit_or, Nat.testBit_two_pow, Bool.eq_iff_iff]
    simp only [Bool.or_eq_true, decide_eq_true_eq, List.mem_cons, or_assoc, eq_comm (a := i) (b := k)]

theorem getLsbD_maskOf (l : List Nat) (i : Nat) : (maskOf l).getLsbD i = decide (i < 32 ∧ i ∈ l) := by
  rw [maskOf, BitVec.getLsbD_ofNat, testBit_foldl_or, Nat.zero_testBit, Bool.false_or, Bool.decide_and]

/-- The mask of the lanes of m that pass. -/
theorem inMask_maskOf_filter (m : Half) (p : Nat → Bool) (i : Nat) :
    (maskOf ((lanesOf m).filter p)).getLsbD i = true ↔ inMask m i ∧ p i = true := by
  rw [getLsbD_maskOf, decide_eq_true_eq, List.mem_filter, mem_lanesOf]
  exact ⟨fun h => h.2, fun h => ⟨h.1.1, h⟩⟩

theorem maskOf_filter_eq_zero {m : Half} {p : Nat → Bool} (h : ∀ i, inMask m i → p i = false) :
    maskOf ((lanesOf m).filter p) = 0 := by
  rw [List.filter_eq_nil_iff.mpr fun i hi => by simp [h i ((mem_lanesOf m i).mp hi)]]
  rfl

theorem maskOf_lanesOf (m : Half) : maskOf (lanesOf m) = m := by
  apply BitVec.eq_of_getLsbD_eq
  intro i hi
  rw [getLsbD_maskOf, Bool.eq_iff_iff, decide_eq_true_eq, mem_lanesOf]
  exact ⟨fun h => h.2.2, fun h => ⟨hi, hi, h⟩⟩

theorem maskOf_singleton {i : Nat} (h : i < 32) : maskOf [i] = BitVec.twoPow 32 i := by
  apply BitVec.eq_of_getLsbD_eq
  intro j hj
  rw [getLsbD_maskOf, BitVec.getLsbD_twoPow]
  simp [hj, h, eq_comm (a := i)]

/-- The lowest lane of a mask that is not empty (R62, R66). -/
theorem lowLane_spec {m : Half} (h : m ≠ 0) : inMask m (lowLane m) ∧ ∀ i, i < lowLane m → ¬ inMask m i := by
  unfold lowLane
  cases hl : lanesOf m with
  | nil =>
    refine absurd (BitVec.eq_of_getLsbD_eq fun i hi => ?_) h
    have : i ∉ lanesOf m := by simp [hl]
    rw [mem_lanesOf] at this
    simpa [inMask, hi] using this
  | cons a as =>
    refine ⟨(mem_lanesOf m a).mp (hl ▸ List.mem_cons_self), fun i hi hin => ?_⟩
    have hmem : i ∈ a :: as := hl ▸ (mem_lanesOf m i).mpr hin
    have hsorted : (a :: as).Pairwise (· < ·) := hl ▸ List.pairwise_lt_range.filter _
    rcases List.mem_cons.mp hmem with rfl | hmem
    · exact Nat.lt_irrefl i hi
    · exact Nat.lt_asymm hi ((List.pairwise_cons.mp hsorted).1 i hmem)

theorem lowLane_lt (m : Half) : lowLane m < 32 := by
  by_cases h : m = 0
  · subst h
    decide
  · exact (lowLane_spec h).1.1

/-! ### Poison checks (R352) -/

theorem any_spois_eq_false {g : Group} {xs : List Nat} (h : ∀ x ∈ xs, x ∉ g.spois) :
    xs.any (fun x => g.spois.contains x) = false := by
  rw [List.any_eq_false]
  intro x hx
  simpa using h x hx

theorem any_vpois_iff {g : Group} {ks : List Nat} : ks.any (fun k => g.vpois.contains k) = true ↔ ∃ k ∈ ks, k ∈ g.vpois := by
  simp

theorem poisonMask_of_scalars {g : Group} {m : Half} {suse : List Nat} (vuse : Nat → List Nat)
    (h : ∀ x ∈ suse, x ∉ g.spois) :
    poisonMask g m suse vuse = maskOf ((lanesOf m).filter (fun i => (vuse i).any (fun k => g.vpois.contains k))) := by
  unfold poisonMask
  rw [any_spois_eq_false h]
  rfl

/-- No source that a lane uses is poisoned. -/
theorem poisonMask_eq_zero {g : Group} {m : Half} {suse : List Nat} {vuse : Nat → List Nat} (hs : ∀ x ∈ suse, x ∉ g.spois)
    (hv : ∀ i, inMask m i → ∀ k ∈ vuse i, k ∉ g.vpois) : poisonMask g m suse vuse = 0 := by
  rw [poisonMask_of_scalars vuse hs]
  refine maskOf_filter_eq_zero fun i hi => ?_
  rw [List.any_eq_false]
  intro k hk
  simpa using hv i hi k hk

theorem scalarBad_eq_zero {g : Group} {rs : List Nat} (h : ∀ x ∈ rs, x ∉ g.spois) : scalarBad g rs = 0 := by
  unfold scalarBad
  rw [any_spois_eq_false h]
  rfl

theorem scalarsClean.of_frontEnd {i : Instr} {g : Group} {r : GroupRef} {e : Enc} {n : Ins} (h : scalarsClean i g)
    (hn : frontEnd i = some (r, e, n)) : ∀ x ∈ n.sregs, x ∉ g.spois := h r e n hn

/-! ### Instructions that issue -/

section
variable {s u : State} {i : Instr} {r : GroupRef} {e : Enc} {g : Group} {l : Launch} {n : Ins}

/-- The decode checks passed. -/
theorem Issues.code (h : Issues s u i r e g l) (hn : frontEnd i = some (r, e, n)) : n.code = none := by
  obtain ⟨n', hn', hcode, -⟩ := h.decodes
  rw [hn] at hn'
  cases hn'
  exact hcode

/-- A vector instruction whose sources are clean gives its group the new registers. -/
theorem runVec_of_issues (h : Issues s u i r e g l) (hn : frontEnd i = some (r, e, n)) {suse : List Nat}
    {vuse : Group → Nat → List Nat} {k : Group → Launch → Half → Group}
    (hclean : poisonMask g (effMask g e) suse (vuse g) = 0) :
    runVec s r e n suse vuse k = .next (u.putGroup r ((k g l (effMask g e)).advance e)) := by
  rw [runVec, issue_of_issues h hn]
  simp only [hclean, bne_self_eq_false, Bool.false_eq_true, if_false]
  rfl

/-- A vector instruction with a poisoned source faults on the lanes that use it. -/
theorem runVec_of_poison (h : Issues s u i r e g l) (hn : frontEnd i = some (r, e, n)) {suse : List Nat}
    {vuse : Group → Nat → List Nat} {k : Group → Launch → Half → Group} {m : Half}
    (hm : poisonMask g (effMask g e) suse (vuse g) = m) (hne : m ≠ 0) :
    runVec s r e n suse vuse k = .next (u.fatal r g l ⟨0x0E, m, 0⟩ (encWord n.op n.fn e) (encHi e)) := by
  rw [runVec, issue_of_issues h hn]
  simp only [hm, bne_iff_ne, ne_eq, hne, not_false_eq_true, if_true]
  rfl

theorem runScalar_of_issues (h : Issues s u i r e g l) (hn : frontEnd i = some (r, e, n)) (hclean : scalarsClean i g)
    (k : Group → Launch → Group) : runScalar s r e n k = .next (u.putGroup r ((k g l).advance e)) := by
  rw [runScalar, issue_of_issues h hn, any_spois_eq_false (hclean.of_frontEnd hn)]
  rfl

theorem runBranch_of_issues (h : Issues s u i r e g l) (hn : frontEnd i = some (r, e, n)) (hclean : scalarsClean i g)
    (k : State → Group → Launch → Res) : runBranch s r e n k = k u g l := by
  rw [runBranch, issue_of_issues h hn, any_spois_eq_false (hclean.of_frontEnd hn)]
  rfl

end

/-! ### The operations of one form -/

/-- The VALU and VALUI operations with their FN. -/
def valuOps : List ((GroupRef → Enc → Instr) × Nat) :=
  [(Instr.vadd, 0x00), (Instr.vsub, 0x01), (Instr.vmul, 0x02), (Instr.vmad, 0x03), (Instr.vmin, 0x04),
    (Instr.vmax, 0x05), (Instr.vabs, 0x06), (Instr.vneg, 0x07), (Instr.vand, 0x08), (Instr.vor, 0x09),
    (Instr.vxor, 0x0A), (Instr.vnot, 0x0B), (Instr.vshl, 0x0C), (Instr.vshr, 0x0D), (Instr.vsra, 0x0E),
    (Instr.vsel, 0x0F), (Instr.vclz, 0x10), (Instr.vpopc, 0x11), (Instr.vmov, 0x12)]

/-- The VSFU operations with their FN. -/
def vsfuOps : List ((GroupRef → Enc → Instr) × Nat) :=
  [(Instr.vrcp, 0), (Instr.vrsq, 1), (Instr.vsqrt, 2), (Instr.vexp2, 3), (Instr.vlog2, 4), (Instr.vsin, 5),
    (Instr.vcos, 6), (Instr.vtanh, 7), (Instr.vsigmoid, 8)]

/-- The SALU and SALUI operations with their FN. -/
def saluOps : List ((GroupRef → Enc → Instr) × Nat) :=
  [(Instr.sadd, 0x00), (Instr.ssub, 0x01), (Instr.smul, 0x02), (Instr.smad, 0x03), (Instr.smin, 0x04),
    (Instr.smax, 0x05), (Instr.sabs, 0x06), (Instr.sneg, 0x07), (Instr.sand, 0x08), (Instr.sor, 0x09),
    (Instr.sxor, 0x0A), (Instr.snot, 0x0B), (Instr.sshl, 0x0C), (Instr.sshr, 0x0D), (Instr.ssra, 0x0E),
    (Instr.ssel, 0x0F), (Instr.sclz, 0x10), (Instr.spopc, 0x11), (Instr.smov, 0x12), (Instr.sdiv, 0x13),
    (Instr.srem, 0x14), (Instr.sdivu, 0x15), (Instr.sremu, 0x16)]

theorem exec_valu {p : (GroupRef → Enc → Instr) × Nat} (hp : p ∈ valuOps) (r : GroupRef) (e : Enc) (s : State) :
    exec (p.1 r e) s = vectorAlu p.2 r e s ∧ frontEnd (p.1 r e) = some (r, e, valuIns p.2 e) := by
  unfold valuOps at hp
  fin_cases hp <;> exact ⟨rfl, rfl⟩

theorem exec_vsfu {p : (GroupRef → Enc → Instr) × Nat} (hp : p ∈ vsfuOps) (r : GroupRef) (e : Enc) (s : State) :
    exec (p.1 r e) s = vectorSfu p.2 r e s ∧ frontEnd (p.1 r e) = some (r, e, ⟨0x06, p.2, decodeSfu e, []⟩) := by
  unfold vsfuOps at hp
  fin_cases hp <;> exact ⟨rfl, rfl⟩

theorem exec_salu {p : (GroupRef → Enc → Instr) × Nat} (hp : p ∈ saluOps) (r : GroupRef) (e : Enc) (s : State) :
    exec (p.1 r e) s = scalarAlu p.2 r e s ∧ frontEnd (p.1 r e) = some (r, e, saluIns p.2 e) := by
  unfold saluOps at hp
  fin_cases hp <;> exact ⟨rfl, rfl⟩

end Sys2Proof.Machine

/-! Proofs: VALU, VSFU, VCVT and permute instructions (R148 to R153). -/

namespace Sys2Proof.Machine

theorem valuIns_sregs_clean {p : (GroupRef → Enc → Instr) × Nat} (hp : p ∈ valuOps) {r : GroupRef} {e : Enc} {g : Group}
    (h : scalarsClean (p.1 r e) g) : ∀ x ∈ (valuIns p.2 e).sregs, x ∉ g.spois := fun x hx =>
  h.of_frontEnd (exec_valu hp r e State.reset).2 x hx

/-- SHFL, BCAST and ROT: the lanes of the effective mask take their source lanes (R153). -/
theorem permOp_of_issues {s u : State} {i : Instr} {r : GroupRef} {e : Enc} {g : Group} {l : Launch} {fn : Nat}
    (h : Issues s u i r e g l)
    (hn : frontEnd i = some (r, e, ⟨0x0A, fn, decodePerm fn e, if fn != 0 || encBS e then [encB e] else []⟩))
    (hs : scalarsClean i g)
    (ha : ∀ j, inMask (effMask g e) j → ∀ k ∈ laneKeys (isWide (encT e)) (encA e) (permLane fn g e j), k ∉ g.vpois)
    (hb : (fn != 0 || encBS e) = false → ∀ j, inMask (effMask g e) j → ∀ k ∈ laneKeys (isWide (encT e)) (encB e) j, k ∉ g.vpois) :
    ∃ h', permOp fn r e s = .next (u.putGroup r h') ∧ VectorResult g h' e (isWide (encT e)) (encD e) (effMask g e)
      (fun j => g.elem (isWide (encT e)) (encA e) (permLane fn g e j) % 2 ^ typeBits (encT e)) := by
  have clean : poisonMask g (effMask g e) (if fn != 0 || encBS e then [encB e] else []) (fun j =>
      laneKeys (isWide (encT e)) (encA e) (permLane fn g e j) ++
        (if fn != 0 || encBS e then [] else laneKeys (isWide (encT e)) (encB e) j)) = 0 := by
    refine poisonMask_eq_zero (hs.of_frontEnd hn) fun j hj k hk => ?_
    rcases List.mem_append.mp hk with hk | hk
    · exact ha j hj k hk
    · split at hk
      · cases hk
      · next hsc => exact hb (by simpa using hsc) j hj k hk
  unfold permOp
  exact ⟨_, runVec_of_issues h hn clean, vectorResult_writeLanes g e _ _ _ _⟩

/-- Settles O9: each instruction runs its lanes on clean sources and writes exactly them. -/
theorem vectorOperationsComplete : Obligations.vector_operations_complete := by
  unfold Obligations.vector_operations_complete
  refine ⟨fun p hp r e s u g l h hs hv => ?_, fun r e s u g l => ?_⟩
  · obtain ⟨hexec, hn⟩ := exec_valu (p := p) hp r e s
    rw [hexec]
    exact ⟨_, runVec_of_issues h hn (poisonMask_eq_zero (hs.of_frontEnd hn) hv), vectorResult_writeLanes g e _ _ _ _⟩
  intro m w
  refine ⟨?vsfu, ?vcvt, ?vcvtMx, ?shfl, ?bcast, ?rot, ?stov⟩
  case vsfu =>
    intro p hp h hv
    obtain ⟨hexec, hn⟩ := exec_vsfu (p := p) hp r e s
    rw [hexec]
    exact ⟨_, runVec_of_issues h hn (poisonMask_eq_zero (by simp) (by simpa [laneKeys] using hv)),
      vectorResult_writeLanes g e _ _ _ _⟩
  case vcvt =>
    intro h hv ht
    show ∃ h', execVcvt r e s = .next (u.putGroup r h') ∧ _
    unfold execVcvt
    refine ⟨_, runVec_of_issues h rfl (poisonMask_eq_zero (by simp) hv), ?_⟩
    have hplain : (isMx (encT e) && encT e != cvtSrc e) = false := by
      rcases ht with ht | ht <;> simp [ht]
    rw [if_neg (by simp [hplain])]
    exact vectorResult_writeLanes g e _ _ _ _
  case vcvtMx =>
    intro h hv ht hu hw b
    have hne : encT e ≠ cvtSrc e := fun heq => by simp [heq, hu] at ht
    show ∃ h', execVcvt r e s = .next (u.putGroup r h') ∧ _
    unfold execVcvt
    refine ⟨_, runVec_of_issues h rfl (poisonMask_eq_zero (by simp) (by simpa [laneKeys, hw] using hv)), ?_⟩
    rw [if_pos (by simp [ht, hne])]
    exact vectorResult_writeLanes g e _ _ _ _
  case shfl =>
    intro h hs src hv
    have hsrc : permLane 0 g e = src := funext fun i => by
      simp only [permLane, src, beq_self_eq_true, if_true]
      split <;> rfl
    show ∃ h', permOp 0 r e s = .next (u.putGroup r h') ∧ _
    rw [← hsrc]
    exact permOp_of_issues h rfl hs (fun j hj => hsrc ▸ (hv j hj).1) (fun hb j hj => (hv j hj).2 (by simpa using hb))
  case bcast =>
    intro h hs src hv
    show ∃ h', permOp 1 r e s = .next (u.putGroup r h') ∧ _
    exact permOp_of_issues h rfl hs (fun _ _ => hv) (by simp)
  case rot =>
    intro h hs src hv
    show ∃ h', permOp 2 r e s = .next (u.putGroup r h') ∧ _
    exact permOp_of_issues h rfl hs hv (by simp)
  case stov =>
    intro h hs
    show ∃ h', execStov r e s = .next (u.putGroup r h') ∧ _
    unfold execStov
    exact ⟨_, runVec_of_issues h rfl (poisonMask_eq_zero (hs.of_frontEnd rfl) (by simp)), vectorResult_writeLanes g e _ _ _ _⟩

end Sys2Proof.Machine

/-! Proofs: where a group faults (R56, R70, R72, R81, R352, Table 04-5). -/

namespace Sys2Proof.Machine

/-! ### The lanes that an access names (R72) -/

theorem lanesOf_maskOf_filter (m : Half) (p : Nat → Bool) : lanesOf (maskOf ((lanesOf m).filter p)) = (lanesOf m).filter p := by
  unfold lanesOf
  rw [List.filter_filter]
  refine List.filter_congr fun i hi => ?_
  rw [Bool.eq_iff_iff, getLsbD_maskOf, decide_eq_true_eq, List.mem_filter]
  exact ⟨fun h => h.2.2, fun h => ⟨List.mem_range.mp hi, hi, h⟩⟩

/-- A mask that holds the lanes of `m` that pass is the mask of those lanes. -/
theorem eq_maskOf_filter {m x : Half} {p : Nat → Bool}
    (h : ∀ i, i < 32 → (x.getLsbD i = true ↔ inMask m i ∧ p i = true)) : maskOf ((lanesOf m).filter p) = x := by
  apply BitVec.eq_of_getLsbD_eq
  intro i hi
  rw [Bool.eq_iff_iff, inMask_maskOf_filter, h i hi]

/-- The lanes of an access that fail a check on their addresses: their mask, and the address of the lowest. -/
theorem faulting_lanes {m x : Half} {addr : Nat → Nat} {q : Nat → Bool} (hx : x ≠ 0)
    (h : ∀ i, i < 32 → (x.getLsbD i = true ↔ inMask m i ∧ q (addr i) = true)) :
    let ys := ((lanesOf m).map (fun j => (j, addr j))).filter (fun y => q y.2)
    ys.isEmpty = false ∧ maskOf (ys.map (fun y => y.1)) = x ∧ (ys.head?.map (fun y => y.2)).getD 0 = addr (lowLane x) := by
  intro ys
  have hm := eq_maskOf_filter (p := fun j => q (addr j)) h
  have hl : lanesOf x = (lanesOf m).filter (fun j => q (addr j)) := by rw [← hm, lanesOf_maskOf_filter]
  have hys : ys = (lanesOf x).map (fun j => (j, addr j)) := by rw [hl]; exact List.filter_map
  cases hc : lanesOf x with
  | nil =>
    refine absurd ?_ hx
    rw [← maskOf_lanesOf x, hc]
    rfl
  | cons a as =>
    have hid : (lanesOf x).map ((fun y : LaneAcc => y.1) ∘ fun j => (j, addr j)) = lanesOf x := List.map_id _
    refine ⟨by rw [hys, hc]; rfl, by rw [hys, List.map_map, hid, maskOf_lanesOf], ?_⟩
    rw [hys, hc, lowLane, hc]
    rfl

section
variable {s : State} {r : GroupRef} {e : Enc} {i : Ins} {g : Group} {l : Launch} {need : Need} {u : CohUse}
  {writes reads : Bool} {n : Nat} {bad m x : Half} {addr : Nat → Nat}

/-- An access with misaligned lanes ends the launch with code 0x0A and names them (R81, R72). -/
theorem access_misaligned {spc : Bool} (hx : x ≠ 0)
    (h : ∀ j, j < 32 → (x.getLsbD j = true ↔ inMask m j ∧ addr j % n ≠ 0)) (k : State → List LaneBytes → Res) :
    access s r e i g l spc need u writes reads false n bad ((lanesOf m).map (fun j => (j, addr j))) k =
      .next (s.fatal r g l ⟨0x0A, x, addr (lowLane x)⟩ (encWord i.op i.fn e) (encHi e)) := by
  obtain ⟨hne, hmask, hfst⟩ := faulting_lanes (q := fun a => a % n != 0) hx (by simpa using h)
  unfold access
  simp only [hne, hmask, hfst, Bool.not_false, if_true, Bool.false_eq_true, if_false]
  rfl

/-- An aligned access with lanes past the pool ends the launch with code 0x0C and names them (R72). -/
theorem access_past_pool (hx : x ≠ 0) (hal : ∀ j, inMask m j → addr j % n = 0)
    (h : ∀ j, j < 32 → (x.getLsbD j = true ↔ inMask m j ∧ poolSize r.core.toNat < addr j + n))
    (k : State → List LaneBytes → Res) :
    access s r e i g l false need u writes reads false n bad ((lanesOf m).map (fun j => (j, addr j))) k =
      .next (s.fatal r g l ⟨0x0C, x, addr (lowLane x)⟩ (encWord i.op i.fn e) (encHi e)) := by
  have hmis : ((lanesOf m).map (fun j => (j, addr j))).filter (fun y => y.2 % n != 0) = [] := by
    rw [List.filter_eq_nil_iff]
    intro y hy
    obtain ⟨j, hj, rfl⟩ := List.mem_map.mp hy
    simp [hal j ((mem_lanesOf m j).mp hj)]
  obtain ⟨hne, hmask, hfst⟩ :=
    faulting_lanes (q := fun a => decide (a + n > poolSize r.core.toNat)) hx (by simpa using h)
  unfold access
  simp only [hmis, hne, hmask, hfst, List.isEmpty_nil, Bool.not_true, Bool.not_false, if_true, Bool.false_eq_true, if_false]
  rfl

end

/-! ### Instructions that fault -/

section
variable {s u : State} {r : GroupRef} {e : Enc} {g : Group} {l : Launch} {n : Ins} {m : Half}

/-- A VALU or VALUI operation with poisoned source lanes faults on the lanes that use them (R352, R70). -/
theorem exec_valu_poison {p : (GroupRef → Enc → Instr) × Nat} (hp : p ∈ valuOps) (h : Issues s u (p.1 r e) r e g l)
    (hn : frontEnd (p.1 r e) = some (r, e, n)) (hs : scalarsClean (p.1 r e) g) (hne : m ≠ 0)
    (hm : ∀ i, i < 32 → (m.getLsbD i = true ↔ inMask (effMask g e) i ∧ ∃ k ∈ valuLanes p.2 e i, k ∈ g.vpois)) :
    exec (p.1 r e) s = .next (u.fatal r g l ⟨0x0E, m, 0⟩ (encWord n.op n.fn e) (encHi e)) := by
  obtain ⟨hexec, hfront⟩ := exec_valu hp r e s
  obtain rfl : valuIns p.2 e = n := by
    rw [hfront] at hn
    cases hn
    rfl
  rw [hexec]
  refine runVec_of_poison h hfront ?_ hne
  rw [poisonMask_of_scalars _ (hs.of_frontEnd hfront)]
  exact eq_maskOf_filter fun i hi => by rw [hm i hi, any_vpois_iff]

theorem and_not_zero (m : Half) : m &&& ~~~(0 : Half) = m := BitVec.and_allOnes

/-- The address lanes of VLD and VST are clean: the access has every lane of the effective mask. -/
theorem memAddr_clean (hs : encA e ∉ g.spois)
    (hv : encF e 27 27 = 1 → ∀ i, inMask (effMask g e) i → encB e * 32 + i ∉ g.vpois) :
    poisonMask g (effMask g e) [encA e] (fun j => if encF e 27 27 == 1 then laneKeys false (encB e) j else []) = 0 := by
  refine poisonMask_eq_zero (by simpa using hs) fun i hi k hk => ?_
  by_cases hx : encF e 27 27 = 1
  · obtain rfl : k = encB e * 32 + i := by simpa [hx, laneKeys] using hk
    exact hv hx i hi
  · simp [hx] at hk

theorem exec_vldVst_misaligned {p : GroupRef → Enc → Instr} (hp : p ∈ [Instr.vld, Instr.vst]) (h : Issues s u (p r e) r e g l)
    (hn : frontEnd (p r e) = some (r, e, n)) (hs : scalarsClean (p r e) g) (hne : m ≠ 0)
    (hv : encF e 27 27 = 1 → ∀ i, inMask (effMask g e) i → encB e * 32 + i ∉ g.vpois)
    (hm : ∀ i, i < 32 → (m.getLsbD i = true ↔ inMask (effMask g e) i ∧ memLane g e i % memBytes e ≠ 0)) :
    exec (p r e) s = .next (u.fatal r g l ⟨0x0A, m, memLane g e (lowLane m)⟩ (encWord n.op n.fn e) (encHi e)) := by
  fin_cases hp <;> cases hn
  all_goals
    refine (issue_of_issues h rfl _).trans ?_
    simp only [memAddr_clean (hs.of_frontEnd rfl (encA e) (by simp)) hv, and_not_zero]
    exact access_misaligned hne hm _

theorem exec_vldVst_past_pool {p : GroupRef → Enc → Instr} (hp : p ∈ [Instr.vld, Instr.vst]) (h : Issues s u (p r e) r e g l)
    (hn : frontEnd (p r e) = some (r, e, n)) (hs : scalarsClean (p r e) g) (hne : m ≠ 0)
    (hv : encF e 27 27 = 1 → ∀ i, inMask (effMask g e) i → encB e * 32 + i ∉ g.vpois)
    (hal : ∀ i, inMask (effMask g e) i → memLane g e i % memBytes e = 0) (hspc : encF e 26 26 = 0)
    (hm : ∀ i, i < 32 → (m.getLsbD i = true ↔
      inMask (effMask g e) i ∧ poolSize r.core.toNat < memLane g e i + memBytes e)) :
    exec (p r e) s = .next (u.fatal r g l ⟨0x0C, m, memLane g e (lowLane m)⟩ (encWord n.op n.fn e) (encHi e)) := by
  fin_cases hp <;> cases hn
  all_goals
    refine (issue_of_issues h rfl _).trans ?_
    simp only [memAddr_clean (hs.of_frontEnd rfl (encA e) (by simp)) hv, and_not_zero, hspc]
    exact access_past_pool hne hal hm _

theorem exec_jumpReg_misaligned {p : GroupRef → Enc → Instr} (hp : p ∈ [Instr.jr, Instr.ret]) (h : Issues s u (p r e) r e g l)
    (hn : frontEnd (p r e) = some (r, e, n)) (hs : scalarsClean (p r e) g) (hal : (g.gs (encA e)).toNat % 8 ≠ 0) :
    exec (p r e) s = .next (u.fatal r g l ⟨0x0A, g.act, (g.gs (encA e)).toNat⟩ (encWord n.op n.fn e) (encHi e)) := by
  fin_cases hp <;> cases hn
  all_goals
    refine (runBranch_of_issues h rfl hs _).trans ?_
    simp only [bne_iff_ne, ne_eq, hal, not_false_eq_true, if_true]
    rfl

/-- SPLIT on a stack of 32 entries (Table 04-5). -/
theorem exec_split_full (h : Issues s u (.split r e) r e g l) (hn : frontEnd (.split r e) = some (r, e, n))
    (hst : 32 ≤ g.stack.length) :
    exec (.split r e) s = .next (u.fatal r g l ⟨0x06, g.act, 0⟩ (encWord n.op n.fn e) (encHi e)) := by
  cases hn
  refine (issue_of_issues h rfl _).trans ?_
  simp only [ge_iff_le, hst, if_true]
  rfl

/-- ELSE, JOIN and CUT on an empty stack (Table 04-5). -/
theorem exec_mask_empty {p : GroupRef → Enc → Instr} (hp : p ∈ [Instr.elseMask, Instr.join, Instr.cut])
    (h : Issues s u (p r e) r e g l) (hn : frontEnd (p r e) = some (r, e, n)) (hst : g.stack = []) :
    exec (p r e) s = .next (u.fatal r g l ⟨0x07, g.act, 0⟩ (encWord n.op n.fn e) (encHi e)) := by
  fin_cases hp <;> cases hn
  all_goals
    refine (issue_of_issues h rfl _).trans ?_
    split
    · rfl
    · next hcons => simp [hst] at hcons

/-- END on a stack that is not empty (Table 04-5). -/
theorem exec_end_stacked (h : Issues s u (.endGroup r e) r e g l) (hn : frontEnd (.endGroup r e) = some (r, e, n))
    (hst : g.stack ≠ []) :
    exec (.endGroup r e) s = .next (u.fatal r g l ⟨0x08, g.act, 0⟩ (encWord n.op n.fn e) (encHi e)) := by
  cases hn
  refine (issue_of_issues h rfl _).trans ?_
  simp only [bne_iff_ne, ne_eq, List.length_eq_zero_iff, hst, not_false_eq_true, if_true]
  rfl

end

/-- Settles O10: each fault by the check that raises it. -/
theorem groupFaults : Obligations.group_faults := by
  unfold Obligations.group_faults
  refine ⟨fun p hp r e n s u g l m h hn hs hne hm => ?_, fun p hp r e n s u g l m h hn hs hne hv => ⟨fun hm => ?_, fun hal hspc hm => ?_⟩,
    fun p hp r e n s u g l => exec_jumpReg_misaligned hp, fun r e s u g l n => ?_⟩
  · refine exec_valu_poison ?_ h hn hs hne hm
    fin_cases hp <;> simp [valuOps]
  · exact exec_vldVst_misaligned hp h hn hs hne hv hm
  · exact exec_vldVst_past_pool hp h hn hs hne hv hal hspc hm
  · intro fault
    exact ⟨exec_split_full, fun p hp => exec_mask_empty hp, exec_end_stacked⟩

end Sys2Proof.Machine

/-! Proofs: scalar and system instructions (R108, R149, R150, R323). -/

namespace Sys2Proof.Machine

/-- TSET names one of the sixteen descriptors, or its decode check fails (R77). -/
theorem encD_lt_of_decodeSys {e : Enc} (h : decodeSys 2 e = none) : encD e < 16 := by
  simp only [decodeSys, decodeCode, beq_self_eq_true, if_true] at h
  split at h
  · cases h
  · next hres =>
    simp only [Bool.or_eq_true, not_or] at hres
    simpa [num4] using hres.2

/-- Settles O12: each instruction writes its one register from clean sources. -/
theorem scalarCompletes : Obligations.scalar_completes := by
  unfold Obligations.scalar_completes
  refine ⟨fun p hp r e s u g l h hs => ?_, fun r e s u g l => ⟨fun h hs => ?scmp, fun h => ?rdctr, fun h => ?rdctx, fun h hs => ?tset⟩⟩
  · obtain ⟨hexec, hn⟩ := exec_salu (p := p) hp r e s
    rw [hexec]
    exact ⟨_, runScalar_of_issues h hn hs _, scalarResult_setS g e _ _⟩
  case scmp =>
    refine ⟨_, runScalar_of_issues h rfl hs _, ?_⟩
    have hval : (if condInt 64 (encC e / 4) (g.gs (encA e)).toNat (g.gs (encB e)).toNat then (1 : Word) else 0) =
        BitVec.ofNat 64 (b2n (condInt 64 (encC e / 4) (g.gs (encA e)).toNat (g.gs (encB e)).toNat)) := by
      unfold b2n
      split <;> rfl
    rw [hval]
    exact scalarResult_setS g e _ _
  case rdctr =>
    refine ⟨_, runScalar_of_issues h rfl (by rintro _ _ _ ⟨⟩; simp) _, ?_⟩
    rw [h.cachesOnly.counters.dieTime]
    exact scalarResult_setS g e _ _
  case rdctx => exact ⟨_, runScalar_of_issues h rfl (by rintro _ _ _ ⟨⟩; simp) _, scalarResult_setS g e _ _⟩
  case tset =>
    have hd : encD e % 16 = encD e := Nat.mod_eq_of_lt (encD_lt_of_decodeSys (h.code rfl))
    refine ⟨_, runScalar_of_issues h rfl hs _, ?_, fun d hne => ?_, rfl⟩
    · exact (Group.gt_setT g _ _ _).trans (by simp [hd])
    · exact (Group.gt_setT g _ _ _).trans (by simp [hd, hne])

end Sys2Proof.Machine

/-! Proofs: NOP, waits, END, branches and the mask stack (R56, R60 to R63, R66, R69, R208). -/

namespace Sys2Proof.Machine

section
variable {s u : State} {r : GroupRef} {e : Enc} {g : Group} {l : Launch}

/-- NOP completes, and a FENCE once the group's ROUTE has written its results (R80, R204). -/
theorem exec_nop (h : Issues s u (.nop r e) r e g l) : exec (.nop r e) s = .next (u.putGroup r (g.next e)) :=
  issue_of_issues h rfl _

theorem exec_fence (h : Issues s u (.fence r e) r e g l) :
    exec (.fence r e) s = .next (if u.ownRoute r g.launch then u else u.putGroup r (g.next e)) := by
  refine (issue_of_issues h rfl _).trans ?_
  split <;> rfl

theorem anyTile_iff (s : State) (launch index m : Nat) :
    s.anyTile launch index m = true ↔ ∃ t, t < 16 ∧ bit m t = true ∧ s.tileBusy launch index t = true := by
  simp [State.anyTile, List.any_eq_true]

theorem exec_twait (h : Issues s u (.twait r e) r e g l) :
    exec (.twait r e) s = .next (u.putGroup r (if u.anyTile g.launch g.index (encF e 15 0)
      then { g with stat := .twait (BitVec.ofNat 16 (encF e 15 0)) } else g.next e)) := by
  refine (issue_of_issues h rfl _).trans ?_
  split <;> rfl

theorem exec_twaitReturn {m : BitVec 16} (hg : Map.find? s.groups (refKey r) = some g) (ht : s.tripped = false)
    (hm : g.stat = .twait m) (hidle : s.anyTile g.launch g.index m.toNat = false) :
    exec (.twaitReturn r) s = .next (s.putGroup r { g with stat := .run, pc := g.pc + 8#48 }) := by
  show execTwaitReturn r s = _
  simp only [execTwaitReturn, State.clocked, ht, Bool.false_eq_true, if_false, hg, hm, hidle]

theorem exec_swait (h : Issues s u (.swait r e) r e g l) (hs : scalarsClean (.swait r e) g)
    (hal : (g.gs (encA e)).toNat % 8 = 0) (hfit : (g.gs (encA e)).toNat + 8 ≤ poolSize r.core.toNat)
    (hp : (u.poolRead r.core.toNat (g.gs (encA e)).toNat 8).2 = false) :
    exec (.swait r e) s = .next (u.putGroup r (
      if condInt 64 (encF e 27 24) (ofLe (u.poolRead r.core.toNat (g.gs (encA e)).toNat 8).1) (g.gs (encB e)).toNat
      then g.next e
      else { g with stat := .swait (g.gs (encA e)).toNat (g.gs (encB e)) (BitVec.ofNat 4 (encF e 27 24)) (encWord 0x22 1 e) })) := by
  have ha : g.spois.contains (encA e) = false := by simpa using hs.of_frontEnd rfl (encA e) (by simp)
  have hb : g.spois.contains (encB e) = false := by simpa using hs.of_frontEnd rfl (encB e) (by simp)
  refine (issue_of_issues h rfl _).trans ?_
  simp only [ha, hb, hp, hal, Nat.not_lt.mpr hfit, bne_self_eq_false, Bool.or_self, Bool.false_eq_true, if_false]
  split <;> rfl

theorem exec_swaitReturn {off : Nat} {rhs : Word} {cc : BitVec 4} {w0 : Word} (ht : s.tripped = false)
    (hg : Map.find? s.groups (refKey r) = some g) (hl : Map.find? s.launches g.launch = some l)
    (hst : g.stat = .swait off rhs cc w0) (hp : (s.poolRead r.core.toNat off 8).2 = false)
    (hc : condInt 64 cc.toNat (ofLe (s.poolRead r.core.toNat off 8).1) rhs.toNat = true) :
    exec (.swaitReturn r) s = .next (s.putGroup r { g with stat := .run, pc := g.pc + 8#48 }) := by
  show execSwaitReturn r s = _
  simp only [execSwaitReturn, State.clocked, ht, hg, hl, hst, hp, hc, Bool.false_eq_true, if_false, if_true]

/-- END of a group whose mask stack is empty frees its slot (R61, R69). -/
theorem exec_endGroup (h : Issues s u (.endGroup r e) r e g l) (hst : g.stack = []) :
    exec (.endGroup r e) s = .next { u with groups := Map.drop u.groups (refKey r) } := by
  refine (issue_of_issues h rfl _).trans ?_
  simp [hst]

end

/-- Settles O16: each instruction by its equation; END drops one key of the slots that its fetch left as they were. -/
theorem waitsAndEndComplete : Obligations.waits_and_end_complete := by
  unfold Obligations.waits_and_end_complete
  refine ⟨fun r e s u g l => ⟨exec_nop, exec_fence⟩, fun r e s u g l => ?_, fun r e s u g l h hst => ?_⟩
  · intro core busy a
    refine ⟨fun h => ⟨fun hb => ?_, fun hb => ?_⟩, fun m hg ht hm hb => ?_, exec_swait, fun off rhs cc w0 => exec_swaitReturn⟩
    · rw [exec_twait h, if_pos ((anyTile_iff _ _ _ _).mpr hb)]
    · rw [exec_twait h, if_neg (fun ht => hb ((anyTile_iff _ _ _ _).mp ht))]
    · exact exec_twaitReturn hg ht hm (Bool.eq_false_iff.mpr fun h => hb ((anyTile_iff _ _ _ _).mp h))
  · refine ⟨_, exec_endGroup h hst, by simp [Map.find?_drop], fun k hk => ?_, rfl⟩
    simp [Map.find?_drop, hk, h.cachesOnly.groups]

/-! ### Branches and the mask stack -/

/-- The target of a branch (R74). -/
def branchTarget (g : Group) (e : Enc) : BitVec 48 := BitVec.ofInt 48 ((g.pc.toNat : Int) + toSigned 24 (encF e 23 0) * 8)

theorem Group.jumpBy_encOff (g : Group) (e : Enc) : g.jumpBy (encOff e) = { g with pc := branchTarget g e } := rfl

section
variable {s u : State} {r : GroupRef} {e : Enc} {g : Group} {l : Launch}

theorem exec_bra (h : Issues s u (.bra r e) r e g l) :
    exec (.bra r e) s = .next (u.putGroup r { g with pc := branchTarget g e }) := issue_of_issues h rfl _

theorem exec_bCc (h : Issues s u (.bCc r e) r e g l) (hs : scalarsClean (.bCc r e) g) :
    exec (.bCc r e) s = .next (u.putGroup r (
      if condInt 64 (encF e 27 24) (g.gs (encA e)).toNat (g.gs (encB e)).toNat then { g with pc := branchTarget g e }
      else g.next e)) := by
  refine (runBranch_of_issues h rfl hs _).trans ?_
  split <;> rfl

theorem Group.setS_pc (g : Group) (d : Nat) (x : Word) : (g.setS d x).pc = g.pc := by
  unfold Group.setS
  split <;> rfl

theorem exec_call (h : Issues s u (.call r e) r e g l) :
    exec (.call r e) s = .next (u.putGroup r { g.setS (encD e) ((g.pc + 8#48).setWidth 64) with pc := branchTarget g e }) := by
  refine (issue_of_issues h rfl _).trans ?_
  rw [Group.jumpBy_encOff, branchTarget, Group.setS_pc, BitVec.ofNat_toNat]
  rfl

theorem exec_jumpReg {p : GroupRef → Enc → Instr} (hp : p ∈ [Instr.jr, Instr.ret]) (h : Issues s u (p r e) r e g l)
    (hs : scalarsClean (p r e) g) (hal : (g.gs (encA e)).toNat % 8 = 0) :
    exec (p r e) s = .next (u.putGroup r { g with pc := (g.gs (encA e)).setWidth 48 }) := by
  have jump : ∀ {i : Instr} {fn : Nat}, Issues s u i r e g l → scalarsClean i g →
      frontEnd i = some (r, e, ⟨0x20, fn, decodeBr fn e, [encA e]⟩) →
      jumpReg fn r e s = .next (u.putGroup r { g with pc := (g.gs (encA e)).setWidth 48 }) := by
    intro i fn h hs hn
    refine (runBranch_of_issues h hn hs _).trans ?_
    simp only [hal, bne_self_eq_false, Bool.false_eq_true, if_false, BitVec.ofNat_toNat]
  fin_cases hp
  · exact jump h hs rfl
  · exact jump h hs rfl

theorem exec_split (h : Issues s u (.split r e) r e g l) (hst : g.stack.length < 32) :
    exec (.split r e) s = .next (u.putGroup r (
      if g.act &&& g.gp (encF e 45 42) ≠ 0 then
        { g.next e with
          act := g.act &&& g.gp (encF e 45 42)
          stack := ⟨g.act, g.act &&& ~~~(g.gp (encF e 45 42)), branchTarget g e⟩ :: g.stack }
      else
        { g with
          act := g.act &&& ~~~(g.gp (encF e 45 42))
          stack := ⟨g.act, 0, branchTarget g e⟩ :: g.stack
          pc := branchTarget g e })) := by
  refine (issue_of_issues h rfl _).trans ?_
  simp only [ge_iff_le, Nat.not_le.mpr hst, if_false, bne_iff_ne, maskP]
  split <;> rfl

theorem exec_elseMask {x : MaskEntry} {xs : List MaskEntry} (hst : g.stack = x :: xs) (h : Issues s u (.elseMask r e) r e g l) :
    exec (.elseMask r e) s = .next (u.putGroup r (
      if x.f ≠ 0 then { g with act := x.f, stack := ⟨x.m, 0, x.e⟩ :: xs, pc := x.e }
      else { g with pc := branchTarget g e })) := by
  refine (issue_of_issues h rfl _).trans ?_
  simp only [hst, bne_iff_ne, Group.jumpBy_encOff]
  split <;> rfl

theorem exec_join {x : MaskEntry} {xs : List MaskEntry} (hst : g.stack = x :: xs) (h : Issues s u (.join r e) r e g l) :
    exec (.join r e) s = .next (u.putGroup r { g.next e with act := x.m, stack := xs }) := by
  refine (issue_of_issues h rfl _).trans ?_
  simp only [hst]
  rfl

theorem exec_cut (hst : g.stack ≠ []) (h : Issues s u (.cut r e) r e g l) :
    exec (.cut r e) s = .next (u.putGroup r (
      if g.act &&& ~~~(g.gp (encF e 45 42)) ≠ 0 then { g.next e with act := g.act &&& ~~~(g.gp (encF e 45 42)) }
      else { g with act := 0, pc := branchTarget g e })) := by
  refine (issue_of_issues h rfl _).trans ?_
  split
  · next h0 => exact absurd h0 hst
  · by_cases ha : g.act &&& ~~~(g.gp (encF e 45 42)) = 0
    · simp only [maskP, ha, bne_self_eq_false, Bool.false_eq_true, if_false, ne_eq, not_true_eq_false]
      rfl
    · simp only [maskP, bne_iff_ne, ne_eq, ha, not_false_eq_true, if_true]
      rfl

theorem exec_elect (h : Issues s u (.elect r e) r e g l) :
    exec (.elect r e) s = .next (u.putGroup r (((g.setP (encF e 45 42) (maskOf [lowLane g.act])).setS (encF e 41 36)
      (BitVec.ofNat 64 (lowLane g.act))).advance e)) := issue_of_issues h rfl _

end

/-- What ELECT writes: the elected lane in a predicate and its number in a scalar register, each unless it is hard-wired. -/
theorem electResult (g : Group) (e : Enc) (p d n : Nat) (hn : n < 32) :
    let h := ((g.setP p (maskOf [n])).setS d (BitVec.ofNat 64 n)).advance e
    (p ≠ 0 → h.gp p = BitVec.twoPow 32 n) ∧ (∀ q, q ≠ p → h.gp q = g.gp q) ∧
      (d ≠ 0 → h.gs d = BitVec.ofNat 64 n) ∧ (∀ q, q ≠ d → h.gs q = g.gs q) ∧
      h = { g.next e with p := h.p, s := h.s, spois := h.spois, sbusy := h.sbusy } := by
  intro h
  have hgs : ∀ q, h.gs q = ((g.setP p (maskOf [n])).setS d (BitVec.ofNat 64 n)).gs q := fun q => rfl
  have hgp : ∀ q, h.gp q = (g.setP p (maskOf [n])).gp q := by
    intro q
    simp only [h, Group.setS]
    split <;> rfl
  have hgs' : ∀ q, (g.setP p (maskOf [n])).gs q = g.gs q := by
    intro q
    unfold Group.setP
    split <;> rfl
  refine ⟨fun hp => ?_, fun q hq => ?_, fun hd => ?_, fun q hq => ?_, ?_⟩
  · rw [hgp, Group.gp_setP, if_neg hp, if_pos rfl, maskOf_singleton hn]
  · rw [hgp, Group.gp_setP, if_neg hq]
    split
    · next h0 => simp [h0]
    · rfl
  · rw [hgs, Group.gs_setS, if_neg hd, if_pos rfl]
  · rw [hgs, Group.gs_setS, if_neg hq, hgs']
    split
    · next h0 => simp [h0]
    · rfl
  · simp only [h, Group.setS, Group.setP, Group.advance, Group.next]
    split <;> split <;> rfl

/-- Settles O17: each instruction by its equation; ELECT names the lowest lane of the active mask. -/
theorem controlFlowCompletes : Obligations.control_flow_completes := by
  unfold Obligations.control_flow_completes
  refine ⟨fun r e s u g l => ⟨exec_bra, exec_bCc, exec_call, fun p hp => exec_jumpReg hp⟩, fun r e s u g l => ?_⟩
  intro target p
  refine ⟨exec_split, fun x xs => exec_elseMask, fun x xs => exec_join, exec_cut, fun h hne => ?_⟩
  obtain ⟨hin, hlow⟩ := lowLane_spec hne
  exact ⟨_, lowLane g.act, exec_elect h, hin, hlow, electResult g e _ _ _ hin.1⟩

end Sys2Proof.Machine

/-! Proofs: concrete states in which a group's instruction issues, for refutations. -/

namespace Sys2Proof.Machine

/-- A device with every function in service, on which context 5 maps its first page to the first of Shared. -/
def serving : State :=
  { State.reset.setReg .glbReadyFn (2 ^ 33 - 1) with tlb := [⟨0, 5, 127, 0, 65536, 0, 2 ^ 48, true, true, true⟩] }

/-- A launch of context 5 on core 0. -/
def caseLaunch : Launch :=
  ⟨5, 127, 0, 0, 0, 0, 0, 32, .running, 0, 0, 0, 0, [], false, 0, false, false, [], [], 0, 0, 0, 0⟩

/-- A group of launch 1 at address 0 with every lane active. -/
def caseGroup : Group := ⟨1, 0, [], [], [], [], [], 0xFFFFFFFF, 0xFFFFFFFF, 0, [], [], [], .run⟩

/-- Slot 0 of core 0. -/
def caseRef : GroupRef := ⟨0, 0⟩

/-- The 64-bit form with these operand bits. -/
def caseEnc (ops : Nat) : Enc := ⟨false, false, false, 0, BitVec.ofNat 46 ops, 0⟩

/-- The device with a word written to an offset of Shared. -/
def State.withWord (s : State) (off : Nat) (w : Word) : State :=
  match s.locateN (2 ^ 48 + off) 8 with
  | some ls => s.writeLocs 0 ls (leBytes w.toNat 8)
  | none => s

/-- Group `g` stands in slot 0 of core 0 of device `s` and fetches an instruction's word from its instruction cache. -/
def State.holding (s : State) (i : Instr) (g : Group) : State :=
  match frontEnd i with
  | none => s
  | some (_, e, n) =>
    let t := s.withWord 0 (encWord n.op n.fn e)
    { t with
      groups := [(refKey caseRef, g)]
      launches := [(1, caseLaunch)]
      icache := [(icKey (icacheOf 0 0) 0, t.sharedLine 0)] }

/-- The fetch of an instruction's words leaves this state; any state where it does not reach them. -/
def State.afterFetch (s : State) (core ctx va : Nat) (w0 w1 : Word) : Option State :=
  match s.fetchInsn core ctx va with
  | .got u v0 v1 none => if v0 = w0 ∧ v1 = w1 then some u else none
  | _ => none

theorem State.fetchInsn_of_afterFetch {s u : State} {core ctx va : Nat} {w0 w1 : Word}
    (h : s.afterFetch core ctx va w0 w1 = some u) : s.fetchInsn core ctx va = .got u w0 w1 none := by
  unfold State.afterFetch at h
  split at h
  · next u' v0 v1 hf =>
    split at h
    · next hw =>
      obtain ⟨rfl, rfl⟩ := hw
      cases h
      exact hf
    · cases h
  · cases h

/-- Every condition of `Issues` holds for the group that stands in slot 0 of core 0. -/
def State.issuesHere (s : State) (i : Instr) (e : Enc) (g : Group) : Bool :=
  decide (Map.find? s.groups (refKey caseRef) = some g) && decide (Map.find? s.launches g.launch = some caseLaunch) &&
    decide (g.stat = .run) && !s.hung.contains 0 && decide (s.rf .pwrSts 7 7 ≠ 1) && !s.arriving 0 g.launch &&
    decide (g.pc.toNat % 8 = 0) &&
    match frontEnd i with
    | some (r', e', n) =>
      decide (r' = caseRef) && decide (e' = e) && decide (n.code = none) && n.sregs.all (fun x => !g.sbusy.contains x) &&
        (s.afterFetch 0 5 g.pc.toNat (encWord n.op n.fn e) (encHi e)).isSome
    | none => false

theorem exists_issues {s : State} {i : Instr} {e : Enc} {g : Group} (h : s.issuesHere i e g = true) :
    ∃ u, Issues s u i caseRef e g caseLaunch := by
  unfold State.issuesHere at h
  simp only [Bool.and_eq_true, decide_eq_true_eq] at h
  obtain ⟨⟨⟨⟨⟨⟨⟨hgroup, hlaunch⟩, hstat⟩, hhung⟩, htrip⟩, harr⟩, hal⟩, hins⟩ := h
  split at hins
  · next r' e' n hn =>
    simp only [Bool.and_eq_true, decide_eq_true_eq, List.all_eq_true] at hins
    obtain ⟨⟨⟨⟨rfl, rfl⟩, hcode⟩, hbusy⟩, hfetch⟩ := hins
    obtain ⟨u, hu⟩ := Option.isSome_iff_exists.mp hfetch
    have hready : Ready s caseRef g caseLaunch :=
      ⟨hgroup, hlaunch, hstat, rfl, fun hm => by rw [show caseRef.core.toNat = 0 from rfl] at hm; simp [hm] at hhung, htrip,
        (Bool.not_eq_true' _).mp harr⟩
    exact ⟨u, hready, n, hn, hcode, fun x hx => by simpa using hbusy x hx, hal, State.fetchInsn_of_afterFetch hu⟩
  · cases hins

end Sys2Proof.Machine

/-! Proofs: SCANADD saturates where its instruction asks for it (R92, R155). -/

namespace Sys2Proof.Machine

/-- A group whose register v1 holds the largest finite F32 in lanes 0 and 1, with those lanes active. -/
def scanGroup : Group := { caseGroup with v := [(32, 0x7F7FFFFF), (33, 0x7F7FFFFF)], act := 3 }

/-- SCANADD of v1 to v0 as F32 with SAT. -/
def scanEnc : Enc := caseEnc (2 ^ 34 + 4 * 2 ^ 17 + 2 ^ 14)

/-- The group stands before the SCANADD. -/
def scanState : State := serving.holding (.scanadd caseRef scanEnc) scanGroup

/-- The lanes that SCANADD writes. -/
def scanned (l : Launch) (g : Group) (e : Enc) : Group :=
  (scanLanes (fun i a b => aluElem 0x00 (encT e) (encRM e) (encSAT e) (laneDraw l g i) a b 0)
    (fun i => g.elem (isWide (encT e)) (encA e) i % 2 ^ typeBits (encT e)) none (lanesOf (effMask g e))).foldl
    (fun h p => h.setElem (isWide (encT e)) (encD e) p.1 p.2) g

theorem exec_scanadd {s u : State} {r : GroupRef} {e : Enc} {g : Group} {l : Launch} (h : Issues s u (.scanadd r e) r e g l)
    (hv : ∀ i, inMask (effMask g e) i → ∀ k ∈ laneKeys (isWide (encT e)) (encA e) i, k ∉ g.vpois) :
    exec (.scanadd r e) s = .next (u.putGroup r ((scanned l g e).advance e)) := by
  show execScanadd r e s = _
  unfold execScanadd
  exact runVec_of_issues h rfl (poisonMask_eq_zero (by simp) hv)

theorem putGroup_injective {s : State} {r : GroupRef} {g h : Group} (heq : s.putGroup r g = s.putGroup r h) : g = h := by
  have hg := congrArg (fun t : State => Map.find? t.groups (refKey r)) heq
  simpa [State.putGroup] using hg

/-- Refutes O11: of the two lanes of F32 with SAT, lane 1 takes the largest finite value, where the statement adds without
saturation and asks for infinity. -/
theorem not_predicatesAndReductionsComplete : ¬ Obligations.predicates_and_reductions_complete := by
  unfold Obligations.predicates_and_reductions_complete
  rintro ⟨-, hred⟩
  obtain ⟨u, hu⟩ := exists_issues (s := scanState) (i := .scanadd caseRef scanEnc) (e := scanEnc) (g := scanGroup)
    (by decide +kernel)
  have hclean : ∀ i, inMask (effMask scanGroup scanEnc) i →
      ∀ k ∈ laneKeys (isWide (encT scanEnc)) (encA scanEnc) i, k ∉ scanGroup.vpois := by
    intro i _ k _ hk
    cases hk
  obtain ⟨h, f, hexec, hres, hfirst, hnext⟩ := (hred caseRef scanEnc scanState u scanGroup caseLaunch).2.1 hu hclean
  have hin : ∀ i, i < 2 → inMask (effMask scanGroup scanEnc) i := by unfold inMask; decide
  rw [exec_scanadd hu hclean] at hexec
  obtain rfl := putGroup_injective (by injection hexec)
  have h0 : f 0 = 0x7F7FFFFF := (hfirst 0 (hin 0 (by decide)) (by simp)).trans (by decide +kernel)
  have h1 : f 1 = 0x7F800000 := by
    rw [hnext 1 0 (hin 1 (by decide)) (hin 0 (by decide)) (by decide) (by omega), h0]
    decide +kernel
  have hl := hres.lanes 1 (hin 1 (by decide))
  rw [h1] at hl
  exact absurd hl (by decide +kernel)

end Sys2Proof.Machine

/-! Proofs: loads, stores and atomics complete (R81, R148, R156, R210 to R212). -/

namespace Sys2Proof.Machine

/-! ### The lanes of an access that is performed -/

/-- Each lane of an access has its bytes, in the order of the lanes. -/
theorem Performs.laneAddrs {s t : State} {r : GroupRef} {l : Launch} {spc : Bool} {need : Need} {c : CohUse} {writes reads : Bool}
    {n : Nat} {xs : List LaneAcc} {bs : List LaneBytes} (h : Performs s r l spc need c writes reads n xs t bs) :
    bs.map (fun b => (b.lane, b.addr)) = xs := by
  obtain ⟨-, -, hpool, hshared⟩ := h
  cases spc with
  | false =>
    obtain ⟨-, rfl, -⟩ := hpool rfl
    rw [List.map_map]
    exact List.map_id xs
  | true => exact (hshared rfl).1

theorem Performs.lanes {s t : State} {r : GroupRef} {l : Launch} {spc : Bool} {need : Need} {c : CohUse} {writes reads : Bool}
    {n : Nat} {m : Half} {addr : Nat → Nat} {bs : List LaneBytes}
    (h : Performs s r l spc need c writes reads n ((lanesOf m).map (fun i => (i, addr i))) t bs) :
    bs.map LaneBytes.lane = lanesOf m := by
  have := congrArg (List.map Prod.fst) h.laneAddrs
  rw [List.map_map, List.map_map] at this
  exact this.trans (List.map_id _)

/-- An access of one lane has one lane's bytes. -/
theorem Performs.single {s t : State} {r : GroupRef} {l : Launch} {spc : Bool} {need : Need} {c : CohUse} {writes reads : Bool}
    {n : Nat} {x : LaneAcc} {bs : List LaneBytes} (h : Performs s r l spc need c writes reads n [x] t bs) :
    ∃ b, bs = [b] ∧ b.lane = x.1 := by
  obtain ⟨b, hb, hx⟩ := List.map_eq_singleton_iff.mp h.laneAddrs
  exact ⟨b, hb, by rw [← hx]⟩

/-- The value that a list of lanes and values gives a lane. -/
def laneVal (ps : List (Nat × Nat)) (i : Nat) : Nat := ((ps.find? (fun p => p.1 == i)).map Prod.snd).getD 0

theorem laneVal_of_mem {ps : List (Nat × Nat)} (hnd : (ps.map Prod.fst).Nodup) {p : Nat × Nat} (hp : p ∈ ps) :
    laneVal ps p.1 = p.2 := by
  have hf : ps.find? (fun q => q.1 == p.1) = some p := by
    induction ps with
    | nil => cases hp
    | cons q ps ih =>
      rw [List.map_cons, List.nodup_cons] at hnd
      rcases List.mem_cons.mp hp with rfl | hp
      · simp
      · have hne : q.1 ≠ p.1 := fun he => hnd.1 (he ▸ List.mem_map_of_mem hp)
        rw [List.find?_cons_of_neg (by simpa using hne), ih hnd.2 hp]
  rw [laneVal, hf]
  rfl

/-- Writes of one element in each lane of a mask. -/
theorem vectorResult_foldl {g : Group} {e : Enc} {w : Bool} {d : Nat} {m : Half} {ps : List (Nat × Nat)}
    (hlanes : ps.map Prod.fst = lanesOf m) :
    VectorResult g ((ps.foldl (fun h p => h.setElem w d p.1 p.2) g).advance e) e w d m (laneVal ps) := by
  have hnd : (ps.map Prod.fst).Nodup := hlanes ▸ nodup_lanesOf m
  have hps : ps = (lanesOf m).map (fun i => (i, laneVal ps i)) := by
    rw [← hlanes, List.map_map]
    exact (List.map_id ps).symm.trans (List.map_congr_left fun p hp => by simp [laneVal_of_mem hnd hp])
  have hfold : ps.foldl (fun h p => h.setElem w d p.1 p.2) g = g.writeLanes w d m (laneVal ps) := by
    conv_lhs => rw [hps]
    rfl
  rw [hfold]
  exact vectorResult_writeLanes g e w d m _

theorem lanesOf_maskOf_singleton {i : Nat} (h : i < 32) : lanesOf (maskOf [i]) = [i] := by
  have : ∀ i < 32, lanesOf (maskOf [i]) = [i] := by decide
  exact this i h

/-! ### Loads and stores -/

section
variable {s u t : State} {r : GroupRef} {e : Enc} {g : Group} {l : Launch} {bs : List LaneBytes}

/-- The addresses of VLD and VST, none of whose lanes is poisoned. -/
def memAccs (g : Group) (e : Enc) : List LaneAcc := (lanesOf (effMask g e)).map (fun i => (i, memLane g e i))

theorem exec_vst (h : Issues s u (.vst r e) r e g l) (hs : scalarsClean (.vst r e) g)
    (hv : encF e 27 27 = 1 → ∀ i, inMask (effMask g e) i → encB e * 32 + i ∉ g.vpois)
    (hd : ∀ i, inMask (effMask g e) i → ∀ k ∈ laneKeys (encF e 25 23 == 3) (encD e) i, k ∉ g.vpois)
    (hp : Performs u r l (encF e 26 26 == 1) needW .store true false (memBytes e) (memAccs g e) t bs) :
    exec (.vst r e) s = .next ((t.writeLanes bs (fun b => leBytes (g.elem (encF e 25 23 == 3) (encD e) b.lane) (memBytes e))).putGroup
      r (g.next e)) := by
  refine (issue_of_issues h rfl _).trans ?_
  simp only [memAddr_clean (hs.of_frontEnd rfl (encA e) (by simp)) hv, and_not_zero, poisonMask_eq_zero (suse := []) (by simp) hd,
    BitVec.or_self]
  exact access_of_performs hp _

theorem exec_vld (h : Issues s u (.vld r e) r e g l) (hs : scalarsClean (.vld r e) g)
    (hv : encF e 27 27 = 1 → ∀ i, inMask (effMask g e) i → encB e * 32 + i ∉ g.vpois)
    (hp : Performs u r l (encF e 26 26 == 1) needR .load false true (memBytes e) (memAccs g e) t bs) :
    exec (.vld r e) s = .next (t.putGroup r (((bs.map (fun b => (b.lane, extended e (t.readLocs 0 b.locs).1))).foldl
      (fun h p => h.setElem (encF e 25 23 == 3) (encD e) p.1 p.2) g).advance e)) := by
  refine (issue_of_issues h rfl _).trans ?_
  simp only [memAddr_clean (hs.of_frontEnd rfl (encA e) (by simp)) hv, and_not_zero, List.foldl_map]
  exact access_of_performs hp _

theorem exec_sst (h : Issues s u (.sst r e) r e g l) (hs : scalarsClean (.sst r e) g)
    (hp : Performs u r l (encF e 26 26 == 1) needW .store true false (memBytes e) [(lowLane g.act, ofSigned 64 (memBase g e))] t bs) :
    exec (.sst r e) s = .next ((t.writeLanes bs (fun _ => leBytes (g.gs (encD e)).toNat (memBytes e))).putGroup r (g.next e)) := by
  have hclean := hs.of_frontEnd rfl
  refine (issue_of_issues h rfl _).trans ?_
  simp only [scalarBad_eq_zero (rs := [encA e]) fun x hx => hclean x (List.mem_cons.mpr (.inl (by simpa using hx))),
    scalarBad_eq_zero (rs := [encA e, encD e]) hclean]
  exact access_of_performs hp _

/-- The value that SLD writes (R81, R149). -/
def sldVal (e : Enc) (xs : List Byte) : Nat :=
  if encF e 22 22 = 1 then ofSigned 64 (toSigned (8 * memBytes e) (ofLe xs)) else ofLe xs

theorem exec_sld {b : LaneBytes} (h : Issues s u (.sld r e) r e g l) (hs : scalarsClean (.sld r e) g)
    (hp : Performs u r l (encF e 26 26 == 1) needR .load false true (memBytes e) [(lowLane g.act, ofSigned 64 (memBase g e))] t [b]) :
    exec (.sld r e) s = .next (t.putGroup r ((g.setS (encD e) (BitVec.ofNat 64 (sldVal e (t.readLocs 0 b.locs).1))).advance e)) := by
  refine (issue_of_issues h rfl _).trans ?_
  simp only [scalarBad_eq_zero (rs := [encA e]) (hs.of_frontEnd rfl)]
  refine (access_of_performs hp _).trans ?_
  simp only [beq_iff_eq]
  rfl

end

/-- Settles O13: a write at locations is exact (`wrote_writeLocs`), and the stores are such writes. -/
theorem storesComplete : Obligations.stores_complete := by
  unfold Obligations.stores_complete
  refine ⟨fun s ls bs => wrote_writeLocs s 0 ls bs, fun r e s u t g l bs => ?_⟩
  intro spc n locs
  exact ⟨fun h hs hv hd hp => ⟨_, exec_vst h hs hv hd hp, wrote_writeLocs _ _ _ _⟩,
    fun h hs hp => ⟨_, exec_sst h hs hp, wrote_writeLocs _ _ _ _⟩⟩

end Sys2Proof.Machine

/-! Proofs: atomics, lane after lane (R210 to R212). -/

namespace Sys2Proof.Machine

/-- Bytes of an atomic's word. -/
def atomBytes (e : Enc) : Nat := if encF e 15 15 == 1 then 8 else 4
/-- How an atomic takes part in coherence (R218). -/
def atomUse (e : Enc) : CohUse := if encF e 21 20 ≤ 1 then .store else .home

theorem State.atomLanes_cons (s : State) (aop n ty : Nat) (opd cmp : Nat → Nat) (b : LaneBytes) (bs : List LaneBytes) :
    s.atomLanes aop n ty opd cmp (b :: bs) =
      let old := ofLe (s.readLocs 0 b.locs).1
      let w := s.writeLocs 0 b.locs
        (leBytes (atomNew aop (8 * n) ty old (opd b.lane % 2 ^ (8 * n)) (cmp b.lane % 2 ^ (8 * n))) n)
      ((w.atomLanes aop n ty opd cmp bs).1, (b.lane, old) :: (w.atomLanes aop n ty opd cmp bs).2) := rfl

/-- The old values come in the order of the lanes. -/
theorem State.atomLanes_lanes (s : State) (aop n ty : Nat) (opd cmp : Nat → Nat) (bs : List LaneBytes) :
    (s.atomLanes aop n ty opd cmp bs).2.map Prod.fst = bs.map LaneBytes.lane := by
  induction bs generalizing s with
  | nil => rfl
  | cons b bs ih =>
    rw [State.atomLanes_cons, List.map_cons, List.map_cons]
    exact congrArg _ (ih _)

/-- The low bits of a scalar result are those of its value. -/
theorem lowScalar_mod (fn x : Nat) (wide : Bool) (operands : List Nat) :
    (lowScalar fn (if wide then 3 else 1) operands x).toNat % 2 ^ (8 * if wide then 8 else 4) =
      x % 2 ^ (8 * if wide then 8 else 4) := by
  cases wide with
  | true => simp [lowScalar, typeBits]
  | false =>
    simp only [lowScalar, typeBits, Bool.false_eq_true, if_false, BitVec.toNat_ofNat]
    norm_num

section
variable {s u t : State} {r : GroupRef} {e : Enc} {g : Group} {l : Launch} {bs : List LaneBytes}

theorem exec_atom_held (h : Issues s u (.atom r e) r e g l) (hr : u.ownRoute r g.launch = true) :
    exec (.atom r e) s = .next u := by
  obtain ⟨n, hn, -⟩ := h.decodes
  have hn' : frontEnd (.atom r e) = some (r, e, ⟨0x0E, 0, decodeAtom e, atomRegs e⟩) := rfl
  refine (issue_of_issues h hn' _).trans ?_
  simp only [hr, if_true]

/-- The state after an atomic's lanes: an atomic at .dev or .sys scope keeps its launch from being replayed (R376). -/
def atomNoted (e : Enc) (g : Group) (bs : List LaneBytes) (t : State) : State :=
  if bs.isEmpty || encF e 21 20 ≤ 1 then t else t.noteUnreplayable g.launch

theorem exec_atom_vector (h : Issues s u (.atom r e) r e g l) (hr : u.ownRoute r g.launch = false) (hvec : encF e 13 13 = 1)
    (hv : ∀ i, inMask (effMask g e) i → encA e * 32 + i ∉ g.vpois ∧
      ∀ k ∈ laneKeys (encF e 15 15 == 1) (encB e) i ++
        (if encF e 19 16 == 9 then laneKeys (encF e 15 15 == 1) (encC e) i else []), k ∉ g.vpois)
    (hp : Performs u r l (encF e 14 14 == 1) needRWA (atomUse e) true true (atomBytes e)
      ((lanesOf (effMask g e)).map (fun i => (i, g.elem false (encA e) i))) t bs) :
    let w := t.atomLanes (encF e 19 16) (atomBytes e) 4 (g.elem (encF e 15 15 == 1) (encB e))
      (g.elem (encF e 15 15 == 1) (encC e)) bs
    exec (.atom r e) s = .next ((atomNoted e g bs w.1).putGroup r
      ((w.2.foldl (fun h p => h.setElem (encF e 15 15 == 1) (encD e) p.1 p.2) g).advance e)) := by
  intro w
  have hpa : poisonMask g (effMask g e) [] (fun j => laneKeys false (encA e) j) = 0 :=
    poisonMask_eq_zero (by simp) fun i hi k hk => by
      obtain rfl : k = encA e * 32 + i := by simpa [laneKeys] using hk
      exact (hv i hi).1
  have hpd := poisonMask_eq_zero (g := g) (suse := []) (by simp) fun i hi => (hv i hi).2
  refine (issue_of_issues h rfl _).trans ?_
  simp only [hvec, beq_self_eq_true, if_true, hr, Bool.false_eq_true, if_false, hpa, hpd, and_not_zero, BitVec.or_self]
  exact access_of_performs hp _

theorem exec_atom_scalar {b : LaneBytes} (h : Issues s u (.atom r e) r e g l) (hs : scalarsClean (.atom r e) g)
    (hr : u.ownRoute r g.launch = false) (hvec : encF e 13 13 = 0)
    (hp : Performs u r l (encF e 14 14 == 1) needRWA (atomUse e) true true (atomBytes e)
      [(lowLane g.act, (g.gs (encA e)).toNat)] t [b]) :
    let old := ofLe (t.readLocs 0 b.locs).1
    let w := t.writeLocs 0 b.locs (leBytes (atomNew (encF e 19 16) (8 * atomBytes e) 4 old
      ((g.gs (encB e)).toNat % 2 ^ (8 * atomBytes e)) ((g.gs (encC e)).toNat % 2 ^ (8 * atomBytes e))) (atomBytes e))
    exec (.atom r e) s = .next ((if encF e 21 20 ≤ 1 then w else w.noteUnreplayable g.launch).putGroup r
      ((g.setS (encD e) (lowScalar 0x0E (if encF e 15 15 == 1 then 3 else 1) [old] old)).advance e)) := by
  intro old w
  have hclean := hs.of_frontEnd rfl
  simp only [atomRegs, hvec, Nat.reduceBEq, Bool.false_eq_true, if_false] at hclean
  have hpa := scalarBad_eq_zero (rs := [encA e]) (g := g) fun x hx => hclean x (by simp at hx; simp [hx])
  have hpd := scalarBad_eq_zero hclean
  refine (issue_of_issues h rfl _).trans ?_
  simp only [hvec, Nat.reduceBEq, Bool.false_eq_true, if_false, hr, hpa, hpd, and_not_zero, BitVec.or_self,
    lanesOf_maskOf_singleton (lowLane_lt g.act), List.map_cons, List.map_nil]
  refine (access_of_performs hp _).trans ?_
  simp only [List.isEmpty_cons, Bool.false_or, decide_eq_true_eq]
  rfl

end

/-- Settles O15: each form by its equation; the old values stand in the lanes of the access. -/
theorem atomicsComplete : Obligations.atomics_complete := by
  unfold Obligations.atomics_complete
  refine ⟨fun r e s u t g l bs => ?_, fun s aop n ty opd cmp b bs => ⟨rfl, rfl⟩⟩
  intro wide n cas use near h
  refine ⟨exec_atom_held h, fun hs hr hvec hp => ?_, fun hr hvec hv hp => ?_⟩
  · obtain ⟨b, rfl, -⟩ := hp.single
    exact ⟨_, _, _, b, rfl, exec_atom_scalar h hs hr hvec hp, wrote_writeLocs _ _ _ _, scalarResult_setS _ _ _ _,
      lowScalar_mod _ _ _ _⟩
  · have hlanes := (State.atomLanes_lanes t (encF e 19 16) n 4 (g.elem wide (encB e)) (g.elem wide (encC e)) bs).trans hp.lanes
    exact ⟨_, _, exec_atom_vector h hr hvec hv hp, vectorResult_foldl hlanes,
      fun p hmem => laneVal_of_mem (hlanes ▸ nodup_lanesOf _) hmem⟩

end Sys2Proof.Machine

/-! Proofs: loads and tile fragments (R81, R125, R156). -/

namespace Sys2Proof.Machine

/-! ### Writes of single lanes -/

section
variable {α : Type} (reg lane : α → Nat) (val : α → Half)

/-- Lane i of register v takes a value that every write of it gives; without a write of it, it keeps its own. -/
theorem Group.gv_foldl_setV {xs : List α} {v i : Nat} {y : Half} (hi : i < 32) (hlt : ∀ x ∈ xs, lane x < 32)
    (hval : ∀ x ∈ xs, reg x = v → lane x = i → val x = y) (g : Group)
    (h : (∃ x ∈ xs, reg x = v ∧ lane x = i) ∨ g.gv v i = y) :
    (xs.foldl (fun h x => h.setV (reg x) (lane x) (val x)) g).gv v i = y := by
  induction xs generalizing g with
  | nil =>
    obtain ⟨x, hx, -⟩ | h := h
    · cases hx
    · exact h
  | cons x xs ih =>
    refine ih (fun z hz => hlt z (List.mem_cons_of_mem _ hz)) (fun z hz => hval z (List.mem_cons_of_mem _ hz)) _ ?_
    rw [Group.gv_setV _ _ _ _ _ _ (hlt x List.mem_cons_self) hi]
    by_cases hx : v = reg x ∧ i = lane x
    · exact .inr (by rw [if_pos hx]; exact hval x List.mem_cons_self hx.1.symm hx.2.symm)
    · rw [if_neg hx]
      refine h.imp (fun ⟨z, hz, hk⟩ => ?_) id
      rcases List.mem_cons.mp hz with rfl | hz
      · exact absurd ⟨hk.1.symm, hk.2.symm⟩ hx
      · exact ⟨z, hz, hk⟩

theorem Group.foldl_setV_rest (xs : List α) (g : Group) :
    xs.foldl (fun h x => h.setV (reg x) (lane x) (val x)) g =
      { g with
        v := (xs.foldl (fun h x => h.setV (reg x) (lane x) (val x)) g).v
        vpois := (xs.foldl (fun h x => h.setV (reg x) (lane x) (val x)) g).vpois } := by
  induction xs generalizing g with
  | nil => rfl
  | cons x xs ih =>
    rw [List.foldl_cons, ih]
    rfl

end

/-! ### The elements of a fragment -/

/-- The pool offset of element j of the fragment in a lane (R125). -/
def fragOff (g : Group) (e : Enc) (i j : Nat) : Nat :=
  let t := g.gt (fragTD e)
  let a := (g.gs (encA e)).toNat
  tdBase t + (32 * fld a 31 16 + i) * tdStride t + (4 * fld a 15 0 + j) * (typeBits (tdType t) / 8)

theorem mem_fragElems {g : Group} {e : Enc} {x : Nat × Nat × Nat} (h : x ∈ fragElems g e) :
    x.1 < 32 ∧ x.2.1 < 4 ∧ x.2.2 = fragOff g e x.1 x.2.1 := by
  unfold fragElems at h
  simp only [List.mem_flatMap, List.mem_range, List.mem_filterMap, Option.ite_none_right_eq_some, Option.some.injEq] at h
  obtain ⟨i, hi, j, hj, -, rfl⟩ := h
  exact ⟨hi, hj, rfl⟩

/-- The registers of a fragment set to 0 (R125). -/
def zeroFrag (g : Group) (d : Nat) : Group :=
  (List.range 4).foldl (fun (h : Group) j => (List.range 32).foldl (fun h i => h.setV (d + j) i 0) h) g

/-- The registers and lanes of a fragment. -/
def fragRegs : List (Nat × Nat) := (List.range 4).flatMap (fun j => (List.range 32).map (fun i => (j, i)))

theorem mem_fragRegs (p : Nat × Nat) : p ∈ fragRegs ↔ p.1 < 4 ∧ p.2 < 32 := by
  obtain ⟨j, i⟩ := p
  simp [fragRegs]

theorem zeroFrag_eq (g : Group) (d : Nat) : zeroFrag g d = fragRegs.foldl (fun h p => h.setV (d + p.1) p.2 0) g := by
  rw [fragRegs, List.foldl_flatMap]
  simp only [List.foldl_map]
  rfl

theorem zeroFrag_zero (g : Group) (d : Nat) {i j : Nat} (hi : i < 32) (hj : j < 4) : (zeroFrag g d).gv (d + j) i = 0 := by
  rw [zeroFrag_eq]
  exact Group.gv_foldl_setV (fun p : Nat × Nat => d + p.1) Prod.snd (fun _ => 0) hi
    (fun p hp => ((mem_fragRegs p).mp hp).2) (fun _ _ _ _ => rfl) g (.inl ⟨(j, i), (mem_fragRegs _).mpr ⟨hj, hi⟩, rfl, rfl⟩)

theorem zeroFrag_other (g : Group) (d : Nat) {v i : Nat} (hi : i < 32) (hv : v < d ∨ d + 4 ≤ v) :
    (zeroFrag g d).gv v i = g.gv v i := by
  rw [zeroFrag_eq]
  refine Group.gv_foldl_setV (fun p : Nat × Nat => d + p.1) Prod.snd (fun _ => 0) hi
    (fun p hp => ((mem_fragRegs p).mp hp).2) ?_ g (.inr rfl)
  intro p hp hreg
  have := ((mem_fragRegs p).mp hp).1
  omega

theorem zeroFrag_rest (g : Group) (d : Nat) : zeroFrag g d = { g with v := (zeroFrag g d).v, vpois := (zeroFrag g d).vpois } := by
  rw [zeroFrag_eq]
  exact Group.foldl_setV_rest _ _ _ _ _

/-- A fragment's registers with the values of its elements; an element outside the tile is 0 (R125). -/
def loadFrag (g : Group) (e : Enc) (val : Nat → Half) : Group :=
  (fragElems g e).foldl (fun h x => h.setV (encD e + x.2.1) x.1 (val x.2.2)) (zeroFrag g (encD e))

section
variable (g : Group) (e : Enc) (val : Nat → Half)

theorem loadFrag_elem {x : Nat × Nat × Nat} (hx : x ∈ fragElems g e) :
    (loadFrag g e val).gv (encD e + x.2.1) x.1 = val x.2.2 := by
  refine Group.gv_foldl_setV (fun y : Nat × Nat × Nat => encD e + y.2.1) (fun y => y.1) (fun y => val y.2.2)
    (mem_fragElems hx).1 (fun y hy => (mem_fragElems hy).1) (fun y hy hreg hlane => ?_) _ (.inl ⟨x, hx, rfl, rfl⟩)
  have hj : y.2.1 = x.2.1 := Nat.add_left_cancel hreg
  rw [(mem_fragElems hy).2.2, (mem_fragElems hx).2.2, hj, hlane]

theorem loadFrag_outside {i j : Nat} (hi : i < 32) (hj : j < 4) (h : ∀ o, (i, j, o) ∉ fragElems g e) :
    (loadFrag g e val).gv (encD e + j) i = 0 := by
  refine Group.gv_foldl_setV (fun y : Nat × Nat × Nat => encD e + y.2.1) (fun y => y.1) (fun y => val y.2.2)
    hi (fun y hy => (mem_fragElems hy).1) (fun y hy hreg hlane => ?_) _ (.inr (zeroFrag_zero g _ hi hj))
  obtain ⟨a, b, o⟩ := y
  obtain rfl : b = j := Nat.add_left_cancel hreg
  obtain rfl : a = i := hlane
  exact absurd hy (h o)

theorem loadFrag_other {v i : Nat} (hi : i < 32) (hv : v < encD e ∨ encD e + 4 ≤ v) : (loadFrag g e val).gv v i = g.gv v i := by
  refine Group.gv_foldl_setV (fun y : Nat × Nat × Nat => encD e + y.2.1) (fun y => y.1) (fun y => val y.2.2)
    hi (fun y hy => (mem_fragElems hy).1) (fun y hy hreg _ => ?_) _ (.inr (zeroFrag_other g _ hi hv))
  have := (mem_fragElems hy).2.1
  omega

theorem loadFrag_sameButV : g.sameButV ((loadFrag g e val).advance e) e := by
  unfold Group.sameButV loadFrag
  rw [Group.foldl_setV_rest (fun y : Nat × Nat × Nat => encD e + y.2.1) (fun y => y.1) (fun y => val y.2.2), zeroFrag_rest]
  rfl

end

section
variable {s u t : State} {r : GroupRef} {e : Enc} {g : Group} {l : Launch}

theorem exec_tldF (h : Issues s u (.tldF r e) r e g l) (hs : scalarsClean (.tldF r e) g)
    (hf : fragFault g e false (poolSize r.core.toNat) = none)
    (hheld : u.poolHeld r.core.toNat ((fragElems g e).map (fun x => ((x.2.2, fragBytes g e), false))) = false)
    (hpois : ∀ x ∈ fragElems g e, (u.poolRead r.core.toNat x.2.2 (fragBytes g e)).2 = false) :
    exec (.tldF r e) s = .next (u.putGroup r
      ((loadFrag g e (fun o => BitVec.ofNat 32 (u.poolNum r.core.toNat o (fragBytes g e)))).advance e)) := by
  have ha : g.spois.contains (encA e) = false := by simpa using hs.of_frontEnd rfl (encA e) (by simp)
  have hnone : (fragElems g e).filter (fun x => (u.poolRead r.core.toNat x.2.2 (fragBytes g e)).2) = [] := by
    rw [List.filter_eq_nil_iff]
    intro x hx
    simp [hpois x hx]
  refine (issue_of_issues h rfl _).trans ?_
  simp only [hf, ha, hheld, hnone, List.isEmpty_nil, Bool.not_true, Bool.false_eq_true, if_false]
  rfl

theorem exec_tstF (h : Issues s u (.tstF r e) r e g l) (hs : scalarsClean (.tstF r e) g)
    (hf : fragFault g e true (poolSize r.core.toNat) = none)
    (hpois : ∀ x ∈ fragElems g e, (encD e + x.2.1) * 32 + x.1 ∉ g.vpois)
    (hheld : u.poolHeld r.core.toNat ((fragElems g e).map (fun x => ((x.2.2, fragBytes g e), true))) = false) :
    exec (.tstF r e) s = .next ((u.writeLocs 0 ((fragElems g e).flatMap (fun x => poolLocs r.core.toNat x.2.2 (fragBytes g e)))
      ((fragElems g e).flatMap (fun x => leBytes (g.gv (encD e + x.2.1) x.1).toNat (fragBytes g e)))).putGroup r (g.next e)) := by
  have ha : g.spois.contains (encA e) = false := by simpa using hs.of_frontEnd rfl (encA e) (by simp)
  have hnone : (fragElems g e).filter (fun x => g.vpois.contains ((encD e + x.2.1) * 32 + x.1)) = [] := by
    rw [List.filter_eq_nil_iff]
    intro x hx
    simpa using hpois x hx
  refine (issue_of_issues h rfl _).trans ?_
  simp only [hf, ha, hheld, hnone, Bool.false_eq_true, if_false]
  rfl

end

/-- Settles O14: each load by its equation, with the lanes of its access. -/
theorem loadsAndFragmentsComplete : Obligations.loads_and_fragments_complete := by
  unfold Obligations.loads_and_fragments_complete
  refine ⟨fun r e s u t g l bs => ?loads, fun r e s u g l => ?frags⟩
  case loads =>
    intro spc n
    refine ⟨fun h hs hv hp => ?_, fun h hs hp => ?_⟩
    · have hlanes : (bs.map (fun b => (b.lane, extended e (t.readLocs 0 b.locs).1))).map Prod.fst = lanesOf (effMask g e) := by
        rw [List.map_map]
        exact hp.lanes
      exact ⟨_, _, exec_vld h hs hv hp, vectorResult_foldl hlanes,
        fun b hb => laneVal_of_mem (hlanes ▸ nodup_lanesOf _) (List.mem_map_of_mem hb)⟩
    · obtain ⟨b, rfl, -⟩ := hp.single
      exact ⟨_, b, rfl, exec_sld h hs hp, scalarResult_setS _ _ _ _⟩
  case frags =>
    intro core n xs
    exact ⟨fun h hs hf hheld hpois => ⟨_, exec_tldF h hs hf hheld hpois, loadFrag_sameButV _ _ _,
        fun x => loadFrag_elem _ _ _, fun i j => loadFrag_outside _ _ _, fun v i => loadFrag_other _ _ _⟩,
      fun h hs hf hpois hheld => ⟨_, exec_tstF h hs hf hpois hheld, wrote_writeLocs _ _ _ _⟩⟩

end Sys2Proof.Machine

/-! Proofs: laws of maps and of the accumulators, and what waiting MZERO commands change (R25, R117, R118). -/

namespace Sys2Proof.Machine

/-! ### Maps -/

section
variable {α : Type}

theorem Map.find?_keep (m : Map α) (p : Nat → Bool) (j : Nat) :
    Map.find? (Map.keep m p) j = if p j then Map.find? m j else none := by
  induction m with
  | nil => simp [Map.keep]
  | cons kv m ih =>
    obtain ⟨k, v⟩ := kv
    unfold Map.keep at ih ⊢
    by_cases hj : j = k
    · subst hj
      by_cases hp : p j = true
      · simp [hp, Map.find?]
      · rw [List.filter_cons_of_neg (by simpa using hp), ih]
        simp [hp]
    · by_cases hp : p k = true
      · rw [List.filter_cons_of_pos (p := fun kv : Nat × α => p kv.1) (a := (k, v)) hp]
        simp [Map.find?, hj, ih]
      · rw [List.filter_cons_of_neg (p := fun kv : Nat × α => p kv.1) (a := (k, v)) hp, ih]
        simp [Map.find?, hj]

theorem Map.getD_keep (m : Map α) (p : Nat → Bool) (j : Nat) (d : α) :
    Map.getD (Map.keep m p) j d = if p j then Map.getD m j d else d := by
  unfold Map.getD
  rw [Map.find?_keep]
  split <;> rfl

theorem Map.find?_modify (m : Map α) (i j : Nat) (f : α → α) :
    Map.find? (Map.modify m i f) j = if j = i then (Map.find? m i).map f else Map.find? m j := by
  unfold Map.modify
  cases h : Map.find? m i with
  | none =>
    by_cases hj : j = i
    · rw [if_pos hj, hj]
      exact h
    · rw [if_neg hj]
  | some a =>
    rw [Map.find?_put]
    rfl

end

/-! ### Accumulators -/

/-- The key of an element stands in one of the physical sets of its set (R25, R107). -/
theorem accKey_mem_physSets {core arr set i j : Nat} (hi : i < mtxRows core) (hj : j < mtxCols core) :
    accKey core arr set i j / 1024 ∈ physSets core arr set := by
  unfold accKey physSets
  by_cases hc : core < 1024
  · rw [mtxRows, if_pos hc] at hi
    rw [mtxCols, if_pos hc] at hj
    rw [if_pos hc, if_pos hc, List.mem_singleton]
    omega
  · rw [mtxRows, if_neg hc] at hi
    rw [mtxCols, if_neg hc] at hj
    rw [if_neg hc, if_neg hc, List.mem_map]
    refine ⟨2 * (i / 16) + j / 64, List.mem_range.mpr (by omega), ?_⟩
    omega

/-- Elements of one set have keys of their own. -/
theorem accKey_inj {core arr set i j i' j' : Nat} (hj : j < mtxCols core) (hj' : j' < mtxCols core)
    (h : accKey core arr set i j = accKey core arr set i' j') : i = i' ∧ j = j' := by
  unfold accKey at h
  by_cases hc : core < 1024
  · rw [mtxCols, if_pos hc] at hj hj'
    rw [if_pos hc, if_pos hc] at h
    omega
  · rw [mtxCols, if_neg hc] at hj hj'
    rw [if_neg hc, if_neg hc] at h
    have hq : i / 16 * 2 + j / 64 = i' / 16 * 2 + j' / 64 := by omega
    have hr : i % 16 * 64 + j % 64 = i' % 16 * 64 + j' % 64 := by omega
    omega

/-- The element of an accumulator at a key. -/
def State.accKeyed (s : State) (k : Nat) : Half := Map.getD s.acc k 0

theorem State.accKeyed_zeroSets (s : State) (ps : List Nat) (k : Nat) :
    (s.zeroSets ps).accKeyed k = if k / 1024 ∈ ps then 0 else s.accKeyed k := by
  unfold State.accKeyed State.zeroSets
  rw [Map.getD_keep]
  by_cases h : k / 1024 ∈ ps <;> simp [h]

/-! ### MZERO commands that wait -/

/-- The effect of MZERO command c. -/
def State.zeroStep (s : State) (c : MtxCmd) : State :=
  ((s.dropZero c).zeroSets (physSets c.org.core c.arr c.set)).noteSets (physSets c.org.core c.arr c.set) c.org.launch c.org.ctx

theorem State.runZeros_succ (s : State) (n : Nat) :
    s.runZeros (n + 1) = match s.mtx.find? (fun c => c.kind == .mzero && s.mtxFirst c) with
      | none => s
      | some c => (s.zeroStep c).runZeros n := rfl

/-- What holds before the MZERO commands take effect, and after each that stands first on its set, holds afterwards. -/
theorem State.runZeros_induction {p : State → Prop}
    (hstep : ∀ t c, p t → c ∈ t.mtx → c.kind = .mzero → t.mtxFirst c = true → p (t.zeroStep c)) (n : Nat) (s : State) (hs : p s) :
    p (s.runZeros n) := by
  induction n generalizing s with
  | zero => exact hs
  | succ n ih =>
    rw [State.runZeros_succ]
    split
    · exact hs
    · next c hc =>
      have hq := List.find?_some hc
      simp only [Bool.and_eq_true, beq_iff_eq] at hq
      exact ih _ (hstep s c hs (List.mem_of_find?_eq_some hc) hq.1 hq.2)

theorem State.zeroStep_mtx (s : State) (c : MtxCmd) : (s.zeroStep c).mtx = s.mtx.erase c := rfl

theorem State.zeroStep_acc (s : State) (c : MtxCmd) (k : Nat) :
    (s.zeroStep c).accKeyed k = if k / 1024 ∈ physSets c.org.core c.arr c.set then 0 else s.accKeyed k :=
  State.accKeyed_zeroSets (s.dropZero c) _ k

/-- `t` is `s` but for the matrix commands, the accumulators, who wrote them, and the sets that launches keep live. -/
def ZerosOnly (s t : State) : Prop :=
  t = { s with mtx := t.mtx, acc := t.acc, accCtx := t.accCtx, launches := t.launches }

theorem ZerosOnly.refl (s : State) : ZerosOnly s s := rfl
theorem ZerosOnly.trans {s t u : State} (h : ZerosOnly s t) (k : ZerosOnly t u) : ZerosOnly s u := by
  unfold ZerosOnly at *
  rw [k, h]
theorem ZerosOnly.pool {s t : State} (h : ZerosOnly s t) : t.pool = s.pool := by rw [h]
theorem ZerosOnly.heap {s t : State} (h : ZerosOnly s t) : t.heap = s.heap := by rw [h]
theorem ZerosOnly.groups {s t : State} (h : ZerosOnly s t) : t.groups = s.groups := by rw [h]
theorem ZerosOnly.nextId {s t : State} (h : ZerosOnly s t) : t.nextId = s.nextId := by rw [h]
theorem ZerosOnly.regs {s t : State} (h : ZerosOnly s t) : t.regs = s.regs := by rw [h]
theorem ZerosOnly.failed {s t : State} (h : ZerosOnly s t) : t.failed = s.failed := by rw [h]
theorem ZerosOnly.mtxHolder {s t : State} (h : ZerosOnly s t) : t.mtxHolder = s.mtxHolder := by rw [h]

theorem zerosOnly_runZeros (s : State) (n : Nat) : ZerosOnly s (s.runZeros n) :=
  State.runZeros_induction (p := ZerosOnly s) (fun t c h _ _ _ => h.trans (by unfold State.zeroStep; rfl)) n s (ZerosOnly.refl s)

/-- A command that is no MZERO stays. -/
theorem State.mem_runZeros {s : State} {o : MtxCmd} (n : Nat) (ho : o ∈ s.mtx) (hk : o.kind ≠ .mzero) : o ∈ (s.runZeros n).mtx :=
  State.runZeros_induction (p := fun t => o ∈ t.mtx)
    (fun t c h _ hc _ => by
      rw [State.zeroStep_mtx]
      exact (List.mem_erase_of_ne (fun he : o = c => hk (he ▸ hc))).mpr h) n s ho

/-- No command comes in. -/
theorem State.mem_of_mem_runZeros {s : State} {o : MtxCmd} {n : Nat} (h : o ∈ (s.runZeros n).mtx) : o ∈ s.mtx :=
  State.runZeros_induction (p := fun t => ∀ x ∈ t.mtx, x ∈ s.mtx)
    (fun _ _ ht _ _ _ x hx => ht x (List.mem_of_mem_erase hx)) n s (fun _ hx => hx) o h

/-- An element keeps its value where no MZERO concerns its set. -/
theorem State.runZeros_accKeyed {s : State} {k : Nat} (n : Nat)
    (h : ∀ o ∈ s.mtx, o.kind = .mzero → k / 1024 ∉ physSets o.org.core o.arr o.set) :
    (s.runZeros n).accKeyed k = s.accKeyed k :=
  (State.runZeros_induction (p := fun t => t.accKeyed k = s.accKeyed k ∧ ∀ x ∈ t.mtx, x ∈ s.mtx)
    (fun t c ht hc hk _ =>
      ⟨by rw [State.zeroStep_acc, if_neg (h c (ht.2 c hc) hk), ht.1], fun x hx => ht.2 x (List.mem_of_mem_erase hx)⟩)
    n s ⟨rfl, fun _ hx => hx⟩).1

/-- An element that is +0 stays +0. -/
theorem State.runZeros_accKeyed_zero {s : State} {k : Nat} (n : Nat) (h : s.accKeyed k = 0) : (s.runZeros n).accKeyed k = 0 :=
  State.runZeros_induction (p := fun t => t.accKeyed k = 0)
    (fun t c ht _ _ _ => by
      rw [State.zeroStep_acc]
      split
      · rfl
      · exact ht) n s h

/-- Without an MZERO the accumulators stay as they are. -/
theorem State.runZeros_acc {s : State} (n : Nat) (h : ∀ o ∈ s.mtx, o.kind ≠ .mzero) : (s.runZeros n).acc = s.acc := by
  cases n with
  | zero => rfl
  | succ n =>
    rw [State.runZeros_succ, List.find?_eq_none.mpr]
    intro x hx
    simp [h x hx]

theorem State.mtxFirst_iff (s : State) (c : MtxCmd) : s.mtxFirst c = true ↔ ∀ o ∈ s.mtx, o.id < c.id →
    ¬ (o.sameSet c = true ∧ ¬ (o.kind = .mdrain ∧ c.kind = .mma)) ∧ ¬ (o.sameArr c = true ∧ o.kind = .mma ∧ c.kind = .mma) := by
  simp [State.mtxFirst, and_assoc]

theorem State.mtxFirst_of_subset {s t : State} {c : MtxCmd} (hsub : ∀ o ∈ t.mtx, o ∈ s.mtx) (h : s.mtxFirst c = true) :
    t.mtxFirst c = true := by
  rw [State.mtxFirst_iff] at *
  exact fun o ho => h o (hsub o ho)

/-- An MZERO that stands first on its set takes effect (R118). -/
theorem State.runZeros_zeroes {c : MtxCmd} {k : Nat} (hk : c.kind = .mzero) (hin : k / 1024 ∈ physSets c.org.core c.arr c.set)
    (n : Nat) (s : State) (hn : s.mtx.length ≤ n) (hc : c ∈ s.mtx) (hfirst : s.mtxFirst c = true) :
    (s.runZeros n).accKeyed k = 0 := by
  induction n generalizing s with
  | zero =>
    rw [List.length_eq_zero_iff.mp (Nat.le_zero.mp hn)] at hc
    cases hc
  | succ n ih =>
    rw [State.runZeros_succ]
    split
    · next hnone =>
      have := List.find?_eq_none.mp hnone c hc
      simp [hk, hfirst] at this
    · next x hx =>
      have hxm := List.mem_of_find?_eq_some hx
      by_cases hxc : x = c
      · refine State.runZeros_accKeyed_zero n ?_
        rw [State.zeroStep_acc, hxc, if_pos hin]
      · refine ih _ ?_ ?_ (State.mtxFirst_of_subset (fun o ho => List.mem_of_mem_erase ho) hfirst)
        · rw [State.zeroStep_mtx, List.length_erase_of_mem hxm]
          omega
        · rw [State.zeroStep_mtx]
          exact (List.mem_erase_of_ne (Ne.symm hxc)).mpr hc

/-- An MZERO behind an earlier command of its set, which is no MZERO, waits (R118). -/
theorem State.runZeros_waits {c o : MtxCmd} (n : Nat) (s : State) (hc : c ∈ s.mtx) (ho : o ∈ s.mtx) (hk : o.kind ≠ .mzero)
    (hck : c.kind = .mzero) (hid : o.id < c.id) (hset : o.sameSet c = true) : c ∈ (s.runZeros n).mtx :=
  (State.runZeros_induction (p := fun t => c ∈ t.mtx ∧ o ∈ t.mtx)
    (fun t x ht _ hx hfirst => by
      rw [State.zeroStep_mtx]
      have hxc : c ≠ x := by
        rintro rfl
        exact ((State.mtxFirst_iff t c).mp hfirst o ht.2 hid).1 ⟨hset, by simp [hck]⟩
      exact ⟨(List.mem_erase_of_ne hxc).mpr ht.1, (List.mem_erase_of_ne (fun he : o = x => hk (he ▸ hx))).mpr ht.2⟩)
    n s ⟨hc, ho⟩).1

/-- The phase of a launch stays as it is. -/
theorem State.runZeros_phase {s : State} {k : Nat} {ph : LPhase} (n : Nat)
    (h : ∃ l, Map.find? s.launches k = some l ∧ l.phase = ph) : ∃ l, Map.find? (s.runZeros n).launches k = some l ∧ l.phase = ph :=
  State.runZeros_induction (p := fun t => ∃ l, Map.find? t.launches k = some l ∧ l.phase = ph)
    (fun t c ht _ _ _ => by
      obtain ⟨l, hl, hph⟩ := ht
      unfold State.zeroStep State.noteSets
      dsimp only
      rw [Map.find?_modify]
      split
      · next heq =>
        rw [heq] at hl
        refine ⟨_, by rw [show ((t.dropZero c).zeroSets (physSets c.org.core c.arr c.set)).launches = t.launches from rfl, hl]; rfl, ?_⟩
        split <;> exact hph
      · exact ⟨l, hl, hph⟩) n s h

end Sys2Proof.Machine

/-! Proofs: matrix commands issue (R62, R117, R118, R120). -/

namespace Sys2Proof.Machine

section
variable {s u : State} {i : Instr} {r : GroupRef} {e : Enc} {g : Group} {l : Launch} {n : Ins}

/-- A solo instruction with an active lane runs its effect (R62). -/
theorem runSolo_of_issues (h : Issues s u i r e g l) (hn : frontEnd i = some (r, e, n)) (hm : effMask g e ≠ 0)
    (k : State → Group → Launch → Res) : runSolo s r e n k = k u g l := by
  rw [runSolo, issue_of_issues h hn]
  simp only [beq_iff_eq, hm, if_false]

/-- A launch that takes the engine, or has it. -/
theorem State.takeEngine_spec (s : State) (core launch ctx : Nat) :
    (∃ h, Map.find? (s.takeEngine core launch ctx).mtxHolder core = some h) ∧
      (s.takeEngine core launch ctx).mtx = s.mtx ∧ (s.takeEngine core launch ctx).pool = s.pool ∧
      (s.takeEngine core launch ctx).groups = s.groups ∧ (s.takeEngine core launch ctx).nextId = s.nextId := by
  unfold State.takeEngine
  cases h : Map.find? s.mtxHolder core with
  | some x => exact ⟨⟨x, h⟩, rfl, rfl, rfl, rfl⟩
  | none => exact ⟨⟨launch, Map.find?_put_same _ _ _⟩, rfl, rfl, rfl, rfl⟩

/-- The state with command c queued, before the MZERO commands that may take effect. -/
def State.withMtx (s : State) (core launch ctx : Nat) (c : MtxCmd) : State :=
  let t := s.newId.2.takeEngine core launch ctx
  { t with mtx := t.mtx ++ [c] }

theorem State.withMtx_spec (s : State) (core launch ctx : Nat) (c : MtxCmd) :
    (∃ h, Map.find? (s.withMtx core launch ctx c).mtxHolder core = some h) ∧
      (s.withMtx core launch ctx c).mtx = s.mtx ++ [c] ∧ (s.withMtx core launch ctx c).pool = s.pool ∧
      (s.withMtx core launch ctx c).groups = s.groups ∧ (s.withMtx core launch ctx c).nextId = s.nextId + 1 := by
  obtain ⟨hholder, hmtx, hpool, hgroups, hid⟩ := s.newId.2.takeEngine_spec core launch ctx
  exact ⟨hholder, congrArg (· ++ [c]) hmtx, hpool, hgroups, hid⟩

/-- The command that `queueMtx` queues. -/
def mtxCmdOf (s : State) (r : GroupRef) (e : Enc) (i : Ins) (g : Group) (l : Launch) (kind : MtxKind) (arr set : Nat)
    (ta tb tm : BitVec 128) : MtxCmd := ⟨s.nextId, originOf r g l e i, kind, arr, set, e, ta, tb, tm, none⟩

/-- The state that queueing a command leaves. -/
def State.queued (s : State) (r : GroupRef) (g : Group) (l : Launch) (c : MtxCmd) : State :=
  let t := s.withMtx r.core.toNat g.launch l.ctx c
  t.runZeros t.mtx.length

theorem queueMtx_eq {kind : MtxKind} {arr set : Nat} {ta tb tm : BitVec 128}
    (hw : u.mtxWaits r.core.toNat g.launch arr kind = false) :
    queueMtx u r e n g l kind arr set ta tb tm =
      .next ((u.queued r g l (mtxCmdOf u r e n g l kind arr set ta tb tm)).putGroup r (g.next e)) := by
  unfold queueMtx
  rw [if_neg (by rw [hw]; decide)]
  rfl

theorem State.queued_spec (s : State) (r : GroupRef) (g : Group) (l : Launch) (c : MtxCmd) :
    (∃ h, Map.find? (s.queued r g l c).mtxHolder r.core.toNat = some h) ∧ (s.queued r g l c).nextId = s.nextId + 1 ∧
      (s.queued r g l c).pool = s.pool ∧ (s.queued r g l c).groups = s.groups := by
  obtain ⟨⟨h, hholder⟩, -, hpool, hgroups, hid⟩ := s.withMtx_spec r.core.toNat g.launch l.ctx c
  have hz := zerosOnly_runZeros (s.withMtx r.core.toNat g.launch l.ctx c) (s.withMtx r.core.toNat g.launch l.ctx c).mtx.length
  exact ⟨⟨h, by rw [State.queued, hz.mtxHolder, hholder]⟩, hz.nextId.trans hid, hz.pool.trans hpool, hz.groups.trans hgroups⟩

theorem State.mem_queued (s : State) (r : GroupRef) (g : Group) (l : Launch) {c : MtxCmd} (hk : c.kind ≠ .mzero) :
    c ∈ (s.queued r g l c).mtx := by
  refine State.mem_runZeros _ ?_ hk
  rw [(s.withMtx_spec r.core.toNat g.launch l.ctx c).2.1]
  simp

/-- With no earlier command on its set an MZERO takes effect at once (R118). -/
theorem State.queued_zeroes {c : MtxCmd} {k : Nat} (hk : c.kind = .mzero) (hin : k / 1024 ∈ physSets c.org.core c.arr c.set)
    (hno : ∀ o ∈ s.mtx, o.sameSet c = false) : (s.queued r g l c).accKeyed k = 0 := by
  have hmtx := (s.withMtx_spec r.core.toNat g.launch l.ctx c).2.1
  refine State.runZeros_zeroes hk hin _ _ le_rfl (by rw [hmtx]; simp) ?_
  rw [State.mtxFirst_iff, hmtx]
  intro o ho hlt
  rcases List.mem_append.mp ho with ho | ho
  · simp [hno o ho, hk]
  · rw [List.mem_singleton.mp ho] at hlt
    exact absurd hlt (Nat.lt_irrefl _)

/-- Behind an earlier command of its set an MZERO stays queued (R118). -/
theorem State.queued_waits {c o : MtxCmd} (hk : c.kind = .mzero) (ho : o ∈ s.mtx) (hok : o.kind ≠ .mzero) (hlt : o.id < c.id)
    (hset : o.sameSet c = true) : c ∈ (s.queued r g l c).mtx := by
  have hmtx := (s.withMtx_spec r.core.toNat g.launch l.ctx c).2.1
  exact State.runZeros_waits _ _ (by rw [hmtx]; simp) (by rw [hmtx]; exact List.mem_append_left _ ho) hok hk hlt hset

theorem MtxCmd.sameSet_iff (a b : MtxCmd) : a.sameSet b = true ↔ a.org.core = b.org.core ∧ a.arr = b.arr ∧ a.set = b.set := by
  simp [MtxCmd.sameSet, MtxCmd.sameArr, and_assoc]

/-- A matrix command that has to wait leaves its group where it is. -/
theorem exec_mtx_waits {p : (GroupRef → Enc → Instr) × MtxKind}
    (hp : p ∈ [(Instr.mma, MtxKind.mma), (Instr.mzero, MtxKind.mzero), (Instr.mdrain, MtxKind.mdrain)])
    (h : Issues s u (p.1 r e) r e g l) (hm : effMask g e ≠ 0)
    (hw : u.mtxWaits r.core.toNat g.launch (encF e 32 32) p.2 = true) : exec (p.1 r e) s = .next u := by
  fin_cases hp
  all_goals
    refine (runSolo_of_issues h rfl hm _).trans ?_
    exact if_pos hw

/-- The commands that MMA, MDRAIN and MZERO queue. -/
def mmaCmd (u : State) (r : GroupRef) (e : Enc) (g : Group) (l : Launch) : MtxCmd :=
  mtxCmdOf u r e ⟨0x28, 0, decodeMma (coreKind r.core.toNat) e, []⟩ g l .mma (encF e 32 32) (encF e 33 33) (g.gt (encF e 45 42))
    (g.gt (encF e 41 38)) (mmaTM g e)
def mdrainCmd (u : State) (r : GroupRef) (e : Enc) (g : Group) (l : Launch) : MtxCmd :=
  mtxCmdOf u r e ⟨0x29, 1, decodeTile 1 (coreKind r.core.toNat) e, []⟩ g l .mdrain (encF e 32 32) (encF e 33 33)
    (g.gt (encF e 45 42)) 0 0
def mzeroCmd (u : State) (r : GroupRef) (e : Enc) (g : Group) (l : Launch) : MtxCmd :=
  mtxCmdOf u r e ⟨0x29, 0, decodeTile 0 (coreKind r.core.toNat) e, []⟩ g l .mzero (encF e 32 32) (encF e 33 33) 0 0 0

theorem exec_mma (h : Issues s u (.mma r e) r e g l) (hm : effMask g e ≠ 0) (hf : mmaFault g e r.core.toNat = none)
    (hw : u.mtxWaits r.core.toNat g.launch (encF e 32 32) .mma = false) :
    exec (.mma r e) s = .next ((u.queued r g l (mmaCmd u r e g l)).putGroup r (g.next e)) := by
  refine (runSolo_of_issues h rfl hm _).trans ?_
  rw [if_neg (by rw [hw]; decide), hf]
  exact queueMtx_eq hw

theorem exec_mdrain (h : Issues s u (.mdrain r e) r e g l) (hm : effMask g e ≠ 0) (hf : drainFault g e r.core.toNat = none)
    (hw : u.mtxWaits r.core.toNat g.launch (encF e 32 32) .mdrain = false) :
    exec (.mdrain r e) s = .next ((u.queued r g l (mdrainCmd u r e g l)).putGroup r (g.next e)) := by
  refine (runSolo_of_issues h rfl hm _).trans ?_
  rw [if_neg (by rw [hw]; decide), hf]
  exact queueMtx_eq hw

theorem exec_mzero (h : Issues s u (.mzero r e) r e g l) (hm : effMask g e ≠ 0)
    (hw : u.mtxWaits r.core.toNat g.launch (encF e 32 32) .mzero = false) :
    exec (.mzero r e) s = .next ((u.queued r g l (mzeroCmd u r e g l)).putGroup r (g.next e)) :=
  (runSolo_of_issues h rfl hm _).trans (queueMtx_eq hw)

end

/-- Settles O18: a command that does not wait is queued behind those of its array; an MZERO by `State.queued_zeroes` and
`State.queued_waits`. -/
theorem matrixIssueCompletes : Obligations.matrix_issue_completes := by
  unfold Obligations.matrix_issue_completes
  intro r e s u g l core arr set
  refine ⟨fun p hp => exec_mtx_waits hp, fun h hm hf hw => ?_, fun h hm hf hw => ?_, fun h hm hw => ?_⟩
  · obtain ⟨hholder, hid, hpool, hgroups⟩ := u.queued_spec r g l (mmaCmd u r e g l)
    exact ⟨_, mmaCmd u r e g l, exec_mma h hm hf hw, u.mem_queued r g l (by simp [mmaCmd, mtxCmdOf]), rfl, rfl, rfl, rfl, rfl, rfl, rfl,
      hholder, hid, hpool, hgroups⟩
  · obtain ⟨hholder, hid, hpool, hgroups⟩ := u.queued_spec r g l (mdrainCmd u r e g l)
    exact ⟨_, mdrainCmd u r e g l, exec_mdrain h hm hf hw, u.mem_queued r g l (by simp [mdrainCmd, mtxCmdOf]), rfl, rfl, rfl, rfl, rfl,
      hholder, hid, hpool, hgroups⟩
  · obtain ⟨-, -, hpool, hgroups⟩ := u.queued_spec r g l (mzeroCmd u r e g l)
    refine ⟨_, exec_mzero h hm hw, hpool, hgroups, fun hno i j hi hj => ?_, fun ⟨o, ho, hcore, harr, hset, hlt, hk⟩ => ?_⟩
    · have hzero : (u.queued r g l (mzeroCmd u r e g l)).accKeyed (accKey core arr set i j) = 0 :=
        State.queued_zeroes rfl (accKey_mem_physSets hi hj) fun o ho =>
          Bool.eq_false_iff.mpr fun hs => hno o ho ((MtxCmd.sameSet_iff _ _).mp hs)
      exact congrArg BitVec.toNat hzero
    · exact ⟨_, State.queued_waits rfl ho hk hlt ((MtxCmd.sameSet_iff _ _).mpr ⟨hcore, harr, hset⟩), rfl, rfl⟩

end Sys2Proof.Machine

/-! Proofs: laws of the registers: what a write leaves, and what logging and posting keep (R363, R364, R246). -/

namespace Sys2Proof.Machine

/-! ### Fields of a word -/

theorem testBit_fld (w hi lo i : Nat) : (fld w hi lo).testBit i = (decide (i < hi + 1 - lo) && w.testBit (lo + i)) := by
  unfold fld
  rw [Nat.testBit_mod_two_pow, Nat.testBit_div_two_pow, Nat.add_comm i lo]

theorem testBit_setFld (w hi lo v i : Nat) (h : lo ≤ hi) :
    (setFld w hi lo v).testBit i = if lo ≤ i ∧ i ≤ hi then v.testBit (i - lo) else w.testBit i := by
  have hpow : 2 ^ (hi + 1) = 2 ^ lo * 2 ^ (hi + 1 - lo) := by rw [← pow_add]; congr 1; omega
  have hlow : w % 2 ^ lo < 2 ^ lo := Nat.mod_lt _ (Nat.two_pow_pos _)
  have hmid : v % 2 ^ (hi + 1 - lo) < 2 ^ (hi + 1 - lo) := Nat.mod_lt _ (Nat.two_pow_pos _)
  have hsplit : setFld w hi lo v =
      2 ^ lo * (2 ^ (hi + 1 - lo) * (w / 2 ^ (hi + 1)) + v % 2 ^ (hi + 1 - lo)) + w % 2 ^ lo := by
    unfold setFld
    conv_lhs => rw [show w / 2 ^ (hi + 1) * 2 ^ (hi + 1) = w / 2 ^ (hi + 1) * (2 ^ lo * 2 ^ (hi + 1 - lo)) by rw [hpow]]
    ring
  rw [hsplit, Nat.testBit_two_pow_mul_add _ hlow, Nat.testBit_two_pow_mul_add _ hmid, Nat.testBit_mod_two_pow,
    Nat.testBit_mod_two_pow, Nat.testBit_div_two_pow]
  by_cases h1 : i < lo
  · simp [h1, Nat.not_le.mpr h1]
  · by_cases h2 : i ≤ hi
    · simp [h1, h2, Nat.not_lt.mp h1, show i - lo < hi + 1 - lo by omega]
    · simp [h1, h2, show ¬ i - lo < hi + 1 - lo by omega, show i - lo - (hi + 1 - lo) + (hi + 1) = i by omega]

/-- The field that a write of it leaves. -/
theorem fld_setFld_same (w v : Nat) {hi lo : Nat} (h : lo ≤ hi) : fld (setFld w hi lo v) hi lo = v % 2 ^ (hi + 1 - lo) := by
  apply Nat.eq_of_testBit_eq
  intro i
  rw [testBit_fld, testBit_setFld _ _ _ _ _ h, Nat.testBit_mod_two_pow]
  by_cases hi' : i < hi + 1 - lo
  · simp [hi', show lo + i ≤ hi by omega]
  · simp [hi']

/-- A field that does not overlap the one written keeps its value. -/
theorem fld_setFld_other (w v : Nat) {hi lo hi' lo' : Nat} (h : lo ≤ hi) (hd : hi' < lo ∨ hi < lo') :
    fld (setFld w hi lo v) hi' lo' = fld w hi' lo' := by
  apply Nat.eq_of_testBit_eq
  intro i
  rw [testBit_fld, testBit_fld, testBit_setFld _ _ _ _ _ h]
  by_cases hi' : i < hi' + 1 - lo'
  · simp [hi', show ¬ (lo ≤ lo' + i ∧ lo' + i ≤ hi) by omega]
  · simp [hi']

/-! ### Registers -/

theorem Map.find?_putD {α : Type} [DecidableEq α] (m : Map α) (i j : Nat) (d a : α) :
    Map.find? (Map.putD m i d a) j = if j = i then (if a = d then none else some a) else Map.find? m j := by
  unfold Map.putD
  by_cases h : a = d
  · rw [if_pos h, Map.find?_drop, if_pos h]
  · rw [if_neg h, Map.find?_put, if_neg h]

@[simp] theorem State.reg_setReg_same (s : State) (r : Reg) (v : Nat) : (s.setReg r v).reg r = v := by
  simp [State.reg, State.setReg]

theorem State.reg_setReg_of_ne (s : State) {r r' : Reg} (v : Nat) (h : r'.key ≠ r.key) : (s.setReg r v).reg r' = s.reg r' := by
  unfold State.reg State.setReg Map.getD
  rw [Map.find?_putD, if_neg h]

theorem State.reg_congr {s t : State} (h : t.regs = s.regs) (r : Reg) : t.reg r = s.reg r := by
  unfold State.reg
  rw [h]

theorem State.rf_congr {s t : State} {r : Reg} (h : t.reg r = s.reg r) (hi lo : Nat) : t.rf r hi lo = s.rf r hi lo := by
  unfold State.rf
  rw [h]

theorem State.rf_setRf_same (s : State) (r : Reg) (v : Nat) {hi lo : Nat} (h : lo ≤ hi) :
    (s.setRf r hi lo v).rf r hi lo = v % 2 ^ (hi + 1 - lo) := by
  unfold State.rf State.setRf
  rw [State.reg_setReg_same, fld_setFld_same _ _ h]

theorem State.rf_setRf_other (s : State) (r : Reg) (v : Nat) {hi lo hi' lo' : Nat} (h : lo ≤ hi) (hd : hi' < lo ∨ hi < lo') :
    (s.setRf r hi lo v).rf r hi' lo' = s.rf r hi' lo' := by
  unfold State.rf State.setRf
  rw [State.reg_setReg_same, fld_setFld_other _ _ h hd]

theorem State.reg_setRf_of_ne (s : State) {r r' : Reg} (hi lo v : Nat) (h : r'.key ≠ r.key) :
    (s.setRf r hi lo v).reg r' = s.reg r' := State.reg_setReg_of_ne s _ h

/-! ### What logging and posting write -/

theorem regs_hostWrite (s : State) (k : Nat) (bs : List Byte) : (s.hostWrite k bs).regs = s.regs := by
  induction bs generalizing s k with
  | nil => rfl
  | cons b bs ih => exact ih _ _

theorem regs_fire (s : State) (fn vec : Nat) : (s.fire fn vec).regs = s.regs := by
  unfold State.fire
  dsimp only
  split <;> rfl

/-- The registers of the RAS log that an entry may write (R363, R364). -/
def rasKeys : List Nat := [Reg.key .rasStoreSeq, Reg.key .rasLost, Reg.key .rasRingTail]

theorem State.reg_rasPost (s : State) (e : RasEntry) {r : Reg} (h : r.key ∉ rasKeys) : (s.rasPost e).reg r = s.reg r := by
  simp only [rasKeys, List.mem_cons, List.not_mem_nil, or_false, not_or] at h
  obtain ⟨-, hlost, htail⟩ := h
  unfold State.rasPost
  dsimp only
  split
  · split
    · exact State.reg_setReg_of_ne s _ hlost
    · rw [State.reg_congr (regs_fire _ _ _), State.reg_setReg_of_ne _ _ htail, State.reg_congr (regs_hostWrite _ _ _)]
  · rfl

/-- Logging keeps every register but those of the log. -/
theorem State.reg_ras (s : State) (e : RasEntry) {r : Reg} (h : r.key ∉ rasKeys) : (s.ras_ e).reg r = s.reg r := by
  have hk := h
  simp only [rasKeys, List.mem_cons, List.not_mem_nil, or_false, not_or] at hk
  obtain ⟨hseq, hlost, -⟩ := hk
  unfold State.ras_
  split
  · rfl
  · dsimp only
    split
    · rw [State.reg_rasPost _ _ h, State.reg_setReg_of_ne _ _ hseq]
      rfl
    · split
      · rw [State.reg_rasPost _ _ h, State.reg_setReg_of_ne _ _ hseq]
        rfl
      · exact State.reg_setReg_of_ne s _ hlost

/-- Posting a record keeps every register but those of its ring (R246, R248). -/
theorem State.reg_post (s : State) (p : Nat) (ws : List Word) {r : Reg} (hlost : r.key ≠ Reg.key (.xltFringLost p))
    (htail : r.key ≠ Reg.key (.xltFringTail p)) : (s.post p ws).1.reg r = s.reg r := by
  have hlose : (s.fringLose p).reg r = s.reg r := State.reg_setReg_of_ne s _ hlost
  unfold State.post
  split
  · exact hlose
  · split
    · dsimp only
      split
      · rfl
      · exact hlose
    · unfold State.fringWrite
      dsimp only
      rw [State.reg_congr (regs_fire _ _ _), State.reg_setReg_of_ne _ _ htail, State.reg_congr (regs_hostWrite _ _ _)]

end Sys2Proof.Machine

/-! Proofs: MMA and MDRAIN complete (R112, R117, R119, R123, R124, R127). -/

namespace Sys2Proof.Machine

/-! ### The end of a launch (R71) -/

/-- `t` is `s` but for what ending launches may write. -/
def EndsOnly (s t : State) : Prop :=
  t = { s with launches := t.launches, switching := t.switching, dma := t.dma, groups := t.groups, failed := t.failed }

theorem EndsOnly.refl (s : State) : EndsOnly s s := rfl
theorem EndsOnly.trans {s t u : State} (h : EndsOnly s t) (k : EndsOnly t u) : EndsOnly s u := by
  unfold EndsOnly at *
  rw [k, h]
theorem EndsOnly.pool {s t : State} (h : EndsOnly s t) : t.pool = s.pool := by rw [h]
theorem EndsOnly.regs {s t : State} (h : EndsOnly s t) : t.regs = s.regs := by rw [h]
theorem EndsOnly.mtx {s t : State} (h : EndsOnly s t) : t.mtx = s.mtx := by rw [h]

theorem endsOnly_failLaunch (s : State) (k st : Nat) : EndsOnly s (s.failLaunch k st) := by
  unfold State.failLaunch
  split
  · exact EndsOnly.refl s
  · split <;> rfl

/-- Launch k fails. -/
def Failing (s : State) (k : Nat) : Prop := ∃ l, Map.find? s.launches k = some l ∧ l.phase = .failing

theorem Failing.of_launches {s t : State} {k : Nat} (h : Failing s k) (he : t.launches = s.launches) : Failing t k := by
  unfold Failing
  rw [he]
  exact h

theorem State.failLaunch_failing {s : State} {k st : Nat} (h : ∃ l, Map.find? s.launches k = some l) :
    Failing (s.failLaunch k st) k := by
  obtain ⟨l, hl⟩ := h
  unfold State.failLaunch
  rw [hl]
  dsimp only
  split
  · next hf => exact ⟨l, hl, by simpa using hf⟩
  · exact ⟨_, Map.find?_put_same _ _ _, rfl⟩

theorem Failing.failLaunch {s : State} {k : Nat} (h : Failing s k) (j st : Nat) : Failing (s.failLaunch j st) k := by
  by_cases hj : k = j
  · subst hj
    exact State.failLaunch_failing (h.imp fun _ hl => hl.1)
  · unfold State.failLaunch
    split
    · exact h
    · split
      · exact h
      · obtain ⟨l, hl, hp⟩ := h
        refine ⟨l, ?_, hp⟩
        show Map.find? (Map.put s.launches j _) k = some l
        rw [Map.find?_put_other _ _ hj, hl]

theorem foldl_failLaunch {p : State → Prop} (hp : ∀ u j, p u → p (u.failLaunch j 2)) (js : List Nat) (s : State) (hs : p s) :
    p (js.foldl (fun t l => t.failLaunch l 2) s) := by
  induction js generalizing s with
  | nil => exact hs
  | cons j js ih => exact ih _ (hp s j hs)

theorem endsOnly_failCtx (s : State) (ctx : Nat) : EndsOnly s (s.failCtx ctx) :=
  foldl_failLaunch (p := EndsOnly s) (fun u j h => h.trans (endsOnly_failLaunch u j 2)) _ _ rfl

theorem Failing.failCtx {s : State} {k : Nat} (h : Failing s k) (ctx : Nat) : Failing (s.failCtx ctx) k :=
  foldl_failLaunch (p := fun t => Failing t k) (fun _ j h => h.failLaunch j 2) _ _ (h.of_launches rfl)

theorem failed_failLaunch (s : State) (k st : Nat) : (s.failLaunch k st).failed = s.failed := by
  unfold State.failLaunch
  split
  · rfl
  · split <;> rfl

theorem State.mem_failed_failCtx (s : State) (ctx : Nat) : ctx ∈ (s.failCtx ctx).failed :=
  foldl_failLaunch (p := fun t => ctx ∈ t.failed) (fun u j h => by rw [failed_failLaunch]; exact h) _ _ (by simp)

/-! ### A matrix command fails (R124) -/

/-- The record, and the launch ended. -/
def State.mtxEnd (s : State) (c : MtxCmd) (code cols addr : Nat) : State :=
  let l := c.org.launch.getD 0
  let t := { s with mtx := s.mtx.filter (fun o => !(o.org.of l)) }
  (t.post c.org.part (mtxRecord c code cols addr (t.dieTime (coreDie c.org.core)))).1.failLaunch l 2

/-- A failure by poison is logged and fails the context. -/
def State.mtxPoisoned (s : State) (c : MtxCmd) : State :=
  (s.ras_ { rasOf 0x03 2 (coreDie c.org.core) 0x03 c.org.core 1 with
    part := c.org.part, core := c.org.core, ctx := c.org.ctx }).failCtx c.org.ctx

theorem State.mtxFail_poison (s : State) (c : MtxCmd) (cols addr : Nat) :
    s.mtxFail c 1 cols addr =
      ((s.mtxEnd c 1 cols addr).mtxPoisoned c).runZeros ((s.mtxEnd c 1 cols addr).mtxPoisoned c).mtx.length := rfl

theorem State.mtxFail_residue (s : State) (c : MtxCmd) (cols addr : Nat) :
    s.mtxFail c 2 cols addr = (s.mtxEnd c 2 cols addr).runZeros (s.mtxEnd c 2 cols addr).mtx.length := rfl

section
variable {s : State} {c : MtxCmd} {code cols addr : Nat}

theorem State.mtxEnd_failing (h : ∃ l, Map.find? s.launches (c.org.launch.getD 0) = some l) :
    Failing (s.mtxEnd c code cols addr) (c.org.launch.getD 0) :=
  State.failLaunch_failing (h.imp fun l hl => by rw [(logsOnly_post _ _ _).launches]; exact hl)

theorem State.mtxEnd_pool : (s.mtxEnd c code cols addr).pool = s.pool :=
  (endsOnly_failLaunch _ _ _).pool.trans (logsOnly_post _ _ _).pool

theorem State.mtxEnd_reg {r : Reg} (hlost : r.key ≠ Reg.key (.xltFringLost c.org.part))
    (htail : r.key ≠ Reg.key (.xltFringTail c.org.part)) : (s.mtxEnd c code cols addr).reg r = s.reg r :=
  (State.reg_congr (endsOnly_failLaunch _ _ _).regs r).trans (State.reg_post _ _ _ hlost htail)

theorem State.mtxPoisoned_pool : (s.mtxPoisoned c).pool = s.pool := (endsOnly_failCtx _ _).pool.trans (logsOnly_ras _ _).pool

theorem State.mtxPoisoned_failing {k : Nat} (h : Failing s k) : Failing (s.mtxPoisoned c) k :=
  (h.of_launches (logsOnly_ras _ _).launches).failCtx _

theorem State.mtxPoisoned_failed : c.org.ctx ∈ (s.mtxPoisoned c).failed := State.mem_failed_failCtx _ _

end

/-! ### MMA_COMPLETE -/

section
variable {s : State} {c : MtxCmd} {id : Nat}

theorem State.clocked_of (h : s.tripped = false) (act : Res) : s.clocked act = act := by
  unfold State.clocked
  rw [h]
  rfl

theorem exec_mmaComplete (hc : s.mtx.find? (fun o => o.id == id && o.kind == .mma) = some c) (ht : s.tripped = false)
    (hf : s.mtxFirst c = true) (hh : s.cmdHeld c.org.core id c.ranges = false) :
    exec (.mmaComplete id) s = match s.mmaPoison c with
      | [] => .next ((((s.readDrains c).mmaApply c).dropMtx id).runZeros (((s.readDrains c).mmaApply c).dropMtx id).mtx.length)
      | ps =>
        let cols := ps.foldl (fun a p => a ||| p.cols) 0
        let secs := ps.flatMap (fun p => (List.range p.len).filterMap (fun j =>
          if (s.poolRead c.org.core (p.off + j) 1).2 then some ((p.off + j) / 32 * 32) else none))
        .next (s.mtxFail c 1 cols (secs.foldl min (secs.headD 0))) := by
  refine (State.clocked_of ht _).trans ?_
  rw [hc]
  dsimp only
  rw [hf, hh]
  rfl

/-- One row of the elements that an MMA writes. -/
def State.mmaRow (s t : State) (c : MtxCmd) (i n : Nat) : State :=
  (List.range n).foldl (fun (t : State) j =>
    { t with acc := Map.putD t.acc (accKey c.org.core c.arr c.set i j) 0
                      (BitVec.ofNat 32 (s.mmaElem c i j (t.accAt c.org.core c.arr c.set i j))) }) t

/-- The elements that an MMA writes, row after row. -/
def State.mmaRows (s t : State) (c : MtxCmd) (m n : Nat) : State := (List.range m).foldl (fun t i => s.mmaRow t c i n) t

theorem State.mmaRow_succ (s t : State) (c : MtxCmd) (i n : Nat) :
    s.mmaRow t c i (n + 1) =
      { s.mmaRow t c i n with
        acc := Map.putD (s.mmaRow t c i n).acc (accKey c.org.core c.arr c.set i n) 0
          (BitVec.ofNat 32 (s.mmaElem c i n ((s.mmaRow t c i n).accAt c.org.core c.arr c.set i n))) } := by
  unfold State.mmaRow
  rw [List.range_succ, List.foldl_append]
  rfl

theorem State.mmaRows_succ (s t : State) (c : MtxCmd) (m n : Nat) : s.mmaRows t c (m + 1) n = s.mmaRow (s.mmaRows t c m n) c m n := by
  unfold State.mmaRows
  rw [List.range_succ, List.foldl_append]
  rfl

theorem State.mmaRow_only (s t : State) (c : MtxCmd) (i n : Nat) : s.mmaRow t c i n = { t with acc := (s.mmaRow t c i n).acc } := by
  induction n with
  | zero => rfl
  | succ n ih =>
    rw [State.mmaRow_succ, ih]

theorem State.mmaRows_only (s t : State) (c : MtxCmd) (m n : Nat) : s.mmaRows t c m n = { t with acc := (s.mmaRows t c m n).acc } := by
  induction m with
  | zero => rfl
  | succ m ih =>
    rw [State.mmaRows_succ, State.mmaRow_only, ih]

/-- The elements of a row: those written hold the sum over their value before, every other key its own. -/
theorem State.mmaRow_acc (s t : State) (c : MtxCmd) (i n : Nat) (hn : n ≤ mtxCols c.org.core) :
    (∀ j, j < n → (s.mmaRow t c i n).accAt c.org.core c.arr c.set i j =
      s.mmaElem c i j (t.accAt c.org.core c.arr c.set i j) % 2 ^ 32) ∧
    ∀ k, (∀ j, j < n → k ≠ accKey c.org.core c.arr c.set i j) → (s.mmaRow t c i n).accKeyed k = t.accKeyed k := by
  induction n with
  | zero => exact ⟨fun j hj => absurd hj (Nat.not_lt_zero j), fun k _ => rfl⟩
  | succ n ih =>
    obtain ⟨hin, hout⟩ := ih (by omega)
    have hkey : ∀ j, j < n → accKey c.org.core c.arr c.set i j ≠ accKey c.org.core c.arr c.set i n := fun j hj he => by
      have := (accKey_inj (by omega) (by omega) he).2
      omega
    have hread : ∀ k, (s.mmaRow t c i (n + 1)).accKeyed k = if k = accKey c.org.core c.arr c.set i n
        then BitVec.ofNat 32 (s.mmaElem c i n ((s.mmaRow t c i n).accAt c.org.core c.arr c.set i n))
        else (s.mmaRow t c i n).accKeyed k := fun k => by
      rw [State.mmaRow_succ]
      exact Map.getD_putD _ _ _ _ _
    have hold : (s.mmaRow t c i n).accKeyed (accKey c.org.core c.arr c.set i n) = t.accKeyed (accKey c.org.core c.arr c.set i n) :=
      hout _ fun j hj => (hkey j hj).symm
    refine ⟨fun j hj => ?_, fun k hk => ?_⟩
    · show ((s.mmaRow t c i (n + 1)).accKeyed (accKey c.org.core c.arr c.set i j)).toNat = _
      rw [hread]
      by_cases hjn : j = n
      · subst hjn
        rw [if_pos rfl, BitVec.toNat_ofNat]
        exact congrArg (fun x : Half => s.mmaElem c i j x.toNat % 2 ^ 32) hold
      · rw [if_neg (hkey j (by omega))]
        exact hin j (by omega)
    · rw [hread, if_neg (hk n (by omega))]
      exact hout k fun j hj => hk j (by omega)

theorem State.mmaRows_acc (s t : State) (c : MtxCmd) (m n : Nat) (hn : n ≤ mtxCols c.org.core) :
    (∀ i j, i < m → j < n → (s.mmaRows t c m n).accAt c.org.core c.arr c.set i j =
      s.mmaElem c i j (t.accAt c.org.core c.arr c.set i j) % 2 ^ 32) ∧
    ∀ k, (∀ i j, i < m → j < n → k ≠ accKey c.org.core c.arr c.set i j) → (s.mmaRows t c m n).accKeyed k = t.accKeyed k := by
  induction m with
  | zero => exact ⟨fun i j hi => absurd hi (Nat.not_lt_zero i), fun k _ => rfl⟩
  | succ m ih =>
    obtain ⟨hin, hout⟩ := ih
    obtain ⟨hrow, hother⟩ := State.mmaRow_acc s (s.mmaRows t c m n) c m n hn
    have hkey : ∀ i j j', i ≠ m → j < n → j' < n → accKey c.org.core c.arr c.set i j ≠ accKey c.org.core c.arr c.set m j' :=
      fun i j j' hi hj hj' he => hi (accKey_inj (by omega) (by omega) he).1
    rw [State.mmaRows_succ]
    refine ⟨fun i j hi hj => ?_, fun k hk => ?_⟩
    · by_cases him : i = m
      · subst him
        rw [hrow j hj]
        exact congrArg (fun x : Half => s.mmaElem c i j x.toNat % 2 ^ 32)
          (hout _ fun i' j' hi' hj' => (hkey i' j' j (by omega) hj' hj).symm)
      · refine Eq.trans (congrArg BitVec.toNat (hother _ fun j' hj' => hkey i j j' him hj hj')) (hin i j (by omega) hj)
    · rw [hother k fun j hj => hk m j (by omega) hj]
      exact hout k fun i j hi hj => hk i j (by omega) hj

/-- The accumulators before the elements of an MMA: CLR sets its set to +0. -/
def State.mmaBase (s : State) (c : MtxCmd) : State := if c.clr then s.zeroSets (physSets c.org.core c.arr c.set) else s

theorem State.mmaApply_eq (s : State) (c : MtxCmd) :
    s.mmaApply c = (s.mmaRows (s.mmaBase c) c (tdRows c.ta) (tdRows c.tb)).noteSets (physSets c.org.core c.arr c.set) c.org.launch
      c.org.ctx := rfl

theorem State.mmaElem_readDrains (s : State) (c : MtxCmd) (i j a : Nat) : (s.readDrains c).mmaElem c i j a = s.mmaElem c i j a := rfl

/-- The commands that an MMA leaves: those of before but its own, with what their drains have read. -/
theorem State.mem_mtx_mmaApply {o : MtxCmd} (h : o ∈ (((s.readDrains c).mmaApply c).dropMtx id).mtx) :
    o.id ≠ id ∧ ∃ x ∈ s.mtx, o.kind = x.kind ∧ o.org = x.org ∧ o.arr = x.arr ∧ o.set = x.set := by
  have hmtx : ((s.readDrains c).mmaApply c).mtx = (s.readDrains c).mtx := by
    rw [State.mmaApply_eq]
    show (State.mmaRows _ _ _ _ _).mtx = _
    rw [State.mmaRows_only]
    unfold State.mmaBase
    split <;> rfl
  obtain ⟨hm, hid⟩ := List.mem_filter.mp h
  rw [hmtx] at hm
  obtain ⟨x, hx, rfl⟩ := List.mem_map.mp hm
  refine ⟨by simpa using hid, x, hx, ?_⟩
  split <;> exact ⟨rfl, rfl, rfl, rfl⟩

/-- What an MMA leaves of pools and groups. -/
theorem State.mmaApply_frame (s : State) (c : MtxCmd) :
    ((s.mmaApply c).dropMtx id).pool = s.pool ∧ ((s.mmaApply c).dropMtx id).groups = s.groups := by
  have h : (s.mmaBase c).pool = s.pool ∧ (s.mmaBase c).groups = s.groups := by
    unfold State.mmaBase
    split <;> exact ⟨rfl, rfl⟩
  have hrows := State.mmaRows_only s (s.mmaBase c) c (tdRows c.ta) (tdRows c.tb)
  exact ⟨(congrArg State.pool hrows).trans h.1, (congrArg State.groups hrows).trans h.2⟩

theorem State.mmaBase_acc (s : State) (c : MtxCmd) {i j : Nat} (hi : i < mtxRows c.org.core) (hj : j < mtxCols c.org.core) :
    (s.mmaBase c).accAt c.org.core c.arr c.set i j = if c.clr then 0 else s.accAt c.org.core c.arr c.set i j := by
  unfold State.mmaBase
  split
  · show ((s.zeroSets _).accKeyed _).toNat = 0
    rw [State.accKeyed_zeroSets, if_pos (accKey_mem_physSets hi hj)]
    rfl
  · rfl

/-- MMA_COMPLETE without poison (R112). -/
theorem mmaComplete_clean (hc : s.mtx.find? (fun o => o.id == id && o.kind == .mma) = some c) (ht : s.tripped = false)
    (hf : s.mtxFirst c = true) (hh : s.cmdHeld c.org.core id c.ranges = false) (hp : s.mmaPoison c = [])
    (hz : ∀ o ∈ s.mtx, o.kind = .mzero → ∀ p ∈ physSets o.org.core o.arr o.set, p ∉ physSets c.org.core c.arr c.set)
    (hm : tdRows c.ta ≤ mtxRows c.org.core) (hn : tdRows c.tb ≤ mtxCols c.org.core) :
    ∃ t : State, exec (.mmaComplete id) s = .next t ∧ (∀ o ∈ t.mtx, o.id ≠ id) ∧ t.pool = s.pool ∧ t.groups = s.groups ∧
      ∀ i j, i < tdRows c.ta → j < tdRows c.tb → t.accAt c.org.core c.arr c.set i j =
        s.mmaElem c i j (if c.clr then 0 else s.accAt c.org.core c.arr c.set i j) % 2 ^ 32 := by
  obtain ⟨hpool, hgroups⟩ := State.mmaApply_frame (id := id) (s.readDrains c) c
  have hzeros := zerosOnly_runZeros (((s.readDrains c).mmaApply c).dropMtx id) (((s.readDrains c).mmaApply c).dropMtx id).mtx.length
  refine ⟨_, by rw [exec_mmaComplete hc ht hf hh, hp], fun o ho => (State.mem_mtx_mmaApply (State.mem_of_mem_runZeros ho)).1,
    hzeros.pool.trans hpool, hzeros.groups.trans hgroups, fun i j hi hj => ?_⟩
  have hkeep := State.runZeros_accKeyed (s := ((s.readDrains c).mmaApply c).dropMtx id) (k := accKey c.org.core c.arr c.set i j)
    (((s.readDrains c).mmaApply c).dropMtx id).mtx.length fun o ho hk hin => by
      obtain ⟨-, x, hx, hxk, hxo, hxa, hxs⟩ := State.mem_mtx_mmaApply ho
      rw [hxo, hxa, hxs] at hin
      exact hz x hx (hxk ▸ hk) _ hin (accKey_mem_physSets (by omega) (by omega))
  refine (congrArg BitVec.toNat hkeep).trans (((s.readDrains c).mmaRows_acc ((s.readDrains c).mmaBase c) c _ _ hn).1 i j hi hj |>.trans ?_)
  rw [State.mmaBase_acc _ _ (by omega) (by omega), State.mmaElem_readDrains]
  rfl

/-- MMA_COMPLETE that consumes poison (R123, R124). -/
theorem mmaComplete_poison (hc : s.mtx.find? (fun o => o.id == id && o.kind == .mma) = some c) (ht : s.tripped = false)
    (hf : s.mtxFirst c = true) (hh : s.cmdHeld c.org.core id c.ranges = false) (hp : s.mmaPoison c ≠ [])
    (hl : ∃ l, Map.find? s.launches (c.org.launch.getD 0) = some l) :
    ∃ t : State, exec (.mmaComplete id) s = .next t ∧ Failing t (c.org.launch.getD 0) ∧ c.org.ctx ∈ t.failed ∧ t.pool = s.pool := by
  obtain ⟨x, xs, hx⟩ := List.exists_cons_of_ne_nil hp
  rw [exec_mmaComplete hc ht hf hh, hx]
  dsimp only
  refine ⟨_, rfl, ?_⟩
  rw [State.mtxFail_poison]
  have hzeros := fun t : State => zerosOnly_runZeros t t.mtx.length
  exact ⟨State.runZeros_phase _ (State.mtxPoisoned_failing (State.mtxEnd_failing hl)),
    by rw [(hzeros _).failed]; exact State.mtxPoisoned_failed,
    (hzeros _).pool.trans (State.mtxPoisoned_pool.trans State.mtxEnd_pool)⟩

end

/-! ### MDRAIN_COMPLETE -/

theorem lastByte_append {as bs : List Loc} {xs ys : List Byte} (h : as.length = xs.length) (l : Loc) :
    lastByte (as ++ bs) (xs ++ ys) l = (lastByte bs ys l).or (lastByte as xs l) := by
  induction as generalizing xs with
  | nil =>
    obtain rfl := List.length_eq_zero_iff.mp h.symm
    simp [lastByte_nil]
  | cons a as ih =>
    cases xs with
    | nil => cases h
    | cons x xs =>
      rw [List.cons_append, List.cons_append, lastByte_cons, lastByte_cons, ih (Nat.succ_inj.mp h), Option.or_assoc]

theorem length_poolLocs (core off n : Nat) : (poolLocs core off n).length = n := by simp [poolLocs]

/-- A write to a pool leaves every Heap as it is. -/
theorem State.heap_poolWrite (s : State) (core off : Nat) (bs : List Byte) : (s.poolWrite core off bs).heap = s.heap := by
  have h : ∀ (is : List Nat) (bs : List Byte) (s : State), 
      (s.writeAll 0 (is.map (fun i => .pool (poolKey core (off + i)))) bs).heap = s.heap := by
    intro is
    induction is with
    | nil => exact fun _ _ => rfl
    | cons i is ih =>
      intro bs s
      cases bs with
      | nil => rfl
      | cons b bs => exact ih bs _
  unfold State.poolWrite State.writeLocs
  dsimp only
  rw [(logsOnly_discardNote _ _).heap]
  exact h _ _ _

/-- Writes to a core's pool, one after another. -/
def State.poolWrites (s : State) (core : Nat) (ws : List (Nat × List Byte)) : State :=
  ws.foldl (fun (t : State) w => t.poolWrite core w.1 w.2) s

theorem State.poolWrites_frame (s : State) (core : Nat) (ws : List (Nat × List Byte)) :
    WritesOnly s (s.poolWrites core ws) ∧ (s.poolWrites core ws).heap = s.heap := by
  induction ws generalizing s with
  | nil => exact ⟨WritesOnly.refl s, rfl⟩
  | cons w ws ih =>
    obtain ⟨hw, hh⟩ := ih (s.poolWrite core w.1 w.2)
    exact ⟨(writesOnly_writeLocs _ _ _ _).trans hw, hh.trans (s.heap_poolWrite _ _ _)⟩

theorem State.poolWrites_read (s : State) (core : Nat) (ws : List (Nat × List Byte)) (k : Nat) :
    (s.poolWrites core ws).pool.read k =
      (lastByte (ws.flatMap (fun w => poolLocs core w.1 w.2.length)) (ws.flatMap (fun w => w.2)) (.pool k)).getD (s.pool.read k) := by
  induction ws generalizing s with
  | nil => rfl
  | cons w ws ih =>
    rw [List.flatMap_cons, List.flatMap_cons, lastByte_append (length_poolLocs _ _ _)]
    refine (ih (s.poolWrite core w.1 w.2)).trans ?_
    rw [(wrote_writeLocs s 0 (poolLocs core w.1 w.2.length) w.2).pool k |> fun h => (h : (s.poolWrite core w.1 w.2).pool.read k = _)]
    cases lastByte (ws.flatMap (fun w => poolLocs core w.1 w.2.length)) (ws.flatMap (fun w => w.2)) (.pool k) <;> rfl

section
variable {s : State} {c : MtxCmd} {id : Nat} {bad : BitVec 512}

theorem exec_mdrainComplete (hc : s.mtx.find? (fun o => o.id == id && o.kind == .mdrain) = some c) (ht : s.tripped = false)
    (hf : s.mtxFirst c = true) (hh : s.cmdHeld c.org.core id c.ranges = false) :
    exec (.mdrainComplete id bad) s = match drainBad c bad with
      | [] =>
        let t := (s.dropMtx id).poolWrites c.org.core ((List.range (tdRows c.ta)).flatMap (s.drainRow c))
        .next (t.runZeros t.mtx.length)
      | x :: xs => .next ((s.noteResidue c x).mtxFail c 2 (badCols c (x :: xs)) 0) := by
  refine (State.clocked_of ht _).trans ?_
  rw [hc]
  dsimp only
  rw [hf, hh]
  rfl

/-- MDRAIN_COMPLETE with every column good (R119). -/
theorem mdrainComplete_good (hc : s.mtx.find? (fun o => o.id == id && o.kind == .mdrain) = some c) (ht : s.tripped = false)
    (hf : s.mtxFirst c = true) (hh : s.cmdHeld c.org.core id c.ranges = false) (hb : drainBad c bad = []) :
    let ws := (List.range (tdRows c.ta)).flatMap (s.drainRow c)
    ∃ t : State, exec (.mdrainComplete id bad) s = .next t ∧ (∀ o ∈ t.mtx, o.id ≠ id) ∧ t.heap = s.heap ∧
      t.groups = s.groups ∧ ((∀ o ∈ s.mtx, o.kind ≠ .mzero) → t.acc = s.acc) ∧
      ∀ k, t.pool.read k =
        (lastByte (ws.flatMap (fun w => poolLocs c.org.core w.1 w.2.length)) (ws.flatMap (fun w => w.2)) (.pool k)).getD
          (s.pool.read k) := by
  intro ws
  obtain ⟨hw, hheap⟩ := (s.dropMtx id).poolWrites_frame c.org.core ws
  have hmtx : ((s.dropMtx id).poolWrites c.org.core ws).mtx = (s.dropMtx id).mtx := by rw [hw]
  have hacc : ((s.dropMtx id).poolWrites c.org.core ws).acc = s.acc := by rw [hw]; rfl
  have hzeros := zerosOnly_runZeros ((s.dropMtx id).poolWrites c.org.core ws) ((s.dropMtx id).poolWrites c.org.core ws).mtx.length
  refine ⟨_, by rw [exec_mdrainComplete hc ht hf hh, hb], fun o ho => ?_, hzeros.heap.trans hheap, hzeros.groups.trans hw.groups,
    fun hno => ?_, fun k => ?_⟩
  · have := State.mem_of_mem_runZeros ho
    rw [hmtx] at this
    simpa using (List.mem_filter.mp this).2
  · rw [State.runZeros_acc _ fun o ho => hno o (List.mem_filter.mp (hmtx ▸ ho)).1, hacc]
  · rw [hzeros.pool]
    exact State.poolWrites_read _ _ _ k

/-- Where in BSN_MTX_ERR a mismatch stands, and what a residue note leaves there (Table 07-6). -/
theorem State.noteResidue_count (s : State) (c : MtxCmd) (x : Nat × Nat × Nat) (hx : x.1 < 4 ∧ x.2.1 < 2 ∧ x.2.2 < 64) (hset : c.set < 2) :
    (s.noteResidue c x).rf (.bsnMtxErr (coreBasin c.org.core)) 31 24 = satInc 8 (s.rf (.bsnMtxErr (coreBasin c.org.core)) 31 24) := by
  have hkey : Reg.key (.bsnMtxErr (coreBasin c.org.core)) ∉ rasKeys := by
    simp only [rasKeys, Reg.key, panBase, List.mem_cons, List.not_mem_nil, or_false]
    omega
  unfold State.noteResidue
  dsimp only
  rw [State.rf_congr (State.reg_ras _ _ hkey)]
  unfold State.rf
  rw [State.reg_setReg_same]
  generalize fld (s.reg (.bsnMtxErr (coreBasin c.org.core))) 31 24 = v
  have hn : satInc 8 v < 256 := by
    unfold satInc
    split <;> omega
  generalize satInc 8 v = n at hn
  unfold fld
  obtain ⟨h1, h2, h3⟩ := hx
  omega

theorem mem_drainBad {x : Nat × Nat × Nat} (h : x ∈ drainBad c bad) : x.1 < 4 ∧ x.2.1 < 2 ∧ x.2.2 < 64 := by
  unfold drainBad at h
  simp only [List.mem_flatMap, List.mem_range, List.mem_filterMap, Option.ite_none_right_eq_some, Option.some.injEq] at h
  obtain ⟨col, hcol, slot, hslot, a, ha, -, rfl⟩ := h
  exact ⟨hslot, ha, hcol⟩

/-- MDRAIN_COMPLETE with a failing column (R127). -/
theorem mdrainComplete_bad (hc : s.mtx.find? (fun o => o.id == id && o.kind == .mdrain) = some c) (ht : s.tripped = false)
    (hf : s.mtxFirst c = true) (hh : s.cmdHeld c.org.core id c.ranges = false) (hb : drainBad c bad ≠ []) (hset : c.set < 2)
    (hl : ∃ l, Map.find? s.launches (c.org.launch.getD 0) = some l) :
    ∃ t : State, exec (.mdrainComplete id bad) s = .next t ∧ Failing t (c.org.launch.getD 0) ∧ t.pool = s.pool ∧
      t.rf (.bsnMtxErr (coreBasin c.org.core)) 31 24 = satInc 8 (s.rf (.bsnMtxErr (coreBasin c.org.core)) 31 24) := by
  obtain ⟨x, xs, hx⟩ := List.exists_cons_of_ne_nil hb
  have hlogs : LogsOnly s (s.noteResidue c x) := (logsOnly_setReg s _ _).trans (logsOnly_ras _ _)
  rw [exec_mdrainComplete hc ht hf hh, hx]
  dsimp only
  refine ⟨_, rfl, ?_⟩
  rw [State.mtxFail_residue]
  have hzeros := zerosOnly_runZeros ((s.noteResidue c x).mtxEnd c 2 (badCols c (x :: xs)) 0)
    ((s.noteResidue c x).mtxEnd c 2 (badCols c (x :: xs)) 0).mtx.length
  refine ⟨State.runZeros_phase _ (State.mtxEnd_failing (hl.imp fun l hl => by rw [hlogs.launches]; exact hl)),
    hzeros.pool.trans (State.mtxEnd_pool.trans hlogs.pool), ?_⟩
  rw [State.rf_congr (State.reg_congr hzeros.regs _), State.rf_congr (State.mtxEnd_reg ?_ ?_)]
  · exact s.noteResidue_count c x (mem_drainBad (hx ▸ List.mem_cons_self)) hset
  all_goals
    simp only [Reg.key, panBase]
    omega

end

/-- Settles O19: the elements by `State.mmaRows_acc`, the drained bytes by `State.poolWrites_read`. -/
theorem matrixProductsComplete : Obligations.matrix_products_complete := by
  unfold Obligations.matrix_products_complete
  refine ⟨fun s id c hc ht hf hh => ⟨fun hp hz hm hn => mmaComplete_clean hc ht hf hh hp hz hm hn, fun l hp hl _ => ?_⟩,
    fun s id bad c hc ht hf hh => ?_⟩
  · obtain ⟨t, hexec, ⟨l', hl', hph⟩, hfail, hpool⟩ := mmaComplete_poison hc ht hf hh hp ⟨l, hl⟩
    exact ⟨t, l', hexec, hl', hph, hfail, hpool⟩
  · intro ws
    refine ⟨fun hb => mdrainComplete_good hc ht hf hh hb, fun l hb hset hl _ => ?_⟩
    obtain ⟨t, hexec, ⟨l', hl', hph⟩, hpool, hcount⟩ := mdrainComplete_bad hc ht hf hh hb hset ⟨l, hl⟩
    exact ⟨t, l', hexec, hl', hph, hpool, hcount⟩

end Sys2Proof.Machine

/-! Proofs: ROUTE issues and completes (R135 to R139). -/

namespace Sys2Proof.Machine

section
variable {s u : State} {r : GroupRef} {e : Enc} {g : Group} {l : Launch}

/-- What ROUTE brings to the front end. -/
def routeIns (r : GroupRef) (e : Enc) : Ins := ⟨0x0B, 0, decodeRoute (coreKind r.core.toNat) e, [encA e, encB e, encC e]⟩

/-- The vector engine of the group runs a ROUTE. -/
def State.routeBusy (s : State) (r : GroupRef) : Bool :=
  s.routes.any (fun c => c.org.core == r.core.toNat && c.eng == engineOf r.core.toNat r.slot.toNat)

theorem State.routeBusy_iff (s : State) (r : GroupRef) :
    s.routeBusy r = true ↔ ∃ o ∈ s.routes, o.org.core = r.core.toNat ∧ o.eng = engineOf r.core.toNat r.slot.toNat := by
  simp [State.routeBusy]

/-- The command that ROUTE takes. -/
def routeCmdOf (s : State) (r : GroupRef) (e : Enc) (g : Group) (l : Launch) : RouteCmd :=
  ⟨s.nextId, originOf r g l e (routeIns r e), engineOf r.core.toNat r.slot.toNat, (g.gs (encA e)).toNat, (g.gs (encB e)).toNat,
    (g.gs (encC e)).toNat, encT e, encD e, encX e 57 54, encX e 52 43 + 1, encX e 42 41⟩

theorem exec_route_busy (h : Issues s u (.route r e) r e g l) (hb : u.routeBusy r = true) : exec (.route r e) s = .next u :=
  (issue_of_issues (n := routeIns r e) h rfl _).trans (if_pos hb)

/-- ROUTE on aligned addresses with clean registers and a free engine. -/
theorem exec_route (h : Issues s u (.route r e) r e g l) (hs : scalarsClean (.route r e) g) (hb : u.routeBusy r = false)
    (ha : (g.gs (encA e)).toNat % 16 = 0) (hl : (g.gs (encB e)).toNat % 16 = 0) (hn : (g.gs (encC e)).toNat ≤ 65536) :
    let c := routeCmdOf u r e g l
    exec (.route r e) s =
      if c.count != 0 && (decide (c.score + scoreSpan c.count c.experts c.ty > poolSize r.core.toNat) ||
          decide (c.list_ + c.count * c.k * 8 > poolSize r.core.toNat)) then
        raise u r e (routeIns r e) g l 0x0C g.act
          (if c.score + scoreSpan c.count c.experts c.ty > poolSize r.core.toNat then c.score else c.list_)
      else if c.count == 0 then u.finish r e (g.setS (encD e) 0)
      else if conflicts c.ranges (u.registered r.core.toNat u.nextId) || !u.regFree r.core.toNat then .next u
      else if (u.poolRead r.core.toNat c.score (scoreSpan c.count c.experts c.ty)).2 then
        raise u r e (routeIns r e) g l 0x0E g.act c.score
      else ({ u with nextId := u.nextId + 1, routes := u.routes ++ [c] }).finish r e
          { g with sbusy := if encD e == 0 then g.sbusy else NSet.ins g.sbusy (encD e) } := by
  intro c
  have hclean := hs.of_frontEnd (n := routeIns r e) rfl
  have hA : g.spois.contains (encA e) = false := by simpa using hclean (encA e) (by simp [routeIns])
  have hB : g.spois.contains (encB e) = false := by simpa using hclean (encB e) (by simp [routeIns])
  have hC : g.spois.contains (encC e) = false := by simpa using hclean (encC e) (by simp [routeIns])
  have hany : [encA e, encB e, encC e].any (fun x => g.spois.contains x) = false :=
    any_spois_eq_false hclean
  refine (issue_of_issues (n := routeIns r e) h rfl _).trans ?_
  rw [if_neg (by rw [State.routeBusy] at hb; rw [hb]; decide)]
  simp only [hA, hB, hC, ha, hl, Nat.not_lt.mpr hn, gt_iff_lt, bne_self_eq_false, Bool.or_self, Bool.false_eq_true, if_false,
    routeIns, hany]
  rfl

end

/-- ROUTE_COMPLETE: the list is written, and the group's register takes sC · K (R137). -/
theorem exec_routeComplete {s : State} {id : Nat} {c : RouteCmd} {g : Group}
    (hc : s.routes.find? (fun o => o.id == id) = some c) (ht : s.tripped = false)
    (hg : Map.find? s.groups (gkey c.org.core c.org.slot) = some g) (hl : c.org.launch = some g.launch) (hb : c.dst ∈ g.sbusy) :
    let bytes := (List.range c.count).flatMap (fun t =>
      (routeToken c.ty c.k c.norm t (s.routeScores c t)).flatMap (fun x => leBytes x 8))
    let u := ({ s with routes := s.routes.filter (fun o => o.id != id) }).poolWrite c.org.core c.list_ bytes
    exec (.routeComplete id) s =
      .next { u with groups := Map.put u.groups (gkey c.org.core c.org.slot) (g.setS c.dst (BitVec.ofNat 64 (c.count * c.k))) } := by
  intro bytes u
  have hgroups : u.groups = s.groups := (writesOnly_writeLocs _ _ _ _).groups
  have hcont : g.sbusy.contains c.dst = true := by simpa using hb
  refine (State.clocked_of ht _).trans ?_
  rw [hc]
  dsimp only
  rw [show Map.find? u.groups (gkey c.org.core c.org.slot) = some g by rw [hgroups, hg]]
  dsimp only
  rw [hl, hcont]
  simp only [beq_self_eq_true, Bool.and_self, if_true]
  rfl

/-- Settles O20: the three outcomes of the issue by `exec_route`, the completion by its equation. -/
theorem routeCompletes : Obligations.route_completes := by
  unfold Obligations.route_completes
  refine ⟨fun r e n s u g l => ?_, fun s id c g hc ht hg hl hb => ?_⟩
  · intro core a b cnt k ex h hn hs busy
    cases hn
    have hfree : ¬ busy → u.routeBusy r = false := fun hb => Bool.eq_false_iff.mpr fun h => hb ((u.routeBusy_iff r).mp h)
    refine ⟨fun hb => exec_route_busy h ((u.routeBusy_iff r).mpr hb), fun hb ha hl hcnt => ?_, ?_⟩
    · refine ⟨_, ?_, scalarResult_setS g e (encD e) 0⟩
      rw [exec_route h hs (hfree hb) ha hl (by omega)]
      have h0 : (routeCmdOf u r e g l).count = 0 := hcnt
      rw [h0]
      rfl
    · intro c hb ha hl hcnt hle hscore hlist hconf hreg hpois
      rw [exec_route h hs (hfree hb) ha hl hle]
      show (if cnt != 0 && (decide (a + scoreSpan cnt ex (encT e) > poolSize core) || decide (b + cnt * k * 8 > poolSize core)) then _
        else _) = _
      refine (if_neg (by simp [Nat.not_lt.mpr hscore, Nat.not_lt.mpr hlist])).trans ?_
      refine (if_neg (show ¬ (cnt == 0) = true by simpa using hcnt)).trans ?_
      refine (if_neg (show ¬ (conflicts c.ranges (u.registered core u.nextId) || !u.regFree core) = true by
        rw [hconf, hreg]; decide)).trans ?_
      refine (if_neg (show ¬ (u.poolRead core a (scoreSpan cnt ex (encT e))).2 = true by rw [hpois]; decide)).trans ?_
      simp only [beq_iff_eq]
      rfl
  · intro bytes s0 h
    exact ⟨_, wrote_writeLocs _ _ _ _, exec_routeComplete hc ht hg hl hb⟩

end Sys2Proof.Machine

/-! Proofs: DMA commands issue, start and complete (R24, R142, R159 to R161, R170, R173, R174, R199, R202, R376). -/

namespace Sys2Proof.Machine

/-- The DMA instructions with their kind. -/
def dmaOps : List ((GroupRef → Enc → Instr) × Nat) :=
  [(Instr.dmaCopy, 0), (Instr.dmaGather, 1), (Instr.dmaScatter, 2), (Instr.dmaXpose, 3), (Instr.dmaNarrow, 4), (Instr.dmaBucket, 5)]

/-- What a DMA instruction brings to the front end. -/
def dmaIns (kind : Nat) (r : GroupRef) (e : Enc) : Ins := ⟨0x2A, kind, decodeDma (coreKind r.core.toNat) e, [encF e 37 32]⟩

theorem exec_dma {p : (GroupRef → Enc → Instr) × Nat} (hp : p ∈ dmaOps) (r : GroupRef) (e : Enc) (s : State) :
    exec (p.1 r e) s = queueDma p.2 r e s ∧ frontEnd (p.1 r e) = some (r, e, dmaIns p.2 r e) := by
  unfold dmaOps at hp
  fin_cases hp <;> exact ⟨rfl, rfl⟩

/-- The command that a DMA instruction queues. -/
def dmaCmdOf (s : State) (kind : Nat) (r : GroupRef) (e : Enc) (g : Group) (l : Launch) : DmaCmd :=
  ⟨s.nextId, originOf r g l e (dmaIns kind r e), false, encF e 45 43, kind,
    if encF e 38 38 == 1 then some (encF e 42 39) else none, encF e 31 31 == 1, (g.gs (encF e 37 32)).toNat, none, 0, [], [], 0,
    none, none, false, none, none, none, none, [], []⟩

/-- The launch notes a command that keeps it from being replayed (R376). -/
def State.noteDma (s : State) (c : DmaCmd) (launch : Nat) : State := if s.dmaFixes c then s.noteUnreplayable launch else s

theorem State.noteDma_dma (s : State) (c : DmaCmd) (launch : Nat) : (s.noteDma c launch).dma = s.dma := by
  unfold State.noteDma
  split <;> rfl

section
variable {s u : State} {i : Instr} {r : GroupRef} {e : Enc} {g : Group} {l : Launch} {kind : Nat}

theorem queueDma_waits (h : Issues s u i r e g l) (hn : frontEnd i = some (r, e, dmaIns kind r e)) (hm : effMask g e ≠ 0)
    (hw : (u.engineCmds r.core.toNat (encF e 45 43)).length ≥ 16 ∨ u.regFree r.core.toNat = false) :
    queueDma kind r e s = .next u := by
  refine (runSolo_of_issues h hn hm _).trans (if_pos ?_)
  rcases hw with hw | hw
  · simp [hw]
  · simp [hw]

theorem encF_eq_zero_of_bit {e : Enc} {n : Nat} (h : (encF e n n == 1) = false) : encF e n n = 0 := by
  have hlt : encF e n n < 2 := by
    unfold encF fld
    rw [Nat.add_sub_cancel_left]
    exact Nat.mod_lt _ (by decide)
  simp only [beq_eq_false_iff_ne, ne_eq] at h
  omega

theorem queueDma_queues (h : Issues s u i r e g l) (hn : frontEnd i = some (r, e, dmaIns kind r e)) (hm : effMask g e ≠ 0)
    (hs : scalarsClean i g) (hal : (g.gs (encF e 37 32)).toNat % 64 = 0)
    (htr : trackFault g (encF e 38 38 == 1) (encF e 42 39) = none)
    (hpool : encF e 31 31 = 0 → (g.gs (encF e 37 32)).toNat + 64 ≤ poolSize r.core.toNat)
    (hroom : (u.engineCmds r.core.toNat (encF e 45 43)).length < 16) (hreg : u.regFree r.core.toNat = true) :
    let c := dmaCmdOf u kind r e g l
    queueDma kind r e s =
      .next ({ u.newId.2.noteDma c g.launch with dma := u.dma ++ [c] }.putGroup r (g.next e)) := by
  intro c
  have hp : g.spois.contains (encF e 37 32) = false := by simpa using hs.of_frontEnd hn (encF e 37 32) (by simp [dmaIns])
  refine (runSolo_of_issues h hn hm _).trans ?_
  dsimp only
  rw [if_neg (by simp [hreg, Nat.not_le.mpr hroom]), htr, if_neg (by simp), if_neg (by rw [hp]; decide), if_neg (by simp [hal]), if_neg ?_]
  · show State.finish { u.newId.2.noteDma c g.launch with dma := (u.newId.2.noteDma c g.launch).dma ++ [c] } r e g = _
    rw [State.noteDma_dma]
    rfl
  · intro hbad
    simp only [Bool.and_eq_true, Bool.not_eq_true', decide_eq_true_eq] at hbad
    have := hpool (encF_eq_zero_of_bit hbad.1)
    omega

end

/-- The state in which a started command's descriptor is checked. -/
def State.descRead (s : State) (c : DmaCmd) (side : DmaSide) (d : List Word) : State :=
  match c.org.launch with
  | some l => if dRed d then (s.holdSides c [side]).noteUnreplayable l else s.holdSides c [side]
  | none => s.holdSides c [side]

/-- A command that may leave its queue, with its descriptor read (R159). -/
theorem exec_dmaCommandStart {s u : State} {id : Nat} {c : DmaCmd} {side : DmaSide} {bs : List Byte}
    (hc : s.dma.find? (fun o => o.id == id) = some c) (hdesc : c.desc = none) (hsusp : c.susp = none) (hheld : c.held = false)
    (ht : s.tripped = false) (hbehind : s.behindHeld c = false) (hfour : (s.running c.org.core c.chan).length < 4)
    (hfirst : ∀ o ∈ s.engineCmds c.org.core c.chan, o.id < id → o.desc ≠ none ∨ o.susp ≠ none ∨ o.held = true)
    (hfetch : s.fetchDesc c = .ok (side, bs, false)) (hrep : side.locs.any s.inRepair = false)
    (hread : s.homeRead side.dpas = some u) (hstat : c.pkt = true ∨ dStat ((List.range 8).map (fun i => wordAt bs i)) + 16 ≤ poolSize c.org.core) :
    let d := (List.range 8).map (fun i => wordAt bs i)
    let v := u.descRead c side d
    let c' := { c with desc := some d, looked := [] }
    let c'' := { c' with srcR := v.hull c' d true, dstR := v.hull c' d false }
    exec (.dmaCommandStart id) s = match v.startCheck c' d with
      | some (st, row) => .next ((v.putDma c').dmaDone c' st row)
      | none => if c''.ranges.length == 2 && !v.regFree c.org.core then v.idle "no second registration is free" else .next (v.putDma c'') := by
  intro d v c' c''
  have hany : (s.engineCmds c.org.core c.chan).any (fun o => o.id < id && o.desc.isNone && o.susp.isNone && !o.held) = false := by
    rw [List.any_eq_false]
    intro o ho
    by_cases hlt : o.id < id
    · rcases hfirst o ho hlt with h | h | h
      · simp [h]
      · simp [h]
      · simp [h]
    · simp [hlt]
  refine (State.clocked_of ht _).trans ?_
  rw [hc]
  dsimp only
  rw [if_neg (by simp only [hdesc, hsusp, hheld, hbehind, hany, ge_iff_le, Nat.not_le.mpr hfour]; decide), hfetch]
  dsimp only
  rw [if_neg (by rw [hrep]; decide), hread]
  dsimp only
  rw [if_neg (by decide), if_neg ?_]
  · rfl
  · rcases hstat with h | h
    · simp [h]
    · simp [Nat.not_lt.mpr h]

/-- Settles O21: a DMA instruction by `queueDma_queues`, the start by `exec_dmaCommandStart`. -/
theorem dmaIssueAndStartComplete : Obligations.dma_issue_and_start_complete := by
  unfold Obligations.dma_issue_and_start_complete
  refine ⟨fun p hp r e n s u g l => ?_, fun s u id c side bs hc hdesc hsusp hheld ht hbehind hfour hfirst hfetch hrep hread => ?_⟩
  · intro core a h hn hsolo hal htr v hpool
    obtain ⟨hexec, hfront⟩ := exec_dma hp r e s
    obtain ⟨hm, hs⟩ := hsolo
    obtain rfl : dmaIns p.2 r e = n := by
      rw [hfront] at hn
      cases hn
      rfl
    rw [hexec]
    refine ⟨queueDma_waits h hfront hm, fun hroom hreg => ⟨dmaCmdOf u p.2 r e g l, rfl, rfl, rfl, rfl, rfl, ?_, rfl, rfl, rfl, rfl, rfl,
      rfl, fun h5 => ?_, queueDma_queues h hfront hm hs hal htr hpool hroom hreg⟩⟩
    · simp only [dmaCmdOf, beq_iff_eq]
    · simp [State.dmaFixes, dmaCmdOf, h5]
  · intro d u1 v c' c'' hstat
    have hstart := exec_dmaCommandStart hc hdesc hsusp hheld ht hbehind hfour hfirst hfetch hrep hread hstat
    refine ⟨fun hcheck hranges => ?_, fun st row hcheck => ?_⟩
    · refine hstart.trans ?_
      rw [show (u.descRead c side d).startCheck c' d = none from hcheck]
      refine if_neg fun hbad => ?_
      simp only [Bool.and_eq_true, beq_iff_eq, Bool.not_eq_true'] at hbad
      exact absurd ((hranges hbad.1).symm.trans hbad.2) (by decide)
    · refine hstart.trans ?_
      rw [show (u.descRead c side d).startCheck c' d = some (st, row) from hcheck]
      rfl

end Sys2Proof.Machine

/-! Proofs: DMA rows are delivered (R132, R160, R162, R163, R171 to R173, R197, R239). -/

namespace Sys2Proof.Machine

/-! ### The progress of a command (R172) -/

/-- The cursor moves over delivered rows alone. -/
theorem advanceCursor_spec (f cur : Nat) (done : NSet) :
    cur ≤ advanceCursor f cur done ∧ ∀ m, cur ≤ m → m < advanceCursor f cur done → m ∈ done := by
  induction f generalizing cur with
  | zero => exact ⟨le_rfl, fun m h1 h2 => absurd h2 (Nat.not_lt.mpr h1)⟩
  | succ f ih =>
    unfold advanceCursor
    split
    · next hc =>
      obtain ⟨hle, hin⟩ := ih (cur + 1)
      refine ⟨by omega, fun m h1 h2 => ?_⟩
      by_cases hm : m = cur
      · subst hm
        simpa using hc
      · exact hin m (by omega) h2
    · exact ⟨le_rfl, fun m h1 h2 => absurd h2 (Nat.not_lt.mpr h1)⟩

/-- With fuel for every delivered row and one more, the cursor stops at a row that is not delivered. -/
theorem advanceCursor_stops (f cur : Nat) (done : NSet) :
    advanceCursor f cur done ∉ done ∨ ∀ m, cur ≤ m → m < cur + f → m ∈ done := by
  induction f generalizing cur with
  | zero => exact .inr fun m h1 h2 => absurd h2 (Nat.not_lt.mpr h1)
  | succ f ih =>
    unfold advanceCursor
    split
    · next hc =>
      refine (ih (cur + 1)).imp id fun h m h1 h2 => ?_
      by_cases hm : m = cur
      · subst hm
        simpa using hc
      · exact h m (by omega) (by omega)
    · next hc => exact .inl (by simpa using hc)

theorem advanceCursor_not_mem (cur : Nat) (done : NSet) : advanceCursor (done.length + 1) cur done ∉ done := by
  refine (advanceCursor_stops (done.length + 1) cur done).elim id fun h => ?_
  have hsub : (List.range' cur (done.length + 1)).toFinset ⊆ done.toFinset := by
    intro m hm
    simp only [List.mem_toFinset, List.mem_range'_1] at hm ⊢
    exact h m hm.1 hm.2
  have hcard := Finset.card_le_card hsub
  rw [List.toFinset_card_of_nodup List.nodup_range', List.length_range'] at hcard
  exact absurd (List.toFinset_card_le done) (by omega)

/-- The command after row n. -/
def DmaCmd.withRow (c : DmaCmd) (n : Nat) : DmaCmd :=
  let done := NSet.ins c.done n
  let cur := advanceCursor (done.length + 1) c.cursor done
  { c with
    cursor := cur
    done := done.filter (fun r => r ≥ cur)
    looked := if n == c.cursor then [] else c.looked }

theorem DmaCmd.has_iff (c : DmaCmd) (n : Nat) : c.has n = true ↔ n < c.cursor ∨ n ∈ c.done := by simp [DmaCmd.has]

theorem DmaCmd.withRow_has (c : DmaCmd) (n m : Nat) : (c.withRow n).has m = true ↔ c.has m = true ∨ m = n := by
  obtain ⟨hle, hin⟩ := advanceCursor_spec ((NSet.ins c.done n).length + 1) c.cursor (NSet.ins c.done n)
  rw [DmaCmd.has_iff, DmaCmd.has_iff]
  simp only [DmaCmd.withRow, List.mem_filter, decide_eq_true_eq, NSet.mem_ins]
  generalize advanceCursor ((NSet.ins c.done n).length + 1) c.cursor (NSet.ins c.done n) = cur at hle hin
  simp only [NSet.mem_ins] at hin
  constructor
  · rintro (h | ⟨h, -⟩)
    · by_cases hm : m < c.cursor
      · exact .inl (.inl hm)
      · exact (hin m (by omega) h).symm.imp .inr (fun h => h)
    · exact h.symm.imp .inr (fun h => h)
  · intro h
    by_cases hm : m < cur
    · exact .inl hm
    · refine .inr ⟨?_, by omega⟩
      rcases h with (h | h) | h
      · omega
      · exact .inr h
      · exact .inl h

theorem DmaCmd.withRow_cursor (c : DmaCmd) (n : Nat) : (c.withRow n).has (c.withRow n).cursor = false := by
  refine Bool.eq_false_iff.mpr fun h => ?_
  rcases (DmaCmd.has_iff _ _).mp h with h | h
  · exact absurd h (Nat.lt_irrefl _)
  · exact advanceCursor_not_mem _ _ (List.mem_filter.mp h).1

theorem State.mem_putDma {s : State} {o c' : DmaCmd} (ho : o ∈ s.dma) (hid : o.id = c'.id) : c' ∈ (s.putDma c').dma :=
  List.mem_map.mpr ⟨o, ho, by simp [hid]⟩

theorem State.rowDone_dma (s : State) (c : DmaCmd) (d : List Word) (n : Nat) :
    (s.rowDone c d n).dma = (s.putDma (c.withRow n)).dma := by
  unfold State.rowDone
  dsimp only
  split
  · have h : WritesOnly (s.putDma (c.withRow n)) ((s.putDma (c.withRow n)).poolWrite c.org.core (dStat d)
      (leBytes ((ofLe ((s.putDma (c.withRow n)).poolRead c.org.core (dStat d) 8).1 + ((c.withRow n).cursor - c.cursor)) % 2 ^ 64) 8)) :=
      writesOnly_writeLocs _ _ _ _
    exact (congrArg State.dma h : _)
  · rfl

theorem State.rowDone_pool (s : State) (c : DmaCmd) (d : List Word) (n : Nat) (h : dSige d = false) :
    (s.rowDone c d n).pool = s.pool := by
  unfold State.rowDone
  rw [h]
  rfl

/-! ### A row of a COPY from pool to pool -/

/-- The locations of pool offsets of a core. -/
def poolBytes (core : Nat) (as : List Nat) : List Loc := as.map (fun a => Loc.pool (poolKey core a))

theorem resolvePool_ok {core : Nat} {as : List Nat} (h : ∀ a ∈ as, a < poolSize core) :
    resolvePool core as = .ok ⟨poolBytes core as, [], []⟩ := by
  induction as with
  | nil => rfl
  | cons a as ih =>
    rw [resolvePool, if_neg (Nat.not_le.mpr (h a List.mem_cons_self)), ih fun b hb => h b (List.mem_cons_of_mem _ hb)]
    rfl

theorem State.resolve1_pool {s : State} {c : DmaCmd} {need : Need} {rule : SpaceRule} {as : List Nat}
    (hm : s.poolChanging c.org.core = false) (h : ∀ a ∈ as, a < poolSize c.org.core) :
    s.resolve1 c false need rule as = .ok ⟨poolBytes c.org.core as, [], []⟩ := by
  unfold State.resolve1 State.resolve
  rw [if_neg (by decide), if_neg (by rw [hm]; decide), resolvePool_ok h]

theorem any_poolBytes {core : Nat} {as : List Nat} {p : Loc → Bool} (h : ∀ k, p (.pool k) = false) :
    (poolBytes core as).any p = false := by
  rw [List.any_eq_false]
  intro l hl
  obtain ⟨a, -, rfl⟩ := List.mem_map.mp hl
  simp [h]

theorem State.hostAborts_pool (s : State) (core : Nat) (as : List Nat) : s.hostAborts (poolBytes core as) = (false, s) := by
  unfold State.hostAborts
  rw [any_poolBytes (p := Loc.isHost) fun _ => rfl]
  rfl

theorem State.noteHost_pool (s : State) (c : DmaCmd) (core : Nat) (as : List Nat) : s.noteHost c (poolBytes core as) = s := by
  unfold State.noteHost
  split
  · rw [any_poolBytes (p := Loc.isHost) fun _ => rfl]
    rfl
  · rfl

theorem DmaCmd.noteSpaces_nil (c : DmaCmd) : c.noteSpaces [] [] = c := by
  have h : ∀ x : Option Nat, (x <|> none) = x := fun x => by cases x <;> rfl
  unfold DmaCmd.noteSpaces
  simp only [List.head?_nil, Option.map_none, h]

theorem length_srcAddrs (d : List Word) (off : Int) (n : Nat) : (srcAddrs d off n).length = n := by simp [srcAddrs]
theorem length_dstAddrs (d : List Word) (off : Int) (n : Nat) : (dstAddrs d off n).length = n := by simp [dstAddrs]

/-- The bytes of a plain row go to its destination in order. -/
theorem zip_rows {as : List Nat} {ls : List Loc} {bs : List Byte} (h1 : as.length = ls.length) (h2 : ls.length = bs.length) :
    (((as.zip ls).zip bs).filter (fun x => !([] : List Nat).contains x.1.1)).map (fun x => x.1.2) = ls ∧
    (((as.zip ls).zip bs).filter (fun x => !([] : List Nat).contains x.1.1)).map (fun x => x.2) = bs := by
  have hall : ((as.zip ls).zip bs).filter (fun x => !([] : List Nat).contains x.1.1) = (as.zip ls).zip bs :=
    List.filter_eq_self.mpr fun _ _ => rfl
  rw [hall]
  constructor
  · rw [show (fun x : (Nat × Loc) × Byte => x.1.2) = Prod.snd ∘ Prod.fst from rfl, ← List.map_map, List.map_fst_zip (by simp [h1, h2]), List.map_snd_zip (by omega)]
  · rw [List.map_snd_zip (by simp [h1, h2])]

theorem State.readLoc_pool (s : State) (dom k : Nat) : s.readLoc dom (.pool k) = s.readLoc 0 (.pool k) := rfl

theorem State.readLocs_pool (s : State) (dom core : Nat) (as : List Nat) :
    s.readLocs dom (poolBytes core as) = s.readLocs 0 (poolBytes core as) := by
  have h : ∀ l ∈ poolBytes core as, s.readLoc dom l = s.readLoc 0 l := by
    intro l hl
    obtain ⟨a, -, rfl⟩ := List.mem_map.mp hl
    exact s.readLoc_pool dom _
  have hany : (poolBytes core as).any (fun l => (s.readLoc dom l).2) = (poolBytes core as).any (fun l => (s.readLoc 0 l).2) := by
    rw [Bool.eq_iff_iff, List.any_eq_true, List.any_eq_true]
    exact exists_congr fun l => and_congr_right fun hl => by rw [h l hl]
  unfold State.readLocs
  rw [List.map_congr_left fun l hl => congrArg Prod.fst (h l hl), hany]

theorem length_readLocs (s : State) (dom : Nat) (ls : List Loc) : (s.readLocs dom ls).1.length = ls.length := by
  simp [State.readLocs]

section
variable {s : State} {c : DmaCmd} {d : List Word} {n : Nat}

/-- Row n of a COPY from pool to pool without conversion (R162, R163). -/
theorem State.plainRow_copy (hk : c.kind = 0) (hm : s.poolChanging c.org.core = false) (hsv : dSV d = false) (hdv : dDV d = false)
    (hcodec : dCodec d = 0) (hred : dRed d = false) (hty : dStype d = dDtype d)
    (hin : ∀ a ∈ srcAddrs d (dSoff d n) (dSrcBytes d) ++ dstAddrs d (dDoff d n) (dDstBytes d), a < poolSize c.org.core)
    (hclean : (s.readLocs 0 (poolBytes c.org.core (srcAddrs d (dSoff d n) (dSrcBytes d)))).2 = false) :
    s.plainRow c d n =
      delivered (s.writeLocs (s.orgDom c.org) (poolBytes c.org.core (dstAddrs d (dDoff d n) (dDstBytes d)))
        (s.readLocs 0 (poolBytes c.org.core (srcAddrs d (dSoff d n) (dSrcBytes d)))).1) c := by
  have hsrc : ∀ a ∈ srcAddrs d (dSoff d n) (dSrcBytes d), a < poolSize c.org.core := fun a ha => hin a (List.mem_append_left _ ha)
  have hdst : ∀ a ∈ dstAddrs d (dDoff d n) (dDstBytes d), a < poolSize c.org.core := fun a ha => hin a (List.mem_append_right _ ha)
  have hmx : dMx d = false := by simp [dMx, hty]
  have hlen : dSrcBytes d = dDstBytes d := by rw [dSrcBytes, dDstBytes, hty]
  have hrowSrc : rowSrc c d 0 n = some (srcAddrs d (dSoff d n) (dSrcBytes d)) := by simp [rowSrc, hk]
  have hrowDst : rowDst c d 0 n = some (dstAddrs d (dDoff d n) (dDstBytes d)) := by simp [rowDst, hk]
  have hsource : s.rowSource c d 0 n = .ok (⟨poolBytes c.org.core (srcAddrs d (dSoff d n) (dSrcBytes d)), [], []⟩, none) := by
    unfold State.rowSource
    rw [hrowSrc]
    dsimp only
    rw [hcodec, if_neg (by decide), hsv, State.resolve1_pool hm hsrc]
    rfl
  have hread : s.dmaRead c ⟨poolBytes c.org.core (srcAddrs d (dSoff d n) (dSrcBytes d)), [], []⟩ =
      some (s, (s.readLocs 0 (poolBytes c.org.core (srcAddrs d (dSoff d n) (dSrcBytes d)))).1, false) := by
    show some (s, s.readLocs _ _) = _
    rw [State.readLocs_pool, ← hclean]
  have hout : ∀ data, s.rowOut c d 0 n data [] = (data, []) := fun data => by
    unfold State.rowOut State.dmaConvert
    simp [hrowSrc, hcodec, hty]
  have hlater : s.laterBytes c d n = [] := by simp [State.laterBytes, hk]
  have hwrite : s.rowWrite c d n (dstAddrs d (dDoff d n) (dDstBytes d)) ⟨poolBytes c.org.core (dstAddrs d (dDoff d n) (dDstBytes d)), [], []⟩
      (s.readLocs 0 (poolBytes c.org.core (srcAddrs d (dSoff d n) (dSrcBytes d)))).1 =
      some (s.writeLocs (s.orgDom c.org) (poolBytes c.org.core (dstAddrs d (dDoff d n) (dDstBytes d)))
        (s.readLocs 0 (poolBytes c.org.core (srcAddrs d (dSoff d n) (dSrcBytes d)))).1) := by
    obtain ⟨h1, h2⟩ := zip_rows (as := dstAddrs d (dDoff d n) (dDstBytes d))
      (ls := poolBytes c.org.core (dstAddrs d (dDoff d n) (dDstBytes d)))
      (bs := (s.readLocs 0 (poolBytes c.org.core (srcAddrs d (dSoff d n) (dSrcBytes d)))).1)
      (by simp [poolBytes]) (by rw [length_readLocs]; simp [poolBytes, length_srcAddrs, length_dstAddrs, hlen])
    unfold State.rowWrite
    rw [hred, if_neg (by decide), hlater]
    dsimp only
    rw [h1, h2]
    rfl
  have hrep : (poolBytes c.org.core (srcAddrs d (dSoff d n) (dSrcBytes d)) ++
      poolBytes c.org.core (dstAddrs d (dDoff d n) (dDstBytes d))).any s.inRepair = false := by
    rw [List.any_append, any_poolBytes fun _ => rfl, any_poolBytes fun _ => rfl]
    rfl
  unfold State.plainRow
  simp only [hk, indexed, Nat.reduceBEq, Bool.or_self, Bool.false_eq_true, if_false, hrowDst, hred, Bool.false_and, hsource, hread, hmx,
    Option.getD_none, hout, hcodec, hdv, State.resolve1_pool hm hdst, DmaCmd.noteSpaces_nil, State.hostAborts_pool, hrep, hwrite,
    List.isEmpty_nil, if_true]
  simp only [State.noteHost_pool]
  rfl

end

/-! ### DMA_ROW_DELIVERED -/

section
variable {s : State} {id n : Nat} {c : DmaCmd} {d : List Word}

/-- A command that may deliver rows meets its header first, and then its rows. -/
theorem exec_dmaRowDelivered (hc : s.dma.find? (fun o => o.id == id) = some c) (hd : c.desc = some d) (hsusp : c.susp = none)
    (hheld : c.held = false) (hfail : c.fail = none) (hruns : s.runsNow c = true) (ht : s.tripped = false)
    (hcmd : s.cmdHeld c.org.core id c.ranges = false) :
    exec (.dmaRowDelivered id n) s =
      if c.closed d then
        (if s.rowHeld c d 0 then s.idle "an earlier command of the engine has to deliver the bytes first"
         else
           let x := s.openPacked c d
           match x.wait, x.stop with
           | true, _ => s.idle "a line of the tile is in flight, or a row of memory in repair"
           | _, some st => .next (x.s.dmaStop x.c 0 st)
           | _, none => .next (x.s.putDma { x.c with looked := [] }))
      else if n ≥ c.rows d || c.has n || n > c.cursor + 64 || (c.inOrder d && n != c.cursor) then
        s.idle "the row is delivered, or not within reach"
      else if s.rowHeld c d n then s.idle "an earlier command of the engine has to deliver the bytes first"
      else (s.dmaRow c d n).after d n s := by
  refine (State.clocked_of ht _).trans ?_
  rw [hc]
  dsimp only
  rw [hd]
  dsimp only
  rw [if_neg (by simp only [hsusp, hheld, hfail, hruns, hcmd]; decide)] <;> rfl

/-- The header of a packed tile is worked on before any row (R132). -/
theorem exec_dmaRow_header (hc : s.dma.find? (fun o => o.id == id) = some c) (hd : c.desc = some d) (hsusp : c.susp = none)
    (hheld : c.held = false) (hfail : c.fail = none) (hruns : s.runsNow c = true) (ht : s.tripped = false)
    (hcmd : s.cmdHeld c.org.core id c.ranges = false) (hcl : c.closed d = true) (hrow : s.rowHeld c d 0 = false)
    (hw : (s.openPacked c d).wait = false) :
    exec (.dmaRowDelivered id n) s = .next (match (s.openPacked c d).stop with
      | some st => (s.openPacked c d).s.dmaStop (s.openPacked c d).c 0 st
      | none => (s.openPacked c d).s.putDma { (s.openPacked c d).c with looked := [] }) := by
  rw [exec_dmaRowDelivered hc hd hsusp hheld hfail hruns ht hcmd, if_pos hcl, if_neg (by rw [hrow]; decide)]
  dsimp only
  rw [hw]
  cases (s.openPacked c d).stop <;> rfl

/-- A row within reach, which no earlier command holds, is worked on. -/
theorem exec_dmaRow_row (hc : s.dma.find? (fun o => o.id == id) = some c) (hd : c.desc = some d) (hsusp : c.susp = none)
    (hheld : c.held = false) (hfail : c.fail = none) (hruns : s.runsNow c = true) (ht : s.tripped = false)
    (hcmd : s.cmdHeld c.org.core id c.ranges = false) (hcl : c.closed d = false) (hrow : s.rowHeld c d n = false)
    (hn : n < c.rows d) (hhas : c.has n = false) (hreach : n ≤ c.cursor + 64) (hord : c.inOrder d = true → n = c.cursor) :
    exec (.dmaRowDelivered id n) s = (s.dmaRow c d n).after d n s := by
  have hord' : (c.inOrder d && n != c.cursor) = false := by
    cases ho : c.inOrder d with
    | false => rfl
    | true => simp [hord ho]
  rw [exec_dmaRowDelivered hc hd hsusp hheld hfail hruns ht hcmd, if_neg (by rw [hcl]; decide), if_neg ?_, if_neg (by rw [hrow]; decide)]
  simp [hhas, hord', Nat.not_le.mpr hn, Nat.not_lt.mpr hreach]

/-- Where neither side is given by address, no earlier command holds a row of a plain kind (R197). -/
theorem State.rowHeld_pool (hk : c.kind = 0) (hsv : dSV d = false) (hdv : dDV d = false) (hcodec : dCodec d = 0) :
    s.rowHeld c d n = false := by
  have hvas : s.rowVas c d n = ([], []) := by simp [State.rowVas, hk, hsv, hdv, hcodec]
  have hdpas : s.rowDpas c d n = ([], []) := by
    unfold State.rowDpas
    rw [hvas]
    rfl
  unfold State.rowHeld
  rw [List.any_eq_false]
  intro o _
  cases o.desc with
  | none => simp [hvas]
  | some od => simp [hdpas]

end

/-- Settles O22: the row of a COPY by `State.plainRow_copy`, any row by the step that its kind takes, the progress by
`DmaCmd.withRow_has`. -/
theorem dmaRowsComplete : Obligations.dma_rows_complete := by
  unfold Obligations.dma_rows_complete
  refine ⟨?copy, ?row, ?progress⟩
  case copy =>
    intro s id n c d hc hd hsusp hheld hfail hruns hcmd hm hk ht hsv hdv hcodec hred hty hn hhas hreach src dst locs hin hclean
    have hclosed : c.closed d = false := by simp [DmaCmd.closed, hcodec]
    have hrows : c.rows d = dRows d := by simp [DmaCmd.rows, hcodec]
    have horder : c.inOrder d = false := by simp [DmaCmd.inOrder, hk, hcodec, hsv, hdv]
    refine ⟨_, wrote_writeLocs s (s.orgDom c.org) _ _, ?_⟩
    rw [exec_dmaRow_row hc hd hsusp hheld hfail hruns ht hcmd hclosed (State.rowHeld_pool hk hsv hdv hcodec) (hrows ▸ hn) hhas hreach
      fun h => absurd (horder.symm.trans h) (by decide)]
    have hrow : s.dmaRow c d n = s.plainRow c d n := by simp [State.dmaRow, hk, hcodec]
    rw [hrow, State.plainRow_copy hk (by simp [State.poolChanging, hm]) hsv hdv hcodec hred hty hin hclean]
    rfl
  case row =>
    intro s id n c d hc hd hsusp hheld hfail hruns ht hcmd
    refine ⟨fun hcl hrow => ?_, fun hcl hrow hn hhas hreach hord => ?_⟩
    · intro x hw
      have h := exec_dmaRow_header (n := n) hc hd hsusp hheld hfail hruns ht hcmd hcl hrow hw
      exact ⟨fun hs => by rw [h, show (s.openPacked c d).stop = none from hs], fun st hs => by
        rw [h, show (s.openPacked c d).stop = some st from hs]⟩
    · intro x hw
      rw [exec_dmaRow_row hc hd hsusp hheld hfail hruns ht hcmd hcl hrow hn hhas hreach hord]
      have hx : s.dmaRow c d n = x := rfl
      rw [hx]
      unfold DmaStep.after
      rw [hw]
      refine ⟨fun hs => by rw [hs], fun code hs => ?_, fun f va need hs => by rw [hs]; rfl, fun va need hs => by rw [hs]; rfl⟩
      rw [hs]
      dsimp only
      split <;> rfl
  case progress =>
    intro s c d n _ hc
    refine ⟨c.withRow n, ?_, rfl, (advanceCursor_spec _ _ _).1, c.withRow_has n, c.withRow_cursor n, s.rowDone_pool c d n⟩
    rw [State.rowDone_dma]
    exact State.mem_putDma hc rfl

end Sys2Proof.Machine

/-! Proofs: a DMA command completes with its status (R142, R171, R173). -/

namespace Sys2Proof.Machine

/-- The pool bytes of a write do not depend on the rest of the state. -/
theorem pool_writeAll_congr {s t : State} (h : t.pool = s.pool) (pasid : Nat) (ls : List Loc) (bs : List Byte)
    (hls : ∀ l ∈ ls, ∃ k, l = .pool k) : (t.writeAll pasid ls bs).pool = (s.writeAll pasid ls bs).pool := by
  induction ls generalizing s t bs with
  | nil => exact h
  | cons l ls ih =>
    cases bs with
    | nil => exact h
    | cons b bs =>
      obtain ⟨k, rfl⟩ := hls l List.mem_cons_self
      refine ih ?_ bs fun x hx => hls x (List.mem_cons_of_mem _ hx)
      exact congrArg (fun m : Memory => m.write k b) h

theorem pool_writeLocs (s : State) (pasid : Nat) (ls : List Loc) (bs : List Byte) :
    (s.writeLocs pasid ls bs).pool = (s.writeAll pasid ls bs).pool := by
  unfold State.writeLocs
  dsimp only
  rw [(logsOnly_discardNote _ _).pool]

theorem pool_poolWrite_congr {s t : State} (h : t.pool = s.pool) (core off : Nat) (bs : List Byte) :
    (t.poolWrite core off bs).pool = (s.poolWrite core off bs).pool := by
  unfold State.poolWrite
  rw [pool_writeLocs, pool_writeLocs]
  refine pool_writeAll_congr h 0 _ bs fun l hl => ?_
  obtain ⟨i, -, rfl⟩ := List.mem_map.mp hl
  exact ⟨_, rfl⟩

/-! ### The commands that stay -/

/-- Every DMA command of `t` has the number of one of `s`. -/
def DmaFrom (s t : State) : Prop := ∀ o ∈ t.dma, ∃ x ∈ s.dma, x.id = o.id

theorem dmaFrom_failLaunch (s : State) (k st : Nat) : DmaFrom s (s.failLaunch k st) := by
  intro o ho
  unfold State.failLaunch at ho
  split at ho
  · exact ⟨o, ho, rfl⟩
  · split at ho
    · exact ⟨o, ho, rfl⟩
    · obtain ⟨x, hx, rfl⟩ := List.mem_map.mp ho
      exact ⟨x, hx, by split <;> rfl⟩

theorem dmaFrom_failCtx (s : State) (ctx : Nat) : DmaFrom s (s.failCtx ctx) :=
  foldl_failLaunch (p := DmaFrom s) (fun u j h o ho => by
    obtain ⟨x, hx, hid⟩ := dmaFrom_failLaunch u j 2 o ho
    obtain ⟨y, hy, hid'⟩ := h x hx
    exact ⟨y, hy, hid'.trans hid⟩) _ _ fun o ho => ⟨o, ho, rfl⟩

/-! ### Completion -/

/-- The bytes of a COMPLETION word (R173). -/
def completion (status detail : Nat) : List Byte := leBytes (2 ^ 63 + status * 2 ^ 48 + detail % 2 ^ 48) 8

/-- The command leaves the engine, with its COMPLETION word written. -/
def State.dmaWord (s : State) (c : DmaCmd) (d : List Word) (status detail : Nat) : State :=
  { s with dma := s.dma.filter (fun o => o.id != c.id) }.poolWrite c.org.core (dStat d + 8) (completion status detail)

/-- The engine's status register counts an error (Table 10-6). -/
def State.dmaCount (s : State) (c : DmaCmd) (status : Nat) : State :=
  let r : Reg := .dmaEngSts (coreBasin c.org.core) (if c.org.core < 1024 then c.org.core % 8 else c.chan)
  if status == 0 then s else (s.setRf r 15 8 status).setRf r 7 0 (satInc 8 (s.rf r 7 0))

theorem logsOnly_dmaCount (s : State) (c : DmaCmd) (status : Nat) : LogsOnly s (s.dmaCount c status) := by
  unfold State.dmaCount
  dsimp only
  by_cases h : (status == 0) = true
  · rw [if_pos h]
    exact LogsOnly.refl s
  · rw [if_neg h]
    rfl

section
variable {s : State} {id st detail : Nat} {c : DmaCmd} {d : List Word}

/-- The end of a group's command whose status block lies in the pool. -/
theorem State.dmaDone_eq (hd : c.desc = some d) (hp : c.pkt = false) (hstat : dStat d + 16 ≤ poolSize c.org.core) :
    s.dmaDone c st detail =
      let t := (s.dmaWord c d st detail).dmaCount c st
      if st == 8 then
        (t.ras_ { rasOf 0x03 2 (coreDie c.org.core) 0x03 c.org.core 8 with
          part := c.org.part, core := c.org.core, ctx := c.org.ctx }).failCtx c.org.ctx
      else t := by
  have hroom : decide (dStat d + 16 > poolSize c.org.core) = false := by simp [Nat.not_lt.mpr hstat]
  unfold State.dmaDone
  simp only [hd, hp, hroom, Bool.or_self, Bool.false_eq_true, if_false]
  rfl

/-- What the end of a command leaves. -/
theorem State.dmaDone_spec (hd : c.desc = some d) (hp : c.pkt = false) (hstat : dStat d + 16 ≤ poolSize c.org.core) :
    (s.dmaDone c st detail).pool = (s.poolWrite c.org.core (dStat d + 8) (completion st detail)).pool ∧
      (∀ o ∈ (s.dmaDone c st detail).dma, o.id ≠ c.id) ∧ (st = 8 → c.org.ctx ∈ (s.dmaDone c st detail).failed) ∧
      (st = 0 → (s.dmaDone c st detail).launches = s.launches ∧ (s.dmaDone c st detail).failed = s.failed) := by
  have hlogs : LogsOnly (s.dmaWord c d st detail) ((s.dmaWord c d st detail).dmaCount c st) := logsOnly_dmaCount _ _ _
  have hwrites : WritesOnly { s with dma := s.dma.filter (fun o => o.id != c.id) } (s.dmaWord c d st detail) := writesOnly_writeLocs _ _ _ _
  have hdma : ((s.dmaWord c d st detail).dmaCount c st).dma = s.dma.filter (fun o => o.id != c.id) := by rw [hlogs, hwrites]
  have hpool : ((s.dmaWord c d st detail).dmaCount c st).pool = (s.poolWrite c.org.core (dStat d + 8) (completion st detail)).pool :=
    hlogs.pool.trans (pool_poolWrite_congr rfl _ _ _)
  have hout : ∀ o ∈ s.dma.filter (fun o => o.id != c.id), o.id ≠ c.id := fun o ho => by simpa using (List.mem_filter.mp ho).2
  rw [State.dmaDone_eq hd hp hstat]
  dsimp only
  by_cases h8 : st = 8
  · subst h8
    rw [if_pos (by decide)]
    refine ⟨(endsOnly_failCtx _ _).pool.trans ((logsOnly_ras _ _).pool.trans hpool), fun o ho => ?_, fun _ => State.mem_failed_failCtx _ _,
      fun h => by cases h⟩
    obtain ⟨x, hx, hid⟩ := dmaFrom_failCtx _ _ o ho
    rw [logsOnly_ras] at hx
    exact hid ▸ hout x (hdma ▸ hx)
  · rw [if_neg (by simpa using h8)]
    refine ⟨hpool, fun o ho => hout o (hdma ▸ ho), fun h => absurd h h8, fun _ => ?_⟩
    rw [hlogs, hwrites]
    exact ⟨rfl, rfl⟩

theorem exec_dmaCommandComplete (hc : s.dma.find? (fun o => o.id == id) = some c) (hd : c.desc = some d) (hsusp : c.susp = none)
    (hheld : c.held = false) (ht : s.tripped = false) :
    exec (.dmaCommandComplete id) s = match c.fail with
      | some (st, row) => .next (s.dmaDone c st row)
      | none => if c.closed d || c.cursor < c.rows d then s.idle "rows are not delivered"
        else .next (s.dmaDone c 0 (if c.kind == 5 then c.unplaced else c.cursor)) := by
  refine (State.clocked_of ht _).trans ?_
  rw [hc]
  dsimp only
  rw [hd]
  dsimp only
  rw [if_neg (by simp only [hsusp, hheld]; decide)] <;> rfl

end

/-- Settles O23: both ends by `State.dmaDone_spec`. -/
theorem dmaCommandCompletes : Obligations.dma_command_completes := by
  unfold Obligations.dma_command_completes
  intro s id c d hc hd hsusp hheld ht hp hstat word
  have hid : c.id = id := by simpa using List.find?_some hc
  rw [exec_dmaCommandComplete hc hd hsusp hheld ht]
  refine ⟨fun hfail hopen hrows => ?_, fun st row hfail => ?_⟩
  · rw [hfail]
    dsimp only
    obtain ⟨hpool, hgone, -, hkeep⟩ := State.dmaDone_spec (s := s) (st := 0) (detail := if c.kind == 5 then c.unplaced else c.cursor) hd hp hstat
    have hclosed : c.closed d = false := by
      unfold DmaCmd.closed
      by_cases h : dCodec d = 3 ∧ c.kind = 0
      · simp [hopen h.1 h.2]
      · simpa using fun h1 h2 => absurd ⟨h1, h2⟩ h
    rw [hclosed, if_neg (show ¬ (false || decide (c.cursor < c.rows d)) = true by simpa using hrows)]
    refine ⟨_, _, wrote_writeLocs s 0 _ _, rfl, ?_, fun o ho => hid ▸ hgone o ho, hkeep rfl⟩
    rw [hpool]
    simp only [beq_iff_eq]
    rfl
  · rw [hfail]
    dsimp only
    obtain ⟨hpool, hgone, hctx, -⟩ := State.dmaDone_spec (s := s) (st := st) (detail := row) hd hp hstat
    exact ⟨_, _, wrote_writeLocs s 0 _ _, rfl, hpool, fun o ho => hid ▸ hgone o ho, hctx⟩

end Sys2Proof.Machine

/-! Proofs: what the end of launches and of their commands keeps: a launch that fails already stays as it is (R71, R189, R367). -/

namespace Sys2Proof.Machine

/-- Every launch that fails in `s` stands in `t` as it is, and every RMO and group of `t` stands in `s`. -/
structure EndKeeps (s t : State) : Prop where
  failing : ∀ k l, Map.find? s.launches k = some l → l.phase = .failing → Map.find? t.launches k = some l
  rmo : ∀ o ∈ t.rmo, o ∈ s.rmo
  groups : ∀ g ∈ t.groups, g ∈ s.groups

namespace EndKeeps

theorem refl (s : State) : EndKeeps s s := ⟨fun _ _ h _ => h, fun _ h => h, fun _ h => h⟩

theorem trans {s t u : State} (h : EndKeeps s t) (k : EndKeeps t u) : EndKeeps s u :=
  ⟨fun j l hl hp => k.failing j l (h.failing j l hl hp) hp, fun o ho => h.rmo o (k.rmo o ho),
    fun g hg => h.groups g (k.groups g hg)⟩

theorem of_eq {s t : State} (hl : t.launches = s.launches) (hr : t.rmo = s.rmo) (hg : t.groups = s.groups) : EndKeeps s t :=
  ⟨fun _ _ h _ => by rw [hl]; exact h, fun _ h => hr ▸ h, fun _ h => hg ▸ h⟩

theorem foldl {α : Type} {f : State → α → State} (h : ∀ u x, EndKeeps u (f u x)) (xs : List α) (s : State) :
    EndKeeps s (xs.foldl f s) := by
  induction xs generalizing s with
  | nil => exact refl s
  | cons x xs ih => exact (h s x).trans (ih _)

end EndKeeps

theorem WritesOnly.endKeeps {s t : State} (h : WritesOnly s t) : EndKeeps s t := .of_eq (by rw [h]) (by rw [h]) (by rw [h])
theorem LogsOnly.endKeeps {s t : State} (h : LogsOnly s t) : EndKeeps s t := h.writes.endKeeps

section
variable (s : State)

theorem endKeeps_failLaunch (j st : Nat) : EndKeeps s (s.failLaunch j st) := by
  refine ⟨fun k l hl hp => ?_, fun o ho => by rw [endsOnly_failLaunch s j st] at ho; exact ho, fun g hg => ?_⟩
  rotate_left
  · unfold State.failLaunch at hg
    split at hg
    · exact hg
    · split at hg
      · exact hg
      · exact (List.mem_filter.mp hg).1
  unfold State.failLaunch
  split
  · exact hl
  · next l' hl' =>
    split
    · exact hl
    · next hf =>
      have hne : k ≠ j := by
        rintro rfl
        rw [hl] at hl'
        cases hl'
        exact hf (by simpa using hp)
      show Map.find? (Map.put s.launches j _) k = some l
      rw [Map.find?_put_other _ _ hne, hl]

theorem endKeeps_failCtx (ctx : Nat) : EndKeeps s (s.failCtx ctx) := by
  have h : EndKeeps s { s with failed := NSet.ins s.failed ctx } := .of_eq rfl rfl rfl
  exact h.trans (.foldl (fun u j => endKeeps_failLaunch u j 2) _ _)

theorem endKeeps_ras (e : RasEntry) : EndKeeps s (s.ras_ e) := (logsOnly_ras s e).endKeeps
theorem endKeeps_post (p : Nat) (ws : List Word) : EndKeeps s (s.post p ws).1 := (logsOnly_post s p ws).endKeeps

theorem endKeeps_dmaDone (c : DmaCmd) (st detail : Nat) : EndKeeps s (s.dmaDone c st detail) := by
  have hword : ∀ t : State, EndKeeps t (match c.desc with
      | some d =>
        if c.pkt || dStat d + 16 > poolSize c.org.core then t
        else t.poolWrite c.org.core (dStat d + 8) (leBytes (2 ^ 63 + st * 2 ^ 48 + detail % 2 ^ 48) 8)
      | none => t) := fun t => by
    split
    · split
      · exact .refl t
      · exact (writesOnly_writeLocs _ _ _ _).endKeeps
    · exact .refl t
  have hdrop : EndKeeps s { s with dma := s.dma.filter (fun o => o.id != c.id) } := .of_eq rfl rfl rfl
  have hqueue : ∀ t : State, EndKeeps t (if c.pkt then
      { t with queues := Map.modify t.queues c.org.queue (fun q => { q with started := q.started.map (fun p => p.dmaDone c st) }) }
      else t) := fun t => by
    split
    · exact .of_eq rfl rfl rfl
    · exact .refl t
  have hfail : ∀ t : State, EndKeeps t (if st == 8 then
      (t.ras_ { rasOf 0x03 2 (coreDie c.org.core) 0x03 c.org.core 8 with
        part := c.org.part, core := c.org.core, ctx := c.org.ctx }).failCtx c.org.ctx else t) := fun t => by
    split
    · exact (endKeeps_ras _ _).trans (endKeeps_failCtx _ _)
    · exact .refl t
  exact (hdrop.trans (hword _)).trans (((logsOnly_dmaCount _ c st).endKeeps.trans (hqueue _)).trans (hfail _))

theorem endKeeps_dmaLost (c : DmaCmd) (code : Nat) : EndKeeps s (s.dmaLost c code) := by
  unfold State.dmaLost
  split
  · exact endKeeps_dmaDone _ _ _ _
  · exact ((endKeeps_post _ _ _).trans (endKeeps_dmaDone _ _ _ _)).trans (endKeeps_failLaunch _ _ _)

theorem endKeeps_failRmo (c : RmoCmd) (f : RmoFail) : EndKeeps s (s.failRmo c f) := by
  have hdrop : EndKeeps s { s with rmo := s.rmo.filter (fun o => o.id != c.id) } :=
    ⟨fun _ _ h _ => h, fun o ho => (List.mem_filter.mp ho).1, fun _ h => h⟩
  unfold State.failRmo
  dsimp only
  have hend : ∀ (p st : Nat) (r : List Word) (l : Nat), EndKeeps s
      ((State.post { s with rmo := s.rmo.filter (fun o => o.id != c.id) } p r).1.failLaunch l st) := fun p st r l =>
    (hdrop.trans (endKeeps_post _ _ _)).trans (endKeeps_failLaunch _ _ _)
  split
  · exact (hend _ _ _ _).trans ((endKeeps_ras _ _).trans (endKeeps_failCtx _ _))
  · exact hend _ _ _ _

theorem endKeeps_failRmoAs (c : RmoCmd) (code : Nat) : EndKeeps s (s.failRmoAs c code) := endKeeps_failRmo s c _

theorem endKeeps_failRmos (code : Nat) (p : RmoCmd → Bool) : EndKeeps s (s.failRmos code p) := by
  refine .foldl (fun u c => ?_) _ _
  split
  · exact endKeeps_failRmoAs u c code
  · exact .refl u

theorem endKeeps_endLaunch (j st : Nat) : EndKeeps s (s.endLaunch j st) := by
  unfold State.endLaunch
  dsimp only
  refine ((endKeeps_failLaunch s j st).trans ?_).trans (endKeeps_failRmos _ _ _)
  have h : EndKeeps (s.failLaunch j st) { s.failLaunch j st with
    mtx := (s.failLaunch j st).mtx.filter (fun c => !c.org.of j)
    routes := (s.failLaunch j st).routes.filter (fun c => !c.org.of j) } := .of_eq rfl rfl rfl
  refine h.trans (.foldl (fun u c => ?_) _ _)
  split
  · split
    · exact endKeeps_dmaLost u c _
    · exact endKeeps_dmaDone u c _ _
  · exact .refl u

theorem logsOnly_hangRecord (launch : Nat) (l : Launch) : LogsOnly s (s.hangRecord launch l) := by
  unfold State.hangRecord
  dsimp only
  split
  · exact logsOnly_post s _ _
  · exact logsOnly_post s _ _

end

/-! ### The end of a launch with a status -/

/-- Launch k fails with a packet status. -/
def FailsWith (s : State) (k st : Nat) : Prop := ∃ l, Map.find? s.launches k = some l ∧ l.phase = .failing ∧ l.status = st

theorem FailsWith.keeps {s t : State} {k st : Nat} (h : FailsWith s k st) (hk : EndKeeps s t) : FailsWith t k st := by
  obtain ⟨l, hl, hp, hst⟩ := h
  exact ⟨l, hk.failing k l hl hp, hp, hst⟩

/-- A running launch that ends fails with the status given (R71). -/
theorem State.failLaunch_failsWith {s : State} {k st : Nat} {l : Launch} (hl : Map.find? s.launches k = some l)
    (hp : l.phase ≠ .failing) : FailsWith (s.failLaunch k st) k st := by
  unfold State.failLaunch
  rw [hl]
  dsimp only
  rw [if_neg (by simpa using hp)]
  exact ⟨_, Map.find?_put_same _ _ _, rfl, rfl⟩

/-- An RMO that fails leaves, and ends its launch with packet status 2 (R189). -/
theorem State.failRmo_spec {s : State} {c : RmoCmd} {l : Launch} (f : RmoFail)
    (hl : Map.find? s.launches (c.org.launch.getD 0) = some l) (hp : l.phase ≠ .failing) :
    FailsWith (s.failRmo c f) (c.org.launch.getD 0) 2 ∧ ∀ o ∈ (s.failRmo c f).rmo, o.id ≠ c.id := by
  have hpost := logsOnly_post { s with rmo := s.rmo.filter (fun o => o.id != c.id) } c.org.part (rmoRecord c f
    (State.dieTime { s with rmo := s.rmo.filter (fun o => o.id != c.id) } (coreDie c.org.core)))
  have hend := State.failLaunch_failsWith (st := 2) (hpost.launches ▸ hl) hp
  have hgone : ∀ o ∈ ((State.post { s with rmo := s.rmo.filter (fun o => o.id != c.id) } c.org.part (rmoRecord c f
      (State.dieTime { s with rmo := s.rmo.filter (fun o => o.id != c.id) } (coreDie c.org.core)))).1.failLaunch
        (c.org.launch.getD 0) 2).rmo, o.id ≠ c.id := fun o ho => by
    have := hpost.endKeeps.rmo o ((endKeeps_failLaunch _ _ _).rmo o ho)
    simpa using (List.mem_filter.mp this).2
  unfold State.failRmo
  dsimp only
  split
  · have hk : ∀ (u : State) (r : RasEntry), EndKeeps u ((u.ras_ r).failCtx c.org.ctx) := fun u r =>
      (endKeeps_ras u r).trans (endKeeps_failCtx _ c.org.ctx)
    exact ⟨hend.keeps (hk _ _), fun o ho => hgone o ((hk _ _).rmo o ho)⟩
  · exact ⟨hend, hgone⟩

end Sys2Proof.Machine

/-! Proofs: RMOs issue, and the local target applies them (R62, R64, R179, R184 to R186, R193, R291, R376). -/

namespace Sys2Proof.Machine

/-- The RMO instructions with their FN. -/
def rmoOps : List ((GroupRef → Enc → Instr) × Nat) :=
  [(Instr.put, 0), (Instr.get, 1), (Instr.ratom, 2), (Instr.sig, 3), (Instr.puts, 4), (Instr.iput, 5), (Instr.red, 6)]

/-- What an RMO instruction brings to the front end. -/
def rmoIns (fn : Nat) (e : Enc) : Ins := ⟨0x2B, fn, decodeRmo fn e, rmoRegs fn e⟩

theorem exec_rmo {p : (GroupRef → Enc → Instr) × Nat} (hp : p ∈ rmoOps) (r : GroupRef) (e : Enc) (s : State) :
    exec (p.1 r e) s = queueRmo p.2 r e s ∧ frontEnd (p.1 r e) = some (r, e, rmoIns p.2 e) := by
  unfold rmoOps at hp
  fin_cases hp <;> exact ⟨rfl, rfl⟩

/-- The operands of an RMO: local offset, target offset, length and the second word of its operand. -/
structure RmoArgs where
  lo : Nat
  o  : Nat
  n  : Nat
  v1 : Word

/-- An RMO reads a second operand word. -/
def rmoPair (fn : Nat) (e : Enc) : Bool := fn == 4 || (fn == 2 && encF e 15 12 == 9)

/-- The operands that the scalar registers of a group hold. -/
def rmoArgs (fn : Nat) (e : Enc) (g : Group) : RmoArgs :=
  ⟨if fn = 3 then 0 else (g.gs (encD e)).toNat, (g.gs (encA e)).toNat, if fn = 2 ∨ fn = 3 then 0 else (g.gs (encB e)).toNat,
    if rmoPair fn e then g.gs (encC e + 1) else 0⟩

/-- The command that an RMO instruction creates. -/
def rmoCmdOf (s : State) (fn : Nat) (r : GroupRef) (e : Enc) (g : Group) (l : Launch) : RmoCmd :=
  let node := if encF e 16 16 == 1 then s.nodeId else encX e 57 42
  let a := rmoArgs fn e g
  ⟨s.nextId, originOf r g l e (rmoIns fn e), fn, node, node == s.nodeId, encX e 41 26, encX e 25 10, a.lo, a.o, a.n, g.gs (encC e),
    a.v1, encF e 15 12, encF e 11 7, if encF e 17 17 == 1 then some (encF e 21 18) else none, 0, 0, none⟩

/-- The state with the command of an RMO created, before it meets its session. -/
def State.rmoQueued (s : State) (r : GroupRef) (e : Enc) (g : Group) (c : RmoCmd) : State :=
  { s.noteUnreplayable g.launch with nextId := s.nextId + 1, rmo := s.rmo ++ [c] }.putGroup r (g.next e)

section
variable {s u : State} {i : Instr} {r : GroupRef} {e : Enc} {g : Group} {l : Launch} {fn : Nat}

/-- The registers that an RMO reads. -/
theorem mem_rmoRegs (fn : Nat) (e : Enc) : (fn ≠ 3 → encD e ∈ rmoRegs fn e) ∧ encA e ∈ rmoRegs fn e ∧
    (fn ≠ 2 → fn ≠ 3 → encB e ∈ rmoRegs fn e) ∧ (rmoPair fn e = true → encC e + 1 ∈ rmoRegs fn e) := by
  unfold rmoRegs rmoPair
  refine ⟨fun h => by simp [h], by simp, fun h2 h3 => by simp [h2, h3], fun h => ?_⟩
  rw [if_pos h]
  simp

/-- With clean registers, an RMO instruction checks and takes the operands that they hold (R186). -/
theorem queueRmo_eq (h : Issues s u i r e g l) (hn : frontEnd i = some (r, e, rmoIns fn e)) (hm : effMask g e ≠ 0)
    (hs : scalarsClean i g) : queueRmo fn r e s =
      (let a := rmoArgs fn e g
       if fn != 3 && !u.regFree r.core.toNat then .next u
       else match lowestFault [trackFault g (encF e 17 17 == 1) (encF e 21 18),
         rmoFault fn (poolSize r.core.toNat) a.lo a.o a.n a.v1.toNat (encF e 11 7)] with
       | some code => raise u r e (rmoIns fn e) g l code (effMask g e) 0
       | none =>
         if fn != 2 && fn != 3 && a.n == 0 then .next (u.putGroup r (g.next e))
         else .next ((u.rmoQueued r e g (rmoCmdOf u fn r e g l)).rmoStart (rmoCmdOf u fn r e g l))) := by
  have hclean : ∀ x ∈ rmoRegs fn e, g.spois.contains x = false := fun x hx => by
    simpa using hs.of_frontEnd hn x hx
  obtain ⟨hd, ha, hb, hc⟩ := mem_rmoRegs fn e
  have hlo : ∀ d, (if fn == 3 then 0 else if g.spois.contains (encD e) = true then d else (g.gs (encD e)).toNat) =
      (rmoArgs fn e g).lo := fun d => by
    by_cases h3 : fn = 3
    · simp [rmoArgs, h3]
    · simp only [rmoArgs, beq_iff_eq, h3, if_false, hclean _ (hd h3), Bool.false_eq_true]
  have hn' : ∀ d, (if (fn == 2 || fn == 3) = true then 0 else if g.spois.contains (encB e) = true then d else (g.gs (encB e)).toNat) =
      (rmoArgs fn e g).n := fun d => by
    by_cases h23 : fn = 2 ∨ fn = 3
    · simp [rmoArgs, h23]
    · obtain ⟨h2, h3⟩ := not_or.mp h23
      simp only [rmoArgs, Bool.or_eq_true, beq_iff_eq, h23, if_false, hclean _ (hb h2 h3), Bool.false_eq_true]
  have hv : ∀ d, (if rmoPair fn e = true then BitVec.ofNat 64 (if g.spois.contains (encC e + 1) = true then d else
      (g.gs (encC e + 1)).toNat) else 0 : Word) = (rmoArgs fn e g).v1 := fun d => by
    by_cases hp : rmoPair fn e = true
    · simp only [rmoArgs, hp, if_true, hclean _ (hc hp), Bool.false_eq_true, if_false, BitVec.ofNat_toNat, BitVec.setWidth_eq]
    · simp only [rmoArgs, hp, if_false, Bool.false_eq_true]
  have hnone : (rmoRegs fn e).any (fun x => g.spois.contains x) = false := by
    rw [List.any_eq_false]
    exact fun x hx => by simpa using hclean x hx
  refine (runSolo_of_issues h hn hm _).trans ?_
  have hv' : ∀ d, (if fn == 4 || (fn == 2 && encF e 15 12 == 9) then BitVec.ofNat 64 (if g.spois.contains (encC e + 1) = true then d else
      (g.gs (encC e + 1)).toNat) else 0 : Word) = (rmoArgs fn e g).v1 := hv
  simp only [rmoRegs] at hnone
  simp only [hlo, hn', hv', hclean _ ha, Bool.false_eq_true, if_false]
  rw [hnone]
  rfl

end

/-- Settles O24: an RMO instruction by `queueRmo_eq`, a message to the local target along the cases of its piece. -/
theorem rmoIssueAndApplyComplete : Obligations.rmo_issue_and_apply_complete := by
  unfold Obligations.rmo_issue_and_apply_complete
  refine ⟨fun p hp r e s u g l => ?_, fun s id c win row off o hc hown hfail hnext ht hheld hblocked => ?_⟩
  · intro fn core pair lo o n v1 node h hsolo hfault htrack
    obtain ⟨hexec, hfront⟩ := exec_rmo hp r e s
    obtain ⟨hm, hs⟩ := hsolo
    have hpair : rmoPair fn e = true ↔ pair := by
      show _ ↔ (fn = 4 ∨ (fn = 2 ∧ encF e 15 12 = 9))
      simp [rmoPair]
    have hv1 : (rmoArgs fn e g).v1 = v1 := if_congr hpair rfl rfl
    rw [← hv1] at hfault
    have hclear : rmoFault p.2 (poolSize r.core.toNat) (rmoArgs p.2 e g).lo (rmoArgs p.2 e g).o (rmoArgs p.2 e g).n
        (rmoArgs p.2 e g).v1.toNat (encF e 11 7) = none := hfault
    have hnone : lowestFault [trackFault g (encF e 17 17 == 1) (encF e 21 18),
        rmoFault p.2 (poolSize r.core.toNat) (rmoArgs p.2 e g).lo (rmoArgs p.2 e g).o (rmoArgs p.2 e g).n
          (rmoArgs p.2 e g).v1.toNat (encF e 11 7)] = none := by
      rw [hclear, htrack]
      rfl
    have heq := hexec.trans (queueRmo_eq h hfront hm hs)
    refine ⟨fun h3 hreg => heq.trans (if_pos ?_), fun h2 h3 hreg hn0 => ?_, fun hn0 hreg => ?_⟩
    · rw [Bool.and_eq_true, bne_iff_ne, Bool.not_eq_true']
      exact ⟨h3, hreg⟩
    · refine heq.trans ((if_neg ?_).trans ?_)
      · rw [Bool.and_eq_true, not_and, Bool.not_eq_true', Bool.not_eq_false]
        exact fun _ => hreg
      · rw [hnone]
        refine if_pos ?_
        rw [Bool.and_eq_true, Bool.and_eq_true, bne_iff_ne, bne_iff_ne, beq_iff_eq]
        exact ⟨⟨h2, h3⟩, hn0⟩
    · refine ⟨rmoCmdOf u fn r e g l, rfl, rfl, if_congr beq_iff_eq rfl rfl,
        congrArg (· == u.nodeId) (if_congr beq_iff_eq rfl rfl), rfl, rfl, rfl, rfl, rfl, rfl, hv1, rfl, rfl, rfl, rfl, ?_, fun hnode => ?_⟩
      · refine heq.trans ((if_neg ?_).trans ?_)
        · rw [Bool.and_eq_true, bne_iff_ne, Bool.not_eq_true']
          rintro ⟨h3, hfree⟩
          exact absurd (hfree.symm.trans (hreg.resolve_left h3)) (by decide)
        · rw [hnone]
          refine if_neg ?_
          rw [Bool.and_eq_true, Bool.and_eq_true, bne_iff_ne, bne_iff_ne, beq_iff_eq]
          rintro ⟨⟨h2, h3⟩, hn⟩
          exact (hn0.resolve_left h2).resolve_left h3 hn
      · refine if_pos (beq_iff_eq.mpr ((if_congr beq_iff_eq rfl rfl).trans hnode))
  · have happly : exec (.rmoTargetApply id) s = match s.rmoPiece c c.next with
        | .skip => .next (s.putRmo { c with next := c.next + 1 })
        | .bad win row off => .next (s.putRmo { c with fail := some ⟨7, win, row, off, c.partly⟩ })
        | .op win row off o =>
          match s.applyT c.org.part win off o with
          | .wait => s.idle "a line or row of the target is in flight"
          | .fail r => .next (r.s.putRmo { c with fail := some ⟨r.code, win, row, r.off, c.partly⟩ })
          | .ok t bs => .next ((t.rmoResult c off bs).putRmo { c with next := c.next + 1 }) := by
      refine (State.clocked_of ht _).trans ?_
      rw [hc]
      dsimp only
      rw [if_neg (by simp [hown, hfail, hheld, hblocked, hnext])] <;> rfl
    refine ⟨fun hp => ?_, fun hp => ?_, fun t bs hp ha => ?_, fun x hp ha => ?_⟩
    · rw [happly, hp]
    · rw [happly, hp]
    · rw [happly, hp]
      dsimp only
      rw [ha]
    · rw [happly, hp]
      dsimp only
      rw [ha]

end Sys2Proof.Machine

/-! Proofs: windows over a pool, and the ends of RMOs (R182 to R190, R192). -/

namespace Sys2Proof.Machine

/-! ### A message to a window over a pool -/

section
variable {s : State} {p win off : Nat} {o : TOp} {w : Window}

theorem State.window?_of_exported (hw : Map.find? s.windows (p * 65536 + win) = some w) (hd : w.withdrawing = false)
    (hwin : win < s.winEntries p) : s.window? p win = some w := by
  rw [State.window?, if_pos hwin, hw]
  simp [Option.filter, hd]

theorem State.window?_eq_none (hw : Map.find? s.windows (p * 65536 + win) = some w)
    (h : w.withdrawing = true ∨ s.winEntries p ≤ win) : s.window? p win = none := by
  rw [State.window?]
  split
  · next hlt =>
    rw [hw]
    simp [Option.filter, h.resolve_right (Nat.not_le.mpr hlt)]
  · rfl

/-- What the checks of R185 refuse, a message meets. -/
theorem State.applyT_of_refused {r : Refused} (h : s.target p win off o.len o.right o.need = .error r) (hr : r.code ≠ 10) :
    s.applyT p win off o = .fail r := by
  rw [State.applyT, h]
  exact if_neg (by simpa using hr)

/-- The bytes of an open pool window, not asleep and without a poisoned byte, meet the message (R192). -/
theorem State.applyT_pool (hw : s.window? p win = some w) (hspace : w.space = 2)
    (ht : s.target p win off o.len o.right o.need = .ok ⟨s, poolLocs w.core (w.base + off) o.len, []⟩)
    (hawake : s.rf (.bsnPwrSts (coreBasin w.core)) 1 0 < 2) (hclean : (s.readLocs 0 (poolLocs w.core (w.base + off) o.len)).2 = false) :
    s.applyT p win off o = .ok (match o with
        | .read _ => s
        | _ => s.writeLocs 0 (poolLocs w.core (w.base + off) o.len) (o.newBytes (s.readLocs 0 (poolLocs w.core (w.base + off) o.len)).1))
      (s.readLocs 0 (poolLocs w.core (w.base + off) o.len)).1 := by
  have hrepair : (poolLocs w.core (w.base + off) o.len).any s.inRepair = false := by
    rw [List.any_eq_false]
    intro l hl
    obtain ⟨i, -, rfl⟩ := List.mem_map.mp hl
    simp [State.inRepair]
  have hasleep : s.poolAsleep p win = false := by
    rw [State.poolAsleep, hw]
    simpa [hspace] using hawake
  rw [State.applyT, ht]
  dsimp only
  rw [if_neg (by rw [hrepair, hasleep]; decide)]
  cases o with
  | read n => exact if_neg (by rw [hclean]; simp)
  | write bs => exact if_neg (by rw [hclean]; simp)
  | atomic aop ty opd cmp => exact if_neg (by rw [hclean]; simp)
  | signal v => exact if_neg (by rw [hclean]; simp)
  | reduce ty bs => exact if_neg (by rw [hclean]; simp)

end

/-! ### The ends of RMOs -/

theorem State.failRmoAs_spec {s : State} {c : RmoCmd} {l : Launch} (code : Nat)
    (hl : Map.find? s.launches (c.org.launch.getD 0) = some l) (hp : l.phase ≠ .failing) :
    FailsWith (s.failRmoAs c code) (c.org.launch.getD 0) 2 ∧ ∀ o ∈ (s.failRmoAs c code).rmo, o.id ≠ c.id :=
  State.failRmo_spec _ hl hp

theorem FailsWith.markSuspect {s : State} {k st : Nat} (h : FailsWith s k st) :
    ∃ l, Map.find? (s.markSuspect k).launches k = some l ∧ l.phase = .failing ∧ l.status = st ∧ l.suspect = true := by
  obtain ⟨l, hl, hp, hst⟩ := h
  refine ⟨{ l with suspect := true }, ?_, hp, hst, rfl⟩
  rw [State.markSuspect, Map.find?_modify, if_pos rfl, hl]
  rfl

theorem State.markSuspect_rmo (s : State) (k : Nat) : (s.markSuspect k).rmo = s.rmo := rfl

/-- Settles O25: a window's message by `State.applyT_pool` and the checks before it, the ends by `State.failRmo_spec`. -/
theorem rmoResults : Obligations.rmo_results := by
  unfold Obligations.rmo_results
  refine ⟨fun s p win off o w hw => ?_, fun s id c hc => ?_⟩
  · intro fails locs old
    refine ⟨fun h => ?_, fun hd hwin hlen => ?_, fun hd hwin hlen hright => ?_, fun hd hwin hlen hright hspace => ⟨fun hopen => ?_, fun hopen hawake hclean => ?_⟩⟩
    · refine State.applyT_of_refused ?_ (by simp)
      rw [State.target, State.window?_eq_none hw h]
    · refine State.applyT_of_refused ?_ (by simp)
      rw [State.target, State.window?_of_exported hw hd hwin]
      exact if_pos hlen
    · refine State.applyT_of_refused ?_ (by simp)
      rw [State.target, State.window?_of_exported hw hd hwin]
      exact (if_neg (Nat.not_lt.mpr hlen)).trans (if_pos (by rw [hright]; rfl))
    · refine State.applyT_of_refused ?_ (by simp)
      rw [State.target, State.window?_of_exported hw hd hwin]
      dsimp only
      rw [if_neg (Nat.not_lt.mpr hlen), if_neg (by rw [hright]; decide), if_pos (by simp [hspace]), if_neg (by simp [hopen])]
    · have ht : s.target p win off o.len o.right o.need = .ok ⟨s, locs, []⟩ := by
        rw [State.target, State.window?_of_exported hw hd hwin]
        dsimp only
        rw [if_neg (Nat.not_lt.mpr hlen), if_neg (by rw [hright]; decide), if_pos (by simp [hspace]), if_pos hopen]
      have happly := State.applyT_pool (State.window?_of_exported hw hd hwin) hspace ht hawake hclean
      refine ⟨?_, ?_, ?_⟩
      · rintro n rfl
        exact happly
      · rintro v rfl
        exact ⟨_, happly, wrote_writeLocs _ _ _ _⟩
      · rintro bs rfl
        exact ⟨_, happly, wrote_writeLocs _ _ _ _⟩
  · have hid : c.id = id := by simpa using List.find?_some hc
    refine ⟨fun hfail hcount hown => ?_, fun f l hfail hl hp => ?_, fun l hl hp => ?_⟩
    · have hset : c.settled = true := by simp [RmoCmd.settled, hcount, hown]
      show execRmoComplete id s = _
      rw [execRmoComplete, hc]
      dsimp only
      rw [hfail]
      exact if_pos hset
    · obtain ⟨⟨l', hl', hph, hst⟩, hgone⟩ := State.failRmo_spec f hl (by rw [hp]; decide)
      refine ⟨s.failRmo c f, l', ?_, hid ▸ hgone, hl', hph, hst⟩
      show execRmoComplete id s = _
      rw [execRmoComplete, hc]
      dsimp only
      rw [hfail]
    · have hlog : ∀ e : RasEntry, LogsOnly s ((s.hangRecord (c.org.launch.getD 0) l).ras_ e) := fun e =>
        (logsOnly_hangRecord s _ l).trans (logsOnly_ras _ _)
      have hfails := fun e : RasEntry => State.failRmoAs_spec (c := c) 8 ((hlog e).launches ▸ hl) (by rw [hp]; decide)
      have hend := fun t : State => endKeeps_endLaunch t (c.org.launch.getD 0) 2
      obtain ⟨hf, hgone⟩ := hfails { rasOf 0x0E 2 (coreDie c.org.core) 0x03 c.org.core 2 with
        part := c.org.part, core := c.org.core, ctx := c.org.ctx }
      obtain ⟨l', hl', hph, hst, hsus⟩ := (hf.keeps (hend _)).markSuspect
      refine ⟨_, l', ?_, fun o ho => ?_, hl', hph, hst, hsus⟩
      rotate_left
      · rw [State.markSuspect_rmo] at ho
        exact hid ▸ hgone o ((hend _).rmo o ho)
      show execRmoTimeout id s = _
      rw [execRmoTimeout, hc]
      dsimp only
      rw [hl]

end Sys2Proof.Machine

/-! Proofs: what the coherence operations of the caches and the home leave (R215 to R227). -/

namespace Sys2Proof.Machine

/-! ### Maps -/

section
variable {α : Type}

theorem Map.put_put (m : Map α) (i : Nat) (a b : α) : Map.put (Map.put m i a) i b = Map.put m i b := by
  induction m with
  | nil => simp [Map.put]
  | cons kv m ih =>
    obtain ⟨k, v⟩ := kv
    rcases Nat.lt_trichotomy i k with h | h | h
    · simp [Map.put, h]
    · simp [Map.put, h]
    · simp [Map.put, Nat.not_lt.mpr (Nat.le_of_lt h), Nat.ne_of_gt h, ih]

/-- Changing a value just put puts the changed one. -/
theorem Map.modify_put (m : Map α) (i : Nat) (a : α) (f : α → α) : Map.modify (Map.put m i a) i f = Map.put m i (f a) := by
  unfold Map.modify
  rw [Map.find?_put_same]
  exact Map.put_put m i a (f a)

/-- An entry of an unlisted key that a filter refuses changes nothing of what the filter keeps. -/
theorem Map.filter_put_of_refused {m : Map α} {i : Nat} {a : α} {p : Nat × α → Bool} (hm : Map.find? m i = none)
    (hp : p (i, a) = false) : (Map.put m i a).filter p = m.filter p := by
  induction m with
  | nil => simp [Map.put, hp]
  | cons kv m ih =>
    obtain ⟨k, v⟩ := kv
    rw [Map.find?] at hm
    split at hm
    · simp at hm
    · next hik =>
      rw [Map.put]
      split
      · rw [List.filter_cons, if_neg (by simp [hp])]
      · rw [List.filter_cons, List.filter_cons, ih hm]

theorem Map.find?_drop_same (m : Map α) (i : Nat) : Map.find? (Map.drop m i) i = none := by
  rw [Map.find?_drop, if_pos rfl]

theorem Map.find?_drop_other (m : Map α) {i j : Nat} (h : j ≠ i) : Map.find? (Map.drop m i) j = Map.find? m j := by
  rw [Map.find?_drop, if_neg h]

theorem Map.find?_mapV (m : Map α) (f : Nat → α → α) (j : Nat) : Map.find? (Map.mapV m f) j = (Map.find? m j).map (f j) := by
  induction m with
  | nil => rfl
  | cons kv m ih =>
    obtain ⟨k, v⟩ := kv
    unfold Map.mapV at ih ⊢
    rw [List.map_cons, Map.find?, Map.find?]
    split
    · next h => rw [h]; rfl
    · exact ih

end

/-! ### Frames -/

theorem State.dirOf_eq {s : State} {line : Nat} {f : Frame} (h : s.frame? line = some f) : s.dirOf line = f := by
  rw [State.dirOf, Map.getD, show Map.find? s.coh.dir line = some f from h]
  rfl

theorem State.dirOf_of_none {s : State} {line : Nat} (h : s.frame? line = none) : s.dirOf line = Frame.none_ := by
  rw [State.dirOf, Map.getD, show Map.find? s.coh.dir line = none from h]
  rfl

theorem State.frame?_modDir (s : State) (line : Nat) (f : Frame → Frame) : (s.modDir line f).frame? line = (s.frame? line).map f := by
  show Map.find? (Map.modify s.coh.dir line f) line = _
  rw [Map.find?_modify, if_pos rfl]
  rfl

/-- A frame that a slice holds is changed. -/
theorem State.dirOf_modDir {s : State} {line : Nat} (h : (s.frame? line).isSome) (f : Frame → Frame) :
    (s.modDir line f).dirOf line = f (s.dirOf line) := by
  obtain ⟨x, hx⟩ := Option.isSome_iff_exists.mp h
  rw [State.dirOf_eq hx, State.dirOf_eq (f := f x) (by rw [State.frame?_modDir, hx]; rfl)]

/-- A change that leaves the frame of an unheld line applies to every line. -/
theorem State.dirOf_modDir_of_fixed (s : State) (line : Nat) {f : Frame → Frame} (h : f Frame.none_ = Frame.none_) :
    (s.modDir line f).dirOf line = f (s.dirOf line) := by
  cases hf : s.frame? line with
  | some x => exact State.dirOf_modDir (by rw [hf]; rfl) f
  | none =>
    rw [State.dirOf_of_none hf, h]
    refine State.dirOf_of_none ?_
    rw [State.frame?_modDir, hf]
    rfl

theorem State.frame?_isSome_of_owner {s : State} {line c : Nat} (h : (s.dirOf line).owner = some c) : (s.frame? line).isSome := by
  cases hf : s.frame? line with
  | some x => rfl
  | none =>
    rw [State.dirOf_of_none hf] at h
    cases h

theorem State.frame?_isSome_of_waits {s : State} {line : Nat} {w : Waiter × List Nat} {ws : List (Waiter × List Nat)}
    (h : (s.dirOf line).waits = w :: ws) : (s.frame? line).isSome := by
  cases hf : s.frame? line with
  | some x => rfl
  | none =>
    rw [State.dirOf_of_none hf] at h
    cases h

/-- A line for which a frame is had stands in its slice (R219). -/
theorem State.frame?_of_frameFor {s u : State} {line : Nat} {secs : BitVec 4} (h : s.frameFor line secs = some u) :
    (u.frame? line).isSome := by
  have hfill : ∀ t : State, (t.frame? line).isSome → ((t.fillSecs line secs).frame? line).isSome := fun t ht => by
    show ((t.modDir line _).frame? line).isSome
    rw [State.frame?_modDir]
    simpa using ht
  have hset : ∀ (t : State) (d : Frame), ((t.setDir line d).frame? line).isSome := fun t d => by
    show (Map.find? (Map.put t.coh.dir line d) line).isSome
    rw [Map.find?_put_same]
    rfl
  unfold State.frameFor at h
  split at h
  · next hf =>
    cases h
    exact hfill _ hf
  · dsimp only at h
    split at h
    · cases h
      exact hfill _ (hset _ _)
    · obtain ⟨v, -, rfl⟩ := Option.map_eq_some_iff.mp h
      exact hfill _ (hset _ _)

/-! ### Messages -/

/-- `t` is `s` with more messages in flight. -/
structure SendsOnly (s t : State) : Prop where
  rest : t = { s with coh := { s.coh with msgs := t.coh.msgs } }
  before : s.coh.msgs <+: t.coh.msgs

namespace SendsOnly

theorem refl (s : State) : SendsOnly s s := ⟨rfl, List.prefix_rfl⟩

theorem trans {s t u : State} (h : SendsOnly s t) (k : SendsOnly t u) : SendsOnly s u := by
  refine ⟨?_, h.before.trans k.before⟩
  rw [k.rest, h.rest]

section
variable {s t : State} (h : SendsOnly s t)
include h

theorem msgs : ∀ m ∈ s.coh.msgs, m ∈ t.coh.msgs := fun _ hm => h.before.subset hm
theorem l1 : t.coh.l1 = s.coh.l1 := by rw [h.rest]
theorem wbuf : t.coh.wbuf = s.coh.wbuf := by rw [h.rest]
theorem dir : t.coh.dir = s.coh.dir := by rw [h.rest]
theorem mshr : t.coh.mshr = s.coh.mshr := by rw [h.rest]
theorem frame? (line : Nat) : t.frame? line = s.frame? line := by rw [State.frame?, h.dir]; rfl
theorem dirOf (line : Nat) : t.dirOf line = s.dirOf line := by rw [State.dirOf, h.dir]; rfl

end

end SendsOnly

theorem sendsOnly_send (s : State) (k : CKind) (c line : Nat) : SendsOnly s (s.send k c line) :=
  ⟨rfl, List.prefix_append _ _⟩

theorem State.mem_send (s : State) (k : CKind) (c line : Nat) : ⟨k, c, line⟩ ∈ (s.send k c line).coh.msgs := by
  simp [State.send]

theorem sendsOnly_noteLeft (s : State) (c line : Nat) : SendsOnly s (s.noteLeft c line) := by
  unfold State.noteLeft
  split
  · exact .refl s
  · exact sendsOnly_send s _ _ _

theorem sendsOnly_foldl {α : Type} (f : State → α → State) (h : ∀ u x, SendsOnly u (f u x)) (xs : List α) (s : State) :
    SendsOnly s (xs.foldl f s) := by
  induction xs generalizing s with
  | nil => exact .refl s
  | cons x xs ih => exact (h s x).trans (ih _)

/-- A message to each of a list of caches leaves. -/
theorem State.mem_foldl_send (s : State) (k : CKind) (line : Nat) (xs : List Nat) :
    ∀ x ∈ xs, ⟨k, x, line⟩ ∈ (xs.foldl (fun t x => t.send k x line) s).coh.msgs := by
  induction xs generalizing s with
  | nil => simp
  | cons y xs ih =>
    intro x hx
    rcases List.mem_cons.mp hx with rfl | hx
    · exact (sendsOnly_foldl _ (fun u z => sendsOnly_send u k z line) xs _).msgs _ (State.mem_send s k x line)
    · exact ih _ x hx

end Sys2Proof.Machine

/-! Proofs: requests at their home and forwards at a cache (R17, R18, R220 to R226). -/

namespace Sys2Proof.Machine

/-! ### A request is recorded -/

theorem LogsOnly.coh {s t : State} (h : LogsOnly s t) : t.coh = s.coh := by rw [h]

theorem State.mshr_evictFrame (s : State) (line : Nat) : (s.evictFrame line).coh.mshr = s.coh.mshr := by
  unfold State.evictFrame
  dsimp only
  rw [LogsOnly.coh (logsOnly_discardNote _ _)]
  rfl

theorem State.mshr_frameFor {s u : State} {line : Nat} {secs : BitVec 4} (h : s.frameFor line secs = some u) :
    u.coh.mshr = s.coh.mshr := by
  unfold State.frameFor at h
  split at h
  · cases h
    rfl
  · dsimp only at h
    split at h
    · cases h
      rfl
    · obtain ⟨v, -, rfl⟩ := Option.map_eq_some_iff.mp h
      exact State.mshr_evictFrame s.fresh.2 v.1

/-- The state in which the home has recorded the request of a cache: the miss is served, the die's presence bit set. -/
def State.recorded (u : State) (line c : Nat) (excl : Bool) : State :=
  let s := u.setMiss c line ⟨excl, false, false, 0, 0, []⟩
  ({ s with coh := { s.coh with mshr := Map.modify s.coh.mshr (lineKey c line) (fun m => { m with
      served := true
      old := s.forwardsTo c line }) } }).present_ c line

section
variable {u : State} {line c : Nat} {excl : Bool}

theorem State.recorded_l1 : (u.recorded line c excl).coh.l1 = u.coh.l1 := rfl

theorem State.recorded_mshr : (u.recorded line c excl).coh.mshr =
    Map.put u.coh.mshr (lineKey c line) ⟨excl, true, false, u.forwardsTo c line, 0, []⟩ :=
  Map.modify_put _ _ _ _

theorem State.recorded_miss : Map.find? (u.recorded line c excl).coh.mshr (lineKey c line) =
    some ⟨excl, true, false, u.forwardsTo c line, 0, []⟩ := by
  rw [State.recorded_mshr, Map.find?_put_same]

theorem State.recorded_dirOf (hf : (u.frame? line).isSome) : ((u.recorded line c excl).frame? line).isSome ∧
    (u.recorded line c excl).dirOf line = { u.dirOf line with present := (u.dirOf line).present ||| dieBit (cacheDie c) } := by
  refine ⟨?_, State.dirOf_modDir (s := State.voidClears _ (cacheDie c) line) hf _⟩
  unfold State.recorded State.present_
  rw [State.frame?_modDir, Option.isSome_map]
  exact hf

theorem getLsbD_or_dieBit {p : BitVec 12} {d d' : Nat} (h : d ≠ d') : (p ||| dieBit d').getLsbD d = p.getLsbD d := by
  have hbit : (dieBit d').getLsbD d = false := by
    unfold dieBit
    simp only [BitVec.getLsbD_shiftLeft, BitVec.getLsbD_one]
    grind
  rw [BitVec.getLsbD_or, hbit, Bool.or_false]

/-- Recording a GetM leaves the sharers that it invalidates. -/
theorem State.recorded_sharers (hf : (u.frame? line).isSome) (hm : Map.find? u.coh.mshr (lineKey c line) = none) :
    (u.recorded line c true).sharers c line = u.sharers c line := by
  have hfilling : (u.recorded line c true).filling line = u.filling line := by
    unfold State.filling
    rw [State.recorded_mshr, Map.filter_put_of_refused hm (by simp)]
  have hinv : ∀ x, (u.recorded line c true).coh.msgs.any (fun m => m.kind == .inv && m.cache == x && m.line == line) =
      u.coh.msgs.any (fun m => m.kind == .inv && m.cache == x && m.line == line) := fun x => by
    show (u.coh.msgs.map _).any _ = _
    rw [List.any_map]
    congr 1
    funext m
    dsimp only [Function.comp_apply]
    split
    · next h =>
      simp only [Bool.and_eq_true, beq_iff_eq] at h
      rw [h.1.1]
      rfl
    · rfl
  unfold State.sharers
  rw [hfilling, (State.recorded_dirOf hf).2, show (u.recorded line c true).holders line = u.holders line from rfl]
  simp only [hinv]
  congr 4
  funext d
  by_cases hd : d = cacheDie c
  · simp [hd]
  · rw [getLsbD_or_dieBit hd]

/-- The home serves a GetS. -/
theorem State.serve_gets (hf : (u.frame? line).isSome) :
    let d := u.dirOf line
    let t := (u.setMiss c line ⟨false, false, false, 0, 0, []⟩).serve line c false
    (t.coh.l1 = u.coh.l1 ∧ t.coh.mshr = (u.recorded line c false).coh.mshr ∧
      (t.dirOf line).present = d.present ||| dieBit (cacheDie c)) ∧
    (d.owner = none → d.present = 0 → ⟨.data false true, c, line⟩ ∈ t.coh.msgs ∧ (t.dirOf line).owner = some c) ∧
    (d.owner = none → d.present ≠ 0 → ⟨.data false false, c, line⟩ ∈ t.coh.msgs ∧ (t.dirOf line).owner = none) ∧
    (∀ o, d.owner = some o → ⟨.fwdGetS c, o, line⟩ ∈ t.coh.msgs ∧ (t.dirOf line).owner = some o) := by
  intro d t
  obtain ⟨hf', hdir⟩ := State.recorded_dirOf (excl := false) (c := c) hf
  have ht : t = match d.owner with
      | some o => (u.recorded line c false).send (.fwdGetS c) o line
      | none =>
        if d.present == 0 then
          ((u.recorded line c false).send (.data false true) c line).modDir line (fun f => { f with owner := some c })
        else (u.recorded line c false).send (.data false false) c line := rfl
  cases ho : d.owner with
  | some o =>
    rw [ho] at ht
    have hs := sendsOnly_send (u.recorded line c false) (.fwdGetS c) o line
    refine ⟨by rw [ht]; exact ⟨hs.l1, hs.mshr, by rw [hs.dirOf, hdir]⟩, by simp, by simp, fun o' ho' => ?_⟩
    cases ho'
    rw [ht]
    exact ⟨State.mem_send _ _ _ _, by rw [hs.dirOf, hdir]; exact ho⟩
  | none =>
    rw [ho] at ht
    by_cases hp : d.present = 0
    · rw [show t = _ from ht.trans (if_pos (by simp [hp]))]
      have hs := sendsOnly_send (u.recorded line c false) (.data false true) c line
      have hd := State.dirOf_modDir (s := (u.recorded line c false).send (.data false true) c line) hf'
        (fun f => { f with owner := some c })
      refine ⟨⟨rfl, rfl, ?_⟩, fun _ _ => ⟨State.mem_send _ _ _ _, ?_⟩, fun _ h => absurd hp h, by simp⟩
      · rw [hd, hs.dirOf, hdir]
      · rw [hd]
    · rw [show t = _ from ht.trans (if_neg (by simpa using hp))]
      have hs := sendsOnly_send (u.recorded line c false) (.data false false) c line
      refine ⟨⟨rfl, rfl, ?_⟩, fun _ h => absurd h hp, fun _ _ => ⟨State.mem_send _ _ _ _, ?_⟩, by simp⟩
      · rw [hs.dirOf, hdir]
      · rw [hs.dirOf, hdir]
        exact ho

/-- The home's messages for a GetM: to the owner or with the data, then to every sharer. -/
def State.askAll (s : State) (line c : Nat) (owner : Option Nat) (sh : List Nat) : State :=
  let t := match owner with
    | some o => if o == c then s.send (.data true true) c line else s.send (.fwdGetM c) o line
    | none => s.send (.data true true) c line
  sh.foldl (fun t x => t.send .inv x line) t

theorem State.askAll_spec (s : State) (line c : Nat) (owner : Option Nat) (sh : List Nat) :
    SendsOnly s (s.askAll line c owner sh) ∧
    (∀ o, owner = some o → o ≠ c → ⟨.fwdGetM c, o, line⟩ ∈ (s.askAll line c owner sh).coh.msgs) ∧
    ((owner = none ∨ owner = some c) → ⟨.data true true, c, line⟩ ∈ (s.askAll line c owner sh).coh.msgs) ∧
    (∀ x ∈ sh, ⟨.inv, x, line⟩ ∈ (s.askAll line c owner sh).coh.msgs) := by
  have hinv := fun t : State => sendsOnly_foldl (fun t x => t.send .inv x line) (fun u z => sendsOnly_send u .inv z line) sh t
  refine ⟨?_, fun o ho hne => (hinv _).msgs _ ?_, fun ho => (hinv _).msgs _ ?_, State.mem_foldl_send _ _ _ _⟩
  · refine SendsOnly.trans ?_ (hinv _)
    split
    · split
      · exact sendsOnly_send _ _ _ _
      · exact sendsOnly_send _ _ _ _
    · exact sendsOnly_send _ _ _ _
  · subst ho
    dsimp only
    rw [if_neg (by simpa using hne)]
    exact State.mem_send _ _ _ _
  · rcases ho with rfl | rfl
    · exact State.mem_send _ _ _ _
    · dsimp only
      rw [if_pos (by simp)]
      exact State.mem_send _ _ _ _

/-- The home serves a GetM (R223). -/
theorem State.serve_getm (hf : (u.frame? line).isSome) (hm : Map.find? u.coh.mshr (lineKey c line) = none) :
    let d := u.dirOf line
    let sh := u.sharers c line
    let t := (u.setMiss c line ⟨true, false, false, 0, 0, []⟩).serve line c true
    let asked := (u.recorded line c true).askAll line c d.owner sh
    (t.coh.l1 = u.coh.l1 ∧ t.coh.mshr = (u.recorded line c true).coh.mshr ∧ (t.dirOf line).owner = some c ∧
      ∀ m ∈ asked.coh.msgs, m ∈ t.coh.msgs) ∧
    (sh = [] → ⟨.grant, c, line⟩ ∈ t.coh.msgs ∧ (t.dirOf line).waits = d.waits) ∧
    (sh ≠ [] → (t.dirOf line).waits = d.waits ++ [(.grant c d.owner.isNone, sh)]) := by
  intro d sh t asked
  obtain ⟨hf', hdir⟩ := State.recorded_dirOf (excl := true) (c := c) hf
  have hs := (State.askAll_spec (u.recorded line c true) line c d.owner sh).1
  have hfa : (asked.frame? line).isSome := by rw [hs.frame?]; exact hf'
  have hda : asked.dirOf line = { d with present := d.present ||| dieBit (cacheDie c) } := by rw [hs.dirOf, hdir]
  have ht : t = if sh.isEmpty then (asked.send .grant c line).modDir line (fun f => { f with owner := some c })
      else asked.modDir line (fun f => { f with
        owner := some c
        waits := f.waits ++ [(.grant c d.owner.isNone, sh)] }) := by
    show t = if (u.sharers c line).isEmpty then _ else _
    simp only [asked, sh, ← State.recorded_sharers hf hm]
    rfl
  by_cases hsh : sh = []
  · rw [show t = _ from ht.trans (if_pos (by simp [hsh]))]
    have hg := sendsOnly_send asked .grant c line
    have hd := State.dirOf_modDir (s := asked.send .grant c line) (by rw [hg.frame?]; exact hfa) (fun f => { f with owner := some c })
    refine ⟨⟨hs.l1, hs.mshr, by rw [hd], fun m h => List.mem_append_left _ h⟩, fun _ => ⟨State.mem_send _ _ _ _, ?_⟩, fun h => absurd hsh h⟩
    rw [hd, hg.dirOf, hda]
  · rw [show t = _ from ht.trans (if_neg (by simpa using hsh))]
    have hd := State.dirOf_modDir hfa (fun f => { f with
        owner := some c
        waits := f.waits ++ [(.grant c d.owner.isNone, sh)] })
    refine ⟨⟨hs.l1, hs.mshr, by rw [hd], fun m h => h⟩, fun h => absurd h hsh, fun _ => ?_⟩
    rw [hd, hda]

end

/-! ### A request at its home -/

section
variable {s u : State} {line c : Nat} {excl : Bool}

/-- While Shared is out of service, the home is down or the line cannot be filled, no request is taken (R17, R18). -/
theorem State.request_closed (h : s.sharedUp = false ∨ s.lineDown line = true ∨ s.lineGone line = true) :
    s.request line c excl = .next s := by
  unfold State.request
  refine if_pos ?_
  rcases h with h | h | h
  · simp [h]
  · simp [h]
  · simp [h]

variable (hopen : ¬ (s.sharedUp = false ∨ s.lineDown line = true ∨ s.lineGone line = true))
  (hroom : s.sliceQueued (homeSlice line) < 64) (hframe : s.frameFor line 15 = some u)
include hopen hroom hframe

theorem State.request_ready : s.request line c excl =
    (if (u.dirOf line).busy || !(u.dirOf line).queue.isEmpty then
      .next ((u.setMiss c line ⟨excl, false, false, 0, 0, []⟩).modDir line (fun f => { f with queue := f.queue ++ [(c, excl)] }))
    else .next ((u.setMiss c line ⟨excl, false, false, 0, 0, []⟩).serve line c excl)) := by
  obtain ⟨hup, hdown, hgone⟩ := by simpa [not_or] using hopen
  unfold State.request
  rw [if_neg (by simp [hup, hdown, hgone, hroom]), hframe]
  rfl

/-- A request behind one that waits queues in arrival order (R222). -/
theorem State.request_queued (hbusy : ¬ ((u.dirOf line).busy = false ∧ (u.dirOf line).queue = [])) :
    ∃ t : State, s.request line c excl = .next t ∧ (t.dirOf line).queue = (u.dirOf line).queue ++ [(c, excl)] ∧
      t.coh.msgs = u.coh.msgs ∧ t.coh.l1 = u.coh.l1 := by
  refine ⟨_, (State.request_ready hopen hroom hframe).trans (if_pos ?_), ?_, rfl, rfl⟩
  · by_contra hno
    simp only [Bool.or_eq_true, Bool.not_eq_true', not_or, Bool.not_eq_true, Bool.not_eq_false, List.isEmpty_iff] at hno
    exact hbusy hno
  · have hf : ((u.setMiss c line ⟨excl, false, false, 0, 0, []⟩).frame? line).isSome := State.frame?_of_frameFor (u := u) hframe
    rw [State.dirOf_modDir hf]
    rfl

theorem State.request_served (hidle : (u.dirOf line).busy = false ∧ (u.dirOf line).queue = []) :
    s.request line c excl = .next ((u.setMiss c line ⟨excl, false, false, 0, 0, []⟩).serve line c excl) :=
  (State.request_ready hopen hroom hframe).trans (if_neg (by simp [hidle.1, hidle.2]))

end

/-! ### A forward at a cache -/

section
variable {s : State} {c line dest : Nat}

/-- A message that is on its way arrives: nothing but the messages changes. -/
theorem State.l1_take (m : CMsg) : (s.take m).coh.l1 = s.coh.l1 := rfl

/-- FwdGetS at a line of the L1 (R224). -/
theorem State.forwardLine_gets {x : L1Line} (hx : s.l1 c line = some x) :
    let t := s.forwardLine c line dest false x
    ⟨.data false false, dest, line⟩ ∈ t.coh.msgs ∧
      t.l1 c line = some { x with st := if x.st = .e ∨ x.st = .s then .s else .o } ∧
      (t.dirOf line).owner = if x.st = .e ∧ (s.dirOf line).owner = some c then none else (s.dirOf line).owner := by
  obtain ⟨st, dirty, held⟩ := x
  cases st with
  | e =>
    refine ⟨State.mem_send _ _ _ _, Map.find?_put_same _ _ _, ?_⟩
    show (((s.setL1 c line ⟨.s, dirty, held⟩).modDir line _).dirOf line).owner = _
    rw [State.dirOf_modDir_of_fixed _ _ rfl]
    show (if (s.dirOf line).owner == some c then none else (s.dirOf line).owner) = _
    simp
  | s => exact ⟨State.mem_send _ _ _ _, hx, by simp; rfl⟩
  | o => exact ⟨State.mem_send _ _ _ _, Map.find?_put_same _ _ _, by simp; rfl⟩
  | m => exact ⟨State.mem_send _ _ _ _, Map.find?_put_same _ _ _, by simp; rfl⟩

/-- The dirty sectors of the line that leaves go with the data to the requester's miss (R224). -/
theorem Map.find?_modify_same {α : Type} {m : Map α} {i : Nat} {a : α} (h : Map.find? m i = some a) (f : α → α) :
    Map.find? (Map.modify m i f) i = some (f a) := by
  rw [Map.find?_modify, if_pos rfl, h]
  rfl

/-- FwdGetM takes a line away (R224). -/
theorem State.forwardLine_getm (x : L1Line) :
    let t := s.forwardLine c line dest true x
    ⟨.data true false, dest, line⟩ ∈ t.coh.msgs ∧ t.l1 c line = none ∧
      (∀ y, s.miss dest line = some y → t.miss dest line = some { y with dirty := y.dirty ||| x.dirty }) := by
  intro t
  have hleft : SendsOnly _ t := sendsOnly_noteLeft _ c line
  refine ⟨hleft.msgs _ (State.mem_send _ _ _ _), ?_, fun y hy => ?_⟩
  · rw [State.l1, hleft.l1]
    exact Map.find?_drop_same _ _
  · rw [State.miss, hleft.mshr]
    exact Map.find?_modify_same hy _

theorem State.forward_of_l1 {x : L1Line} {excl : Bool} (hx : s.l1 c line = some x) :
    s.forward c line dest excl = s.forwardLine c line dest excl x := by
  rw [State.forward, hx]

/-- A line on its way out answers FwdGetS from the write-back buffer (R226). -/
theorem State.forward_gets_of_wb {w : WbEntry} (hx : s.l1 c line = none) (hw : s.wb c line = some w) (hspent : w.spent = false)
    (hown : (s.dirOf line).owner = some c) :
    let t := s.forward c line dest false
    ⟨.data false false, dest, line⟩ ∈ t.coh.msgs ∧ t.wb c line = some { w with spent := true } ∧ (t.dirOf line).owner = none ∧
      (t.dirOf line).dirty = (s.dirOf line).dirty ||| w.dirty := by
  intro t
  have ht : t = (({ s with coh := { s.coh with wbuf := Map.put s.coh.wbuf (lineKey c line) { w with spent := true } } } : State).modDir line
      (fun f => { f with
        owner := if f.owner == some c then none else f.owner
        valid := f.valid ||| w.dirty
        dirty := f.dirty ||| w.dirty })).send (.data false false) dest line := by
    show s.forward c line dest false = _
    rw [State.forward, hx, hw]
    exact if_neg (by simp [hspent])
  have hd := State.dirOf_modDir (s := { s with coh := { s.coh with wbuf := Map.put s.coh.wbuf (lineKey c line) { w with spent := true } } })
    (State.frame?_isSome_of_owner hown) (fun f => { f with
        owner := if f.owner == some c then none else f.owner
        valid := f.valid ||| w.dirty
        dirty := f.dirty ||| w.dirty })
  rw [ht]
  refine ⟨State.mem_send _ _ _ _, Map.find?_put_same _ _ _, ?_, ?_⟩
  · rw [(sendsOnly_send _ _ _ _).dirOf, hd]
    exact if_pos (beq_iff_eq.mpr hown)
  · rw [(sendsOnly_send _ _ _ _).dirOf, hd]
    rfl

/-- A line on its way out answers FwdGetM from the write-back buffer (R226). -/
theorem State.forward_getm_of_wb {w : WbEntry} (hx : s.l1 c line = none) (hw : s.wb c line = some w) (hspent : w.spent = false) :
    let t := s.forward c line dest true
    ⟨.data true false, dest, line⟩ ∈ t.coh.msgs ∧ t.wb c line = some { w with spent := true } ∧
      (∀ y, s.miss dest line = some y → t.miss dest line = some { y with dirty := y.dirty ||| w.dirty }) := by
  intro t
  have ht : t = State.send { s with coh := { s.coh with
      wbuf := Map.put s.coh.wbuf (lineKey c line) { w with spent := true }
      mshr := Map.modify s.coh.mshr (lineKey dest line) (fun m => { m with dirty := m.dirty ||| w.dirty }) } }
      (.data true false) dest line := by
    show s.forward c line dest true = _
    rw [State.forward, hx, hw]
    exact if_neg (by simp [hspent])
  rw [ht]
  exact ⟨State.mem_send _ _ _ _, Map.find?_put_same _ _ _, fun y hy => Map.find?_modify_same hy _⟩

/-! ### Where a forward waits (R223) -/

/-- A cache whose own miss the home has served holds the forward. -/
theorem State.forwardAt_of_miss {m : Mshr} {excl : Bool} (hm : s.miss c line = some m) (hs : m.served = true) (ho : m.old = 0) :
    s.forwardAt c line dest excl = s.setMiss c line { m with held := m.held ++ [⟨dest, excl⟩] } := by
  rw [State.forwardAt, hm]
  exact if_pos (by simp [hs, ho])

/-- A line taken for a store that is still to come holds the forward. -/
theorem State.forwardAt_of_held {x : L1Line} {excl : Bool} (hm : s.miss c line = none) (hx : s.l1 c line = some x)
    (hh : x.held ≠ []) : s.forwardAt c line dest excl = s.setL1 c line { x with held := x.held ++ [⟨dest, excl⟩] } := by
  rw [State.forwardAt, hm, hx]
  exact if_neg (by simpa using hh)

theorem State.forwardAt_of_line {x : L1Line} {excl : Bool} (hm : s.miss c line = none) (hx : s.l1 c line = some x)
    (hh : x.held = []) : s.forwardAt c line dest excl = s.forwardLine c line dest excl x := by
  rw [State.forwardAt, hm, hx]
  exact (if_pos (by simp [hh])).trans (State.forward_of_l1 hx)

theorem State.forwardAt_of_none {excl : Bool} (hm : s.miss c line = none) (hx : s.l1 c line = none) :
    s.forwardAt c line dest excl = s.forward c line dest excl := by
  rw [State.forwardAt, hm, hx]

end

/-- A forward that is next in flight reaches the cache. -/
theorem exec_forward {s : State} {c : Fin 672} {line dest : Nat} (ht : s.tripped = false) {p : (Fin 672 → Nat → Instr) × CKind × Bool}
    (hp : p ∈ ([(Instr.fwdgets, CKind.fwdGetS dest, false), (Instr.fwdgetm, CKind.fwdGetM dest, true)] :
      List ((Fin 672 → Nat → Instr) × CKind × Bool))) :
    (s.nextTo c.val line = some ⟨p.2.1, c.val, line⟩ →
      exec (p.1 c line) s = .next ((s.take ⟨p.2.1, c.val, line⟩).forwardAt c.val line dest p.2.2)) ∧
    (s.nextTo c.val line = none → exec (p.1 c line) s = .next s) := by
  fin_cases hp
  · refine ⟨fun h => (State.clocked_of ht _).trans ?_, fun h => (State.clocked_of ht _).trans ?_⟩
    · rw [h]
    · rw [h]
      rfl
  · refine ⟨fun h => (State.clocked_of ht _).trans ?_, fun h => (State.clocked_of ht _).trans ?_⟩
    · rw [h]
    · rw [h]
      rfl

/-- Settles O26: a request by `State.request_served` and the serve lemmas, a forward along the places that answer it. -/
theorem homeRequestsAndForwards : Obligations.home_requests_and_forwards := by
  unfold Obligations.home_requests_and_forwards
  refine ⟨fun s u c line hmay ht => ?_, fun s c line dest _ ht => ?_⟩
  · intro d idle seen sh asked closed ready
    have hmiss : Map.find? s.coh.mshr (lineKey c.val line) = none := by
      simp only [State.mayRequest, Bool.and_eq_true, Option.isNone_iff_eq_none] at hmay
      exact hmay.1
    refine ⟨fun hl1 => ?_, fun hl1 => ?_⟩
    · have hexec : exec (.gets c line) s = s.request line c.val false :=
        (State.clocked_of ht _).trans (if_pos (by simp [hl1, hmay]))
      rw [hexec]
      refine ⟨State.request_closed, fun hr hidle ho hp => ?_, fun hr hidle ho hp => ?_, fun o hr hidle ho => ?_, fun hr hbusy => ?_⟩
      · obtain ⟨hopen, hroom, hframe⟩ := hr
        obtain ⟨⟨hl, hm, hpr⟩, hnew, -, -⟩ := State.serve_gets (c := c.val) (State.frame?_of_frameFor hframe)
        obtain ⟨hmsg, hown⟩ := hnew ho hp
        exact ⟨_, State.request_served hopen hroom hframe hidle, hmsg, hown, hpr, by rw [hm]; exact State.recorded_miss, hl⟩
      · obtain ⟨hopen, hroom, hframe⟩ := hr
        obtain ⟨⟨hl, hm, hpr⟩, -, hshared, -⟩ := State.serve_gets (c := c.val) (State.frame?_of_frameFor hframe)
        obtain ⟨hmsg, hown⟩ := hshared ho hp
        exact ⟨_, State.request_served hopen hroom hframe hidle, hmsg, hown, hpr, by rw [hm]; exact State.recorded_miss, hl⟩
      · obtain ⟨hopen, hroom, hframe⟩ := hr
        obtain ⟨⟨hl, hm, hpr⟩, -, -, howned⟩ := State.serve_gets (c := c.val) (State.frame?_of_frameFor hframe)
        obtain ⟨hmsg, hown⟩ := howned o ho
        exact ⟨_, State.request_served hopen hroom hframe hidle, hmsg, hown, hpr, by rw [hm]; exact State.recorded_miss, hl⟩
      · obtain ⟨hopen, hroom, hframe⟩ := hr
        exact State.request_queued hopen hroom hframe hbusy
    · have hexec : exec (.getm c line) s = s.request line c.val true := by
        refine (State.clocked_of ht _).trans (if_pos ?_)
        rcases hl1 with h | ⟨x, h, hst⟩
        · simp [h, hmay]
        · rw [h]
          simpa [hmay] using hst
      rw [hexec]
      refine ⟨State.request_closed, fun hr hidle => ?_, fun hr hbusy => ?_⟩
      · obtain ⟨hopen, hroom, hframe⟩ := hr
        obtain ⟨⟨hl, hm, hown, hmsgs⟩, halone, hshared⟩ := State.serve_getm (c := c.val) (State.frame?_of_frameFor hframe)
          ((State.mshr_frameFor hframe).symm ▸ hmiss)
        obtain ⟨-, hfwd, hdata, hinv⟩ := State.askAll_spec (u.recorded line c.val true) line c.val d.owner sh
        refine ⟨_, State.request_served hopen hroom hframe hidle, hown, ⟨by rw [hm]; exact State.recorded_miss, hl⟩,
          fun o ho hne => hmsgs _ (hfwd o ho hne), fun ho => hmsgs _ (hdata ho), fun x hx => hmsgs _ (hinv x hx),
          fun hsh => ⟨(halone hsh).1, (halone hsh).2, ?_⟩, fun hsh => ⟨hshared hsh, ?_⟩⟩
        · rw [Frame.busy, (halone hsh).2]
          exact hidle.1
        · have hquiet : d.waits.any (fun w => w.1.blocks) = false := hidle.1
          rw [Frame.busy, hshared hsh, List.any_append, hquiet]
          simp [Waiter.blocks, d]
      · obtain ⟨hopen, hroom, hframe⟩ := hr
        exact State.request_queued hopen hroom hframe hbusy
  · intro owns
    have hgets := (exec_forward (c := c) (line := line) (p := (Instr.fwdgets, CKind.fwdGetS dest, false)) (dest := dest) ht (by simp)).1
    have hgetm := (exec_forward (c := c) (line := line) (p := (Instr.fwdgetm, CKind.fwdGetM dest, true)) (dest := dest) ht (by simp)).1
    refine ⟨fun p hp => ⟨fun hnext => ⟨fun m hm hs ho => ?_, fun x hm hx hh => ?_⟩, (exec_forward ht hp).2⟩,
      fun hnext hm => ⟨fun x hx hh => ?_, fun w hx hw hspent hown => ?_⟩, fun hnext hm => ⟨fun x hx hh => ?_, fun w hx hw hspent => ?_⟩⟩
    · exact ⟨_, ((exec_forward ht hp).1 hnext).trans (congrArg _ (State.forwardAt_of_miss (s := s.take _) hm hs ho)), rfl,
        Map.find?_put_same _ _ _⟩
    · exact ⟨_, ((exec_forward ht hp).1 hnext).trans (congrArg _ (State.forwardAt_of_held (s := s.take _) hm hx hh)),
        Map.find?_put_same _ _ _⟩
    · exact ⟨_, (hgets hnext).trans (congrArg _ (State.forwardAt_of_line (s := s.take _) hm hx hh)),
        State.forwardLine_gets (s := s.take _) hx⟩
    · exact ⟨_, (hgets hnext).trans (congrArg _ (State.forwardAt_of_none (s := s.take _) hm hx)),
        State.forward_gets_of_wb (s := s.take _) hx hw hspent hown⟩
    · exact ⟨_, (hgetm hnext).trans (congrArg _ (State.forwardAt_of_line (s := s.take _) hm hx hh)),
        State.forwardLine_getm (s := s.take _) x⟩
    · exact ⟨_, (hgetm hnext).trans (congrArg _ (State.forwardAt_of_none (s := s.take _) hm hx)),
        State.forward_getm_of_wb (s := s.take _) hx hw hspent⟩

end Sys2Proof.Machine

/-! Proofs: write-backs, recalls and snoops (R219, R224 to R227, R314). -/

namespace Sys2Proof.Machine

/-! ### A Put at its home -/

theorem State.dirOf_take (s : State) (m : CMsg) (line : Nat) : (s.take m).dirOf line = s.dirOf line := rfl

section
variable {s : State} {c line : Nat} {k : Put}

/-- A Put that is next in flight arrives: acknowledged, and its dirty sectors taken from the owner alone (R226). -/
theorem State.putHome_spec {w : WbEntry} (hw : s.wb c line = some w) :
    let t := (s.putHome c line).send .putAck c line
    let owns := (s.dirOf line).owner = some c
    ⟨.putAck, c, line⟩ ∈ t.coh.msgs ∧ t.coh.l1 = s.coh.l1 ∧ t.coh.wbuf = s.coh.wbuf ∧
      (t.dirOf line).present = (s.dirOf line).present ∧ (t.dirOf line).owner = (if owns then none else (s.dirOf line).owner) ∧
      (t.dirOf line).dirty = if owns then (s.dirOf line).dirty ||| w.dirty else (s.dirOf line).dirty := by
  intro t owns
  have ht : t = (if owns then s.modDir line (fun f => { f with
      owner := none
      valid := f.valid ||| w.dirty
      dirty := f.dirty ||| w.dirty }) else s).send .putAck c line := by
    show (s.putHome c line).send .putAck c line = _
    unfold State.putHome
    rw [hw]
    exact congrArg (fun u : State => u.send .putAck c line) (if_congr beq_iff_eq rfl rfl)
  by_cases ho : owns
  · have hd := State.dirOf_modDir (State.frame?_isSome_of_owner ho) (fun f => { f with
      owner := none
      valid := f.valid ||| w.dirty
      dirty := f.dirty ||| w.dirty })
    rw [if_pos ho] at ht
    rw [ht, if_pos ho, if_pos ho, (sendsOnly_send _ _ _ _).dirOf, hd]
    exact ⟨State.mem_send _ _ _ _, rfl, rfl, rfl, rfl, rfl⟩
  · rw [if_neg ho] at ht
    rw [ht, if_neg ho, if_neg ho, (sendsOnly_send _ _ _ _).dirOf]
    exact ⟨State.mem_send _ _ _ _, rfl, rfl, rfl, rfl, rfl⟩

/-- The state in which a Put is looked for: its line leaves the L1 first where it may. -/
def State.putLeaves (s : State) (k : Put) (c line : Nat) : State :=
  match s.l1 c line with
  | some x => if putOf x.st == some k && s.mayRequest c line && x.held.isEmpty && s.wbRoom c then s.evictLine c line else s
  | none => s

/-- The messages that a Put of a kind may not overtake (R314). -/
def putKin (k : Put) (x : CKind) : Bool := x == .put k || (k != .putE && x.putData)

theorem State.putArrives_of_inOrder {t : State} (ht : s.putLeaves k c line = t)
    (hm : t.inOrder (putKin k) c line = some ⟨.put k, c, line⟩) :
    s.putArrives k c line = .next (((t.take ⟨.put k, c, line⟩).putHome c line).send .putAck c line) := by
  subst ht
  have h : s.putArrives k c line = match (s.putLeaves k c line).inOrder (putKin k) c line with
    | none => s.idle "the cache has no such Put next in flight"
    | some m => if m.kind == .put k then .next ((((s.putLeaves k c line).take m).putHome c line).send .putAck c line)
      else s.idle "an earlier message comes first" := rfl
  rw [h, hm]
  exact if_pos (by simp)

/-- A line with a free buffer entry leaves through it, its Put the only one of its kind in flight (R224, R226). -/
theorem State.evictLine_spec {x : L1Line} (hx : s.l1 c line = some x) (hk : putOf x.st = some k) (hroom : s.wbufCount c < 8)
    (hdown : s.lineDown line = false)
    (hkin : ∀ m ∈ s.coh.msgs, putKin k m.kind = true → m.cache = c → homeSlice m.line ≠ homeSlice line) :
    let t := s.evictLine c line
    t.l1 c line = none ∧ t.wb c line = some ⟨k, x.dirty, false⟩ ∧ t.coh.dir = s.coh.dir ∧
      t.inOrder (putKin k) c line = some ⟨.put k, c, line⟩ := by
  intro t
  have ht : t = (State.send { s.dropL1 c line with coh := { (s.dropL1 c line).coh with
      wbuf := Map.put s.coh.wbuf (lineKey c line) ⟨k, x.dirty, false⟩ } } (.put k) c line).noteLeft c line := by
    show s.evictLine c line = _
    unfold State.evictLine
    rw [hx]
    dsimp only
    rw [if_neg (by simp [hdown]), hk]
    dsimp only
    rw [if_pos hroom]
    rfl
  have hleft : SendsOnly _ t := ht ▸ sendsOnly_noteLeft _ c line
  refine ⟨?_, ?_, hleft.dir, ?_⟩
  · rw [State.l1, hleft.l1]
    exact Map.find?_drop_same _ _
  · rw [State.wb, hleft.wbuf]
    exact Map.find?_put_same _ _ _
  · have hsent : ∃ pre post, t.coh.msgs = pre ++ ⟨.put k, c, line⟩ :: post ∧ pre = s.coh.msgs := by
      obtain ⟨post, hpost⟩ := hleft.before
      exact ⟨s.coh.msgs, post, by rw [← hpost]; simp [State.send, State.dropL1], rfl⟩
    obtain ⟨pre, post, hmsgs, rfl⟩ := hsent
    have hnone : s.coh.msgs.find? (fun m => putKin k m.kind && m.cache == c && homeSlice m.line == homeSlice line) = none := by
      rw [List.find?_eq_none]
      intro m hm hp
      simp only [Bool.and_eq_true, beq_iff_eq] at hp
      exact hkin m hm hp.1.1 hp.1.2 hp.2
    unfold State.inOrder State.msg
    rw [hmsgs, List.find?_append, hnone]
    simp [putKin, Option.filter]

end

/-- A Put instruction with its kind. -/
theorem exec_put {s : State} {c : Fin 672} {line : Nat} (ht : s.tripped = false) {p : (Fin 672 → Nat → Instr) × Put × L1St}
    (hp : p ∈ ([(Instr.pute, Put.putE, L1St.e), (Instr.puto, Put.putO, L1St.o), (Instr.putm, Put.putM, L1St.m)] :
      List ((Fin 672 → Nat → Instr) × Put × L1St))) :
    exec (p.1 c line) s = s.putArrives p.2.1 c.val line ∧ putOf p.2.2 = some p.2.1 := by
  fin_cases hp
  · exact ⟨State.clocked_of ht _, rfl⟩
  · exact ⟨State.clocked_of ht _, rfl⟩
  · exact ⟨State.clocked_of ht _, rfl⟩

/-! ### Snoops -/

section
variable {s : State} {c line : Nat} {k : CKind}

/-- Nothing for the cache is on its way from the line's home slice, nor the acknowledgement of a Put of the line. -/
theorem State.msg_eq_none_of_rest (hnext : s.nextTo c line = none) (hclear : s.pathClear c line = true) :
    s.msg (fun m => m.cache == c && ((m.kind.fwd && homeSlice m.line == homeSlice line) || (m.kind == .putAck && m.line == line))) =
      none := by
  cases hm : s.msg (fun m => m.cache == c && ((m.kind.fwd && homeSlice m.line == homeSlice line) ||
    (m.kind == .putAck && m.line == line))) with
  | none => rfl
  | some m =>
    have hmem := List.mem_of_find?_eq_some hm
    have hp := List.find?_some hm
    rw [State.nextTo, hm] at hnext
    simp only [State.pathClear, Bool.not_eq_true', List.any_eq_false, Bool.and_eq_true, beq_iff_eq, not_and] at hclear
    simp only [Bool.and_eq_true, Bool.or_eq_true, beq_iff_eq] at hp
    rcases hp.2 with h | h
    · exact absurd h.2 (hclear m hmem ⟨h.1, hp.1⟩)
    · simp [Option.filter, h.2] at hnext

/-- A snoop that the home starts from rest is the next that reaches each of its caches. -/
theorem State.nextTo_beginRecall (hfwd : k.fwd = true) (hnext : s.nextTo c line = none) (hclear : s.pathClear c line = true)
    {cs : List Nat} (hc : c ∈ cs) : (s.beginRecall line k cs).nextTo c line = some ⟨k, c, line⟩ := by
  have hmsgs : (s.beginRecall line k cs).coh.msgs = s.coh.msgs ++ cs.map (fun x => ⟨k, x, line⟩) := by
    show (cs.foldl (fun t c => t.send k c line) s).coh.msgs = _
    clear hc hnext hclear
    induction cs generalizing s with
    | nil => simp
    | cons x xs ih =>
      rw [List.foldl_cons, ih]
      simp [State.send]
  have hold := State.msg_eq_none_of_rest hnext hclear
  unfold State.msg at hold
  unfold State.nextTo State.msg
  rw [hmsgs, List.find?_append, hold, Option.none_or]
  have hfind : (cs.map (fun x => (⟨k, x, line⟩ : CMsg))).find? (fun m => m.cache == c &&
      ((m.kind.fwd && homeSlice m.line == homeSlice line) || (m.kind == .putAck && m.line == line))) = some ⟨k, c, line⟩ := by
    clear hmsgs
    induction cs with
    | nil => simp at hc
    | cons x xs ih =>
      by_cases hx : x = c
      · simp [hx, hfwd]
      · rw [List.map_cons, List.find?_cons_of_neg (by simp [hx])]
        exact ih ((List.mem_cons.mp hc).resolve_left (Ne.symm hx))
  rw [hfind]
  simp [Option.filter]

/-- The state in which a snoop is next for the cache: in flight already, or started from rest. -/
theorem State.snoopReady_spec {u : State} {cs : List Nat} (hu : s.snoopReady k c line cs = u) (hfwd : k.fwd = true)
    (h : s.nextTo c line = some ⟨k, c, line⟩ ∨
      ((s.nextTo c line = none ∧ s.pathClear c line = true ∧ s.lineIdle line = true) ∧ c ∈ cs)) :
    u.nextTo c line = some ⟨k, c, line⟩ ∧ u.coh.l1 = s.coh.l1 ∧ u.coh.wbuf = s.coh.wbuf := by
  unfold State.snoopReady at hu
  rcases h with h | ⟨⟨hnext, hclear, hidle⟩, hc⟩
  · have hbusy : s.pathClear c line = false := by
      have hm : ⟨k, c, line⟩ ∈ s.coh.msgs := by
        rw [State.nextTo] at h
        obtain ⟨h, -⟩ := Option.filter_eq_some_iff.mp h
        exact List.mem_of_find?_eq_some h
      simp only [State.pathClear, Bool.not_eq_false', List.any_eq_true, Bool.and_eq_true, beq_iff_eq]
      exact ⟨_, hm, ⟨hfwd, rfl⟩, rfl⟩
    rw [hbusy, Bool.false_and, Bool.false_and, if_neg Bool.false_ne_true] at hu
    subst hu
    exact ⟨h, rfl, rfl⟩
  · rw [hclear, hidle, List.contains_iff_mem.mpr hc, if_pos (by decide)] at hu
    have hs := sendsOnly_foldl (fun t c => t.send k c line) (fun v x => sendsOnly_send v k x line) cs s
    subst hu
    exact ⟨State.nextTo_beginRecall hfwd hnext hclear hc, hs.l1, hs.wbuf⟩

/-- The message that is next for a cache arrives, where it is wanted. -/
theorem State.arrive_of_nextTo {want : CKind → Bool} {f : State → CMsg → Res} {m : CMsg} (h : s.nextTo c line = some m)
    (hw : want m.kind = true) : s.arrive c line want f = f (s.take m) m := by
  unfold State.arrive
  rw [h]
  exact if_pos hw

end

/-- SNPINVDATA: the dirty sectors go to the home and the copy is dropped. -/
theorem exec_snpinvdata {s : State} {c : Fin 672} {line : Nat} (ht : s.tripped = false)
    (h : s.nextTo c.val line = some ⟨.snpInvData, c.val, line⟩ ∨ ((s.nextTo c.val line = none ∧ s.pathClear c.val line = true ∧
      s.lineIdle line = true) ∧ c.val ∈ s.recallees line)) :
    ∃ t : State, exec (.snpinvdata c line) s = .next t ∧ t.l1 c.val line = none ∧
      ⟨.snoopRsp (s.snoopDirty c.val line) false, c.val, line⟩ ∈ t.coh.msgs := by
  generalize hu : s.snoopReady .snpInvData c.val line (s.recallees line) = u
  obtain ⟨hnext, hl1, hwb⟩ := State.snoopReady_spec hu rfl h
  have hdirty : (u.take ⟨.snpInvData, c.val, line⟩).snoopDirty c.val line = s.snoopDirty c.val line := by
    unfold State.snoopDirty State.l1 State.wb State.take
    rw [hl1, hwb]
  have hexec : exec (.snpinvdata c line) s = .next (
      let t := u.take ⟨.snpInvData, c.val, line⟩
      let r := t.send (.snoopRsp (t.snoopDirty c.val line) false) c.val line
      if (t.l1 c.val line).isSome then (r.dropL1 c.val line).noteLeft c.val line else r) := by
    refine (State.clocked_of ht _).trans ?_
    rw [hu, hnext]
    exact (if_pos (by simp)).trans (State.arrive_of_nextTo hnext rfl)
  refine ⟨_, hexec, ?_⟩
  dsimp only
  rw [hdirty]
  split
  · have hleft := sendsOnly_noteLeft (((u.take ⟨.snpInvData, c.val, line⟩).send (.snoopRsp (s.snoopDirty c.val line) false) c.val
      line).dropL1 c.val line) c.val line
    refine ⟨?_, hleft.msgs _ (State.mem_send _ _ _ _)⟩
    rw [State.l1, hleft.l1]
    exact Map.find?_drop_same _ _
  · next hno =>
    exact ⟨Option.not_isSome_iff_eq_none.mp hno, State.mem_send _ _ _ _⟩

/-- SNPRD: the owner returns its dirty sectors and keeps its line. -/
theorem exec_snprd {s : State} {c : Fin 672} {line : Nat} (ht : s.tripped = false)
    (h : s.nextTo c.val line = some ⟨.snpRd, c.val, line⟩ ∨ ((s.nextTo c.val line = none ∧ s.pathClear c.val line = true ∧
      s.lineIdle line = true) ∧ (s.dirOf line).owner = some c.val)) :
    ∃ t : State, exec (.snprd c line) s = .next t ∧ t.coh.l1 = s.coh.l1 ∧ t.coh.wbuf = s.coh.wbuf ∧
      ⟨.snoopRsp (s.snoopDirty c.val line) true, c.val, line⟩ ∈ t.coh.msgs := by
  generalize hu : s.snoopReady .snpRd c.val line (s.dirOf line).owner.toList = u
  obtain ⟨hnext, hl1, hwb⟩ := State.snoopReady_spec hu rfl (h.imp id (fun h => ⟨h.1, by rw [h.2]; simp⟩))
  have hdirty : (u.take ⟨.snpRd, c.val, line⟩).snoopDirty c.val line = s.snoopDirty c.val line := by
    unfold State.snoopDirty State.l1 State.wb State.take
    rw [hl1, hwb]
  have hexec : exec (.snprd c line) s = .next ((u.take ⟨.snpRd, c.val, line⟩).send
      (.snoopRsp ((u.take ⟨.snpRd, c.val, line⟩).snoopDirty c.val line) true) c.val line) := by
    refine (State.clocked_of ht _).trans ?_
    rw [hu, hnext]
    exact (if_pos (by simp)).trans (State.arrive_of_nextTo hnext rfl)
  refine ⟨_, hexec, hl1, hwb, ?_⟩
  rw [hdirty]
  exact State.mem_send _ _ _ _

/-! ### Responses -/

/-- The waits of a line whose first names a cache, after its response. -/
theorem answerWait_of_mem {c : Nat} {w : Waiter} {cs : List Nat} {ws : List (Waiter × List Nat)} (h : c ∈ cs) :
    answerWait c ((w, cs) :: ws) = (w, cs.erase c) :: ws := if_pos (by simpa using h)

/-- The requester of a wait without a response due is told that every sharer has acknowledged (R223). -/
def State.told (line : Nat) (t : State) (w : Waiter × List Nat) : State :=
  match w.1 with
  | .grant q _ => t.send .grant q line
  | _ => t

theorem sendsOnly_told (line : Nat) (t : State) (w : Waiter × List Nat) : SendsOnly t (t.told line w) := by
  unfold State.told
  split
  · exact sendsOnly_send _ _ _ _
  · exact .refl t

theorem State.mem_foldl_told {q line : Nat} {b : Bool} {cs : List Nat} {ws : List (Waiter × List Nat)} (h : (.grant q b, cs) ∈ ws)
    (s : State) : ⟨.grant, q, line⟩ ∈ (ws.foldl (State.told line) s).coh.msgs := by
  induction ws generalizing s with
  | nil => simp at h
  | cons w ws ih =>
    rcases List.mem_cons.mp h with rfl | h
    · exact (sendsOnly_foldl _ (sendsOnly_told line) ws _).msgs _ (State.mem_send s _ q line)
    · exact ih h _

/-- The waits of a line with an empty queue end: each requester is told, and the waits with responses due stay. -/
theorem State.endWaits_spec {s : State} {line : Nat} (hf : (s.frame? line).isSome) (hq : (s.dirOf line).queue = []) :
    (s.endWaits line).coh.l1 = s.coh.l1 ∧
    (s.endWaits line).dirOf line = { s.dirOf line with waits := (s.dirOf line).waits.filter (fun w => !w.2.isEmpty) } ∧
    (∀ q b, (.grant q b, []) ∈ (s.dirOf line).waits → ⟨.grant, q, line⟩ ∈ (s.endWaits line).coh.msgs) := by
  have hs := sendsOnly_foldl (State.told line) (sendsOnly_told line) ((s.dirOf line).waits.filter (fun w => w.2.isEmpty)) s
  have htold : ∀ q b, (.grant q b, []) ∈ (s.dirOf line).waits →
      ⟨.grant, q, line⟩ ∈ (((s.dirOf line).waits.filter (fun w => w.2.isEmpty)).foldl (State.told line) s).coh.msgs :=
    fun q b h => State.mem_foldl_told (List.mem_filter.mpr ⟨h, rfl⟩) s
  generalize hu : ((s.dirOf line).waits.filter (fun w => w.2.isEmpty)).foldl (State.told line) s = u at hs htold
  have hd := State.dirOf_modDir (s := u) (by rw [hs.frame?]; exact hf) (fun f => { f with waits := f.waits.filter (fun w => !w.2.isEmpty) })
  rw [hs.dirOf] at hd
  have hend : s.endWaits line = u.modDir line (fun f => { f with waits := f.waits.filter (fun w => !w.2.isEmpty) }) := by
    have hunfold : s.endWaits line = ((((s.dirOf line).waits.filter (fun w => w.2.isEmpty)).foldl (State.told line) s).modDir line
      (fun f => { f with waits := f.waits.filter (fun w => !w.2.isEmpty) })).serveQueue line 64 := rfl
    rw [hunfold, hu, State.serveQueue, hd]
    dsimp only
    rw [hq]
    split
    · next h => cases h
    · rfl
  rw [hend]
  exact ⟨hs.l1, hd, htold⟩

/-- A frame with the dirty sectors of a snoop response of cache c taken. -/
def Frame.snooped (c : Nat) (dirty : BitVec 4) (kept : Bool) (f : Frame) : Frame := { f with
  valid := f.valid ||| dirty
  dirty := if kept then f.dirty else f.dirty ||| dirty
  owner := if !kept && f.owner == some c then none else f.owner
  waits := answerWait c f.waits }

/-- SNOOP_RESPONSE to the first wait of a line: the home takes the dirty sectors, and the wait ends with its last response. -/
theorem exec_snoopResponse {s : State} {c : Fin 672} {line : Nat} {dirty : BitVec 4} {kept : Bool} (ht : s.tripped = false)
    (h : s.inOrder CKind.answer c.val line = some ⟨.snoopRsp dirty kept, c.val, line⟩) (hf : (s.frame? line).isSome)
    (hq : (s.dirOf line).queue = []) :
    ∃ t : State, exec (.snoopResponse c line) s = .next t ∧ t.coh.l1 = s.coh.l1 ∧
      (t.dirOf line).owner = (if kept = false ∧ (s.dirOf line).owner = some c.val then none else (s.dirOf line).owner) ∧
      (t.dirOf line).dirty = (if kept then (s.dirOf line).dirty else (s.dirOf line).dirty ||| dirty) ∧
      (t.dirOf line).waits = (answerWait c.val (s.dirOf line).waits).filter (fun w => !w.2.isEmpty) := by
  have hexec : exec (.snoopResponse c line) s = .next (((s.take ⟨.snoopRsp dirty kept, c.val, line⟩).modDir line (Frame.snooped c.val dirty kept)).endWaits line) := by
    refine (State.clocked_of ht _).trans ?_
    rw [h]
    rfl
  have hd : ((s.take ⟨.snoopRsp dirty kept, c.val, line⟩).modDir line (Frame.snooped c.val dirty kept)).dirOf line =
      Frame.snooped c.val dirty kept (s.dirOf line) := State.dirOf_modDir (s := s.take _) hf _
  obtain ⟨hl1, hend, -⟩ := State.endWaits_spec (s := (s.take ⟨.snoopRsp dirty kept, c.val, line⟩).modDir line (Frame.snooped c.val dirty kept)) (line := line)
    (by rw [State.frame?_modDir, Option.isSome_map]; exact hf) (by rw [hd]; exact hq)
  refine ⟨_, hexec, hl1, ?_, ?_, ?_⟩
  · rw [hend, hd]
    exact if_congr (by simp) rfl rfl
  · rw [hend, hd]
    rfl
  · rw [hend, hd]
    rfl

/-- Settles O27: a Put by `State.putHome_spec`, a recall by the snoop lemmas, its responses by `State.endWaits_spec`. -/
theorem writeBacksAndRecalls : Obligations.write_backs_and_recalls := by
  unfold Obligations.write_backs_and_recalls
  refine ⟨fun s c line _ ht => ?_, fun s c line _ ht => ?_⟩
  · intro owns kin
    refine ⟨fun p hp => ⟨fun w hl1 hin hw => ?_, fun x hx hst hheld hmay hroom hdown hkin => ?_⟩, fun hnext => ?_⟩
    · have hleaves : s.putLeaves p.2.1 c.val line = s := by rw [State.putLeaves, hl1]
      exact ⟨_, (exec_put ht hp).1.trans (State.putArrives_of_inOrder hleaves hin), State.putHome_spec (s := s.take _) hw⟩
    · obtain ⟨hexec, hput⟩ := exec_put (line := line) (c := c) ht hp
      obtain ⟨hgone, hwb, hdir, hin⟩ := State.evictLine_spec hx (by rw [hst]; exact hput) hroom hdown hkin
      have hleaves : s.putLeaves p.2.1 c.val line = s.evictLine c.val line := by
        rw [State.putLeaves, hx]
        refine if_pos ?_
        simp [hst, hput, hmay, hheld, State.wbRoom, hroom]
      have hdirOf : (s.evictLine c.val line).dirOf line = s.dirOf line := by rw [State.dirOf, hdir]; rfl
      obtain ⟨hack, hl1, hwbuf, -, hown, hdirty⟩ := State.putHome_spec (s := (s.evictLine c.val line).take ⟨.put p.2.1, c.val, line⟩) hwb
      refine ⟨_, hexec.trans (State.putArrives_of_inOrder hleaves hin), ?_, ?_, hack, ?_, ?_⟩
      · rw [State.l1, hl1]
        exact hgone
      · rw [State.wb, hwbuf]
        exact hwb
      · rw [hown, State.dirOf_take, hdirOf]
      · rw [hdirty, State.dirOf_take, hdirOf]
    · refine ⟨_, (State.clocked_of ht _).trans (State.arrive_of_nextTo hnext rfl), Map.find?_drop_same _ _,
        fun k hk => Map.find?_drop_other _ hk, rfl, rfl⟩
  · intro rest
    refine ⟨fun h => ?_, fun h => ?_, fun dirty kept k cs ws h hwaits hk hc hws hq => ?_⟩
    · obtain ⟨t, hexec, hl1, hmsg⟩ := exec_snpinvdata ht h
      refine ⟨t, hexec, hl1, fun x hx => ?_, fun hx w hw => ?_⟩
      · rwa [State.snoopDirty, hx] at hmsg
      · rwa [State.snoopDirty, hx, hw] at hmsg
    · obtain ⟨t, hexec, hl1, hwb, hmsg⟩ := exec_snprd ht h
      refine ⟨t, hexec, hl1, hwb, fun x hx => ?_⟩
      rwa [State.snoopDirty, hx] at hmsg
    · obtain ⟨t, hexec, hl1, hown, hdirty, hw⟩ := exec_snoopResponse ht h (State.frame?_isSome_of_waits hwaits) hq
      have hstay : ws.filter (fun w => !w.2.isEmpty) = ws := List.filter_eq_self.mpr fun w hw => by simpa using hws w hw
      rw [hwaits, answerWait_of_mem hc] at hw
      refine ⟨t, hexec, hl1, hown, hdirty, fun hcs => ?_, fun hcs => ?_⟩
      · rw [hw, hcs, List.filter_cons_of_neg (by simp), hstay]
      · rw [hw, List.filter_cons_of_pos (by simpa using hcs), hstay]

end Sys2Proof.Machine

/-! Proofs: invalidations, presence-clears, fills and the store that takes a line (R217, R218, R221, R223, R224). -/

namespace Sys2Proof.Machine

/-- INV: a sharer acknowledges and drops its copy; data of a served GetS that has yet to arrive is not kept. -/
theorem exec_inv {s : State} {c : Fin 672} {line : Nat} (ht : s.tripped = false)
    (hnext : s.nextTo c.val line = some ⟨.inv, c.val, line⟩) :
    ∃ t : State, exec (.inv c line) s = .next t ∧ t.l1 c.val line = none ∧ ⟨.invAck, c.val, line⟩ ∈ t.coh.msgs ∧
      (∀ k, k ≠ lineKey c.val line → Map.find? t.coh.l1 k = Map.find? s.coh.l1 k) ∧ t.coh.dir = s.coh.dir ∧
      t.coh.mshr = Map.modify s.coh.mshr (lineKey c.val line) (fun m => if m.served && !m.excl then { m with drop := true } else m) := by
  refine ⟨_, (State.clocked_of ht _).trans (State.arrive_of_nextTo hnext rfl), ?_⟩
  split
  · have hs := fun u : State => sendsOnly_noteLeft (u.dropL1 c.val line) c.val line
    refine ⟨?_, (hs _).msgs _ (State.mem_send _ _ _ _), fun k hk => ?_, (hs _).dir, (hs _).mshr⟩
    · rw [State.l1, (hs _).l1]
      exact Map.find?_drop_same _ _
    · rw [(hs _).l1]
      exact Map.find?_drop_other _ hk
  · next hno => exact ⟨Option.not_isSome_iff_eq_none.mp hno, State.mem_send _ _ _ _, fun _ _ => rfl, rfl, rfl⟩

/-- INV_ACK to the first wait of a line: its part of the wait ends, and the last tells the requester (R223). -/
theorem exec_invAck {s : State} {c : Fin 672} {line : Nat} (ht : s.tripped = false)
    (h : s.inOrder CKind.answer c.val line = some ⟨.invAck, c.val, line⟩) (hf : (s.frame? line).isSome)
    (hq : (s.dirOf line).queue = []) :
    ∃ t : State, exec (.invAck c line) s = .next t ∧ t.coh.l1 = s.coh.l1 ∧
      (t.dirOf line).waits = (answerWait c.val (s.dirOf line).waits).filter (fun w => !w.2.isEmpty) ∧
      (∀ q b, (.grant q b, []) ∈ answerWait c.val (s.dirOf line).waits → ⟨.grant, q, line⟩ ∈ t.coh.msgs) := by
  have hexec : exec (.invAck c line) s = .next (((s.take ⟨.invAck, c.val, line⟩).modDir line
      (fun f => { f with waits := answerWait c.val f.waits })).endWaits line) := by
    refine (State.clocked_of ht _).trans ?_
    rw [h]
    rfl
  have hd := State.dirOf_modDir (s := s.take ⟨.invAck, c.val, line⟩) hf (fun f => { f with waits := answerWait c.val f.waits })
  rw [State.dirOf_take] at hd
  obtain ⟨hl1, hend, htold⟩ := State.endWaits_spec (line := line)
    (s := (s.take ⟨.invAck, c.val, line⟩).modDir line (fun f => { f with waits := answerWait c.val f.waits }))
    (by rw [State.frame?_modDir, Option.isSome_map]; exact hf) (by rw [hd]; exact hq)
  refine ⟨_, hexec, hl1, ?_, fun q b hmem => htold q b (by rw [hd]; exact hmem)⟩
  rw [hend, hd]

/-- PRESENCE_CLEAR: the bit of the die is cleared, unless the home has served the die since (R221). -/
theorem exec_presenceClear {s : State} {d : Fin 12} {line : Nat} {stale : Bool} (ht : s.tripped = false)
    (h : s.inOrder CKind.clears d.val line = some ⟨.presenceClear stale, d.val, line⟩) :
    ∃ t : State, exec (.presenceClear d line) s = .next t ∧ t.coh.l1 = s.coh.l1 ∧
      t.dirOf line = if stale then s.dirOf line
        else { s.dirOf line with present := (s.dirOf line).present &&& ~~~(dieBit d.val) } := by
  cases stale with
  | true =>
    refine ⟨s.take ⟨.presenceClear true, d.val, line⟩, (State.clocked_of ht _).trans ?_, rfl, rfl⟩
    rw [h]
    rfl
  | false =>
    refine ⟨(s.take ⟨.presenceClear false, d.val, line⟩).modDir line (fun f => { f with present := f.present &&& ~~~(dieBit d.val) }),
      (State.clocked_of ht _).trans ?_, rfl, ?_⟩
    · rw [h]
      rfl
    · rw [State.dirOf_modDir_of_fixed]
      · rfl
      · simp [Frame.none_]

/-! ### Fills -/

section
variable {s : State} {c line : Nat}

/-- A set with a free way has room. -/
theorem State.makeRoom_of_free (h : (s.setLines c line).length < 8) : s.makeRoom c line = some s := by
  rw [State.makeRoom]
  exact if_pos h

end

/-- GETM_GRANT: with the data and the home's message there, the line stands in M (R223). -/
theorem exec_getmGrant {s : State} {c : Fin 672} {line : Nat} {x : Mshr} {b : Bool} (ht : s.tripped = false)
    (hx : s.miss c.val line = some x) (hroom : (s.setLines c.val line).length < 8)
    (hd : s.msg (fun m => m.cache == c.val && m.line == line && (match m.kind with | .data true _ => true | _ => false)) =
      some ⟨.data true b, c.val, line⟩) (hg : ⟨.grant, c.val, line⟩ ∈ s.coh.msgs) :
    ∃ u : State, u.coh.l1 = s.coh.l1 ∧ u.coh.dir = s.coh.dir ∧
      exec (.getmGrant c line) s = .next ((u.endMiss c.val line).setL1 c.val line
        ⟨.m, x.dirty ||| (match s.l1 c.val line with | some y => y.dirty | none => 0), x.held⟩) := by
  obtain ⟨g, hgrant⟩ := Option.isSome_iff_exists.mp (List.find?_isSome (p := fun m : CMsg => m.cache == c.val && m.line == line &&
    m.kind == .grant) |>.mpr ⟨_, hg, by simp⟩)
  refine ⟨(s.take ⟨.data true b, c.val, line⟩).take g, rfl, rfl, (State.clocked_of ht _).trans ?_⟩
  split
  · next d' g' x' hd' hg' hx' =>
    obtain rfl : ⟨.data true b, c.val, line⟩ = d' := Option.some.inj (hd.symm.trans hd')
    obtain rfl : g = g' := Option.some.inj (hgrant.symm.trans hg')
    obtain rfl : x = x' := Option.some.inj (hx.symm.trans hx')
    rw [State.makeRoom_of_free (s := (s.take ⟨.data true b, c.val, line⟩).take g) hroom] <;> rfl
  · next hno => exact absurd hx (hno _ _ _ hd hgrant)

/-- GETS_DATA: the line is installed, unless an Inv overtook its data (R224). -/
theorem exec_getsData {s : State} {c : Fin 672} {line : Nat} {x : Mshr} {b : Bool} (ht : s.tripped = false)
    (hx : s.miss c.val line = some x) (hroom : (s.setLines c.val line).length < 8)
    (hd : s.msg (fun m => m.cache == c.val && m.line == line && (match m.kind with | .data false _ => true | _ => false)) =
      some ⟨.data false b, c.val, line⟩) (hheld : x.held = []) :
    let u := (s.take ⟨.data false b, c.val, line⟩).endMiss c.val line
    exec (.getsData c line) s = .next (if x.drop then u.noteLeft c.val line
      else u.setL1 c.val line ⟨if b then .e else .s, 0, []⟩) := by
  intro u
  refine (State.clocked_of ht _).trans ?_
  split
  · next d' x' hd' hx' =>
    obtain rfl : ⟨.data false b, c.val, line⟩ = d' := Option.some.inj (hd.symm.trans hd')
    obtain rfl : x = x' := Option.some.inj (hx.symm.trans hx')
    rw [hheld, State.makeRoom_of_free (s := s.take ⟨.data false b, c.val, line⟩) hroom]
    cases x.drop with
    | true => rfl
    | false =>
      cases b with
      | true => rfl
      | false => rfl
  · next hno => exact absurd hx (hno _ _ hd)

/-! ### A store takes its line -/

section
variable {s t : State} {c line : Nat} {secs : BitVec 4}

/-- A store that hits in M or E. -/
theorem State.cohWrite_of_hit {x : L1Line} (hx : s.l1 c line = some x) (hst : x.st = .m ∨ x.st = .e) :
    s.cohWrite c line secs = some (s.storeHit c line secs x) := by
  obtain ⟨st, d, h⟩ := x
  rcases hst with rfl | rfl
  · rw [State.cohWrite, hx]
  · rw [State.cohWrite, hx]

/-- The state in which a store has taken its line in M with the whole GetM (R218, R224). -/
def State.taken (s : State) (c line : Nat) (secs : BitVec 4) : State :=
  let d := s.dirtyOf line
  let t := { s with coh := { s.coh with
    l1 := Map.keep s.coh.l1 (fun k => keyLine k != line)
    wbuf := Map.mapV s.coh.wbuf (fun k w => if keyLine k == line then { w with spent := true } else w) } }
  ((t.setL1 c line ⟨.m, d ||| secs, []⟩).voidClears (cacheDie c) line).modDir line (fun f => { f with
    present := dieBit (cacheDie c)
    owner := some c })

/-- A store to a line that the cache holds in neither M nor E takes it, in a state that has a frame for it. -/
theorem State.cohWrite_of_miss (hx : ∀ x, s.l1 c line = some x → x.st = .s ∨ x.st = .o) (h : s.cohWrite c line secs = some t) :
    ∃ u v : State, v.frameFor line 15 = some u ∧ t = u.taken c line secs := by
  unfold State.cohWrite at h
  split at h
  · next d hl h1 => rcases hx _ h1 with h | h <;> cases h
  · next d hl h1 => rcases hx _ h1 with h | h <;> cases h
  · split at h
    · cases h
    · obtain ⟨u, hu, rfl⟩ := Option.map_eq_some_iff.mp h
      obtain ⟨v, -, hv⟩ := Option.bind_eq_some_iff.mp hu
      exact ⟨u, v, hv, rfl⟩

theorem lineKey_eq_iff {c c' line : Nat} : lineKey c line = lineKey c' line ↔ c = c' := by
  unfold lineKey
  omega

theorem keyLine_lineKey {c line : Nat} (h : line < 2 ^ 23) : keyLine (lineKey c line) = line := by
  unfold keyLine lineKey
  omega

theorem State.taken_spec {u v : State} (hline : line < 2 ^ 23) (hf : v.frameFor line 15 = some u) :
    let t := u.taken c line secs
    t.l1 c line = some ⟨.m, u.dirtyOf line ||| secs, []⟩ ∧ (∀ c', c' ≠ c → t.l1 c' line = none) ∧
      (t.dirOf line).owner = some c ∧ (t.dirOf line).present = dieBit (cacheDie c) := by
  intro t
  have hfu : (u.frame? line).isSome := State.frame?_of_frameFor hf
  have hd : t.dirOf line = { u.dirOf line with present := dieBit (cacheDie c), owner := some c } :=
    State.dirOf_modDir (s := State.voidClears _ (cacheDie c) line) hfu _
  refine ⟨Map.find?_put_same _ _ _, fun c' hc => ?_, by rw [hd], by rw [hd]⟩
  show Map.find? (Map.put (Map.keep u.coh.l1 (fun k => keyLine k != line)) (lineKey c line) _) (lineKey c' line) = none
  rw [Map.find?_put_other _ _ (fun h => hc (lineKey_eq_iff.mp h)), Map.find?_keep, keyLine_lineKey hline]
  exact if_neg (by simp)

/-- A forward that waited for the store is answered from the line in M. -/
theorem State.mem_forwardLine (s : State) (c line dest : Nat) (excl : Bool) (x : L1Line) :
    ⟨.data excl false, dest, line⟩ ∈ (s.forwardLine c line dest excl x).coh.msgs := by
  cases excl with
  | true => exact (State.forwardLine_getm x).1
  | false => exact State.mem_send _ _ _ _

end

theorem or_and_self_of_right {a b : BitVec 4} : (a ||| b) &&& b = b := by
  ext i hi
  simp only [BitVec.getElem_and, BitVec.getElem_or]
  cases a[i] <;> cases b[i] <;> rfl

/-- Settles O28: each message by its own lemma, the store by `State.taken_spec`. -/
theorem invalidationsAndFills : Obligations.invalidations_and_fills := by
  unfold Obligations.invalidations_and_fills
  refine ⟨fun s c d line _ ht => ⟨fun hnext => ?_, fun q b cs rest h hwaits hc hrest hq => ?_, fun stale h => exec_presenceClear ht h⟩,
    fun s c line x hx hroom ht => ?_, fun s t c line secs hline hw => ⟨fun hheld => ?_, fun x f hx hst hheld => ?_, fun hst => ?_⟩⟩
  · obtain ⟨t, hexec, hl1, hmsg, hothers, hdir, hmshr⟩ := exec_inv ht hnext
    refine ⟨t, hexec, hl1, hmsg, hothers, hdir, fun m hm hs he => ?_⟩
    rw [State.miss, hmshr, Map.find?_modify_same hm]
    simp [hs, he]
  · obtain ⟨t, hexec, hl1, hw, htold⟩ := exec_invAck ht h (State.frame?_isSome_of_waits hwaits) hq
    have hstay : rest.filter (fun w => !w.2.isEmpty) = rest := List.filter_eq_self.mpr fun w hw => by simpa using hrest w hw
    rw [hwaits, answerWait_of_mem hc] at hw htold
    refine ⟨t, hexec, hl1, fun hcs => ⟨htold q b ?_, ?_⟩, fun hcs => ?_⟩
    · simp [hcs]
    · rw [hw, hcs, List.filter_cons_of_neg (by simp), hstay]
    · rw [hw, List.filter_cons_of_pos (by simpa using hcs), hstay]
  · intro others
    refine ⟨fun b hd hg => ?_, fun b hd hheld => ⟨fun hdrop => ?_, fun hdrop => ?_⟩⟩
    · obtain ⟨u, hl1, hdir, hexec⟩ := exec_getmGrant ht hx hroom hd hg
      refine ⟨_, hexec, Map.find?_drop_same _ _, ⟨fun k hk => ?_, hdir⟩, Map.find?_put_same _ _ _⟩
      rw [← hl1]
      exact Map.find?_put_other _ _ hk
    · refine ⟨_, (exec_getsData ht hx hroom hd hheld).trans (congrArg _ (if_neg (by simp [hdrop]))), Map.find?_drop_same _ _,
        ⟨fun k hk => Map.find?_put_other _ _ hk, rfl⟩, Map.find?_put_same _ _ _⟩
    · have hs := sendsOnly_noteLeft ((s.take ⟨.data false b, c.val, line⟩).endMiss c.val line) c.val line
      refine ⟨_, (exec_getsData ht hx hroom hd hheld).trans (congrArg _ (if_pos hdrop)), ?_, hs.l1⟩
      rw [State.miss, hs.mshr]
      exact Map.find?_drop_same _ _
  · by_cases hhit : ∃ x, s.l1 c line = some x ∧ (x.st = .m ∨ x.st = .e)
    · obtain ⟨x, hx, hst⟩ := hhit
      rw [State.cohWrite_of_hit hx hst] at hw
      cases hw
      refine ⟨x.dirty ||| secs, ?_, ?_⟩
      · rw [State.storeHit, hheld x hx]
        exact Map.find?_put_same _ _ _
      · exact or_and_self_of_right
    · have hmiss : ∀ x, s.l1 c line = some x → x.st = .s ∨ x.st = .o := fun x hx => by
        cases hst : x.st with
        | s => exact .inl rfl
        | o => exact .inr rfl
        | m => exact absurd ⟨x, hx, .inl hst⟩ hhit
        | e => exact absurd ⟨x, hx, .inr hst⟩ hhit
      obtain ⟨u, v, hf, rfl⟩ := State.cohWrite_of_miss hmiss hw
      exact ⟨_, (State.taken_spec hline hf).1, or_and_self_of_right⟩
  · rw [State.cohWrite_of_hit hx (.inl hst)] at hw
    cases hw
    rw [State.storeHit, hheld]
    show _ ∈ (State.forward _ c line f.dest f.excl).coh.msgs
    rw [State.forward_of_l1 (s := s.setL1 c line ⟨.m, x.dirty ||| secs, []⟩) (Map.find?_put_same _ _ _)]
    exact State.mem_forwardLine _ _ _ _ _ _
  · obtain ⟨u, v, hf, rfl⟩ := State.cohWrite_of_miss hst hw
    exact (State.taken_spec hline hf).2

end Sys2Proof.Machine

/-! Proofs: the narrow ways and their configuration (R215, R219, R230, Table 13-4). -/

namespace Sys2Proof.Machine

/-! ### Registers of a Pan die -/

theorem panNcacheCtl_not_mem_rasKeys (d : Nat) : Reg.key (.panNcacheCtl d) ∉ rasKeys := by
  simp only [rasKeys, Reg.key, panBase, List.mem_cons, List.not_mem_nil, or_false]
  omega

/-- The registers that place a Heap byte on its channel are not the narrow ways' (R42, R228). -/
theorem State.physChan_congr {s t : State} {d : Nat} (h : ∀ r : Reg, r.key ≠ Reg.key (.panNcacheCtl d) → t.reg r = s.reg r) (key : Nat) :
    t.physChan key = s.physChan key := by
  have hg : ∀ x, t.guarded x = s.guarded x := fun x => by
    unfold State.guarded
    rw [State.rf_congr (h _ _)]
    simp only [Reg.key, panBase]
    omega
  have hc : ∀ c, t.chanState c = s.chanState c := fun c => by
    unfold State.chanState
    rw [State.rf_congr (h _ _)]
    simp only [Reg.key, panBase]
    omega
  unfold State.physChan State.heapChans
  simp only [hg, hc]

/-! ### Frames leave their slices -/

/-- What lines that leave their slices keep: the narrow ways and their register; frames and copies do not come back. -/
structure EvictsOnly (s t : State) : Prop where
  narrow : t.narrow = s.narrow
  chg : t.ncacheChg = s.ncacheChg
  reg : ∀ d, t.reg (.panNcacheCtl d) = s.reg (.panNcacheCtl d)
  frame : ∀ line, s.frame? line = none → t.frame? line = none
  holders : ∀ line, s.holders line = [] → t.holders line = []

theorem EvictsOnly.refl (s : State) : EvictsOnly s s := ⟨rfl, rfl, fun _ => rfl, fun _ h => h, fun _ h => h⟩

theorem EvictsOnly.trans {s t u : State} (h : EvictsOnly s t) (k : EvictsOnly t u) : EvictsOnly s u :=
  ⟨k.narrow.trans h.narrow, k.chg.trans h.chg, fun d => (k.reg d).trans (h.reg d), fun l hl => k.frame l (h.frame l hl),
    fun l hl => k.holders l (h.holders l hl)⟩

theorem LogsOnly.narrow {s t : State} (h : LogsOnly s t) : t.narrow = s.narrow := by rw [h]
theorem LogsOnly.ncacheChg {s t : State} (h : LogsOnly s t) : t.ncacheChg = s.ncacheChg := by rw [h]

theorem State.reg_discardNote (s : State) (keys : List Nat) {r : Reg} (h : r.key ∉ rasKeys) :
    (s.discardNote keys).reg r = s.reg r := by
  unfold State.discardNote
  generalize ((keys.filter s.failing).map s.physChan).dedup = cs
  have hall : ∀ u : State, u.reg r = s.reg r → (cs.foldl (fun (t : State) c =>
      t.ras_ { rasOf 0x04 1 (c / 32) 0x01 c 0x101 with part := s.physOwner c }) u).reg r = s.reg r := by
    induction cs with
    | nil => exact fun u hu => hu
    | cons c cs ih => exact fun u hu => ih _ ((State.reg_ras u _ h).trans hu)
  exact hall s rfl

/-- A line leaves its slice: no frame, no copy (R219). -/
theorem State.evictFrame_spec (s : State) (line : Nat) :
    EvictsOnly s (s.evictFrame line) ∧ (s.evictFrame line).frame? line = none ∧ (s.evictFrame line).holders line = [] := by
  obtain ⟨u, keys, hu, hdir, hl1, hn, hc, hr⟩ : ∃ (u : State) (keys : List Nat), s.evictFrame line = u.discardNote keys ∧
      u.coh.dir = Map.drop (Map.modify s.coh.dir line (fun f => { f with
        valid := f.valid ||| s.dirtyOf line
        dirty := f.dirty ||| s.dirtyOf line
        present := 0
        owner := none })) line ∧
      u.coh.l1 = Map.keep s.coh.l1 (fun k => keyLine k != line) ∧ u.narrow = s.narrow ∧ u.ncacheChg = s.ncacheChg ∧ u.regs = s.regs :=
    ⟨_, _, rfl, rfl, rfl, rfl, rfl, rfl⟩
  have hlog := logsOnly_discardNote u keys
  rw [hu]
  have hframe : ∀ l, (u.discardNote keys).frame? l = if l = line then none else s.frame? l := fun l => by
    rw [State.frame?, hlog.coh, hdir, Map.find?_drop]
    split
    · rfl
    · next hne => rw [Map.find?_modify, if_neg hne]; rfl
  have hholders : ∀ l, (u.discardNote keys).holders l = ((s.coh.l1.filter (fun kv => keyLine kv.1 != line)).filter
      (fun kv => keyLine kv.1 == l)).map (fun kv => keyCache kv.1) := fun l => by
    rw [State.holders, hlog.coh, hl1]
    rfl
  refine ⟨⟨hlog.narrow.trans hn, hlog.ncacheChg.trans hc, fun d => ?_, fun l h => ?_, fun l h => ?_⟩, ?_, ?_⟩
  · rw [State.reg_discardNote _ _ (panNcacheCtl_not_mem_rasKeys d), State.reg_congr hr]
  · rw [hframe, h]
    split <;> rfl
  · have hnone : s.coh.l1.filter (fun kv => keyLine kv.1 == l) = [] := List.map_eq_nil_iff.mp h
    rw [hholders, List.filter_comm, hnone]
    rfl
  · rw [hframe, if_pos rfl]
  · rw [hholders, List.filter_filter, List.map_eq_nil_iff, List.filter_eq_nil_iff]
    intro kv _
    simp

theorem State.foldl_evictFrame (lines : List Nat) (s : State) : EvictsOnly s (lines.foldl State.evictFrame s) ∧
    ∀ line ∈ lines, (lines.foldl State.evictFrame s).frame? line = none ∧ (lines.foldl State.evictFrame s).holders line = [] := by
  induction lines generalizing s with
  | nil => exact ⟨.refl s, by simp⟩
  | cons x xs ih =>
    obtain ⟨hx, hframe, hholders⟩ := s.evictFrame_spec x
    obtain ⟨hxs, hall⟩ := ih (s.evictFrame x)
    refine ⟨hx.trans hxs, fun line hl => ?_⟩
    rcases List.mem_cons.mp hl with rfl | hl
    · exact ⟨hxs.frame _ hframe, hxs.holders _ hholders⟩
    · exact hall line hl

/-! ### The register of the narrow ways -/

section
variable (s : State) (d : Fin 12) (val : BitVec 32)

/-- A new number of ways starts the conversion. -/
def State.ncacheStart (s : State) (d : Nat) (miss ways : Nat) : State :=
  ((s.setRf (.panNcacheCtl d) 4 4 miss).setRf (.panNcacheCtl d) 3 0 ways).setRf (.panNcacheCtl d) 8 8 1

theorem State.reg_ncacheStart (miss ways : Nat) {r : Reg} (h : r.key ≠ Reg.key (.panNcacheCtl d.val)) :
    (s.ncacheStart d.val miss ways).reg r = s.reg r := by
  unfold State.ncacheStart
  rw [State.reg_setRf_of_ne _ _ _ _ h, State.reg_setRf_of_ne _ _ _ _ h, State.reg_setRf_of_ne _ _ _ _ h]

theorem execNcacheConfig_change (hup : s.dieUp d.val = true) (hw : fld val.toNat 3 0 ≤ 8)
    (hne : fld val.toNat 3 0 ≠ s.rf (.panNcacheCtl d.val) 3 0) :
    let w := fld val.toNat 3 0
    let old := s.rf (.panNcacheCtl d.val) 3 0
    let t := s.ncacheStart d.val (fld val.toNat 4 4) w
    exec (.ncacheConfig d val) s = .next { t with
      ncacheChg := Map.put s.ncacheChg d.val (min (Map.getD s.ncacheChg d.val (old, old)).1 w,
        max (Map.getD s.ncacheChg d.val (old, old)).2 w)
      narrow := s.narrow.filter (fun f => (t.narrowSet f.region).1 != d.val || 16 - w ≤ f.way) } := by
  intro w old t
  show execNcacheConfig d val s = _
  unfold execNcacheConfig
  dsimp only
  rw [if_neg (by simp [hup]), if_neg (by simp only [Bool.or_eq_true, decide_eq_true_eq, beq_iff_eq, not_or, not_lt]; exact ⟨hw, hne⟩)]
  rfl

theorem execNcacheConfig_same (hup : s.dieUp d.val = true) (hw : 8 < fld val.toNat 3 0 ∨
    fld val.toNat 3 0 = s.rf (.panNcacheCtl d.val) 3 0) :
    exec (.ncacheConfig d val) s = .next (s.setRf (.panNcacheCtl d.val) 4 4 (fld val.toNat 4 4)) := by
  show execNcacheConfig d val s = _
  unfold execNcacheConfig
  dsimp only
  rw [if_neg (by simp [hup]), if_pos (by simpa using hw)]

end

/-- Settles O29: a write of the register by its two equations, the conversion by `State.foldl_evictFrame`. -/
theorem narrowWays : Obligations.narrow_ways := by
  unfold Obligations.narrow_ways
  intro s d val r w old
  have hw16 : w < 16 := Nat.mod_lt _ (by decide)
  have h44 : fld val.toNat 4 4 < 2 := Nat.mod_lt _ (by decide)
  refine ⟨fun hup => ⟨fun hle hne => ?_, fun hw => ?_⟩, fun ht hchg hidle => ?_⟩
  · refine ⟨_, execNcacheConfig_change s d val hup hle hne, ?_, ?_, ?_, Map.find?_put_same _ _ _, fun x => ?_⟩
    · show (s.ncacheStart d.val (fld val.toNat 4 4) w).rf r 3 0 = w
      unfold State.ncacheStart
      rw [State.rf_setRf_other _ _ _ (by decide) (by decide), State.rf_setRf_same _ _ _ (by decide)]
      exact Nat.mod_eq_of_lt hw16
    · show (s.ncacheStart d.val (fld val.toNat 4 4) w).rf r 8 8 = 1
      unfold State.ncacheStart
      rw [State.rf_setRf_same _ _ _ (by decide)]
      rfl
    · show (s.ncacheStart d.val (fld val.toNat 4 4) w).rf r 4 4 = fld val.toNat 4 4
      unfold State.ncacheStart
      rw [State.rf_setRf_other _ _ _ (by decide) (by decide), State.rf_setRf_other _ _ _ (by decide) (by decide),
        State.rf_setRf_same _ _ _ (by decide)]
      exact Nat.mod_eq_of_lt h44
    · have hset : ((s.ncacheStart d.val (fld val.toNat 4 4) w).narrowSet x.region).1 = (s.narrowSet x.region).1 := by
        unfold State.narrowSet
        dsimp only
        rw [State.physChan_congr (fun r hr => State.reg_ncacheStart s d _ _ hr)]
      simp only [List.mem_filter, Bool.or_eq_true, bne_iff_ne, decide_eq_true_eq]
      rw [show ((s.ncacheStart d.val (fld val.toNat 4 4) (fld val.toNat 3 0)).narrowSet x.region).1 = _ from hset]
  · refine ⟨_, execNcacheConfig_same s d val hup hw, ?_, ?_, rfl, rfl⟩
    · rw [State.rf_setRf_other _ _ _ (by decide) (by decide)]
    · rw [State.rf_setRf_same _ _ _ (by decide)]
      exact Nat.mod_eq_of_lt h44
  · obtain ⟨he, hall⟩ := State.foldl_evictFrame (s.entering d.val) s
    refine ⟨_, (State.clocked_of ht _).trans ((if_neg ?_).trans (if_neg ?_)), ?_, ?_, ?_, he.narrow, hall⟩
    · simpa [Option.isNone_iff_eq_none, ← Option.isSome_iff_ne_none] using hchg
    · simpa [List.all_eq_true] using hidle
    · rw [State.rf_setRf_same _ _ _ (by decide)]
      rfl
    · exact Map.find?_drop_same _ _
    · rw [State.rf_setRf_other _ _ _ (by decide) (by decide)]
      exact State.rf_congr (he.reg d.val) 3 0

end Sys2Proof.Machine

/-! Proofs: windows are exported and withdrawn, and translations are invalidated (R181, R182, R241 to R244). -/

namespace Sys2Proof.Machine

/-! ### Accesses through a VF (R267) -/

theorem State.throughVf_of_opens {s : State} {fn off : Nat} {act : Res} (h : fn = 0 ∨ 96 < fn ∨ s.partOn (fn - 1) = true) :
    s.throughVf fn off act = act := by
  refine if_neg ?_
  simp only [Bool.and_eq_true, decide_eq_true_eq, Bool.not_eq_true', not_and, Bool.not_eq_false]
  rintro ⟨h1, h96⟩
  exact (h.resolve_left (by omega)).resolve_left (by omega)

theorem State.throughVf_of_not_opens {s : State} {fn off : Nat} {act : Res} (h : ¬ (fn = 0 ∨ 96 < fn ∨ s.partOn (fn - 1) = true)) :
    s.throughVf fn off act = .next (s.accessError 267 fn off) := by
  obtain ⟨h0, h96, hon⟩ := by simpa only [not_or] using h
  refine if_pos ?_
  simp only [Bool.and_eq_true, decide_eq_true_eq, Bool.not_eq_true', Bool.not_eq_true] at hon ⊢
  exact ⟨⟨by omega, by omega⟩, hon⟩

/-- `t` is `s` but for registers. -/
def RegsOnly (s t : State) : Prop := t = { s with regs := t.regs }

theorem RegsOnly.trans {s t u : State} (h : RegsOnly s t) (k : RegsOnly t u) : RegsOnly s u := by
  unfold RegsOnly at *
  rw [k, h]

theorem regsOnly_setReg (s : State) (r : Reg) (v : Nat) : RegsOnly s (s.setReg r v) := rfl
theorem regsOnly_setRf (s : State) (r : Reg) (hi lo v : Nat) : RegsOnly s (s.setRf r hi lo v) := rfl

/-! ### The window doorbell -/

/-- A STATUS that is written, or whose write faults (R182). -/
theorem State.winStatus_spec (u : State) (p n st : Nat) (act : State → State) :
    (∀ t, u.ipaWrite p (u.winAddr p n + 6) [BitVec.ofNat 8 st] = .ok t → u.winStatus p n st act = act t) ∧
    (∀ f, u.ipaWrite p (u.winAddr p n + 6) [BitVec.ofNat 8 st] = .error f →
      u.winStatus p n st act = if f.code = 10 then u else u.tableFault 182 p f true) := by
  unfold State.winStatus
  refine ⟨fun t h => by rw [h], fun f h => ?_⟩
  rw [h]
  exact if_congr beq_iff_eq rfl rfl

/-- The doorbell instructions. -/
theorem exec_windowDoorbell {s : State} {fn : Nat} {val : BitVec 32} (hfn : fn ≤ 96) :
    ∀ c ∈ [Instr.windowExport fn val, Instr.windowWithdraw fn val],
      exec c s = s.throughVf fn 0xFF000 (.next (s.winDoorbell fn val)) := by
  intro c hc
  fin_cases hc
  · exact if_pos hfn
  · exact if_pos hfn

section
variable {u : State} {p n : Nat} {w : Nat → Nat}

/-- The first refusal of an entry, in the order of R181. -/
theorem State.exportStatus_spec :
    let pool := fld (w 0) 62 60 = 2
    let core := fld (w 2) 42 32
    let bad := winBad w = true ∨ (pool ∧ u.coreValid core = true ∧ poolSize core < fld (w 0) 47 0 + fld (w 1) 39 0)
    let owned := u.ctxOwner (fld (w 2) 19 0) = p ∧ (pool → u.coreValid core = true ∧ u.basinOwner (coreBasin core) = p)
    let changing := pool ∧ (Map.find? u.modeChg (coreBasin core)).isSome = true
    (bad → u.exportStatus p w = 3) ∧ (¬ bad → ¬ owned → u.exportStatus p w = 4) ∧
      (¬ bad → owned → changing → u.exportStatus p w = 2) ∧ (¬ bad → owned → ¬ changing → u.exportStatus p w = 0) := by
  intro pool core bad owned changing
  have hbad : (winBad w || !u.winRange w) = true ↔ bad := by
    simp only [State.winRange, Bool.or_eq_true, Bool.not_eq_true', Bool.or_eq_false_iff, bne_eq_false_iff_eq, Bool.not_eq_false',
      decide_eq_false_iff_not, not_le, bad, pool, core, and_assoc]
  have howned : u.winOwned p w = true ↔ owned := by
    simp only [State.winOwned, Bool.and_eq_true, Bool.or_eq_true, beq_iff_eq, bne_iff_ne, owned, pool, core, ne_eq,
      ← imp_iff_not_or]
  have hchanging : (fld (w 0) 62 60 == 2 && (Map.find? u.modeChg (coreBasin (fld (w 2) 42 32))).isSome) = true ↔ changing := by
    simp only [Bool.and_eq_true, beq_iff_eq, changing, pool, core]
  unfold State.exportStatus
  refine ⟨fun hb => if_pos (hbad.mpr hb), fun hb ho => ?_, fun hb ho hc => ?_, fun hb ho hc => ?_⟩
  · rw [if_neg (hbad.not.mpr hb), if_pos (by rw [Bool.not_eq_true']; exact Bool.eq_false_iff.mpr (howned.not.mpr ho))]
  · rw [if_neg (hbad.not.mpr hb), if_neg (by rw [howned.mpr ho]; decide), if_pos (hchanging.mpr hc)]
  · rw [if_neg (hbad.not.mpr hb), if_neg (by rw [howned.mpr ho]; decide), if_neg (hchanging.not.mpr hc)]

/-- An entry with VALID = 1 ends in the status that its check finds. -/
theorem State.winAct_export (hv : bit (w 0) 63 = true) {st : Nat} (hst : u.exportStatus p w = st) :
    u.winAct p n w = u.winStatus p n st (fun t => { t with
      windows := if st == 0 then Map.put t.windows (p * 65536 + n) (windowOf w) else Map.drop t.windows (p * 65536 + n) }) := by
  subst hst
  exact if_pos hv

end

/-! ### Invalidations -/

section
variable {s : State} {p : Nat}

/-- A block whose commands all have an effect settles nothing. -/
theorem State.invSettle_of_valid {n : Nat} (h : ∀ x ∈ Map.getD s.invs p [], x.valid = true) : s.invSettle p n = s := by
  cases n with
  | zero => rfl
  | succ n =>
    rw [State.invSettle]
    split
    · rfl
    · next i rest hq => exact if_pos (h i (by rw [hq]; exact List.mem_cons_self))

/-- The front command has an effect, and waits. -/
theorem State.invSettle_of_front {n : Nat} {i : Inval} {rest : List Inval} (hq : Map.getD s.invs p [] = i :: rest)
    (hv : i.valid = true) : s.invSettle p n = s := by
  cases n with
  | zero => rfl
  | succ n =>
    rw [State.invSettle, hq]
    exact if_pos hv

/-- A completed command advances DONE, and one without effect stands in ERR_SEQ (R241). -/
theorem State.invDone_spec (s : State) (p : Nat) (i : Inval) : RegsOnly s (s.invDone p i) ∧
    (s.invDone p i).rf (.xltInvSts p) 31 16 = (s.rf (.xltInvSts p) 31 16 + 1) % 65536 ∧
    (s.invDone p i).rf (.xltInvSts p) 15 0 = s.rf (.xltInvSts p) 15 0 ∧
    (i.valid = false → (s.invDone p i).rf (.xltInvSts p) 47 32 = i.seq % 65536) := by
  unfold State.invDone
  dsimp only
  split
  · next hv =>
    refine ⟨regsOnly_setRf _ _ _ _ _, ?_, ?_, fun h => absurd (h.symm.trans hv) (by decide)⟩
    · rw [State.rf_setRf_same _ _ _ (by decide)]
      norm_num
    · rw [State.rf_setRf_other _ _ _ (by decide) (by decide)]
  · refine ⟨(regsOnly_setRf _ _ _ _ _).trans (regsOnly_setRf _ _ _ _ _), ?_, ?_, fun _ => ?_⟩
    · rw [State.rf_setRf_other _ _ _ (by decide) (by decide), State.rf_setRf_same _ _ _ (by decide)]
      norm_num
    · rw [State.rf_setRf_other _ _ _ (by decide) (by decide), State.rf_setRf_other _ _ _ (by decide) (by decide)]
    · rw [State.rf_setRf_same _ _ _ (by decide)]
      norm_num

/-- The command that a write of XLT_INV_HI submits. -/
def State.invalOf (s : State) (fn p : Nat) (hi : BitVec 64) : Inval :=
  let h := hi.toNat
  ⟨(s.rf (.xltInvSts p) 15 0 + 1) % 2 ^ 16, fld h 63 60, if fld h 63 60 == 3 then p else fld h 58 52, fld h 51 32, s.invAddr fn p,
    fld h 31 0, !s.invInvalid fn p h⟩

/-- The state in which the command stands at the end of its queue. -/
def State.invQueued (s : State) (p : Nat) (i : Inval) : State :=
  let t := s.setRf (.xltInvSts p) 15 0 i.seq
  { t with invs := Map.put t.invs p (Map.getD t.invs p [] ++ [i]) }

theorem State.submitInv_of_room {fn : Nat} {hi : BitVec 64} (h : s.invOpen p < 16) :
    s.submitInv fn p hi = (s.invQueued p (s.invalOf fn p hi)).invSettle p 17 := by
  unfold State.submitInv
  rw [if_neg (by omega)]
  rfl

theorem State.getD_invQueued (s : State) (p : Nat) (i : Inval) :
    Map.getD (s.invQueued p i).invs p [] = Map.getD s.invs p [] ++ [i] := by
  unfold State.invQueued Map.getD
  rw [Map.find?_put_same, regsOnly_setRf s (.xltInvSts p) 15 0 i.seq]
  rfl

theorem State.rf_invQueued (s : State) (p : Nat) (i : Inval) {hi lo : Nat} :
    (s.invQueued p i).rf (.xltInvSts p) hi lo = (s.setRf (.xltInvSts p) 15 0 i.seq).rf (.xltInvSts p) hi lo :=
  State.rf_congr (State.reg_congr rfl _) hi lo

theorem State.tlb_invQueued (s : State) (p : Nat) (i : Inval) : (s.invQueued p i).tlb = s.tlb := by
  show (s.setRf (.xltInvSts p) 15 0 i.seq).tlb = s.tlb
  rw [regsOnly_setRf s (.xltInvSts p) 15 0 i.seq]

/-- A command of a queue without room is dropped; else it is queued, and one without effect completes at the front. -/
theorem State.submitInv_spec {fn : Nat} {hi : BitVec 64} (h : s.invOpen p < 16) (hq : ∀ x ∈ Map.getD s.invs p [], x.valid = true) :
    let q := Map.getD s.invs p []
    let r := Reg.xltInvSts p
    let i := s.invalOf fn p hi
    let t := s.submitInv fn p hi
    (t.rf r 15 0 = i.seq ∧ t.tlb = s.tlb) ∧
    (i.valid = true ∨ q ≠ [] → Map.getD t.invs p [] = q ++ [i] ∧ t.rf r 31 16 = s.rf r 31 16) ∧
    (i.valid = false → q = [] → Map.getD t.invs p [] = [] ∧ t.rf r 31 16 = (s.rf r 31 16 + 1) % 65536 ∧ t.rf r 47 32 = i.seq) := by
  intro q r i t
  have hseq : i.seq < 2 ^ 16 := Nat.mod_lt _ (by decide)
  have ht : t = (s.invQueued p i).invSettle p 17 := State.submitInv_of_room h
  have hinvs := s.getD_invQueued p i
  have hsub : (s.invQueued p i).rf r 15 0 = i.seq := by
    rw [State.rf_invQueued, State.rf_setRf_same _ _ _ (by decide)]
    exact Nat.mod_eq_of_lt hseq
  have hdone : (s.invQueued p i).rf r 31 16 = s.rf r 31 16 := by
    rw [State.rf_invQueued, State.rf_setRf_other _ _ _ (by decide) (by decide)]
  by_cases hstay : i.valid = true ∨ q ≠ []
  · have hsettle : t = s.invQueued p i := by
      rw [ht]
      cases hqs : q with
      | nil =>
        rw [show Map.getD s.invs p [] = [] from hqs] at hinvs
        exact State.invSettle_of_front hinvs (hstay.resolve_right (fun h => h hqs))
      | cons x xs =>
        rw [show Map.getD s.invs p [] = x :: xs from hqs] at hinvs
        exact State.invSettle_of_front hinvs (hq x (by rw [show Map.getD s.invs p [] = x :: xs from hqs]; exact List.mem_cons_self))
    rw [hsettle]
    refine ⟨⟨hsub, s.tlb_invQueued p i⟩, fun _ => ⟨hinvs, hdone⟩, fun hv hqs => ?_⟩
    rcases hstay with h | h
    · exact absurd (hv.symm.trans h) (by decide)
    · exact absurd hqs h
  · obtain ⟨hv, hqs⟩ := not_or.mp hstay
    rw [not_ne_iff] at hqs
    rw [Bool.not_eq_true] at hv
    rw [show Map.getD s.invs p [] = [] from hqs] at hinvs
    obtain ⟨u, hu⟩ : ∃ u : State, u = { s.invQueued p i with invs := Map.putD (s.invQueued p i).invs p [] [] } := ⟨_, rfl⟩
    have huinvs : Map.getD u.invs p [] = [] := by
      rw [hu]
      exact Map.getD_putD_same (s.invQueued p i).invs p ([] : List Inval) []
    obtain ⟨hregs, hd, hs, he⟩ := State.invDone_spec u p i
    have hempty : Map.getD (u.invDone p i).invs p [] = [] := by rw [hregs]; exact huinvs
    have hsettle : t = u.invDone p i := by
      rw [ht, State.invSettle, hinvs]
      dsimp only [List.nil_append]
      rw [if_neg (by simp [hv]), ← hu]
      exact State.invSettle_of_valid (by rw [hempty]; simp)
    have hrf : ∀ hi lo, u.rf r hi lo = (s.invQueued p i).rf r hi lo := fun hi lo => by
      rw [hu]
      exact State.rf_congr (State.reg_congr rfl _) hi lo
    have htlb : u.tlb = s.tlb := by
      rw [hu]
      exact s.tlb_invQueued p i
    rw [hsettle]
    refine ⟨⟨by rw [hs, hrf, hsub], ?_⟩, fun h => absurd h hstay, fun _ _ => ⟨hempty, by rw [hd, hrf, hdone], ?_⟩⟩
    · rw [hregs]
      exact htlb
    · rw [he hv]
      exact Nat.mod_eq_of_lt hseq

end

/-! ### An invalidation completes -/

/-- `t` is `s` but for DMA commands and what logging writes, the status of invalidations apart. -/
structure Squashes (s t : State) : Prop where
  rest : LogsOnly { s with dma := t.dma } t
  status : ∀ p, t.reg (.xltInvSts p) = s.reg (.xltInvSts p)

theorem Squashes.refl (s : State) : Squashes s s := ⟨rfl, fun _ => rfl⟩

theorem Squashes.trans {s t u : State} (h : Squashes s t) (k : Squashes t u) : Squashes s u := by
  refine ⟨?_, fun p => (k.status p).trans (h.status p)⟩
  have hr := h.rest
  have kr := k.rest
  unfold LogsOnly at *
  rw [kr, hr]

/-- The rows of a command that a covered translation serves are squashed (R175). -/
def State.squashRow (s : State) (i : Inval) (t : State) (c : DmaCmd) : State :=
  match c.looked.find? i.covers with
  | none => t
  | some e =>
    let (va, write) := s.rowAt c e
    let t := t.putDma { c with looked := [] }
    (t.post c.org.part (dmaRecord c 0x80 true write false va (t.dieTime (coreDie c.org.core)))).1

theorem State.squashRow_spec (s : State) (i : Inval) (t : State) (c : DmaCmd) : Squashes t (s.squashRow i t c) ∧
    (s.squashRow i t c).dma = if (c.looked.find? i.covers).isSome then (t.putDma { c with looked := [] }).dma else t.dma := by
  unfold State.squashRow
  split
  · next h => exact ⟨.refl t, by rw [h]; rfl⟩
  · next e h =>
    dsimp only
    rw [h]
    have hlog := logsOnly_post (t.putDma { c with looked := [] }) c.org.part (dmaRecord c 0x80 true (s.rowAt c e).2 false (s.rowAt c e).1
      ((t.putDma { c with looked := [] }).dieTime (coreDie c.org.core)))
    have hdma : ∀ u, LogsOnly (t.putDma { c with looked := [] }) u → u.dma = (t.putDma { c with looked := [] }).dma := fun u h => by rw [h]
    refine ⟨⟨?_, fun p => ?_⟩, hdma _ hlog⟩
    · rwa [hdma _ hlog]
    · refine (State.reg_post _ _ _ ?_ ?_).trans rfl
      · simp only [Reg.key]
        omega
      · simp only [Reg.key]
        omega

/-- No command keeps a covered translation, but those still to be squashed. -/
theorem State.foldl_squashRow (s : State) (i : Inval) (cs : List DmaCmd) (t : State)
    (h : ∀ d ∈ t.dma, d.looked.find? i.covers = none ∨ ∃ c ∈ cs, c.id = d.id ∧ (c.looked.find? i.covers).isSome) :
    Squashes t (cs.foldl (s.squashRow i) t) ∧ ∀ d ∈ (cs.foldl (s.squashRow i) t).dma, ∀ e ∈ d.looked, i.covers e = false := by
  induction cs generalizing t with
  | nil =>
    refine ⟨.refl t, fun d hd e he => ?_⟩
    have hnone := (h d hd).resolve_right (by simp)
    simpa using List.find?_eq_none.mp hnone e he
  | cons c cs ih =>
    obtain ⟨hc, hdma⟩ := s.squashRow_spec i t c
    have hleft : ∀ d ∈ (s.squashRow i t c).dma, d.looked.find? i.covers = none ∨
        ∃ c ∈ cs, c.id = d.id ∧ (c.looked.find? i.covers).isSome := fun d hd => by
      rw [hdma] at hd
      by_cases hcov : (c.looked.find? i.covers).isSome
      · rw [if_pos hcov] at hd
        obtain ⟨o, ho, rfl⟩ := List.mem_map.mp hd
        by_cases hid : o.id = c.id
        · exact .inl (by simp [hid])
        · have hne : (o.id == c.id) = false := by simpa using hid
          simp only [hne, Bool.false_eq_true, if_false]
          refine (h o ho).imp_right ?_
          rintro ⟨c', hc', hid', hcov'⟩
          rcases List.mem_cons.mp hc' with rfl | hc'
          · exact absurd hid'.symm hid
          · exact ⟨c', hc', hid', hcov'⟩
      · rw [if_neg hcov] at hd
        refine (h d hd).imp_right ?_
        rintro ⟨c', hc', hid', hcov'⟩
        rcases List.mem_cons.mp hc' with rfl | hc'
        · exact absurd hcov' hcov
        · exact ⟨c', hc', hid', hcov'⟩
    obtain ⟨hcs, hall⟩ := ih (s.squashRow i t c) hleft
    exact ⟨hc.trans hcs, hall⟩

theorem State.squashRows_spec (s : State) (i : Inval) : Squashes s (s.squashRows i) ∧
    ∀ d ∈ (s.squashRows i).dma, ∀ e ∈ d.looked, i.covers e = false := by
  have hfold : s.squashRows i = s.dma.foldl (s.squashRow i) s := rfl
  rw [hfold]
  refine s.foldl_squashRow i s.dma s (fun d hd => ?_)
  cases hf : d.looked.find? i.covers with
  | none => exact .inl rfl
  | some e => exact .inr ⟨d, hd, rfl, by rw [hf]; rfl⟩

/-- What is left once the front command of a block is complete (R242). -/
structure Invalidated (s t : State) (p : Nat) (i : Inval) (rest : List Inval) : Prop where
  tlb : t.tlb = s.tlb.filter (fun e => !i.covers e)
  invs : Map.getD t.invs p [] = rest
  utlb : ∀ x ∈ t.utlb, i.covers x.2 = false
  wc1 : ∀ x ∈ t.wc1, i.covers1 x = false
  wc2 : ∀ x ∈ t.wc2, i.covers2 x = false
  dma : ∀ d ∈ t.dma, ∀ e ∈ d.looked, i.covers e = false
  done : t.rf (.xltInvSts p) 31 16 = (s.rf (.xltInvSts p) 31 16 + 1) % 65536
  submitted : t.rf (.xltInvSts p) 15 0 = s.rf (.xltInvSts p) 15 0

theorem State.invComplete_spec {s : State} {p : Nat} {i : Inval} {rest : List Inval} (hq : Map.getD s.invs p [] = i :: rest)
    (hv : ∀ x ∈ rest, x.valid = true) : ∃ t : State, s.invComplete p = some t ∧ Invalidated s t p i rest := by
  obtain ⟨hsq, hrows⟩ := s.squashRows_spec i
  obtain ⟨v, hv'⟩ : ∃ v : State, v = (s.squashRows i).dropXlat i.covers i.covers1 i.covers2 := ⟨_, rfl⟩
  obtain ⟨w, hw, hexec⟩ : ∃ w : State, w = { v with icache := w.icache } ∧
      s.invComplete p = some (({ w with invs := Map.putD w.invs p [] rest }.invDone p i).invSettle p 17) := by
    unfold State.invComplete
    rw [hq]
    dsimp only
    rw [← hv']
    split
    · exact ⟨_, rfl, rfl⟩
    · exact ⟨v, rfl, rfl⟩
  obtain ⟨u, hu⟩ : ∃ u : State, u = { w with invs := Map.putD w.invs p [] rest } := ⟨_, rfl⟩
  obtain ⟨hregs, hdone, hsub, -⟩ := State.invDone_spec u p i
  have huinvs : Map.getD u.invs p [] = rest := by rw [hu]; exact Map.getD_putD_same (α := List Inval) _ _ _ _
  have hinvs : Map.getD (u.invDone p i).invs p [] = rest := by rw [hregs]; exact huinvs
  have hrf : ∀ hi lo, u.rf (.xltInvSts p) hi lo = s.rf (.xltInvSts p) hi lo := fun hi lo => by
    rw [State.rf_congr (s := s.squashRows i) (State.reg_congr (by rw [hu, hw, hv']; rfl) _), State.rf_congr (hsq.status p)]
  refine ⟨u.invDone p i, ?_, ?_, hinvs, ?_, ?_, ?_, ?_, by rw [hdone, hrf], by rw [hsub, hrf]⟩
  · rw [hexec, ← hu, State.invSettle_of_valid (by rw [hinvs]; exact hv)]
  · rw [hregs, hu, hw, hv']
    show (s.squashRows i).tlb.filter _ = _
    rw [hsq.rest]
  · rw [hregs, hu, hw, hv']
    exact fun x hx => by simpa using (List.mem_filter.mp hx).2
  · rw [hregs, hu, hw, hv']
    exact fun x hx => by simpa using (List.mem_filter.mp hx).2
  · rw [hregs, hu, hw, hv']
    exact fun x hx => by simpa using (List.mem_filter.mp hx).2
  · rw [hregs, hu, hw, hv']
    exact hrows

/-! ### The log of a watchdog -/

/-- An entry of a severity above 0 is written, or counted in one that R363 combines with it. -/
theorem State.mem_ras (s : State) {e : RasEntry} (hsev : e.sev ≠ 0) : ∃ o ∈ (s.ras_ e).ras, o.cls = e.cls ∧ o.detail = e.detail := by
  by_cases h : ∃ o ∈ s.ras, s.takesUp e o = true
  · obtain ⟨l, r, o, -, ho, hras⟩ := State.ras_of_takesUp h
    obtain ⟨hcls, -, -, -, hdetail, -⟩ := State.takesUp_iff.mp ho
    rw [hras]
    exact ⟨_, List.mem_append_right _ List.mem_cons_self, hcls, hdetail⟩
  · have hnone : ∀ o ∈ s.ras, s.takesUp e o = false := fun o ho => Bool.eq_false_iff.mpr fun ht => h ⟨o, ho, ht⟩
    rw [State.ras_of_new hnone (.inr hsev)]
    exact ⟨_, List.mem_cons_self, rfl, rfl⟩

/-- The instructions that submit an invalidation. -/
theorem exec_submitInv {s : State} {p fn : Nat} {hi : BitVec 64} :
    ∀ c ∈ ([Instr.s1Range, Instr.s1Ctx, Instr.s1All, Instr.s2Range, Instr.s2Part, Instr.invalidateAll] :
      List (Nat → Nat → BitVec 64 → Instr)), exec (c fn p hi) s = s.throughVf fn 0xFE008 (.next (s.submitInv fn p hi)) := by
  intro c hc
  fin_cases hc <;> rfl

theorem reg_ras_xltInvSts (s : State) (e : RasEntry) {p : Nat} (hp : p ≤ 127) :
    (s.ras_ e).reg (.xltInvSts p) = s.reg (.xltInvSts p) := by
  refine State.reg_ras s e ?_
  simp only [rasKeys, Reg.key, List.mem_cons, List.not_mem_nil, or_false]
  omega

/-- Settles O30: the doorbell by `State.winStatus_spec` and `State.exportStatus_spec`, an invalidation by `State.submitInv_spec`
and `State.invComplete_spec`. -/
theorem windowsAndInvalidations : Obligations.windows_and_invalidations := by
  unfold Obligations.windows_and_invalidations
  refine ⟨fun s fn val hfn => ?_, fun s p => ?_⟩
  · intro p n key opens ends
    have hp : (if fn == 0 then fld val.toNat 22 16 else fn - 1) = p := if_congr beq_iff_eq rfl rfl
    have hthrough : opens → ∀ act : Res, s.throughVf fn 0xFF000 act = act := fun ho act =>
      State.throughVf_of_opens (ho.imp_right .inr)
    have hdoor : s.winDoorbell fn val = if !(p < 96 || p == 127) || n ≥ s.winEntries p then s.dropped 182 (if p < 96 then p else 127)
        else match s.ipaRead p (s.winAddr p n) 32 with
        | .error f => if f.code == 10 then s else s.tableFault 182 p f false
        | .ok (bs, bad) =>
          if bad then (s.ras_ { rasOf 0x03 2 15 0x08 0 8 with part := p }).dropped 182 p
          else (s.noteIpa p (s.winAddr p n) 32 false).winAct p n (fun i => (wordAt bs i).toNat) := by
      unfold State.winDoorbell
      simp only [hp] <;> rfl
    have hends : ∀ (u : State) (p n st : Nat) (act : State → State), ends u u p n st (.next (u.winStatus p n st act)) act :=
      fun u p n st act => ⟨fun t ht => congrArg _ ((u.winStatus_spec p n st act).1 t ht),
        fun f hf => congrArg _ ((u.winStatus_spec p n st act).2 f hf)⟩
    refine ⟨fun hno c hc => ?_, fun ho hbad c hc => ?_, fun ho hpart hn bs hread => ?_, fun q k x hx hwd => ?_⟩
    · rw [exec_windowDoorbell hfn c hc]
      refine State.throughVf_of_not_opens fun h => hno (h.imp_right fun h => h.resolve_left (by omega))
    · rw [exec_windowDoorbell hfn c hc, hthrough ho, hdoor, if_pos]
      simpa using hbad
    · intro u w pool core bad owned changing refused
      have hact : s.winDoorbell fn val = u.winAct p n w := by
        rw [hdoor, if_neg (by simp only [ge_iff_le, Nat.not_le.mpr hn]; simp; omega), hread]
        rfl
      have hexport : exec (.windowExport fn val) s = .next (u.winAct p n w) := by
        rw [exec_windowDoorbell (val := val) hfn _ (by simp), hthrough ho, hact]
      have hwithdraw : exec (.windowWithdraw fn val) s = .next (u.winAct p n w) := by
        rw [exec_windowDoorbell (val := val) hfn _ (by simp), hthrough ho, hact]
      obtain ⟨h3, h4, h2, h0⟩ := State.exportStatus_spec (u := u) (p := p) (w := w)
      refine ⟨fun hv => ⟨fun hb => ?_, fun hb hw => ?_, fun hb hw hc => ?_, fun hb hw hc => ?_⟩, fun hv => ⟨fun x hx => ?_, fun hx => ?_⟩⟩
      · show ends u u p n 3 (exec (.windowExport fn val) s) _
        rw [hexport, State.winAct_export hv (h3 hb)]
        exact hends u p n 3 _
      · show ends u u p n 4 (exec (.windowExport fn val) s) _
        rw [hexport, State.winAct_export hv (h4 hb hw)]
        exact hends u p n 4 _
      · show ends u u p n 2 (exec (.windowExport fn val) s) _
        rw [hexport, State.winAct_export hv (h2 hb hw hc)]
        exact hends u p n 2 _
      · rw [hexport, State.winAct_export hv (h0 hb hw hc)]
        exact hends u p n 0 _
      · rw [hwithdraw]
        unfold State.winAct
        dsimp only
        rw [if_neg (by rw [hv]; decide), show Map.find? u.windows (p * 65536 + n) = some x from hx]
      · rw [hwithdraw]
        unfold State.winAct
        dsimp only
        rw [if_neg (by rw [hv]; decide), show Map.find? u.windows (p * 65536 + n) = none from hx]
        exact hends u p n 1 _
    · have hexec : exec (.windowWithdrawComplete q k) s =
          match ({ s with windows := Map.put s.windows (q * 65536 + k) { x with withdrawing := false } } : State).ipaWrite q
            (({ s with windows := Map.put s.windows (q * 65536 + k) { x with withdrawing := false } } : State).winAddr q k + 6)
            [BitVec.ofNat 8 1] with
          | .ok u => .next { u with windows := Map.drop u.windows (q * 65536 + k) }
          | .error f => if f.code == 10 then .next s else
            .next (State.tableFault { s with windows := Map.put s.windows (q * 65536 + k) { x with withdrawing := false } } 182 q f true) := by
        show execWindowWithdrawComplete q k s = _
        unfold execWindowWithdrawComplete
        dsimp only
        rw [hx]
        exact if_pos hwd
      refine ⟨fun t ht => ?_, fun f hf => ?_⟩
      · rw [hexec, ht]
      · rw [hexec, hf]
        dsimp only
        simp only [beq_iff_eq]
        split <;> rfl
  · intro r q hp hq
    refine ⟨fun c hc fn hi hopen => ⟨fun hfull => ?_, fun hroom => ?_⟩, fun i rest hqi c hc => ?_⟩
    · rw [exec_submitInv c hc, State.throughVf_of_opens hopen, State.submitInv, if_pos hfull]
    · obtain ⟨⟨hsub, htlb⟩, hstay, hdone⟩ := State.submitInv_spec (fn := fn) (hi := hi) hroom hq
      refine ⟨_, s.invalOf fn p hi, (exec_submitInv c hc).trans (State.throughVf_of_opens hopen), rfl, rfl, rfl, rfl, hsub, htlb,
        fun hv => ?_, fun hv hne => ?_, fun hv hnil => ?_⟩
      · have hvalid : (s.invalOf fn p hi).valid = true := by simp [State.invalOf, hv]
        exact ⟨hvalid, hstay (.inl hvalid)⟩
      · exact ⟨by simp [State.invalOf, hv], hstay (.inr hne)⟩
      · exact hdone (by simp [State.invalOf, hv]) hnil
    · obtain ⟨t, hcomplete, h⟩ := State.invComplete_spec hqi (fun x hx => hq x (by rw [hqi]; exact List.mem_cons_of_mem _ hx))
      have hkinds : (i.kind = 2 → ∀ e ∈ t.tlb, e.ctx ≠ i.ctx) ∧ (i.kind = 3 ∨ i.kind = 5 → ∀ e ∈ t.tlb, e.part ≠ i.part) ∧
          (i.kind = 6 → t.tlb = []) := by
        rw [h.tlb]
        refine ⟨fun hk e he => ?_, fun hk e he => ?_, fun hk => ?_⟩
        · have := (List.mem_filter.mp he).2
          simpa [Inval.covers, hk] using this
        · have := (List.mem_filter.mp he).2
          rcases hk with hk | hk
          · simpa [Inval.covers, hk] using this
          · simpa [Inval.covers, hk] using this
        · simp [Inval.covers, hk]
      obtain ⟨hk2, hk35, hk6⟩ := hkinds
      simp only [List.mem_cons, List.not_mem_nil, or_false] at hc
      rcases hc with rfl | rfl
      · refine ⟨t, ?_, h.tlb, h.invs, h.utlb, h.wc1, h.wc2, h.dma, h.done, h.submitted, hk2, hk35, hk6, fun hc => nomatch hc⟩
        show execInvalidationComplete p s = _
        rw [execInvalidationComplete, hcomplete]
      · have hlog := logsOnly_ras t { rasOf 0x0E 2 15 0x08 0 2 with part := p }
        have hreg : ∀ hi lo, (t.ras_ { rasOf 0x0E 2 15 0x08 0 2 with part := p }).rf r hi lo = t.rf r hi lo := fun hi lo =>
          State.rf_congr (reg_ras_xltInvSts t _ hp) hi lo
        refine ⟨t.ras_ { rasOf 0x0E 2 15 0x08 0 2 with part := p }, ?_, ?_, ?_, ?_, ?_, ?_, ?_, ?_, ?_, ?_, ?_, ?_, fun _ => State.mem_ras t (by simp [rasOf])⟩
        · show execInvalidationWatchdog p s = _
          rw [execInvalidationWatchdog, hcomplete]
        · rw [hlog]; exact h.tlb
        · rw [hlog]; exact h.invs
        · rw [hlog]; exact h.utlb
        · rw [hlog]; exact h.wc1
        · rw [hlog]; exact h.wc2
        · rw [hlog]; exact h.dma
        · rw [hreg]; exact h.done
        · rw [hreg]; exact h.submitted
        · rw [hlog]; exact hk2
        · rw [hlog]; exact hk35
        · rw [hlog]; exact hk6

end Sys2Proof.Machine

/-! Proofs: walks end, and software answers their faults (R71, R172, R175, R238, R239, R246, R248, R249). -/

namespace Sys2Proof.Machine

/-! ### Slots and their keys -/

theorem refOf_refKey (r : GroupRef) : (⟨BitVec.ofNat 11 (refKey r / 128), BitVec.ofNat 7 (refKey r % 128)⟩ : GroupRef) = r := by
  obtain ⟨core, slot⟩ := r
  have hslot := slot.isLt
  have hdiv : refKey ⟨core, slot⟩ / 128 = core.toNat := by
    simp only [refKey, gkey]
    omega
  have hmod : refKey ⟨core, slot⟩ % 128 = slot.toNat := by
    simp only [refKey, gkey]
    omega
  rw [hdiv, hmod, BitVec.ofNat_toNat, BitVec.ofNat_toNat, BitVec.setWidth_eq, BitVec.setWidth_eq]

theorem Map.mem_of_find? {α : Type} {m : Map α} {k : Nat} {a : α} (h : Map.find? m k = some a) : (k, a) ∈ m := by
  induction m with
  | nil => cases h
  | cons kv m ih =>
    obtain ⟨i, v⟩ := kv
    rw [Map.find?] at h
    split at h
    · next hk =>
      cases h
      rw [hk]
      exact List.mem_cons_self
    · exact List.mem_cons_of_mem _ (ih h)

theorem State.heldRecs_fire (s : State) (fn vec : Nat) : (s.fire fn vec).heldRecs = s.heldRecs := by
  unfold State.fire
  dsimp only
  split <;> rfl

theorem State.heldRecs_hostWrite (s : State) (k : Nat) (bs : List Byte) : (s.hostWrite k bs).heldRecs = s.heldRecs := by
  induction bs generalizing s k with
  | nil => rfl
  | cons b bs ih => exact ih _ _

/-! ### A walk that is held -/

theorem mem_putBounded {α : Type} (same : α → Bool) (cap : Nat) (l : List α) (x : α) : x ∈ putBounded same cap l x := by
  unfold putBounded
  split
  · split
    · simp
    · simp
  · simp

theorem State.mem_install (s : State) (x : Xlat) : x.entry ∈ (s.install x).tlb := by
  show x.entry ∈ ((s.noteMet x.entry.part x.met).addTlb x.entry).tlb
  unfold State.addTlb
  dsimp only
  split
  · exact mem_putBounded _ _ _ _
  · exact mem_putBounded _ _ _ _

/-! ### A walk that faults -/

/-- `t` is `s` but for what posting a translation record may write. -/
def XlatPosts (s t : State) : Prop := LogsOnly { s with posted := t.posted } t

theorem LogsOnly.xlatPosts {s t : State} (h : LogsOnly s t) : XlatPosts s t := by
  unfold XlatPosts
  unfold LogsOnly at *
  rw [h]

theorem XlatPosts.trans {s t u : State} (h : XlatPosts s t) (k : XlatPosts t u) : XlatPosts s u := by
  unfold XlatPosts LogsOnly at *
  rw [k, h]

theorem xlatPosts_postXlat (s : State) (f : XFault) (met : List Met) (need : Need) (p ctx va core source queue seq die : Nat) :
    XlatPosts s (s.postXlat f met need p ctx va core source queue seq die) := by
  have hposted : ∀ (u : State) (ps : NSet), XlatPosts u { u with posted := ps } := fun _ _ => rfl
  have hnoted : ∀ u : State, XlatPosts u (if f.code == 8 then
      u.ras_ { rasOf 0x03 2 15 0x08 0 8 with part := p, core := core, ctx := ctx, addr := f.eaddr } else u) := fun u => by
    split
    · exact (logsOnly_ras _ _).xlatPosts
    · exact (LogsOnly.refl u).xlatPosts
  have hpost : ∀ v : State, XlatPosts v (if v.posted.contains (ctx * 2 ^ 32 + va % 2 ^ 48 / 2 ^ 16) || f.code == 0 || f.code ≥ 9 then v
      else
        let (t, ok) := v.post (f.ring p) (xlatRecord f need p ctx va core source queue seq (v.dieTime die))
        if ok then { t with posted := NSet.ins t.posted (ctx * 2 ^ 32 + va % 2 ^ 48 / 2 ^ 16) } else t) := fun v => by
    split
    · exact (LogsOnly.refl v).xlatPosts
    · dsimp only
      split
      · exact (logsOnly_post _ _ _).xlatPosts.trans (hposted _ _)
      · exact (logsOnly_post _ _ _).xlatPosts
  exact ((logsOnly_noteMet s p met).xlatPosts.trans (hnoted _)).trans (hpost _)

/-- A group whose walk faults stands suspended; launches and translations stay (R71, R246). -/
theorem State.suspend_spec (s : State) (r : GroupRef) (g : Group) (l : Launch) (f w a : Bool) (va : BitVec 64) (lanes : Half)
    (w0 w1 : Word) : Map.find? (s.suspend r g l f w a va lanes w0 w1).groups (refKey r) =
        some { g with stat := .susp f w a va lanes w0 w1 } ∧
      (s.suspend r g l f w a va lanes w0 w1).launches = s.launches ∧ (s.suspend r g l f w a va lanes w0 w1).tlb = s.tlb := by
  have hlog := logsOnly_post s l.part (groupRecord r g l ⟨if f then 1 else 0x0D, lanes, va.toNat⟩ true (s.soloOf g.launch g.index) w0 w1
    (s.dieTime (coreDie r.core.toNat)))
  refine ⟨Map.find?_put_same _ _ _, ?_, ?_⟩
  · exact hlog.launches
  · show (s.post _ _).1.tlb = s.tlb
    rw [hlog]

/-! ### The end of a walk -/

section
variable {s : State} {r : GroupRef} {g : Group} {l : Launch} {f w a : Bool} {va : BitVec 64} {lanes : Half} {w0 w1 : Word}

theorem exec_walkComplete_group (hg : Map.find? s.groups (refKey r) = some g) (hl : Map.find? s.launches g.launch = some l)
    (hst : g.stat = .walk f w a va lanes w0 w1) :
    let die := coreDie r.core.toNat
    let key := walkKey l.ctx va.toNat
    (s.onWalker die key = false → exec (.walkComplete (.group r)) s = .next s) ∧
    (s.tripped = false → s.onWalker die key = true → s.walkStalls die key = false →
      exec (.walkComplete (.group r)) s = .next (s.finishWalk die key)) := by
  intro die key
  refine ⟨fun hwait => ?_, fun ht hon hstall => ?_⟩
  · show execWalkComplete (.group r) s = _
    unfold execWalkComplete
    split
    · rfl
    · dsimp only
      rw [hg]
      dsimp only
      rw [hst, hl]
      exact if_pos (by rw [hwait]; rfl)
  · show execWalkComplete (.group r) s = _
    unfold execWalkComplete
    rw [if_neg (by simp [ht])]
    dsimp only
    rw [hg]
    dsimp only
    rw [hst, hl]
    exact (if_neg (by rw [hon]; decide)).trans (if_neg (by rw [hstall]; decide))

/-- One group waits for the walk. -/
theorem State.finishWalk_group {die key : Nat} (hst : g.stat = .walk f w a va lanes w0 w1)
    (hw : s.walkers die key = [(refKey r, g, l)]) (hd : s.dmaWalkers die key = []) :
    s.finishWalk die key = (s.walkEnd die key).walkGroup r g l f w a va lanes w0 w1 := by
  unfold State.finishWalk
  rw [hw, hd]
  dsimp only [List.foldl_cons, List.foldl_nil]
  rw [hst]
  dsimp only
  rw [refOf_refKey]

theorem State.walkGroup_ok {u : State} {x : Xlat}
    (h : u.walkVa (some l) (coreDie r.core.toNat) l.ctx va.toNat (if f then 8 else 1) (groupNeed w a) = .ok x) :
    u.walkGroup r g l f w a va lanes w0 w1 = (u.install x).putGroup r { g with stat := .run } := by
  unfold State.walkGroup
  dsimp only
  rw [h]

theorem State.walkGroup_error {u : State} {x : XFault}
    (h : u.walkVa (some l) (coreDie r.core.toNat) l.ctx va.toNat (if f then 8 else 1) (groupNeed w a) = .error x) :
    Map.find? (u.walkGroup r g l f w a va lanes w0 w1).groups (refKey r) = some { g with stat := .susp f w a va lanes w0 w1 } ∧
      (u.walkGroup r g l f w a va lanes w0 w1).launches = u.launches ∧ (u.walkGroup r g l f w a va lanes w0 w1).tlb = u.tlb := by
  unfold State.walkGroup
  dsimp only
  rw [h]
  dsimp only
  have hpost := xlatPosts_postXlat u x (u.met (coreDie r.core.toNat) l.part l.ctx l.root va.toNat) (groupNeed w a) l.part l.ctx va.toNat
    r.core.toNat (if f then 0 else 1) l.queue l.seq (coreDie r.core.toNat)
  generalize u.postXlat x (u.met (coreDie r.core.toNat) l.part l.ctx l.root va.toNat) (groupNeed w a) l.part l.ctx va.toNat
    r.core.toNat (if f then 0 else 1) l.queue l.seq (coreDie r.core.toNat) = v at hpost
  obtain ⟨hgroup, hlaunch, htlb⟩ := v.suspend_spec r g l f w a va lanes w0 w1
  exact ⟨hgroup, hlaunch.trans (by rw [hpost]), htlb.trans (by rw [hpost])⟩

end

section
variable {s : State} {id : Nat} {c : DmaCmd} {a : DmaAsk}

/-- The walk of a command's one miss ends (R172, R175). -/
theorem exec_walkComplete_dma (hc : s.dma.find? (fun o => o.id == id) = some c) (ha : c.asked = [a]) (ht : s.tripped = false) :
    let die := coreDie c.org.core
    let key := walkKey c.org.ctx a.va
    s.onWalker die key = true → s.walkStalls die key = false → s.walkers die key = [] → s.dmaWalkers die key = [(id, a)] →
      exec (.walkComplete (.dma id)) s = .next ((s.walkEnd die key).walkDma id a) := by
  intro die key hon hstall hw hd
  have hfinish : s.finishWalk die key = (s.walkEnd die key).walkDma id a := by
    unfold State.finishWalk
    rw [hw, hd]
    rfl
  rw [← hfinish]
  show execWalkComplete (.dma id) s = _
  unfold execWalkComplete
  rw [if_neg (by simp [ht])]
  dsimp only
  rw [hc]
  dsimp only
  rw [ha, show (([a].map fun a => walkKey c.org.ctx a.va).find? fun k =>
    s.onWalker (coreDie c.org.core) k && !s.walkStalls (coreDie c.org.core) k) = some key from List.find?_cons_of_pos (by simp [hon, hstall, die, key])]

theorem State.walkDma_ok {u : State} {x : Xlat} (hc : u.dma.find? (fun o => o.id == id) = some c) (ha : c.asked = [a])
    (h : u.walkVa (u.ownOf c.org) (coreDie c.org.core) c.org.ctx a.va 1 a.need = .ok x) :
    u.walkDma id a = (u.install x).putDma { c with asked := [], looked := c.looked ++ [x.entry] } := by
  unfold State.walkDma
  rw [hc]
  dsimp only
  rw [if_neg (by simp [ha]), h, ha]
  simp

theorem State.walkDma_error {u : State} {f : XFault} (hc : u.dma.find? (fun o => o.id == id) = some c) (ha : c.asked = [a])
    (h : u.walkVa (u.ownOf c.org) (coreDie c.org.core) c.org.ctx a.va 1 a.need = .error f) :
    u.walkDma id a = u.dmaFault c a.row a.onDesc f a.va a.need := by
  unfold State.walkDma
  rw [hc]
  dsimp only
  rw [if_neg (by simp [ha]), h]

end

/-! ### XLT_FRESP -/

section
variable {s : State}

theorem mem_insKey {x y : Nat × Group × Launch} {l : List (Nat × Group × Launch)} (h : x ∈ l) : x ∈ insKey y l := by
  induction l with
  | nil => cases h
  | cons z zs ih =>
    rw [insKey]
    split
    · exact List.mem_cons_of_mem _ h
    · rcases List.mem_cons.mp h with rfl | h
      · exact List.mem_cons_self
      · exact List.mem_cons_of_mem _ (ih h)

theorem mem_foldl_insKey {x : Nat × Group × Launch} (away l : List (Nat × Group × Launch)) (h : x ∈ l) :
    x ∈ away.foldl (fun l y => insKey y l) l := by
  induction away generalizing l with
  | nil => exact h
  | cons y ys ih => exact ih _ (mem_insKey h)

/-- A suspended group of a context whose address passes is one of those that a response reaches. -/
theorem State.mem_suspOf {k ctx : Nat} {g : Group} {l : Launch} {p : Nat → Bool} {f w a : Bool} {va : BitVec 64} {lanes : Half}
    {w0 w1 : Word} (hg : Map.find? s.groups k = some g) (hl : Map.find? s.launches g.launch = some l) (hctx : l.ctx = ctx)
    (hst : g.stat = .susp f w a va lanes w0 w1) (hp : p va.toNat = true) : (k, g, l) ∈ s.suspOf ctx p := by
  refine mem_foldl_insKey _ _ (List.mem_filterMap.mpr ⟨(k, g), List.mem_filter.mpr ⟨Map.mem_of_find? hg, ?_⟩, ?_⟩)
  · dsimp only
    rw [hst]
    exact hp
  · dsimp only
    rw [hl]
    exact if_pos (by simp [hctx])

/-- A launch fails with status 2, and no group of it is left. -/
def Ended (s : State) (k : Nat) : Prop := (∀ h ∈ s.groups, h.2.launch ≠ k) ∧ FailsWith s k 2

theorem Ended.keeps {t : State} {k : Nat} (h : Ended s k) (hk : EndKeeps s t) : Ended t k :=
  ⟨fun x hx => h.1 x (hk.groups x hx), h.2.keeps hk⟩

theorem State.failLaunch_ended {k : Nat} {l : Launch} (hl : Map.find? s.launches k = some l) (hp : l.phase = .running) :
    Ended (s.failLaunch k 2) k := by
  refine ⟨fun x hx => ?_, State.failLaunch_failsWith hl (by rw [hp]; decide)⟩
  unfold State.failLaunch at hx
  rw [hl] at hx
  dsimp only at hx
  rw [if_neg (by rw [hp]; decide)] at hx
  simpa using (List.mem_filter.mp hx).2

theorem State.launches_failLaunch_of_ne (s : State) {j k : Nat} (st : Nat) (h : k ≠ j) :
    Map.find? (s.failLaunch j st).launches k = Map.find? s.launches k := by
  unfold State.failLaunch
  split
  · rfl
  · split
    · rfl
    · exact Map.find?_put_other _ _ h

/-- Each of a list of launches that runs ends. -/
theorem State.foldl_failLaunch_ended {k : Nat} {l : Launch} (ids : List Nat) (hk : k ∈ ids) (hl : Map.find? s.launches k = some l)
    (hp : l.phase = .running) : Ended (ids.foldl (fun t id => t.failLaunch id 2) s) k := by
  induction ids generalizing s with
  | nil => cases hk
  | cons j js ih =>
    by_cases hj : k = j
    · subst hj
      exact (State.failLaunch_ended hl hp).keeps (.foldl (fun u id => endKeeps_failLaunch u id 2) js _)
    · exact ih ((List.mem_cons.mp hk).resolve_left hj) ((State.launches_failLaunch_of_ne s 2 hj).trans hl)

theorem logsOnly_postSusp (s : State) (r : GroupRef) (g : Group) (l : Launch) : LogsOnly s (s.postSusp r g l) := by
  unfold State.postSusp
  split
  · exact logsOnly_post _ _ _
  · exact .refl s

/-- The suspended groups that a failing response names end their launches (R249). -/
theorem State.failUnits_ended {k ctx : Nat} {g : Group} {l : Launch} {p : Nat → Bool} {f w a : Bool} {va : BitVec 64} {lanes : Half}
    {w0 w1 : Word} (hg : Map.find? s.groups k = some g) (hl : Map.find? s.launches g.launch = some l) (hctx : l.ctx = ctx)
    (hrun : l.phase = .running) (hst : g.stat = .susp f w a va lanes w0 w1) (hp : p va.toNat = true) :
    Ended (s.failUnits ctx p) g.launch := by
  have hmem := State.mem_suspOf hg hl hctx hst hp
  have hsusp : Ended (s.failSusp (s.suspOf ctx p)) g.launch := by
    have hlog := logsOnly_foldl (fun (t : State) (x : Nat × Group × Launch) => logsOnly_postSusp t
      ⟨BitVec.ofNat 11 (x.1 / 128), BitVec.ofNat 7 (x.1 % 128)⟩ x.2.1 x.2.2) (s.suspOf ctx p) s
    refine State.foldl_failLaunch_ended _ (List.mem_dedup.mpr (List.mem_map.mpr ⟨_, hmem, rfl⟩)) ?_ hrun
    rw [hlog.launches]
    exact hl
  refine hsusp.keeps (.foldl (fun u c => ?_) _ _)
  split
  · split
    · exact .refl u
    · split
      · exact endKeeps_dmaLost u c 7
      · exact endKeeps_dmaDone u c 7 _
  · exact .refl u

theorem State.fresp_of_owner {p ctx : Nat} {act : State → State} (h : s.ctxOwner ctx = p) :
    s.fresp p ctx act = act { s with posted := s.posted.filter (fun k => k / 2 ^ 32 % 2 ^ 20 != ctx) } :=
  if_neg (by simp [h])

theorem State.fresp_of_other {p ctx : Nat} {act : State → State} (h : s.ctxOwner ctx ≠ p) : s.fresp p ctx act = s.dropped 249 p :=
  if_pos (by simpa using h)

end

/-! ### The fault ring -/

section
variable (s : State) (p : Nat)

/-- A record is written at TAIL, which moves on; the rest of the ring's registers and the held records stay (R248). -/
theorem State.fringWrite_spec (ws : List Word) :
    (s.fringWrite p ws).reg (.xltFringTail p) = (s.reg (.xltFringTail p) + 1) % 2 ^ 32 ∧
    (∀ r : Reg, r.key ≠ Reg.key (.xltFringTail p) → (s.fringWrite p ws).reg r = s.reg r) ∧
    (s.fringWrite p ws).heldRecs = s.heldRecs := by
  unfold State.fringWrite
  dsimp only
  refine ⟨?_, fun r hr => ?_, ?_⟩
  · rw [State.reg_congr (regs_fire _ _ _), State.reg_setReg_same]
  · rw [State.reg_congr (regs_fire _ _ _), State.reg_setReg_of_ne _ _ hr, State.reg_congr (regs_hostWrite _ _ _)]
  · rw [State.heldRecs_fire]
    exact State.heldRecs_hostWrite _ _ _

theorem State.fringEntries_congr {s t : State} {p : Nat} (h : t.reg (.xltFringBase p) = s.reg (.xltFringBase p)) :
    t.fringEntries p = s.fringEntries p := by
  unfold State.fringEntries
  simp only [State.rf_congr h]

/-- Held records are posted in their order while the ring has room, at most n of them (R248). -/
theorem State.drainHeld_spec (n : Nat) : ∃ m : Nat,
    (s.drainHeld p n).reg (.xltFringHead p) = s.reg (.xltFringHead p) ∧ (s.drainHeld p n).fringEntries p = s.fringEntries p ∧
    Map.getD (s.drainHeld p n).heldRecs p [] = (Map.getD s.heldRecs p []).drop m ∧ m ≤ (Map.getD s.heldRecs p []).length ∧
    (s.drainHeld p n).reg (.xltFringTail p) % 2 ^ 32 = (s.reg (.xltFringTail p) + m) % 2 ^ 32 ∧
    (s.fringEntries p = 0 → m = 0) ∧
    (s.fringEntries p ≠ 0 → Map.getD (s.drainHeld p n).heldRecs p [] = [] ∨
      (s.drainHeld p n).fringUsed p = (s.drainHeld p n).fringEntries p ∨ n ≤ m) := by
  induction n generalizing s with
  | zero => exact ⟨0, rfl, rfl, rfl, Nat.zero_le _, rfl, fun _ => rfl, fun _ => .inr (.inr (Nat.le_refl _))⟩
  | succ n ih =>
    rw [State.drainHeld]
    cases hh : Map.getD s.heldRecs p [] with
    | nil => exact ⟨0, rfl, rfl, by rw [hh]; rfl, Nat.le_refl _, rfl, fun _ => rfl, fun _ => .inl hh⟩
    | cons r rest =>
      dsimp only
      split
      · next hfull =>
        refine ⟨0, rfl, rfl, by rw [hh]; rfl, Nat.zero_le _, rfl, fun _ => rfl, fun hne => .inr (.inl ?_)⟩
        simpa [hne] using hfull
      · next hroom =>
        obtain ⟨u, hu⟩ : ∃ u : State, u = { s with heldRecs := Map.putD s.heldRecs p [] rest } := ⟨_, rfl⟩
        rw [← hu]
        obtain ⟨htail, hreg, hheld⟩ := u.fringWrite_spec p r
        have hhead := hreg (.xltFringHead p) (by simp only [Reg.key]; omega)
        have hbase := hreg (.xltFringBase p) (by simp only [Reg.key]; omega)
        have hregs : ∀ x, u.reg x = s.reg x := State.reg_congr (by rw [hu])
        have hrest : Map.getD (u.fringWrite p r).heldRecs p [] = rest := by
          rw [hheld, hu]
          exact Map.getD_putD_same s.heldRecs p ([] : List (List Word)) rest
        have hent : (u.fringWrite p r).fringEntries p = s.fringEntries p := State.fringEntries_congr (hbase.trans (hregs _))
        obtain ⟨m, h1, h2, h3, h4, h5, h6, h7⟩ := ih (u.fringWrite p r)
        rw [hrest] at h3 h4
        rw [hent] at h2 h6 h7
        have hne : s.fringEntries p ≠ 0 := fun h0 => hroom (by simp [h0])
        refine ⟨m + 1, h1.trans (hhead.trans (hregs _)), h2, h3, by simpa using h4, ?_, fun h0 => absurd h0 hne, fun _ => ?_⟩
        · rw [h5, htail, hregs, Nat.mod_add_mod, Nat.add_assoc, Nat.add_comm 1 m]
        · exact (h7 hne).imp_right (Or.imp_right Nat.succ_le_succ)

end

/-- Settles O31: a walk by the lemmas of its group or command, a response by `State.failUnits_ended`, the ring by
`State.drainHeld_spec`. -/
theorem walksAndFaultResponses : Obligations.walks_and_fault_responses := by
  unfold Obligations.walks_and_fault_responses
  refine ⟨fun s => ⟨fun r g l f w a va lanes w0 w1 hg hl hst => ?_, fun id c a hc ha => ?_, fun die ctx va x ht hstall hon hx => ?_⟩,
    fun s fn p page ctx => ?_⟩
  · intro die key u res
    obtain ⟨hwait, hend⟩ := exec_walkComplete_group hg hl hst
    refine ⟨hwait, fun ht hon hstall => ⟨hend ht hon hstall, fun hw hd => ⟨fun x hx => ?_, fun x hx => ?_⟩⟩⟩
    · rw [State.finishWalk_group hst hw hd]
      exact ⟨State.walkGroup_ok hx, State.mem_install _ _⟩
    · rw [State.finishWalk_group hst hw hd]
      exact State.walkGroup_error (u := u) hx
  · intro die key u res ht hon hstall hw hd
    have hexec := exec_walkComplete_dma hc ha ht hon hstall hw hd
    refine ⟨fun x hx => ?_, fun f hf => ?_⟩
    · rw [hexec]
      exact congrArg _ (State.walkDma_ok (u := u) hc ha hx)
    · rw [hexec]
      exact congrArg _ (State.walkDma_error (u := u) hc ha hf)
  · show execWalkComplete (.page die ctx va) s = _
    unfold execWalkComplete
    rw [if_neg (by simp [ht])]
    dsimp only
    rw [if_neg (by simp [hon]), hx, if_neg (by simp [hstall, stalled])]
  · intro mine ended opens
    have hended : ∀ (t : State) (g : Group), Ended t g.launch → ended t g := fun t g h => h
    refine ⟨fun hno c hc => ?_, fun ho hother => ⟨?_, ?_, ?_⟩, fun ho hown => ⟨?_, ?_, ?_⟩, fun val ho hp => ?_⟩
    · simp only [List.mem_cons, List.not_mem_nil, or_false] at hc
      rcases hc with rfl | rfl | rfl
      · exact State.throughVf_of_not_opens hno
      · exact State.throughVf_of_not_opens hno
      · exact State.throughVf_of_not_opens hno
    · exact (State.throughVf_of_opens ho).trans (congrArg _ (State.fresp_of_other hother))
    · exact (State.throughVf_of_opens ho).trans (congrArg _ (State.fresp_of_other hother))
    · exact (State.throughVf_of_opens ho).trans (congrArg _ (State.fresp_of_other hother))
    · refine ⟨_, (State.throughVf_of_opens ho).trans (congrArg _ (State.fresp_of_owner hown)), fun k hk => ?_,
        fun k g l va hm => ?_, fun c hc hctx => ?_⟩
      · simpa using (List.mem_filter.mp hk).2
      · obtain ⟨hg, hl, hctx, -, f, w, a, lanes, w0, w1, hst⟩ := hm
        unfold State.retryUnits
        dsimp only
        rw [Map.find?_mapV, hg]
        refine congrArg some ((if_pos ?_).trans ?_)
        · rw [hl]
          simp [hctx]
        · rw [Group.retry, hst]
      · obtain ⟨o, -, rfl⟩ := List.mem_map.mp hc
        split
        · rfl
        · next hne =>
          rw [if_neg hne] at hctx
          exact absurd (by simp [hctx]) hne
    · refine ⟨_, (State.throughVf_of_opens ho).trans (congrArg _ (State.fresp_of_owner hown)), fun k g l va hm hpage => hended _ g ?_⟩
      obtain ⟨hg, hl, hctx, hrun, f, w, a, lanes, w0, w1, hst⟩ := hm
      exact State.failUnits_ended (s := { s with posted := _ }) hg hl hctx hrun hst (by simpa using hpage)
    · refine ⟨_, (State.throughVf_of_opens ho).trans (congrArg _ (State.fresp_of_owner hown)), fun k g l va hm => hended _ g ?_⟩
      obtain ⟨hg, hl, hctx, hrun, f, w, a, lanes, w0, w1, hst⟩ := hm
      exact State.failUnits_ended (s := { s with posted := _ }) hg hl hctx hrun hst rfl
    · obtain ⟨n, hhead, hent, hheld, hlen, htail, h0, hfull⟩ := (s.setReg (.xltFringHead p) val.toNat).drainHeld_spec p 256
      have hkeep : ∀ r : Reg, r.key ≠ Reg.key (.xltFringHead p) → (s.setReg (.xltFringHead p) val.toNat).reg r = s.reg r :=
        fun r hr => State.reg_setReg_of_ne s _ hr
      have hsent : (s.setReg (.xltFringHead p) val.toNat).fringEntries p = s.fringEntries p :=
        State.fringEntries_congr (hkeep _ (by simp only [Reg.key]; omega))
      rw [hkeep (.xltFringTail p) (by simp only [Reg.key]; omega)] at htail
      rw [hsent] at h0 hfull
      exact ⟨_, n, State.throughVf_of_opens ho, hhead.trans (State.reg_setReg_same _ _ _), hheld, hlen, htail, h0, hfull⟩

end Sys2Proof.Machine

/-! Proofs: what the queue manager's accesses, its faults and the activity of contexts keep (R246, R251 to R253, R352, R353). -/

namespace Sys2Proof.Machine

/-- A computation that succeeds has succeeded at each step. -/
theorem exists_of_bind_eq_ok {ε α β : Type} {x : Except ε α} {f : α → Except ε β} {b : β} (h : x.bind f = .ok b) :
    ∃ a, x = .ok a ∧ f a = .ok b := by
  cases x with
  | error e => cases h
  | ok a => exact ⟨a, rfl, h⟩

/-! ### Registers that logging and posting write -/

/-- Addresses of the registers of the RAS log, of the common ranges' maps and of the fault rings. -/
def LogKey (k : Nat) : Prop :=
  k ∈ rasKeys ∨ (∃ n < 8, k = Reg.key (.rasCommonMapLo n) ∨ k = Reg.key (.rasCommonMapHi n)) ∨
    ∃ p, k = Reg.key (.xltFringLost p) ∨ k = Reg.key (.xltFringTail p)

/-- `t` holds the registers of `s` but those of logging and posting. -/
def LogRegs (s t : State) : Prop := ∀ r : Reg, ¬ LogKey r.key → t.reg r = s.reg r

namespace LogRegs

theorem refl (s : State) : LogRegs s s := fun _ _ => rfl
theorem trans {s t u : State} (h : LogRegs s t) (k : LogRegs t u) : LogRegs s u := fun r hr => (k r hr).trans (h r hr)
theorem of_eq {s t : State} (h : t.regs = s.regs) : LogRegs s t := fun r _ => State.reg_congr h r
theorem rf {s t : State} (h : LogRegs s t) {r : Reg} (hr : ¬ LogKey r.key) (hi lo : Nat) : t.rf r hi lo = s.rf r hi lo :=
  State.rf_congr (h r hr) hi lo

theorem foldl {α : Type} {f : State → α → State} (h : ∀ u x, LogRegs u (f u x)) (xs : List α) (s : State) :
    LogRegs s (xs.foldl f s) := by
  induction xs generalizing s with
  | nil => exact refl s
  | cons x xs ih => exact (h s x).trans (ih _)

theorem foldl_mem {α : Type} {f : State → α → State} (xs : List α) (h : ∀ u, ∀ x ∈ xs, LogRegs u (f u x)) (s : State) :
    LogRegs s (xs.foldl f s) := by
  induction xs generalizing s with
  | nil => exact refl s
  | cons x xs ih => exact (h s x List.mem_cons_self).trans (ih (fun u y hy => h u y (List.mem_cons_of_mem _ hy)) _)

end LogRegs

/-- A write of a register of logging. -/
theorem logRegs_setReg {s : State} {r : Reg} (h : LogKey r.key) (v : Nat) : LogRegs s (s.setReg r v) := fun _ hr =>
  State.reg_setReg_of_ne s v fun he => hr (he ▸ h)

section
variable (s : State)

theorem logRegs_ras (e : RasEntry) : LogRegs s (s.ras_ e) := fun _ hr => State.reg_ras s e fun h => hr (.inl h)

theorem logRegs_post (p : Nat) (ws : List Word) : LogRegs s (s.post p ws).1 := fun _ hr =>
  State.reg_post s p ws (fun h => hr (.inr (.inr ⟨p, .inl h⟩))) (fun h => hr (.inr (.inr ⟨p, .inr h⟩)))

theorem logRegs_discardNote (keys : List Nat) : LogRegs s (s.discardNote keys) := fun _ hr =>
  State.reg_discardNote s keys fun h => hr (.inl h)

theorem logRegs_writeLocs (pasid : Nat) (ls : List Loc) (bs : List Byte) : LogRegs s (s.writeLocs pasid ls bs) := by
  have hall : ∀ u : State, LogRegs u (u.writeAll pasid ls bs) := by
    induction ls generalizing bs with
    | nil => exact fun u => .refl u
    | cons l ls ih =>
      cases bs with
      | nil => exact fun u => .refl u
      | cons b bs => exact fun u => (LogRegs.of_eq (regs_writeLoc u pasid l b)).trans (ih bs _)
  exact ((hall s).trans (.of_eq rfl)).trans (logRegs_discardNote _ _)

theorem logRegs_noteCommon (p dpa : Nat) : LogRegs s (s.noteCommon p dpa) := by
  unfold State.noteCommon
  split
  · refine .foldl_mem _ (fun u n hn => ?_) s
    have hn : n < 8 := List.mem_range.mp hn
    split
    · split
      · exact logRegs_setReg (.inr (.inl ⟨n, hn, .inl rfl⟩)) _
      · exact logRegs_setReg (.inr (.inl ⟨n, hn, .inr rfl⟩)) _
    · exact .refl u
  · exact .refl s

theorem logRegs_noteMet (p : Nat) (ms : List Met) : LogRegs s (s.noteMet p ms) := by
  have hrun : ∀ m, LogRegs s (s.noteRun p m) := fun m => by
    unfold State.noteRun
    split
    · exact logRegs_ras s _
    · exact .refl s
  refine (hrun _).trans (.foldl (fun u m => ?_) ms _)
  split
  · exact logRegs_noteCommon u p _
  · exact .refl u

theorem logRegs_noteIpa (p ipa n : Nat) (w : Bool) : LogRegs s (s.noteIpa p ipa n w) := by
  unfold State.noteIpa
  split
  · exact (logRegs_noteMet s p _).trans (.of_eq rfl)
  · exact .refl s

theorem logRegs_failLaunch (k st : Nat) : LogRegs s (s.failLaunch k st) := .of_eq (endsOnly_failLaunch s k st).regs
theorem logRegs_failCtx (ctx : Nat) : LogRegs s (s.failCtx ctx) := .of_eq (endsOnly_failCtx s ctx).regs

theorem logRegs_quePoison (p ctx : Nat) : LogRegs s (s.quePoison p ctx) := (logRegs_ras s _).trans (logRegs_failCtx _ ctx)

theorem logRegs_noteRecord (ctx : Nat) : LogRegs s (s.noteRecord ctx) := by
  unfold State.noteRecord
  split
  · exact .refl s
  · exact logRegs_noteIpa s _ _ _ _

theorem logRegs_weirFault (p : Nat) (ctx : Option Nat) (f : XFault) (w : Bool) : LogRegs s (s.weirFault p ctx f w) := by
  have hlog : ∀ (u : State) (e : RasEntry), LogRegs u (if f.code == 8 then u.ras_ e else u) := fun u e => by
    split
    · exact logRegs_ras u e
    · exact .refl u
  have hpost : ∀ (u : State) (ws : List Word) (key : Nat), LogRegs u (if (ctx.isSome && u.posted.contains key) = true then u else
      if ((u.post 127 ws).2 && ctx.isSome) = true then
        { (u.post 127 ws).1 with posted := NSet.ins (u.post 127 ws).1.posted key } else (u.post 127 ws).1) := fun u ws key => by
    split
    · exact .refl u
    · split
      · exact (logRegs_post u _ _).trans (.of_eq rfl)
      · exact logRegs_post u _ _
  exact ((logRegs_noteMet s p _).trans (hlog _ _)).trans (hpost _ _ _)

theorem logRegs_ipaWrite {p ipa : Nat} {bs : List Byte} {t : State} (h : s.ipaWrite p ipa bs = .ok t) : LogRegs s t := by
  obtain ⟨x, -, h⟩ := exists_of_bind_eq_ok h
  dsimp only at h
  split at h
  · split at h
    · cases h
    · split at h
      · cases h
      · cases h
        exact (logRegs_noteIpa s _ _ _ _).trans (logRegs_writeLocs _ _ _ _)
  · cases h

end

/-! ### What the queue manager keeps -/

/-- `t` is `s` but for memory, caches, translations, logs, and the contexts and launches that a fault fails: the queues, their
commands and the windows stay. -/
def QueOnly (s t : State) : Prop :=
  t = { s with
    regs := t.regs
    ras := t.ras
    hostMem := t.hostMem
    msix := t.msix
    heldRecs := t.heldRecs
    freeIx := t.freeIx
    out := t.out
    heap := t.heap
    pool := t.pool
    heapPoison := t.heapPoison
    poolPoison := t.poolPoison
    hostPoison := t.hostPoison
    narrow := t.narrow
    wc1 := t.wc1
    wc2 := t.wc2
    coh := t.coh
    utlb := t.utlb
    icache := t.icache
    tlb := t.tlb
    posted := t.posted
    ctxs := t.ctxs
    launches := t.launches
    switching := t.switching
    dma := t.dma
    groups := t.groups
    failed := t.failed }

namespace QueOnly
variable {s t u : State}

theorem refl (s : State) : QueOnly s s := rfl
theorem trans (h : QueOnly s t) (k : QueOnly t u) : QueOnly s u := by
  unfold QueOnly at *
  rw [k, h]

theorem of_writes (h : WritesOnly s t) : QueOnly s t := by
  unfold WritesOnly at h
  unfold QueOnly
  rw [h]
theorem of_logs (h : LogsOnly s t) : QueOnly s t := .of_writes h.writes
theorem of_caches (h : CachesOnly s t) : QueOnly s t := by
  unfold CachesOnly at h
  unfold QueOnly
  rw [h]
theorem of_ends (h : EndsOnly s t) : QueOnly s t := by
  unfold EndsOnly at h
  unfold QueOnly
  rw [h]
theorem of_posts (h : XlatPosts s t) : QueOnly s t := by
  unfold XlatPosts LogsOnly at h
  unfold QueOnly
  rw [h]

theorem queues (h : QueOnly s t) : t.queues = s.queues := by rw [h]
theorem cmdBusy (h : QueOnly s t) : t.cmdBusy = s.cmdBusy := by rw [h]
theorem queue (h : QueOnly s t) (q : Nat) : t.queue q = s.queue q := by rw [State.queue, h.queues, State.queue]

theorem foldl {α : Type} {f : State → α → State} (h : ∀ u x, QueOnly u (f u x)) (xs : List α) (s : State) :
    QueOnly s (xs.foldl f s) := by
  induction xs generalizing s with
  | nil => exact refl s
  | cons x xs ih => exact (h s x).trans (ih _)

end QueOnly

section
variable (s : State)

theorem queOnly_ras (e : RasEntry) : QueOnly s (s.ras_ e) := .of_logs (logsOnly_ras s e)
theorem queOnly_failCtx (ctx : Nat) : QueOnly s (s.failCtx ctx) := .of_ends (endsOnly_failCtx s ctx)
theorem queOnly_quePoison (p ctx : Nat) : QueOnly s (s.quePoison p ctx) := (queOnly_ras s _).trans (queOnly_failCtx _ ctx)

theorem queOnly_noteIpa (p ipa n : Nat) (w : Bool) : QueOnly s (s.noteIpa p ipa n w) := .of_writes (writesOnly_noteIpa s p ipa n w)

theorem queOnly_noteRecord (ctx : Nat) : QueOnly s (s.noteRecord ctx) := by
  unfold State.noteRecord
  split
  · exact .refl s
  · exact queOnly_noteIpa s _ _ _ _

theorem xlatPosts_weirFault (p : Nat) (ctx : Option Nat) (f : XFault) (w : Bool) : XlatPosts s (s.weirFault p ctx f w) := by
  have hlog : ∀ (u : State) (e : RasEntry), XlatPosts u (if f.code == 8 then u.ras_ e else u) := fun u e => by
    split
    · exact (logsOnly_ras u e).xlatPosts
    · exact (LogsOnly.refl u).xlatPosts
  have hpost : ∀ (u : State) (ws : List Word) (key : Nat), XlatPosts u (if (ctx.isSome && u.posted.contains key) = true then u else
      if ((u.post 127 ws).2 && ctx.isSome) = true then
        { (u.post 127 ws).1 with posted := NSet.ins (u.post 127 ws).1.posted key } else (u.post 127 ws).1) := fun u ws key => by
    have hposted : ∀ (v : State) (ps : NSet), XlatPosts v { v with posted := ps } := fun _ _ => rfl
    split
    · exact (LogsOnly.refl u).xlatPosts
    · split
      · exact (logsOnly_post u _ _).xlatPosts.trans (hposted _ _)
      · exact (logsOnly_post u _ _).xlatPosts
  exact ((logsOnly_noteMet s p _).xlatPosts.trans (hlog _ _)).trans (hpost _ _ _)

theorem queOnly_weirFault (p : Nat) (ctx : Option Nat) (f : XFault) (w : Bool) : QueOnly s (s.weirFault p ctx f w) :=
  .of_posts (xlatPosts_weirFault s p ctx f w)

theorem queOnly_install (x : Xlat) : QueOnly s (s.install x) := by
  have htlb : ∀ u : State, QueOnly u (u.addTlb x.entry) := fun u => by
    unfold State.addTlb
    dsimp only
    split <;> rfl
  exact ((QueOnly.of_logs (logsOnly_noteMet s _ _)).trans (htlb _)).trans (.of_writes (writesOnly_addWalk _ _ _))

theorem queOnly_queFault (x : Queue) (va : Nat) (need : Need) (f : XFault) : QueOnly s (s.queFault x va need f) := by
  unfold State.queFault
  split
  · exact queOnly_quePoison s _ _
  · dsimp only
    split
    · exact (QueOnly.of_posts (xlatPosts_postXlat _ _ _ _ _ _ _ _ _ _ _ _)).trans (queOnly_failCtx _ _)
    · exact .of_posts (xlatPosts_postXlat _ _ _ _ _ _ _ _ _ _ _ _)

end

section
variable {s t : State}

theorem queOnly_ctxAccess {die ctx va n dpa : Nat} {need : Need} {ls : List Loc}
    (h : s.ctxAccess die ctx va n need = .ok (t, dpa, ls)) : QueOnly s t := by
  obtain ⟨⟨u, c, d⟩, hpage, h⟩ := exists_of_bind_eq_ok h
  dsimp only at h
  split at h
  · cases h
    obtain ⟨rec, -, hpage⟩ := exists_of_bind_eq_ok hpage
    split at hpage
    · cases hpage
    · split at hpage
      · split at hpage
        · cases hpage
          exact queOnly_noteRecord s ctx
        · cases hpage
      · obtain ⟨x, -, hpage⟩ := exists_of_bind_eq_ok hpage
        cases hpage
        exact (queOnly_noteRecord s ctx).trans (queOnly_install _ x)
  · cases h

theorem queOnly_ipaWrite {p ipa : Nat} {bs : List Byte} (h : s.ipaWrite p ipa bs = .ok t) : QueOnly s t := by
  obtain ⟨x, -, h⟩ := exists_of_bind_eq_ok h
  dsimp only at h
  split at h
  · split at h
    · cases h
    · split at h
      · cases h
      · cases h
        exact (queOnly_noteIpa s _ _ _ _).trans (.of_writes (writesOnly_writeLocs _ _ _ _))
  · cases h

/-- Reading the record of a context that becomes active. -/
theorem State.readActive_keeps {ctx : Nat} {a : ActiveCtx} (h : s.readActive ctx = some (t, a)) : QueOnly s t ∧ LogRegs s t := by
  unfold State.readActive at h
  dsimp only at h
  split at h
  · cases h
    split
    · exact ⟨(queOnly_noteRecord s ctx).trans (queOnly_quePoison _ _ _), (logRegs_noteRecord s ctx).trans (logRegs_quePoison _ _ _)⟩
    · exact ⟨queOnly_noteRecord s ctx, logRegs_noteRecord s ctx⟩
  · split at h
    · cases h
    · cases h
      split
      · exact ⟨(queOnly_weirFault s _ _ _ _).trans (queOnly_failCtx _ _), (logRegs_weirFault s _ _ _ _).trans (logRegs_failCtx _ _)⟩
      · exact ⟨queOnly_weirFault s _ _ _ _, logRegs_weirFault s _ _ _ _⟩

theorem State.activate_keeps (s : State) (ctx : Nat) : QueOnly s (s.activate ctx) ∧ LogRegs s (s.activate ctx) := by
  unfold State.activate
  split
  · exact ⟨.refl s, .refl s⟩
  · split
    · exact ⟨.refl s, .refl s⟩
    · next h =>
      obtain ⟨hq, hr⟩ := State.readActive_keeps h
      exact ⟨hq.trans rfl, hr.trans (.of_eq rfl)⟩

theorem State.activateWaiting_keeps (s : State) : QueOnly s s.activateWaiting ∧ LogRegs s s.activateWaiting :=
  ⟨.foldl (fun u _ => (u.activate_keeps _).1) _ s, .foldl (fun u _ => (u.activate_keeps _).2) _ s⟩

theorem State.writeBack_keeps (s : State) (ctx : Nat) : QueOnly s (s.writeBack ctx) ∧ LogRegs s (s.writeBack ctx) := by
  unfold State.writeBack
  split
  · exact ⟨.refl s, .refl s⟩
  · split
    · exact ⟨.refl s, .refl s⟩
    · split
      · next h => exact ⟨queOnly_ipaWrite h, logRegs_ipaWrite s h⟩
      · split
        · exact ⟨.refl s, .refl s⟩
        · exact ⟨queOnly_weirFault s _ _ _ _, logRegs_weirFault s _ _ _ _⟩

/-- A context that is let go or stays (R253): the queues and the status of their commands stay. -/
theorem State.settleCtx_keeps (s : State) (ctx : Nat) : QueOnly s (s.settleCtx ctx) ∧ LogRegs s (s.settleCtx ctx) := by
  unfold State.settleCtx
  split
  · exact ⟨.refl s, .refl s⟩
  · obtain ⟨hq, hr⟩ := s.writeBack_keeps ctx
    obtain ⟨hq', hr'⟩ := State.activateWaiting_keeps { (s.writeBack ctx) with ctxs := Map.drop s.ctxs ctx }
    have hdrop : QueOnly (s.writeBack ctx) { (s.writeBack ctx) with ctxs := Map.drop s.ctxs ctx } := rfl
    exact ⟨(hq.trans hdrop).trans hq', (hr.trans (.of_eq rfl)).trans hr'⟩

end

end Sys2Proof.Machine

/-! Proofs: queue commands, scheduler ranges, doorbells and packet reads (R250, R258 to R260). -/

namespace Sys2Proof.Machine

/-! ### The status register of a pair -/

theorem pairReg_not_logKey (fn : Nat) : ¬ LogKey (pairReg fn).key := by
  unfold pairReg LogKey rasKeys
  split
  · simp only [Reg.key, List.mem_cons, List.not_mem_nil, or_false]
    omega
  · simp only [Reg.key, vfBase, List.mem_cons, List.not_mem_nil, or_false]
    omega

/-- A command that finished: RESULT, and DONE one further (R258). -/
def QueDone (s t : State) (fn res : Nat) : Prop :=
  t.rf (pairReg fn) 55 52 = res ∧ t.rf (pairReg fn) 31 0 = (s.rf (pairReg fn) 31 0 + 1) % 2 ^ 32

theorem QueDone.keeps {s t u : State} {fn res : Nat} (h : QueDone s t fn res) (k : LogRegs t u) : QueDone s u fn res :=
  ⟨(k.rf (pairReg_not_logKey fn) 55 52).trans h.1, (k.rf (pairReg_not_logKey fn) 31 0).trans h.2⟩

theorem QueDone.from {s t u : State} {fn res : Nat} (h : QueDone t u fn res) (k : LogRegs s t) : QueDone s u fn res :=
  ⟨h.1, h.2.trans (by rw [k.rf (pairReg_not_logKey fn) 31 0])⟩

section
variable (s : State) (fn : Nat)

theorem State.queDone_done {res : Nat} (h : res < 16) : QueDone s (s.queDone fn res) fn res := by
  unfold State.queDone
  dsimp only
  refine ⟨?_, ?_⟩
  · rw [State.rf_setRf_other _ _ _ (by decide) (by decide), State.rf_setRf_same _ _ _ (by decide)]
    exact Nat.mod_eq_of_lt h
  · rw [State.rf_setRf_same _ _ _ (by decide)]

theorem regsOnly_queDone (res : Nat) : RegsOnly { s with cmdBusy := NSet.del s.cmdBusy (pairOf fn) } (s.queDone fn res) :=
  (regsOnly_setRf _ _ _ _ _).trans (regsOnly_setRf _ _ _ _ _)
theorem State.queues_queDone (res : Nat) : (s.queDone fn res).queues = s.queues := by rw [regsOnly_queDone s fn res]
theorem State.ctxs_queDone (res : Nat) : (s.queDone fn res).ctxs = s.ctxs := by rw [regsOnly_queDone s fn res]
theorem State.failed_queDone (res : Nat) : (s.queDone fn res).failed = s.failed := by rw [regsOnly_queDone s fn res]

theorem State.queue_setQueue_same (q : Nat) (x : Queue) : (s.setQueue q x).queue q = x := by
  show Map.getD (Map.put s.queues q x) q _ = x
  rw [Map.getD, Map.find?_put_same]
  rfl

theorem State.queue_setQueue_other {q k : Nat} (x : Queue) (h : k ≠ q) : (s.setQueue q x).queue k = s.queue k := by
  show Map.getD (Map.put s.queues q x) k _ = Map.getD s.queues k _
  rw [Map.getD, Map.getD, Map.find?_put_other _ _ h]

/-- A queue that is listed is changed. -/
theorem State.queue_modQueue_of_listed {q : Nat} {f : Queue → Queue} (h : (Map.find? s.queues q).isSome) :
    (s.modQueue q f).queue q = f (s.queue q) := by
  obtain ⟨x, hx⟩ := Option.isSome_iff_exists.mp h
  show Map.getD (Map.modify s.queues q f) q _ = f (Map.getD s.queues q _)
  unfold Map.getD
  rw [Map.find?_modify, if_pos rfl, hx]
  rfl

/-- A queue that is not disabled, or that has started packets, is listed. -/
theorem State.listed_of_busy {q : Nat} (h : (s.queue q).st ≠ 0 ∨ (s.queue q).started ≠ []) : (Map.find? s.queues q).isSome := by
  cases hq : Map.find? s.queues q with
  | some x => rfl
  | none =>
    rw [State.queue, Map.getD, hq] at h
    exact (h.elim (· rfl) (· rfl)).elim

theorem State.queue_modQueue_same {q : Nat} {f : Queue → Queue} (h : (s.queue q).st ≠ 0) :
    (s.modQueue q f).queue q = f (s.queue q) := s.queue_modQueue_of_listed (s.listed_of_busy (.inl h))

theorem State.queue_modQueue_other {q k : Nat} (f : Queue → Queue) (h : k ≠ q) : (s.modQueue q f).queue k = s.queue k := by
  show Map.getD (Map.modify s.queues q f) k _ = Map.getD s.queues k _
  rw [Map.getD, Map.getD, Map.find?_modify, if_neg h]

end

theorem State.queue_congr {s t : State} (h : t.queues = s.queues) (q : Nat) : t.queue q = s.queue q := by
  rw [State.queue, h, State.queue]

/-! ### Which command runs -/

section
variable {s : State} {fn : Nat} {k : State → State}

theorem State.queRun_of_not_opens (h : fn ≤ 96) (hn : ¬ (fn ≤ 96 ∧ (fn = 0 ∨ s.partOn (fn - 1) = true))) :
    s.queRun fn k = .next (s.accessError 267 fn 0xFD000) := by
  unfold State.queRun
  rw [if_neg (by omega)]
  refine State.throughVf_of_not_opens fun ho => hn ⟨h, ?_⟩
  exact ho.imp_right fun ho => ho.resolve_left (by omega)

theorem State.queRun_of_opens (h : fn ≤ 96 ∧ (fn = 0 ∨ s.partOn (fn - 1) = true)) :
    s.queRun fn k = if s.cmdBusy.contains (pairOf fn) then .next (s.dropped 258 (pairOf fn)) else .next (k s) := by
  unfold State.queRun
  rw [if_neg (by omega)]
  exact State.throughVf_of_opens (h.2.imp_right .inr)

theorem State.queRun_of_busy (h : fn ≤ 96 ∧ (fn = 0 ∨ s.partOn (fn - 1) = true)) (hb : pairOf fn ∈ s.cmdBusy) :
    s.queRun fn k = .next (s.dropped 258 (pairOf fn)) := by
  rw [State.queRun_of_opens h, if_pos (List.contains_iff_mem.mpr hb)]

theorem State.queRun_of_free (h : fn ≤ 96 ∧ (fn = 0 ∨ s.partOn (fn - 1) = true)) (hb : pairOf fn ∉ s.cmdBusy) :
    s.queRun fn k = .next (k s) := by
  rw [State.queRun_of_opens h, if_neg (fun h => hb (List.contains_iff_mem.mp h))]

theorem exec_enable_eq (s : State) (fn : Nat) (i : BitVec 18) : exec (.enable fn i) s = s.queRun fn (fun (s : State) =>
    match s.queueOf fn i.toNat with
    | none => s.queDone fn 3
    | some q => s.enableQueue fn q) := rfl

theorem exec_disable_eq (s : State) (fn : Nat) (i : BitVec 18) : exec (.disable fn i) s = s.queRun fn (fun (s : State) =>
    match s.queueOf fn i.toNat with
    | none => s.queDone fn 3
    | some q =>
      if (s.queue q).st == 0 || (s.queue q).st == 6 then s.queDone fn 4
      else (({ s with cmdBusy := NSet.ins s.cmdBusy (pairOf fn) }.setQueue q { (s.queue q).discard with
        st := 6, disabledBy := some fn }).setRf (pairReg fn) 55 52 1).settleCtx (s.queue q).ctx) := rfl

theorem exec_resume_eq (s : State) (fn : Nat) (i : BitVec 18) : exec (.resume fn i) s = s.queRun fn (fun (s : State) =>
    match s.queueOf fn i.toNat with
    | none => s.queDone fn 3
    | some q =>
      if (s.queue q).st == 5 then (s.modQueue q (fun x => { x with st := 1 })).queDone fn 0 else s.queDone fn 4) := rfl

theorem exec_reload_eq (s : State) (fn : Nat) (ctx : Ctx) : exec (.reload fn ctx) s = s.queRun fn (fun s =>
    if fn != 0 && s.ctxOwner ctx.toNat != fn - 1 then s.queDone fn 3
    else ({ s with
      failed := NSet.del s.failed ctx.toNat
      ctxs := Map.modify s.ctxs ctx.toNat (fun a => { a with reread := true }) }).queDone fn 0) := rfl

/-- The four commands of QUE_CMD run as commands of their pair. -/
theorem exec_queCommand (i : BitVec 18) (ctx : Ctx) :
    ∀ c ∈ [Instr.enable fn i, Instr.disable fn i, Instr.resume fn i, Instr.reload fn ctx], ∃ k, exec c s = s.queRun fn k := by
  intro c hc
  fin_cases hc
  · exact exec_enable_eq s fn i ▸ ⟨_, rfl⟩
  · exact exec_disable_eq s fn i ▸ ⟨_, rfl⟩
  · exact exec_resume_eq s fn i ▸ ⟨_, rfl⟩
  · exact exec_reload_eq s fn ctx ▸ ⟨_, rfl⟩

/-- A command on a queue that its function has not ends with RESULT 3. -/
theorem exec_queCommand_absent {i : BitVec 18} (h : fn ≤ 96 ∧ (fn = 0 ∨ s.partOn (fn - 1) = true)) (hb : pairOf fn ∉ s.cmdBusy)
    (hq : s.queueOf fn i.toNat = none) : ∀ c ∈ [Instr.enable fn i, Instr.disable fn i, Instr.resume fn i],
      exec c s = .next (s.queDone fn 3) := by
  intro c hc
  fin_cases hc
  · exact (exec_enable_eq s fn i).trans ((State.queRun_of_free h hb).trans (by rw [hq]))
  · exact (exec_disable_eq s fn i).trans ((State.queRun_of_free h hb).trans (by rw [hq]))
  · exact (exec_resume_eq s fn i).trans ((State.queRun_of_free h hb).trans (by rw [hq]))

variable {i : BitVec 18} {q : Nat} (h : fn ≤ 96 ∧ (fn = 0 ∨ s.partOn (fn - 1) = true)) (hb : pairOf fn ∉ s.cmdBusy)
  (hq : s.queueOf fn i.toNat = some q)
include h hb hq

theorem exec_enable : exec (.enable fn i) s = .next (s.enableQueue fn q) := by
  refine (exec_enable_eq s fn i).trans ((State.queRun_of_free h hb).trans ?_)
  rw [hq]

theorem exec_disable_idle (hst : (s.queue q).st = 0 ∨ (s.queue q).st = 6) : exec (.disable fn i) s = .next (s.queDone fn 4) := by
  refine (exec_disable_eq s fn i).trans ((State.queRun_of_free h hb).trans ?_)
  rw [hq]
  exact congrArg Host.Outcome.next (if_pos (by simpa using hst))

theorem exec_disable (h0 : (s.queue q).st ≠ 0) (h6 : (s.queue q).st ≠ 6) : exec (.disable fn i) s =
    .next ((({ s with cmdBusy := NSet.ins s.cmdBusy (pairOf fn) }.setQueue q { (s.queue q).discard with
      st := 6, disabledBy := some fn }).setRf (pairReg fn) 55 52 1).settleCtx (s.queue q).ctx) := by
  refine (exec_disable_eq s fn i).trans ((State.queRun_of_free h hb).trans ?_)
  rw [hq]
  exact congrArg Host.Outcome.next (if_neg (by simp [h0, h6]))

theorem exec_resume : exec (.resume fn i) s =
    .next (if (s.queue q).st = 5 then (s.modQueue q (fun x => { x with st := 1 })).queDone fn 0 else s.queDone fn 4) := by
  refine (exec_resume_eq s fn i).trans ((State.queRun_of_free h hb).trans ?_)
  rw [hq]
  exact congrArg Host.Outcome.next (if_congr beq_iff_eq rfl rfl)

end

/-! ### ENABLE -/

section
variable {s : State} {fn q : Nat}

theorem State.enableQueue_of_wrong (h : (s.queue q).st ≠ 0 ∨ s.sharedUp = false ∨ (Map.find? s.partOps (s.queueOwner q)).isSome) :
    s.enableQueue fn q = s.queDone fn 4 := by
  unfold State.enableQueue
  refine if_pos ?_
  simpa only [Bool.or_eq_true, bne_iff_ne, Bool.not_eq_true', or_assoc] using h

variable (hst : (s.queue q).st = 0) (hup : s.sharedUp = true) (hop : Map.find? s.partOps (s.queueOwner q) = none)
include hst hup hop

theorem State.enableQueue_of_noTable (htab : s.rf (.schQtab (s.queueOwner q)) 0 0 = 0) : s.enableQueue fn q = s.queDone fn 2 := by
  unfold State.enableQueue
  rw [if_neg (by simp [hst, hup, hop])]
  exact if_pos (by simp [htab])

variable {bs : List Byte} (htab : s.rf (.schQtab (s.queueOwner q)) 0 0 ≠ 0)
  (hread : s.ipaRead (s.queueOwner q) (s.rf (.schQtab (s.queueOwner q)) 51 16 * 2 ^ 16 + (q - s.qbase (s.queueOwner q)) * 16) 16 =
    .ok (bs, false))
include htab hread

/-- The state in which the entry of a queue's table has been read. -/
def State.noteQueue (s : State) (q : Nat) : State :=
  s.noteIpa (s.queueOwner q) (s.rf (.schQtab (s.queueOwner q)) 51 16 * 2 ^ 16 + (q - s.qbase (s.queueOwner q)) * 16) 16 false

/-- The queue that an entry describes, enabled by ENABLE. -/
def State.enabledQueue (s : State) (p w0 w1 : Nat) : Queue :=
  ⟨bit w0 63, fld w0 59 56, fld w0 47 0, fld w1 19 0, p, 0, 0, 0, 1, 0, 0, [], [], none, s.weirCtr.toNat, false⟩

theorem State.enableQueue_of_entry : s.enableQueue fn q =
    if (s.noteQueue q).entryOk (s.queueOwner q) (wordAt bs 0).toNat (wordAt bs 1).toNat = true then
      ((s.noteQueue q).setQueue q ((s.noteQueue q).enabledQueue (s.queueOwner q) (wordAt bs 0).toNat (wordAt bs 1).toNat)).queDone fn 0
    else (s.noteQueue q).queDone fn 2 := by
  unfold State.enableQueue
  dsimp only
  rw [if_neg (by simp [hst, hup, hop]), if_neg (by simp [htab]), hread]
  dsimp only
  rw [if_neg (by decide)]
  show (if (!(s.noteQueue q).entryOk (s.queueOwner q) (wordAt bs 0).toNat (wordAt bs 1).toNat) = true then _ else _) = _
  split
  · next h => exact (if_neg (by simpa using h)).symm
  · next h => exact (if_pos (by simpa using h)).symm

end

/-! ### DISABLE, RELOAD -/

section
variable {s : State} {fn q : Nat}

/-- A queue that disables: its command is in progress, and what was read is discarded (R258). -/
theorem exec_disable_spec {i : BitVec 18} (h : fn ≤ 96 ∧ (fn = 0 ∨ s.partOn (fn - 1) = true)) (hb : pairOf fn ∉ s.cmdBusy)
    (hq : s.queueOf fn i.toNat = some q) (h0 : (s.queue q).st ≠ 0) (h6 : (s.queue q).st ≠ 6) :
    ∃ t : State, exec (.disable fn i) s = .next t ∧ t.rf (pairReg fn) 55 52 = 1 ∧ pairOf fn ∈ t.cmdBusy ∧ (t.queue q).st = 6 ∧
      (t.queue q).fetched = [] ∧ (t.queue q).disabledBy = some fn := by
  refine ⟨_, exec_disable h hb hq h0 h6, ?_⟩
  generalize hu : ({ s with cmdBusy := NSet.ins s.cmdBusy (pairOf fn) } : State).setQueue q { (s.queue q).discard with
    st := 6, disabledBy := some fn } = u
  have hbusy : pairOf fn ∈ u.cmdBusy := hu ▸ by
    show _ ∈ NSet.ins _ _
    simp
  have hqueue : u.queue q = { (s.queue q).discard with st := 6, disabledBy := some fn } := hu ▸ State.queue_setQueue_same _ _ _
  have hregs := regsOnly_setRf u (pairReg fn) 55 52 1
  obtain ⟨hkeep, hlog⟩ := (u.setRf (pairReg fn) 55 52 1).settleCtx_keeps (s.queue q).ctx
  have hend : (((u.setRf (pairReg fn) 55 52 1).settleCtx (s.queue q).ctx).queue q) =
      { (s.queue q).discard with st := 6, disabledBy := some fn } := by
    rw [hkeep.queue, State.queue_congr (s := u) (by rw [hregs]), hqueue]
  refine ⟨?_, ?_, ?_, ?_, ?_⟩
  · rw [hlog.rf (pairReg_not_logKey fn), State.rf_setRf_same _ _ _ (by decide)]
    rfl
  · rw [hkeep.cmdBusy, hregs]
    exact hbusy
  · rw [hend]
  · rw [hend]
    rfl
  · rw [hend]

theorem exec_disableComplete (hd : (s.queue q).disabledBy = some fn) (h6 : (s.queue q).st = 6) (hs : (s.queue q).started = []) :
    exec (.disableComplete q) s = .next (((s.setQueue q { s.queue q with st := 0, disabledBy := none }).queDone fn 0).settleCtx
      (s.queue q).ctx) := by
  show execDisableComplete q s = _
  unfold execDisableComplete
  dsimp only
  rw [hd]
  exact if_neg (by simp [h6, hs])

theorem exec_disableComplete_spec (hd : (s.queue q).disabledBy = some fn) (h6 : (s.queue q).st = 6) (hs : (s.queue q).started = []) :
    ∃ t : State, exec (.disableComplete q) s = .next t ∧ QueDone s t fn 0 ∧ (t.queue q).st = 0 := by
  refine ⟨_, exec_disableComplete hd h6 hs, ?_⟩
  obtain ⟨hkeep, hlog⟩ := ((s.setQueue q { s.queue q with st := 0, disabledBy := none }).queDone fn 0).settleCtx_keeps (s.queue q).ctx
  refine ⟨((State.queDone_done _ fn (by decide)).keeps hlog).from (.of_eq rfl), ?_⟩
  rw [hkeep.queue, State.queue_congr (State.queues_queDone _ fn 0), State.queue_setQueue_same]

/-- RELOAD of a context of the function: its failed mark goes, and its record is read again (R258, R353). -/
theorem exec_reload_spec {ctx : Ctx} (h : fn ≤ 96 ∧ (fn = 0 ∨ s.partOn (fn - 1) = true)) (hb : pairOf fn ∉ s.cmdBusy)
    (ho : fn = 0 ∨ s.ctxOwner ctx.toNat = fn - 1) : ∃ t : State, exec (.reload fn ctx) s = .next t ∧ QueDone s t fn 0 ∧
      ctx.toNat ∉ t.failed ∧ ∀ a, Map.find? s.ctxs ctx.toNat = some a → Map.find? t.ctxs ctx.toNat = some { a with reread := true } := by
  refine ⟨_, (exec_reload_eq s fn ctx).trans ((State.queRun_of_free h hb).trans (congrArg Host.Outcome.next (if_neg ?_))), ?_, ?_, ?_⟩
  · rcases ho with ho | ho <;> simp [ho]
  · exact (State.queDone_done _ fn (by decide)).from (.of_eq rfl)
  · rw [State.failed_queDone]
    simp
  · intro a ha
    rw [State.ctxs_queDone]
    exact (Map.find?_modify _ _ _ _).trans (by rw [if_pos rfl, ha]; rfl)

theorem exec_reload_foreign {ctx : Ctx} (h : fn ≤ 96 ∧ (fn = 0 ∨ s.partOn (fn - 1) = true)) (hb : pairOf fn ∉ s.cmdBusy)
    (h0 : fn ≠ 0) (ho : s.ctxOwner ctx.toNat ≠ fn - 1) : exec (.reload fn ctx) s = .next (s.queDone fn 3) :=
  (exec_reload_eq s fn ctx).trans ((State.queRun_of_free h hb).trans (congrArg Host.Outcome.next (if_pos (by simp [h0, ho]))))

end

/-! ### Scheduler ranges -/

section
variable {s : State} {p : Nat} {val : BitVec 64}

theorem State.writeRange_of_quarantined (b : Bool) (v : Nat) (h : p ∈ s.quarantined) :
    s.writeRange p b v = s.accessError 374 0 (if b then Reg.schCtxRange p else Reg.queRange p).key :=
  if_pos (List.contains_iff_mem.mpr h)

theorem State.writeRange_of_bad (b : Bool) (v : Nat) (h : p ∉ s.quarantined) (hb : s.rangeBad p b v = true) :
    s.writeRange p b v = s.accessError 250 0 (if b then Reg.schCtxRange p else Reg.queRange p).key :=
  (if_neg fun hq => h (List.contains_iff_mem.mp hq)).trans (if_pos hb)

theorem State.writeRange_of_good (b : Bool) (v : Nat) (h : p ∉ s.quarantined) (hb : s.rangeBad p b v = false) :
    s.writeRange p b v = s.setReg (if b then Reg.schCtxRange p else Reg.queRange p)
      ((if b then Reg.schCtxRange p else Reg.queRange p).written 63 0
        (s.reg (if b then Reg.schCtxRange p else Reg.queRange p)) v) :=
  (if_neg fun hq => h (List.contains_iff_mem.mp hq)).trans (if_neg (by rw [hb]; decide))

/-- Two fields of a register that a write gives take their parts of it. -/
theorem fld_setFld_pair (old v : Nat) {h l h' l' : Nat} (hl : l ≤ h) (hl' : l' ≤ h') (hd : h' < l) :
    fld (setFld (setFld old h l (fld v h l)) h' l' (fld v h' l')) h l = fld v h l ∧
    fld (setFld (setFld old h l (fld v h l)) h' l' (fld v h' l')) h' l' = fld v h' l' := by
  refine ⟨?_, ?_⟩
  · rw [fld_setFld_other _ _ hl' (.inr hd), fld_setFld_same _ _ hl]
    exact Nat.mod_mod _ _
  · rw [fld_setFld_same _ _ hl']
    exact Nat.mod_mod _ _

/-- A field that software writes takes its bits of the write. -/
theorem Field.write_rw (h l r old v : Nat) (d : Domain) (hl : l ≤ h) (h63 : h ≤ 63) :
    Field.write ⟨h, l, .rw, r, d⟩ 63 0 old v = setFld old h l (fld v h l) := by
  unfold Field.write
  dsimp only
  rw [min_eq_left h63, max_eq_left (Nat.zero_le l), if_pos hl]

theorem fld_written_schCtxRange (p old v : Nat) : fld ((Reg.schCtxRange p).written 63 0 old v) 19 0 = fld v 19 0 ∧
    fld ((Reg.schCtxRange p).written 63 0 old v) 52 32 = fld v 52 32 := by
  have h : (Reg.schCtxRange p).written 63 0 old v = setFld (setFld old 52 32 (fld v 52 32)) 19 0 (fld v 19 0) := by
    unfold Reg.written
    rw [show (Reg.schCtxRange p).fields = [⟨52, 32, .rw, 0, .w⟩, ⟨19, 0, .rw, 0, .w⟩] from rfl, List.foldl_cons,
      List.foldl_cons, List.foldl_nil, Field.write_rw 52 32 _ _ _ _ (by decide) (by decide),
      Field.write_rw 19 0 _ _ _ _ (by decide) (by decide)]
  rw [h]
  exact (fld_setFld_pair old v (by decide) (by decide) (by decide)).symm

theorem fld_written_queRange (p old v : Nat) : fld ((Reg.queRange p).written 63 0 old v) 17 0 = fld v 17 0 ∧
    fld ((Reg.queRange p).written 63 0 old v) 46 32 = fld v 46 32 := by
  have h : (Reg.queRange p).written 63 0 old v = setFld (setFld old 46 32 (fld v 46 32)) 17 0 (fld v 17 0) := by
    unfold Reg.written
    rw [show (Reg.queRange p).fields = [⟨46, 32, .rw, 0, .w⟩, ⟨17, 0, .rw, 0, .w⟩] from rfl, List.foldl_cons,
      List.foldl_cons, List.foldl_nil, Field.write_rw 46 32 _ _ _ _ (by decide) (by decide),
      Field.write_rw 17 0 _ _ _ _ (by decide) (by decide)]
  rw [h]
  exact (fld_setFld_pair old v (by decide) (by decide) (by decide)).symm

/-- A range that R250 admits is written, and changes nothing but its register. -/
theorem State.writeRange_spec {p : Nat} (v : Nat) (h : p ∉ s.quarantined) :
    (s.rangeBad p true v = false → RegsOnly s (s.writeRange p true v) ∧
      (s.writeRange p true v).rf (.schCtxRange p) 19 0 = fld v 19 0 ∧ (s.writeRange p true v).rf (.schCtxRange p) 52 32 = fld v 52 32) ∧
    (s.rangeBad p false v = false → RegsOnly s (s.writeRange p false v) ∧
      (s.writeRange p false v).rf (.queRange p) 17 0 = fld v 17 0 ∧ (s.writeRange p false v).rf (.queRange p) 46 32 = fld v 46 32) := by
  refine ⟨fun hb => ?_, fun hb => ?_⟩
  · rw [State.writeRange_of_good true v h hb, if_pos rfl, State.rf, State.rf, State.reg_setReg_same]
    exact ⟨regsOnly_setReg _ _ _, fld_written_schCtxRange _ _ _⟩
  · rw [State.writeRange_of_good false v h hb, if_neg (by decide), State.rf, State.rf, State.reg_setReg_same]
    exact ⟨regsOnly_setReg _ _ _, fld_written_queRange _ _ _⟩

end

/-! ### Doorbells -/

section
variable {s : State} {fn idx q : Nat} {val : BitVec 64}

theorem exec_doorbell (hfn : fn ≤ 96) (ho : fn = 0 ∨ s.partOn (fn - 1) = true) : exec (.doorbell fn idx 8 val) s =
    if !s.sharedUp then .next (s.dropped 17 (pairOf fn))
    else match s.queueOf fn idx with
      | none => .next (s.dropped 259 (pairOf fn))
      | some q =>
        let x := s.queue q
        let new := BitVec.ofNat 32 (fld val.toNat 31 0)
        if x.st == 0 || x.st == 6 || (Map.find? s.partOps x.owner).isSome || s.quarantined.contains x.owner ||
            decide ((new - x.head).toNat > x.entries) || decide ((new - x.tail).toNat ≥ 2 ^ 31) then
          .next (s.dropped 259 (pairOf fn))
        else .next (s.setQueue q { x with tail := new }) := by
  show execDoorbell fn idx 8 val s = _
  unfold execDoorbell
  exact (if_neg (by omega)).trans ((State.throughVf_of_opens (ho.imp_right .inr)).trans (if_neg (by decide)))

/-- A TAIL that a queue takes (R259). -/
def State.takesTail (s : State) (q : Nat) (new : Half) : Prop :=
  (s.queue q).st ≠ 0 ∧ (s.queue q).st ≠ 6 ∧ Map.find? s.partOps (s.queue q).owner = none ∧ (s.queue q).owner ∉ s.quarantined ∧
    (new - (s.queue q).head).toNat ≤ (s.queue q).entries ∧ (new - (s.queue q).tail).toNat < 2 ^ 31

theorem exec_doorbell_queue (hfn : fn ≤ 96) (ho : fn = 0 ∨ s.partOn (fn - 1) = true) (hup : s.sharedUp = true)
    (hq : s.queueOf fn idx = some q) :
    let new : Half := BitVec.ofNat 32 (fld val.toNat 31 0)
    (s.takesTail q new → exec (.doorbell fn idx 8 val) s = .next (s.setQueue q { s.queue q with tail := new })) ∧
    (¬ s.takesTail q new → exec (.doorbell fn idx 8 val) s = .next (s.dropped 259 (pairOf fn))) := by
  intro new
  have hdec : ((s.queue q).st == 0 || (s.queue q).st == 6 || (Map.find? s.partOps (s.queue q).owner).isSome ||
      s.quarantined.contains (s.queue q).owner || decide ((new - (s.queue q).head).toNat > (s.queue q).entries) ||
      decide ((new - (s.queue q).tail).toNat ≥ 2 ^ 31)) = true ↔ ¬ s.takesTail q new := by
    simp only [State.takesTail, Bool.or_eq_true, beq_iff_eq, decide_eq_true_eq, List.contains_iff_mem, Option.isSome_iff_ne_none,
      ne_eq, not_and_or, not_not, gt_iff_lt, not_le, not_lt, ge_iff_le, or_assoc]
  rw [exec_doorbell hfn ho, if_neg (by simp [hup]), hq]
  exact ⟨fun h => if_neg (hdec.not.mpr (not_not.mpr h)), fun h => if_pos (hdec.mpr h)⟩

end

/-! ### PACKET_READ -/

section
variable {s : State}

/-- Reading a ring's entry keeps the queues, however it ends. -/
theorem queOnly_ringRead {x : Queue} {a : Nat} {u : State} {r : Except Nat (List Byte)} (h : s.ringRead x a = some (u, r)) :
    QueOnly s u := by
  unfold State.ringRead at h
  split at h
  · dsimp only at h
    split at h
    · cases h
      exact .refl s
    · split at h
      · cases h
        exact queOnly_quePoison s _ _
      · cases h
        exact .refl s
  · split at h
    · split at h
      · cases h
      · cases h
        exact queOnly_queFault s _ _ _ _
    · next hacc =>
      have hacc := queOnly_ctxAccess hacc
      split at h
      · cases h
        exact hacc
      · split at h
        · cases h
        · obtain ⟨v, hv, heq⟩ := Option.map_eq_some_iff.mp h
          have hread := hacc.trans (.of_caches (cachesOnly_homeRead hv))
          dsimp only at heq
          split at heq
          · cases heq
            exact hread.trans (queOnly_quePoison _ _ _)
          · cases heq
            exact hread

theorem queOnly_activate (ctx : Nat) : QueOnly s (s.activate ctx) := (s.activate_keeps ctx).1

/-- A packet at the start point marks the time; nothing else of the queues changes. -/
theorem State.queues_activateFront (q : Nat) : (s.activateFront q).queues = s.queues ∨
    (s.activateFront q).queues = (s.modQueue q (fun y => { y with since := s.weirCtr.toNat })).queues := by
  unfold State.activateFront
  dsimp only
  split
  · exact .inr (queOnly_activate _).queues
  · exact .inl rfl

/-- The packet that a ring's entry holds. -/
def packetOf (x : Queue) : Except Nat (List Byte) → Packet
  | .ok bs => ⟨x.head.toNat, (List.range 8).map (wordAt bs), none⟩
  | .error c => ⟨x.head.toNat, [], some c⟩

variable {q : Nat}

theorem exec_packetRead (hst : (s.queue q).st = 1) (hne : (s.queue q).head ≠ (s.queue q).tail)
    (hlen : (s.queue q).fetched.length < 4) (hup : s.sharedUp = true) (hop : Map.find? s.partOps (s.queue q).owner = none)
    {u : State} {r : Except Nat (List Byte)}
    (hr : s.ringRead (s.queue q) ((s.queue q).ring + (s.queue q).head.toNat % (s.queue q).entries * 64) = some (u, r)) :
    let t := u.modQueue q (fun y => { y with head := y.head + 1, fetched := y.fetched ++ [packetOf (s.queue q) r] })
    exec (.packetRead q) s = .next (if (s.queue q).fetched.isEmpty then t.activateFront q else t) := by
  intro t
  show execPacketRead q s = _
  unfold execPacketRead
  dsimp only
  rw [if_neg (by simp [hst, hne, hlen, hup, hop]), hr]
  cases r <;> rfl

/-- The packet read joins those read, and HEAD advances (R260). -/
theorem exec_packetRead_spec (hst : (s.queue q).st = 1) (hne : (s.queue q).head ≠ (s.queue q).tail)
    (hlen : (s.queue q).fetched.length < 4) (hup : s.sharedUp = true) (hop : Map.find? s.partOps (s.queue q).owner = none)
    {u : State} {r : Except Nat (List Byte)}
    (hr : s.ringRead (s.queue q) ((s.queue q).ring + (s.queue q).head.toNat % (s.queue q).entries * 64) = some (u, r)) :
    ∃ t : State, exec (.packetRead q) s = .next t ∧ (t.queue q).head = (s.queue q).head + 1 ∧
      (t.queue q).fetched = (s.queue q).fetched ++ [packetOf (s.queue q) r] ∧ (t.queue q).started = (s.queue q).started := by
  refine ⟨_, exec_packetRead hst hne hlen hup hop hr, ?_⟩
  generalize hv : u.modQueue q (fun y => { y with head := y.head + 1, fetched := y.fetched ++ [packetOf (s.queue q) r] }) = v
  have hqu : u.queue q = s.queue q := (queOnly_ringRead hr).queue q
  have hqueue : v.queue q = { s.queue q with
      head := (s.queue q).head + 1, fetched := (s.queue q).fetched ++ [packetOf (s.queue q) r] } := by
    rw [← hv, State.queue_modQueue_same _ (by rw [hqu, hst]; decide), hqu]
  split
  · rcases v.queues_activateFront q with h | h
    · rw [State.queue_congr h, hqueue]
      exact ⟨rfl, rfl, rfl⟩
    · rw [State.queue_congr h, State.queue_modQueue_same _ (by rw [hqueue]; exact hst ▸ by decide), hqueue]
      exact ⟨rfl, rfl, rfl⟩
  · rw [hqueue]
    exact ⟨rfl, rfl, rfl⟩

end

/-! ### The statement -/

section
variable {s : State} {fn q : Nat} {i : BitVec 18}

/-- What ENABLE of a queue does. -/
theorem State.enableQueue_spec (hst : (s.queue q).st = 0) (hup : s.sharedUp = true)
    (hop : Map.find? s.partOps (s.queueOwner q) = none) (htab : s.rf (.schQtab (s.queueOwner q)) 0 0 ≠ 0) {bs : List Byte}
    (hread : s.ipaRead (s.queueOwner q) (s.rf (.schQtab (s.queueOwner q)) 51 16 * 2 ^ 16 + (q - s.qbase (s.queueOwner q)) * 16) 16 =
      .ok (bs, false)) :
    let w0 := (wordAt bs 0).toNat
    let w1 := (wordAt bs 1).toNat
    let u := s.noteQueue q
    (u.entryOk (s.queueOwner q) w0 w1 = true → QueDone s (s.enableQueue fn q) fn 0 ∧
      (s.enableQueue fn q).queue q = u.enabledQueue (s.queueOwner q) w0 w1 ∧
      ∀ k, k ≠ q → (s.enableQueue fn q).queue k = s.queue k) ∧
    (u.entryOk (s.queueOwner q) w0 w1 = false → QueDone s (s.enableQueue fn q) fn 2 ∧ (s.enableQueue fn q).queues = s.queues) := by
  intro w0 w1 u
  have hlog : LogRegs s u := logRegs_noteIpa s _ _ _ _
  have hkeep : QueOnly s u := queOnly_noteIpa s _ _ _ _
  rw [State.enableQueue_of_entry hst hup hop htab hread]
  refine ⟨fun hok => ?_, fun hok => ?_⟩
  · rw [if_pos hok]
    have hqs : ∀ k, (((u.setQueue q (u.enabledQueue (s.queueOwner q) w0 w1)).queDone fn 0).queue k) =
        (u.setQueue q (u.enabledQueue (s.queueOwner q) w0 w1)).queue k := fun k => State.queue_congr (State.queues_queDone _ fn 0) k
    refine ⟨(State.queDone_done _ fn (by decide)).from (hlog.trans (.of_eq rfl)), ?_, fun k hk => ?_⟩
    · exact (hqs q).trans (State.queue_setQueue_same _ _ _)
    · exact (hqs k).trans ((State.queue_setQueue_other _ _ hk).trans (hkeep.queue k))
  · rw [if_neg (by rw [hok]; decide)]
    exact ⟨(State.queDone_done _ fn (by decide)).from hlog, (State.queues_queDone _ fn 2).trans hkeep.queues⟩

/-- A command that ends with a RESULT and leaves the queues. -/
theorem exec_ends_of_eq {c : Instr} {res : Nat} (h : exec c s = .next (s.queDone fn res)) (hres : res < 16) :
    ∃ t : State, exec c s = .next t ∧ QueDone s t fn res ∧ t.queues = s.queues :=
  ⟨_, h, State.queDone_done s fn hres, State.queues_queDone s fn res⟩

/-- What the commands of QUE_CMD do to a queue of their function. -/
theorem exec_resume_spec (h : fn ≤ 96 ∧ (fn = 0 ∨ s.partOn (fn - 1) = true)) (hb : pairOf fn ∉ s.cmdBusy)
    (hq : s.queueOf fn i.toNat = some q) :
    ((s.queue q).st = 5 → ∃ t : State, exec (.resume fn i) s = .next t ∧ QueDone s t fn 0 ∧
      t.queue q = { s.queue q with st := 1 }) ∧
    ((s.queue q).st ≠ 5 → ∃ t : State, exec (.resume fn i) s = .next t ∧ QueDone s t fn 4 ∧ t.queues = s.queues) := by
  refine ⟨fun h5 => ⟨_, (exec_resume h hb hq).trans (by rw [if_pos h5]), ?_, ?_⟩, fun h5 => exec_ends_of_eq ?_ (by decide)⟩
  · exact (State.queDone_done _ fn (by decide)).from (.of_eq rfl)
  · rw [State.queue_congr (State.queues_queDone _ fn 0), State.queue_modQueue_same _ (by rw [h5]; decide)]
  · rw [exec_resume h hb hq, if_neg h5]

end

/-- Settles O32: every command is one of its pair's, whose status register no log, no walk and no context touches; the queues are
changed by their own commands and reads alone. -/
theorem queuesComplete : Obligations.queues_complete := by
  unfold Obligations.queues_complete
  refine ⟨fun s fn i ctx => ⟨fun hfn hno c hc => ?_, fun ho hb c hc => ?_, fun ho hb => ⟨fun hq c hc => ?_, fun q hq =>
    ⟨fun h => ?_, fun h0 hup hop htab => ?_, fun bs h0 hup hop htab hread => ?_, fun h => ?_, fun h0 h6 => ?_, fun h5 => ?_,
      fun h5 => ?_⟩, fun hown => ?_, fun h0 hown => ?_⟩, fun q hd h6 hs => ?_⟩,
    fun s => ⟨fun p val => ⟨fun hq b => ?_, fun hq b hbad => ?_, fun hq hg => ?_, fun hq hg => ?_⟩, fun fn idx val hfn ho =>
      ⟨fun hdown => ?_, fun hup hq => ?_, fun q hup hq => ?_⟩, fun q h1 hne hlen hup hop u r hr => ?_⟩⟩
  · obtain ⟨k, hk⟩ := exec_queCommand (s := s) (fn := fn) i ctx c hc
    exact hk.trans (State.queRun_of_not_opens hfn hno)
  · obtain ⟨k, hk⟩ := exec_queCommand (s := s) (fn := fn) i ctx c hc
    exact hk.trans (State.queRun_of_busy ho hb)
  · exact exec_ends_of_eq (exec_queCommand_absent ho hb hq c hc) (by decide)
  · exact exec_ends_of_eq ((exec_enable ho hb hq).trans (by rw [State.enableQueue_of_wrong h])) (by decide)
  · exact exec_ends_of_eq ((exec_enable ho hb hq).trans (by rw [State.enableQueue_of_noTable h0 hup hop htab])) (by decide)
  · obtain ⟨hok, hbad⟩ := State.enableQueue_spec (fn := fn) h0 hup hop htab hread
    refine ⟨fun h => ⟨_, exec_enable ho hb hq, ?_⟩, fun h => ⟨_, exec_enable ho hb hq, hbad h⟩⟩
    obtain ⟨hdone, hqueue, hothers⟩ := hok h
    rw [hqueue]
    exact ⟨hdone, rfl, rfl, rfl, rfl, rfl, rfl, rfl, rfl, rfl, hothers⟩
  · exact exec_ends_of_eq (exec_disable_idle ho hb hq h) (by decide)
  · exact exec_disable_spec ho hb hq h0 h6
  · exact (exec_resume_spec ho hb hq).1 h5
  · exact (exec_resume_spec ho hb hq).2 h5
  · exact exec_reload_spec ho hb hown
  · exact ⟨_, exec_reload_foreign ho hb h0 hown, State.queDone_done s fn (by decide), State.ctxs_queDone s fn 3,
      State.failed_queDone s fn 3⟩
  · exact exec_disableComplete_spec hd h6 hs
  · exact congrArg Host.Outcome.next (State.writeRange_of_quarantined b _ hq)
  · exact congrArg Host.Outcome.next (State.writeRange_of_bad b _ hq hbad)
  · obtain ⟨hregs, hbase, hcount⟩ := (State.writeRange_spec val.toNat hq).1 hg
    exact ⟨_, rfl, hbase, hcount, by rw [hregs], by rw [hregs]⟩
  · obtain ⟨hregs, hbase, hcount⟩ := (State.writeRange_spec val.toNat hq).2 hg
    exact ⟨_, rfl, hbase, hcount, by rw [hregs], by rw [hregs]⟩
  · rw [exec_doorbell hfn ho, if_pos (by simp [hdown])]
  · rw [exec_doorbell hfn ho, if_neg (by simp [hup]), hq]
  · exact exec_doorbell_queue hfn ho hup hq
  · obtain ⟨t, hexec, hhead, hfetched, hstarted⟩ := exec_packetRead_spec h1 hne hlen hup hop hr
    refine ⟨t, packetOf (s.queue q) r, hexec, hhead, hfetched, ?_, hstarted, fun bs h => ?_, fun c h => ?_⟩
    · cases r <;> rfl
    · rw [h]
      exact ⟨rfl, rfl⟩
    · rw [h]
      rfl

end Sys2Proof.Machine

/-! Proofs: packets start and complete (R144, R145, R251, R262 to R264). -/

namespace Sys2Proof.Machine

/-! ### The queue manager's accesses keep the queues -/

section
variable {s t u : State} {x : Queue} {va n : Nat} {need : Need}

theorem queOnly_queAccess {ls : List Loc} {dpas : List Nat} (h : s.queAccess x va n need = .ok t ls dpas) : QueOnly s t := by
  unfold State.queAccess at h
  split at h
  · split at h <;> cases h
  · next hacc =>
    split at h
    · cases h
    · split at h
      · cases h
      · cases h
        exact queOnly_ctxAccess hacc

theorem queOnly_queAccess_fail {st : Nat} (h : s.queAccess x va n need = .fail t st) : QueOnly s t := by
  unfold State.queAccess at h
  split at h
  · split at h
    · cases h
    · cases h
      exact queOnly_queFault s _ _ _ _
  · next hacc =>
    split at h
    · cases h
      exact queOnly_ctxAccess hacc
    · split at h <;> cases h

theorem queOnly_queRead {r : Except Nat Nat} (h : s.queRead x va = some (t, r)) : QueOnly s t := by
  unfold State.queRead at h
  split at h
  · cases h
  · next hacc =>
    cases h
    exact queOnly_queAccess_fail hacc
  · next hacc =>
    obtain ⟨v, hv, heq⟩ := Option.map_eq_some_iff.mp h
    have hread := (queOnly_queAccess hacc).trans (.of_caches (cachesOnly_homeRead hv))
    dsimp only at heq
    split at heq
    · cases heq
      exact hread.trans (queOnly_quePoison _ _ _)
    · cases heq
      exact hread

theorem queOnly_queUpdate {f : List Byte → List Byte} {r : Option Nat} (h : s.queUpdate x va n need f = some (t, r)) : QueOnly s t := by
  unfold State.queUpdate at h
  split at h
  · cases h
  · next hacc =>
    cases h
    exact queOnly_queAccess_fail hacc
  · next hacc =>
    split at h
    · cases h
    · next hv =>
      have hwrite := (queOnly_queAccess hacc).trans (.of_caches (cachesOnly_homeWrite hv))
      dsimp only at h
      split at h
      · cases h
        exact hwrite.trans (queOnly_quePoison _ _ _)
      · cases h
        exact hwrite.trans (.of_writes (writesOnly_writeLocs _ _ _ _))

theorem queOnly_fanoutRows {p : Packet} {is : List Nat} {r : Except Nat (List Nat)} (h : s.fanoutRows x p is = some (t, r)) :
    QueOnly s t := by
  induction is generalizing s t r with
  | nil =>
    cases h
    exact .refl s
  | cons i is ih =>
    rw [State.fanoutRows] at h
    split at h
    · cases h
    · next hread =>
      cases h
      exact queOnly_queRead hread
    · next hread =>
      have hread := queOnly_queRead hread
      split at h
      · cases h
      · next hrows =>
        cases h
        exact hread.trans (ih hrows)
      · next hrows =>
        cases h
        exact hread.trans (ih hrows)

theorem queOnly_record {crec : Nat} {f : List Byte → List Byte} {r : Option Nat}
    (h : (if crec == 0 then some (s, none) else s.queUpdate x crec 16 needW f) = some (t, r)) : QueOnly s t := by
  split at h
  · cases h
    exact .refl s
  · exact queOnly_queUpdate h

theorem queOnly_writeCompletion {e : Started} {st : Nat} (h : s.writeCompletion x e = some (t, st)) : QueOnly s t := by
  unfold State.writeCompletion at h
  dsimp only at h
  split at h
  · cases h
  · next hrec =>
    cases h
    exact queOnly_record hrec
  · next hrec =>
    have hrec := queOnly_record hrec
    split at h
    · cases h
      exact hrec
    · split at h
      · cases h
      · next hsig =>
        cases h
        exact hrec.trans (queOnly_queUpdate hsig)
      · next hsig =>
        cases h
        exact hrec.trans (queOnly_queUpdate hsig)

theorem queOnly_freshRecord (s : State) (ctx : Nat) : QueOnly s (s.freshRecord ctx) := by
  unfold State.freshRecord
  split
  · exact .refl s
  · split
    · split
      · exact .refl s
      · next h => exact (State.readActive_keeps h).1.trans rfl
    · exact .refl s

/-- The state in which the context of a packet at the start point is active, where it can be. -/
def State.frontActivated (s : State) (q : Nat) : State :=
  if (s.queue q).st == 1 && (s.queue q).front.isSome then s.activate (s.queue q).ctx else s

theorem State.freshFront_eq (s : State) (q : Nat) : s.freshFront q = if ((s.frontActivated q).startable q).isSome then
    (s.frontActivated q).freshRecord ((s.frontActivated q).queue q).ctx else s.frontActivated q := rfl

theorem queOnly_frontActivated (s : State) (q : Nat) : QueOnly s (s.frontActivated q) := by
  unfold State.frontActivated
  split
  · exact queOnly_activate _
  · exact .refl s

theorem queOnly_freshFront (s : State) (q : Nat) : QueOnly s (s.freshFront q) := by
  rw [State.freshFront_eq]
  split
  · exact (queOnly_frontActivated s q).trans (queOnly_freshRecord _ _)
  · exact queOnly_frontActivated s q

end

/-! ### The start point -/

section
variable {s : State} {q : Nat} {p : Packet}

/-- What stands at the start point of a queue that may start it. -/
theorem State.startable_running (h : s.startable q = some p) :
    (s.queue q).st = 1 ∧ (Map.find? s.ctxs (s.queue q).ctx).isSome := by
  unfold State.startable at h
  dsimp only at h
  split at h
  · cases h
  · next hrun =>
    split at h
    · cases h
    · split at h
      · cases h
      · next hctx =>
        simp only [Bool.or_eq_true, bne_iff_ne, ne_eq, not_or, not_not] at hrun hctx
        exact ⟨hrun.1.1.1, Option.isSome_iff_ne_none.mpr (by simpa using hctx.2)⟩

/-- A packet at the start point that nothing stops. -/
theorem State.frontOf_spec {ty : Nat} (h : s.frontOf q ty = some p) :
    s.startable q = some p ∧ p.type = ty ∧ s.pktStop (s.queue q) p = none := by
  unfold State.frontOf at h
  split at h
  · next hst =>
    split at h
    · next hp =>
      cases h
      simp only [Bool.and_eq_true, beq_iff_eq, Option.isNone_iff_eq_none] at hp
      exact ⟨hst, hp.1.2, hp.2⟩
    · cases h
  · cases h

/-- `t` holds the queues of `s`, but that queue q may carry another tag and another mark of its barrier. -/
structure SameQueues (s t : State) (q : Nat) : Prop where
  started : (t.queue q).started = (s.queue q).started
  fetched : (t.queue q).fetched = (s.queue q).fetched
  same : (t.queue q).cmpl = (s.queue q).cmpl ∧ (t.queue q).st = (s.queue q).st ∧ (t.queue q).head = (s.queue q).head ∧
    (t.queue q).tail = (s.queue q).tail
  others : ∀ k, k ≠ q → t.queue k = s.queue k

theorem QueOnly.sameQueues {t : State} (h : QueOnly s t) (q : Nat) : SameQueues s t q := by
  refine ⟨?_, ?_, ?_, fun k _ => h.queue k⟩
  · rw [h.queue]
  · rw [h.queue]
  · rw [h.queue]
    exact ⟨rfl, rfl, rfl, rfl⟩

theorem SameQueues.trans {t u : State} (h : SameQueues s t q) (k : SameQueues t u q) : SameQueues s u q := by
  obtain ⟨hc, hst, hh, ht⟩ := h.same
  obtain ⟨kc, kst, kh, kt⟩ := k.same
  exact ⟨k.started.trans h.started, k.fetched.trans h.fetched, ⟨kc.trans hc, kst.trans hst, kh.trans hh, kt.trans ht⟩,
    fun j hj => (k.others j hj).trans (h.others j hj)⟩

theorem State.queue_activateFront (s : State) (q : Nat) : SameQueues s (s.activateFront q) q := by
  rcases s.queues_activateFront q with h | h
  · have hq := State.queue_congr h
    exact ⟨by rw [hq], by rw [hq], by rw [hq]; exact ⟨rfl, rfl, rfl, rfl⟩, fun k _ => hq k⟩
  · have hq := State.queue_congr h
    have hothers : ∀ k, k ≠ q → (s.activateFront q).queue k = s.queue k := fun k hk =>
      (hq k).trans (s.queue_modQueue_other _ hk)
    cases hl : Map.find? s.queues q with
    | some x =>
      have hsame := s.queue_modQueue_of_listed (f := fun y => { y with since := s.weirCtr.toNat }) (q := q) (by rw [hl]; rfl)
      exact ⟨by rw [hq, hsame], by rw [hq, hsame], by rw [hq, hsame]; exact ⟨rfl, rfl, rfl, rfl⟩, hothers⟩
    | none =>
      have hsame : (s.modQueue q (fun y => { y with since := s.weirCtr.toNat })).queue q = s.queue q := by
        show Map.getD (Map.modify s.queues q _) q _ = Map.getD s.queues q _
        unfold Map.getD
        rw [Map.find?_modify, if_pos rfl, hl]
        rfl
      exact ⟨by rw [hq, hsame], by rw [hq, hsame], by rw [hq, hsame]; exact ⟨rfl, rfl, rfl, rfl⟩, hothers⟩

/-- A packet starts in a state that has kept the queues. -/
theorem State.startFront_starts {t : State} (h : SameQueues s t q) (hst : (s.queue q).st ≠ 0) (e : Started) :
    Starts s (t.startFront q e) q e := by
  have hlist : (t.queue q).st ≠ 0 := by
    rw [h.same.2.1]
    exact hst
  obtain ⟨u, hu⟩ : ∃ u : State, u = t.modQueue q (fun x => { x with
      fetched := x.fetched.drop 1, started := x.started ++ [e], barAdded := false }) := ⟨_, rfl⟩
  have hqueue : u.queue q = { t.queue q with
      fetched := (t.queue q).fetched.drop 1, started := (t.queue q).started ++ [e], barAdded := false } := by
    rw [hu, State.queue_modQueue_same _ hlist]
  have hfront := u.queue_activateFront q
  obtain ⟨hc, hs, hh, ht⟩ := h.same
  obtain ⟨fc, fs, fh, ft⟩ := hfront.same
  have heq : t.startFront q e = u.activateFront q := by rw [hu]; rfl
  rw [heq]
  refine ⟨?_, ?_, ⟨?_, ?_, ?_, ?_⟩, fun k hk => ?_⟩
  · rw [hfront.started, hqueue, ← h.started]
  · rw [hfront.fetched, hqueue, ← h.fetched]
  · rw [fc, hqueue, ← hc]
  · rw [fs, hqueue, ← hs]
  · rw [fh, hqueue, ← hh]
  · rw [ft, hqueue, ← ht]
  · rw [hfront.others k hk, hu, State.queue_modQueue_other _ _ hk, h.others k hk]

theorem State.tag_activateFront (s : State) (q : Nat) : ((s.activateFront q).queue q).phase = (s.queue q).phase ∧
    ((s.activateFront q).queue q).last = (s.queue q).last := by
  rcases s.queues_activateFront q with h | h
  · rw [State.queue_congr h]
    exact ⟨rfl, rfl⟩
  · rw [State.queue_congr h, State.queue, State.queue]
    unfold State.modQueue Map.getD
    rw [Map.find?_modify, if_pos rfl]
    cases Map.find? s.queues q with
    | none => exact ⟨rfl, rfl⟩
    | some x => exact ⟨rfl, rfl⟩

/-- A packet that starts leaves the tag and the last status of its queue. -/
theorem State.tag_startFront (hst : (s.queue q).st ≠ 0) (e : Started) :
    ((s.startFront q e).queue q).phase = (s.queue q).phase ∧ ((s.startFront q e).queue q).last = (s.queue q).last := by
  unfold State.startFront
  obtain ⟨hphase, hlast⟩ := State.tag_activateFront (s.modQueue q (fun x => { x with
    fetched := x.fetched.drop 1, started := x.started ++ [e], barAdded := false })) q
  rw [hphase, hlast, State.queue_modQueue_same _ hst]
  exact ⟨rfl, rfl⟩

/-- A packet of a queue that is ready starts in a state that its reads lead to. -/
theorem State.startFront_of_front {t : State} {ty : Nat} (hf : (s.freshFront q).frontOf q ty = some p) (h : QueOnly (s.freshFront q) t)
    (e : Started) : Starts s (t.startFront q e) q e := by
  have hfresh := queOnly_freshFront s q
  have hrun := (State.startable_running (State.frontOf_spec hf).1).1
  rw [hfresh.queue] at hrun
  exact State.startFront_starts ((hfresh.trans h).sameQueues q) (by rw [hrun]; decide) e

end

/-! ### DMA packets -/

section
variable {s t : State} {ctx : Nat}

theorem QueOnly.nextId (h : QueOnly s t) : t.nextId = s.nextId := by rw [h]

theorem XlatPosts.dma (h : XlatPosts s t) : t.dma = s.dma := by rw [h]
theorem WritesOnly.dma (h : WritesOnly s t) : t.dma = s.dma := by rw [h]

theorem State.dma_noteRecord (s : State) (ctx : Nat) : (s.noteRecord ctx).dma = s.dma := by
  unfold State.noteRecord
  split
  · rfl
  · exact (writesOnly_noteIpa s _ _ _ _).dma

theorem State.readRecord_reread {a : ActiveCtx} (h : s.readRecord ctx = .ok a) : a.reread = false := by
  unfold State.readRecord at h
  dsimp only at h
  split at h
  · cases h
    rfl
  · obtain ⟨x, -, h⟩ := exists_of_bind_eq_ok h
    cases h
    split <;> rfl

/-- A record that is read without poison fails no context: the DMA commands stay. -/
theorem State.readActive_clean {a : ActiveCtx} (h : s.readActive ctx = some (t, a)) :
    a.reread = false ∧ (a.poison = false → t.dma = s.dma) := by
  unfold State.readActive at h
  dsimp only at h
  split at h
  · next hrec =>
    cases h
    refine ⟨State.readRecord_reread hrec, fun hp => ?_⟩
    rw [if_neg (by rw [hp]; decide)]
    exact s.dma_noteRecord ctx
  · split at h
    · cases h
    · cases h
      refine ⟨rfl, fun hp => ?_⟩
      rw [if_neg (by simpa using hp)]
      exact (xlatPosts_weirFault s _ _ _ _).dma

/-- A context that becomes active with a clean record loses no DMA command, and its record is not read again. -/
theorem State.activate_clean (s : State) (ctx : Nat) : s.activate ctx = s ∨ ∃ a, Map.find? (s.activate ctx).ctxs ctx = some a ∧
    a.reread = false ∧ (a.poison = false → (s.activate ctx).dma = s.dma) := by
  unfold State.activate
  split
  · exact .inl rfl
  · split
    · exact .inl rfl
    · next h =>
      obtain ⟨hr, hd⟩ := State.readActive_clean h
      exact .inr ⟨_, Map.find?_put_same _ _ _, hr, hd⟩

theorem State.freshRecord_of_read (h : ∀ a, Map.find? s.ctxs ctx = some a → a.reread = false) : s.freshRecord ctx = s := by
  unfold State.freshRecord
  split
  · rfl
  · next a ha => exact if_neg (by rw [h a ha]; decide)

theorem State.freshRecord_clean (s : State) (ctx : Nat) : s.freshRecord ctx = s ∨
    ∃ a, Map.find? (s.freshRecord ctx).ctxs ctx = some a ∧ (a.poison = false → (s.freshRecord ctx).dma = s.dma) := by
  unfold State.freshRecord
  split
  · exact .inl rfl
  · split
    · split
      · exact .inl rfl
      · next h => exact .inr ⟨_, Map.find?_put_same _ _ _, (State.readActive_clean h).2⟩
    · exact .inl rfl

/-- Before a packet of a context without poison is judged, no DMA command is lost (R251, R353). -/
theorem State.dma_freshFront {q : Nat} {a : ActiveCtx} (ha : Map.find? (s.freshFront q).ctxs (s.queue q).ctx = some a)
    (hp : a.poison = false) : (s.freshFront q).dma = s.dma := by
  have hctx : ((s.frontActivated q).queue q).ctx = (s.queue q).ctx := by rw [(queOnly_frontActivated s q).queue]
  have hactive : s.frontActivated q = s ∨ ∃ b, Map.find? (s.frontActivated q).ctxs (s.queue q).ctx = some b ∧ b.reread = false ∧
      (b.poison = false → (s.frontActivated q).dma = s.dma) := by
    unfold State.frontActivated
    split
    · exact s.activate_clean _
    · exact .inl rfl
  have hfresh : s.freshFront q = s.frontActivated q ∨ s.freshFront q = (s.frontActivated q).freshRecord (s.queue q).ctx := by
    rw [State.freshFront_eq, hctx]
    split
    · exact .inr rfl
    · exact .inl rfl
  rcases hactive with hs | ⟨b, hb, hread, hdma⟩
  · rw [hs] at hfresh
    rcases hfresh with h | h
    · rw [h]
    · rcases s.freshRecord_clean (s.queue q).ctx with hsame | ⟨c, hc, hdma⟩
      · rw [h, hsame]
      · rw [h] at ha ⊢
        rw [ha] at hc
        cases hc
        exact hdma hp
  · have hsame : s.freshFront q = s.frontActivated q := by
      rcases hfresh with h | h
      · exact h
      · rw [h]
        exact State.freshRecord_of_read fun c hc => by
          rw [hb] at hc
          cases hc
          exact hread
    rw [hsame] at ha ⊢
    rw [hb] at ha
    cases ha
    exact hdma hp

/-- The context of a packet that launches or moves data, and that nothing stops, is active without poison. -/
theorem State.ctx_of_pktStop {x : Queue} {p : Packet} (hty : p.type = 4) (h : s.pktStop x p = none)
    (hctx : (Map.find? s.ctxs x.ctx).isSome) : ∃ a, Map.find? s.ctxs x.ctx = some a ∧ a.poison = false := by
  obtain ⟨a, ha⟩ := Option.isSome_iff_exists.mp hctx
  refine ⟨a, ha, ?_⟩
  have hstop : s.ctxStop x.ctx = none := by
    unfold State.pktStop at h
    split at h
    · cases h
    · split at h
      · cases h
      · rw [if_pos (by simp [hty])] at h
        split at h
        · cases h
        · next hst => exact hst
  unfold State.ctxStop at hstop
  rw [ha] at hstop
  dsimp only at hstop
  split at hstop
  · cases hstop
  · next hp => simpa using hp

theorem State.activate_of_active (h : (Map.find? s.ctxs ctx).isSome) : s.activate ctx = s := by
  unfold State.activate
  rw [h]
  rfl

theorem State.activateFront_of_active {q : Nat} (h : (Map.find? s.ctxs (s.queue q).ctx).isSome) : (s.activateFront q).dma = s.dma := by
  unfold State.activateFront
  dsimp only
  split
  · exact (congrArg State.dma (State.activate_of_active (s := s.modQueue q _) h)).trans rfl
  · rfl

end

/-- The command of a DMA packet (R263). -/
def packetCmd (id core q : Nat) (x : Queue) (p : Packet) : DmaCmd :=
  ⟨id, ⟨none, x.ctx, x.owner, core, 0, 0, 0, 0, 0, q, p.seq⟩, true, 0, p.f 2 18 16, none, true, p.addr, none, 0, [], [], 0, none, none,
    false, none, none, none, none, [], []⟩

section
variable {s : State} {q : Nat} {p : Packet}

theorem exec_dmaPacket {core : Nat} (hf : (s.freshFront q).frontOf q 4 = some p)
    (hc : (s.freshFront q).dmaCore (s.queue q).owner (p.f 2 10 0) = some core) (hw : (s.freshFront q).awake (coreBasin core) = true) :
    exec (.dmaPacket q) s = .next (State.startFront { s.freshFront q with
      nextId := (s.freshFront q).nextId + 1
      dma := (s.freshFront q).dma ++ [packetCmd (s.freshFront q).nextId core q (s.queue q) p] } q
        { p.done 0 with live := [(s.freshFront q).nextId] }) := by
  have hq := (queOnly_freshFront s q).queue q
  show execDmaPacket q s = _
  unfold execDmaPacket
  dsimp only
  rw [hf]
  dsimp only
  rw [hq, hc]
  dsimp only
  rw [if_neg (by rw [hw]; decide)]
  rfl

/-- An engine accepts the command of a DMA packet (R263). -/
theorem exec_dmaPacket_spec {core : Nat} (hf : (s.freshFront q).frontOf q 4 = some p)
    (hc : (s.freshFront q).dmaCore (s.queue q).owner (p.f 2 10 0) = some core) (hw : (s.freshFront q).awake (coreBasin core) = true) :
    ∃ u : State, exec (.dmaPacket q) s = .next u ∧ u.dma = s.dma ++ [packetCmd s.nextId core q (s.queue q) p] ∧
      Starts s u q { p.done 0 with live := [s.nextId] } := by
  have hfresh := queOnly_freshFront s q
  obtain ⟨hst, hty, hstop⟩ := State.frontOf_spec hf
  obtain ⟨hrun, hctx⟩ := State.startable_running hst
  obtain ⟨a, ha, hp⟩ := State.ctx_of_pktStop hty hstop hctx
  rw [hfresh.queue] at ha hrun hctx
  have hdma := State.dma_freshFront ha hp
  refine ⟨_, exec_dmaPacket hf hc hw, ?_, ?_⟩
  · obtain ⟨u, hu⟩ : ∃ u : State, u = State.modQueue { s.freshFront q with
        nextId := (s.freshFront q).nextId + 1
        dma := (s.freshFront q).dma ++ [packetCmd (s.freshFront q).nextId core q (s.queue q) p] } q (fun x => { x with
          fetched := x.fetched.drop 1
          started := x.started ++ [{ p.done 0 with live := [(s.freshFront q).nextId] }]
          barAdded := false }) := ⟨_, rfl⟩
    have hqueue : (u.queue q).ctx = (s.queue q).ctx := by
      rw [hu, State.queue_modQueue_same _ (by
        show ((s.freshFront q).queue q).st ≠ 0
        rw [hfresh.queue, hrun]
        decide)]
      show ((s.freshFront q).queue q).ctx = _
      rw [hfresh.queue]
    show (State.activateFront _ q).dma = _
    rw [show (State.modQueue _ q _) = u from hu.symm, State.activateFront_of_active]
    · rw [hu]
      show (s.freshFront q).dma ++ [packetCmd (s.freshFront q).nextId core q (s.queue q) p] = _
      rw [hdma, hfresh.nextId]
    · rw [hqueue, hu]
      exact hctx
  · have hsame : SameQueues s { s.freshFront q with
        nextId := (s.freshFront q).nextId + 1
        dma := (s.freshFront q).dma ++ [packetCmd (s.freshFront q).nextId core q (s.queue q) p] } q :=
      ⟨(hfresh.sameQueues q).started, (hfresh.sameQueues q).fetched, (hfresh.sameQueues q).same, (hfresh.sameQueues q).others⟩
    rw [show [s.nextId] = [(s.freshFront q).nextId] by rw [hfresh.nextId]]
    exact State.startFront_starts hsame (by rw [hrun]; decide) _

end

/-! ### Packets that read or change a word -/

section
variable {s : State} {q : Nat} {p : Packet}

/-- A conditional launch starts with what its counter held (R144). -/
def State.startCond (t : State) (q : Nat) (p : Packet) : Except Nat Nat → State
  | .error st => t.startFront q (p.done st)
  | .ok v => if v == 0 then t.startFront q (p.done 1) else t.startFront q { p.done 0 with toPlace := [0] }

/-- A fanout starts with the experts that have rows (R145). -/
def State.startFanout (t : State) (q : Nat) (p : Packet) : Except Nat (List Nat) → State
  | .error st => t.startFront q (p.done st)
  | .ok [] => t.startFront q (p.done 1)
  | .ok l => t.startFront q { p.done 0 with toPlace := l }

theorem exec_condLaunch {t : State} {r : Except Nat Nat} (hf : (s.freshFront q).frontOf q 2 = some p)
    (hr : (s.freshFront q).queRead (s.queue q) (p.f 6 47 0) = some (t, r)) :
    exec (.condLaunch q) s = .next (t.startCond q p r) := by
  show execCondLaunch q s = _
  unfold execCondLaunch
  dsimp only
  rw [hf]
  dsimp only
  rw [(queOnly_freshFront s q).queue, hr]
  cases r <;> rfl

theorem exec_fanout {t : State} {r : Except Nat (List Nat)} (hf : (s.freshFront q).frontOf q 3 = some p)
    (hr : (s.freshFront q).fanoutRows (s.queue q) p (List.range (p.f 7 25 16 + 1)) = some (t, r)) :
    exec (.fanout q) s = .next (t.startFanout q p r) := by
  show execFanout q s = _
  unfold execFanout
  dsimp only
  rw [hf]
  dsimp only
  rw [(queOnly_freshFront s q).queue, hr]
  rcases r with st | l
  · rfl
  · cases l <;> rfl

theorem exec_waitPacket {t : State} {v : Nat} (hf : s.frontOf q 6 = some p) (hr : s.queRead (s.queue q) p.addr = some (t, .ok v)) :
    exec (.waitPacket q) s = if condInt 64 (p.f 6 3 0) v (p.words.getD 2 0).toNat then .next (t.startFront q (p.done 0)) else .next t := by
  show execWaitPacket q s = _
  unfold execWaitPacket
  rw [hf]
  dsimp only
  rw [hr]

theorem exec_waitTimeout (hf : s.frontOf q 6 = some p) (h : p.f 6 63 32 ≠ 0) :
    exec (.waitTimeout q) s = .next (s.startFront q (p.done 6)) := by
  show execWaitTimeout q s = _
  unfold execWaitTimeout
  rw [hf]
  exact if_neg (by simpa using h)

theorem exec_phasePacket (hf : s.frontOf q 7 = some p) :
    exec (.phasePacket q) s = .next ((s.modQueue q (fun x => { x with phase := p.f 1 5 0 })).startFront q (p.done 0)) := by
  show execPhasePacket q s = _
  unfold execPhasePacket
  rw [hf]

/-- SIGNAL performs its OP on the word (R262). -/
theorem exec_signalPacket {t u : State} {ls : List Loc} {dpas : List Nat} (hf : s.frontOf q 5 = some p)
    (hs : (s.queue q).started = []) (hacc : s.queAccess (s.queue q) p.addr 8 (if p.f 0 17 16 = 0 then needWA else needW) = .ok t ls dpas)
    (hhome : t.homeWrite dpas = some u) (hclean : p.f 0 17 16 = 0 → (u.readLocs 0 ls).2 = false) :
    exec (.signalPacket q) s = .next ((u.writeLocs 0 ls (if p.f 0 17 16 = 0 then
      addWord (p.words.getD 2 0).toNat (u.readLocs 0 ls).1 else leBytes (p.words.getD 2 0).toNat 8)).startFront q (p.done 0)) := by
  show execSignalPacket q s = _
  unfold execSignalPacket
  rw [hf]
  dsimp only
  rw [if_neg (by simp [hs])]
  unfold State.queUpdate
  by_cases hadd : p.f 0 17 16 = 0
  · rw [if_pos hadd] at hacc
    simp only [hadd, beq_self_eq_true, if_true]
    rw [hacc]
    dsimp only
    rw [hhome]
    dsimp only
    rw [if_neg (by rw [hclean hadd]; decide)]
    rfl
  · rw [if_neg hadd] at hacc
    simp only [hadd, beq_iff_eq, if_false]
    rw [hacc]
    dsimp only
    rw [hhome]
    dsimp only
    rw [if_neg (by simp [needW])]
    rfl

/-- BARRIER, once its addition is made, reads its word. -/
theorem exec_barrierPacket {t u : State} {v : Nat} (hf : s.frontOf q 8 = some p) (hs : (s.queue q).started = [])
    (ht : ((s.queue q).barAdded = true ∧ t = s) ∨
      ((s.queue q).barAdded = false ∧ s.queUpdate (s.queue q) p.addr 8 needWA (addWord 1) = some (t, none)))
    (hr : (t.modQueue q (fun y => { y with barAdded := true })).queRead (s.queue q) p.addr = some (u, .ok v)) :
    exec (.barrierPacket q) s = .next (if v ≥ (p.words.getD 2 0).toNat then u.startFront q (p.done 0) else u) := by
  have hadded : (if (s.queue q).barAdded then some (s, none) else s.queUpdate (s.queue q) p.addr 8 needWA (addWord 1)) =
      some (t, none) := by
    rcases ht with ⟨hb, rfl⟩ | ⟨hb, hu⟩
    · exact if_pos hb
    · exact (if_neg (by rw [hb]; decide)).trans hu
  show execBarrierPacket q s = _
  unfold execBarrierPacket
  rw [hf]
  dsimp only
  rw [if_neg (by simp [hs]), hadded]
  dsimp only
  rw [hr]

theorem queOnly_added {t : State} {x : Queue} (ht : (x.barAdded = true ∧ t = s) ∨
    (x.barAdded = false ∧ s.queUpdate x p.addr 8 needWA (addWord 1) = some (t, none))) : QueOnly s t := by
  rcases ht with ⟨-, rfl⟩ | ⟨-, hu⟩
  · exact .refl t
  · exact queOnly_queUpdate hu

theorem State.modQueue_same {f : Queue → Queue} (hst : (s.queue q).st ≠ 0) (hf : ∀ x, (f x).started = x.started ∧
    (f x).fetched = x.fetched ∧ (f x).cmpl = x.cmpl ∧ (f x).st = x.st ∧ (f x).head = x.head ∧ (f x).tail = x.tail) :
    SameQueues s (s.modQueue q f) q := by
  obtain ⟨hs, hfe, hc, hst', hh, ht⟩ := hf (s.queue q)
  have hqueue := s.queue_modQueue_same (f := f) hst
  exact ⟨by rw [hqueue, hs], by rw [hqueue, hfe], by rw [hqueue]; exact ⟨hc, hst', hh, ht⟩,
    fun k hk => s.queue_modQueue_other f hk⟩

end

/-! ### The memory of a signal -/

section
variable {s t : State}

theorem State.heap_noteRecord (s : State) (ctx : Nat) : (s.noteRecord ctx).heap = s.heap := by
  unfold State.noteRecord
  split
  · rfl
  · unfold State.noteIpa
    split
    · exact (logsOnly_noteMet s _ _).heap
    · rfl

theorem EndsOnly.heap (h : EndsOnly s t) : t.heap = s.heap := by rw [h]
theorem XlatPosts.heap (h : XlatPosts s t) : t.heap = s.heap := by rw [h]

theorem State.heap_readActive {ctx : Nat} {a : ActiveCtx} (h : s.readActive ctx = some (t, a)) : t.heap = s.heap := by
  unfold State.readActive at h
  dsimp only at h
  split at h
  · cases h
    split
    · exact ((endsOnly_failCtx _ _).heap.trans (logsOnly_ras _ _).heap).trans (s.heap_noteRecord ctx)
    · exact s.heap_noteRecord ctx
  · split at h
    · cases h
    · cases h
      split
      · exact (endsOnly_failCtx _ _).heap.trans (xlatPosts_weirFault s _ _ _ _).heap
      · exact (xlatPosts_weirFault s _ _ _ _).heap

theorem State.heap_activate (s : State) (ctx : Nat) : (s.activate ctx).heap = s.heap := by
  unfold State.activate
  split
  · rfl
  · split
    · rfl
    · next h =>
      have heap := State.heap_readActive h
      exact heap

theorem State.heap_startFront (s : State) (q : Nat) (e : Started) : (s.startFront q e).heap = s.heap := by
  unfold State.startFront State.activateFront
  dsimp only
  split
  · exact State.heap_activate _ _
  · rfl

end

section
variable {s : State} {q : Nat} {p : Packet}

theorem exec_phasePacket_spec (hf : s.frontOf q 7 = some p) : ∃ u : State, exec (.phasePacket q) s = .next u ∧
    Starts s u q (p.done 0) ∧ (u.queue q).phase = p.f 1 5 0 := by
  have hst : (s.queue q).st ≠ 0 := by
    rw [(State.startable_running (State.frontOf_spec hf).1).1]
    decide
  have hexec := exec_phasePacket hf
  have hqueue := s.queue_modQueue_same (f := fun x => { x with phase := p.f 1 5 0 }) hst
  have hsame := State.modQueue_same (f := fun x => { x with phase := p.f 1 5 0 }) hst fun x => ⟨rfl, rfl, rfl, rfl, rfl, rfl⟩
  generalize s.modQueue q (fun x => { x with phase := p.f 1 5 0 }) = t at hexec hqueue hsame
  refine ⟨_, hexec, State.startFront_starts hsame hst _, ?_⟩
  rw [(State.tag_startFront (by rw [hqueue]; exact hst) _).1, hqueue]

/-- SIGNAL starts, and its word holds what OP gives where its channel can be written. -/
theorem exec_signalPacket_spec {t u : State} {ls : List Loc} {dpas : List Nat} (hf : s.frontOf q 5 = some p)
    (hs : (s.queue q).started = []) (hacc : s.queAccess (s.queue q) p.addr 8 (if p.f 0 17 16 = 0 then needWA else needW) = .ok t ls dpas)
    (hhome : t.homeWrite dpas = some u) (hclean : p.f 0 17 16 = 0 → (u.readLocs 0 ls).2 = false) :
    ∃ w : State, exec (.signalPacket q) s = .next w ∧ Starts s w q (p.done 0) ∧ ∀ k, w.heap.read k =
      if u.failing k then u.heap.read k
      else (lastByte ls (if p.f 0 17 16 = 0 then addWord (p.words.getD 2 0).toNat (u.readLocs 0 ls).1
        else leBytes (p.words.getD 2 0).toNat 8) (.heap k)).getD (u.heap.read k) := by
  have hkeep : QueOnly s u := (queOnly_queAccess hacc).trans (.of_caches (cachesOnly_homeWrite hhome))
  have hrun := (State.startable_running (State.frontOf_spec hf).1).1
  refine ⟨_, exec_signalPacket hf hs hacc hhome hclean, State.startFront_starts
    ((hkeep.trans (.of_writes (writesOnly_writeLocs _ _ _ _))).sameQueues q) (by rw [hrun]; decide) _, fun k => ?_⟩
  rw [State.heap_startFront]
  exact (wrote_writeLocs u 0 ls _).heap k

end

/-! ### Completion -/

section
variable {s : State} {q : Nat} {e : Started} {st : Nat}

/-- A queue that a packet leaves. -/
def Queue.retired (x : Queue) (e : Started) (st : Nat) : Queue := { x with
  started := x.started.filter (fun y => y.pkt.seq != e.pkt.seq)
  cmpl := x.cmpl + 1
  last := if st > 1 then st else x.last
  st := if st > 1 && x.st == 1 then 5 else x.st }

theorem queOnly_charge (s : State) : QueOnly s s.charge := rfl

theorem State.queues_retire : (s.retire q e st).queues = (s.modQueue q (fun x => x.retired e st)).queues := by
  obtain ⟨u, hu⟩ : ∃ u : State, u = s.modQueue q (fun x => x.retired e st) := ⟨_, rfl⟩
  have hint : QueOnly u (if st > 1 then u.queueInterrupt q (u.queue q) else u) := by
    split
    · unfold State.queueInterrupt
      split
      · exact .of_logs (logsOnly_fire _ _ _)
      · exact .of_logs (logsOnly_fire _ _ _)
    · exact .refl u
  have hpoison : ∀ v : State, QueOnly v (if st == 8 then
      { v with ctxs := Map.modify v.ctxs (u.queue q).ctx (fun a => { a with poison := false }) } else v) := fun v => by
    split
    · rfl
    · exact .refl v
  have hend : ∀ v : State, QueOnly v ((v.charge.writeBack (u.queue q).ctx).settleCtx (u.queue q).ctx) := fun v =>
    ((queOnly_charge v).trans (State.writeBack_keeps _ _).1).trans (State.settleCtx_keeps _ _).1
  rw [← hu]
  have heq := ((hint.trans (hpoison _)).trans (hend _)).queues
  rw [hu] at heq ⊢
  exact heq

theorem State.queue_retire (hl : (Map.find? s.queues q).isSome) : (s.retire q e st).queue q = (s.queue q).retired e st ∧
    ∀ k, k ≠ q → (s.retire q e st).queue k = s.queue k := by
  have h := State.queue_congr (s.queues_retire (q := q) (e := e) (st := st))
  exact ⟨(h q).trans (s.queue_modQueue_of_listed hl), fun k hk => (h k).trans (s.queue_modQueue_other _ hk)⟩

end

section
variable {s t : State} {q seq st : Nat} {e : Started} {p : Packet}

theorem exec_packetComplete_started (hfind : (s.queue q).started.find? (fun e => e.pkt.seq == seq) = some e) (hlive : e.live = [])
    (hplace : e.toPlace = []) (hw : (s.freshFront q).writeCompletion (s.queue q) e = some (t, st)) :
    exec (.packetComplete q seq) s = .next (t.retire q e st) := by
  have hq := (queOnly_freshFront s q).queue q
  show execPacketComplete q seq s = _
  unfold execPacketComplete
  dsimp only
  rw [hq, hfind]
  dsimp only
  rw [if_pos (by simp [hlive, hplace]), hw]

theorem exec_packetComplete_stopped {st' : Nat} (hfind : (s.queue q).started.find? (fun e => e.pkt.seq == seq) = none)
    (hst : (s.freshFront q).startable q = some p) (hstop : (s.freshFront q).pktStop (s.queue q) p = some st') (hseq : p.seq = seq)
    (hw : ((s.freshFront q).startFront q (p.done st')).writeCompletion (((s.freshFront q).startFront q (p.done st')).queue q)
      (p.done st') = some (t, st)) :
    exec (.packetComplete q seq) s = .next (t.retire q (p.done st') st) := by
  have hq := (queOnly_freshFront s q).queue q
  show execPacketComplete q seq s = _
  unfold execPacketComplete
  dsimp only
  rw [hq, hfind]
  dsimp only
  rw [hst]
  dsimp only
  rw [hstop]
  dsimp only
  rw [if_pos (by simp [hseq]), hw]

theorem State.writeCompletion_silent {x : Queue} (hc : e.pkt.crec = 0) (hs : e.pkt.sig = 0)
    (h : s.writeCompletion x e = some (t, st)) : st = e.status := by
  unfold State.writeCompletion at h
  simp only [hc, hs, ite_self, beq_self_eq_true, if_true, Bool.or_true, Option.some.injEq, Prod.mk.injEq] at h
  exact h.2.symm

end

/-- What a queue that a packet leaves holds (R264). -/
def Completed (x y : Queue) (st : Nat) : Prop :=
  y.cmpl = x.cmpl + 1 ∧ y.st = (if 1 < st ∧ x.st = 1 then 5 else x.st) ∧ y.last = (if 1 < st then st else x.last)

theorem Queue.retired_completed (x : Queue) (e : Started) (st : Nat) : Completed x (x.retired e st) st := by
  refine ⟨rfl, ?_, rfl⟩
  show (if (decide (st > 1) && x.st == 1) = true then 5 else x.st) = _
  exact if_congr (by simp) rfl rfl

section
variable {s t : State} {q seq st : Nat} {e : Started} {p : Packet}

theorem exec_packetComplete_started_spec (hfind : (s.queue q).started.find? (fun e => e.pkt.seq == seq) = some e) (hlive : e.live = [])
    (hplace : e.toPlace = []) (hw : (s.freshFront q).writeCompletion (s.queue q) e = some (t, st)) :
    ∃ u : State, exec (.packetComplete q seq) s = .next u ∧ Completed (s.queue q) (u.queue q) st ∧ (∀ k, k ≠ q → u.queue k = s.queue k) ∧
      (u.queue q).started = (s.queue q).started.filter (fun y => y.pkt.seq != seq) := by
  have hkeep : QueOnly s t := (queOnly_freshFront s q).trans (queOnly_writeCompletion hw)
  have hseq : e.pkt.seq = seq := by simpa using List.find?_some hfind
  have hlist : (Map.find? t.queues q).isSome := by
    rw [hkeep.queues]
    exact s.listed_of_busy (.inr (List.ne_nil_of_mem (List.mem_of_find?_eq_some hfind)))
  obtain ⟨hqueue, hothers⟩ := State.queue_retire (e := e) (st := st) hlist
  refine ⟨_, exec_packetComplete_started hfind hlive hplace hw, ?_, fun k hk => (hothers k hk).trans (hkeep.queue k), ?_⟩
  · rw [hqueue, hkeep.queue]
    exact Queue.retired_completed _ _ _
  · rw [hqueue, hkeep.queue, ← hseq]
    rfl

theorem exec_packetComplete_stopped_spec {st' : Nat} (hfind : (s.queue q).started.find? (fun e => e.pkt.seq == seq) = none)
    (hst : (s.freshFront q).startable q = some p) (hstop : (s.freshFront q).pktStop (s.queue q) p = some st') (hseq : p.seq = seq)
    (hw : ((s.freshFront q).startFront q (p.done st')).writeCompletion (((s.freshFront q).startFront q (p.done st')).queue q)
      (p.done st') = some (t, st)) :
    ∃ u : State, exec (.packetComplete q seq) s = .next u ∧ Completed (s.queue q) (u.queue q) st ∧ (∀ k, k ≠ q → u.queue k = s.queue k) ∧
      (u.queue q).fetched = (s.queue q).fetched.drop 1 := by
  have hfresh := queOnly_freshFront s q
  have hrun := (State.startable_running hst).1
  have hlast := (State.tag_startFront (s := s.freshFront q) (q := q) (by rw [hrun]; decide) (p.done st')).2
  rw [hfresh.queue] at hrun hlast
  have hstarts := State.startFront_starts (hfresh.sameQueues q) (by rw [hrun]; decide) (p.done st')
  have hexec := exec_packetComplete_stopped hfind hst hstop hseq hw
  generalize (s.freshFront q).startFront q (p.done st') = v at hw hlast hstarts
  have hkeep := queOnly_writeCompletion hw
  obtain ⟨hcmpl, hstq, -, -⟩ := hstarts.same
  have hlist : (Map.find? t.queues q).isSome := t.listed_of_busy (.inl (by rw [hkeep.queue, hstq, hrun]; decide))
  obtain ⟨hqueue, hothers⟩ := State.queue_retire (e := p.done st') (st := st) hlist
  refine ⟨_, hexec, ?_, fun k hk => ?_, ?_⟩
  · rw [hqueue, hkeep.queue]
    have h := (v.queue q).retired_completed (p.done st') st
    rwa [Completed, hcmpl, hstq, hlast] at h
  · rw [hothers k hk, hkeep.queue, hstarts.others k hk]
  · rw [hqueue, hkeep.queue, ← hstarts.fetched]
    rfl

end

/-- Settles O33: the accesses of the queue manager keep the queues, so that what starts and completes is what stood there. -/
theorem packetsComplete : Obligations.packets_complete := by
  unfold Obligations.packets_complete
  refine ⟨fun s q p => ⟨fun hf => ⟨fun t st hr => ?_, fun t hr => ?_, fun t n hn hr => ?_⟩, fun hf => ⟨fun t st hr => ?_, fun t hr => ?_,
    fun t l hl hr => ?_⟩, fun core hf hc hw => ?_, fun hf hs t ls dpas u hacc hlive hhome hclean => ?_, fun hf => ⟨fun t v hr =>
      ⟨fun hcond => ?_, fun hcond => ?_⟩, fun hto => ?_⟩, fun hf => ?_, fun hf hs t ht u v hr => ⟨fun hv => ?_, fun hv => ?_⟩⟩,
    fun s q seq => ⟨fun e t st hfind hlive hplace hw => ?_, fun p st t st' hfind hst hstop hseq hw => ?_⟩⟩
  · exact ⟨_, exec_condLaunch hf hr, State.startFront_of_front hf (queOnly_queRead hr) _⟩
  · exact ⟨_, exec_condLaunch hf hr, State.startFront_of_front hf (queOnly_queRead hr) _⟩
  · exact ⟨_, (exec_condLaunch hf hr).trans (congrArg Host.Outcome.next (if_neg (by simpa using hn))),
      State.startFront_of_front hf (queOnly_queRead hr) _⟩
  · exact ⟨_, exec_fanout hf hr, State.startFront_of_front hf (queOnly_fanoutRows hr) _⟩
  · exact ⟨_, exec_fanout hf hr, State.startFront_of_front hf (queOnly_fanoutRows hr) _⟩
  · refine ⟨_, (exec_fanout hf hr).trans ?_, State.startFront_of_front hf (queOnly_fanoutRows hr) _⟩
    cases l with
    | nil => exact absurd rfl hl
    | cons i l => rfl
  · obtain ⟨u, hexec, hdma, hstarts⟩ := exec_dmaPacket_spec hf hc hw
    exact ⟨u, packetCmd s.nextId core q (s.queue q) p, hexec, hdma, rfl, rfl, rfl, rfl, rfl, rfl, hstarts⟩
  · exact exec_signalPacket_spec hf hs hacc hhome hclean
  · have hrun := (State.startable_running (State.frontOf_spec hf).1).1
    exact ⟨_, (exec_waitPacket hf hr).trans (if_pos hcond),
      State.startFront_starts ((queOnly_queRead hr).sameQueues q) (by rw [hrun]; decide) _⟩
  · exact (exec_waitPacket hf hr).trans (if_neg (by rw [hcond]; decide))
  · have hrun := (State.startable_running (State.frontOf_spec hf).1).1
    exact ⟨_, exec_waitTimeout hf hto, State.startFront_starts ((QueOnly.refl s).sameQueues q) (by rw [hrun]; decide) _⟩
  · exact exec_phasePacket_spec hf
  · have hrun := (State.startable_running (State.frontOf_spec hf).1).1
    have hadd := queOnly_added ht
    have hst : (t.queue q).st ≠ 0 := by rw [hadd.queue, hrun]; decide
    have hsame := ((hadd.sameQueues q).trans (State.modQueue_same (f := fun y => { y with barAdded := true }) hst
      fun x => ⟨rfl, rfl, rfl, rfl, rfl, rfl⟩)).trans ((queOnly_queRead hr).sameQueues q)
    exact ⟨_, (exec_barrierPacket hf hs ht hr).trans (congrArg Host.Outcome.next (if_pos hv)),
      State.startFront_starts hsame (by rw [hrun]; decide) _⟩
  · have hrun := (State.startable_running (State.frontOf_spec hf).1).1
    have hst : (t.queue q).st ≠ 0 := by rw [(queOnly_added ht).queue, hrun]; decide
    refine ⟨(exec_barrierPacket hf hs ht hr).trans (congrArg Host.Outcome.next (if_neg (Nat.not_le.mpr hv))), ?_⟩
    rw [(queOnly_queRead hr).queue, State.queue_modQueue_same _ hst]
  · obtain ⟨u, hexec, ⟨hcmpl, hstq, hlast⟩, hothers, hstarted⟩ := exec_packetComplete_started_spec hfind hlive hplace hw
    exact ⟨u, hexec, ⟨hcmpl, hstq, hlast, hothers⟩, hstarted, fun hc hs => State.writeCompletion_silent hc hs hw⟩
  · obtain ⟨u, hexec, ⟨hcmpl, hstq, hlast⟩, hothers, hfetched⟩ := exec_packetComplete_stopped_spec hfind hst hstop hseq hw
    exact ⟨u, hexec, ⟨hcmpl, hstq, hlast, hothers⟩, hfetched⟩

end Sys2Proof.Machine

/-! Proofs: the status of partitions, and what their state reads (R41, R266, R268, R269). -/

namespace Sys2Proof.Machine

/-! ### Status -/

/-- `t` holds the registers of `s` but CFG_PART_CTL and CFG_PART_STS of partition p. -/
def PartRegs (p : Nat) (s t : State) : Prop :=
  ∀ r : Reg, r.key ≠ Reg.key (.cfgPartCtl p) → r.key ≠ Reg.key (.cfgPartSts p) → t.reg r = s.reg r

theorem PartRegs.trans {p : Nat} {s t u : State} (h : PartRegs p s t) (k : PartRegs p t u) : PartRegs p s u :=
  fun r hc hs => (k r hc hs).trans (h r hc hs)

theorem PartRegs.refl (p : Nat) (s : State) : PartRegs p s s := fun _ _ _ => rfl

theorem partRegs_partToken (s : State) (p tok : Nat) : PartRegs p s (s.partToken p tok) := fun _ _ h => State.reg_setRf_of_ne s _ _ _ h

section
variable (s : State) (p : Nat)

theorem logsOnly_partStatus (st res why : Nat) : LogsOnly s (s.partStatus p st res why) := by
  unfold State.partStatus
  dsimp only
  have h := ((logsOnly_setRf s (.cfgPartSts p) 23 20 st).trans (logsOnly_setRf _ (.cfgPartSts p) 19 16 res)).trans
    (logsOnly_setRf _ (.cfgPartSts p) 15 12 why)
  split
  · exact h
  · exact h.trans (logsOnly_fire _ _ _)

/-- The registers that a new status leaves (Table 16-2). -/
theorem State.reg_partStatus (st res why : Nat) (r : Reg) : (s.partStatus p st res why).reg r =
    (((s.setRf (.cfgPartSts p) 23 20 st).setRf (.cfgPartSts p) 19 16 res).setRf (.cfgPartSts p) 15 12 why).reg r := by
  unfold State.partStatus
  dsimp only
  split
  · rfl
  · exact State.reg_congr (regs_fire _ _ _) r

theorem State.reg_partStatus_of_ne (st res why : Nat) {r : Reg} (h : r.key ≠ Reg.key (.cfgPartSts p)) :
    (s.partStatus p st res why).reg r = s.reg r := by
  rw [State.reg_partStatus, State.reg_setRf_of_ne _ _ _ _ h, State.reg_setRf_of_ne _ _ _ _ h, State.reg_setRf_of_ne _ _ _ _ h]

theorem partRegs_partStatus (st res why : Nat) : PartRegs p s (s.partStatus p st res why) := fun _ _ h =>
  State.reg_partStatus_of_ne s p st res why h

/-- STATE and RESULT after a new status. -/
theorem State.partStatus_spec {st res : Nat} (why : Nat) (hst : st < 16) (hres : res < 16) :
    (s.partStatus p st res why).partState p = st ∧ (s.partStatus p st res why).rf (.cfgPartSts p) 19 16 = res := by
  refine ⟨?_, ?_⟩
  · rw [State.partState, State.rf_congr (s.reg_partStatus p st res why _), State.rf_setRf_other _ _ _ (by decide) (by decide),
      State.rf_setRf_other _ _ _ (by decide) (by decide), State.rf_setRf_same _ _ _ (by decide)]
    exact Nat.mod_eq_of_lt hst
  · rw [State.rf_congr (s.reg_partStatus p st res why _), State.rf_setRf_other _ _ _ (by decide) (by decide),
      State.rf_setRf_same _ _ _ (by decide)]
    exact Nat.mod_eq_of_lt hres

/-- The count of squashed work stays. -/
theorem State.squashed_partStatus (st res why : Nat) :
    (s.partStatus p st res why).rf (.cfgPartSts p) 47 32 = s.rf (.cfgPartSts p) 47 32 := by
  rw [State.rf_congr (s.reg_partStatus p st res why _), State.rf_setRf_other _ _ _ (by decide) (by decide),
    State.rf_setRf_other _ _ _ (by decide) (by decide), State.rf_setRf_other _ _ _ (by decide) (by decide)]

theorem State.partState_lt : s.partState p < 16 := Nat.mod_lt _ (by decide)

/-- A RESULT leaves STATE as it is. -/
theorem State.partResult_spec {res : Nat} (why : Nat) (hres : res < 16) : (s.partResult p res why).partState p = s.partState p ∧
    (s.partResult p res why).rf (.cfgPartSts p) 19 16 = res :=
  s.partStatus_spec p why (s.partState_lt p) hres

theorem State.partState_partToken (tok : Nat) : (s.partToken p tok).partState p = s.partState p :=
  State.rf_setRf_other s _ _ (by decide) (by decide)

end

theorem State.partBusy_of_mem {s : State} {p : Nat} (h : s.partState p = 2 ∨ s.partState p = 3) : s.partBusy p = true := by
  unfold State.partBusy
  rcases h with h | h <;> simp [h]

theorem State.partBusy_of_not {s : State} {p : Nat} (h2 : s.partState p ≠ 2) (h3 : s.partState p ≠ 3) : s.partBusy p = false := by
  unfold State.partBusy
  simp [h2, h3]

/-! ### What the state of the partitions reads -/

/-- Tests that agree on a list's elements agree on the list. -/
theorem any_congr_mem {α : Type} {l : List α} {f g : α → Bool} (h : ∀ x ∈ l, f x = g x) : l.any f = l.any g := by
  induction l with
  | nil => rfl
  | cons x l ih => rw [List.any_cons, List.any_cons, h x List.mem_cons_self, ih fun y hy => h y (List.mem_cons_of_mem _ hy)]

theorem all_congr_mem {α : Type} {l : List α} {f g : α → Bool} (h : ∀ x ∈ l, f x = g x) : l.all f = l.all g := by
  induction l with
  | nil => rfl
  | cons x l ih => rw [List.all_cons, List.all_cons, h x List.mem_cons_self, ih fun y hy => h y (List.mem_cons_of_mem _ hy)]

theorem State.lt_of_mem_heapChans {s : State} {x c : Nat} (hx : x < 24) (h : c ∈ s.heapChans x) : c < 384 := by
  have := State.mem_heapChans h
  omega

theorem State.mem_logical {s : State} {c : Nat} (h : c ∈ s.logical) : c < 384 := by
  obtain ⟨x, hx, hc⟩ := List.mem_flatMap.mp h
  exact State.lt_of_mem_heapChans (List.mem_range.mp hx) ((s.heapLogical_sublist x).subset hc)

section
variable {p : Nat} {s t : State} (h : PartRegs p s t)
include h

theorem PartRegs.readyFn (i : Nat) : t.readyFn i = s.readyFn i := by
  unfold State.readyFn
  rw [h .glbReadyFn (by simp only [Reg.key]; omega) (by simp only [Reg.key]; omega)]

theorem PartRegs.kGran : t.kGran = s.kGran :=
  State.rf_congr (h .glbSharedSts (by simp only [Reg.key]; omega) (by simp only [Reg.key]; omega)) _ _

theorem PartRegs.deepSize : t.deepSize = s.deepSize := by rw [State.deepSize, h.kGran, State.deepSize]

theorem PartRegs.sharedSize : t.sharedSize = s.sharedSize := by
  unfold State.sharedSize
  rw [h.kGran, State.rf_congr (h .glbSharedSts (by simp only [Reg.key]; omega) (by simp only [Reg.key]; omega))]

theorem PartRegs.partOn {q : Nat} (hne : q ≠ p) : t.partOn q = s.partOn q := by
  unfold State.partOn
  rw [State.rf_congr (h (.cfgPartSts q) (by simp only [Reg.key]; omega) (by simp only [Reg.key]; omega))]

theorem PartRegs.partBasinBit (q b : Nat) : t.partBasinBit q b = s.partBasinBit q b := by
  unfold State.partBasinBit
  rw [h (.cfgPartBsnLo q) (by simp only [Reg.key]; omega) (by simp only [Reg.key]; omega),
    h (.cfgPartBsnHi q) (by simp only [Reg.key]; omega) (by simp only [Reg.key]; omega)]

theorem PartRegs.partBasins (q : Nat) : t.partBasins q = s.partBasins q :=
  List.filter_congr fun b _ => h.partBasinBit q b

theorem PartRegs.partChanBit (q : Nat) {c : Nat} (hc : c < 384) : t.partChanBit q c = s.partChanBit q c := by
  unfold State.partChanBit
  rw [h (.cfgPartChan q (c / 64)) (by simp only [Reg.key]; omega) (by simp only [Reg.key]; omega)]

theorem PartRegs.partShared (q : Nat) : t.partShared q = s.partShared q := by
  unfold State.partShared
  rw [State.rf_congr (h (.cfgPartShr q) (by simp only [Reg.key]; omega) (by simp only [Reg.key]; omega)),
    State.rf_congr (h (.cfgPartShr q) (by simp only [Reg.key]; omega) (by simp only [Reg.key]; omega))]

theorem PartRegs.chanState {c : Nat} (hc : c < 384) : t.chanState c = s.chanState c := by
  have hb : c / 16 / 2 < 12 := by omega
  exact State.rf_congr (h (.panChanState (c / 16)) (by simp only [Reg.key, panBase]; omega) (by simp only [Reg.key, panBase]; omega)) _ _

theorem PartRegs.guarded {x : Nat} (hx : x < 24) : t.guarded x = s.guarded x := by
  have hb : x / 2 < 12 := by omega
  unfold State.guarded
  rw [State.rf_congr (h (.panHeapCtl x) (by simp only [Reg.key, panBase]; omega) (by simp only [Reg.key, panBase]; omega))]

theorem PartRegs.heapChans {x : Nat} (hx : x < 24) : t.heapChans x = s.heapChans x :=
  List.filterMap_congr fun c hc => by rw [h.chanState (by have := List.mem_range.mp hc; omega)]

theorem PartRegs.heapLogical {x : Nat} (hx : x < 24) : t.heapLogical x = s.heapLogical x := by
  rw [State.heapLogical, h.guarded hx, h.heapChans hx, State.heapLogical]

theorem PartRegs.logical : t.logical = s.logical :=
  List.flatMap_congr fun _ hx => h.heapLogical (List.mem_range.mp hx)

theorem PartRegs.partConflict : t.partConflict p = s.partConflict p := by
  unfold State.partConflict
  dsimp only
  rw [h.partShared, h.partBasins]
  refine any_congr_mem fun q _ => ?_
  by_cases hne : q = p
  · simp [hne]
  · rw [h.partOn hne, h.partShared, any_congr_mem (l := s.partBasins p) fun b _ => h.partBasinBit q b,
      any_congr_mem (l := List.range 384) fun c hc => by
        rw [h.partChanBit p (List.mem_range.mp hc), h.partChanBit q (List.mem_range.mp hc)]]

theorem PartRegs.partChanBad : t.partChanBad p = s.partChanBad p := by
  unfold State.partChanBad
  refine congrArg₂ (· || ·) (any_congr_mem fun c hc => ?_) (any_congr_mem fun x hx => ?_)
  · rw [h.partChanBit p (List.mem_range.mp hc), h.chanState (List.mem_range.mp hc)]
  · have hx := List.mem_range.mp hx
    rw [h.guarded hx, h.heapChans hx, h.heapLogical hx,
      any_congr_mem fun c hc => h.partChanBit p (State.lt_of_mem_heapChans hx hc),
      all_congr_mem fun c hc => h.partChanBit p (State.lt_of_mem_heapChans hx ((s.heapLogical_sublist x).subset hc))]

end

end Sys2Proof.Machine

/-! Proofs: partitions are enabled and changed (R268, R269, R271). -/

namespace Sys2Proof.Machine

/-! ### Bytes that become zero -/

/-- What an element of a list establishes, and every element keeps, holds after the list. -/
theorem foldl_of_mem {α β : Type} {P : β → Prop} {f : β → α → β} (hkeep : ∀ u x, P u → P (f u x)) {x : α} (hx : ∀ u, P (f u x)) :
    ∀ (l : List α) (u : β), x ∈ l → P (l.foldl f u) := by
  have hall : ∀ (l : List α) (u : β), P u → P (l.foldl f u) := fun l => by
    induction l with
    | nil => exact fun _ h => h
    | cons y l ih => exact fun u h => ih _ (hkeep u y h)
  intro l
  induction l with
  | nil => exact fun _ h => nomatch h
  | cons y l ih =>
    intro u h
    rcases List.mem_cons.mp h with rfl | h
    · exact hall l _ (hx u)
    · exact ih _ h

theorem foldl_keeps {α β : Type} {P : β → Prop} {f : β → α → β} (hkeep : ∀ u x, P u → P (f u x)) (l : List α) (u : β) (h : P u) :
    P (l.foldl f u) := by
  induction l generalizing u with
  | nil => exact h
  | cons y l ih => exact ih _ (hkeep u y h)

theorem Memory.read_keep (m : Memory) (f : Nat → Bool) (k : Nat) :
    Memory.read (Map.keep m f) k = if f k then m.read k else 0#8 := Map.getD_keep m f k 0#8

theorem Memory.read_keep_of_zero {m : Memory} {k : Nat} (h : m.read k = 0#8) (f : Nat → Bool) : Memory.read (Map.keep m f) k = 0#8 := by
  rw [Memory.read_keep, h, ite_self]

/-- `t` is `s` but for its pools and accumulators. -/
def PoolsOnly (s t : State) : Prop :=
  t = { s with
    pool := t.pool
    poolPoison := t.poolPoison
    acc := t.acc
    accCtx := t.accCtx }

namespace PoolsOnly
variable {s t u : State}

theorem refl (s : State) : PoolsOnly s s := rfl
theorem trans (h : PoolsOnly s t) (k : PoolsOnly t u) : PoolsOnly s u := by
  unfold PoolsOnly at *
  rw [k, h]
theorem foldl {α : Type} {f : State → α → State} (h : ∀ u x, PoolsOnly u (f u x)) (xs : List α) (s : State) :
    PoolsOnly s (xs.foldl f s) := by
  induction xs generalizing s with
  | nil => exact refl s
  | cons x xs ih => exact (h s x).trans (ih _)
theorem regs (h : PoolsOnly s t) : t.regs = s.regs := by rw [h]
theorem heap (h : PoolsOnly s t) : t.heap = s.heap := by rw [h]

end PoolsOnly

section
variable (s : State)

theorem State.pool_zeroPool (x k : Nat) :
    (s.zeroPool x).pool.read k = if k / 2 ^ 22 != x then s.pool.read k else 0#8 := by
  have h : (s.zeroPool x).pool = Map.keep s.pool (fun k => k / 2 ^ 22 != x) := rfl
  rw [h, Memory.read_keep]

/-- A byte of the pools reads zero. -/
def PoolZero (k : Nat) (s : State) : Prop := s.pool.read k = 0#8

theorem PoolZero.zeroPool {k : Nat} {s : State} (h : PoolZero k s) (x : Nat) : PoolZero k (s.zeroPool x) := by
  rw [PoolZero, State.pool_zeroPool, h, ite_self]

theorem PoolZero.zeroPools {k : Nat} {s : State} (h : PoolZero k s) (b : Nat) : PoolZero k (s.zeroPools b) :=
  foldl_keeps (fun _ _ h => h.zeroPool _) _ s h

theorem State.zeroPool_zero {x o : Nat} (ho : o < 2 ^ 22) : PoolZero (x * 2 ^ 22 + o) (s.zeroPool x) := by
  rw [PoolZero, State.pool_zeroPool, if_neg]
  simp only [bne_iff_ne, ne_eq, not_not]
  omega

theorem State.zeroPools_zero {b i o : Nat} (hi : i < 7) (ho : o < 2 ^ 22) : PoolZero ((b * 8 + i) * 2 ^ 22 + o) (s.zeroPools b) :=
  foldl_of_mem (fun _ _ h => h.zeroPool _) (fun u => u.zeroPool_zero ho) _ s (List.mem_range.mpr hi)

theorem poolsOnly_zeroPool (x : Nat) : PoolsOnly s (s.zeroPool x) := rfl
theorem poolsOnly_zeroPools (b : Nat) : PoolsOnly s (s.zeroPools b) := .foldl (fun u i => poolsOnly_zeroPool u (b * 8 + i)) _ s
theorem poolsOnly_zeroAcc (b : Nat) : PoolsOnly s (s.zeroAcc b) := rfl
theorem State.pool_zeroAcc (bs : List Nat) : (bs.foldl State.zeroAcc s).pool = s.pool :=
  foldl_keeps (P := fun u : State => u.pool = s.pool) (fun u b h => (show (u.zeroAcc b).pool = u.pool from rfl).trans h) bs s rfl

theorem State.pools_zero {bs : List Nat} {b i o : Nat} (hb : b ∈ bs) (hi : i < 7) (ho : o < 2 ^ 22) :
    PoolZero ((b * 8 + i) * 2 ^ 22 + o) (bs.foldl State.zeroPools s) :=
  foldl_of_mem (fun _ _ h => h.zeroPools _) (fun u => u.zeroPools_zero hi ho) bs s hb

theorem State.heap_zeroDeep (cs : List Nat) (k : Nat) : (s.zeroDeep cs).heap.read k =
    if !(cs.contains (k / 2 ^ 24) && k % 2 ^ 24 < s.deepSize) then s.heap.read k else 0#8 := by
  have h : (s.zeroDeep cs).heap = Map.keep s.heap (fun k => !(cs.contains (k / 2 ^ 24) && k % 2 ^ 24 < s.deepSize)) := rfl
  rw [h, Memory.read_keep]

theorem State.heap_zeroShared_of_zero {k : Nat} (o n : Nat) (h : s.heap.read k = 0#8) : (s.zeroShared o n).heap.read k = 0#8 := by
  have heq : (s.zeroShared o n).heap = Map.keep s.heap (fun k => !(match s.sharedOff k with
    | some x => o ≤ x && x < o + n
    | none => false)) := rfl
  rw [heq]
  exact Memory.read_keep_of_zero h _

/-- The bytes of a partition that is scrubbed read zero: its pools, and the Deep part of its channels (R271). -/
theorem State.scrubPart_pool {p b i o : Nat} (hb : b ∈ s.partBasins p) (hi : i < 7) (ho : o < 2 ^ 22) :
    PoolZero ((b * 8 + i) * 2 ^ 22 + o) (s.scrubPart p) := by
  have heq : (s.scrubPart p).pool = ((s.partBasins p).foldl State.zeroPools s).pool := rfl
  rw [PoolZero, heq]
  exact s.pools_zero hb hi ho

theorem State.scrubPart_heap {p c o : Nat} (hc : c ∈ s.partChans p) (hd : o < s.deepSize) (ho : o < 2 ^ 24) :
    (s.scrubPart p).heap.read (c * 2 ^ 24 + o) = 0#8 := by
  have hrest : PoolsOnly s ((s.partBasins p).foldl State.zeroPools s) := .foldl poolsOnly_zeroPools _ s
  unfold State.scrubPart
  dsimp only
  generalize (s.partBasins p).foldl State.zeroPools s = u at hrest
  have hchans : u.partChans p = s.partChans p := by rw [hrest]; rfl
  have hdeep : u.deepSize = s.deepSize := by rw [hrest]; rfl
  refine State.heap_zeroShared_of_zero _ _ _ ?_
  rw [State.heap_zeroDeep, if_neg]
  have h1 : (c * 2 ^ 24 + o) / 2 ^ 24 = c := by omega
  have h2 : (c * 2 ^ 24 + o) % 2 ^ 24 = o := by omega
  rw [h1, h2, hchans, hdeep]
  simp [hc, hd]

theorem State.regs_scrubPart (p : Nat) : (s.scrubPart p).regs = s.regs :=
  (PoolsOnly.foldl poolsOnly_zeroPools (s.partBasins p) s).regs

end

/-! ### CFG_PART_CTL -/

/-- The state in which an enable has been asked for: POLICY and TOKEN stand. -/
def State.partAsked (s : State) (p v : Nat) : State := (s.setRf (.cfgPartCtl p) 1 1 (fld v 1 1)).partToken p (fld v 39 32)

/-- The state in which an enabled partition's bytes are kept or zero (R271). -/
def State.partKeep (u : State) (p : Nat) (keep : Bool) : State :=
  if keep then u else (u.partBasins p).foldl State.zeroAcc (u.scrubPart p)

section
variable {s : State} {p v : Nat}

theorem State.writePartCtl_of_busy (h : s.partState p = 2 ∨ s.partState p = 3) :
    ∃ t : State, t.partState p = s.partState p ∧ s.writePartCtl p v = t.partResult p 2 0 := by
  have heq : s.writePartCtl p v = State.partResult (if bit v 0 then s.partToken p (fld v 39 32) else s) p 2 0 :=
    if_pos (State.partBusy_of_mem h)
  refine ⟨_, ?_, heq⟩
  split
  · exact s.partState_partToken p _
  · rfl

theorem State.partState_partAsked (s : State) (p v : Nat) : (s.partAsked p v).partState p = s.partState p := by
  unfold State.partAsked
  rw [State.partState_partToken]
  exact State.rf_congr (State.reg_setRf_of_ne s _ _ _ (by simp only [Reg.key]; omega)) _ _

theorem partRegs_partAsked (s : State) (p v : Nat) : PartRegs p s (s.partAsked p v) := fun r hc hs => by
  unfold State.partAsked State.partToken
  rw [State.reg_setRf_of_ne _ _ _ _ hs, State.reg_setRf_of_ne _ _ _ _ hc]

theorem logsOnly_partAsked (s : State) (p v : Nat) : LogsOnly s (s.partAsked p v) :=
  (logsOnly_setRf s _ _ _ _).trans (logsOnly_setRf _ _ _ _ _)

/-- An enable of a partition that is neither being reset nor removed. -/
theorem State.writePartCtl_of_ask (h2 : s.partState p ≠ 2) (h3 : s.partState p ≠ 3) (hask : bit v 0 = true) :
    let t := s.partAsked p v
    s.writePartCtl p v = if t.partState p != 0 then t.partResult p 7 0
      else if !t.sharedUp then t.partResult p 2 0
      else if t.partConflict p || t.partChanBad p || (t.partShared p).1 + (t.partShared p).2 > t.sharedSize then t.partResult p 3 0
      else if (t.partBasins p).any (fun b => (Map.find? t.modeChg b).isSome) then t.partResult p 2 1
      else
        let u := (t.partStatus p 1 0 0).partKeep p (t.retains p)
        { u with lastTag := Map.put u.lastTag p (u.rf (.cfgPartTag p) 31 0) } := by
  intro t
  unfold State.writePartCtl
  simp only [State.partBusy_of_not h2 h3, hask, if_true, Bool.false_eq_true, if_false, Bool.not_true]
  rw [show (s.setRf (.cfgPartCtl p) 1 1 (fld v 1 1)).partToken p (fld v 39 32) = t from rfl]
  unfold State.partKeep
  rfl

end

/-! ### An enable that R269 admits -/

section
variable {s : State} {p v : Nat}

/-- What an enable keeps of the bytes, and what it clears. -/
theorem State.partKeep_spec (u : State) (p : Nat) : u.partKeep p true = u ∧ (u.partKeep p false).regs = u.regs ∧
    (∀ b i o, b ∈ u.partBasins p → i < 7 → o < 2 ^ 22 → (u.partKeep p false).pool.read ((b * 8 + i) * 2 ^ 22 + o) = 0#8) ∧
    (∀ c o, c ∈ u.partChans p → o < u.deepSize → o < 2 ^ 24 → (u.partKeep p false).heap.read (c * 2 ^ 24 + o) = 0#8) := by
  have heq : u.partKeep p false = (u.partBasins p).foldl State.zeroAcc (u.scrubPart p) := rfl
  have hacc : PoolsOnly (u.scrubPart p) ((u.partBasins p).foldl State.zeroAcc (u.scrubPart p)) := .foldl poolsOnly_zeroAcc _ _
  refine ⟨rfl, ?_, fun b i o hb hi ho => ?_, fun c o hc hd ho => ?_⟩
  · rw [heq, hacc.regs, State.regs_scrubPart]
  · rw [heq, State.pool_zeroAcc]
    exact u.scrubPart_pool hb hi ho
  · rw [heq, hacc.heap]
    exact u.scrubPart_heap hc hd ho

theorem State.retains_partAsked : (s.partAsked p v).retains p = true ↔
    bit v 1 = true ∧ Map.find? s.lastTag p = some (s.rf (.cfgPartTag p) 31 0) := by
  have htag : (s.partAsked p v).rf (.cfgPartTag p) 31 0 = s.rf (.cfgPartTag p) 31 0 :=
    State.rf_congr (partRegs_partAsked s p v _ (by simp only [Reg.key]; omega) (by simp only [Reg.key]; omega)) _ _
  have hctl : (s.partAsked p v).rf (.cfgPartCtl p) 1 1 = fld v 1 1 := by
    unfold State.partAsked State.partToken
    rw [State.rf_congr (State.reg_setRf_of_ne _ _ _ _ (by simp only [Reg.key]; omega)), State.rf_setRf_same _ _ _ (by decide)]
    exact Nat.mod_mod _ _
  have hlast : (s.partAsked p v).lastTag = s.lastTag := by rw [logsOnly_partAsked s p v]
  unfold State.retains
  rw [hctl, htag, hlast]
  simp [fld, bit]

/-- The state of an enable that is taken: the status, the bytes kept or zero, and the tag. -/
def State.partEnabled (s : State) (p v : Nat) : State :=
  let u := ((s.partAsked p v).partStatus p 1 0 0).partKeep p ((s.partAsked p v).retains p)
  { u with lastTag := Map.put u.lastTag p (u.rf (.cfgPartTag p) 31 0) }

theorem State.partEnabled_spec (hp : p < 96) :
    let keep := bit v 1 = true ∧ Map.find? s.lastTag p = some (s.rf (.cfgPartTag p) 31 0)
    (s.partEnabled p v).partState p = 1 ∧ (s.partEnabled p v).rf (.cfgPartSts p) 19 16 = 0 ∧
      Map.find? (s.partEnabled p v).lastTag p = some (s.rf (.cfgPartTag p) 31 0) ∧
      (keep → (s.partEnabled p v).heap = s.heap ∧ (s.partEnabled p v).pool = s.pool) ∧
      (¬ keep →
        (∀ b i o, b ∈ s.partBasins p → i < 7 → o < 2 ^ 22 → (s.partEnabled p v).pool.read ((b * 8 + i) * 2 ^ 22 + o) = 0#8) ∧
        (∀ c o, c ∈ s.logical → s.partChanBit p c = true → o < s.deepSize → o < 2 ^ 24 →
          (s.partEnabled p v).heap.read (c * 2 ^ 24 + o) = 0#8)) := by
  intro keep
  obtain ⟨u, hu⟩ : ∃ u : State, u = (s.partAsked p v).partStatus p 1 0 0 := ⟨_, rfl⟩
  obtain ⟨w, hw⟩ : ∃ w : State, w = u.partKeep p ((s.partAsked p v).retains p) := ⟨_, rfl⟩
  have heq : s.partEnabled p v = { w with lastTag := Map.put w.lastTag p (w.rf (.cfgPartTag p) 31 0) } := by rw [hw, hu]; rfl
  have hregs : PartRegs p s u := hu ▸ (partRegs_partAsked s p v).trans (partRegs_partStatus _ p 1 0 0)
  have hlogs : LogsOnly s u := hu ▸ (logsOnly_partAsked s p v).trans (logsOnly_partStatus _ p 1 0 0)
  obtain ⟨hst, hres⟩ := (s.partAsked p v).partStatus_spec p (st := 1) (res := 0) 0 (by decide) (by decide)
  rw [← hu] at hst hres
  obtain ⟨hkeep, hzregs, hzpool, hzheap⟩ := State.partKeep_spec u p
  have hwregs : w.regs = u.regs := by
    rw [hw]
    cases (s.partAsked p v).retains p
    · exact hzregs
    · rfl
  have hreg := State.reg_congr hwregs
  have htag : w.rf (.cfgPartTag p) 31 0 = s.rf (.cfgPartTag p) 31 0 :=
    State.rf_congr ((hreg _).trans (hregs _ (by simp only [Reg.key]; omega) (by simp only [Reg.key]; omega))) _ _
  rw [heq]
  refine ⟨(State.rf_congr (hreg _) _ _).trans hst, (State.rf_congr (hreg _) _ _).trans hres, ?_, fun hk => ?_, fun hk => ?_⟩
  · exact (Map.find?_put_same _ _ _).trans (by rw [htag])
  · have hw : w = u := by rw [hw, State.retains_partAsked.mpr hk, hkeep]
    rw [hw]
    exact ⟨hlogs.heap, hlogs.pool⟩
  · have hw : w = u.partKeep p false := by
      rw [hw, Bool.eq_false_iff.mpr (mt State.retains_partAsked.mp hk)]
    rw [hw]
    refine ⟨fun b i o hb hi ho => hzpool b i o (by rw [hregs.partBasins]; exact hb) hi ho, fun c o hc hbit hd ho =>
      hzheap c o ?_ (by rw [hregs.deepSize]; exact hd) ho⟩
    have hon : u.partOn p = true := by
      unfold State.partOn
      rw [show u.rf (.cfgPartSts p) 23 20 = 1 from hst]
      rfl
    unfold State.partChans
    rw [if_pos hp, if_pos hon, hregs.logical]
    exact List.mem_filter.mpr ⟨hc, by rw [hregs.partChanBit p (State.mem_logical hc)]; exact hbit⟩

/-- What R269 asks of a partition that is enabled. -/
def State.partAdmits (s : State) (p : Nat) : Prop := s.sharedUp = true ∧ s.partConflict p = false ∧ s.partChanBad p = false ∧
  (s.partShared p).1 + (s.partShared p).2 ≤ s.sharedSize

theorem State.partAdmits_partAsked : (s.partAsked p v).partAdmits p ↔ s.partAdmits p := by
  have h := partRegs_partAsked s p v
  unfold State.partAdmits
  rw [State.sharedUp, h.readyFn, h.partConflict, h.partChanBad, h.partShared, h.sharedSize, State.sharedUp]

theorem State.writePartCtl_of_disabled (h0 : s.partState p = 0) (hask : bit v 0 = true) :
    (s.sharedUp = true → ¬ s.partAdmits p → s.writePartCtl p v = (s.partAsked p v).partResult p 3 0) ∧
    (s.partAdmits p → (∀ b ∈ s.partBasins p, Map.find? s.modeChg b = none) → s.writePartCtl p v = s.partEnabled p v) := by
  have heq := State.writePartCtl_of_ask (s := s) (p := p) (v := v) (by rw [h0]; decide) (by rw [h0]; decide) hask
  have hregs := partRegs_partAsked s p v
  have h0' : (s.partAsked p v).partState p = 0 := (s.partState_partAsked p v).trans h0
  have hup : (s.partAsked p v).sharedUp = s.sharedUp := hregs.readyFn 4
  dsimp only at heq
  rw [if_neg (by simp [h0'])] at heq
  refine ⟨fun h hno => ?_, fun hok hidle => ?_⟩
  · have hno := mt (State.partAdmits_partAsked (v := v)).mp hno
    rw [heq, if_neg (by simp [hup, h]), if_pos]
    by_contra hbad
    simp only [Bool.or_eq_true, decide_eq_true_eq, not_or, gt_iff_lt, not_lt, Bool.not_eq_true] at hbad
    exact hno ⟨hup.trans h, hbad.1.1, hbad.1.2, hbad.2⟩
  · obtain ⟨hs, hc, hb, hr⟩ := (State.partAdmits_partAsked (v := v)).mpr hok
    have hmode : (s.partAsked p v).modeChg = s.modeChg := by rw [logsOnly_partAsked s p v]
    have hidle' : ((s.partAsked p v).partBasins p).any (fun b => (Map.find? (s.partAsked p v).modeChg b).isSome) = false := by
      rw [hregs.partBasins, hmode, List.any_eq_false]
      intro b hb
      simp [hidle b hb]
    rw [heq, if_neg (by simp [hs]), if_neg (by simp [hc, hb, hr]), if_neg (by rw [hidle']; decide)]
    rfl

end

/-! ### Basins (R268) -/

theorem foldl_or_eq_zero (f : Nat → Nat) (l : List Nat) (m : Nat) :
    l.foldl (fun m b => m ||| f b) m = 0 ↔ m = 0 ∧ ∀ b ∈ l, f b = 0 := by
  induction l generalizing m with
  | nil => simp
  | cons b l ih =>
    rw [List.foldl_cons, ih, Nat.or_eq_zero_iff, List.forall_mem_cons, and_assoc]

section
variable {s : State} {p : Nat}

/-- The register of a partition's basins. -/
def basinReg (p : Nat) (high : Bool) : Reg := if high then .cfgPartBsnHi p else .cfgPartBsnLo p

/-- The basins that a write of the register changes. -/
def State.basinsChanged (s : State) (p : Nat) (high : Bool) (v : Nat) : List Nat :=
  ((List.range 64).filter (fun i => bit (s.reg (basinReg p high)) i != bit ((basinReg p high).written 63 0
    (s.reg (basinReg p high)) v) i)).map (fun i => if high then i + 64 else i)

theorem State.writePartBasins_of_disabled (high : Bool) (v : Nat) (h : s.partState p = 0) : s.writePartBasins p high v =
    s.setReg (basinReg p high) ((basinReg p high).written 63 0 (s.reg (basinReg p high)) v) := by
  unfold State.writePartBasins
  rw [h]
  rfl

theorem State.writePartBasins_of_enabled (high : Bool) (v : Nat) (h : s.partState p = 1) : s.writePartBasins p high v =
    let why := (s.basinsChanged p high v).foldl (fun m b => m ||| s.basinBusy b) 0
    if why != 0 || ((s.basinsChanged p high v).filter (fun b => !s.partBasinBit p b)).any (fun b => s.basinOwner b != 127) then
      s.partResult p 2 why
    else (s.setReg (basinReg p high) ((basinReg p high).written 63 0 (s.reg (basinReg p high)) v)).partResult p 0 0 := by
  unfold State.writePartBasins
  rw [h]
  rfl

/-- A write may change basins where each is idle, and none that is added belongs to another partition (R268). -/
theorem State.basinsMay_iff (high : Bool) (v : Nat) :
    let r := basinReg p high
    let new := r.written 63 0 (s.reg r) v
    let b := fun (i : Nat) => if high then i + 64 else i
    ((s.basinsChanged p high v).foldl (fun m b => m ||| s.basinBusy b) 0 != 0 ||
      ((s.basinsChanged p high v).filter (fun b => !s.partBasinBit p b)).any (fun b => s.basinOwner b != 127)) = false ↔
    ∀ i, i < 64 ∧ bit (s.reg r) i ≠ bit new i → s.basinBusy (b i) = 0 ∧ (s.partBasinBit p (b i) = false → s.basinOwner (b i) = 127) := by
  intro r new b
  have hmem : ∀ x, x ∈ s.basinsChanged p high v ↔ ∃ i, (i < 64 ∧ bit (s.reg r) i ≠ bit new i) ∧ b i = x := fun x => by
    simp only [State.basinsChanged, List.mem_map, List.mem_filter, List.mem_range, bne_iff_ne, r, new, b]
  rw [Bool.or_eq_false_iff, bne_eq_false_iff_eq, foldl_or_eq_zero, List.any_eq_false]
  constructor
  · rintro ⟨⟨-, hbusy⟩, howner⟩ i hi
    have hin := (hmem (b i)).mpr ⟨i, hi, rfl⟩
    refine ⟨hbusy _ hin, fun hbit => ?_⟩
    simpa using howner _ (List.mem_filter.mpr ⟨hin, by simp [hbit]⟩)
  · intro hall
    refine ⟨⟨rfl, fun x hx => ?_⟩, fun x hx => ?_⟩
    · obtain ⟨i, hi, rfl⟩ := (hmem x).mp hx
      exact (hall i hi).1
    · obtain ⟨hx, hbit⟩ := List.mem_filter.mp hx
      obtain ⟨i, hi, rfl⟩ := (hmem x).mp hx
      simpa using (hall i hi).2 (by simpa using hbit)

theorem basinReg_ne_sts (p : Nat) (high : Bool) : (basinReg p high).key ≠ Reg.key (.cfgPartSts p) := by
  unfold basinReg
  cases high <;> simp only [Reg.key, Bool.false_eq_true, if_true, if_false] <;> omega

end

/-! ### Channels and the Shared range (R268, R269) -/

section
variable {s : State} {p k : Nat}

/-- The register of a partition's channels or of its Shared range. -/
def resourceReg (p k : Nat) : Reg := if k < 6 then .cfgPartChan p k else .cfgPartShr p

theorem resourceReg_ne_sts (p k : Nat) : (resourceReg p k).key ≠ Reg.key (.cfgPartSts p) := by
  unfold resourceReg
  split <;> simp only [Reg.key] <;> omega

theorem State.writePartResource_of_disabled (v : Nat) (h : s.partState p = 0) : s.writePartResource p k v =
    s.setReg (resourceReg p k) ((resourceReg p k).written 63 0 (s.reg (resourceReg p k)) v) := by
  unfold State.writePartResource
  rw [h]
  rfl

theorem State.writePartResource_of_other (v : Nat) (h : s.partState p ≠ 0) : s.writePartResource p k v =
    s.partResult p (if s.partState p = 1 then 4 else if s.partState p = 4 then 7 else 2) 0 := by
  unfold State.writePartResource
  dsimp only
  split
  · next h0 => exact absurd h0 h
  · next h1 => rw [if_pos h1]
  · next h4 => rw [if_neg (by rw [h4]; decide), if_pos h4]
  · next h1 h4 => rw [if_neg h1, if_neg h4]

theorem fld_written_cfgPartChan (old v : Nat) : fld ((Reg.cfgPartChan p k).written 63 0 old v) 63 0 = v % 2 ^ 64 := by
  unfold Reg.written
  rw [show (Reg.cfgPartChan p k).fields = [⟨63, 0, .rw, 0, .w⟩] from rfl, List.foldl_cons, List.foldl_nil,
    Field.write_rw 63 0 _ _ _ _ (by decide) (by decide), fld_setFld_same _ _ (by decide)]
  simp [fld]

theorem fld_written_cfgPartShr (old v : Nat) : fld ((Reg.cfgPartShr p).written 63 0 old v) 13 0 = fld v 13 0 ∧
    fld ((Reg.cfgPartShr p).written 63 0 old v) 46 32 = fld v 46 32 := by
  have h : (Reg.cfgPartShr p).written 63 0 old v = setFld (setFld old 46 32 (fld v 46 32)) 13 0 (fld v 13 0) := by
    unfold Reg.written
    rw [show (Reg.cfgPartShr p).fields = [⟨46, 32, .rw, 0, .w⟩, ⟨13, 0, .rw, 0, .w⟩] from rfl, List.foldl_cons,
      List.foldl_cons, List.foldl_nil, Field.write_rw 46 32 _ _ _ _ (by decide) (by decide),
      Field.write_rw 13 0 _ _ _ _ (by decide) (by decide)]
  rw [h]
  exact (fld_setFld_pair old v (by decide) (by decide) (by decide)).symm

end

/-- Settles O35: an enable reads the partitions' registers as they were before it, and what it zeroes stays zero. -/
theorem partitionsChange : Obligations.partitions_change := by
  unfold Obligations.partitions_change
  intro s p val
  have hp := p.isLt
  have hv := val.isLt
  refine ⟨fun h => ?_, fun h0 hask => ⟨fun hup hno => ?_, fun hok hidle => ?_⟩, fun h hask => ?_, fun high => ⟨fun h => ?_,
    fun h hmay => ?_, fun h hno => ?_⟩, fun reg => ⟨fun h => ⟨_, congrArg Host.Outcome.next (State.writePartResource_of_disabled _ h), rfl,
      fun hreg => ?_, fun hreg => ?_⟩, fun h => ?_⟩⟩
  · obtain ⟨t, hst, heq⟩ := State.writePartCtl_of_busy (v := val.toNat) h
    obtain ⟨hst', hres⟩ := t.partResult_spec p.val (res := 2) 0 (by decide)
    exact ⟨_, congrArg Host.Outcome.next heq, hst'.trans hst, hres⟩
  · obtain ⟨hst, hres⟩ := (s.partAsked p.val val.toNat).partResult_spec p.val (res := 3) 0 (by decide)
    exact ⟨_, congrArg Host.Outcome.next ((State.writePartCtl_of_disabled h0 hask).1 hup hno),
      hst.trans ((s.partState_partAsked _ _).trans h0), hres⟩
  · obtain ⟨hst, hres, hrest⟩ := State.partEnabled_spec (s := s) (v := val.toNat) hp
    exact ⟨_, congrArg Host.Outcome.next ((State.writePartCtl_of_disabled h0 hask).2 hok hidle), ⟨hst, hres⟩, hrest⟩
  · have heq := State.writePartCtl_of_ask (s := s) (p := p.val) (v := val.toNat) (by omega) (by omega) hask
    have hst := s.partState_partAsked p.val val.toNat
    dsimp only at heq
    rw [if_pos (by rw [hst]; simp only [bne_iff_ne]; omega)] at heq
    obtain ⟨hst', hres⟩ := (s.partAsked p.val val.toNat).partResult_spec p.val (res := 7) 0 (by decide)
    exact ⟨_, congrArg Host.Outcome.next heq, hst'.trans hst, hres⟩
  · exact congrArg Host.Outcome.next (State.writePartBasins_of_disabled high _ h)
  · have heq := State.writePartBasins_of_enabled high val.toNat h
    dsimp only at heq
    rw [if_neg (by rw [(State.basinsMay_iff high val.toNat).mpr hmay]; decide)] at heq
    have hne := basinReg_ne_sts p.val high
    refine ⟨_, congrArg Host.Outcome.next heq, ?_, ?_⟩
    · obtain ⟨hst, hres⟩ := State.partResult_spec (s.setReg (basinReg p.val high) ((basinReg p.val high).written 63 0
        (s.reg (basinReg p.val high)) val.toNat)) p.val (res := 0) 0 (by decide)
      exact ⟨(hst.trans (State.rf_congr (State.reg_setReg_of_ne _ _ hne.symm) _ _)).trans h, hres⟩
    · exact (State.reg_partStatus_of_ne _ _ _ _ _ hne).trans (State.reg_setReg_same _ _ _)
  · have heq := State.writePartBasins_of_enabled high val.toNat h
    dsimp only at heq
    rw [if_pos (by rw [← Bool.not_eq_false]; exact mt (State.basinsMay_iff high val.toNat).mp hno)] at heq
    obtain ⟨hst, hres⟩ := s.partResult_spec p.val (res := 2) ((s.basinsChanged p.val high val.toNat).foldl
      (fun m b => m ||| s.basinBusy b) 0) (by decide)
    exact ⟨_, congrArg Host.Outcome.next heq, ⟨hst.trans h, hres⟩, State.reg_partStatus_of_ne _ _ _ _ _ (basinReg_ne_sts p.val high)⟩
  · show fld (State.reg (s.setReg _ _) (resourceReg p.val reg.val)) 63 0 = _
    rw [State.reg_setReg_same, resourceReg, if_pos hreg, fld_written_cfgPartChan]
    exact Nat.mod_eq_of_lt hv
  · show fld (State.reg (s.setReg _ _) (resourceReg p.val reg.val)) 13 0 = _ ∧
      fld (State.reg (s.setReg _ _) (resourceReg p.val reg.val)) 46 32 = _
    rw [State.reg_setReg_same, resourceReg, if_neg (by omega)]
    exact fld_written_cfgPartShr _ _
  · have hlt : (if s.partState p.val = 1 then 4 else if s.partState p.val = 4 then 7 else 2) < 16 := by
      split
      · decide
      · split <;> decide
    exact ⟨_, congrArg Host.Outcome.next (State.writePartResource_of_other _ h),
      State.reg_partStatus_of_ne _ _ _ _ _ (resourceReg_ne_sts p.val reg.val), s.partResult_spec p.val 0 hlt⟩

end Sys2Proof.Machine

/-! Proofs: caches that are written back, invalidated or lost change coherence state alone (R31, R371). -/

namespace Sys2Proof.Machine

/-- `t` is `s` but for its coherence state and the poison of Heap sectors. -/
def CohOnly (s t : State) : Prop := t = { s with coh := t.coh, heapPoison := t.heapPoison }

namespace CohOnly
variable {s t u : State}

theorem refl (s : State) : CohOnly s s := rfl
theorem trans (h : CohOnly s t) (k : CohOnly t u) : CohOnly s u := by
  unfold CohOnly at *
  rw [k, h]
theorem foldl {α : Type} {f : State → α → State} (h : ∀ u x, CohOnly u (f u x)) (xs : List α) (s : State) :
    CohOnly s (xs.foldl f s) := by
  induction xs generalizing s with
  | nil => exact refl s
  | cons x xs ih => exact (h s x).trans (ih _)
theorem queOnly (h : CohOnly s t) : QueOnly s t := by
  unfold CohOnly at h
  unfold QueOnly
  rw [h]
theorem regs (h : CohOnly s t) : t.regs = s.regs := by rw [h]
theorem pool (h : CohOnly s t) : t.pool = s.pool := by rw [h]
theorem heap (h : CohOnly s t) : t.heap = s.heap := by rw [h]

end CohOnly

section
variable (s : State)

theorem cohOnly_send (k : CKind) (c line : Nat) : CohOnly s (s.send k c line) := rfl
theorem cohOnly_modDir (line : Nat) (f : Frame → Frame) : CohOnly s (s.modDir line f) := rfl
theorem cohOnly_recallLine (line : Nat) : CohOnly s (s.recallLine line) := rfl
theorem cohOnly_present (c line : Nat) : CohOnly s (s.present_ c line) := rfl
theorem cohOnly_setCoh (c : Coh) : CohOnly s { s with coh := c } := rfl
theorem cohOnly_poisonLine (line : Nat) : CohOnly s (s.poisonLine line) := rfl

theorem cohOnly_serve (line c : Nat) (excl : Bool) : CohOnly s (s.serve line c excl) := by
  unfold State.serve
  dsimp only
  generalize hu : State.present_ { s with coh := { s.coh with mshr := _ } } c line = u
  have hmiss : CohOnly s u := hu ▸ (cohOnly_setCoh s _).trans (cohOnly_present _ _ _)
  split
  · have hinv : ∀ (v : State) (sh : List Nat), CohOnly v (sh.foldl (fun t x => t.send .inv x line) v) := fun v sh =>
      .foldl (fun w x => cohOnly_send w .inv x line) sh v
    have hdata : CohOnly u (match (s.dirOf line).owner with
        | some o => if o == c then u.send (.data true true) c line else u.send (.fwdGetM c) o line
        | none => u.send (.data true true) c line) := by
      split
      · split
        · exact cohOnly_send _ _ _ _
        · exact cohOnly_send _ _ _ _
      · exact cohOnly_send _ _ _ _
    split
    · exact (hmiss.trans (hdata.trans (hinv _ _))).trans ((cohOnly_send _ _ _ _).trans (cohOnly_modDir _ _ _))
    · exact (hmiss.trans (hdata.trans (hinv _ _))).trans (cohOnly_modDir _ _ _)
  · split
    · exact hmiss.trans (cohOnly_send _ _ _ _)
    · split
      · exact hmiss.trans ((cohOnly_send _ _ _ _).trans (cohOnly_modDir _ _ _))
      · exact hmiss.trans (cohOnly_send _ _ _ _)

theorem cohOnly_serveQueue (line n : Nat) : CohOnly s (s.serveQueue line n) := by
  induction n generalizing s with
  | zero => exact .refl s
  | succ n ih =>
    rw [State.serveQueue]
    split
    · exact ((cohOnly_modDir s line _).trans (cohOnly_serve _ _ _ _)).trans (ih _)
    · exact .refl s

theorem cohOnly_collapse (gone : Nat → Bool) (line : Nat) : CohOnly s (s.collapse gone line) := by
  obtain ⟨f, c, n, heq⟩ : ∃ (f : Frame → Frame) (c : Coh) (n : Nat), s.collapse gone line =
      State.serveQueue { (s.recallLine line).modDir line f with coh := c } line n := ⟨_, _, _, rfl⟩
  rw [heq]
  exact ((cohOnly_recallLine s line).trans (cohOnly_modDir _ line f)).trans ((cohOnly_setCoh _ c).trans (cohOnly_serveQueue _ line n))

/-- The home takes the dirty sectors of a copy that goes, and forgets its cache. -/
def State.dropCopy (t : State) (x : Nat × Nat × BitVec 4) : State :=
  t.modDir x.2.1 (fun f => { f with
    valid := f.valid ||| x.2.2
    dirty := f.dirty ||| x.2.2
    owner := if f.owner == some x.1 then none else f.owner
    present := if t.dieHolds x.2.1 (cacheDie x.1) then f.present else f.present &&& ~~~(dieBit (cacheDie x.1)) })

theorem cohOnly_dropCopy (x : Nat × Nat × BitVec 4) : CohOnly s (s.dropCopy x) := rfl

/-- The copies of a set of caches go. -/
def State.dropCopies (t : State) (gone : Nat → Bool) : State :=
  ((t.coh.l1.filter (fun kv => gone (keyCache kv.1))).map (fun kv => (keyCache kv.1, keyLine kv.1, kv.2.dirty))).foldl State.dropCopy
    { t with coh := { t.coh with l1 := Map.keep t.coh.l1 (fun k => !gone (keyCache k)) } }

theorem cohOnly_dropCopies (gone : Nat → Bool) : CohOnly s (s.dropCopies gone) :=
  (cohOnly_setCoh s _).trans (.foldl cohOnly_dropCopy _ _)

theorem State.dropCaches_eq (gone : Nat → Bool) (lost : Bool) : s.dropCaches gone lost =
    let t := ((s.linesInFlight gone).foldl (fun (t : State) line => t.collapse gone line) s).dropCopies gone
    if lost then (s.linesLost gone).foldl State.poisonLine t else t := by
  unfold State.dropCaches State.dropCopies
  rfl

theorem cohOnly_dropCaches (gone : Nat → Bool) (lost : Bool) : CohOnly s (s.dropCaches gone lost) := by
  have hdrop : CohOnly s (((s.linesInFlight gone).foldl (fun (t : State) line => t.collapse gone line) s).dropCopies gone) :=
    (CohOnly.foldl (fun u line => cohOnly_collapse u gone line) _ s).trans (cohOnly_dropCopies _ gone)
  rw [State.dropCaches_eq]
  dsimp only
  split
  · exact hdrop.trans (.foldl cohOnly_poisonLine _ _)
  · exact hdrop

theorem queOnly_dropIcache (gone : Nat → Bool) : QueOnly s (s.dropIcache gone) := rfl
theorem queOnly_emptyCaches (b : Nat) : QueOnly s (s.emptyCaches b) :=
  (cohOnly_dropCaches s _ false).queOnly.trans (queOnly_dropIcache _ _)

theorem State.regs_emptyCaches (b : Nat) : (s.emptyCaches b).regs = s.regs := (cohOnly_dropCaches s _ false).regs
theorem State.pool_emptyCaches (b : Nat) : (s.emptyCaches b).pool = s.pool := (cohOnly_dropCaches s _ false).pool

end

end Sys2Proof.Machine

/-! Proofs: what the end of commands keeps: queues' states, resets, partitions (R173, R189, R274). -/

namespace Sys2Proof.Machine

/-- What ending DMA commands and RMOs keeps: launches that fail, the states of queues, the operations on partitions, the reset
steps, matrix commands and routes; no command is new, and of the registers only the logs and the engines' status change. -/
structure CmdEnds (s t : State) : Prop where
  ends : EndKeeps s t
  st : ∀ q, (t.queue q).st = (s.queue q).st
  rest : t.partOps = s.partOps ∧ t.resetQ = s.resetQ ∧ t.mtx = s.mtx ∧ t.routes = s.routes
  reg : ∀ r : Reg, ¬ LogKey r.key → r.key % 16 = 8 → t.reg r = s.reg r
  dma : ∀ c ∈ t.dma, ∃ c' ∈ s.dma, c'.id = c.id ∧ c'.org = c.org

namespace CmdEnds
variable {s t u : State}

theorem refl (s : State) : CmdEnds s s :=
  ⟨.refl s, fun _ => rfl, ⟨rfl, rfl, rfl, rfl⟩, fun _ _ _ => rfl, fun c hc => ⟨c, hc, rfl, rfl⟩⟩

theorem trans (h : CmdEnds s t) (k : CmdEnds t u) : CmdEnds s u := by
  obtain ⟨h1, h2, h3, h4⟩ := h.rest
  obtain ⟨k1, k2, k3, k4⟩ := k.rest
  refine ⟨h.ends.trans k.ends, fun q => (k.st q).trans (h.st q), ⟨k1.trans h1, k2.trans h2, k3.trans h3, k4.trans h4⟩,
    fun r hl h8 => (k.reg r hl h8).trans (h.reg r hl h8), fun c hc => ?_⟩
  obtain ⟨c', hc', hid, horg⟩ := k.dma c hc
  obtain ⟨c'', hc'', hid', horg'⟩ := h.dma c' hc'
  exact ⟨c'', hc'', hid'.trans hid, horg'.trans horg⟩

theorem foldl {α : Type} {f : State → α → State} (h : ∀ u x, CmdEnds u (f u x)) (xs : List α) (s : State) :
    CmdEnds s (xs.foldl f s) := by
  induction xs generalizing s with
  | nil => exact refl s
  | cons x xs ih => exact (h s x).trans (ih _)

theorem of_writes (h : WritesOnly s t) (hr : LogRegs s t) : CmdEnds s t := by
  refine ⟨h.endKeeps, fun q => ?_, ?_, fun r hl _ => hr r hl, fun c hc => ⟨c, by rwa [h.dma] at hc, rfl, rfl⟩⟩
  · rw [State.queue_congr h.queues]
  · rw [h]
    exact ⟨rfl, rfl, rfl, rfl⟩

theorem of_ends (h : EndsOnly s t) (hk : EndKeeps s t) (hd : ∀ c ∈ t.dma, ∃ c' ∈ s.dma, c'.id = c.id ∧ c'.org = c.org) :
    CmdEnds s t := by
  refine ⟨hk, fun q => ?_, ?_, fun r _ _ => State.reg_congr h.regs r, hd⟩
  · rw [State.queue_congr (show t.queues = s.queues by rw [h])]
  · rw [h]
    exact ⟨rfl, rfl, rfl, rfl⟩

end CmdEnds

section
variable (s : State)

theorem cmdEnds_ras (e : RasEntry) : CmdEnds s (s.ras_ e) := .of_writes (logsOnly_ras s e).writes (logRegs_ras s e)
theorem cmdEnds_post (p : Nat) (ws : List Word) : CmdEnds s (s.post p ws).1 := .of_writes (logsOnly_post s p ws).writes (logRegs_post s p ws)

theorem State.dma_failLaunch (k st : Nat) : ∀ c ∈ (s.failLaunch k st).dma, ∃ c' ∈ s.dma, c'.id = c.id ∧ c'.org = c.org := by
  have hsame : ∀ c ∈ s.dma, ∃ c' ∈ s.dma, c'.id = c.id ∧ c'.org = c.org := fun c hc => ⟨c, hc, rfl, rfl⟩
  intro c hc
  unfold State.failLaunch at hc
  split at hc
  · exact hsame c hc
  · split at hc
    · exact hsame c hc
    · obtain ⟨c', hc', rfl⟩ := List.mem_map.mp hc
      refine ⟨c', hc', ?_⟩
      split <;> exact ⟨rfl, rfl⟩

theorem cmdEnds_failLaunch (k st : Nat) : CmdEnds s (s.failLaunch k st) :=
  .of_ends (endsOnly_failLaunch s k st) (endKeeps_failLaunch s k st) (s.dma_failLaunch k st)

theorem cmdEnds_failCtx (ctx : Nat) : CmdEnds s (s.failCtx ctx) := by
  have h : CmdEnds s { s with failed := NSet.ins s.failed ctx } :=
    .of_ends rfl (.of_eq rfl rfl rfl) fun c hc => ⟨c, hc, rfl, rfl⟩
  exact h.trans (.foldl (fun u k => cmdEnds_failLaunch u k 2) _ _)

theorem cmdEnds_dropDma (f : DmaCmd → Bool) : CmdEnds s { s with dma := s.dma.filter f } :=
  ⟨.of_eq rfl rfl rfl, fun _ => rfl, ⟨rfl, rfl, rfl, rfl⟩, fun _ _ _ => rfl, fun c hc => ⟨c, (List.mem_filter.mp hc).1, rfl, rfl⟩⟩

theorem cmdEnds_dropRmo (f : RmoCmd → Bool) : CmdEnds s { s with rmo := s.rmo.filter f } :=
  ⟨⟨fun _ _ h _ => h, fun _ ho => (List.mem_filter.mp ho).1, fun _ h => h⟩, fun _ => rfl, ⟨rfl, rfl, rfl, rfl⟩, fun _ _ _ => rfl,
    fun c hc => ⟨c, hc, rfl, rfl⟩⟩

theorem cmdEnds_poolWrite (core off : Nat) (bs : List Byte) : CmdEnds s (s.poolWrite core off bs) :=
  .of_writes (writesOnly_writeLocs _ _ _ _) (logRegs_writeLocs _ _ _ _)

theorem dmaEngSts_key (b k : Nat) : Reg.key (.dmaEngSts b k) % 16 = 0 := by
  simp only [Reg.key, panBase]
  omega

theorem cmdEnds_dmaCount (c : DmaCmd) (st : Nat) : CmdEnds s (s.dmaCount c st) := by
  have hlogs := logsOnly_dmaCount s c st
  refine ⟨hlogs.endKeeps, fun q => by rw [State.queue_congr hlogs.queues], by rw [hlogs]; exact ⟨rfl, rfl, rfl, rfl⟩, fun r _ h8 => ?_,
    fun c hc => ⟨c, by rwa [hlogs.writes.dma] at hc, rfl, rfl⟩⟩
  have hne : ∀ b k, r.key ≠ Reg.key (.dmaEngSts b k) := fun b k h => by
    have := dmaEngSts_key b k
    omega
  unfold State.dmaCount
  dsimp only
  split
  · rfl
  · rw [State.reg_setRf_of_ne _ _ _ _ (hne _ _), State.reg_setRf_of_ne _ _ _ _ (hne _ _)]

/-- The packets of a queue take what ends; its state stays. -/
theorem cmdEnds_started (q : Nat) (f : Started → Started) : CmdEnds s { s with
    queues := Map.modify s.queues q (fun x => { x with started := x.started.map f }) } := by
  refine ⟨.of_eq rfl rfl rfl, fun k => ?_, ⟨rfl, rfl, rfl, rfl⟩, fun _ _ _ => rfl, fun c hc => ⟨c, hc, rfl, rfl⟩⟩
  show (Map.getD (Map.modify s.queues q _) k _).st = (Map.getD s.queues k _).st
  unfold Map.getD
  rw [Map.find?_modify]
  split
  · next h =>
    subst h
    cases Map.find? s.queues k <;> rfl
  · rfl

theorem cmdEnds_dmaDone (c : DmaCmd) (st detail : Nat) : CmdEnds s (s.dmaDone c st detail) ∧
    ∀ o ∈ (s.dmaDone c st detail).dma, o.id ≠ c.id := by
  obtain ⟨u, hu⟩ : ∃ u : State, u = { s with dma := s.dma.filter (fun o => o.id != c.id) } := ⟨_, rfl⟩
  have hdrop : CmdEnds s u := hu ▸ cmdEnds_dropDma s _
  have hgone : ∀ o ∈ u.dma, o.id ≠ c.id := fun o ho => by
    rw [hu] at ho
    simpa using (List.mem_filter.mp ho).2
  have hword : ∀ t : State, CmdEnds t (match c.desc with
      | some d =>
        if c.pkt || dStat d + 16 > poolSize c.org.core then t
        else t.poolWrite c.org.core (dStat d + 8) (leBytes (2 ^ 63 + st * 2 ^ 48 + detail % 2 ^ 48) 8)
      | none => t) := fun t => by
    split
    · split
      · exact .refl t
      · exact cmdEnds_poolWrite t _ _ _
    · exact .refl t
  have hqueue : ∀ t : State, CmdEnds t (if c.pkt then
      { t with queues := Map.modify t.queues c.org.queue (fun q => { q with started := q.started.map (fun p => p.dmaDone c st) }) }
      else t) := fun t => by
    split
    · exact cmdEnds_started t _ _
    · exact .refl t
  have hfail : ∀ t : State, CmdEnds t (if st == 8 then
      (t.ras_ { rasOf 0x03 2 (coreDie c.org.core) 0x03 c.org.core 8 with
        part := c.org.part, core := c.org.core, ctx := c.org.ctx }).failCtx c.org.ctx else t) := fun t => by
    split
    · exact (cmdEnds_ras t _).trans (cmdEnds_failCtx _ _)
    · exact .refl t
  have hend : CmdEnds u (s.dmaDone c st detail) := by
    have h := ((hword u).trans (cmdEnds_dmaCount _ c st)).trans ((hqueue _).trans (hfail _))
    rw [hu] at h ⊢
    exact h
  refine ⟨hdrop.trans hend, fun o ho => ?_⟩
  obtain ⟨o', ho', hid, -⟩ := hend.dma o ho
  exact hid ▸ hgone o' ho'

theorem cmdEnds_dmaLost (c : DmaCmd) (code : Nat) : CmdEnds s (s.dmaLost c code) ∧ ∀ o ∈ (s.dmaLost c code).dma, o.id ≠ c.id := by
  unfold State.dmaLost
  split
  · exact cmdEnds_dmaDone s c code 0
  · obtain ⟨hdone, hgone⟩ := cmdEnds_dmaDone (s.post c.org.part (dmaRecord c code false false false 0 (s.dieTime (coreDie c.org.core)))).1
      { c with desc := none } code 0
    refine ⟨((cmdEnds_post s _ _).trans hdone).trans (cmdEnds_failLaunch _ _ _), fun o ho => ?_⟩
    obtain ⟨o', ho', hid, -⟩ := State.dma_failLaunch _ _ _ o ho
    exact hid ▸ hgone o' ho'

theorem cmdEnds_failRmoAs (c : RmoCmd) (code : Nat) : CmdEnds s (s.failRmoAs c code) ∧ ∀ o ∈ (s.failRmoAs c code).rmo, o.id ≠ c.id := by
  unfold State.failRmoAs State.failRmo
  dsimp only
  generalize hu : ({ s with rmo := s.rmo.filter (fun o => o.id != c.id) } : State) = u
  have hdrop : CmdEnds s u := hu ▸ cmdEnds_dropRmo s _
  have hgone : ∀ o ∈ u.rmo, o.id ≠ c.id := fun o ho => by
    rw [← hu] at ho
    simpa using (List.mem_filter.mp ho).2
  have hend : ∀ (p st l : Nat) (r : List Word), CmdEnds u ((u.post p r).1.failLaunch l st) := fun p st l r =>
    (cmdEnds_post u p r).trans (cmdEnds_failLaunch _ l st)
  have key : ∀ v, CmdEnds u v → CmdEnds s v ∧ ∀ o ∈ v.rmo, o.id ≠ c.id := fun v h =>
    ⟨hdrop.trans h, fun o ho => hgone o (h.ends.rmo o ho)⟩
  split
  · exact key _ ((hend _ _ _ _).trans ((cmdEnds_ras _ _).trans (cmdEnds_failCtx _ _)))
  · exact key _ (hend _ _ _ _)

/-- The RMOs that meet a test all leave. -/
theorem cmdEnds_failRmos (code : Nat) (p : RmoCmd → Bool) : CmdEnds s (s.failRmos code p) ∧
    ∀ o ∈ (s.failRmos code p).rmo, p o = false := by
  have hstep : ∀ (u : State) (c : RmoCmd), CmdEnds u (if u.rmo.any (fun o => o.id == c.id) then u.failRmoAs c code else u) ∧
      ∀ o ∈ (if u.rmo.any (fun o => o.id == c.id) then u.failRmoAs c code else u).rmo, o.id ≠ c.id := fun u c => by
    split
    · exact cmdEnds_failRmoAs u c code
    · next h =>
      refine ⟨.refl u, fun o ho hid => h (List.any_eq_true.mpr ⟨o, ho, by simp [hid]⟩)⟩
  have hall : CmdEnds s (s.failRmos code p) := .foldl (fun u c => (hstep u c).1) _ s
  refine ⟨hall, fun o ho => ?_⟩
  by_contra hp
  have hin := List.mem_filter.mpr ⟨hall.ends.rmo o ho, by simpa using hp⟩
  exact foldl_of_mem (P := fun u : State => ∀ o' ∈ u.rmo, o'.id ≠ o.id)
    (fun u c h o' ho' => h o' ((hstep u c).1.ends.rmo o' ho')) (fun u => (hstep u o).2) (s.rmo.filter p) s hin o ho rfl

end

end Sys2Proof.Machine

/-! Proofs: partitions are reset, removed and quarantined (R271 to R275, R374, Table 16-5). -/

namespace Sys2Proof.Machine

theorem cfgPartSts_not_logKey (p : Nat) : ¬ LogKey (Reg.key (.cfgPartSts p)) ∧ Reg.key (.cfgPartSts p) % 16 = 8 := by
  unfold LogKey rasKeys
  simp only [Reg.key, List.mem_cons, List.not_mem_nil, or_false]
  omega

/-! ### Squash (Table 16-5 step 4) -/

section
variable (s : State) (p : Nat)

/-- The state in which matrix commands and routes of a partition are gone. -/
def State.squashCmds (s : State) (p : Nat) : State := { s with
  mtx := s.mtx.filter (fun c => !(c.org.part == p))
  routes := s.routes.filter (fun c => !(c.org.part == p)) }

/-- The DMA commands of a partition end with status 0x0B. -/
def State.squashDma (t : State) (c : DmaCmd) : State :=
  if t.dma.any (fun o => o.id == c.id) then
    (if c.desc.isNone then t.dmaLost c 0x0B else t.dmaDone c 0x0B c.cursor)
  else t

/-- The squashed packets of a partition's queues take status 0x07. -/
def squashQueue (p : Nat) (seqs : Map (List Nat)) (k : Nat) (q : Queue) : Queue :=
  if q.owner != p then q else { q with started := q.started.map (fun (e : Started) =>
    if (Map.getD seqs k []).contains e.pkt.seq then { e with status := 7 } else e) }

def State.squashQueues (s : State) (p : Nat) (seqs : Map (List Nat)) : State :=
  { s with queues := Map.mapV s.queues (squashQueue p seqs) }

theorem State.squash_eq : ∃ (seqs : Map (List Nat)) (n : Nat), s.squash p =
    let t := (s.dma.filter (fun c => c.org.part == p)).foldl State.squashDma (s.squashCmds p)
    let u := ((t.squashQueues p seqs).failRmos 0x0A (fun c => c.org.part == p)).countSquash p n
    { u with partOps := Map.modify u.partOps p (fun o => { o with draining := false }) } := by
  unfold State.squash
  exact ⟨_, _, rfl⟩

theorem cmdEnds_squashDma (c : DmaCmd) : CmdEnds s (s.squashDma c) ∧ ∀ o ∈ (s.squashDma c).dma, o.id ≠ c.id := by
  unfold State.squashDma
  split
  · split
    · exact cmdEnds_dmaLost s c 0x0B
    · exact cmdEnds_dmaDone s c 0x0B c.cursor
  · next h => exact ⟨.refl s, fun o ho hid => h (List.any_eq_true.mpr ⟨o, ho, by simp [hid]⟩)⟩

theorem State.st_of_mapV {s t : State} {f : Nat → Queue → Queue} (h : t.queues = Map.mapV s.queues f)
    (hf : ∀ k x, (f k x).st = x.st) (k : Nat) : (t.queue k).st = (s.queue k).st := by
  rw [State.queue, State.queue, h]
  unfold Map.getD
  rw [Map.find?_mapV]
  cases Map.find? s.queues k with
  | none => rfl
  | some x => exact hf k x

theorem cmdEnds_squashQueues (seqs : Map (List Nat)) : CmdEnds s (s.squashQueues p seqs) := by
  refine ⟨.of_eq rfl rfl rfl, fun k => ?_, ⟨rfl, rfl, rfl, rfl⟩, fun _ _ _ => rfl, fun c hc => ⟨c, hc, rfl, rfl⟩⟩
  refine State.st_of_mapV (s := s) (f := squashQueue p seqs) rfl (fun k x => ?_) k
  unfold squashQueue
  split <;> rfl

/-- What squashing keeps, and what it takes away. -/
structure Squashed (s t : State) (p : Nat) : Prop where
  ends : EndKeeps s t
  st : ∀ q, (t.queue q).st = (s.queue q).st
  resetQ : t.resetQ = s.resetQ
  status : t.partState p = s.partState p ∧ t.rf (.cfgPartSts p) 19 16 = s.rf (.cfgPartSts p) 19 16
  op : ∀ o, Map.find? s.partOps p = some o → Map.find? t.partOps p = some { o with draining := false }
  gone : (∀ c ∈ t.mtx, c.org.part ≠ p) ∧ (∀ c ∈ t.dma, c.org.part ≠ p) ∧ (∀ c ∈ t.rmo, c.org.part ≠ p) ∧
    (∀ c ∈ t.routes, c.org.part ≠ p)

theorem State.squash_spec : Squashed s (s.squash p) p := by
  obtain ⟨seqs, n, heq⟩ := s.squash_eq p
  obtain ⟨t, ht⟩ : ∃ t : State, t = (s.dma.filter (fun c => c.org.part == p)).foldl State.squashDma (s.squashCmds p) := ⟨_, rfl⟩
  obtain ⟨u, hu⟩ : ∃ u : State, u = (t.squashQueues p seqs).failRmos 0x0A (fun c => c.org.part == p) := ⟨_, rfl⟩
  obtain ⟨w, hw⟩ : ∃ w : State, w = u.countSquash p n := ⟨_, rfl⟩
  have heq : s.squash p = { w with partOps := Map.modify w.partOps p (fun o => { o with draining := false }) } := by
    rw [heq, hw, hu, ht]
  have hdma : CmdEnds (s.squashCmds p) t := ht ▸ .foldl (fun v c => (cmdEnds_squashDma v c).1) _ _
  obtain ⟨hrmo, hrmogone⟩ := cmdEnds_failRmos (t.squashQueues p seqs) 0x0A (fun c => c.org.part == p)
  rw [← hu] at hrmo hrmogone
  have hall : CmdEnds (s.squashCmds p) u := (hdma.trans (cmdEnds_squashQueues t p seqs)).trans hrmo
  have hcount : RegsOnly u w := hw ▸ regsOnly_setRf _ _ _ _ _
  have hdmagone : ∀ c ∈ u.dma, c.org.part ≠ p := fun c hc hpart => by
    obtain ⟨c', hc', hid, horg⟩ := hall.dma c hc
    obtain ⟨c'', hc'', hid', horg'⟩ := ((cmdEnds_squashQueues t p seqs).trans hrmo).dma c hc
    have hin : c' ∈ s.dma.filter (fun c => c.org.part == p) := List.mem_filter.mpr ⟨hc', by simp [horg, hpart]⟩
    have hnone : ∀ o ∈ t.dma, o.id ≠ c'.id := by
      rw [ht]
      exact foldl_of_mem (P := fun v : State => ∀ o ∈ v.dma, o.id ≠ c'.id) (fun v x h o ho => by
        obtain ⟨o', ho', hid, -⟩ := (cmdEnds_squashDma v x).1.dma o ho
        exact hid ▸ h o' ho') (fun v => (cmdEnds_squashDma v c').2) _ _ hin
    exact hnone c'' hc'' (hid'.trans hid.symm)
  obtain ⟨hops, hresets, hmtx, hroutes⟩ := hall.rest
  have hsts : ∀ {hi lo : Nat}, hi < 47 → hi < 32 → w.rf (.cfgPartSts p) hi lo = s.rf (.cfgPartSts p) hi lo := fun hi hlo => by
    rw [hw, State.countSquash, State.rf_setRf_other _ _ _ (by decide) (.inl hlo)]
    exact State.rf_congr (hall.reg _ (cfgPartSts_not_logKey p).1 (cfgPartSts_not_logKey p).2) _ _
  have hcmds : EndKeeps s (s.squashCmds p) := .of_eq rfl rfl rfl
  rw [heq]
  refine ⟨(hcmds.trans hall.ends).trans (.of_eq (by rw [hcount]) (by rw [hcount]) (by rw [hcount])), fun q => ?_, ?_, ⟨hsts (by decide) (by decide),
    hsts (by decide) (by decide)⟩, fun o ho => ?_, fun c hc => ?_, fun c hc => ?_, fun c hc => ?_, fun c hc => ?_⟩
  · have h : w.queues = u.queues := by rw [hcount]
    exact (congrArg Queue.st (State.queue_congr h q)).trans (hall.st q)
  · show w.resetQ = _
    rw [hcount]
    exact hresets
  · show Map.find? (Map.modify w.partOps p _) p = _
    have hops' : w.partOps = s.partOps := by
      rw [hcount]
      exact hops
    rw [Map.find?_modify, if_pos rfl, hops', ho]
    rfl
  · have hc : c ∈ (s.squashCmds p).mtx := by
      rw [← hmtx]
      have h : w.mtx = u.mtx := by rw [hcount]
      exact h ▸ hc
    simpa using (List.mem_filter.mp hc).2
  · have h : w.dma = u.dma := by rw [hcount]
    exact hdmagone c (h ▸ hc)
  · have h : w.rmo = u.rmo := by rw [hcount]
    simpa using hrmogone c (h ▸ hc)
  · have hc : c ∈ (s.squashCmds p).routes := by
      rw [← hroutes]
      have h : w.routes = u.routes := by rw [hcount]
      exact h ▸ hc
    simpa using (List.mem_filter.mp hc).2

end

/-! ### The start of a reset or removal (Table 16-5 steps 1 and 2) -/

/-- A queue whose partition is being reset: no packet starts, and what waits for a lost command ends (R272). -/
def beginQueue (p : Nat) (lost : List Nat) (q : Queue) : Queue :=
  if q.owner != p || q.st == 0 then q else { q.discard with
    st := 6
    started := q.discard.started.map (fun (e : Started) =>
      if e.live.any lost.contains then { e with live := e.live.filter (fun i => !lost.contains i), status := 7 } else e)
    disabledBy := none }

/-- A launch whose partition is being reset is replayed no more. -/
def beginLaunch (p : Nat) (l : Launch) : Launch := if l.part == p then { l with suspect := false } else l

/-- The state in which the queues of a partition have stopped. -/
def State.beginStop (s : State) (p : Nat) (o : PartOp) (lost : List Nat) : State := { s with
  partOps := Map.put s.partOps p { o with begun := true }
  queues := Map.mapV s.queues (fun _ => beginQueue p lost)
  cmdBusy := NSet.del s.cmdBusy p
  suspects := s.suspects.filter (fun x => s.ctxOwner x.ctx != p)
  launches := Map.mapV s.launches (fun _ => beginLaunch p) }

/-- The launches of a partition stop with status 0x07. -/
def State.stopLaunches (s : State) (p : Nat) : State :=
  ((s.launches.filter (fun kv => kv.2.part == p)).map Prod.fst).foldl (fun t l => t.failLaunch l 7) s

theorem State.beginPart_eq {s : State} {p : Nat} {o : PartOp} (h : Map.find? s.partOps p = some o) : ∃ lost : List Nat,
    s.beginPart p =
      let t := (s.beginStop p o lost).stopLaunches p
      let u := (t.partBasins p).foldl State.wake t
      if o.timeout == 0 then u.squash p else u := by
  unfold State.beginPart
  rw [h]
  exact ⟨_, rfl⟩

section
variable {s : State} {p : Nat}

theorem State.foldl_failLaunch_failsWith {st k : Nat} {l : Launch} (ids : List Nat) (hk : k ∈ ids)
    (hl : Map.find? s.launches k = some l) (hp : l.phase ≠ .failing) :
    FailsWith (ids.foldl (fun t id => t.failLaunch id st) s) k st := by
  induction ids generalizing s with
  | nil => cases hk
  | cons j js ih =>
    by_cases hj : k = j
    · subst hj
      exact (State.failLaunch_failsWith hl hp).keeps (.foldl (fun u id => endKeeps_failLaunch u id st) js _)
    · exact ih ((List.mem_cons.mp hk).resolve_left hj) ((State.launches_failLaunch_of_ne s st hj).trans hl)

theorem endsOnly_stopLaunches (s : State) (p : Nat) : EndsOnly s (s.stopLaunches p) := by
  unfold State.stopLaunches
  generalize (s.launches.filter (fun kv => kv.2.part == p)).map Prod.fst = ids
  exact foldl_keeps (P := EndsOnly s) (fun u k h => h.trans (endsOnly_failLaunch u k 7)) ids s (.refl s)

theorem State.stopLaunches_failsWith {k : Nat} {l : Launch} (hl : Map.find? s.launches k = some l) (hpart : l.part = p)
    (hp : l.phase ≠ .failing) : FailsWith (s.stopLaunches p) k 7 :=
  State.foldl_failLaunch_failsWith _ (List.mem_map.mpr ⟨(k, l), List.mem_filter.mpr ⟨Map.mem_of_find? hl, by simp [hpart]⟩, rfl⟩) hl hp

/-- Waking basins writes their power status alone. -/
theorem State.wakes_spec (bs : List Nat) (hbs : ∀ b ∈ bs, b < 96) (s : State) : RegsOnly s (bs.foldl State.wake s) ∧
    ∀ r : Reg, (∀ b < 96, r.key ≠ Reg.key (.bsnPwrSts b)) → (bs.foldl State.wake s).reg r = s.reg r := by
  induction bs generalizing s with
  | nil => exact ⟨rfl, fun _ _ => rfl⟩
  | cons b bs ih =>
    obtain ⟨hrest, hreg⟩ := ih (fun x hx => hbs x (List.mem_cons_of_mem _ hx)) (s.wake b)
    have hone : RegsOnly s (s.wake b) ∧ ∀ r : Reg, (∀ b < 96, r.key ≠ Reg.key (.bsnPwrSts b)) → (s.wake b).reg r = s.reg r := by
      unfold State.wake
      split
      · exact ⟨rfl, fun _ _ => rfl⟩
      · exact ⟨regsOnly_setRf _ _ _ _ _, fun r hr => State.reg_setRf_of_ne _ _ _ _ (hr b (hbs b List.mem_cons_self))⟩
    exact ⟨hone.1.trans hrest, fun r hr => (hreg r hr).trans (hone.2 r hr)⟩

theorem State.mem_partBasins {b : Nat} (h : b ∈ s.partBasins p) : b < 96 := List.mem_range.mp (List.mem_filter.mp h).1

theorem cfgPartSts_ne_bsnPwrSts (p : Nat) : ∀ b < 96, Reg.key (.cfgPartSts p) ≠ Reg.key (.bsnPwrSts b) := by
  intro b hb
  have : b / 8 < 12 := by omega
  simp only [Reg.key, panBase]
  omega

/-- What the start of a reset leaves. -/
structure Begun (s t : State) (p : Nat) (o : PartOp) : Prop where
  status : t.partState p = s.partState p ∧ t.rf (.cfgPartSts p) 19 16 = s.rf (.cfgPartSts p) 19 16
  op : ∃ o', Map.find? t.partOps p = some o' ∧ o'.action = o.action ∧ o'.begun = true
  launches : ∀ id l, Map.find? s.launches id = some l → l.part = p → l.phase ≠ .failing → FailsWith t id 7
  queues : ∀ q x, Map.find? s.queues q = some x → x.owner = p → x.st ≠ 0 → (t.queue q).st = 6
  resetQ : t.resetQ = s.resetQ

theorem State.beginPart_spec {o : PartOp} (h : Map.find? s.partOps p = some o) : Begun s (s.beginPart p) p o := by
  obtain ⟨lost, heq⟩ := State.beginPart_eq h
  obtain ⟨t, ht⟩ : ∃ t : State, t = (s.beginStop p o lost).stopLaunches p := ⟨_, rfl⟩
  obtain ⟨hwregs, hwreg⟩ := State.wakes_spec (t.partBasins p) (fun b hb => State.mem_partBasins hb) t
  have hends : EndsOnly (s.beginStop p o lost) t := ht ▸ endsOnly_stopLaunches _ p
  have hregs : t.regs = s.regs := hends.regs
  have hops : t.partOps = Map.put s.partOps p { o with begun := true } := by rw [hends]; rfl
  have hresets : t.resetQ = s.resetQ := by rw [hends]; rfl
  have hqueues : t.queues = Map.mapV s.queues (fun _ => beginQueue p lost) := by rw [hends]; rfl
  have hwoken : Begun s ((t.partBasins p).foldl State.wake t) p o := by
    generalize (t.partBasins p).foldl State.wake t = u at hwregs hwreg
    have hsts : ∀ hi lo, u.rf (.cfgPartSts p) hi lo = s.rf (.cfgPartSts p) hi lo := fun hi lo =>
      State.rf_congr ((hwreg _ (cfgPartSts_ne_bsnPwrSts p)).trans (State.reg_congr hregs _)) hi lo
    refine ⟨⟨hsts _ _, hsts _ _⟩, ⟨{ o with begun := true }, ?_, rfl, rfl⟩, fun id l hl hpart hp => ?_, fun q x hx hown hst => ?_, ?_⟩
    · rw [hwregs]
      exact hops ▸ Map.find?_put_same _ _ _
    · have hl' : Map.find? (s.beginStop p o lost).launches id = some (beginLaunch p l) := by
        show Map.find? (Map.mapV s.launches (fun _ => beginLaunch p)) id = _
        rw [Map.find?_mapV, hl]
        rfl
      have hbegin : beginLaunch p l = { l with suspect := false } := if_pos (by simp [hpart])
      have hfail : FailsWith t id 7 := ht ▸ State.stopLaunches_failsWith hl' (by rw [hbegin]; exact hpart) (by rw [hbegin]; exact hp)
      exact hfail.keeps (.of_eq (by rw [hwregs]) (by rw [hwregs]) (by rw [hwregs]))
    · have hu : u.queues = t.queues := by rw [hwregs]
      rw [State.queue, hu, hqueues, Map.getD, Map.find?_mapV, hx]
      show (beginQueue p lost x).st = 6
      rw [beginQueue, if_neg (by simp [hown, hst])]
    · rw [hwregs]
      exact hresets
  rw [heq]
  dsimp only
  rw [← ht]
  split
  · have hsq := State.squash_spec ((t.partBasins p).foldl State.wake t) p
    obtain ⟨o', ho', ha, hb⟩ := hwoken.op
    refine ⟨⟨hsq.status.1.trans hwoken.status.1, hsq.status.2.trans hwoken.status.2⟩, ⟨_, hsq.op o' ho', ha, hb⟩,
      fun id l hl hpart hp => (hwoken.launches id l hl hpart hp).keeps hsq.ends, fun q x hx hown hst =>
        (hsq.st q).trans (hwoken.queues q x hx hown hst), hsq.resetQ.trans hwoken.resetQ⟩
  · exact hwoken

end

/-! ### An accepted request (R272, R273) -/

/-- What an accepted request of a kind leaves, of the state `s` before it. -/
structure Accepted (s t : State) (p a : Nat) : Prop where
  status : t.partState p = (if a = 2 then 3 else 2) ∧ t.rf (.cfgPartSts p) 19 16 = 1
  op : ∃ o, Map.find? t.partOps p = some o ∧ o.action = a ∧ o.begun = true
  launches : ∀ id l, Map.find? s.launches id = some l → l.part = p → l.phase ≠ .failing → FailsWith t id 7
  queues : ∀ q x, Map.find? s.queues q = some x → x.owner = p → x.st ≠ 0 → (t.queue q).st = 6
  resetQ : ∀ r ∈ t.resetQ, r.level ≤ 2 → s.basinOwner (coreBasin r.unit) ≠ p

section
variable {s : State} {p : Nat}

/-- The status of a partition being reset or removed: STATE shows which. -/
def State.partLeaves (s : State) (p action : Nat) : State :=
  (s.setRf (.cfgPartSts p) 47 32 0).partStatus p (if action == 2 then 3 else 2) 1 0

theorem partRegs_partLeaves (s : State) (p a : Nat) : PartRegs p s (s.partLeaves p a) := fun r hc hs => by
  unfold State.partLeaves
  rw [State.reg_partStatus_of_ne _ _ _ _ _ hs, State.reg_setRf_of_ne _ _ _ _ hs]

theorem logsOnly_partLeaves (s : State) (p a : Nat) : LogsOnly s (s.partLeaves p a) :=
  (logsOnly_setRf s _ _ _ _).trans (logsOnly_partStatus _ _ _ _ _)

theorem State.partLeaves_spec (s : State) (p a : Nat) : (s.partLeaves p a).partState p = (if a = 2 then 3 else 2) ∧
    (s.partLeaves p a).rf (.cfgPartSts p) 19 16 = 1 := by
  have hst : (if a == 2 then 3 else 2) < 16 := by split <;> decide
  obtain ⟨h1, h2⟩ := (s.setRf (.cfgPartSts p) 47 32 0).partStatus_spec p (res := 1) 0 hst (by decide)
  exact ⟨h1.trans (if_congr beq_iff_eq rfl rfl), h2⟩

/-- A change of STATE that keeps the partition enabled keeps who owns basins. -/
theorem PartRegs.basinOwner {t : State} (h : PartRegs p s t) (hon : t.partOn p = s.partOn p) (b : Nat) :
    t.basinOwner b = s.basinOwner b := by
  have hpred : (fun q => t.partOn q && t.partBasinBit q b) = fun q => s.partOn q && s.partBasinBit q b := by
    funext q
    rw [h.partBasinBit]
    by_cases hq : q = p
    · rw [hq, hon]
    · rw [h.partOn hq]
  unfold State.basinOwner
  rw [hpred]

theorem State.partOn_of_state {s : State} {p n : Nat} (h : s.partState p = n) (hn : n ≠ 0) : s.partOn p = true := by
  unfold State.partOn
  rw [show s.rf (.cfgPartSts p) 23 20 = n from h]
  simpa using hn

/-- The state of an accepted request before it starts. -/
def State.partRequested (s : State) (p action timeout : Nat) (flr : Bool) : State :=
  let t := s.partLeaves p action
  { t with
    partOps := Map.put t.partOps p ⟨action, timeout, action == 2 || !t.retains p, true, false, flr⟩
    resetQ := t.resetQ.filter (fun r => !(r.level ≤ 2 && t.basinOwner (coreBasin r.unit) == p)) }.noteActive

theorem State.startPart_eq (s : State) (p a n : Nat) (f : Bool) : s.startPart p a n f =
    if (s.partRequested p a n f).partChanging p then s.partRequested p a n f else (s.partRequested p a n f).beginPart p := rfl

theorem cfgPart_ne_rstSts (p : Nat) : Reg.key (.cfgPartSts p) ≠ Reg.key .rstSts ∧ Reg.key (.cfgPartBsnLo p) ≠ Reg.key .rstSts ∧
    Reg.key (.cfgPartBsnHi p) ≠ Reg.key .rstSts := by
  simp only [Reg.key]
  omega

theorem State.startPart_spec {a n : Nat} {f : Bool} (h1 : s.partState p = 1)
    (hidle : ∀ b ∈ s.partBasins p, Map.find? s.modeChg b = none) : Accepted s (s.startPart p a n f) p a := by
  obtain ⟨t, ht⟩ : ∃ t : State, t = s.partLeaves p a := ⟨_, rfl⟩
  have hlogs : LogsOnly s t := ht ▸ logsOnly_partLeaves s p a
  have hregs : PartRegs p s t := ht ▸ partRegs_partLeaves s p a
  obtain ⟨hst, hres⟩ := s.partLeaves_spec p a
  rw [← ht] at hst hres
  obtain ⟨u, hu⟩ : ∃ u : State, u = { t with
    partOps := Map.put t.partOps p ⟨a, n, a == 2 || !t.retains p, true, false, f⟩
    resetQ := t.resetQ.filter (fun r => !(r.level ≤ 2 && t.basinOwner (coreBasin r.unit) == p)) } := ⟨_, rfl⟩
  have hreq : s.partRequested p a n f = u.noteActive := by rw [hu, ht]; rfl
  have hact : RegsOnly u u.noteActive := regsOnly_setRf _ _ _ _ _
  have hreg : ∀ r : Reg, r.key ≠ Reg.key .rstSts → u.noteActive.reg r = t.reg r := fun r hr =>
    (State.reg_setRf_of_ne u _ _ _ hr).trans (by rw [hu]; rfl)
  obtain ⟨hsts, hlo, hhi⟩ := cfgPart_ne_rstSts p
  have hbasins : u.noteActive.partBasins p = s.partBasins p := by
    refine List.filter_congr fun b _ => ?_
    rw [← hregs.partBasinBit p b]
    unfold State.partBasinBit
    rw [hreg _ hlo, hreg _ hhi]
  have hmode : u.noteActive.modeChg = s.modeChg := by
    rw [hact, hu]
    show t.modeChg = s.modeChg
    rw [hlogs]
  have hnot : u.noteActive.partChanging p = false := by
    unfold State.partChanging
    rw [hbasins, hmode, List.any_eq_false]
    intro b hb
    simp [hidle b hb]
  have hop : Map.find? u.noteActive.partOps p = some ⟨a, n, a == 2 || !t.retains p, true, false, f⟩ := by
    rw [hact, hu]
    exact Map.find?_put_same _ _ _
  have hbegun := State.beginPart_spec hop
  have hon : t.partOn p = s.partOn p := by
    rw [State.partOn_of_state h1 (by decide), State.partOn_of_state hst (by split <;> decide)]
  rw [State.startPart_eq, hreq, if_neg (by rw [hnot]; decide)]
  refine ⟨⟨hbegun.status.1.trans ((State.rf_congr (hreg _ hsts) _ _).trans hst), hbegun.status.2.trans ((State.rf_congr (hreg _ hsts) _ _).trans hres)⟩,
    hbegun.op, fun id l hl => hbegun.launches id l ?_, fun q x hx => hbegun.queues q x ?_, fun r hr hlevel hown => ?_⟩
  · rw [hact, hu]
    show Map.find? t.launches id = _
    rw [hlogs.launches, hl]
  · rw [hact, hu]
    show Map.find? t.queues q = _
    rw [hlogs.queues, hx]
  · rw [hbegun.resetQ, hact, hu] at hr
    have := (List.mem_filter.mp hr).2
    rw [hregs.basinOwner hon, hown] at this
    simp [hlevel] at this

/-- A TOKEN changes nothing that a request reads. -/
theorem State.partToken_spec (s : State) (p tok : Nat) : RegsOnly s (s.partToken p tok) ∧ (s.partToken p tok).partState p = s.partState p ∧
    (s.partToken p tok).partBasins p = s.partBasins p ∧ ∀ b, (s.partToken p tok).basinOwner b = s.basinOwner b := by
  have hregs := partRegs_partToken s p tok
  have hst := s.partState_partToken p tok
  refine ⟨regsOnly_setRf _ _ _ _ _, hst, hregs.partBasins p, fun b => hregs.basinOwner ?_ b⟩
  unfold State.partOn
  rw [show State.rf (s.partToken p tok) (.cfgPartSts p) 23 20 = s.rf (.cfgPartSts p) 23 20 from hst]

theorem State.writePartRst_spec (s : State) (p v : Nat) :
    (s.partState p = 1 → (∀ b ∈ s.partBasins p, Map.find? s.modeChg b = none) → fld v 3 0 = 1 ∨ fld v 3 0 = 2 →
      Accepted s (s.writePartRst p v) p (fld v 3 0)) ∧
    (s.partState p = 2 ∨ s.partState p = 3 → (s.writePartRst p v).partState p = s.partState p ∧
      (s.writePartRst p v).rf (.cfgPartSts p) 19 16 = 2) ∧
    (s.partState p = 0 ∨ s.partState p = 4 → (s.writePartRst p v).partState p = s.partState p ∧
      (s.writePartRst p v).rf (.cfgPartSts p) 19 16 = 7) := by
  obtain ⟨hrest, hst, hbasins, howner⟩ := s.partToken_spec p (fld v 39 32)
  obtain ⟨t, ht⟩ : ∃ t : State, t = s.partToken p (fld v 39 32) := ⟨_, rfl⟩
  rw [← ht] at hrest hst hbasins howner
  have heq : s.writePartRst p v = if t.partBusy p then t.partResult p 2 0
      else if t.partState p != 1 || (fld v 3 0 != 1 && fld v 3 0 != 2) then t.partResult p 7 0
      else t.startPart p (fld v 3 0) (fld v 25 16) false := by rw [ht]; rfl
  rw [heq]
  refine ⟨fun h1 hidle hact => ?_, fun h => ?_, fun h => ?_⟩
  · rw [if_neg (by rw [State.partBusy_of_not (by omega) (by omega)]; decide),
      if_neg (by rcases hact with h | h <;> simp [hst, h1, h])]
    have hacc := State.startPart_spec (s := t) (a := fld v 3 0) (n := fld v 25 16) (f := false) (hst.trans h1)
      (by rw [hbasins, hrest]; exact hidle)
    refine ⟨hacc.status, hacc.op, fun id l hl => hacc.launches id l (by rw [hrest]; exact hl),
      fun q x hx => hacc.queues q x (by rw [hrest]; exact hx), fun r hr hlevel => howner _ ▸ hacc.resetQ r hr hlevel⟩
  · rw [if_pos (State.partBusy_of_mem (by omega))]
    obtain ⟨h1, h2⟩ := t.partResult_spec p (res := 2) 0 (by decide)
    exact ⟨h1.trans hst, h2⟩
  · rw [if_neg (by rw [State.partBusy_of_not (by omega) (by omega)]; decide), if_pos (by simp only [Bool.or_eq_true, bne_iff_ne]; omega)]
    obtain ⟨h1, h2⟩ := t.partResult_spec p (res := 7) 0 (by decide)
    exact ⟨h1.trans hst, h2⟩

/-- A function-level reset (R273). -/
theorem execFlr_spec (s : State) (p : Fin 96) :
    (s.partState p.val = 1 → (∀ b ∈ s.partBasins p.val, Map.find? s.modeChg b = none) →
      ∃ t : State, exec (.flr p) s = .next t ∧ Accepted s t p.val 1) ∧
    (s.partState p.val = 2 ∨ s.partState p.val = 3 → exec (.flr p) s = .next s) ∧
    (s.partState p.val = 0 ∨ s.partState p.val = 4 → exec (.flr p) s = .next (s.partResult p.val 7 0)) := by
  refine ⟨fun h1 hidle => ?_, fun h => ?_, fun h => ?_⟩
  · obtain ⟨u, hu⟩ : ∃ u : State, u = { s with cfg := Map.keep s.cfg (fun k => k / 1024 != p.val + 1) } := ⟨_, rfl⟩
    have hacc := State.startPart_spec (s := u) (p := p.val) (a := 1) (n := 10) (f := true) (by rw [hu]; exact h1) (by rw [hu]; exact hidle)
    refine ⟨u.startPart p.val 1 10 true, ?_, hacc.status, hacc.op, fun id l hl => hacc.launches id l (by rw [hu]; exact hl),
      fun q x hx => hacc.queues q x (by rw [hu]; exact hx), fun r hr hlevel => ?_⟩
    · show execFlr p s = _
      unfold execFlr
      rw [if_pos (by simp [h1]), hu]
    · have := hacc.resetQ r hr hlevel
      rw [hu] at this
      exact this
  · show execFlr p s = _
    unfold execFlr
    rw [if_neg (by simp only [beq_iff_eq]; omega), if_pos (State.partBusy_of_mem h)]
  · show execFlr p s = _
    unfold execFlr
    rw [if_neg (by simp only [beq_iff_eq]; omega), if_neg (by rw [State.partBusy_of_not (by omega) (by omega)]; decide)]

end

/-! ### The end of a reset or removal (Table 16-5 steps 5 to 7) -/

/-- `t` holds the queues, the windows and the operations on partitions of `s`. -/
def SameParts (s t : State) : Prop := t.queues = s.queues ∧ t.windows = s.windows ∧ t.partOps = s.partOps

namespace SameParts
variable {s t u : State}

theorem refl (s : State) : SameParts s s := ⟨rfl, rfl, rfl⟩
theorem trans (h : SameParts s t) (k : SameParts t u) : SameParts s u :=
  ⟨k.1.trans h.1, k.2.1.trans h.2.1, k.2.2.trans h.2.2⟩
theorem of_que (h : QueOnly s t) : SameParts s t := by
  rw [h]
  exact ⟨rfl, rfl, rfl⟩
theorem of_regs (h : RegsOnly s t) : SameParts s t := by
  rw [h]
  exact ⟨rfl, rfl, rfl⟩
theorem foldl {α : Type} {f : State → α → State} (h : ∀ u x, SameParts u (f u x)) (xs : List α) (s : State) :
    SameParts s (xs.foldl f s) := by
  induction xs generalizing s with
  | nil => exact refl s
  | cons x xs ih => exact (h s x).trans (ih _)

end SameParts

section
variable (s : State)

theorem queOnly_tableFault (rule p : Nat) (f : XFault) (w : Bool) : QueOnly s (s.tableFault rule p f w) :=
  (queOnly_weirFault s p none f w).trans (.of_logs (logsOnly_dropped _ _ _))

theorem logRegs_tableFault (rule p : Nat) (f : XFault) (w : Bool) : LogRegs s (s.tableFault rule p f w) :=
  (logRegs_weirFault s p none f w).trans (logRegs_ras _ _)

/-- A STATUS that is written, or whose write faults. -/
theorem State.winStatus_keeps (p n st : Nat) : QueOnly s (s.winStatus p n st (fun u => u)) ∧
    LogRegs s (s.winStatus p n st (fun u => u)) := by
  obtain ⟨hok, herr⟩ := State.winStatus_spec s p n st (fun u => u)
  cases h : s.ipaWrite p (s.winAddr p n + 6) [BitVec.ofNat 8 st] with
  | ok t =>
    rw [hok t h]
    exact ⟨queOnly_ipaWrite h, logRegs_ipaWrite s h⟩
  | error f =>
    rw [herr f h]
    split
    · exact ⟨.refl s, .refl s⟩
    · exact ⟨queOnly_tableFault s _ _ _ _, logRegs_tableFault s _ _ _ _⟩

theorem State.sessStatus_keeps (i st : Nat) : QueOnly s (s.sessStatus i st (fun u => u)) := by
  unfold State.sessStatus
  split
  · next h => exact queOnly_ipaWrite h
  · split
    · exact .refl s
    · exact queOnly_tableFault s _ _ _ _

theorem sameParts_sendCtl (i opc psn : Nat) (b : Body) (bs : List Byte) : SameParts s (s.sendCtl i opc psn b bs) := by
  unfold State.sendCtl
  split
  · exact .refl s
  · dsimp only
    split
    · exact .refl s
    · exact ⟨rfl, rfl, rfl⟩

theorem sameParts_closeSessions (p : Nat) : SameParts s (s.closeSessions p) := by
  refine .foldl (fun u i => ?_) _ s
  dsimp only
  have hbye : SameParts u (match Map.find? u.sessions i with
      | some ss => if ss.known then u.sendCtl i 0x23 0 {} [] else u
      | none => u) := by
    split
    · split
      · exact sameParts_sendCtl u _ _ _ _ _
      · exact .refl u
    · exact .refl u
  have hdrop : ∀ v : State, SameParts v { v with sessions := Map.drop v.sessions i } := fun _ => ⟨rfl, rfl, rfl⟩
  exact (hbye.trans (hdrop _)).trans (.of_que (State.sessStatus_keeps _ i 9))

/-- What withdrawing a partition's windows leaves. -/
theorem State.dropWindows_spec (p : Nat) : (s.dropWindows p).queues = s.queues ∧ (s.dropWindows p).partOps = s.partOps ∧
    (∀ w ∈ (s.dropWindows p).windows, w.1 / 65536 ≠ p) ∧ LogRegs s (s.dropWindows p) := by
  obtain ⟨u, hu⟩ : ∃ u : State, u = { s with windows := Map.keep s.windows (fun k => k / 65536 != p) } := ⟨_, rfl⟩
  obtain ⟨ws, heq⟩ : ∃ ws : List Nat, s.dropWindows p =
      { (ws.foldl (fun (t : State) n => t.winStatus p n 1 (fun v => v)) u).dropXlat (fun e => e.part == p) (fun x => x.part == p)
          (fun x => x.part == p) with
        invs := Map.drop (ws.foldl (fun (t : State) n => t.winStatus p n 1 (fun v => v)) u).invs p } := by
    rw [hu]
    exact ⟨_, rfl⟩
  have hque : QueOnly u (ws.foldl (fun (t : State) n => t.winStatus p n 1 (fun v => v)) u) :=
    .foldl (fun v n => (v.winStatus_keeps p n 1).1) ws u
  have hregs : LogRegs u (ws.foldl (fun (t : State) n => t.winStatus p n 1 (fun v => v)) u) :=
    .foldl (fun v n => (v.winStatus_keeps p n 1).2) ws u
  rw [heq]
  generalize ws.foldl (fun (t : State) n => t.winStatus p n 1 (fun v => v)) u = v at hque hregs
  have hwin : v.windows = Map.keep s.windows (fun k => k / 65536 != p) := by rw [hque, hu]
  refine ⟨?_, ?_, fun w hw => ?_, ?_⟩
  · show v.queues = _
    rw [hque, hu]
  · show v.partOps = _
    rw [hque, hu]
  · have hw : w ∈ v.windows := hw
    rw [hwin] at hw
    simpa using (List.mem_filter.mp hw).2
  · intro r hr
    exact (hregs r hr).trans (by rw [hu]; rfl)

/-- A basin of the partition wakes, and its caches and accumulators are emptied. -/
def State.resetBasin (s : State) (b : Nat) : State := ((s.wakeEnd b).emptyCaches b).zeroAcc b

theorem sameParts_resetBasin (b : Nat) : SameParts s (s.resetBasin b) := by
  have hwake : RegsOnly s (s.wakeEnd b) := (regsOnly_setRf _ _ _ _ _).trans (regsOnly_setRf _ _ _ _ _)
  have hacc : ∀ u : State, SameParts u (u.zeroAcc b) := fun _ => ⟨rfl, rfl, rfl⟩
  exact ((SameParts.of_regs hwake).trans (.of_que (queOnly_emptyCaches _ b))).trans (hacc _)

theorem State.reg_resetBasin (b : Nat) {r : Reg} (h : r.key ≠ Reg.key (.bsnPwrSts b)) : (s.resetBasin b).reg r = s.reg r := by
  have hacc : ∀ u : State, (u.zeroAcc b).reg r = u.reg r := fun _ => rfl
  unfold State.resetBasin State.wakeEnd
  rw [hacc, State.reg_congr (State.regs_emptyCaches _ b), State.reg_setRf_of_ne _ _ _ _ h, State.reg_setRf_of_ne _ _ _ _ h]

theorem State.resetBasins_spec (bs : List Nat) (hbs : ∀ b ∈ bs, b < 96) : SameParts s (bs.foldl State.resetBasin s) ∧
    ∀ r : Reg, (∀ b < 96, r.key ≠ Reg.key (.bsnPwrSts b)) → (bs.foldl State.resetBasin s).reg r = s.reg r := by
  refine ⟨.foldl sameParts_resetBasin bs s, fun r hr => ?_⟩
  induction bs generalizing s with
  | nil => rfl
  | cons b bs ih =>
    exact (ih (s.resetBasin b) fun x hx => hbs x (List.mem_cons_of_mem _ hx)).trans
      (s.reg_resetBasin b (hr b (hbs b List.mem_cons_self)))

/-- The registers of domain (P) are restored, which changes registers alone. -/
theorem regsOnly_restores (rs : List Reg) : RegsOnly s (rs.foldl (fun (t : State) r => t.restore r [.p]) s) := by
  induction rs generalizing s with
  | nil => rfl
  | cons r rs ih => exact (regsOnly_setReg s r _).trans (ih (s.restore r [.p]))

/-- What clearing a partition leaves of its queues, its windows and its pools. -/
theorem State.clearPart_spec (p : Nat) : (s.clearPart p).queues = Map.keepV s.queues (fun _ q => q.owner != p) ∧
    (s.clearPart p).windows = s.windows ∧ (s.clearPart p).pool = s.pool := by
  have h := regsOnly_restores s (partRegs p)
  unfold State.clearPart
  dsimp only
  generalize (partRegs p).foldl (fun (t : State) r => t.restore r [.p]) s = u at h
  rw [h]
  exact ⟨rfl, rfl, rfl⟩

theorem State.pool_noteRecord (ctx : Nat) : (s.noteRecord ctx).pool = s.pool := by
  unfold State.noteRecord
  split
  · rfl
  · unfold State.noteIpa
    split
    · exact (logsOnly_noteMet s _ _).pool
    · rfl

theorem XlatPosts.pool {s t : State} (h : XlatPosts s t) : t.pool = s.pool := by rw [h]

theorem State.pool_activate (ctx : Nat) : (s.activate ctx).pool = s.pool := by
  have hread : ∀ {t : State} {a : ActiveCtx}, s.readActive ctx = some (t, a) → t.pool = s.pool := fun {t a} h => by
    unfold State.readActive at h
    dsimp only at h
    split at h
    · cases h
      split
      · exact ((endsOnly_failCtx _ _).pool.trans (logsOnly_ras _ _).pool).trans (s.pool_noteRecord ctx)
      · exact s.pool_noteRecord ctx
    · split at h
      · cases h
      · cases h
        split
        · exact (endsOnly_failCtx _ _).pool.trans (xlatPosts_weirFault s _ _ _ _).pool
        · exact (xlatPosts_weirFault s _ _ _ _).pool
  unfold State.activate
  split
  · rfl
  · split
    · rfl
    · next h =>
      have pool := hread h
      exact pool

theorem State.pool_activateWaiting : s.activateWaiting.pool = s.pool :=
  foldl_keeps (P := fun u : State => u.pool = s.pool) (fun u _ h => (u.pool_activate _).trans h) _ s rfl

/-- Translations of a partition are gone. -/
def NoXlat (t : State) (p : Nat) : Prop :=
  (∀ e ∈ t.tlb, e.part ≠ p) ∧ (∀ x ∈ t.utlb, x.2.part ≠ p) ∧ (∀ x ∈ t.wc1, x.part ≠ p) ∧ ∀ x ∈ t.wc2, x.part ≠ p

theorem State.dropXlat_part (p : Nat) :
    NoXlat (s.dropXlat (fun e => e.part == p) (fun x => x.part == p) (fun x => x.part == p)) p := by
  refine ⟨fun e he => ?_, fun x hx => ?_, fun x hx => ?_, fun x hx => ?_⟩
  · simpa using (List.mem_filter.mp he).2
  · simpa using (List.mem_filter.mp hx).2
  · simpa using (List.mem_filter.mp hx).2
  · simpa using (List.mem_filter.mp hx).2

theorem NoXlat.of_logs {s t : State} {p : Nat} (h : NoXlat s p) (k : LogsOnly s t) : NoXlat t p := by
  rw [k]
  exact h

/-- The state of a reset whose memory has been cleared. -/
def State.scrubbed (s : State) (p : Nat) (o : PartOp) : State :=
  if o.scrub then { s.scrubPart p with evictedFrom := s.evictedFrom.filter (fun k => s.ctxOwner (k % 2 ^ 20) != p) } else s

/-- The state of a reset whose contexts have gone, with those that waited in their place. -/
def State.released (s : State) (p : Nat) (o : PartOp) : State :=
  let s := { s.clearPart p with partOps := Map.drop s.partOps p }
  ((if o.action == 2 then s.closeSessions p else s).activateWaiting).dropXlat (fun e => e.part == p) (fun x => x.part == p)
    (fun x => x.part == p)

/-- The last status of a reset or removal. -/
def State.partLeft (s : State) (p : Nat) (o : PartOp) (res : Nat) : State :=
  if o.action == 2 then (s.clearCommon p).partStatus p 0 res 0
  else { s with lastTag := Map.put s.lastTag p (s.rf (.cfgPartTag p) 31 0) }.partStatus p 1 res 0

theorem State.finishPart_eq (p : Nat) (o : PartOp) : s.finishPart p o =
    ((((s.partBasins p).foldl State.resetBasin (s.dropWindows p)).scrubbed p o).released p o).partLeft p o
      (if s.rf (.cfgPartSts p) 47 32 == 0 then 0 else 5) := rfl

end

section
variable {s : State} {p : Nat} {o : PartOp}

theorem State.scrubbed_spec (s : State) (p : Nat) (o : PartOp) : SameParts s (s.scrubbed p o) ∧
    (o.scrub = true → ∀ b i k, b ∈ s.partBasins p → i < 7 → k < 2 ^ 22 → PoolZero ((b * 8 + i) * 2 ^ 22 + k) (s.scrubbed p o)) := by
  have hpools : SameParts s ((s.partBasins p).foldl State.zeroPools s) := .foldl (fun u b => by
    rw [SameParts, poolsOnly_zeroPools u b]
    exact ⟨rfl, rfl, rfl⟩) _ s
  have hrest : ∀ (u : State) (cs : List Nat) (x n : Nat), SameParts u ((u.zeroDeep cs).zeroShared x n) := fun _ _ _ _ => ⟨rfl, rfl, rfl⟩
  have hevict : ∀ (u : State) (m : NSet), SameParts u { u with evictedFrom := m } := fun _ _ => ⟨rfl, rfl, rfl⟩
  unfold State.scrubbed
  refine ⟨?_, fun hs b i k hb hi hk => ?_⟩
  · split
    · exact (hpools.trans (hrest _ _ _ _)).trans (hevict _ _)
    · exact .refl s
  · rw [if_pos hs]
    have h := s.scrubPart_pool hb hi hk
    exact h

theorem State.released_spec (s : State) (p : Nat) (o : PartOp) : (∀ x ∈ (s.released p o).queues, x.2.owner ≠ p) ∧
    (s.released p o).windows = s.windows ∧ Map.find? (s.released p o).partOps p = none ∧ NoXlat (s.released p o) p ∧
    (o.action ≠ 2 → (s.released p o).pool = s.pool) := by
  obtain ⟨hqueues, hwindows, hpool⟩ := s.clearPart_spec p
  obtain ⟨u, hu⟩ : ∃ u : State, u = { s.clearPart p with partOps := Map.drop s.partOps p } := ⟨_, rfl⟩
  have hqu : u.queues = (s.clearPart p).queues := by rw [hu]
  have hwu : u.windows = (s.clearPart p).windows := by rw [hu]
  have hou : u.partOps = Map.drop s.partOps p := by rw [hu]
  have hpu : u.pool = (s.clearPart p).pool := by rw [hu]
  obtain ⟨v, hv⟩ : ∃ v : State, v = if o.action == 2 then u.closeSessions p else u := ⟨_, rfl⟩
  have heq : s.released p o = v.activateWaiting.dropXlat (fun e => e.part == p) (fun x => x.part == p) (fun x => x.part == p) := by
    unfold State.released
    dsimp only
    rw [← hu, ← hv]
  have hclose : SameParts u v := by
    rw [hv]
    split
    · exact sameParts_closeSessions u p
    · exact .refl u
  have hdrop : ∀ w : State, SameParts w (w.dropXlat (fun e => e.part == p) (fun x => x.part == p) (fun x => x.part == p)) :=
    fun _ => ⟨rfl, rfl, rfl⟩
  obtain ⟨hq, hw, hop⟩ := (hclose.trans (.of_que v.activateWaiting_keeps.1)).trans (hdrop _)
  rw [heq]
  refine ⟨fun x hx => ?_, ?_, ?_, State.dropXlat_part _ p, fun ha => ?_⟩
  · rw [hq, hqu, hqueues] at hx
    simpa using (List.mem_filter.mp hx).2
  · rw [hw, hwu, hwindows]
  · rw [hop, hou]
    exact Map.find?_drop_same _ _
  · have hvu : v = u := by rw [hv, if_neg (by simpa using ha)]
    have hd : ∀ w : State, (w.dropXlat (fun e => e.part == p) (fun x => x.part == p) (fun x => x.part == p)).pool = w.pool := fun _ => rfl
    rw [hd, State.pool_activateWaiting, hvu, hpu, hpool]

theorem logsOnly_clearCommon (s : State) (p : Nat) : LogsOnly s (s.clearCommon p) :=
  logsOnly_foldl (fun u n => by
    split
    · exact logsOnly_setRf _ _ _ _ _
    · exact logsOnly_setRf _ _ _ _ _) _ s

theorem State.partLeft_spec {res : Nat} (hres : res < 16) (s : State) (p : Nat) (o : PartOp) :
    (s.partLeft p o res).partState p = (if o.action = 2 then 0 else 1) ∧ (s.partLeft p o res).rf (.cfgPartSts p) 19 16 = res ∧
      SameParts s (s.partLeft p o res) ∧ (s.partLeft p o res).pool = s.pool ∧ (NoXlat s p → NoXlat (s.partLeft p o res) p) := by
  have hsame : ∀ {u v : State}, LogsOnly u v → SameParts u v := fun h => .of_que (.of_logs h)
  unfold State.partLeft
  by_cases ha : o.action = 2
  · rw [if_pos (by simpa using ha), if_pos ha]
    obtain ⟨h1, h2⟩ := (s.clearCommon p).partStatus_spec p (st := 0) 0 (by decide) hres
    have hlogs := (logsOnly_clearCommon s p).trans (logsOnly_partStatus (s.clearCommon p) p 0 res 0)
    exact ⟨h1, h2, hsame hlogs, hlogs.pool, fun h => h.of_logs hlogs⟩
  · rw [if_neg (by simpa using ha), if_neg ha]
    obtain ⟨u, hu⟩ : ∃ u : State, u = { s with lastTag := Map.put s.lastTag p (s.rf (.cfgPartTag p) 31 0) } := ⟨_, rfl⟩
    obtain ⟨h1, h2⟩ := u.partStatus_spec p (st := 1) 0 (by decide) hres
    have hlogs := logsOnly_partStatus u p 1 res 0
    have hsu : SameParts s u := by rw [hu]; exact ⟨rfl, rfl, rfl⟩
    have hpu : u.pool = s.pool := by rw [hu]
    have hxu : NoXlat s p → NoXlat u p := fun h => by rw [hu]; exact h
    rw [← hu]
    exact ⟨h1, h2, hsu.trans (hsame hlogs), hlogs.pool.trans hpu, fun h => (hxu h).of_logs hlogs⟩

theorem cfgPartBsn_apart (p : Nat) : (¬ LogKey (Reg.key (.cfgPartBsnLo p)) ∧ ∀ b < 96, Reg.key (.cfgPartBsnLo p) ≠ Reg.key (.bsnPwrSts b)) ∧
    (¬ LogKey (Reg.key (.cfgPartBsnHi p)) ∧ ∀ b < 96, Reg.key (.cfgPartBsnHi p) ≠ Reg.key (.bsnPwrSts b)) := by
  have hpwr : ∀ b < 96, Reg.key (.bsnPwrSts b) < 0x5000000 := fun b hb => by
    have : b / 8 < 12 := by omega
    simp only [Reg.key, panBase]
    omega
  refine ⟨⟨?_, fun b hb he => ?_⟩, ⟨?_, fun b hb he => ?_⟩⟩
  · unfold LogKey rasKeys
    simp only [Reg.key, List.mem_cons, List.not_mem_nil, or_false]
    omega
  · have := hpwr b hb
    rw [← he] at this
    simp only [Reg.key] at this
    omega
  · unfold LogKey rasKeys
    simp only [Reg.key, List.mem_cons, List.not_mem_nil, or_false]
    omega
  · have := hpwr b hb
    rw [← he] at this
    simp only [Reg.key] at this
    omega

/-- What the end of a reset or removal leaves (R271, R272, R274). -/
theorem State.finishPart_spec (s : State) (p : Nat) (o : PartOp) :
    Map.find? (s.finishPart p o).partOps p = none ∧ (s.finishPart p o).partState p = (if o.action = 2 then 0 else 1) ∧
    (s.finishPart p o).rf (.cfgPartSts p) 19 16 = (if s.rf (.cfgPartSts p) 47 32 = 0 then 0 else 5) ∧
    (∀ x ∈ (s.finishPart p o).queues, x.2.owner ≠ p) ∧ (∀ w ∈ (s.finishPart p o).windows, w.1 / 65536 ≠ p) ∧
    NoXlat (s.finishPart p o) p ∧
    (o.scrub = true → o.action ≠ 2 → ∀ b i k, b ∈ s.partBasins p → i < 7 → k < 2 ^ 22 →
      PoolZero ((b * 8 + i) * 2 ^ 22 + k) (s.finishPart p o)) := by
  obtain ⟨-, -, hdwin, hdregs⟩ := s.dropWindows_spec p
  obtain ⟨hbsame, hbregs⟩ := (s.dropWindows p).resetBasins_spec (s.partBasins p) fun b hb => State.mem_partBasins hb
  rw [State.finishPart_eq]
  generalize (s.partBasins p).foldl State.resetBasin (s.dropWindows p) = t at hbsame hbregs
  obtain ⟨⟨hlo, hlo'⟩, ⟨hhi, hhi'⟩⟩ := cfgPartBsn_apart p
  have hbasins : t.partBasins p = s.partBasins p := by
    refine List.filter_congr fun b _ => ?_
    unfold State.partBasinBit
    rw [hbregs _ hlo', hdregs _ hlo, hbregs _ hhi', hdregs _ hhi]
  obtain ⟨hssame, hszero⟩ := t.scrubbed_spec p o
  obtain ⟨hrq, hrw, hrop, hrx, hrpool⟩ := (t.scrubbed p o).released_spec p o
  have hres : (if s.rf (.cfgPartSts p) 47 32 == 0 then 0 else 5) < 16 := by split <;> decide
  obtain ⟨hst, hr, ⟨hq, hw, hop⟩, hpool, hx⟩ := State.partLeft_spec hres ((t.scrubbed p o).released p o) p o
  refine ⟨hop ▸ hrop, hst, hr.trans (if_congr beq_iff_eq rfl rfl), fun x hx => hrq x (hq ▸ hx), fun w hwm => ?_, hx hrx,
    fun hs ha b i k hb hi hk => ?_⟩
  · rw [hw, hrw, hssame.2.1, hbsame.2.1] at hwm
    exact hdwin w hwm
  · rw [PoolZero, hpool, hrpool ha]
    exact hszero hs b i k (by rw [hbasins]; exact hb) hi hk

/-! ### Quarantine -/

theorem logsOnly_setBasinReady (s : State) (b : Nat) (v : Bool) : LogsOnly s (s.setBasinReady b v) := by
  unfold State.setBasinReady
  split
  · exact .refl s
  · refine LogsOnly.trans ?_ (logsOnly_fire _ _ _)
    split
    · exact logsOnly_setRf _ _ _ _ _
    · exact logsOnly_setRf _ _ _ _ _

/-- The bit that shows a partition's quarantine (R374). -/
def State.markQuarantine (s : State) (p : Nat) : State :=
  if p < 64 then s.setRf .rstQuarLo p p 1 else s.setRf .rstQuarHi (p - 64) (p - 64) 1

/-- The bit of a partition in RST_QUAR. -/
def State.quarBit (s : State) (p : Nat) : Nat := if p < 64 then s.rf .rstQuarLo p p else s.rf .rstQuarHi (p - 64) (p - 64)

theorem State.quarBit_markQuarantine (s : State) (p : Nat) : (s.markQuarantine p).quarBit p = 1 := by
  unfold State.quarBit State.markQuarantine
  split
  · rw [State.rf_setRf_same _ _ _ (le_refl _), show p + 1 - p = 1 by omega]
    rfl
  · rw [State.rf_setRf_same _ _ _ (le_refl _), show p - 64 + 1 - (p - 64) = 1 by omega]
    rfl

theorem State.quarBit_congr {s t : State} (hlo : t.reg .rstQuarLo = s.reg .rstQuarLo) (hhi : t.reg .rstQuarHi = s.reg .rstQuarHi) (p : Nat) :
    t.quarBit p = s.quarBit p := by
  unfold State.quarBit
  rw [State.rf_congr hlo, State.rf_congr hhi]

theorem State.quarantine_eq (s : State) (p : Nat) : s.quarantine p =
    let t := ((s.closeSessions p).cutOff p)
    let u := ((t.partBasins p).foldl (fun t b => t.setBasinReady b false) t).markQuarantine p
    let v := { u with
      quarantined := NSet.ins u.quarantined p
      sluiced := NSet.ins u.sluiced p }
    (v.partStatus p 4 6 0).ras_ { rasOf 0x0E 2 15 0x08 p 0x30 with part := p } := rfl

theorem quarKeys_apart (p : Nat) : Reg.key .rstQuarLo ≠ Reg.key (.cfgPartSts p) ∧ Reg.key .rstQuarHi ≠ Reg.key (.cfgPartSts p) ∧
    Reg.key .rstQuarLo ∉ rasKeys ∧ Reg.key .rstQuarHi ∉ rasKeys ∧ Reg.key (.cfgPartSts p) ∉ rasKeys := by
  unfold rasKeys
  simp only [Reg.key, List.mem_cons, List.not_mem_nil, or_false]
  omega

/-- What a partition reset that hangs leaves (R275, R374). -/
theorem State.quarantine_spec (s : State) (p : Nat) : (s.quarantine p).partState p = 4 ∧
    (s.quarantine p).rf (.cfgPartSts p) 19 16 = 6 ∧ p ∈ (s.quarantine p).quarantined ∧ p ∈ (s.quarantine p).sluiced ∧
    (∀ l ∈ (s.quarantine p).launches, l.2.part ≠ p) ∧ (s.quarantine p).quarBit p = 1 := by
  rw [State.quarantine_eq]
  dsimp only
  obtain ⟨t, ht⟩ : ∃ t : State, t = (s.closeSessions p).cutOff p := ⟨_, rfl⟩
  have hcut : ∀ l ∈ t.launches, l.2.part ≠ p := fun l hl => by
    rw [ht] at hl
    simpa using (List.mem_filter.mp hl).2
  rw [← ht]
  have hready : LogsOnly t ((t.partBasins p).foldl (fun t b => t.setBasinReady b false) t) :=
    logsOnly_foldl (fun u b => logsOnly_setBasinReady u b false) _ t
  generalize (t.partBasins p).foldl (fun t b => t.setBasinReady b false) t = u at hready
  have hmark : RegsOnly u (u.markQuarantine p) := by
    unfold State.markQuarantine
    split
    · exact regsOnly_setRf _ _ _ _ _
    · exact regsOnly_setRf _ _ _ _ _
  have hbit := u.quarBit_markQuarantine p
  generalize u.markQuarantine p = w at hmark hbit
  obtain ⟨v, hv⟩ : ∃ v : State, v = { w with quarantined := NSet.ins w.quarantined p, sluiced := NSet.ins w.sluiced p } := ⟨_, rfl⟩
  rw [← hv]
  obtain ⟨hst, hres⟩ := v.partStatus_spec p (st := 4) (res := 6) 0 (by decide) (by decide)
  have hlogs := (logsOnly_partStatus v p 4 6 0).trans (logsOnly_ras _ { rasOf 0x0E 2 15 0x08 p 0x30 with part := p })
  obtain ⟨hlo, hhi, hlo', hhi', hsts⟩ := quarKeys_apart p
  have hreg : ∀ r : Reg, r.key ∉ rasKeys → ((v.partStatus p 4 6 0).ras_ { rasOf 0x0E 2 15 0x08 p 0x30 with part := p }).reg r =
      (v.partStatus p 4 6 0).reg r := fun r hr => State.reg_ras _ _ hr
  generalize (v.partStatus p 4 6 0).ras_ { rasOf 0x0E 2 15 0x08 p 0x30 with part := p } = x at hlogs hreg
  refine ⟨(State.rf_congr (hreg _ hsts) _ _).trans hst, (State.rf_congr (hreg _ hsts) _ _).trans hres, ?_, ?_, fun l hl => hcut l ?_, ?_⟩
  · rw [hlogs, hv]
    simp
  · rw [hlogs, hv]
    simp
  · rw [hlogs.launches, hv] at hl
    have hl : l ∈ w.launches := hl
    rwa [hmark, hready.launches] at hl
  · have hvw : v.regs = w.regs := by rw [hv]
    refine (State.quarBit_congr ?_ ?_ p).trans hbit
    · exact ((hreg _ hlo').trans (State.reg_partStatus_of_ne _ _ _ _ _ hlo)).trans (State.reg_congr hvw _)
    · exact ((hreg _ hhi').trans (State.reg_partStatus_of_ne _ _ _ _ _ hhi)).trans (State.reg_congr hvw _)

end

/-- Settles O36: no end of a command writes the partition's status, and every step of Table 16-5 keeps what the steps before it
have taken away. -/
theorem partitionResetsComplete : Obligations.partition_resets_complete := by
  unfold Obligations.partition_resets_complete
  intro s p val
  obtain ⟨hacc, hbusy, hrefused⟩ := s.writePartRst_spec p.val val.toNat
  obtain ⟨hflr, hmerged, hflr7⟩ := execFlr_spec s p
  have hunfold : ∀ {t : State} {a : Nat}, Accepted s t p.val a → _ := fun h => (⟨h.status, h.op, h.launches, h.queues, h.resetQ⟩ : _ ∧ _ ∧ _ ∧ _ ∧ _)
  refine ⟨fun h1 hidle => ⟨fun hact => ⟨⟨_, rfl, hunfold (hacc h1 hidle hact)⟩, ⟨_, rfl, hunfold (hacc h1 hidle hact)⟩⟩, ?_⟩,
    fun h => ⟨fun c hc => ?_, hmerged h⟩, fun h c hc => ?_, fun o ho hbegun => ⟨fun hdrain => ?_, fun hdone => ?_, ?_⟩⟩
  · obtain ⟨t, hexec, h⟩ := hflr h1 hidle
    exact ⟨t, hexec, hunfold h⟩
  · fin_cases hc
    · exact ⟨_, rfl, hbusy h⟩
    · exact ⟨_, rfl, hbusy h⟩
  · fin_cases hc
    · exact ⟨_, rfl, hrefused h⟩
    · exact ⟨_, rfl, hrefused h⟩
    · exact ⟨_, hflr7 h, s.partResult_spec p.val 0 (by decide)⟩
  · refine ⟨s.squash p.val, ?_, (s.squash_spec p.val).gone⟩
    show execPartitionDrainTimeout p s = _
    unfold execPartitionDrainTimeout
    rw [ho]
    exact if_pos (by simp [hbegun, hdrain])
  · obtain ⟨hop, hst, hres, hq, hw, ⟨htlb, hutlb, hwc1, hwc2⟩, hpool⟩ := s.finishPart_spec p.val o
    refine ⟨s.finishPart p.val o, ?_, hop, ⟨hst, hres⟩, hq, hw, htlb, hutlb, hwc1, hwc2, hpool⟩
    show execPartitionResetComplete p s = _
    unfold execPartitionResetComplete
    rw [ho]
    exact if_neg (by simp [hbegun, hdone])
  · obtain ⟨hst, hres, hquar, hsluice, hlaunch, hbit⟩ := s.quarantine_spec p.val
    refine ⟨s.quarantine p.val, ?_, ⟨hst, hres⟩, hquar, hsluice, hlaunch, hbit⟩
    show execPartitionResetHang p s = _
    unfold execPartitionResetHang
    rw [ho]
    exact if_neg (by simp [hbegun])

end Sys2Proof.Machine

/-! Proofs: staged configuration commits (R270, R276, R277). -/

namespace Sys2Proof.Machine

/-! ### A register's offset is its key (Tables 24-6 and 24-7) -/

theorem Reg.key_of_atPan {d o : Nat} {r : Reg} (h8 : o % 8 = 0) (h : Reg.atPan d o = some r) : r.key = panBase d + o := by
  unfold Reg.atPan at h
  dsimp only at h
  repeat' split at h
  all_goals first | (cases h; done) | skip
  all_goals
    simp only [Bool.and_eq_true, decide_eq_true_eq, beq_iff_eq] at *
    cases h
    simp only [Reg.key, panBase]
    omega

/-- An offset names no register, or the one whose key it is. -/
def Reg.Keyed (o : Nat) (x : Option Reg) : Prop := ∀ r, x = some r → r.key = o

theorem Reg.Keyed.none (o : Nat) : Reg.Keyed o .none := by
  intro r h
  cases h

theorem Reg.Keyed.some {o : Nat} {r : Reg} (h : r.key = o) : Reg.Keyed o (.some r) := by
  intro q hq
  cases hq
  exact h

theorem Reg.Keyed.ite {o : Nat} {p : Prop} [Decidable p] {a b : Option Reg} (ha : p → Reg.Keyed o a) (hb : ¬ p → Reg.Keyed o b) :
    Reg.Keyed o (if p then a else b) := by
  by_cases hp : p
  · rw [if_pos hp]
    exact ha hp
  · rw [if_neg hp]
    exact hb hp

theorem Reg.Keyed.atPan {o : Nat} (h8 : o % 8 = 0) (ho : 0x4000000 ≤ o) :
    Reg.Keyed o (Reg.atPan ((o - 0x4000000) / 0x100000) (o % 0x100000)) := by
  intro r h
  have h := Reg.key_of_atPan (by omega) h
  simp only [panBase] at h
  omega

theorem Reg.keyed_at8 {o : Nat} (h8 : o % 8 = 0) : Reg.Keyed o (Reg.at8 o) := by
  unfold Reg.at8
  dsimp only
  repeat' with_reducible refine Reg.Keyed.ite (fun _ => ?_) (fun _ => ?_)
  all_goals try split
  all_goals try exact Reg.Keyed.none o
  all_goals simp only [Bool.and_eq_true, decide_eq_true_eq, beq_iff_eq, imp_false] at *
  all_goals try exact Reg.Keyed.atPan h8 (by omega)
  all_goals
    refine Reg.Keyed.some ?_
    simp only [Reg.key]
    omega

theorem Reg.key_of_ofOffset {o : Nat} {r : Reg} (h : Reg.ofOffset o = some (r, false)) : r.key = o ∧ r.exists_ = true := by
  unfold Reg.ofOffset at h
  split at h
  case h_2 => cases h
  case h_1 r' hr =>
    rcases ite_eq_iff.mp h with ⟨hc, h⟩ | ⟨-, h⟩
    · injection h with h
      injection h with h4 hb
      subst h4
      have ho : o % 8 = 0 := by
        simp only [Bool.and_eq_true, Bool.or_eq_true, beq_iff_eq, beq_eq_false_iff_ne] at hc hb
        obtain ⟨-, h0 | ⟨h4, -⟩⟩ := hc
        · exact h0
        · exact absurd h4 hb
      have hk := Reg.keyed_at8 (by omega) r' hr
      exact ⟨by omega, (Bool.and_eq_true_iff.mp hc).1⟩
    · cases h

/-- The register a staging entry names tells the entry's offset. -/
theorem offset_of_entryReg {w : Word} {r : Reg} (h : entryReg w = some r) : fld w.toNat 25 0 = r.key % 2 ^ 26 := by
  have hlt : fld w.toNat 25 0 < 2 ^ 26 := Nat.mod_lt _ (by norm_num)
  unfold entryReg at h
  dsimp only at h
  split at h
  case h_1 r' hr =>
    cases h
    rw [(Reg.key_of_ofOffset hr).1, Nat.mod_eq_of_lt hlt]
  case h_2 p _ hp =>
    cases h
    rw [(Reg.key_of_ofOffset hp).1, Nat.add_mod_right, Nat.mod_eq_of_lt hlt]
  case h_3 => cases h

theorem exists_of_entryReg {w : Word} {r : Reg} (h : entryReg w = some r) : r.exists_ = true := by
  unfold entryReg at h
  dsimp only at h
  split at h
  case h_1 r' hr =>
    cases h
    exact (Reg.key_of_ofOffset hr).2
  case h_2 p _ hp =>
    cases h
    exact (Reg.key_of_ofOffset hp).2
  case h_3 => cases h

/-! ### Writing registers -/

/-- A write that covers rw fields that do not overlap: each then holds its bits of the value (R7). -/
theorem fld_foldl_write {whi : Nat} (v : Nat) (fs : List Field) (hrw : ∀ f ∈ fs, f.acc = .rw ∧ f.lo ≤ f.hi ∧ f.hi ≤ whi)
    (hd : fs.Pairwise (fun f g => f.hi < g.lo ∨ g.hi < f.lo)) (old : Nat) {f : Field} (hf : f ∈ fs) :
    fld (fs.foldl (fun w g => g.write whi 0 w v) old) f.hi f.lo = fld v f.hi f.lo := by
  have hwrite : ∀ g ∈ fs, ∀ w, g.write whi 0 w v = setFld w g.hi g.lo (fld v g.hi g.lo) := by
    intro g hg w
    obtain ⟨hacc, hl, h63⟩ := hrw g hg
    unfold Field.write
    rw [hacc]
    dsimp only
    rw [min_eq_left h63, max_eq_left (Nat.zero_le _), if_pos hl]
  induction fs generalizing old with
  | nil => cases hf
  | cons g fs ih =>
    obtain ⟨hg, hd⟩ := List.pairwise_cons.mp hd
    rw [List.foldl_cons]
    rcases List.mem_cons.mp hf with rfl | hf
    · rw [hwrite f List.mem_cons_self]
      obtain ⟨-, hl, -⟩ := hrw f List.mem_cons_self
      have hkeep : ∀ (gs : List Field), (∀ g ∈ gs, g ∈ fs) → ∀ w,
          fld (gs.foldl (fun w g => g.write whi 0 w v) w) f.hi f.lo = fld w f.hi f.lo := by
        intro gs
        induction gs with
        | nil => exact fun _ _ => rfl
        | cons g gs ihg =>
          intro hgs w
          have hmem := hgs g List.mem_cons_self
          rw [List.foldl_cons, ihg (fun x hx => hgs x (List.mem_cons_of_mem _ hx)),
            hwrite g (List.mem_cons_of_mem _ hmem), fld_setFld_other _ _ (hrw g (List.mem_cons_of_mem _ hmem)).2.1 (hg g hmem)]
      rw [hkeep fs (fun _ h => h), fld_setFld_same _ _ hl]
      exact Nat.mod_mod _ _
    · exact ih (fun g hg => hrw g (List.mem_cons_of_mem _ hg)) hd _ hf (fun g hg => hwrite g (List.mem_cons_of_mem _ hg))

/-- One bit of a field that has just been written. -/
theorem State.rf_setRf_bit (s : State) (r : Reg) (v : Nat) {hi u : Nat} (hu : u ≤ hi) :
    (s.setRf r hi 0 v).rf r u u = if v.testBit u then 1 else 0 := by
  unfold State.rf State.setRf
  rw [State.reg_setReg_same]
  have hbit : fld (setFld (s.reg r) hi 0 v) u u = ((setFld (s.reg r) hi 0 v).testBit u).toNat := by
    unfold fld
    rw [show u + 1 - u = 1 by omega, pow_one, Nat.toNat_testBit]
  rw [hbit, testBit_setFld _ _ _ _ _ (Nat.zero_le _), if_pos ⟨Nat.zero_le _, hu⟩, Nat.sub_zero]
  cases v.testBit u <;> rfl

/-! ### The units of a commit -/

/-- The sum of the powers of two of the numbers below n with a property is below 2^n, and has their bits. -/
theorem sum_two_pow_filter_range (p : Nat → Bool) (n : Nat) :
    (((List.range n).filter p).map (fun u => 2 ^ u)).sum < 2 ^ n ∧
    ∀ i, (((List.range n).filter p).map (fun u => 2 ^ u)).sum.testBit i = (decide (i < n) && p i) := by
  induction n with
  | zero => exact ⟨by simp, by simp⟩
  | succ n ih =>
    obtain ⟨hlt, hbits⟩ := ih
    rw [List.range_succ, List.filter_append, List.map_append, List.sum_append]
    generalize (((List.range n).filter p).map (fun u => 2 ^ u)).sum = m at hlt hbits
    cases hp : p n
    · rw [List.filter_singleton, hp]
      refine ⟨by simpa using by rw [pow_succ]; omega, fun i => ?_⟩
      rw [show (m + (List.map (fun u => 2 ^ u) (bif false then [n] else [])).sum) = m from rfl, hbits i]
      by_cases hi : i = n
      · subst hi
        simp [hp]
      · congr 1
        exact decide_eq_decide.mpr (by omega)
    · rw [List.filter_singleton, hp]
      rw [show (m + (List.map (fun u => 2 ^ u) (bif true then [n] else [])).sum) = 2 ^ n + m by simp [Nat.add_comm]]
      refine ⟨by rw [pow_succ]; omega, fun i => ?_⟩
      rcases Nat.lt_trichotomy i n with hi | rfl | hi
      · rw [Nat.testBit_two_pow_add_gt hi, hbits i]
        simp [hi, Nat.lt_succ_of_lt hi]
      · rw [Nat.testBit_two_pow_add_eq, hbits i]
        simp [hp]
      · rw [Nat.testBit_lt_two_pow (lt_of_lt_of_le (show 2 ^ n + m < 2 ^ (n + 1) by rw [pow_succ]; omega)
          (Nat.pow_le_pow_right (by norm_num) hi))]
        simp [show ¬ i < n + 1 by omega]

/-- DONE_MAP at the start of a commit: a bit is 0 for the units that have entries (R277). -/
theorem testBit_doneMap (es : List (Word × Word)) {u : Nat} (hu : u < 25) :
    (ones 25 - ((commitUnits es).map (fun u => 2 ^ u)).sum).testBit u = !decide (u ∈ commitUnits es) := by
  obtain ⟨p, hp⟩ : ∃ p : Nat → Bool, commitUnits es = (List.range 25).filter p := ⟨_, rfl⟩
  obtain ⟨hlt, hbits⟩ := sum_two_pow_filter_range p 25
  rw [hp, ones, Nat.sub_sub, Nat.add_comm 1, Nat.testBit_two_pow_sub_succ hlt, hbits u]
  simp [List.mem_filter, hu]

/-! ### The staging table -/

theorem mem_staged {s : State} {x : Nat × Word × Word} (hx : x ∈ s.staged) :
    x.1 < 256 ∧ x.2 = (BitVec.ofNat 64 (s.reg (.cfgStage x.1 0)), BitVec.ofNat 64 (s.reg (.cfgStage x.1 1))) := by
  obtain ⟨e, he, hs⟩ := List.mem_filterMap.mp hx
  rcases ite_eq_iff.mp hs with ⟨-, h⟩ | ⟨-, h⟩
  · cases h
    exact ⟨List.mem_range.mp he, rfl⟩
  · cases h

theorem badEntry_lt {s : State} {e : Nat} (h : badEntry s.staged = some e) : e < 256 := by
  obtain ⟨x, hx, rfl⟩ := Option.map_eq_some_iff.mp h
  exact (mem_staged (List.mem_of_find?_eq_some hx)).1

/-- Without an invalid entry, every entry names a staged register, and no two name the same. -/
theorem badEntry_none {s : State} (h : badEntry s.staged = none) {x y : Nat × Word × Word} (hx : x ∈ s.staged)
    (hy : y ∈ s.staged) : entryInvalid x.2.1 x.2.2 = false ∧ (fld x.2.1.toNat 25 0 = fld y.2.1.toNat 25 0 → x = y) := by
  have hnone := List.find?_eq_none.mp (Option.map_eq_none_iff.mp h)
  have hvalid : ∀ z ∈ s.staged, entryInvalid z.2.1 z.2.2 = false ∧
      ∀ w ∈ s.staged, ¬ (w.1 < z.1 ∧ fld w.2.1.toNat 25 0 = fld z.2.1.toNat 25 0) := by
    intro z hz
    have := hnone z hz
    simp only [Bool.or_eq_true, List.any_eq_true, not_or, Bool.not_eq_true, not_exists, not_and, Bool.and_eq_true,
      decide_eq_true_eq, beq_iff_eq] at this
    exact ⟨this.1, fun w hw hc => this.2 w hw hc.1 hc.2⟩
  refine ⟨(hvalid x hx).1, fun ho => ?_⟩
  have hxy : x.1 = y.1 := by
    rcases Nat.lt_trichotomy x.1 y.1 with hlt | heq | hlt
    · exact absurd ⟨hlt, ho⟩ ((hvalid y hy).2 x hx)
    · exact heq
    · exact absurd ⟨hlt, ho.symm⟩ ((hvalid x hx).2 y hy)
  refine Prod.ext hxy ?_
  rw [(mem_staged hx).2, (mem_staged hy).2, hxy]

/-- A staged register is no status register of the commit. -/
theorem stagedReg_key_ne {w0 w1 : Word} {r : Reg} (hr : entryReg w0 = some r) (hv : entryInvalid w0 w1 = false) :
    r.key ≠ Reg.key .cfgCommitSts := by
  unfold entryInvalid at hv
  rw [hr] at hv
  simp only [Bool.or_eq_false_iff] at hv
  obtain ⟨⟨hs, -⟩, -⟩ := hv
  have he := exists_of_entryReg hr
  unfold stagedUnits at hs
  split at hs
  case h_1 p => exact show 0x6020000 + p * 0x100 + 0x68 ≠ 0x6010008 by omega
  case h_2 n =>
    have hn : n < 64 := of_decide_eq_true he
    exact show 0x3001000 + n * 8 ≠ 0x6010008 by omega
  case h_3 p => exact show 0x1800000 + p * 0x40 + 40 ≠ 0x6010008 by omega
  case h_4 => cases hs

/-- One entry of a commit is stored in its register. -/
def State.storeEntry (t : State) (x : Word × Word) : State :=
  match entryReg x.1 with
  | some r => t.setReg r x.2.toNat
  | none => t

theorem State.storeEntry_eq : State.storeEntry = fun t x =>
    match entryReg x.1 with
    | some r => t.setReg r x.2.toNat
    | none => t := rfl

theorem State.reg_storeEntry_same (t : State) {x : Word × Word} {r : Reg} (h : entryReg x.1 = some r) :
    (t.storeEntry x).reg r = x.2.toNat := by
  unfold State.storeEntry
  rw [h]
  exact State.reg_setReg_same _ _ _

theorem State.reg_storeEntry_of_ne (t : State) {x : Word × Word} {r : Reg}
    (h : ∀ q, entryReg x.1 = some q → r.key ≠ q.key) : (t.storeEntry x).reg r = t.reg r := by
  unfold State.storeEntry
  split
  case h_1 q hq => exact State.reg_setReg_of_ne _ _ (h q hq)
  case h_2 => rfl

/-- Stored one after another, every entry stands in its register, for no two entries name one register. -/
theorem reg_foldl_storeEntry {es : List (Word × Word)} {x : Word × Word} {r : Reg} (hx : x ∈ es) (hr : entryReg x.1 = some r)
    (hu : ∀ y ∈ es, ∀ q, entryReg y.1 = some q → q.key = r.key → y = x) (t : State) :
    (es.foldl State.storeEntry t).reg r = x.2.toNat := by
  induction es generalizing t with
  | nil => cases hx
  | cons y ys ih =>
    rw [List.foldl_cons]
    by_cases hxs : x ∈ ys
    · exact ih hxs (fun z hz => hu z (List.mem_cons_of_mem _ hz)) _
    · have hyx : y = x := ((List.mem_cons.mp hx).resolve_right hxs).symm
      have hkeep : ∀ (zs : List (Word × Word)), (∀ z ∈ zs, z ∈ ys) → ∀ u : State,
          (zs.foldl State.storeEntry u).reg r = u.reg r := by
        intro zs
        induction zs with
        | nil => exact fun _ _ => rfl
        | cons z zs ihz =>
          intro hzs u
          have hz := hzs z List.mem_cons_self
          rw [List.foldl_cons, ihz (fun w hw => hzs w (List.mem_cons_of_mem _ hw))]
          refine State.reg_storeEntry_of_ne u (fun q hq hk => hxs ?_)
          rwa [← hu z (List.mem_cons_of_mem _ hz) q hq hk.symm]
      rw [hkeep ys (fun _ h => h), hyx]
      exact State.reg_storeEntry_same t hr

/-- What storing entries keeps: a register that none of them names, the commit in progress and the adopted values. -/
theorem foldl_storeEntry_keeps (es : List (Word × Word)) (t : State) :
    (es.foldl State.storeEntry t).commit = t.commit ∧ (es.foldl State.storeEntry t).adopted = t.adopted ∧
    ∀ r, (∀ y ∈ es, ∀ q, entryReg y.1 = some q → r.key ≠ q.key) → (es.foldl State.storeEntry t).reg r = t.reg r := by
  induction es generalizing t with
  | nil => exact ⟨rfl, rfl, fun _ _ => rfl⟩
  | cons y ys ih =>
    obtain ⟨hc, ha, hreg⟩ := ih (t.storeEntry y)
    have hstep : (t.storeEntry y).commit = t.commit ∧ (t.storeEntry y).adopted = t.adopted := by
      unfold State.storeEntry
      split <;> exact ⟨rfl, rfl⟩
    refine ⟨hc.trans hstep.1, ha.trans hstep.2, fun r hr => ?_⟩
    rw [List.foldl_cons, hreg r (fun z hz => hr z (List.mem_cons_of_mem _ hz)),
      State.reg_storeEntry_of_ne t (hr y List.mem_cons_self)]

/-- A field that has just been written holds a value that fits in it. -/
theorem State.rf_setRf_of_lt (s : State) (r : Reg) {v hi lo : Nat} (h : lo ≤ hi) (hv : v < 2 ^ (hi + 1 - lo)) :
    (s.setRf r hi lo v).rf r hi lo = v := (State.rf_setRf_same s r v h).trans (Nat.mod_eq_of_lt hv)

/-! ### The obligation -/

theorem State.commit_setRf (s : State) (r : Reg) (hi lo v : Nat) : (s.setRf r hi lo v).commit = s.commit := rfl

theorem State.adopted_setRf (s : State) (r : Reg) (hi lo v : Nat) : (s.setRf r hi lo v).adopted = s.adopted := rfl

theorem State.heap_setReg (s : State) (r : Reg) (v : Nat) : (s.setReg r v).heap = s.heap := rfl

/-- The fields of CFG_COMMON (Table 24-7). -/
def cfgCommonFields : List Field :=
  [⟨63, 63, .rw, 0, .w⟩, ⟨62, 62, .rw, 0, .w⟩, ⟨61, 59, .rw, 0, .w⟩, ⟨52, 36, .rw, 0, .w⟩, ⟨35, 0, .rw, 0, .w⟩]

/-- CFG_COMMON takes each of its fields (R270). -/
theorem writeCommon_of_ok {s : State} {n v : Nat} (h : bit v 63 = false ∨ s.commonOk v = true) :
    (s.writeCommon n v).heap = s.heap ∧
    ∀ f ∈ [(63, 63), (62, 62), (61, 59), (52, 36), (35, 0)], (s.writeCommon n v).rf (.cfgCommon n) f.1 f.2 = fld v f.1 f.2 := by
  have hcond : (bit v 63 && !s.commonOk v) = false := by
    rcases h with h | h <;> simp [h]
  unfold State.writeCommon
  rw [if_neg (by rw [hcond]; exact Bool.false_ne_true)]
  refine ⟨State.heap_setReg _ _ _, fun f hf => ?_⟩
  unfold State.rf Reg.written
  rw [State.reg_setReg_same]
  have hfields : (Reg.cfgCommon n).fields = cfgCommonFields := rfl
  rw [hfields]
  obtain ⟨g, hg, rfl⟩ : ∃ g ∈ cfgCommonFields, (g.hi, g.lo) = f := List.mem_map.mp hf
  exact fld_foldl_write v cfgCommonFields (by decide) (by decide) _ hg

theorem execCfgCommit_busy {s : State} {c : Commit} (val : BitVec 64) (h : s.commit = some c) :
    ∃ t : State, exec (.cfgCommit val) s = .next t ∧ t.rf .cfgCommitSts 31 28 = 3 ∧ t.commit = some c := by
  refine ⟨(s.setRf .cfgCommitSts 47 40 (fld val.toNat 7 0)).setRf .cfgCommitSts 31 28 3, ?_,
    State.rf_setRf_of_lt _ _ (by norm_num) (by norm_num), ?_⟩
  · show execCfgCommit val s = _
    unfold execCfgCommit
    dsimp only
    rw [if_pos (by rw [h]; rfl)]
  · rw [State.commit_setRf, State.commit_setRf, h]

theorem execCfgCommit_invalid {s : State} {e : Nat} (val : BitVec 64) (hc : s.commit = none)
    (he : badEntry s.staged = some e) : ∃ t : State, exec (.cfgCommit val) s = .next t ∧
      t.rf .cfgCommitSts 31 28 = 4 ∧ t.rf .cfgCommitSts 39 32 = e ∧ t.commit = none ∧ t.adopted = s.adopted := by
  refine ⟨((s.setRf .cfgCommitSts 47 40 (fld val.toNat 7 0)).setRf .cfgCommitSts 31 28 4).setRf .cfgCommitSts 39 32 e,
    ?_, ?_, ?_, ?_, ?_⟩
  · show execCfgCommit val s = _
    unfold execCfgCommit
    dsimp only
    rw [if_neg (by rw [hc]; exact Bool.false_ne_true), he]
  · rw [State.rf_setRf_other _ _ _ (by norm_num) (by norm_num), State.rf_setRf_of_lt _ _ (by norm_num) (by norm_num)]
  · exact State.rf_setRf_of_lt _ _ (by norm_num) (badEntry_lt he)
  · rw [State.commit_setRf, State.commit_setRf, State.commit_setRf, hc]
  · rw [State.adopted_setRf, State.adopted_setRf, State.adopted_setRf]

/-- The state after an accepted commit has stored its entries and set DONE_MAP. -/
def State.commitStored (s : State) (num : Nat) : State :=
  (((s.staged.map (fun x => x.2)).foldl State.storeEntry (s.setRf .cfgCommitSts 47 40 num)).setRf .cfgCommitSts 24 0
    (ones 25 - ((commitUnits (s.staged.map (fun x => x.2))).map (fun u => 2 ^ u)).sum))

/-- The commit in progress once entries es are stored and some unit has one. -/
def State.withCommit (s : State) (es : List (Word × Word)) : State := { s with commit := some ⟨es, commitUnits es⟩ }

/-- It changes nothing but the commit in progress. -/
theorem State.withCommit_keeps (s : State) (es : List (Word × Word)) :
    (s.withCommit es).commit = some ⟨es, commitUnits es⟩ ∧ (s.withCommit es).adopted = s.adopted ∧
    (s.withCommit es).regs = s.regs := ⟨rfl, rfl, rfl⟩

theorem execCfgCommit_valid {s : State} (val : BitVec 64) (hc : s.commit = none) (he : badEntry s.staged = none) :
    exec (.cfgCommit val) s = if (commitUnits (s.staged.map (fun x => x.2))).isEmpty then
        .next ((s.commitStored (fld val.toNat 7 0)).setRf .cfgCommitSts 31 28 2)
      else .next (((s.commitStored (fld val.toNat 7 0)).withCommit (s.staged.map (fun x => x.2))).setRf .cfgCommitSts 31 28 1) := by
  show execCfgCommit val s = _
  unfold execCfgCommit State.commitStored State.withCommit
  dsimp only
  rw [if_neg (by rw [hc]; exact Bool.false_ne_true), he, State.storeEntry_eq] <;> rfl

/-- What an accepted commit leaves: SEQ, the entries in their registers, no unit done that has one. -/
theorem commitStored_spec {s : State} (num : Nat) (he : badEntry s.staged = none) :
    (s.commitStored num).commit = s.commit ∧ (s.commitStored num).adopted = s.adopted ∧
    (s.commitStored num).rf .cfgCommitSts 47 40 = num % 2 ^ 8 ∧
    (∀ x : Word × Word, x ∈ s.staged.map (fun z => z.2) → ∀ r, entryReg x.1 = some r → r.key ≠ Reg.key .cfgCommitSts ∧
      (s.commitStored num).reg r = x.2.toNat) ∧
    ∀ u, u < 25 → (s.commitStored num).rf .cfgCommitSts u u = if u ∈ commitUnits (s.staged.map (fun x => x.2)) then 0 else 1 := by
  have hne : ∀ x : Word × Word, x ∈ s.staged.map (fun x => x.2) → ∀ r, entryReg x.1 = some r → r.key ≠ Reg.key .cfgCommitSts := by
    intro x hx r hr
    obtain ⟨y, hy, rfl⟩ := List.mem_map.mp hx
    exact stagedReg_key_ne hr (badEntry_none he hy hy).1
  obtain ⟨hc, ha, hreg⟩ := foldl_storeEntry_keeps (s.staged.map (fun x => x.2)) (s.setRf .cfgCommitSts 47 40 num)
  rw [State.commit_setRf] at hc
  rw [State.adopted_setRf] at ha
  refine ⟨(State.commit_setRf _ _ _ _ _).trans hc, (State.adopted_setRf _ _ _ _ _).trans ha, ?_,
    fun x hx r hr => ⟨hne x hx r hr, ?_⟩, fun u hu => ?_⟩
  · unfold State.commitStored
    rw [State.rf_setRf_other _ _ _ (by norm_num) (by norm_num),
      State.rf_congr (hreg .cfgCommitSts (fun y hy q hq => (hne y hy q hq).symm)), State.rf_setRf_same _ _ _ (by norm_num)]
  · unfold State.commitStored
    rw [State.reg_setRf_of_ne _ _ _ _ (hne x hx r hr)]
    refine reg_foldl_storeEntry hx hr (fun y hy q hq hk => ?_) _
    obtain ⟨x', hx', rfl⟩ := List.mem_map.mp hx
    obtain ⟨y', hy', rfl⟩ := List.mem_map.mp hy
    rw [(badEntry_none he hy' hx').2 (by rw [offset_of_entryReg hq, offset_of_entryReg hr, hk])]
  · unfold State.commitStored
    rw [State.rf_setRf_bit _ _ _ (by omega), testBit_doneMap _ hu]
    by_cases hm : u ∈ commitUnits (s.staged.map (fun x => x.2))
    · rw [if_pos hm, decide_eq_true hm]
      rfl
    · rw [if_neg hm, decide_eq_false hm]
      rfl

/-- The state without a commit in progress. -/
def State.withoutCommit (s : State) : State := { s with commit := none }

theorem execCommitPartialTimeout_ends {s : State} {u : Fin 25} {c : Commit} (hc : s.commit = some c) (hu : u.val ∈ c.pendingUnits) :
    ∃ t : State, exec (.commitPartialTimeout u) s = .next t ∧ t.commit = none ∧ t.rf .cfgCommitSts 31 28 = 5 ∧
      t.adopted = s.adopted := by
  refine ⟨s.withoutCommit.setRf .cfgCommitSts 31 28 5, ?_, ?_, State.rf_setRf_of_lt _ _ (by norm_num) (by norm_num), ?_⟩
  · show execCommitPartialTimeout u s = _
    unfold execCommitPartialTimeout
    rw [hc]
    dsimp only
    rw [if_pos (List.contains_iff_mem.mpr hu)]
    unfold State.commitNext State.withoutCommit
    dsimp only
    rw [if_pos (by simp [NSet.del])]
  · rw [State.commit_setRf]
    rfl
  · rw [State.adopted_setRf]
    rfl

/-- Writing STATE of CFG_COMMIT_STS leaves SEQ, the stored entries and DONE_MAP as they are. -/
theorem commitState_spec {v w z : State} {num k : Nat} {es : List (Word × Word)} {f : Nat → Nat}
    (hseq : v.rf .cfgCommitSts 47 40 = num)
    (hent : ∀ x : Word × Word, x ∈ es → ∀ r, entryReg x.1 = some r → r.key ≠ Reg.key .cfgCommitSts ∧ v.reg r = x.2.toNat)
    (hdone : ∀ u, u < 25 → v.rf .cfgCommitSts u u = f u) (hw : w.regs = v.regs) (hk : k < 2 ^ (31 + 1 - 28))
    (hz : z = w.setRf .cfgCommitSts 31 28 k) : z.commit = w.commit ∧ z.adopted = w.adopted ∧ z.rf .cfgCommitSts 31 28 = k ∧
      z.rf .cfgCommitSts 47 40 = num ∧
      (∀ x : Word × Word, x ∈ es → ∀ r, entryReg x.1 = some r → z.reg r = x.2.toNat) ∧
      ∀ u, u < 25 → z.rf .cfgCommitSts u u = f u := by
  subst hz
  refine ⟨State.commit_setRf _ _ _ _ _, State.adopted_setRf _ _ _ _ _, State.rf_setRf_of_lt _ _ (by norm_num) hk, ?_,
    fun x hx r hr => ?_, fun u hu => ?_⟩
  · rw [State.rf_setRf_other _ _ _ (by norm_num) (by norm_num), State.rf_congr (State.reg_congr hw _), hseq]
  · rw [State.reg_setRf_of_ne _ _ _ _ (hent x hx r hr).1, State.reg_congr hw]
    exact (hent x hx r hr).2
  · rw [State.rf_setRf_other _ _ _ (by norm_num) (by omega), State.rf_congr (State.reg_congr hw _)]
    exact hdone u hu

/-- An accepted commit (R276): SEQ is taken, every entry stands in its register, and the units with entries are pending. -/
theorem execCfgCommit_accepts {s : State} (val : BitVec 64) (hc : s.commit = none) (he : badEntry s.staged = none) :
    ∃ t : State, exec (.cfgCommit val) s = .next t ∧ t.rf .cfgCommitSts 47 40 = fld val.toNat 7 0 ∧ t.adopted = s.adopted ∧
      (∀ x : Word × Word, x ∈ s.staged.map (fun x => x.2) → ∀ r, entryReg x.1 = some r → t.reg r = x.2.toNat) ∧
      (commitUnits (s.staged.map (fun x => x.2)) = [] → t.commit = none ∧ t.rf .cfgCommitSts 31 28 = 2) ∧
      (commitUnits (s.staged.map (fun x => x.2)) ≠ [] →
        t.commit = some ⟨s.staged.map (fun x => x.2), commitUnits (s.staged.map (fun x => x.2))⟩ ∧
        t.rf .cfgCommitSts 31 28 = 1 ∧
        ∀ u, u < 25 → t.rf .cfgCommitSts u u = if u ∈ commitUnits (s.staged.map (fun x => x.2)) then 0 else 1) := by
  obtain ⟨hcom, had, hseq, hent, hdone⟩ := commitStored_spec (fld val.toNat 7 0) he
  rw [execCfgCommit_valid val hc he]
  rw [show fld val.toNat 7 0 % 2 ^ 8 = fld val.toNat 7 0 from Nat.mod_mod _ _] at hseq
  generalize s.commitStored (fld val.toNat 7 0) = v at hcom had hseq hent hdone
  by_cases hus : commitUnits (s.staged.map (fun x => x.2)) = []
  · rw [if_pos (by rw [hus]; rfl)]
    obtain ⟨z, hz⟩ : ∃ z : State, z = v.setRf .cfgCommitSts 31 28 2 := ⟨_, rfl⟩
    obtain ⟨hzc, hza, hzs, hzq, hze, -⟩ := commitState_spec hseq hent hdone rfl (by norm_num) hz
    rw [← hz]
    exact ⟨z, rfl, hzq, hza.trans had, hze, fun _ => ⟨hzc.trans (hcom.trans hc), hzs⟩, fun h => absurd hus h⟩
  · rw [if_neg (by rw [List.isEmpty_iff]; exact hus)]
    obtain ⟨w, hw⟩ : ∃ w : State, w = v.withCommit (s.staged.map (fun x => x.2)) := ⟨_, rfl⟩
    have hkeep := v.withCommit_keeps (s.staged.map (fun x => x.2))
    rw [← hw] at hkeep ⊢
    obtain ⟨hwc, hwa, hwr⟩ := hkeep
    obtain ⟨z, hz⟩ : ∃ z : State, z = w.setRf .cfgCommitSts 31 28 1 := ⟨_, rfl⟩
    obtain ⟨hzc, hza, hzs, hzq, hze, hzd⟩ := commitState_spec hseq hent hdone hwr (by norm_num) hz
    rw [← hz]
    exact ⟨z, rfl, hzq, hza.trans (hwa.trans had), hze, fun h => absurd h hus, fun _ => ⟨hzc.trans hwc, hzs, hzd⟩⟩

/-- Settles O37: a commit is refused, accepted or ended, with its entries in registers of their own. -/
theorem configurationCommits : Obligations.configuration_commits := by
  unfold Obligations.configuration_commits
  intro s
  refine ⟨fun n val => ⟨fun h63 hbad => ?_, fun hok => ?_⟩, fun val => ⟨fun c hc => execCfgCommit_busy val hc, fun hc =>
    ⟨fun e he => execCfgCommit_invalid val hc he, fun he => ?_⟩⟩, fun u c hc hu => ?_⟩
  · show execCommonRangeWrite n val s = _
    unfold execCommonRangeWrite State.writeCommon
    rw [if_pos (by rw [h63, hbad]; rfl)]
  · exact ⟨_, rfl, writeCommon_of_ok hok⟩
  · exact execCfgCommit_accepts val hc he
  · exact execCommitPartialTimeout_ends hc hu

end Sys2Proof.Machine

/-! Proofs: basin modes and the Shared size (R29 to R33, R45), and basins' low-power states (R345 to R347). -/

namespace Sys2Proof.Machine

/-! ### The registers of a basin and its owner -/

/-- The key of a register of a Pan die's basin lies in the die's block, below the configuration block (Table 24-6). -/
theorem Reg.modeKey_lt {b : Nat} (hb : b < 96) : Reg.key (.bsnModeSts b) < 0x6000000 ∧ 0x4000000 ≤ Reg.key (.bsnModeSts b) := by
  simp only [Reg.key, panBase]
  omega

theorem Reg.pwrKey_lt {b : Nat} (hb : b < 96) : Reg.key (.bsnPwrSts b) < 0x6000000 ∧ 0x4000000 ≤ Reg.key (.bsnPwrSts b) := by
  simp only [Reg.key, panBase]
  omega

theorem Reg.modeKey_ne_pwrKey (b c : Nat) : Reg.key (.bsnModeSts b) ≠ Reg.key (.bsnPwrSts c) := by
  simp only [Reg.key, panBase]
  omega

theorem Reg.pwrKey_ne {b c : Nat} (hb : b < 96) (hc : c < 96) (h : b ≠ c) : Reg.key (.bsnPwrSts b) ≠ Reg.key (.bsnPwrSts c) := by
  simp only [Reg.key, panBase]
  omega

/-- Who owns a basin is read in the configuration block alone (Table 24-7). -/
theorem State.basinOwner_congr {s t : State} (h : ∀ r : Reg, 0x6000000 ≤ r.key → t.reg r = s.reg r) (b : Nat) :
    t.basinOwner b = s.basinOwner b := by
  have hpred : (fun q => t.partOn q && t.partBasinBit q b) = fun q => s.partOn q && s.partBasinBit q b := by
    funext q
    have hon : t.partOn q = s.partOn q := by
      unfold State.partOn
      rw [State.rf_congr (h (.cfgPartSts q) (show 0x6000000 ≤ 0x6020000 + q * 0x100 + 8 by omega))]
    rw [hon]
    unfold State.partBasinBit
    rw [h (.cfgPartBsnLo q) (show 0x6000000 ≤ 0x6020000 + q * 0x100 + 16 by omega),
      h (.cfgPartBsnHi q) (show 0x6000000 ≤ 0x6020000 + q * 0x100 + 24 by omega)]
  unfold State.basinOwner
  rw [hpred]

theorem State.basinReady_congr {s t : State} (hlo : t.reg .glbReadyBsnLo = s.reg .glbReadyBsnLo)
    (hhi : t.reg .glbReadyBsnHi = s.reg .glbReadyBsnHi) (b : Nat) : t.basinReady b = s.basinReady b := by
  unfold State.basinReady
  rw [hlo, hhi]

theorem State.basinReady_setBasinReady (s : State) (b : Nat) (v : Bool) : (s.setBasinReady b v).basinReady b = v := by
  have hv : b2n v < 2 := by cases v <;> decide
  unfold State.setBasinReady
  by_cases h : s.basinReady b = v
  · rw [if_pos (beq_iff_eq.mpr h), h]
  · rw [if_neg (by rw [beq_iff_eq]; exact h)]
    unfold State.basinReady
    by_cases hb : b < 64
    · rw [if_pos hb, if_pos hb, State.reg_congr (regs_fire _ _ _)]
      refine bit_of_fld ((State.rf_setRf_of_lt s .glbReadyBsnLo (le_refl b) ?_))
      rw [show b + 1 - b = 1 by omega]
      exact hv
    · rw [if_neg hb, if_neg hb, State.reg_congr (regs_fire _ _ _)]
      refine bit_of_fld ((State.rf_setRf_of_lt s .glbReadyBsnHi (le_refl (b - 64)) ?_))
      rw [show b - 64 + 1 - (b - 64) = 1 by omega]
      exact hv

/-- The ready bits of basins stand in two registers (R379). -/
theorem State.reg_setBasinReady (s : State) (b : Nat) (v : Bool) {r : Reg} (hlo : r.key ≠ Reg.key .glbReadyBsnLo)
    (hhi : r.key ≠ Reg.key .glbReadyBsnHi) : (s.setBasinReady b v).reg r = s.reg r := by
  unfold State.setBasinReady
  split
  · rfl
  · rw [State.reg_congr (regs_fire _ _ _)]
    split
    · exact State.reg_setRf_of_ne _ _ _ _ hlo
    · exact State.reg_setRf_of_ne _ _ _ _ hhi

/-! ### Mode changes (R28 to R34) -/

theorem State.modeChg_setRf (s : State) (r : Reg) (hi lo v : Nat) : (s.setRf r hi lo v).modeChg = s.modeChg := rfl

/-- The fields TOKEN, RESULT and BUSY_WHY of a status register. -/
def State.threeFields (s : State) (r : Reg) (tok res why : Nat) : State :=
  ((s.setRf r 23 16 tok).setRf r 11 8 res).setRf r 7 4 why

theorem State.threeFields_spec (s : State) (r : Reg) {tok res why : Nat} (ht : tok < 256) (hr : res < 16) (hw : why < 16) :
    (s.threeFields r tok res why).rf r 23 16 = tok ∧ (s.threeFields r tok res why).rf r 11 8 = res ∧
    (s.threeFields r tok res why).rf r 7 4 = why ∧ (s.threeFields r tok res why).modeChg = s.modeChg ∧
    RegsOnly s (s.threeFields r tok res why) ∧
    ∀ q : Reg, q.key ≠ r.key → (s.threeFields r tok res why).reg q = s.reg q := by
  unfold State.threeFields
  refine ⟨?_, ?_, ?_, ?_, ((regsOnly_setRf _ _ _ _ _).trans (regsOnly_setRf _ _ _ _ _)).trans (regsOnly_setRf _ _ _ _ _),
    fun q hq => ?_⟩
  · rw [State.rf_setRf_other _ _ _ (by norm_num) (by norm_num), State.rf_setRf_other _ _ _ (by norm_num) (by norm_num),
      State.rf_setRf_of_lt _ _ (by norm_num) ht]
  · rw [State.rf_setRf_other _ _ _ (by norm_num) (by norm_num), State.rf_setRf_of_lt _ _ (by norm_num) hr]
  · rw [State.rf_setRf_of_lt _ _ (by norm_num) hw]
  · rw [State.modeChg_setRf, State.modeChg_setRf, State.modeChg_setRf]
  · rw [State.reg_setRf_of_ne _ _ _ _ hq, State.reg_setRf_of_ne _ _ _ _ hq, State.reg_setRf_of_ne _ _ _ _ hq]

/-- A write of BSN_MODE_CTL that is answered at once (R29, R33). -/
theorem State.modeStatus_spec (s : State) (b : Nat) {tok res why : Nat} (ht : tok < 256) (hr : res < 16) (hw : why < 16) :
    ((s.modeStatus b tok res why).rf (.bsnModeSts b) 23 16 = tok ∧ (s.modeStatus b tok res why).rf (.bsnModeSts b) 11 8 = res ∧
      (s.modeStatus b tok res why).rf (.bsnModeSts b) 7 4 = why) ∧ (s.modeStatus b tok res why).modeChg = s.modeChg := by
  obtain ⟨h1, h2, h3, h4, -⟩ := s.threeFields_spec (.bsnModeSts b) ht hr hw
  exact ⟨⟨h1, h2, h3⟩, h4⟩

theorem State.basinBusy_lt (s : State) (b : Nat) : s.basinBusy b < 16 := by
  have h : ∀ v : Bool, b2n v ≤ 1 := by decide
  unfold State.basinBusy
  have h1 := h (s.basinResident b)
  have h2 := h (s.dma.any (fun c => coreBasin c.org.core == b) || s.rmo.any (fun c => coreBasin c.org.core == b) || s.rmoInto b)
  have h3 := h (s.basinWindow b)
  have h4 := h (Map.find? s.modeChg b).isSome
  omega

/-- A wake writes its basin's power status alone. -/
theorem State.wake_spec (s : State) (b : Nat) : RegsOnly s (s.wake b) ∧
    ∀ q : Reg, q.key ≠ Reg.key (.bsnPwrSts b) → (s.wake b).reg q = s.reg q := by
  unfold State.wake
  split
  · exact ⟨rfl, fun _ _ => rfl⟩
  · exact ⟨rfl, fun q hq => State.reg_setRf_of_ne _ _ _ _ hq⟩

/-- The change that an accepted write of BSN_MODE_CTL records. -/
def State.modeStarted (s : State) (b mode : Nat) : State := { s with modeChg := Map.put s.modeChg b ⟨mode == 1, false⟩ }

theorem State.beginMode_eq (s : State) (b tok mode : Nat) : s.beginMode b tok mode =
    (((((s.setBasinReady b false).threeFields (.bsnModeSts b) tok 1 0).setRf (.bsnModeSts b) 1 1 1).modeStarted b mode).wake b) := rfl

theorem State.rf_threeFields_other (s : State) (r : Reg) (tok res why : Nat) {hi lo : Nat} (h : hi < 4) :
    (s.threeFields r tok res why).rf r hi lo = s.rf r hi lo := by
  unfold State.threeFields
  rw [State.rf_setRf_other _ _ _ (by norm_num) (by omega), State.rf_setRf_other _ _ _ (by norm_num) (by omega),
    State.rf_setRf_other _ _ _ (by norm_num) (by omega)]

theorem State.regs_modeStarted (s : State) (b mode : Nat) : (s.modeStarted b mode).regs = s.regs := rfl

/-- An accepted change (R30, R32). -/
theorem State.beginMode_spec (s : State) {b tok : Nat} (mode : Nat) (hb : b < 96) (ht : tok < 256) :
    ((s.beginMode b tok mode).rf (.bsnModeSts b) 23 16 = tok ∧ (s.beginMode b tok mode).rf (.bsnModeSts b) 11 8 = 1 ∧
      (s.beginMode b tok mode).rf (.bsnModeSts b) 7 4 = 0) ∧ (s.beginMode b tok mode).rf (.bsnModeSts b) 1 1 = 1 ∧
    (s.beginMode b tok mode).basinReady b = false ∧
    Map.find? (s.beginMode b tok mode).modeChg b = some ⟨decide (mode = 1), false⟩ := by
  have hne := Reg.modeKey_ne_pwrKey b b
  obtain ⟨hm1, hm2⟩ := Reg.modeKey_lt hb
  obtain ⟨hp1, hp2⟩ := Reg.pwrKey_lt hb
  have hlo : Reg.key .glbReadyBsnLo < 0x4000000 := by decide
  have hhi : Reg.key .glbReadyBsnHi < 0x4000000 := by decide
  rw [State.beginMode_eq]
  have hready := s.basinReady_setBasinReady b false
  generalize s.setBasinReady b false = u at hready
  obtain ⟨h1, h2, h3, -, -, h6⟩ := u.threeFields_spec (.bsnModeSts b) ht (show 1 < 16 by norm_num) (show 0 < 16 by norm_num)
  generalize u.threeFields (.bsnModeSts b) tok 1 0 = v at h1 h2 h3 h6
  have hset : ∀ hi lo, 1 < lo → ((v.setRf (.bsnModeSts b) 1 1 1).modeStarted b mode).rf (.bsnModeSts b) hi lo = v.rf (.bsnModeSts b) hi lo :=
    fun hi lo h => (State.rf_congr (State.reg_congr (State.regs_modeStarted _ _ _) _) hi lo).trans
      (State.rf_setRf_other _ _ _ (le_refl 1) (.inr h))
  have hone : ((v.setRf (.bsnModeSts b) 1 1 1).modeStarted b mode).rf (.bsnModeSts b) 1 1 = 1 :=
    (State.rf_congr (State.reg_congr (State.regs_modeStarted _ _ _) _) 1 1).trans
      (State.rf_setRf_of_lt _ _ (le_refl 1) (by norm_num))
  have hkeep : ∀ q : Reg, q.key ≠ Reg.key (.bsnModeSts b) → ((v.setRf (.bsnModeSts b) 1 1 1).modeStarted b mode).reg q = u.reg q :=
    fun q hq => (State.reg_congr (State.regs_modeStarted _ _ _) _).trans ((State.reg_setRf_of_ne _ _ _ _ hq).trans (h6 q hq))
  have hchg : Map.find? ((v.setRf (.bsnModeSts b) 1 1 1).modeStarted b mode).modeChg b = some ⟨decide (mode = 1), false⟩ :=
    Map.find?_put_same _ _ _
  generalize (v.setRf (.bsnModeSts b) 1 1 1).modeStarted b mode = w at hset hone hkeep hchg
  obtain ⟨hw, hreg⟩ := w.wake_spec b
  have hrf := fun hi lo => State.rf_congr (hreg (.bsnModeSts b) hne) hi lo
  refine ⟨⟨?_, ?_, ?_⟩, ?_, ?_, ?_⟩
  · rw [hrf, hset _ _ (by norm_num), h1]
  · rw [hrf, hset _ _ (by norm_num), h2]
  · rw [hrf, hset _ _ (by norm_num), h3]
  · rw [hrf, hone]
  · rw [State.basinReady_congr ((hreg _ (by omega)).trans (hkeep _ (by omega))) ((hreg _ (by omega)).trans (hkeep _ (by omega))),
      hready]
  · rw [hw]
    exact hchg

/-- A write of BSN_MODE_CTL to a basin in service is refused with its reason, answered, or begins the change (R29). -/
theorem State.writeMode_cases {s : State} {b v : Nat} (hup : s.dieUp (b / 8) = true) (hin : b ∉ s.outOfService) :
    (2 ≤ fld v 1 0 → s.writeMode b v = s.modeStatus b (fld v 15 8) 3 0) ∧
    (fld v 1 0 < 2 → s.basinBusy b ≠ 0 → s.writeMode b v = s.modeStatus b (fld v 15 8) 2 (s.basinBusy b)) ∧
    (fld v 1 0 < 2 → s.basinBusy b = 0 → fld v 1 0 = s.rf (.bsnModeSts b) 0 0 → s.writeMode b v = s.modeStatus b (fld v 15 8) 0 0) ∧
    (fld v 1 0 < 2 → s.basinBusy b = 0 → fld v 1 0 ≠ s.rf (.bsnModeSts b) 0 0 →
      s.writeMode b v = s.beginMode b (fld v 15 8) (fld v 1 0)) := by
  unfold State.writeMode
  dsimp only
  rw [if_neg (by rw [hup]; exact Bool.false_ne_true), if_neg (by rw [List.contains_iff_mem]; exact hin)]
  refine ⟨fun h => if_pos h, fun h hb => ?_, fun h hb hm => ?_, fun h hb hm => ?_⟩
  · rw [if_neg (by omega), if_pos (by rw [bne_iff_ne]; exact hb)]
  · rw [if_neg (by omega), if_neg (by rw [bne_iff_ne]; exact not_not.mpr hb), if_pos (beq_iff_eq.mpr hm)]
  · rw [if_neg (by omega), if_neg (by rw [bne_iff_ne]; exact not_not.mpr hb), if_neg (by rw [beq_iff_eq]; exact hm)]

/-- What wiping a basin keeps. -/
structure WipeKeeps (s t : State) : Prop where
  regs : t.regs = s.regs
  modeChg : t.modeChg = s.modeChg
  partOps : t.partOps = s.partOps
  quarantined : t.quarantined = s.quarantined
  boot : t.boot = s.boot
  outOfService : t.outOfService = s.outOfService

theorem WipeKeeps.trans {s t u : State} (h : WipeKeeps s t) (k : WipeKeeps t u) : WipeKeeps s u :=
  ⟨k.regs.trans h.regs, k.modeChg.trans h.modeChg, k.partOps.trans h.partOps, k.quarantined.trans h.quarantined,
    k.boot.trans h.boot, k.outOfService.trans h.outOfService⟩

theorem CohOnly.wipeKeeps {s t : State} (h : CohOnly s t) : WipeKeeps s t := by
  constructor <;> rw [h]

theorem PoolsOnly.wipeKeeps {s t : State} (h : PoolsOnly s t) : WipeKeeps s t := by
  constructor <;> rw [h]

theorem wipeKeeps_dropIcache (s : State) (gone : Nat → Bool) : WipeKeeps s (s.dropIcache gone) := ⟨rfl, rfl, rfl, rfl, rfl, rfl⟩

theorem wipeKeeps_emptyCaches (s : State) (b : Nat) : WipeKeeps s (s.emptyCaches b) :=
  (cohOnly_dropCaches s _ false).wipeKeeps.trans (wipeKeeps_dropIcache _ _)

/-- The matrix engines of a basin are held by no launch. -/
def State.freeEngines (s : State) (b : Nat) : State :=
  { s with mtxHolder := Map.keep s.mtxHolder (fun c => coreBasin c != b) }

theorem State.pool_freeEngines (s : State) (b : Nat) : (s.freeEngines b).pool = s.pool := rfl
theorem State.pool_zeroAcc_one (s : State) (b : Nat) : (s.zeroAcc b).pool = s.pool := rfl

theorem wipeKeeps_freeEngines (s : State) (b : Nat) : WipeKeeps s (s.freeEngines b) := ⟨rfl, rfl, rfl, rfl, rfl, rfl⟩

theorem State.wipeBasin_eq (s : State) (b : Nat) : s.wipeBasin b = (((s.emptyCaches b).zeroPools b).zeroAcc b).freeEngines b := rfl

theorem wipeKeeps_wipeBasin (s : State) (b : Nat) : WipeKeeps s (s.wipeBasin b) :=
  (((wipeKeeps_emptyCaches s b).trans (poolsOnly_zeroPools _ b).wipeKeeps).trans (poolsOnly_zeroAcc _ b).wipeKeeps).trans
    (wipeKeeps_freeEngines _ b)

/-- A mode change preserves no byte of the pools (R31). -/
theorem State.pool_wipeBasin (s : State) {b i k : Nat} (hi : i < 7) (hk : k < 2 ^ 22) :
    (s.wipeBasin b).pool.read ((b * 8 + i) * 2 ^ 22 + k) = 0 := by
  rw [State.wipeBasin_eq, State.pool_freeEngines, State.pool_zeroAcc_one]
  exact (s.emptyCaches b).zeroPools_zero hi hk

/-- The change leaves the table. -/
def State.modeDropped (s : State) (b : Nat) : State := { s with modeChg := Map.drop s.modeChg b }

/-- MODE, RESULT and CHANGING at the end of a change. -/
def State.modeFields (s : State) (r : Reg) (mode res : Nat) : State := ((s.setRf r 0 0 mode).setRf r 11 8 res).setRf r 1 1 0

theorem State.modeFields_spec (s : State) (r : Reg) {mode res : Nat} (hm : mode < 2) (hr : res < 16) :
    (s.modeFields r mode res).rf r 0 0 = mode ∧ (s.modeFields r mode res).rf r 11 8 = res ∧ (s.modeFields r mode res).rf r 1 1 = 0 ∧
    RegsOnly s (s.modeFields r mode res) ∧ ∀ q : Reg, q.key ≠ r.key → (s.modeFields r mode res).reg q = s.reg q := by
  unfold State.modeFields
  refine ⟨?_, ?_, ?_, ((regsOnly_setRf _ _ _ _ _).trans (regsOnly_setRf _ _ _ _ _)).trans (regsOnly_setRf _ _ _ _ _),
    fun q hq => ?_⟩
  · rw [State.rf_setRf_other _ _ _ (by norm_num) (by norm_num), State.rf_setRf_other _ _ _ (by norm_num) (by norm_num),
      State.rf_setRf_of_lt _ _ (by norm_num) hm]
  · rw [State.rf_setRf_other _ _ _ (by norm_num) (by norm_num), State.rf_setRf_of_lt _ _ (by norm_num) hr]
  · rw [State.rf_setRf_of_lt _ _ (by norm_num) (by norm_num)]
  · rw [State.reg_setRf_of_ne _ _ _ _ hq, State.reg_setRf_of_ne _ _ _ _ hq, State.reg_setRf_of_ne _ _ _ _ hq]

theorem State.wakeEnd_spec (s : State) (b : Nat) : RegsOnly s (s.wakeEnd b) ∧ (s.wakeEnd b).rf (.bsnPwrSts b) 1 0 = 0 ∧
    (s.wakeEnd b).rf (.bsnPwrSts b) 2 2 = 0 ∧ ∀ q : Reg, q.key ≠ Reg.key (.bsnPwrSts b) → (s.wakeEnd b).reg q = s.reg q := by
  unfold State.wakeEnd
  generalize Reg.bsnPwrSts b = r
  refine ⟨(regsOnly_setRf _ _ _ _ _).trans (regsOnly_setRf _ _ _ _ _), ?_, State.rf_setRf_of_lt _ _ (by norm_num) (by norm_num),
    fun q hq => ?_⟩
  · rw [State.rf_setRf_other _ _ _ (by norm_num) (by norm_num), State.rf_setRf_of_lt _ _ (by norm_num) (by norm_num)]
  · rw [State.reg_setRf_of_ne _ _ _ _ hq, State.reg_setRf_of_ne _ _ _ _ hq]

/-- What the end of a change shows of its basin's ready bit (R275, R380). -/
def State.backIn (s : State) (b : Nat) (ready : Bool) : Bool :=
  ready && !s.quarantined.contains (s.basinOwner b) && !s.boot.failedBits.contains (100 + b)

theorem State.endMode_eq (s : State) (b mode res : Nat) (ready : Bool) : s.endMode b mode res ready =
    ((((s.modeDropped b).modeFields (.bsnModeSts b) mode res).wakeEnd b).setBasinReady b
      (s.backIn b ready)).releaseParts := rfl

/-- A basin whose change has ended: its mode, its RESULT, its ready bit, and its pools as they were. -/
structure ModeEnded (s t : State) (b mode res : Nat) (ready : Bool) : Prop where
  pool : t.pool = s.pool
  modeChg : t.modeChg = Map.drop s.modeChg b
  outOfService : t.outOfService = s.outOfService
  mode : t.rf (.bsnModeSts b) 0 0 = mode
  result : t.rf (.bsnModeSts b) 11 8 = res
  changing : t.rf (.bsnModeSts b) 1 1 = 0
  ready : t.basinReady b = s.backIn b ready

theorem State.endMode_spec (s : State) {b mode res : Nat} (ready : Bool) (hb : b < 96) (hm : mode < 2) (hr : res < 16)
    (hops : s.partOps = []) : ModeEnded s (s.endMode b mode res ready) b mode res ready := by
  have hne := Reg.modeKey_ne_pwrKey b b
  obtain ⟨hm1, hm2⟩ := Reg.modeKey_lt hb
  have hlo : Reg.key .glbReadyBsnLo < 0x4000000 := by decide
  have hhi : Reg.key .glbReadyBsnHi < 0x4000000 := by decide
  rw [State.endMode_eq]
  have hd : (s.modeDropped b).regs = s.regs ∧ (s.modeDropped b).modeChg = Map.drop s.modeChg b ∧ (s.modeDropped b).pool = s.pool ∧
      (s.modeDropped b).partOps = s.partOps ∧ (s.modeDropped b).outOfService = s.outOfService := ⟨rfl, rfl, rfl, rfl, rfl⟩
  generalize s.modeDropped b = u at hd
  obtain ⟨-, hdc, hdp, hdo, hds⟩ := hd
  obtain ⟨hf0, hf1, hf2, hf3, hf4⟩ := u.modeFields_spec (.bsnModeSts b) hm hr
  generalize u.modeFields (.bsnModeSts b) mode res = v at hf0 hf1 hf2 hf3 hf4
  obtain ⟨hw0, -, -, hw3⟩ := v.wakeEnd_spec b
  have hready := (v.wakeEnd b).basinReady_setBasinReady b (s.backIn b ready)
  have hlogs := logsOnly_setBasinReady (v.wakeEnd b) b (s.backIn b ready)
  have hreg := fun (r : Reg) => State.reg_setBasinReady (v.wakeEnd b) b (s.backIn b ready) (r := r)
  generalize (v.wakeEnd b).setBasinReady b (s.backIn b ready) = w at hready hlogs hreg
  have hrel : w.releaseParts = w := by
    unfold State.releaseParts
    rw [show w.partOps = [] from (by rw [hlogs, hw0, hf3]; exact hdo.trans hops)]
    rfl
  rw [hrel]
  have hrf := fun hi lo => (State.rf_congr (hreg (.bsnModeSts b) (by omega) (by omega)) hi lo).trans
    (State.rf_congr (hw3 (.bsnModeSts b) hne) hi lo)
  refine ⟨?_, ?_, ?_, (hrf _ _).trans hf0, (hrf _ _).trans hf1, (hrf _ _).trans hf2, hready⟩
  · rw [hlogs, hw0, hf3]
    exact hdp
  · rw [hlogs, hw0, hf3]
    exact hdc
  · rw [hlogs, hw0, hf3]
    exact hds

theorem State.backIn_eq_decide (s : State) (b : Nat) :
    s.backIn b true = decide (s.basinOwner b ∉ s.quarantined ∧ 100 + b ∉ s.boot.failedBits) := by
  unfold State.backIn
  rw [Bool.true_and, Bool.decide_and, decide_not, decide_not, List.elem_eq_contains.symm, List.elem_eq_contains.symm]
  simp only [List.elem_eq_mem]

theorem WipeKeeps.backIn {s t : State} (h : WipeKeeps s t) (b : Nat) (ready : Bool) : t.backIn b ready = s.backIn b ready := by
  unfold State.backIn
  rw [h.quarantined, h.boot, State.basinOwner_congr (fun r _ => State.reg_congr h.regs r)]

/-- A change that has ended, seen from the state before its basin was wiped. -/
theorem ModeEnded.of_wiped {s t u : State} {b mode res : Nat} {ready : Bool} (h : ModeEnded t u b mode res ready)
    (hk : WipeKeeps s t) (hz : ∀ i k, i < 7 → k < 2 ^ 22 → t.pool.read ((b * 8 + i) * 2 ^ 22 + k) = 0) :
    ((∀ i k, i < 7 → k < 2 ^ 22 → u.pool.read ((b * 8 + i) * 2 ^ 22 + k) = 0) ∧ Map.find? u.modeChg b = none ∧
      u.rf (.bsnModeSts b) 0 0 = mode ∧ u.rf (.bsnModeSts b) 11 8 = res ∧ u.rf (.bsnModeSts b) 1 1 = 0) ∧
    u.basinReady b = s.backIn b ready := by
  refine ⟨⟨fun i k hi hk => ?_, ?_, h.mode, h.result, h.changing⟩, h.ready.trans (hk.backIn b ready)⟩
  · rw [h.pool]
    exact hz i k hi hk
  · rw [h.modeChg]
    exact Map.find?_drop_same _ _

/-- Logging the end of a change leaves what it shows. -/
theorem ModeEnded.ras {s t : State} {b mode res : Nat} {ready : Bool} (h : ModeEnded s t b mode res ready) (hb : b < 96)
    (e : RasEntry) : ModeEnded s (t.ras_ e) b mode res ready := by
  have hlogs := logsOnly_ras t e
  have hmode : Reg.key (.bsnModeSts b) ∉ rasKeys := by
    obtain ⟨-, hge⟩ := Reg.modeKey_lt hb
    unfold rasKeys
    simp only [List.mem_cons, List.not_mem_nil, or_false, not_or]
    have h1 : Reg.key .rasStoreSeq < 0x4000000 := by decide
    have h2 : Reg.key .rasLost < 0x4000000 := by decide
    have h3 : Reg.key .rasRingTail < 0x4000000 := by decide
    omega
  have hlo : Reg.key .glbReadyBsnLo ∉ rasKeys := by decide
  have hhi : Reg.key .glbReadyBsnHi ∉ rasKeys := by decide
  have hrf := fun hi lo => State.rf_congr (State.reg_ras t e hmode) hi lo
  refine ⟨?_, ?_, ?_, (hrf _ _).trans h.mode, (hrf _ _).trans h.result, (hrf _ _).trans h.changing, ?_⟩
  · rw [hlogs]
    exact h.pool
  · rw [hlogs]
    exact h.modeChg
  · rw [hlogs]
    exact h.outOfService
  · rw [State.basinReady_congr (State.reg_ras t e hlo) (State.reg_ras t e hhi)]
    exact h.ready

/-- The self-test has failed: the fallback to Pond begins (R33). -/
def State.modeFallback (s : State) (b : Nat) : State := { s with modeChg := Map.put s.modeChg b ⟨false, true⟩ }

/-- A basin is out of service. -/
def State.basinOut (s : State) (b : Nat) : State := { s with outOfService := NSet.ins s.outOfService b }

theorem execModeChangeComplete_of {s : State} {b : Fin 96} {m : ModeChange} (htrip : s.tripped = false)
    (hm : Map.find? s.modeChg b.val = some m) (hf : m.fallback = false) (ok : Bool) :
    exec (.modeChangeComplete b ok) s = if ok then .next ((s.wipeBasin b.val).endMode b.val (b2n m.toLake) 0 true)
      else .next (((s.wipeBasin b.val).modeFallback b.val).setRf (.bsnModeSts b.val) 0 0 0) := by
  show execModeChangeComplete b ok s = _
  unfold execModeChangeComplete State.modeFallback
  rw [State.clocked_of htrip, hm]
  dsimp only
  rw [if_neg (by rw [hf]; exact Bool.false_ne_true)]

theorem execPondFallbackComplete_of {s : State} {b : Fin 96} {m : ModeChange} (htrip : s.tripped = false)
    (hm : Map.find? s.modeChg b.val = some m) (hf : m.fallback = true) (ok : Bool) :
    exec (.pondFallbackComplete b ok) s =
      if ok then .next (((s.wipeBasin b.val).endMode b.val 0 4 true).ras_ (rasOf 0x13 1 (b.val / 8) 0x04 b.val 1))
      else .next ((((s.wipeBasin b.val).basinOut b.val).endMode b.val 0 5 false).ras_ (rasOf 0x13 2 (b.val / 8) 0x04 b.val 2)) := by
  show execPondFallbackComplete b ok s = _
  unfold execPondFallbackComplete State.basinOut
  rw [State.clocked_of htrip, hm]
  dsimp only
  rw [if_neg (by rw [hf]; decide)]

/-- MODE_CHANGE_COMPLETE and POND_FALLBACK_COMPLETE (R31 to R33, R275, R380). -/
theorem modeChange_ends {s : State} {b : Fin 96} {m : ModeChange} (hm : Map.find? s.modeChg b.val = some m)
    (hops : s.partOps = []) (htrip : s.tripped = false) :
    let serves := decide (s.basinOwner b.val ∉ s.quarantined ∧ 100 + b.val ∉ s.boot.failedBits)
    let r := Reg.bsnModeSts b.val
    let zeroed := fun (t : State) => ∀ i k, i < 7 → k < 2 ^ 22 → t.pool.read ((b.val * 8 + i) * 2 ^ 22 + k) = 0
    let ended := fun (t : State) (mode x : Nat) => zeroed t ∧ Map.find? t.modeChg b.val = none ∧ t.rf r 0 0 = mode ∧
      t.rf r 11 8 = x ∧ t.rf r 1 1 = 0
    (m.fallback = false →
      (∃ t : State, exec (.modeChangeComplete b true) s = .next t ∧ ended t (if m.toLake then 1 else 0) 0 ∧
        t.basinReady b.val = serves) ∧
      (∃ t : State, exec (.modeChangeComplete b false) s = .next t ∧ zeroed t ∧ t.rf r 0 0 = 0 ∧
        Map.find? t.modeChg b.val = some ⟨false, true⟩)) ∧
    (m.fallback = true →
      (∃ t : State, exec (.pondFallbackComplete b true) s = .next t ∧ ended t 0 4 ∧ t.basinReady b.val = serves) ∧
      (∃ t : State, exec (.pondFallbackComplete b false) s = .next t ∧ ended t 0 5 ∧ t.basinReady b.val = false ∧
        b.val ∈ t.outOfService)) := by
  intro serves r zeroed ended
  have hserves : s.backIn b.val true = serves := s.backIn_eq_decide b.val
  have hk := wipeKeeps_wipeBasin s b.val
  have hz : ∀ i k, i < 7 → k < 2 ^ 22 → (s.wipeBasin b.val).pool.read ((b.val * 8 + i) * 2 ^ 22 + k) = 0 :=
    fun i k hi hk => s.pool_wipeBasin hi hk
  refine ⟨fun hf => ⟨?_, ?_⟩, fun hf => ⟨?_, ?_⟩⟩
  · rw [execModeChangeComplete_of htrip hm hf, if_pos rfl]
    generalize s.wipeBasin b.val = w at hk hz
    have hlt : b2n m.toLake < 2 := by cases m.toLake <;> decide
    obtain ⟨hend, hready⟩ := (w.endMode_spec true b.isLt hlt (show 0 < 16 by norm_num) (hk.partOps.trans hops)).of_wiped hk hz
    exact ⟨_, rfl, hend, hready.trans hserves⟩
  · rw [execModeChangeComplete_of htrip hm hf, if_neg Bool.false_ne_true]
    generalize s.wipeBasin b.val = w at hk hz
    refine ⟨_, rfl, hz, State.rf_setRf_of_lt _ _ (le_refl 0) (by norm_num), ?_⟩
    rw [State.modeChg_setRf]
    exact Map.find?_put_same _ _ _
  · rw [execPondFallbackComplete_of htrip hm hf, if_pos rfl]
    generalize s.wipeBasin b.val = w at hk hz
    obtain ⟨hend, hready⟩ := ((w.endMode_spec true b.isLt (show 0 < 2 by norm_num) (show 4 < 16 by norm_num)
      (hk.partOps.trans hops)).ras b.isLt _).of_wiped hk hz
    exact ⟨_, rfl, hend, hready.trans hserves⟩
  · rw [execPondFallbackComplete_of htrip hm hf, if_neg Bool.false_ne_true]
    generalize s.wipeBasin b.val = w at hk hz
    have hx := ((w.basinOut b.val).endMode_spec false b.isLt (show 0 < 2 by norm_num) (show 5 < 16 by norm_num)
      (hk.partOps.trans hops)).ras b.isLt (rasOf 0x13 2 (b.val / 8) 0x04 b.val 2)
    obtain ⟨hend, hready⟩ := hx.of_wiped (s := w.basinOut b.val) ⟨rfl, rfl, rfl, rfl, rfl, rfl⟩ hz
    refine ⟨_, rfl, hend, hready, ?_⟩
    rw [hx.outOfService]
    exact (NSet.mem_ins _ _ _).mpr (.inl rfl)

/-! ### The Shared size (R44, R45) -/

theorem State.sharedChg_setRf (s : State) (r : Reg) (hi lo v : Nat) : (s.setRf r hi lo v).sharedChg = s.sharedChg := rfl
theorem State.pool_setRf (s : State) (r : Reg) (hi lo v : Nat) : (s.setRf r hi lo v).pool = s.pool := rfl
theorem State.heap_setRf (s : State) (r : Reg) (hi lo v : Nat) : (s.setRf r hi lo v).heap = s.heap := rfl
theorem State.coh_setRf (s : State) (r : Reg) (hi lo v : Nat) : (s.setRf r hi lo v).coh = s.coh := rfl
theorem State.acc_setRf (s : State) (r : Reg) (hi lo v : Nat) : (s.setRf r hi lo v).acc = s.acc := rfl

theorem State.sharedResult_spec (s : State) {tok res : Nat} (ht : tok < 256) (hr : res < 16) :
    ((s.sharedResult tok res).rf .glbSharedSts 19 12 = tok ∧ (s.sharedResult tok res).rf .glbSharedSts 11 8 = res) ∧
    (s.sharedResult tok res).sharedChg = s.sharedChg := by
  unfold State.sharedResult
  refine ⟨⟨?_, State.rf_setRf_of_lt _ _ (by norm_num) hr⟩, ?_⟩
  · rw [State.rf_setRf_other _ _ _ (by norm_num) (by norm_num), State.rf_setRf_of_lt _ _ (by norm_num) ht]
  · rw [State.sharedChg_setRf, State.sharedChg_setRf]

/-- A change of the Shared size is in progress. -/
def State.sharedStarted (s : State) (size : Nat) : State := { s with sharedChg := some size }

/-- The condition on which a change of the Shared size is refused as busy (R45). -/
theorem State.sharedBusy_iff (s : State) : (!s.sharedUp || s.sharedChg.isSome || s.sharedInUse) = true ↔
    (s.sharedUp = false ∨ s.sharedChg.isSome = true ∨ s.sharedInUse = true) := by
  simp only [Bool.or_eq_true, Bool.not_eq_true', or_assoc]

theorem execSharedSizeChange_spec (s : State) (val : BitVec 32) :
    let size := fld val.toNat 1 0
    let busy := s.sharedUp = false ∨ s.sharedChg.isSome = true ∨ s.sharedInUse = true
    let res := fun (t : State) (x : Nat) => t.rf .glbSharedSts 19 12 = fld val.toNat 15 8 ∧ t.rf .glbSharedSts 11 8 = x
    (busy → ∃ t : State, exec (.sharedSizeChange val) s = .next t ∧ res t 2 ∧ t.sharedChg = s.sharedChg) ∧
    (¬ busy → s.logical ≠ [] → kFor size s.logical.length ≤ 2048 →
      ∃ t : State, exec (.sharedSizeChange val) s = .next t ∧ res t 1 ∧ t.sharedChg = some size) ∧
    (¬ busy → 2048 < kFor size s.logical.length → ∃ t : State, exec (.sharedSizeChange val) s = .next t ∧ res t 3) := by
  intro size busy res
  have ht : fld val.toNat 15 8 < 256 := Nat.mod_lt _ (by norm_num)
  have heq : exec (.sharedSizeChange val) s = if !s.sharedUp || s.sharedChg.isSome || s.sharedInUse then
      .next (s.sharedResult (fld val.toNat 15 8) 2)
    else if s.logical.isEmpty || kFor size s.logical.length > 2048 then .next (s.sharedResult (fld val.toNat 15 8) 3)
    else .next ((s.sharedStarted size).sharedResult (fld val.toNat 15 8) 1) := rfl
  rw [heq]
  refine ⟨fun hb => ?_, fun hb hl hk => ?_, fun hb hk => ?_⟩
  · obtain ⟨hres, hchg⟩ := s.sharedResult_spec ht (show 2 < 16 by norm_num)
    rw [if_pos (s.sharedBusy_iff.mpr hb)]
    exact ⟨_, rfl, hres, hchg⟩
  · obtain ⟨hres, hchg⟩ := (s.sharedStarted size).sharedResult_spec ht (show 1 < 16 by norm_num)
    rw [if_neg (fun h => hb (s.sharedBusy_iff.mp h)), if_neg (fun h => (Bool.or_eq_true _ _ ▸ h).elim
      (fun h => hl (List.isEmpty_iff.mp h)) (fun h => absurd (of_decide_eq_true h) (by omega)))]
    exact ⟨_, rfl, hres, hchg⟩
  · obtain ⟨hres, -⟩ := s.sharedResult_spec ht (show 3 < 16 by norm_num)
    rw [if_neg (fun h => hb (s.sharedBusy_iff.mp h)), if_pos (by rw [Bool.or_eq_true]; exact .inr (decide_eq_true hk))]
    exact ⟨_, rfl, hres⟩

/-- Every Heap byte and every cached one is lost. -/
def State.lostHeaps (s : State) : State :=
  { s with
    heap := []
    heapPoison := []
    coh := ⟨[], [], [], [], []⟩
    icache := []
    narrow := []
    nmiss := [] }

theorem State.lostHeaps_spec (s : State) : s.lostHeaps.heap = [] ∧ s.lostHeaps.pool = s.pool ∧ s.lostHeaps.regs = s.regs ∧
    s.lostHeaps.sharedChg = s.sharedChg := ⟨rfl, rfl, rfl, rfl⟩

/-- No change of the Shared size is in progress. -/
def State.sharedDone (s : State) : State := { s with sharedChg := none }

theorem State.sharedDone_spec (s : State) : s.sharedDone.sharedChg = none ∧ s.sharedDone.pool = s.pool ∧
    s.sharedDone.heap = s.heap := ⟨rfl, rfl, rfl⟩

theorem execSharedSizeChangeComplete_spec {s : State} {size : Nat} (htrip : s.tripped = false) (hc : s.sharedChg = some size)
    (hsize : size < 4) : ∃ t : State, exec .sharedSizeChangeComplete s = .next t ∧ t.sharedChg = none ∧
      t.rf .glbSharedSts 11 8 = 0 ∧ t.rf .glbSharedSts 1 0 = size ∧ t.kGran = kFor size s.logical.length % 2 ^ 12 ∧
      (∀ k, t.heap.read k = 0) ∧ t.pool = s.pool := by
  have heq : exec .sharedSizeChangeComplete s = .next ((((s.sharedDone.setRf .glbSharedSts 31 20
      (kFor size s.logical.length)).setRf .glbSharedSts 1 0 size).lostHeaps).setRf .glbSharedSts 11 8 0) := by
    show execSharedSizeChangeComplete s = _
    unfold execSharedSizeChangeComplete State.formShared State.lostHeaps State.sharedDone
    rw [State.clocked_of htrip, hc]
  rw [heq]
  refine ⟨_, rfl, ?_⟩
  generalize kFor size s.logical.length = k
  obtain ⟨hd1, hd2, hd3⟩ := s.sharedDone_spec
  generalize s.sharedDone = u at hd1 hd2 hd3
  have hk : ((u.setRf .glbSharedSts 31 20 k).setRf .glbSharedSts 1 0 size).rf .glbSharedSts 31 20 = k % 2 ^ 12 := by
    rw [State.rf_setRf_other _ _ _ (by norm_num) (by norm_num), State.rf_setRf_same _ _ _ (by norm_num)]
  have hs : ((u.setRf .glbSharedSts 31 20 k).setRf .glbSharedSts 1 0 size).rf .glbSharedSts 1 0 = size :=
    State.rf_setRf_of_lt _ _ (by norm_num) hsize
  have hchg : ((u.setRf .glbSharedSts 31 20 k).setRf .glbSharedSts 1 0 size).sharedChg = none := by
    rw [State.sharedChg_setRf, State.sharedChg_setRf, hd1]
  have hpool : ((u.setRf .glbSharedSts 31 20 k).setRf .glbSharedSts 1 0 size).pool = s.pool := by
    rw [State.pool_setRf, State.pool_setRf, hd2]
  generalize (u.setRf .glbSharedSts 31 20 k).setRf .glbSharedSts 1 0 size = v at hk hs hchg hpool
  obtain ⟨hl1, hl2, hl3, hl4⟩ := v.lostHeaps_spec
  have hrf := fun hi lo => State.rf_congr (State.reg_congr hl3 .glbSharedSts) hi lo
  generalize v.lostHeaps = w at hl1 hl2 hl4 hrf
  refine ⟨?_, State.rf_setRf_of_lt _ _ (by norm_num) (by norm_num), ?_, ?_, fun k => ?_, ?_⟩
  · rw [State.sharedChg_setRf, hl4, hchg]
  · rw [State.rf_setRf_other _ _ _ (by norm_num) (by norm_num), hrf, hs]
  · unfold State.kGran
    rw [State.rf_setRf_other _ _ _ (by norm_num) (by norm_num), hrf, hk]
  · rw [State.heap_setRf, hl1]
    rfl
  · rw [State.pool_setRf, hl2, hpool]

/-! ### Low-power states (R345 to R347) -/

/-- A flushed basin's caches hold no line. -/
theorem State.l1_emptyCaches (s : State) (b : Nat) : ∀ x ∈ (s.emptyCaches b).coh.l1, x.1 / 2 ^ 23 / 7 ≠ b := by
  intro x hx
  have hcoh : (s.emptyCaches b).coh = (s.dropCaches (fun c => c / 7 == b) false).coh := rfl
  rw [hcoh, State.dropCaches_eq] at hx
  dsimp only at hx
  rw [if_neg Bool.false_ne_true] at hx
  generalize (s.linesInFlight _).foldl _ s = u at hx
  unfold State.dropCopies at hx
  have hkeep : ∀ (l : List (Nat × Nat × BitVec 4)) (v : State), (l.foldl State.dropCopy v).coh.l1 = v.coh.l1 := by
    intro l
    induction l with
    | nil => exact fun _ => rfl
    | cons y l ih => exact fun v => (ih _).trans rfl
  rw [hkeep] at hx
  have hgone := (List.mem_filter.mp hx).2
  intro hb
  have hgone' : (!(keyCache x.1 / 7 == b)) = true := hgone
  rw [show (keyCache x.1 / 7 == b) = true from beq_iff_eq.mpr hb] at hgone'
  cases hgone'

theorem State.acc_zeroAcc (s : State) (b : Nat) : ∀ x ∈ (s.zeroAcc b).acc, x.1 / 2048 / 16 ≠ b := by
  intro x hx
  exact bne_iff_ne.mp (List.mem_filter.mp hx).2

/-- What a Retained basin has lost. -/
structure Retained (b : Nat) (t : State) : Prop where
  sleep : t.rf (.bsnPwrSts b) 1 0 = 2
  l1 : ∀ x ∈ t.coh.l1, x.1 / 2 ^ 23 / 7 ≠ b
  acc : ∀ x ∈ t.acc, x.1 / 2048 / 16 ≠ b

theorem State.retain_spec (s : State) (b : Nat) : Retained b (s.retain b) ∧ (s.retain b).pool = s.pool := by
  have hl1 := s.l1_emptyCaches b
  have hpool := s.pool_emptyCaches b
  unfold State.retain
  generalize s.emptyCaches b = u at hl1 hpool
  refine ⟨⟨State.rf_setRf_of_lt _ _ (by norm_num) (by norm_num), ?_, ?_⟩, ?_⟩
  · rw [State.coh_setRf]
    exact hl1
  · rw [State.acc_setRf]
    exact u.acc_zeroAcc b
  · rw [State.pool_setRf]
    exact hpool

/-- What the statement says of a Retained basin. -/
theorem Retained.says {b : Nat} {t : State} (h : Retained b t) : t.rf (.bsnPwrSts b) 1 0 = 2 ∧
    (∀ x ∈ t.coh.l1, x.1 / 2 ^ 23 / 7 ≠ b) ∧ ∀ x ∈ t.acc, x.1 / 2048 / 16 ≠ b := ⟨h.sleep, h.l1, h.acc⟩

/-- A basin is put to sleep: Gated, Retained, or Off where its contexts can be evicted (R345, Table 20-4). -/
theorem State.enterSleep_spec (s : State) (b : Nat) :
    (∃ t : State, s.enterSleep b 1 = t ∧ t.rf (.bsnPwrSts b) 1 0 = 1 ∧ t.pool = s.pool ∧ t.coh = s.coh ∧ t.acc = s.acc) ∧
    s.enterSleep b 2 = s.retain b ∧
    (∀ u, s.evictBasin b = some u → (s.enterSleep b 3).rf (.bsnPwrSts b) 1 0 = 3 ∧
      ∀ i k, i < 7 → k < 2 ^ 22 → (s.enterSleep b 3).pool.read ((b * 8 + i) * 2 ^ 22 + k) = 0) ∧
    (s.evictBasin b = none → s.enterSleep b 3 = s.retain b) := by
  refine ⟨⟨s.setRf (.bsnPwrSts b) 1 0 1, rfl, State.rf_setRf_of_lt _ _ (by norm_num) (by norm_num), State.pool_setRf _ _ _ _ _,
    State.coh_setRf _ _ _ _ _, State.acc_setRf _ _ _ _ _⟩, rfl, fun u hu => ?_, fun hn => ?_⟩
  · have heq : s.enterSleep b 3 = ((u.retain b).zeroPools b).setRf (.bsnPwrSts b) 1 0 3 := by
      unfold State.enterSleep
      rw [if_neg (by decide), if_neg (by decide), hu]
    rw [heq]
    refine ⟨State.rf_setRf_of_lt _ _ (by norm_num) (by norm_num), fun i k hi hk => ?_⟩
    rw [State.pool_setRf]
    exact (u.retain b).zeroPools_zero hi hk
  · unfold State.enterSleep
    rw [if_neg (by decide), if_neg (by decide), hn]

/-- BASIN_IDLE on an idle basin whose die is up and that does not wake (R345, R346). -/
theorem execBasinIdle_of {s : State} {b : Fin 96} (hi : s.basinIdle b.val = true) (hup : s.dieUp (b.val / 8) = true)
    (hw : s.rf (.bsnPwrSts b.val) 2 2 ≠ 1) : exec (.basinIdle b) s =
      if s.sleepFor b.val ≤ s.sleep b.val then .next s else .next (s.enterSleep b.val (s.sleepFor b.val)) := by
  show execBasinIdle b s = _
  unfold execBasinIdle
  dsimp only
  rw [if_neg (by rw [hi, hup, beq_false_of_ne hw]; decide)]

theorem basinIdle_sleeps {s : State} {b : Fin 96} (hi : s.basinIdle b.val = true) (hup : s.dieUp (b.val / 8) = true)
    (hw : s.rf (.bsnPwrSts b.val) 2 2 ≠ 1) :
    let sleep := fun (t : State) => t.rf (.bsnPwrSts b.val) 1 0
    let retained := fun (t : State) => sleep t = 2 ∧ (∀ x ∈ t.coh.l1, x.1 / 2 ^ 23 / 7 ≠ b.val) ∧
      (∀ x ∈ t.acc, x.1 / 2048 / 16 ≠ b.val)
    (s.sleepFor b.val ≤ sleep s → exec (.basinIdle b) s = .next s) ∧
    (sleep s = 0 → s.sleepFor b.val = 1 → ∃ t : State, exec (.basinIdle b) s = .next t ∧ sleep t = 1 ∧
      t.pool = s.pool ∧ t.coh = s.coh ∧ t.acc = s.acc) ∧
    (sleep s < 2 → s.sleepFor b.val = 2 →
      ∃ t : State, exec (.basinIdle b) s = .next t ∧ retained t ∧ t.pool = s.pool) ∧
    (sleep s < 3 → s.sleepFor b.val = 3 →
      (∀ u, s.evictBasin b.val = some u → ∃ t : State, exec (.basinIdle b) s = .next t ∧ sleep t = 3 ∧
        ∀ i k, i < 7 → k < 2 ^ 22 → t.pool.read ((b.val * 8 + i) * 2 ^ 22 + k) = 0) ∧
      (s.evictBasin b.val = none → ∃ t : State, exec (.basinIdle b) s = .next t ∧ retained t ∧ t.pool = s.pool)) := by
  intro sleep retained
  obtain ⟨⟨g, hg, hgated⟩, htwo, hoff, hstay⟩ := s.enterSleep_spec b.val
  obtain ⟨hret, hpool⟩ := s.retain_spec b.val
  have hsleep : s.sleep b.val = sleep s := rfl
  rw [execBasinIdle_of hi hup hw, hsleep]
  refine ⟨fun h => if_pos h, fun h0 h1 => ?_, fun h0 h2 => ?_, fun h0 h3 => ⟨fun u hu => ?_, fun hn => ?_⟩⟩
  · rw [if_neg (by omega), h1, hg]
    exact ⟨g, rfl, hgated⟩
  · rw [if_neg (by omega), h2, htwo]
    exact ⟨_, rfl, hret.says, hpool⟩
  · rw [if_neg (by omega), h3]
    exact ⟨_, rfl, hoff u hu⟩
  · rw [if_neg (by omega), h3, hstay hn]
    exact ⟨_, rfl, hret.says, hpool⟩

/-- A sleeping basin is marked as waking, in the state it sleeps in. -/
theorem State.wake_of_asleep {s : State} {b : Nat} (h : s.rf (.bsnPwrSts b) 1 0 ≠ 0) :
    (s.wake b).rf (.bsnPwrSts b) 2 2 = 1 ∧ (s.wake b).rf (.bsnPwrSts b) 1 0 = s.rf (.bsnPwrSts b) 1 0 := by
  unfold State.wake
  rw [if_neg (by rw [beq_iff_eq]; exact h)]
  exact ⟨State.rf_setRf_of_lt _ _ (le_refl 2) (by norm_num), State.rf_setRf_other _ _ _ (le_refl 2) (by norm_num)⟩

/-- A wake leaves the state in which a basin sleeps, and ends no other basin's wake. -/
theorem State.wake_keeps (s : State) {b c : Nat} (hb : b < 96) (hc : c < 96) :
    (s.wake c).rf (.bsnPwrSts b) 1 0 = s.rf (.bsnPwrSts b) 1 0 ∧
    (s.rf (.bsnPwrSts b) 2 2 = 1 → (s.wake c).rf (.bsnPwrSts b) 2 2 = 1) := by
  by_cases hbc : b = c
  · subst hbc
    by_cases h : s.rf (.bsnPwrSts b) 1 0 = 0
    · unfold State.wake State.sleep
      rw [if_pos (beq_iff_eq.mpr h)]
      exact ⟨rfl, id⟩
    · exact ⟨(State.wake_of_asleep h).2, fun _ => (State.wake_of_asleep h).1⟩
  · have hreg := (s.wake_spec c).2 (.bsnPwrSts b) (Reg.pwrKey_ne hb hc hbc)
    exact ⟨State.rf_congr hreg _ _, fun h => (State.rf_congr hreg _ _).trans h⟩

/-- The wake of a list of basins: each sleeps as before, and one of the list that is asleep wakes. -/
theorem State.foldl_wake {b : Nat} (hb : b < 96) (l : List Nat) (hl : ∀ c ∈ l, c < 96) (s : State) :
    (l.foldl State.wake s).rf (.bsnPwrSts b) 1 0 = s.rf (.bsnPwrSts b) 1 0 ∧
    (s.rf (.bsnPwrSts b) 2 2 = 1 → (l.foldl State.wake s).rf (.bsnPwrSts b) 2 2 = 1) ∧
    (b ∈ l → s.rf (.bsnPwrSts b) 1 0 ≠ 0 → (l.foldl State.wake s).rf (.bsnPwrSts b) 2 2 = 1) := by
  induction l generalizing s with
  | nil => exact ⟨rfl, id, fun h => absurd h (List.not_mem_nil)⟩
  | cons c l ih =>
    obtain ⟨h1, h2, h3⟩ := ih (fun x hx => hl x (List.mem_cons_of_mem _ hx)) (s.wake c)
    obtain ⟨k1, k2⟩ := s.wake_keeps hb (hl c List.mem_cons_self)
    rw [List.foldl_cons]
    refine ⟨h1.trans k1, fun h => h2 (k2 h), fun hm hs => ?_⟩
    rcases List.mem_cons.mp hm with rfl | hm
    · exact h2 (State.wake_of_asleep hs).1
    · exact h3 hm (by rw [k1]; exact hs)

/-- The idle hint of a partition, and when it was written. -/
def State.hintNoted (s : State) (p : Nat) : State :=
  { s with power := { s.power with hintAt := Map.put s.power.hintAt p s.weirCtr.toNat } }

theorem State.regs_hintNoted (s : State) (p : Nat) : (s.hintNoted p).regs = s.regs := rfl

theorem State.writeHint_eq (s : State) (p us : Nat) : s.writeHint p us =
    let t := (s.setRf (.pwrIdleHint p) 31 0 us).hintNoted p
    if us == 0 then ((List.range 96).filter (fun b => t.basinOwner b == p)).foldl State.wake t else t := rfl

/-- PWR_IDLE_HINT (R346, R347). -/
theorem State.writeHint_spec (s : State) {p us b : Nat} (hp : p < 96 ∨ p = 127) (hb : b < 96) (hus : us < 2 ^ 32) :
    (s.writeHint p us).rf (.pwrIdleHint p) 31 0 = us ∧
    (us = 0 → s.basinOwner b = p → s.rf (.bsnPwrSts b) 1 0 ≠ 0 → (s.writeHint p us).rf (.bsnPwrSts b) 2 2 = 1) ∧
    (s.writeHint p us).rf (.bsnPwrSts b) 1 0 = s.rf (.bsnPwrSts b) 1 0 := by
  have hkey : Reg.key (.pwrIdleHint p) = 0x3003000 + p * 8 := rfl
  have hlow : Reg.key (.pwrIdleHint p) < 0x4000000 := by omega
  obtain ⟨hb1, hb2⟩ := Reg.pwrKey_lt hb
  rw [State.writeHint_eq]
  dsimp only
  have hhint : ((s.setRf (.pwrIdleHint p) 31 0 us).hintNoted p).rf (.pwrIdleHint p) 31 0 = us := by
    rw [State.rf_congr (State.reg_congr (State.regs_hintNoted _ _) _)]
    exact State.rf_setRf_of_lt _ _ (by norm_num) hus
  have hreg : ∀ r : Reg, 0x4000000 ≤ r.key → ((s.setRf (.pwrIdleHint p) 31 0 us).hintNoted p).reg r = s.reg r := fun r hr => by
    rw [State.reg_congr (State.regs_hintNoted _ _)]
    exact State.reg_setRf_of_ne _ _ _ _ (by omega)
  generalize (s.setRf (.pwrIdleHint p) 31 0 us).hintNoted p = t at hhint hreg
  have hown : ∀ c, t.basinOwner c = s.basinOwner c := State.basinOwner_congr (fun r hr => hreg r (by omega))
  have hsleep : t.rf (.bsnPwrSts b) 1 0 = s.rf (.bsnPwrSts b) 1 0 := State.rf_congr (hreg _ hb2) _ _
  by_cases h0 : us = 0
  · rw [if_pos (beq_iff_eq.mpr h0)]
    have hlt : ∀ c ∈ (List.range 96).filter (fun b => t.basinOwner b == p), c < 96 :=
      fun c hc => List.mem_range.mp (List.mem_filter.mp hc).1
    obtain ⟨h1, -, h3⟩ := State.foldl_wake hb _ hlt t
    have hkeep : ∀ l : List Nat, (∀ c ∈ l, c < 96) → ∀ u : State, (l.foldl State.wake u).rf (.pwrIdleHint p) 31 0 =
        u.rf (.pwrIdleHint p) 31 0 := by
      intro l
      induction l with
      | nil => exact fun _ _ => rfl
      | cons c l ih =>
        intro hl u
        have hc := (Reg.pwrKey_lt (hl c List.mem_cons_self)).2
        exact (ih (fun x hx => hl x (List.mem_cons_of_mem _ hx)) _).trans
          (State.rf_congr ((u.wake_spec c).2 (.pwrIdleHint p) (by omega)) _ _)
    refine ⟨(hkeep _ hlt t).trans hhint, fun _ ho hs => h3 (List.mem_filter.mpr ⟨List.mem_range.mpr hb, ?_⟩) ?_, h1.trans hsleep⟩
    · rw [hown, ho]
      exact beq_self_eq_true p
    · rw [hsleep]
      exact hs
  · rw [if_neg (by rw [beq_iff_eq]; exact h0)]
    exact ⟨hhint, fun h => absurd h h0, hsleep⟩

/-- Settles O38: modes, the Shared size and the low-power states, each write and each completion by its own lemma. -/
theorem modesAndPowerStates : Obligations.modes_and_power_states := by
  unfold Obligations.modes_and_power_states
  refine ⟨fun s => ⟨fun b val hup hin => ?_, fun b m hm hops htrip => modeChange_ends hm hops htrip,
    fun val => execSharedSizeChange_spec s val, fun size htrip hc hsize => execSharedSizeChangeComplete_spec htrip hc hsize⟩,
    fun s b => ?_⟩
  · have ht : fld val.toNat 15 8 < 256 := Nat.mod_lt _ (by norm_num)
    have hexec : exec (.modeChangeWrite b val) s = .next (s.writeMode b.val val.toNat) := rfl
    obtain ⟨h3, h2, h0, h1⟩ := State.writeMode_cases (v := val.toNat) hup hin
    dsimp only
    rw [hexec]
    refine ⟨fun hm => ?_, fun hm hb => ?_, fun hm hb he => ?_, fun hm hb he => ?_⟩
    · rw [h3 hm]
      exact ⟨_, rfl, s.modeStatus_spec b.val ht (by norm_num) (by norm_num)⟩
    · rw [h2 hm hb]
      exact ⟨_, rfl, s.modeStatus_spec b.val ht (by norm_num) (s.basinBusy_lt _)⟩
    · rw [h0 hm hb he]
      exact ⟨_, rfl, s.modeStatus_spec b.val ht (by norm_num) (by norm_num)⟩
    · rw [h1 hm hb he]
      exact ⟨_, rfl, s.beginMode_spec _ b.isLt ht⟩
  · dsimp only
    refine ⟨fun hi hup hw => basinIdle_sleeps hi hup hw, fun hs hw hn => ?_, fun hs hw => ⟨fun i hi => ?_, fun w hc => ?_⟩,
      fun hw => ?_, fun p val hp => ?_⟩
    · obtain ⟨hret, hpool⟩ := s.retain_spec b.val
      refine ⟨_, ?_, hret.says, hpool⟩
      show execGatedToRetained b s = _
      unfold execGatedToRetained State.sleep
      rw [if_neg (by rw [hs, hn, beq_false_of_ne hw]; decide)]
    · obtain ⟨h1, h2⟩ := State.wake_of_asleep hs
      refine ⟨_, ?_, h1, h2⟩
      show execIdleExpiryWake b s = _
      unfold execIdleExpiryWake State.sleep
      rw [if_neg (by rw [hi, beq_false_of_ne hw, beq_false_of_ne hs]; exact Bool.false_ne_true)]
    · obtain ⟨h1, h2⟩ := State.wake_of_asleep hs
      refine ⟨_, ?_, h1, h2⟩
      show execBasinWake b w s = _
      unfold execBasinWake State.sleep
      rw [if_neg (by rw [hc, beq_false_of_ne hw, beq_false_of_ne hs]; decide)]
    · obtain ⟨hr, h1, h2, -⟩ := s.wakeEnd_spec b.val
      refine ⟨_, ?_, h2, h1, ?_, ?_⟩
      · show execBasinWakeComplete b s = _
        unfold execBasinWakeComplete
        rw [if_pos (beq_iff_eq.mpr hw)]
      · rw [hr]
      · rw [hr]
    · obtain ⟨h1, h2, h3⟩ := s.writeHint_spec hp b.isLt (us := fld val.toNat 31 0) (Nat.mod_lt _ (by norm_num))
      refine ⟨_, ?_, h1, h2, h3⟩
      show execIdleHintWrite p val s = _
      unfold execIdleHintWrite
      rw [if_pos (by simpa [Bool.or_eq_true] using hp)]

end Sys2Proof.Machine

/-! Proofs: storage errors, the Rake and the repair of common rows (R49, R350, R355, R357, R358, Tables 03-8, 21-1, 21-2). -/

namespace Sys2Proof.Machine

/-! ### The registers that the memory map is read from -/

/-- `t` holds the registers of `s` below and above those of the Weir's units: the memory map's among them (Tables 24-6, 24-7). -/
def MapRegs (s t : State) : Prop := ∀ r : Reg, r.key < 0x2000000 ∨ 0x4000000 ≤ r.key → t.reg r = s.reg r

namespace MapRegs

theorem refl (s : State) : MapRegs s s := fun _ _ => rfl
theorem trans {s t u : State} (h : MapRegs s t) (k : MapRegs t u) : MapRegs s u := fun r hr => (k r hr).trans (h r hr)
theorem of_eq {s t : State} (h : t.regs = s.regs) : MapRegs s t := fun r _ => State.reg_congr h r

theorem foldl {α : Type} {P : α → Prop} {f : State → α → State} (h : ∀ u x, P x → MapRegs u (f u x)) (xs : List α)
    (hxs : ∀ x ∈ xs, P x) (s : State) : MapRegs s (xs.foldl f s) := by
  induction xs generalizing s with
  | nil => exact refl s
  | cons x xs ih => exact (h s x (hxs x List.mem_cons_self)).trans (ih (fun y hy => hxs y (List.mem_cons_of_mem _ hy)) _)

end MapRegs

theorem mapRegs_ras (s : State) (e : RasEntry) : MapRegs s (s.ras_ e) := fun r hr => by
  refine State.reg_ras s e ?_
  have h1 : Reg.key .rasStoreSeq = 0x3400020 := rfl
  have h2 : Reg.key .rasLost = 0x3400018 := rfl
  have h3 : Reg.key .rasRingTail = 0x3400010 := rfl
  unfold rasKeys
  simp only [List.mem_cons, List.not_mem_nil, or_false, not_or]
  omega

theorem mapRegs_post (s : State) {p : Nat} (ws : List Word) (hp : p < 128) : MapRegs s (s.post p ws).1 := fun r hr => by
  refine State.reg_post s p ws ?_ ?_
  · simp only [Reg.key]
    simp only [Reg.key] at hr
    omega
  · simp only [Reg.key]
    simp only [Reg.key] at hr
    omega

section
variable {s t : State} (h : MapRegs s t)
include h

theorem MapRegs.partOn (p : Nat) : t.partOn p = s.partOn p := by
  unfold State.partOn
  rw [State.rf_congr (h (.cfgPartSts p) (.inr (show 0x4000000 ≤ 0x6020000 + p * 0x100 + 8 by omega)))]

theorem MapRegs.partChanBit (p c : Nat) : t.partChanBit p c = s.partChanBit p c := by
  unfold State.partChanBit
  rw [h (.cfgPartChan p (c / 64)) (.inr (show 0x4000000 ≤ 0x6020000 + p * 0x100 + 0x20 + c / 64 * 8 by omega))]

theorem MapRegs.chanOwner (c : Nat) : t.chanOwner c = s.chanOwner c := by
  have hpred : (fun p => t.partOn p && t.partChanBit p c) = fun p => s.partOn p && s.partChanBit p c :=
    funext fun p => by rw [h.partOn, h.partChanBit]
  unfold State.chanOwner
  rw [hpred]

theorem MapRegs.chanState (c : Nat) : t.chanState c = s.chanState c := by
  unfold State.chanState
  refine State.rf_congr (h (.panChanState (c / 16)) (.inr ?_)) _ _
  simp only [Reg.key, panBase]
  omega

theorem MapRegs.guarded (x : Nat) : t.guarded x = s.guarded x := by
  unfold State.guarded
  rw [State.rf_congr (h (.panHeapCtl x) (.inr ?_)) _ _]
  simp only [Reg.key, panBase]
  omega

theorem MapRegs.heapChans (x : Nat) : t.heapChans x = s.heapChans x := by
  have hf : (fun c => if t.chanState (x * 16 + c) == 3 then none else some (x * 16 + c)) =
      fun c => if s.chanState (x * 16 + c) == 3 then none else some (x * 16 + c) := funext fun c => by rw [h.chanState]
  unfold State.heapChans
  rw [hf]

theorem MapRegs.heapLogical (x : Nat) : t.heapLogical x = s.heapLogical x := by
  unfold State.heapLogical
  rw [h.guarded, h.heapChans]

theorem MapRegs.logical : t.logical = s.logical := by
  unfold State.logical
  rw [show t.heapLogical = s.heapLogical from funext h.heapLogical]

theorem MapRegs.partChans (p : Nat) : t.partChans p = s.partChans p := by
  unfold State.partChans
  rw [h.partOn, h.logical, show t.partChanBit p = s.partChanBit p from funext (h.partChanBit p),
    show t.chanOwner = s.chanOwner from funext h.chanOwner]

theorem MapRegs.kGran : t.kGran = s.kGran := State.rf_congr (h .glbSharedSts (.inl (by decide))) _ _

theorem MapRegs.deepSize : t.deepSize = s.deepSize := by
  unfold State.deepSize
  rw [h.kGran]

theorem MapRegs.sharedSize : t.sharedSize = s.sharedSize := by
  unfold State.sharedSize
  rw [h.kGran, State.rf_congr (h .glbSharedSts (.inl (by decide)))]

theorem MapRegs.sharedOff (k : Nat) : t.sharedOff k = s.sharedOff k := by
  unfold State.sharedOff
  rw [h.deepSize, h.logical, h.sharedSize]

theorem MapRegs.commonReg (n : Nat) : t.reg (.cfgCommon n) = s.reg (.cfgCommon n) :=
  h (.cfgCommon n) (.inr (show 0x4000000 ≤ 0x6011000 + n * 8 by omega))

theorem MapRegs.commonOf (k : Nat) : t.commonOf k = s.commonOf k := by
  unfold State.commonOf State.inCommon
  simp only [h.deepSize, h.chanOwner, h.partChans, h.commonReg]

theorem MapRegs.sliceHolds (hc : t.coh = s.coh) (k : Nat) : t.sliceHolds k = s.sliceHolds k := by
  unfold State.sliceHolds
  rw [h.sharedOff, hc]

end

/-- Who owns a channel is a partition or PF0. -/
theorem State.chanOwner_lt (s : State) (c : Nat) : s.chanOwner c < 128 := by
  unfold State.chanOwner
  cases hf : (List.range 96).find? (fun p => s.partOn p && s.partChanBit p c) with
  | none => exact (by decide : (127 : Nat) < 128)
  | some p => exact lt_trans (List.mem_range.mp (List.mem_of_find?_eq_some hf)) (by decide)

theorem State.physOwner_lt (s : State) (c : Nat) : s.physOwner c < 128 := by
  unfold State.physOwner
  split <;> exact s.chanOwner_lt _

theorem State.lt_of_mem_chanUsers {s : State} {c p : Nat} (h : p ∈ s.chanUsers c) : p < 128 := by
  unfold State.chanUsers at h
  dsimp only at h
  split at h
  · rcases List.mem_cons.mp h with rfl | h
    · decide
    · obtain ⟨n, -, hn⟩ := List.mem_flatMap.mp (List.mem_dedup.mp h)
      have := List.mem_range.mp (List.mem_filter.mp hn).1
      omega
  · rw [List.mem_singleton] at h
    exact h ▸ s.physOwner_lt c

/-! ### What is logged -/

theorem State.ras_fire (s : State) (fn vec : Nat) : (s.fire fn vec).ras = s.ras := by
  unfold State.fire
  dsimp only
  split <;> rfl

theorem State.ras_hostWrite (s : State) (k : Nat) (bs : List Byte) : (s.hostWrite k bs).ras = s.ras := by
  induction bs generalizing s k with
  | nil => rfl
  | cons b bs ih => exact ih _ _

theorem State.ras_rasPost (s : State) (e : RasEntry) : (s.rasPost e).ras = s.ras := by
  unfold State.rasPost
  dsimp only
  split
  · split
    · exact State.setReg_ras _ _ _
    · rw [State.ras_fire, State.setReg_ras, State.ras_hostWrite]
  · rfl

/-- A record is no entry of the RAS store. -/
theorem State.ras_post (s : State) (p : Nat) (ws : List Word) : (s.post p ws).1.ras = s.ras := by
  unfold State.post
  split
  · exact State.setReg_ras _ _ _
  · split
    · dsimp only
      split
      · rfl
      · exact State.setReg_ras _ _ _
    · unfold State.fringWrite
      dsimp only
      rw [State.ras_fire, State.setReg_ras, State.ras_hostWrite]

theorem State.ras_foldl_post (l : List Nat) (ws : Nat → State → List Word) (s : State) :
    (l.foldl (fun t p => (t.post p (ws p t)).1) s).ras = s.ras := by
  induction l generalizing s with
  | nil => rfl
  | cons p l ih => exact (ih _).trans (s.ras_post p _)

/-- Some entry of the RAS store has a class, an index and a detail. -/
def State.logged (s : State) (cls index detail : Nat) : Prop := ∃ e ∈ s.ras, e.cls = cls ∧ e.index = index ∧ e.detail = detail

theorem State.logged_congr {s t : State} (h : t.ras = s.ras) {c i d : Nat} (hl : s.logged c i d) : t.logged c i d := by
  unfold State.logged
  rw [h]
  exact hl

/-- An entry as it is stored: with its number and its time. -/
def State.stamp (s : State) (e : RasEntry) : RasEntry :=
  { e with seq := s.reg .rasStoreSeq + 1, time := s.dieTime e.die, first := some s.weirCtr.toNat }

/-- An error that is logged stands in the RAS store: on its own, or combined with an earlier one (R363); one of severity 0 only
while the store has room. -/
theorem State.stored_ras (s : State) (e : RasEntry) (h : s.ras.length < 4096 ∨ e.sev ≠ 0) :
    ∃ x ∈ (s.ras_ e).ras, x.cls = e.cls ∧ x.die = e.die ∧ x.index = e.index ∧ x.detail = e.detail := by
  unfold State.ras_
  split
  case h_1 i hi =>
    rw [findIdx?_eq_list_findIdx?] at hi
    obtain ⟨hlt, hsame, -⟩ := List.findIdx?_eq_some_iff_getElem.mp hi
    simp only [RasEntry.same, Bool.and_eq_true, beq_iff_eq] at hsame
    obtain ⟨⟨⟨⟨⟨hcls, hdie⟩, -⟩, hidx⟩, hdet⟩, -⟩ := hsame
    refine ⟨{ s.ras[i] with count := satInc 24 s.ras[i].count }, ?_, hcls, hdie, hidx, hdet⟩
    exact List.mem_iff_getElem.mpr ⟨i, by rw [List.length_modify]; exact hlt, List.getElem_modify_eq ..⟩
  case h_2 =>
    have hstored : ∀ l : List RasEntry, ∃ x ∈ (({ s with ras := s.stamp e :: l }.setReg .rasStoreSeq (s.stamp e).seq).rasPost
        (s.stamp e)).ras, x.cls = e.cls ∧ x.die = e.die ∧ x.index = e.index ∧ x.detail = e.detail := fun l =>
      ⟨s.stamp e, by rw [State.ras_rasPost, State.setReg_ras]; exact List.mem_cons_self, rfl, rfl, rfl, rfl⟩
    dsimp only
    split
    · exact hstored _
    · rename_i hfull
      have hsev : (leastSev s.ras == 0 || e.sev != 0) = true := by
        rw [Bool.or_eq_true, bne_iff_ne]
        exact .inr (h.resolve_left hfull)
      rw [if_pos hsev]
      exact hstored _

theorem State.logged_ras (s : State) (e : RasEntry) (h : s.ras.length < 4096 ∨ e.sev ≠ 0) :
    (s.ras_ e).logged e.cls e.index e.detail := by
  obtain ⟨x, hx, hcls, -, hidx, hdet⟩ := s.stored_ras e h
  exact ⟨x, hx, hcls, hidx, hdet⟩

/-! ### A channel fails (R49, R357) -/

/-- A channel's state is a field of its Heap's register: setting it changes no other's. -/
theorem State.chanState_setChan (s : State) {c st : Nat} (hst : st < 4) :
    (s.setRf (.panChanState (c / 16)) (c % 16 * 2 + 1) (c % 16 * 2) st).chanState c = st ∧
    ∀ k, k < 384 → k ≠ c → (s.setRf (.panChanState (c / 16)) (c % 16 * 2 + 1) (c % 16 * 2) st).chanState k = s.chanState k := by
  refine ⟨State.rf_setRf_of_lt _ _ (by omega) (by rw [show c % 16 * 2 + 1 + 1 - c % 16 * 2 = 2 by omega]; exact hst),
    fun k hk hne => ?_⟩
  unfold State.chanState
  by_cases hh : k / 16 = c / 16
  · rw [hh]
    exact State.rf_setRf_other _ _ _ (by omega) (by omega)
  · refine State.rf_congr (State.reg_setRf_of_ne _ _ _ _ ?_) _ _
    simp only [Reg.key, panBase]
    omega

theorem State.chanReady_congr {s t : State} {c : Nat} (h : t.reg (.glbReadyChan (c / 64)) = s.reg (.glbReadyChan (c / 64))) :
    t.chanReady c = s.chanReady c := by
  unfold State.chanReady
  rw [h]

theorem State.chanReady_setChanReady (s : State) (c : Nat) (v : Bool) : (s.setChanReady c v).chanReady c = v := by
  have hv : b2n v < 2 := by cases v <;> decide
  unfold State.setChanReady
  by_cases h : s.chanReady c = v
  · rw [if_pos (beq_iff_eq.mpr h), h]
  · rw [if_neg (by rw [beq_iff_eq]; exact h)]
    unfold State.chanReady
    rw [State.reg_congr (regs_fire _ _ _)]
    refine bit_of_fld (State.rf_setRf_of_lt s (.glbReadyChan (c / 64)) (le_refl (c % 64)) ?_)
    rw [show c % 64 + 1 - c % 64 = 1 by omega]
    exact hv

theorem logsOnly_setChanReady (s : State) (c : Nat) (v : Bool) : LogsOnly s (s.setChanReady c v) := by
  unfold State.setChanReady
  split
  · exact .refl s
  · exact (logsOnly_setRf _ _ _ _ _).trans (logsOnly_fire _ _ _)

theorem State.reg_setChanReady (s : State) (c : Nat) (v : Bool) {r : Reg} (h : r.key ≠ Reg.key (.glbReadyChan (c / 64))) :
    (s.setChanReady c v).reg r = s.reg r := by
  unfold State.setChanReady
  split
  · rfl
  · rw [State.reg_congr (regs_fire _ _ _)]
    exact State.reg_setRf_of_ne _ _ _ _ h

/-- Its Guarded Heap masks the failure of a channel: no other channel of the Heap has failed (R49). -/
def State.chanMasked (s : State) (c : Nat) : Bool :=
  s.guarded (c / 16) && (s.heapChans (c / 16)).all (fun x => s.chanState x == 0)

/-- The state that a channel takes where it fails: Degraded or Failing. -/
def failedState (masked : Bool) : Nat := if masked then 2 else 1

theorem State.chanMasked_iff (s : State) (c : Nat) : s.chanMasked c = true ↔
    (s.guarded (c / 16) = true ∧ ∀ x ∈ s.heapChans (c / 16), s.chanState x = 0) := by
  unfold State.chanMasked
  rw [Bool.and_eq_true, List.all_eq_true]
  simp only [beq_iff_eq]

/-- The channel's state and its ready bit, as the failure leaves them. -/
def State.chanFailed (s : State) (c : Nat) : State :=
  if s.chanMasked c then s.setRf (.panChanState (c / 16)) (c % 16 * 2 + 1) (c % 16 * 2) 2
  else (s.setRf (.panChanState (c / 16)) (c % 16 * 2 + 1) (c % 16 * 2) 1).setChanReady c false

/-- The entry of a channel's failure. -/
def State.chanEntry (s : State) (c : Nat) : RasEntry :=
  { rasOf 0x04 1 (c / 32) 0x01 c (failedState (s.chanMasked c)) with part := s.physOwner c }

theorem State.failChannel_eq (s : State) (c : Nat) : s.failChannel c =
    (s.chanUsers c).foldl (fun t p => (t.post p (notice 0x10 (failedState (s.chanMasked c)) 0 0 c 0 (t.dieTime (c / 32)))).1)
      ((s.chanFailed c).ras_ (s.chanEntry c)) := by
  unfold State.failChannel State.chanFailed State.chanEntry failedState
  cases hm : s.chanMasked c
  all_goals
    unfold State.chanMasked at hm
    simp only [hm, Bool.false_eq_true, ↓reduceIte]

theorem State.chanFailed_spec (s : State) {c : Nat} (hc : c < 384) : LogsOnly s (s.chanFailed c) ∧
    (s.chanFailed c).chanState c = failedState (s.chanMasked c) ∧
    (s.chanFailed c).chanReady c = (s.chanMasked c && s.chanReady c) ∧
    ∀ k, k < 384 → k ≠ c → (s.chanFailed c).chanState k = s.chanState k := by
  have hpan : ∀ h, Reg.key (.panChanState h) ≠ Reg.key (.glbReadyChan (c / 64)) := by
    intro h
    simp only [Reg.key, panBase]
    omega
  unfold State.chanFailed failedState
  cases s.chanMasked c
  · obtain ⟨h1, h2⟩ := s.chanState_setChan (show 1 < 4 by norm_num)
    rw [if_neg Bool.false_ne_true, if_neg Bool.false_ne_true, Bool.false_and]
    have hl := logsOnly_setRf s (.panChanState (c / 16)) (c % 16 * 2 + 1) (c % 16 * 2) 1
    generalize s.setRf (.panChanState (c / 16)) (c % 16 * 2 + 1) (c % 16 * 2) 1 = u at h1 h2 hl
    have hst : ∀ k, (u.setChanReady c false).chanState k = u.chanState k := fun k =>
      State.rf_congr (u.reg_setChanReady c false (hpan _)) _ _
    exact ⟨hl.trans (logsOnly_setChanReady _ _ _), (hst c).trans h1, u.chanReady_setChanReady c false,
      fun k hk hne => (hst k).trans (h2 k hk hne)⟩
  · obtain ⟨h1, h2⟩ := s.chanState_setChan (show 2 < 4 by norm_num)
    rw [if_pos rfl, if_pos rfl, Bool.true_and]
    exact ⟨logsOnly_setRf _ _ _ _ _, h1, State.chanReady_congr (State.reg_setRf_of_ne _ _ _ _ (hpan _).symm), h2⟩

/-- A channel fails: its state, its ready bit, and the entry that is logged; it changes nothing but registers and logs. -/
theorem State.failChannel_spec (s : State) {c : Nat} (hc : c < 384) : LogsOnly s (s.failChannel c) ∧
    (s.failChannel c).chanState c = failedState (s.chanMasked c) ∧
    (s.failChannel c).chanReady c = (s.chanMasked c && s.chanReady c) ∧
    (∀ k, k < 384 → k ≠ c → (s.failChannel c).chanState k = s.chanState k) ∧
    (s.failChannel c).logged 4 c (failedState (s.chanMasked c)) := by
  obtain ⟨h1, h2, h3, h4⟩ := s.chanFailed_spec hc
  rw [State.failChannel_eq]
  generalize hv : s.chanFailed c = v at h1 h2 h3 h4
  have hlog := v.logged_ras (s.chanEntry c) (.inr (show (1 : Nat) ≠ 0 by norm_num))
  have hmap := mapRegs_ras v (s.chanEntry c)
  have hlo := logsOnly_ras v (s.chanEntry c)
  generalize v.ras_ (s.chanEntry c) = w at hlog hmap hlo
  have hposts : MapRegs w ((s.chanUsers c).foldl (fun t p =>
      (t.post p (notice 0x10 (failedState (s.chanMasked c)) 0 0 c 0 (t.dieTime (c / 32)))).1) w) :=
    MapRegs.foldl (P := fun p => p < 128) (fun u p hp => mapRegs_post u _ hp) _ (fun p hp => State.lt_of_mem_chanUsers hp) w
  have hplo : LogsOnly w ((s.chanUsers c).foldl (fun t p =>
      (t.post p (notice 0x10 (failedState (s.chanMasked c)) 0 0 c 0 (t.dieTime (c / 32)))).1) w) :=
    logsOnly_foldl (fun u p => logsOnly_post u p _) _ w
  have hpr := State.ras_foldl_post (s.chanUsers c) (fun _ t => notice 0x10 (failedState (s.chanMasked c)) 0 0 c 0 (t.dieTime (c / 32))) w
  generalize (s.chanUsers c).foldl _ w = x at hposts hplo hpr
  have hall := hmap.trans hposts
  refine ⟨(h1.trans hlo).trans hplo, (hall.chanState c).trans h2, ?_, fun k hk hne => (hall.chanState k).trans (h4 k hk hne),
    State.logged_congr hpr hlog⟩
  refine (State.chanReady_congr (hall (.glbReadyChan (c / 64)) (.inl ?_))).trans h3
  simp only [Reg.key]
  omega

/-! ### Sectors of channels (R349, R350, R355, R357) -/

/-- The recent bad rows of a channel but one. -/
def State.otherRows (s : State) (c sector : Nat) : List (Nat × Nat) :=
  s.badRows.filter (fun x => x.1 / 4096 = c ∧ x.1 ≠ c * 4096 + sector / 128 ∧ s.weirCtr.toNat < x.2 + 100000)

/-- The bad rows with one of a channel's put in front. -/
def State.rowNoted (s : State) (c sector : Nat) : State :=
  { s with badRows := (c * 4096 + sector / 128, s.weirCtr.toNat) ::
      s.badRows.filter (fun x => x.1 != c * 4096 + sector / 128 && decide (s.weirCtr.toNat < x.2 + 100000)) }

theorem State.rowsOf_rowNoted (s : State) {c sector : Nat} (hs : sector < 2 ^ 19) :
    ((s.rowNoted c sector).badRows.filter (fun x => x.1 / 4096 == c)).length = (s.otherRows c sector).length + 1 := by
  have hrow : (c * 4096 + sector / 128) / 4096 = c := by omega
  unfold State.rowNoted State.otherRows
  dsimp only
  rw [List.filter_cons_of_pos (p := fun x : Nat × Nat => x.1 / 4096 == c) (beq_iff_eq.mpr hrow), List.length_cons, List.filter_filter]
  congr 2
  refine List.filter_congr fun x _ => ?_
  rw [Bool.eq_iff_iff]
  simp only [Bool.and_eq_true, beq_iff_eq, bne_iff_ne, decide_eq_true_eq]

theorem State.badRow_eq (s : State) (c sector : Nat) : s.badRow c sector =
    if (s.rowNoted c sector).chanState c == 0 && ((s.rowNoted c sector).badRows.filter (fun x => x.1 / 4096 == c)).length ≥ 64 then
      (s.rowNoted c sector).failChannel c
    else s.rowNoted c sector := rfl

/-- What noting a bad row keeps, whether or not the channel then fails. -/
theorem State.badRow_keeps (s : State) {c : Nat} (sector : Nat) (hc : c < 384) :
    ((s.badRow c sector).heap = s.heap ∧ (s.badRow c sector).heapPoison = s.heapPoison ∧ (s.badRow c sector).coh = s.coh ∧
      (s.badRow c sector).repair = s.repair ∧ (s.badRow c sector).badSectors = s.badSectors) := by
  obtain ⟨hlogs, -⟩ := (s.rowNoted c sector).failChannel_spec hc
  have hnoted : (s.rowNoted c sector).heap = s.heap ∧ (s.rowNoted c sector).heapPoison = s.heapPoison ∧
      (s.rowNoted c sector).coh = s.coh ∧ (s.rowNoted c sector).repair = s.repair ∧
      (s.rowNoted c sector).badSectors = s.badSectors := ⟨rfl, rfl, rfl, rfl, rfl⟩
  rw [State.badRow_eq]
  split
  · rw [hlogs]
    exact hnoted
  · exact hnoted

/-- The 64th bad row within 1 ms fails its channel; fewer leave its state and the log as they are (R357). -/
theorem State.badRow_spec (s : State) {c sector : Nat} (hc : c < 384) (hs : sector < 2 ^ 19) :
    (s.chanState c = 0 → 63 ≤ (s.otherRows c sector).length → (s.badRow c sector).chanState c ≠ 0) ∧
    ((s.otherRows c sector).length < 63 → (s.badRow c sector).chanState c = s.chanState c ∧ (s.badRow c sector).ras = s.ras) := by
  have hlen := s.rowsOf_rowNoted (c := c) hs
  have hst : (s.rowNoted c sector).chanState c = s.chanState c := rfl
  have hras : (s.rowNoted c sector).ras = s.ras := rfl
  rw [State.badRow_eq]
  refine ⟨fun h0 h63 => ?_, fun h63 => ?_⟩
  · rw [if_pos (by rw [hst, h0, hlen, Bool.and_eq_true, decide_eq_true_eq]; exact ⟨rfl, by omega⟩)]
    obtain ⟨-, h, -⟩ := (s.rowNoted c sector).failChannel_spec hc
    rw [h, failedState]
    split <;> decide
  · rw [if_neg (by rw [hlen, Bool.and_eq_true, decide_eq_true_eq]; omega)]
    exact ⟨hst, hras⟩

/-- A read of a channel's sector, as it keeps the map, the Heaps' bytes and what the channels' rows are counted by. -/
structure ReadKeeps (s t : State) : Prop where
  regs : MapRegs s t
  heap : t.heap = s.heap
  weirCtr : t.weirCtr = s.weirCtr
  badRows : t.badRows = s.badRows

namespace ReadKeeps
variable {s t u : State}

theorem trans (h : ReadKeeps s t) (k : ReadKeeps t u) : ReadKeeps s u :=
  ⟨h.regs.trans k.regs, k.heap.trans h.heap, k.weirCtr.trans h.weirCtr, k.badRows.trans h.badRows⟩

theorem otherRows (h : ReadKeeps s t) (c sector : Nat) : t.otherRows c sector = s.otherRows c sector := by
  unfold State.otherRows
  rw [h.badRows, h.weirCtr]

theorem ras (s : State) (e : RasEntry) : ReadKeeps s (s.ras_ e) := by
  have h := logsOnly_ras s e
  refine ⟨mapRegs_ras s e, ?_, ?_, ?_⟩ <;> rw [h]

theorem post (s : State) {p : Nat} (ws : List Word) (hp : p < 128) : ReadKeeps s (s.post p ws).1 := by
  have h := logsOnly_post s p ws
  refine ⟨mapRegs_post s ws hp, ?_, ?_, ?_⟩ <;> rw [h]

theorem rakeWrite (s : State) (key : Option Nat) : ReadKeeps s (s.rakeWrite key) := by
  unfold State.rakeWrite
  cases key <;> exact ⟨.refl s, rfl, rfl, rfl⟩

theorem poisonChannel (s : State) (key : Nat) : ReadKeeps s (s.poisonChannel key) := by
  unfold State.poisonChannel
  split
  · split <;> exact ⟨.refl s, rfl, rfl, rfl⟩
  · exact ⟨.refl s, rfl, rfl, rfl⟩

theorem beginRepair (s : State) (key : Nat) : ReadKeeps s (s.beginRepair key) := ⟨.refl s, rfl, rfl, rfl⟩

theorem badSector (s : State) (c key : Nat) : ReadKeeps s (s.badSector c key) := by
  unfold State.badSector
  split
  · exact beginRepair s key
  · exact (poisonChannel s key).trans (post _ _ (State.chanOwner_lt _ _))

end ReadKeeps

/-- The logging of an uncorrectable sector, before the bad row is counted. -/
def State.uncorrected (s : State) (c sector : Nat) (patrol rebuilds : Bool) : State :=
  let d := c / 32
  let key := s.logicalKey c (sector * 32)
  let addr := key.getD 0
  let part := match key with | some k => s.chanOwner (k / 2 ^ 24) | none => s.physOwner c
  if s.guarded (c / 16) && rebuilds then (s.ras_ { rasOf 0x06 0 d 0x01 c 0 with addr := addr, part := part }).rakeWrite key
  else
    let t := if s.guarded (c / 16) then s.ras_ { rasOf 0x06 1 d 0x01 c 1 with addr := addr, part := part }
      else s.ras_ { rasOf 0x02 1 d 0x01 c (if patrol then 1 else 0) with addr := addr, part := part }
    match key with
    | some k => (t.badSector c k).rakeWrite key
    | none => t

theorem State.channelRead_uncorrectable (s : State) (c sector : Nat) (patrol rebuilds : Bool) :
    s.channelRead c sector patrol (.uncorrectable rebuilds) = (s.uncorrected c sector patrol rebuilds).badRow c sector := rfl

theorem ReadKeeps.uncorrected (s : State) (c sector : Nat) (patrol rebuilds : Bool) :
    ReadKeeps s (s.uncorrected c sector patrol rebuilds) := by
  unfold State.uncorrected
  dsimp only
  split
  · exact (ReadKeeps.ras s _).trans (.rakeWrite _ _)
  · have hlog : ∀ e f, ReadKeeps s (if s.guarded (c / 16) then s.ras_ e else s.ras_ f) := by
      intro e f
      split <;> exact .ras s _
    split
    · exact (hlog _ _).trans ((ReadKeeps.badSector _ _ _).trans (.rakeWrite _ _))
    · exact hlog _ _

/-- A read of a channel that is in use, short of the last sector of its die's pass (R349). -/
theorem execRakePatrol_channel {s : State} {ch : Fin 384} {sector : Nat} (patrol : Bool) (hst : s.chanState ch.val ≠ 3)
    (hup : s.dieUp (ch.val / 32) = true) (htrip : s.tripped = false) (hs : sector < 2 ^ 19 - 1) (found : SectorState) :
    exec (.rakePatrol (.channel ch sector) patrol found) s = .next (s.channelRead ch.val sector patrol found) := by
  have hend : ∀ t : State, t.passEnd ch.val sector = t := fun t => by
    unfold State.passEnd
    rw [if_neg]
    rw [Bool.and_eq_true, beq_iff_eq]
    exact fun h => absurd h.1 (by omega)
  show execRakePatrol (.channel ch sector) patrol found s = _
  unfold execRakePatrol
  rw [if_neg (by rw [htrip]; exact Bool.false_ne_true)]
  dsimp only
  rw [if_neg (by rw [beq_false_of_ne hst, hup]; exact Bool.false_ne_true), hend, ite_self]

/-- A corrected sector with its Rake's count. -/
def State.rakeCounted (s : State) (c : Nat) (key : Option Nat) : State :=
  { s with rakeCe := Map.put s.rakeCe c (Map.getD s.rakeCe c 0 + 1) }.rakeWrite key

theorem State.rakeCounted_spec (s : State) (c : Nat) (key : Option Nat) : (s.rakeCounted c key).regs = s.regs ∧
    (s.rakeCounted c key).heap = s.heap ∧ (s.rakeCounted c key).heapPoison = s.heapPoison ∧
    (s.rakeCounted c key).rakeCe = Map.put s.rakeCe c (Map.getD s.rakeCe c 0 + 1) := by
  unfold State.rakeCounted State.rakeWrite
  cases key <;> exact ⟨rfl, rfl, rfl, rfl⟩

theorem Reg.rakeKey_log {d : Nat} (hd : d < 16) : Reg.key (.rasRakeSts d) ∉ rasKeys := by
  unfold rasKeys
  simp only [Reg.key, List.mem_cons, List.not_mem_nil, or_false, not_or]
  omega

theorem State.rf_rake_ras (s : State) (e : RasEntry) {d : Nat} (hd : d < 16) (hi lo : Nat) :
    (s.ras_ e).rf (.rasRakeSts d) hi lo = s.rf (.rasRakeSts d) hi lo := State.rf_congr (s.reg_ras e (Reg.rakeKey_log hd)) _ _

theorem State.rakeCe_setRf (s : State) (r : Reg) (hi lo v : Nat) : (s.setRf r hi lo v).rakeCe = s.rakeCe := rfl

theorem State.countCorrected_spec (s : State) (d : Nat) (patrol : Bool) :
    (s.countCorrected d patrol).rf (.rasRakeSts d) 31 0 =
      (if patrol then min (s.rf (.rasRakeSts d) 31 0 + 1) (2 ^ 32 - 1) else s.rf (.rasRakeSts d) 31 0) ∧
    (s.countCorrected d patrol).rakeCe = s.rakeCe ∧ LogsOnly s (s.countCorrected d patrol) := by
  unfold State.countCorrected
  cases patrol
  · exact ⟨rfl, rfl, .refl s⟩
  · have hlt : s.rf (.rasRakeSts d) 31 0 < 2 ^ 32 := Nat.mod_lt _ (by norm_num)
    refine ⟨?_, State.rakeCe_setRf _ _ _ _ _, logsOnly_setRf _ _ _ _ _⟩
    rw [if_pos rfl, if_pos rfl, State.rf_setRf_of_lt _ _ (by norm_num) (by rw [satInc_eq_min]; omega), satInc_eq_min]

/-- The two entries that a corrected sector can log. -/
def correctedEntry (c addr : Nat) : RasEntry := { rasOf 0x01 0 (c / 32) 0x01 c 1 with addr := addr }
def overLimitEntry (c : Nat) : RasEntry := { rasOf 0x01 0 (c / 32) 0x01 c 1 with sev := 1, detail := 2 ^ 31 }

theorem State.corrected_cases (s : State) (c addr : Nat) (patrol : Bool) (key : Option Nat) :
    (patrol = false → s.corrected c addr patrol key = (s.countCorrected (c / 32) false).ras_ (correctedEntry c addr)) ∧
    (patrol = true →
      s.corrected c addr patrol key = ((s.countCorrected (c / 32) true).ras_ (correctedEntry c addr)).rakeCounted c key ∨
      s.corrected c addr patrol key =
        (((s.countCorrected (c / 32) true).ras_ (correctedEntry c addr)).rakeCounted c key).ras_ (overLimitEntry c)) := by
  refine ⟨fun h => ?_, fun h => ?_⟩
  · subst h
    rfl
  · subst h
    unfold State.corrected
    dsimp only
    rw [if_neg (by decide)]
    unfold State.rakeCounted overLimitEntry correctedEntry
    split
    · exact .inr rfl
    · exact .inl rfl

/-- A correctable sector loses nothing; a patrol counts it (R349, R355, Table 21-6). -/
theorem State.corrected_spec (s : State) {c : Nat} (addr : Nat) (patrol : Bool) (key : Option Nat) (hc : c < 384) :
    (s.corrected c addr patrol key).heap = s.heap ∧ (s.corrected c addr patrol key).heapPoison = s.heapPoison ∧
    (patrol = true → (s.corrected c addr patrol key).rf (.rasRakeSts (c / 32)) 31 0 =
        min (s.rf (.rasRakeSts (c / 32)) 31 0 + 1) (2 ^ 32 - 1) ∧
      Map.find? (s.corrected c addr patrol key).rakeCe c = some (Map.getD s.rakeCe c 0 + 1)) ∧
    (patrol = false → (s.corrected c addr patrol key).rf (.rasRakeSts (c / 32)) 31 0 = s.rf (.rasRakeSts (c / 32)) 31 0 ∧
      (s.corrected c addr patrol key).rakeCe = s.rakeCe) := by
  have hd : c / 32 < 16 := by omega
  obtain ⟨hno, hyes⟩ := s.corrected_cases c addr patrol key
  cases patrol
  · obtain ⟨hcnt, hce, hlo⟩ := s.countCorrected_spec (c / 32) false
    have hl := hlo.trans (logsOnly_ras (s.countCorrected (c / 32) false) (correctedEntry c addr))
    have hrf := State.rf_rake_ras (s.countCorrected (c / 32) false) (correctedEntry c addr) hd 31 0
    rw [hno rfl]
    generalize (s.countCorrected (c / 32) false).ras_ (correctedEntry c addr) = t at hl hrf
    exact ⟨by rw [hl], by rw [hl], fun h => absurd h Bool.false_ne_true, fun _ => ⟨hrf.trans hcnt, by rw [hl]⟩⟩
  · obtain ⟨hcnt, hce, hlo⟩ := s.countCorrected_spec (c / 32) true
    have hl := hlo.trans (logsOnly_ras (s.countCorrected (c / 32) true) (correctedEntry c addr))
    have hrf := State.rf_rake_ras (s.countCorrected (c / 32) true) (correctedEntry c addr) hd 31 0
    have hcases := hyes rfl
    generalize (s.countCorrected (c / 32) true).ras_ (correctedEntry c addr) = t at hl hrf hcases
    obtain ⟨hr1, hr2, hr3, hr4⟩ := t.rakeCounted_spec c key
    have hrf2 := State.rf_congr (State.reg_congr hr1 (.rasRakeSts (c / 32))) 31 0
    generalize t.rakeCounted c key = u at hcases hr2 hr3 hr4 hrf2
    have hu : u.heap = s.heap ∧ u.heapPoison = s.heapPoison ∧ u.rf (.rasRakeSts (c / 32)) 31 0 =
        min (s.rf (.rasRakeSts (c / 32)) 31 0 + 1) (2 ^ 32 - 1) ∧ Map.find? u.rakeCe c = some (Map.getD s.rakeCe c 0 + 1) := by
      refine ⟨by rw [hr2, hl], by rw [hr3, hl], (hrf2.trans hrf).trans hcnt, ?_⟩
      rw [hr4, Map.find?_put_same, hl]
    obtain ⟨hu1, hu2, hu3, hu4⟩ := hu
    rcases hcases with h | h
    · rw [h]
      exact ⟨hu1, hu2, fun _ => ⟨hu3, hu4⟩, fun h => absurd h.symm Bool.false_ne_true⟩
    · have hl2 := logsOnly_ras u (overLimitEntry c)
      have hrf3 := State.rf_rake_ras u (overLimitEntry c) hd 31 0
      rw [h]
      generalize u.ras_ (overLimitEntry c) = v at hl2 hrf3
      exact ⟨by rw [hl2, hu1], by rw [hl2, hu2], fun _ => ⟨hrf3.trans hu3, by rw [hl2, hu4]⟩, fun h => absurd h.symm Bool.false_ne_true⟩

theorem State.rakeWrite_spec (s : State) (key : Option Nat) : (s.rakeWrite key).ras = s.ras ∧ (s.rakeWrite key).coh = s.coh ∧
    (s.rakeWrite key).heapPoison = s.heapPoison ∧ (s.rakeWrite key).repair = s.repair ∧
    (s.rakeWrite key).badSectors = s.badSectors := by
  unfold State.rakeWrite
  cases key <;> exact ⟨rfl, rfl, rfl, rfl, rfl⟩

/-- A Guarded Heap's sector is rebuilt: nothing is poisoned (R355). -/
theorem State.uncorrected_rebuilt {s : State} {c : Nat} (sector : Nat) (patrol : Bool) (hg : s.guarded (c / 16) = true) :
    (s.uncorrected c sector patrol true).heapPoison = s.heapPoison ∧ (s.uncorrected c sector patrol true).coh = s.coh ∧
    (s.ras.length < 4096 → ∃ d, (s.uncorrected c sector patrol true).logged 6 c d) := by
  unfold State.uncorrected
  dsimp only
  rw [if_pos (by rw [hg]; rfl)]
  generalize he : ({ rasOf 0x06 0 (c / 32) 0x01 c 0 with
    addr := (s.logicalKey c (sector * 32)).getD 0
    part := _ } : RasEntry) = e
  have hcls : e.cls = 6 := by rw [← he]; rfl
  have hidx : e.index = c := by rw [← he]; rfl
  obtain ⟨h1, h2, h3, -⟩ := (s.ras_ e).rakeWrite_spec (s.logicalKey c (sector * 32))
  have hl := logsOnly_ras s e
  refine ⟨by rw [h3, hl], by rw [h2, hl], fun hroom => ⟨e.detail, State.logged_congr h1 ?_⟩⟩
  have := s.logged_ras e (.inl hroom)
  rwa [hcls, hidx] at this

/-- The bit of a sector in its slice's frame after the channel's copy was poisoned (R351). -/
def underPoisoned (bad : Bool) (i : Nat) (f : Frame) : Frame :=
  { f with under := if bad then f.under &&& ~~~(1#4 <<< i) else f.under ||| (1#4 <<< i) }

theorem getLsbD_underPoisoned (bad : Bool) {i : Nat} (hi : i < 4) (f : Frame) : (underPoisoned bad i f).under.getLsbD i = !bad := by
  unfold underPoisoned
  cases bad <;> simp [hi]

theorem State.sliceHolds_of_off {s : State} {key o : Nat} (h : s.sharedOff key = some o) :
    s.sliceHolds key = (Map.find? s.coh.dir (o / 128)).any (fun f => f.valid.getLsbD (o / 32 % 4)) := by
  unfold State.sliceHolds
  rw [h]

/-- The channel's copy of a sector is poisoned: where a slice holds the sector, its frame records it (R215, R351). -/
theorem State.poisonChannel_spec (s : State) (key : Nat) :
    ((s.poisonChannel key).ras = s.ras ∧ (s.poisonChannel key).repair = s.repair) ∧
    (s.sliceHolds key = false → key / 32 ∈ (s.poisonChannel key).heapPoison) ∧
    (s.sliceHolds key = true → (s.poisonChannel key).heapPoison = s.heapPoison ∧ ∀ o, s.sharedOff key = some o →
      ∃ f, Map.find? (s.poisonChannel key).coh.dir (o / 128) = some f ∧
        f.under.getLsbD (o / 32 % 4) = !s.heapPoison.contains (key / 32)) := by
  unfold State.poisonChannel
  cases ho : s.sharedOff key with
  | none =>
    have hno : s.sliceHolds key = false := by
      unfold State.sliceHolds
      rw [ho]
    refine ⟨⟨rfl, rfl⟩, fun _ => (NSet.mem_ins _ _ _).mpr (.inl rfl), fun h => ?_⟩
    rw [hno] at h
    exact absurd h Bool.false_ne_true
  | some o =>
    dsimp only
    cases hh : s.sliceHolds key with
    | false =>
      exact ⟨⟨rfl, rfl⟩, fun _ => (NSet.mem_ins _ _ _).mpr (.inl rfl), fun h => absurd h Bool.false_ne_true⟩
    | true =>
      have hframe : ∃ f, Map.find? s.coh.dir (o / 128) = some f := by
        rw [State.sliceHolds_of_off ho] at hh
        cases hf : Map.find? s.coh.dir (o / 128) with
        | none =>
          rw [hf] at hh
          exact absurd hh Bool.false_ne_true
        | some f => exact ⟨f, rfl⟩
      obtain ⟨f, hf⟩ := hframe
      rw [if_pos rfl]
      refine ⟨⟨rfl, rfl⟩, fun h => absurd h.symm Bool.false_ne_true, fun _ => ⟨rfl, fun o' ho' => ?_⟩⟩
      obtain rfl : o = o' := Option.some.inj ho'
      refine ⟨underPoisoned (s.heapPoison.contains (key / 32)) (o / 32 % 4) f, ?_, getLsbD_underPoisoned _ (Nat.mod_lt _ (by decide)) f⟩
      have hmod := s.frame?_modDir (o / 128) (underPoisoned (s.heapPoison.contains (key / 32)) (o / 32 % 4))
      unfold State.frame? at hmod
      rw [hf] at hmod
      exact hmod

/-- An uncorrectable sector that cannot be rebuilt goes into repair or is poisoned, read from a state before it was logged
(R355, R358). -/
theorem State.badSector_spec {s t : State} (c key : Nat) (hmap : MapRegs s t) (hcoh : t.coh = s.coh)
    (hpois : t.heapPoison = s.heapPoison) (hrep : t.repair = s.repair) :
    ((t.badSector c key).rakeWrite (some key)).ras = t.ras ∧
    (s.commonOf key = none → ((t.badSector c key).rakeWrite (some key)).repair = s.repair ∧
      (s.sliceHolds key = false → key / 32 ∈ ((t.badSector c key).rakeWrite (some key)).heapPoison) ∧
      (s.sliceHolds key = true → ((t.badSector c key).rakeWrite (some key)).heapPoison = s.heapPoison ∧
        ∀ o, s.sharedOff key = some o →
          ∃ f, Map.find? ((t.badSector c key).rakeWrite (some key)).coh.dir (o / 128) = some f ∧
            f.under.getLsbD (o / 32 % 4) = !s.heapPoison.contains (key / 32))) ∧
    (s.commonOf key ≠ none → key / 4096 ∈ ((t.badSector c key).rakeWrite (some key)).repair ∧
      key / 32 ∈ ((t.badSector c key).rakeWrite (some key)).badSectors ∧
      ((t.badSector c key).rakeWrite (some key)).heapPoison = s.heapPoison) := by
  obtain ⟨hw1, hw2, hw3, hw4, hw5⟩ := (t.badSector c key).rakeWrite_spec (some key)
  cases hcom : s.commonOf key with
  | some x =>
    have hbad : t.badSector c key = t.beginRepair key := by
      unfold State.badSector
      rw [hmap.commonOf, hcom]
    rw [hbad] at hw1 hw2 hw3 hw4 hw5 ⊢
    refine ⟨hw1, fun h => absurd h (Option.some_ne_none x), fun _ => ⟨?_, ?_, ?_⟩⟩
    · rw [hw4]
      exact (NSet.mem_ins _ _ _).mpr (.inl rfl)
    · rw [hw5]
      exact (NSet.mem_ins _ _ _).mpr (.inl rfl)
    · rw [hw3]
      exact hpois
  | none =>
    obtain ⟨⟨hp1, hp2⟩, hp3, hp4⟩ := t.poisonChannel_spec key
    obtain ⟨p, ws, hbad⟩ : ∃ p ws, t.badSector c key = ((t.poisonChannel key).post p ws).1 := by
      unfold State.badSector
      rw [hmap.commonOf, hcom]
      exact ⟨_, _, rfl⟩
    have hpr := State.ras_post (t.poisonChannel key) p ws
    have hpl := logsOnly_post (t.poisonChannel key) p ws
    rw [hbad] at hw1 hw2 hw3 hw4 hw5 ⊢
    generalize ((t.poisonChannel key).post p ws).1 = u at hpr hpl hw1 hw2 hw3 hw4 hw5 ⊢
    refine ⟨(hw1.trans hpr).trans hp1, fun _ => ⟨?_, fun h => ?_, fun h => ?_⟩,
      fun h => absurd rfl h⟩
    · rw [hw4, hpl]
      exact hp2.trans hrep
    · rw [hw3, hpl]
      exact hp3 (by rw [hmap.sliceHolds hcoh, h])
    · obtain ⟨hq1, hq2⟩ := hp4 (by rw [hmap.sliceHolds hcoh, h])
      refine ⟨?_, fun o ho => ?_⟩
      · rw [hw3, hpl]
        exact hq1.trans hpois
      · obtain ⟨f, hf1, hf2⟩ := hq2 o (by rw [hmap.sharedOff, ho])
        refine ⟨f, ?_, by rw [hf2, hpois]⟩
        rw [hw2, hpl]
        exact hf1

/-- An uncorrectable sector of a Heap without Guarded protection (R355, R358). -/
theorem State.uncorrected_unguarded {s : State} {c : Nat} (sector : Nat) (patrol r : Bool) (hg : s.guarded (c / 16) = false) :
    (∃ d, (s.uncorrected c sector patrol r).logged 2 c d) ∧
    (s.commonOf (c * 2 ^ 24 + sector * 32) = none → (s.uncorrected c sector patrol r).repair = s.repair ∧
      (s.sliceHolds (c * 2 ^ 24 + sector * 32) = false →
        (c * 2 ^ 24 + sector * 32) / 32 ∈ (s.uncorrected c sector patrol r).heapPoison) ∧
      (s.sliceHolds (c * 2 ^ 24 + sector * 32) = true → (s.uncorrected c sector patrol r).heapPoison = s.heapPoison ∧
        ∀ o, s.sharedOff (c * 2 ^ 24 + sector * 32) = some o →
          ∃ f, Map.find? (s.uncorrected c sector patrol r).coh.dir (o / 128) = some f ∧
            f.under.getLsbD (o / 32 % 4) = !s.heapPoison.contains ((c * 2 ^ 24 + sector * 32) / 32))) ∧
    (s.commonOf (c * 2 ^ 24 + sector * 32) ≠ none →
      (c * 2 ^ 24 + sector * 32) / 4096 ∈ (s.uncorrected c sector patrol r).repair ∧
      (c * 2 ^ 24 + sector * 32) / 32 ∈ (s.uncorrected c sector patrol r).badSectors ∧
      (s.uncorrected c sector patrol r).heapPoison = s.heapPoison) := by
  have hkey : s.logicalKey c (sector * 32) = some (c * 2 ^ 24 + sector * 32) := by
    unfold State.logicalKey
    rw [if_neg (by rw [hg]; exact Bool.false_ne_true)]
  obtain ⟨e, hcls, hidx, hsev, heq⟩ : ∃ e : RasEntry, e.cls = 2 ∧ e.index = c ∧ e.sev ≠ 0 ∧ s.uncorrected c sector patrol r =
      ((s.ras_ e).badSector c (c * 2 ^ 24 + sector * 32)).rakeWrite (some (c * 2 ^ 24 + sector * 32)) := by
    unfold State.uncorrected
    dsimp only
    rw [if_neg (by rw [hg]; exact Bool.false_ne_true), if_neg (by rw [hg]; exact Bool.false_ne_true)]
    generalize he : ({ rasOf 0x02 1 (c / 32) 0x01 c (if patrol then 1 else 0) with
      addr := (s.logicalKey c (sector * 32)).getD 0
      part := _ } : RasEntry) = e
    refine ⟨e, by rw [← he]; rfl, by rw [← he]; rfl, by rw [← he]; exact Nat.one_ne_zero, ?_⟩
    rw [hkey]
  rw [heq]
  have hlog := s.logged_ras e (.inr hsev)
  rw [hcls, hidx] at hlog
  have hl := logsOnly_ras s e
  obtain ⟨hras, hnone, hsome⟩ := State.badSector_spec c (c * 2 ^ 24 + sector * 32) (mapRegs_ras s e) (show (s.ras_ e).coh = s.coh by rw [hl])
    (show (s.ras_ e).heapPoison = s.heapPoison by rw [hl]) (show (s.ras_ e).repair = s.repair by rw [hl])
  exact ⟨⟨e.detail, State.logged_congr hras hlog⟩, hnone, hsome⟩

/-- A read of a channel's sector, whatever it finds (R349, R350, R355, R357, R358). -/
theorem channelRead_finds {s : State} {ch : Fin 384} {sector : Nat} (patrol : Bool) (hst : s.chanState ch.val ≠ 3)
    (hup : s.dieUp (ch.val / 32) = true) (htrip : s.tripped = false) (hs : sector < 2 ^ 19 - 1) :
    let c := ch.val
    let d := c / 32
    let read := fun f => exec (.rakePatrol (.channel ch sector) patrol f) s
    let others := s.badRows.filter (fun x => x.1 / 4096 = c ∧ x.1 ≠ c * 4096 + sector / 128 ∧ s.weirCtr.toNat < x.2 + 100000)
    read .good = .next s ∧
    (∃ t : State, read .correctable = .next t ∧ t.heap = s.heap ∧ t.heapPoison = s.heapPoison ∧
      (patrol = true → t.rf (.rasRakeSts d) 31 0 = min (s.rf (.rasRakeSts d) 31 0 + 1) (2 ^ 32 - 1) ∧
        Map.find? t.rakeCe c = some (Map.getD s.rakeCe c 0 + 1)) ∧
      (patrol = false → t.rf (.rasRakeSts d) 31 0 = s.rf (.rasRakeSts d) 31 0 ∧ t.rakeCe = s.rakeCe)) ∧
    (∀ r, ∃ t : State, read (.uncorrectable r) = .next t ∧ t.heap = s.heap ∧
      (s.chanState c = 0 → 63 ≤ others.length → t.chanState c ≠ 0) ∧ (others.length < 63 → t.chanState c = s.chanState c)) ∧
    (s.guarded (c / 16) = true → others.length < 63 → ∃ t : State, read (.uncorrectable true) = .next t ∧
      t.heapPoison = s.heapPoison ∧ t.coh = s.coh ∧ (s.ras.length < 4096 → ∃ e ∈ t.ras, e.cls = 6 ∧ e.index = c)) ∧
    (s.guarded (c / 16) = false → ∀ r,
      let key := c * 2 ^ 24 + sector * 32
      ∃ t : State, read (.uncorrectable r) = .next t ∧
        (others.length < 63 → ∃ e ∈ t.ras, e.cls = 2 ∧ e.index = c) ∧
        (s.commonOf key = none → t.repair = s.repair ∧
          (s.sliceHolds key = false → key / 32 ∈ t.heapPoison) ∧
          (s.sliceHolds key = true → t.heapPoison = s.heapPoison ∧ ∀ o, s.sharedOff key = some o →
            ∃ f, Map.find? t.coh.dir (o / 128) = some f ∧
              f.under.getLsbD (o / 32 % 4) = !s.heapPoison.contains (key / 32))) ∧
        (s.commonOf key ≠ none → key / 4096 ∈ t.repair ∧ key / 32 ∈ t.badSectors ∧ t.heapPoison = s.heapPoison)) := by
  intro c d read others
  have hc : c < 384 := ch.isLt
  have hs' : sector < 2 ^ 19 := by omega
  have hread : ∀ f, read f = .next (s.channelRead c sector patrol f) := execRakePatrol_channel patrol hst hup htrip hs
  have hothers : others = s.otherRows c sector := rfl
  have hbad : ∀ r, ∃ u : State, ReadKeeps s u ∧ u = s.uncorrected c sector patrol r ∧
      read (.uncorrectable r) = .next (u.badRow c sector) := fun r =>
    ⟨_, ReadKeeps.uncorrected s c sector patrol r, rfl, (hread _).trans (by rw [State.channelRead_uncorrectable])⟩
  rw [hothers]
  refine ⟨hread .good, ⟨_, hread .correctable, s.corrected_spec _ patrol _ hc⟩, fun r => ?_, fun hg h63 => ?_, fun hg r => ?_⟩
  · obtain ⟨u, hu, -, hr⟩ := hbad r
    obtain ⟨hheap, -⟩ := u.badRow_keeps sector hc
    obtain ⟨h1, h2⟩ := u.badRow_spec hc hs'
    rw [hu.otherRows, hu.regs.chanState] at h1 h2
    exact ⟨_, hr, hheap.trans hu.heap, h1, fun h => (h2 h).1⟩
  · obtain ⟨u, hu, hueq, hr⟩ := hbad true
    obtain ⟨h1, h2, h3⟩ := State.uncorrected_rebuilt sector patrol hg
    rw [← hueq] at h1 h2 h3
    obtain ⟨-, hpois, hcoh, -⟩ := u.badRow_keeps sector hc
    obtain ⟨-, hfew⟩ := u.badRow_spec hc hs'
    rw [hu.otherRows] at hfew
    refine ⟨_, hr, hpois.trans h1, hcoh.trans h2, fun hroom => ?_⟩
    obtain ⟨x, e, he, hcls, hidx, -⟩ := h3 hroom
    exact ⟨e, by rw [(hfew h63).2]; exact he, hcls, hidx⟩
  · intro key
    obtain ⟨u, hu, hueq, hr⟩ := hbad r
    obtain ⟨h1, h2, h3⟩ := State.uncorrected_unguarded sector patrol r hg
    rw [← hueq] at h1 h2 h3
    obtain ⟨-, hpois, hcoh, hrep, hsec⟩ := u.badRow_keeps sector hc
    obtain ⟨-, hfew⟩ := u.badRow_spec hc hs'
    rw [hu.otherRows] at hfew
    refine ⟨_, hr, fun h63 => ?_, ?_, ?_⟩
    · obtain ⟨x, e, he, hcls, hidx, -⟩ := h1
      exact ⟨e, by rw [(hfew h63).2]; exact he, hcls, hidx⟩
    · rw [hrep, hpois, hcoh]
      exact h2
    · rw [hrep, hpois, hsec]
      exact h3

/-! ### Repair of a common-region row (R358) -/

theorem lastByte_of_not_mem {ls : List Loc} {l : Loc} (h : l ∉ ls) (bs : List Byte) : lastByte ls bs l = none := by
  induction ls generalizing bs with
  | nil => rfl
  | cons x xs ih =>
    obtain ⟨hx, hxs⟩ := not_or.mp (fun hm => h (List.mem_cons.mpr hm))
    cases bs with
    | nil => exact lastByte_nil_right _ _
    | cons b bs => rw [lastByte_cons, ih hxs, if_neg (fun e => hx e.symm), Option.or_none]

/-- Locations that differ take a byte each. -/
theorem lastByte_of_nodup {ls : List Loc} (hn : ls.Nodup) {l : Loc} {i : Nat} (hi : ls[i]? = some l) (bs : List Byte) :
    lastByte ls bs l = bs[i]? := by
  induction ls generalizing i bs with
  | nil => cases hi
  | cons x xs ih =>
    obtain ⟨hx, hxs⟩ := List.nodup_cons.mp hn
    cases bs with
    | nil => exact lastByte_nil_right _ _
    | cons b bs =>
      rw [lastByte_cons]
      cases i with
      | zero =>
        obtain rfl : x = l := Option.some.inj hi
        rw [lastByte_of_not_mem hx, if_pos rfl]
        rfl
      | succ i =>
        have hmem : l ∈ xs := List.mem_of_getElem? hi
        rw [ih hxs hi, if_neg (show ¬ x = l from fun e => hx (e ▸ hmem)), Option.or_none]
        rfl

theorem State.length_of_locateN {s : State} {n dpa : Nat} {ls : List Loc} (h : s.locateN dpa n = some ls) : ls.length = n := by
  induction n generalizing dpa ls with
  | zero =>
    cases h
    rfl
  | succ n ih =>
    obtain ⟨l, -, hl⟩ := Option.bind_eq_some_iff.mp h
    obtain ⟨ls', hls, rfl⟩ := Option.map_eq_some_iff.mp hl
    rw [List.length_cons, ih hls]

theorem NSet.mem_foldl_ins {k : Nat} (l : List Nat) (m : NSet) (h : k ∈ l ∨ k ∈ m) : k ∈ l.foldl NSet.ins m := by
  induction l generalizing m with
  | nil => exact h.resolve_left List.not_mem_nil
  | cons x l ih =>
    refine ih _ ?_
    rcases h with h | h
    · rcases List.mem_cons.mp h with rfl | h
      · exact .inr ((NSet.mem_ins _ _ _).mpr (.inl rfl))
      · exact .inl h
    · exact .inr ((NSet.mem_ins _ _ _).mpr (.inr h))

/-- The bytes of a Heap from a key on. -/
def heapLocs (key n : Nat) : List Loc := (List.range n).map (fun i => Loc.heap (key + i))

theorem heapLocs_nodup (key n : Nat) : (heapLocs key n).Nodup :=
  List.nodup_range.map (fun i j h => by injection h with h; omega)

theorem heapLocs_getElem? (key : Nat) {n i : Nat} (h : i < n) : (heapLocs key n)[i]? = some (.heap (key + i)) := by
  unfold heapLocs
  rw [List.getElem?_map, List.getElem?_range h]
  rfl

/-- A row's bad sectors leave the set of those under repair. -/
def State.rowCleared (s : State) (row : Nat) : State := { s with badSectors := s.badSectors.filter (fun k => k / 128 != row) }

/-- A row takes the bytes of its replica; users and the log are told. -/
def State.rowRepaired (u : State) (row n off c key : Nat) (ls : List Loc) : State :=
  let t := (u.rowCleared row).writeLocs 0 (heapLocs key 4096) (u.readLocs 0 ls).1
  let t := (t.post 127 (notice 0x11 2 n off (key / 2 ^ 24) 0 (t.dieTime (c / 32)))).1
  t.ras_ { rasOf 0x0F 0 (c / 32) 0x01 c 2 with addr := key }

/-- A repaired row reads what its replica holds (R358). -/
theorem State.rowRepaired_spec (u : State) (row n off c key : Nat) {ls : List Loc} (hlen : ls.length = 4096)
    (hok : ∀ i, i < 4096 → u.failing (key + i) = false) : (u.rowRepaired row n off c key ls).repair = u.repair ∧
    ∀ i, i < 4096 → some ((u.rowRepaired row n off c key ls).heap.read (key + i)) = (u.readLocs 0 ls).1[i]? := by
  have hf : ∀ i, i < 4096 → (u.rowCleared row).failing (key + i) = false := fun i hi =>
    (State.failing_congr (s := u.rowCleared row) (t := u) rfl rfl _).trans (hok i hi)
  have hr : (u.rowCleared row).repair = u.repair := rfl
  have hbytes : (u.readLocs 0 ls).1.length = 4096 := (List.length_map _).trans hlen
  unfold State.rowRepaired
  dsimp only
  generalize (u.readLocs 0 ls).1 = bs at hbytes
  generalize u.rowCleared row = v at hf hr
  have hw := wrote_writeLocs v 0 (heapLocs key 4096) bs
  have hwo := writesOnly_writeLocs v 0 (heapLocs key 4096) bs
  generalize v.writeLocs 0 (heapLocs key 4096) bs = w at hw hwo
  have hl := (logsOnly_post w 127 (notice 0x11 2 n off (key / 2 ^ 24) 0 (w.dieTime (c / 32)))).trans
    (logsOnly_ras _ { rasOf 0x0F 0 (c / 32) 0x01 c 2 with addr := key })
  refine ⟨by rw [hl, hwo]; exact hr, fun i hi => ?_⟩
  rw [hl]
  have hread := hw.heap (key + i)
  rw [if_neg (by rw [hf i hi]; exact Bool.false_ne_true), lastByte_of_nodup (heapLocs_nodup key 4096) (heapLocs_getElem? key hi),
    List.getElem?_eq_getElem (by omega)] at hread
  rw [List.getElem?_eq_getElem (by omega)]
  exact congrArg some hread

/-- A row that cannot be repaired keeps its bytes, and its bad sectors are poisoned (R358). -/
theorem State.repairFailed_spec (s clean : State) (bad : NSet) (n off key c : Nat) :
    (s.repairFailed clean bad n off key c).repair = clean.repair ∧ (s.repairFailed clean bad n off key c).heap = clean.heap ∧
    ∀ k ∈ bad, k ∈ (s.repairFailed clean bad n off key c).heapPoison := by
  unfold State.repairFailed
  dsimp only
  have hp : ∀ k ∈ bad, k ∈ bad.foldl NSet.ins clean.heapPoison := fun k hk => NSet.mem_foldl_ins _ _ (.inl hk)
  generalize hv : ({ clean with heapPoison := bad.foldl NSet.ins clean.heapPoison } : State) = v
  have hv1 : v.repair = clean.repair := by rw [← hv]
  have hv2 : v.heap = clean.heap := by rw [← hv]
  have hv3 : v.heapPoison = bad.foldl NSet.ins clean.heapPoison := by rw [← hv]
  generalize notice 0x11 1 n off (key / 2 ^ 24) (v.sectorMap key) (v.dieTime (c / 32)) = ws
  have hl := (logsOnly_foldl (f := fun (t : State) p => (t.post p ws).1) (fun u p => logsOnly_post u p ws)
    (127 :: s.commonUsers n) v).trans (logsOnly_ras _ { rasOf 0x0F 1 (c / 32) 0x01 c 1 with addr := key })
  refine ⟨by rw [hl, hv1], by rw [hl, hv2], fun k hk => ?_⟩
  rw [hl, hv3]
  exact hp k hk

/-- The state in which a repair ends: the row is under repair no more. -/
def State.repairEnds (s : State) (row : Nat) : State := { s with repair := NSet.del s.repair row }

/-- COMMON_REPAIR_COMPLETE on a row under repair of a common range (R358). -/
theorem execCommonRepairComplete_of {s : State} {row n off : Nat} (ok : Bool) (hrow : row ∈ s.repair)
    (hcom : s.commonOf (row * 4096) = some (n, off)) (htrip : s.tripped = false) :
    (∀ ls, (s.repairEnds row).replicaKeys n off = some ls → ok = true → (s.repairEnds row).goodLocs ls = true →
      (s.repairEnds row).lost (row * 4096) = false → exec (.commonRepairComplete row ok) s =
        .next ((s.repairEnds row).rowRepaired row n off (s.physChan (row * 4096)) (row * 4096) ls)) ∧
    ((ok = false ∨ ∀ ls, ¬ ((s.repairEnds row).replicaKeys n off = some ls ∧ (s.repairEnds row).goodLocs ls = true ∧
        (s.repairEnds row).lost (row * 4096) = false)) → exec (.commonRepairComplete row ok) s =
      .next ((s.repairEnds row).repairFailed ((s.repairEnds row).rowCleared row) (s.badSectors.filter (fun k => k / 128 == row))
        n off (row * 4096) (s.physChan (row * 4096)))) := by
  have hexec : exec (.commonRepairComplete row ok) s = execCommonRepairComplete row ok s := rfl
  rw [hexec]
  unfold execCommonRepairComplete
  rw [State.clocked_of htrip, if_neg (by rw [Bool.not_eq_true, Bool.not_eq_false', List.contains_iff_mem]; exact hrow)]
  dsimp only
  rw [hcom]
  dsimp only [Option.getD_some]
  unfold State.rowRepaired State.rowCleared heapLocs State.repairEnds
  generalize hu : ({ s with repair := NSet.del s.repair row } : State) = u
  refine ⟨fun ls hls hok hgood hlost => ?_, fun hbad => ?_⟩
  · rw [hls]
    dsimp only
    rw [if_pos (by rw [hok, hgood, hlost]; rfl), ← hu]
  · cases hls : u.replicaKeys n off with
    | none =>
      dsimp only
      rw [← hu]
    | some ls =>
      dsimp only
      rw [if_neg, ← hu]
      intro hall
      rw [Bool.and_eq_true, Bool.and_eq_true, Bool.not_eq_true'] at hall
      obtain ⟨⟨hok, hgood⟩, hlost⟩ := hall
      rcases hbad with hbad | hbad
      · rw [hbad] at hok
        exact absurd hok Bool.false_ne_true
      · exact hbad ls ⟨hls, hgood, hlost⟩

/-! ### The other structures of Table 21-1 -/

theorem logsOnly_noteError (s : State) (d unit index : Nat) (patrol : Bool) (symbols detail : Nat) (b : Bool) :
    LogsOnly s (s.noteError d unit index patrol symbols detail (.uncorrectable b)) := logsOnly_ras s _

/-- An uncorrectable sector that a slice holds is poisoned in the slice (R351, R355). -/
theorem State.sharedError_spec {s : State} {line sec k : Nat} (patrol b : Bool) (hk : s.sharedKey (line * 128 + sec * 32) = some k) :
    k / 32 ∈ (s.sharedError line sec patrol (.uncorrectable b)).heapPoison ∧
    (s.sharedError line sec patrol (.uncorrectable b)).heap = s.heap := by
  unfold State.sharedError
  rw [hk]
  dsimp only
  have hl := logsOnly_noteError s (homeSlice line / 16) 0x02 (homeSlice line) patrol 1 (if patrol then 1 else 0) b
  generalize s.noteError (homeSlice line / 16) 0x02 (homeSlice line) patrol 1 (if patrol then 1 else 0) (.uncorrectable b) = t at hl
  have hheap : t.heap = s.heap := by rw [hl]
  split
  · rename_i hin
    exact ⟨List.contains_iff_mem.mp hin, hheap⟩
  · exact ⟨(NSet.mem_ins _ _ _).mpr (.inl rfl), hheap⟩

/-- Poisoning one byte's place in a pool poisons its sector. -/
theorem State.poisonLocs_pool (s : State) (core off : Nat) :
    poolKey core off / 32 ∈ (s.poisonLocs (poolLocs core off 1)).poolPoison ∧ (s.poisonLocs (poolLocs core off 1)).pool = s.pool := by
  refine ⟨NSet.mem_ins _ _ _ |>.mpr (.inl ?_), rfl⟩
  rw [Nat.add_zero]

/-- The lanes of a register that fail are poisoned, and no value changes. -/
theorem State.laneError_spec (s : State) (r : GroupRef) (g : Group) (residue : Bool) :
    Map.find? (s.laneError r g residue).groups (refKey r) = some g := by
  unfold State.laneError
  dsimp only
  rw [logsOnly_noteError]
  exact Map.find?_put_same _ _ _

theorem NSet.mem_foldl_ins_map (f : Nat → Nat) (l : List Nat) (m : NSet) (k : Nat) :
    k ∈ l.foldl (fun m i => NSet.ins m (f i)) m ↔ k ∈ m ∨ ∃ i ∈ l, k = f i := by
  induction l generalizing m with
  | nil => simp
  | cons x l ih =>
    rw [List.foldl_cons, ih, NSet.mem_ins]
    simp only [List.mem_cons, exists_eq_or_imp]
    tauto

/-- A queue stopped on error by the loss of its state word. -/
def Queue.wordLost (y : Queue) : Queue :=
  { y with
    last := 8
    st := if y.st == 1 then 5 else y.st }

theorem State.queueWordLost_eq (s : State) (q : Nat) : s.queueWordLost q =
    let t := ((s.noteError 15 0x08 0 false 0 0 (.uncorrectable false)).quePoison (s.queue q).owner (s.queue q).ctx).modQueue q
      Queue.wordLost
    if (s.queue q).st == 1 then t.queueInterrupt q (s.queue q) else t := rfl

theorem State.failed_modQueue (s : State) (q : Nat) (f : Queue → Queue) : (s.modQueue q f).failed = s.failed := rfl
theorem State.queues_modQueue (s : State) (q : Nat) (f : Queue → Queue) : (s.modQueue q f).queues = Map.modify s.queues q f := rfl

/-- A queue's state word is lost: the queue stops on error, and its context has consumed poison (R353, Table 21-2). -/
theorem State.queueWordLost_spec {s : State} {q : Nat} {x : Queue} (hq : Map.find? s.queues q = some x) :
    Map.find? (s.queueWordLost q).queues q = some x.wordLost ∧ x.ctx ∈ (s.queueWordLost q).failed := by
  have hx : s.queue q = x := by
    unfold State.queue Map.getD
    rw [hq]
    rfl
  have hl := logsOnly_noteError s 15 0x08 0 false 0 0 false
  rw [State.queueWordLost_eq, hx]
  dsimp only
  generalize s.noteError 15 0x08 0 false 0 0 (.uncorrectable false) = t at hl
  have hqueue := queOnly_quePoison t x.owner x.ctx
  have hfail : x.ctx ∈ (t.quePoison x.owner x.ctx).failed := State.mem_failed_failCtx _ _
  have hfind : Map.find? (t.quePoison x.owner x.ctx).queues q = some x := by
    rw [hqueue, hl]
    exact hq
  generalize t.quePoison x.owner x.ctx = u at hfail hfind
  have hmod : Map.find? (u.modQueue q Queue.wordLost).queues q = some x.wordLost := by
    rw [State.queues_modQueue]
    exact Map.find?_modify_same hfind _
  rw [← State.failed_modQueue u q Queue.wordLost] at hfail
  generalize u.modQueue q Queue.wordLost = v at hmod hfail
  have hint : LogsOnly v (v.queueInterrupt q x) := by
    unfold State.queueInterrupt
    split <;> exact logsOnly_fire _ _ _
  split
  · rw [hint]
    exact ⟨hmod, hfail⟩
  · exact ⟨hmod, hfail⟩

/-- The Rake or an access meets an uncorrectable word while the clocks run. -/
theorem execRakePatrol_of {s : State} (htrip : s.tripped = false) (x : ErrorSite) (patrol : Bool) (f : SectorState) {y : Res}
    (h : (if s.tripped && errorOnPan x then .next s else y) = execRakePatrol x patrol f s) :
    exec (.rakePatrol x patrol f) s = y := by
  show execRakePatrol x patrol f s = y
  rw [← h, if_neg (by rw [htrip]; exact Bool.false_ne_true)]

theorem otherStructures_poison {s : State} (b : Bool) (htrip : s.tripped = false) :
    let bad := fun x patrol => exec (.rakePatrol x patrol (.uncorrectable b)) s
    (∀ line (sec : Fin 4) patrol k f, Map.find? s.coh.dir line = some f → f.valid.getLsbD sec.val = true →
      s.sharedKey (line * 128 + sec.val * 32) = some k →
      ∃ t : State, bad (.sharedSector line sec) patrol = .next t ∧ k / 32 ∈ t.heapPoison ∧ t.heap = s.heap) ∧
    (∀ core word patrol, s.coreValid core.toNat = true → s.dieUp (coreDie core.toNat) = true → word * 8 < poolSize core.toNat →
      ∃ t : State, bad (.pool core word) patrol = .next t ∧ poolKey core.toNat (word * 8) / 32 ∈ t.poolPoison ∧ t.pool = s.pool) ∧
    (∀ r reg (lanes : Half) residue patrol g, Map.find? s.groups (refKey r) = some g →
      ∃ (t : State) (h : Group), bad (.lanes r reg lanes residue) patrol = .next t ∧ Map.find? t.groups (refKey r) = some h ∧
        (∀ k, k ∈ h.vpois ↔ k ∈ g.vpois ∨ ∃ i, inMask lanes i ∧ k = reg.toNat * 32 + i) ∧ h.v = g.v ∧ h.pc = g.pc) ∧
    (∀ r (reg : BitVec 6) residue patrol g, Map.find? s.groups (refKey r) = some g → reg ≠ 0 →
      ∃ (t : State) (h : Group), bad (.scalar r reg residue) patrol = .next t ∧ Map.find? t.groups (refKey r) = some h ∧
        (∀ k, k ∈ h.spois ↔ k ∈ g.spois ∨ k = reg.toNat) ∧ h.s = g.s ∧ h.pc = g.pc) ∧
    (∀ q patrol x, Map.find? s.queues q = some x →
      ∃ (t : State) (y : Queue), bad (.queueWord q) patrol = .next t ∧ Map.find? t.queues q = some y ∧ y.last = 8 ∧
        y.st = (if x.st = 1 then 5 else x.st) ∧ x.ctx ∈ t.failed) ∧
    (∀ sector patrol, ∃ t : State, bad (.hostSector sector) patrol = .next t ∧ sector ∈ t.hostPoison ∧ t.hostMem = s.hostMem) := by
  intro bad
  refine ⟨fun line sec patrol k f hf hv hk => ?_, fun core word patrol hcv hup hlt => ?_, fun r reg lanes residue patrol g hg => ?_,
    fun r reg residue patrol g hg hreg => ?_, fun q patrol x hq => ?_, fun sector patrol => ?_⟩
  · obtain ⟨h1, h2⟩ := State.sharedError_spec patrol b hk
    refine ⟨_, (execRakePatrol_of htrip _ patrol _ rfl).trans (if_neg ?_), h1, h2⟩
    unfold State.frame?
    rw [hf, Option.any_some, hv]
    exact Bool.false_ne_true
  · have hl := logsOnly_noteError s (coreDie core.toNat) 0x03 core.toNat false 0 0 b
    refine ⟨_, (execRakePatrol_of htrip _ patrol _ rfl).trans (if_neg ?_), ?_⟩
    · rw [hcv, hup, decide_eq_false (by omega)]
      exact Bool.false_ne_true
    · obtain ⟨h1, h2⟩ := (s.noteError (coreDie core.toNat) 0x03 core.toNat false 0 0 (.uncorrectable b)).poisonLocs_pool
        core.toNat (word * 8)
      exact ⟨h1, h2.trans (by rw [hl])⟩
  · refine ⟨_, _, ?_, s.laneError_spec r { g with vpois := (lanesOf lanes).foldl (fun m i => NSet.ins m (reg.toNat * 32 + i)) g.vpois }
      residue, fun k => ?_, rfl, rfl⟩
    · refine execRakePatrol_of htrip _ patrol _ ?_
      unfold execRakePatrol
      dsimp only
      rw [hg]
    · rw [NSet.mem_foldl_ins_map]
      simp only [mem_lanesOf]
  · refine ⟨_, _, ?_, s.laneError_spec r { g with spois := NSet.ins g.spois reg.toNat } residue, fun k => ?_, rfl, rfl⟩
    · refine execRakePatrol_of htrip _ patrol _ ?_
      unfold execRakePatrol
      dsimp only
      rw [hg]
      dsimp only
      rw [if_neg (show ¬ ((reg == 0) = true) by rw [beq_iff_eq]; exact hreg)]
    · rw [NSet.mem_ins, or_comm]
  · obtain ⟨h1, h2⟩ := State.queueWordLost_spec hq
    refine ⟨_, x.wordLost, ?_, h1, rfl, if_congr beq_iff_eq rfl rfl, h2⟩
    refine execRakePatrol_of htrip _ patrol _ ?_
    unfold execRakePatrol
    dsimp only
    rw [hq]
  · exact ⟨_, execRakePatrol_of htrip _ patrol _ rfl, (NSet.mem_ins _ _ _).mpr (.inl rfl), rfl⟩

/-- WHOLE_CHANNEL_FAILURE on a channel in service (R49, R357). -/
theorem execWholeChannelFailure_of {s : State} {ch : Fin 384} (hst : s.chanState ch.val = 0) (hup : s.dieUp (ch.val / 32) = true) :
    exec (.wholeChannelFailure ch) s = .next (s.failChannel ch.val) := by
  show execWholeChannelFailure ch s = _
  unfold execWholeChannelFailure
  dsimp only
  rw [if_neg (by rw [hst, hup]; decide)]

/-- Settles O39: each storage error, by the lemma about what it logs, poisons, repairs or fails. -/
theorem storageErrorsComplete : Obligations.storage_errors_complete := by
  unfold Obligations.storage_errors_complete
  refine ⟨fun s ch => ⟨fun hst hup => ?_, fun sector patrol hst hup htrip hs => channelRead_finds patrol hst hup htrip hs,
    fun row n off hrow hcom htrip => ?_⟩, fun s b htrip => otherStructures_poison b htrip⟩
  · obtain ⟨hl, h1, h2, h3, e, he, hcls, hidx, hdet⟩ := s.failChannel_spec ch.isLt
    have hexec := execWholeChannelFailure_of hst hup
    generalize s.failChannel ch.val = t at hl h1 h2 h3 he hexec
    have hheap : t.heap = s.heap := by rw [hl]
    refine ⟨fun hm => ?_, fun hm => ?_⟩
    · rw [s.chanMasked_iff ch.val |>.mpr hm] at h1 h2 hdet
      exact ⟨t, hexec, h1, h2, hheap, h3, e, he, hcls, hidx, hdet⟩
    · rw [Bool.eq_false_iff.mpr (fun h => hm ((s.chanMasked_iff ch.val).mp h))] at h1 h2 hdet
      exact ⟨t, hexec, h1, h2, hheap, h3, e, he, hcls, hidx, hdet⟩
  · have hdel : row ∉ (s.repairEnds row).repair := fun h => ((NSet.mem_del _ _ _).mp h).2 rfl
    refine ⟨fun ls hgood hok => ?_, fun ok hbad => ?_⟩
    · obtain ⟨hls, hgl, hlost⟩ := hgood
      obtain ⟨hexec, -⟩ := execCommonRepairComplete_of true hrow hcom htrip
      have hlen : ls.length = 4096 := by
        unfold State.replicaKeys at hls
        dsimp only at hls
        rcases ite_eq_iff.mp hls with ⟨-, h⟩ | ⟨-, h⟩
        · exact State.length_of_locateN h
        · cases h
      obtain ⟨hrep, hread⟩ := (s.repairEnds row).rowRepaired_spec row n off (s.physChan (row * 4096)) (row * 4096) hlen
        (fun i hi => (State.failing_congr (s := s.repairEnds row) (t := s) rfl rfl _).trans (hok i hi))
      exact ⟨_, hexec ls hls rfl hgl hlost, by rw [hrep]; exact hdel, hread⟩
    · obtain ⟨-, hexec⟩ := execCommonRepairComplete_of ok hrow hcom htrip
      obtain ⟨hrep, hheap, hpois⟩ := (s.repairEnds row).repairFailed_spec ((s.repairEnds row).rowCleared row)
        (s.badSectors.filter (fun k => k / 128 == row)) n off (row * 4096) (s.physChan (row * 4096))
      exact ⟨_, hexec hbad, by rw [hrep]; exact hdel, hheap,
        fun k hk hkr => hpois k (List.mem_filter.mpr ⟨hk, beq_iff_eq.mpr hkr⟩)⟩

end Sys2Proof.Machine

/-! Proofs: clock steps, the cap, the brake, the Ebb detectors and temperature (R331 to R341, R406, Table 20-3). -/

namespace Sys2Proof.Machine

/-! ### The registers and the data of a die's clock -/

theorem State.power_setRf (s : State) (r : Reg) (hi lo v : Nat) : (s.setRf r hi lo v).power = s.power := rfl
theorem State.power_setReg (s : State) (r : Reg) (v : Nat) : (s.setReg r v).power = s.power := rfl
theorem State.pins_setRf (s : State) (r : Reg) (hi lo v : Nat) : (s.setRf r hi lo v).pins = s.pins := rfl
theorem State.out_setRf (s : State) (r : Reg) (hi lo v : Nat) : (s.setRf r hi lo v).out = s.out := rfl

theorem Reg.dieKey (d : Nat) : Reg.key (.pwrDieSts d) = 0x3002000 + d * 0x20 := rfl

theorem Reg.dieKey_ne_sts (d : Nat) : Reg.key (.pwrDieSts d) ≠ Reg.key .pwrSts :=
  show 0x3002000 + d * 0x20 ≠ 0x3000008 by omega

theorem Reg.dieKey_ne {d e : Nat} (h : d ≠ e) : Reg.key (.pwrDieSts d) ≠ Reg.key (.pwrDieSts e) :=
  show 0x3002000 + d * 0x20 ≠ 0x3002000 + e * 0x20 by omega

theorem State.dieStep_congr {s t : State} {d : Nat} (h : t.reg (.pwrDieSts d) = s.reg (.pwrDieSts d)) : t.dieStep d = s.dieStep d :=
  State.rf_congr h _ _

/-- FIXED_ACTIVE is one bit of PWR_STS: the rest of the state is as before. -/
theorem State.noteFixed_spec (s : State) : RegsOnly s s.noteFixed ∧ (∀ q : Reg, q.key ≠ Reg.key .pwrSts → s.noteFixed.reg q = s.reg q) ∧
    (∀ hi lo, hi < 5 ∨ 5 < lo → s.noteFixed.rf .pwrSts hi lo = s.rf .pwrSts hi lo) ∧
    (s.noteFixed.rf .pwrSts 5 5 = 1 ↔ s.rf .pwrFixed 8 8 = 1 ∧ ∀ k, k < 12 → s.dieStep k = s.rf .pwrFixed 3 0) := by
  unfold State.noteFixed
  refine ⟨regsOnly_setRf _ _ _ _ _, fun q hq => State.reg_setRf_of_ne _ _ _ _ hq,
    fun hi lo h => State.rf_setRf_other _ _ _ (le_refl 5) h, ?_⟩
  have hb : ∀ b : Bool, b2n b < 2 ∧ (b2n b = 1 ↔ b = true) := by decide
  rw [State.rf_setRf_of_lt _ _ (le_refl 5) (hb _).1, (hb _).2, Bool.and_eq_true, beq_iff_eq, List.all_eq_true]
  simp only [List.mem_range, beq_iff_eq]

/-- A die's edges become asynchronous: registers of Pan dies alone change (R318). -/
theorem State.edgesAsync_spec (s : State) (d : Nat) : RegsOnly s (s.edgesAsync d) ∧
    ∀ q : Reg, q.key < 0x4000000 → (s.edgesAsync d).reg q = s.reg q := by
  have hset : ∀ (u : State) (x e : Nat), RegsOnly u (if u.edgeUp x e then u.setRf (.panEdgeSts x e) 3 2 2 else u) ∧
      ∀ q : Reg, q.key < 0x4000000 → (if u.edgeUp x e then u.setRf (.panEdgeSts x e) 3 2 2 else u).reg q = u.reg q := by
    intro u x e
    have hkey : 0x4000000 ≤ Reg.key (.panEdgeSts x e) := by
      simp only [Reg.key, panBase]
      omega
    split
    · exact ⟨regsOnly_setRf _ _ _ _ _, fun q hq => State.reg_setRf_of_ne _ _ _ _ (by omega)⟩
    · exact ⟨rfl, fun _ _ => rfl⟩
  unfold State.edgesAsync
  rw [List.foldl_cons, List.foldl_cons, List.foldl_nil]
  dsimp only
  obtain ⟨h1, k1⟩ := hset s d 0
  generalize (if s.edgeUp d 0 then s.setRf (.panEdgeSts d 0) 3 2 2 else s) = u1 at h1 k1
  obtain ⟨h2, k2⟩ := hset u1 (facing d 0).1 (facing d 0).2
  generalize (if u1.edgeUp (facing d 0).1 (facing d 0).2 then u1.setRf (.panEdgeSts (facing d 0).1 (facing d 0).2) 3 2 2 else u1) = u2
    at h2 k2
  obtain ⟨h3, k3⟩ := hset u2 d 1
  generalize (if u2.edgeUp d 1 then u2.setRf (.panEdgeSts d 1) 3 2 2 else u2) = u3 at h3 k3
  obtain ⟨h4, k4⟩ := hset u3 (facing d 1).1 (facing d 1).2
  exact ⟨((h1.trans h2).trans h3).trans h4, fun q hq => (k4 q hq).trans ((k3 q hq).trans ((k2 q hq).trans (k1 q hq)))⟩

/-! ### Steps (R331, R406) -/

/-- A die that has switched K: no change of it is under way. -/
def State.stepTaken (s : State) (d : Nat) : State :=
  { s with power := { s.power with stepChg := Map.drop s.power.stepChg d, moved := NSet.ins s.power.moved d } }

theorem State.stepTaken_spec (s : State) (d : Nat) : (s.stepTaken d).regs = s.regs ∧ (s.stepTaken d).out = s.out ∧
    (s.stepTaken d).pins = s.pins ∧ (s.stepTaken d).power.stepChg = Map.drop s.power.stepChg d ∧
    (s.stepTaken d).power.vcmd = s.power.vcmd ∧ (s.stepTaken d).power.held = s.power.held := ⟨rfl, rfl, rfl, rfl, rfl, rfl⟩

theorem State.takeStep_eq (s : State) (d step : Nat) : s.takeStep d step = ((s.setRf (.pwrDieSts d) 35 32 step).stepTaken d).noteFixed := rfl

/-- A die switches K to a step: its own step and change alone. -/
structure TakesStep (s t : State) (d step : Nat) : Prop where
  step : t.dieStep d = step
  others : ∀ e, e ≠ d → t.dieStep e = s.dieStep e
  stepChg : t.power.stepChg = Map.drop s.power.stepChg d
  vcmd : t.power.vcmd = s.power.vcmd
  held : t.power.held = s.power.held
  pins : t.pins = s.pins
  out : t.out = s.out

theorem State.takeStep_spec (s : State) (d : Nat) {step : Nat} (h : step < 16) : TakesStep s (s.takeStep d step) d step := by
  rw [State.takeStep_eq]
  have hd : (s.setRf (.pwrDieSts d) 35 32 step).dieStep d = step := State.rf_setRf_of_lt _ _ (by norm_num) h
  have ho : ∀ e, e ≠ d → (s.setRf (.pwrDieSts d) 35 32 step).dieStep e = s.dieStep e := fun e he =>
    State.dieStep_congr (State.reg_setRf_of_ne _ _ _ _ (Reg.dieKey_ne he))
  have hp : (s.setRf (.pwrDieSts d) 35 32 step).power = s.power := State.power_setRf _ _ _ _ _
  have hpin : (s.setRf (.pwrDieSts d) 35 32 step).pins = s.pins := State.pins_setRf _ _ _ _ _
  have hout : (s.setRf (.pwrDieSts d) 35 32 step).out = s.out := State.out_setRf _ _ _ _ _
  generalize s.setRf (.pwrDieSts d) 35 32 step = u at hd ho hp hpin hout
  obtain ⟨hr, h1, h2, h3, h4, h5⟩ := u.stepTaken_spec d
  have hst : ∀ e, (u.stepTaken d).dieStep e = u.dieStep e := fun e => State.dieStep_congr (State.reg_congr hr _)
  generalize u.stepTaken d = v at h1 h2 h3 h4 h5 hst
  obtain ⟨hn, hreg, -⟩ := v.noteFixed_spec
  have hst' : ∀ e, v.noteFixed.dieStep e = v.dieStep e := fun e => State.dieStep_congr (hreg _ (Reg.dieKey_ne_sts e))
  refine ⟨by rw [hst', hst, hd], fun e he => by rw [hst', hst, ho e he], ?_, ?_, ?_, ?_, ?_⟩
  · rw [hn, ← hp]
    exact h3
  · rw [hn, ← hp]
    exact h4
  · rw [hn, ← hp]
    exact h5
  · rw [hn, ← hpin]
    exact h2
  · rw [hn, ← hout]
    exact h1

/-- A regulator is sent a frame. -/
theorem State.sendFrame_spec (s : State) (d step : Nat) : (s.sendFrame d step).regs = s.regs ∧
    (s.sendFrame d step).power.stepChg = s.power.stepChg ∧ (s.sendFrame d step).power.held = s.power.held ∧
    (s.sendFrame d step).power.vcmd = Map.put s.power.vcmd d (step, 0) ∧ (s.sendFrame d step).pins = s.pins ∧
    (s.sendFrame d step).out = .vcmd d (0xA000 + (stepVolt step - 500)) :: s.out := ⟨rfl, rfl, rfl, rfl, rfl, rfl⟩

/-- STEP_CHANGE_COMPLETE (R331). -/
theorem execStepChangeComplete_of {s : State} {d : Fin 12} {n : Nat} (hc : Map.find? s.power.stepChg d.val = some n) (hn : n < 16)
    (hv : s.dieStep d.val < n → Map.find? s.power.vcmd d.val = none) :
    ∃ t : State, exec (.stepChangeComplete d) s = .next t ∧ t.dieStep d.val = n ∧ Map.find? t.power.stepChg d.val = none ∧
      (n < s.dieStep d.val → Map.find? t.power.vcmd d.val = some (n, 0) ∧
        t.out = .vcmd d.val (0xA000 + (stepVolt n - 500)) :: s.out) := by
  have hexec : exec (.stepChangeComplete d) s = if n < s.dieStep d.val then .next ((s.takeStep d.val n).sendFrame d.val n)
      else .next (s.takeStep d.val n) := by
    show execStepChangeComplete d s = _
    unfold execStepChangeComplete
    rw [hc]
    dsimp only
    rw [if_neg]
    rw [Bool.and_eq_true, decide_eq_true_eq]
    rintro ⟨hlt, hsome⟩
    rw [hv hlt] at hsome
    exact absurd hsome Bool.false_ne_true
  have ht := s.takeStep_spec d.val hn
  rw [hexec]
  generalize s.takeStep d.val n = u at ht
  have hnone : Map.find? u.power.stepChg d.val = none := by
    rw [ht.stepChg]
    exact Map.find?_drop_same _ _
  by_cases hlt : n < s.dieStep d.val
  · rw [if_pos hlt]
    obtain ⟨h1, h2, -, h4, -, h6⟩ := u.sendFrame_spec d.val n
    refine ⟨_, rfl, (State.dieStep_congr (State.reg_congr h1 _)).trans ht.step, by rw [h2]; exact hnone, fun _ => ⟨?_, ?_⟩⟩
    · rw [h4]
      exact Map.find?_put_same _ _ _
    · rw [h6, ht.out]
  · rw [if_neg hlt]
    exact ⟨_, rfl, ht.step, hnone, fun h => absurd h hlt⟩

/-- VCMD_ACK and VCMD_ACK_TIMEOUT (R406). -/
theorem vcmd_ends {s : State} {d : Fin 12} {x : Nat × Nat} (hx : Map.find? s.power.vcmd d.val = some x) :
    exec (.vcmdAck d) s = .next { s with power := { s.power with vcmd := Map.drop s.power.vcmd d.val } } ∧
    (x.2 < 2 → ∃ t : State, exec (.vcmdAckTimeout d) s = .next t ∧
      Map.find? t.power.vcmd d.val = some (x.1, x.2 + 1) ∧ t.out = .vcmd d.val (0xA000 + (stepVolt x.1 - 500)) :: s.out) ∧
    (2 ≤ x.2 → ∃ t : State, exec (.vcmdAckTimeout d) s = .next t ∧ Map.find? t.power.vcmd d.val = none ∧
      d.val ∈ t.power.held ∧ Map.find? t.power.stepChg d.val = none ∧ ∃ e ∈ t.ras, e.cls = 0x0B ∧ e.die = d.val) := by
  have hexec : exec (.vcmdAckTimeout d) s = execVcmdAckTimeout d s := rfl
  rw [hexec]
  unfold execVcmdAckTimeout
  rw [hx]
  dsimp only
  refine ⟨?_, fun h => ?_, fun h => ?_⟩
  · show execVcmdAck d s = _
    unfold execVcmdAck
    rw [if_pos (by rw [hx]; rfl)]
  · rw [if_pos h]
    exact ⟨_, rfl, Map.find?_put_same _ _ _, rfl⟩
  · rw [if_neg (by omega)]
    refine ⟨_, rfl, ?_⟩
    generalize hu : ({ s with power := { s.power with
      vcmd := Map.drop s.power.vcmd d.val, stepChg := Map.drop s.power.stepChg d.val,
      held := NSet.ins s.power.held d.val } } : State) = u
    have h1 : Map.find? u.power.vcmd d.val = none := by rw [← hu]; exact Map.find?_drop_same _ _
    have h2 : d.val ∈ u.power.held := by rw [← hu]; exact (NSet.mem_ins _ _ _).mpr (.inl rfl)
    have h3 : Map.find? u.power.stepChg d.val = none := by rw [← hu]; exact Map.find?_drop_same _ _
    have hl := logsOnly_ras u (rasOf 0x0B 1 d.val 0x09 d.val 3)
    obtain ⟨e, he, hcls, hdie, -⟩ := u.stored_ras (rasOf 0x0B 1 d.val 0x09 d.val 3) (.inr Nat.one_ne_zero)
    exact ⟨by rw [hl]; exact h1, by rw [hl]; exact h2, by rw [hl]; exact h3, e, he, hcls, hdie⟩

/-! ### The cap and the fixed step (R332, R337) -/

theorem execPwrCapWrite_spec (s : State) (val : BitVec 32) :
    let c := fld val.toNat 10 0
    let legal := 500 ≤ c ∧ c ≤ s.flash.order.capMax
    (legal → ∃ t : State, exec (.pwrCapWrite val) s = .next t ∧ t.rf .pwrCap 10 0 = c ∧ t.rf .pwrSts 1 1 = s.rf .pwrSts 1 1) ∧
    (¬ legal → ∃ t : State, exec (.pwrCapWrite val) s = .next t ∧ t.reg .pwrCap = s.reg .pwrCap ∧ t.rf .pwrSts 1 1 = 1) := by
  intro c legal
  have hexec : exec (.pwrCapWrite val) s = if 500 ≤ c && c ≤ s.flash.order.capMax then .next (s.setRf .pwrCap 10 0 c)
      else .next s.rangeErr := rfl
  have hc : c < 2 ^ (10 + 1 - 0) := Nat.mod_lt _ (by norm_num)
  have hcond : (500 ≤ c && c ≤ s.flash.order.capMax) = true ↔ legal := by
    rw [Bool.and_eq_true, decide_eq_true_eq, decide_eq_true_eq]
  rw [hexec]
  refine ⟨fun h => ?_, fun h => ?_⟩
  · rw [if_pos (hcond.mpr h)]
    exact ⟨_, rfl, State.rf_setRf_of_lt _ _ (by norm_num) hc, State.rf_congr (State.reg_setRf_of_ne _ _ _ _ (by decide)) _ _⟩
  · rw [if_neg (fun hx => h (hcond.mp hx))]
    exact ⟨_, rfl, State.reg_setRf_of_ne _ _ _ _ (by decide), State.rf_setRf_of_lt _ _ (le_refl 1) (by norm_num)⟩

/-- The fields of PWR_FIXED (Table 24-6). -/
def pwrFixedFields : List Field := [⟨8, 8, .rw, 0, .w⟩, ⟨3, 0, .rw, 0xc, .w⟩]

theorem Reg.fields_pwrFixed : Reg.fields .pwrFixed = pwrFixedFields := rfl

theorem bit_eq_fld (w n : Nat) : (bit w n = true) ↔ fld w n n = 1 := by
  unfold bit fld
  rw [beq_iff_eq, Nat.add_sub_cancel_left, pow_one]

theorem execPwrFixedWrite_spec (s : State) (val : BitVec 32) :
    let bad := bit val.toNat 8 = true ∧ 12 < fld val.toNat 3 0
    (bad → ∃ t : State, exec (.pwrFixedWrite val) s = .next t ∧ t.reg .pwrFixed = s.reg .pwrFixed ∧ t.rf .pwrSts 1 1 = 1) ∧
    (¬ bad → ∃ t : State, exec (.pwrFixedWrite val) s = .next t ∧ t.rf .pwrFixed 8 8 = fld val.toNat 8 8 ∧
      t.rf .pwrFixed 3 0 = fld val.toNat 3 0 ∧
      (t.rf .pwrSts 5 5 = 1 ↔ bit val.toNat 8 = true ∧ ∀ k, k < 12 → s.dieStep k = fld val.toNat 3 0)) := by
  intro bad
  have hexec : exec (.pwrFixedWrite val) s = if bit val.toNat 8 && fld val.toNat 3 0 > 12 then .next s.rangeErr
      else .next ((s.setReg .pwrFixed (Reg.written .pwrFixed 31 0 (s.reg .pwrFixed) val.toNat)).noteFixed) := rfl
  have hcond : (bit val.toNat 8 && fld val.toNat 3 0 > 12) = true ↔ bad := by
    rw [Bool.and_eq_true, decide_eq_true_eq]
  rw [hexec]
  refine ⟨fun h => ?_, fun h => ?_⟩
  · rw [if_pos (hcond.mpr h)]
    exact ⟨_, rfl, State.reg_setRf_of_ne _ _ _ _ (by decide), State.rf_setRf_of_lt _ _ (le_refl 1) (by norm_num)⟩
  · rw [if_neg (fun hx => h (hcond.mp hx))]
    have hw : ∀ f ∈ pwrFixedFields, (s.setReg .pwrFixed (Reg.written .pwrFixed 31 0 (s.reg .pwrFixed) val.toNat)).rf .pwrFixed f.hi f.lo =
        fld val.toNat f.hi f.lo := by
      intro f hf
      unfold State.rf Reg.written
      rw [State.reg_setReg_same, Reg.fields_pwrFixed]
      exact fld_foldl_write val.toNat pwrFixedFields (by decide) (by decide) _ hf
    have hstep : ∀ k, (s.setReg .pwrFixed (Reg.written .pwrFixed 31 0 (s.reg .pwrFixed) val.toNat)).dieStep k = s.dieStep k := fun k =>
      State.dieStep_congr (State.reg_setReg_of_ne _ _ (show 0x3002000 + k * 0x20 ≠ 0x3000018 by omega))
    generalize s.setReg .pwrFixed (Reg.written .pwrFixed 31 0 (s.reg .pwrFixed) val.toNat) = u at hw hstep
    have h8 : u.rf .pwrFixed 8 8 = fld val.toNat 8 8 := hw ⟨8, 8, .rw, 0, .w⟩ (by decide)
    have h3 : u.rf .pwrFixed 3 0 = fld val.toNat 3 0 := hw ⟨3, 0, .rw, 0xc, .w⟩ (by decide)
    obtain ⟨-, hreg, -, hfix⟩ := u.noteFixed_spec
    have hrf := fun hi lo => State.rf_congr (hreg .pwrFixed (by decide)) hi lo
    refine ⟨_, rfl, (hrf _ _).trans h8, (hrf _ _).trans h3, ?_⟩
    rw [hfix, h8, h3, bit_eq_fld]
    simp only [hstep]

/-! ### The brake (R334) -/

/-- What the brake leaves of a die that another one's braking does not touch. -/
structure BrakeKeeps (s t : State) (d : Nat) : Prop where
  step : t.dieStep d = s.dieStep d
  stepChg : Map.find? t.power.stepChg d = Map.find? s.power.stepChg d
  vcmd : Map.find? t.power.vcmd d = Map.find? s.power.vcmd d
  held : t.power.held = s.power.held
  pins : t.pins = s.pins

namespace BrakeKeeps
variable {s t u : State} {d : Nat}

theorem refl (s : State) (d : Nat) : BrakeKeeps s s d := ⟨rfl, rfl, rfl, rfl, rfl⟩
theorem trans (h : BrakeKeeps s t d) (k : BrakeKeeps t u d) : BrakeKeeps s u d :=
  ⟨k.step.trans h.step, k.stepChg.trans h.stepChg, k.vcmd.trans h.vcmd, k.held.trans h.held, k.pins.trans h.pins⟩

end BrakeKeeps

/-- A die of which nothing but the edges changes. -/
theorem State.edgesAsync_keeps (s : State) (d e : Nat) (he : e < 12) : (s.edgesAsync d).power = s.power ∧
    (s.edgesAsync d).pins = s.pins ∧ (s.edgesAsync d).dieStep e = s.dieStep e := by
  obtain ⟨h, hreg⟩ := s.edgesAsync_spec d
  have hk := Reg.dieKey e
  refine ⟨by rw [h], by rw [h], State.dieStep_congr (hreg _ (by omega))⟩

/-- The brake takes one die to step 0 unless it stands there or is held; no other die's clock changes. -/
theorem State.brakeDie_spec (s : State) {d : Nat} (hd : d < 12) :
    (∀ e, e < 12 → e ≠ d → BrakeKeeps s (s.brakeDie d) e) ∧ (s.brakeDie d).power.held = s.power.held ∧ (s.brakeDie d).pins = s.pins ∧
    (d ∈ s.power.held → BrakeKeeps s (s.brakeDie d) d) ∧
    (d ∉ s.power.held → (s.brakeDie d).dieStep d = 0 ∧ Map.find? (s.brakeDie d).power.stepChg d = none ∧
      (s.dieStep d ≠ 0 → Map.find? (s.brakeDie d).power.vcmd d = some (0, 0))) := by
  unfold State.brakeDie
  split
  · rename_i hcond
    rw [Bool.or_eq_true, Bool.and_eq_true, beq_iff_eq, Option.isNone_iff_eq_none, List.contains_iff_mem] at hcond
    refine ⟨fun e _ _ => .refl s e, rfl, rfl, fun _ => .refl s d, fun hn => ?_⟩
    obtain ⟨h0, hchg⟩ := hcond.resolve_right hn
    exact ⟨h0, hchg, fun h => absurd h0 h⟩
  · rename_i hcond
    have hno : d ∉ s.power.held := fun h => hcond (by rw [Bool.or_eq_true]; exact .inr (List.contains_iff_mem.mpr h))
    have hedge := s.edgesAsync_keeps d
    generalize s.edgesAsync d = u at hedge
    obtain ⟨hpow, hpins, -⟩ := hedge d hd
    have ht := u.takeStep_spec d (show 0 < 16 by norm_num)
    generalize u.takeStep d 0 = v at ht
    obtain ⟨hr, h1, h2, h3, h4, -⟩ := v.sendFrame_spec d 0
    generalize v.sendFrame d 0 = w at hr h1 h2 h3 h4
    have hheld : w.power.held = s.power.held := by rw [h2, ht.held, hpow]
    have hpin : w.pins = s.pins := by rw [h4, ht.pins, hpins]
    refine ⟨fun e he hne => ⟨?_, ?_, ?_, hheld, hpin⟩, hheld, hpin, fun h => absurd h hno, fun _ => ⟨?_, ?_, fun _ => ?_⟩⟩
    · rw [State.dieStep_congr (State.reg_congr hr _), ht.others e hne, (hedge e he).2.2]
    · rw [h1, ht.stepChg, hpow]
      exact Map.find?_drop_other _ hne
    · rw [h3, ht.vcmd, hpow]
      exact Map.find?_put_other _ _ hne
    · rw [State.dieStep_congr (State.reg_congr hr _), ht.step]
    · rw [h1, ht.stepChg]
      exact Map.find?_drop_same _ _
    · rw [h3]
      exact Map.find?_put_same _ _ _

/-- The brake on a list of dies. -/
theorem State.foldl_brakeDie {d : Nat} (hd : d < 12) (l : List Nat) (hl : ∀ e ∈ l, e < 12) (hn : l.Nodup) (s : State) :
    (l.foldl State.brakeDie s).pins = s.pins ∧ (d ∉ l ∨ d ∈ s.power.held → BrakeKeeps s (l.foldl State.brakeDie s) d) ∧
    (d ∈ l → d ∉ s.power.held → (l.foldl State.brakeDie s).dieStep d = 0 ∧
      Map.find? (l.foldl State.brakeDie s).power.stepChg d = none ∧
      (s.dieStep d ≠ 0 → Map.find? (l.foldl State.brakeDie s).power.vcmd d = some (0, 0))) := by
  induction l generalizing s with
  | nil => exact ⟨rfl, fun _ => .refl s d, fun h => absurd h List.not_mem_nil⟩
  | cons e l ih =>
    obtain ⟨hel, hnl⟩ := List.nodup_cons.mp hn
    obtain ⟨hother, hheld, hpins, hin, hout⟩ := s.brakeDie_spec (hl e List.mem_cons_self)
    obtain ⟨ih1, ih2, ih3⟩ := ih (fun x hx => hl x (List.mem_cons_of_mem _ hx)) hnl (s.brakeDie e)
    rw [hheld] at ih2 ih3
    rw [List.foldl_cons]
    refine ⟨ih1.trans hpins, fun h => ?_, fun hm hh => ?_⟩
    · by_cases hde : d = e
      · subst hde
        have hmem : d ∈ s.power.held := h.resolve_left (fun h => h List.mem_cons_self)
        exact (hin hmem).trans (ih2 (.inr hmem))
      · exact (hother d hd hde).trans (ih2 (h.imp_left (fun h hx => h (List.mem_cons_of_mem _ hx))))
    · by_cases hde : d = e
      · subst hde
        have hk := ih2 (.inl hel)
        obtain ⟨h1, h2, h3⟩ := hout hh
        exact ⟨hk.step.trans h1, hk.stepChg.trans h2, fun hs => hk.vcmd.trans (h3 hs)⟩
      · have hk := hother d hd hde
        obtain ⟨h1, h2, h3⟩ := ih3 ((List.mem_cons.mp hm).resolve_left hde) hh
        exact ⟨h1, h2, fun hs => h3 (by rw [hk.step]; exact hs)⟩

/-- PWR_BRAKE_N is low. -/
def State.braked (s : State) : State := { s with pins := { s.pins with brakeN := false } }

theorem execBrakeAssert_spec (s : State) (d : Fin 12) : ∃ t : State, exec .brakeAssert s = .next t ∧ t.pins.brakeN = false ∧
    (d.val ∉ s.power.held → t.dieStep d.val = 0 ∧ Map.find? t.power.stepChg d.val = none ∧
      (s.dieStep d.val ≠ 0 → Map.find? t.power.vcmd d.val = some (0, 0))) ∧
    (d.val ∈ s.power.held → t.dieStep d.val = s.dieStep d.val) := by
  have hexec : exec .brakeAssert s = .next ((List.range 12).foldl State.brakeDie s.braked) := rfl
  have hb : s.braked.pins.brakeN = false ∧ s.braked.power = s.power ∧ s.braked.dieStep d.val = s.dieStep d.val := ⟨rfl, rfl, rfl⟩
  rw [hexec]
  generalize s.braked = u at hb
  obtain ⟨hpin, hpow, hstep⟩ := hb
  obtain ⟨h1, h2, h3⟩ := State.foldl_brakeDie d.isLt (List.range 12) (fun e he => List.mem_range.mp he) List.nodup_range u
  rw [hpow] at h2 h3
  refine ⟨_, rfl, by rw [h1]; exact hpin, fun hn => ?_, fun hh => (h2 (.inr hh)).step.trans hstep⟩
  obtain ⟨k1, k2, k3⟩ := h3 (List.mem_range.mpr d.isLt) hn
  exact ⟨k1, k2, fun hs => k3 (by rw [hstep]; exact hs)⟩

/-! ### The Ebb detectors (R339, R340) -/

/-- The die's clock is stretched: noted with its time, and limited where the rate is passed. -/
def State.stretched (s : State) (d : Nat) (times : List Nat) (lim : Option Nat) : State :=
  { s with power := { s.power with
    stretch := NSet.ins s.power.stretch d
    ebbTimes := Map.put s.power.ebbTimes d times
    ebbLimit := match lim with
      | some x => Map.put s.power.ebbLimit d x
      | none => s.power.ebbLimit } }

theorem State.stretched_spec (s : State) (d : Nat) (times : List Nat) (lim : Option Nat) :
    (s.stretched d times lim).regs = s.regs ∧ (s.stretched d times lim).ras = s.ras ∧
    d ∈ (s.stretched d times lim).power.stretch ∧
    (∀ x, lim = some x → Map.find? (s.stretched d times lim).power.ebbLimit d = some x) ∧
    (lim = none → (s.stretched d times lim).power.ebbLimit = s.power.ebbLimit) := by
  refine ⟨rfl, rfl, (NSet.mem_ins _ _ _).mpr (.inl rfl), fun x hx => ?_, fun hx => ?_⟩
  · subst hx
    exact Map.find?_put_same _ _ _
  · subst hx
    rfl

theorem execEbbStretch_of {s : State} {d : Fin 12} (hno : d.val ∉ s.power.stretch) :
    let rate := s.rf .pwrEbbCtl 15 8
    let times := (Map.getD s.power.ebbTimes d.val []).filter (fun t => s.weirCtr.toNat < t + 100000)
    ∃ t : State, exec (.ebbStretch d) s = .next t ∧ d.val ∈ t.power.stretch ∧
      t.reg (.pwrEbbCnt d.val) = (s.reg (.pwrEbbCnt d.val) + 1) % 2 ^ 64 ∧
      (s.ras.length < 4096 → ∃ e ∈ t.ras, e.cls = 0x0B ∧ e.die = d.val) ∧
      (rate ≠ 0 → rate ≤ times.length → Map.find? t.power.ebbLimit d.val = some (s.dieStep d.val - 1)) ∧
      (rate = 0 ∨ times.length < rate → t.power.ebbLimit = s.power.ebbLimit) := by
  intro rate times
  have hexec : exec (.ebbStretch d) s = .next (((s.setReg (.pwrEbbCnt d.val) ((s.reg (.pwrEbbCnt d.val) + 1) % 2 ^ 64)).ras_
      (rasOf 0x0B 0 d.val 0x09 d.val 0)).stretched d.val (s.weirCtr.toNat :: times)
      (if rate != 0 && (s.weirCtr.toNat :: times).length > rate then some (s.dieStep d.val - 1) else none)) := by
    show execEbbStretch d s = _
    unfold execEbbStretch State.stretched
    rw [if_neg (by rw [List.contains_iff_mem]; exact hno)]
    dsimp only
    split <;> rfl
  have hcond : (rate != 0 && (s.weirCtr.toNat :: times).length > rate) = true ↔ rate ≠ 0 ∧ rate ≤ times.length := by
    rw [Bool.and_eq_true, bne_iff_ne, decide_eq_true_eq, List.length_cons]
    omega
  have hkey : Reg.key (.pwrEbbCnt d.val) ∉ rasKeys := by
    have hd := d.isLt
    unfold rasKeys
    simp only [Reg.key, List.mem_cons, List.not_mem_nil, or_false, not_or]
    omega
  have hreg : (s.setReg (.pwrEbbCnt d.val) ((s.reg (.pwrEbbCnt d.val) + 1) % 2 ^ 64)).reg (.pwrEbbCnt d.val) =
      (s.reg (.pwrEbbCnt d.val) + 1) % 2 ^ 64 := State.reg_setReg_same _ _ _
  have hpow : (s.setReg (.pwrEbbCnt d.val) ((s.reg (.pwrEbbCnt d.val) + 1) % 2 ^ 64)).power = s.power := State.power_setReg _ _ _
  have hras : (s.setReg (.pwrEbbCnt d.val) ((s.reg (.pwrEbbCnt d.val) + 1) % 2 ^ 64)).ras = s.ras := State.setReg_ras _ _ _
  rw [hexec]
  generalize s.setReg (.pwrEbbCnt d.val) ((s.reg (.pwrEbbCnt d.val) + 1) % 2 ^ 64) = u at hreg hpow hras
  have hstored := u.stored_ras (rasOf 0x0B 0 d.val 0x09 d.val 0)
  have hl := logsOnly_ras u (rasOf 0x0B 0 d.val 0x09 d.val 0)
  have hreg' := u.reg_ras (rasOf 0x0B 0 d.val 0x09 d.val 0) hkey
  generalize u.ras_ (rasOf 0x0B 0 d.val 0x09 d.val 0) = v at hstored hl hreg'
  have hvp : v.power = s.power := by rw [hl, hpow]
  obtain ⟨h1, h2, h3, h4, h5⟩ := v.stretched_spec d.val (s.weirCtr.toNat :: times)
    (if rate != 0 && (s.weirCtr.toNat :: times).length > rate then some (s.dieStep d.val - 1) else none)
  refine ⟨_, rfl, h3, ?_, fun hroom => ?_, fun h0 hle => h4 _ (if_pos (hcond.mpr ⟨h0, hle⟩)), fun h => ?_⟩
  · rw [State.reg_congr h1, hreg', hreg]
  · obtain ⟨e, he, hcls, hdie, -⟩ := hstored (.inl (by rw [hras]; exact hroom))
    exact ⟨e, by rw [h2]; exact he, hcls, hdie⟩
  · rw [h5 (if_neg (fun hx => by obtain ⟨k1, k2⟩ := hcond.mp hx; omega)), hvp]

/-! ### Temperature (R341, Table 20-3) -/

/-- The die is hot. -/
def State.heated (s : State) (d : Nat) : State := { s with power := { s.power with hot := NSet.ins s.power.hot d } }
/-- The die is cool: no ceiling holds it. -/
def State.cooled (s : State) (d : Nat) : State :=
  { s with power := { s.power with hot := NSet.del s.power.hot d, thermCeil := Map.drop s.power.thermCeil d } }
/-- The die is held at step 0 by its temperature. -/
def State.ceiled (s : State) (d : Nat) : State := { s with power := { s.power with thermCeil := Map.put s.power.thermCeil d 0 } }

theorem execThermalSample_eq (s : State) (d : Fin 12) (temp : Nat) : exec (.thermalSample d temp) s =
    let u := s.setRf (.pwrDieSts d.val) 47 40 (min temp 255)
    if temp < 98 then .next (u.cooled d.val)
    else if temp < 100 then .next u
    else if temp < 105 then .next (u.heated d.val)
    else if temp < 110 then .next (((u.heated d.val).ceiled d.val).ras_ (rasOf 0x0C 1 d.val 0x09 d.val 3))
    else .next ((((u.heated d.val).ceiled d.val).ras_ (rasOf 0x0C 3 d.val 0x09 d.val 4)).setRf .pwrSts 7 7 1).alert := rfl

/-- What a sample keeps of a state that only its power data differ from. -/
theorem State.heated_spec (s : State) (d : Nat) : (s.heated d).regs = s.regs ∧ (s.heated d).ras = s.ras ∧ (s.heated d).pins = s.pins ∧
    d ∈ (s.heated d).power.hot ∧ (s.heated d).power.thermCeil = s.power.thermCeil :=
  ⟨rfl, rfl, rfl, (NSet.mem_ins _ _ _).mpr (.inl rfl), rfl⟩

theorem State.cooled_spec (s : State) (d : Nat) : (s.cooled d).regs = s.regs ∧ (s.cooled d).ras = s.ras ∧ (s.cooled d).pins = s.pins ∧
    d ∉ (s.cooled d).power.hot ∧ Map.find? (s.cooled d).power.thermCeil d = none :=
  ⟨rfl, rfl, rfl, fun h => ((NSet.mem_del _ _ _).mp h).2 rfl, Map.find?_drop_same _ _⟩

theorem State.ceiled_spec (s : State) (d : Nat) : (s.ceiled d).regs = s.regs ∧ (s.ceiled d).pins = s.pins ∧
    (s.ceiled d).power.hot = s.power.hot ∧ Map.find? (s.ceiled d).power.thermCeil d = some 0 :=
  ⟨rfl, rfl, rfl, Map.find?_put_same _ _ _⟩

theorem Reg.pwrKeys_log {d : Nat} (hd : d < 12) : Reg.key (.pwrDieSts d) ∉ rasKeys ∧ Reg.key .pwrSts ∉ rasKeys := by
  refine ⟨?_, by decide⟩
  unfold rasKeys
  simp only [Reg.key, List.mem_cons, List.not_mem_nil, or_false, not_or]
  omega

theorem execThermalSample_spec (s : State) (d : Fin 12) (temp : Nat) : ∃ t : State, exec (.thermalSample d temp) s = .next t ∧
    t.rf (.pwrDieSts d.val) 47 40 = min temp 255 ∧ t.dieStep d.val = s.dieStep d.val ∧
    (temp < 98 → d.val ∉ t.power.hot ∧ Map.find? t.power.thermCeil d.val = none ∧ t.ras = s.ras) ∧
    (98 ≤ temp → temp < 100 → t.power = s.power ∧ t.ras = s.ras) ∧ (100 ≤ temp → d.val ∈ t.power.hot) ∧
    (100 ≤ temp → temp < 105 → t.power.thermCeil = s.power.thermCeil ∧ t.ras = s.ras) ∧
    (105 ≤ temp → Map.find? t.power.thermCeil d.val = some 0 ∧ ∃ e ∈ t.ras, e.cls = 0x0C ∧ e.die = d.val) ∧
    (temp < 110 → t.rf .pwrSts 7 7 = s.rf .pwrSts 7 7 ∧ t.pins = s.pins) ∧
    (110 ≤ temp → t.rf .pwrSts 7 7 = 1 ∧ t.pins.alertN = [false, false]) := by
  have hne := Reg.dieKey_ne_sts d.val
  obtain ⟨hlogd, hlogs⟩ := Reg.pwrKeys_log d.isLt
  rw [execThermalSample_eq]
  dsimp only
  have htemp : (s.setRf (.pwrDieSts d.val) 47 40 (min temp 255)).rf (.pwrDieSts d.val) 47 40 = min temp 255 :=
    State.rf_setRf_of_lt _ _ (by norm_num) (by norm_num)
  have hstep : (s.setRf (.pwrDieSts d.val) 47 40 (min temp 255)).rf (.pwrDieSts d.val) 35 32 = s.rf (.pwrDieSts d.val) 35 32 :=
    State.rf_setRf_other _ _ _ (by norm_num) (by norm_num)
  have hsts : (s.setRf (.pwrDieSts d.val) 47 40 (min temp 255)).rf .pwrSts 7 7 = s.rf .pwrSts 7 7 :=
    State.rf_congr (State.reg_setRf_of_ne _ _ _ _ hne.symm) _ _
  have hpow := State.power_setRf s (.pwrDieSts d.val) 47 40 (min temp 255)
  have hras : (s.setRf (.pwrDieSts d.val) 47 40 (min temp 255)).ras = s.ras := State.setRf_ras _ _ _ _ _
  have hpin := State.pins_setRf s (.pwrDieSts d.val) 47 40 (min temp 255)
  generalize s.setRf (.pwrDieSts d.val) 47 40 (min temp 255) = u at htemp hstep hsts hpow hras hpin
  obtain ⟨c1, c2, c3, c4, c5⟩ := u.cooled_spec d.val
  obtain ⟨g1, g2, g3, g4, g5⟩ := u.heated_spec d.val
  by_cases h98 : temp < 98
  · rw [if_pos h98]
    have hrf := fun r hi lo => State.rf_congr (State.reg_congr c1 r) hi lo
    refine ⟨_, rfl, (hrf _ _ _).trans htemp, (hrf _ _ _).trans hstep, fun _ => ⟨c4, c5, c2.trans hras⟩, by omega, by omega, by omega,
      by omega, fun _ => ⟨(hrf _ _ _).trans hsts, c3.trans hpin⟩, by omega⟩
  rw [if_neg h98]
  by_cases h100 : temp < 100
  · rw [if_pos h100]
    exact ⟨_, rfl, htemp, hstep, by omega, fun _ _ => ⟨hpow, hras⟩, by omega, by omega, by omega, fun _ => ⟨hsts, hpin⟩, by omega⟩
  rw [if_neg h100]
  have hrf := fun r hi lo => State.rf_congr (State.reg_congr g1 r) hi lo
  by_cases h105 : temp < 105
  · rw [if_pos h105]
    refine ⟨_, rfl, (hrf _ _ _).trans htemp, (hrf _ _ _).trans hstep, by omega, by omega, fun _ => g4, fun _ _ => ⟨?_, g2.trans hras⟩,
      by omega, fun _ => ⟨(hrf _ _ _).trans hsts, g3.trans hpin⟩, by omega⟩
    rw [g5, hpow]
  rw [if_neg h105]
  obtain ⟨k1, k2, k3, k4⟩ := (u.heated d.val).ceiled_spec d.val
  have hrf2 := fun r hi lo => (State.rf_congr (State.reg_congr k1 r) hi lo).trans (hrf r hi lo)
  have hpin2 : ((u.heated d.val).ceiled d.val).pins = s.pins := k2.trans (g3.trans hpin)
  have hhot : d.val ∈ ((u.heated d.val).ceiled d.val).power.hot := by
    rw [k3]
    exact g4
  generalize (u.heated d.val).ceiled d.val = v at k4 hrf2 hpin2 hhot
  have hlog : ∀ e : RasEntry, e.cls = 0x0C → e.die = d.val → e.sev ≠ 0 →
      (v.ras_ e).rf (.pwrDieSts d.val) 47 40 = min temp 255 ∧ (v.ras_ e).rf (.pwrDieSts d.val) 35 32 = s.rf (.pwrDieSts d.val) 35 32 ∧
      (v.ras_ e).rf .pwrSts 7 7 = s.rf .pwrSts 7 7 ∧ d.val ∈ (v.ras_ e).power.hot ∧
      Map.find? (v.ras_ e).power.thermCeil d.val = some 0 ∧ (v.ras_ e).pins = s.pins ∧
      ∃ x ∈ (v.ras_ e).ras, x.cls = 0x0C ∧ x.die = d.val := by
    intro e hcls hdie hsev
    have hl := logsOnly_ras v e
    obtain ⟨x, hx, xcls, xdie, -⟩ := v.stored_ras e (.inr hsev)
    have hd := fun hi lo => (State.rf_congr (v.reg_ras e hlogd) hi lo).trans (hrf2 _ hi lo)
    refine ⟨(hd _ _).trans htemp, (hd _ _).trans hstep, ((State.rf_congr (v.reg_ras e hlogs) _ _).trans (hrf2 _ _ _)).trans hsts, ?_, ?_, ?_,
      x, hx, xcls.trans hcls, xdie.trans hdie⟩
    · rw [hl]
      exact hhot
    · rw [hl]
      exact k4
    · rw [hl]
      exact hpin2
  by_cases h110 : temp < 110
  · rw [if_pos h110]
    obtain ⟨l1, l2, l3, l4, l5, l6, l7⟩ := hlog (rasOf 0x0C 1 d.val 0x09 d.val 3) rfl rfl Nat.one_ne_zero
    exact ⟨_, rfl, l1, l2, by omega, by omega, fun _ => l4, by omega, fun _ => ⟨l5, l7⟩, fun _ => ⟨l3, l6⟩, by omega⟩
  · rw [if_neg h110]
    obtain ⟨l1, l2, -, l4, l5, -, l7⟩ := hlog (rasOf 0x0C 3 d.val 0x09 d.val 4) rfl rfl (show (3 : Nat) ≠ 0 by norm_num)
    generalize v.ras_ (rasOf 0x0C 3 d.val 0x09 d.val 4) = w at l1 l2 l4 l5 l7
    have hone : (w.setRf .pwrSts 7 7 1).rf .pwrSts 7 7 = 1 := State.rf_setRf_of_lt _ _ (le_refl 7) (by norm_num)
    have hd := fun hi lo => State.rf_congr (State.reg_setRf_of_ne w 7 7 1 hne) hi lo
    have hp : (w.setRf .pwrSts 7 7 1).power = w.power := State.power_setRf _ _ _ _ _
    have hr : (w.setRf .pwrSts 7 7 1).ras = w.ras := State.setRf_ras _ _ _ _ _
    generalize w.setRf .pwrSts 7 7 1 = y at hone hd hp hr
    refine ⟨y.alert, rfl, (hd _ _).trans l1, (hd _ _).trans l2, by omega, by omega, fun _ => ?_, by omega, fun _ => ⟨?_, ?_⟩, by omega,
      fun _ => ⟨hone, rfl⟩⟩
    · rw [show y.alert.power = y.power from rfl, hp]
      exact l4
    · rw [show y.alert.power = y.power from rfl, hp]
      exact l5
    · rw [show y.alert.ras = y.ras from rfl, hr]
      exact l7

/-- With its clocks stopped, a die does nothing of itself (Table 20-3). -/
theorem State.clocked_of_tripped {s : State} (h : s.tripped = true) (act : Res) : s.clocked act = .next s := by
  unfold State.clocked
  rw [if_pos h]

/-- Settles O40: steps, caps, brake, Ebb detectors and temperature, each by the lemma about its event. -/
theorem supplyEventsComplete : Obligations.supply_events_complete := by
  unfold Obligations.supply_events_complete
  intro s d
  refine ⟨fun n hc hn hv => execStepChangeComplete_of hc hn hv, fun x hx => vcmd_ends hx, execPwrCapWrite_spec s,
    execPwrFixedWrite_spec s, execBrakeAssert_spec s d, rfl, fun hno => execEbbStretch_of hno, fun hin => ?_, fun x hx => ?_,
    execThermalSample_spec s d, fun htrip id line r c i hi => ?_⟩
  · show execEbbStretchEnd d s = _
    unfold execEbbStretchEnd
    rw [if_pos (List.contains_iff_mem.mpr hin)]
  · show execEbbLimitExpiry d s = _
    unfold execEbbLimitExpiry
    rw [if_pos (by rw [hx]; rfl)]
  · have hstop := State.clocked_of_tripped htrip
    simp only [List.mem_cons, List.not_mem_nil, or_false] at hi
    rcases hi with rfl | rfl | rfl | rfl | rfl | rfl | rfl | rfl | rfl | rfl | rfl
    all_goals exact hstop _

end Sys2Proof.Machine

/-! Proofs: the control interval and the balance group (R335, R336, R338, R342 to R344). -/

namespace Sys2Proof.Machine

/-! ### Lowering steps until the estimates fit (R335) -/

/-- A scan that takes the later of two candidates where it ranks at least as high ends with a highest one. -/
theorem foldl_pick_max (f : Nat → Nat) (pick : Nat → Nat → Nat)
    (hp : ∀ b d, (pick b d = b ∧ f d ≤ f b) ∨ (pick b d = d ∧ f b ≤ f d)) (l : List Nat) (b : Nat) :
    f b ≤ f (l.foldl pick b) ∧ ∀ d ∈ l, f d ≤ f (l.foldl pick b) := by
  induction l generalizing b with
  | nil => exact ⟨le_refl _, fun d h => absurd h List.not_mem_nil⟩
  | cons x l ih =>
    obtain ⟨h1, h2⟩ := ih (pick b x)
    have hx : f b ≤ f (pick b x) ∧ f x ≤ f (pick b x) := by
      rcases hp b x with ⟨he, hle⟩ | ⟨he, hle⟩ <;> rw [he]
      · exact ⟨le_refl _, hle⟩
      · exact ⟨hle, le_refl _⟩
    exact ⟨hx.1.trans h1, fun d hd => (List.mem_cons.mp hd).elim (fun h => h ▸ hx.2.trans h1) (h2 d)⟩

/-- The die that is lowered stands at a highest step. -/
theorem pickDie_max (steps ests : List Nat) {d : Nat} (hd : d < 12) : steps.getD d 0 ≤ steps.getD (pickDie steps ests) 0 := by
  refine (foldl_pick_max (fun d => steps.getD d 0) _ (fun b d => ?_) (List.range 12) 0).2 d (List.mem_range.mpr hd)
  dsimp only
  split
  · rename_i h
    simp only [Bool.or_eq_true, decide_eq_true_eq, Bool.and_eq_true, beq_iff_eq] at h
    exact .inr ⟨rfl, by omega⟩
  · rename_i h
    simp only [Bool.or_eq_true, decide_eq_true_eq, Bool.and_eq_true, beq_iff_eq] at h
    exact .inl ⟨rfl, by omega⟩

theorem sum_set_pred {l : List Nat} {d : Nat} (h : l.getD d 0 ≠ 0) : (l.set d (l.getD d 0 - 1)).sum < l.sum := by
  induction l generalizing d with
  | nil => exact absurd rfl h
  | cons x l ih =>
    cases d with
    | zero =>
      have hx : x ≠ 0 := h
      rw [List.set_cons_zero, List.sum_cons, List.sum_cons, List.getD_cons_zero]
      omega
    | succ d =>
      rw [List.set_cons_succ, List.sum_cons, List.sum_cons, List.getD_cons_succ]
      have := ih (d := d) h
      omega

theorem getD_set_pred_le (l : List Nat) (d e : Nat) : (l.set d (l.getD d 0 - 1)).getD e 0 ≤ l.getD e 0 := by
  rw [List.getD_eq_getElem?_getD, List.getElem?_set]
  split
  · rename_i h
    subst h
    split
    · exact Nat.sub_le _ _
    · exact Nat.zero_le _
  · exact le_of_eq (List.getD_eq_getElem?_getD ..).symm

/-- The sum of the dies' estimates at a list of steps. -/
def State.estSum (s : State) (phases steps : List Nat) : Nat :=
  ((List.range 12).map (fun d => s.est d (phases.getD d 0) (steps.getD d 0))).sum

/-- The steps of R335: none above the wanted one, and the estimates fit or every die is at step 0. -/
theorem State.fitSteps_spec (s : State) (phases : List Nat) (avail : Int) (n : Nat) (steps : List Nat) (hl : steps.length = 12) :
    (s.fitSteps phases avail n steps).length = 12 ∧ (∀ d, (s.fitSteps phases avail n steps).getD d 0 ≤ steps.getD d 0) ∧
    (steps.sum < n → (∀ d, d < 12 → (s.fitSteps phases avail n steps).getD d 0 = 0) ∨
      ((s.estSum phases (s.fitSteps phases avail n steps) : Nat) : Int) ≤ avail) := by
  induction n generalizing steps with
  | zero => exact ⟨hl, fun _ => le_refl _, fun h => absurd h (Nat.not_lt_zero _)⟩
  | succ n ih =>
    unfold State.fitSteps
    dsimp only
    split
    · rename_i hfit
      exact ⟨hl, fun _ => le_refl _, fun _ => .inr hfit⟩
    · generalize (List.range 12).map (fun d => s.est d (phases.getD d 0) (steps.getD d 0)) = ests
      split
      · rename_i hzero
        refine ⟨hl, fun _ => le_refl _, fun _ => .inl fun d hd => ?_⟩
        have := pickDie_max steps ests hd
        rw [beq_iff_eq] at hzero
        omega
      · rename_i hpos
        rw [beq_iff_eq] at hpos
        obtain ⟨h1, h2, h3⟩ := ih (steps.set (pickDie steps ests) (steps.getD (pickDie steps ests) 0 - 1))
          (by rw [List.length_set]; exact hl)
        refine ⟨h1, fun d => (h2 d).trans (getD_set_pred_le steps _ d), fun hsum => h3 ?_⟩
        have := sum_set_pred hpos
        omega

/-- Twelve wants of at most 15 each are lowered to an end in 192 steps. -/
theorem sum_le_of_getD_le {l : List Nat} (b : Nat) (h : ∀ d, d < l.length → l.getD d 0 ≤ b) : l.sum ≤ l.length * b := by
  induction l with
  | nil => exact Nat.zero_le _
  | cons x l ih =>
    have hx : x ≤ b := h 0 (Nat.zero_lt_succ _)
    have := ih (fun d hd => h (d + 1) (Nat.succ_lt_succ hd))
    rw [List.sum_cons, List.length_cons, Nat.succ_mul]
    omega

/-! ### Before the steps are chosen: learning, adoption, hot dies (R336, R341) -/

/-- What of the state a control interval reads after learning and adopting: all but the learned powers, the ceilings, the commit
and CFG_COMMIT_STS stands as before. -/
structure Adopts (s t : State) : Prop where
  regs : ∀ q : Reg, q.key ≠ Reg.key .cfgCommitSts → t.reg q = s.reg q
  pins : t.pins = s.pins
  boot : t.boot = s.boot
  flash : t.flash = s.flash
  stepChg : t.power.stepChg = s.power.stepChg
  vcmd : t.power.vcmd = s.power.vcmd
  held : t.power.held = s.power.held
  heldCap : t.power.heldCap = s.power.heldCap
  capN : t.power.capN = s.power.capN

namespace Adopts
variable {s t u : State}

theorem refl (s : State) : Adopts s s := ⟨fun _ _ => rfl, rfl, rfl, rfl, rfl, rfl, rfl, rfl, rfl⟩
theorem trans (h : Adopts s t) (k : Adopts t u) : Adopts s u :=
  ⟨fun q hq => (k.regs q hq).trans (h.regs q hq), k.pins.trans h.pins, k.boot.trans h.boot, k.flash.trans h.flash,
    k.stepChg.trans h.stepChg, k.vcmd.trans h.vcmd, k.held.trans h.held, k.heldCap.trans h.heldCap, k.capN.trans h.capN⟩
theorem foldl {α : Type} {f : State → α → State} (h : ∀ u x, Adopts u (f u x)) (xs : List α) (s : State) :
    Adopts s (xs.foldl f s) := by
  induction xs generalizing s with
  | nil => exact refl s
  | cons x xs ih => exact (h s x).trans (ih _)

theorem setCommitSts (s : State) (hi lo v : Nat) : Adopts s (s.setRf .cfgCommitSts hi lo v) :=
  ⟨fun _ hq => State.reg_setRf_of_ne _ _ _ _ hq, State.pins_setRf _ _ _ _ _, rfl, rfl, rfl, rfl, rfl, rfl, rfl⟩

end Adopts

theorem adopts_learnAll (s : State) (dies : List Nat) : Adopts s (s.learnAll dies) := by
  refine Adopts.foldl (fun u d => ?_) _ s
  dsimp only
  split
  · exact .refl u
  · exact ⟨fun _ _ => rfl, rfl, rfl, rfl, rfl, rfl, rfl, rfl, rfl⟩

theorem adopts_adoptVals (s : State) (u : Nat) (es : List (Word × Word)) : Adopts s (s.adoptVals u es) := by
  refine Adopts.foldl (fun t x => ?_) _ s
  split
  · split
    · exact ⟨fun _ _ => rfl, rfl, rfl, rfl, rfl, rfl, rfl, rfl, rfl⟩
    · exact .refl t
  · exact .refl t

theorem adopts_setCommit (s : State) (c : Option Commit) : Adopts s { s with commit := c } :=
  ⟨fun _ _ => rfl, rfl, rfl, rfl, rfl, rfl, rfl, rfl, rfl⟩

theorem adopts_commitNext (s : State) (c : Commit) (u final : Nat) : Adopts s (s.commitNext c u final) := by
  unfold State.commitNext
  dsimp only
  split
  · exact (adopts_setCommit s _).trans (.setCommitSts _ _ _ _)
  · exact (adopts_setCommit s _).trans (.setCommitSts _ _ _ _)

theorem adopts_adoptUnit (s : State) (u : Nat) : Adopts s (s.adoptUnit u) := by
  unfold State.adoptUnit
  split
  · exact .refl s
  · split
    · exact ((adopts_adoptVals s u _).trans (.setCommitSts _ _ _ _)).trans (adopts_commitNext _ _ _ _)
    · exact .refl s

theorem adopts_lowerHot (s : State) : Adopts s s.lowerHot := ⟨fun _ _ => rfl, rfl, rfl, rfl, rfl, rfl, rfl, rfl, rfl⟩

theorem Adopts.effCap {s t : State} (h : Adopts s t) : t.effCap = s.effCap := by
  unfold State.effCap
  rw [State.rf_congr (h.regs .pwrCap (by decide)), h.heldCap, State.rf_congr (h.regs .pwrSts (by decide)),
    State.rf_congr (h.regs .pwrBalSts (by decide)), h.flash]

/-! ### One die's share of a control interval (R335, R338) -/

/-- What a control interval does to one die. -/
def State.intervalDie (m : PowerSample) (wants phases steps : List Nat) (t : State) (d : Nat) : State :=
  let t := ((t.setRf (.pwrDieSts d) 63 48 (min (m.dies.getD d 0 / 100) 0xFFFF)).setRf (.pwrDieSts d) 31 28 (wants.getD d 0)).setRf
    (.pwrDieSts d) 27 22 (phases.getD d 0)
  if steps.getD d 0 == t.dieStep d || t.changing d || t.power.held.contains d || !t.dieUp d ||
      t.boot.mgmtDown || t.boot.mgmtHalted || t.tripped then t
  else t.beginStep d (steps.getD d 0)

/-- A die does not begin a change: it is at its step, is changing, held, not in service, or the controller does not act. -/
def State.staysAt (s : State) (d step : Nat) : Prop :=
  step = s.dieStep d ∨ s.changing d = true ∨ d ∈ s.power.held ∨ s.dieUp d = false ∨ s.boot.mgmtDown = true ∨
    s.boot.mgmtHalted = true ∨ s.rf .pwrSts 7 7 = 1

theorem State.staysAt_iff (s : State) (d step : Nat) : (step == s.dieStep d || s.changing d || s.power.held.contains d || !s.dieUp d ||
    s.boot.mgmtDown || s.boot.mgmtHalted || s.tripped) = true ↔ s.staysAt d step := by
  unfold State.staysAt State.tripped
  simp only [Bool.or_eq_true, beq_iff_eq, List.contains_iff_mem, Bool.not_eq_true', or_assoc]

/-- What a control interval keeps of a state apart from the dies whose turn it is. -/
structure IntervalKeeps (s t : State) : Prop where
  regs : ∀ q : Reg, q.key < 0x3002000 → t.reg q = s.reg q
  step : ∀ e, e < 12 → t.dieStep e = s.dieStep e
  held : t.power.held = s.power.held
  capN : t.power.capN = s.power.capN
  boot : t.boot = s.boot
  pins : t.pins = s.pins

theorem IntervalKeeps.trans {s t u : State} (h : IntervalKeeps s t) (k : IntervalKeeps t u) : IntervalKeeps s u :=
  ⟨fun q hq => (k.regs q hq).trans (h.regs q hq), fun e he => (k.step e he).trans (h.step e he), k.held.trans h.held,
    k.capN.trans h.capN, k.boot.trans h.boot, k.pins.trans h.pins⟩

theorem IntervalKeeps.refl (s : State) : IntervalKeeps s s := ⟨fun _ _ => rfl, fun _ _ => rfl, rfl, rfl, rfl, rfl⟩

/-- A die that is not touched: its status register and the changes of it that are under way. -/
structure DieKeeps (s t : State) (e : Nat) : Prop where
  sts : t.reg (.pwrDieSts e) = s.reg (.pwrDieSts e)
  stepChg : Map.find? t.power.stepChg e = Map.find? s.power.stepChg e
  vcmd : Map.find? t.power.vcmd e = Map.find? s.power.vcmd e

theorem DieKeeps.trans {s t u : State} {e : Nat} (h : DieKeeps s t e) (k : DieKeeps t u e) : DieKeeps s u e :=
  ⟨k.sts.trans h.sts, k.stepChg.trans h.stepChg, k.vcmd.trans h.vcmd⟩

theorem DieKeeps.refl (s : State) (e : Nat) : DieKeeps s s e := ⟨rfl, rfl, rfl⟩

theorem DieKeeps.changing {s t : State} {e : Nat} (h : DieKeeps s t e) : t.changing e = s.changing e := by
  unfold State.changing
  rw [h.stepChg, h.vcmd]

theorem IntervalKeeps.staysAt {s t : State} {d : Nat} (h : IntervalKeeps s t) (k : DieKeeps s t d) (hd : d < 12) (step : Nat) :
    t.staysAt d step ↔ s.staysAt d step := by
  have hup : t.dieUp d = s.dieUp d := by
    unfold State.dieUp State.readyFn
    rw [h.regs .glbReadyFn (by decide)]
  unfold State.staysAt
  rw [h.step d hd, k.changing, h.held, hup, h.boot, State.rf_congr (h.regs .pwrSts (by decide))]

/-- The change that a die has begun. -/
def State.stepBegun (s : State) (d step : Nat) : State :=
  { s with power := { s.power with stepChg := Map.put s.power.stepChg d step, moved := NSet.ins s.power.moved d } }

theorem State.beginStep_eq (s : State) (d step : Nat) : s.beginStep d step =
    if step > s.dieStep d then ((s.edgesAsync d).stepBegun d step).sendFrame d step else (s.edgesAsync d).stepBegun d step := rfl

theorem State.stepBegun_spec (s : State) (d step : Nat) : (s.stepBegun d step).regs = s.regs ∧ (s.stepBegun d step).pins = s.pins ∧
    (s.stepBegun d step).boot = s.boot ∧ (s.stepBegun d step).power.held = s.power.held ∧
    (s.stepBegun d step).power.capN = s.power.capN ∧ (s.stepBegun d step).power.vcmd = s.power.vcmd ∧
    (s.stepBegun d step).power.stepChg = Map.put s.power.stepChg d step := ⟨rfl, rfl, rfl, rfl, rfl, rfl, rfl⟩

theorem State.sendFrame_keeps (s : State) (d step : Nat) : (s.sendFrame d step).boot = s.boot ∧
    (s.sendFrame d step).power.capN = s.power.capN := ⟨rfl, rfl⟩

/-- A die begins a change to a step; its frame is sent where the change is upward (R331, R406). -/
theorem State.beginStep_spec (s : State) (d step : Nat) : IntervalKeeps s (s.beginStep d step) ∧
    (∀ e, e < 12 → (s.beginStep d step).reg (.pwrDieSts e) = s.reg (.pwrDieSts e)) ∧
    (∀ e, e < 12 → e ≠ d → DieKeeps s (s.beginStep d step) e) ∧
    Map.find? (s.beginStep d step).power.stepChg d = some step := by
  obtain ⟨hedge, hereg⟩ := s.edgesAsync_spec d
  have hkey : ∀ e, e < 12 → Reg.key (.pwrDieSts e) < 0x4000000 := fun e he => by
    rw [Reg.dieKey]
    omega
  rw [State.beginStep_eq]
  have hu : ∀ e, e < 12 → (s.edgesAsync d).reg (.pwrDieSts e) = s.reg (.pwrDieSts e) := fun e he => hereg _ (hkey e he)
  generalize s.edgesAsync d = u at hedge hereg hu
  have hp : u.power = s.power := by rw [hedge]
  have hb : u.boot = s.boot := by rw [hedge]
  have hpin : u.pins = s.pins := by rw [hedge]
  obtain ⟨h1, h2, h3, h4, h5, h6, h7⟩ := u.stepBegun_spec d step
  generalize u.stepBegun d step = v at h1 h2 h3 h4 h5 h6 h7
  have hreg : ∀ q : Reg, q.key < 0x4000000 → v.reg q = s.reg q := fun q hq => (State.reg_congr h1 q).trans (hereg q hq)
  have hchg : ∀ e, e ≠ d → Map.find? v.power.stepChg e = Map.find? s.power.stepChg e := fun e he => by
    rw [h7, hp]
    exact Map.find?_put_other _ _ he
  have hown : Map.find? v.power.stepChg d = some step := by
    rw [h7]
    exact Map.find?_put_same _ _ _
  by_cases hup : step > s.dieStep d
  · rw [if_pos hup]
    obtain ⟨k1, k2, k3, k4, k5, -⟩ := v.sendFrame_spec d step
    obtain ⟨k6, k7⟩ := v.sendFrame_keeps d step
    have hreg' : ∀ q : Reg, q.key < 0x4000000 → (v.sendFrame d step).reg q = s.reg q :=
      fun q hq => (State.reg_congr k1 q).trans (hreg q hq)
    refine ⟨⟨fun q hq => hreg' q (by omega), fun e he => State.dieStep_congr (hreg' _ (hkey e he)), by rw [k3, h4, hp],
      by rw [k7, h5, hp], by rw [k6, h3, hb], by rw [k5, h2, hpin]⟩, fun e he => hreg' _ (hkey e he),
      fun e he hne => ⟨hreg' _ (hkey e he), by rw [k2]; exact hchg e hne, ?_⟩, by rw [k2]; exact hown⟩
    rw [k4, h6, hp]
    exact Map.find?_put_other _ _ hne
  · rw [if_neg hup]
    exact ⟨⟨fun q hq => hreg q (by omega), fun e he => State.dieStep_congr (hreg _ (hkey e he)), by rw [h4, hp], by rw [h5, hp],
      by rw [h3, hb], by rw [h2, hpin]⟩, fun e he => hreg _ (hkey e he),
      fun e he hne => ⟨hreg _ (hkey e he), hchg e hne, by rw [h6, hp]⟩, hown⟩

/-- The three fields of a die's status that a control interval writes. -/
def State.dieNoted (s : State) (r : Reg) (power want phase : Nat) : State :=
  ((s.setRf r 63 48 power).setRf r 31 28 want).setRf r 27 22 phase

theorem State.dieNoted_spec (s : State) (r : Reg) {power : Nat} (want phase : Nat) (hp : power < 2 ^ 16) :
    RegsOnly s (s.dieNoted r power want phase) ∧ (∀ q : Reg, q.key ≠ r.key → (s.dieNoted r power want phase).reg q = s.reg q) ∧
    (s.dieNoted r power want phase).rf r 35 32 = s.rf r 35 32 ∧ (s.dieNoted r power want phase).rf r 63 48 = power ∧
    (s.dieNoted r power want phase).rf r 31 28 = want % 2 ^ 4 := by
  unfold State.dieNoted
  refine ⟨((regsOnly_setRf _ _ _ _ _).trans (regsOnly_setRf _ _ _ _ _)).trans (regsOnly_setRf _ _ _ _ _), fun q hq => ?_, ?_, ?_, ?_⟩
  · rw [State.reg_setRf_of_ne _ _ _ _ hq, State.reg_setRf_of_ne _ _ _ _ hq, State.reg_setRf_of_ne _ _ _ _ hq]
  · rw [State.rf_setRf_other _ _ _ (by norm_num) (by norm_num), State.rf_setRf_other _ _ _ (by norm_num) (by norm_num),
      State.rf_setRf_other _ _ _ (by norm_num) (by norm_num)]
  · rw [State.rf_setRf_other _ _ _ (by norm_num) (by norm_num), State.rf_setRf_other _ _ _ (by norm_num) (by norm_num),
      State.rf_setRf_of_lt _ _ (by norm_num) hp]
  · rw [State.rf_setRf_other _ _ _ (by norm_num) (by norm_num), State.rf_setRf_same _ _ _ (by norm_num)]

/-- One die's share: its status shows its power and its wanted step, and it begins a change unless it stays. -/
structure DieServed (s t : State) (power want step d : Nat) : Prop where
  power : t.rf (.pwrDieSts d) 63 48 = power
  want : t.rf (.pwrDieSts d) 31 28 = want % 2 ^ 4
  stays : s.staysAt d step → Map.find? t.power.stepChg d = Map.find? s.power.stepChg d
  begins : ¬ s.staysAt d step → Map.find? t.power.stepChg d = some step

theorem State.intervalDie_spec (m : PowerSample) (wants phases steps : List Nat) (t : State) {d : Nat} (hd : d < 12) :
    IntervalKeeps t (t.intervalDie m wants phases steps d) ∧
    (∀ e, e < 12 → e ≠ d → DieKeeps t (t.intervalDie m wants phases steps d) e) ∧
    DieServed t (t.intervalDie m wants phases steps d) (min (m.dies.getD d 0 / 100) 0xFFFF) (wants.getD d 0) (steps.getD d 0) d := by
  have hkey := Reg.dieKey d
  have hmin : min (m.dies.getD d 0 / 100) 0xFFFF < 2 ^ 16 := lt_of_le_of_lt (min_le_right _ _) (by norm_num)
  obtain ⟨n1, n2, n3, n4, n5⟩ := t.dieNoted_spec (.pwrDieSts d) (wants.getD d 0) (phases.getD d 0) hmin
  have heq : t.intervalDie m wants phases steps d =
      let u := t.dieNoted (.pwrDieSts d) (min (m.dies.getD d 0 / 100) 0xFFFF) (wants.getD d 0) (phases.getD d 0)
      if steps.getD d 0 == u.dieStep d || u.changing d || u.power.held.contains d || !u.dieUp d ||
        u.boot.mgmtDown || u.boot.mgmtHalted || u.tripped then u
      else u.beginStep d (steps.getD d 0) := rfl
  rw [heq]
  dsimp only
  generalize t.dieNoted (.pwrDieSts d) (min (m.dies.getD d 0 / 100) 0xFFFF) (wants.getD d 0) (phases.getD d 0) = u at n1 n2 n3 n4 n5
  have hpow : u.power = t.power := by rw [n1]
  have hk : IntervalKeeps t u := by
    refine ⟨fun q hq => n2 q (by omega), fun e he => ?_, by rw [hpow], by rw [hpow], by rw [n1], by rw [n1]⟩
    by_cases hed : e = d
    · subst hed
      exact n3
    · exact State.dieStep_congr (n2 _ (Reg.dieKey_ne hed))
  have ho : ∀ e, e ≠ d → DieKeeps t u e := fun e he => ⟨n2 _ (Reg.dieKey_ne he), by rw [hpow], by rw [hpow]⟩
  have hst : u.staysAt d (steps.getD d 0) ↔ t.staysAt d (steps.getD d 0) := by
    have hup : u.dieUp d = t.dieUp d := by
      unfold State.dieUp State.readyFn
      rw [hk.regs .glbReadyFn (by decide)]
    have hch : u.changing d = t.changing d := by
      unfold State.changing
      rw [hpow]
    unfold State.staysAt
    rw [hk.step d hd, hch, hk.held, hup, hk.boot, State.rf_congr (hk.regs .pwrSts (by decide))]
  by_cases hs : t.staysAt d (steps.getD d 0)
  · rw [if_pos ((u.staysAt_iff _ _).mpr (hst.mpr hs))]
    exact ⟨hk, fun e _ hne => ho e hne, n4, n5, fun _ => by rw [hpow], fun h => absurd hs h⟩
  · rw [if_neg (fun h => hs (hst.mp ((u.staysAt_iff _ _).mp h)))]
    obtain ⟨b1, b2, b3, b4⟩ := u.beginStep_spec d (steps.getD d 0)
    refine ⟨hk.trans b1, fun e he hne => (ho e hne).trans (b3 e he hne), (State.rf_congr (b2 d hd) _ _).trans n4,
      (State.rf_congr (b2 d hd) _ _).trans n5, fun h => absurd h hs, fun _ => b4⟩

/-- The dies of a list are served one after another. -/
theorem State.foldl_intervalDie (m : PowerSample) (wants phases steps : List Nat) (l : List Nat) (hl : ∀ e ∈ l, e < 12)
    (hn : l.Nodup) (t : State) : IntervalKeeps t (l.foldl (State.intervalDie m wants phases steps) t) ∧
    (∀ e, e < 12 → e ∉ l → DieKeeps t (l.foldl (State.intervalDie m wants phases steps) t) e) ∧
    ∀ d ∈ l, DieServed t (l.foldl (State.intervalDie m wants phases steps) t) (min (m.dies.getD d 0 / 100) 0xFFFF) (wants.getD d 0)
      (steps.getD d 0) d := by
  induction l generalizing t with
  | nil => exact ⟨.refl t, fun e _ _ => .refl t e, fun d h => absurd h List.not_mem_nil⟩
  | cons x l ih =>
    obtain ⟨hxl, hnl⟩ := List.nodup_cons.mp hn
    have hx := hl x List.mem_cons_self
    obtain ⟨k1, k2, k3⟩ := t.intervalDie_spec m wants phases steps hx
    obtain ⟨i1, i2, i3⟩ := ih (fun y hy => hl y (List.mem_cons_of_mem _ hy)) hnl (t.intervalDie m wants phases steps x)
    rw [List.foldl_cons]
    refine ⟨k1.trans i1, fun e he hne => (k2 e he (fun h => hne (h ▸ List.mem_cons_self))).trans
      (i2 e he (fun h => hne (List.mem_cons_of_mem _ h))), fun d hd => ?_⟩
    rcases List.mem_cons.mp hd with rfl | hdl
    · have hk := i2 d hx hxl
      exact ⟨(State.rf_congr hk.sts _ _).trans k3.power, (State.rf_congr hk.sts _ _).trans k3.want,
        fun h => hk.stepChg.trans (k3.stays h), fun h => hk.stepChg.trans (k3.begins h)⟩
    · have hd12 := hl d hd
      have hk := k2 d hd12 (fun h => hxl (h ▸ hdl))
      have hd' := i3 d hdl
      have hst := k1.staysAt hk hd12 (steps.getD d 0)
      exact ⟨hd'.power, hd'.want, fun h => (hd'.stays (hst.mpr h)).trans hk.stepChg, fun h => hd'.begins (fun hx => h (hst.mp hx))⟩

/-! ### The control interval -/

/-- The interval's cycles are counted anew. -/
def State.quieted (s : State) : State := { s with power := { s.power with cyc := [], moved := s.power.stepChg.map Prod.fst } }

theorem State.quieted_spec (s : State) : IntervalKeeps s s.quieted ∧ ∀ e, DieKeeps s s.quieted e :=
  ⟨⟨fun _ _ => rfl, fun _ _ => rfl, rfl, rfl, rfl, rfl⟩, fun _ => ⟨rfl, rfl, rfl⟩⟩

/-- Cap stretching is on or off, with its n of R334. -/
def State.capGated (s t : State) (gate : Bool) : State :=
  { t with power := { s.power with
    capStretch := gate
    capN := if gate then nextN s.power.capN else 0 } }

theorem State.capGated_spec (s t : State) (gate : Bool) : (s.capGated t gate).regs = t.regs ∧
    (s.capGated t gate).power.capStretch = gate ∧ (s.capGated t gate).power.capN = (if gate then nextN s.power.capN else 0) ∧
    (s.capGated t gate).power.stepChg = s.power.stepChg := ⟨rfl, rfl, rfl, rfl⟩

/-- The end of a control interval, once the dies are served: the cap, the energy counter, FIXED_ACTIVE and the lost step. -/
def State.intervalEnd (s : State) (gate lost : Bool) (energy : Nat) : State :=
  let t := s.capGated (s.setRf .pwrSts 6 6 (b2n gate)) gate
  let t := (t.setReg .pwrEnergy ((t.reg .pwrEnergy + energy) % 2 ^ 64)).noteFixed
  if lost then (t.setRf .pwrSts 4 4 1).ras_ (rasOf 0x12 0 15 0x08 0 3) else t

theorem State.intervalEnd_spec (s : State) (gate lost : Bool) (energy : Nat) :
    (s.intervalEnd gate lost energy).power.stepChg = s.power.stepChg ∧ (s.intervalEnd gate lost energy).power.capStretch = gate ∧
    (s.intervalEnd gate lost energy).power.capN = (if gate then nextN s.power.capN else 0) ∧
    (s.intervalEnd gate lost energy).reg .pwrEnergy = (s.reg .pwrEnergy + energy) % 2 ^ 64 ∧
    ∀ d, d < 12 → (s.intervalEnd gate lost energy).reg (.pwrDieSts d) = s.reg (.pwrDieSts d) := by
  unfold State.intervalEnd
  dsimp only
  have h1 : ∀ q : Reg, q.key ≠ Reg.key .pwrSts → (s.setRf .pwrSts 6 6 (b2n gate)).reg q = s.reg q :=
    fun q hq => State.reg_setRf_of_ne _ _ _ _ hq
  generalize s.setRf .pwrSts 6 6 (b2n gate) = u at h1
  obtain ⟨g1, g2, g3, g4⟩ := s.capGated_spec u gate
  generalize s.capGated u gate = v at g1 g2 g3 g4
  have hv : ∀ q : Reg, q.key ≠ Reg.key .pwrSts → v.reg q = s.reg q := fun q hq => (State.reg_congr g1 q).trans (h1 q hq)
  have hen : (v.setReg .pwrEnergy ((v.reg .pwrEnergy + energy) % 2 ^ 64)).reg .pwrEnergy = (s.reg .pwrEnergy + energy) % 2 ^ 64 := by
    rw [State.reg_setReg_same, hv .pwrEnergy (by decide)]
  have hdie : ∀ d, (v.setReg .pwrEnergy ((v.reg .pwrEnergy + energy) % 2 ^ 64)).reg (.pwrDieSts d) = s.reg (.pwrDieSts d) := fun d =>
    (State.reg_setReg_of_ne (r := .pwrEnergy) (r' := .pwrDieSts d) _ _ (show 0x3002000 + d * 0x20 ≠ 0x3000010 by omega)).trans (hv _ (Reg.dieKey_ne_sts d))
  have hpv : (v.setReg .pwrEnergy ((v.reg .pwrEnergy + energy) % 2 ^ 64)).power = v.power := State.power_setReg _ _ _
  generalize v.setReg .pwrEnergy ((v.reg .pwrEnergy + energy) % 2 ^ 64) = w at hen hdie hpv
  obtain ⟨n1, n2, -⟩ := w.noteFixed_spec
  have hpn : w.noteFixed.power = v.power := by rw [n1, hpv]
  have hen2 := (n2 .pwrEnergy (by decide)).trans hen
  have hdie2 := fun d => (n2 _ (Reg.dieKey_ne_sts d)).trans (hdie d)
  generalize w.noteFixed = x at hpn hen2 hdie2
  have hx : x.power.stepChg = s.power.stepChg ∧ x.power.capStretch = gate ∧
      x.power.capN = (if gate then nextN s.power.capN else 0) := by
    rw [hpn, g2, g3, g4]
    exact ⟨rfl, rfl, rfl⟩
  cases lost with
  | false => exact ⟨hx.1, hx.2.1, hx.2.2, hen2, fun d _ => hdie2 d⟩
  | true =>
    rw [if_pos rfl]
    have hy : ∀ q : Reg, q.key ≠ Reg.key .pwrSts → (x.setRf .pwrSts 4 4 1).reg q = x.reg q := fun q hq => State.reg_setRf_of_ne _ _ _ _ hq
    have hpy : (x.setRf .pwrSts 4 4 1).power = x.power := State.power_setRf _ _ _ _ _
    generalize x.setRf .pwrSts 4 4 1 = y at hy hpy
    have hl := logsOnly_ras y (rasOf 0x12 0 15 0x08 0 3)
    have hpz : (y.ras_ (rasOf 0x12 0 15 0x08 0 3)).power = x.power := by rw [hl, hpy]
    refine ⟨by rw [hpz]; exact hx.1, by rw [hpz]; exact hx.2.1, by rw [hpz]; exact hx.2.2,
      (State.reg_ras _ _ (by decide)).trans ((hy _ (by decide)).trans hen2), fun d hd => ?_⟩
    exact (State.reg_ras _ _ (Reg.pwrKeys_log hd).1).trans ((hy _ (Reg.dieKey_ne_sts d)).trans (hdie2 d))

/-- The state from which a control interval chooses its steps. -/
def State.intervalStart (s : State) (m : PowerSample) : State :=
  (((List.range 12).filter (s.learnAll m.dies).dieUp).foldl (fun (t : State) d => t.adoptUnit (12 + d)) (s.learnAll m.dies)).lowerHot

theorem adopts_intervalStart (s : State) (m : PowerSample) : Adopts s (s.intervalStart m) :=
  ((adopts_learnAll s m.dies).trans (.foldl (fun u d => adopts_adoptUnit u (12 + d)) _ _)).trans (adopts_lowerHot _)

/-- The phases that the dies run, and the steps that they want. -/
def State.intervalPhases (u : State) : List Nat := (List.range 12).map u.phaseOf
def State.intervalWants (u : State) : List Nat := (List.range 12).map (fun d => u.wantOf d (u.intervalPhases.getD d 0))

/-- The steps that the cap allows. -/
def State.intervalSteps (u : State) (m : PowerSample) : List Nat :=
  u.fitSteps u.intervalPhases ((u.effCap * 970 : Nat) - (m.weirHeaps : Int)) 192 u.intervalWants

/-- The dies after a control interval has served them. -/
def State.intervalServed (u : State) (m : PowerSample) : State :=
  (List.range 12).foldl (State.intervalDie m u.intervalWants u.intervalPhases (u.intervalSteps m)) u.quieted

/-- Fixed clock mode cannot hold its step (R337). -/
def State.stepLost (u : State) (m : PowerSample) : Bool :=
  u.rf .pwrFixed 8 8 == 1 && (List.range 12).any (fun d => (u.intervalSteps m).getD d 0 < u.rf .pwrFixed 3 0)

theorem execControlInterval_eq (s : State) (m : PowerSample) : exec (.controlInterval m) s =
    let u := s.intervalStart m
    .next ((u.intervalServed m).intervalEnd
      (decide (m.mean100us > u.effCap * 1000) && (List.range 12).all (fun d => (u.intervalServed m).dieStep d == 0)) (u.stepLost m)
      ((m.weirHeaps + m.dies.sum) / 100)) := by
  show execControlInterval m s = _
  have hdie : ∀ w p st, (fun t d => State.intervalDie m w p st t d) = State.intervalDie m w p st := fun _ _ _ => rfl
  unfold execControlInterval State.intervalEnd State.stepLost State.intervalServed State.intervalSteps State.intervalWants
    State.intervalPhases State.intervalStart State.capGated State.quieted
  simp only [← hdie, State.intervalDie]

theorem State.wantOf_braked {s : State} (h : s.pins.brakeN = false) (d phase : Nat) : s.wantOf d phase = 0 := by
  unfold State.wantOf
  dsimp only
  rw [if_neg (by rw [h]; exact Bool.false_ne_true)]

theorem State.intervalWants_getD (u : State) {d : Nat} (hd : d < 12) : u.intervalWants.getD d 0 = u.wantOf d (u.intervalPhases.getD d 0) := by
  unfold State.intervalWants
  rw [List.getD_eq_getElem?_getD, List.getElem?_map, List.getElem?_range hd]
  rfl

/-- CONTROL_INTERVAL (R335, R336, R338, R344). -/
theorem controlInterval_spec (s : State) (m : PowerSample) (hw : ∀ d, d < 12 → (s.intervalStart m).intervalWants.getD d 0 ≤ 15) :
    ∃ (t : State) (steps : List Nat), exec (.controlInterval m) s = .next t ∧ steps.length = 12 ∧
      (∀ d, d < 12 → steps.getD d 0 ≤ (s.intervalStart m).intervalWants.getD d 0) ∧
      ((∀ d, d < 12 → steps.getD d 0 = 0) ∨
        (((s.intervalStart m).estSum (s.intervalStart m).intervalPhases steps : Nat) : Int) ≤
          (s.effCap * 970 : Nat) - (m.weirHeaps : Int)) ∧
      (∀ d, d < 12 → Map.find? t.power.stepChg d =
        if steps.getD d 0 = s.dieStep d ∨ s.changing d = true ∨ d ∈ s.power.held ∨ s.dieUp d = false ∨
          s.boot.mgmtDown = true ∨ s.boot.mgmtHalted = true ∨ s.rf .pwrSts 7 7 = 1 then Map.find? s.power.stepChg d
        else some (steps.getD d 0)) ∧
      (∀ d, d < 12 → t.dieStep d = s.dieStep d ∧ t.rf (.pwrDieSts d) 63 48 = min (m.dies.getD d 0 / 100) 0xFFFF ∧
        (s.pins.brakeN = false → t.rf (.pwrDieSts d) 31 28 = 0)) ∧
      t.reg .pwrEnergy = (s.reg .pwrEnergy + (m.weirHeaps + m.dies.sum) / 100) % 2 ^ 64 ∧
      (t.power.capStretch = true ↔ s.effCap * 1000 < m.mean100us ∧ ∀ d, d < 12 → s.dieStep d = 0) ∧
      t.power.capN = if t.power.capStretch = true then nextN s.power.capN else 0 := by
  have hu := adopts_intervalStart s m
  rw [execControlInterval_eq]
  dsimp only
  generalize s.intervalStart m = u at hw hu
  have hcap := hu.effCap
  have hlen : u.intervalWants.length = 12 := by
    unfold State.intervalWants
    rw [List.length_map, List.length_range]
  have hsum : u.intervalWants.sum < 192 := by
    have := sum_le_of_getD_le 15 (l := u.intervalWants) (fun d hd => hw d (by omega))
    omega
  obtain ⟨f1, f2, f3⟩ := u.fitSteps_spec u.intervalPhases ((u.effCap * 970 : Nat) - (m.weirHeaps : Int)) 192 u.intervalWants hlen
  have hsteps : u.fitSteps u.intervalPhases ((u.effCap * 970 : Nat) - (m.weirHeaps : Int)) 192 u.intervalWants = u.intervalSteps m := rfl
  rw [hsteps] at f1 f2 f3
  have hdk : ∀ e, DieKeeps s u e := fun e =>
    ⟨hu.regs (.pwrDieSts e) (show 0x3002000 + e * 0x20 ≠ 0x6010008 by omega), by rw [hu.stepChg], by rw [hu.vcmd]⟩
  have hik : IntervalKeeps s u := ⟨fun q hq => hu.regs q (by
      have : Reg.key .cfgCommitSts = 0x6010008 := rfl
      omega), fun e _ => State.dieStep_congr (hdk e).sts, hu.held, hu.capN, hu.boot, hu.pins⟩
  obtain ⟨hqk, hqd⟩ := u.quieted_spec
  obtain ⟨k1, -, k3⟩ := State.foldl_intervalDie m u.intervalWants u.intervalPhases (u.intervalSteps m) (List.range 12)
    (fun e he => List.mem_range.mp he) List.nodup_range u.quieted
  have hserved : (List.range 12).foldl (State.intervalDie m u.intervalWants u.intervalPhases (u.intervalSteps m)) u.quieted =
      u.intervalServed m := rfl
  rw [hserved] at k1 k3
  have hall := (hik.trans hqk).trans k1
  have hqs : ∀ d, d < 12 → ∀ step, u.quieted.staysAt d step ↔ s.staysAt d step :=
    fun d hd step => (hik.trans hqk).staysAt ((hdk d).trans (hqd d)) hd step
  generalize u.intervalServed m = v at k3 hall
  have hgate : (decide (m.mean100us > u.effCap * 1000) && (List.range 12).all (fun d => v.dieStep d == 0)) = true ↔
      s.effCap * 1000 < m.mean100us ∧ ∀ d, d < 12 → s.dieStep d = 0 := by
    rw [Bool.and_eq_true, decide_eq_true_eq, List.all_eq_true, hcap]
    simp only [List.mem_range, beq_iff_eq]
    exact and_congr_right fun _ => forall₂_congr fun d hd => by rw [hall.step d hd]
  generalize (decide (m.mean100us > u.effCap * 1000) && (List.range 12).all (fun d => v.dieStep d == 0)) = gate at hgate
  obtain ⟨e1, e2, e3, e4, e5⟩ := v.intervalEnd_spec gate (u.stepLost m) ((m.weirHeaps + m.dies.sum) / 100)
  generalize v.intervalEnd gate (u.stepLost m) ((m.weirHeaps + m.dies.sum) / 100) = t at e1 e2 e3 e4 e5
  refine ⟨t, u.intervalSteps m, rfl, f1, fun d _ => f2 d, ?_, fun d hd => ?_, fun d hd => ⟨?_, ?_, fun hb => ?_⟩, ?_, ?_, ?_⟩
  · rw [← hcap]
    exact f3 hsum
  · have hd' := k3 d (List.mem_range.mpr hd)
    have hchg : Map.find? u.quieted.power.stepChg d = Map.find? s.power.stepChg d := ((hdk d).trans (hqd d)).stepChg
    rw [e1]
    by_cases hst : s.staysAt d ((u.intervalSteps m).getD d 0)
    · rw [hd'.stays ((hqs d hd _).mpr hst), hchg]
      exact (if_pos hst).symm
    · rw [hd'.begins (fun h => hst ((hqs d hd _).mp h))]
      exact (if_neg hst).symm
  · rw [State.dieStep_congr (e5 d hd), hall.step d hd]
  · exact (State.rf_congr (e5 d hd) _ _).trans (k3 d (List.mem_range.mpr hd)).power
  · rw [State.rf_congr (e5 d hd), (k3 d (List.mem_range.mpr hd)).want, u.intervalWants_getD hd,
      State.wantOf_braked (by rw [hu.pins]; exact hb), Nat.zero_mod]
  · rw [e4, hall.regs .pwrEnergy (by decide)]
  · rw [e2]
    exact hgate
  · rw [e3, e2, hall.capN]

/-! ### The balance group (R342, R343) -/

/-- Balancing stops: the delta is 0, and PWR_STS shows none. -/
theorem State.balStop_spec (s : State) (refused : Nat) (hr : refused < 2) :
    ((s.balStop.setRf .pwrSts 2 2 refused).rf .pwrSts 3 3 = 0 ∧ (s.balStop.setRf .pwrSts 2 2 refused).rf .pwrSts 2 2 = refused) ∧
    (s.balStop.setRf .pwrSts 2 2 refused).rf .pwrBalSts 31 16 = 0 := by
  have hstop : s.balStop.regs = ((s.setRf .pwrSts 3 3 0).setRf .pwrBalSts 31 16 0).regs := rfl
  have hon : ((s.setRf .pwrSts 3 3 0).setRf .pwrBalSts 31 16 0).rf .pwrSts 3 3 = 0 :=
    (State.rf_congr (State.reg_setRf_of_ne _ _ _ _ (by decide)) _ _).trans (State.rf_setRf_of_lt _ _ (le_refl 3) (by norm_num))
  have hdelta : ((s.setRf .pwrSts 3 3 0).setRf .pwrBalSts 31 16 0).rf .pwrBalSts 31 16 = 0 :=
    State.rf_setRf_of_lt _ _ (by norm_num) (by norm_num)
  generalize (s.setRf .pwrSts 3 3 0).setRf .pwrBalSts 31 16 0 = u at hstop hon hdelta
  have hrf := fun r hi lo => State.rf_congr (State.reg_congr hstop r) hi lo
  generalize s.balStop = v at hrf
  refine ⟨⟨?_, State.rf_setRf_of_lt _ _ (le_refl 2) hr⟩, ?_⟩
  · rw [State.rf_setRf_other _ _ _ (le_refl 2) (.inr (by norm_num)), hrf, hon]
  · rw [State.rf_congr (State.reg_setRf_of_ne _ _ _ _ (by decide)), hrf, hdelta]

/-- The cycles of the first PERIOD are counted anew. -/
def State.balCounted (s t : State) : State := { t with power := { s.power with waitCyc := 0, allCyc := 0 } }

theorem State.balCounted_spec (s t : State) : (s.balCounted t).regs = t.regs ∧ (s.balCounted t).power.waitCyc = 0 ∧
    (s.balCounted t).power.allCyc = 0 := ⟨rfl, rfl, rfl⟩

theorem execBalanceEnable_spec (s : State) (val : BitVec 64) :
    let u := s.setReg .pwrBalCtl (Reg.written .pwrBalCtl 63 0 (s.reg .pwrBalCtl) val.toNat)
    let sts := fun (t : State) (on refused : Nat) => t.rf .pwrSts 3 3 = on ∧ t.rf .pwrSts 2 2 = refused
    (bit val.toNat 0 = false → ∃ t : State, exec (.balanceEnable val) s = .next t ∧ sts t 0 0 ∧ t.rf .pwrBalSts 31 16 = 0) ∧
    (bit val.toNat 0 = true →
      (u.balReady = true → ∃ t : State, exec (.balanceEnable val) s = .next t ∧ sts t 1 0 ∧ t.power.waitCyc = 0 ∧
        t.power.allCyc = 0) ∧
      (u.balReady = false → ∃ t : State, exec (.balanceEnable val) s = .next t ∧ sts t 0 1 ∧
        t.rf .pwrBalSts 31 16 = 0)) := by
  intro u sts
  have hexec : exec (.balanceEnable val) s = .next (if !bit val.toNat 0 then u.balStop.setRf .pwrSts 2 2 0
      else if u.balReady then u.balCounted ((u.setRf .pwrSts 2 2 0).setRf .pwrSts 3 3 1)
      else u.balStop.setRf .pwrSts 2 2 1) := rfl
  rw [hexec]
  generalize u = u
  refine ⟨fun h => ?_, fun h => ⟨fun hr => ?_, fun hr => ?_⟩⟩
  · obtain ⟨h1, h2⟩ := u.balStop_spec 0 (by norm_num)
    rw [if_pos (by rw [h]; rfl)]
    exact ⟨_, rfl, h1, h2⟩
  · rw [if_neg (by rw [h]; exact Bool.false_ne_true), if_pos hr]
    have hon : ((u.setRf .pwrSts 2 2 0).setRf .pwrSts 3 3 1).rf .pwrSts 3 3 = 1 := State.rf_setRf_of_lt _ _ (le_refl 3) (by norm_num)
    have href : ((u.setRf .pwrSts 2 2 0).setRf .pwrSts 3 3 1).rf .pwrSts 2 2 = 0 := by
      rw [State.rf_setRf_other _ _ _ (le_refl 3) (.inl (by norm_num)), State.rf_setRf_of_lt _ _ (le_refl 2) (by norm_num)]
    generalize (u.setRf .pwrSts 2 2 0).setRf .pwrSts 3 3 1 = v at hon href
    obtain ⟨h1, h2, h3⟩ := u.balCounted_spec v
    exact ⟨_, rfl, ⟨(State.rf_congr (State.reg_congr h1 _) _ _).trans hon, (State.rf_congr (State.reg_congr h1 _) _ _).trans href⟩, h2, h3⟩
  · obtain ⟨h1, h2⟩ := u.balStop_spec 1 (by norm_num)
    rw [if_neg (by rw [h]; exact Bool.false_ne_true), if_neg (by rw [hr]; exact Bool.false_ne_true)]
    exact ⟨_, rfl, h1, h2⟩

/-- A signed 16-bit number survives its encoding. -/
theorem toSigned_ofSigned {i : Int} (hlo : -32768 ≤ i) (hhi : i < 32768) : toSigned 16 (ofSigned 16 i % 2 ^ 16) = i := by
  unfold toSigned ofSigned
  dsimp only
  split <;> omega

/-- In one PERIOD the delta moves by at most 5% of the cap (R343). -/
theorem balDelta_step (cap : Nat) (delta target : Int) :
    (balDelta cap delta target - delta) * 20 ≤ cap ∧ (delta - balDelta cap delta target) * 20 ≤ cap := by
  unfold balDelta clampTo
  generalize target - delta * 65536 = x
  have hb : (cap * 65536 / 20 : Nat) * 20 ≤ cap * 65536 := Nat.div_mul_le_self _ _
  generalize (cap * 65536 / 20 : Nat) = b at hb
  have hy : -(b : Int) ≤ max (-(b : Int)) (min b x) ∧ max (-(b : Int)) (min b x) ≤ b := by omega
  generalize max (-(b : Int)) (min b x) = y at hy
  have hdiv : y.tdiv 65536 * 65536 ≤ b ∧ -(b : Int) ≤ y.tdiv 65536 * 65536 := by
    rcases le_or_gt 0 y with h | h
    · rw [Int.tdiv_eq_ediv_of_nonneg h]
      omega
    · obtain ⟨n, hn⟩ := Int.eq_ofNat_of_zero_le (show 0 ≤ -y by omega)
      have hy' : y = -(n : Int) := by omega
      rw [hy', Int.neg_tdiv, Int.tdiv_eq_ediv_of_nonneg (by omega)]
      omega
  omega

/-- The end of a PERIOD. -/
def State.periodEnded (s t : State) (recs : Map (Nat × Nat)) (seq : Nat) : State :=
  { t with power := { s.power with
    balRecs := recs
    balSeq := seq
    waitCyc := 0
    allCyc := 0 } }

theorem State.periodEnded_spec (s t : State) (recs : Map (Nat × Nat)) (seq : Nat) : (s.periodEnded t recs seq).regs = t.regs ∧
    (s.periodEnded t recs seq).power.balSeq = seq ∧ (s.periodEnded t recs seq).power.waitCyc = 0 ∧
    (s.periodEnded t recs seq).power.allCyc = 0 := ⟨rfl, rfl, rfl, rfl⟩

/-- PWR_BAL_STS at the end of a PERIOD. -/
def State.balNoted (s : State) (map delta frac : Nat) : State :=
  ((s.setRf .pwrBalSts 63 32 map).setRf .pwrBalSts 31 16 delta).setRf .pwrBalSts 15 0 frac

theorem State.balNoted_spec (s : State) (map delta : Nat) {frac : Nat} (hf : frac < 2 ^ 16) :
    (s.balNoted map delta frac).rf .pwrBalSts 31 16 = delta % 2 ^ 16 ∧ (s.balNoted map delta frac).rf .pwrBalSts 15 0 = frac := by
  unfold State.balNoted
  refine ⟨?_, State.rf_setRf_of_lt _ _ (by norm_num) hf⟩
  rw [State.rf_setRf_other _ _ _ (by norm_num) (by norm_num), State.rf_setRf_same _ _ _ (by norm_num)]

/-- BALANCE_PERIOD of a device that balances (R343). -/
theorem execBalancePeriod_of {s : State} {w : Window} (hw : s.balWindow = some w) (hon : s.rf .pwrSts 3 3 = 1) :
    ∃ (u v : State) (recs : Map (Nat × Nat)) (map : Nat) (target : Int), exec .balancePeriod s = .next (u.periodEnded
      (v.balNoted map (ofSigned 16 (balDelta (s.rf .pwrCap 10 0) (toSigned 16 (s.rf .pwrBalSts 31 16)) target)) (min s.waitFrac 0xFFFF))
      recs (s.power.balSeq + 1)) := by
  have hexec : exec .balancePeriod s = execBalancePeriod s := rfl
  rw [hexec]
  unfold execBalancePeriod
  rw [hw]
  dsimp only
  rw [if_neg (by rw [hon]; decide)]
  exact ⟨_, _, _, _, _, rfl⟩

theorem balancePeriod_spec {s : State} {w : Window} (hw : s.balWindow = some w) (hon : s.rf .pwrSts 3 3 = 1) :
    let old := toSigned 16 (s.rf .pwrBalSts 31 16)
    ∃ t : State, exec .balancePeriod s = .next t ∧ t.power.balSeq = s.power.balSeq + 1 ∧ t.power.waitCyc = 0 ∧
      t.power.allCyc = 0 ∧ t.rf .pwrBalSts 15 0 = min s.waitFrac 0xFFFF ∧
      (-30000 ≤ old → old ≤ 30000 →
        let new := toSigned 16 (t.rf .pwrBalSts 31 16)
        (new - old) * 20 ≤ s.rf .pwrCap 10 0 ∧ (old - new) * 20 ≤ s.rf .pwrCap 10 0) := by
  intro old
  obtain ⟨u, v, recs, map, target, hexec⟩ := execBalancePeriod_of hw hon
  obtain ⟨n1, n2⟩ := v.balNoted_spec map (ofSigned 16 (balDelta (s.rf .pwrCap 10 0) (toSigned 16 (s.rf .pwrBalSts 31 16)) target))
    (show min s.waitFrac 0xFFFF < 2 ^ 16 from lt_of_le_of_lt (min_le_right _ _) (by norm_num))
  rw [hexec]
  generalize v.balNoted map _ (min s.waitFrac 0xFFFF) = x at n1 n2
  obtain ⟨p1, p2, p3, p4⟩ := u.periodEnded_spec x recs (s.power.balSeq + 1)
  have hrf := fun hi lo => State.rf_congr (State.reg_congr p1 .pwrBalSts) hi lo
  refine ⟨_, rfl, p2, p3, p4, (hrf _ _).trans n2, fun hlo hhi => ?_⟩
  have hcap : s.rf .pwrCap 10 0 < 2 ^ (10 + 1 - 0) := Nat.mod_lt _ (by norm_num)
  change -30000 ≤ toSigned 16 (s.rf .pwrBalSts 31 16) at hlo
  change toSigned 16 (s.rf .pwrBalSts 31 16) ≤ 30000 at hhi
  have hstep := balDelta_step (s.rf .pwrCap 10 0) (toSigned 16 (s.rf .pwrBalSts 31 16)) target
  rw [hrf, n1, toSigned_ofSigned]
  · exact hstep
  · omega
  · omega

/-- Settles O41: the control interval die by die, and the balance group's bound. -/
theorem powerControlCompletes : Obligations.power_control_completes := by
  unfold Obligations.power_control_completes
  exact ⟨fun s m hw => controlInterval_spec s m hw, fun s => ⟨execBalanceEnable_spec s, fun w hw hon => balancePeriod_spec hw hon⟩⟩

end Sys2Proof.Machine

/-! Proofs: the die fabric: edges, the die-to-die version, the correlation samples (R318, R319, R325, R327 to R329). -/

namespace Sys2Proof.Machine

/-! ### The registers of the edges -/

theorem Reg.edgeKey (d e : Nat) : Reg.key (.panEdgeSts d e) = 0x4000000 + d * 0x100000 + 0x50000 + e * 0x100 := rfl

theorem Reg.edgeKey_ne {d e x f : Nat} (he : e < 3) (hf : f < 3) (h : d ≠ x ∨ e ≠ f) :
    Reg.key (.panEdgeSts d e) ≠ Reg.key (.panEdgeSts x f) := by
  rw [Reg.edgeKey, Reg.edgeKey]
  omega

theorem Reg.edgeKey_log {d e : Nat} : Reg.key (.panEdgeSts d e) ∉ rasKeys := by
  unfold rasKeys
  rw [Reg.edgeKey]
  simp only [Reg.key, List.mem_cons, List.not_mem_nil, or_false]
  omega

theorem facing_spec : ∀ d < 12, ∀ e < 2, (facing d e).1 < 12 ∧ (facing d e).2 < 2 ∧ (facing d e).1 ≠ d := by decide

theorem facing_edge (d e : Nat) : (facing d e).2 < 2 := by
  unfold facing
  split_ifs <;> simp

theorem LogsOnly.boot {s t : State} (h : LogsOnly s t) : t.boot = s.boot := by rw [h]

theorem State.edgeLinks_setRf (s : State) (r : Reg) (hi lo v d e : Nat) : (s.setRf r hi lo v).edgeLinks d e = s.edgeLinks d e := rfl

theorem State.edgeLinks_congr {s t : State} (h : t.boot = s.boot) (d e : Nat) : t.edgeLinks d e = s.edgeLinks d e := by
  unfold State.edgeLinks
  rw [h]

theorem State.edgeUp_congr {s t : State} {d e : Nat} (h : t.reg (.panEdgeSts d e) = s.reg (.panEdgeSts d e)) :
    t.edgeUp d e = s.edgeUp d e := by
  unfold State.edgeUp
  rw [State.rf_congr h]

/-! ### A link leaves service (R319) -/

/-- An edge end after the loss of a link. -/
structure EdgeLost (s t : State) (d e : Nat) : Prop where
  links : t.edgeLinks d e = s.edgeLinks d e - 1
  field : t.rf (.panEdgeSts d e) 39 32 = s.edgeLinks d e - 1
  down : s.edgeLinks d e ≤ 1 → t.edgeUp d e = false
  stays : 1 < s.edgeLinks d e → t.edgeUp d e = s.edgeUp d e

/-- An edge end that nothing touches. -/
structure EdgeKept (s t : State) (d e : Nat) : Prop where
  links : t.edgeLinks d e = s.edgeLinks d e
  reg : t.reg (.panEdgeSts d e) = s.reg (.panEdgeSts d e)

theorem EdgeLost.of_kept_left {s t u : State} {d e : Nat} (k : EdgeKept s t d e) (h : EdgeLost t u d e) : EdgeLost s u d e := by
  obtain ⟨h1, h2, h3, h4⟩ := h
  rw [k.links] at h1 h2 h3 h4
  exact ⟨h1, h2, h3, fun h => (h4 h).trans (State.edgeUp_congr k.reg)⟩

theorem EdgeLost.of_kept_right {s t u : State} {d e : Nat} (h : EdgeLost s t d e) (k : EdgeKept t u d e) : EdgeLost s u d e :=
  ⟨k.links.trans h.links, (State.rf_congr k.reg _ _).trans h.field, fun x => (State.edgeUp_congr k.reg).trans (h.down x),
    fun x => (State.edgeUp_congr k.reg).trans (h.stays x)⟩

theorem EdgeKept.of_logs {s t : State} (d e : Nat) (h : LogsOnly s t)
    (hr : t.reg (.panEdgeSts d e) = s.reg (.panEdgeSts d e)) : EdgeKept s t d e :=
  ⟨State.edgeLinks_congr h.boot d e, hr⟩

theorem State.edgeLinks_lt (s : State) (d e : Nat) : s.edgeLinks d e < 256 := by
  unfold State.edgeLinks
  split <;> omega

theorem State.stopEdge_spec (s : State) (d e : Nat) : RegsOnly s (s.stopEdge d e) ∧ (s.stopEdge d e).edgeUp d e = false ∧
    (s.stopEdge d e).rf (.panEdgeSts d e) 39 32 = s.rf (.panEdgeSts d e) 39 32 ∧
    ∀ q : Reg, q.key ≠ Reg.key (.panEdgeSts d e) → (s.stopEdge d e).reg q = s.reg q := by
  unfold State.stopEdge
  refine ⟨(regsOnly_setRf _ _ _ _ _).trans (regsOnly_setRf _ _ _ _ _), ?_, ?_, fun q hq => ?_⟩
  · unfold State.edgeUp
    rw [State.rf_setRf_other _ _ _ (by norm_num) (.inl (by norm_num)), State.rf_setRf_same _ _ _ (le_refl 0)]
    rfl
  · rw [State.rf_setRf_other _ _ _ (by norm_num) (.inr (by norm_num)),
      State.rf_setRf_other _ _ _ (le_refl 0) (.inr (by norm_num))]
  · rw [State.reg_setRf_of_ne _ _ _ _ hq, State.reg_setRf_of_ne _ _ _ _ hq]

/-- The links out of service, with one more of an edge end. -/
def State.countLink (s : State) (d e : Nat) : State :=
  { s with boot := { s.boot with linksOut := Map.put s.boot.linksOut (d * 3 + e) (Map.getD s.boot.linksOut (d * 3 + e) 0 + 1) } }

theorem State.edgeLinks_countLink (s : State) (d e : Nat) : (s.countLink d e).edgeLinks d e = s.edgeLinks d e - 1 := by
  unfold State.edgeLinks State.countLink Map.getD
  dsimp only
  rw [Map.find?_put_same]
  exact (Nat.sub_sub _ _ 1).symm

theorem State.edgeLinks_countLink_other (s : State) {d e x f : Nat} (he : e < 3) (hf : f < 3) (h : x ≠ d ∨ f ≠ e) :
    (s.countLink d e).edgeLinks x f = s.edgeLinks x f := by
  unfold State.edgeLinks State.countLink Map.getD
  dsimp only
  rw [Map.find?_put_other _ _ (by omega)]

theorem State.loseLink_eq (s : State) (d e : Nat) : s.loseLink d e =
    let t := (s.countLink d e).setRf (.panEdgeSts d e) 39 32 ((s.countLink d e).edgeLinks d e)
    if t.edgeLinks d e == 0 then t.stopEdge d e else t := rfl

theorem State.loseLink_spec (s : State) {d e : Nat} (he : e < 3) : EdgeLost s (s.loseLink d e) d e ∧
    ∀ x f, f < 3 → x ≠ d ∨ f ≠ e → EdgeKept s (s.loseLink d e) x f := by
  have hlinks := s.edgeLinks_countLink d e
  have hother := fun x f hf h => s.edgeLinks_countLink_other (d := d) (e := e) (x := x) (f := f) he hf h
  have hreg : ∀ q, (s.countLink d e).reg q = s.reg q := fun q => rfl
  rw [State.loseLink_eq]
  generalize s.countLink d e = u at hlinks hother hreg
  have hlt := u.edgeLinks_lt d e
  have hkeep : ∀ x f, (u.setRf (.panEdgeSts d e) 39 32 (u.edgeLinks d e)).edgeLinks x f = u.edgeLinks x f := fun _ _ =>
    State.edgeLinks_setRf _ _ _ _ _ _ _
  have hfield : (u.setRf (.panEdgeSts d e) 39 32 (u.edgeLinks d e)).rf (.panEdgeSts d e) 39 32 = u.edgeLinks d e :=
    State.rf_setRf_of_lt _ _ (by norm_num) (by norm_num; exact hlt)
  have hup : (u.setRf (.panEdgeSts d e) 39 32 (u.edgeLinks d e)).edgeUp d e = u.edgeUp d e := by
    unfold State.edgeUp
    rw [State.rf_setRf_other _ _ _ (by norm_num) (.inl (by norm_num))]
  have hregs : ∀ q : Reg, q.key ≠ Reg.key (.panEdgeSts d e) →
      (u.setRf (.panEdgeSts d e) 39 32 (u.edgeLinks d e)).reg q = u.reg q := fun q hq => State.reg_setRf_of_ne _ _ _ _ hq
  generalize u.setRf (.panEdgeSts d e) 39 32 (u.edgeLinks d e) = v at hkeep hfield hup hregs
  have hup' : u.edgeUp d e = s.edgeUp d e := State.edgeUp_congr (hreg _)
  have hkey : ∀ x f, f < 3 → x ≠ d ∨ f ≠ e → Reg.key (.panEdgeSts x f) ≠ Reg.key (.panEdgeSts d e) := fun x f hf h =>
    Reg.edgeKey_ne hf he h
  dsimp only
  split
  · rename_i h0
    have hzero := beq_iff_eq.mp h0
    rw [hkeep] at hzero
    obtain ⟨hr, hdown, hf, hq⟩ := v.stopEdge_spec d e
    have hl : ∀ x f, (v.stopEdge d e).edgeLinks x f = v.edgeLinks x f := fun x f =>
      State.edgeLinks_congr (by rw [hr]) x f
    refine ⟨⟨?_, ?_, fun _ => hdown, fun h => ?_⟩, fun x f hf' h => ⟨?_, ?_⟩⟩
    · rw [hl, hkeep, hlinks]
    · rw [hf, hfield, hlinks]
    · omega
    · rw [hl, hkeep, hother x f hf' h]
    · rw [hq _ (hkey x f hf' h), hregs _ (hkey x f hf' h), hreg]
  · rename_i h0
    have hne : u.edgeLinks d e ≠ 0 := by
      intro h
      exact h0 (beq_iff_eq.mpr ((hkeep d e).trans h))
    refine ⟨⟨?_, ?_, fun h => ?_, fun _ => hup.trans hup'⟩, fun x f hf' h => ⟨?_, ?_⟩⟩
    · rw [hkeep, hlinks]
    · rw [hfield, hlinks]
    · omega
    · rw [hkeep, hother x f hf' h]
    · rw [hregs _ (hkey x f hf' h), hreg]

/-- Every end of an edge loses the link. -/
theorem State.loseLinks_spec (s : State) {d e : Nat} (hd : d < 12) (he : e < 3) :
    (d, e) ∈ edgeEnds d e ∧
    ∀ x ∈ edgeEnds d e, EdgeLost s ((edgeEnds d e).foldl (fun (t : State) x => t.loseLink x.1 x.2) s) x.1 x.2 := by
  obtain ⟨hlost, hkept⟩ := s.loseLink_spec (d := d) he
  unfold edgeEnds
  split
  · rename_i h2
    obtain ⟨-, hf2, hne⟩ := facing_spec d hd e h2
    have hf3 : (facing d e).2 < 3 := by omega
    obtain ⟨hlost', hkept'⟩ := (s.loseLink d e).loseLink_spec (d := (facing d e).1) hf3
    refine ⟨List.mem_cons_self, fun x hx => ?_⟩
    rw [List.foldl_cons, List.foldl_cons, List.foldl_nil]
    rcases List.mem_cons.mp hx with rfl | hx
    · exact hlost.of_kept_right (hkept' d e he (.inl hne.symm))
    · obtain rfl := List.mem_singleton.mp hx
      exact hlost'.of_kept_left (hkept _ _ hf3 (.inl hne))
  · refine ⟨List.mem_singleton_self _, fun x hx => ?_⟩
    obtain rfl := List.mem_singleton.mp hx
    exact hlost

theorem exec_edgeLinkOutOfService_of_up {s : State} {d : Fin 12} {e : Fin 3} (h : s.edgeUp d.val e.val = true) :
    exec (.edgeLinkOutOfService d e) s = .next (((edgeEnds d.val e.val).foldl (fun (t : State) x => t.loseLink x.1 x.2) s).ras_
      (rasOf 0x08 1 d.val 0x05 e.val 0)) := by
  have hexec : exec (.edgeLinkOutOfService d e) s = execEdgeLinkOutOfService d e s := rfl
  rw [hexec]
  unfold execEdgeLinkOutOfService
  exact if_pos h

theorem edgeLinkOutOfService_spec {s : State} {d : Fin 12} {e : Fin 3} (h : s.edgeUp d.val e.val = true) :
    ∃ t : State, exec (.edgeLinkOutOfService d e) s = .next t ∧
      (t.edgeUp d.val e.val = true ↔ 1 < s.edgeLinks d.val e.val) ∧
      (∀ x ∈ edgeEnds d.val e.val, t.edgeLinks x.1 x.2 = s.edgeLinks x.1 x.2 - 1 ∧
        t.rf (.panEdgeSts x.1 x.2) 39 32 = s.edgeLinks x.1 x.2 - 1 ∧
        (s.edgeLinks x.1 x.2 ≤ 1 → t.edgeUp x.1 x.2 = false)) ∧
      ∃ x ∈ t.ras, x.cls = 8 ∧ x.die = d.val := by
  obtain ⟨hmem, hlost⟩ := s.loseLinks_spec d.isLt e.isLt
  rw [exec_edgeLinkOutOfService_of_up h]
  generalize (edgeEnds d.val e.val).foldl (fun (t : State) x => t.loseLink x.1 x.2) s = u at hlost
  have hlost' : ∀ x ∈ edgeEnds d.val e.val, EdgeLost s (u.ras_ (rasOf 0x08 1 d.val 0x05 e.val 0)) x.1 x.2 := fun x hx =>
    (hlost x hx).of_kept_right (EdgeKept.of_logs _ _ (logsOnly_ras _ _) (State.reg_ras _ _ Reg.edgeKey_log))
  obtain ⟨x, hx, hcls, hdie, -⟩ := u.stored_ras (rasOf 0x08 1 d.val 0x05 e.val 0) (.inr Nat.one_ne_zero)
  refine ⟨_, rfl, ⟨fun hup => ?_, fun hl => ((hlost' _ hmem).stays hl).trans h⟩, fun x hx => ?_, ⟨x, hx, hcls, hdie⟩⟩
  · by_contra hl
    exact Bool.false_ne_true (((hlost' _ hmem).down (Nat.not_lt.mp hl)).symm.trans hup)
  · obtain ⟨h1, h2, h3, -⟩ := hlost' x hx
    exact ⟨h1, h2, h3⟩

theorem edgeFlitReplay_spec {s : State} {d : Fin 12} {e : Fin 3} (h : s.edgeUp d.val e.val = true) :
    ∃ t : State, exec (.edgeFlitReplay d e) s = .next t ∧
      t.rf (.panEdgeSts d.val e.val) 63 48 = min (s.rf (.panEdgeSts d.val e.val) 63 48 + 1) 0xFFFF ∧
      t.rf (.panEdgeSts d.val e.val) 0 0 = 1 := by
  have hexec : exec (.edgeFlitReplay d e) s = execEdgeFlitReplay d e s := rfl
  rw [hexec]
  unfold execEdgeFlitReplay
  dsimp only
  rw [if_pos h]
  refine ⟨_, rfl, ?_, ?_⟩
  · rw [State.rf_setRf_of_lt _ _ (by norm_num) (by rw [satInc_eq_min]; omega), satInc_eq_min]
    norm_num
  · rw [State.rf_setRf_other _ _ _ (by norm_num) (.inl (by norm_num))]
    exact beq_iff_eq.mp h

theorem edgeMesochronousReturn_spec {s : State} {d : Fin 12} {e : Fin 2} (h1 : s.edgeUp d.val e.val = true)
    (h2 : s.edgeUp (facing d.val e.val).1 (facing d.val e.val).2 = true) (h3 : s.rf (.panEdgeSts d.val e.val) 3 2 = 2)
    (h4 : 0x22 ≤ s.rf .glbD2dVer 7 0) (h5 : s.dieStep d.val = s.dieStep (facing d.val e.val).1)
    (h6 : Map.find? s.power.stepChg d.val = none) (h7 : Map.find? s.power.stepChg (facing d.val e.val).1 = none) :
    ∃ t : State, exec (.edgeMesochronousReturn d e) s = .next t ∧ t.rf (.panEdgeSts d.val e.val) 3 2 = 1 ∧
      t.rf (.panEdgeSts (facing d.val e.val).1 (facing d.val e.val).2) 3 2 = 1 := by
  obtain ⟨-, hf2, hne⟩ := facing_spec d.val d.isLt e.val e.isLt
  have hexec : exec (.edgeMesochronousReturn d e) s = execEdgeMesochronousReturn d e s := rfl
  rw [hexec]
  unfold execEdgeMesochronousReturn
  dsimp only
  rw [if_pos (by simp [h1, h2, h3, h4, h5, h6, h7])]
  refine ⟨_, rfl, ?_, State.rf_setRf_of_lt _ _ (by norm_num) (by norm_num)⟩
  rw [State.rf_congr (State.reg_setRf_of_ne _ _ _ _ (Reg.edgeKey_ne (by omega) (by omega) (.inl hne.symm)))]
  exact State.rf_setRf_of_lt _ _ (by norm_num) (by norm_num)

/-! ### SET reaches a die (R327) -/

/-- Pan–Pan edges may start: no version changes, and no edge to the Weir. -/
structure EdgesStart (s t : State) : Prop where
  boot : t.boot = s.boot
  version : ∀ x e, e < 3 → t.rf (.panEdgeSts x e) 23 16 = s.rf (.panEdgeSts x e) 23 16
  weir : ∀ x, t.reg (.panEdgeSts x 2) = s.reg (.panEdgeSts x 2)

namespace EdgesStart

theorem refl (s : State) : EdgesStart s s := ⟨rfl, fun _ _ _ => rfl, fun _ => rfl⟩
theorem trans {s t u : State} (h : EdgesStart s t) (k : EdgesStart t u) : EdgesStart s u :=
  ⟨k.boot.trans h.boot, fun x e he => (k.version x e he).trans (h.version x e he), fun x => (k.weir x).trans (h.weir x)⟩

end EdgesStart

theorem State.startEdge_spec (s : State) (d e : Nat) : RegsOnly s (s.startEdge d e) ∧
    (s.startEdge d e).rf (.panEdgeSts d e) 23 16 = s.rf (.panEdgeSts d e) 23 16 ∧
    (s.edgeLinks d e ≠ 0 → (s.startEdge d e).edgeUp d e = true) ∧
    ∀ q : Reg, q.key ≠ Reg.key (.panEdgeSts d e) → (s.startEdge d e).reg q = s.reg q := by
  unfold State.startEdge
  dsimp only
  split
  · rename_i h0
    exact ⟨regsOnly_setRf _ _ _ _ _, State.rf_setRf_other _ _ _ (by norm_num) (.inl (by norm_num)), fun h => absurd (beq_iff_eq.mp h0) h,
      fun q hq => State.reg_setRf_of_ne _ _ _ _ hq⟩
  · refine ⟨((regsOnly_setRf _ _ _ _ _).trans (regsOnly_setRf _ _ _ _ _)).trans (regsOnly_setRf _ _ _ _ _), ?_, fun _ => ?_, fun q hq => ?_⟩
    · rw [State.rf_setRf_other _ _ _ (by norm_num) (.inr (by norm_num)), State.rf_setRf_other _ _ _ (le_refl 0) (.inr (by norm_num)),
        State.rf_setRf_other _ _ _ (by norm_num) (.inl (by norm_num))]
    · unfold State.edgeUp
      rw [State.rf_setRf_other _ _ _ (by norm_num) (.inl (by norm_num)), State.rf_setRf_of_lt _ _ (le_refl 0) (by norm_num)]
      rfl
    · rw [State.reg_setRf_of_ne _ _ _ _ hq, State.reg_setRf_of_ne _ _ _ _ hq, State.reg_setRf_of_ne _ _ _ _ hq]

theorem edgesStart_startEdge (s : State) (d : Nat) {e : Nat} (he : e < 2) : EdgesStart s (s.startEdge d e) := by
  obtain ⟨hr, hver, -, hq⟩ := s.startEdge_spec d e
  refine ⟨by rw [hr], fun x f hf => ?_, fun x => hq _ (Reg.edgeKey_ne (by norm_num) (by omega) (.inr (by omega)))⟩
  by_cases hx : x = d ∧ f = e
  · obtain ⟨rfl, rfl⟩ := hx
    exact hver
  · exact State.rf_congr (hq _ (Reg.edgeKey_ne hf (by omega) (by omega))) _ _

theorem edgesStart_logPlain (s : State) (sev die unit index : Nat) : EdgesStart s (s.logPlain sev die unit index) := by
  have hlogs : LogsOnly s (s.logPlain sev die unit index) := (show LogsOnly s s.fresh.2 from rfl).trans (logsOnly_ras _ _)
  have hreg : ∀ x e, (s.logPlain sev die unit index).reg (.panEdgeSts x e) = s.reg (.panEdgeSts x e) := fun x e =>
    State.reg_ras s.fresh.2 _ Reg.edgeKey_log
  exact ⟨hlogs.boot, fun x e _ => State.rf_congr (hreg x e) _ _, fun x => hreg x 2⟩

/-- What SET does with one Pan–Pan edge of its die. -/
def State.setEdge (d ver : Nat) (t : State) (e : Nat) : State :=
  let f := facing d e
  let other := t.rf (.panEdgeSts f.1 f.2) 23 16
  if other == 0 then t
  else if other != ver then t.logPlain 1 15 0x05 e
  else if t.edgeUp f.1 2 then (t.startEdge d e).startEdge f.1 f.2 else t

theorem edgesStart_setEdge (d ver : Nat) (t : State) {e : Nat} (he : e < 2) : EdgesStart t (State.setEdge d ver t e) := by
  unfold State.setEdge
  dsimp only
  split
  · exact EdgesStart.refl t
  · split
    · exact edgesStart_logPlain _ _ _ _ _
    · split
      · exact (edgesStart_startEdge t d he).trans (edgesStart_startEdge _ _ (facing_edge d e))
      · exact EdgesStart.refl t

/-- SET's version in the three edges of a die. -/
def State.noteVersion (s : State) (d ver : Nat) : State :=
  ((s.setRf (.panEdgeSts d 0) 23 16 ver).setRf (.panEdgeSts d 1) 23 16 ver).setRf (.panEdgeSts d 2) 23 16 ver

theorem State.noteVersion_spec (s : State) (d ver : Nat) : RegsOnly s (s.noteVersion d ver) ∧
    (∀ e, e < 3 → (s.noteVersion d ver).rf (.panEdgeSts d e) 23 16 = ver % 256) ∧
    ∀ x, x ≠ d → (s.noteVersion d ver).reg (.panEdgeSts x 2) = s.reg (.panEdgeSts x 2) := by
  have hkey : ∀ {e f : Nat}, e < 3 → f < 3 → e ≠ f → Reg.key (.panEdgeSts d e) ≠ Reg.key (.panEdgeSts d f) := fun he hf h =>
    Reg.edgeKey_ne he hf (.inr h)
  unfold State.noteVersion
  refine ⟨((regsOnly_setRf _ _ _ _ _).trans (regsOnly_setRf _ _ _ _ _)).trans (regsOnly_setRf _ _ _ _ _), fun e he => ?_, fun x hx => ?_⟩
  · interval_cases e
    · rw [State.rf_congr (State.reg_setRf_of_ne _ _ _ _ (hkey (by norm_num) (by norm_num) (by norm_num))),
        State.rf_congr (State.reg_setRf_of_ne _ _ _ _ (hkey (by norm_num) (by norm_num) (by norm_num)))]
      exact State.rf_setRf_same _ _ _ (by norm_num)
    · rw [State.rf_congr (State.reg_setRf_of_ne _ _ _ _ (hkey (by norm_num) (by norm_num) (by norm_num)))]
      exact State.rf_setRf_same _ _ _ (by norm_num)
    · exact State.rf_setRf_same _ _ _ (by norm_num)
  · have h : ∀ e, e < 3 → Reg.key (.panEdgeSts x 2) ≠ Reg.key (.panEdgeSts d e) := fun e he =>
      Reg.edgeKey_ne (by norm_num) he (.inl hx)
    rw [State.reg_setRf_of_ne _ _ _ _ (h 2 (by norm_num)), State.reg_setRf_of_ne _ _ _ _ (h 1 (by norm_num)),
      State.reg_setRf_of_ne _ _ _ _ (h 0 (by norm_num))]

theorem State.setDie_eq (s : State) (d ver : Nat) : s.setDie d ver =
    State.setEdge d ver (State.setEdge d ver ((s.noteVersion d ver).startEdge d 2) 0) 1 := rfl

theorem State.setDie_spec (s : State) (d ver : Nat) : (s.setDie d ver).boot = s.boot ∧
    (∀ e, e < 3 → (s.setDie d ver).rf (.panEdgeSts d e) 23 16 = ver % 256) ∧
    (s.edgeLinks d 2 ≠ 0 → (s.setDie d ver).edgeUp d 2 = true) ∧
    ∀ x, x ≠ d → (s.setDie d ver).reg (.panEdgeSts x 2) = s.reg (.panEdgeSts x 2) := by
  obtain ⟨hnr, hnv, hno⟩ := s.noteVersion_spec d ver
  rw [State.setDie_eq]
  generalize s.noteVersion d ver = u at hnr hnv hno
  have hnb : u.boot = s.boot := by rw [hnr]
  obtain ⟨hsr, hsv, hsup, hso⟩ := u.startEdge_spec d 2
  generalize u.startEdge d 2 = v at hsr hsv hsup hso
  have hvb : v.boot = u.boot := by rw [hsr]
  have h := (edgesStart_setEdge d ver v (e := 0) (by norm_num)).trans (edgesStart_setEdge d ver _ (e := 1) (by norm_num))
  generalize State.setEdge d ver (State.setEdge d ver v 0) 1 = t at h
  refine ⟨h.boot.trans (hvb.trans hnb), fun e he => ?_, fun hl => ?_, fun x hx => ?_⟩
  · rw [h.version d e he]
    by_cases h2 : e = 2
    · rw [h2, hsv, hnv 2 (by norm_num)]
    · rw [State.rf_congr (hso _ (Reg.edgeKey_ne he (by norm_num) (.inr h2))), hnv e he]
  · rw [State.edgeUp_congr (h.weir d)]
    exact hsup (by rw [State.edgeLinks_congr hnb]; exact hl)
  · rw [h.weir, hso _ (Reg.edgeKey_ne (by norm_num) (by norm_num) (.inl hx)), hno x hx]

/-! ### Offers (R327, R329) -/

/-- The state with a die's offer rejected. -/
def State.rejectDie (s : State) (d : Nat) : State :=
  { s with boot := { s.boot with rejected := NSet.ins s.boot.rejected d } }

/-- The state with a die's offer taken. -/
def State.takeOffer (s : State) (d vmin vmax : Nat) : State :=
  { s with boot := { s.boot with offers := Map.put s.boot.offers d (vmin, vmax) } }

theorem State.rejectDie_spec (s : State) (d : Nat) : d ∈ (s.rejectDie d).boot.rejected ∧
    (s.rejectDie d).boot.offers = s.boot.offers ∧ (s.rejectDie d).regs = s.regs :=
  ⟨(NSet.mem_ins _ _ _).mpr (.inl rfl), rfl, rfl⟩

theorem State.takeOffer_spec (s : State) (d vmin vmax : Nat) :
    Map.find? (s.takeOffer d vmin vmax).boot.offers d = some (vmin, vmax) ∧ (s.takeOffer d vmin vmax).regs = s.regs ∧
    ∀ x e, (s.takeOffer d vmin vmax).edgeLinks x e = s.edgeLinks x e :=
  ⟨Map.find?_put_same _ _ _, rfl, fun _ _ => rfl⟩

/-- An offer of a die that has made none. -/
theorem exec_d2dOffer_of {s : State} {d : Fin 12} (vmin vmax : BitVec 8) (hb : s.boot.phase ≠ 0) (hd : s.dieUp d.val = false)
    (ho : Map.find? s.boot.offers d.val = none) (hr : d.val ∉ s.boot.rejected) : exec (.d2dOffer d vmin vmax) s =
      if vmax.toNat < 0x20 || vmin.toNat > 0x23 then .next (s.rejectDie d.val)
      else if s.rf .glbD2dVer 7 0 == 0 then .next (s.takeOffer d.val vmin.toNat vmax.toNat)
      else if vmin.toNat ≤ s.rf .glbD2dVer 7 0 && s.rf .glbD2dVer 7 0 ≤ vmax.toNat then
        .next ((s.takeOffer d.val vmin.toNat vmax.toNat).setDie d.val (s.rf .glbD2dVer 7 0))
      else .next (s.rejectDie d.val) := by
  have hexec : exec (.d2dOffer d vmin vmax) s = execD2dOffer d vmin vmax s := rfl
  rw [hexec]
  unfold execD2dOffer
  rw [if_neg (by simp [hb, hd, ho, hr])]
  rfl

theorem exec_d2dOffer_rejected {s : State} {d : Fin 12} (vmin vmax : BitVec 8) (hr : d.val ∈ s.boot.rejected) :
    exec (.d2dOffer d vmin vmax) s = .next s := by
  have hexec : exec (.d2dOffer d vmin vmax) s = execD2dOffer d vmin vmax s := rfl
  rw [hexec]
  unfold execD2dOffer
  rw [if_pos (by simp [hr])]
  rfl

theorem d2dOffer_spec {s : State} {d : Fin 12} (vmin vmax : BitVec 8) (hb : s.boot.phase ≠ 0) (hd : s.dieUp d.val = false)
    (ho : Map.find? s.boot.offers d.val = none) (hr : d.val ∉ s.boot.rejected) :
    let active := s.rf .glbD2dVer 7 0
    let takes := 0x20 ≤ vmax.toNat ∧ vmin.toNat ≤ 0x23
    (¬ takes ∨ (active ≠ 0 ∧ (active < vmin.toNat ∨ vmax.toNat < active)) →
      ∃ t : State, exec (.d2dOffer d vmin vmax) s = .next t ∧ d.val ∈ t.boot.rejected ∧ t.boot.offers = s.boot.offers ∧
        t.regs = s.regs) ∧
    (takes → active = 0 → ∃ t : State, exec (.d2dOffer d vmin vmax) s = .next t ∧
      Map.find? t.boot.offers d.val = some (vmin.toNat, vmax.toNat) ∧ t.regs = s.regs) ∧
    (takes → active ≠ 0 → vmin.toNat ≤ active → active ≤ vmax.toNat →
      ∃ t : State, exec (.d2dOffer d vmin vmax) s = .next t ∧
        Map.find? t.boot.offers d.val = some (vmin.toNat, vmax.toNat) ∧
        (s.edgeLinks d.val 2 ≠ 0 → t.edgeUp d.val 2 = true) ∧ ∀ e : Fin 3, t.rf (.panEdgeSts d.val e.val) 23 16 = active) := by
  intro active takes
  have hact : active < 2 ^ (7 + 1 - 0) := Nat.mod_lt _ (Nat.two_pow_pos _)
  rw [exec_d2dOffer_of vmin vmax hb hd ho hr]
  have hout : takes → ¬ (decide (vmax.toNat < 0x20) || decide (vmin.toNat > 0x23)) = true := fun h => by
    obtain ⟨h1, h2⟩ := h
    simp only [Bool.or_eq_true, decide_eq_true_eq]
    omega
  refine ⟨fun h => ⟨s.rejectDie d.val, ?_, s.rejectDie_spec d.val⟩, fun ht ha => ?_, fun ht ha hlo hhi => ?_⟩
  · by_cases ht : takes
    · obtain ⟨hne, hval⟩ := h.resolve_left (not_not_intro ht)
      rw [if_neg (hout ht), if_neg (by simpa using hne), if_neg]
      simp only [Bool.and_eq_true, decide_eq_true_eq]
      omega
    · refine if_pos ?_
      simp only [Bool.or_eq_true, decide_eq_true_eq]
      by_contra hc
      exact ht ⟨by omega, by omega⟩
  · obtain ⟨h1, h2, -⟩ := s.takeOffer_spec d.val vmin.toNat vmax.toNat
    refine ⟨_, ?_, h1, h2⟩
    rw [if_neg (hout ht)]
    exact if_pos (beq_iff_eq.mpr ha)
  · obtain ⟨h1, -, h3⟩ := s.takeOffer_spec d.val vmin.toNat vmax.toNat
    obtain ⟨k1, k2, k3, -⟩ := (s.takeOffer d.val vmin.toNat vmax.toNat).setDie_spec d.val active
    refine ⟨(s.takeOffer d.val vmin.toNat vmax.toNat).setDie d.val active, ?_, by rw [k1]; exact h1,
      fun hl => k3 (by rw [h3]; exact hl), fun e => (k2 e.val e.isLt).trans (Nat.mod_eq_of_lt hact)⟩
    rw [if_neg (hout ht), if_neg (by simpa using ha), if_pos]
    simp only [Bool.and_eq_true, decide_eq_true_eq]
    exact ⟨hlo, hhi⟩

/-! ### The end of the handshake (R327) -/

/-- The least of a list of numbers, each taken by `f`, and of a bound. -/
theorem foldl_min_spec {α : Type} (f : α → Nat) (l : List α) (b : Nat) :
    l.foldl (fun v o => min v (min (f o) b)) b ≤ b ∧ (∀ o ∈ l, l.foldl (fun v o => min v (min (f o) b)) b ≤ f o) ∧
    (l.foldl (fun v o => min v (min (f o) b)) b = b ∨ ∃ o ∈ l, l.foldl (fun v o => min v (min (f o) b)) b = f o) := by
  have key : ∀ (l : List α) (v : Nat), v ≤ b → l.foldl (fun v o => min v (min (f o) b)) v ≤ v ∧
      (∀ o ∈ l, l.foldl (fun v o => min v (min (f o) b)) v ≤ f o) ∧
      (l.foldl (fun v o => min v (min (f o) b)) v = v ∨ ∃ o ∈ l, l.foldl (fun v o => min v (min (f o) b)) v = f o) := by
    intro l
    induction l with
    | nil => exact fun v _ => ⟨le_refl v, fun o h => absurd h List.not_mem_nil, .inl rfl⟩
    | cons x l ih =>
      intro v hv
      rw [List.foldl_cons]
      obtain ⟨h1, h2, h3⟩ := ih (min v (min (f x) b)) ((min_le_left _ _).trans hv)
      refine ⟨h1.trans (min_le_left _ _), fun o ho => ?_, ?_⟩
      · rcases List.mem_cons.mp ho with rfl | ho
        · exact h1.trans ((min_le_right _ _).trans (min_le_left _ _))
        · exact h2 o ho
      · rcases h3 with h3 | ⟨o, ho, h3⟩
        · rcases le_total v (f x) with h | h
          · exact .inl (h3.trans (by omega))
          · exact .inr ⟨x, List.mem_cons_self, h3.trans (by omega)⟩
        · exact .inr ⟨o, List.mem_cons_of_mem _ ho, h3⟩
  exact key l b (le_refl b)

/-- The version that the Weir picks of the offers. -/
def State.pickVersion (s : State) : Nat := s.boot.offers.foldl (fun v o => min v (min o.2.2 0x23)) 0x23

/-- The dies whose offers hold the version. -/
def State.offersOk (s : State) : List Nat := (s.boot.offers.filter (fun o => o.2.1 ≤ s.pickVersion)).map (fun o => o.1)

/-- The offers above the version are rejected. -/
def State.offersSorted (s : State) : State :=
  { s with boot := { s.boot with
    rejected := ((s.boot.offers.filter (fun o => o.2.1 > s.pickVersion)).map (fun o => o.1)).foldl NSet.ins s.boot.rejected
    offers := Map.keep s.boot.offers s.offersOk.contains } }

theorem State.offersSorted_spec (s : State) : (∀ o ∈ s.boot.offers, s.pickVersion < o.2.1 → o.1 ∈ s.offersSorted.boot.rejected) ∧
    ∀ x e, s.offersSorted.edgeLinks x e = s.edgeLinks x e := by
  refine ⟨fun o ho h => ?_, fun _ _ => rfl⟩
  refine NSet.mem_foldl_ins _ _ (.inl (List.mem_map.mpr ⟨o, List.mem_filter.mpr ⟨ho, ?_⟩, rfl⟩))
  exact decide_eq_true h

theorem exec_d2dHandshakeEnd_of {s : State} (hv : s.rf .glbD2dVer 7 0 = 0) (ho : s.boot.offers ≠ []) : exec .d2dHandshakeEnd s =
    .next ((s.offersOk.foldl (fun t d => t.setDie d s.pickVersion) s.offersSorted).setRf .glbD2dVer 7 0 s.pickVersion) := by
  have hexec : exec .d2dHandshakeEnd s = execD2dHandshakeEnd s := rfl
  have hne : ¬ s.boot.offers.isEmpty = true := fun h => ho (List.isEmpty_iff.mp h)
  rw [hexec]
  unfold execD2dHandshakeEnd
  rw [if_neg (by simp [hv, hne])]
  dsimp only
  rw [if_neg hne]
  rfl

/-- SET reaches every die of a list. -/
theorem State.setDies_spec (s : State) (l : List Nat) (ver : Nat) : (l.foldl (fun t d => State.setDie t d ver) s).boot = s.boot ∧
    ∀ d ∈ l, (s.edgeLinks d 2 ≠ 0 → (l.foldl (fun t d => State.setDie t d ver) s).edgeUp d 2 = true) ∧
      (l.foldl (fun t d => State.setDie t d ver) s).rf (.panEdgeSts d 2) 23 16 = ver % 256 := by
  have hboot : (l.foldl (fun t d => State.setDie t d ver) s).boot = s.boot :=
    foldl_keeps (P := fun u => u.boot = s.boot) (fun u x h => (u.setDie_spec x ver).1.trans h) l s rfl
  refine ⟨hboot, fun d hd => ?_⟩
  have hset : ∀ u : State, ((u.setDie d ver).edgeLinks d 2 ≠ 0 → (u.setDie d ver).edgeUp d 2 = true) ∧
      (u.setDie d ver).rf (.panEdgeSts d 2) 23 16 = ver % 256 := fun u => by
    obtain ⟨hb, hver, hup, -⟩ := u.setDie_spec d ver
    exact ⟨fun hl => hup (by rw [← State.edgeLinks_congr hb]; exact hl), hver 2 (by norm_num)⟩
  have h := foldl_of_mem (P := fun u : State => (u.edgeLinks d 2 ≠ 0 → u.edgeUp d 2 = true) ∧
      u.rf (.panEdgeSts d 2) 23 16 = ver % 256) (f := fun t d => State.setDie t d ver) (x := d) (fun u x hu => by
    by_cases hx : d = x
    · subst hx
      exact hset u
    · obtain ⟨hb, -, -, hreg⟩ := u.setDie_spec x ver
      refine ⟨fun hl => ?_, (State.rf_congr (hreg d hx) _ _).trans hu.2⟩
      rw [State.edgeUp_congr (hreg d hx)]
      exact hu.1 (by rw [← State.edgeLinks_congr hb]; exact hl)) hset l s hd
  exact ⟨fun hl => h.1 (by rw [State.edgeLinks_congr hboot]; exact hl), h.2⟩

theorem d2dHandshakeEnd_spec {s : State} (hv : s.rf .glbD2dVer 7 0 = 0) (ho : s.boot.offers ≠ []) :
    ∃ (t : State) (ver : Nat), exec .d2dHandshakeEnd s = .next t ∧ t.rf .glbD2dVer 7 0 = ver % 256 ∧ ver ≤ 0x23 ∧
      (∀ o ∈ s.boot.offers, ver ≤ o.2.2) ∧ (ver = 0x23 ∨ ∃ o ∈ s.boot.offers, ver = o.2.2) ∧
      (∀ o ∈ s.boot.offers, o.2.1 ≤ ver → (s.edgeLinks o.1 2 ≠ 0 → t.edgeUp o.1 2 = true) ∧
        t.rf (.panEdgeSts o.1 2) 23 16 = ver % 256) ∧
      (∀ o ∈ s.boot.offers, ver < o.2.1 → o.1 ∈ t.boot.rejected) := by
  obtain ⟨v1, v2, v3⟩ := foldl_min_spec (fun o : Nat × Nat × Nat => o.2.2) s.boot.offers 0x23
  obtain ⟨hrej, hlinks⟩ := s.offersSorted_spec
  obtain ⟨hboot, hset⟩ := s.offersSorted.setDies_spec s.offersOk s.pickVersion
  rw [exec_d2dHandshakeEnd_of hv ho]
  generalize s.offersOk.foldl (fun t d => State.setDie t d s.pickVersion) s.offersSorted = u at hboot hset
  have hreg : ∀ d, (u.setRf .glbD2dVer 7 0 s.pickVersion).reg (.panEdgeSts d 2) = u.reg (.panEdgeSts d 2) := fun d =>
    State.reg_setRf_of_ne _ _ _ _ (by rw [Reg.edgeKey]; simp only [Reg.key]; omega)
  refine ⟨_, s.pickVersion, rfl, State.rf_setRf_same _ _ _ (by norm_num), v1, v2, v3, fun o hmem hle => ?_, fun o hmem hlt => ?_⟩
  · have hok : o.1 ∈ s.offersOk := List.mem_map.mpr ⟨o, List.mem_filter.mpr ⟨hmem, decide_eq_true hle⟩, rfl⟩
    obtain ⟨hup, hver⟩ := hset o.1 hok
    refine ⟨fun hl => ?_, (State.rf_congr (hreg _) _ _).trans hver⟩
    rw [State.edgeUp_congr (hreg _)]
    exact hup (by rw [hlinks]; exact hl)
  · rw [show (u.setRf .glbD2dVer 7 0 s.pickVersion).boot = u.boot from rfl, hboot]
    exact hrej o hmem hlt

/-! ### Correlation samples (R325) -/

theorem Reg.corrKeys (n d : Nat) : Reg.key (.glbCorrHdr n) = 0x800 + n * 0x80 ∧ Reg.key (.glbCorrWeir n) = 0x808 + n * 0x80 ∧
    Reg.key (.glbCorrPan n d) = 0x810 + n * 0x80 + d * 8 := ⟨rfl, rfl, rfl⟩

theorem Reg.corrKeys_log {n d : Nat} (hn : n < 16) (hd : d < 12) : Reg.key (.glbCorrHdr n) ∉ rasKeys ∧
    Reg.key (.glbCorrWeir n) ∉ rasKeys ∧ Reg.key (.glbCorrPan n d) ∉ rasKeys := by
  obtain ⟨h1, h2, h3⟩ := Reg.corrKeys n d
  unfold rasKeys
  rw [h1, h2, h3]
  simp only [Reg.key, List.mem_cons, List.not_mem_nil, or_false]
  omega

/-- The dies that a predicate leaves out, as bits. -/
theorem sum_two_pow_ite (p : Nat → Bool) (l : List Nat) :
    (l.map (fun d => if p d then 0 else 2 ^ d)).sum = ((l.filter (fun d => !p d)).map (fun d => 2 ^ d)).sum := by
  induction l with
  | nil => rfl
  | cons x l ih => cases h : p x <;> simp [h, ih]

/-- The counters of a correlation sample. -/
def State.corrCounters (s : State) (n : Nat) : State :=
  (List.range 12).foldl (fun t d => t.setReg (.glbCorrPan n d) (if s.dieUp d then s.dieTime d else 0))
    (s.setReg (.glbCorrWeir n) s.weirCtr.toNat)

theorem State.corrCounters_spec (s : State) (n : Nat) : RegsOnly s (s.corrCounters n) ∧
    (s.corrCounters n).reg (.glbCorrWeir n) = s.weirCtr.toNat ∧
    ∀ d, d < 12 → (s.corrCounters n).reg (.glbCorrPan n d) = if s.dieUp d then s.dieTime d else 0 := by
  have hk := Reg.corrKeys n
  refine ⟨?_, ?_, fun d hd => ?_⟩
  · exact foldl_keeps (P := fun u => RegsOnly s u) (fun u d h => RegsOnly.trans h (regsOnly_setReg _ _ _)) _ _ (regsOnly_setReg _ _ _)
  · refine foldl_keeps (P := fun u : State => u.reg (.glbCorrWeir n) = s.weirCtr.toNat) (fun u d h => ?_) _ _ (State.reg_setReg_same _ _ _)
    obtain ⟨-, h2, h3⟩ := hk d
    rw [State.reg_setReg_of_ne _ _ (by omega), h]
  · refine foldl_of_mem (P := fun u : State => u.reg (.glbCorrPan n d) = if s.dieUp d then s.dieTime d else 0)
      (x := d) (fun u e h => ?_) (fun u => State.reg_setReg_same _ _ _) _ _ (List.mem_range.mpr hd)
    by_cases he : d = e
    · rw [he, State.reg_setReg_same]
    · obtain ⟨-, -, h3⟩ := hk d
      obtain ⟨-, -, h4⟩ := hk e
      rw [State.reg_setReg_of_ne _ _ (by omega), h]

/-- The dies out of service, as bits. -/
def State.downMap (s : State) : Nat := ((List.range 12).map (fun d => if s.dieUp d then 0 else 2 ^ d)).sum

theorem State.downMap_spec (s : State) : s.downMap < 2 ^ 12 ∧ ∀ d, d < 12 → (bit s.downMap d = true ↔ s.dieUp d = false) := by
  obtain ⟨hlt, hbits⟩ := sum_two_pow_filter_range (fun d => !s.dieUp d) 12
  unfold State.downMap
  rw [sum_two_pow_ite]
  refine ⟨hlt, fun d hd => ?_⟩
  have hb : ∀ w, bit w d = w.testBit d := fun w => by
    rw [Nat.testBit_eq_decide_div_mod_eq]
    rfl
  rw [hb, hbits d]
  simp [hd]

/-- A sample as it stands in the Bittern's log. -/
def State.corrLogged (s : State) (q : Nat) : State :=
  { s with bitternLog := { rasOf 0x11 0 15 0x08 0 q with time := s.weirCtr.toNat } :: s.bitternLog }

theorem exec_correlationSample_of {s : State} {q n : Nat} (h0 : s.boot.phase ≠ 0) (h4 : s.boot.phase ≠ 4)
    (hq : (s.corrSeq + 1) % 2 ^ 32 = q) (hn : q % 16 = n) : exec .correlationSample s =
    .next ((((s.corrCounters n).setReg (.glbCorrHdr n) (s.downMap * 2 ^ 32 + q)).corrLogged q).ras_ (rasOf 0x11 0 15 0x08 0 q)) := by
  have hexec : exec .correlationSample s = execCorrelationSample s := rfl
  rw [hexec]
  unfold execCorrelationSample
  rw [if_neg (by simp [h0, h4])]
  unfold State.corrLogged State.corrCounters State.downMap
  dsimp only
  rw [hq, hn]

theorem State.reg_corrLogged (s : State) (q : Nat) (r : Reg) : (s.corrLogged q).reg r = s.reg r := rfl

theorem State.mem_corrLogged (s : State) (q : Nat) : ∃ x ∈ (s.corrLogged q).bitternLog, x.cls = 0x11 ∧ x.detail = q :=
  ⟨_, List.mem_cons_self, rfl, rfl⟩

theorem correlationSample_spec {s : State} {q n : Nat} (d : Fin 12) (h0 : s.boot.phase ≠ 0) (h4 : s.boot.phase ≠ 4)
    (hqs : (s.corrSeq + 1) % 2 ^ 32 = q) (hns : q % 16 = n) :
    ∃ t : State, exec .correlationSample s = .next t ∧ t.rf (.glbCorrHdr n) 31 0 = q ∧
      t.reg (.glbCorrWeir n) = s.weirCtr.toNat ∧
      t.reg (.glbCorrPan n d.val) = (if s.dieUp d.val = true then s.dieTime d.val else 0) ∧
      (bit (t.rf (.glbCorrHdr n) 43 32) d.val = true ↔ s.dieUp d.val = false) ∧
      ∃ x ∈ t.bitternLog, x.cls = 0x11 ∧ x.detail = q := by
  have hq : q < 2 ^ 32 := hqs ▸ Nat.mod_lt _ (Nat.two_pow_pos _)
  have hn : n < 16 := hns ▸ Nat.mod_lt _ (by norm_num)
  have hexec := exec_correlationSample_of h0 h4 hqs hns
  obtain ⟨-, hweir, hpan⟩ := s.corrCounters_spec n
  obtain ⟨hdlt, hdown⟩ := s.downMap_spec
  obtain ⟨k1, k2, k3⟩ := Reg.corrKeys n d.val
  obtain ⟨l1, l2, l3⟩ := Reg.corrKeys_log hn d.isLt
  rw [hexec]
  generalize s.corrCounters n = u at hweir hpan
  generalize s.downMap = m at hdlt hdown
  have hsame : (u.setReg (.glbCorrHdr n) (m * 2 ^ 32 + q)).reg (.glbCorrHdr n) = m * 2 ^ 32 + q := State.reg_setReg_same _ _ _
  have hother : ∀ r : Reg, r.key ≠ Reg.key (.glbCorrHdr n) → (u.setReg (.glbCorrHdr n) (m * 2 ^ 32 + q)).reg r = u.reg r :=
    fun r hr => State.reg_setReg_of_ne _ _ hr
  generalize u.setReg (.glbCorrHdr n) (m * 2 ^ 32 + q) = v at hsame hother
  have hlog : LogsOnly (v.corrLogged q) ((v.corrLogged q).ras_ (rasOf 0x11 0 15 0x08 0 q)) := logsOnly_ras _ _
  have hreg : ∀ r : Reg, r.key ∉ rasKeys → ((v.corrLogged q).ras_ (rasOf 0x11 0 15 0x08 0 q)).reg r = v.reg r := fun r hr =>
    (State.reg_ras _ _ hr).trans (v.reg_corrLogged q r)
  have hhdr : ∀ hi lo, ((v.corrLogged q).ras_ (rasOf 0x11 0 15 0x08 0 q)).rf (.glbCorrHdr n) hi lo = fld (m * 2 ^ 32 + q) hi lo := by
    intro hi lo
    unfold State.rf
    rw [hreg _ l1, hsame]
  have hlogged : ((v.corrLogged q).ras_ (rasOf 0x11 0 15 0x08 0 q)).bitternLog = (v.corrLogged q).bitternLog := by rw [hlog]
  refine ⟨_, rfl, ?_, ?_, ?_, ?_, ?_⟩
  · rw [hhdr]
    unfold fld
    omega
  · rw [hreg _ l2, hother _ (by omega), hweir]
  · rw [hreg _ l3, hother _ (by omega), hpan _ d.isLt]
  · rw [hhdr, show fld (m * 2 ^ 32 + q) 43 32 = m by unfold fld; omega]
    exact hdown _ d.isLt
  · rw [hlogged]
    exact v.mem_corrLogged q

/-- Settles O42: edge by edge, offer by offer, and sample by sample. -/
theorem fabricEventsComplete : Obligations.fabric_events_complete := by
  unfold Obligations.fabric_events_complete
  intro s d
  exact ⟨fun e he => ⟨edgeFlitReplay_spec he, edgeLinkOutOfService_spec he⟩,
    fun e h1 h2 h3 h4 h5 h6 h7 => edgeMesochronousReturn_spec h1 h2 h3 h4 h5 h6 h7,
    fun h0 h4 => correlationSample_spec d h0 h4 rfl rfl,
    fun vmin vmax hb hd ho hr => d2dOffer_spec vmin vmax hb hd ho hr,
    fun vmin vmax hr => exec_d2dOffer_rejected vmin vmax hr,
    fun hv ho _ => d2dHandshakeEnd_spec hv ho⟩

end Sys2Proof.Machine

/-! Proofs: what leaves the device stays sent; what the end of RMOs, a session's transmission and its STATUS keep (R189, R285, R290). -/

namespace Sys2Proof.Machine

/-! ### What has left the device -/

/-- Whatever left the device before `s` has left it before `t`. -/
def OutGrows (s t : State) : Prop := ∀ o ∈ s.out, o ∈ t.out

namespace OutGrows

theorem refl (s : State) : OutGrows s s := fun _ h => h
theorem trans {s t u : State} (h : OutGrows s t) (k : OutGrows t u) : OutGrows s u := fun o ho => k o (h o ho)
theorem of_eq {s t : State} (h : t.out = s.out) : OutGrows s t := fun _ ho => h ▸ ho
theorem foldl {α : Type} {f : State → α → State} (h : ∀ u x, OutGrows u (f u x)) (xs : List α) (s : State) :
    OutGrows s (xs.foldl f s) := by
  induction xs generalizing s with
  | nil => exact refl s
  | cons x xs ih => exact (h s x).trans (ih _)

end OutGrows

theorem out_hostWrite (s : State) (k : Nat) (bs : List Byte) : (s.hostWrite k bs).out = s.out := by
  induction bs generalizing s k with
  | nil => rfl
  | cons b bs ih => exact ih _ _

section
variable (s : State)

theorem outGrows_emit (o : Out) : OutGrows s (s.emit o) := fun _ h => List.mem_cons_of_mem _ h
theorem outGrows_setReg (r : Reg) (v : Nat) : OutGrows s (s.setReg r v) := .of_eq rfl

theorem outGrows_fire (fn vec : Nat) : OutGrows s (s.fire fn vec) := by
  unfold State.fire
  dsimp only
  split
  · exact .of_eq rfl
  · exact outGrows_emit s _

theorem outGrows_rasPost (e : RasEntry) : OutGrows s (s.rasPost e) := by
  unfold State.rasPost
  dsimp only
  split
  · split
    · exact outGrows_setReg s _ _
    · exact ((OutGrows.of_eq (out_hostWrite s _ _)).trans (outGrows_setReg _ _ _)).trans (outGrows_fire _ _ _)
  · exact .refl s

theorem outGrows_ras (e : RasEntry) : OutGrows s (s.ras_ e) := by
  have hstore : ∀ (l : List RasEntry) (v : Nat) (x : RasEntry), OutGrows s ((State.setReg { s with ras := l } .rasStoreSeq v).rasPost x) :=
    fun l v x => (OutGrows.of_eq (t := State.setReg { s with ras := l } .rasStoreSeq v) rfl).trans (outGrows_rasPost _ _)
  unfold State.ras_
  split
  · exact .of_eq rfl
  · dsimp only
    split
    · exact hstore _ _ _
    · split
      · exact hstore _ _ _
      · exact outGrows_setReg s _ _

theorem outGrows_post (p : Nat) (ws : List Word) : OutGrows s (s.post p ws).1 := by
  unfold State.post
  split
  · exact outGrows_setReg s _ _
  · split
    · dsimp only
      split
      · exact .of_eq rfl
      · exact outGrows_setReg s _ _
    · unfold State.fringWrite
      exact ((OutGrows.of_eq (out_hostWrite s _ _)).trans (outGrows_setReg _ _ _)).trans (outGrows_fire _ _ _)

theorem outGrows_discardNote (keys : List Nat) : OutGrows s (s.discardNote keys) :=
  .foldl (fun u _ => outGrows_ras u _) _ s

theorem out_writeLoc (pasid : Nat) (l : Loc) (b : Byte) : (s.writeLoc pasid l b).out = s.out := by
  unfold State.writeLoc
  split
  · split <;> rfl
  · rfl
  · rfl
  · rfl

theorem outGrows_writeLocs (pasid : Nat) (ls : List Loc) (bs : List Byte) : OutGrows s (s.writeLocs pasid ls bs) := by
  have hall : ∀ u : State, (u.writeAll pasid ls bs).out = u.out := by
    induction ls generalizing bs with
    | nil => exact fun u => rfl
    | cons l ls ih =>
      cases bs with
      | nil => exact fun u => rfl
      | cons b bs => exact fun u => (ih bs _).trans (out_writeLoc u pasid l b)
  refine OutGrows.trans ?_ (outGrows_discardNote _ _)
  exact .of_eq (hall s)

theorem outGrows_noteCommon (p dpa : Nat) : OutGrows s (s.noteCommon p dpa) := by
  unfold State.noteCommon
  split
  · refine .foldl (fun u n => ?_) _ s
    split
    · split
      · exact outGrows_setReg u _ _
      · exact outGrows_setReg u _ _
    · exact .refl u
  · exact .refl s

theorem outGrows_noteMet (p : Nat) (ms : List Met) : OutGrows s (s.noteMet p ms) := by
  have hrun : ∀ m, OutGrows s (s.noteRun p m) := fun m => by
    unfold State.noteRun
    split
    · exact outGrows_ras s _
    · exact .refl s
  refine (hrun _).trans (.foldl (fun u m => ?_) ms _)
  split
  · exact outGrows_noteCommon u p _
  · exact .refl u

theorem outGrows_noteIpa (p ipa n : Nat) (w : Bool) : OutGrows s (s.noteIpa p ipa n w) := by
  unfold State.noteIpa
  split
  · exact (outGrows_noteMet s p _).trans (.of_eq rfl)
  · exact .refl s

theorem outGrows_weirFault (p : Nat) (ctx : Option Nat) (f : XFault) (w : Bool) : OutGrows s (s.weirFault p ctx f w) := by
  have hlog : ∀ (u : State) (e : RasEntry), OutGrows u (if f.code == 8 then u.ras_ e else u) := fun u e => by
    split
    · exact outGrows_ras u e
    · exact .refl u
  have hpost : ∀ (u : State) (ws : List Word) (key : Nat), OutGrows u (if (ctx.isSome && u.posted.contains key) = true then u else
      if ((u.post 127 ws).2 && ctx.isSome) = true then
        { (u.post 127 ws).1 with posted := NSet.ins (u.post 127 ws).1.posted key } else (u.post 127 ws).1) := fun u ws key => by
    split
    · exact .refl u
    · split
      · exact (outGrows_post u _ _).trans (.of_eq rfl)
      · exact outGrows_post u _ _
  exact ((outGrows_noteMet s p _).trans (hlog _ _)).trans (hpost _ _ _)

theorem outGrows_tableFault (rule p : Nat) (f : XFault) (w : Bool) : OutGrows s (s.tableFault rule p f w) :=
  (outGrows_weirFault s p none f w).trans (outGrows_ras _ _)

theorem outGrows_failLaunch (k st : Nat) : OutGrows s (s.failLaunch k st) :=
  .of_eq (by rw [endsOnly_failLaunch s k st])
theorem outGrows_failCtx (ctx : Nat) : OutGrows s (s.failCtx ctx) := .of_eq (by rw [endsOnly_failCtx s ctx])

end

theorem outGrows_ipaWrite {s t : State} {p ipa : Nat} {bs : List Byte} (h : s.ipaWrite p ipa bs = .ok t) : OutGrows s t := by
  obtain ⟨x, -, h⟩ := exists_of_bind_eq_ok h
  dsimp only at h
  split at h
  · split at h
    · cases h
    · split at h
      · cases h
      · cases h
        exact (outGrows_noteIpa s _ _ _ _).trans (outGrows_writeLocs _ _ _ _)
  · cases h

/-! ### The end of RMOs (R189) -/

/-- `t` is `s` but for the end of RMOs: logs and records, and the launches, DMA commands, groups and contexts that fail with them. -/
def RmoEnds (s t : State) : Prop :=
  t = { s with
    regs := t.regs
    ras := t.ras
    hostMem := t.hostMem
    msix := t.msix
    heldRecs := t.heldRecs
    freeIx := t.freeIx
    out := t.out
    launches := t.launches
    switching := t.switching
    dma := t.dma
    groups := t.groups
    failed := t.failed
    rmo := t.rmo }

theorem RmoEnds.refl (s : State) : RmoEnds s s := rfl
theorem RmoEnds.trans {s t u : State} (h : RmoEnds s t) (k : RmoEnds t u) : RmoEnds s u := by
  unfold RmoEnds at *
  rw [k, h]
theorem LogsOnly.rmoEnds {s t : State} (h : LogsOnly s t) : RmoEnds s t := by
  unfold LogsOnly at h
  unfold RmoEnds
  rw [h]
theorem EndsOnly.rmoEnds {s t : State} (h : EndsOnly s t) : RmoEnds s t := by
  unfold EndsOnly at h
  unfold RmoEnds
  rw [h]

/-- Some RMOs end. -/
structure RmosEnd (s t : State) : Prop where
  only : RmoEnds s t
  regs : LogRegs s t
  out : OutGrows s t
  rmo : ∀ c ∈ t.rmo, c ∈ s.rmo

namespace RmosEnd
variable {s t u : State}

theorem refl (s : State) : RmosEnd s s := ⟨.refl s, .refl s, .refl s, fun _ h => h⟩
theorem trans (h : RmosEnd s t) (k : RmosEnd t u) : RmosEnd s u :=
  ⟨h.only.trans k.only, h.regs.trans k.regs, h.out.trans k.out, fun c hc => h.rmo c (k.rmo c hc)⟩
theorem foldl {α : Type} {f : State → α → State} (h : ∀ u x, RmosEnd u (f u x)) (xs : List α) (s : State) :
    RmosEnd s (xs.foldl f s) := by
  induction xs generalizing s with
  | nil => exact refl s
  | cons x xs ih => exact (h s x).trans (ih _)

theorem of_logs (h : LogsOnly s t) (hr : LogRegs s t) (ho : OutGrows s t) : RmosEnd s t :=
  ⟨h.rmoEnds, hr, ho, fun c hc => by rwa [h] at hc⟩
theorem of_ends (h : EndsOnly s t) : RmosEnd s t :=
  ⟨h.rmoEnds, .of_eq h.regs, .of_eq (by rw [h]), fun c hc => by rwa [h] at hc⟩

theorem sessions (h : RmosEnd s t) : t.sessions = s.sessions := by rw [h.only]
theorem txq (h : RmosEnd s t) : t.txq = s.txq := by rw [h.only]
theorem pool (h : RmosEnd s t) : t.pool = s.pool := by rw [h.only]
theorem heap (h : RmosEnd s t) : t.heap = s.heap := by rw [h.only]

end RmosEnd

section
variable (s : State)

theorem rmosEnd_ras (e : RasEntry) : RmosEnd s (s.ras_ e) := .of_logs (logsOnly_ras s e) (logRegs_ras s e) (outGrows_ras s e)

theorem rmosEnd_drop (f : RmoCmd → Bool) : RmosEnd s { s with rmo := s.rmo.filter f } :=
  ⟨rfl, .of_eq rfl, .of_eq rfl, fun _ hc => (List.mem_filter.mp hc).1⟩

theorem rmosEnd_failRmo (c : RmoCmd) (f : RmoFail) : RmosEnd s (s.failRmo c f) ∧ ∀ o ∈ (s.failRmo c f).rmo, o.id ≠ c.id := by
  unfold State.failRmo
  dsimp only
  generalize hu : ({ s with rmo := s.rmo.filter (fun o => o.id != c.id) } : State) = u
  have hdrop : RmosEnd s u := hu ▸ rmosEnd_drop s _
  have hgone : ∀ o ∈ u.rmo, o.id ≠ c.id := fun o ho => by
    rw [← hu] at ho
    simpa using (List.mem_filter.mp ho).2
  have hend : ∀ (p st l : Nat) (r : List Word), RmosEnd u ((u.post p r).1.failLaunch l st) := fun p st l r =>
    (RmosEnd.of_logs (logsOnly_post u p r) (logRegs_post u p r) (outGrows_post u p r)).trans (.of_ends (endsOnly_failLaunch _ l st))
  have key : ∀ v, RmosEnd u v → RmosEnd s v ∧ ∀ o ∈ v.rmo, o.id ≠ c.id := fun v h =>
    ⟨hdrop.trans h, fun o ho => hgone o (h.rmo o ho)⟩
  split
  · exact key _ ((hend _ _ _ _).trans ((rmosEnd_ras _ _).trans (.of_ends (endsOnly_failCtx _ _))))
  · exact key _ (hend _ _ _ _)

theorem rmosEnd_failRmoAs (c : RmoCmd) (code : Nat) : RmosEnd s (s.failRmoAs c code) := (rmosEnd_failRmo s c _).1

/-- The RMOs that meet a test all end. -/
theorem rmosEnd_failRmos (code : Nat) (p : RmoCmd → Bool) : RmosEnd s (s.failRmos code p) ∧
    ∀ o ∈ (s.failRmos code p).rmo, p o = false := by
  refine ⟨.foldl (fun u c => ?_) _ s, (cmdEnds_failRmos s code p).2⟩
  split
  · exact rmosEnd_failRmoAs u c code
  · exact .refl u

end

/-! ### Sessions -/

theorem State.find_modSess {s : State} {i : Nat} {x : Session} (f : Session → Session) (h : Map.find? s.sessions i = some x) :
    Map.find? (s.modSess i f).sessions i = some (f x) := Map.find?_modify_same h f

theorem State.find_putSess (s : State) (i : Nat) (x : Session) : Map.find? (s.putSess i x).sessions i = some x :=
  Map.find?_put_same _ _ _

/-! ### STATUS of a session (R285) -/

/-- A write of STATUS: memory, the caches of walks, and the logs change. -/
structure StatusKeeps (s t : State) : Prop where
  only : QueOnly s t
  regs : LogRegs s t
  out : OutGrows s t

namespace StatusKeeps
variable {s t u : State}

theorem refl (s : State) : StatusKeeps s s := ⟨.refl s, .refl s, .refl s⟩
theorem trans (h : StatusKeeps s t) (k : StatusKeeps t u) : StatusKeeps s u :=
  ⟨h.only.trans k.only, h.regs.trans k.regs, h.out.trans k.out⟩
theorem sessions (h : StatusKeeps s t) : t.sessions = s.sessions := by rw [h.only]
theorem rmo (h : StatusKeeps s t) : t.rmo = s.rmo := by rw [h.only]
theorem txq (h : StatusKeeps s t) : t.txq = s.txq := by rw [h.only]

end StatusKeeps

theorem statusKeeps_ras (s : State) (e : RasEntry) : StatusKeeps s (s.ras_ e) := ⟨queOnly_ras s e, logRegs_ras s e, outGrows_ras s e⟩

theorem statusKeeps_tableFault (s : State) (rule p : Nat) (f : XFault) (w : Bool) : StatusKeeps s (s.tableFault rule p f w) :=
  StatusKeeps.trans (⟨queOnly_weirFault s p none f w, logRegs_weirFault s p none f w, outGrows_weirFault s p none f w⟩ :
    StatusKeeps s (s.weirFault p none f w)) (statusKeeps_ras _ _)

theorem statusKeeps_ipaWrite {s t : State} {p ipa : Nat} {bs : List Byte} (h : s.ipaWrite p ipa bs = .ok t) : StatusKeeps s t :=
  ⟨queOnly_ipaWrite h, logRegs_ipaWrite s h, outGrows_ipaWrite h⟩

theorem statusKeeps_noteIpa (s : State) (p ipa n : Nat) (w : Bool) : StatusKeeps s (s.noteIpa p ipa n w) :=
  ⟨queOnly_noteIpa s p ipa n w, logRegs_noteIpa s p ipa n w, outGrows_noteIpa s p ipa n w⟩

theorem State.sessStatus_of_ok {s t : State} {i st : Nat} (act : State → State)
    (h : s.ipaWrite 127 (s.sessAddr i + 6) [BitVec.ofNat 8 st] = .ok t) : s.sessStatus i st act = act t := by
  unfold State.sessStatus
  rw [h]

theorem State.sessStatus_of_error {s : State} {i st : Nat} {f : XFault} (act : State → State)
    (h : s.ipaWrite 127 (s.sessAddr i + 6) [BitVec.ofNat 8 st] = .error f) :
    s.sessStatus i st act = if f.code = 10 then s else s.tableFault 285 127 f true := by
  unfold State.sessStatus
  rw [h]
  dsimp only
  by_cases hc : f.code = 10
  · rw [if_pos hc, if_pos (beq_iff_eq.mpr hc)]
  · rw [if_neg hc, if_neg (by simpa using hc)]

theorem statusKeeps_sessStatus (s : State) (i st : Nat) : StatusKeeps s (s.sessStatus i st (fun (t : State) => t)) := by
  cases h : s.ipaWrite 127 (s.sessAddr i + 6) [BitVec.ofNat 8 st] with
  | ok t =>
    rw [State.sessStatus_of_ok _ h]
    exact statusKeeps_ipaWrite h
  | error f =>
    rw [State.sessStatus_of_error _ h]
    split
    · exact .refl s
    · exact statusKeeps_tableFault _ _ _ _ _

/-- A session's STATUS is the protocol's whether or not the entry takes it. -/
theorem State.setSessSt_spec {s : State} {i : Nat} {x : Session} (st : Nat) (h : Map.find? s.sessions i = some x) :
    Map.find? (s.setSessSt i st).sessions i = some { x with st := st } ∧ (s.setSessSt i st).rmo = s.rmo ∧
    LogRegs s (s.setSessSt i st) ∧ OutGrows s (s.setSessSt i st) := by
  have hk := statusKeeps_sessStatus (s.modSess i (fun x => { x with st := st })) i st
  unfold State.setSessSt
  refine ⟨?_, hk.rmo, (LogRegs.of_eq rfl).trans hk.regs, (OutGrows.of_eq rfl).trans hk.out⟩
  rw [hk.sessions]
  exact State.find_modSess _ h

/-! ### Messages outside the rounds (R294) -/

/-- The message that a session's next sub-port carries outside the rounds. -/
def State.ctlMsg (s : State) (i : Nat) (ss : Session) (opc psn : Nat) (b : Body) (payload : List Byte) (n : Nat) : Msg :=
  s.mkMsg (if opc == 0x20 || opc == 0x22 then 0x12 else ss.version) opc ss.peer (if opc == 0x20 then 0 else ss.peerInc) ss.remoteSess i
    psn b payload (fin48 n)

theorem State.sendCtl_of_port {s : State} {i n : Nat} {ss : Session} (opc psn : Nat) (b : Body) (payload : List Byte)
    (h : Map.find? s.sessions i = some ss) (hn : nextAfter ss.rr (s.sessPorts ss) = some n) : s.sendCtl i opc psn b payload =
      (s.putSess i { ss with rr := n }).emit (.message (s.ctlMsg i ss opc psn b payload n)) := by
  unfold State.sendCtl
  rw [h]
  dsimp only
  rw [hn]
  rfl

theorem State.sendCtl_of_none {s : State} {i : Nat} {ss : Session} (opc psn : Nat) (b : Body) (payload : List Byte)
    (h : Map.find? s.sessions i = some ss) (hn : nextAfter ss.rr (s.sessPorts ss) = none) : s.sendCtl i opc psn b payload = s := by
  unfold State.sendCtl
  rw [h]
  dsimp only
  rw [hn]

theorem nextAfter_mem {last n : Nat} {l : List Nat} (h : nextAfter last l = some n) : n ∈ l := by
  unfold nextAfter at h
  split at h
  · next hf =>
    cases h
    exact List.mem_of_find?_eq_some hf
  · exact List.mem_of_mem_head? h

theorem nextAfter_eq_none {last : Nat} {l : List Nat} : nextAfter last l = none ↔ l = [] := by
  refine ⟨fun h => ?_, fun h => by rw [h]; rfl⟩
  unfold nextAfter at h
  split at h
  · cases h
  · exact List.head?_eq_none_iff.mp h

theorem State.sessPorts_lt {s : State} {ss : Session} {n : Nat} (h : n ∈ s.sessPorts ss) : n < 48 :=
  List.mem_range.mp (List.mem_filter.mp h).1

theorem State.mem_sessPorts {s : State} {ss : Session} {n : Nat} : n ∈ s.sessPorts ss ↔
    n < 48 ∧ bit (ss.entry.getD 4 0).toNat n = true ∧ s.subUp n = true := by
  unfold State.sessPorts
  rw [List.mem_filter, List.mem_range, Bool.and_eq_true]

/-- What a message names of its opcode, its destination, its PSN and its status. -/
theorem mkMsg_fields (s : State) (ver opc node dinc dsess ssess psn : Nat) (b : Body) (payload : List Byte) (sub : Fin 48)
    (hopc : opc < 256) (hnode : node < 65536) (hlen : payload.length < 65536) :
    (s.mkMsg ver opc node dinc dsess ssess psn b payload sub).opc = opc ∧
    (s.mkMsg ver opc node dinc dsess ssess psn b payload sub).dstNode = node ∧
    (s.mkMsg ver opc node dinc dsess ssess psn b payload sub).psn = psn % 2 ^ 24 ∧
    (s.mkMsg ver opc node dinc dsess ssess psn b payload sub).subport = sub := by
  have hid : s.nodeId < 2 ^ (15 + 1 - 0) := Nat.mod_lt _ (Nat.two_pow_pos _)
  unfold State.mkMsg Msg.opc Msg.dstNode Msg.psn fld
  generalize s.nodeId = id at hid
  generalize payload.length = len at hlen
  simp only [BitVec.toNat_ofNat, and_true]
  refine ⟨?_, ?_, ?_⟩
  · omega
  · omega
  · omega

theorem mkMsg_status (s : State) (ver opc node dinc dsess ssess psn : Nat) (b : Body) (payload : List Byte) (sub : Fin 48)
    (hst : b.status < 256) : (s.mkMsg ver opc node dinc dsess ssess psn b payload sub).status = b.status := by
  unfold State.mkMsg Msg.status fld
  simp only [BitVec.toNat_ofNat]
  omega

theorem length_leBytes (v n : Nat) : (leBytes v n).length = n := by
  induction n generalizing v with
  | zero => rfl
  | succ n ih => exact congrArg Nat.succ (ih _)

/-- A session without a sub-port sends nothing; one with a sub-port sends the message and moves on to it. -/
theorem State.sendCtl_spec {s : State} {i : Nat} {ss : Session} (opc psn : Nat) (b : Body) (payload : List Byte)
    (h : Map.find? s.sessions i = some ss) (hopc : opc < 256) (hlen : payload.length < 65536) :
    (s.sessPorts ss = [] → s.sendCtl i opc psn b payload = s) ∧
    (∃ rr, Map.find? (s.sendCtl i opc psn b payload).sessions i = some { ss with rr := rr }) ∧
    (s.sendCtl i opc psn b payload).rmo = s.rmo ∧ (s.sendCtl i opc psn b payload).regs = s.regs ∧
    OutGrows s (s.sendCtl i opc psn b payload) ∧
    (ss.peer < 65536 → ∀ n, nextAfter ss.rr (s.sessPorts ss) = some n → ∃ m : Msg,
      (s.sendCtl i opc psn b payload).out = .message m :: s.out ∧ m.opc = opc ∧ m.subport.val = n ∧ m.dstNode = ss.peer ∧
      m.psn = psn % 2 ^ 24) := by
  cases hn : nextAfter ss.rr (s.sessPorts ss) with
  | none =>
    rw [State.sendCtl_of_none _ _ _ _ h hn]
    exact ⟨fun _ => rfl, ⟨ss.rr, h⟩, rfl, rfl, .refl s, fun _ n hn' => absurd hn' (by simp)⟩
  | some n =>
    rw [State.sendCtl_of_port _ _ _ _ h hn]
    refine ⟨fun he => ?_, ⟨n, State.find_putSess _ _ _⟩, rfl, rfl, outGrows_emit _ _, fun hp n' hn' => ?_⟩
    · rw [nextAfter_eq_none.mpr he] at hn
      cases hn
    · cases hn'
      have hlt := State.sessPorts_lt (nextAfter_mem hn)
      obtain ⟨h1, h2, h3, h4⟩ := mkMsg_fields s (if opc == 0x20 || opc == 0x22 then 0x12 else ss.version) opc ss.peer
        (if opc == 0x20 then 0 else ss.peerInc) ss.remoteSess i psn b payload (fin48 n) hopc hp hlen
      refine ⟨s.ctlMsg i ss opc psn b payload n, rfl, h1, ?_, h2, h3⟩
      exact (congrArg Fin.val h4).trans (Nat.mod_eq_of_lt hlt)

/-! ### Transmission (R290, R294) -/

/-- What sending on session `i` keeps: all but the session's numbers and queues, the transmit queues, and RMOs. -/
structure PumpKeeps (i : Nat) (s t : State) : Prop where
  only : RmoEnds { s with sessions := t.sessions, txq := t.txq } t
  regs : LogRegs s t
  out : OutGrows s t
  txq : ∀ n, ∃ ext, Map.getD t.txq n [] = Map.getD s.txq n [] ++ ext
  sess : ∀ x, Map.find? s.sessions i = some x → ∃ y, Map.find? t.sessions i = some y ∧
    y = { x with sent := y.sent, waiting := y.waiting, sndPsn := y.sndPsn, rr := y.rr }

namespace PumpKeeps
variable {i : Nat} {s t u : State}

theorem refl (i : Nat) (s : State) : PumpKeeps i s s :=
  ⟨rfl, .refl s, .refl s, fun _ => ⟨[], (List.append_nil _).symm⟩, fun x hx => ⟨x, hx, rfl⟩⟩

theorem trans (h : PumpKeeps i s t) (k : PumpKeeps i t u) : PumpKeeps i s u := by
  refine ⟨?_, h.regs.trans k.regs, h.out.trans k.out, fun n => ?_, fun x hx => ?_⟩
  · have h1 := h.only
    have h2 := k.only
    unfold RmoEnds at *
    rw [h2, h1]
  · obtain ⟨e1, h1⟩ := h.txq n
    obtain ⟨e2, h2⟩ := k.txq n
    exact ⟨e1 ++ e2, by rw [h2, h1, List.append_assoc]⟩
  · obtain ⟨y, hy, hxy⟩ := h.sess x hx
    obtain ⟨z, hz, hyz⟩ := k.sess y hy
    refine ⟨z, hz, ?_⟩
    rw [hyz, hxy]

theorem of_ends (i : Nat) (h : RmosEnd s t) : PumpKeeps i s t := by
  refine ⟨?_, h.regs, h.out, fun n => ⟨[], by rw [h.txq, List.append_nil]⟩, fun x hx => ⟨x, by rw [h.sessions]; exact hx, rfl⟩⟩
  have ho := h.only
  unfold RmoEnds at *
  rw [ho]

theorem pool (h : PumpKeeps i s t) : t.pool = s.pool := by rw [h.only]
theorem heap (h : PumpKeeps i s t) : t.heap = s.heap := by rw [h.only]
theorem deficits (h : PumpKeeps i s t) : t.deficits = s.deficits := by rw [h.only]
theorem adopted (h : PumpKeeps i s t) : t.adopted = s.adopted := by rw [h.only]

end PumpKeeps

theorem pumpKeeps_putRmo (i : Nat) (s : State) (c : RmoCmd) : PumpKeeps i s (s.putRmo c) :=
  ⟨rfl, .of_eq rfl, .of_eq rfl, fun _ => ⟨[], (List.append_nil _).symm⟩, fun x hx => ⟨x, hx, rfl⟩⟩

theorem pumpKeeps_waiting (i : Nat) (s : State) (l : List Msg) : PumpKeeps i s (s.modSess i (fun x => { x with waiting := l })) :=
  ⟨rfl, .of_eq rfl, .of_eq rfl, fun _ => ⟨[], (List.append_nil _).symm⟩, fun _ hx => ⟨_, State.find_modSess _ hx, rfl⟩⟩

theorem State.sendSeq_keeps {s t : State} {i opc : Nat} {b : Body} {payload : List Byte} (h : s.sendSeq i opc b payload = some t) :
    PumpKeeps i s t := by
  unfold State.sendSeq at h
  split at h
  · cases h
  next ss hss =>
    split at h
    · cases h
    · split at h
      · cases h
      next n hn =>
        cases h
        refine ⟨rfl, .of_eq rfl, .of_eq rfl, fun k => ?_, fun x hx => ⟨_, State.find_putSess _ _ _, ?_⟩⟩
        · unfold State.putSess Map.getD
          dsimp only
          by_cases hk : k = n
          · subst hk
            rw [Map.find?_put_same]
            exact ⟨_, rfl⟩
          · rw [Map.find?_put_other _ _ hk]
            exact ⟨[], (List.append_nil _).symm⟩
        · cases hss.symm.trans hx
          rfl

theorem State.sendNext_keeps {s t : State} {i : Nat} {ss : Session} {c : RmoCmd} (h : s.sendNext i ss c = .more t) : PumpKeeps i s t := by
  unfold State.sendNext at h
  split at h
  · cases h
  · split at h
    · cases h
      exact .of_ends i (rmosEnd_failRmoAs s c 9)
    · split at h
      · cases h
        exact pumpKeeps_putRmo i s _
      · cases h
        exact .of_ends i (rmosEnd_failRmo s c _).1
      · dsimp only at h
        split at h
        · cases h
        next u hu =>
          cases h
          exact (State.sendSeq_keeps hu).trans (pumpKeeps_putRmo i u _)

theorem pumpKeeps_pump (i : Nat) (s : State) (f : Nat) : PumpKeeps i s (s.pump i f) := by
  induction f generalizing s with
  | zero => exact .refl i s
  | succ f ih =>
    unfold State.pump
    split
    · exact .refl i s
    · split
      · exact .refl i s
      · split
        · dsimp only
          split
          · exact .refl i s
          next u hu => exact ((State.sendSeq_keeps hu).trans (pumpKeeps_waiting i u _)).trans (ih _)
        · split
          · exact .refl i s
          · split
            · exact .refl i s
            next u hu => exact (State.sendNext_keeps hu).trans (ih _)

theorem pumpKeeps_pumpAll (i : Nat) (s : State) : PumpKeeps i s (s.pumpAll i) := pumpKeeps_pump i s 16384

theorem State.mem_out_of_message {s t : State} (h : OutGrows s t) {m : Msg} {l : List Out} (hs : s.out = .message m :: l) :
    Out.message m ∈ t.out := h _ (by rw [hs]; exact List.mem_cons_self)

end Sys2Proof.Machine

/-! Proofs: the link ports: control, sub-ports, the network identity, and frames that are dropped (R278 to R284). -/

namespace Sys2Proof.Machine

/-! ### The registers of the ports -/

theorem Reg.portKeys (k : Nat) : Reg.key (.lnkPortCtl k) = 0x5010000 + k * 0x1000 ∧ Reg.key (.lnkPortSts k) = 0x5010008 + k * 0x1000 ∧
    Reg.key (.lnkFecUnc k) = 0x5010018 + k * 0x1000 ∧ Reg.key (.lnkRxDrop k) = 0x5010020 + k * 0x1000 := ⟨rfl, rfl, rfl, rfl⟩

theorem Reg.portKeys_log (k : Nat) : Reg.key (.lnkPortCtl k) ∉ rasKeys := by
  rw [(Reg.portKeys k).1]
  unfold rasKeys
  simp only [Reg.key, List.mem_cons, List.not_mem_nil, or_false]
  omega

theorem Reg.portCtl_ne_sts (k j : Nat) : Reg.key (.lnkPortCtl k) ≠ Reg.key (.lnkPortSts j) := by
  rw [(Reg.portKeys k).1, (Reg.portKeys j).2.1]
  omega

theorem Reg.portSts_ne {k j : Nat} (h : k ≠ j) : Reg.key (.lnkPortSts k) ≠ Reg.key (.lnkPortSts j) := by
  rw [(Reg.portKeys k).2.1, (Reg.portKeys j).2.1]
  omega

theorem State.subUp_congr {s t : State} {n : Nat} (h : t.reg (.lnkPortSts (n / 4)) = s.reg (.lnkPortSts (n / 4))) :
    t.subUp n = s.subUp n := by
  unfold State.subUp
  rw [State.rf_congr h]

theorem State.txq_setRf (s : State) (r : Reg) (hi lo v : Nat) : (s.setRf r hi lo v).txq = s.txq := rfl
theorem State.ras_setRf (s : State) (r : Reg) (hi lo v : Nat) : (s.setRf r hi lo v).ras = s.ras := rfl

/-! ### A sub-port goes down (R280) -/

/-- The status register of a sub-port's port once the sub-port is down. -/
def State.unlock (s : State) (n : Nat) : State :=
  (s.setRf (.lnkPortSts (n / 4)) (24 + n % 4) (24 + n % 4) 0).setRf (.lnkPortSts (n / 4)) 23 16
    (s.rf (.lnkPortSts (n / 4)) 23 16 - (s.rf (.lnkPortSts (n / 4)) 23 16 &&& s.subLanes n))

theorem State.unlock_spec (s : State) (n : Nat) : RegsOnly s (s.unlock n) ∧ (s.unlock n).subUp n = false ∧
    (∀ j, j ≠ n → (s.unlock n).subUp j = s.subUp j) ∧
    ∀ q : Reg, q.key ≠ Reg.key (.lnkPortSts (n / 4)) → (s.unlock n).reg q = s.reg q := by
  have hbit : ∀ (r : Reg) (b c : Nat) (v : Nat), 24 ≤ c →
      ((s.setRf r (24 + b) (24 + b) 0).setRf r 23 16 v).rf r c c = if c = 24 + b then 0 else s.rf r c c := fun r b c v hc => by
    rw [State.rf_setRf_other _ _ _ (by norm_num) (.inr (by omega))]
    by_cases h : c = 24 + b
    · rw [if_pos h, h, State.rf_setRf_same _ _ _ (le_refl _)]
      exact Nat.zero_mod _
    · rw [if_neg h, State.rf_setRf_other _ _ _ (le_refl _) (by omega)]
  have hoff : ∀ q : Reg, q.key ≠ Reg.key (.lnkPortSts (n / 4)) → (s.unlock n).reg q = s.reg q := fun q hq => by
    unfold State.unlock
    rw [State.reg_setRf_of_ne _ _ _ _ hq, State.reg_setRf_of_ne _ _ _ _ hq]
  refine ⟨(regsOnly_setRf _ _ _ _ _).trans (regsOnly_setRf _ _ _ _ _), ?_, fun j hj => ?_, hoff⟩
  · unfold State.subUp State.unlock
    rw [hbit _ _ _ _ (by omega), if_pos rfl]
    rfl
  · by_cases hk : j / 4 = n / 4
    · unfold State.subUp State.unlock
      rw [hk, hbit _ _ _ _ (by omega), if_neg (by omega)]
    · exact State.subUp_congr (hoff _ (Reg.portSts_ne hk))

theorem State.subDown_eq (s : State) (n : Nat) : s.subDown n = { s.unlock n with txq := Map.drop s.txq n } := rfl

theorem State.subUp_txq (s : State) (q : Map (List (Nat × Msg))) (n : Nat) : State.subUp { s with txq := q } n = s.subUp n := rfl
theorem State.reg_txq (s : State) (q : Map (List (Nat × Msg))) (r : Reg) : State.reg { s with txq := q } r = s.reg r := rfl

theorem State.subDown_spec (s : State) (n : Nat) : (s.subDown n).subUp n = false ∧ Map.find? (s.subDown n).txq n = none ∧
    (∀ j, j ≠ n → (s.subDown n).subUp j = s.subUp j ∧ Map.find? (s.subDown n).txq j = Map.find? s.txq j) ∧
    (∀ q : Reg, q.key ≠ Reg.key (.lnkPortSts (n / 4)) → (s.subDown n).reg q = s.reg q) ∧ (s.subDown n).ras = s.ras := by
  obtain ⟨h1, h2, h3, h4⟩ := s.unlock_spec n
  rw [State.subDown_eq]
  generalize s.unlock n = u at h1 h2 h3 h4
  have hras : u.ras = s.ras := by rw [h1]
  exact ⟨(State.subUp_txq _ _ _).trans h2, Map.find?_drop_same _ _,
    fun j hj => ⟨(State.subUp_txq _ _ _).trans (h3 j hj), Map.find?_drop_other _ hj⟩,
    fun q hq => (State.reg_txq _ _ _).trans (h4 q hq), hras⟩

/-- All four sub-ports of a port go down. -/
theorem State.subDowns_spec (s : State) (k : Nat) :
    let t := (List.range 4).foldl (fun (t : State) j => t.subDown (k * 4 + j)) s
    (∀ j, j < 4 → t.subUp (k * 4 + j) = false ∧ Map.find? t.txq (k * 4 + j) = none) ∧
    (∀ q : Reg, q.key ≠ Reg.key (.lnkPortSts k) → t.reg q = s.reg q) ∧ t.ras = s.ras := by
  refine ⟨fun j hj => ?_, fun q hq => ?_, ?_⟩
  · refine foldl_of_mem (P := fun u : State => u.subUp (k * 4 + j) = false ∧ Map.find? u.txq (k * 4 + j) = none) (x := j)
      (fun u i hu => ?_) (fun u => ?_) _ _ (List.mem_range.mpr hj)
    · obtain ⟨h1, h2, h3, -⟩ := u.subDown_spec (k * 4 + i)
      by_cases h : k * 4 + j = k * 4 + i
      · rw [h]
        exact ⟨h1, h2⟩
      · obtain ⟨h4, h5⟩ := h3 _ h
        exact ⟨h4.trans hu.1, h5.trans hu.2⟩
    · obtain ⟨h1, h2, -⟩ := u.subDown_spec (k * 4 + j)
      exact ⟨h1, h2⟩
  · have hstep : ∀ (l : List Nat) (u : State), (∀ j ∈ l, j < 4) → (l.foldl (fun (t : State) j => t.subDown (k * 4 + j)) u).reg q = u.reg q := by
      intro l
      induction l with
      | nil => exact fun _ _ => rfl
      | cons j l ih =>
        intro u hl
        obtain ⟨-, -, -, h4, -⟩ := u.subDown_spec (k * 4 + j)
        have hj := hl j List.mem_cons_self
        rw [List.foldl_cons, ih _ (fun i hi => hl i (List.mem_cons_of_mem _ hi))]
        exact h4 q (by rw [show (k * 4 + j) / 4 = k by omega]; exact hq)
    exact hstep _ s fun j hj => List.mem_range.mp hj
  · exact foldl_keeps (P := fun u : State => u.ras = s.ras) (fun u j hu => (u.subDown_spec _).2.2.2.2.trans hu) _ s rfl

/-! ### Port control (R280) -/

/-- SPLIT and MEDIA after a write of a port's control: they change only while ENABLE is 0. -/
def State.portShaped (s : State) (k split media : Nat) : State :=
  if s.rf (.lnkPortCtl k) 0 0 == 1 then
    (if split != s.rf (.lnkPortCtl k) 3 2 || media != s.rf (.lnkPortCtl k) 5 4 then s.accessError 280 0 (Reg.key (.lnkPortCtl k)) else s)
  else (s.setRf (.lnkPortCtl k) 3 2 split).setRf (.lnkPortCtl k) 5 4 media

theorem State.portShaped_spec (s : State) {k split media : Nat} (hs : split < 4) (hm : media < 4) :
    (s.rf (.lnkPortCtl k) 0 0 ≠ 1 → (s.portShaped k split media).rf (.lnkPortCtl k) 3 2 = split ∧
      (s.portShaped k split media).rf (.lnkPortCtl k) 5 4 = media ∧ (s.portShaped k split media).ras = s.ras) ∧
    (s.rf (.lnkPortCtl k) 0 0 = 1 → (s.portShaped k split media).reg (.lnkPortCtl k) = s.reg (.lnkPortCtl k) ∧
      (split = s.rf (.lnkPortCtl k) 3 2 → media = s.rf (.lnkPortCtl k) 5 4 → s.portShaped k split media = s)) := by
  unfold State.portShaped
  refine ⟨fun h => ?_, fun h => ?_⟩
  · rw [if_neg (by simpa using h)]
    refine ⟨?_, State.rf_setRf_of_lt _ _ (by norm_num) (by norm_num; exact hm), ?_⟩
    · rw [State.rf_setRf_other _ _ _ (by norm_num) (.inl (by norm_num))]
      exact State.rf_setRf_of_lt _ _ (by norm_num) (by norm_num; exact hs)
    · rw [State.ras_setRf, State.ras_setRf]
  · rw [if_pos (beq_iff_eq.mpr h)]
    refine ⟨?_, fun h1 h2 => if_neg (by simp [h1, h2])⟩
    split
    · exact State.reg_ras _ _ (Reg.portKeys_log k)
    · rfl

/-- SPLIT or MEDIA as a write asks for it: 3 keeps the value. -/
def askedField (v old : Nat) : Nat := if v == 3 then old else v

theorem askedField_eq (v old : Nat) : askedField v old = if v = 3 then old else v := by
  unfold askedField
  by_cases h : v = 3
  · rw [if_pos h, if_pos (beq_iff_eq.mpr h)]
  · rw [if_neg h, if_neg (by simpa using h)]

theorem askedField_lt {v old : Nat} (hv : v < 4) (ho : old < 4) : askedField v old < 4 := by
  unfold askedField
  split <;> assumption

/-- Sub-ports after a write of a port's control. -/
def State.portDowned (s t : State) (k v : Nat) : State :=
  if s.rf (.lnkPortCtl k) 0 0 == 1 && fld v 0 0 == 0 then (List.range 4).foldl (fun t j => t.subDown (k * 4 + j)) t else t

theorem State.portDowned_spec (s t : State) (k v : Nat) : (s.portDowned t k v).reg (.lnkPortCtl k) = t.reg (.lnkPortCtl k) ∧
    (s.portDowned t k v).ras = t.ras ∧
    (s.rf (.lnkPortCtl k) 0 0 = 1 → fld v 0 0 = 0 →
      ∀ j, j < 4 → (s.portDowned t k v).subUp (k * 4 + j) = false ∧ Map.find? (s.portDowned t k v).txq (k * 4 + j) = none) := by
  obtain ⟨h1, h2, h3⟩ := t.subDowns_spec k
  unfold State.portDowned
  split
  · exact ⟨h2 _ (Reg.portCtl_ne_sts k k), h3, fun _ _ => h1⟩
  · rename_i hc
    exact ⟨rfl, rfl, fun ha hb => absurd (by simp [ha, hb]) hc⟩

theorem exec_portControlWrite (k : Fin 12) (val : BitVec 32) (s : State) : exec (.portControlWrite k val) s =
    .next ((s.portDowned (s.portShaped k.val (askedField (fld val.toNat 3 2) (s.rf (.lnkPortCtl k.val) 3 2))
      (askedField (fld val.toNat 5 4) (s.rf (.lnkPortCtl k.val) 5 4))) k.val val.toNat).setRf (.lnkPortCtl k.val) 0 0 (fld val.toNat 0 0)) := by
  have hexec : exec (.portControlWrite k val) s = execPortControlWrite k val s := rfl
  rw [hexec]
  unfold execPortControlWrite State.portDowned State.portShaped askedField
  dsimp only

theorem portControlWrite_spec (s : State) (k : Fin 12) (val : BitVec 32) :
    let r := Reg.lnkPortCtl k.val
    let v := val.toNat
    let split := if fld v 3 2 = 3 then s.rf r 3 2 else fld v 3 2
    let media := if fld v 5 4 = 3 then s.rf r 5 4 else fld v 5 4
    ∃ t : State, exec (.portControlWrite k val) s = .next t ∧ t.rf r 0 0 = fld v 0 0 ∧
      (s.rf r 0 0 = 0 → t.rf r 3 2 = split ∧ t.rf r 5 4 = media ∧ t.ras = s.ras) ∧
      (s.rf r 0 0 = 1 → t.rf r 3 2 = s.rf r 3 2 ∧ t.rf r 5 4 = s.rf r 5 4 ∧
        (split = s.rf r 3 2 → media = s.rf r 5 4 → t.ras = s.ras) ∧
        (fld v 0 0 = 0 → ∀ j, j < 4 → t.subUp (k.val * 4 + j) = false ∧ Map.find? t.txq (k.val * 4 + j) = none)) := by
  dsimp only
  rw [exec_portControlWrite, ← askedField_eq, ← askedField_eq]
  generalize hsp : askedField (fld val.toNat 3 2) (s.rf (.lnkPortCtl k.val) 3 2) = split
  generalize hme : askedField (fld val.toNat 5 4) (s.rf (.lnkPortCtl k.val) 5 4) = media
  have hs : split < 4 := hsp ▸ askedField_lt (Nat.mod_lt _ (by norm_num)) (Nat.mod_lt _ (by norm_num))
  have hm : media < 4 := hme ▸ askedField_lt (Nat.mod_lt _ (by norm_num)) (Nat.mod_lt _ (by norm_num))
  obtain ⟨hoff, hon⟩ := s.portShaped_spec (k := k.val) hs hm
  obtain ⟨d1, d2, d3⟩ := s.portDowned_spec (s.portShaped k.val split media) k.val val.toNat
  have hras : split = s.rf (.lnkPortCtl k.val) 3 2 → media = s.rf (.lnkPortCtl k.val) 5 4 → s.rf (.lnkPortCtl k.val) 0 0 = 1 →
      (s.portShaped k.val split media).ras = s.ras := fun h1 h2 h0 => by rw [(hon h0).2 h1 h2]
  generalize s.portDowned (s.portShaped k.val split media) k.val val.toNat = u at d1 d2 d3
  generalize s.portShaped k.val split media = w at hoff hon d1 d2 hras
  have hother : ∀ hi lo, 0 < lo → (u.setRf (.lnkPortCtl k.val) 0 0 (fld val.toNat 0 0)).rf (.lnkPortCtl k.val) hi lo =
      w.rf (.lnkPortCtl k.val) hi lo := fun hi lo h => by
    rw [State.rf_setRf_other _ _ _ (le_refl 0) (.inr h), State.rf_congr d1]
  have hup : ∀ n, (u.setRf (.lnkPortCtl k.val) 0 0 (fld val.toNat 0 0)).subUp n = u.subUp n := fun n =>
    State.subUp_congr (State.reg_setRf_of_ne _ _ _ _ (Reg.portCtl_ne_sts _ _).symm)
  refine ⟨_, rfl, State.rf_setRf_of_lt _ _ (le_refl 0) (Nat.mod_lt _ (Nat.two_pow_pos _)), fun h0 => ?_, fun h1 => ?_⟩
  · obtain ⟨a1, a2, a3⟩ := hoff (by rw [h0]; norm_num)
    exact ⟨(hother _ _ (by norm_num)).trans a1, (hother _ _ (by norm_num)).trans a2, (State.ras_setRf _ _ _ _ _).trans (d2.trans a3)⟩
  · obtain ⟨b1, -⟩ := hon h1
    refine ⟨(hother _ _ (by norm_num)).trans (State.rf_congr b1 _ _), (hother _ _ (by norm_num)).trans (State.rf_congr b1 _ _),
      fun e1 e2 => (State.ras_setRf _ _ _ _ _).trans (d2.trans (hras e1 e2 h1)), fun h j hj => ?_⟩
    obtain ⟨c1, c2⟩ := d3 h1 h j hj
    exact ⟨(hup _).trans c1, c2⟩

/-! ### Sub-ports (R279, R280) -/

theorem State.subLanes_lt {s : State} {n : Nat} (h : s.subValid n = true) : s.subLanes n < 256 := by
  unfold State.subValid at h
  unfold State.subLanes
  have hs : s.rf (.lnkPortCtl (n / 4)) 3 2 < 2 ^ (3 + 1 - 2) := Nat.mod_lt _ (Nat.two_pow_pos _)
  have hn : n % 4 < 4 := Nat.mod_lt _ (by norm_num)
  generalize s.rf (.lnkPortCtl (n / 4)) 3 2 = p at h hs
  generalize n % 4 = q at h hn
  have hall : ∀ p < 4, ∀ q < 4, q < 2 ^ p → (2 ^ (8 / 2 ^ p) - 1) * 2 ^ (8 / 2 ^ p * q) < 256 := by decide
  exact hall p hs q hn (of_decide_eq_true h)

theorem subportLinkUp_spec {s : State} {n : Fin 48} (h1 : s.rf (.lnkPortCtl (n.val / 4)) 0 0 = 1) (h2 : s.subValid n.val = true)
    (h3 : s.subUp n.val = false) (h4 : s.readyFn (20 + n.val / 4) = true) :
    ∃ t : State, exec (.subportLinkUp n) s = .next t ∧ t.subUp n.val = true ∧
      t.rf (.lnkPortSts (n.val / 4)) 23 16 = s.rf (.lnkPortSts (n.val / 4)) 23 16 ||| s.subLanes n.val := by
  have hexec : exec (.subportLinkUp n) s = execSubportLinkUp n s := rfl
  rw [hexec]
  unfold execSubportLinkUp
  dsimp only
  rw [if_pos (by simp [h1, h2, h3, h4])]
  have hlock : s.rf (.lnkPortSts (n.val / 4)) 23 16 < 2 ^ (23 + 1 - 16) := Nat.mod_lt _ (Nat.two_pow_pos _)
  refine ⟨_, rfl, ?_, State.rf_setRf_of_lt _ _ (by norm_num) (Nat.or_lt_two_pow hlock (State.subLanes_lt h2))⟩
  unfold State.subUp
  rw [State.rf_setRf_other _ _ _ (by norm_num) (.inr (by omega)), State.rf_setRf_same _ _ _ (le_refl _)]
  rw [show 24 + n.val % 4 + 1 - (24 + n.val % 4) = 1 by omega]
  rfl

theorem subportLinkDown_spec {s : State} {n : Fin 48} (h : s.subUp n.val = true) :
    ∃ t : State, exec (.subportLinkDown n) s = .next t ∧ t.subUp n.val = false ∧ Map.find? t.txq n.val = none ∧
      ∀ j : Fin 48, j ≠ n → t.subUp j.val = s.subUp j.val := by
  have hexec : exec (.subportLinkDown n) s = execSubportLinkDown n s := rfl
  rw [hexec]
  unfold execSubportLinkDown
  rw [if_pos h]
  obtain ⟨h1, h2, h3, -⟩ := s.subDown_spec n.val
  exact ⟨_, rfl, h1, h2, fun j hj => (h3 j.val fun he => hj (Fin.ext he)).1⟩

/-! ### The identity of the node (R281) -/

theorem identityReg_eq : identityReg 0 = .lnkNode ∧ identityReg 1 = .lnkEncap ∧ identityReg 2 = .lnkIp6Hi ∧ identityReg 3 = .lnkIp6Lo :=
  ⟨rfl, rfl, rfl, rfl⟩

theorem identityReg_names (i : Fin 4) : (identityReg i).fields.any (fun f => f.acc == .rw && f.lo ≤ 63 && 0 ≤ f.hi) = true := by
  revert i
  decide

theorem exec_linkIdentityWrite (i : Fin 4) (val : BitVec 64) (s : State) : exec (.linkIdentityWrite i val) s =
    .next (if s.sessions.any (fun kv => kv.2.st == 0 || kv.2.st == 2) then s.accessError 281 0 (identityReg i).key
      else s.setReg (identityReg i) ((identityReg i).written 63 0 (s.reg (identityReg i)) val.toNat)) := by
  have hexec : exec (.linkIdentityWrite i val) s = .next (s.writeIdentity (identityReg i) 63 0 val.toNat) := rfl
  rw [hexec]
  unfold State.writeIdentity
  dsimp only
  rw [identityReg_names, Bool.true_and]

theorem State.sessions_setReg (s : State) (r : Reg) (v : Nat) : (s.setReg r v).sessions = s.sessions := rfl

/-- The fields of an identity register that a write of the whole register sets. -/
theorem State.rf_written {s : State} {r : Reg} {fs : List Field} (hfs : r.fields = fs) (v : Nat)
    (hrw : ∀ f ∈ fs, f.acc = .rw ∧ f.lo ≤ f.hi ∧ f.hi ≤ 63) (hd : fs.Pairwise (fun f g => f.hi < g.lo ∨ g.hi < f.lo))
    {f : Field} (hf : f ∈ fs) : (s.setReg r (r.written 63 0 (s.reg r) v)).rf r f.hi f.lo = fld v f.hi f.lo := by
  unfold State.rf Reg.written
  rw [State.reg_setReg_same, hfs]
  exact fld_foldl_write v fs hrw hd _ hf

theorem State.node_written (s : State) (v : Nat) : (s.setReg .lnkNode (Reg.lnkNode.written 63 0 (s.reg .lnkNode) v)).nodeId = fld v 15 0 ∧
    (s.setReg .lnkNode (Reg.lnkNode.written 63 0 (s.reg .lnkNode) v)).incarnation = s.incarnation := by
  have hw : Reg.lnkNode.written 63 0 (s.reg .lnkNode) v = setFld (s.reg .lnkNode) 15 0 (fld v 15 0) := by
    have hfs : Reg.lnkNode.fields = [⟨63, 32, .ro, 0, .w⟩, ⟨15, 0, .rw, 0, .w⟩] := rfl
    unfold Reg.written
    rw [hfs, List.foldl_cons, List.foldl_cons, List.foldl_nil, Field.write_rw _ _ _ _ _ _ (by norm_num) (by norm_num)]
    rfl
  unfold State.nodeId State.incarnation State.rf
  rw [State.reg_setReg_same, hw]
  refine ⟨?_, fld_setFld_other _ _ (by norm_num) (.inr (by norm_num))⟩
  rw [fld_setFld_same _ _ (by norm_num)]
  exact Nat.mod_eq_of_lt (Nat.mod_lt _ (Nat.two_pow_pos _))

theorem linkIdentityWrite_spec (s : State) (i : Fin 4) (val : BitVec 64) :
    ((∃ x ∈ s.sessions, x.2.st = 0 ∨ x.2.st = 2) →
      exec (.linkIdentityWrite i val) s = .next (s.accessError 281 0 (identityReg i).key)) ∧
    ((∀ x ∈ s.sessions, x.2.st ≠ 0 ∧ x.2.st ≠ 2) →
      ∃ t : State, exec (.linkIdentityWrite i val) s = .next t ∧ t.sessions = s.sessions ∧
        (i = 0 → t.nodeId = fld val.toNat 15 0 ∧ t.incarnation = s.incarnation) ∧
        (i = 1 → t.rf .lnkEncap 31 16 = fld val.toNat 31 16 ∧ t.rf .lnkEncap 15 0 = fld val.toNat 15 0) ∧
        (i = 2 → t.rf .lnkIp6Hi 63 0 = val.toNat) ∧ (i = 3 → t.rf .lnkIp6Lo 63 0 = val.toNat)) := by
  have hany : s.sessions.any (fun kv => kv.2.st == 0 || kv.2.st == 2) = true ↔ ∃ x ∈ s.sessions, x.2.st = 0 ∨ x.2.st = 2 := by
    simp only [List.any_eq_true, Bool.or_eq_true, beq_iff_eq]
  have hval : fld val.toNat 63 0 = val.toNat := by
    have := val.isLt
    unfold fld
    omega
  obtain ⟨e0, e1, e2, e3⟩ := identityReg_eq
  rw [exec_linkIdentityWrite]
  refine ⟨fun h => by rw [if_pos (hany.mpr h)], fun h => ?_⟩
  rw [if_neg (fun ha => by obtain ⟨x, hx, hst⟩ := hany.mp ha; exact hst.elim (h x hx).1 (h x hx).2)]
  refine ⟨_, rfl, State.sessions_setReg _ _ _, fun hi => ?_, fun hi => ?_, fun hi => ?_, fun hi => ?_⟩
  · rw [hi, e0]
    exact s.node_written _
  · rw [hi, e1]
    exact ⟨State.rf_written (fs := [⟨31, 16, .rw, 0xd020, .w⟩, ⟨15, 0, .rw, 0x88b5, .w⟩]) rfl _ (by decide) (by decide)
        (f := ⟨31, 16, .rw, 0xd020, .w⟩) List.mem_cons_self,
      State.rf_written (fs := [⟨31, 16, .rw, 0xd020, .w⟩, ⟨15, 0, .rw, 0x88b5, .w⟩]) rfl _ (by decide) (by decide)
        (f := ⟨15, 0, .rw, 0x88b5, .w⟩) (List.mem_cons_of_mem _ List.mem_cons_self)⟩
  · rw [hi, e2]
    exact (State.rf_written (fs := [⟨63, 0, .rw, 0, .w⟩]) rfl _ (by decide) (by decide) List.mem_cons_self).trans hval
  · rw [hi, e3]
    exact (State.rf_written (fs := [⟨63, 0, .rw, 0, .w⟩]) rfl _ (by decide) (by decide) List.mem_cons_self).trans hval

/-! ### Frames that are dropped (R278, R283, R284) -/

theorem State.reg_rxDrop (s : State) (k : Nat) : (s.rxDrop k).reg (.lnkRxDrop k) = (s.reg (.lnkRxDrop k) + 1) % 2 ^ 64 ∧
    (s.rxDrop k).out = s.out ∧ (s.rxDrop k).sessions = s.sessions := ⟨State.reg_setReg_same _ _ _, rfl, rfl⟩

theorem droppedFrame_spec {s : State} {k : Fin 12} (h : s.portUp k.val = true) :
    (∀ c ∈ [Instr.controlFrame k, Instr.foreignFrame k], ∃ t : State, exec c s = .next t ∧
      t.reg (.lnkRxDrop k.val) = (s.reg (.lnkRxDrop k.val) + 1) % 2 ^ 64 ∧ t.out = s.out ∧ t.sessions = s.sessions) ∧
    ∃ t : State, exec (.fecUncorrectableFrame k) s = .next t ∧
      t.reg (.lnkFecUnc k.val) = (s.reg (.lnkFecUnc k.val) + 1) % 2 ^ 64 ∧ t.sessions = s.sessions := by
  have hdrop : ∀ c ∈ [Instr.controlFrame k, Instr.foreignFrame k], exec c s = .next (s.rxDrop k.val) := by
    intro c hc
    rcases List.mem_cons.mp hc with rfl | hc
    · have hexec : exec (.controlFrame k) s = execControlFrame k s := rfl
      rw [hexec]
      unfold execControlFrame
      rw [if_pos h]
    · obtain rfl := List.mem_singleton.mp hc
      have hexec : exec (.foreignFrame k) s = execForeignFrame k s := rfl
      rw [hexec]
      unfold execForeignFrame
      rw [if_pos h]
  have hexec : exec (.fecUncorrectableFrame k) s = execFecUncorrectableFrame k s := rfl
  refine ⟨fun c hc => ⟨_, hdrop c hc, s.reg_rxDrop k.val⟩, ?_⟩
  rw [hexec]
  unfold execFecUncorrectableFrame
  rw [if_pos h]
  exact ⟨_, rfl, State.reg_setReg_same _ _ _, State.sessions_setReg _ _ _⟩

theorem exec_reservedOpc {s : State} {m : Msg} (hup : s.subUp m.subport.val = true) (h1 : m.opc = 0 ∨ 0x0B < m.opc) (h2 : m.opc ≠ 0x10)
    (h3 : m.opc ≠ 0x11) (h4 : m.opc < 0x20 ∨ 0x24 < m.opc) :
    exec (.reservedOpcMessage m) s = .next (s.rxDrop (m.subport.val / 4)) := by
  have hexec : exec (.reservedOpcMessage m) s = execReservedOpcMessage m s := rfl
  rw [hexec]
  unfold execReservedOpcMessage
  rw [if_neg, if_neg (by simp [hup])]
  simp only [Bool.or_eq_true, Bool.and_eq_true, decide_eq_true_eq, beq_iff_eq]
  omega

end Sys2Proof.Machine

/-! Proofs: sessions open and close, and their timers and transmit rounds (R285 to R294). -/

namespace Sys2Proof.Machine

/-! ### What a write of STATUS and the end of RMOs leave of the ports -/

theorem portSts_not_logKey (k : Nat) : ¬ LogKey (Reg.key (.lnkPortSts k)) := by
  rw [(Reg.portKeys k).2.1]
  unfold LogKey rasKeys
  simp only [Reg.key, List.mem_cons, List.not_mem_nil, or_false]
  omega

theorem lnkNode_not_logKey : ¬ LogKey (Reg.key .lnkNode) := by
  unfold LogKey rasKeys
  simp only [Reg.key, List.mem_cons, List.not_mem_nil, or_false]
  omega

theorem LogRegs.subUp {s t : State} (h : LogRegs s t) (n : Nat) : t.subUp n = s.subUp n :=
  State.subUp_congr (h _ (portSts_not_logKey _))

theorem LogRegs.nodeId {s t : State} (h : LogRegs s t) : t.nodeId = s.nodeId := h.rf lnkNode_not_logKey _ _
theorem LogRegs.incarnation {s t : State} (h : LogRegs s t) : t.incarnation = s.incarnation := h.rf lnkNode_not_logKey _ _

theorem State.sessPorts_congr {s t : State} {x y : Session} (h : LogRegs s t) (he : y.entry = x.entry) : t.sessPorts y = s.sessPorts x := by
  unfold State.sessPorts
  rw [he]
  exact List.filter_congr fun n _ => by rw [h.subUp]

theorem logRegs_modSess (s : State) (i : Nat) (f : Session → Session) : LogRegs s (s.modSess i f) := .of_eq rfl
theorem rmo_modSess (s : State) (i : Nat) (f : Session → Session) : (s.modSess i f).rmo = s.rmo := rfl
theorem out_modSess (s : State) (i : Nat) (f : Session → Session) : (s.modSess i f).out = s.out := rfl

/-! ### HELLO (R286) -/

theorem length_helloPayload (x : Session) (vmin vmax : Nat) : (helloPayload x vmin vmax).length < 65536 := by
  unfold helloPayload
  simp only [List.length_append, length_leBytes]
  norm_num

theorem State.sendHello_eq {s : State} {i : Nat} {x : Session} (h : Map.find? s.sessions i = some x) :
    s.sendHello i = s.sendCtl i 0x20 0 {} (helloPayload x 0x10 0x12) := by
  unfold State.sendHello
  rw [h]

theorem State.sendHello_spec {s : State} {i : Nat} {x : Session} (h : Map.find? s.sessions i = some x) :
    (s.sessPorts x = [] → s.sendHello i = s) ∧ (∃ rr, Map.find? (s.sendHello i).sessions i = some { x with rr := rr }) ∧
    (s.sendHello i).rmo = s.rmo ∧ (s.sendHello i).regs = s.regs ∧ OutGrows s (s.sendHello i) ∧
    (x.peer < 65536 → ∀ n, nextAfter x.rr (s.sessPorts x) = some n → ∃ m : Msg,
      (s.sendHello i).out = .message m :: s.out ∧ m.opc = 0x20 ∧ m.subport.val = n ∧ m.dstNode = x.peer) := by
  rw [State.sendHello_eq h]
  obtain ⟨h1, h2, h3, h4, h5, h6⟩ := State.sendCtl_spec 0x20 0 {} _ h (by norm_num) (length_helloPayload x 0x10 0x12)
  refine ⟨h1, h2, h3, h4, h5, fun hp n hn => ?_⟩
  obtain ⟨m, m1, m2, m3, m4, -⟩ := h6 hp n hn
  exact ⟨m, m1, m2, m3, m4⟩

/-- A message on a session that some sub-port carries has left. -/
theorem exists_nextAfter {last : Nat} {l : List Nat} (h : l ≠ []) : ∃ n, nextAfter last l = some n := by
  cases hn : nextAfter last l with
  | none => exact absurd (nextAfter_eq_none.mp hn) h
  | some n => exact ⟨n, rfl⟩

/-- The state in which a session takes its first PSN. -/
def State.freshIsn (s : State) (i : Nat) : State :=
  s.fresh.2.modSess i (fun x => { x.cleared with
    isn := s.fresh.1.toNat % 2 ^ 24
    sndPsn := s.fresh.1.toNat % 2 ^ 24 })

theorem State.startHello_eq (s : State) (i : Nat) : s.startHello i = ((s.freshIsn i).setSessSt i 2).sendHello i := rfl

theorem State.startHello_spec {s : State} {i : Nat} {x : Session} (h : Map.find? s.sessions i = some x) :
    (∃ isn rr, Map.find? (s.startHello i).sessions i =
      some { x.cleared with isn := isn, sndPsn := isn, st := 2, rr := rr }) ∧ (s.startHello i).rmo = s.rmo ∧
    LogRegs s (s.startHello i) ∧ OutGrows s (s.startHello i) ∧
    (x.peer < 65536 → s.sessPorts x ≠ [] → ∃ m, Out.message m ∈ (s.startHello i).out ∧ m.opc = 0x20 ∧ m.dstNode = x.peer) := by
  have hfind : Map.find? (s.freshIsn i).sessions i = some { x.cleared with
      isn := s.fresh.1.toNat % 2 ^ 24
      sndPsn := s.fresh.1.toNat % 2 ^ 24 } := State.find_modSess (s := s.fresh.2) _ h
  have hreg : LogRegs s (s.freshIsn i) := .of_eq rfl
  have hout : OutGrows s (s.freshIsn i) := .of_eq rfl
  have hrmo : (s.freshIsn i).rmo = s.rmo := rfl
  rw [State.startHello_eq]
  generalize s.fresh.1.toNat % 2 ^ 24 = isn at hfind
  generalize s.freshIsn i = u at hfind hreg hout hrmo
  obtain ⟨h1, h2, h3, h4⟩ := State.setSessSt_spec 2 hfind
  generalize u.setSessSt i 2 = v at h1 h2 h3 h4
  have hsv : LogRegs s v := hreg.trans h3
  obtain ⟨-, ⟨rr, k2⟩, k3, k4, k5, k6⟩ := State.sendHello_spec h1
  refine ⟨⟨isn, rr, k2⟩, k3.trans (h2.trans hrmo), hsv.trans (.of_eq k4), (hout.trans h4).trans k5, fun hp hn => ?_⟩
  have hports : v.sessPorts { x.cleared with isn := isn, sndPsn := isn, st := 2 } = s.sessPorts x := State.sessPorts_congr hsv rfl
  obtain ⟨n, hn'⟩ := exists_nextAfter (last := x.cleared.rr) (l := s.sessPorts x) hn
  obtain ⟨m, m1, m2, -, m4⟩ := k6 hp n (by rw [hports]; exact hn')
  exact ⟨m, by rw [m1]; exact List.mem_cons_self, m2, m4⟩

/-! ### A session fails (R291, R293) -/

theorem State.sessions_fire (s : State) (fn vec : Nat) : (s.fire fn vec).sessions = s.sessions ∧ (s.fire fn vec).rmo = s.rmo := by
  unfold State.fire
  dsimp only
  split <;> exact ⟨rfl, rfl⟩

theorem State.failSess_spec {s : State} {i : Nat} {x : Session} (code st : Nat) (h : Map.find? s.sessions i = some x) :
    Map.find? (s.failSess i code st).sessions i = some { x.cleared with st := st } ∧
    ∀ c ∈ (s.failSess i code st).rmo, c.on x = false := by
  obtain ⟨hr, hgone⟩ := rmosEnd_failRmos s code (fun c => c.on x)
  unfold State.failSess
  rw [h]
  dsimp only
  generalize s.failRmos code (fun c => c.on x) = u at hr hgone
  obtain ⟨h1, h2, -, -⟩ := State.setSessSt_spec st (State.find_modSess (s := u) Session.cleared (by rw [hr.sessions]; exact h))
  generalize (u.modSess i Session.cleared).setSessSt i st = v at h1 h2
  have hv : ∀ c ∈ v.rmo, c.on x = false := fun c hc => hgone c (by rwa [h2] at hc)
  split
  · obtain ⟨k1, k2⟩ := v.sessions_fire (x.part + 1) 1
    exact ⟨by rw [k1]; exact h1, fun c hc => hv c (by rwa [k2] at hc)⟩
  · exact ⟨h1, hv⟩

/-- A session that fails holds nothing and none of its RMOs stays. -/
theorem State.failSess_lost {s : State} {i : Nat} {x : Session} (h : Map.find? s.sessions i = some x) :
    ∃ y, Map.find? (s.failSess i 8 7).sessions i = some y ∧ y.st = 7 ∧ y.sent = [] ∧ y.known = false ∧
      ∀ c ∈ (s.failSess i 8 7).rmo, c.on x = false := by
  obtain ⟨h1, h2⟩ := State.failSess_spec 8 7 h
  exact ⟨_, h1, rfl, rfl, rfl, h2⟩

/-! ### The doorbell (R285, R286, R293) -/

theorem exec_sessDoorbell (s : State) (val : BitVec 64) : ∀ c ∈ [Instr.sessionOpen val, Instr.sessionClose val],
    exec c s = .next (s.sessDoorbell val) := by
  intro c hc
  rcases List.mem_cons.mp hc with rfl | hc
  · rfl
  · obtain rfl := List.mem_singleton.mp hc
    rfl

theorem State.sessDoorbell_outside {s : State} {val : BitVec 64} (h : s.sessEntries ≤ fld val.toNat 11 0) :
    s.sessDoorbell val = s.dropped 285 127 := by
  unfold State.sessDoorbell
  exact if_pos h

theorem State.sessDoorbell_error {s : State} {val : BitVec 64} {f : XFault} (h : fld val.toNat 11 0 < s.sessEntries)
    (hf : s.ipaRead 127 (s.sessAddr (fld val.toNat 11 0)) 64 = .error f) :
    s.sessDoorbell val = if f.code = 10 then s else s.tableFault 285 127 f false := by
  unfold State.sessDoorbell
  dsimp only
  rw [if_neg (Nat.not_le.mpr h), hf]
  dsimp only
  by_cases hc : f.code = 10
  · rw [if_pos hc, if_pos (beq_iff_eq.mpr hc)]
  · rw [if_neg hc, if_neg (by simpa using hc)]

theorem State.sessDoorbell_read {s : State} {val : BitVec 64} {bs : List Byte} (h : fld val.toNat 11 0 < s.sessEntries)
    (hr : s.ipaRead 127 (s.sessAddr (fld val.toNat 11 0)) 64 = .ok (bs, false)) :
    s.sessDoorbell val =
      if bit (((List.range 8).map (wordAt bs)).getD 0 0).toNat 63 then
        (s.noteIpa 127 (s.sessAddr (fld val.toNat 11 0)) 64 false).sessOpen (fld val.toNat 11 0) ((List.range 8).map (wordAt bs))
      else (s.noteIpa 127 (s.sessAddr (fld val.toNat 11 0)) 64 false).sessClose (fld val.toNat 11 0) := by
  unfold State.sessDoorbell
  dsimp only
  rw [if_neg (Nat.not_le.mpr h), hr]
  dsimp only
  rw [if_neg Bool.false_ne_true]

/-- Another entry serves the pair already. -/
def State.pairTaken (s : State) (i p peer : Nat) : Prop := ∃ x ∈ s.sessions, x.1 ≠ i ∧ x.2.part = p ∧ x.2.peer = peer

/-- The partition of an entry is not enabled, or none. -/
def State.sessOff (s : State) (p : Nat) : Prop := (p < 96 ∧ s.rf (.cfgPartSts p) 23 20 ≠ 1) ∨ (96 ≤ p ∧ p ≤ 126)

/-- The session that an accepted entry begins. -/
def newSession (ws : List Word) : Session :=
  ⟨fld (ws.getD 0 0).toNat 62 56, fld (ws.getD 0 0).toNat 47 32, fld (ws.getD 0 0).toNat 31 20, ws, 2, false, 0x12, 0, 0, 0, false, false, 0, 0,
    [], [], [], [], 0, 0, 47⟩

/-- What the write of STATUS 0x02 begins. -/
def State.beginSess (t : State) (i : Nat) (ws : List Word) : State := ((t.endSess i).putSess i (newSession ws)).startHello i

section
variable {s : State} {i : Nat} {ws : List Word}

theorem pairTaken_iff (p peer : Nat) : s.sessions.any (fun kv => kv.1 != i && kv.2.part == p && kv.2.peer == peer) = true ↔
    s.pairTaken i p peer := by
  unfold State.pairTaken
  simp only [List.any_eq_true, Bool.and_eq_true, bne_iff_ne, beq_iff_eq, and_assoc]

theorem sessOff_iff (p : Nat) : ((p < 96 && s.rf (.cfgPartSts p) 23 20 != 1) || (96 ≤ p && p ≤ 126)) = true ↔ s.sessOff p := by
  unfold State.sessOff
  simp only [Bool.or_eq_true, Bool.and_eq_true, decide_eq_true_eq, bne_iff_ne]

theorem State.sessOpen_refused (h : s.sessBad ws = true ∨ s.pairTaken i (fld (ws.getD 0 0).toNat 62 56) (fld (ws.getD 0 0).toNat 47 32)) :
    s.sessOpen i ws = s.sessStatus i 8 (fun (t : State) => t.endSess i) := by
  unfold State.sessOpen
  refine if_pos ?_
  rw [Bool.or_eq_true, pairTaken_iff]
  exact h

/-- Neither form nor pair refuses the entry. -/
theorem State.sessOpen_off (hb : s.sessBad ws = false)
    (ht : ¬ s.pairTaken i (fld (ws.getD 0 0).toNat 62 56) (fld (ws.getD 0 0).toNat 47 32)) (ho : s.sessOff (fld (ws.getD 0 0).toNat 62 56)) :
    s.sessOpen i ws = s.sessStatus i 9 (fun (t : State) => t.endSess i) := by
  unfold State.sessOpen
  dsimp only
  rw [if_neg (by rw [Bool.or_eq_true, pairTaken_iff, hb]; exact fun h => h.elim (by simp) ht), if_pos (sessOff_iff _ |>.mpr ho)]

theorem State.sessOpen_begins (hb : s.sessBad ws = false)
    (ht : ¬ s.pairTaken i (fld (ws.getD 0 0).toNat 62 56) (fld (ws.getD 0 0).toNat 47 32)) (ho : ¬ s.sessOff (fld (ws.getD 0 0).toNat 62 56)) :
    s.sessOpen i ws = s.sessStatus i 2 (fun (t : State) => t.beginSess i ws) := by
  unfold State.sessOpen
  dsimp only
  rw [if_neg (by rw [Bool.or_eq_true, pairTaken_iff, hb]; exact fun h => h.elim (by simp) ht), if_neg fun hc => ho (sessOff_iff _ |>.mp hc)]
  rfl

end

theorem State.endSess_spec (s : State) (i : Nat) : LogRegs s (s.endSess i) ∧ OutGrows s (s.endSess i) := by
  unfold State.endSess
  split
  · obtain ⟨hr, -⟩ := rmosEnd_failRmos s 9 (fun c => c.on (by assumption))
    exact ⟨hr.regs.trans (.of_eq rfl), hr.out.trans (.of_eq rfl)⟩
  · exact ⟨.refl s, .refl s⟩

theorem State.beginSess_spec (t : State) (i : Nat) (ws : List Word) :
    (∃ ss, Map.find? (t.beginSess i ws).sessions i = some ss ∧ ss.st = 2 ∧ ss.part = fld (ws.getD 0 0).toNat 62 56 ∧
      ss.peer = fld (ws.getD 0 0).toNat 47 32 ∧ ss.known = false ∧ ss.sent = [] ∧ ss.entry = ws) ∧
    ((∃ n, n < 48 ∧ bit (ws.getD 4 0).toNat n = true ∧ t.subUp n = true) →
      ∃ m, Out.message m ∈ (t.beginSess i ws).out ∧ m.opc = 0x20 ∧ m.dstNode = fld (ws.getD 0 0).toNat 47 32) := by
  obtain ⟨hregs, -⟩ := t.endSess_spec i
  unfold State.beginSess
  generalize t.endSess i = u at hregs
  have hfind : Map.find? (u.putSess i (newSession ws)).sessions i = some (newSession ws) := State.find_putSess _ _ _
  have hput : LogRegs t (u.putSess i (newSession ws)) := hregs.trans (.of_eq rfl)
  generalize u.putSess i (newSession ws) = v at hfind hput
  obtain ⟨⟨isn, rr, h1⟩, -, -, -, h5⟩ := State.startHello_spec hfind
  refine ⟨⟨_, h1, rfl, rfl, rfl, rfl, rfl, rfl⟩, fun ⟨n, hn, hb, hup⟩ => h5 (Nat.mod_lt _ (by norm_num)) ?_⟩
  exact List.ne_nil_of_mem (State.mem_sessPorts.mpr ⟨hn, hb, (hput.subUp n).trans hup⟩)

theorem State.sessClose_of_none {s : State} {i : Nat} (h : Map.find? s.sessions i = none) :
    s.sessClose i = s.sessStatus i 1 (fun (t : State) => t) := by
  unfold State.sessClose
  rw [h]

theorem State.sessClose_of_some {s : State} {i : Nat} {ss : Session} (h : Map.find? s.sessions i = some ss) :
    Map.find? (s.sessClose i).sessions i = some { ss with closing := true } ∧ ∀ c ∈ (s.sessClose i).rmo, c.on ss = true → c.begun = true := by
  obtain ⟨hr, hgone⟩ := rmosEnd_failRmos s 6 (fun c => c.on ss && !c.begun)
  unfold State.sessClose
  rw [h]
  dsimp only
  generalize s.failRmos 6 (fun c => c.on ss && !c.begun) = u at hr hgone
  refine ⟨State.find_modSess _ (by rw [hr.sessions]; exact h), fun c hc hon => ?_⟩
  have hk := hgone c (by rwa [rmo_modSess] at hc)
  rwa [hon, Bool.true_and, Bool.not_eq_false'] at hk

/-- A doorbell whose entry is read (R285, R286, R293). -/
theorem sessDoorbell_spec {s : State} {val : BitVec 64} {bs : List Byte} (h : fld val.toNat 11 0 < s.sessEntries)
    (hr : s.ipaRead 127 (s.sessAddr (fld val.toNat 11 0)) 64 = .ok (bs, false)) :
    let i := fld val.toNat 11 0
    let u := s.noteIpa 127 (s.sessAddr i) 64 false
    let ends := fun (t : State) => t.endSess i
    let ws := (List.range 8).map (wordAt bs)
    let w0 := (ws.getD 0 0).toNat
    let p := fld w0 62 56
    let peer := fld w0 47 32
    let taken := ∃ x ∈ s.sessions, x.1 ≠ i ∧ x.2.part = p ∧ x.2.peer = peer
    let off := (p < 96 ∧ s.rf (.cfgPartSts p) 23 20 ≠ 1) ∨ (96 ≤ p ∧ p ≤ 126)
    (bit w0 63 = true →
      (s.sessBad ws = true ∨ taken → exec (.sessionOpen val) s = .next (u.sessStatus i 8 ends)) ∧
      (s.sessBad ws = false → ¬ taken → off → exec (.sessionOpen val) s = .next (u.sessStatus i 9 ends)) ∧
      (∀ f, s.sessBad ws = false → ¬ taken → ¬ off → u.ipaWrite 127 (s.sessAddr i + 6) [2#8] = .error f →
        exec (.sessionOpen val) s = .next (if f.code = 10 then u else u.tableFault 285 127 f true)) ∧
      (∀ x, s.sessBad ws = false → ¬ taken → ¬ off → u.ipaWrite 127 (s.sessAddr i + 6) [2#8] = .ok x →
        ∃ (t : State) (ss : Session), exec (.sessionOpen val) s = .next t ∧ Map.find? t.sessions i = some ss ∧
          ss.st = 2 ∧ ss.part = p ∧ ss.peer = peer ∧ ss.known = false ∧ ss.sent = [] ∧ ss.entry = ws ∧
          ((∃ n, n < 48 ∧ bit (ws.getD 4 0).toNat n = true ∧ s.subUp n = true) →
            ∃ m, Out.message m ∈ t.out ∧ m.opc = 0x20 ∧ m.dstNode = peer))) ∧
    (bit w0 63 = false →
      (Map.find? s.sessions i = none → exec (.sessionClose val) s = .next (u.sessStatus i 1 (fun (t : State) => t))) ∧
      (∀ ss, Map.find? s.sessions i = some ss → ∃ t : State, exec (.sessionClose val) s = .next t ∧
        Map.find? t.sessions i = some { ss with closing := true } ∧
        ∀ c ∈ t.rmo, c.on ss = true → c.begun = true)) := by
  intro i u ends ws w0 p peer taken off
  have hu : StatusKeeps s u := statusKeeps_noteIpa s _ _ _ _
  have hdoor : s.sessDoorbell val = if bit w0 63 then u.sessOpen i ws else u.sessClose i := State.sessDoorbell_read h hr
  have hopen : exec (.sessionOpen val) s = .next (s.sessDoorbell val) := rfl
  have hclose : exec (.sessionClose val) s = .next (s.sessDoorbell val) := rfl
  have haddr : u.sessAddr i = s.sessAddr i := by
    have hkey : ¬ LogKey (Reg.key .lnkSessTab) := by
      unfold LogKey rasKeys
      simp only [Reg.key, List.mem_cons, List.not_mem_nil, or_false]
      omega
    unfold State.sessAddr
    rw [hu.regs.rf hkey]
  have hbad : u.sessBad ws = s.sessBad ws := by
    unfold State.sessBad
    rw [hu.regs.nodeId]
  have htaken : u.pairTaken i p peer ↔ taken := by
    unfold State.pairTaken
    rw [hu.sessions]
  have hoff : u.sessOff p ↔ off := by
    unfold State.sessOff
    rw [hu.regs.rf (cfgPartSts_not_logKey p).1]
  have hport : ∀ n, u.subUp n = s.subUp n := fun n => hu.regs.subUp n
  have hsess := hu.sessions
  rw [hopen, hclose, hdoor]
  clear_value u
  refine ⟨fun hv => ?_, fun hv => ?_⟩
  · rw [if_pos hv]
    refine ⟨fun hb => ?_, fun hb ht ho => ?_, fun f hb ht ho hw => ?_, fun x hb ht ho hw => ?_⟩
    · rw [State.sessOpen_refused (by rw [hbad]; exact hb.imp_right htaken.mpr)]
    · rw [State.sessOpen_off (by rw [hbad]; exact hb) (fun hc => ht (htaken.mp hc)) (hoff.mpr ho)]
    · rw [State.sessOpen_begins (by rw [hbad]; exact hb) (fun hc => ht (htaken.mp hc)) (fun hc => ho (hoff.mp hc)),
        State.sessStatus_of_error _ (by rw [haddr]; exact hw)]
    · rw [State.sessOpen_begins (by rw [hbad]; exact hb) (fun hc => ht (htaken.mp hc)) (fun hc => ho (hoff.mp hc)),
        State.sessStatus_of_ok _ (by rw [haddr]; exact hw)]
      obtain ⟨⟨ss, b1, b2⟩, b3⟩ := x.beginSess_spec i ws
      have hx := statusKeeps_ipaWrite hw
      obtain ⟨c1, c2, c3, c4, c5, c6⟩ := b2
      exact ⟨_, ss, rfl, b1, c1, c2, c3, c4, c5, c6, fun ⟨n, hn, hb', hup⟩ =>
        b3 ⟨n, hn, hb', (hx.regs.subUp n).trans ((hport n).trans hup)⟩⟩
  · rw [if_neg (by rw [hv]; exact Bool.false_ne_true)]
    refine ⟨fun hn => by rw [State.sessClose_of_none (by rw [hsess]; exact hn)], fun ss hs => ?_⟩
    exact ⟨_, rfl, State.sessClose_of_some (by rw [hsess]; exact hs)⟩

theorem sessionCloseComplete_spec {s : State} {idx : Nat} {ss : Session} (h : Map.find? s.sessions idx = some ss) (hc : ss.closing = true)
    (hr : ∀ c ∈ s.rmo, c.on ss = false) :
    let u := (s.sendCtl idx 0x23 0 {} []).modSess idx (fun x => { x with closing := false })
    ∃ t : State, exec (.sessionCloseComplete idx) s = .next t ∧
      ((∃ v, u.ipaWrite 127 (s.sessAddr idx + 6) [1#8] = .ok v) → Map.find? t.sessions idx = none) ∧
      (ss.peer < 65536 → s.sessPorts ss ≠ [] → ∃ m, Out.message m ∈ t.out ∧ m.opc = 0x23) := by
  intro u
  have hexec : exec (.sessionCloseComplete idx) s = .next (u.sessStatus idx 1 (fun (v : State) => { v with sessions := Map.drop v.sessions idx })) := by
    have hexec : exec (.sessionCloseComplete idx) s = execSessionCloseComplete idx s := rfl
    rw [hexec]
    unfold execSessionCloseComplete
    rw [h]
    dsimp only
    rw [if_neg]
    rw [hc, Bool.not_true, Bool.false_or, List.any_eq_true]
    rintro ⟨c, hm, hon⟩
    rw [hr c hm] at hon
    exact Bool.false_ne_true hon
  obtain ⟨-, -, -, hregs, -, hmsg⟩ := State.sendCtl_spec (s := s) 0x23 0 {} [] h (by norm_num) (by norm_num)
  have haddr : u.sessAddr idx = s.sessAddr idx := by
    unfold State.sessAddr
    rw [State.rf_congr (State.reg_congr (show u.regs = s.regs from hregs) .lnkSessTab)]
  have hsent : ss.peer < 65536 → s.sessPorts ss ≠ [] → ∃ m, Out.message m ∈ u.out ∧ m.opc = 0x23 := fun hp hn => by
    obtain ⟨n, hn⟩ := exists_nextAfter (last := ss.rr) hn
    obtain ⟨m, m1, m2, -⟩ := hmsg hp n hn
    exact ⟨m, by rw [show u.out = _ from m1]; exact List.mem_cons_self, m2⟩
  rw [hexec]
  clear_value u
  refine ⟨_, rfl, fun ⟨v, hv⟩ => ?_, fun hp hn => ?_⟩
  · rw [State.sessStatus_of_ok _ (by rw [haddr]; exact hv)]
    exact Map.find?_drop_same _ _
  · obtain ⟨m, hm, hopc⟩ := hsent hp hn
    refine ⟨m, ?_, hopc⟩
    cases hw : u.ipaWrite 127 (u.sessAddr idx + 6) [BitVec.ofNat 8 1] with
    | ok v =>
      rw [State.sessStatus_of_ok _ hw]
      exact outGrows_ipaWrite hw _ hm
    | error f =>
      rw [State.sessStatus_of_error _ hw]
      split
      · exact hm
      · exact outGrows_tableFault _ _ _ _ _ _ hm

/-! ### Timers (R288, R290, R291, R293) -/

/-- Messages again in the transmit queues: the session's STATUS, and the PSNs and rounds of what it sent, stay (R291). -/
structure Resends (i : Nat) (s t : State) : Prop where
  sess : ∀ x, Map.find? s.sessions i = some x → ∃ y, Map.find? t.sessions i = some y ∧ y.st = x.st ∧
    y.sent.map (fun z => (z.psn, z.rounds)) = x.sent.map (fun z => (z.psn, z.rounds))

theorem resends_resend (i : Nat) (s : State) (m : SentMsg) : Resends i s (s.resend i m) := by
  refine ⟨fun x hx => ?_⟩
  unfold State.resend
  rw [hx]
  dsimp only
  split
  · exact ⟨x, hx, rfl, rfl⟩
  · refine ⟨_, State.find_putSess _ _ _, rfl, ?_⟩
    dsimp only
    rw [List.map_map]
    refine List.map_congr_left fun z _ => ?_
    simp only [Function.comp_apply]
    split <;> rfl

theorem resends_foldl (i : Nat) (l : List SentMsg) (s : State) : Resends i s (l.foldl (fun t x => State.resend t i x) s) := by
  induction l generalizing s with
  | nil => exact ⟨fun x hx => ⟨x, hx, rfl, rfl⟩⟩
  | cons m l ih =>
    refine ⟨fun x hx => ?_⟩
    obtain ⟨y, hy, h1, h2⟩ := (resends_resend i s m).sess x hx
    obtain ⟨z, hz, h3, h4⟩ := (ih _).sess y hy
    exact ⟨z, hz, h3.trans h1, h4.trans h2⟩

/-- One more round of the messages with a PSN. -/
def moreRounds (psn : Nat) (l : List SentMsg) : List SentMsg := l.map (fun y => if y.psn == psn then { y with rounds := y.rounds + 1 } else y)

theorem psns_moreRounds (psn : Nat) (l : List SentMsg) : (moreRounds psn l).map (fun y => y.psn) = l.map (fun y => y.psn) := by
  unfold moreRounds
  rw [List.map_map]
  refine List.map_congr_left fun z _ => ?_
  simp only [Function.comp_apply]
  split <;> rfl

section
variable {s : State} {idx : Nat} {ss : Session} (h : Map.find? s.sessions idx = some ss)
include h

theorem helloRetry_spec (hst : ss.st = 5) (hp : ss.peer < 65536) : ∃ t : State, exec (.helloRetry idx) s = .next t ∧
    (∀ n, nextAfter ss.rr (s.sessPorts ss) = some n → Sends s t 0x20 n) ∧ (s.sessPorts ss = [] → t = s) := by
  have hexec : exec (.helloRetry idx) s = execHelloRetry idx s := rfl
  rw [hexec]
  unfold execHelloRetry
  rw [h]
  dsimp only
  rw [if_pos (beq_iff_eq.mpr hst)]
  obtain ⟨h1, -, -, -, -, h6⟩ := State.sendHello_spec h
  refine ⟨_, rfl, fun n hn => ?_, h1⟩
  obtain ⟨m, m1, m2, m3, -⟩ := h6 hp n hn
  exact ⟨m, m1, m2, m3⟩

theorem retransmitTimeout_opening (hst : ss.st = 2) (hp : ss.peer < 65536) :
    (s.retryLimit ≤ ss.retries + 1 → ∃ t : State, exec (.retransmitTimeout idx) s = .next t ∧
      ∃ x, Map.find? t.sessions idx = some x ∧ x.st = 7 ∧ x.sent = [] ∧ x.known = false ∧ ∀ c ∈ t.rmo, c.on ss = false) ∧
    (ss.retries + 1 < s.retryLimit → ∃ (t : State) (x : Session), exec (.retransmitTimeout idx) s = .next t ∧
      Map.find? t.sessions idx = some x ∧ x.retries = ss.retries + 1 ∧ x.st = 2 ∧
      (∀ n, nextAfter ss.rr (s.sessPorts ss) = some n → Sends s t 0x20 n)) := by
  have hexec : exec (.retransmitTimeout idx) s = if ss.retries + 1 ≥ s.retryLimit then .next (s.failSess idx 8 7)
      else .next ((s.modSess idx (fun x => { x with retries := x.retries + 1 })).sendHello idx) := by
    have hexec : exec (.retransmitTimeout idx) s = execRetransmitTimeout idx s := rfl
    rw [hexec]
    unfold execRetransmitTimeout
    rw [h]
    dsimp only
    rw [if_pos (beq_iff_eq.mpr hst)]
  rw [hexec]
  refine ⟨fun hl => ?_, fun hl => ?_⟩
  · rw [if_pos hl]
    exact ⟨_, rfl, State.failSess_lost h⟩
  · rw [if_neg (Nat.not_le.mpr hl)]
    have hfind := State.find_modSess (fun x => { x with retries := x.retries + 1 }) h
    have hregs := logRegs_modSess s idx (fun x => { x with retries := x.retries + 1 })
    have hout := out_modSess s idx (fun x => { x with retries := x.retries + 1 })
    generalize s.modSess idx (fun x => { x with retries := x.retries + 1 }) = u at hfind hregs hout
    obtain ⟨-, ⟨rr, h2⟩, -, -, -, h6⟩ := State.sendHello_spec hfind
    refine ⟨_, _, rfl, h2, rfl, hst, fun n hn => ?_⟩
    obtain ⟨m, m1, m2, m3, -⟩ := h6 hp n ((congrArg (nextAfter ss.rr) (State.sessPorts_congr (x := ss) hregs rfl)).trans hn)
    exact ⟨m, m1.trans (by rw [hout]), m2, m3⟩

theorem retransmitTimeout_open (hst : ss.st = 0) {m : SentMsg} {rest : List SentMsg} (hs : ss.sent = m :: rest) :
    (s.retryLimit ≤ m.rounds + 1 → ∃ t : State, exec (.retransmitTimeout idx) s = .next t ∧
      ∃ x, Map.find? t.sessions idx = some x ∧ x.st = 7 ∧ x.sent = [] ∧ x.known = false ∧ ∀ c ∈ t.rmo, c.on ss = false) ∧
    (m.rounds + 1 < s.retryLimit → ∃ (t : State) (x : Session), exec (.retransmitTimeout idx) s = .next t ∧
      Map.find? t.sessions idx = some x ∧ x.st = 0 ∧ x.sent.map (fun y => y.psn) = ss.sent.map (fun y => y.psn) ∧
      ∃ y ∈ x.sent, y.psn = m.psn ∧ y.rounds = m.rounds + 1) := by
  have hexec : exec (.retransmitTimeout idx) s = if m.rounds + 1 ≥ s.retryLimit then .next (s.failSess idx 8 7)
      else .next ((if ss.version == 0x10 then ss.sent else ss.sent.filter (fun x => !x.marked)).foldl (fun t x => State.resend t idx x)
        (s.modSess idx (fun x => { x with sent := moreRounds m.psn x.sent }))) := by
    have hexec : exec (.retransmitTimeout idx) s = execRetransmitTimeout idx s := rfl
    rw [hexec]
    unfold execRetransmitTimeout
    rw [h]
    dsimp only
    rw [if_neg (by rw [hst]; decide), if_neg (by rw [hst]; decide), hs]
    rfl
  rw [hexec]
  refine ⟨fun hl => ?_, fun hl => ?_⟩
  · rw [if_pos hl]
    exact ⟨_, rfl, State.failSess_lost h⟩
  · rw [if_neg (Nat.not_le.mpr hl)]
    have hfind := State.find_modSess (fun x => { x with sent := moreRounds m.psn x.sent }) h
    obtain ⟨y, hy, h1, h2⟩ := (resends_foldl idx (if ss.version == 0x10 then ss.sent else ss.sent.filter (fun x => !x.marked)) _).sess _ hfind
    refine ⟨_, y, rfl, hy, h1.trans hst, ?_, ?_⟩
    · have := congrArg (List.map Prod.fst) h2
      rw [List.map_map, List.map_map] at this
      exact this.trans (psns_moreRounds m.psn ss.sent)
    · have hmem : (m.psn, m.rounds + 1) ∈ (moreRounds m.psn ss.sent).map (fun z => (z.psn, z.rounds)) := by
        rw [hs]
        unfold moreRounds
        rw [List.map_cons, List.map_cons, if_pos (beq_self_eq_true _)]
        exact List.mem_cons_self
      rw [← h2] at hmem
      obtain ⟨z, hz, he⟩ := List.mem_map.mp hmem
      obtain ⟨e1, e2⟩ := Prod.mk.inj he
      exact ⟨z, hz, e1, e2⟩

omit h in
theorem State.drainSess_of_empty {i f : Nat} (hm : ∀ x, Map.find? s.sessions i = some x → x.heldMsgs = []) : s.drainSess i f = s := by
  cases f with
  | zero => rfl
  | succ f =>
    unfold State.drainSess
    split
    · rfl
    · next x hx =>
      rw [hm x hx]
      rfl

/-- ACK leaves on the session's next sub-port (R289, R290). -/
theorem State.sendAck_spec : (∃ rr, Map.find? (s.sendAck idx).sessions idx = some { ss with ackCount := 0, rr := rr }) ∧
    (s.sendAck idx).rmo = s.rmo ∧ (s.sendAck idx).regs = s.regs ∧
    (ss.peer < 65536 → ∀ n, nextAfter ss.rr (s.sessPorts ss) = some n → ∃ m : Msg, (s.sendAck idx).out = .message m :: s.out ∧
      m.opc = 0x10 ∧ m.psn = (ss.rcvPsn + 2 ^ 24 - 1) % 2 ^ 24) := by
  have hfind := State.find_modSess (fun x => { x with ackCount := 0 }) h
  have hregs := logRegs_modSess s idx (fun x => { x with ackCount := 0 })
  have hregs' : (s.modSess idx (fun x => { x with ackCount := 0 })).regs = s.regs := rfl
  have hout := out_modSess s idx (fun x => { x with ackCount := 0 })
  have hrmo := rmo_modSess s idx (fun x => { x with ackCount := 0 })
  unfold State.sendAck
  rw [h]
  dsimp only
  generalize s.modSess idx (fun x => { x with ackCount := 0 }) = u at hfind hregs hout hrmo hregs'
  have hlen : (if ss.version ≥ 0x11 then leBytes (ackBitmap ss) 8 else []).length < 65536 := by
    split
    · rw [length_leBytes]
      norm_num
    · norm_num
  obtain ⟨-, h2, h3, h4, -, h6⟩ := State.sendCtl_spec 0x10 ((ss.rcvPsn + 2 ^ 24 - 1) % 2 ^ 24) {} _ hfind (by norm_num) hlen
  refine ⟨h2, h3.trans hrmo, h4.trans hregs', fun hp n hn => ?_⟩
  obtain ⟨m, m1, m2, -, -, m5⟩ := h6 hp n ((congrArg (nextAfter ss.rr) (State.sessPorts_congr (x := ss) hregs rfl)).trans hn)
  exact ⟨m, m1.trans (by rw [hout]), m2, m5.trans (Nat.mod_mod _ _)⟩

theorem ackTimer_spec (hst : ss.st = 0) (ha : ss.ackCount ≠ 0) (hp : ss.peer < 65536) : ∃ t : State, exec (.ackTimer idx) s = .next t ∧
    (∀ n, ss.heldMsgs = [] → nextAfter ss.rr (s.sessPorts ss) = some n →
      ∃ m : Msg, t.out = .message m :: s.out ∧ m.opc = 0x10 ∧ m.psn = (ss.rcvPsn + 2 ^ 24 - 1) % 2 ^ 24 ∧
        ∃ x, Map.find? t.sessions idx = some x ∧ x.ackCount = 0) := by
  have hexec : exec (.ackTimer idx) s = execAckTimer idx s := rfl
  rw [hexec]
  unfold execAckTimer
  rw [h]
  dsimp only
  rw [if_neg (by simp [hst, ha])]
  refine ⟨_, rfl, fun n hm hn => ?_⟩
  rw [State.drainSess_of_empty fun x hx => by cases hx.symm.trans h; exact hm]
  obtain ⟨⟨rr, h1⟩, -, -, h4⟩ := State.sendAck_spec h
  obtain ⟨m, m1, m2, m3⟩ := h4 hp n hn
  exact ⟨m, m1, m2, m3, _, h1, rfl⟩

theorem keepaliveInterval_spec (hst : ss.st = 0) (hw : ss.waiting = []) (hr : ∀ c ∈ s.rmo, c.on ss = true → c.count ≤ c.next)
    (hp : ss.peer < 65536) : ∃ t : State, exec (.keepaliveInterval idx) s = .next t ∧
    (∀ n, nextAfter ss.rr (s.sessPorts ss) = some n → Sends s t 0x24 n) ∧ (s.sessPorts ss = [] → t = s) := by
  have hany : s.rmo.any (fun c => c.on ss && decide (c.next < c.count)) = false := by
    rw [List.any_eq_false]
    intro c hc
    rw [Bool.and_eq_true, decide_eq_true_eq]
    exact fun ⟨hon, hlt⟩ => absurd (hr c hc hon) (Nat.not_le.mpr hlt)
  have hexec : exec (.keepaliveInterval idx) s = execKeepaliveInterval idx s := rfl
  rw [hexec]
  unfold execKeepaliveInterval
  rw [h]
  dsimp only
  rw [if_neg (by rw [hst]; decide), if_pos (by rw [hw, hany]; rfl)]
  obtain ⟨h1, -, -, -, -, h6⟩ := State.sendCtl_spec 0x24 0 {} [] h (by norm_num) (by norm_num)
  refine ⟨_, rfl, fun n hn => ?_, h1⟩
  obtain ⟨m, m1, m2, m3, -⟩ := h6 hp n hn
  exact ⟨m, m1, m2, m3⟩

theorem peerSilence_spec (hst : ss.st = 0) : ∃ t : State, exec (.peerSilence idx) s = .next t ∧
    ∃ x, Map.find? t.sessions idx = some x ∧ x.st = 7 ∧ x.sent = [] ∧ x.known = false ∧ ∀ c ∈ t.rmo, c.on ss = false := by
  have hexec : exec (.peerSilence idx) s = execPeerSilence idx s := rfl
  rw [hexec]
  unfold execPeerSilence
  rw [h]
  dsimp only
  rw [if_pos (beq_iff_eq.mpr hst)]
  exact ⟨_, rfl, State.failSess_lost h⟩

end

/-! ### Transmit rounds (R294) -/

/-- Messages may join the transmit queues: what was queued and what has left stays, and the budgets too. -/
structure QueuesGrow (s t : State) : Prop where
  out : OutGrows s t
  txq : ∀ n, ∃ ext, Map.getD t.txq n [] = Map.getD s.txq n [] ++ ext
  deficits : t.deficits = s.deficits
  adopted : t.adopted = s.adopted

theorem queuesGrow_pumps (l : List Nat) (s : State) : QueuesGrow s (l.foldl (fun t i => State.pumpAll t i) s) := by
  induction l generalizing s with
  | nil => exact ⟨.refl s, fun _ => ⟨[], (List.append_nil _).symm⟩, rfl, rfl⟩
  | cons i l ih =>
    have h := pumpKeeps_pumpAll i s
    have k := ih (s.pumpAll i)
    refine ⟨h.out.trans k.out, fun n => ?_, k.deficits.trans h.deficits, k.adopted.trans h.adopted⟩
    obtain ⟨e1, h1⟩ := h.txq n
    obtain ⟨e2, h2⟩ := k.txq n
    exact ⟨e1 ++ e2, by rw [List.foldl_cons, h2, h1, List.append_assoc]⟩

/-- A message meets some budget: it is sent where it is positive, and kept otherwise. -/
theorem State.roundStep_eq (s : State) (n : Nat) (r : Round) (x : Nat × Msg) : ∃ b : Int, s.roundStep n r x =
    if b > 0 then ⟨r.sent ++ [x.2], r.kept, (x.1, b - x.2.bytes) :: r.left.filter (fun y => y.1 != x.1)⟩
    else ⟨r.sent, r.kept ++ [x], (x.1, b) :: r.left.filter (fun y => y.1 != x.1)⟩ := ⟨_, rfl⟩

/-- Every message of a round is sent or kept, and what is sent or kept stays so. -/
theorem State.round_spec (s : State) (n : Nat) (l : List (Nat × Msg)) (r : Round) :
    (∀ m ∈ r.sent, m ∈ (l.foldl (s.roundStep n) r).sent) ∧ (∀ x ∈ r.kept, x ∈ (l.foldl (s.roundStep n) r).kept) ∧
    ∀ x ∈ l, x.2 ∈ (l.foldl (s.roundStep n) r).sent ∨ x ∈ (l.foldl (s.roundStep n) r).kept := by
  have hstep : ∀ (r : Round) (x : Nat × Msg), (∀ m ∈ r.sent, m ∈ (s.roundStep n r x).sent) ∧ (∀ y ∈ r.kept, y ∈ (s.roundStep n r x).kept) ∧
      (x.2 ∈ (s.roundStep n r x).sent ∨ x ∈ (s.roundStep n r x).kept) := fun r x => by
    obtain ⟨b, hb⟩ := s.roundStep_eq n r x
    rw [hb]
    split
    · exact ⟨fun m hm => List.mem_append_left _ hm, fun y hy => hy, .inl (List.mem_append_right _ (List.mem_singleton_self _))⟩
    · exact ⟨fun m hm => hm, fun y hy => List.mem_append_left _ hy, .inr (List.mem_append_right _ (List.mem_singleton_self _))⟩
  induction l generalizing r with
  | nil => exact ⟨fun _ h => h, fun _ h => h, fun _ h => absurd h List.not_mem_nil⟩
  | cons x l ih =>
    obtain ⟨h1, h2, h3⟩ := hstep r x
    obtain ⟨k1, k2, k3⟩ := ih (s.roundStep n r x)
    refine ⟨fun m hm => k1 m (h1 m hm), fun y hy => k2 y (h2 y hy), fun y hy => ?_⟩
    rcases List.mem_cons.mp hy with rfl | hy
    · exact h3.imp (k1 _) (k2 _)
    · exact k3 y hy

theorem foldl_emit_out (l : List Msg) (s : State) : (∀ m ∈ l, Out.message m ∈ (l.foldl (fun (t : State) m => t.emit (.message m)) s).out) ∧
    (l.foldl (fun (t : State) m => t.emit (.message m)) s).txq = s.txq := by
  have hgrow : ∀ (l : List Msg) (s : State), OutGrows s (l.foldl (fun (t : State) m => t.emit (.message m)) s) := fun l s =>
    .foldl (fun u m => outGrows_emit u _) l s
  induction l generalizing s with
  | nil => exact ⟨fun _ h => absurd h List.not_mem_nil, rfl⟩
  | cons x l ih =>
    obtain ⟨h1, h2⟩ := ih (s.emit (.message x))
    refine ⟨fun m hm => ?_, h2⟩
    rcases List.mem_cons.mp hm with rfl | hm
    · exact hgrow l _ _ List.mem_cons_self
    · exact h1 m hm

/-- The round of a sub-port. -/
def State.roundOf (s : State) (n : Nat) : Round := (Map.getD s.txq n []).foldl (s.roundStep n) ⟨[], [], []⟩

/-- The queue and the budgets that a round leaves. -/
def State.roundEnded (s : State) (n : Nat) : State :=
  { s with
    txq := Map.putD s.txq n [] (s.roundOf n).kept
    deficits := (s.roundOf n).left.foldl (fun m x => Map.putD m (n * 128 + x.1) 0 (-x.2).toNat) s.deficits }

theorem State.transmit_eq (s : State) (n : Nat) : s.transmit n =
    (s.roundOf n).sent.foldl (fun (t : State) m => t.emit (.message m)) (s.roundEnded n) := rfl

theorem State.transmit_spec (s : State) (n : Nat) : (∀ m ∈ (s.roundOf n).sent, Out.message m ∈ (s.transmit n).out) ∧
    Map.getD (s.transmit n).txq n [] = (s.roundOf n).kept := by
  obtain ⟨h1, h2⟩ := foldl_emit_out (s.roundOf n).sent (s.roundEnded n)
  rw [State.transmit_eq]
  exact ⟨h1, (congrArg (fun q => Map.getD q n []) h2).trans (Map.getD_putD_same _ _ _ _)⟩

theorem State.adoptUnit_sends (s : State) (u : Nat) : (s.adoptUnit u).out = s.out ∧ (s.adoptUnit u).txq = s.txq := by
  have hvals : ∀ es : List (Word × Word), (s.adoptVals u es).out = s.out ∧ (s.adoptVals u es).txq = s.txq := fun es => by
    refine foldl_keeps (P := fun v : State => v.out = s.out ∧ v.txq = s.txq) (fun v x h => ?_) es s ⟨rfl, rfl⟩
    split
    · split <;> exact h
    · exact h
  have hnext : ∀ (t : State) (c : Commit), (t.commitNext c u 2).out = t.out ∧ (t.commitNext c u 2).txq = t.txq := fun t c => by
    unfold State.commitNext
    dsimp only
    split
    · exact ⟨State.out_setRf _ _ _ _ _, State.txq_setRf _ _ _ _ _⟩
    · exact ⟨State.out_setRf _ _ _ _ _, State.txq_setRf _ _ _ _ _⟩
  unfold State.adoptUnit
  split
  · exact ⟨rfl, rfl⟩
  · split
    · obtain ⟨h1, h2⟩ := hvals (by assumption : Commit).entries
      obtain ⟨h3, h4⟩ := hnext ((s.adoptVals u (by assumption : Commit).entries).setRf .cfgCommitSts u u 1) (by assumption)
      exact ⟨h3.trans ((State.out_setRf _ _ _ _ _).trans h1), h4.trans ((State.txq_setRf _ _ _ _ _).trans h2)⟩
    · exact ⟨rfl, rfl⟩

theorem arbitrationRoundEnd_down {s : State} {n : Fin 48} (h : ∀ k, k < 4 → s.subUp (n.val / 4 * 4 + k) = false) :
    exec (.arbitrationRoundEnd n) s = .next (s.adoptUnit (n.val / 4)) := by
  have hexec : exec (.arbitrationRoundEnd n) s = execArbitrationRoundEnd n s := rfl
  have hself := h (n.val % 4) (Nat.mod_lt _ (by norm_num))
  rw [show n.val / 4 * 4 + n.val % 4 = n.val by omega] at hself
  rw [hexec]
  unfold execArbitrationRoundEnd
  rw [if_pos (by rw [hself]; rfl), if_neg]
  rw [List.any_eq_true]
  rintro ⟨k, hk, hup⟩
  rw [h k (List.mem_range.mp hk)] at hup
  exact Bool.false_ne_true hup

theorem arbitrationRoundEnd_up {s : State} {n : Fin 48} (h : s.subUp n.val = true) :
    let q := Map.getD s.txq n.val []
    ∃ t : State, exec (.arbitrationRoundEnd n) s = .next t ∧
      (∀ x ∈ q, Out.message x.2 ∈ t.out ∨ x ∈ Map.getD t.txq n.val []) ∧
      (∀ x rest, q = x :: rest → Map.getD s.deficits (n.val * 128 + x.1) 0 = 0 → 0 < s.roundBytes n.val x.1 →
        Out.message x.2 ∈ t.out) := by
  intro q
  have hexec : exec (.arbitrationRoundEnd n) s = .next ((State.transmit ((s.sessions.map Prod.fst).foldl (fun t i => State.pumpAll t i) s)
      n.val).adoptUnit (n.val / 4)) := by
    have hexec : exec (.arbitrationRoundEnd n) s = execArbitrationRoundEnd n s := rfl
    rw [hexec]
    unfold execArbitrationRoundEnd
    rw [if_neg (by rw [h]; exact Bool.false_ne_true)]
  have hgrow := queuesGrow_pumps (s.sessions.map Prod.fst) s
  rw [hexec]
  generalize (s.sessions.map Prod.fst).foldl (fun t i => State.pumpAll t i) s = u at hgrow
  obtain ⟨hsent, hkept⟩ := u.transmit_spec n.val
  obtain ⟨ext, hext⟩ := hgrow.txq n.val
  obtain ⟨a1, a2⟩ := (u.transmit n.val).adoptUnit_sends (n.val / 4)
  refine ⟨_, rfl, fun x hx => ?_, fun x rest hq hd hb => ?_⟩
  · rw [a1, a2, hkept]
    have hx' : x ∈ Map.getD u.txq n.val [] := by
      rw [hext]
      exact List.mem_append_left _ hx
    exact ((u.round_spec n.val _ ⟨[], [], []⟩).2.2 x hx').imp_left (hsent _)
  · rw [a1]
    refine hsent _ ?_
    have hb' : u.roundBytes n.val x.1 - Map.getD u.deficits (n.val * 128 + x.1) 0 > 0 := by
      have hr : u.roundBytes n.val x.1 = s.roundBytes n.val x.1 := by
        unfold State.roundBytes State.adoptedVal
        rw [hgrow.adopted]
      rw [hr, hgrow.deficits, hd]
      simpa using hb
    have hstep : (u.roundStep n.val ⟨[], [], []⟩ x).sent = [x.2] := by
      unfold State.roundStep
      dsimp only [List.find?_nil]
      rw [if_pos hb']
      rfl
    have hqu : Map.getD u.txq n.val [] = x :: (rest ++ ext) := by
      rw [hext]
      exact congrArg (· ++ ext) hq
    unfold State.roundOf
    rw [hqu, List.foldl_cons]
    exact (u.round_spec n.val _ _).1 _ (by rw [hstep]; exact List.mem_singleton_self _)

/-- Settles O43: the ports, the doorbell, and the timers one after another. -/
theorem linksAndSessions : Obligations.links_and_sessions := by
  unfold Obligations.links_and_sessions
  refine ⟨fun s => ⟨fun k val => portControlWrite_spec s k val,
      fun n => ⟨fun h1 h2 h3 h4 => subportLinkUp_spec h1 h2 h3 h4, fun h => subportLinkDown_spec h⟩,
      fun i val => linkIdentityWrite_spec s i val, fun k h => droppedFrame_spec h,
      fun m hup h1 h2 h3 h4 => exec_reservedOpc hup h1 h2 h3 h4⟩,
    fun s val => ⟨fun h => ?_, fun f h hf c hc => ?_, fun bs h hr => sessDoorbell_spec h hr,
      fun idx ss h hc hr => sessionCloseComplete_spec h hc hr⟩,
    fun s idx ss h hp => ⟨fun hst => helloRetry_spec h hst hp, fun hst => retransmitTimeout_opening h hst hp,
      fun hst => ⟨fun m rest hs => retransmitTimeout_open h hst hs, fun ha => ackTimer_spec h hst ha hp,
        fun hw hr => keepaliveInterval_spec h hst hw hr hp, peerSilence_spec h hst⟩,
      fun n hdown => arbitrationRoundEnd_down hdown, fun n hup => arbitrationRoundEnd_up hup⟩⟩
  · have hdoor := exec_sessDoorbell s val
    rw [State.sessDoorbell_outside h] at hdoor
    exact ⟨hdoor _ List.mem_cons_self, hdoor _ (List.mem_cons_of_mem _ List.mem_cons_self)⟩
  · rw [exec_sessDoorbell s val c hc, State.sessDoorbell_error h hf]

end Sys2Proof.Machine

/-! Proofs: sequenced messages: their checks, their order, and what they do (R284, R289, R290, R292). -/

namespace Sys2Proof.Machine

/-! ### What an operation at this target keeps -/

section
variable {s : State}

theorem queOnly_ctxPage {die ctx va : Nat} {need : Need} {t : State} {c : ActiveCtx} {d : Nat}
    (h : s.ctxPage die ctx va need = .ok (t, c, d)) : QueOnly s t := by
  obtain ⟨rec, -, h⟩ := exists_of_bind_eq_ok h
  split at h
  · cases h
  · split at h
    · split at h
      · cases h
        exact queOnly_noteRecord s ctx
      · cases h
    · obtain ⟨x, -, h⟩ := exists_of_bind_eq_ok h
      cases h
      exact (queOnly_noteRecord s ctx).trans (queOnly_install _ x)

/-- The state that a target's check leaves, whether it admits the range or refuses it. -/
def partState (r : Except (State × Nat × Nat) Target) : State :=
  match r with
  | .error x => x.1
  | .ok a => a.s

theorem queOnly_targetPart (w : Window) (va n : Nat) (need : Need) : QueOnly s (partState (s.targetPart w va n need)) := by
  have hrefused : ∀ (t : State) (f : XFault) (u : State) (p core source queue seq die v : Nat) (ms : List Met) (hu : QueOnly s t),
      QueOnly s (if f.code == 10 then t else t.postXlat f ms need p w.ctx v core source queue seq die) := fun t f u p core source queue seq die v ms hu => by
    split
    · exact hu
    · exact hu.trans (.of_posts (xlatPosts_postXlat _ _ _ _ _ _ _ _ _ _ _ _))
  unfold State.targetPart
  dsimp only
  split
  · exact .refl s
  · split
    · exact hrefused s _ s _ _ _ _ _ _ _ _ (.refl s)
    · next t c dpa hpage =>
      have ht := queOnly_ctxPage hpage
      split
      · exact ht
      · split
        · exact hrefused t _ t _ _ _ _ _ _ _ _ ht
        · split
          · exact ht
          · exact ht

theorem queOnly_targetParts (w : Window) (need : Need) (l : List (Nat × Nat)) (s : State) :
    (∀ r, s.targetParts w need l = .error r → QueOnly s r.s) ∧ (∀ a, s.targetParts w need l = .ok a → QueOnly s a.s) := by
  induction l generalizing s with
  | nil => exact ⟨fun r h => (by cases h), fun a h => by cases h; exact .refl s⟩
  | cons x l ih =>
    have hpart := queOnly_targetPart (s := s) w x.1 x.2 need
    unfold State.targetParts
    cases hp : s.targetPart w x.1 x.2 need with
    | error e =>
      rw [hp] at hpart
      exact ⟨fun r h => by cases h; exact hpart, fun a h => by cases h⟩
    | ok a =>
      rw [hp] at hpart
      obtain ⟨h1, h2⟩ := ih a.s
      dsimp only
      cases hrest : a.s.targetParts w need l with
      | error e => exact ⟨fun r h => by cases h; exact hpart.trans (h1 e hrest), fun a h => by cases h⟩
      | ok b => exact ⟨fun r h => (by cases h), fun c h => by cases h; exact hpart.trans (h2 b hrest)⟩

theorem queOnly_target (p win off n : Nat) (right : Window → Bool) (need : Need) :
    (∀ r, s.target p win off n right need = .error r → QueOnly s r.s) ∧
    (∀ a, s.target p win off n right need = .ok a → QueOnly s a.s) := by
  have herr : ∀ (c d : Nat), (∀ r, (.error ⟨s, c, d⟩ : Except Refused Target) = .error r → QueOnly s r.s) ∧
      (∀ a, (.error ⟨s, c, d⟩ : Except Refused Target) = .ok a → QueOnly s a.s) := fun c d =>
    ⟨fun r h => by cases h; exact .refl s, fun a h => by cases h⟩
  unfold State.target
  split
  · exact herr _ _
  · split
    · exact herr _ _
    · split
      · exact herr _ _
      · split
        · split
          · exact ⟨fun r h => (by cases h), fun a h => by cases h; exact .refl s⟩
          · exact herr _ _
        · exact queOnly_targetParts _ _ _ s

/-- Whatever a message's operation does at its target, the sessions and the RMOs stay. -/
theorem queOnly_applyT (p win off : Nat) (o : TOp) : (∀ v bs, s.applyT p win off o = .ok v bs → QueOnly s v) ∧
    (∀ r, s.applyT p win off o = .fail r → QueOnly s r.s) := by
  obtain ⟨h1, h2⟩ := queOnly_target (s := s) p win off o.len o.right o.need
  unfold State.applyT
  cases ht : s.target p win off o.len o.right o.need with
  | error e =>
    dsimp only
    split
    · exact ⟨fun _ _ h => (by cases h), fun _ h => by cases h⟩
    · exact ⟨fun _ _ h => (by cases h), fun _ h => by cases h; exact h1 e ht⟩
  | ok t =>
    have htq := h2 t ht
    dsimp only
    split
    · exact ⟨fun _ _ h => (by cases h), fun _ h => by cases h⟩
    · split
      · exact ⟨fun _ _ h => (by cases h), fun _ h => by cases h⟩
      · next s1 hc =>
        have hs1 : QueOnly s s1 := by
          split at hc
          · exact htq.trans (.of_caches (cachesOnly_homeRead hc))
          · exact htq.trans (.of_caches (cachesOnly_homeWrite hc))
        split
        · exact ⟨fun _ _ h => (by cases h), fun _ h => by cases h; exact hs1⟩
        · split
          · exact ⟨fun _ _ h => by cases h; exact hs1, fun _ h => by cases h⟩
          · exact ⟨fun _ _ h => by cases h; exact hs1.trans (.of_writes (writesOnly_writeLocs _ _ _ _)), fun _ h => by cases h⟩

end

theorem QueOnly.sessions {s t : State} (h : QueOnly s t) : t.sessions = s.sessions := by rw [h]

/-! ### What an answer keeps -/

/-- The order of session `i` and the bytes of the pools and Heaps stay. -/
structure Answers (i : Nat) (s t : State) : Prop where
  sess : ∀ x, Map.find? s.sessions i = some x → ∃ y, Map.find? t.sessions i = some y ∧ y.heldMsgs = x.heldMsgs ∧ y.rcvPsn = x.rcvPsn
  heap : t.heap = s.heap
  pool : t.pool = s.pool

namespace Answers
variable {i : Nat} {s t u : State}

theorem refl (i : Nat) (s : State) : Answers i s s := ⟨fun x hx => ⟨x, hx, rfl, rfl⟩, rfl, rfl⟩
theorem trans (h : Answers i s t) (k : Answers i t u) : Answers i s u := by
  refine ⟨fun x hx => ?_, k.heap.trans h.heap, k.pool.trans h.pool⟩
  obtain ⟨y, hy, h1, h2⟩ := h.sess x hx
  obtain ⟨z, hz, k1, k2⟩ := k.sess y hy
  exact ⟨z, hz, k1.trans h1, k2.trans h2⟩

theorem of_pump (h : PumpKeeps i s t) : Answers i s t := by
  refine ⟨fun x hx => ?_, h.heap, h.pool⟩
  obtain ⟨y, hy, he⟩ := h.sess x hx
  exact ⟨y, hy, by rw [he], by rw [he]⟩

theorem of_tags (i : Nat) (s : State) (f : Map (Nat × Nat) → Map (Nat × Nat)) :
    Answers i s (s.modSess i (fun x => { x with tags := f x.tags })) :=
  ⟨fun _ hx => ⟨_, State.find_modSess _ hx, rfl, rfl⟩, rfl, rfl⟩

theorem of_logs (i : Nat) (h : LogsOnly s t) : Answers i s t :=
  ⟨fun x hx => ⟨x, by rw [h]; exact hx, rfl, rfl⟩, h.heap, h.pool⟩

end Answers

section
variable (i : Nat) (s : State)

theorem answers_respond (opc : Nat) (b : Body) (payload : List Byte) : Answers i s (s.respond i opc b payload) := by
  have hwait : Answers i s (s.modSess i (fun x => { x with waiting := x.waiting ++ [s.mkMsg 0 opc 0 0 0 0 0 b payload 0] })) :=
    ⟨fun _ hx => ⟨_, State.find_modSess _ hx, rfl, rfl⟩, rfl, rfl⟩
  exact hwait.trans (.of_pump (pumpKeeps_pumpAll i _))

theorem answers_endRmo (tag : Nat) : Answers i s (s.endRmo i tag) := by
  unfold State.endRmo
  split
  · exact .refl i s
  · dsimp only
    split
    · exact (Answers.of_tags i s _).trans (answers_respond i _ _ _ _)
    · exact .of_tags i s _

theorem answers_opFailed (m : Msg) (code off : Nat) : Answers i s (s.opFailed i m code off) := by
  unfold State.opFailed
  split
  · exact .refl i s
  next ss hss =>
    have hu : ∀ b : Bool, Answers i s (if b then s else
        (s.modSess i (fun x => { x with tags := Map.put x.tags m.tag ((Map.getD ss.tags m.tag (0, 0)).1, code) })).respond i (answerOpc m)
          { win := m.win, row := m.row, tag := m.tag, off := off, status := code } []) := fun b => by
      split
      · exact .refl i s
      · exact (Answers.of_tags i s (fun T => Map.put T m.tag ((Map.getD ss.tags m.tag (0, 0)).1, code))).trans (answers_respond i _ _ _ _)
    dsimp only
    split
    · exact (hu _).trans (.of_tags i _ _)
    · exact hu _

theorem answers_opApplied (m : Msg) (bs : List Byte) : Answers i s (s.opApplied i m bs) := by
  unfold State.opApplied
  split
  · exact .refl i s
  next ss hss =>
    have hcount : Answers i s (s.modSess i (fun x => { x with
        tags := Map.put x.tags m.tag ((Map.getD ss.tags m.tag (0, 0)).1 + 1, (Map.getD ss.tags m.tag (0, 0)).2) })) :=
      .of_tags i s (fun T => Map.put T m.tag ((Map.getD ss.tags m.tag (0, 0)).1 + 1, (Map.getD ss.tags m.tag (0, 0)).2))
    dsimp only
    split
    · exact answers_respond i s _ _ _
    · exact answers_respond i s _ _ _
    · exact answers_respond i s _ _ _
    · exact hcount
    · exact answers_endRmo i s _
    · split
      · exact answers_endRmo i s _
      · exact hcount

theorem answers_targetPoison (p win : Nat) : Answers i s (s.targetPoison p win) := .of_logs i (logsOnly_ras s _)

end

/-! ### An operation (R292) -/

/-- The state after an operation's outcome is answered; none while it has to wait. -/
def TRes.answered (r : TRes) (i p : Nat) (m : Msg) : Option State :=
  match r with
  | .wait => none
  | .fail r => some ((if r.code == 7 then r.s.targetPoison p m.win else r.s).opFailed i m r.code r.off)
  | .ok v bs => some (v.opApplied i m bs)

/-- An operation that its partition takes, and that need not wait for data. -/
theorem State.applyOp_of {u : State} {i : Nat} {ss : Session} {m : Msg} {o : TOp} (hs : u.squashing ss.part = false)
    (h8 : m.opc = 0x08 → (Map.getD ss.tags m.tag (0, 0)).2 = 0 ∧ m.ndata ≤ (Map.getD ss.tags m.tag (0, 0)).1) :
    u.applyOp i ss m o = (u.applyT ss.part m.win m.off o).answered i ss.part m := by
  unfold State.applyOp
  dsimp only
  have h1 : ¬ (m.opc == 0x08 && (Map.getD ss.tags m.tag (0, 0)).2 != 0) = true := by
    rw [Bool.and_eq_true, beq_iff_eq, bne_iff_ne]
    exact fun ⟨ho, hne⟩ => hne (h8 ho).1
  have h2 : ¬ (m.opc == 0x08 && decide ((Map.getD ss.tags m.tag (0, 0)).1 < m.ndata)) = true := by
    rw [Bool.and_eq_true, beq_iff_eq, decide_eq_true_eq]
    exact fun ⟨ho, hlt⟩ => absurd (h8 ho).2 (Nat.not_le.mpr hlt)
  rw [if_neg (by rw [hs]; exact Bool.false_ne_true), if_neg h1, if_neg h2]
  unfold TRes.answered
  cases u.applyT ss.part m.win m.off o <;> rfl

/-! ### The answer to an RMO (R292) -/

theorem State.applyAnswer_failed {u : State} {ss : Session} {m : Msg} {c : RmoCmd} (h : u.rmoTagged ss m.tag = some c) (hst : m.status ≠ 0) :
    u.applyAnswer ss m = u.failRmo c ⟨m.status, m.win, m.row, m.off, c.partly⟩ := by
  unfold State.applyAnswer
  rw [h]
  dsimp only
  rw [if_pos (by simpa using hst)]

/-- The RMO of an id has ended. -/
def State.dropRmo (s : State) (id : Nat) : State := { s with rmo := s.rmo.filter (fun o => o.id != id) }

theorem State.dropRmo_spec (s : State) (id : Nat) : (∀ o ∈ (s.dropRmo id).rmo, o.id ≠ id) ∧ (s.dropRmo id).pool = s.pool ∧
    (s.dropRmo id).sessions = s.sessions :=
  ⟨fun o ho => by simpa using (List.mem_filter.mp ho).2, rfl, rfl⟩

theorem State.applyAnswer_done {u : State} {ss : Session} {m : Msg} {c : RmoCmd} (h : u.rmoTagged ss m.tag = some c) (hst : m.status = 0) :
    (m.opc = 0x0B → u.applyAnswer ss m = u.dropRmo c.id) ∧
    (m.opc = 0x05 → u.applyAnswer ss m = (u.rmoResult c m.off m.payload).dropRmo c.id) ∧
    (m.opc = 0x03 → u.applyAnswer ss m = if c.acked + 1 ≥ c.count then (u.rmoResult c m.off m.payload).dropRmo c.id
      else (u.rmoResult c m.off m.payload).putRmo { c with acked := c.acked + 1 }) := by
  unfold State.applyAnswer
  rw [h]
  dsimp only
  rw [if_neg (by simp [hst])]
  refine ⟨fun ho => ?_, fun ho => ?_, fun ho => ?_⟩ <;> rw [ho] <;> rfl

theorem writesOnly_rmoResult (s : State) (c : RmoCmd) (off : Nat) (bs : List Byte) : WritesOnly s (s.rmoResult c off bs) := by
  unfold State.rmoResult
  split
  · exact writesOnly_writeLocs _ _ _ _
  · exact writesOnly_writeLocs _ _ _ _
  · exact .refl s

theorem State.rmoResult_pool_congr {s t : State} (h : t.pool = s.pool) (c : RmoCmd) (off : Nat) (bs : List Byte) :
    (t.rmoResult c off bs).pool = (s.rmoResult c off bs).pool := by
  unfold State.rmoResult
  split
  · exact pool_poolWrite_congr h _ _ _
  · exact pool_poolWrite_congr h _ _ _
  · exact h

/-! ### The next message in order (R290) -/

/-- What a message that is applied leaves of its place: it leaves the reorder buffer, and the next PSN is expected. -/
def State.advance (t : State) (i psn : Nat) : State :=
  t.modSess i (fun x => { x with
    heldMsgs := x.heldMsgs.filter (fun y => y.1 != psn)
    rcvPsn := if x.rcvPsn == psn then (psn + 1) % 2 ^ 24 else x.rcvPsn })

theorem State.sendAck_memory (s : State) (i : Nat) : (s.sendAck i).heap = s.heap ∧ (s.sendAck i).pool = s.pool ∧ (s.sendAck i).rmo = s.rmo := by
  have hctl : ∀ (u : State) (opc psn : Nat) (b : Body) (payload : List Byte), (u.sendCtl i opc psn b payload).heap = u.heap ∧
      (u.sendCtl i opc psn b payload).pool = u.pool ∧ (u.sendCtl i opc psn b payload).rmo = u.rmo := fun u opc psn b payload => by
    unfold State.sendCtl
    split
    · exact ⟨rfl, rfl, rfl⟩
    · split <;> exact ⟨rfl, rfl, rfl⟩
  unfold State.sendAck
  split
  · exact ⟨rfl, rfl, rfl⟩
  · exact hctl _ _ _ _ _

/-- An acknowledgement after 32 arrivals. -/
def State.ackDue (s : State) (i : Nat) : State :=
  match Map.find? s.sessions i with
  | some x => if x.ackCount ≥ 32 then s.sendAck i else s
  | none => s

theorem State.ackDue_spec (s : State) (i : Nat) : (∀ x, Map.find? s.sessions i = some x → ∃ y, Map.find? (s.ackDue i).sessions i = some y ∧
    y.heldMsgs = x.heldMsgs ∧ y.rcvPsn = x.rcvPsn) ∧ (s.ackDue i).heap = s.heap ∧ (s.ackDue i).pool = s.pool ∧ (s.ackDue i).rmo = s.rmo := by
  unfold State.ackDue
  cases h : Map.find? s.sessions i with
  | none => exact ⟨fun x hx => (by cases hx), rfl, rfl, rfl⟩
  | some x =>
    dsimp only
    split
    · obtain ⟨⟨rr, h1⟩, -⟩ := State.sendAck_spec h
      exact ⟨fun y hy => by cases hy; exact ⟨_, h1, rfl, rfl⟩, s.sendAck_memory i⟩
    · exact ⟨fun y hy => by cases hy; exact ⟨x, h, rfl, rfl⟩, rfl, rfl, rfl⟩

/-- The session with the arrived message in its reorder buffer. -/
def Session.holding (ss : Session) (m : Msg) : Session :=
  { ss with
    heldMsgs := ss.heldMsgs ++ [(m.psn, m)]
    ackCount := ss.ackCount + 1 }

section
variable {s : State} {m : Msg} {ss : Session}

theorem State.msgSess_of_heard (h : Heard s m ss) : s.msgSess m = some ss := by
  unfold State.msgSess
  rw [h.sess]
  dsimp only
  obtain ⟨h1, h2⟩ := h.peer
  exact if_pos (by rw [h1, h2]; simp)

theorem State.recvSeq_next (h : NextInOrder s m ss) : s.recvSeq m = ((s.withHeld m).drainSess m.dstSess 8193).ackDue m.dstSess := by
  obtain ⟨hst, hinc⟩ := h.opened
  obtain ⟨hpsn, hheld⟩ := h.order
  unfold State.recvSeq
  dsimp only
  rw [if_neg (by rw [h.heard.formed]; decide), if_neg (by simp [h.heard.inc.1]), State.msgSess_of_heard h.heard]
  dsimp only
  rw [if_neg (by simp [hst]), if_neg (by simp [hinc]), if_neg (by rw [h.form]; decide)]
  unfold State.acceptSeq
  have hahead : (m.psn + 2 ^ 24 - ss.rcvPsn) % 2 ^ 24 = 0 := by
    rw [hpsn]
    omega
  rw [hahead, hheld]
  rfl

theorem State.find_withHeld (h : Map.find? s.sessions m.dstSess = some ss) :
    Map.find? (s.withHeld m).sessions m.dstSess = some (ss.holding m) := State.find_modSess _ h

/-- The one message of the reorder buffer is applied. -/
theorem State.drainSess_applied {u t : State} {i f : Nat} {x : Session} (hx : Map.find? u.sessions i = some x) (hh : x.heldMsgs = [(x.rcvPsn, m)])
    (ha : u.applyMsg i x m = some t)
    (ht : ∀ y, Map.find? (t.advance i x.rcvPsn).sessions i = some y → y.heldMsgs = []) :
    u.drainSess i (f + 1) = t.advance i x.rcvPsn := by
  have hstep : u.drainSess i (f + 1) = (t.advance i x.rcvPsn).drainSess i f := by
    conv_lhs => unfold State.drainSess
    rw [hx]
    dsimp only
    rw [hh, List.find?_cons_of_pos (by simp)]
    dsimp only
    rw [ha]
    rfl
  rw [hstep]
  exact State.drainSess_of_empty ht

theorem State.drainSess_waits {u : State} {i f : Nat} {x : Session} (hx : Map.find? u.sessions i = some x) (hh : x.heldMsgs = [(x.rcvPsn, m)])
    (ha : u.applyMsg i x m = none) : u.drainSess i (f + 1) = u := by
  unfold State.drainSess
  rw [hx]
  dsimp only
  rw [hh, List.find?_cons_of_pos (by simp)]
  dsimp only
  rw [ha]

/-- A message that is applied: the session expects the next PSN and holds nothing. -/
theorem State.recvSeq_applied (h : NextInOrder s m ss) {t : State} (ha : (s.withHeld m).applyMsg m.dstSess (ss.holding m) m = some t)
    (ht : ∀ x, Map.find? (s.withHeld m).sessions m.dstSess = some x →
      ∃ y, Map.find? t.sessions m.dstSess = some y ∧ y.heldMsgs = x.heldMsgs ∧ y.rcvPsn = x.rcvPsn) :
    (∃ x, Map.find? (s.recvSeq m).sessions m.dstSess = some x ∧ x.rcvPsn = (m.psn + 1) % 2 ^ 24 ∧ x.heldMsgs = []) ∧
    (s.recvSeq m).heap = t.heap ∧ (s.recvSeq m).pool = t.pool ∧ (s.recvSeq m).rmo = t.rmo := by
  obtain ⟨hpsn, hheld⟩ := h.order
  have hfind := State.find_withHeld h.heard.sess
  have hh : (ss.holding m).heldMsgs = [((ss.holding m).rcvPsn, m)] := by
    change ss.heldMsgs ++ [(m.psn, m)] = [(ss.rcvPsn, m)]
    rw [hheld, hpsn]
    rfl
  obtain ⟨y, hy, hyh, hyr⟩ := ht _ hfind
  rw [hh] at hyh
  have hr : (ss.holding m).rcvPsn = m.psn := hpsn.symm
  have hadv : Map.find? (t.advance m.dstSess (ss.holding m).rcvPsn).sessions m.dstSess =
      some { y with
        heldMsgs := y.heldMsgs.filter (fun z => z.1 != (ss.holding m).rcvPsn)
        rcvPsn := if y.rcvPsn == (ss.holding m).rcvPsn then ((ss.holding m).rcvPsn + 1) % 2 ^ 24 else y.rcvPsn } := State.find_modSess _ hy
  have hmem : (t.advance m.dstSess (ss.holding m).rcvPsn).heap = t.heap ∧ (t.advance m.dstSess (ss.holding m).rcvPsn).pool = t.pool ∧
      (t.advance m.dstSess (ss.holding m).rcvPsn).rmo = t.rmo := ⟨rfl, rfl, rfl⟩
  rw [hyh, hyr, List.filter_cons_of_neg (by simp), List.filter_nil, if_pos (beq_self_eq_true _)] at hadv
  rw [State.recvSeq_next h, State.drainSess_applied hfind hh ha fun z hz => by cases hz.symm.trans hadv; rfl]
  generalize t.advance m.dstSess (ss.holding m).rcvPsn = v at hadv hmem
  obtain ⟨k1, k2, k3, k4⟩ := v.ackDue_spec m.dstSess
  obtain ⟨z, hz, hzh, hzr⟩ := k1 _ hadv
  obtain ⟨m1, m2, m3⟩ := hmem
  exact ⟨⟨z, hz, hzr.trans (by rw [hr]), hzh⟩, k2.trans m1, k3.trans m2, k4.trans m3⟩

/-- A message that waits stays in the reorder buffer. -/
theorem State.recvSeq_waits (h : NextInOrder s m ss) (ha : (s.withHeld m).applyMsg m.dstSess (ss.holding m) m = none) :
    ∃ x, Map.find? (s.recvSeq m).sessions m.dstSess = some x ∧ x.rcvPsn = m.psn ∧ x.heldMsgs = [(m.psn, m)] := by
  obtain ⟨hpsn, hheld⟩ := h.order
  have hfind := State.find_withHeld h.heard.sess
  have hh : (ss.holding m).heldMsgs = [((ss.holding m).rcvPsn, m)] := by
    change ss.heldMsgs ++ [(m.psn, m)] = [(ss.rcvPsn, m)]
    rw [hheld, hpsn]
    rfl
  rw [State.recvSeq_next h, State.drainSess_waits hfind hh ha]
  obtain ⟨k1, -⟩ := (s.withHeld m).ackDue_spec m.dstSess
  obtain ⟨z, hz, hzh, hzr⟩ := k1 _ hfind
  exact ⟨z, hz, hzr.trans hpsn.symm, hzh.trans (hh.trans (by rw [show (ss.holding m).rcvPsn = m.psn from hpsn.symm]))⟩

/-! ### Operations and answers in order -/

theorem recvSeq_operation (h : NextInOrder s m ss) {o : TOp} (ho : msgOp m = some o) (hs : (s.withHeld m).squashing ss.part = false)
    (h8 : m.opc = 0x08 → (Map.getD ss.tags m.tag (0, 0)).2 = 0 ∧ m.ndata ≤ (Map.getD ss.tags m.tag (0, 0)).1) :
    let u := s.withHeld m
    let w := s.recvSeq m
    let advances := ∃ x, Map.find? w.sessions m.dstSess = some x ∧ x.rcvPsn = (m.psn + 1) % 2 ^ 24 ∧ x.heldMsgs = []
    (∀ v bs, u.applyT ss.part m.win m.off o = .ok v bs → advances ∧ w.heap = v.heap ∧ w.pool = v.pool) ∧
    (∀ r, u.applyT ss.part m.win m.off o = .fail r → advances ∧ w.heap = r.s.heap ∧ w.pool = r.s.pool) ∧
    (u.applyT ss.part m.win m.off o = .wait →
      ∃ x, Map.find? w.sessions m.dstSess = some x ∧ x.rcvPsn = m.psn ∧ x.heldMsgs = [(m.psn, m)]) := by
  intro u w advances
  have happly : u.applyMsg m.dstSess (ss.holding m) m = (u.applyT ss.part m.win m.off o).answered m.dstSess ss.part m := by
    unfold State.applyMsg
    rw [ho]
    exact State.applyOp_of (ss := ss.holding m) hs h8
  obtain ⟨q1, q2⟩ := queOnly_applyT (s := u) ss.part m.win m.off o
  refine ⟨fun v bs hv => ?_, fun r hr => ?_, fun hw => ?_⟩
  · rw [hv] at happly
    have hk := answers_opApplied m.dstSess v m bs
    have hq := (q1 v bs hv).sessions
    obtain ⟨k1, k2, k3, -⟩ := State.recvSeq_applied h happly fun x hx => hk.sess x (by rw [hq]; exact hx)
    exact ⟨k1, k2.trans hk.heap, k3.trans hk.pool⟩
  · rw [hr] at happly
    have hp : Answers m.dstSess r.s (if r.code == 7 then r.s.targetPoison ss.part m.win else r.s) := by
      split
      · exact answers_targetPoison _ _ _ _
      · exact .refl _ _
    have hk := hp.trans (answers_opFailed m.dstSess _ m r.code r.off)
    have hq := (q2 r hr).sessions
    obtain ⟨k1, k2, k3, -⟩ := State.recvSeq_applied h happly fun x hx => hk.sess x (by rw [hq]; exact hx)
    exact ⟨k1, k2.trans hk.heap, k3.trans hk.pool⟩
  · rw [hw] at happly
    exact State.recvSeq_waits h happly

theorem recvSeq_answer (h : NextInOrder s m ss) {c : RmoCmd} (ho : msgOp m = none) (hopcs : m.opc = 0x0B ∨ m.opc = 0x05 ∨ m.opc = 0x03) (hc : (s.withHeld m).rmoTagged ss m.tag = some c) :
    let w := s.recvSeq m
    let advances := ∃ x, Map.find? w.sessions m.dstSess = some x ∧ x.rcvPsn = (m.psn + 1) % 2 ^ 24 ∧ x.heldMsgs = []
    (m.status ≠ 0 → advances ∧ ∀ o ∈ w.rmo, o.id ≠ c.id) ∧
    (m.status = 0 → advances ∧ (m.opc = 0x0B → w.pool = s.pool ∧ ∀ o ∈ w.rmo, o.id ≠ c.id) ∧
      (m.opc = 0x05 → w.pool = (s.rmoResult c m.off m.payload).pool ∧ ∀ o ∈ w.rmo, o.id ≠ c.id) ∧
      (m.opc = 0x03 → w.pool = (s.rmoResult c m.off m.payload).pool ∧
        (c.count ≤ c.acked + 1 → ∀ o ∈ w.rmo, o.id ≠ c.id) ∧
        (c.acked + 1 < c.count → ∃ o ∈ w.rmo, o.id = c.id ∧ o.acked = c.acked + 1))) := by
  intro w advances
  have happly : (s.withHeld m).applyMsg m.dstSess (ss.holding m) m = some ((s.withHeld m).applyAnswer (ss.holding m) m) := by
    unfold State.applyMsg
    rw [ho]
  have htag : (s.withHeld m).rmoTagged (ss.holding m) m.tag = some c := hc
  have hcm : c ∈ (s.withHeld m).rmo := List.mem_of_find?_eq_some hc
  have hpool : (s.withHeld m).pool = s.pool := rfl
  have hres : ∀ off bs, ((s.withHeld m).rmoResult c off bs).pool = (s.rmoResult c off bs).pool := fun off bs =>
    State.rmoResult_pool_congr hpool c off bs
  have hadv : ∀ t : State, t.sessions = (s.withHeld m).sessions → (s.withHeld m).applyAnswer (ss.holding m) m = t →
      advances ∧ w.pool = t.pool ∧ w.rmo = t.rmo := fun t ht he => by
    rw [he] at happly
    obtain ⟨k1, -, k3, k4⟩ := State.recvSeq_applied h happly fun x hx => ⟨x, by rw [ht]; exact hx, rfl, rfl⟩
    exact ⟨k1, k3, k4⟩
  have hresult := writesOnly_rmoResult (s.withHeld m) c m.off m.payload
  have hrsess : ((s.withHeld m).rmoResult c m.off m.payload).sessions = (s.withHeld m).sessions := by rw [hresult]
  have hrrmo : ((s.withHeld m).rmoResult c m.off m.payload).rmo = (s.withHeld m).rmo := by rw [hresult]
  refine ⟨fun hst => ?_, fun hst => ?_⟩
  · obtain ⟨hend, hgone⟩ := rmosEnd_failRmo (s.withHeld m) c ⟨m.status, m.win, m.row, m.off, c.partly⟩
    obtain ⟨k1, -, k3⟩ := hadv _ hend.sessions (State.applyAnswer_failed htag hst)
    exact ⟨k1, by rw [k3]; exact hgone⟩
  · obtain ⟨hB, h5, h3⟩ := State.applyAnswer_done htag hst
    have hall : advances := by
      rcases hopcs with hopc | hopc | hopc
      · exact (hadv _ ((s.withHeld m).dropRmo_spec c.id).2.2 (hB hopc)).1
      · exact (hadv _ ((State.dropRmo_spec _ c.id).2.2.trans hrsess) (h5 hopc)).1
      · refine (hadv _ ?_ (h3 hopc)).1
        split
        · exact (State.dropRmo_spec _ c.id).2.2.trans hrsess
        · exact hrsess
    refine ⟨hall, fun hopc => ?_, fun hopc => ?_, fun hopc => ?_⟩
    · obtain ⟨d1, d2, d3⟩ := (s.withHeld m).dropRmo_spec c.id
      obtain ⟨-, k2, k3⟩ := hadv _ d3 (hB hopc)
      exact ⟨k2.trans (d2.trans hpool), by rw [k3]; exact d1⟩
    · obtain ⟨d1, d2, d3⟩ := ((s.withHeld m).rmoResult c m.off m.payload).dropRmo_spec c.id
      obtain ⟨-, k2, k3⟩ := hadv _ (d3.trans hrsess) (h5 hopc)
      exact ⟨k2.trans (d2.trans (hres _ _)), by rw [k3]; exact d1⟩
    · by_cases hlast : c.acked + 1 ≥ c.count
      · obtain ⟨d1, d2, d3⟩ := ((s.withHeld m).rmoResult c m.off m.payload).dropRmo_spec c.id
        obtain ⟨-, k2, k3⟩ := hadv _ (d3.trans hrsess) ((h3 hopc).trans (if_pos hlast))
        exact ⟨k2.trans (d2.trans (hres _ _)), fun _ => by rw [k3]; exact d1, fun hlt => absurd hlast (Nat.not_le.mpr hlt)⟩
      · obtain ⟨-, k2, k3⟩ := hadv ((State.rmoResult (s.withHeld m) c m.off m.payload).putRmo { c with acked := c.acked + 1 }) hrsess
          ((h3 hopc).trans (if_neg hlast))
        refine ⟨k2.trans (hres _ _), fun hge => absurd hge hlast, fun _ => ⟨{ c with acked := c.acked + 1 }, ?_, rfl, rfl⟩⟩
        rw [k3]
        exact List.mem_map.mpr ⟨c, by rw [hrrmo]; exact hcm, if_pos (beq_self_eq_true _)⟩

end

/-! ### The checks of a header (R284, R289) -/

theorem recv_of {opc : Nat} {m : Msg} {s : State} (k : State → State) (ho : m.opc = opc) (hup : s.subUp m.subport.val = true) :
    recv opc m s k = .next (k s) := by
  unfold recv
  rw [if_neg (by simp [ho]), if_neg (by simp [hup])]

section
variable {s : State} {m : Msg}

theorem recvSeq_malformed (h : msgFormed m = false) : s.recvSeq m = s.rxDrop (m.subport.val / 4) := by
  unfold State.recvSeq
  dsimp only
  rw [if_pos (by simp [h])]

theorem recvSeq_stale (h : msgFormed m = true) (hi : m.dstInc ≠ s.incarnation) : s.recvSeq m = s.answer m 0x11 5 := by
  unfold State.recvSeq
  dsimp only
  rw [if_neg (by simp [h]), if_pos (by simpa using hi)]

theorem recvSeq_unbound (h : msgFormed m = true) (hi : m.dstInc = s.incarnation) (hs : s.msgSess m = none) :
    s.recvSeq m = s.answer m 0x11 6 := by
  unfold State.recvSeq
  dsimp only
  rw [if_neg (by simp [h]), if_neg (by simp [hi]), hs]

theorem recvSeq_bound {ss : Session} (h : msgFormed m = true) (hi : m.dstInc = s.incarnation) (hs : s.msgSess m = some ss) :
    (ss.st ≠ 0 → s.recvSeq m = s.answer m 0x11 6) ∧ (ss.st = 0 → m.srcInc ≠ ss.peerInc → s.recvSeq m = s.answer m 0x11 5) ∧
    (ss.st = 0 → m.srcInc = ss.peerInc → lacks ss.version m = false → 2 ^ 23 ≤ (m.psn + 2 ^ 24 - ss.rcvPsn) % 2 ^ 24 →
      s.recvSeq m = s.sendAck m.dstSess) := by
  unfold State.recvSeq
  dsimp only
  rw [if_neg (by simp [h]), if_neg (by simp [hi]), hs]
  dsimp only
  refine ⟨fun hst => by rw [if_pos (by simpa using hst)], fun hst hp => ?_, fun hst hp hl hahead => ?_⟩
  · rw [if_neg (by simp [hst]), if_pos (by simpa using hp)]
  · rw [if_neg (by simp [hst]), if_neg (by simp [hp]), if_neg (by simp [hl])]
    unfold State.acceptSeq
    dsimp only
    rw [if_pos (show (m.psn + 2 ^ 24 - ss.rcvPsn) % 2 ^ 24 ≥ 8192 from le_trans (by norm_num) hahead), if_pos hahead]

/-- Of the sequenced messages, responses and COMP alone ask for no operation. -/
theorem opc_of_msgOp_none (hlo : 1 ≤ m.opc) (hhi : m.opc ≤ 0x0B) (h : msgOp m = none) : m.opc = 0x0B ∨ m.opc = 0x05 ∨ m.opc = 0x03 := by
  unfold msgOp at h
  generalize m.opc = n at *
  split at h
  iterate 8 cases h
  interval_cases n <;> simp_all

end

/-- The commands of sequenced messages, with their opcodes. -/
theorem exec_sequenced : ∀ p ∈ ([(Instr.putData, 0x01), (Instr.getRequest, 0x02), (Instr.getResponse, 0x03), (Instr.ratomMessage, 0x04),
      (Instr.ratomResponse, 0x05), (Instr.sigMessage, 0x06), (Instr.putsData, 0x07), (Instr.putsSignal, 0x08),
      (Instr.iputRow, 0x09), (Instr.redMessage, 0x0A), (Instr.comp, 0x0B)] : List ((Msg → Instr) × Nat)),
    (1 ≤ p.2 ∧ p.2 ≤ 0x0B) ∧ ∀ (s : State) (m : Msg), exec (p.1 m) s = recv p.2 m s (fun s => s.recvSeq m) := by
  intro p hp
  simp only [List.mem_cons, List.not_mem_nil, or_false] at hp
  rcases hp with rfl | rfl | rfl | rfl | rfl | rfl | rfl | rfl | rfl | rfl | rfl
  all_goals exact ⟨by decide, fun _ _ => rfl⟩

/-- Settles O44: the header's checks, then the message in order, by what it asks for. -/
theorem sequencedMessagesComplete : Obligations.sequenced_messages_complete := by
  unfold Obligations.sequenced_messages_complete
  intro p hp s m hopc hup nak
  obtain ⟨⟨hlo, hhi⟩, hrecv⟩ := exec_sequenced p hp
  have hexec : exec (p.1 m) s = .next (s.recvSeq m) := (hrecv s m).trans (recv_of _ hopc hup)
  have hnak : ∀ r, s.recvSeq m = s.answer m 0x11 r → nak r := fun r h => hexec.trans (by rw [h])
  refine ⟨fun h => hexec.trans (by rw [recvSeq_malformed h]), fun h hi => hnak _ (recvSeq_stale h hi),
    fun h hi hs => hnak _ (recvSeq_unbound h hi hs), fun ss h hi hs => ?_, fun ss hnext => ⟨fun o _ ho hsq h8 => ?_, fun c ho hc => ?_⟩⟩
  · obtain ⟨h1, h2, h3⟩ := recvSeq_bound h hi hs
    exact ⟨fun hst => hnak _ (h1 hst), fun hst hp => hnak _ (h2 hst hp), fun hst hp hl ha => hexec.trans (by rw [h3 hst hp hl ha])⟩
  · obtain ⟨h1, h2, h3⟩ := recvSeq_operation hnext ho hsq (fun h => h8 (hopc ▸ h))
    refine ⟨fun v bs hv => ⟨_, hexec, h1 v bs hv⟩, fun r hr => ⟨_, hexec, h2 r hr⟩, fun hw => ?_⟩
    obtain ⟨x, hx⟩ := h3 hw
    exact ⟨_, x, hexec, hx⟩
  · obtain ⟨h1, h2⟩ := recvSeq_answer hnext ho (opc_of_msgOp_none (hopc ▸ hlo) (hopc ▸ hhi) ho) hc
    refine ⟨fun hst => ⟨_, hexec, h1 hst⟩, fun hst => ?_⟩
    obtain ⟨k1, k2, k3, k4⟩ := h2 hst
    exact ⟨_, hexec, k1, fun h => k2 (hopc.trans h), fun h => k3 (hopc.trans h), fun h => k4 (hopc.trans h)⟩

end Sys2Proof.Machine

/-! Proofs: acknowledgements and the handshake (R287, R288, R291, R293, R295). -/

namespace Sys2Proof.Machine

/-! ### The checks of an unsequenced message (R284, R295) -/

section
variable {s : State} {m : Msg} {ss : Session}

theorem State.recvCtl_heard (k : Session → State) (h : Heard s m ss) : s.recvCtl m k = k ss := by
  unfold State.recvCtl
  dsimp only
  rw [if_neg (by rw [h.formed]; decide), if_neg (by simp [h.inc.1]), State.msgSess_of_heard h]
  dsimp only
  refine if_neg fun hc => ?_
  rw [Bool.and_eq_true, Bool.and_eq_true, bne_iff_ne, Bool.not_eq_true'] at hc
  obtain ⟨⟨hk, hne⟩, hr⟩ := hc
  rcases h.inc.2 hk with he | he
  · exact hne he
  · exact Bool.false_ne_true (hr.symm.trans he)

theorem State.recvCtl_stale (k : Session → State) (ho : m.opc ≠ 0x11) (hf : msgFormed m = true) (hi : m.dstInc ≠ s.incarnation) :
    s.recvCtl m k = s.answer m 0x11 5 := by
  unfold State.recvCtl
  dsimp only
  rw [if_neg (by rw [hf]; decide), if_pos (by simpa using hi), if_neg (by simpa using ho)]

/-! ### Acknowledgements (R291) -/

/-- The session after an acknowledgement. -/
def Session.taken (x : Session) (m : Msg) (moved : Bool) : Session :=
  { x with sent := (x.sent.filter (fun y => !acked m.psn y.psn)).map (fun y => { y with
      rounds := if moved then 0 else y.rounds
      marked := ackMarks m.psn (ofLe m.payload) y.psn }) }

theorem Session.psns_taken (x : Session) (m : Msg) (moved : Bool) :
    (x.taken m moved).sent.map (fun y => y.psn) = (x.sent.filter (fun y => !acked m.psn y.psn)).map (fun y => y.psn) := by
  unfold Session.taken
  dsimp only
  rw [List.map_map]
  rfl

theorem exec_ack (ho : m.opc = 0x10) (h : Heard s m ss) (hst : ss.st = 0) (hl : lacks ss.version m = false) :
    exec (.ack m) s = .next ((s.modSess m.dstSess (fun x => x.taken m (ss.sent.any (fun y => acked m.psn y.psn)))).pumpAll m.dstSess) := by
  have hexec : exec (.ack m) s = execAck m s := rfl
  rw [hexec]
  unfold execAck
  rw [recv_of _ ho h.up, State.recvCtl_heard _ h]
  rw [if_neg (by rw [hst, hl]; decide)]
  rfl

/-- A session with nothing to send sends nothing. -/
theorem State.pump_idle {u : State} {i f : Nat} {x : Session} (hx : Map.find? u.sessions i = some x) (hw : x.waiting = []) (hr : u.rmo = []) :
    u.pump i f = u := by
  cases f with
  | zero => rfl
  | succ f =>
    unfold State.pump
    rw [hx]
    dsimp only
    split
    · rfl
    · rw [hw, hr]
      rfl

theorem ack_spec (ho : m.opc = 0x10) (h : Heard s m ss) (hst : ss.st = 0) (hl : lacks ss.version m = false) :
    ∃ w : State, exec (.ack m) s = .next w ∧
      (s.rmo = [] → ss.waiting = [] → ∃ x, Map.find? w.sessions m.dstSess = some x ∧
        x.sent.map (fun y => y.psn) = (ss.sent.filter (fun y => !acked m.psn y.psn)).map (fun y => y.psn)) := by
  refine ⟨_, exec_ack ho h hst hl, fun hr hw => ?_⟩
  have hfind := State.find_modSess (fun x => x.taken m (ss.sent.any (fun y => acked m.psn y.psn))) h.sess
  have hrmo := rmo_modSess s m.dstSess (fun x => x.taken m (ss.sent.any (fun y => acked m.psn y.psn)))
  unfold State.pumpAll
  rw [State.pump_idle hfind hw (hrmo.trans hr)]
  exact ⟨_, hfind, Session.psns_taken _ _ _⟩

theorem exec_nak (ho : m.opc = 0x11) (h : Heard s m ss) (hst : ss.st = 0) : exec (.nak m) s = .next
    (if m.status == 5 then (s.failRmos 9 (fun c => c.on ss)).startHello m.dstSess
      else if m.status == 6 then s.failSess m.dstSess 8 7 else s) := by
  have hexec : exec (.nak m) s = execNak m s := rfl
  rw [hexec]
  unfold execNak
  rw [recv_of _ ho h.up, State.recvCtl_heard _ h]
  rw [if_neg (by rw [hst]; decide)]

theorem nak_spec (ho : m.opc = 0x11) (h : Heard s m ss) (hst : ss.st = 0) :
    (m.status = 5 → ∃ (w : State) (x : Session), exec (.nak m) s = .next w ∧ Map.find? w.sessions m.dstSess = some x ∧ x.st = 2 ∧ x.sent = [] ∧
      ∀ c ∈ w.rmo, c.on ss = false) ∧
    (m.status = 6 → ∃ (w : State) (x : Session), exec (.nak m) s = .next w ∧ Map.find? w.sessions m.dstSess = some x ∧ x.st = 7 ∧
      ∀ c ∈ w.rmo, c.on ss = false) := by
  rw [exec_nak ho h hst]
  refine ⟨fun h5 => ?_, fun h6 => ?_⟩
  · obtain ⟨hr, hgone⟩ := rmosEnd_failRmos s 9 (fun c => c.on ss)
    obtain ⟨⟨isn, rr, k1⟩, k2, -⟩ := State.startHello_spec (s := s.failRmos 9 (fun c => c.on ss)) (by rw [hr.sessions]; exact h.sess)
    refine ⟨_, _, by rw [if_pos (beq_iff_eq.mpr h5)], k1, rfl, rfl, fun c hc => hgone c (by rwa [k2] at hc)⟩
  · obtain ⟨k1, k2⟩ := State.failSess_spec 8 7 h.sess
    exact ⟨_, _, by rw [if_neg (by simp [h6]), if_pos (beq_iff_eq.mpr h6)], k1, rfl, k2⟩

/-! ### HELLO (R287, R288) -/

theorem State.find_pumpAll {u : State} {i : Nat} {x : Session} (h : Map.find? u.sessions i = some x) :
    ∃ y, Map.find? (u.pumpAll i).sessions i = some y ∧ y = { x with sent := y.sent, waiting := y.waiting, sndPsn := y.sndPsn, rr := y.rr } :=
  (pumpKeeps_pumpAll i u).sess x h

/-- Both conditions of R287: the session opens, and what waits may be sent. -/
theorem State.tryOpen_spec {u : State} {i : Nat} {x : Session} (h : Map.find? u.sessions i = some x) :
    ∃ y, Map.find? (u.tryOpen i).sessions i = some y ∧
      y = { x with
        st := if x.gotAck = true ∧ x.known = true then 0 else x.st
        sent := y.sent, waiting := y.waiting, sndPsn := y.sndPsn, rr := y.rr } := by
  unfold State.tryOpen
  rw [h]
  dsimp only
  split
  · next hc =>
    rw [Bool.and_eq_true, Bool.and_eq_true] at hc
    obtain ⟨k1, -⟩ := State.setSessSt_spec 0 h
    obtain ⟨y, hy, he⟩ := State.find_pumpAll k1
    exact ⟨y, hy, by rw [if_pos hc.1]; exact he⟩
  · next hc =>
    refine ⟨x, h, ?_⟩
    by_cases hb : x.gotAck = true ∧ x.known = true
    · have hst : x.st = 0 := by simpa [hb] using hc
      rw [if_pos hb, ← hst]
    · rw [if_neg hb]

theorem State.refusal_lt {r : Nat} (h : s.refusal m = some r) : r < 256 := by
  unfold State.refusal at h
  split at h
  · cases h
    norm_num
  · split_ifs at h <;> cases h <;> norm_num

theorem State.boundSess_of_refusal_none (h : s.refusal m = none) (hs : Map.find? s.sessions m.dstSess = some ss) : s.boundSess m = some ss := by
  have hne : s.boundSess m ≠ none := fun hn => by
    unfold State.refusal at h
    rw [hn] at h
    cases h
  unfold State.boundSess at hne ⊢
  rw [hs] at hne ⊢
  dsimp only at hne ⊢
  split at hne
  · next hc => rw [if_pos hc]
  · exact absurd rfl hne

theorem exec_hello (ho : m.opc = 0x20) (hup : s.subUp m.subport.val = true) (hf : msgFormed m = true)
    (hz : ofLe ((m.payload.drop 5).take 3) = 0 ∧ ofLe (m.payload.drop 24) = 0) :
    (∀ r, s.refusal m = some r → exec (.hello m) s = .next ((s.answer m 0x22 r).logRefusal m.srcNode r)) ∧
    (∀ x, s.refusal m = none → s.boundSess m = some x → exec (.hello m) s = .next (s.takeHello m x)) := by
  have hexec : exec (.hello m) s = execHello m s := rfl
  have hform : ¬ (!msgFormed m || ofLe ((m.payload.drop 5).take 3) != 0 || ofLe (m.payload.drop 24) != 0) = true := by
    rw [hf, hz.1, hz.2]
    decide
  rw [hexec]
  unfold execHello
  rw [recv_of _ ho hup]
  rw [if_neg hform]
  refine ⟨fun r hr => by rw [hr], fun x hr hx => by rw [hr, hx]⟩

theorem hello_refused (ho : m.opc = 0x20) (hup : s.subUp m.subport.val = true) (hf : msgFormed m = true)
    (hz : ofLe ((m.payload.drop 5).take 3) = 0 ∧ ofLe (m.payload.drop 24) = 0) {r : Nat} (hr : s.refusal m = some r) :
    ∃ (w : State) (a : Msg), exec (.hello m) s = .next w ∧ Out.message a ∈ w.out ∧ a.opc = 0x22 ∧ a.status = r ∧ a.dstNode = m.srcNode ∧
      w.sessions = s.sessions ∧ ∃ e ∈ w.ras, e.cls = 0x10 ∧ e.detail = r := by
  have hnode : m.srcNode < 65536 := Nat.mod_lt _ (by norm_num)
  have hout : ∃ a, (s.answer m 0x22 r).out = .message a :: s.out ∧ a.opc = 0x22 ∧ a.status = r ∧ a.dstNode = m.srcNode := by
    have hmsg : ∀ ver : Nat, ∃ a, (s.emit (.message (s.mkMsg ver 0x22 m.srcNode m.srcInc m.srcSess m.dstSess 0 { status := r } [] m.subport))).out =
        .message a :: s.out ∧ a.opc = 0x22 ∧ a.status = r ∧ a.dstNode = m.srcNode := fun ver => by
      obtain ⟨h1, h2, -, -⟩ := mkMsg_fields s ver 0x22 m.srcNode m.srcInc m.srcSess m.dstSess 0 { status := r } [] m.subport (by norm_num)
        hnode (by norm_num)
      have h3 := mkMsg_status s ver 0x22 m.srcNode m.srcInc m.srcSess m.dstSess 0 { status := r } [] m.subport (State.refusal_lt hr)
      exact ⟨_, rfl, h1, h3, h2⟩
    exact hmsg _
  have hsess : (s.answer m 0x22 r).sessions = s.sessions := rfl
  rw [(exec_hello ho hup hf hz).1 r hr]
  generalize s.answer m 0x22 r = u at hout hsess
  obtain ⟨a, ha, h1, h2, h3⟩ := hout
  obtain ⟨e, he, hcls, -, -, hdet⟩ := u.stored_ras { rasOf 0x10 1 15 0x08 0 r with extra4 := m.srcNode } (.inr Nat.one_ne_zero)
  have hlog : LogsOnly u (u.logRefusal m.srcNode r) := logsOnly_ras _ _
  exact ⟨_, a, rfl, outGrows_ras u _ _ (by rw [ha]; exact List.mem_cons_self), h1, h2, h3, (by rw [hlog]; exact hsess), e, he, hcls, hdet⟩

/-- An accepted HELLO of a session that is opening: the peer's parameters are recorded and HELLO_ACK leaves. -/
theorem State.takeHello_opening (hst : ss.st = 2) : s.takeHello m ss =
    ((s.modSess m.dstSess (fun x => x.learn m.srcInc (helloIsn m) (min (helloV m 1) 0x12))).sendHelloAck m.dstSess).tryOpen m.dstSess := by
  unfold State.takeHello
  dsimp only
  have h0 : ¬ (ss.st == 0) = true := by rw [hst]; decide
  have h5 : ¬ (ss.st == 5) = true := by rw [hst]; decide
  have h25 : (ss.st == 2 || ss.st == 5) = true := by rw [hst]; decide
  rw [if_neg h0, if_pos h25, if_neg h5]

theorem State.find_sendHelloAck {u : State} {i : Nat} {x : Session} (h : Map.find? u.sessions i = some x) :
    ∃ rr, Map.find? (u.sendHelloAck i).sessions i = some { x with rr := rr } := by
  unfold State.sendHelloAck
  rw [h]
  exact (State.sendCtl_spec 0x21 0 {} _ h (by norm_num) (length_helloPayload _ _ _)).2.1

theorem hello_taken (ho : m.opc = 0x20) (hup : s.subUp m.subport.val = true) (hf : msgFormed m = true)
    (hz : ofLe ((m.payload.drop 5).take 3) = 0 ∧ ofLe (m.payload.drop 24) = 0) (hr : s.refusal m = none)
    (hs : Map.find? s.sessions m.dstSess = some ss) (hst : ss.st = 2) :
    ∃ (w : State) (x : Session), exec (.hello m) s = .next w ∧ Map.find? w.sessions m.dstSess = some x ∧
      x.known = true ∧ x.peerInc = m.srcInc ∧ x.rcvPsn = helloIsn m ∧ x.version = min (helloV m 1) 0x12 ∧
      x.st = if ss.gotAck then 0 else 2 := by
  rw [(exec_hello ho hup hf hz).2 ss hr (State.boundSess_of_refusal_none hr hs), State.takeHello_opening hst]
  obtain ⟨rr, h1⟩ := State.find_sendHelloAck (State.find_modSess (fun x => x.learn m.srcInc (helloIsn m) (min (helloV m 1) 0x12)) hs)
  obtain ⟨y, hy, he⟩ := State.tryOpen_spec h1
  refine ⟨_, y, rfl, hy, by rw [he]; rfl, by rw [he]; rfl, by rw [he]; rfl, by rw [he]; rfl, ?_⟩
  have hy : y.st = if ss.gotAck = true ∧ true = true then 0 else ss.st := by rw [he]; rfl
  rw [hy, hst]
  simp only [and_true]

/-! ### HELLO_ACK, REFUSE, CLOSE and KEEPALIVE (R287, R288, R293) -/

theorem State.boundSess_of_heard (ho : m.opc ≠ 0x22) (h : Heard s m ss) (hc : ss.closing = false) : s.boundSess m = some ss := by
  obtain ⟨h1, h2⟩ := h.peer
  have hpeer : ss.peer = m.srcNode := by
    unfold State.fromPeer at h1
    rw [Bool.or_eq_true, Bool.and_eq_true, Bool.and_eq_true, beq_iff_eq, beq_iff_eq] at h1
    exact h1.resolve_right fun hx => ho hx.1.1
  unfold State.boundSess
  rw [h.sess]
  dsimp only
  exact if_pos (by rw [hpeer, h2, hc]; simp)

/-- The peer's parameters as HELLO_ACK leaves them: those known already, where they are the same. -/
def State.learnAck (s : State) (m : Msg) (ss : Session) : State :=
  if ss.known && ss.peerInc == m.srcInc && ss.peerIsn == helloIsn m then s
  else s.modSess m.dstSess (fun x => x.learn m.srcInc (helloIsn m) (helloV m 0))

theorem State.learnAck_spec (h : Map.find? s.sessions m.dstSess = some ss) : ∃ x, Map.find? (s.learnAck m ss).sessions m.dstSess = some x ∧
    x.known = true ∧ (ss.known = false → x.peerInc = m.srcInc ∧ x.rcvPsn = helloIsn m ∧ x.version = helloV m 0) := by
  unfold State.learnAck
  split
  · next hc =>
    rw [Bool.and_eq_true, Bool.and_eq_true] at hc
    exact ⟨ss, h, hc.1.1, fun hk => absurd (hk.symm.trans hc.1.1) Bool.false_ne_true⟩
  · exact ⟨_, State.find_modSess _ h, rfl, fun _ => ⟨rfl, rfl, rfl⟩⟩

theorem exec_helloAck (ho : m.opc = 0x21) (h : Heard s m ss) (hz : ofLe ((m.payload.drop 5).take 3) = 0 ∧ ofLe (m.payload.drop 24) = 0)
    (hc : ss.closing = false) (hst : ss.st = 2 ∨ ss.st = 5) (hlo : 0x10 ≤ helloV m 0) (hhi : helloV m 0 ≤ 0x12) :
    exec (.helloAck m) s = .next (((s.learnAck m ss).modSess m.dstSess (fun x => { x with
      gotAck := true
      retries := 0 })).tryOpen m.dstSess) := by
  have hexec : exec (.helloAck m) s = execHelloAck m s := rfl
  have hform : ¬ (!msgFormed m || ofLe ((m.payload.drop 5).take 3) != 0 || ofLe (m.payload.drop 24) != 0) = true := by
    rw [h.formed, hz.1, hz.2]
    decide
  rw [hexec]
  unfold execHelloAck
  rw [recv_of _ ho h.up]
  rw [if_neg hform, if_neg (by simp [h.inc.1]), State.boundSess_of_heard (by rw [ho]; decide) h hc]
  dsimp only
  rw [if_neg]
  · rfl
  · rw [Bool.or_eq_true, Bool.or_eq_true, decide_eq_true_eq, decide_eq_true_eq, Bool.not_eq_true', Bool.or_eq_false_iff, beq_eq_false_iff_ne,
      beq_eq_false_iff_ne]
    rintro ((⟨h2, h5⟩ | hlt) | hgt)
    · exact hst.elim h2 h5
    · omega
    · omega

theorem helloAck_spec (ho : m.opc = 0x21) (h : Heard s m ss) (hz : ofLe ((m.payload.drop 5).take 3) = 0 ∧ ofLe (m.payload.drop 24) = 0)
    (hc : ss.closing = false) (hst : ss.st = 2 ∨ ss.st = 5) (hlo : 0x10 ≤ helloV m 0) (hhi : helloV m 0 ≤ 0x12) :
    ∃ (w : State) (x : Session), exec (.helloAck m) s = .next w ∧ Map.find? w.sessions m.dstSess = some x ∧ x.st = 0 ∧ x.gotAck = true ∧
      x.known = true ∧ (ss.known = false → x.peerInc = m.srcInc ∧ x.rcvPsn = helloIsn m ∧ x.version = helloV m 0) := by
  obtain ⟨x, hx, hk, hnew⟩ := State.learnAck_spec h.sess
  rw [exec_helloAck ho h hz hc hst hlo hhi]
  obtain ⟨y, hy, he⟩ := State.tryOpen_spec (State.find_modSess (fun x => { x with
      gotAck := true
      retries := 0 }) hx)
  have hyst : y.st = if true = true ∧ x.known = true then 0 else x.st := by rw [he]
  refine ⟨_, y, rfl, hy, ?_, by rw [he], ?_, fun hn => ?_⟩
  · rw [hyst, hk, if_pos ⟨rfl, rfl⟩]
  · rw [he]
    exact hk
  · obtain ⟨n1, n2, n3⟩ := hnew hn
    rw [he]
    exact ⟨n1, n2, n3⟩

theorem exec_refuse (ho : m.opc = 0x22) (h : Heard s m ss) (hst : ss.st = 2 ∨ ss.st = 5) (hlo : 1 ≤ m.status) (hhi : m.status ≤ 4) :
    exec (.refuse m) s = .next (if m.status == 1 then
        ((s.logRefusal ss.peer m.status).setSessSt m.dstSess (refusedSt m.status)).modSess m.dstSess (fun x => { x with retries := 0 })
      else ((s.logRefusal ss.peer m.status).setSessSt m.dstSess (refusedSt m.status)).failRmos 6 (fun c => c.on ss)) := by
  have hexec : exec (.refuse m) s = execRefuse m s := rfl
  rw [hexec]
  unfold execRefuse
  rw [recv_of _ ho h.up, State.recvCtl_heard _ h]
  rw [if_neg]
  rw [Bool.or_eq_true, Bool.or_eq_true, decide_eq_true_eq, beq_iff_eq, Bool.not_eq_true', Bool.or_eq_false_iff, beq_eq_false_iff_ne,
    beq_eq_false_iff_ne]
  rintro ((⟨h2, h5⟩ | h0) | h4)
  · exact hst.elim h2 h5
  · omega
  · omega

theorem refuse_spec (ho : m.opc = 0x22) (h : Heard s m ss) (hst : ss.st = 2 ∨ ss.st = 5) (hlo : 1 ≤ m.status) (hhi : m.status ≤ 4) :
    ∃ (w : State) (x : Session), exec (.refuse m) s = .next w ∧ Map.find? w.sessions m.dstSess = some x ∧ x.st = refusedSt m.status ∧
      (2 ≤ m.status → ∀ c ∈ w.rmo, c.on ss = false) := by
  have hlog : LogsOnly s (s.logRefusal ss.peer m.status) := logsOnly_ras _ _
  have hsess : Map.find? (s.logRefusal ss.peer m.status).sessions m.dstSess = some ss := by
    rw [hlog]
    exact h.sess
  obtain ⟨k1, -⟩ := State.setSessSt_spec (refusedSt m.status) hsess
  rw [exec_refuse ho h hst hlo hhi]
  generalize (s.logRefusal ss.peer m.status).setSessSt m.dstSess (refusedSt m.status) = u at k1
  by_cases h1 : m.status = 1
  · rw [if_pos (beq_iff_eq.mpr h1)]
    exact ⟨_, _, rfl, State.find_modSess _ k1, rfl, fun h2 => absurd h2 (by omega)⟩
  · rw [if_neg (by simpa using h1)]
    obtain ⟨hr, hgone⟩ := rmosEnd_failRmos u 6 (fun c => c.on ss)
    exact ⟨_, _, rfl, by rw [hr.sessions]; exact k1, rfl, fun _ => hgone⟩

theorem close_spec (ho : m.opc = 0x23) (h : Heard s m ss) (hk : ss.known = true) :
    ∃ (w : State) (x : Session), exec (.close m) s = .next w ∧ Map.find? w.sessions m.dstSess = some x ∧ x.st = 7 ∧ x.known = false ∧
      ∀ c ∈ w.rmo, c.on ss = false := by
  have hexec : exec (.close m) s = .next (s.failSess m.dstSess 9 7) := by
    have hexec : exec (.close m) s = execClose m s := rfl
    rw [hexec]
    unfold execClose
    rw [recv_of _ ho h.up, State.recvCtl_heard _ h]
    rw [if_pos hk]
  obtain ⟨k1, k2⟩ := State.failSess_spec 9 7 h.sess
  exact ⟨_, _, hexec, k1, rfl, rfl, k2⟩

theorem exec_keepalive (ho : m.opc = 0x24) (h : Heard s m ss) : exec (.keepalive m) s = .next s := by
  have hexec : exec (.keepalive m) s = execKeepalive m s := rfl
  rw [hexec]
  unfold execKeepalive
  rw [recv_of _ ho h.up, State.recvCtl_heard _ h]

/-- A message with an old incarnation of this device (R295). -/
theorem exec_stale : ∀ p ∈ ([(Instr.ack, 0x10), (Instr.helloAck, 0x21), (Instr.refuse, 0x22), (Instr.close, 0x23), (Instr.keepalive, 0x24)] :
      List ((Msg → Instr) × Nat)),
    m.opc = p.2 → s.subUp m.subport.val = true → msgFormed m = true →
    (p.2 = 0x21 → ofLe ((m.payload.drop 5).take 3) = 0 ∧ ofLe (m.payload.drop 24) = 0) → m.dstInc ≠ s.incarnation →
    exec (p.1 m) s = .next (s.answer m 0x11 5) := by
  intro p hp ho hup hf hz hi
  have hctl : ∀ (opc : Nat) (k : State → Session → State), m.opc = opc → opc ≠ 0x11 →
      recv opc m s (fun s => s.recvCtl m (k s)) = .next (s.answer m 0x11 5) := fun opc k h hne =>
    (recv_of _ h hup).trans (by rw [State.recvCtl_stale (k s) (by rw [h]; exact hne) hf hi])
  simp only [List.mem_cons, List.not_mem_nil, or_false] at hp
  rcases hp with rfl | rfl | rfl | rfl | rfl
  · have hexec : exec (.ack m) s = execAck m s := rfl
    unfold execAck at hexec
    exact hexec.trans (hctl 0x10 _ ho (by decide))
  · have hexec : exec (.helloAck m) s = execHelloAck m s := rfl
    obtain ⟨hz1, hz2⟩ := hz rfl
    have hform : ¬ (!msgFormed m || ofLe ((m.payload.drop 5).take 3) != 0 || ofLe (m.payload.drop 24) != 0) = true := by
      rw [hf, hz1, hz2]
      decide
    rw [hexec]
    unfold execHelloAck
    rw [recv_of _ ho hup]
    rw [if_neg hform, if_pos (by simpa using hi)]
  · have hexec : exec (.refuse m) s = execRefuse m s := rfl
    unfold execRefuse at hexec
    exact hexec.trans (hctl 0x22 _ ho (by decide))
  · have hexec : exec (.close m) s = execClose m s := rfl
    unfold execClose at hexec
    exact hexec.trans (hctl 0x23 _ ho (by decide))
  · have hexec : exec (.keepalive m) s = execKeepalive m s := rfl
    unfold execKeepalive at hexec
    exact hexec.trans (hctl 0x24 _ ho (by decide))

end

/-- Settles O45: message by message. -/
theorem controlMessagesComplete : Obligations.control_messages_complete := by
  unfold Obligations.control_messages_complete
  intro s m ss sess zeros
  exact ⟨fun ho hup hf hz => ⟨fun r hr => hello_refused ho hup hf hz hr, fun hr hs hst => hello_taken ho hup hf hz hr hs hst⟩,
    fun h => ⟨fun ho hst hl => ack_spec ho h hst hl, fun ho hst => nak_spec ho h hst,
      fun ho hz hc hst hlo hhi => helloAck_spec ho h hz hc hst hlo hhi, fun ho hst hlo hhi => refuse_spec ho h hst hlo hhi,
      fun ho hk => close_spec ho h hk, fun ho => exec_keepalive ho h⟩,
    fun p hp ho hup hf hz hi => exec_stale p hp ho hup hf hz hi⟩

end Sys2Proof.Machine

/-! Proofs: accesses to the registers through the BARs (R7 to R9, R267, R306, R394 to R401). -/

namespace Sys2Proof.Machine

/-! ### Which register an offset names (Tables 24-1, 24-6, 24-7) -/

theorem Reg.key_of_ofOffset_part {o : Nat} {r : Reg} {high : Bool} (h : Reg.ofOffset o = some (r, high)) :
    r.key = o / 8 * 8 ∧ r.exists_ = true := by
  unfold Reg.ofOffset at h
  split at h
  case h_2 => cases h
  case h_1 r' hr =>
    rcases ite_eq_iff.mp h with ⟨hc, h⟩ | ⟨-, h⟩
    · injection h with h
      injection h with hreg hb
      subst hreg
      exact ⟨Reg.keyed_at8 (by omega) r' hr, (Bool.and_eq_true_iff.mp hc).1⟩
    · cases h

/-- The buffers, mirrors, doorbells and apertures of BAR0 hold no register (Table 24-1). -/
def windowOff (o : Nat) : Prop :=
  (0x200000 ≤ o ∧ o < 0x600000) ∨ (0x100000 ≤ o ∧ o < 0x102000) ∨ (0x1000000 ≤ o ∧ o < 0x1200000) ∨
    (0x3480000 ≤ o ∧ o < 0x34C0000) ∨ (0x3810000 ≤ o ∧ o < 0x3820000)

theorem Reg.key_outside_windows (r : Reg) (h : r.exists_ = true) : ¬ windowOff r.key := by
  unfold windowOff
  cases r
  all_goals
    simp only [Reg.exists_, Bool.and_eq_true, Bool.or_eq_true, decide_eq_true_eq, beq_iff_eq] at h
    simp only [Reg.key, panBase, vfBase]
    omega

theorem Reg.offset_outside_windows {o : Nat} {r : Reg} {high : Bool} (h : Reg.ofOffset o = some (r, high)) : ¬ windowOff o := by
  obtain ⟨hk, he⟩ := Reg.key_of_ofOffset_part h
  have hr := Reg.key_outside_windows r he
  unfold windowOff at *
  omega

/-! ### The forms of an access (R7, R9) -/

/-- An access of 4 or 8 aligned bytes. -/
def Sized (a : RegAccess) : Prop := (a.size = 4 ∨ a.size = 8) ∧ a.off % a.size = 0

theorem sized_iff (a : RegAccess) : (!(a.size == 4 || a.size == 8) || a.off % a.size != 0) = true ↔ ¬ Sized a := by
  unfold Sized
  rw [Bool.or_eq_true, Bool.not_eq_true', Bool.or_eq_false_iff, beq_eq_false_iff_ne, beq_eq_false_iff_ne, bne_iff_ne]
  tauto

theorem accessPart_eq (a : RegAccess) (w : Nat) :
    accessPart a w = if a.size = 8 then w else if a.off % 8 = 4 then fld w 63 32 else fld w 31 0 := by
  unfold accessPart
  by_cases h8 : a.size = 8
  · rw [if_pos h8, if_pos (beq_iff_eq.mpr h8)]
  · rw [if_neg h8, if_neg (by simpa using h8)]
    by_cases h4 : a.off % 8 = 4
    · rw [if_pos h4, if_pos (beq_iff_eq.mpr h4)]
    · rw [if_neg h4, if_neg (by simpa using h4)]

section
variable {s : State} {a : RegAccess}

theorem exec_registerWrite_pf (hb : a.bar2 = false) (hf : a.fn = 0) : exec (.registerWrite a) s = s.accessPf a := by
  have hexec : exec (.registerWrite a) s = execRegisterWrite a s := rfl
  rw [hexec]
  unfold execRegisterWrite State.access
  rw [if_pos (by omega), if_neg (by rw [hb]; exact Bool.false_ne_true), if_pos (by rw [hf]; rfl)]

theorem exec_registerWrite_vf {p : Nat} (hb : a.bar2 = false) (hf : a.fn = p + 1) (hp : p < 96) :
    exec (.registerWrite a) s = s.accessVf a p := by
  have hexec : exec (.registerWrite a) s = execRegisterWrite a s := rfl
  rw [hexec]
  unfold execRegisterWrite State.access
  rw [if_pos (by omega), if_neg (by rw [hb]; exact Bool.false_ne_true), if_neg (by rw [hf]; simp), hf, Nat.add_sub_cancel]

theorem State.reject_write (hr : a.read = false) : s.reject a = .next (s.accessError 9 a.fn a.off) := by
  unfold State.reject
  dsimp only
  rw [if_neg (by rw [hr]; exact Bool.false_ne_true)]

/-- An access outside the mirror has one of the sizes of a register. -/
theorem State.accessPf_unsized (hm : a.off < 0x200000) (hs : ¬ Sized a) : s.accessPf a = s.reject a := by
  unfold State.accessPf
  rw [if_neg (by rw [Bool.and_eq_true, decide_eq_true_eq, decide_eq_true_eq]; omega), if_pos ((sized_iff a).mpr hs)]

/-- An access by the register at its offset. -/
def State.namedAccess (s : State) (a : RegAccess) : Res :=
  match Reg.ofOffset a.off with
  | some (r, high) => s.accessReg a r high
  | none => s.unassigned a 394

theorem State.namedAccess_some {r : Reg} {high : Bool} (h : Reg.ofOffset a.off = some (r, high)) : s.namedAccess a = s.accessReg a r high := by
  unfold State.namedAccess
  rw [h]

theorem State.namedAccess_none (h : Reg.ofOffset a.off = none) : s.namedAccess a = s.unassigned a 394 := by
  unfold State.namedAccess
  rw [h]

theorem State.accessPf_sized (hs : Sized a) (hw : ¬ windowOff a.off) : s.accessPf a = s.namedAccess a := by
  unfold windowOff at hw
  unfold State.accessPf
  simp only [not_or, not_and, not_lt] at hw
  obtain ⟨h1, h2, h3, h4, h5⟩ := hw
  have hno : ∀ lo hi : Nat, (lo ≤ a.off → hi ≤ a.off) → ¬ (decide (lo ≤ a.off) && decide (a.off < hi)) = true := fun lo hi h => by
    rw [Bool.and_eq_true, decide_eq_true_eq, decide_eq_true_eq]
    omega
  rw [if_neg (hno _ _ h1), if_neg (fun h => (sized_iff a).mp h hs), if_neg (hno _ _ h2), if_neg (hno _ _ h3), if_neg (hno _ _ h4),
    if_neg (hno _ _ h5)]
  rfl

theorem State.accessPf_register {r : Reg} {high : Bool} (hs : Sized a) (h : Reg.ofOffset a.off = some (r, high)) :
    s.accessPf a = s.accessReg a r high := by
  rw [State.accessPf_sized hs (Reg.offset_outside_windows h), State.namedAccess_some h]

theorem State.accessPf_mbox (hs : Sized a) (hlo : 0x100000 ≤ a.off) (hhi : a.off < 0x102000) : s.accessPf a = s.accessMbox a := by
  unfold State.accessPf
  rw [if_neg (by rw [Bool.and_eq_true, decide_eq_true_eq, decide_eq_true_eq]; omega), if_neg (fun h => (sized_iff a).mp h hs),
    if_pos (by rw [Bool.and_eq_true, decide_eq_true_eq, decide_eq_true_eq]; exact ⟨hlo, hhi⟩)]

/-! ### An access to a register -/

/-- The access has a form that the register has (R9). -/
def Fits (a : RegAccess) (r : Reg) : Prop := a.size = 4 ∨ r.width = 64

theorem Reg.width_cases (r : Reg) : r.width = 32 ∨ r.width = 64 := by
  cases r <;> simp [Reg.width]

theorem fits_iff (hs : Sized a) (r : Reg) : (a.size == 8 && r.width == 32) = true ↔ ¬ Fits a r := by
  have hw := r.width_cases
  obtain ⟨hsz, -⟩ := hs
  unfold Fits
  rw [Bool.and_eq_true, beq_iff_eq, beq_iff_eq]
  omega

/-- The register belongs to a die that is out of service (R399). -/
def State.regDown (s : State) (r : Reg) : Prop :=
  panBase 0 ≤ r.key ∧ r.key < panBase 12 ∧ s.dieUp ((r.key - panBase 0) / 0x100000) = false

theorem State.regDown_iff (r : Reg) : (decide (panBase 0 ≤ r.key) && decide (r.key < panBase 12) &&
    !s.dieUp ((r.key - panBase 0) / 0x100000)) = true ↔ s.regDown r := by
  unfold State.regDown
  rw [Bool.and_eq_true, Bool.and_eq_true, decide_eq_true_eq, decide_eq_true_eq, Bool.not_eq_true', and_assoc]

theorem State.blockReady_of_down {r : Reg} (he : r.exists_ = true) (h : s.regDown r) : s.blockReady r = false := by
  obtain ⟨hlo, hhi, hd⟩ := h
  have hin : ∀ b : Bool, ((!(decide (panBase 0 ≤ r.key) && decide (r.key < panBase 12))) || s.dieUp ((r.key - panBase 0) / 0x100000)) = false := fun _ => by
    rw [decide_eq_true hlo, decide_eq_true hhi, hd]
    rfl
  have hport : panBase 12 = 0x4C00000 ∧ panBase 0 = 0x4000000 := ⟨rfl, rfl⟩
  unfold State.blockReady
  split
  case h_9 => exact hin true
  all_goals
    simp only [Reg.key] at hlo hhi
    simp only [Reg.exists_, Bool.and_eq_true, decide_eq_true_eq] at he
    omega

theorem State.readReg_unready {r : Reg} (h : s.blockReady r = false) : s.readReg r = r.shown r.resetVal := by
  unfold State.readReg
  rw [if_pos (by rw [h]; rfl)]

theorem State.readReg_ready {r : Reg} (h : s.blockReady r = true) (hd : ∀ b i, r ≠ .dmaEngSts b i) : s.readReg r = r.shown (s.reg r) := by
  unfold State.readReg
  rw [if_neg (by rw [h]; exact Bool.false_ne_true)]
  split
  · exact absurd rfl (hd _ _)
  · rfl

theorem State.accessReg_read {r : Reg} {high : Bool} (hs : Sized a) (hf : Fits a r) (hr : a.read = true) :
    s.accessReg a r high = s.reply a (accessPart a (s.readReg r)) := by
  unfold State.accessReg
  dsimp only
  rw [if_neg (fun h => (fits_iff hs r).mp h hf), if_pos hr]

theorem State.accessReg_unfit {r : Reg} {high : Bool} (hs : Sized a) (hf : ¬ Fits a r) : s.accessReg a r high = s.reject a := by
  unfold State.accessReg
  dsimp only
  rw [if_pos ((fits_iff hs r).mpr hf)]

theorem State.accessReg_down {r : Reg} {high : Bool} (hs : Sized a) (hf : Fits a r) (hr : a.read = false) (hd : s.regDown r) :
    s.accessReg a r high = .next (s.dropped 399 0x7F) := by
  unfold State.accessReg
  dsimp only
  rw [if_neg (fun h => (fits_iff hs r).mp h hf), if_neg (by rw [hr]; exact Bool.false_ne_true), if_pos ((State.regDown_iff r).mpr hd)]

theorem State.accessReg_half {r : Reg} {high : Bool} (hr : a.read = false) (hd : ¬ s.regDown r) (h4 : a.size = 4)
    (hw : r.wholeOnly = true) : s.accessReg a r high = .next (s.accessError 396 a.fn a.off) := by
  unfold State.accessReg
  dsimp only
  rw [if_neg (by rw [h4]; simp), if_neg (by rw [hr]; exact Bool.false_ne_true), if_neg (fun h => hd ((State.regDown_iff r).mp h)),
    if_pos (by rw [h4, hw]; rfl)]

/-- The bits that a write of an access names. -/
def accessBits (a : RegAccess) (high : Bool) : Nat × Nat := if a.size == 8 then (63, 0) else if high then (63, 32) else (31, 0)

theorem State.accessReg_write {r : Reg} {high : Bool} (hs : Sized a) (hf : Fits a r) (hr : a.read = false) (hd : ¬ s.regDown r)
    (hw : r.wholeOnly = false) : s.accessReg a r high =
      s.writeReg a.fn r (accessBits a high).1 (accessBits a high).2
        (setFld (s.reg r) (accessBits a high).1 (accessBits a high).2 a.val.toNat) := by
  unfold State.accessReg
  dsimp only
  rw [if_neg (fun h => (fits_iff hs r).mp h hf), if_neg (by rw [hr]; exact Bool.false_ne_true), if_neg (fun h => hd ((State.regDown_iff r).mp h)),
    if_neg (by rw [hw, Bool.and_false]; exact Bool.false_ne_true)]
  rfl

/-! ### A write of a plain register -/

/-- Registers that a write does nothing to but set their fields. -/
def plainRegs (p : Nat) : List Reg :=
  [.rstWdog p, .rasRingBase, .rasRingHead, .rstBtnSel, .schCtab p, .schQtab p, .schPsave p, .schQuantum p, .xltWinTab p]

theorem writeReg_plain {r : Reg} {p : Nat} (h : r ∈ plainRegs p) (fn whi wlo v : Nat) :
    s.writeReg fn r whi wlo v = .next (s.setReg r (r.written whi wlo (s.reg r) v)) := by
  simp only [plainRegs, List.mem_cons, List.not_mem_nil, or_false] at h
  rcases h with rfl | rfl | rfl | rfl | rfl | rfl | rfl | rfl | rfl <;> rfl

theorem plain_spec {r : Reg} {p : Nat} (hp : p < 128) (h : r ∈ plainRegs p) : r.wholeOnly = false ∧ ¬ s.regDown r := by
  have hbase : panBase 0 = 0x4000000 := rfl
  simp only [plainRegs, List.mem_cons, List.not_mem_nil, or_false] at h
  have hkey : r.key < 0x4000000 := by
    rcases h with rfl | rfl | rfl | rfl | rfl | rfl | rfl | rfl | rfl <;> simp only [Reg.key] <;> omega
  refine ⟨?_, fun hd => absurd hd.1 (by omega)⟩
  rcases h with rfl | rfl | rfl | rfl | rfl | rfl | rfl | rfl | rfl <;> rfl

/-- Of a value put over a whole word, a write takes the bits of the value. -/
theorem fld_setFld_whole (w v : Nat) {h l : Nat} (hh : h ≤ 63) : fld (setFld w 63 0 v) h l = fld v h l := by
  apply Nat.eq_of_testBit_eq
  intro i
  rw [testBit_fld, testBit_fld, testBit_setFld _ _ _ _ _ (Nat.zero_le _)]
  by_cases hi : i < h + 1 - l
  · rw [if_pos ⟨Nat.zero_le _, by omega⟩, Nat.sub_zero]
  · simp [hi]

theorem Field.write_whole (f : Field) (old w v : Nat) : f.write 63 0 old (setFld w 63 0 v) = f.write 63 0 old v := by
  unfold Field.write
  dsimp only
  rw [fld_setFld_whole _ _ (min_le_right _ _)]

theorem Reg.written_whole (r : Reg) (old w v : Nat) : r.written 63 0 old (setFld w 63 0 v) = r.written 63 0 old v := by
  unfold Reg.written
  simp only [Field.write_whole]

theorem State.heap_out_setReg (s : State) (r : Reg) (v : Nat) : (s.setReg r v).heap = s.heap ∧ (s.setReg r v).out = s.out := ⟨rfl, rfl⟩

theorem registerWrite_plain {r : Reg} {high : Bool} {p : Nat} (hb : a.bar2 = false) (hf : a.fn = 0) (hs : Sized a)
    (ho : Reg.ofOffset a.off = some (r, high)) (hfit : Fits a r) (hr : a.read = false) (hp : p < 128) (hplain : r ∈ plainRegs p) :
    ∃ t : State, exec (.registerWrite a) s = .next t ∧ t.heap = s.heap ∧ t.out = s.out ∧ (∀ q : Reg, q.key ≠ r.key → t.reg q = s.reg q) ∧
      t.reg r = if a.size = 8 then r.written 63 0 (s.reg r) a.val.toNat
        else if high = true then r.written 63 32 (s.reg r) (setFld (s.reg r) 63 32 a.val.toNat)
        else r.written 31 0 (s.reg r) (setFld (s.reg r) 31 0 a.val.toNat) := by
  obtain ⟨hw, hd⟩ := plain_spec (s := s) hp hplain
  rw [exec_registerWrite_pf hb hf, State.accessPf_register hs ho, State.accessReg_write hs hfit hr hd hw, writeReg_plain hplain]
  obtain ⟨h1, h2⟩ := s.heap_out_setReg r (r.written (accessBits a high).1 (accessBits a high).2 (s.reg r)
    (setFld (s.reg r) (accessBits a high).1 (accessBits a high).2 a.val.toNat))
  refine ⟨_, rfl, h1, h2, fun q hq => State.reg_setReg_of_ne _ _ hq, ?_⟩
  rw [State.reg_setReg_same]
  unfold accessBits
  by_cases h8 : a.size = 8
  · rw [if_pos (beq_iff_eq.mpr h8), if_pos h8]
    exact Reg.written_whole _ _ _ _
  · rw [if_neg (by simpa using h8), if_neg h8]
    cases high <;> rfl

/-! ### The mailbox's request buffer (R401) -/

theorem Memory.read_writeBytes (m : Memory) (bs : List Byte) (o j : Nat) :
    Memory.read (Memory.writeBytes m o bs) j = if o ≤ j ∧ j < o + bs.length then bs.getD (j - o) 0 else Memory.read m j := by
  induction bs generalizing m o with
  | nil =>
    rw [if_neg (by simp only [List.length_nil]; omega)]
    rfl
  | cons b bs ih =>
    have hput : Memory.read (Memory.write m o b) j = if j = o then b else Memory.read m j := by
      unfold Memory.read Memory.write
      rw [Map.getD_putD]
    change Memory.read (Memory.writeBytes (Memory.write m o b) (o + 1) bs) j = _
    rw [ih, hput, List.length_cons]
    by_cases hj : j = o
    · rw [if_neg (by omega), if_pos hj, if_pos (by omega), hj, Nat.sub_self]
      rfl
    · rw [if_neg hj]
      by_cases hin : o + 1 ≤ j ∧ j < o + 1 + bs.length
      · rw [if_pos hin, if_pos (by omega), show j - o = (j - (o + 1)) + 1 by omega]
        rfl
      · rw [if_neg hin, if_neg (by omega)]

theorem getD_leBytes (v n i : Nat) (h : i < n) : (leBytes v n).getD i 0 = BitVec.ofNat 8 (v / 256 ^ i) := by
  induction n generalizing v i with
  | zero => omega
  | succ n ih =>
    cases i with
    | zero =>
      rw [pow_zero, Nat.div_one]
      rfl
    | succ i =>
      change (leBytes (v / 256) n).getD i 0 = _
      rw [ih _ _ (by omega), Nat.div_div_eq_div_mul, pow_succ, mul_comm]

theorem registerWrite_mbox (hb : a.bar2 = false) (hf : a.fn = 0) (hs : Sized a) (hlo : 0x100000 ≤ a.off) (hhi : a.off < 0x101000)
    (hr : a.read = false) : ∃ t : State, exec (.registerWrite a) s = .next t ∧ t.regs = s.regs ∧
      (∀ i, i < a.size → t.mboxReq.read (a.off - 0x100000 + i) = BitVec.ofNat 8 (a.val.toNat / 256 ^ i)) ∧
      ∀ o, o < a.off - 0x100000 ∨ a.off - 0x100000 + a.size ≤ o → t.mboxReq.read o = s.mboxReq.read o := by
  have hexec : exec (.registerWrite a) s = .next { s with mboxReq := s.mboxReq.writeBytes (a.off % 4096) (leBytes a.val.toNat a.size) } := by
    rw [exec_registerWrite_pf hb hf, State.accessPf_mbox hs hlo (by omega)]
    unfold State.accessMbox
    dsimp only
    rw [if_neg (by rw [hr]; exact Bool.false_ne_true), if_pos hhi]
  rw [hexec, show a.off % 4096 = a.off - 0x100000 by omega]
  refine ⟨_, rfl, rfl, fun i hi => ?_, fun o ho => ?_⟩
  · dsimp only
    rw [Memory.read_writeBytes, length_leBytes, if_pos (by omega), Nat.add_sub_cancel_left, getD_leBytes _ _ _ hi]
  · dsimp only
    rw [Memory.read_writeBytes, length_leBytes, if_neg (by omega)]

/-! ### The BARs of a partition (R267, R306, R400) -/

theorem exec_sitebMmio_vf {p : Nat} (hf : a.fn = p + 1) (hp : p < 96) : exec (.sitebMmio a) s =
    if s.siteOf p = 1 then s.access a else .next ((s.emit (.completion 1 a.fn 1)).dropped 306 p) := by
  have hexec : exec (.sitebMmio a) s = execSitebMmio a s := rfl
  have hsub : a.fn - 1 = p := by omega
  have hne : (a.fn == 0) = false := by rw [hf]; exact beq_eq_false_iff_ne.mpr (by omega)
  rw [hexec]
  unfold execSitebMmio
  rw [if_neg (by omega), hsub, hne]
  by_cases h1 : s.siteOf p = 1
  · rw [if_pos h1, if_pos (by rw [h1, bne, hne]; rfl)]
  · rw [if_neg h1, if_neg (by simp [h1])]
    rfl

theorem State.accessVf_low {p : Nat} (hon : s.partOn p = true) (ho : a.off < 0x20000) (hs : Sized a) (hr : a.read = true) :
    s.accessVf a p = s.reply a 0 := by
  have hview : (decide (0xFC000 ≤ a.off) && decide (a.off < 0xFC070)) = false := by
    rw [Bool.and_eq_false_iff, decide_eq_false_iff_not]
    exact .inl (by omega)
  have hsz : ((a.size == 4 || a.size == 8) && a.off % a.size == 0) = true := by
    obtain ⟨h1, h2⟩ := hs
    rw [Bool.and_eq_true, Bool.or_eq_true, beq_iff_eq, beq_iff_eq, beq_iff_eq]
    exact ⟨h1, h2⟩
  unfold State.accessVf
  dsimp only
  rw [hview, hsz]
  rw [if_neg (by simp), if_neg Bool.false_ne_true]
  dsimp only
  rw [if_neg (by rw [hon]; exact Bool.false_ne_true), if_neg (by rw [Bool.and_eq_true, decide_eq_true_eq]; omega), if_neg (by simp),
    if_pos ho, if_pos hr]

theorem State.accessVf_view_unsized {p : Nat} (hlo : 0xFC000 ≤ a.off) (hhi : a.off < 0xFC070) (hs : ¬ Sized a) : s.accessVf a p = s.reject a := by
  unfold State.accessVf
  dsimp only
  rw [if_pos]
  rw [Bool.and_eq_true, Bool.and_eq_true, decide_eq_true_eq, decide_eq_true_eq, Bool.not_eq_true', ← Bool.not_eq_true, Bool.and_eq_true,
    Bool.or_eq_true, beq_iff_eq, beq_iff_eq, beq_iff_eq]
  exact ⟨⟨hlo, hhi⟩, hs⟩

theorem State.accessVf_off {p : Nat} (hoff : s.partOn p = false) (hlo : 0xFD000 ≤ a.off) : s.accessVf a p = s.unassigned a 267 := by
  have hview : (decide (0xFC000 ≤ a.off) && decide (a.off < 0xFC070)) = false := by
    rw [Bool.and_eq_false_iff, decide_eq_false_iff_not, decide_eq_false_iff_not]
    exact .inr (by omega)
  unfold State.accessVf
  dsimp only
  rw [hview]
  rw [if_neg (by simp), if_neg Bool.false_ne_true]
  dsimp only
  rw [if_pos (by rw [hoff]; rfl)]

theorem State.unassigned_write {rule : Nat} (hr : a.read = false) : s.unassigned a rule = .next (s.accessError rule a.fn a.off) := by
  unfold State.unassigned
  rw [if_neg (by rw [hr]; exact Bool.false_ne_true)]

theorem State.unassigned_read {rule : Nat} (hr : a.read = true) : s.unassigned a rule = s.reply a 0 := by
  unfold State.unassigned
  rw [if_pos hr]

end

/-- Settles O46: an access by its form, then by what it names. -/
theorem registerAccessCompletes : Obligations.register_access_completes := by
  unfold Obligations.register_access_completes
  intro s a hb answer part sized
  have hanswer : ∀ v, s.reply a v = answer v := fun v => rfl
  have hpart : ∀ w, accessPart a w = part w := accessPart_eq a
  refine ⟨fun hf hs r high ho => ?_, fun hf hlow hs hr => ?_, fun hf hs hlow ho => ⟨fun hr => ?_, fun hr => ?_⟩,
    fun hf hs hlo hhi hr => registerWrite_mbox hb hf hs hlo hhi hr, fun p hf hp => ⟨fun h1 => ?_, fun h0 => ?_, fun hon hlow hs hr => ?_,
      fun hlo hhi hs hr => ?_, fun hoff hlo hr => ?_⟩⟩
  · have hexec : exec (.registerWrite a) s = s.accessReg a r high := by rw [exec_registerWrite_pf hb hf, State.accessPf_register hs ho]
    refine ⟨fun hfit hr => ?_, fun hd => State.blockReady_of_down (Reg.key_of_ofOffset_part ho).2 hd, fun hfit hr hready => ?_, fun hfit hr hready hd => ?_,
      fun hfit hr hd => ?_, fun hr hd h4 hw => ?_, fun hfit hr ⟨p, hp, hplain⟩ => registerWrite_plain hb hf hs ho hfit hr hp hplain⟩
    · rw [hexec, State.accessReg_unfit hs hfit, State.reject_write hr, hf]
    · rw [hexec, State.accessReg_read hs hfit hr, State.readReg_unready hready, hanswer, hpart]
    · rw [hexec, State.accessReg_read hs hfit hr, State.readReg_ready hready hd, hanswer, hpart]
    · rw [hexec, State.accessReg_down hs hfit hr hd]
    · rw [hexec, State.accessReg_half hr hd h4 hw, hf]
  · rw [exec_registerWrite_pf hb hf, State.accessPf_unsized (by omega) hs, State.reject_write hr, hf]
  · rw [exec_registerWrite_pf hb hf, State.accessPf_sized hs (by unfold windowOff; omega), State.namedAccess_none ho]
    exact State.unassigned_read hr
  · rw [exec_registerWrite_pf hb hf, State.accessPf_sized hs (by unfold windowOff; omega), State.namedAccess_none ho, ← hf]
    exact State.unassigned_write hr
  · have hexec : exec (.registerWrite a) s = s.access a := by
      have hexec : exec (.registerWrite a) s = execRegisterWrite a s := rfl
      rw [hexec]
      exact if_pos (by omega)
    rw [exec_sitebMmio_vf hf hp, if_pos h1, hexec]
  · rw [exec_sitebMmio_vf hf hp, if_neg (by rw [h0]; decide)]
  · have hacc : exec (.registerWrite a) s = answer 0 := by
      rw [exec_registerWrite_vf hb hf hp, State.accessVf_low hon hlow hs hr, hanswer]
    refine ⟨hacc, fun h1 => ?_⟩
    have hexec : exec (.registerWrite a) s = s.access a := by
      have hexec : exec (.registerWrite a) s = execRegisterWrite a s := rfl
      rw [hexec]
      exact if_pos (by omega)
    rw [exec_sitebMmio_vf hf hp, if_pos h1, ← hexec, hacc]
  · rw [exec_registerWrite_vf hb hf hp, State.accessVf_view_unsized hlo hhi hs, State.reject_write hr]
  · rw [exec_registerWrite_vf hb hf hp, State.accessVf_off hoff hlo, State.unassigned_write hr]

end Sys2Proof.Machine

/-! Proofs: host links, host requests, interrupts and ATS (R4, R20, R296 to R310). -/

namespace Sys2Proof.Machine

/-! ### What logging keeps of the entries it finds (R363) -/

theorem RasEntry.same_iff (a b : RasEntry) : a.same b = true ↔
    a.cls = b.cls ∧ a.die = b.die ∧ a.unit = b.unit ∧ a.index = b.index ∧ a.detail = b.detail := by
  simp only [RasEntry.same, Bool.and_eq_true, beq_iff_eq, and_assoc]

/-- An entry of `t` that agrees with `e` in what R363 compares. -/
def State.Logs (t : State) (e : RasEntry) : Prop := ∃ x ∈ t.ras, x.same e = true

/-- A store with room takes every entry, and keeps those it holds. -/
theorem State.ras_of_room (s : State) (e : RasEntry) (h : s.ras.length < 4096) :
    (s.ras_ e).Logs e ∧ (∀ e', s.Logs e' → (s.ras_ e).Logs e') ∧ (s.ras_ e).ras.length ≤ s.ras.length + 1 := by
  unfold State.ras_
  split
  case h_1 i hi =>
    rw [findIdx?_eq_list_findIdx?] at hi
    obtain ⟨hlt, hsame, -⟩ := List.findIdx?_eq_some_iff_getElem.mp hi
    obtain ⟨hsame, -⟩ := Bool.and_eq_true _ _ ▸ hsame
    have hmem : ∀ k (hk : k < s.ras.length), ∃ x ∈ s.ras.modify i (fun o => { o with count := satInc 24 o.count }),
        ∀ e', x.same e' = s.ras[k].same e' := by
      intro k hk
      refine ⟨_, List.getElem_mem (n := k) (by rw [List.length_modify]; exact hk), fun e' => ?_⟩
      rw [List.getElem_modify]
      split <;> rfl
    refine ⟨?_, fun e' ⟨x, hx, hxe⟩ => ?_, by rw [List.length_modify]; omega⟩
    · obtain ⟨x, hx, hxs⟩ := hmem i hlt
      exact ⟨x, hx, (hxs e).trans hsame⟩
    · obtain ⟨k, hk, rfl⟩ := List.mem_iff_getElem.mp hx
      obtain ⟨y, hy, hys⟩ := hmem k hk
      exact ⟨y, hy, (hys e').trans hxe⟩
  case h_2 =>
    dsimp only
    rw [if_pos h]
    unfold State.Logs
    rw [State.ras_rasPost, State.setReg_ras]
    refine ⟨⟨_, List.mem_cons_self, (RasEntry.same_iff _ _).mpr ⟨rfl, rfl, rfl, rfl, rfl⟩⟩, fun e' ⟨x, hx, hxe⟩ =>
      ⟨x, List.mem_cons_of_mem _ hx, hxe⟩, le_rfl⟩

/-- Entries logged one after another while the store has room. -/
theorem State.foldl_ras_of_room (f : Nat → RasEntry) (l : List Nat) (s : State) (h : s.ras.length + l.length ≤ 4096) :
    (∀ n ∈ l, (l.foldl (fun t n => t.ras_ (f n)) s).Logs (f n)) ∧ ∀ e, s.Logs e → (l.foldl (fun t n => t.ras_ (f n)) s).Logs e := by
  induction l generalizing s with
  | nil => exact ⟨fun n hn => absurd hn List.not_mem_nil, fun e he => he⟩
  | cons a l ih =>
    rw [List.length_cons] at h
    obtain ⟨hnew, hold, hlen⟩ := s.ras_of_room (f a) (by omega)
    obtain ⟨hin, hkeep⟩ := ih (s.ras_ (f a)) (by omega)
    refine ⟨fun n hn => ?_, fun e he => hkeep e (hold e he)⟩
    rcases List.mem_cons.mp hn with rfl | hn
    · exact hkeep _ hnew
    · exact hin n hn

/-! ### The ready map and a site's link (R298, R379) -/

theorem LogsOnly.pins {s t : State} (h : LogsOnly s t) : t.pins = s.pins := by rw [h]
theorem LogsOnly.resetQ {s t : State} (h : LogsOnly s t) : t.resetQ = s.resetQ := by rw [h]
theorem LogsOnly.cfg {s t : State} (h : LogsOnly s t) : t.cfg = s.cfg := by rw [h]
theorem LogsOnly.flash {s t : State} (h : LogsOnly s t) : t.flash = s.flash := by rw [h]

theorem ras_fire (s : State) (fn vec : Nat) : (s.fire fn vec).ras = s.ras := by
  unfold State.fire
  dsimp only
  split <;> rfl

/-- A ready bit takes the value given, and the other registers stay. -/
theorem State.setReadyFn_spec (s : State) (i : Nat) (b : Bool) : (s.setReadyFn i b).readyFn i = b ∧ (s.setReadyFn i b).ras = s.ras ∧
    ∀ q : Reg, q.key ≠ Reg.key .glbReadyFn → (s.setReadyFn i b).reg q = s.reg q := by
  unfold State.setReadyFn
  split
  case isTrue h => exact ⟨beq_iff_eq.mp h, rfl, fun _ _ => rfl⟩
  case isFalse =>
    refine ⟨?_, ras_fire _ _ _, fun q hq => ?_⟩
    · have hrf : (s.setRf .glbReadyFn i i (b2n b)).rf .glbReadyFn i i = b2n b :=
        State.rf_setRf_of_lt _ _ le_rfl (by rw [Nat.add_sub_cancel_left]; cases b <;> decide)
      rw [Bool.eq_iff_iff]
      unfold State.readyFn
      rw [State.reg_congr (regs_fire _ _ _), bit_eq_fld]
      unfold State.rf at hrf
      rw [hrf]
      cases b <;> decide
    · rw [State.reg_congr (regs_fire _ _ _)]
      exact State.reg_setRf_of_ne _ _ _ _ hq

/-- The registers of a site's link, of the ready map and of the log are different ones. -/
theorem Reg.linkKey_ne (i : Fin 2) : Reg.key (.hstLinkSts i.val) ≠ Reg.key .glbReadyFn ∧ Reg.key (.hstLinkSts i.val) ∉ rasKeys ∧
    Reg.key (.hstCrcRetry i.val) ≠ Reg.key (.hstLinkSts i.val) := by
  revert i
  decide

/-- A mark that a site's link is retrained, set or cleared. -/
def State.retrainMarked (s : State) (i : Nat) (b : Bool) : State :=
  { s with boot := { s.boot with retraining := s.boot.retraining.set i b } }

theorem State.retrainMarked_spec (s : State) (i : Nat) (b : Bool) : (s.retrainMarked i b).regs = s.regs ∧
    (s.retrainMarked i b).pins = s.pins ∧ (s.retrainMarked i b).resetQ = s.resetQ ∧ (s.retrainMarked i b).queues = s.queues ∧
    (s.retrainMarked i b).heap = s.heap ∧ (s.retrainMarked i b).ras = s.ras ∧
    (s.retrainMarked i b).boot.retraining = s.boot.retraining.set i b := ⟨rfl, rfl, rfl, rfl, rfl, rfl, rfl⟩

theorem State.retrainMarked_of_boot {u v : State} (h : v.boot = u.boot) (i : Nat) (b : Bool) :
    { v with boot := { u.boot with retraining := u.boot.retraining.set i b } } = v.retrainMarked i b := by
  unfold State.retrainMarked
  rw [h]

/-- A register whose link fields are cleared. -/
def State.linkCleared (s : State) (r : Reg) : State := ((s.setRf r 1 1 0).setRf r 23 20 0).setRf r 15 12 0

theorem State.hostLinkLost_eq (s : State) (i : Nat) :
    s.hostLinkLost i = ((s.linkCleared (.hstLinkSts i)).setReadyFn i false).retrainMarked i false := by
  unfold State.hostLinkLost State.linkCleared
  dsimp only
  generalize ((s.setRf (.hstLinkSts i) 1 1 0).setRf (.hstLinkSts i) 23 20 0).setRf (.hstLinkSts i) 15 12 0 = u
  exact State.retrainMarked_of_boot (LogsOnly.boot (logsOnly_setReadyFn u i false)) i false

/-- What a lost link leaves (R298, Table 18-6). -/
theorem State.hostLinkLost_spec (s : State) (i : Fin 2) {t : State} (ht : s.hostLinkLost i.val = t) :
    t.rf (.hstLinkSts i.val) 1 1 = 0 ∧ t.rf (.hstLinkSts i.val) 23 20 = 0 ∧ t.rf (.hstLinkSts i.val) 15 12 = 0 ∧
    t.readyFn i.val = false ∧ t.boot.retraining = s.boot.retraining.set i.val false ∧ t.pins = s.pins ∧ t.resetQ = s.resetQ ∧
    t.queues = s.queues ∧ t.heap = s.heap ∧
    ∀ q : Reg, q.key ≠ Reg.key (.hstLinkSts i.val) → q.key ≠ Reg.key .glbReadyFn → t.reg q = s.reg q := by
  obtain ⟨hready, -, -⟩ := Reg.linkKey_ne i
  rw [s.hostLinkLost_eq i.val] at ht
  generalize Reg.hstLinkSts i.val = r at *
  unfold State.linkCleared at ht
  have hlog : LogsOnly s (((s.setRf r 1 1 0).setRf r 23 20 0).setRf r 15 12 0) :=
    ((logsOnly_setRf _ _ _ _ _).trans (logsOnly_setRf _ _ _ _ _)).trans (logsOnly_setRf _ _ _ _ _)
  have h12 : (((s.setRf r 1 1 0).setRf r 23 20 0).setRf r 15 12 0).rf r 15 12 = 0 := State.rf_setRf_of_lt _ _ (by decide) (by decide)
  have h20 : (((s.setRf r 1 1 0).setRf r 23 20 0).setRf r 15 12 0).rf r 23 20 = 0 := by
    rw [State.rf_setRf_other _ _ _ (by decide) (by decide)]
    exact State.rf_setRf_of_lt _ _ (by decide) (by decide)
  have h1 : (((s.setRf r 1 1 0).setRf r 23 20 0).setRf r 15 12 0).rf r 1 1 = 0 := by
    rw [State.rf_setRf_other _ _ _ (by decide) (by decide), State.rf_setRf_other _ _ _ (by decide) (by decide)]
    exact State.rf_setRf_of_lt _ _ (by decide) (by decide)
  have hother : ∀ q : Reg, q.key ≠ r.key → (((s.setRf r 1 1 0).setRf r 23 20 0).setRf r 15 12 0).reg q = s.reg q := fun q hq => by
    rw [State.reg_setRf_of_ne _ _ _ _ hq, State.reg_setRf_of_ne _ _ _ _ hq, State.reg_setRf_of_ne _ _ _ _ hq]
  generalize ((s.setRf r 1 1 0).setRf r 23 20 0).setRf r 15 12 0 = u at *
  obtain ⟨hbit, -, hreg⟩ := u.setReadyFn_spec i.val false
  have hlog' := hlog.trans (logsOnly_setReadyFn u i.val false)
  generalize u.setReadyFn i.val false = v at *
  obtain ⟨hregs, hpins, hresets, hqueues, hheap, -, hmark⟩ := v.retrainMarked_spec i.val false
  generalize v.retrainMarked i.val false = w at *
  subst ht
  have hrf : ∀ hi lo, w.rf r hi lo = u.rf r hi lo := fun hi lo => State.rf_congr ((State.reg_congr hregs r).trans (hreg r hready)) hi lo
  have hwbit : w.readyFn i.val = v.readyFn i.val := by
    unfold State.readyFn
    rw [State.reg_congr hregs]
  exact ⟨(hrf _ _).trans h1, (hrf _ _).trans h20, (hrf _ _).trans h12, hwbit.trans hbit, by rw [hmark, LogsOnly.boot hlog'],
    hpins.trans hlog'.pins, hresets.trans hlog'.resetQ, hqueues.trans hlog'.queues, hheap.trans hlog'.heap,
    fun q hq hq' => ((State.reg_congr hregs q).trans (hreg q hq')).trans (hother q hq)⟩

/-- A one-bit field that is not 1 is 0. -/
theorem State.rf_bit_of_ne {s : State} {r : Reg} {n : Nat} (h : ¬ (s.rf r n n == 1) = true) : s.rf r n n = 0 := by
  have hlt : s.rf r n n < 2 := by
    unfold State.rf fld
    rw [Nat.add_sub_cancel_left, pow_one]
    exact Nat.mod_lt _ (by norm_num)
  rw [beq_iff_eq] at h
  omega

/-! ### A site's power, training and link (R296 to R298, R308, R310) -/

section
variable {s : State} {i : Fin 2}

/-- A state whose HST_PWRGD of a site reads `b`. -/
def State.pwrGdSet (s : State) (i : Nat) (b : Bool) : State :=
  { s with pins := { s.pins with hstPwrGd := s.pins.hstPwrGd.set i b } }
/-- A state whose HST_PERST_N of a site reads `b`. -/
def State.perstSet (s : State) (i : Nat) (b : Bool) : State :=
  { s with pins := { s.pins with perstN := s.pins.perstN.set i b } }

/-- PRESENT of a site follows its host's power while the Weir runs. -/
def State.presentSet (t : State) (alive : Bool) (r : Reg) (v : Nat) : State := if alive then t.setRf r 0 0 v else t

theorem State.presentSet_spec (t : State) (alive : Bool) (r : Reg) {v : Nat} (hv : v < 2) : (t.presentSet alive r v).pins = t.pins ∧
    (alive = true → (t.presentSet alive r v).rf r 0 0 = v) ∧ (t.presentSet alive r v).rf r 1 1 = t.rf r 1 1 := by
  unfold State.presentSet
  split
  case isTrue h => exact ⟨rfl, fun _ => State.rf_setRf_of_lt _ _ le_rfl hv, State.rf_setRf_other _ _ _ le_rfl (by decide)⟩
  case isFalse h => exact ⟨rfl, fun h' => absurd h' h, rfl⟩

theorem exec_hostPowerGood_low (hp : s.populated i.val = true) : ∃ t : State, exec (.hostPowerGood ⟨i, false⟩) s = .next t ∧
    t.pins.hstPwrGd = s.pins.hstPwrGd.set i.val false ∧ t.rf (.hstLinkSts i.val) 1 1 = 0 ∧
    (s.alive = true → t.rf (.hstLinkSts i.val) 0 0 = 0) := by
  have hexec : exec (.hostPowerGood ⟨i, false⟩) s = .next ((if (s.pwrGdSet i.val false).rf (.hstLinkSts i.val) 1 1 == 1 then
      (s.pwrGdSet i.val false).hostLinkLost i.val else s.pwrGdSet i.val false).presentSet s.alive (.hstLinkSts i.val) 0) := by
    show execHostPowerGood ⟨i, false⟩ s = _
    unfold execHostPowerGood
    rw [if_neg (by rw [hp]; decide), if_pos (by rfl)]
    rfl
  rw [hexec]
  have hpins : (s.pwrGdSet i.val false).pins.hstPwrGd = s.pins.hstPwrGd.set i.val false := rfl
  generalize s.pwrGdSet i.val false = u at *
  have hlink : ∃ v, (if u.rf (.hstLinkSts i.val) 1 1 == 1 then u.hostLinkLost i.val else u) = v ∧ v.pins = u.pins ∧
      v.rf (.hstLinkSts i.val) 1 1 = 0 := by
    split
    case isTrue =>
      obtain ⟨h1, -, -, -, -, hp, -⟩ := u.hostLinkLost_spec i rfl
      exact ⟨_, rfl, hp, h1⟩
    case isFalse h => exact ⟨_, rfl, rfl, State.rf_bit_of_ne h⟩
  obtain ⟨v, hv, hvp, hv1⟩ := hlink
  rw [hv]
  obtain ⟨h1, h2, h3⟩ := v.presentSet_spec s.alive (.hstLinkSts i.val) (v := 0) (by decide)
  exact ⟨_, rfl, by rw [h1, hvp, hpins], h3.trans hv1, h2⟩

theorem exec_hostPowerGood_high (hp : s.populated i.val = true) : ∃ t : State, exec (.hostPowerGood ⟨i, true⟩) s = .next t ∧
    t.pins.hstPwrGd = s.pins.hstPwrGd.set i.val true ∧ t.pins.perstN = s.pins.perstN.set i.val true ∧
    (s.alive = true → t.rf (.hstLinkSts i.val) 0 0 = 1) ∧ t.rf (.hstLinkSts i.val) 1 1 = s.rf (.hstLinkSts i.val) 1 1 := by
  have hexec : exec (.hostPowerGood ⟨i, true⟩) s = .next (((s.pwrGdSet i.val true).perstSet i.val true).presentSet s.alive
      (.hstLinkSts i.val) 1) := by
    show execHostPowerGood ⟨i, true⟩ s = _
    unfold execHostPowerGood
    rw [if_neg (by rw [hp]; decide), if_neg (show ¬ (!(⟨i, true⟩ : PowerPin).high) = true from Bool.false_ne_true)]
    rfl
  rw [hexec]
  have hu : ((s.pwrGdSet i.val true).perstSet i.val true).pins.hstPwrGd = s.pins.hstPwrGd.set i.val true ∧
      ((s.pwrGdSet i.val true).perstSet i.val true).pins.perstN = s.pins.perstN.set i.val true ∧
      ((s.pwrGdSet i.val true).perstSet i.val true).regs = s.regs := ⟨rfl, rfl, rfl⟩
  generalize (s.pwrGdSet i.val true).perstSet i.val true = u at *
  obtain ⟨hu1, hu2, hu3⟩ := hu
  obtain ⟨h1, h2, h3⟩ := u.presentSet_spec s.alive (.hstLinkSts i.val) (v := 1) (by decide)
  exact ⟨_, rfl, by rw [h1, hu1], by rw [h1, hu2], h2, h3.trans (State.rf_congr (State.reg_congr hu3 _) _ _)⟩

/-- The modules of a site that its training leaves out. -/
def modulesOut (i m : Nat) : List Nat := (List.range (siteModules i)).filter (fun n => !bit m n)

/-- The log entry of a module left out. -/
def moduleEntry (i n : Nat) : RasEntry := rasOf 0x08 1 15 0x07 (i * 4 + n) 2

/-- The modules that trained are stored, the others logged. -/
def State.trainedTo (s : State) (i m : Nat) : State :=
  (modulesOut i m).foldl (fun t n => t.ras_ (moduleEntry i n)) (s.setRf (.hstLinkSts i) 11 8 m)

theorem inUse_lt : ∀ i < 2, ∀ m < 16, inUse i m < 16 := by decide

theorem State.trainedTo_spec (s : State) (i : Fin 2) {m : Nat} (hm : m < 16) :
    LogsOnly s (s.trainedTo i.val m) ∧ (s.trainedTo i.val m).rf (.hstLinkSts i.val) 11 8 = m ∧
    (s.trainedTo i.val m).rf (.hstLinkSts i.val) 1 1 = s.rf (.hstLinkSts i.val) 1 1 ∧
    (s.ras.length + 4 ≤ 4096 → ∀ n ∈ modulesOut i.val m, (s.trainedTo i.val m).Logs (moduleEntry i.val n)) := by
  unfold State.trainedTo
  have hlen : (modulesOut i.val m).length ≤ 4 := by
    refine (List.length_filter_le _ _).trans ?_
    rw [List.length_range]
    revert i
    decide
  have h8 : (s.setRf (.hstLinkSts i.val) 11 8 m).rf (.hstLinkSts i.val) 11 8 = m := State.rf_setRf_of_lt _ _ (by decide) hm
  have h1 : (s.setRf (.hstLinkSts i.val) 11 8 m).rf (.hstLinkSts i.val) 1 1 = s.rf (.hstLinkSts i.val) 1 1 :=
    State.rf_setRf_other _ _ _ (by decide) (by decide)
  have hras : (s.setRf (.hstLinkSts i.val) 11 8 m).ras = s.ras := State.ras_setRf _ _ _ _ _
  have hlog := logsOnly_setRf s (.hstLinkSts i.val) 11 8 m
  generalize s.setRf (.hstLinkSts i.val) 11 8 m = u at *
  have hfold : ∀ l : List Nat, (l.foldl (fun t n => t.ras_ (moduleEntry i.val n)) u).reg (.hstLinkSts i.val) = u.reg (.hstLinkSts i.val) :=
    fun l => by
      obtain ⟨-, hkey, -⟩ := Reg.linkKey_ne i
      generalize Reg.hstLinkSts i.val = r at *
      exact foldl_keeps (P := fun t : State => t.reg r = u.reg r) (fun t n ht => (State.reg_ras t _ hkey).trans ht) l u rfl
  refine ⟨hlog.trans (logsOnly_foldl (fun v n => logsOnly_ras v _) _ _), (State.rf_congr (hfold _) _ _).trans h8,
    (State.rf_congr (hfold _) _ _).trans h1, fun h => (State.foldl_ras_of_room _ _ _ (by rw [hras]; omega)).1⟩

/-- A site that may train, does. -/
theorem exec_hostLinkUp (trained : BitVec 4) (fast : Bool) (hp : s.populated i.val = true)
    (hpwr : s.pins.hstPwrGd.getD i.val false = true) (hperst : s.pins.perstN.getD i.val false = true)
    (hdev : s.pins.devPwrGd.getD i.val false = true)
    (hdown : s.rf (.hstLinkSts i.val) 1 1 = 0 ∨ s.boot.retraining.getD i.val false = true) {m : Nat}
    (hm : trained.toNat % 2 ^ siteModules i.val = m) :
    exec (.hostLinkUp i trained fast) s = if m = 0 then .next (s.trainedTo i.val m) else
      .next (((((s.trainedTo i.val m).setRf (.hstLinkSts i.val) 15 12 (inUse i.val m)).setRf (.hstLinkSts i.val) 23 20
        (if fast then 2 else 1)).setRf (.hstLinkSts i.val) 1 1 1 |>.retrainMarked i.val false).setReadyFn i.val true) := by
  show execHostLinkUp i trained fast s = _
  unfold execHostLinkUp
  dsimp only
  rw [if_neg (by rw [hp, hpwr, hperst, hdev]; rcases hdown with h | h <;> rw [h] <;> simp), hm]
  exact if_congr beq_iff_eq rfl rfl

theorem exec_hostLinkUp_spec (trained : BitVec 4) (fast : Bool) (hp : s.populated i.val = true)
    (hpwr : s.pins.hstPwrGd.getD i.val false = true) (hperst : s.pins.perstN.getD i.val false = true)
    (hdev : s.pins.devPwrGd.getD i.val false = true)
    (hdown : s.rf (.hstLinkSts i.val) 1 1 = 0 ∨ s.boot.retraining.getD i.val false = true) {m : Nat}
    (hm : trained.toNat % 2 ^ siteModules i.val = m) (hlt : m < 16) :
    ∃ t : State, exec (.hostLinkUp i trained fast) s = .next t ∧ t.rf (.hstLinkSts i.val) 11 8 = m ∧
      (m = 0 → t.rf (.hstLinkSts i.val) 1 1 = s.rf (.hstLinkSts i.val) 1 1) ∧
      (m ≠ 0 → t.rf (.hstLinkSts i.val) 1 1 = 1 ∧ t.rf (.hstLinkSts i.val) 15 12 = inUse i.val m ∧
        t.rf (.hstLinkSts i.val) 23 20 = (if fast then 2 else 1) ∧
        t.readyFn i.val = true ∧ t.boot.retraining = s.boot.retraining.set i.val false) ∧
      (s.ras.length + 4 ≤ 4096 → ∀ n ∈ modulesOut i.val m, t.Logs (moduleEntry i.val n)) := by
  rw [exec_hostLinkUp trained fast hp hpwr hperst hdev hdown hm]
  obtain ⟨hlog, h8, h1, hras⟩ := s.trainedTo_spec i hlt
  have huse := inUse_lt i.val i.isLt m hlt
  obtain ⟨hready, -, -⟩ := Reg.linkKey_ne i
  generalize s.trainedTo i.val m = u at *
  split
  case isTrue hz => exact ⟨_, rfl, h8, fun _ => h1, fun h => absurd hz h, hras⟩
  case isFalse hnz =>
    generalize Reg.hstLinkSts i.val = r at *
    generalize inUse i.val m = k at *
    have hf : (if fast then 2 else 1) < 16 := by cases fast <;> decide
    generalize (if fast then 2 else 1) = f at *
    have hv8 : (((u.setRf r 15 12 k).setRf r 23 20 f).setRf r 1 1 1).rf r 11 8 = m := by
      rw [State.rf_setRf_other _ _ _ (by decide) (by decide), State.rf_setRf_other _ _ _ (by decide) (by decide),
        State.rf_setRf_other _ _ _ (by decide) (by decide), h8]
    have hv12 : (((u.setRf r 15 12 k).setRf r 23 20 f).setRf r 1 1 1).rf r 15 12 = k := by
      rw [State.rf_setRf_other _ _ _ (by decide) (by decide), State.rf_setRf_other _ _ _ (by decide) (by decide)]
      exact State.rf_setRf_of_lt _ _ (by decide) huse
    have hv20 : (((u.setRf r 15 12 k).setRf r 23 20 f).setRf r 1 1 1).rf r 23 20 = f := by
      rw [State.rf_setRf_other _ _ _ (by decide) (by decide)]
      exact State.rf_setRf_of_lt _ _ (by decide) hf
    have hv1 : (((u.setRf r 15 12 k).setRf r 23 20 f).setRf r 1 1 1).rf r 1 1 = 1 := State.rf_setRf_of_lt _ _ (by decide) (by decide)
    have hvras : (((u.setRf r 15 12 k).setRf r 23 20 f).setRf r 1 1 1).ras = u.ras := by rw [State.ras_setRf, State.ras_setRf, State.ras_setRf]
    have hvboot : (((u.setRf r 15 12 k).setRf r 23 20 f).setRf r 1 1 1).boot = s.boot :=
      (LogsOnly.boot (((logsOnly_setRf _ _ _ _ _).trans (logsOnly_setRf _ _ _ _ _)).trans (logsOnly_setRf _ _ _ _ _))).trans hlog.boot
    generalize ((u.setRf r 15 12 k).setRf r 23 20 f).setRf r 1 1 1 = v at *
    obtain ⟨hregs, -, -, -, -, hwras, hwret⟩ := v.retrainMarked_spec i.val false
    generalize v.retrainMarked i.val false = w at *
    obtain ⟨hbit, htras, hreg⟩ := w.setReadyFn_spec i.val true
    have htboot := LogsOnly.boot (logsOnly_setReadyFn w i.val true)
    generalize w.setReadyFn i.val true = t at *
    have hrf : ∀ hi lo, t.rf r hi lo = v.rf r hi lo := fun hi lo => State.rf_congr ((hreg r hready).trans (State.reg_congr hregs r)) hi lo
    refine ⟨t, rfl, (hrf _ _).trans hv8, fun h => absurd h hnz, fun _ => ⟨(hrf _ _).trans hv1, (hrf _ _).trans hv12, (hrf _ _).trans hv20,
      hbit, by rw [htboot, hwret, hvboot]⟩, fun h n hn => ?_⟩
    unfold State.Logs
    rw [htras, hwras, hvras]
    exact hras h n hn

theorem exec_ucieFlitReplay (hup : s.rf (.hstLinkSts i.val) 1 1 = 1) : ∃ t : State, exec (.ucieFlitReplay i) s = .next t ∧
    t.reg (.hstCrcRetry i.val) = (s.reg (.hstCrcRetry i.val) + 1) % 2 ^ 64 ∧ t.rf (.hstLinkSts i.val) 1 1 = 1 := by
  have hexec : exec (.ucieFlitReplay i) s = .next (s.setReg (.hstCrcRetry i.val) ((s.reg (.hstCrcRetry i.val) + 1) % 2 ^ 64)) := by
    show execUcieFlitReplay i s = _
    unfold execUcieFlitReplay
    rw [if_neg (by rw [hup]; decide)]
  obtain ⟨-, -, hne⟩ := Reg.linkKey_ne i
  exact ⟨_, hexec, State.reg_setReg_same _ _ _, (State.rf_congr (State.reg_setReg_of_ne _ _ hne.symm) _ _).trans hup⟩

theorem exec_hostLinkRetrain (hup : s.rf (.hstLinkSts i.val) 1 1 = 1) (hret : s.boot.retraining.getD i.val false = false) :
    ∃ t : State, exec (.hostLinkRetrain i) s = .next t ∧ t.rf (.hstLinkSts i.val) 1 1 = 1 ∧
      t.rf (.hstLinkSts i.val) 47 32 = min (s.rf (.hstLinkSts i.val) 47 32 + 1) 0xFFFF ∧
      t.boot.retraining = s.boot.retraining.set i.val true := by
  have hexec : exec (.hostLinkRetrain i) s =
      .next ((s.retrainMarked i.val true).setRf (.hstLinkSts i.val) 47 32 (satInc 16 (s.rf (.hstLinkSts i.val) 47 32))) := by
    show execHostLinkRetrain i s = _
    unfold execHostLinkRetrain
    dsimp only
    rw [if_neg (by rw [hup, hret]; decide)]
    rfl
  rw [hexec]
  obtain ⟨hregs, -, -, -, -, -, hmark⟩ := s.retrainMarked_spec i.val true
  generalize s.retrainMarked i.val true = u at *
  generalize hn : s.rf (.hstLinkSts i.val) 47 32 = n
  have hsat : satInc 16 n = min (n + 1) 0xFFFF := by
    unfold satInc
    split <;> omega
  refine ⟨_, rfl, ?_, ?_, (congrArg Boot.retraining (LogsOnly.boot (logsOnly_setRf _ _ _ _ _))).trans hmark⟩
  · rw [State.rf_setRf_other _ _ _ (by decide) (by decide), State.rf_congr (State.reg_congr hregs _), hup]
  · rw [State.rf_setRf_of_lt _ _ (by decide) (by rw [hsat]; omega), hsat]

theorem exec_hostLinkDown (hret : s.boot.retraining.getD i.val false = true) : exec (.hostLinkDown i) s = .next (s.hostLinkLost i.val) := by
  show execHostLinkDown i s = _
  unfold execHostLinkDown
  rw [if_pos hret]

end

/-! ### PERST# of the two sites (R309, R373) -/

theorem State.perstSet_spec (s : State) (i : Nat) (b : Bool) : (s.perstSet i b).pins.perstN = s.pins.perstN.set i b ∧
    (s.perstSet i b).regs = s.regs ∧ (s.perstSet i b).heap = s.heap ∧ (s.perstSet i b).resetQ = s.resetQ ∧
    (s.perstSet i b).queues = s.queues := ⟨rfl, rfl, rfl, rfl, rfl⟩

/-- The steps whose scope holds a warm device reset are those of the device (R373). -/
theorem State.level_of_inScope (s : State) {r e : ResetReq} (hr : r.level = 4) (h : s.inScope r e = true) : e.level = 4 ∨ e.level = 5 := by
  unfold State.inScope at h
  rw [hr] at h
  split at h
  case h_1 he => exact .inr he
  case h_2 he => exact .inl he
  all_goals exact absurd h (by simp)

/-- A warm device reset asked for is waiting or running afterwards, or a wider step is. -/
theorem State.askReset_warm (s : State) {r : ResetReq} (hr : r.level = 4) : (s.askReset r false).pins = s.pins ∧
    (s.askReset r false).heap = s.heap ∧ ∃ e ∈ (s.askReset r false).resetQ, e.level = 4 ∨ e.level = 5 := by
  have hin : s.insidePart r = false := by
    unfold State.insidePart
    rw [hr]
    rfl
  unfold State.askReset
  rw [if_neg (by rw [hin]; exact Bool.false_ne_true)]
  split
  case isTrue h =>
    obtain ⟨e, he, hs⟩ := List.any_eq_true.mp h
    refine ⟨rfl, rfl, _, List.mem_map_of_mem he, ?_⟩
    rw [if_pos hs]
    exact s.level_of_inScope hr hs
  case isFalse => exact ⟨rfl, rfl, _, List.mem_append_right _ (List.mem_singleton_self _), .inl hr⟩

theorem State.exec_siteAPerst (s : State) : ∃ t : State, exec .siteAPerst s = .next t ∧ t.pins.perstN = s.pins.perstN.set 0 false ∧
    t.heap = s.heap ∧ (s.alive = true → ∃ e ∈ t.resetQ, e.level = 4 ∨ e.level = 5) := by
  have hexec : exec .siteAPerst s = .next (if s.alive then (s.perstSet 0 false).askReset ((s.perstSet 0 false).newReset 4 0 0 0 0 0) false
      else s.perstSet 0 false) := rfl
  rw [hexec]
  obtain ⟨hperst, -, hheap, -, -⟩ := s.perstSet_spec 0 false
  generalize s.perstSet 0 false = u at *
  split
  case isTrue =>
    obtain ⟨hpins, hh, hq⟩ := u.askReset_warm (r := u.newReset 4 0 0 0 0 0) rfl
    exact ⟨_, rfl, by rw [hpins, hperst], hh.trans hheap, fun _ => hq⟩
  case isFalse h => exact ⟨_, rfl, hperst, hheap, fun h' => absurd h' h⟩

theorem State.exec_siteBPerst (s : State) : ∃ t : State, exec .siteBPerst s = .next t ∧ t.pins.perstN = s.pins.perstN.set 1 false ∧
    t.rf (.hstLinkSts 1) 1 1 = 0 ∧ t.resetQ = s.resetQ ∧ t.queues = s.queues ∧ t.heap = s.heap ∧
    t.rf (.hstLinkSts 0) 1 1 = s.rf (.hstLinkSts 0) 1 1 ∧ (s.rf (.hstLinkSts 1) 1 1 = 1 → t.readyFn 1 = false) := by
  have hexec : exec .siteBPerst s = .next (if s.rf (.hstLinkSts 1) 1 1 == 1 then (s.perstSet 1 false).hostLinkLost 1
      else s.perstSet 1 false) := rfl
  rw [hexec]
  obtain ⟨hperst, hregs, hheap, hresets, hqueues⟩ := s.perstSet_spec 1 false
  generalize s.perstSet 1 false = u at *
  split
  case isTrue =>
    obtain ⟨h1, -, -, hready, -, hpins, hr, hq, hh, hreg⟩ := u.hostLinkLost_spec (1 : Fin 2) (t := u.hostLinkLost 1) rfl
    refine ⟨_, rfl, by rw [hpins, hperst], h1, hr.trans hresets, hq.trans hqueues, hh.trans hheap, ?_, fun _ => hready⟩
    exact State.rf_congr ((hreg (.hstLinkSts 0) (by decide) (by decide)).trans (State.reg_congr hregs _)) _ _
  case isFalse h =>
    refine ⟨_, rfl, hperst, ?_, hresets, hqueues, hheap, State.rf_congr (State.reg_congr hregs _) _ _,
      fun h' => absurd (beq_iff_eq.mpr h') h⟩
    rw [State.rf_congr (State.reg_congr hregs _), State.rf_bit_of_ne h]

/-! ### Requests of a host (R4, R20, R299, R301, R310) -/

theorem exec_sitebTrainRequest (s : State) (m : Fin 2) : exec (.sitebTrainRequest m) s =
    .next (if s.populated 1 then s else s.emit (.completion 1 0 3)) := rfl

theorem State.notReady_iff (s : State) (fn : Nat) : s.notReady fn = true ↔
    s.readyFn 0 = false ∨ (1 ≤ fn ∧ s.rf (.cfgPartSts (fn - 1)) 23 20 = 2) := by
  simp only [State.notReady, Bool.or_eq_true, Bool.not_eq_true', Bool.and_eq_true, decide_eq_true_eq, beq_iff_eq]

theorem State.exec_configRequest_refused (s : State) (fn off : Nat) (write : Option (BitVec 32)) :
    (96 < fn → exec (.configRequest fn off write) s = .next (s.emit (.completion 0 fn 1))) ∧
    (fn ≤ 96 → s.notReady fn = true → exec (.configRequest fn off write) s = .next (s.emit (.completion 0 fn 2))) := by
  have hexec : exec (.configRequest fn off write) s = execConfigRequest fn off write s := rfl
  rw [hexec]
  unfold execConfigRequest
  refine ⟨fun h => if_pos h, fun h hn => ?_⟩
  rw [if_neg (by omega), if_pos hn]
  rfl

theorem State.exec_configRequest_write (s : State) {fn : Nat} (off : Nat) (hf : fn ≤ 96) (hn : s.notReady fn = false) (w : BitVec 32) :
    ∃ t : State, exec (.configRequest fn off (some w)) s = .next t ∧ t.out = .completion 0 fn 0 :: s.out ∧
      Map.find? t.cfg (fn * 1024 + off / 4 % 1024) = some w.toNat ∧ t.regs = s.regs := by
  have hexec : exec (.configRequest fn off (some w)) s = execConfigRequest fn off (some w) s := rfl
  rw [hexec]
  unfold execConfigRequest
  rw [if_neg (by omega), if_neg (by rw [hn]; exact Bool.false_ne_true)]
  exact ⟨_, rfl, rfl, Map.find?_put_same _ _ _, rfl⟩

/-- The value of a configuration dword that a request reads. -/
def State.cfgValue (s : State) (fn off : Nat) : Nat :=
  readCfg (cfgFields fn (off / 4 % 1024)) (Map.find? s.cfg (fn * 1024 + off / 4 % 1024)) (s.fresh.1.toNat % 2 ^ 32)

theorem State.exec_configRequest_read (s : State) {fn : Nat} (off : Nat) (hf : fn ≤ 96) (hn : s.notReady fn = false) :
    exec (.configRequest fn off none) s = .next (s.fresh.2.emit (.readData fn off 4 (BitVec.ofNat 64 (s.cfgValue fn off)))) := by
  have hexec : exec (.configRequest fn off none) s = execConfigRequest fn off none s := rfl
  rw [hexec]
  unfold execConfigRequest
  rw [if_neg (by omega), if_neg (by rw [hn]; exact Bool.false_ne_true)]
  rfl

/-- A dword of two fields. -/
theorem readCfg_pair (f g : CfgField) (written : Option Nat) (free : Nat) : readCfg [f, g] written free =
    (let v := fun (h : CfgField) => match written with
      | some w => (match h.kept with | some m => min (fld w h.hi h.lo) m | none => h.val)
      | none => h.val
    setFld (setFld free f.hi f.lo (v f)) g.hi g.lo (v g)) := rfl

theorem cfgFields_ids (fn : Nat) : cfgFields fn 0 =
    [⟨31, 16, if fn == 0 then 0x7012 else 0x7013, none⟩, ⟨15, 0, Config.vendorId.toNat, none⟩] := rfl

theorem cfgFields_bar0 : cfgFields 0 4 = [⟨31, 27, 0, some (2 ^ 32 - 1)⟩, ⟨26, 0, 4, none⟩] := rfl

/-- Two fields that cover a dword decide its value. -/
theorem setFld_setFld_dword {n k a b : Nat} (hn : n < 2 ^ 32) (hk : k < 31) (ha : a < 2 ^ (31 - k)) (hb : b < 2 ^ (k + 1)) :
    setFld (setFld n 31 (k + 1) a) k 0 b = a * 2 ^ (k + 1) + b := by
  unfold setFld
  rw [show 31 + 1 - (k + 1) = 31 - k by omega, show k + 1 - 0 = k + 1 by omega, Nat.mod_eq_of_lt ha, Nat.mod_eq_of_lt hb,
    Nat.div_eq_of_lt hn, Nat.zero_mul, Nat.add_zero, pow_zero, Nat.mod_one, Nat.mul_one, Nat.zero_add,
    Nat.add_mul_div_right _ _ (by positivity), Nat.div_eq_of_lt (Nat.mod_lt n (by positivity)), Nat.zero_add, Nat.add_comm]

/-- Dword 0 of a function names the device and its vendor. -/
theorem readCfg_ids (fn free : Nat) (written : Option Nat) : readCfg (cfgFields fn 0) written (free % 2 ^ 32) =
    (if fn = 0 then 0x7012 else 0x7013) * 2 ^ 16 + Config.vendorId.toNat := by
  have hv := Config.vendorId.isLt
  rw [cfgFields_ids, readCfg_pair]
  generalize Config.vendorId.toNat = v at *
  have hid : (if fn == 0 then 0x7012 else 0x7013) = if fn = 0 then 0x7012 else 0x7013 := if_congr beq_iff_eq rfl rfl
  rw [hid]
  have hlt : (if fn = 0 then 0x7012 else 0x7013) < 2 ^ 16 := by split <;> norm_num
  generalize (if fn = 0 then 0x7012 else 0x7013) = a at *
  cases written with
  | none => exact setFld_setFld_dword (Nat.mod_lt _ (by norm_num)) (by norm_num) hlt hv
  | some w => exact setFld_setFld_dword (Nat.mod_lt _ (by norm_num)) (by norm_num) hlt hv

/-- BAR0 of PF0 keeps the address that is written, and is a 64-bit memory BAR. -/
theorem readCfg_bar0 (written : Option Nat) (free : Nat) : readCfg (cfgFields 0 4) written (free % 2 ^ 32) =
    written.getD 0 / 2 ^ 27 % 32 * 2 ^ 27 + 4 := by
  rw [cfgFields_bar0, readCfg_pair]
  have hfree := Nat.mod_lt free (show 2 ^ 32 > 0 by norm_num)
  generalize free % 2 ^ 32 = n at *
  cases written with
  | none => exact setFld_setFld_dword (k := 26) (a := 0) hfree (by norm_num) (by norm_num) (by norm_num)
  | some w =>
    have hlt : w / 2 ^ 27 % 32 < 2 ^ (31 - 26) := Nat.mod_lt _ (by norm_num)
    have hmin : min (fld w 31 27) (2 ^ 32 - 1) = w / 2 ^ 27 % 32 := by
      unfold fld
      omega
    dsimp only [Option.getD_some]
    rw [hmin]
    exact setFld_setFld_dword (k := 26) hfree (by norm_num) hlt (by norm_num)

/-! ### The partitions of site B (R307) -/

theorem bit_eq_testBit (w n : Nat) : bit w n = w.testBit n := by
  rw [Bool.eq_iff_iff, bit_eq_fld]
  unfold fld
  rw [Nat.add_sub_cancel_left, pow_one, Nat.testBit_eq_decide_div_mod_eq, decide_eq_true_eq]

/-- Taking out of a number the bits it shares with a mask. -/
theorem testBit_sub_and (i w m : Nat) : (w - (w &&& m)).testBit i = (w.testBit i && !m.testBit i) := by
  induction i generalizing w m with
  | zero =>
    have hle : w &&& m ≤ w := Nat.and_le_left
    have hbit : (w &&& m).testBit 0 = (w.testBit 0 && m.testBit 0) := Nat.testBit_and ..
    simp only [Nat.testBit_zero] at hbit ⊢
    rw [Bool.eq_iff_iff] at hbit ⊢
    simp only [Bool.and_eq_true, decide_eq_true_eq, Bool.not_eq_true', decide_eq_false_iff_not] at hbit ⊢
    omega
  | succ i ih =>
    have hle : w &&& m ≤ w := Nat.and_le_left
    have hbit : (w &&& m).testBit 0 = (w.testBit 0 && m.testBit 0) := Nat.testBit_and ..
    have hdiv : (w - (w &&& m)) / 2 = w / 2 - (w / 2 &&& m / 2) := by
      have hhalf : (w &&& m) / 2 = w / 2 &&& m / 2 := Nat.and_div_two
      rw [← hhalf]
      simp only [Nat.testBit_zero] at hbit
      rw [Bool.eq_iff_iff] at hbit
      simp only [Bool.and_eq_true, decide_eq_true_eq] at hbit
      omega
    rw [Nat.testBit_succ, Nat.testBit_succ, Nat.testBit_succ, hdiv, ih]

/-- The bit range of a map register. -/
def mapBits (high : Bool) : Nat := if high then 32 else 64
def mapBase (high : Bool) : Nat := if high then 64 else 0
def mapReg (high : Bool) : Reg := if high then .hstSitebMapHi else .hstSitebMapLo

theorem State.testBit_mapLocked (s : State) (high : Bool) (i : Nat) :
    (s.mapLocked high).testBit i = (decide (i < mapBits high) && s.partOn (mapBase high + i)) := by
  have hsum : ∀ (l : List Nat) (m : Nat), l.foldl (fun m i => if s.partOn (mapBase high + i) then m + 2 ^ i else m) m =
      m + ((l.filter (fun i => s.partOn (mapBase high + i))).map (fun i => 2 ^ i)).sum := by
    intro l
    induction l with
    | nil => exact fun m => rfl
    | cons a l ih =>
      intro m
      rw [List.foldl_cons, ih, List.filter_cons]
      split
      · rw [List.map_cons, List.sum_cons, Nat.add_assoc]
      · rfl
  obtain ⟨-, hbits⟩ := sum_two_pow_filter_range (fun i => s.partOn (mapBase high + i)) (mapBits high)
  have hlock : s.mapLocked high = _ := hsum (List.range (mapBits high)) 0
  rw [hlock, Nat.zero_add, hbits]

/-- A write of a map register: of each bit whose partition is disabled the value is taken. -/
theorem State.writeSiteMap_spec (s : State) (high : Bool) {val : Nat} (hp : s.populated 1 = true) :
    (s.writeSiteMap high val).flash = s.flash ∧
    (∀ q : Reg, q.key ∉ rasKeys → q.key ≠ (mapReg high).key → (s.writeSiteMap high val).reg q = s.reg q) ∧
    ∀ i, i < mapBits high → bit ((s.writeSiteMap high val).reg (mapReg high)) i =
      if s.partOn (mapBase high + i) = true then bit (s.reg (mapReg high)) i else bit val i := by
  obtain ⟨u, hu, hlog, hregs⟩ : ∃ u, (if ((s.reg (mapReg high) ^^^ (mapReg high).written 63 0 (s.reg (mapReg high)) val) &&&
      s.mapLocked high) != 0 then s.accessError 307 0 (mapReg high).key else s) = u ∧ LogsOnly s u ∧
      ∀ q : Reg, q.key ∉ rasKeys → u.reg q = s.reg q := by
    split
    · exact ⟨_, rfl, logsOnly_accessError .., fun q hq => State.reg_ras _ _ hq⟩
    · exact ⟨_, rfl, .refl s, fun _ _ => rfl⟩
  have heq : s.writeSiteMap high val = u.setReg (mapReg high) ((s.reg (mapReg high) &&& s.mapLocked high) |||
      ((mapReg high).written 63 0 (s.reg (mapReg high)) val -
        ((mapReg high).written 63 0 (s.reg (mapReg high)) val &&& s.mapLocked high))) := by
    rw [← hu]
    unfold State.writeSiteMap mapReg
    dsimp only
    rw [if_neg (by rw [hp]; decide)]
  have hwant : ∀ i, i < mapBits high → ((mapReg high).written 63 0 (s.reg (mapReg high)) val).testBit i = val.testBit i := by
    intro i hi
    have hfld : fld ((mapReg high).written 63 0 (s.reg (mapReg high)) val) (mapBits high - 1) 0 = fld val (mapBits high - 1) 0 := by
      have hfields : (mapReg high).fields = [⟨mapBits high - 1, 0, .rw, 0, .w⟩] := by cases high <;> rfl
      unfold Reg.written
      rw [hfields]
      refine fld_foldl_write val [⟨mapBits high - 1, 0, .rw, 0, .w⟩] ?_ (List.pairwise_singleton _ _) _ (List.mem_singleton_self _)
      cases high <;> decide
    have hb := congrArg (Nat.testBit · i) hfld
    simp only [testBit_fld, Nat.zero_add] at hb
    rwa [decide_eq_true (show i < mapBits high - 1 + 1 - 0 by omega), Bool.true_and, Bool.true_and] at hb
  rw [heq]
  refine ⟨hlog.flash, fun q hq hne => (State.reg_setReg_of_ne _ _ hne).trans (hregs q hq), fun i hi => ?_⟩
  rw [State.reg_setReg_same]
  simp only [bit_eq_testBit]
  rw [Nat.testBit_or, Nat.testBit_and, testBit_sub_and, hwant i hi, State.testBit_mapLocked, decide_eq_true hi, Bool.true_and]
  cases s.partOn (mapBase high + i) <;> simp

theorem mapReg_ne (high : Bool) : (mapReg (!high)).key ≠ (mapReg high).key ∧ (mapReg (!high)).key ∉ rasKeys := by
  cases high <;> decide

/-- Whether a partition is served at site B, by its bit of the map registers. -/
theorem State.siteOf_eq (s : State) (hp : s.flash.order = .sab) {p : Nat} (h : p < 96) :
    s.siteOf p = if bit (s.reg (mapReg (decide (64 ≤ p)))) (p % 64) = true then 1 else 0 := by
  unfold State.siteOf mapReg
  rw [hp]
  by_cases h64 : p < 64
  · simp [h, h64, show ¬ 64 ≤ p by omega, Nat.mod_eq_of_lt h64]
  · simp [h, h64, show 64 ≤ p by omega, show p % 64 = p - 64 by omega]

theorem State.order_of_populated {s : State} (h : s.populated 1 = true) : s.flash.order = .sab := by
  simpa [State.populated] using h

theorem exec_sitebMapWrite_spec (s : State) (high : Bool) (val : BitVec 64) (hp : s.populated 1 = true) :
    ∃ t : State, exec (.sitebMapWrite high val) s = .next t ∧ ∀ p, p < 96 →
      ((64 ≤ p ↔ high = true) → s.partOn p = false → t.siteOf p = if bit val.toNat (p % 64) = true then 1 else 0) ∧
      ((64 ≤ p ↔ high = false) ∨ s.partOn p = true → t.siteOf p = s.siteOf p) := by
  have hsab := State.order_of_populated hp
  obtain ⟨hflash, hother, hbits⟩ := s.writeSiteMap_spec high (val := val.toNat) hp
  refine ⟨s.writeSiteMap high val.toNat, rfl, fun p hlt => ?_⟩
  generalize s.writeSiteMap high val.toNat = t at *
  rw [t.siteOf_eq (hflash ▸ hsab) hlt, s.siteOf_eq hsab hlt]
  have hmine : (64 ≤ p ↔ high = true) → decide (64 ≤ p) = high ∧ p % 64 < mapBits high ∧ mapBase high + p % 64 = p := by
    intro h
    cases high
    · simp only [Bool.false_eq_true, iff_false] at h
      exact ⟨decide_eq_false h, Nat.mod_lt _ (by norm_num), show 0 + p % 64 = p by omega⟩
    · simp only [iff_true] at h
      exact ⟨decide_eq_true h, show p % 64 < 32 by omega, show 64 + p % 64 = p by omega⟩
  by_cases h : 64 ≤ p ↔ high = true
  · obtain ⟨hd, hi, hb⟩ := hmine h
    have hbit := hbits _ hi
    rw [hd, hbit, hb]
    refine ⟨fun _ hoff => by rw [hoff, if_neg Bool.false_ne_true], fun hor => ?_⟩
    have hon : s.partOn p = true := hor.resolve_left fun hx => by
      cases high <;> simp_all
    rw [if_pos hon]
  · have hd : decide (64 ≤ p) = !high := by cases high <;> simp_all
    obtain ⟨hne, hras⟩ := mapReg_ne high
    rw [hd, hother _ hras hne]
    exact ⟨fun hx => absurd hx h, fun _ => rfl⟩

/-! ### Interrupts and ATS (R302, R304) -/

theorem exec_msixUnmask (s : State) {fn v : Nat} (h : v < if fn = 0 then 64 else 32) {e : Msix}
    (he : Map.getD s.msix (fn * 64 + v) ⟨0, 0, true, false⟩ = e) : ∃ t : State, exec (.msixUnmask fn v) s = .next t ∧
    Map.find? t.msix (fn * 64 + v) = some ⟨e.addr, e.data, false, false⟩ ∧
    t.out = (if e.pend = true then .msix (if fn = 0 then 0 else s.siteOf (fn - 1)) fn v :: s.out else s.out) ∧
    ∀ k, k ≠ fn * 64 + v → Map.find? t.msix k = Map.find? s.msix k := by
  have hvec : (if fn = 0 then 64 else 32) = vectorsOf fn := (if_congr beq_iff_eq rfl rfl).symm
  have hsite : s.fnSite fn = if fn = 0 then 0 else s.siteOf (fn - 1) := if_congr beq_iff_eq rfl rfl
  have hexec : exec (.msixUnmask fn v) s = .next (s.unmask fn v) := by
    show execMsixUnmask fn v s = _
    unfold execMsixUnmask
    exact if_neg (by omega)
  refine ⟨_, hexec, ?_⟩
  unfold State.unmask
  dsimp only
  rw [he, ← hsite]
  split
  · exact ⟨Map.find?_put_same _ _ _, rfl, fun k hk => Map.find?_put_other _ _ hk⟩
  · exact ⟨Map.find?_put_same _ _ _, rfl, fun k hk => Map.find?_put_other _ _ hk⟩

theorem State.exec_atsInvalidation (s : State) (site : Fin 2) (pasid page pages : Nat) : ∃ t : State,
    exec (.atsInvalidation site pasid page pages) s = .next t ∧
    t.out = .atsDone site.val :: s.out ∧ t.heap = s.heap ∧ t.regs = s.regs ∧ ∀ e, e ∈ t.tlb ↔ e ∈ s.tlb ∧
      ¬ (e.die = 15 ∧ spaceOf e.dpa = 3 ∧ s.siteOf e.part = site.val ∧ s.pasid e.ctx = pasid ∧
        e.dpa % 2 ^ 48 / 4096 < page + pages ∧ page * 4096 < e.dpa % 2 ^ 48 + e.size) := by
  refine ⟨_, rfl, rfl, rfl, rfl, fun e => ?_⟩
  refine List.mem_filter.trans (and_congr_right fun _ => ?_)
  simp only [Bool.not_eq_true', ← Bool.not_eq_true, Bool.and_eq_true, beq_iff_eq, decide_eq_true_eq, and_assoc]

/-- Settles O47. -/
theorem hostSitesComplete : Obligations.host_sites_complete := by
  unfold Obligations.host_sites_complete
  refine ⟨fun s => ⟨fun i hp => ?_, s.exec_siteAPerst, s.exec_siteBPerst⟩, fun s => ⟨fun m => ?_, fun off write => rfl,
    fun site fn what hf => ?_, fun fn off write => ?_, fun fn off hf hr hsts => ?_, fun high val => ?_, fun fn v hv => ?_,
    s.exec_atsInvalidation⟩⟩
  · refine ⟨exec_hostPowerGood_low hp, exec_hostPowerGood_high hp, fun trained fast hpwr hperst hdev hdown => ?_,
      fun hup => ⟨exec_ucieFlitReplay hup, exec_hostLinkRetrain hup⟩, fun hret => ?_⟩
    · have hmod : siteModules i.val = if i.val = 0 then 4 else 2 := if_congr beq_iff_eq rfl rfl
      have hlt : trained.toNat % 2 ^ siteModules i.val < 16 :=
        lt_of_lt_of_le (Nat.mod_lt _ (by positivity)) (by rw [hmod]; split <;> norm_num)
      obtain ⟨t, ht, h8, hnone, hsome, hras⟩ := exec_hostLinkUp_spec trained fast hp hpwr hperst hdev hdown rfl hlt
      rw [hmod] at h8 hnone hsome hras
      refine ⟨t, ht, h8, hnone, hsome, fun hroom n hn hb => ?_⟩
      obtain ⟨e, he, hsame⟩ := hras hroom n (List.mem_filter.mpr ⟨List.mem_range.mpr (by rw [hmod]; exact hn), by rw [hb]; rfl⟩)
      obtain ⟨hcls, -, hunit, hix, -⟩ := (RasEntry.same_iff _ _).mp hsame
      exact ⟨e, he, hcls, hunit, hix⟩
    · obtain ⟨h1, h20, h12, hready, hmark, -⟩ := s.hostLinkLost_spec i rfl
      exact ⟨_, exec_hostLinkDown hret, h1, h20, h12, hready, hmark⟩
  · rw [exec_sitebTrainRequest]
    exact ⟨fun h => by rw [h, if_neg Bool.false_ne_true], fun h => by rw [if_pos h]⟩
  · have hfn : (if fn = 0 then 0x7F else fn - 1) = if fn == 0 then 0x7F else fn - 1 := if_congr beq_iff_eq.symm rfl rfl
    rw [hfn]
    rfl
  · obtain ⟨hbad, hwait⟩ := s.exec_configRequest_refused fn off write
    exact ⟨hbad, fun hf hn => hwait hf ((s.notReady_iff fn).mpr hn)⟩
  · have hn : s.notReady fn = false := by
      rw [← Bool.not_eq_true, s.notReady_iff]
      rintro (h | ⟨h1, h2⟩)
      · rw [hr] at h
        cases h
      · exact hsts h1 h2
    refine ⟨⟨_, _, s.exec_configRequest_read off hf hn, rfl, rfl, rfl, fun hoff => ?_, fun hfn hoff => ?_⟩,
      s.exec_configRequest_write off hf hn⟩
    · rw [State.cfgValue, show off / 4 % 1024 = 0 by omega, readCfg_ids, BitVec.toNat_ofNat]
      have hv := Config.vendorId.isLt
      split <;> omega
    · subst hfn
      rw [State.cfgValue, show off / 4 % 1024 = 4 by omega, readCfg_bar0, BitVec.toNat_ofNat]
      have hget : Map.getD s.cfg 4 0 = (Map.find? s.cfg (0 * 1024 + 4)).getD 0 := rfl
      rw [hget]
      omega
  · refine ⟨fun h => ?_, exec_sitebMapWrite_spec s high val⟩
    show Host.Outcome.next (s.writeSiteMap high val.toNat) = _
    unfold State.writeSiteMap
    rw [if_pos (by rw [h]; rfl)]
  · exact exec_msixUnmask s hv rfl

end Sys2Proof.Machine

/-! Proofs: watchdogs, suspects and replay (R366, R367, R375 to R377). -/

namespace Sys2Proof.Machine

/-! ### The end of a launch leaves none of its groups and commands (R71, R367) -/

theorem Origin.of_iff (o : Origin) (k : Nat) : o.of k = true ↔ o.launch = some k := beq_iff_eq

/-- No command of launch `k` is in flight. -/
def NoCmds (t : State) (k : Nat) : Prop :=
  (∀ c ∈ t.mtx, c.org.launch ≠ some k) ∧ (∀ c ∈ t.dma, c.org.launch ≠ some k) ∧ ∀ c ∈ t.rmo, c.org.launch ≠ some k

/-- The end of one DMA command of a launch that ends (R367). -/
def State.endDma (t : State) (c : DmaCmd) : State :=
  if t.dma.any (fun o => o.id == c.id) then (if c.desc.isNone then t.dmaLost c 0x0B else t.dmaDone c 0x0B c.cursor) else t

theorem cmdEnds_endDma (s : State) (c : DmaCmd) : CmdEnds s (s.endDma c) ∧ ∀ o ∈ (s.endDma c).dma, o.id ≠ c.id := by
  unfold State.endDma
  split
  · split
    · exact cmdEnds_dmaLost s c _
    · exact cmdEnds_dmaDone s c _ _
  · next h => exact ⟨.refl s, fun o ho hid => h (List.any_eq_true.mpr ⟨o, ho, by simp [hid]⟩)⟩

/-- The queued matrix commands and routes of a launch are discarded (R367). -/
def State.dropSolo (s : State) (k : Nat) : State :=
  { s with mtx := s.mtx.filter (fun c => !c.org.of k), routes := s.routes.filter (fun c => !c.org.of k) }

theorem State.dropSolo_spec (s : State) (k : Nat) : EndKeeps s (s.dropSolo k) ∧ (∀ c ∈ (s.dropSolo k).mtx, c.org.launch ≠ some k) ∧
    (s.dropSolo k).dma = s.dma ∧ (s.dropSolo k).suspects = s.suspects ∧ (s.dropSolo k).failed = s.failed ∧
    (s.dropSolo k).launches = s.launches := by
  refine ⟨.of_eq rfl rfl rfl, fun c hc h => ?_, rfl, rfl, rfl, rfl⟩
  have hof := (List.mem_filter.mp hc).2
  rw [(c.org.of_iff k).mpr h] at hof
  cases hof

theorem State.endLaunch_eq (s : State) (k st : Nat) : s.endLaunch k st =
    ((((s.failLaunch k st).dropSolo k).dma.filter (fun c => c.org.of k)).foldl State.endDma ((s.failLaunch k st).dropSolo k)).failRmos 0x0A
      (fun c => c.org.of k) := rfl

theorem State.endLaunch_noCmds (s : State) (k st : Nat) : NoCmds (s.endLaunch k st) k := by
  rw [State.endLaunch_eq]
  obtain ⟨-, hmtx, -⟩ := (s.failLaunch k st).dropSolo_spec k
  generalize (s.failLaunch k st).dropSolo k = u at *
  have hdma : CmdEnds u ((u.dma.filter (fun c => c.org.of k)).foldl State.endDma u) := .foldl (fun v c => (cmdEnds_endDma v c).1) _ _
  have hgone : ∀ c ∈ ((u.dma.filter (fun c => c.org.of k)).foldl State.endDma u).dma, c.org.launch ≠ some k := by
    intro c hc hl
    obtain ⟨c', hc', hid, horg⟩ := hdma.dma c hc
    have hin : c' ∈ u.dma.filter (fun c => c.org.of k) :=
      List.mem_filter.mpr ⟨hc', (c'.org.of_iff k).mpr (by rw [horg]; exact hl)⟩
    refine foldl_of_mem (P := fun v : State => ∀ o ∈ v.dma, o.id ≠ c'.id) (fun v x hv o ho => ?_) (fun v => (cmdEnds_endDma v c').2)
      _ u hin c hc hid.symm
    obtain ⟨o', ho', hid', -⟩ := (cmdEnds_endDma v x).1.dma o ho
    exact hid' ▸ hv o' ho'
  generalize (u.dma.filter (fun c => c.org.of k)).foldl State.endDma u = v at *
  obtain ⟨hends, hrmo⟩ := cmdEnds_failRmos v 0x0A (fun c => c.org.of k)
  generalize v.failRmos 0x0A (fun c => c.org.of k) = w at *
  obtain ⟨-, -, h1, -⟩ := hdma.rest
  obtain ⟨-, -, h2, -⟩ := hends.rest
  refine ⟨fun c hc => hmtx c (by rwa [h2, h1] at hc), fun c hc => ?_, fun c hc h => ?_⟩
  · obtain ⟨c', hc', -, horg⟩ := hends.dma c hc
    exact horg ▸ hgone c' hc'
  · have := hrmo c hc
    rw [(c.org.of_iff k).mpr h] at this
    cases this

theorem NoCmds.markSuspect {t : State} {k : Nat} (h : NoCmds t k) : NoCmds (t.markSuspect k) k := h

/-- A launch that fails leaves its slots (R69, R71). -/
theorem State.failLaunch_groups {s : State} {k st : Nat} {l : Launch} (hl : Map.find? s.launches k = some l) (hp : l.phase ≠ .failing) :
    ∀ x ∈ (s.failLaunch k st).groups, x.2.launch ≠ k := by
  unfold State.failLaunch
  rw [hl]
  dsimp only
  rw [if_neg (by simpa using hp)]
  intro x hx
  simpa using (List.mem_filter.mp hx).2

/-- A launch that was not ending is ended, with its packet's status, and none of its groups and commands is left. -/
theorem State.endLaunch_spec {s : State} {k st : Nat} {l : Launch} (hl : Map.find? s.launches k = some l) (hp : l.phase ≠ .failing) :
    FailsWith (s.endLaunch k st) k st ∧ (∀ x ∈ (s.endLaunch k st).groups, x.2.launch ≠ k) ∧ NoCmds (s.endLaunch k st) k := by
  have hfail := State.failLaunch_failsWith (st := st) hl hp
  have hgroups := State.failLaunch_groups (st := st) hl hp
  have hno := s.endLaunch_noCmds k st
  rw [State.endLaunch_eq] at hno ⊢
  obtain ⟨hdrop, -⟩ := (s.failLaunch k st).dropSolo_spec k
  have hdma : ∀ (xs : List DmaCmd) u, EndKeeps u (xs.foldl State.endDma u) := EndKeeps.foldl fun v c => (cmdEnds_endDma v c).1.ends
  have hkeep := (hdrop.trans (hdma (((s.failLaunch k st).dropSolo k).dma.filter (fun c => c.org.of k)) _)).trans
    (endKeeps_failRmos _ 0x0A (fun c => c.org.of k))
  exact ⟨hfail.keeps hkeep, fun x hx => hgroups x (hkeep.groups x hx), hno⟩

/-! ### Watchdogs (R366, R367, Table 22-1) -/

/-- What a watchdog leaves of the launch that it ends. -/
def Hanged (t : State) (id : Nat) : Prop :=
  (Ending t id ∧ (∃ l, Map.find? t.launches id = some l ∧ l.suspect = true) ∧ (∀ c ∈ t.mtx, c.org.launch ≠ some id) ∧
    (∀ c ∈ t.dma, c.org.launch ≠ some id) ∧ ∀ c ∈ t.rmo, c.org.launch ≠ some id) ∧
  ∃ l, Map.find? t.launches id = some l ∧ l.status = 2

section
variable {s : State} {id : Nat} {l : Launch}

theorem State.endLaunch_hanged (hl : Map.find? s.launches id = some l) (hp : l.phase ≠ .failing) :
    Hanged ((s.endLaunch id 2).markSuspect id) id := by
  obtain ⟨hfail, hgroups, hno⟩ := State.endLaunch_spec (st := 2) hl hp
  obtain ⟨l', hl', hph, hst, hsus⟩ := hfail.markSuspect
  exact ⟨⟨⟨⟨l', hl', hph⟩, hgroups⟩, ⟨l', hl', hsus⟩, hno.markSuspect⟩, l', hl', hst⟩

theorem State.watchdogEnd_hanged (event : Nat) (hl : Map.find? s.launches id = some l) (hp : l.phase ≠ .failing) :
    Hanged (s.watchdogEnd id event) id := by
  unfold State.watchdogEnd
  rw [hl]
  dsimp only
  have hlog : LogsOnly s ((s.hangRecord id l).ras_ { rasOf 0x0E 2 (coreDie l.core) 0x03 l.core event with
      part := l.part, core := l.core, ctx := l.ctx }) := (logsOnly_hangRecord s id l).trans (logsOnly_ras _ _)
  exact State.endLaunch_hanged (hlog.launches ▸ hl) hp

theorem State.commandHang_hanged (event : Nat) (hl : Map.find? s.launches id = some l) (hp : l.phase ≠ .failing) :
    Hanged (s.commandHang id event) id := by
  unfold State.commandHang
  rw [hl]
  dsimp only
  rw [if_neg (by simpa using hp)]
  exact State.watchdogEnd_hanged event hl hp

/-- A launch that was ending already is marked, and its commands are discarded. -/
theorem State.commandHang_failing (event : Nat) (hl : Map.find? s.launches id = some l) (hp : l.phase = .failing) :
    (∃ h, Map.find? (s.commandHang id event).launches id = some h ∧ h.suspect = true) ∧ NoCmds (s.commandHang id event) id := by
  unfold State.commandHang
  rw [hl]
  dsimp only
  rw [if_pos (by simpa using hp)]
  have hlog : LogsOnly s (s.hangEvent l.core 2 event l.ctx) := logsOnly_ras _ _
  generalize s.hangEvent l.core 2 event l.ctx = u at *
  have hl' := (endKeeps_endLaunch u id 2).failing id l (hlog.launches ▸ hl) hp
  have hno := u.endLaunch_noCmds id 2
  generalize u.endLaunch id 2 = v at *
  refine ⟨⟨{ l with suspect := true }, ?_, rfl⟩, hno.markSuspect⟩
  exact Map.find?_modify_same hl' _

/-- No watchdog but a replay's own runs for a launch that is replayed. -/
theorem State.inReplay_of_no_suspect (h : ∀ x ∈ s.suspects, x.id ≠ id) : s.inReplay id = false := by
  unfold State.inReplay
  rw [List.any_eq_false]
  intro x hx
  simp [h x hx]

theorem exec_launchWatchdog (hl : Map.find? s.launches id = some l) (hsus : ∀ x ∈ s.suspects, x.id ≠ id) (hp : l.phase ≠ .preempted) :
    exec (.launchWatchdog id) s = .next (s.commandHang id 1) := by
  have hany : s.suspects.any (fun x => x.id == id) = false := by
    rw [List.any_eq_false]
    exact fun x hx => by simp [hsus x hx]
  show execLaunchWatchdog id s = _
  unfold execLaunchWatchdog
  rw [hl]
  dsimp only
  rw [if_neg (by rw [State.inReplay_of_no_suspect hsus, hany]; simpa using hp)]

/-- The one command of a list with its id is the one found. -/
theorem find?_eq_some_of_unique {α : Type} {xs : List α} {p : α → Bool} {x : α} (hx : x ∈ xs) (hp : p x = true)
    (hu : ∀ o ∈ xs, p o = true → o = x) : xs.find? p = some x := by
  cases h : xs.find? p with
  | none => exact absurd hp (by simpa using List.find?_eq_none.mp h x hx)
  | some y => rw [hu y (List.mem_of_find?_eq_some h) (List.find?_some h)]

theorem exec_dmaWatchdog {c : DmaCmd} (hc : c ∈ s.dma) (hu : ∀ o ∈ s.dma, o.id = c.id → o = c) (hr : s.inReplay c.id = false)
    (hrl : s.inReplay (c.org.launch.getD 0) = false) : exec (.dmaWatchdog c.id) s =
      if c.pkt = true then .next ((s.hangEvent c.org.core 2 2 c.org.ctx).dmaDone c 0x0B c.cursor)
      else .next (s.commandHang (c.org.launch.getD 0) 2) := by
  show execDmaWatchdog c.id s = _
  unfold execDmaWatchdog
  rw [find?_eq_some_of_unique (p := fun o => o.id == c.id) hc (beq_self_eq_true _) (fun o ho h => hu o ho (beq_iff_eq.mp h))]
  dsimp only
  rw [if_neg (by rw [hr, hrl]; decide)]

theorem exec_matrixWatchdog {c : MtxCmd} (hc : c ∈ s.mtx) (hu : ∀ o ∈ s.mtx, o.id = c.id → o = c)
    (hrl : s.inReplay (c.org.launch.getD 0) = false) :
    exec (.matrixWatchdog c.id) s = .next (s.commandHang (c.org.launch.getD 0) 2) := by
  show execMatrixWatchdog c.id s = _
  unfold execMatrixWatchdog
  rw [find?_eq_some_of_unique (p := fun o => o.id == c.id) hc (beq_self_eq_true _) (fun o ho h => hu o ho (beq_iff_eq.mp h))]
  dsimp only
  rw [if_neg (by rw [hrl]; decide)]

theorem exec_suspendWatchdog_group {r : GroupRef} {g : Group} (hg : Map.find? s.groups (refKey r) = some g)
    (hs : ∃ a b c d e w0 w1, g.stat = .susp a b c d e w0 w1) (hr : s.inReplay g.launch = false) :
    exec (.suspendWatchdog r) s = .next (s.watchdogEnd g.launch 1) := by
  obtain ⟨a, b, c, d, e, w0, w1, hstat⟩ := hs
  show execSuspendWatchdog r s = _
  unfold execSuspendWatchdog
  rw [hg]
  dsimp only
  rw [hstat]
  exact if_neg (by rw [hr]; decide)

theorem exec_suspendWatchdog_saved {r : GroupRef} (hg : Map.find? s.groups (refKey r) = none) (hs : s.savedSusp r = some id) :
    exec (.suspendWatchdog r) s = .next (s.watchdogEnd id 1) := by
  show execSuspendWatchdog r s = _
  unfold execSuspendWatchdog
  rw [hg]
  dsimp only
  rw [hs]

end

/-- A DMA command that ends with a status other than poison leaves the launches as they are. -/
theorem State.launches_dmaDone (s : State) (c : DmaCmd) {st : Nat} (detail : Nat) (h : st ≠ 8) :
    (s.dmaDone c st detail).launches = s.launches := by
  have hword : ∀ t : State, (match c.desc with
      | some d =>
        if c.pkt || dStat d + 16 > poolSize c.org.core then t
        else t.poolWrite c.org.core (dStat d + 8) (leBytes (2 ^ 63 + st * 2 ^ 48 + detail % 2 ^ 48) 8)
      | none => t).launches = t.launches := fun t => by
    split
    · split
      · rfl
      · exact (writesOnly_writeLocs _ _ _ _).launches
    · rfl
  have hqueue : ∀ t : State, (if c.pkt then
      { t with queues := Map.modify t.queues c.org.queue (fun q => { q with started := q.started.map (fun p => p.dmaDone c st) }) }
      else t).launches = t.launches := fun t => by split <;> rfl
  unfold State.dmaDone
  dsimp only
  rw [if_neg (by simpa using h)]
  exact (hqueue _).trans ((logsOnly_dmaCount _ c st).launches.trans (hword _))

/-! ### What recovery never adds (R375, R377) -/

/-- Every suspect of `t` is one of `s`, every context that failed in `s` has failed in `t`, and a launch that is not in `s` is not
in `t`. -/
structure Thins (s t : State) : Prop where
  suspects : ∀ y ∈ t.suspects, ∃ x ∈ s.suspects, x.id = y.id
  failed : ∀ c ∈ s.failed, c ∈ t.failed
  launches : ∀ k, Map.find? s.launches k = none → Map.find? t.launches k = none

namespace Thins
variable {s t u : State}

theorem refl (s : State) : Thins s s := ⟨fun y hy => ⟨y, hy, rfl⟩, fun _ h => h, fun _ h => h⟩

theorem trans (h : Thins s t) (k : Thins t u) : Thins s u := by
  refine ⟨fun y hy => ?_, fun c hc => k.failed c (h.failed c hc), fun j hj => k.launches j (h.launches j hj)⟩
  obtain ⟨x, hx, hid⟩ := k.suspects y hy
  obtain ⟨x', hx', hid'⟩ := h.suspects x hx
  exact ⟨x', hx', hid'.trans hid⟩

theorem of_eq (hs : t.suspects = s.suspects) (hf : t.failed = s.failed) (hl : t.launches = s.launches) : Thins s t :=
  ⟨fun y hy => ⟨y, hs ▸ hy, rfl⟩, fun _ h => hf ▸ h, fun _ h => hl ▸ h⟩

theorem of_writes (h : WritesOnly s t) : Thins s t := .of_eq (by rw [h]) (by rw [h]) (by rw [h])
theorem of_logs (h : LogsOnly s t) : Thins s t := .of_writes h.writes

theorem foldl {α : Type} {f : State → α → State} (h : ∀ u x, Thins u (f u x)) (xs : List α) (s : State) : Thins s (xs.foldl f s) := by
  induction xs generalizing s with
  | nil => exact refl s
  | cons x xs ih => exact (h s x).trans (ih _)

/-- A suspect that is gone stays gone. -/
theorem gone (h : Thins s t) {id : Nat} (hs : ∀ y ∈ s.suspects, y.id ≠ id) : ∀ y ∈ t.suspects, y.id ≠ id := by
  intro y hy
  obtain ⟨x, hx, hid⟩ := h.suspects y hy
  exact hid ▸ hs x hx

end Thins

section
variable (s : State)

theorem thins_failLaunch (k st : Nat) : Thins s (s.failLaunch k st) := by
  unfold State.failLaunch
  split
  · exact .refl s
  · next l hl =>
    split
    · exact .refl s
    · refine ⟨fun y hy => ⟨y, hy, rfl⟩, fun _ h => h, fun j hj => ?_⟩
      show Map.find? (Map.put s.launches k _) j = none
      rw [Map.find?_put_other _ _ (fun h => by rw [h, hl] at hj; cases hj), hj]

theorem thins_failCtx (ctx : Nat) : Thins s (s.failCtx ctx) := by
  have h : Thins s { s with failed := NSet.ins s.failed ctx } :=
    ⟨fun y hy => ⟨y, hy, rfl⟩, fun c hc => (NSet.mem_ins _ _ _).mpr (.inr hc), fun _ h => h⟩
  exact h.trans (.foldl (fun u k => thins_failLaunch u k 2) _ _)

theorem thins_dmaDone (c : DmaCmd) (st detail : Nat) : Thins s (s.dmaDone c st detail) := by
  have hdrop : Thins s { s with dma := s.dma.filter (fun o => o.id != c.id) } := .of_eq rfl rfl rfl
  have hword : ∀ t : State, Thins t (match c.desc with
      | some d =>
        if c.pkt || dStat d + 16 > poolSize c.org.core then t
        else t.poolWrite c.org.core (dStat d + 8) (leBytes (2 ^ 63 + st * 2 ^ 48 + detail % 2 ^ 48) 8)
      | none => t) := fun t => by
    split
    · split
      · exact .refl t
      · exact .of_writes (writesOnly_writeLocs _ _ _ _)
    · exact .refl t
  have hqueue : ∀ t : State, Thins t (if c.pkt then
      { t with queues := Map.modify t.queues c.org.queue (fun q => { q with started := q.started.map (fun p => p.dmaDone c st) }) }
      else t) := fun t => by
    split
    · exact .of_eq rfl rfl rfl
    · exact .refl t
  have hfail : ∀ t : State, Thins t (if st == 8 then
      (t.ras_ { rasOf 0x03 2 (coreDie c.org.core) 0x03 c.org.core 8 with
        part := c.org.part, core := c.org.core, ctx := c.org.ctx }).failCtx c.org.ctx else t) := fun t => by
    split
    · exact (Thins.of_logs (logsOnly_ras t _)).trans (thins_failCtx _ _)
    · exact .refl t
  exact (hdrop.trans (hword _)).trans ((Thins.of_logs (logsOnly_dmaCount _ c st)).trans ((hqueue _).trans (hfail _)))

theorem thins_endDma (c : DmaCmd) : Thins s (s.endDma c) := by
  unfold State.endDma State.dmaLost
  split
  · split
    · split
      · exact thins_dmaDone s c _ _
      · exact ((Thins.of_logs (logsOnly_post s _ _)).trans (thins_dmaDone _ _ _ _)).trans (thins_failLaunch _ _ _)
    · exact thins_dmaDone s c _ _
  · exact .refl s

theorem thins_failRmos (code : Nat) (p : RmoCmd → Bool) : Thins s (s.failRmos code p) := by
  refine .foldl (fun u c => ?_) _ _
  split
  · unfold State.failRmoAs State.failRmo
    dsimp only
    have hdrop : Thins u { u with rmo := u.rmo.filter (fun o => o.id != c.id) } := .of_eq rfl rfl rfl
    split
    · exact ((hdrop.trans (.of_logs (logsOnly_post _ _ _))).trans (thins_failLaunch _ _ _)).trans
        ((Thins.of_logs (logsOnly_ras _ _)).trans (thins_failCtx _ _))
    · exact (hdrop.trans (.of_logs (logsOnly_post _ _ _))).trans (thins_failLaunch _ _ _)
  · exact .refl u

theorem thins_endLaunch (k st : Nat) : Thins s (s.endLaunch k st) := by
  rw [State.endLaunch_eq]
  obtain ⟨-, -, -, hs, hf, hl⟩ := (s.failLaunch k st).dropSolo_spec k
  exact (((thins_failLaunch s k st).trans (.of_eq hs hf hl)).trans (.foldl thins_endDma _ _)).trans (thins_failRmos _ _ _)

theorem Map.find?_modify_none {α : Type} {m : Map α} {j : Nat} (h : Map.find? m j = none) (i : Nat) (f : α → α) :
    Map.find? (Map.modify m i f) j = none := by
  rw [Map.find?_modify]
  split <;> simp_all

theorem thins_dropSuspect (x : Suspect) : Thins s (s.dropSuspect x) := by
  refine ⟨fun y hy => ⟨y, (List.mem_filter.mp hy).1, rfl⟩, fun _ h => h, fun k hk => ?_⟩
  show Map.find? (if x.isDma = true then s.launches else _) k = none
  split
  · exact hk
  · exact Map.find?_modify_none hk _ _

theorem State.dropSuspect_gone (x : Suspect) : ∀ y ∈ (s.dropSuspect x).suspects, y.id ≠ x.id := fun y hy => by
  simpa using (List.mem_filter.mp hy).2

theorem thins_hangEvent (core sev event ctx : Nat) : Thins s (s.hangEvent core sev event ctx) := .of_logs (logsOnly_ras s _)

/-- The command of a DMA suspect that fails ends, and its packet completes. -/
def State.failPacket (t : State) (x : Suspect) : State :=
  { t with
    dma := t.dma.filter (fun c => c.id != x.id)
    queues := Map.modify t.queues x.queue (fun q => { q with started := q.started.map (fun (e : Started) =>
      if e.live.contains x.id then { e with
        live := NSet.del e.live x.id
        status := 2
        detail := 0x0B } else e) }) }

theorem State.failSuspect_eq (x : Suspect) : s.failSuspect x =
    (if x.isDma then (s.dropSuspect x).failPacket x else (s.dropSuspect x).endLaunch x.id 2).failCtx x.ctx := rfl

theorem thins_failSuspect (x : Suspect) : Thins s (s.failSuspect x) ∧ (∀ y ∈ (s.failSuspect x).suspects, y.id ≠ x.id) ∧
    x.ctx ∈ (s.failSuspect x).failed := by
  rw [State.failSuspect_eq]
  have hend : Thins (s.dropSuspect x) (if x.isDma then (s.dropSuspect x).failPacket x else (s.dropSuspect x).endLaunch x.id 2) := by
    split
    · exact .of_eq rfl rfl rfl
    · exact thins_endLaunch _ _ _
  have h := hend.trans (thins_failCtx _ x.ctx)
  exact ⟨(thins_dropSuspect s x).trans h, h.gone (s.dropSuspect_gone x), State.mem_failed_failCtx _ _⟩

theorem thins_settleCore (core n : Nat) : Thins s (s.settleCore core n) := by
  induction n generalizing s with
  | zero => exact .refl s
  | succ n ih =>
    unfold State.settleCore
    split
    · exact .refl s
    · next x hx => exact ((thins_hangEvent s core 2 0x22 x.ctx).trans (thins_failSuspect _ x).1).trans (ih _)

/-! ### Replay (R377) -/

/-- A replay adds no suspect, and changes no queue and no hold of a matrix engine. -/
structure Replays (s t : State) : Prop where
  thins : Thins s t
  kept : ∀ x ∈ s.suspects, ∃ y ∈ t.suspects, y.id = x.id ∧ y.ctx = x.ctx
  rest : t.failed = s.failed ∧ t.queues = s.queues ∧ t.mtxHolder = s.mtxHolder

/-- A suspect whose replay begins. -/
def beginReplay (x y : Suspect) : Suspect := if y.id == x.id then { y with replaying := true } else y

theorem beginReplay_keeps (x y : Suspect) : (beginReplay x y).id = y.id ∧ (beginReplay x y).ctx = y.ctx := by
  unfold beginReplay
  split <;> exact ⟨rfl, rfl⟩

theorem Replays.of_begun {t : State} (x : Suspect) (hs : t.suspects = s.suspects.map (beginReplay x))
    (hl : ∀ k, Map.find? s.launches k = none → Map.find? t.launches k = none)
    (hr : t.failed = s.failed ∧ t.queues = s.queues ∧ t.mtxHolder = s.mtxHolder) : Replays s t := by
  refine ⟨⟨fun y hy => ?_, fun _ h => hr.1 ▸ h, hl⟩, fun y hy => ⟨beginReplay x y, hs ▸ List.mem_map_of_mem hy, beginReplay_keeps x y⟩, hr⟩
  obtain ⟨z, hz, rfl⟩ := List.mem_map.mp (hs ▸ hy)
  exact ⟨z, hz, (beginReplay_keeps x z).1.symm⟩

theorem replays_startReplay (x : Suspect) : Replays s (s.startReplay x) := by
  unfold State.startReplay
  dsimp only
  split
  · exact .of_begun s x rfl (fun _ h => h) ⟨rfl, rfl, rfl⟩
  · split
    · exact .of_begun s x rfl (fun _ h => h) ⟨rfl, rfl, rfl⟩
    · next l hl =>
      have hnew : ∀ k (l' : Launch), Map.find? s.launches k = none → Map.find? (Map.put s.launches x.id l') k = none := fun k l' hk => by
        rw [Map.find?_put_other _ _ (fun h => by rw [h, hl] at hk; cases hk), hk]
      split
      · exact .of_begun s x rfl (fun k => hnew k _) ⟨rfl, rfl, rfl⟩
      · exact .of_begun s x rfl (fun k => hnew k _) ⟨rfl, rfl, rfl⟩

theorem replays_nextReplay (core : Nat) : Replays s (s.nextReplay core) := by
  unfold State.nextReplay
  have hrefl : Replays s s := ⟨.refl s, fun x hx => ⟨x, hx, rfl, rfl⟩, rfl, rfl, rfl⟩
  dsimp only
  split
  · exact hrefl
  · split
    · exact hrefl
    · exact replays_startReplay s _

theorem thins_replayEnded (core : Nat) : Thins s (s.replayEnded core) := by
  unfold State.replayEnded
  have h := thins_settleCore s core s.suspects.length
  generalize s.settleCore core s.suspects.length = u at *
  dsimp only
  split
  · exact h.trans (replays_nextReplay u core).thins
  · split
    · exact h.trans (.of_eq rfl rfl rfl)
    · exact (h.trans (thins_hangEvent u core 1 0x23 0)).trans (.of_eq rfl rfl rfl)

end

/-! ### The end of a launch and of a replay (R69, R375, R377) -/

section
variable {s : State} {id : Nat} {l : Launch}

theorem State.finishLaunch_spec (s : State) (id : Nat) (l : Launch) : Map.find? (s.finishLaunch id l).launches id = none ∧
    (s.finishLaunch id l).suspects = s.suspects ∧ (s.finishLaunch id l).failed = s.failed ∧
    ((s.finishLaunch id l).queue l.queue).started = (s.queue l.queue).started.map (fun p => p.launchDone id l) ∧
    (∀ x ∈ (s.finishLaunch id l).mtxHolder, x.2 ≠ id) ∧
    ∀ k, Map.find? s.launches k = none → Map.find? (s.finishLaunch id l).launches k = none := by
  refine ⟨Map.find?_drop_same _ _, rfl, rfl, ?_, fun x hx => by simpa using (List.mem_filter.mp hx).2, fun k hk => ?_⟩
  · show (Map.getD (Map.modify s.queues l.queue _) l.queue _).started = (Map.getD s.queues l.queue _).started.map _
    unfold Map.getD
    rw [Map.find?_modify, if_pos rfl]
    cases Map.find? s.queues l.queue <;> rfl
  · show Map.find? (Map.drop s.launches id) k = none
    rw [Map.find?_drop]
    split
    · rfl
    · exact hk

/-- What must hold for a launch to complete. -/
structure Completes (s : State) (id : Nat) (l : Launch) : Prop where
  found : Map.find? s.launches id = some l
  groups : ∀ x ∈ s.groups, x.2.launch ≠ id
  busy : s.busyLaunch id = false
  phase : l.phase = .running ∨ l.phase = .failing
  suspects : ∀ y ∈ s.suspects, y.id ≠ id

theorem any_launch_eq_false {groups : Map Group} (h : ∀ x ∈ groups, x.2.launch ≠ id) :
    groups.any (fun kv => kv.2.launch == id) = false := by
  rw [List.any_eq_false]
  exact fun x hx => by simp [h x hx]

theorem exec_launchComplete (h : Completes s id l) : exec (.launchComplete id) s =
    if !l.suspect then .next ((s.finishLaunch id l).nextReplay l.core)
    else if s.launchReplayable l && !s.failed.contains l.ctx then
      .next ({ s with
        suspects := s.suspects ++ [s.launchSuspect id l]
        mtxHolder := Map.keepV s.mtxHolder (fun _ h => h != id) }.nextReplay l.core)
    else .next (((s.hangEvent l.core 2 0x22 l.ctx).finishLaunch id l).failCtx l.ctx) := by
  have hsus : s.suspects.any (fun x => x.id == id) = false := by
    rw [List.any_eq_false]
    exact fun x hx => by simp [h.suspects x hx]
  show execLaunchComplete id s = _
  unfold execLaunchComplete
  rw [h.found]
  dsimp only
  rw [if_neg (by rw [any_launch_eq_false h.groups, h.busy]; rcases h.phase with hp | hp <;> rw [hp] <;> decide),
    if_neg (by rw [hsus]; exact Bool.false_ne_true)]

theorem exec_launchComplete_done (h : Completes s id l) (hl : l.suspect = false) :
    ∃ t : State, exec (.launchComplete id) s = .next t ∧ Map.find? t.launches id = none ∧
      (t.queue l.queue).started = (s.queue l.queue).started.map (fun p => p.launchDone id l) ∧ ∀ x ∈ t.mtxHolder, x.2 ≠ id := by
  rw [exec_launchComplete h, hl, if_pos (by rfl)]
  obtain ⟨hgone, -, -, hq, hm, -⟩ := s.finishLaunch_spec id l
  generalize s.finishLaunch id l = u at *
  have hr := replays_nextReplay u l.core
  obtain ⟨-, hqueues, hmtx⟩ := hr.rest
  exact ⟨_, rfl, hr.thins.launches id hgone, by rw [State.queue_congr hqueues, hq], fun x hx => hm x (hmtx ▸ hx)⟩

theorem exec_launchComplete_kept (h : Completes s id l) (hl : l.suspect = true) (hr : s.launchReplayable l = true) (hf : l.ctx ∉ s.failed) :
    ∃ t : State, exec (.launchComplete id) s = .next t ∧ t.failed = s.failed ∧ ∃ y ∈ t.suspects, y.id = id ∧ y.ctx = l.ctx := by
  rw [exec_launchComplete h, hl, if_neg (by decide), if_pos (by rw [hr]; simpa using hf)]
  obtain ⟨hfailed, -⟩ := (replays_nextReplay ({ s with
    suspects := s.suspects ++ [s.launchSuspect id l]
    mtxHolder := Map.keepV s.mtxHolder (fun _ h => h != id) }) l.core).rest
  obtain ⟨y, hy, hid, hctx⟩ := (replays_nextReplay ({ s with
    suspects := s.suspects ++ [s.launchSuspect id l]
    mtxHolder := Map.keepV s.mtxHolder (fun _ h => h != id) }) l.core).kept (s.launchSuspect id l)
      (List.mem_append_right _ (List.mem_singleton_self _))
  exact ⟨_, rfl, hfailed, y, hy, hid, hctx⟩

theorem exec_launchComplete_failed (h : Completes s id l) (hl : l.suspect = true) (hr : s.launchReplayable l = false ∨ l.ctx ∈ s.failed) :
    ∃ t : State, exec (.launchComplete id) s = .next t ∧ Map.find? t.launches id = none ∧ l.ctx ∈ t.failed := by
  have hcond : (s.launchReplayable l && !s.failed.contains l.ctx) = false := by
    rcases hr with hr | hr
    · rw [hr]
      rfl
    · rw [List.contains_iff_mem.mpr hr, Bool.not_true, Bool.and_false]
  rw [exec_launchComplete h, hl, if_neg (by decide), if_neg (by rw [hcond]; exact Bool.false_ne_true)]
  obtain ⟨hgone, -⟩ := (s.hangEvent l.core 2 0x22 l.ctx).finishLaunch_spec id l
  exact ⟨_, rfl, (thins_failCtx _ l.ctx).launches id hgone, State.mem_failed_failCtx _ _⟩

variable {x : Suspect}

/-- The one suspect of an id is the one that replays. -/
theorem find?_suspect (hx : x ∈ s.suspects) (hu : ∀ y ∈ s.suspects, y.id = x.id → y = x) (hr : x.replaying = true) :
    s.suspects.find? (fun y => y.id == x.id && y.replaying) = some x :=
  find?_eq_some_of_unique (p := fun y => y.id == x.id && y.replaying) hx (by rw [hr, beq_self_eq_true]; rfl)
    (fun y hy h => hu y hy (beq_iff_eq.mp (Bool.and_eq_true _ _ ▸ h).1))

theorem exec_replayComplete_dma (hx : x ∈ s.suspects) (hu : ∀ y ∈ s.suspects, y.id = x.id → y = x) (hr : x.replaying = true)
    (hd : x.isDma = true) (hno : ∀ c ∈ s.dma, c.id ≠ x.id) : ∃ t : State, exec (.replayComplete x.id) s = .next t ∧
    ∀ y ∈ t.suspects, y.id ≠ x.id := by
  have hany : s.dma.any (fun c => c.id == x.id) = false := by
    rw [List.any_eq_false]
    exact fun c hc => by simp [hno c hc]
  have hexec : exec (.replayComplete x.id) s = .next (((s.hangEvent x.core 0 0x20 x.ctx).dropSuspect x).replayEnded x.core) := by
    show execReplayComplete x.id s = _
    unfold execReplayComplete
    rw [find?_suspect hx hu hr]
    dsimp only
    rw [if_pos hd, if_neg (by rw [hany]; exact Bool.false_ne_true)]
  exact ⟨_, hexec, (thins_replayEnded _ _).gone (State.dropSuspect_gone _ x)⟩

theorem exec_replayComplete_launch (hx : x ∈ s.suspects) (hu : ∀ y ∈ s.suspects, y.id = x.id → y = x) (hr : x.replaying = true)
    (hd : x.isDma = false) (hl : Map.find? s.launches x.id = some l) (hg : ∀ g ∈ s.groups, g.2.launch ≠ x.id)
    (hb : s.busyLaunch x.id = false) : ∃ t : State, exec (.replayComplete x.id) s = .next t ∧
    (∀ y ∈ t.suspects, y.id ≠ x.id) ∧ Map.find? t.launches x.id = none := by
  have hexec : exec (.replayComplete x.id) s = .next ((((s.hangEvent x.core 0 0x20 x.ctx).dropSuspect x).finishLaunch x.id
      { l with suspect := false }).replayEnded x.core) := by
    show execReplayComplete x.id s = _
    unfold execReplayComplete
    rw [find?_suspect hx hu hr]
    dsimp only
    rw [if_neg (by rw [hd]; exact Bool.false_ne_true), hl]
    dsimp only
    rw [if_neg (by rw [any_launch_eq_false hg, hb]; exact Bool.false_ne_true)]
  have hgone := State.dropSuspect_gone (s.hangEvent x.core 0 0x20 x.ctx) x
  rw [hexec]
  generalize (s.hangEvent x.core 0 0x20 x.ctx).dropSuspect x = u at *
  obtain ⟨hnone, hsus, -⟩ := u.finishLaunch_spec x.id { l with suspect := false }
  exact ⟨_, rfl, (thins_replayEnded _ _).gone (hsus ▸ hgone), (thins_replayEnded _ _).launches _ hnone⟩

/-- A core with a guilty suspect among its own. -/
def State.markGuilty (t : State) (core : Nat) : State := { t with guilty := NSet.ins t.guilty core }

theorem thins_markGuilty (t : State) (core : Nat) : Thins t (t.markGuilty core) := .of_eq rfl rfl rfl

theorem exec_replayWatchdog (hx : x ∈ s.suspects) (hu : ∀ y ∈ s.suspects, y.id = x.id → y = x) (hr : x.replaying = true) :
    ∃ t : State, exec (.replayWatchdog x.id) s = .next t ∧ (∀ y ∈ t.suspects, y.id ≠ x.id) ∧ x.ctx ∈ t.failed := by
  obtain ⟨-, hgone, hfailed⟩ := thins_failSuspect (s.hangEvent x.core 2 0x21 x.ctx) x
  have hexec : exec (.replayWatchdog x.id) s =
      .next ((((s.hangEvent x.core 2 0x21 x.ctx).failSuspect x).markGuilty x.core).replayEnded x.core) := by
    show execReplayWatchdog x.id s = _
    unfold execReplayWatchdog
    rw [find?_suspect hx hu hr]
    rfl
  have hthin := (thins_markGuilty ((s.hangEvent x.core 2 0x21 x.ctx).failSuspect x) x.core).trans (thins_replayEnded _ x.core)
  exact ⟨_, hexec, hthin.gone hgone, hthin.failed _ hfailed⟩

end

/-! ### Asking for a step (R373) -/

/-- The registers that say who owns a basin. -/
def OwnerReg (q : Reg) : Prop := ∃ p, q = .cfgPartSts p ∨ q = .cfgPartBsnLo p ∨ q = .cfgPartBsnHi p

theorem OwnerReg.not_logKey {q : Reg} (h : OwnerReg q) : ¬ LogKey q.key := by
  obtain ⟨p, rfl | rfl | rfl⟩ := h
  · exact (cfgPartSts_not_logKey p).1
  · exact (cfgPartBsn_apart p).1.1
  · exact (cfgPartBsn_apart p).2.1

theorem OwnerReg.ne_rst {q : Reg} (h : OwnerReg q) : q.key ≠ Reg.key .rstSts ∧ q.key ≠ Reg.key .rstBtnSts := by
  obtain ⟨p, rfl | rfl | rfl⟩ := h
  all_goals
    simp only [Reg.key]
    omega

/-- The basins of `t` have the owners that they have in `s`. -/
def SameOwners (s t : State) : Prop := ∀ q, OwnerReg q → t.reg q = s.reg q

namespace SameOwners
variable {s t u : State}

theorem refl (s : State) : SameOwners s s := fun _ _ => rfl
theorem trans (h : SameOwners s t) (k : SameOwners t u) : SameOwners s u := fun q hq => (k q hq).trans (h q hq)
theorem of_eq (h : t.regs = s.regs) : SameOwners s t := fun q _ => State.reg_congr h q
theorem of_logRegs (h : LogRegs s t) : SameOwners s t := fun q hq => h q hq.not_logKey

theorem partOn (h : SameOwners s t) (p : Nat) : t.partOn p = s.partOn p := by
  unfold State.partOn
  rw [State.rf_congr (h _ ⟨p, .inl rfl⟩)]

theorem basinOwner (h : SameOwners s t) (b : Nat) : t.basinOwner b = s.basinOwner b := by
  have hpred : (fun q => t.partOn q && t.partBasinBit q b) = fun q => s.partOn q && s.partBasinBit q b := by
    funext q
    unfold State.partBasinBit
    rw [h.partOn, h _ ⟨q, .inr (.inl rfl)⟩, h _ ⟨q, .inr (.inr rfl)⟩]
  unfold State.basinOwner
  rw [hpred]

theorem inScope (h : SameOwners s t) (r e : ResetReq) : t.inScope r e = s.inScope r e := by
  unfold State.inScope
  simp only [h.basinOwner]

end SameOwners

/-- Two steps of one unit. -/
def ResetReq.alike (a b : ResetReq) : Prop := a.level = b.level ∧ a.unit = b.unit ∧ a.ekind = b.ekind ∧ a.eidx = b.eidx

theorem State.inScope_alike (s : State) {a b c d : ResetReq} (h : a.alike b) (k : c.alike d) : s.inScope a c = s.inScope b d := by
  obtain ⟨h1, h2, h3, h4⟩ := h
  obtain ⟨k1, k2, k3, k4⟩ := k
  unfold State.inScope
  rw [h1, h2, h3, h4, k1, k2, k3, k4]

/-- A step of a level of the ladder lies in its own scope. -/
theorem State.inScope_self (s : State) {r : ResetReq} (h : 1 ≤ r.level ∧ r.level ≤ 6) : s.inScope r r = true := by
  obtain ⟨h1, h6⟩ := h
  unfold State.inScope
  generalize r.level = n at *
  interval_cases n <;> simp

/-- What asking for a step keeps. -/
structure Asks (s t : State) : Prop where
  owners : SameOwners s t
  hung : t.hung = s.hung
  ras : t.ras = s.ras
  groups : t.groups = s.groups
  partOps : t.partOps = s.partOps
  reg : ∀ q : Reg, q.key ≠ Reg.key .rstSts → q.key ≠ Reg.key .rstBtnSts → t.reg q = s.reg q

namespace Asks
variable {s t u : State}

theorem refl (s : State) : Asks s s := ⟨.refl s, rfl, rfl, rfl, rfl, fun _ _ _ => rfl⟩

theorem trans (h : Asks s t) (k : Asks t u) : Asks s u :=
  ⟨h.owners.trans k.owners, k.hung.trans h.hung, k.ras.trans h.ras, k.groups.trans h.groups, k.partOps.trans h.partOps,
    fun q h1 h2 => (k.reg q h1 h2).trans (h.reg q h1 h2)⟩

theorem of_reg (hu : t.hung = s.hung) (hr : t.ras = s.ras) (hg : t.groups = s.groups) (hp : t.partOps = s.partOps)
    (h : ∀ q : Reg, q.key ≠ Reg.key .rstSts → q.key ≠ Reg.key .rstBtnSts → t.reg q = s.reg q) : Asks s t :=
  ⟨fun q hq => h q hq.ne_rst.1 hq.ne_rst.2, hu, hr, hg, hp, h⟩

end Asks

theorem asks_setRf (s : State) {r : Reg} (h : r = .rstSts ∨ r = .rstBtnSts) (hi lo v : Nat) : Asks s (s.setRf r hi lo v) := by
  refine .of_reg rfl rfl rfl rfl fun q h1 h2 => State.reg_setRf_of_ne _ _ _ _ ?_
  rcases h with rfl | rfl
  · exact h1
  · exact h2

theorem asks_stepCode (s : State) (n : Nat) : Asks s (s.stepCode n).2 ∧ (s.stepCode n).2.resetQ = s.resetQ := by
  unfold State.stepCode
  split <;> exact ⟨.of_reg rfl rfl rfl rfl fun _ _ _ => rfl, rfl⟩

theorem asks_slotCount (s : State) (b : Bool) : Asks s (s.slotCount b).2 ∧ (s.slotCount b).2.resetQ = s.resetQ := by
  unfold State.slotCount
  split <;> exact ⟨.of_reg rfl rfl rfl rfl fun _ _ _ => rfl, rfl⟩

/-- The Bittern's ring as it is written. -/
def State.bitternSet (s : State) (cs : List Collection) : State := { s with bittern := cs }

theorem asks_bitternSet (s : State) (cs : List Collection) : Asks s (s.bitternSet cs) ∧ (s.bitternSet cs).resetQ = s.resetQ :=
  ⟨.of_reg rfl rfl rfl rfl fun _ _ _ => rfl, rfl⟩

theorem State.collect_eq (s : State) (r : ResetReq) (skipped missing : Bool) : ∃ (cs : List Collection) (v w : Nat),
    s.collect r skipped missing =
      (((((s.stepCode r.level).2.slotCount skipped).2.bitternSet cs).setRf .rstBtnSts 63 32 v).setRf .rstBtnSts 6 0 w) := by
  unfold State.collect State.bitternSet
  exact ⟨_, _, _, rfl⟩

theorem State.resetQ_setRf (s : State) (r : Reg) (hi lo v : Nat) : (s.setRf r hi lo v).resetQ = s.resetQ := rfl

theorem asks_collect (s : State) (r : ResetReq) (skipped missing : Bool) : Asks s (s.collect r skipped missing) ∧
    (s.collect r skipped missing).resetQ = s.resetQ := by
  obtain ⟨cs, v, w, h⟩ := s.collect_eq r skipped missing
  obtain ⟨h1, q1⟩ := asks_stepCode s r.level
  obtain ⟨h2, q2⟩ := asks_slotCount (s.stepCode r.level).2 skipped
  obtain ⟨h3, q3⟩ := asks_bitternSet ((s.stepCode r.level).2.slotCount skipped).2 cs
  rw [h]
  generalize ((s.stepCode r.level).2.slotCount skipped).2.bitternSet cs = u at *
  have h4 := asks_setRf u (.inr rfl) 63 32 v
  have q4 := u.resetQ_setRf .rstBtnSts 63 32 v
  generalize u.setRf .rstBtnSts 63 32 v = x at *
  exact ⟨(((h1.trans h2).trans h3).trans h4).trans (asks_setRf x (.inr rfl) _ _ _),
    (x.resetQ_setRf _ _ _ _).trans (q4.trans (q3.trans (q2.trans q1)))⟩

theorem asks_abandon (s : State) (xs : List Suspect) : Asks s (s.abandon xs) ∧ (s.abandon xs).resetQ = s.resetQ :=
  ⟨.of_reg rfl rfl rfl rfl fun _ _ _ => rfl, rfl⟩

/-- The steps that wait or run, as they are set. -/
def State.resetsSet (s : State) (rs : List ResetReq) : State := { s with resetQ := rs }

/-- The steps that wait once a step of no step's scope is asked for. -/
def State.queuedWith (s : State) (q : List ResetReq) (r : ResetReq) (skip : Bool) : State :=
  (s.resetsSet (q.filter (fun e => !s.inScope e r) ++ [{ r with collected := skip }])).noteActive

theorem State.queuedWith_spec (s : State) (q : List ResetReq) (r : ResetReq) (skip : Bool) : Asks s (s.queuedWith q r skip) ∧
    { r with collected := skip } ∈ (s.queuedWith q r skip).resetQ := by
  have hset : Asks s (s.resetsSet (q.filter (fun e => !s.inScope e r) ++ [{ r with collected := skip }])) :=
    .of_reg rfl rfl rfl rfl fun _ _ _ => rfl
  exact ⟨hset.trans (asks_setRf _ (.inl rfl) _ _ _), List.mem_append_right _ (List.mem_singleton_self _)⟩

theorem State.askReset_eq (s : State) (r : ResetReq) (skip : Bool) : s.askReset r skip =
    if s.insidePart r then s
    else if s.resetQ.any (fun e => s.inScope r e) then
      { s with resetQ := s.resetQ.map (fun e => if s.inScope r e then { e with pf0 := e.pf0 || r.pf0 } else e) }
    else
      let t := s.abandon (if r.escalated then [] else (s.resetQ.filter (fun e => s.inScope e r)).flatMap s.resetSuspects)
      let u := if skip then t.collect r true false else t
      u.queuedWith u.resetQ r skip := rfl

/-- Asking for a step: one of the unit, or a wider one, is then asked for or runs (R373). -/
theorem State.askReset_spec (s : State) (r : ResetReq) (skip : Bool) : Asks s (s.askReset r skip) ∧
    (s.insidePart r = false → s.inScope r r = true → ∃ e ∈ (s.askReset r skip).resetQ, s.inScope r e = true) := by
  rw [State.askReset_eq]
  split
  case isTrue h => exact ⟨.refl s, fun hin => absurd h (by rw [hin]; exact Bool.false_ne_true)⟩
  case isFalse =>
    split
    case isTrue h =>
      refine ⟨.of_reg rfl rfl rfl rfl fun _ _ _ => rfl, fun _ _ => ?_⟩
      obtain ⟨e, he, hs⟩ := List.any_eq_true.mp h
      refine ⟨_, List.mem_map_of_mem he, ?_⟩
      rw [if_pos hs]
      exact (s.inScope_alike ⟨rfl, rfl, rfl, rfl⟩ ⟨rfl, rfl, rfl, rfl⟩).trans hs
    case isFalse =>
      obtain ⟨h1, -⟩ := asks_abandon s (if r.escalated then [] else (s.resetQ.filter (fun e => s.inScope e r)).flatMap s.resetSuspects)
      generalize s.abandon (if r.escalated then [] else (s.resetQ.filter (fun e => s.inScope e r)).flatMap s.resetSuspects) = t at *
      have h2 : Asks t (if skip then t.collect r true false else t) := by
        split
        · exact (asks_collect t r true false).1
        · exact .refl t
      dsimp only
      generalize (if skip then t.collect r true false else t) = u at *
      obtain ⟨h3, hq⟩ := u.queuedWith_spec u.resetQ r skip
      refine ⟨(h1.trans h2).trans h3, fun _ hself => ⟨_, hq, ?_⟩⟩
      exact (s.inScope_alike ⟨rfl, rfl, rfl, rfl⟩ ⟨rfl, rfl, rfl, rfl⟩).trans hself

/-- No suspect is abandoned. -/
theorem State.abandon_nil (s : State) : (s.abandon []).suspects = s.suspects ∧
    (∀ k, Map.find? (s.abandon []).launches k = Map.find? s.launches k) ∧ (s.abandon []).resetQ = s.resetQ := by
  refine ⟨List.filter_eq_self.mpr fun _ _ => rfl, fun k => ?_, rfl⟩
  unfold State.abandon
  dsimp only
  rw [Map.find?_mapV]
  cases Map.find? s.launches k <;> rfl

/-- A step of one engine keeps every suspect and launch, and every step that is asked for already: it supersedes none. -/
theorem State.askReset_engine (s : State) {r : ResetReq} (h1 : r.level = 1) :
    (s.askReset r false).suspects = s.suspects ∧
    (∀ k, Map.find? (s.askReset r false).launches k = Map.find? s.launches k) ∧
    ∀ e ∈ s.resetQ, ∃ e' ∈ (s.askReset r false).resetQ, e'.alike e := by
  rw [State.askReset_eq]
  split
  case isTrue => exact ⟨rfl, fun _ => rfl, fun e he => ⟨e, he, rfl, rfl, rfl, rfl⟩⟩
  case isFalse =>
    split
    case isTrue =>
      refine ⟨rfl, fun _ => rfl, fun e he => ⟨_, List.mem_map_of_mem he, ?_⟩⟩
      split <;> exact ⟨rfl, rfl, rfl, rfl⟩
    case isFalse hno =>
      have hapart : ∀ e ∈ s.resetQ, s.inScope e r = false := by
        intro e he
        rw [← Bool.not_eq_true]
        intro hs
        refine hno (List.any_eq_true.mpr ⟨e, he, ?_⟩)
        unfold State.inScope at hs ⊢
        rw [h1] at hs ⊢
        simp only [Bool.and_eq_true, beq_iff_eq] at hs
        obtain ⟨⟨⟨hl, hu⟩, hk⟩, hx⟩ := hs
        rw [hl, hu, hk, hx]
        simp
      have hgone : s.resetQ.filter (fun e => s.inScope e r) = [] := List.filter_eq_nil_iff.mpr fun e he => by
        rw [hapart e he]
        exact Bool.false_ne_true
      have hxs : (if r.escalated then [] else (s.resetQ.filter (fun e => s.inScope e r)).flatMap s.resetSuspects) = [] := by
        rw [hgone]
        split <;> rfl
      rw [hxs]
      dsimp only
      rw [if_neg Bool.false_ne_true]
      obtain ⟨hs, hl, hq⟩ := s.abandon_nil
      have hown := fun e => (asks_abandon s []).1.owners.inScope e r
      generalize s.abandon [] = u at *
      have hmem : ∀ e ∈ s.resetQ, e ∈ (u.queuedWith u.resetQ r false).resetQ := fun e he =>
        List.mem_append_left _ (List.mem_filter.mpr ⟨hq ▸ he, by rw [hown e, hapart e he]; rfl⟩)
      exact ⟨hs, hl, fun e he => ⟨e, hmem e he, rfl, rfl, rfl, rfl⟩⟩

/-- The first steps of a hung core: those of its engines (R367). -/
def askEngines (core ctx : Nat) (es : List (Nat × Nat)) (s : State) : State :=
  es.foldl (fun (t : State) e => t.askReset (t.newReset 1 core e.1 e.2 3 ctx) false) s

theorem Covers.of_mem {t : State} {level unit ekind eidx : Nat} {r e : ResetReq} (he : e ∈ t.resetQ) (hs : t.inScope r e = true)
    (hl : r.level = level) (hu : r.unit = unit) (hk : r.ekind = ekind) (hx : r.eidx = eidx) : Covers t level unit ekind eidx :=
  ⟨e, he, (t.inScope_alike ⟨hl.symm, hu.symm, hk.symm, hx.symm⟩ ⟨rfl, rfl, rfl, rfl⟩).trans hs⟩

theorem Covers.keeps {s t : State} {level unit ekind eidx : Nat} (h : Covers s level unit ekind eidx) (ho : SameOwners s t)
    (hq : ∀ e ∈ s.resetQ, ∃ e' ∈ t.resetQ, e'.alike e) : Covers t level unit ekind eidx := by
  obtain ⟨e, he, hs⟩ := h
  obtain ⟨e', he', hal⟩ := hq e he
  exact ⟨e', he', ((ho.inScope _ e').trans (s.inScope_alike ⟨rfl, rfl, rfl, rfl⟩ hal)).trans hs⟩

/-- The steps of a core's engines are all asked for, and keep the suspects and the launches. -/
theorem askEngines_spec {core ctx : Nat} (es : List (Nat × Nat)) (s : State)
    (hp : Map.find? s.partOps (s.basinOwner (coreBasin core)) = none) : Asks s (askEngines core ctx es s) ∧
    (askEngines core ctx es s).suspects = s.suspects ∧
    (∀ k, Map.find? (askEngines core ctx es s).launches k = Map.find? s.launches k) ∧
    (∀ level unit ekind eidx, Covers s level unit ekind eidx → Covers (askEngines core ctx es s) level unit ekind eidx) ∧
    ∀ e ∈ es, Covers (askEngines core ctx es s) 1 core e.1 e.2 := by
  induction es generalizing s with
  | nil => exact ⟨.refl s, rfl, fun _ => rfl, fun _ _ _ _ h => h, fun _ h => absurd h List.not_mem_nil⟩
  | cons a es ih =>
    obtain ⟨hasks, hcov⟩ := s.askReset_spec (s.newReset 1 core a.1 a.2 3 ctx) false
    obtain ⟨hsus, hla, hq⟩ := s.askReset_engine (r := s.newReset 1 core a.1 a.2 3 ctx) rfl
    have hin : s.insidePart (s.newReset 1 core a.1 a.2 3 ctx) = false := by
      show (decide (1 ≤ 2) && (Map.find? s.partOps (s.basinOwner (coreBasin core))).isSome) = false
      rw [hp]
      rfl
    obtain ⟨e, he, hs⟩ := hcov hin (s.inScope_self ⟨le_rfl, by norm_num [State.newReset]⟩)
    have hmine : Covers (s.askReset (s.newReset 1 core a.1 a.2 3 ctx) false) 1 core a.1 a.2 :=
      Covers.of_mem he ((hasks.owners.inScope _ e).trans hs) rfl rfl rfl rfl
    have hkeep : ∀ level unit ekind eidx, Covers s level unit ekind eidx → Covers (s.askReset (s.newReset 1 core a.1 a.2 3 ctx) false)
        level unit ekind eidx := fun _ _ _ _ h => h.keeps hasks.owners hq
    have heq : askEngines core ctx (a :: es) s = askEngines core ctx es (s.askReset (s.newReset 1 core a.1 a.2 3 ctx) false) := rfl
    rw [heq]
    generalize s.askReset (s.newReset 1 core a.1 a.2 3 ctx) false = u at *
    obtain ⟨h1, h2, h3, h4, h5⟩ := ih u (by rw [hasks.partOps, hasks.owners.basinOwner, hp])
    refine ⟨hasks.trans h1, h2.trans hsus, fun k => (h3 k).trans (hla k), fun _ _ _ _ h => h4 _ _ _ _ (hkeep _ _ _ _ h), fun e he => ?_⟩
    rcases List.mem_cons.mp he with rfl | he
    · exact h4 _ _ _ _ hmine
    · exact h5 e he

/-! ### A core that does not stop (R367, R375) -/

/-- A core is known to hang. -/
def State.hungSet (s : State) (core : Nat) : State := { s with hung := NSet.ins s.hung core }

theorem State.hungSet_spec (s : State) (core : Nat) : core ∈ (s.hungSet core).hung ∧ SameOwners s (s.hungSet core) ∧
    (s.hungSet core).partOps = s.partOps :=
  ⟨(NSet.mem_ins _ _ _).mpr (.inl rfl), .of_eq rfl, rfl⟩

theorem State.hangEvent_spec (s : State) (core event ctx : Nat) : SameOwners s (s.hangEvent core 2 event ctx) ∧
    LogsOnly s (s.hangEvent core 2 event ctx) ∧ ∃ e ∈ (s.hangEvent core 2 event ctx).ras, e.cls = 0x0E ∧ e.index = core := by
  obtain ⟨e, he, hcls, -, hix, -⟩ := s.stored_ras { rasOf 0x0E 2 (coreDie core) 0x03 core event with
    part := s.basinOwner (coreBasin core), core := core, ctx := ctx } (.inr (show 2 ≠ 0 by decide))
  exact ⟨.of_logRegs (logRegs_ras s _), logsOnly_ras s _, e, he, hcls, hix⟩

theorem LogsOnly.hung {s t : State} (h : LogsOnly s t) : t.hung = s.hung := by rw [h]
theorem LogsOnly.partOps {s t : State} (h : LogsOnly s t) : t.partOps = s.partOps := by rw [h]
theorem LogsOnly.suspects {s t : State} (h : LogsOnly s t) : t.suspects = s.suspects := by rw [h]

section
variable {s : State} {core : CoreRef} {es : List (BitVec 3 × BitVec 4)}

/-- A replay that does not stop: its core is reset again. -/
theorem exec_stopTimeout_replay (hc : core.toNat ∉ s.hung) (hp : Map.find? s.partOps (s.basinOwner (coreBasin core.toNat)) = none)
    (hx : ∃ x ∈ s.launches, (x.2.core = core.toNat ∧ x.2.phase = .failing) ∧ x.2.replay = true) :
    ∃ t : State, exec (.stopTimeout ⟨core, es⟩) s = .next t ∧ core.toNat ∈ t.hung ∧ Covers t 2 core.toNat 0 0 ∧
      ∃ e ∈ t.ras, e.cls = 0x0E ∧ e.index = core.toNat := by
  obtain ⟨⟨k, l⟩, hf, hl⟩ : ∃ x : Nat × Launch, List.find? (fun (kv : Nat × Launch) => kv.2.core == core.toNat && kv.2.phase == .failing &&
      kv.2.replay) s.launches = some x ∧ True := by
    obtain ⟨x, hx, ⟨hxc, hxp⟩, hxr⟩ := hx
    cases h : List.find? (fun (kv : Nat × Launch) => kv.2.core == core.toNat && kv.2.phase == .failing && kv.2.replay) s.launches with
    | none => exact absurd (List.find?_eq_none.mp h x hx) (by rw [hxc, hxp, hxr]; simp)
    | some y => exact ⟨y, rfl, trivial⟩
  have hexec : exec (.stopTimeout ⟨core, es⟩) s = .next ((((s.hungSet core.toNat).hangEvent core.toNat 2 3 l.ctx)).askReset
      (((s.hungSet core.toNat).hangEvent core.toNat 2 3 l.ctx).newReset 2 core.toNat 0 0 3 l.ctx) true) := by
    show execStopTimeout ⟨core, es⟩ s = _
    unfold execStopTimeout
    dsimp only
    rw [if_neg (by simpa using hc), hf]
    rfl
  rw [hexec]
  obtain ⟨hh, ho, hpo⟩ := s.hungSet_spec core.toNat
  generalize s.hungSet core.toNat = u at *
  obtain ⟨ho', hlog, hras⟩ := u.hangEvent_spec core.toNat 3 l.ctx
  generalize u.hangEvent core.toNat 2 3 l.ctx = v at *
  obtain ⟨hasks, hcov⟩ := v.askReset_spec (v.newReset 2 core.toNat 0 0 3 l.ctx) true
  have hin : v.insidePart (v.newReset 2 core.toNat 0 0 3 l.ctx) = false := by
    show (decide (2 ≤ 2) && (Map.find? v.partOps (v.basinOwner (coreBasin core.toNat))).isSome) = false
    rw [(ho.trans ho').basinOwner, hlog.partOps, hpo, hp]
    rfl
  obtain ⟨e, he, hs⟩ := hcov hin (v.inScope_self ⟨by norm_num [State.newReset], by norm_num [State.newReset]⟩)
  refine ⟨_, rfl, by rw [hasks.hung, hlog.hung]; exact hh, Covers.of_mem he ((hasks.owners.inScope _ e).trans hs) rfl rfl rfl rfl, ?_⟩
  rw [hasks.ras]
  exact hras

end

/-- A launch of a hung core is ended, and its context is a suspect (R375). -/
def State.stopOne (t : State) (k : Nat) : State := (t.failLaunch k 2).markSuspect k

/-- A launch that, where it is ending, has no group left. -/
def Stoppable (t : State) (id : Nat) : Prop :=
  ∃ l, Map.find? t.launches id = some l ∧ (l.phase = .failing → ∀ x ∈ t.groups, x.2.launch ≠ id)

theorem Ending.markSuspect {t : State} {id : Nat} (h : Ending t id) (k : Nat) : Ending (t.markSuspect k) id := by
  obtain ⟨⟨l, hl, hp⟩, hg⟩ := h
  refine ⟨?_, hg⟩
  unfold State.markSuspect
  dsimp only
  rw [Map.find?_modify]
  split
  case isTrue h =>
    rw [← h, hl]
    exact ⟨{ l with suspect := true }, rfl, hp⟩
  case isFalse => exact ⟨l, hl, hp⟩

theorem Ending.keeps {s t : State} {id : Nat} (h : Ending s id) (hk : EndKeeps s t) : Ending t id := by
  obtain ⟨⟨l, hl, hp⟩, hg⟩ := h
  exact ⟨⟨l, hk.failing id l hl hp, hp⟩, fun x hx => hg x (hk.groups x hx)⟩

theorem Ending.stopOne {t : State} {id : Nat} (h : Ending t id) (k : Nat) : Ending (t.stopOne k) id :=
  (h.keeps (endKeeps_failLaunch t k 2)).markSuspect k

theorem Stoppable.ends {t : State} {id : Nat} (h : Stoppable t id) : Ending (t.stopOne id) id := by
  obtain ⟨l, hl, hg⟩ := h
  by_cases hp : l.phase = .failing
  · exact Ending.stopOne ⟨⟨l, hl, hp⟩, hg hp⟩ id
  · obtain ⟨l', hl', hp', -⟩ := State.failLaunch_failsWith (st := 2) hl hp
    exact Ending.markSuspect ⟨⟨l', hl', hp'⟩, State.failLaunch_groups hl hp⟩ id

theorem Ending.stoppable {t : State} {id : Nat} (h : Ending t id) : Stoppable t id := by
  obtain ⟨⟨l, hl, -⟩, hg⟩ := h
  exact ⟨l, hl, fun _ => hg⟩

theorem Stoppable.stopOne {t : State} {id : Nat} (h : Stoppable t id) (k : Nat) : Stoppable (t.stopOne k) id := by
  by_cases hk : id = k
  · subst hk
    exact h.ends.stoppable
  · obtain ⟨l, hl, hg⟩ := h
    refine ⟨l, ?_, fun hp x hx => hg hp x ((endKeeps_failLaunch t k 2).groups x hx)⟩
    unfold State.stopOne State.markSuspect
    dsimp only
    rw [Map.find?_modify, if_neg hk]
    unfold State.failLaunch
    split
    · exact hl
    · split
      · exact hl
      · exact (Map.find?_put_other _ _ hk).trans hl

/-- Every launch of a list that can be stopped is. -/
theorem stopAll_ends {id : Nat} (ids : List Nat) (t : State) (h : Stoppable t id) (hid : id ∈ ids) : Ending (ids.foldl State.stopOne t) id := by
  induction ids generalizing t with
  | nil => exact absurd hid List.not_mem_nil
  | cons k ids ih =>
    rw [List.foldl_cons]
    by_cases hk : id = k
    · subst hk
      exact foldl_keeps (P := fun u => Ending u id) (fun u x hu => hu.stopOne x) ids _ h.ends
    · exact ih _ (h.stopOne k) ((List.mem_cons.mp hid).resolve_left hk)

/-- What stopping launches leaves as it is. -/
theorem State.stopAll_spec (ids : List Nat) (t : State) : SameOwners t (ids.foldl State.stopOne t) ∧
    (ids.foldl State.stopOne t).suspects = t.suspects ∧ (ids.foldl State.stopOne t).hung = t.hung ∧
    (ids.foldl State.stopOne t).partOps = t.partOps := by
  have hone : ∀ u k, SameOwners u (u.stopOne k) ∧ (u.stopOne k).suspects = u.suspects ∧ (u.stopOne k).hung = u.hung ∧
      (u.stopOne k).partOps = u.partOps := fun u k => by
    have h := endsOnly_failLaunch u k 2
    exact ⟨.of_eq (show (u.failLaunch k 2).regs = u.regs from h.regs), show (u.failLaunch k 2).suspects = u.suspects by rw [h],
      show (u.failLaunch k 2).hung = u.hung by rw [h], show (u.failLaunch k 2).partOps = u.partOps by rw [h]⟩
  refine foldl_keeps (P := fun u => SameOwners t u ∧ u.suspects = t.suspects ∧ u.hung = t.hung ∧ u.partOps = t.partOps)
    (fun u k ⟨h1, h2, h3, h4⟩ => ?_) ids t ⟨.refl t, rfl, rfl, rfl⟩
  obtain ⟨k1, k2, k3, k4⟩ := hone u k
  exact ⟨h1.trans k1, k2.trans h2, k3.trans h3, k4.trans h4⟩

/-- The suspects of a hang are taken (R375). -/
def State.takeSuspects (s : State) (core : Nat) : State :=
  { s with
    hung := NSet.ins s.hung core
    suspects := s.suspects ++ (s.hungLaunches core).map (fun (kv : Nat × Launch) => s.launchSuspect kv.1 kv.2) ++
      (s.dma.filter (fun c => c.pkt && c.org.core == core && !s.suspects.any (fun x => x.id == c.id))).map s.dmaSuspect }

theorem State.hangCore_eq (s : State) (core ctx : Nat) (es : List (BitVec 3 × BitVec 4)) : s.hangCore core ctx es =
    askEngines core ctx (hungEngines core es)
      ((((s.hangEvent core 2 3 ctx).hungLaunches core).map Prod.fst).foldl State.stopOne ((s.hangEvent core 2 3 ctx).takeSuspects core)) := by
  rw [List.foldl_map]
  rfl

theorem State.takeSuspects_spec (s : State) (core : Nat) : SameOwners s (s.takeSuspects core) ∧ core ∈ (s.takeSuspects core).hung ∧
    (s.takeSuspects core).partOps = s.partOps ∧ (s.takeSuspects core).launches = s.launches ∧
    ∀ kv ∈ s.hungLaunches core, ∃ y ∈ (s.takeSuspects core).suspects, y.id = kv.1 := by
  refine ⟨.of_eq rfl, (NSet.mem_ins _ _ _).mpr (.inl rfl), rfl, rfl, fun kv hkv => ⟨s.launchSuspect kv.1 kv.2, ?_, rfl⟩⟩
  exact List.mem_append_left _ (List.mem_append_right _ (List.mem_map_of_mem hkv))

theorem State.mem_hungLaunches {s : State} {core id : Nat} {l : Launch} (hl : Map.find? s.launches id = some l) (hc : l.core = core)
    (hg : ∀ y ∈ s.suspects, y.id ≠ id) (h : l.phase ≠ .failing ∨ s.busyLaunch id = true) : (id, l) ∈ s.hungLaunches core := by
  refine List.mem_filter.mpr ⟨Map.mem_of_find? hl, ?_⟩
  have hany : s.suspects.any (fun x => x.id == id) = false := by
    rw [List.any_eq_false]
    exact fun x hx => by simp [hg x hx]
  dsimp only
  rw [hany, hc]
  rcases h with h | h
  · simp [h]
  · simp [h]

/-- The engines that are named and exist are among those whose reset a hang asks for. -/
theorem mem_hungEngines {core : Nat} {es : List (BitVec 3 × BitVec 4)} {e : BitVec 3 × BitVec 4} (he : e ∈ es)
    (hx : engineExists core e.1.toNat e.2.toNat = true) : (e.1.toNat, e.2.toNat) ∈ hungEngines core es := by
  have hin : (e.1.toNat, e.2.toNat) ∈ ((es.map (fun e => (e.1.toNat, e.2.toNat))).filter (fun e => engineExists core e.1 e.2)).dedup :=
    List.mem_dedup.mpr (List.mem_filter.mpr ⟨List.mem_map_of_mem he, hx⟩)
  unfold hungEngines
  dsimp only
  rw [if_neg (by rw [List.isEmpty_iff]; exact List.ne_nil_of_mem hin)]
  exact hin

theorem exec_stopTimeout_hang {s : State} {core : CoreRef} {es : List (BitVec 3 × BitVec 4)} (hc : core.toNat ∉ s.hung)
    (hp : Map.find? s.partOps (s.basinOwner (coreBasin core.toNat)) = none)
    (hx : ∃ x ∈ s.launches, (x.2.core = core.toNat ∧ x.2.phase = .failing) ∧ x.2.suspect = true)
    (hno : ∀ x ∈ s.launches, x.2.core = core.toNat ∧ x.2.phase = .failing → x.2.replay = false) :
    ∃ t : State, exec (.stopTimeout ⟨core, es⟩) s = .next t ∧ core.toNat ∈ t.hung ∧
      (∀ e ∈ es, engineExists core.toNat e.1.toNat e.2.toNat = true → Covers t 1 core.toNat e.1.toNat e.2.toNat) ∧
      (∀ id l, Map.find? s.launches id = some l → l.core = core.toNat → (∀ y ∈ s.suspects, y.id ≠ id) →
        l.phase ≠ .failing ∨ s.busyLaunch id = true → ∃ y ∈ t.suspects, y.id = id) ∧
      ∀ id l, Map.find? s.launches id = some l → l.core = core.toNat → l.phase ≠ .failing → (∀ y ∈ s.suspects, y.id ≠ id) →
        Ending t id := by
  have hnone : List.find? (fun (kv : Nat × Launch) => kv.2.core == core.toNat && kv.2.phase == .failing && kv.2.replay) s.launches = none := by
    rw [List.find?_eq_none]
    intro x hx h
    simp only [Bool.and_eq_true, beq_iff_eq] at h
    obtain ⟨⟨h1, h2⟩, h3⟩ := h
    rw [hno x hx ⟨h1, h2⟩] at h3
    cases h3
  obtain ⟨l0, hf⟩ : ∃ l0 k, List.find? (fun (kv : Nat × Launch) => kv.2.core == core.toNat && kv.2.phase == .failing &&
      kv.2.suspect) s.launches = some (k, l0) := by
    obtain ⟨x, hx, ⟨hxc, hxp⟩, hxr⟩ := hx
    cases h : List.find? (fun (kv : Nat × Launch) => kv.2.core == core.toNat && kv.2.phase == .failing && kv.2.suspect) s.launches with
    | none => exact absurd (List.find?_eq_none.mp h x hx) (by rw [hxc, hxp, hxr]; simp)
    | some y => exact ⟨y.2, y.1, rfl⟩
  obtain ⟨k0, hf⟩ := hf
  have hexec : exec (.stopTimeout ⟨core, es⟩) s = .next (s.hangCore core.toNat l0.ctx es) := by
    show execStopTimeout ⟨core, es⟩ s = _
    unfold execStopTimeout
    dsimp only
    rw [if_neg (by simpa using hc), hnone]
    dsimp only
    rw [hf]
  rw [hexec, State.hangCore_eq]
  obtain ⟨ho, hlog, -⟩ := s.hangEvent_spec core.toNat 3 l0.ctx
  have hbusy : ∀ id, (s.hangEvent core.toNat 2 3 l0.ctx).busyLaunch id = s.busyLaunch id := fun id => by
    unfold State.busyLaunch
    rw [hlog]
  generalize s.hangEvent core.toNat 2 3 l0.ctx = u at *
  have hmem : ∀ id l, Map.find? s.launches id = some l → l.core = core.toNat → (∀ y ∈ s.suspects, y.id ≠ id) →
      l.phase ≠ .failing ∨ s.busyLaunch id = true → (id, l) ∈ u.hungLaunches core.toNat := fun id l hl hlc hg h =>
    State.mem_hungLaunches (hlog.launches ▸ hl) hlc (hlog.suspects ▸ hg) (by rwa [hbusy])
  obtain ⟨ho2, hh2, hp2, hl2, hs2⟩ := u.takeSuspects_spec core.toNat
  generalize u.takeSuspects core.toNat = v at *
  obtain ⟨ho3, hs3, hh3, hp3⟩ := State.stopAll_spec ((u.hungLaunches core.toNat).map Prod.fst) v
  have hends := fun id => stopAll_ends (id := id) ((u.hungLaunches core.toNat).map Prod.fst) v
  generalize ((u.hungLaunches core.toNat).map Prod.fst).foldl State.stopOne v = w at *
  obtain ⟨hasks, hs4, hl4, -, hcov⟩ := askEngines_spec (ctx := l0.ctx) (hungEngines core.toNat es) w
    (show Map.find? w.partOps (w.basinOwner (coreBasin core.toNat)) = none by
      rw [hp3, hp2, hlog.partOps, (((ho.trans ho2).trans ho3)).basinOwner, hp])
  generalize askEngines core.toNat l0.ctx (hungEngines core.toNat es) w = t at *
  refine ⟨t, rfl, by rw [hasks.hung, hh3]; exact hh2, fun e he hx => hcov _ (mem_hungEngines he hx), fun id l hl hlc hg h => ?_,
    fun id l hl hlc hph hg => ?_⟩
  · obtain ⟨y, hy, hid⟩ := hs2 _ (hmem id l hl hlc hg h)
    exact ⟨y, by rw [hs4, hs3]; exact hy, hid⟩
  · have hin := hmem id l hl hlc hg (.inl hph)
    obtain ⟨⟨l', hl', hp'⟩, hgr⟩ := hends id ⟨l, by rw [hl2, hlog.launches, hl], fun h => absurd h hph⟩ (List.mem_map_of_mem hin)
    exact ⟨⟨l', by rw [hl4, hl'], hp'⟩, by rw [hasks.groups]; exact hgr⟩

/-- Settles O48. -/
theorem hangRecoveryCompletes : Obligations.hang_recovery_completes := by
  unfold Obligations.hang_recovery_completes
  refine ⟨fun s => ?_, fun s => ?_⟩
  · intro ends fails
    refine ⟨fun id l hl hsus => ⟨fun hp => ?_, fun hp => ?_⟩, fun c hc hu hr => ⟨fun hpkt hrl => ?_, fun id l hpkt horg hrl hl hp => ?_⟩,
      fun c hc hu id l horg hrl hl hp => ?_, fun r g l hg hs hr hl hp => ?_, fun r id l hg hs hl hp => ?_⟩
    · rw [exec_launchWatchdog hl hsus (by rcases hp with h | h <;> rw [h] <;> decide)]
      obtain ⟨h, hst⟩ := State.commandHang_hanged 1 hl (by rcases hp with h | h <;> rw [h] <;> decide)
      exact ⟨_, rfl, h, hst⟩
    · rw [exec_launchWatchdog hl hsus (by rw [hp]; decide)]
      obtain ⟨h, hno⟩ := State.commandHang_failing 1 hl hp
      exact ⟨_, rfl, h, hno⟩
    · rw [exec_dmaWatchdog hc hu hr hrl, if_pos hpkt]
      obtain ⟨-, hgone⟩ := cmdEnds_dmaDone (s.hangEvent c.org.core 2 2 c.org.ctx) c 0x0B c.cursor
      exact ⟨_, rfl, hgone, (State.launches_dmaDone _ c _ (by decide)).trans (logsOnly_ras s _).launches⟩
    · have hget : c.org.launch.getD 0 = id := by rw [horg]; rfl
      rw [exec_dmaWatchdog hc hu hr (by rw [hget]; exact hrl), if_neg (by rw [hpkt]; exact Bool.false_ne_true), hget]
      obtain ⟨h, hst⟩ := State.commandHang_hanged 2 hl (by rw [hp]; decide)
      exact ⟨_, rfl, h, hst⟩
    · have hget : c.org.launch.getD 0 = id := by rw [horg]; rfl
      rw [exec_matrixWatchdog hc hu (by rw [hget]; exact hrl), hget]
      obtain ⟨h, hst⟩ := State.commandHang_hanged 2 hl (by rw [hp]; decide)
      exact ⟨_, rfl, h, hst⟩
    · rw [exec_suspendWatchdog_group hg hs hr]
      obtain ⟨h, hst⟩ := State.watchdogEnd_hanged 1 hl (by rw [hp]; decide)
      exact ⟨_, rfl, h, hst⟩
    · rw [exec_suspendWatchdog_saved hg hs]
      obtain ⟨h, hst⟩ := State.watchdogEnd_hanged 1 hl (by rw [hp]; decide)
      exact ⟨_, rfl, h, hst⟩
  · intro gone
    refine ⟨fun id l hl hg hb hp hsus => ?_, fun x hx hu hr => ?_, fun core es hc hp => ?_⟩
    · have h : Completes s id l := ⟨hl, hg, hb, hp, hsus⟩
      exact ⟨exec_launchComplete_done h, exec_launchComplete_kept h, exec_launchComplete_failed h⟩
    · exact ⟨exec_replayComplete_dma hx hu hr, fun l hd hl hg hb => exec_replayComplete_launch hx hu hr hd hl hg hb,
        exec_replayWatchdog hx hu hr⟩
    · intro stuck
      exact ⟨exec_stopTimeout_replay hc hp, exec_stopTimeout_hang hc hp⟩

end Sys2Proof.Machine

/-! Proofs: what asks for a reset step, how a step ends, and what follows one that does not (R370, R373, R377). -/

namespace Sys2Proof.Machine

/-! ### A step that a fault of the device asks for (Tables 21-1, 22-1, 25-4) -/

/-- A step of the device or of a die is asked for whatever the partitions do. -/
theorem State.askReset_covers (s : State) {r : ResetReq} (skip : Bool) (h : 3 ≤ r.level ∧ r.level ≤ 6) :
    Asks s (s.askReset r skip) ∧ Covers (s.askReset r skip) r.level r.unit r.ekind r.eidx := by
  obtain ⟨h3, h6⟩ := h
  obtain ⟨hasks, hcov⟩ := s.askReset_spec r skip
  have hin : s.insidePart r = false := by
    unfold State.insidePart
    rw [decide_eq_false (by omega)]
    rfl
  obtain ⟨e, he, hs⟩ := hcov hin (s.inScope_self ⟨by omega, h6⟩)
  exact ⟨hasks, Covers.of_mem he ((hasks.owners.inScope _ e).trans hs) rfl rfl rfl rfl⟩

/-- A step that is logged and asked for (Table 22-1). -/
theorem State.requestLogged_spec (s : State) {level : Nat} (unit event die code : Nat) (h : 3 ≤ level ∧ level ≤ 6) :
    Covers (s.requestLogged level unit event die code) level unit 0 0 ∧
      ∃ e ∈ (s.requestLogged level unit event die code).ras, e.cls = 0x0E ∧ e.detail = event ∧ e.die = die := by
  unfold State.requestLogged
  dsimp only
  obtain ⟨e, he, hcls, hdie, -, hdet⟩ := s.stored_ras (rasOf 0x0E 2 die code (if level == 3 then unit else 0) event) (.inr (show 2 ≠ 0 by decide))
  generalize s.ras_ (rasOf 0x0E 2 die code (if level == 3 then unit else 0) event) = u at *
  obtain ⟨hasks, hcov⟩ := u.askReset_covers (r := u.newReset level unit 0 0 event 0) false h
  refine ⟨hcov, e, ?_, hcls, hdet, hdie⟩
  rw [hasks.ras]
  exact he

/-- A supply that sags asks for the step of its die, or of the device (R340, R368). -/
theorem State.supplyReset_spec (s : State) (d : Nat) (skip : Bool) :
    (if d < 12 then Covers (s.supplyReset d skip) 3 d 0 0 else Covers (s.supplyReset d skip) 4 0 0 0) ∧
      ∃ e ∈ (s.supplyReset d skip).ras, e.cls = 0x0B := by
  by_cases hd : d < 12
  · rw [if_pos hd]
    unfold State.supplyReset
    rw [if_pos hd]
    dsimp only
    rw [if_pos hd]
    obtain ⟨e, he, hcls, -⟩ := s.stored_ras (rasOf 0x0B 2 d 0x09 d 1) (.inr (show 2 ≠ 0 by decide))
    generalize s.ras_ (rasOf 0x0B 2 d 0x09 d 1) = u at *
    obtain ⟨hasks, hcov⟩ := u.askReset_covers (r := { u.newReset 3 d 0 0 0 0 with rasSeq := u.reg .rasStoreSeq }) skip
      (show 3 ≤ 3 ∧ 3 ≤ 6 by decide)
    exact ⟨hcov, e, hasks.ras ▸ he, hcls⟩
  · rw [if_neg hd]
    unfold State.supplyReset
    rw [if_neg hd]
    dsimp only
    rw [if_neg hd]
    obtain ⟨e, he, hcls, -⟩ := s.stored_ras (rasOf 0x0B 2 15 0x08 0 2) (.inr (show 2 ≠ 0 by decide))
    generalize s.ras_ (rasOf 0x0B 2 15 0x08 0 2) = u at *
    obtain ⟨hasks, hcov⟩ := u.askReset_covers (r := { u.newReset 4 0 0 0 0 0 with rasSeq := u.reg .rasStoreSeq }) skip
      (show 3 ≤ 4 ∧ 4 ≤ 6 by decide)
    exact ⟨hcov, e, hasks.ras ▸ he, hcls⟩

/-! ### RST_REQ (Table 22-5) -/

theorem State.regs_stepCode (s : State) (n : Nat) : (s.stepCode n).2.regs = s.regs := by
  unfold State.stepCode
  split <;> rfl

theorem State.regs_slotCount (s : State) (b : Bool) : (s.slotCount b).2.regs = s.regs := by
  unfold State.slotCount
  split <;> rfl

/-- A collection writes RST_BTN_STS, and not RST_STS. -/
theorem State.rstSts_collect (s : State) (r : ResetReq) : (s.collect r true false).reg .rstSts = s.reg .rstSts := by
  obtain ⟨cs, v, w, h⟩ := s.collect_eq r true false
  have hregs : (((s.stepCode r.level).2.slotCount true).2.bitternSet cs).regs = s.regs :=
    (State.regs_slotCount _ true).trans (s.regs_stepCode r.level)
  rw [h]
  generalize ((s.stepCode r.level).2.slotCount true).2.bitternSet cs = u at *
  rw [State.reg_setRf_of_ne _ _ _ _ (by decide), State.reg_setRf_of_ne _ _ _ _ (by decide), State.reg_congr hregs]

/-- Asking for a step changes ACTIVE of RST_STS alone. -/
theorem State.rf_rstSts_askReset (s : State) (r : ResetReq) (skip : Bool) {hi lo : Nat} (h : hi < 4 ∨ 7 < lo) :
    (s.askReset r skip).rf .rstSts hi lo = s.rf .rstSts hi lo := by
  rw [State.askReset_eq]
  split
  · rfl
  · split
    · rfl
    · dsimp only
      have hab : (s.abandon (if r.escalated then [] else (s.resetQ.filter (fun e => s.inScope e r)).flatMap s.resetSuspects)).regs = s.regs := rfl
      generalize s.abandon (if r.escalated then [] else (s.resetQ.filter (fun e => s.inScope e r)).flatMap s.resetSuspects) = t at *
      have hcol : (if skip then t.collect r true false else t).reg .rstSts = t.reg .rstSts := by
        split
        · exact t.rstSts_collect r
        · rfl
      generalize (if skip then t.collect r true false else t) = u at *
      have hset : (u.resetsSet (u.resetQ.filter (fun e => !u.inScope e r) ++ [{ r with collected := skip }])).regs = u.regs := rfl
      unfold State.queuedWith
      generalize u.resetsSet (u.resetQ.filter (fun e => !u.inScope e r) ++ [{ r with collected := skip }]) = v at *
      unfold State.noteActive
      rw [State.rf_setRf_other _ _ _ (by decide) h]
      exact State.rf_congr ((State.reg_congr hset _).trans (hcol.trans (State.reg_congr hab _))) _ _

theorem ResetReq.alike.refl (r : ResetReq) : r.alike r := ⟨rfl, rfl, rfl, rfl⟩

theorem State.insidePart_alike {s t : State} (ha : Asks s t) {a b : ResetReq} (h : a.alike b) : t.insidePart a = s.insidePart b := by
  obtain ⟨hl, hu, -, -⟩ := h
  unfold State.insidePart
  rw [hl, hu, ha.partOps, ha.owners.basinOwner]

theorem State.resetPart_alike {s t : State} (ha : Asks s t) {a b : ResetReq} (h : a.alike b) : t.resetPart a = s.resetPart b := by
  obtain ⟨hl, hu, -, -⟩ := h
  unfold State.resetPart
  rw [hl, hu, ha.owners.basinOwner]

theorem bsnModeSts_ne_rst (b : Nat) : Reg.key (.bsnModeSts b) ≠ Reg.key .rstSts ∧ Reg.key (.bsnModeSts b) ≠ Reg.key .rstBtnSts := by
  simp only [Reg.key, panBase]
  omega

theorem State.rstUnit_alike {s t : State} (ha : Asks s t) {a b : ResetReq} (h : a.alike b) : t.rstUnit a = s.rstUnit b := by
  obtain ⟨hl, hu, hk, hx⟩ := h
  have hlake : ∀ n, t.lake n = s.lake n := fun n => by
    unfold State.lake
    rw [State.rf_congr (ha.reg _ (bsnModeSts_ne_rst n).1 (bsnModeSts_ne_rst n).2)]
  have hvalid : ∀ c, t.coreValid c = s.coreValid c := fun c => by
    unfold State.coreValid
    rw [hlake, hlake]
  unfold State.rstUnit
  rw [hl, hu, hk, hx, hvalid]

/-- A unit that exists has a step of the ladder. -/
theorem State.level_of_rstUnit {s : State} {r : ResetReq} (h : s.rstUnit r = true) : 1 ≤ r.level ∧ r.level ≤ 6 := by
  unfold State.rstUnit at h
  split at h
  case h_6 => cases h
  all_goals
    next hl =>
      rw [hl]
      decide

/-- The step that RST_REQ asks for. -/
def State.reqOf (s : State) (v : Nat) : ResetReq :=
  if fld v 3 0 ≥ 4 then { s.newReset (fld v 3 0) (fld v 26 16) (fld v 6 4) (fld v 10 7) 0 0 with pf0 := true, unit := 0 }
  else { s.newReset (fld v 3 0) (fld v 26 16) (fld v 6 4) (fld v 10 7) 0 0 with pf0 := true }

/-- RST_REQ refuses a step whose unit a reset holds already. -/
def State.refuses (s : State) (r : ResetReq) : Bool :=
  s.quarantined.contains (s.resetPart r) || s.insidePart r || s.resetQ.any (fun e => s.inScope r e && !s.inScope e r)

theorem State.writeRstReq_eq (s : State) (v : Nat) : s.writeRstReq v =
    (if !(s.setRf .rstSts 39 32 (fld v 39 32)).rstUnit ((s.setRf .rstSts 39 32 (fld v 39 32)).reqOf v) then
      (s.setRf .rstSts 39 32 (fld v 39 32)).setRf .rstSts 11 8 3
    else if (s.setRf .rstSts 39 32 (fld v 39 32)).refuses ((s.setRf .rstSts 39 32 (fld v 39 32)).reqOf v) then
      (s.setRf .rstSts 39 32 (fld v 39 32)).setRf .rstSts 11 8 4
    else ((s.setRf .rstSts 39 32 (fld v 39 32)).setRf .rstSts 11 8 1).askReset ((s.setRf .rstSts 39 32 (fld v 39 32)).reqOf v) false) := rfl

theorem State.reqOf_alike (s : State) (v : Nat) {r : ResetReq} (hl : r.level = fld v 3 0)
    (hu : r.unit = if fld v 3 0 ≥ 4 then 0 else fld v 26 16) (hk : r.ekind = fld v 6 4) (hx : r.eidx = fld v 10 7) :
    (s.reqOf v).alike r := by
  unfold State.reqOf
  split
  · next h => exact ⟨hl.symm, (hu.trans (if_pos h)).symm, hk.symm, hx.symm⟩
  · next h => exact ⟨hl.symm, (hu.trans (if_neg h)).symm, hk.symm, hx.symm⟩

theorem State.refuses_iff {s t : State} (ha : Asks s t) (hq : t.resetQ = s.resetQ) (hz : t.quarantined = s.quarantined) {a r : ResetReq}
    (h : a.alike r) : t.refuses a = true ↔
      s.resetPart r ∈ s.quarantined ∨ s.insidePart r = true ∨ ∃ e ∈ s.resetQ, s.inScope r e = true ∧ s.inScope e r = false := by
  have hin : ∀ e, t.inScope a e = s.inScope r e ∧ t.inScope e a = s.inScope e r := fun e =>
    ⟨(ha.owners.inScope a e).trans (s.inScope_alike h (.refl e)), (ha.owners.inScope e a).trans (s.inScope_alike (.refl e) h)⟩
  unfold State.refuses
  simp only [State.resetPart_alike ha h, State.insidePart_alike ha h, hq, hz, fun e => (hin e).1, fun e => (hin e).2, Bool.or_eq_true,
    List.contains_iff_mem, List.any_eq_true, Bool.and_eq_true, Bool.not_eq_true', or_assoc]

theorem State.quarantined_setRf (s : State) (r : Reg) (hi lo v : Nat) : (s.setRf r hi lo v).quarantined = s.quarantined := rfl

theorem fld_lt_of (v hi lo : Nat) : fld v hi lo < 2 ^ (hi + 1 - lo) := Nat.mod_lt _ (by positivity)

/-- What a write of RST_REQ answers and asks for (Table 22-5). -/
theorem State.writeRstReq_spec (s : State) (v : Nat) {r : ResetReq} (hl : r.level = fld v 3 0)
    (hu : r.unit = if fld v 3 0 ≥ 4 then 0 else fld v 26 16) (hk : r.ekind = fld v 6 4) (hx : r.eidx = fld v 10 7) :
    let refused := s.resetPart r ∈ s.quarantined ∨ s.insidePart r = true ∨ ∃ e ∈ s.resetQ, s.inScope r e = true ∧ s.inScope e r = false
    (s.writeRstReq v).rf .rstSts 39 32 = fld v 39 32 ∧
      (s.rstUnit r = false → (s.writeRstReq v).rf .rstSts 11 8 = 3 ∧ (s.writeRstReq v).resetQ = s.resetQ) ∧
      (s.rstUnit r = true → refused → (s.writeRstReq v).rf .rstSts 11 8 = 4 ∧ (s.writeRstReq v).resetQ = s.resetQ) ∧
      (s.rstUnit r = true → ¬ refused → (s.writeRstReq v).rf .rstSts 11 8 = 1 ∧
        Covers (s.writeRstReq v) (fld v 3 0) (if fld v 3 0 ≥ 4 then 0 else fld v 26 16) (fld v 6 4) (fld v 10 7)) := by
  intro refused
  rw [State.writeRstReq_eq]
  have ha := asks_setRf s (.inl rfl) 39 32 (fld v 39 32)
  have htok : (s.setRf .rstSts 39 32 (fld v 39 32)).rf .rstSts 39 32 = fld v 39 32 :=
    State.rf_setRf_of_lt _ _ (by decide) (fld_lt_of v _ _)
  have hq := s.resetQ_setRf .rstSts 39 32 (fld v 39 32)
  have hz := s.quarantined_setRf .rstSts 39 32 (fld v 39 32)
  generalize s.setRf .rstSts 39 32 (fld v 39 32) = u at *
  have hal := u.reqOf_alike v hl hu hk hx
  generalize u.reqOf v = a at *
  have href : u.refuses a = true ↔ refused := State.refuses_iff ha hq hz hal
  have hunit : u.rstUnit a = s.rstUnit r := State.rstUnit_alike ha hal
  have hset : ∀ n, n < 16 → (u.setRf .rstSts 11 8 n).rf .rstSts 39 32 = fld v 39 32 ∧ (u.setRf .rstSts 11 8 n).rf .rstSts 11 8 = n ∧
      (u.setRf .rstSts 11 8 n).resetQ = s.resetQ := fun n hn =>
    ⟨(State.rf_setRf_other _ _ _ (by decide) (by decide)).trans htok, State.rf_setRf_of_lt _ _ (by decide) hn,
      (u.resetQ_setRf _ _ _ _).trans hq⟩
  split
  case isTrue h =>
    obtain ⟨h39, h8, hqq⟩ := hset 3 (by decide)
    rw [hunit] at h
    exact ⟨h39, fun _ => ⟨h8, hqq⟩, fun h' => by simp [h'] at h, fun h' => by simp [h'] at h⟩
  case isFalse h =>
    rw [hunit] at h
    have htrue : s.rstUnit r = true := by simpa using h
    split
    case isTrue hr =>
      obtain ⟨h39, h8, hqq⟩ := hset 4 (by decide)
      exact ⟨h39, fun h' => absurd (htrue.symm.trans h') (by decide), fun _ _ => ⟨h8, hqq⟩, fun _ h' => absurd (href.mp hr) h'⟩
    case isFalse hr =>
      obtain ⟨h39, h8, -⟩ := hset 1 (by decide)
      have hb := asks_setRf u (.inl rfl) 11 8 1
      generalize u.setRf .rstSts 11 8 1 = w at *
      have hrf := fun {hi lo : Nat} (h : hi < 4 ∨ 7 < lo) => w.rf_rstSts_askReset a false h
      obtain ⟨hasks, hcov⟩ := w.askReset_spec a false
      refine ⟨(hrf (by decide)).trans h39, fun h' => absurd (htrue.symm.trans h') (by decide), fun _ h' => absurd (href.mpr h') hr, fun _ hno =>
        ⟨(hrf (by decide)).trans h8, ?_⟩⟩
      have hin : w.insidePart a = false := by
        rw [State.insidePart_alike (ha.trans hb) hal, ← Bool.not_eq_true]
        exact fun h' => hno (.inr (.inl h'))
      have hlev : 1 ≤ a.level ∧ a.level ≤ 6 := by
        rw [hal.1]
        exact State.level_of_rstUnit htrue
      obtain ⟨e, he, hs⟩ := hcov hin (w.inScope_self hlev)
      obtain ⟨al, au, ak, ax⟩ := hal
      exact Covers.of_mem he ((hasks.owners.inScope _ e).trans hs) (al.trans hl) (au.trans hu) (ak.trans hk) (ax.trans hx)

/-! ### What the end of launches and commands writes -/

/-- `t` is `s` but for launches, groups, commands, queues' packets, suspects, failed contexts and what a write may write. -/
def CommandsOnly (s t : State) : Prop :=
  t = { s with
    regs := t.regs
    ras := t.ras
    hostMem := t.hostMem
    msix := t.msix
    heldRecs := t.heldRecs
    freeIx := t.freeIx
    out := t.out
    heap := t.heap
    pool := t.pool
    heapPoison := t.heapPoison
    poolPoison := t.poolPoison
    hostPoison := t.hostPoison
    narrow := t.narrow
    wc1 := t.wc1
    wc2 := t.wc2
    launches := t.launches
    switching := t.switching
    groups := t.groups
    failed := t.failed
    mtx := t.mtx
    dma := t.dma
    rmo := t.rmo
    routes := t.routes
    queues := t.queues
    suspects := t.suspects
    icache := t.icache }

/-- `t` holds RST_STS as `s` does, and but for it is `s` outside of launches and their commands. -/
structure CommandsEnd (s t : State) : Prop where
  rest : CommandsOnly s t
  sts : t.reg .rstSts = s.reg .rstSts

theorem rstSts_not_logKey : ¬ LogKey (Reg.key .rstSts) := by
  unfold LogKey rasKeys
  simp only [Reg.key, List.mem_cons, List.not_mem_nil, or_false]
  omega

theorem rstSts_key_mod : Reg.key .rstSts % 16 = 8 := rfl

namespace CommandsEnd
variable {s t u : State}

theorem refl (s : State) : CommandsEnd s s := ⟨rfl, rfl⟩

theorem trans (h : CommandsEnd s t) (k : CommandsEnd t u) : CommandsEnd s u := by
  obtain ⟨hr, hs⟩ := h
  obtain ⟨kr, ks⟩ := k
  refine ⟨?_, ks.trans hs⟩
  unfold CommandsOnly at *
  rw [kr, hr]

theorem of_only (h : CommandsOnly s t) (hr : t.regs = s.regs) : CommandsEnd s t := ⟨h, State.reg_congr hr _⟩

theorem of_logs (h : LogsOnly s t) (hr : LogRegs s t) : CommandsEnd s t := by
  refine ⟨?_, hr _ rstSts_not_logKey⟩
  unfold CommandsOnly
  unfold LogsOnly at h
  rw [h]

theorem of_writes (h : WritesOnly s t) (hr : LogRegs s t) : CommandsEnd s t := by
  refine ⟨?_, hr _ rstSts_not_logKey⟩
  unfold CommandsOnly
  unfold WritesOnly at h
  rw [h]

theorem foldl {α : Type} {f : State → α → State} (h : ∀ u x, CommandsEnd u (f u x)) (xs : List α) (s : State) :
    CommandsEnd s (xs.foldl f s) := by
  induction xs generalizing s with
  | nil => exact refl s
  | cons x xs ih => exact (h s x).trans (ih _)

theorem resetQ (h : CommandsEnd s t) : t.resetQ = s.resetQ := by rw [h.rest]
theorem hung (h : CommandsEnd s t) : t.hung = s.hung := by rw [h.rest]

end CommandsEnd

section
variable (s : State)

theorem commandsEnd_failLaunch (k st : Nat) : CommandsEnd s (s.failLaunch k st) := by
  unfold State.failLaunch
  split
  · exact .refl s
  · split
    · exact .refl s
    · exact .of_only rfl rfl

theorem commandsEnd_failCtx (ctx : Nat) : CommandsEnd s (s.failCtx ctx) := by
  have h : CommandsEnd s { s with failed := NSet.ins s.failed ctx } := .of_only rfl rfl
  exact h.trans (.foldl (fun u k => commandsEnd_failLaunch u k 2) _ _)

theorem commandsEnd_ras (e : RasEntry) : CommandsEnd s (s.ras_ e) := .of_logs (logsOnly_ras s e) (logRegs_ras s e)
theorem commandsEnd_post (p : Nat) (ws : List Word) : CommandsEnd s (s.post p ws).1 := .of_logs (logsOnly_post s p ws) (logRegs_post s p ws)

theorem commandsEnd_dmaDone (c : DmaCmd) (st detail : Nat) : CommandsEnd s (s.dmaDone c st detail) := by
  have hdrop : CommandsEnd s { s with dma := s.dma.filter (fun o => o.id != c.id) } := .of_only rfl rfl
  have hword : ∀ t : State, CommandsEnd t (match c.desc with
      | some d =>
        if c.pkt || dStat d + 16 > poolSize c.org.core then t
        else t.poolWrite c.org.core (dStat d + 8) (leBytes (2 ^ 63 + st * 2 ^ 48 + detail % 2 ^ 48) 8)
      | none => t) := fun t => by
    split
    · split
      · exact .refl t
      · exact .of_writes (writesOnly_writeLocs _ _ _ _) (logRegs_writeLocs _ _ _ _)
    · exact .refl t
  have hcount : ∀ t : State, CommandsEnd t (t.dmaCount c st) := fun t => by
    refine ⟨?_, (cmdEnds_dmaCount t c st).reg _ rstSts_not_logKey rstSts_key_mod⟩
    have h := logsOnly_dmaCount t c st
    unfold CommandsOnly
    unfold LogsOnly at h
    rw [h]
  have hqueue : ∀ t : State, CommandsEnd t (if c.pkt then
      { t with queues := Map.modify t.queues c.org.queue (fun q => { q with started := q.started.map (fun p => p.dmaDone c st) }) }
      else t) := fun t => by
    split
    · exact .of_only rfl rfl
    · exact .refl t
  have hfail : ∀ t : State, CommandsEnd t (if st == 8 then
      (t.ras_ { rasOf 0x03 2 (coreDie c.org.core) 0x03 c.org.core 8 with
        part := c.org.part, core := c.org.core, ctx := c.org.ctx }).failCtx c.org.ctx else t) := fun t => by
    split
    · exact (commandsEnd_ras t _).trans (commandsEnd_failCtx _ _)
    · exact .refl t
  exact (hdrop.trans (hword _)).trans ((hcount _).trans ((hqueue _).trans (hfail _)))

theorem commandsEnd_endDma (c : DmaCmd) : CommandsEnd s (s.endDma c) := by
  unfold State.endDma State.dmaLost
  split
  · split
    · split
      · exact commandsEnd_dmaDone s c _ _
      · exact ((commandsEnd_post s _ _).trans (commandsEnd_dmaDone _ _ _ _)).trans (commandsEnd_failLaunch _ _ _)
    · exact commandsEnd_dmaDone s c _ _
  · exact .refl s

theorem commandsEnd_failRmos (code : Nat) (p : RmoCmd → Bool) : CommandsEnd s (s.failRmos code p) := by
  refine .foldl (fun u c => ?_) _ _
  split
  · unfold State.failRmoAs State.failRmo
    dsimp only
    have hdrop : CommandsEnd u { u with rmo := u.rmo.filter (fun o => o.id != c.id) } := .of_only rfl rfl
    split
    · exact ((hdrop.trans (commandsEnd_post _ _ _)).trans (commandsEnd_failLaunch _ _ _)).trans
        ((commandsEnd_ras _ _).trans (commandsEnd_failCtx _ _))
    · exact (hdrop.trans (commandsEnd_post _ _ _)).trans (commandsEnd_failLaunch _ _ _)
  · exact .refl u

theorem commandsEnd_endLaunch (k st : Nat) : CommandsEnd s (s.endLaunch k st) := by
  rw [State.endLaunch_eq]
  have hdrop : CommandsEnd (s.failLaunch k st) ((s.failLaunch k st).dropSolo k) := .of_only rfl rfl
  exact (((commandsEnd_failLaunch s k st).trans hdrop).trans (.foldl commandsEnd_endDma _ _)).trans (commandsEnd_failRmos _ _ _)

theorem commandsEnd_dropSuspect (x : Suspect) : CommandsEnd s (s.dropSuspect x) := .of_only rfl rfl

theorem commandsEnd_failSuspect (x : Suspect) : CommandsEnd s (s.failSuspect x) := by
  rw [State.failSuspect_eq]
  have hend : CommandsEnd (s.dropSuspect x) (if x.isDma then (s.dropSuspect x).failPacket x else (s.dropSuspect x).endLaunch x.id 2) := by
    split
    · exact .of_only rfl rfl
    · exact commandsEnd_endLaunch _ _ _
  exact ((commandsEnd_dropSuspect s x).trans hend).trans (commandsEnd_failCtx _ _)

theorem commandsEnd_settleCore (core n : Nat) : CommandsEnd s (s.settleCore core n) := by
  induction n generalizing s with
  | zero => exact .refl s
  | succ n ih =>
    unfold State.settleCore
    split
    · exact .refl s
    · next x hx => exact ((commandsEnd_ras s _).trans (commandsEnd_failSuspect _ x)).trans (ih _)

theorem commandsEnd_nextReplay (core : Nat) : CommandsEnd s (s.nextReplay core) := by
  unfold State.nextReplay
  dsimp only
  split
  · exact .refl s
  · split
    · exact .refl s
    · unfold State.startReplay
      dsimp only
      split
      · exact .of_only rfl rfl
      · split
        · exact .of_only rfl rfl
        · split
          · exact .of_only rfl rfl
          · exact .of_only rfl rfl

theorem commandsEnd_endSuspects (core : Nat) : CommandsEnd s (s.endSuspects core) := by
  refine .foldl (fun u x => ?_) _ _
  split
  · exact .of_only rfl rfl
  · exact commandsEnd_endLaunch _ _ _

end

/-! ### A step that is complete (R370, R377) -/

/-- RST_STS once a step has ended. -/
def State.stepNoted (u : State) (r : ResetReq) : State :=
  if r.level == 4 || r.level == 5 then u.noteDone r else (u.noteDone r).noteActive

/-- A core whose last step is complete issues again, and its suspects are settled and replayed. -/
def State.coreAgain (t : State) (core : Nat) : State :=
  let u := { t with hung := NSet.del t.hung core }.endSuspects core
  (u.settleCore core u.suspects.length).nextReplay core

theorem exec_resetStepComplete_eq {s : State} {r : ResetReq} (h : s.resetQ.find? (fun e => e.applied && s.stepDone e) = some r) :
    exec .resetStepComplete s =
      if r.level ≤ 2 && (((s.resetsSet (s.resetQ.erase r)).stepEvent r 2 (doneEvent r.level)).stepNoted r).resetQ.any
          (fun e => e.level ≤ 2 && e.unit == r.unit) then .next (((s.resetsSet (s.resetQ.erase r)).stepEvent r 2 (doneEvent r.level)).stepNoted r)
      else if r.level ≤ 2 then .next ((((s.resetsSet (s.resetQ.erase r)).stepEvent r 2 (doneEvent r.level)).stepNoted r).coreAgain r.unit)
      else .next (((s.resetsSet (s.resetQ.erase r)).stepEvent r 2 (doneEvent r.level)).stepNoted r) := by
  show execResetStepComplete s = _
  unfold execResetStepComplete
  rw [h]
  rfl

theorem State.stepNoted_keeps (u : State) (r : ResetReq) : RegsOnly u (u.stepNoted r) := by
  have hdone : RegsOnly u (u.noteDone r) := by
    unfold State.noteDone
    split
    · rfl
    · dsimp only
      split
      · exact (regsOnly_setRf _ _ _ _ _).trans (regsOnly_setRf _ _ _ _ _)
      · exact regsOnly_setRf _ _ _ _ _
  unfold State.stepNoted
  split
  · exact hdone
  · exact hdone.trans (regsOnly_setRf _ _ _ _ _)

theorem stsLevel_of {n : Nat} : stsLevel n = if n = 6 then 3 else n := if_congr beq_iff_eq rfl rfl

theorem State.stepNoted_sts (u : State) {r : ResetReq} (h : r.level ∈ [1, 2, 3, 6]) :
    (u.stepNoted r).rf .rstSts 3 0 = max (u.rf .rstSts 3 0) (if r.level = 6 then 3 else r.level) ∧
      (r.pf0 = true → (u.stepNoted r).rf .rstSts 11 8 = if r.escalated = true then 2 else 0) := by
  have hlev : (r.level == 4 || r.level == 5) = false ∧ (if r.level = 6 then 3 else r.level) < 16 := by
    generalize r.level = n at *
    fin_cases h <;> decide
  obtain ⟨h45, hlt⟩ := hlev
  have hmax : max (u.rf .rstSts 3 0) (if r.level = 6 then 3 else r.level) < 2 ^ (3 + 1 - 0) := max_lt (fld_lt_of _ 3 0) hlt
  unfold State.stepNoted
  rw [if_neg (by rw [h45]; exact Bool.false_ne_true)]
  unfold State.noteActive
  rw [State.rf_setRf_other _ _ _ (by decide) (by decide), State.rf_setRf_other _ _ _ (by decide) (by decide)]
  unfold State.noteDone
  rw [if_neg (by rw [h45]; exact Bool.false_ne_true), stsLevel_of]
  dsimp only
  generalize (if r.level = 6 then 3 else r.level) = n at *
  split
  case isTrue hp =>
    refine ⟨?_, fun _ => State.rf_setRf_of_lt _ _ (by decide) (by split <;> decide)⟩
    rw [State.rf_setRf_other _ _ _ (by decide) (by decide)]
    exact State.rf_setRf_of_lt _ _ (by decide) hmax
  case isFalse hp => exact ⟨State.rf_setRf_of_lt _ _ (by decide) hmax, fun h => absurd h hp⟩

theorem State.coreAgain_spec (t : State) (core : Nat) : core ∉ (t.coreAgain core).hung ∧ (t.coreAgain core).resetQ = t.resetQ ∧
    (t.coreAgain core).reg .rstSts = t.reg .rstSts := by
  obtain ⟨u, hu⟩ : ∃ u : State, u = { t with hung := NSet.del t.hung core } := ⟨_, rfl⟩
  have hdel : core ∉ u.hung ∧ u.resetQ = t.resetQ ∧ u.regs = t.regs := by
    rw [hu]
    exact ⟨fun h => ((NSet.mem_del _ _ _).mp h).2 rfl, rfl, rfl⟩
  have heq : t.coreAgain core = ((u.endSuspects core).settleCore core (u.endSuspects core).suspects.length).nextReplay core := by
    rw [hu]
    rfl
  obtain ⟨h1, h2, h3⟩ := hdel
  have hend := ((commandsEnd_endSuspects u core).trans (commandsEnd_settleCore _ core (u.endSuspects core).suspects.length)).trans (commandsEnd_nextReplay _ core)
  rw [heq]
  exact ⟨by rw [hend.hung]; exact h1, hend.resetQ.trans h2, hend.sts.trans (State.reg_congr h3 _)⟩

theorem exec_resetStepComplete_spec {s : State} {r : ResetReq} (h : s.resetQ.find? (fun e => e.applied && s.stepDone e) = some r) :
    ∃ t : State, exec .resetStepComplete s = .next t ∧ t.resetQ = s.resetQ.erase r ∧
      (r.level ≤ 2 → (∀ e ∈ s.resetQ.erase r, e.level ≤ 2 → e.unit ≠ r.unit) → r.unit ∉ t.hung) ∧
      (r.level ∈ [1, 2, 3, 6] → t.rf .rstSts 3 0 = max (s.rf .rstSts 3 0) (if r.level = 6 then 3 else r.level) ∧
        (r.pf0 = true → t.rf .rstSts 11 8 = if r.escalated = true then 2 else 0)) := by
  rw [exec_resetStepComplete_eq h]
  have hset : (s.resetsSet (s.resetQ.erase r)).regs = s.regs ∧ (s.resetsSet (s.resetQ.erase r)).resetQ = s.resetQ.erase r := ⟨rfl, rfl⟩
  obtain ⟨hregs, hq⟩ := hset
  generalize s.resetsSet (s.resetQ.erase r) = u at *
  have hev : CommandsEnd u (u.stepEvent r 2 (doneEvent r.level)) := commandsEnd_ras u _
  generalize u.stepEvent r 2 (doneEvent r.level) = v at *
  have hsts := v.stepNoted_sts (r := r)
  have hvq : (v.stepNoted r).resetQ = s.resetQ.erase r := by
    rw [v.stepNoted_keeps r]
    exact hev.resetQ.trans hq
  have hrf : v.rf .rstSts 3 0 = s.rf .rstSts 3 0 := State.rf_congr (hev.sts.trans (State.reg_congr hregs _)) _ _
  rw [hrf] at hsts
  generalize v.stepNoted r = w at *
  obtain ⟨hhung, haq, hasts⟩ := w.coreAgain_spec r.unit
  generalize w.coreAgain r.unit = x at *
  split
  case isTrue hc =>
    refine ⟨w, rfl, hvq, fun _ hno => ?_, hsts⟩
    obtain ⟨e, he, hx⟩ := List.any_eq_true.mp (Bool.and_eq_true _ _ ▸ hc).2
    simp only [Bool.and_eq_true, decide_eq_true_eq, beq_iff_eq] at hx
    exact absurd hx.2 (hno e (hvq ▸ he) hx.1)
  case isFalse =>
    split
    case isTrue hl =>
      refine ⟨x, rfl, haq.trans hvq, fun _ _ => hhung, fun h => ?_⟩
      rw [State.rf_congr hasts, State.rf_congr hasts]
      exact hsts h
    case isFalse hl => exact ⟨w, rfl, hvq, fun h => absurd h hl, hsts⟩

/-! ### A step that is not complete in time (R370) -/

/-- When the bound of a step ends. -/
def ResetReq.due (r : ResetReq) : Nat := r.began + stepBound r.level

/-- Of two steps, the later of the list is kept where its bound ends first. -/
def earlier (r : ResetReq) (m : Option ResetReq) : Option ResetReq := if m.any (fun x => x.due < r.due) then m else some r

theorem foldr_earlier (l : List ResetReq) : (l = [] ∧ l.foldr earlier none = none) ∨
    ∃ x ∈ l, l.foldr earlier none = some x ∧ ∀ y ∈ l, x.due ≤ y.due := by
  induction l with
  | nil => exact .inl ⟨rfl, rfl⟩
  | cons a l ih =>
    refine .inr ?_
    rw [List.foldr_cons]
    obtain ⟨rfl, -⟩ | ⟨x, hx, hm, hmin⟩ := ih
    · exact ⟨a, List.mem_cons_self, rfl, fun y hy => by rw [List.mem_singleton.mp hy]⟩
    · rw [hm]
      unfold earlier
      rw [Option.any_some]
      split
      case isTrue h =>
        have h := of_decide_eq_true h
        refine ⟨x, List.mem_cons_of_mem _ hx, rfl, fun y hy => ?_⟩
        rcases List.mem_cons.mp hy with rfl | hy
        · exact le_of_lt h
        · exact hmin y hy
      case isFalse h =>
        have h : ¬ x.due < a.due := fun hlt => h (decide_eq_true hlt)
        refine ⟨a, List.mem_cons_self, rfl, fun y hy => ?_⟩
        rcases List.mem_cons.mp hy with rfl | hy
        · exact le_rfl
        · exact (Nat.not_lt.mp h).trans (hmin y hy)

theorem State.firstDue_eq (s : State) : s.firstDue = (s.resetQ.filter (fun r => r.collected)).foldr earlier none := rfl

/-- The step that runs and whose bound ends before every other's is the first due. -/
theorem State.firstDue_of {s : State} {r : ResetReq} (hr : r ∈ s.resetQ) (hc : r.collected = true)
    (h : ∀ e ∈ s.resetQ.erase r, e.collected = true → r.due < e.due) : s.firstDue = some r := by
  have hin : r ∈ s.resetQ.filter (fun r => r.collected) := List.mem_filter.mpr ⟨hr, hc⟩
  rw [s.firstDue_eq]
  obtain ⟨hnil, -⟩ | ⟨x, hx, hm, hmin⟩ := foldr_earlier (s.resetQ.filter (fun r => r.collected))
  · rw [hnil] at hin
    exact absurd hin List.not_mem_nil
  · obtain ⟨hxq, hxc⟩ := List.mem_filter.mp hx
    by_cases hne : x = r
    · rw [hm, hne]
    · have hlt := h x ((List.mem_erase_of_ne hne).mpr hxq) hxc
      exact absurd (hmin r hin) (by omega)

/-- What follows a step that is not complete within its bound, but for those of partitions and cold resets (Table 22-3). -/
def State.escalate (s t : State) (r : ResetReq) : State :=
  (if r.pf0 then t.setRf .rstSts 11 8 2 else t).askReset
    { t.newReset (s.escalated r).1 (s.escalated r).2 0 0 0x18 r.ctx with
      escalated := true
      pf0 := r.pf0 } false

/-- A cold reset that does not come up holds the device with its alerts. -/
def State.heldDown (t : State) : State := { t.alert with boot := { t.boot with phase := 4 } }

theorem exec_resetEscalation_eq {s : State} {r : ResetReq} (h : s.firstDue = some r) :
    let t := (s.resetsSet (s.resetQ.erase r)).stepEvent r 2 0x18
    (r.level = 6 → exec .resetEscalation s = .next ((t.quarantine r.unit).noteActive)) ∧
    (r.level = 5 → exec .resetEscalation s = .next t.heldDown) ∧
    (r.level ≠ 6 → r.level ≠ 5 → exec .resetEscalation s = .next (s.escalate t r)) := by
  intro t
  show (_ → execResetEscalation s = _) ∧ (_ → execResetEscalation s = _) ∧ (_ → _ → execResetEscalation s = _)
  unfold execResetEscalation
  rw [h]
  dsimp only
  refine ⟨fun hl => ?_, fun hl => ?_, fun h6 h5 => ?_⟩
  · rw [hl]
    rfl
  · rw [hl]
    rfl
  · split
    · exact absurd ‹_› h6
    · exact absurd ‹_› h5
    · rfl

/-- The step that follows covers its unit. -/
theorem State.escalate_covers (s t : State) (r : ResetReq) (hlev : 2 ≤ (s.escalated r).1 ∧ (s.escalated r).1 ≤ 6)
    (hin : (s.escalated r).1 = 2 → Map.find? t.partOps (t.basinOwner (coreBasin (s.escalated r).2)) = none) :
    Covers (s.escalate t r) (s.escalated r).1 (s.escalated r).2 0 0 := by
  unfold State.escalate
  generalize hn : ({ t.newReset (s.escalated r).1 (s.escalated r).2 0 0 0x18 r.ctx with escalated := true, pf0 := r.pf0 } : ResetReq) = n
  obtain ⟨hl, hu, hk, hx⟩ : n.level = (s.escalated r).1 ∧ n.unit = (s.escalated r).2 ∧ n.ekind = 0 ∧ n.eidx = 0 := by
    rw [← hn]
    exact ⟨rfl, rfl, rfl, rfl⟩
  have ha : Asks t (if r.pf0 then t.setRf .rstSts 11 8 2 else t) := by
    split
    · exact asks_setRf t (.inl rfl) _ _ _
    · exact .refl t
  generalize (if r.pf0 then t.setRf .rstSts 11 8 2 else t) = u at *
  obtain ⟨hasks, hcov⟩ := u.askReset_spec n false
  have hout : u.insidePart n = false := by
    rw [State.insidePart_alike ha (.refl n)]
    unfold State.insidePart
    rw [hl, hu]
    by_cases h2 : (s.escalated r).1 = 2
    · rw [hin h2]
      exact Bool.and_false _
    · rw [decide_eq_false (by omega)]
      rfl
  obtain ⟨e, he, hs⟩ := hcov hout (u.inScope_self (by rw [hl]; omega))
  exact Covers.of_mem he ((hasks.owners.inScope _ e).trans hs) hl hu hk hx

theorem exec_resetEscalation_spec {s : State} {r : ResetReq} (hr : r ∈ s.resetQ) (hc : r.collected = true)
    (h : ∀ e ∈ s.resetQ.erase r, e.collected = true → r.due < e.due) :
    ∃ t : State, exec .resetEscalation s = .next t ∧
      (r.level = 1 → Map.find? s.partOps (s.basinOwner (coreBasin r.unit)) = none → Covers t 2 r.unit 0 0) ∧
      (r.level = 2 → s.basinOwner (coreBasin r.unit) < 96 → Covers t 6 (s.basinOwner (coreBasin r.unit)) 0 0) ∧
      (r.level = 2 → s.basinOwner (coreBasin r.unit) = 127 → Covers t 4 0 0 0) ∧
      (r.level = 3 → Covers t 4 0 0 0) ∧ (r.level = 4 → Covers t 5 0 0 0) ∧
      (r.level = 6 → r.unit ∈ t.quarantined) ∧
      (r.level = 5 → t.boot.phase = 4 ∧ t.pins.alertN = [false, false] ∧ t.pins.brdAlertN = false) := by
  obtain ⟨h6, h5, hrest⟩ := exec_resetEscalation_eq (State.firstDue_of hr hc h)
  have hset : SameOwners s (s.resetsSet (s.resetQ.erase r)) ∧ (s.resetsSet (s.resetQ.erase r)).partOps = s.partOps := ⟨.of_eq rfl, rfl⟩
  obtain ⟨ho, hp⟩ := hset
  generalize s.resetsSet (s.resetQ.erase r) = u at *
  have hlog : LogsOnly u (u.stepEvent r 2 0x18) := logsOnly_ras u _
  have hreg : LogRegs u (u.stepEvent r 2 0x18) := logRegs_ras u _
  generalize u.stepEvent r 2 0x18 = t at *
  by_cases hl6 : r.level = 6
  · obtain ⟨-, -, hquar, -⟩ := t.quarantine_spec r.unit
    exact ⟨_, h6 hl6, fun hl => by omega, fun hl => by omega, fun hl => by omega, fun hl => by omega, fun hl => by omega, fun _ => hquar,
      fun hl => by omega⟩
  · by_cases hl5 : r.level = 5
    · exact ⟨_, h5 hl5, fun hl => by omega, fun hl => by omega, fun hl => by omega, fun hl => by omega, fun hl => by omega,
        fun hl => by omega, fun _ => ⟨rfl, rfl, rfl⟩⟩
    · have hcov := s.escalate_covers t r
      have hesc : ∀ level unit, s.escalated r = (level, unit) → 2 ≤ level ∧ level ≤ 6 →
          (level = 2 → Map.find? s.partOps (s.basinOwner (coreBasin unit)) = none) → Covers (s.escalate t r) level unit 0 0 := by
        intro level unit he hlev hno
        rw [he] at hcov
        exact hcov hlev fun h2 => by
          rw [hlog.partOps, hp, (ho.trans (.of_logRegs hreg)).basinOwner]
          exact hno h2
      refine ⟨_, hrest hl6 hl5, fun hl hno => ?_, fun hl hown => ?_, fun hl hown => ?_, fun hl => ?_, fun hl => ?_, fun hl => absurd hl hl6,
        fun hl => absurd hl hl5⟩
      · exact hesc 2 r.unit (by simp [State.escalated, hl]) (by decide) (fun _ => hno)
      · exact hesc 6 _ (by unfold State.escalated; rw [hl]; exact if_pos hown) (by decide) (fun h2 => absurd h2 (by decide))
      · exact hesc 4 0 (by unfold State.escalated; rw [hl]; exact if_neg (by omega)) (by decide) (fun h2 => absurd h2 (by decide))
      · exact hesc 4 0 (by simp [State.escalated, hl]) (by decide) (fun h2 => absurd h2 (by decide))
      · exact hesc 5 0 (by simp [State.escalated, hl]) (by decide) (fun h2 => absurd h2 (by decide))

/-- Settles O49. -/
theorem resetLadderRequests : Obligations.reset_ladder_requests := by
  unfold Obligations.reset_ladder_requests
  refine ⟨fun s => ⟨?_, fun d => ?_, fun p hp => ?_, fun halive d c hc => ?_, fun v c hc => ?_⟩, fun s r =>
    ⟨exec_resetStepComplete_spec, fun hr hcol h => exec_resetEscalation_spec hr hcol h⟩⟩
  · obtain ⟨hcov, e, he, hcls, hdet, -⟩ := s.requestLogged_spec (level := 4) 0 4 15 0x08 (by decide)
    exact ⟨_, rfl, hcov, e, he, hcls, hdet⟩
  · obtain ⟨hcov, e, he, hcls, hdet, hdie⟩ := s.requestLogged_spec (level := 3) d.val 4 d.val 0x09 (by decide)
    exact ⟨_, rfl, hcov, e, he, hcls, hdet, hdie⟩
  · have hexec : exec (.sluiceTimeout p) s = .next (s.askReset (s.newReset 4 0 0 0 0x30 0) false) :=
      if_pos (List.contains_iff_mem.mpr hp)
    obtain ⟨-, hcov⟩ := s.askReset_covers (r := s.newReset 4 0 0 0 0x30 0) false (show 3 ≤ 4 ∧ 4 ≤ 6 by decide)
    exact ⟨_, hexec, hcov⟩
  · have hexec : ∃ skip, exec c s = .next (s.supplyReset d.val skip) := by
      rcases List.mem_cons.mp hc with rfl | hc
      · exact ⟨_, if_pos halive⟩
      · rw [List.mem_singleton.mp hc]
        exact ⟨_, if_pos halive⟩
    obtain ⟨skip, hexec⟩ := hexec
    exact ⟨_, hexec, s.supplyReset_spec d.val skip⟩
  · intro w level unit r refused
    have hexec : exec c s = .next (s.writeRstReq v.toNat) := by
      fin_cases hc <;> rfl
    exact ⟨_, hexec, s.writeRstReq_spec v.toNat (r := r) rfl rfl rfl rfl⟩

end Sys2Proof.Machine

/-! Proofs: what a boot keeps of the flash, the pins and the memories (R379 to R391). -/

namespace Sys2Proof.Machine

/-- `g` is `f` but for the device records. -/
def SameFirmware (f g : Flash) : Prop :=
  g = { f with slots := g.slots, mapouts := g.mapouts, repairs := g.repairs, recordGen := g.recordGen }

theorem SameFirmware.refl (f : Flash) : SameFirmware f f := rfl
theorem SameFirmware.trans {f g h : Flash} (a : SameFirmware f g) (b : SameFirmware g h) : SameFirmware f h := by
  unfold SameFirmware at *
  rw [b, a]

/-- What the functions of a boot keep: firmware, pins, pools and mailbox; of the Heaps no byte is new. -/
structure BootKeeps (s t : State) : Prop where
  fw : SameFirmware s.flash t.flash
  pins : t.pins = s.pins
  heap : t.heap.Sublist s.heap
  rest : t.pool = s.pool ∧ t.mboxReq = s.mboxReq ∧ t.mboxRsp = s.mboxRsp

namespace BootKeeps
variable {s t u : State}

theorem refl (s : State) : BootKeeps s s := ⟨.refl _, rfl, List.Sublist.refl _, rfl, rfl, rfl⟩

theorem trans (h : BootKeeps s t) (k : BootKeeps t u) : BootKeeps s u := by
  obtain ⟨h1, h2, h3⟩ := h.rest
  obtain ⟨k1, k2, k3⟩ := k.rest
  exact ⟨h.fw.trans k.fw, k.pins.trans h.pins, k.heap.trans h.heap, k1.trans h1, k2.trans h2, k3.trans h3⟩

theorem of_logs (h : LogsOnly s t) : BootKeeps s t := by
  unfold LogsOnly at h
  rw [h]
  exact ⟨.refl _, rfl, List.Sublist.refl _, rfl, rfl, rfl⟩

theorem foldl {α : Type} {f : State → α → State} (h : ∀ u x, BootKeeps u (f u x)) (xs : List α) (s : State) :
    BootKeeps s (xs.foldl f s) := by
  induction xs generalizing s with
  | nil => exact refl s
  | cons x xs ih => exact (h s x).trans (ih _)

end BootKeeps

section
variable (s : State)

theorem bootKeeps_setRf (r : Reg) (hi lo v : Nat) : BootKeeps s (s.setRf r hi lo v) := .of_logs (logsOnly_setRf s r hi lo v)
theorem bootKeeps_setReg (r : Reg) (v : Nat) : BootKeeps s (s.setReg r v) := .of_logs (logsOnly_setReg s r v)
theorem bootKeeps_ras (e : RasEntry) : BootKeeps s (s.ras_ e) := .of_logs (logsOnly_ras s e)

/-- The device records of a flash are written. -/
def State.recordsWritten (s : State) (mapouts : NSet) (repairs : List Byte) : State :=
  { s with flash := s.flash.writeRecords mapouts repairs }

theorem bootKeeps_recordsWritten (mapouts : NSet) (repairs : List Byte) : BootKeeps s (s.recordsWritten mapouts repairs) :=
  ⟨rfl, rfl, List.Sublist.refl _, rfl, rfl, rfl⟩

theorem bootKeeps_mapOut (c : Nat) : BootKeeps s (s.mapOut c) :=
  ((bootKeeps_setRf s _ _ _ _).trans (bootKeeps_recordsWritten _ _ _)).trans (bootKeeps_ras _ _)

theorem bootKeeps_bootChan (cold tested : Bool) (c : Nat) : BootKeeps s (s.bootChan cold tested c) := by
  unfold State.bootChan
  dsimp only
  split
  · exact bootKeeps_setRf s _ _ _ _
  · split
    · exact bootKeeps_mapOut s c
    · exact bootKeeps_setRf s _ _ _ _

theorem bootKeeps_takeProt : BootKeeps s s.takeProt := .foldl (fun u _ => bootKeeps_setRf u _ _ _ _) _ s

theorem bootKeeps_formK : BootKeeps s s.formK := by
  unfold State.formK
  have set : ∀ k z, BootKeeps s ((s.setRf .glbSharedSts 31 20 k).setRf .glbSharedSts 1 0 z) := fun _ _ =>
    (bootKeeps_setRf s _ _ _ _).trans (bootKeeps_setRf _ _ _ _ _)
  dsimp only
  split
  · exact (set _ _).trans (bootKeeps_ras _ _)
  · split
    · exact set _ _
    · exact (set _ _).trans (bootKeeps_ras _ _)

theorem bootKeeps_heapFaults : BootKeeps s s.heapFaults := .foldl (fun u _ => bootKeeps_ras u _) _ s

/-- Of the Heaps the bytes that are kept, and none of the poison of others. -/
def State.heapsKept (t : State) (keep : Nat → Bool) : State :=
  { t with
    heap := Map.keep t.heap keep
    heapPoison := t.heapPoison.filter (fun x => keep (x * 32)) }

theorem bootKeeps_heapsKept (keep : Nat → Bool) : BootKeeps s (s.heapsKept keep) :=
  ⟨.refl _, rfl, List.filter_sublist, rfl, rfl, rfl⟩

theorem State.bootHeaps_eq (cold tested : Bool) : ∃ keep : Nat → Bool, s.bootHeaps cold tested =
    (if cold then (List.range 384).foldl (fun t c => t.bootChan cold tested c) s
      else ((List.range 384).foldl (fun t c => t.bootChan cold tested c) s).takeProt).formK.heapFaults.heapsKept keep := ⟨_, rfl⟩

theorem bootKeeps_bootHeaps (cold tested : Bool) : BootKeeps s (s.bootHeaps cold tested) := by
  obtain ⟨keep, h⟩ := s.bootHeaps_eq cold tested
  rw [h]
  have hchans := BootKeeps.foldl (fun u c => bootKeeps_bootChan u cold tested c) (List.range 384) s
  generalize (List.range 384).foldl (fun t c => t.bootChan cold tested c) s = u at *
  have hprot : BootKeeps u (if cold then u else u.takeProt) := by
    split
    · exact .refl u
    · exact bootKeeps_takeProt u
  exact hchans.trans (hprot.trans ((bootKeeps_formK _).trans ((bootKeeps_heapFaults _).trans (bootKeeps_heapsKept _ keep))))

theorem bootKeeps_takeRecords (cold : Bool) : BootKeeps s (s.takeRecords cold) := by
  unfold State.takeRecords
  dsimp only
  split
  · exact ⟨rfl, rfl, List.Sublist.refl _, rfl, rfl, rfl⟩
  · split
    · exact ⟨rfl, rfl, List.Sublist.refl _, rfl, rfl, rfl⟩
    · exact ⟨rfl, rfl, List.Sublist.refl _, rfl, rfl, rfl⟩

theorem bootKeeps_loadFlash (cold : Bool) : BootKeeps s (s.loadFlash cold) := by
  unfold State.loadFlash
  dsimp only
  refine BootKeeps.trans ?_ ((bootKeeps_setRf _ _ _ _ _).trans (bootKeeps_setRf _ _ _ _ _))
  split
  · exact (bootKeeps_setRf s _ _ _ _).trans <| (bootKeeps_setRf _ _ _ _ _).trans <|
      (bootKeeps_setRf _ _ _ _ _).trans (bootKeeps_setRf _ _ _ _ _)
  · exact .refl s

theorem logsOnly_noteFirmware : LogsOnly s s.noteFirmware :=
  (logsOnly_setRf s _ _ _ _).trans <| (logsOnly_setRf _ _ _ _ _).trans <|
    (logsOnly_setRf _ _ _ _ _).trans (logsOnly_setRf _ _ _ _ _)

/-- A measurement writes registers of measurements alone. -/
theorem State.setMeasurement_spec (i : Nat) (m : List Byte) : LogsOnly s (s.setMeasurement i m) ∧
    (s.setMeasurement i m).reg .secSts = s.reg .secSts := by
  have hne : ∀ i w, Reg.key .secSts ≠ Reg.key (.secMeas i w) := fun i w => by
    simp only [Reg.key]
    omega
  refine ⟨logsOnly_foldl (fun u _ => logsOnly_setReg u _ _) _ s, ?_⟩
  exact foldl_keeps (P := fun u : State => u.reg .secSts = s.reg .secSts)
    (fun u w hu => (State.reg_setReg_of_ne u _ (hne i w)).trans hu) (List.range 6) s rfl

/-- `t` holds SEC_STS as `s` does, and writes but registers. -/
structure Measures (s t : State) : Prop where
  logs : LogsOnly s t
  sts : t.reg .secSts = s.reg .secSts

theorem Measures.trans {s t u : State} (h : Measures s t) (k : Measures t u) : Measures s u := ⟨h.logs.trans k.logs, k.sts.trans h.sts⟩

theorem measures_setMeasurement (i : Nat) (m : List Byte) : Measures s (s.setMeasurement i m) :=
  ⟨(s.setMeasurement_spec i m).1, (s.setMeasurement_spec i m).2⟩

theorem measures_extend (i : Nat) (d : List Byte) : Measures s (s.extend i d) := measures_setMeasurement s i _

theorem measures_clearMeasurements : Measures s s.clearMeasurements := by
  unfold State.clearMeasurements
  exact foldl_keeps (P := fun u : State => Measures s u) (fun u i hu => hu.trans (measures_setMeasurement u i [])) _ s ⟨.refl s, rfl⟩

theorem measures_measureBoot : Measures s s.measureBoot := by
  unfold State.measureBoot
  dsimp only
  exact (measures_clearMeasurements s).trans <| (measures_extend _ _ _).trans <| (measures_extend _ _ _).trans <|
    (measures_extend _ _ _).trans <| (measures_extend _ _ _).trans <| (measures_extend _ _ _).trans <|
    (measures_extend _ _ _).trans <| (measures_extend _ _ _).trans (measures_extend _ _ _)

/-- PRESENT of one site. -/
def State.presentOf (t : State) (i : Nat) : State :=
  t.setRf (.hstLinkSts i) 0 0 (b2n (t.pins.hstPwrGd.getD i false && (i == 0 || t.flash.order == .sab)))

theorem measures_presentOf (i : Fin 2) : Measures s (s.presentOf i.val) := by
  refine ⟨logsOnly_setRf _ _ _ _ _, State.reg_setRf_of_ne _ _ _ _ ?_⟩
  revert i
  decide

theorem measures_notePresent : Measures s s.notePresent := by
  have heq : s.notePresent = (s.presentOf 0).presentOf 1 := rfl
  rw [heq]
  exact (measures_presentOf s 0).trans (measures_presentOf _ 1)

end

end Sys2Proof.Machine

/-! Proofs: power, rails, firmware banks, the ready map and lockstep (R361, R379 to R391, R407 to R409). -/

namespace Sys2Proof.Machine

/-! ### The bank of an image (R383, R384) -/

/-- Every key and signature of a record verifies. -/
def GoodSig (x : Sig) : Prop := x = ⟨true, true, true, true⟩

theorem sigOk_iff (x : Sig) : sigOk x = true ↔ GoodSig x := by
  obtain ⟨a, b, c, d⟩ := x
  simp [sigOk, GoodSig, and_assoc]

theorem anyCopy_iff (xs : List Sig) : anyCopy xs = true ↔ ∃ x ∈ xs, GoodSig x := by
  unfold anyCopy
  simp only [List.any_eq_true, sigOk_iff]

/-- An image may be booted. -/
def GoodImage (fwSvn : Nat) (i : Image) : Prop := GoodSig i.sig ∧ fwSvn ≤ i.svn.toNat

theorem Banks.bootable_iff (x : Banks) (fwSvn : Nat) (b : Bool) : x.bootable fwSvn b = true ↔ GoodImage fwSvn (x.image b) := by
  simp [Banks.bootable, GoodImage, imageOk, sigOk_iff]

/-- The bank of an image that a boot takes: the higher SVN, A on a tie. -/
def TakesBank (fwSvn : Nat) (run : Bool) (a b : Image) : Prop :=
  run = true ↔ GoodImage fwSvn b ∧ (¬ GoodImage fwSvn a ∨ a.svn.toNat < b.svn.toNat)

theorem Banks.choose_some (x : Banks) (fwSvn : Nat) (h : GoodImage fwSvn x.a ∨ GoodImage fwSvn x.b) :
    ∃ run, x.choose fwSvn = some run ∧ TakesBank fwSvn run x.a x.b := by
  have ha : x.bootable fwSvn false = true ↔ GoodImage fwSvn x.a := x.bootable_iff fwSvn false
  have hb : x.bootable fwSvn true = true ↔ GoodImage fwSvn x.b := x.bootable_iff fwSvn true
  have hcond : (x.bootable fwSvn true && (!x.bootable fwSvn false || x.b.svn.toNat > x.a.svn.toNat)) = true ↔
      GoodImage fwSvn x.b ∧ (¬ GoodImage fwSvn x.a ∨ x.a.svn.toNat < x.b.svn.toNat) := by
    simp only [Bool.and_eq_true, Bool.or_eq_true, Bool.not_eq_true', ← Bool.not_eq_true, ha, hb, decide_eq_true_eq, gt_iff_lt]
  unfold Banks.choose
  split
  case isTrue hc => exact ⟨true, rfl, fun _ => hcond.mp hc, fun _ => rfl⟩
  case isFalse hc =>
    have hna : GoodImage fwSvn x.a := by
      by_contra hna
      exact hc (hcond.mpr ⟨h.resolve_left hna, .inl hna⟩)
    rw [if_pos (ha.mpr hna)]
    exact ⟨false, rfl, fun h' => absurd h' Bool.false_ne_true, fun h' => absurd (hcond.mpr h') hc⟩

theorem Banks.choose_none (x : Banks) (fwSvn : Nat) (ha : ¬ GoodImage fwSvn x.a) (hb : ¬ GoodImage fwSvn x.b) :
    x.choose fwSvn = none := by
  have h0 : x.bootable fwSvn false = false := by
    rw [← Bool.not_eq_true, x.bootable_iff]
    exact ha
  have h1 : x.bootable fwSvn true = false := by
    rw [← Bool.not_eq_true, x.bootable_iff]
    exact hb
  unfold Banks.choose
  rw [h0, h1]
  rfl

/-- A flash from which a boot can start. -/
def Usable (f : Flash) : Prop :=
  f.answers = true ∧ (∃ x ∈ f.sku, GoodSig x) ∧ (∃ x ∈ f.leakage, GoodSig x) ∧
    ∀ x ∈ [f.mgmt, f.power, f.pan], GoodImage f.fwSvn x.a ∨ GoodImage f.fwSvn x.b

/-- The flash with its banks chosen. -/
def Flash.withRuns (f : Flash) (m p d : Bool) : Flash :=
  { f with mgmt := { f.mgmt with run := m }, power := { f.power with run := p }, pan := { f.pan with run := d } }

theorem Flash.start_of_usable {f : Flash} (h : Usable f) : ∃ m p d, f.start = some (f.withRuns m p d) ∧
    TakesBank f.fwSvn m f.mgmt.a f.mgmt.b ∧ TakesBank f.fwSvn p f.power.a f.power.b ∧ TakesBank f.fwSvn d f.pan.a f.pan.b := by
  obtain ⟨hans, hsku, hleak, himg⟩ := h
  obtain ⟨m, hm, tm⟩ := f.mgmt.choose_some f.fwSvn (himg _ (by simp))
  obtain ⟨p, hp, tp⟩ := f.power.choose_some f.fwSvn (himg _ (by simp))
  obtain ⟨d, hd, td⟩ := f.pan.choose_some f.fwSvn (himg _ (by simp))
  refine ⟨m, p, d, ?_, tm, tp, td⟩
  unfold Flash.start
  rw [if_neg (by rw [hans, (anyCopy_iff _).mpr hsku, (anyCopy_iff _).mpr hleak]; decide), hm, hp, hd]
  rfl

theorem Flash.start_of_not_usable {f : Flash} (h : ¬ Usable f) : f.start = none := by
  unfold Flash.start
  split
  case isTrue => rfl
  case isFalse hc =>
    simp only [Bool.or_eq_true, Bool.not_eq_true', ← Bool.not_eq_true, not_or, not_not, anyCopy_iff] at hc
    obtain ⟨⟨hans, hsku⟩, hleak⟩ := hc
    by_cases hm : GoodImage f.fwSvn f.mgmt.a ∨ GoodImage f.fwSvn f.mgmt.b
    · by_cases hp : GoodImage f.fwSvn f.power.a ∨ GoodImage f.fwSvn f.power.b
      · by_cases hd : GoodImage f.fwSvn f.pan.a ∨ GoodImage f.fwSvn f.pan.b
        · refine absurd ⟨hans, hsku, hleak, fun x hx => ?_⟩ h
          simp only [List.mem_cons, List.not_mem_nil, or_false] at hx
          rcases hx with rfl | rfl | rfl
          · exact hm
          · exact hp
          · exact hd
        · rw [f.pan.choose_none f.fwSvn (fun h => hd (.inl h)) (fun h => hd (.inr h))]
          cases f.mgmt.choose f.fwSvn <;> cases f.power.choose f.fwSvn <;> rfl
      · rw [f.power.choose_none f.fwSvn (fun h => hp (.inl h)) (fun h => hp (.inr h))]
        cases f.mgmt.choose f.fwSvn <;> rfl
    · rw [f.mgmt.choose_none f.fwSvn (fun h => hm (.inl h)) (fun h => hm (.inr h))]

/-! ### A boot (R382 to R385) -/

/-- A state with another flash. -/
def State.flashSet (s : State) (f : Flash) : State := { s with flash := f }

/-- The flash of the next boot. -/
def Flash.nextBoot (f : Flash) : Flash := { f with incarnation := f.incarnation + 1 }

/-- The end of the ROM's part of a boot. -/
def State.romDone (t : State) (puf : Nat) : State :=
  { t with
    boot := { t.boot with
      phase := 1
      puf := puf
      linksOut := linksLeftOut t.silicon.badLinks }
    pins := { t.pins with
      devPwrGd := [true, t.flash.order == .sab]
      coldRstN := true } }

/-- What the PUF and its helper record give (R388). -/
def pufState (f : Flash) (pufOk : Bool) : Nat := if !anyCopy f.helper then 1 else if pufOk then 0 else 2

/-- Whether the channel record of a flash is valid. -/
def Flash.chanOk (f : Flash) : Bool := (f.accepted DevSlot.chanTag).isSome

theorem State.bringUp_none {s : State} (cold pufOk : Bool) (h : s.flash.nextBoot.start = none) :
    s.bringUp cold pufOk = (s.flashSet s.flash.nextBoot).enterRecovery := by
  unfold State.bringUp
  dsimp only
  rw [show ({ s.flash with incarnation := s.flash.incarnation + 1 } : Flash) = s.flash.nextBoot from rfl, h]
  rfl

/-- The registers and memories of a boot, before SEC_STS is complete. -/
def State.booted (s : State) (f : Flash) (cold : Bool) : State :=
  ((if f.chanOk then ((s.flashSet f).takeRecords cold).loadFlash cold
    else (((s.flashSet f).takeRecords cold).loadFlash cold).ras_ (rasOf 0x12 1 15 0x08 0 4)).bootHeaps cold (cold || !f.chanOk)).noteFirmware

/-- SEC_STS of a boot, its measurements and the sites that are present. -/
def State.secured (t : State) (puf : Nat) : State :=
  let u := (t.setRf .secSts 11 8 puf).setRf .secSts 63 48 (32768 - t.flash.idLms)
  (u.setRf .secSts 1 1 (b2n (u.flash.idLms ≥ 32768))).measureBoot.notePresent

theorem State.bringUp_some {s : State} {f : Flash} (cold pufOk : Bool) (h : s.flash.nextBoot.start = some f) :
    s.bringUp cold pufOk = ((s.booted f cold).secured (pufState f pufOk)).romDone (pufState f pufOk) := by
  unfold State.bringUp
  dsimp only
  rw [show ({ s.flash with incarnation := s.flash.incarnation + 1 } : Flash) = s.flash.nextBoot from rfl, h]
  dsimp only
  unfold State.romDone State.secured State.booted pufState Flash.chanOk State.flashSet
  rfl

/-- The SVN of the management firmware that a flash runs. -/
def Flash.runSvn (f : Flash) : Nat := (f.mgmt.image f.bank).svn.toNat

theorem Flash.runSvn_lt (f : Flash) : f.runSvn < 2 ^ 8 := (f.mgmt.image f.bank).svn.isLt

theorem SameFirmware.runSvn {f g : Flash} (h : SameFirmware f g) : g.runSvn = f.runSvn := by
  unfold SameFirmware at h
  rw [h]
  rfl

theorem State.noteFirmware_svn (s : State) : s.noteFirmware.rf .secSts 23 16 = s.flash.runSvn := by
  have heq : ∃ a b c, s.noteFirmware = (((s.setRf .secSts 31 24 a).setRf .secSts 23 16 s.flash.runSvn).setRf .secSts 12 12 b).setRf .secSts 0 0 c := by
    unfold State.noteFirmware
    exact ⟨_, _, _, rfl⟩
  obtain ⟨a, b, c, heq⟩ := heq
  rw [heq, State.rf_setRf_other _ _ _ (by decide) (by decide), State.rf_setRf_other _ _ _ (by decide) (by decide)]
  exact State.rf_setRf_of_lt _ _ (by decide) s.flash.runSvn_lt

theorem State.booted_spec (s : State) (f : Flash) (cold : Bool) : BootKeeps (s.flashSet f) (s.booted f cold) ∧
    (s.booted f cold).rf .secSts 23 16 = f.runSvn := by
  unfold State.booted
  have hload := (bootKeeps_takeRecords (s.flashSet f) cold).trans (bootKeeps_loadFlash _ cold)
  generalize ((s.flashSet f).takeRecords cold).loadFlash cold = u at *
  have hchan : BootKeeps u (if f.chanOk then u else u.ras_ (rasOf 0x12 1 15 0x08 0 4)) := by
    split
    · exact .refl u
    · exact bootKeeps_ras u _
  generalize (if f.chanOk then u else u.ras_ (rasOf 0x12 1 15 0x08 0 4)) = v at *
  have hheaps := (hload.trans hchan).trans (bootKeeps_bootHeaps v cold (cold || !f.chanOk))
  generalize v.bootHeaps cold (cold || !f.chanOk) = w at *
  exact ⟨hheaps.trans (.of_logs (logsOnly_noteFirmware w)), w.noteFirmware_svn.trans hheaps.fw.runSvn⟩

theorem State.secured_spec (t : State) {puf : Nat} (h : puf < 16) : LogsOnly t (t.secured puf) ∧
    (t.secured puf).rf .secSts 11 8 = puf ∧ (t.secured puf).rf .secSts 23 16 = t.rf .secSts 23 16 := by
  have heq : ∃ a b, t.secured puf = (((t.setRf .secSts 11 8 puf).setRf .secSts 63 48 a).setRf .secSts 1 1 b).measureBoot.notePresent := by
    unfold State.secured
    exact ⟨_, _, rfl⟩
  obtain ⟨a, b, heq⟩ := heq
  rw [heq]
  have hlog := ((logsOnly_setRf t .secSts 11 8 puf).trans (logsOnly_setRf _ .secSts 63 48 a)).trans (logsOnly_setRf _ .secSts 1 1 b)
  have h8 : (((t.setRf .secSts 11 8 puf).setRf .secSts 63 48 a).setRf .secSts 1 1 b).rf .secSts 11 8 = puf := by
    rw [State.rf_setRf_other _ _ _ (by decide) (by decide), State.rf_setRf_other _ _ _ (by decide) (by decide)]
    exact State.rf_setRf_of_lt _ _ (by decide) h
  have h16 : (((t.setRf .secSts 11 8 puf).setRf .secSts 63 48 a).setRf .secSts 1 1 b).rf .secSts 23 16 = t.rf .secSts 23 16 := by
    rw [State.rf_setRf_other _ _ _ (by decide) (by decide), State.rf_setRf_other _ _ _ (by decide) (by decide),
      State.rf_setRf_other _ _ _ (by decide) (by decide)]
  generalize ((t.setRf .secSts 11 8 puf).setRf .secSts 63 48 a).setRf .secSts 1 1 b = u at *
  have hm := (measures_measureBoot u).trans (measures_notePresent _)
  exact ⟨hlog.trans hm.logs, (State.rf_congr hm.sts _ _).trans h8, (State.rf_congr hm.sts _ _).trans h16⟩

/-- What a boot that starts leaves. -/
structure BootStarts (s t : State) (f : Flash) (pufOk : Bool) : Prop where
  phase : t.boot.phase = 1
  dev : t.pins.devPwrGd = [true, f.order == .sab]
  good : t.pins.pwrGood = s.pins.pwrGood
  fw : SameFirmware f t.flash
  heap : t.heap.Sublist s.heap
  svn : t.rf .secSts 23 16 = f.runSvn
  puf : t.rf .secSts 11 8 = pufState f pufOk

theorem State.romDone_spec (v : State) (puf : Nat) : (v.romDone puf).regs = v.regs ∧ (v.romDone puf).flash = v.flash ∧
    (v.romDone puf).heap = v.heap ∧ (v.romDone puf).boot.phase = 1 ∧ (v.romDone puf).pins.devPwrGd = [true, v.flash.order == .sab] ∧
    (v.romDone puf).pins.pwrGood = v.pins.pwrGood := ⟨rfl, rfl, rfl, rfl, rfl, rfl⟩

theorem State.bringUp_starts {s : State} {f : Flash} (cold pufOk : Bool) (h : s.flash.nextBoot.start = some f) :
    BootStarts s (s.bringUp cold pufOk) f pufOk := by
  rw [State.bringUp_some cold pufOk h]
  have hpuf : pufState f pufOk < 16 := by
    unfold pufState
    split
    · decide
    · split <;> decide
  obtain ⟨hkeep, hsvn⟩ := s.booted_spec f cold
  have hset : (s.flashSet f).flash = f ∧ (s.flashSet f).pins = s.pins ∧ (s.flashSet f).heap = s.heap := ⟨rfl, rfl, rfl⟩
  obtain ⟨hf, hp, hh⟩ := hset
  generalize s.booted f cold = u at *
  obtain ⟨hlog, h8, h16⟩ := u.secured_spec hpuf
  generalize u.secured (pufState f pufOk) = v at *
  have hfw : SameFirmware f v.flash := by
    rw [hlog.flash, ← hf]
    exact hkeep.fw
  have horder : v.flash.order = f.order := by
    rw [hfw]
  obtain ⟨d1, d2, d3, d4, d5, d6⟩ := v.romDone_spec (pufState f pufOk)
  generalize v.romDone (pufState f pufOk) = w at *
  refine ⟨d4, by rw [d5, horder], by rw [d6, hlog.pins, hkeep.pins, hp], by rw [d2]; exact hfw, ?_, (State.rf_congr (State.reg_congr d1 _) _ _).trans (h16.trans hsvn),
    (State.rf_congr (State.reg_congr d1 _) _ _).trans h8⟩
  rw [d3, hlog.heap, ← hh]
  exact hkeep.heap

/-- What recovery leaves (R383). -/
theorem State.enterRecovery_spec (s : State) : s.enterRecovery.boot.phase = 3 ∧ s.enterRecovery.pins.devPwrGd = [false, false] ∧
    s.enterRecovery.pins.alertN = [false, false] ∧ s.enterRecovery.rf .secSts 2 2 = 1 ∧ s.enterRecovery.pins.pwrGood = s.pins.pwrGood ∧
    s.enterRecovery.flash = s.flash ∧ s.enterRecovery.heap = s.heap := by
  have hreg : s.enterRecovery.regs = (s.setRf .secSts 2 2 1).regs := rfl
  refine ⟨rfl, rfl, rfl, ?_, rfl, rfl, rfl⟩
  rw [State.rf_congr (State.reg_congr hreg _)]
  exact State.rf_setRf_of_lt _ _ (by decide) (by decide)

/-! ### The board's signals (R405 to R411) -/

/-- What the ROM finds at power-good. -/
def State.reported (s : State) (r : BootReport) : State :=
  { s with
    pins := { s.pins with
      pwrGood := true
      mgAddr := r.mgAddr
      i3cAddr := BitVec.ofNat 7 (0x50 + r.mgAddr.toNat) }
    flash := { s.flash with
      answers := r.flashOk && r.counters ≥ 4
      sku := r.sku
      leakage := r.leakage
      helper := r.helper
      deviceId := r.deviceId
      mgmt := ⟨r.mgmt.1, r.mgmt.2, false⟩
      power := ⟨r.power.1, r.power.2, false⟩
      pan := ⟨r.pan.1, r.pan.2, false⟩
      slots := r.slots.getD s.flash.slots }
    silicon := {
      badChans := r.badChannels.foldl (fun (m : NSet) (c : Fin 384) => NSet.ins m c.val) []
      badLinks := r.badLinks.foldl (fun (m : Map Nat) (x : Fin 12 × Fin 3) =>
        Map.put m (x.1.val * 3 + x.2.val) (Map.getD m (x.1.val * 3 + x.2.val) 0 + 1)) []
      repairs := r.repairs } }

theorem exec_powerGoodRise_rails {s : State} {b : BootReport} (h : s.pins.pwrGood = false) (hr : b.railsOk = true) :
    exec (.powerGoodRise b) s = .next ((s.reported b).bringUp true b.pufOk) := by
  show execPowerGoodRise b s = _
  unfold execPowerGoodRise
  rw [if_neg (by rw [h]; exact Bool.false_ne_true)]
  dsimp only
  rw [if_neg (by rw [hr]; decide)]
  rfl

theorem exec_powerGoodRise_silent {s : State} {b : BootReport} (h : s.pins.pwrGood = false) (hr : b.railsOk = false) :
    ∃ t : State, exec (.powerGoodRise b) s = .next t ∧ t.pins.pwrGood = true ∧ t.boot.phase = 4 ∧ t.pins.brdAlertN = false ∧ t.regs = s.regs := by
  show ∃ t, execPowerGoodRise b s = .next t ∧ _
  unfold execPowerGoodRise
  rw [if_neg (by rw [h]; exact Bool.false_ne_true)]
  dsimp only
  rw [if_pos (by rw [hr]; decide)]
  exact ⟨_, rfl, rfl, rfl, rfl, rfl⟩

/-- The flash that a report describes is usable. -/
theorem usable_reported (s : State) (b : BootReport) : Usable (s.reported b).flash.nextBoot ↔
    b.flashOk = true ∧ 4 ≤ b.counters ∧ (∃ x ∈ b.sku, GoodSig x) ∧ (∃ x ∈ b.leakage, GoodSig x) ∧
      ∀ x ∈ [b.mgmt, b.power, b.pan], GoodImage s.flash.fwSvn x.1 ∨ GoodImage s.flash.fwSvn x.2 := by
  have hans : (s.reported b).flash.nextBoot.answers = (b.flashOk && decide (b.counters ≥ 4)) := rfl
  unfold Usable
  rw [hans, Bool.and_eq_true, decide_eq_true_eq, and_assoc]
  simp only [List.mem_cons, List.not_mem_nil, or_false, forall_eq_or_imp, forall_eq]
  rfl

theorem exec_powerGoodRise_boots {s : State} {b : BootReport} (h : s.pins.pwrGood = false) (hr : b.railsOk = true)
    (hu : Usable (s.reported b).flash.nextBoot) : ∃ t : State, exec (.powerGoodRise b) s = .next t ∧ t.pins.pwrGood = true ∧
      t.flash.incarnation = s.flash.incarnation + 1 ∧ t.boot.phase = 1 ∧ t.pins.devPwrGd = [true, s.flash.order == .sab] ∧
      TakesBank s.flash.fwSvn t.flash.mgmt.run b.mgmt.1 b.mgmt.2 ∧ TakesBank s.flash.fwSvn t.flash.power.run b.power.1 b.power.2 ∧
      TakesBank s.flash.fwSvn t.flash.pan.run b.pan.1 b.pan.2 ∧
      t.rf .secSts 23 16 = (if t.flash.mgmt.run = true then b.mgmt.2 else b.mgmt.1).svn.toNat ∧
      t.rf .secSts 11 8 = (if !anyCopy b.helper then 1 else if b.pufOk then 0 else 2) := by
  rw [exec_powerGoodRise_rails h hr]
  obtain ⟨m, p, d, hstart, tm, tp, td⟩ := Flash.start_of_usable hu
  obtain ⟨hphase, hdev, hgood, hfw, -, hsvn, hpuf⟩ := State.bringUp_starts true b.pufOk hstart
  generalize (s.reported b).bringUp true b.pufOk = t at *
  have hrun : t.flash.mgmt.run = m ∧ t.flash.power.run = p ∧ t.flash.pan.run = d ∧ t.flash.incarnation = s.flash.incarnation + 1 := by
    rw [hfw]
    exact ⟨rfl, rfl, rfl, rfl⟩
  obtain ⟨rm, rp, rd, rinc⟩ := hrun
  refine ⟨t, rfl, hgood, rinc, hphase, hdev, rm ▸ tm, rp ▸ tp, rd ▸ td, ?_, hpuf⟩
  rw [hsvn, rm]
  cases m <;> rfl

theorem exec_powerGoodRise_recovers {s : State} {b : BootReport} (h : s.pins.pwrGood = false) (hr : b.railsOk = true)
    (hu : ¬ Usable (s.reported b).flash.nextBoot) : ∃ t : State, exec (.powerGoodRise b) s = .next t ∧ t.pins.pwrGood = true ∧
      t.flash.incarnation = s.flash.incarnation + 1 ∧ t.boot.phase = 3 ∧ t.pins.devPwrGd = [false, false] ∧
      t.pins.alertN = [false, false] ∧ t.rf .secSts 2 2 = 1 := by
  rw [exec_powerGoodRise_rails h hr, State.bringUp_none true b.pufOk (Flash.start_of_not_usable hu)]
  obtain ⟨h1, h2, h3, h4, h5, h6, -⟩ := ((s.reported b).flashSet (s.reported b).flash.nextBoot).enterRecovery_spec
  exact ⟨_, rfl, h5, by rw [h6]; rfl, h1, h2, h3, h4⟩

theorem exec_powerGoodFall {s : State} (h : s.pins.pwrGood = true) : exec .powerGoodFall s = .next s.powerLoss := if_pos h

/-- What the loss of power leaves (R408). -/
theorem State.powerLoss_spec (s : State) : s.powerLoss.regs = [] ∧ s.powerLoss.heap = [] ∧ s.powerLoss.pool = [] ∧
    s.powerLoss.groups = [] ∧ s.powerLoss.queues = [] ∧ s.powerLoss.ras = [] ∧ s.powerLoss.boot.phase = 0 ∧
    s.powerLoss.flash = s.flash ∧ s.powerLoss.hostMem = s.hostMem := ⟨rfl, rfl, rfl, rfl, rfl, rfl, rfl, rfl, rfl⟩

/-- COLD_RST_N is low. -/
def State.coldRstLow (s : State) : State := { s with pins := { s.pins with coldRstN := false } }

theorem State.coldRstLow_spec (s : State) : s.coldRstLow.pins.coldRstN = false ∧ s.coldRstLow.heap = s.heap := ⟨rfl, rfl⟩

/-- Asking for a step keeps the pins and the Heaps. -/
theorem State.askReset_keeps (s : State) (r : ResetReq) : (s.askReset r false).pins = s.pins ∧ (s.askReset r false).heap = s.heap := by
  rw [State.askReset_eq]
  split
  · exact ⟨rfl, rfl⟩
  · split
    · exact ⟨rfl, rfl⟩
    · exact ⟨rfl, rfl⟩

theorem exec_coldRstAssert (s : State) : ∃ t : State, exec .coldRstAssert s = .next t ∧ t.pins.coldRstN = false ∧ t.heap = s.heap ∧
    (s.alive = true → Covers t 5 0 0 0) := by
  have hexec : exec .coldRstAssert s = .next (if s.alive then s.coldRstLow.askReset (s.coldRstLow.newReset 5 0 0 0 0 0) false
      else s.coldRstLow) := rfl
  rw [hexec]
  obtain ⟨hpin, hheap⟩ := s.coldRstLow_spec
  generalize s.coldRstLow = u at *
  split
  case isTrue =>
    obtain ⟨hp, hh⟩ := u.askReset_keeps (u.newReset 5 0 0 0 0 0)
    obtain ⟨-, hcov⟩ := u.askReset_covers (r := u.newReset 5 0 0 0 0 0) false (show 3 ≤ 5 ∧ 5 ≤ 6 by decide)
    exact ⟨_, rfl, by rw [hp, hpin], hh.trans hheap, fun _ => hcov⟩
  case isFalse h => exact ⟨_, rfl, hpin, hheap, fun h' => absurd h' h⟩

/-! ### Rails (R408, Table 25-4) -/

theorem exec_railFault {s : State} (h : s.alive = true) (r : Rail) : exec (.railFault r) s = match r with
    | .core _ => .next s
    | .sram d => .next (s.supplyReset d.val false)
    | .heap d => .next (s.supplyReset d.val false)
    | .lnk d => .next (s.portLost d.val)
    | .lnkh d => .next (s.portLost d.val)
    | .ucie => .next ((({ s with pins := { s.pins with devPwrGd := [false, false] } } : State).hostLinkLost 0).hostLinkLost 1)
    | .weir => .next (s.supplyReset 12 true)
    | .v1v8 => .next s.powerLoss
    | .v1v2 => .next s := by
  have hrun : (!s.alive) = false := by rw [h]; rfl
  cases r <;> exact if_neg (by rw [hrun]; exact Bool.false_ne_true)

/-- A ready bit that is written leaves the others. -/
theorem State.readyFn_setReadyFn_other (s : State) {i j : Nat} (b : Bool) (h : j ≠ i) : (s.setReadyFn i b).readyFn j = s.readyFn j := by
  unfold State.setReadyFn
  split
  · rfl
  · rw [Bool.eq_iff_iff]
    unfold State.readyFn
    rw [State.reg_congr (regs_fire _ _ _), bit_eq_fld, bit_eq_fld]
    have hrf := State.rf_setRf_other s .glbReadyFn (b2n b) (hi := i) (lo := i) (hi' := j) (lo' := j) le_rfl (by omega)
    unfold State.rf at hrf
    rw [hrf]

theorem State.portLost_spec (s : State) {k : Nat} (hk : k < 12) : (s.portLost k).readyFn (20 + k) = false ∧
    ∀ j, j < 4 → (s.portLost k).subUp (k * 4 + j) = false := by
  unfold State.portLost
  obtain ⟨hdown, -⟩ := s.subDowns_spec k
  generalize (List.range 4).foldl (fun (t : State) j => t.subDown (k * 4 + j)) s = u at *
  obtain ⟨hbit, -, hreg⟩ := u.setReadyFn_spec (20 + k) false
  refine ⟨hbit, fun j hj => (subUp_congr (hreg _ ?_)).trans (hdown j hj).1⟩
  simp only [Reg.key]
  omega

theorem State.readyFn_hostLinkLost_other (s : State) (i : Fin 2) {j : Nat} (h : j ≠ i.val) : (s.hostLinkLost i.val).readyFn j = s.readyFn j := by
  obtain ⟨hready, -, -⟩ := Reg.linkKey_ne i
  rw [State.hostLinkLost_eq]
  have hclear : (s.linkCleared (.hstLinkSts i.val)).reg .glbReadyFn = s.reg .glbReadyFn := by
    unfold State.linkCleared
    rw [State.reg_setRf_of_ne _ _ _ _ hready.symm, State.reg_setRf_of_ne _ _ _ _ hready.symm, State.reg_setRf_of_ne _ _ _ _ hready.symm]
  generalize s.linkCleared (.hstLinkSts i.val) = u at *
  have hother := u.readyFn_setReadyFn_other (i := i.val) false h
  generalize u.setReadyFn i.val false = v at *
  obtain ⟨hregs, -⟩ := v.retrainMarked_spec i.val false
  unfold State.readyFn at *
  rw [State.reg_congr hregs, hother, hclear]

theorem exec_railFault_ucie {s : State} (h : s.alive = true) : ∃ t : State, exec (.railFault .ucie) s = .next t ∧ t.readyFn 0 = false ∧
    t.readyFn 1 = false ∧ t.pins.devPwrGd = [false, false] := by
  rw [exec_railFault h]
  have hdev : ({ s with pins := { s.pins with devPwrGd := [false, false] } } : State).pins.devPwrGd = [false, false] := rfl
  generalize ({ s with pins := { s.pins with devPwrGd := [false, false] } } : State) = u at *
  obtain ⟨-, -, -, h0, -, hp0, -⟩ := u.hostLinkLost_spec (0 : Fin 2) (t := u.hostLinkLost 0) rfl
  generalize u.hostLinkLost 0 = v at *
  obtain ⟨-, -, -, h1, -, hp1, -⟩ := v.hostLinkLost_spec (1 : Fin 2) (t := v.hostLinkLost 1) rfl
  exact ⟨_, rfl, (v.readyFn_hostLinkLost_other (1 : Fin 2) (by decide)).trans h0, h1, by rw [hp1, hp0, hdev]⟩

/-! ### Firmware that does not start, and recovery (R383) -/

theorem Flash.start_none_iff (f : Flash) : f.start = none ↔ ¬ Usable f := by
  refine ⟨fun h hu => ?_, Flash.start_of_not_usable⟩
  obtain ⟨m, p, d, hs, -⟩ := Flash.start_of_usable hu
  rw [h] at hs
  cases hs

theorem SameFirmware.usable {f g : Flash} (h : SameFirmware f g) : Usable g ↔ Usable f := by
  unfold SameFirmware at h
  rw [h]
  rfl

theorem Flash.usable_nextBoot (f : Flash) : Usable f.nextBoot ↔ Usable f := Iff.rfl

theorem exec_mgmtStartTimeout_spec {s : State} (hp : s.boot.phase = 1) (hr : s.readyFn 2 = false) :
    (s.flash.mgmt.bootable s.flash.fwSvn (!s.flash.bank) = true → ∃ t : State, exec .mgmtStartTimeout s = .next t ∧
      t.flash.bank = (!s.flash.bank) ∧ t.boot.phase = 1) ∧
    (s.flash.mgmt.bootable s.flash.fwSvn (!s.flash.bank) = false → ∃ t : State, exec .mgmtStartTimeout s = .next t ∧ t.boot.phase = 3 ∧
      t.rf .secSts 2 2 = 1 ∧ t.pins.alertN = [false, false]) := by
  have hexec : exec .mgmtStartTimeout s = .next (if s.flash.mgmt.bootable s.flash.fwSvn (!s.flash.bank) then
      ((s.logPlain 1 15 0x08 0).flashSet { (s.logPlain 1 15 0x08 0).flash with
        mgmt := { (s.logPlain 1 15 0x08 0).flash.mgmt with run := !s.flash.bank } }).noteFirmware.measureBoot
      else (s.logPlain 1 15 0x08 0).enterRecovery) := by
    show execMgmtStartTimeout s = _
    unfold execMgmtStartTimeout
    rw [if_neg (by rw [hp, hr]; decide)]
    rfl
  rw [hexec]
  have hlog : LogsOnly s (s.logPlain 1 15 0x08 0) := (logsOnly_fresh s).trans (logsOnly_ras _ _)
  generalize s.logPlain 1 15 0x08 0 = u at *
  refine ⟨fun hb => ?_, fun hb => ?_⟩
  · rw [if_pos hb]
    have hset : (u.flashSet { u.flash with mgmt := { u.flash.mgmt with run := !s.flash.bank } }).flash.bank = (!s.flash.bank) ∧
        (u.flashSet { u.flash with mgmt := { u.flash.mgmt with run := !s.flash.bank } }).boot = u.boot := ⟨rfl, rfl⟩
    obtain ⟨hbank, hboot⟩ := hset
    generalize u.flashSet { u.flash with mgmt := { u.flash.mgmt with run := !s.flash.bank } } = v at *
    have hm := (logsOnly_noteFirmware v).trans (measures_measureBoot v.noteFirmware).logs
    exact ⟨_, rfl, by rw [hm.flash, hbank], by rw [LogsOnly.boot hm, hboot, LogsOnly.boot hlog, hp]⟩
  · rw [hb, if_neg Bool.false_ne_true]
    obtain ⟨h1, -, h3, h4, -⟩ := u.enterRecovery_spec
    exact ⟨_, rfl, h1, h4, h3⟩

theorem bootKeeps_mapOutFailed (s : State) : BootKeeps s s.mapOutFailed := .foldl bootKeeps_mapOut _ s

theorem bootKeeps_readyLost (s : State) : BootKeeps s s.readyLost := by
  unfold State.readyLost
  split
  · exact .of_logs (logsOnly_fire s 0 3)
  · exact .refl s

/-- The state from which a cold reset boots: no memory holds a byte, and the flash has its firmware (Table 22-4). -/
theorem State.coldReset_base (s : State) : ∃ (u : State) (puf : Bool), s.coldReset = u.bringUp true puf ∧ SameFirmware s.flash u.flash ∧
    u.heap = [] ∧ u.pool = [] ∧ u.mboxReq = [] ∧ u.mboxRsp = [] := by
  have hfw := ((bootKeeps_readyLost s).trans (bootKeeps_mapOutFailed _)).fw
  unfold State.coldReset
  dsimp only
  generalize s.readyLost.mapOutFailed = v at *
  exact ⟨_, _, rfl, hfw, rfl, rfl, rfl, rfl⟩

/-- A cold reset boots where the flash lets it, and otherwise enters recovery (R370, R383). -/
theorem State.coldReset_spec (s : State) : s.coldReset.heap = [] ∧
    (Usable s.flash → s.coldReset.boot.phase = 1 ∧ ∃ (g : Flash) (m p d : Bool), SameFirmware s.flash g ∧
      SameFirmware (g.nextBoot.withRuns m p d) s.coldReset.flash) ∧
    (¬ Usable s.flash → s.coldReset.boot.phase = 3 ∧ ∃ g : Flash, SameFirmware s.flash g ∧ s.coldReset.flash = g.nextBoot) := by
  obtain ⟨u, puf, heq, hfw, hheap, -⟩ := s.coldReset_base
  rw [heq]
  by_cases hu : Usable s.flash
  · obtain ⟨m, p, d, hstart, -⟩ := Flash.start_of_usable (f := u.flash.nextBoot) (hfw.usable.mpr hu)
    have hb := State.bringUp_starts true puf hstart
    generalize u.bringUp true puf = t at *
    refine ⟨List.sublist_nil.mp (hheap ▸ hb.heap), fun _ => ⟨hb.phase, u.flash, m, p, d, hfw, hb.fw⟩, fun h => absurd hu h⟩
  · rw [State.bringUp_none true puf (Flash.start_of_not_usable (fun h => hu (hfw.usable.mp h)))]
    obtain ⟨h1, -, -, -, -, h6, h7⟩ := (u.flashSet u.flash.nextBoot).enterRecovery_spec
    exact ⟨by rw [h7]; exact hheap, fun h => absurd h hu, fun _ => ⟨h1, u.flash, hfw, h6⟩⟩

/-- Bank A of one of the three images. -/
def Flash.bankA (f : Flash) (what : Firmware) : Image := (match what with | .mgmt => f.mgmt | .power => f.power | .pan => f.pan).a

theorem SameFirmware.bankA {f g : Flash} (h : SameFirmware f g) (what : Firmware) : g.bankA what = f.bankA what := by
  unfold SameFirmware at h
  rw [h]
  cases what <;> rfl

theorem exec_recoveryImage_spec {s : State} (hp : s.boot.phase = 3) (what : Firmware) (img : Image) {placed : Flash}
    (hplaced : s.flash.modBanks what (fun x => { x with a := img }) = placed) :
    (img.sig ≠ ⟨true, true, true, true⟩ → ∃ t : State, exec (.recoveryImage ⟨what, img⟩) s = .next t ∧ t.flash = placed ∧
      t.boot.phase = 3 ∧ t.heap = s.heap) ∧
    (img.sig = ⟨true, true, true, true⟩ → ∃ t : State, exec (.recoveryImage ⟨what, img⟩) s = .next t ∧ t.flash.bankA what = img ∧
      t.heap = [] ∧ (t.boot.phase = 1 ↔ placed.start ≠ none)) := by
  have hok : imageOk img = true ↔ img.sig = ⟨true, true, true, true⟩ := sigOk_iff img.sig
  have hexec : exec (.recoveryImage ⟨what, img⟩) s = .next (if imageOk img then (s.flashSet placed).coldReset else s.flashSet placed) := by
    show execRecoveryImage ⟨what, img⟩ s = _
    unfold execRecoveryImage
    rw [if_neg (by rw [hp]; decide), ← hplaced]
    rfl
  have hset : (s.flashSet placed).flash = placed ∧ (s.flashSet placed).boot.phase = 3 ∧ (s.flashSet placed).heap = s.heap := ⟨rfl, hp, rfl⟩
  obtain ⟨hf, hph, hh⟩ := hset
  rw [hexec]
  generalize s.flashSet placed = u at *
  refine ⟨fun hbad => ?_, fun hgood => ?_⟩
  · rw [if_neg (fun h => hbad (hok.mp h))]
    exact ⟨u, rfl, hf, hph, hh⟩
  · rw [if_pos (hok.mpr hgood)]
    have hbank : placed.bankA what = img := by
      rw [← hplaced]
      cases what <;> rfl
    obtain ⟨hheap, hstart, hrec⟩ := u.coldReset_spec
    generalize u.coldReset = t at *
    rw [hf] at hstart hrec
    have hiff : placed.start ≠ none ↔ Usable placed := by
      rw [ne_eq, placed.start_none_iff, not_not]
    by_cases hu : Usable placed
    · obtain ⟨h1, g, m, p, d, hg, ht⟩ := hstart hu
      refine ⟨t, rfl, ?_, hheap, iff_of_true h1 (hiff.mpr hu)⟩
      rw [ht.bankA, ← hbank, ← hg.bankA]
      cases what <;> rfl
    · obtain ⟨h3, g, hg, ht⟩ := hrec hu
      refine ⟨t, rfl, ?_, hheap, iff_of_false (by rw [h3]; decide) (fun h => hu (hiff.mp h))⟩
      rw [ht, ← hbank, ← hg.bankA]
      cases what <;> rfl

end Sys2Proof.Machine

set_option linter.all false

/-! ## Ready bits, the end of bring-up, and lockstep (R361, R379, R380) -/

namespace Sys2Proof.Machine
open Sys2Proof

/-- PF0 vector 3 has been sent, or waits behind its mask. -/
def Vector3 (s : State) : Prop := Out.msix 0 0 3 ∈ s.out ∨ (Map.getD s.msix 3 ⟨0, 0, true, false⟩).pend = true

theorem vector3_fire (s : State) : Vector3 (s.fire 0 3) := by
  unfold State.fire
  dsimp only
  split
  · refine .inr ?_
    show (Map.getD (Map.put s.msix 3 _) 3 _).pend = true
    unfold Map.getD
    rw [Map.find?_put_same]
    rfl
  · exact .inl (List.mem_cons_self ..)

theorem Vector3.congr {s t : State} (hout : t.out = s.out) (hmsix : t.msix = s.msix) (h : Vector3 s) : Vector3 t := by
  unfold Vector3 at *
  rwa [hout, hmsix]

theorem vector3_setReadyFn {s : State} {i : Nat} (h : s.readyFn i = false) : Vector3 (s.setReadyFn i true) := by
  unfold State.setReadyFn
  rw [if_neg (by rw [h]; decide)]
  exact vector3_fire _

theorem vector3_setBasinReady {s : State} {b : Nat} (h : s.basinReady b = false) : Vector3 (s.setBasinReady b true) := by
  unfold State.setBasinReady
  rw [if_neg (by rw [h]; decide)]
  exact vector3_fire _

theorem vector3_setChanReady {s : State} {c : Nat} (h : s.chanReady c = false) : Vector3 (s.setChanReady c true) := by
  unfold State.setChanReady
  rw [if_neg (by rw [h]; decide)]
  exact vector3_fire _

theorem State.msix_setRf (s : State) (r : Reg) (hi lo v : Nat) : (s.setRf r hi lo v).msix = s.msix := rfl

theorem State.adoptUnit_msix (s : State) (u : Nat) : (s.adoptUnit u).msix = s.msix := by
  have hvals : ∀ es : List (Word × Word), (s.adoptVals u es).msix = s.msix := fun es => by
    refine foldl_keeps (P := fun v : State => v.msix = s.msix) (fun v x h => ?_) es s rfl
    split
    · split <;> exact h
    · exact h
  have hnext : ∀ (t : State) (c : Commit), (t.commitNext c u 2).msix = t.msix := fun t c => by
    unfold State.commitNext
    dsimp only
    split
    · exact State.msix_setRf _ _ _ _ _
    · exact State.msix_setRf _ _ _ _ _
  unfold State.adoptUnit
  split
  · rfl
  · split
    · exact ((hnext _ _).trans (State.msix_setRf _ _ _ _ _)).trans (hvals _)
    · rfl

theorem Vector3.adoptUnit {s : State} (h : Vector3 s) (u : Nat) : Vector3 (s.adoptUnit u) :=
  h.congr (s.adoptUnit_sends u).1 (s.adoptUnit_msix u)

theorem State.readyFn_adoptUnit (s : State) (u i : Nat) : (s.adoptUnit u).readyFn i = s.readyFn i := by
  unfold State.readyFn
  rw [(adopts_adoptUnit s u).regs .glbReadyFn (by simp only [Reg.key]; omega)]

theorem State.regs_returnDie (s : State) (d : Nat) : (s.returnDie d).regs = s.regs :=
  foldl_keeps (f := State.poisonLine) (P := fun u : State => u.regs = s.regs) (fun u line h => h) (s.linesHomed d) s rfl

/-- What SHARED clears as it comes into service. -/
def State.sharedCleared (s : State) : State := { s with
  heap := Map.keep s.heap (fun k => k % 2 ^ 24 < s.deepSize)
  heapPoison := s.heapPoison.filter (fun x => x * 32 % 2 ^ 24 < s.deepSize)
  coh := ⟨[], [], [], [], []⟩
  icache := [] }

/-- A ready bit that may be set is set, and reported by PF0 vector 3 (R379). -/
theorem exec_readyBitSet_spec {s : State} (hp : s.boot.phase = 1 ∨ s.boot.phase = 2) (b : ReadyBit) (hf : readyCode b ∉ s.boot.failedBits)
    (hb : s.bitSet b = false) (hc : s.canReady b = true) :
    ∃ t : State, exec (.readyBitSet b) s = .next t ∧ t.bitSet b = true ∧ Vector3 t ∧
      (b = .shared → t.coh.l1 = [] ∧ t.coh.dir = [] ∧ ∀ k, s.deepSize ≤ k % 2 ^ 24 → t.heap.read k = 0) := by
  have hgo : ¬ ((!(s.boot.phase == 1 || s.boot.phase == 2) || s.boot.failedBits.contains (readyCode b) || s.bitSet b || !s.canReady b) = true) := by
    have hcont : s.boot.failedBits.contains (readyCode b) = false := by
      rw [Bool.eq_false_iff, ne_eq, List.contains_iff_mem]
      exact hf
    rw [hcont, hb, hc]
    rcases hp with hp | hp <;> rw [hp] <;> decide
  have hset : ∀ (u : State) (i : Nat), u.readyFn i = false → (u.setReadyFn i true).readyFn i = true ∧ Vector3 (u.setReadyFn i true) :=
    fun u i h => ⟨(u.setReadyFn_spec i true).1, vector3_setReadyFn h⟩
  have hexec : exec (.readyBitSet b) s = execReadyBitSet b s := rfl
  rw [hexec]
  unfold execReadyBitSet
  rw [if_neg hgo]
  cases b with
  | link k =>
    obtain ⟨hbit, hvec⟩ := hset s (20 + k.val) hb
    exact ⟨_, rfl, (State.readyFn_adoptUnit _ _ _).trans hbit, hvec.adoptUnit _, fun h => by cases h⟩
  | pan d =>
    have hdown : (if s.dieReset.contains d.val then s.returnDie d.val else s).readyFn (8 + d.val) = false := by
      split
      · unfold State.readyFn
        rw [State.reg_congr (s.regs_returnDie d.val)]
        exact hb
      · exact hb
    obtain ⟨hbit, hvec⟩ := hset _ _ hdown
    exact ⟨_, rfl, (State.readyFn_adoptUnit _ _ _).trans hbit, hvec.adoptUnit _, fun h => by cases h⟩
  | shared =>
    have hdown : s.sharedCleared.readyFn 4 = false := hb
    have hl1 : s.sharedCleared.coh = ⟨[], [], [], [], []⟩ := rfl
    have hheap : s.sharedCleared.heap = Map.keep s.heap (fun k => k % 2 ^ 24 < s.deepSize) := rfl
    refine ⟨s.sharedCleared.setReadyFn 4 true, rfl, ?_⟩
    generalize s.sharedCleared = u at *
    obtain ⟨hbit, hvec⟩ := hset u 4 hdown
    have hlog := logsOnly_setReadyFn u 4 true
    generalize u.setReadyFn 4 true = t at *
    refine ⟨hbit, hvec, fun _ => ?_⟩
    rw [hlog.coh, hlog.heap, hl1, hheap]
    refine ⟨rfl, rfl, fun k hk => ?_⟩
    rw [Memory.read_keep, if_neg (by simpa using hk)]
    rfl
  | security =>
    obtain ⟨hbit, hvec⟩ := hset s 3 hb
    exact ⟨_, rfl, hbit, hvec, fun h => by cases h⟩
  | mgmt =>
    obtain ⟨hbit, hvec⟩ := hset s 2 hb
    exact ⟨_, rfl, hbit, hvec, fun h => by cases h⟩
  | basin b => exact ⟨_, rfl, s.basinReady_setBasinReady b.val true, vector3_setBasinReady hb, fun h => by cases h⟩
  | chan c => exact ⟨_, rfl, s.chanReady_setChanReady c.val true, vector3_setChanReady hb, fun h => by cases h⟩

/-! ### The end of bring-up (R380) -/

theorem reg_logPlain (s : State) (sev die unit index : Nat) {r : Reg} (h : r.key ∉ rasKeys) : (s.logPlain sev die unit index).reg r = s.reg r :=
  State.reg_ras s.fresh.2 _ h

theorem logsOnly_logPlain (s : State) (sev die unit index : Nat) : LogsOnly s (s.logPlain sev die unit index) :=
  (logsOnly_fresh s).trans (logsOnly_ras _ _)

theorem State.missing_eq (s : State) : ((List.range 12).filter (fun d => !s.dieUp d)).foldl (fun m d => m + 2 ^ d) 0 = s.downMap := by
  unfold State.downMap
  rw [sum_two_pow_ite, List.sum_eq_foldl, List.foldl_map]

theorem State.mem_clearBits {s : State} {d : Nat} (hd : d < 12) (h : s.dieUp d = false) : 8 + d ∈ s.clearBits := by
  unfold State.clearBits
  refine List.mem_append_left _ (List.mem_append_left _ (List.mem_filter.mpr ⟨?_, ?_⟩))
  · exact List.mem_append_right _ (List.mem_map.mpr ⟨d, List.mem_range.mpr (by omega), Nat.add_comm d 8⟩)
  · unfold State.dieUp at h
    rw [h]
    rfl

/-- The state after BOOT_DONE's log entries. -/
def State.bootLogged (s : State) : State :=
  s.clearBits.foldl (fun t c => t.logPlain 2 (readyUnit c).2.2 (readyUnit c).1 (readyUnit c).2.1) (s.setReadyFn 32 true)

theorem exec_bootDone_spec {s : State} (hp : s.boot.phase = 1) : ∃ t : State, exec .bootDone s = .next t ∧ t.boot.phase = 2 ∧
    t.readyFn 32 = true ∧ (∀ d, d < 12 → s.dieUp d = false → 8 + d ∈ t.boot.failedBits) ∧
    ((∃ d, d < 12 ∧ s.dieUp d = false) → ∃ m, Out.packageFault m ∈ t.out ∧ ∀ d, d < 12 → (bit m d = true ↔ s.dieUp d = false)) := by
  obtain ⟨-, hbits⟩ := s.downMap_spec
  have hready : s.bootLogged.readyFn 32 = true := by
    refine foldl_keeps (P := fun u : State => u.readyFn 32 = true) (fun u c h => ?_) _ _ (s.setReadyFn_spec 32 true).1
    unfold State.readyFn at *
    rw [reg_logPlain _ _ _ _ _ (by decide), h]
  have hexec : exec .bootDone s = .next (if s.downMap == 0 then
      { s.bootLogged with boot := { s.bootLogged.boot with phase := 2, failedBits := s.clearBits.filter (· ≥ 2) } }
      else ({ s.bootLogged with boot := { s.bootLogged.boot with phase := 2, failedBits := s.clearBits.filter (· ≥ 2) } } : State).emit
        (.packageFault s.downMap)) := by
    show execBootDone s = _
    unfold execBootDone
    rw [if_neg (by rw [hp]; decide), ← s.missing_eq]
    rfl
  have hfailed : ∀ d, d < 12 → s.dieUp d = false → 8 + d ∈ s.clearBits.filter (· ≥ 2) := fun d hd h =>
    List.mem_filter.mpr ⟨State.mem_clearBits hd h, decide_eq_true (by omega)⟩
  rw [hexec]
  by_cases hnone : (s.downMap == 0) = true
  · rw [if_pos hnone]
    refine ⟨_, rfl, rfl, hready, hfailed, fun ⟨d, hd, hdown⟩ => ?_⟩
    have hbit := (hbits d hd).mpr hdown
    rw [beq_iff_eq.mp hnone] at hbit
    exact absurd hbit (by unfold bit; rw [Nat.zero_div]; decide)
  · rw [if_neg hnone]
    exact ⟨_, rfl, rfl, hready, hfailed, fun _ => ⟨s.downMap, List.mem_cons_self .., hbits⟩⟩

/-! ### Lockstep (R361) -/

/-- The state at the end of a mailbox command, before its status. -/
def State.mboxDone (s : State) (rsp : List Byte) : State := { s with
  mbox := none
  mboxRsp := s.mboxRsp.writeBytes 0 rsp }

theorem logsOnly_mboxEnd (s : State) (err : Nat) (rsp : List Byte) : LogsOnly (s.mboxDone rsp) (s.mboxEnd err rsp) :=
  (((logsOnly_setRf _ _ _ _ _).trans (logsOnly_setRf _ _ _ _ _)).trans (logsOnly_setRf _ _ _ _ _)).trans (logsOnly_fire _ _ _)

theorem ras_mboxEnd (s : State) (err : Nat) (rsp : List Byte) : (s.mboxEnd err rsp).ras = s.ras := by
  have h : ∀ u : State, (((u.setRf .mboxSts 39 24 rsp.length).setRf .mboxSts 23 16 err).setRf .mboxSts 3 0 2).ras = u.ras := fun u => by
    rw [State.ras_setRf, State.ras_setRf, State.ras_setRf]
  exact (ras_fire _ _ _).trans (h (s.mboxDone rsp))

/-- A second mismatch within 10 s. -/
def State.mismatchesAgain (s : State) : Bool := s.boot.lastMismatch != 0 && s.weirCtr.toNat + 1 ≤ s.boot.lastMismatch + 1000000000

theorem State.mismatchesAgain_iff (s : State) : s.mismatchesAgain = true ↔
    s.boot.lastMismatch ≠ 0 ∧ s.weirCtr.toNat + 1 ≤ s.boot.lastMismatch + 1000000000 := by
  unfold State.mismatchesAgain
  rw [Bool.and_eq_true, bne_iff_ne, decide_eq_true_eq]

/-- The log entry of a mismatch. -/
def State.mismatchEntry (s : State) : RasEntry := rasOf 0x0D 2 15 0x08 0 (s.boot.mismatches + 1)

/-- The state in which both cores have halted. -/
def State.mismatched (s : State) : State := { s with
  bitternLog := { s.mismatchEntry with time := s.weirCtr.toNat } :: s.bitternLog
  boot := { s.boot with
    mismatches := s.boot.mismatches + 1
    lastMismatch := s.weirCtr.toNat + 1
    mgmtDown := true
    mgmtHalted := s.mismatchesAgain }
  power := { s.power with heldCap := some s.effCap } }

/-- A command in progress ends with ERR 1 as the controller stops. -/
def State.mboxStopped (s : State) : State := if s.mbox.isSome then s.mboxEnd 1 [] else s

theorem State.mboxStopped_spec (s : State) : s.mboxStopped.mbox = none ∧ s.mboxStopped.boot = s.boot ∧ s.mboxStopped.power = s.power ∧
    s.mboxStopped.ras = s.ras ∧ s.mboxStopped.bitternLog = s.bitternLog := by
  unfold State.mboxStopped
  split
  · have hlog := logsOnly_mboxEnd s 1 []
    have hras := ras_mboxEnd s 1 []
    have hdone : (s.mboxDone []).mbox = none ∧ (s.mboxDone []).boot = s.boot ∧ (s.mboxDone []).power = s.power ∧
        (s.mboxDone []).bitternLog = s.bitternLog := ⟨rfl, rfl, rfl, rfl⟩
    obtain ⟨h1, h2, h3, h4⟩ := hdone
    generalize s.mboxEnd 1 [] = t at *
    generalize s.mboxDone [] = u at *
    exact ⟨by rw [hlog]; exact h1, by rw [hlog]; exact h2, by rw [hlog]; exact h3, hras, by rw [hlog]; exact h4⟩
  · exact ⟨Option.not_isSome_iff_eq_none.mp (by assumption), rfl, rfl, rfl, rfl⟩

/-- Both alerts are asserted. -/
def State.Alerted (s : State) : Prop := s.pins.alertN = [false, false] ∧ s.pins.brdAlertN = false

theorem exec_lockstepMismatch_spec {s : State} (h : s.mgmtServes = true) : ∃ t : State, exec .lockstepMismatch s = .next t ∧
    t.boot.mgmtDown = true ∧ t.mgmtServes = false ∧ t.mbox = none ∧ t.power.heldCap = some s.effCap ∧ (∃ e ∈ t.ras, e.cls = 0x0D) ∧
    (∃ e ∈ t.bitternLog, e.cls = 0x0D) ∧ t.boot.mgmtHalted = s.mismatchesAgain ∧ (s.mismatchesAgain = true → t.Alerted) := by
  have hexec : exec .lockstepMismatch s = .next (if s.mismatchesAgain then (s.mismatched.ras_ s.mismatchEntry).mboxStopped.alert
      else (s.mismatched.ras_ s.mismatchEntry).mboxStopped) := by
    show execLockstepMismatch s = _
    unfold execLockstepMismatch
    rw [if_neg (by rw [h]; decide)]
    rfl
  rw [hexec]
  obtain ⟨x, hx, hcls, -⟩ := s.mismatched.stored_ras s.mismatchEntry (.inr (by decide : (2 : Nat) ≠ 0))
  have hlog := logsOnly_ras s.mismatched s.mismatchEntry
  have hdown : s.mismatched.boot.mgmtDown = true ∧ s.mismatched.boot.mgmtHalted = s.mismatchesAgain ∧
      s.mismatched.power.heldCap = some s.effCap ∧ ∃ e ∈ s.mismatched.bitternLog, e.cls = 0x0D :=
    ⟨rfl, rfl, rfl, _, List.mem_cons_self .., rfl⟩
  have hbclass : s.mismatchEntry.cls = 0x0D := rfl
  obtain ⟨hd, hh, hcap, hbittern⟩ := hdown
  generalize s.mismatchEntry = e at *
  generalize s.mismatched = u at *
  generalize u.ras_ e = v at *
  have hboot := LogsOnly.boot hlog
  have hpow : v.power = u.power := by rw [hlog]
  have hbit : v.bitternLog = u.bitternLog := by rw [hlog]
  obtain ⟨hmbox, hboot', hpow', hras', hbit'⟩ := v.mboxStopped_spec
  generalize v.mboxStopped = w at *
  have hwd : w.boot.mgmtDown = true := by rw [hboot', hboot, hd]
  have hwh : w.boot.mgmtHalted = s.mismatchesAgain := by rw [hboot', hboot, hh]
  have hserve : w.mgmtServes = false := by
    unfold State.mgmtServes
    rw [hwd, Bool.not_true, Bool.and_false, Bool.false_and]
  have hwc : w.power.heldCap = some s.effCap := by rw [hpow', hpow, hcap]
  have hwr : ∃ e ∈ w.ras, e.cls = 0x0D := ⟨x, hras' ▸ hx, hcls.trans hbclass⟩
  have hwb : ∃ e ∈ w.bitternLog, e.cls = 0x0D := by rwa [hbit', hbit]
  cases hagain : s.mismatchesAgain with
  | false => exact ⟨w, rfl, hwd, hserve, hmbox, hwc, hwr, hwb, hwh.trans hagain, fun h => by cases h⟩
  | true => exact ⟨w.alert, rfl, hwd, hserve, hmbox, hwc, hwr, hwb, hwh.trans hagain, fun _ => ⟨rfl, rfl⟩⟩

theorem exec_mgmtRestartComplete_spec {s : State} (hd : s.boot.mgmtDown = true) (hh : s.boot.mgmtHalted = false) :
    ∃ t : State, exec .mgmtRestartComplete s = .next t ∧ t.boot.mgmtDown = false ∧ t.power.heldCap = none ∧ t.regs = s.regs ∧
      t.mboxReq = s.mboxReq := by
  refine ⟨_, if_pos (by rw [hd, hh]; rfl), rfl, rfl, rfl, rfl⟩

end Sys2Proof.Machine

set_option linter.all false

/-! ## Power, rails, firmware banks, the ready map and lockstep: the statement (R361, R379 to R383, R407 to R409) -/

namespace Sys2Proof.Machine
open Sys2Proof

/-- A failed rail leads to the step that Table 25-4 names. -/
theorem exec_railFault_spec {s : State} (h : s.alive = true) :
    (∀ d : Fin 12, exec (.railFault (.core d)) s = .next s ∧
      (∀ x ∈ [Rail.sram d, Rail.heap d], ∃ t : State, exec (.railFault x) s = .next t ∧ Covers t 3 d.val 0 0) ∧
      (∀ x ∈ [Rail.lnk d, Rail.lnkh d], ∃ t : State, exec (.railFault x) s = .next t ∧ t.readyFn (20 + d.val) = false ∧
        ∀ j, j < 4 → t.subUp (d.val * 4 + j) = false)) ∧
    (∃ t : State, exec (.railFault .weir) s = .next t ∧ Covers t 4 0 0 0) ∧
    (∃ t : State, exec (.railFault .v1v8) s = .next t ∧ t.regs = [] ∧ t.heap = [] ∧ t.boot.phase = 0) ∧
    exec (.railFault .v1v2) s = .next s := by
  refine ⟨fun d => ⟨exec_railFault h _, ?_, ?_⟩, ⟨_, exec_railFault h _, ?_⟩, ⟨_, exec_railFault h _, rfl, rfl, rfl⟩, exec_railFault h _⟩
  · have hdie := (s.supplyReset_spec d.val false).1
    rw [if_pos d.isLt] at hdie
    intro x hx
    rcases List.mem_pair.mp hx with rfl | rfl
    · exact ⟨_, exec_railFault h _, hdie⟩
    · exact ⟨_, exec_railFault h _, hdie⟩
  · intro x hx
    rcases List.mem_pair.mp hx with rfl | rfl
    · exact ⟨_, exec_railFault h _, s.portLost_spec d.isLt⟩
    · exact ⟨_, exec_railFault h _, s.portLost_spec d.isLt⟩
  · have hweir := (s.supplyReset_spec 12 true).1
    rwa [if_neg (by decide)] at hweir

/-- Settles O51: each boot's flash is usable or not, each rail leads to the step of its row, and each ready bit writes its own field and
fires vector 3. -/
theorem bringUpCompletes : Obligations.bring_up_completes := by
  refine ⟨fun s => ⟨fun hp b => ?_, fun hp => ⟨_, exec_powerGoodFall hp, s.powerLoss_spec⟩, exec_coldRstAssert s, fun ha => ?_⟩,
    fun s => ⟨fun hp hr => exec_mgmtStartTimeout_spec hp hr, fun hp what img => exec_recoveryImage_spec hp what img rfl,
      fun hp b hf hb hc => exec_readyBitSet_spec hp b hf hb hc, fun hp => exec_bootDone_spec hp, fun hs => ?_,
      fun hd hh => exec_mgmtRestartComplete_spec hd hh⟩⟩
  · intro good ok usable takes
    have hiff := usable_reported s b
    cases hr : b.railsOk with
    | false =>
      obtain ⟨t, hexec, h1, h2, h3, h4⟩ := exec_powerGoodRise_silent hp hr
      exact ⟨t, hexec, h1, fun _ => ⟨h2, h3, h4⟩, fun h => (by cases h), fun h => (by cases h), fun h => (by cases h)⟩
    | true =>
      by_cases hu : usable
      · obtain ⟨t, hexec, h1, h2, h3, h4, h5, h6, h7, h8, h9⟩ := exec_powerGoodRise_boots hp hr (hiff.mpr hu)
        have hpuf : t.rf .secSts 11 8 = if ∃ x ∈ b.helper, good x then (if b.pufOk = true then 0 else 2) else 1 := by
          rw [h9]
          split
          case isTrue hnone =>
            rw [Bool.not_eq_true', ← Bool.not_eq_true, anyCopy_iff] at hnone
            exact (if_neg hnone).symm
          case isFalse hcopy =>
            rw [Bool.not_eq_true', Bool.not_eq_false, anyCopy_iff] at hcopy
            exact (if_pos hcopy).symm
        exact ⟨t, hexec, h1, fun h => (by cases h), fun _ => h2,
          fun _ _ => ⟨h3, h4, h5, h6, h7, h8, hpuf⟩, fun _ hn => absurd hu hn⟩
      · obtain ⟨t, hexec, h1, h2, h3, h4, h5, h6⟩ := exec_powerGoodRise_recovers hp hr (fun h => hu (hiff.mp h))
        exact ⟨t, hexec, h1, fun h => (by cases h), fun _ => h2, fun _ h => absurd h hu, fun _ _ => ⟨h3, h4, h5, h6⟩⟩
  · obtain ⟨hdies, hweir, h18, h12⟩ := exec_railFault_spec ha
    exact ⟨hdies, exec_railFault_ucie ha, hweir, h18, h12⟩
  · intro again
    obtain ⟨t, hexec, h1, h2, h3, h4, h5, h6, h7, h8⟩ := exec_lockstepMismatch_spec hs
    exact ⟨t, hexec, h1, h2, h3, h4, h5, h6, by rw [h7]; exact s.mismatchesAgain_iff, fun h => h8 (s.mismatchesAgain_iff.mpr h)⟩

end Sys2Proof.Machine

set_option linter.all false

/-! ## The management controller's services: measurements, attestation, PLDM, MCTP and I3C (R384, R389 to R393, R410) -/

namespace Sys2Proof.Machine
open Sys2Proof

/-! ### Bytes and words -/

theorem ofLe_lt_pow (bs : List Byte) : ofLe bs < 256 ^ bs.length := by
  induction bs with
  | nil => exact Nat.one_pos
  | cons b bs ih =>
    have hb := b.isLt
    simp only [ofLe, List.length_cons, pow_succ]
    omega

theorem leBytes_ofLe (bs : List Byte) : leBytes (ofLe bs) bs.length = bs := by
  induction bs with
  | nil => rfl
  | cons b bs ih =>
    have hb := b.isLt
    have hhead : BitVec.ofNat 8 (b.toNat + 256 * ofLe bs) = b := by
      apply BitVec.eq_of_toNat_eq
      rw [BitVec.toNat_ofNat]
      omega
    have htail : (b.toNat + 256 * ofLe bs) / 256 = ofLe bs := by omega
    simp only [ofLe, List.length_cons, leBytes, hhead, htail, ih]

theorem flatMap_chunks {α : Type} (m : List α) (n : Nat) : (List.range n).flatMap (fun w => (m.drop (8 * w)).take 8) = m.take (8 * n) := by
  induction n with
  | zero => rfl
  | succ n ih => rw [List.range_succ, List.flatMap_append, ih, List.flatMap_singleton, Nat.mul_succ, List.take_add]

/-- A word of bytes holds eight of them. -/
theorem leBytes_wordAt {m : List Byte} {w : Nat} (h : 8 * (w + 1) ≤ m.length) : leBytes (wordAt m w).toNat 8 = (m.drop (8 * w)).take 8 := by
  have hlen : ((m.drop (8 * w)).take 8).length = 8 := by
    rw [List.length_take, List.length_drop]
    omega
  have hlt := ofLe_lt_pow ((m.drop (8 * w)).take 8)
  rw [hlen] at hlt
  have hback := leBytes_ofLe ((m.drop (8 * w)).take 8)
  rw [hlen] at hback
  unfold wordAt
  rw [BitVec.toNat_ofNat, Nat.mod_eq_of_lt (lt_of_lt_of_eq hlt (by norm_num)), hback]

/-! ### SHA-384 gives 48 bytes -/

theorem length_shaRound {v : Sha} (h : v.length = 8) (k : Nat) (w : BitVec 64) : (shaRound v k w).length = 8 := by
  unfold shaRound
  rw [List.length_cons, List.length_set, List.length_take, h]
  rfl

theorem length_shaBlock {h : Sha} (hl : h.length = 8) (bs : List (BitVec 8)) : (shaBlock h bs).length = 8 := by
  unfold shaBlock
  dsimp only
  rw [List.length_map, List.length_zip, hl]
  rw [foldl_keeps (P := fun v : Sha => v.length = 8) (fun v x hv => length_shaRound hv _ _) _ _ hl]
  rfl

theorem length_shaBlocks (m : List (BitVec 8)) (n i : Nat) {h : Sha} (hl : h.length = 8) : (shaBlocks m n i h).length = 8 := by
  induction n generalizing i h with
  | zero => exact hl
  | succ n ih => exact ih (i + 1) (length_shaBlock hl _)

theorem length_shaH : shaH.length = 8 := by
  unfold shaH
  rw [List.length_map]
  decide +kernel

theorem length_sha384 (m : List (BitVec 8)) : (sha384 m).length = 48 := by
  unfold sha384
  dsimp only
  have hl := length_shaBlocks (shaPad m) ((shaPad m).length / 128) 0 (h := shaH.map (BitVec.ofNat 64)) (by rw [List.length_map, length_shaH])
  rw [List.length_flatMap]
  simp only [List.length_map, List.length_range, List.map_const', List.sum_replicate, List.length_take, hl]
  rfl

/-! ### The measurement registers (R391) -/

theorem Reg.secMeasKey {i j w x : Nat} (hw : w < 8) (hx : x < 8) (h : i ≠ j ∨ w ≠ x) : Reg.key (.secMeas i w) ≠ Reg.key (.secMeas j x) := by
  simp only [Reg.key]
  omega

theorem State.reg_setMeasurement (s : State) (i : Nat) (m : List Byte) {w : Nat} (hw : w < 6) :
    (s.setMeasurement i m).reg (.secMeas i w) = (wordAt m w).toNat := by
  refine foldl_of_mem (P := fun u : State => u.reg (.secMeas i w) = (wordAt m w).toNat) (x := w) (fun u x hu => ?_)
    (fun u => State.reg_setReg_same _ _ _) _ _ (List.mem_range.mpr hw)
  by_cases hx : w = x
  · rw [hx, State.reg_setReg_same]
  · rw [State.reg_setReg_of_ne _ _ (by simp only [Reg.key]; omega), hu]

theorem State.reg_setMeasurement_of_ne (s : State) {i : Nat} (m : List Byte) {r : Reg} (h : ∀ w, w < 6 → r.key ≠ Reg.key (.secMeas i w)) :
    (s.setMeasurement i m).reg r = s.reg r :=
  List.foldlRecOn (motive := fun u : State => u.reg r = s.reg r) (List.range 6) _ rfl
    (fun u hu w hw => (State.reg_setReg_of_ne u _ (h w (List.mem_range.mp hw))).trans hu)

theorem State.measurement_congr {s t : State} {i : Nat} (h : ∀ w, w < 6 → t.reg (.secMeas i w) = s.reg (.secMeas i w)) :
    t.measurement i = s.measurement i :=
  List.flatMap_congr (fun w hw => by rw [h w (List.mem_range.mp hw)])

theorem State.measurement_setMeasurement (s : State) (i : Nat) {m : List Byte} (h : m.length = 48) : (s.setMeasurement i m).measurement i = m := by
  unfold State.measurement
  rw [List.flatMap_congr (g := fun w => (m.drop (8 * w)).take 8) (fun w hw => ?_), flatMap_chunks, List.take_of_length_le (by omega)]
  have hw' := List.mem_range.mp hw
  rw [s.reg_setMeasurement i m hw', leBytes_wordAt (by omega)]

theorem State.measurement_extend (s : State) (i : Nat) (d : List Byte) : (s.extend i d).measurement i = sha384 (s.measurement i ++ d) :=
  s.measurement_setMeasurement i (length_sha384 _)

theorem State.measurement_extend_other (s : State) {i j : Nat} (h : j ≠ i) (d : List Byte) : (s.extend i d).measurement j = s.measurement j :=
  State.measurement_congr (fun w hw => s.reg_setMeasurement_of_ne _ (fun x hx => Reg.secMeasKey (by omega) (by omega) (.inl h)))

theorem State.flash_extend (s : State) (i : Nat) (d : List Byte) : (s.extend i d).flash = s.flash :=
  (s.setMeasurement_spec i _).1.flash

/-! ### Alias trees (R389, R390) -/

/-- What the use of an identity leaf leaves. -/
theorem State.useLeaf_spec (s : State) (h : s.flash.idLms < 32768) : s.useLeaf.boot = s.boot ∧ s.useLeaf.flash.idLms = s.flash.idLms + 1 ∧
    s.useLeaf.aliasLeft = s.aliasLeft ∧ s.useLeaf.rf .secSts 63 48 = 32768 - (s.flash.idLms + 1) := by
  unfold State.useLeaf
  dsimp only
  have hset : ({ s with flash := { s.flash with idLms := s.flash.idLms + 1 } } : State).boot = s.boot ∧
      ({ s with flash := { s.flash with idLms := s.flash.idLms + 1 } } : State).flash.idLms = s.flash.idLms + 1 ∧
      ({ s with flash := { s.flash with idLms := s.flash.idLms + 1 } } : State).aliasLeft = s.aliasLeft := ⟨rfl, rfl, rfl⟩
  obtain ⟨hb, hi, ha⟩ := hset
  generalize ({ s with flash := { s.flash with idLms := s.flash.idLms + 1 } } : State) = u at *
  have hlog := logsOnly_setRf u .secSts 63 48 (32768 - (s.flash.idLms + 1))
  have hval : (u.setRf .secSts 63 48 (32768 - (s.flash.idLms + 1))).rf .secSts 63 48 = 32768 - (s.flash.idLms + 1) :=
    State.rf_setRf_of_lt _ _ (by omega) (by omega)
  have hleft : (u.setRf .secSts 63 48 (32768 - (s.flash.idLms + 1))).aliasLeft = u.aliasLeft :=
    State.rf_setRf_other _ _ _ (by omega) (by omega)
  generalize u.setRf .secSts 63 48 (32768 - (s.flash.idLms + 1)) = v at *
  split
  · have hlog' := logsOnly_setRf v .secSts 1 1 1
    have hval' : (v.setRf .secSts 1 1 1).rf .secSts 63 48 = v.rf .secSts 63 48 := State.rf_setRf_other _ _ _ (by omega) (by omega)
    have hleft' : (v.setRf .secSts 1 1 1).aliasLeft = v.aliasLeft := State.rf_setRf_other _ _ _ (by omega) (by omega)
    generalize v.setRf .secSts 1 1 1 = w at *
    exact ⟨by rw [LogsOnly.boot hlog', LogsOnly.boot hlog, hb], by rw [hlog'.flash, hlog.flash, hi], by rw [hleft', hleft, ha], by rw [hval', hval]⟩
  · exact ⟨by rw [LogsOnly.boot hlog, hb], by rw [hlog.flash, hi], by rw [hleft, ha], hval⟩

/-- A spent tree gives way to the certified next one. -/
theorem State.switchTree_spec (s : State) : s.switchTree.flash = s.flash ∧ s.switchTree.out = s.out ∧
    s.switchTree.aliasLeft = (if s.aliasLeft = 0 ∧ s.boot.treeNext ≠ none then 1024 else s.aliasLeft) ∧
    s.switchTree.boot.treeNow = (if s.aliasLeft = 0 ∧ s.boot.treeNext ≠ none then s.boot.treeNext else s.boot.treeNow) ∧
    (¬ (s.aliasLeft = 0 ∧ s.boot.treeNext ≠ none) → s.switchTree.boot.treeNext = s.boot.treeNext) := by
  have hcond : (s.boot.treeNext.isSome && s.aliasLeft == 0) = true ↔ s.aliasLeft = 0 ∧ s.boot.treeNext ≠ none := by
    rw [Bool.and_eq_true, beq_iff_eq, Option.isSome_iff_ne_none, and_comm]
  unfold State.switchTree
  by_cases hc : s.aliasLeft = 0 ∧ s.boot.treeNext ≠ none
  · rw [if_pos (hcond.mpr hc), if_pos hc, if_pos hc]
    have hset : ({ s with boot := { s.boot with treeNow := s.boot.treeNext, treeNext := none } } : State).flash = s.flash ∧
      ({ s with boot := { s.boot with treeNow := s.boot.treeNext, treeNext := none } } : State).out = s.out ∧
      ({ s with boot := { s.boot with treeNow := s.boot.treeNext, treeNext := none } } : State).boot.treeNow = s.boot.treeNext := ⟨rfl, rfl, rfl⟩
    obtain ⟨hf, ho, hn⟩ := hset
    generalize ({ s with boot := { s.boot with treeNow := s.boot.treeNext, treeNext := none } } : State) = u at *
    have hlog := logsOnly_setRf u .secSts 47 32 1024
    have hleft : (u.setRf .secSts 47 32 1024).aliasLeft = 1024 := State.rf_setRf_of_lt _ _ (by omega) (by decide)
    have hout := State.out_setRf u .secSts 47 32 1024
    generalize u.setRf .secSts 47 32 1024 = v at *
    exact ⟨hlog.flash.trans hf, hout.trans ho, hleft, by rw [LogsOnly.boot hlog, hn], fun h => absurd hc h⟩
  · rw [if_neg (fun h => hc (hcond.mp h)), if_neg hc, if_neg hc]
    exact ⟨rfl, rfl, rfl, rfl, fun _ => rfl⟩

/-- The state with the boot's tree, or the next one, certified by the identity leaf that is about to be used. -/
def State.treeTaken (s : State) : State := { s with boot := { s.boot with treeNow := some s.flash.idLms } }
def State.nextTaken (s : State) : State := { s with boot := { s.boot with treeNext := some s.flash.idLms } }

section
variable {s : State} (hp : s.boot.phase = 1 ∨ s.boot.phase = 2) (hpuf : s.boot.puf = 0) (hid : s.flash.idLms < 32768)
include hp hpuf hid

theorem exec_aliasTreeGenerate : exec .aliasTreeGenerate s =
    if s.boot.treeNow.isNone then .next (s.treeTaken.useLeaf.setRf .secSts 47 32 1024)
    else if s.aliasLeft ≤ 64 && s.boot.treeNext.isNone then .next s.nextTaken.useLeaf.switchTree
    else s.idle "more than 64 signatures remain" := by
  refine if_neg ?_
  rw [hpuf, decide_eq_false (Nat.not_le.mpr hid)]
  rcases hp with hp | hp <;> rw [hp] <;> decide

theorem exec_aliasTreeGenerate_first (hn : s.boot.treeNow = none) : ∃ t : State, exec .aliasTreeGenerate s = .next t ∧
    t.boot.treeNow = some s.flash.idLms ∧ t.flash.idLms = s.flash.idLms + 1 ∧ t.rf .secSts 47 32 = 1024 ∧
    t.rf .secSts 63 48 = 32768 - (s.flash.idLms + 1) := by
  rw [exec_aliasTreeGenerate hp hpuf hid, hn]
  obtain ⟨hb, hi, -, hl⟩ := s.treeTaken.useLeaf_spec hid
  have htree : s.treeTaken.boot.treeNow = some s.flash.idLms ∧ s.treeTaken.flash.idLms = s.flash.idLms := ⟨rfl, rfl⟩
  obtain ⟨htree, hleaf⟩ := htree
  rw [hleaf] at hi hl
  generalize s.treeTaken = v at *
  generalize v.useLeaf = u at *
  have hlog := logsOnly_setRf u .secSts 47 32 1024
  have hleft : (u.setRf .secSts 47 32 1024).rf .secSts 47 32 = 1024 := State.rf_setRf_of_lt _ _ (by omega) (by decide)
  have hkeep : (u.setRf .secSts 47 32 1024).rf .secSts 63 48 = u.rf .secSts 63 48 := State.rf_setRf_other _ _ _ (by omega) (by omega)
  generalize u.setRf .secSts 47 32 1024 = t at *
  exact ⟨t, rfl, by rw [LogsOnly.boot hlog, hb, htree], by rw [hlog.flash, hi], hleft, by rw [hkeep, hl]⟩

theorem exec_aliasTreeGenerate_next (hn : s.boot.treeNow ≠ none) (hl : s.aliasLeft ≤ 64) (hx : s.boot.treeNext = none) :
    ∃ t : State, exec .aliasTreeGenerate s = .next t ∧ t.flash.idLms = s.flash.idLms + 1 ∧
      (s.aliasLeft = 0 → t.aliasLeft = 1024 ∧ t.boot.treeNow = some s.flash.idLms) ∧
      (s.aliasLeft ≠ 0 → t.aliasLeft = s.aliasLeft ∧ t.boot.treeNow = s.boot.treeNow ∧ t.boot.treeNext = some s.flash.idLms) := by
  rw [exec_aliasTreeGenerate hp hpuf hid, if_neg (by rwa [Option.isNone_iff_eq_none]), if_pos (by rw [hx, decide_eq_true hl]; rfl)]
  obtain ⟨hb, hi, hleft, -⟩ := s.nextTaken.useLeaf_spec hid
  have htree : s.nextTaken.boot.treeNext = some s.flash.idLms ∧ s.nextTaken.boot.treeNow = s.boot.treeNow ∧
      s.nextTaken.flash.idLms = s.flash.idLms ∧ s.nextTaken.aliasLeft = s.aliasLeft := ⟨rfl, rfl, rfl, rfl⟩
  obtain ⟨htree, hnow, hleaf, halias⟩ := htree
  generalize s.nextTaken = v at *
  generalize v.useLeaf = u at *
  obtain ⟨hsf, -, hsl, hsn, hsx⟩ := u.switchTree_spec
  have hux : u.boot.treeNext = some s.flash.idLms := by rw [hb, htree]
  have hul : u.aliasLeft = s.aliasLeft := by rw [hleft, halias]
  refine ⟨_, rfl, by rw [hsf, hi, hleaf], fun h0 => ?_, fun h0 => ?_⟩
  · have hc : u.aliasLeft = 0 ∧ u.boot.treeNext ≠ none := ⟨hul.trans h0, by rw [hux]; exact Option.some_ne_none _⟩
    rw [if_pos hc] at hsl hsn
    exact ⟨hsl, hsn.trans hux⟩
  · have hc : ¬ (u.aliasLeft = 0 ∧ u.boot.treeNext ≠ none) := fun h => h0 (hul ▸ h.1)
    rw [if_neg hc] at hsl hsn
    exact ⟨hsl.trans hul, by rw [hsn, hb, hnow], (hsx hc).trans hux⟩

end

/-! ### SPDM (R392) -/

theorem length_keyBytes (what n : Nat) (req : List Byte) : (keyBytes what n req).length = n := by
  unfold keyBytes
  rw [List.length_map, List.length_range]

theorem State.length_certChain (s : State) : (s.certChain 1).length = 12 + 2 * 2508 + 2668 := by
  unfold State.certChain
  rw [if_neg (by decide)]
  simp only [List.length_append, length_leBytes, length_keyBytes]

theorem State.spdmServe_down {s : State} (h : s.mgmtServes = false) (f : State → State) : s.spdmServe f = .next s := by
  unfold State.spdmServe
  rw [if_pos (by rw [h]; rfl)]

theorem State.spdmServe_busy {s : State} (h : s.mgmtServes = true) (hr : s.readyFn 3 = false) (f : State → State) :
    s.spdmServe f = .next (s.emit (.spdm 0x7F [3])) := by
  unfold State.spdmServe
  rw [if_neg (by rw [h]; decide), if_pos (by rw [hr]; rfl)]
  rfl

theorem State.spdmServe_up {s : State} (h : s.mgmtServes = true) (hr : s.readyFn 3 = true) (f : State → State) :
    s.spdmServe f = .next (f s) := by
  unfold State.spdmServe
  rw [if_neg (by rw [h]; decide), if_neg (by rw [hr]; decide)]

/-- The requests that are answered only while SECURITY is set. -/
theorem exec_spdmServed (req : List Byte) : ∀ c ∈ [Instr.getCapabilities req, .negotiateAlgorithms req, .getDigests req, .getCertificate 0 0 0,
    .challenge 0 req, .getMeasurements 1 true req], ∃ f : State → State, ∀ s : State, exec c s = s.spdmServe f := by
  intro c hc
  simp only [List.mem_cons, List.not_mem_nil, or_false] at hc
  rcases hc with rfl | rfl | rfl | rfl | rfl | rfl <;> exact ⟨_, fun s => rfl⟩

theorem exec_spdm_up {s : State} (hs : s.mgmtServes = true) (hr : s.readyFn 3 = true) (req : List Byte) :
    exec (.getCapabilities req) s = .next (s.emit (.spdm 0x61 (leBytes 0x16 4))) ∧
    exec (.negotiateAlgorithms req) s = .next (s.emit (.spdm 0x63 (leBytes 0x80 4 ++ leBytes 0x02 4))) ∧
    exec (.getDigests req) s = .next (s.emit (.spdm 0x01 (3 :: sha384 (s.certChain 0) ++ sha384 (s.certChain 1)))) :=
  ⟨State.spdmServe_up hs hr (fun t => t.spdmSend 0x61 (leBytes 0x16 4)),
    State.spdmServe_up hs hr (fun t => t.spdmSend 0x63 (leBytes 0x80 4 ++ leBytes 0x02 4)),
    State.spdmServe_up hs hr (fun t => t.spdmSend 0x01 (3 :: sha384 (t.certChain 0) ++ sha384 (t.certChain 1)))⟩

/-- A signed response uses one signature of the attestation key (R390). -/
theorem State.spdmSign_spec (s : State) (code : Nat) (body : List Byte) (what : Nat) (req : List Byte) (h : s.aliasLeft ≠ 0) :
    (∃ bs, (s.spdmSign code body what req).out = .spdm code bs :: s.out) ∧
    (s.spdmSign code body what req).aliasLeft = (if s.aliasLeft = 1 ∧ s.boot.treeNext ≠ none then 1024 else s.aliasLeft - 1) ∧
    (s.spdmSign code body what req).boot.treeNow = if s.aliasLeft = 1 ∧ s.boot.treeNext ≠ none then s.boot.treeNext else s.boot.treeNow := by
  have hlt : s.aliasLeft < 2 ^ 16 := fld_lt_of _ _ _
  unfold State.spdmSign
  rw [if_neg (by rwa [beq_iff_eq])]
  dsimp only
  have hlog := logsOnly_setRf s .secSts 47 32 (s.aliasLeft - 1)
  have hout := State.out_setRf s .secSts 47 32 (s.aliasLeft - 1)
  have hleft : (s.setRf .secSts 47 32 (s.aliasLeft - 1)).aliasLeft = s.aliasLeft - 1 := State.rf_setRf_of_lt _ _ (by omega) (by omega)
  generalize s.setRf .secSts 47 32 (s.aliasLeft - 1) = u at *
  obtain ⟨-, ho, hl, hn, -⟩ := u.switchTree_spec
  have hb := LogsOnly.boot hlog
  have hiff : (u.aliasLeft = 0 ∧ u.boot.treeNext ≠ none) ↔ (s.aliasLeft = 1 ∧ s.boot.treeNext ≠ none) := by
    rw [hleft, hb]
    exact and_congr_left' (by omega)
  simp only [hiff] at hl hn
  rw [hb] at hn
  rw [hleft] at hl
  generalize u.switchTree = v at *
  exact ⟨⟨_, congrArg (List.cons _) (ho.trans hout)⟩, hl, hn⟩

theorem State.measBlocks_one {s : State} {i : Nat} (h1 : 1 ≤ i) (h8 : i ≤ 8) :
    s.measBlocks i = some (1 :: BitVec.ofNat 8 i :: s.measurement (i - 1)) := by
  unfold State.measBlocks
  rw [if_neg (by rw [beq_iff_eq]; omega), if_pos h8]

theorem exec_getMeasurements_one {s : State} {i : Nat} (h1 : 1 ≤ i) (h8 : i ≤ 8) (hs : s.mgmtServes = true) (hr : s.readyFn 3 = true)
    (signed : Bool) (req : List Byte) : exec (.getMeasurements i signed req) s = .next (
      if signed then s.spdmSign 0x60 (1 :: BitVec.ofNat 8 i :: s.measurement (i - 1)) 13 req
      else s.emit (.spdm 0x60 (1 :: BitVec.ofNat 8 i :: s.measurement (i - 1)))) := by
  show execGetMeasurements i signed req s = _
  unfold execGetMeasurements
  rw [State.spdmServe_up hs hr, State.measBlocks_one h1 h8]
  rfl

theorem exec_challenge_slot {s : State} {slot : Nat} (h : slot ≤ 1) (hs : s.mgmtServes = true) (hr : s.readyFn 3 = true) (req : List Byte) :
    exec (.challenge slot req) s = .next (s.spdmSign 0x03 (BitVec.ofNat 8 slot :: sha384 (s.certChain slot)) 12 req) := by
  show execChallenge slot req s = _
  unfold execChallenge
  rw [State.spdmServe_up hs hr, if_neg (Nat.not_lt.mpr h)]

theorem exec_getCertificate_slot {s : State} {slot : Nat} (h : slot ≤ 1) (hs : s.mgmtServes = true) (hr : s.readyFn 3 = true) (offset length : Nat)
    {part : List Byte} (hpart : ((s.certChain slot).drop offset).take length = part) :
    exec (.getCertificate slot offset length) s = .next (s.emit (.spdm 0x02 (BitVec.ofNat 8 slot ::
      leBytes part.length 2 ++ leBytes ((s.certChain slot).length - offset - part.length) 2 ++ part))) := by
  show execGetCertificate slot offset length s = _
  unfold execGetCertificate
  rw [State.spdmServe_up hs hr]
  dsimp only
  rw [if_neg (Nat.not_lt.mpr h), hpart]
  rfl

/-! ### PLDM, MCTP and I3C (R384, R393, R410) -/

/-- The state in which an image stands in the bank that does not run. -/
def State.imagePut (s : State) (what : Firmware) (img : Image) : State :=
  { s with flash := s.flash.modBanks what (fun x => if x.run = true then { x with a := img } else { x with b := img }) }

theorem exec_pldmFirmwareUpdate_spec {s : State} (h : s.mgmtServes = true) (what : Firmware) (img : Image) :
    ∃ t : State, exec (.pldmFirmwareUpdate ⟨what, img⟩) s = .next t ∧
      t.flash = s.flash.modBanks what (fun x => if x.run = true then { x with a := img } else { x with b := img }) ∧
      t.measurement 5 = sha384 (s.measurement 5 ++ img.digest) ∧ (∀ i, i < 8 → i ≠ 5 → t.measurement i = s.measurement i) := by
  have hexec : exec (.pldmFirmwareUpdate ⟨what, img⟩) s = .next ((s.imagePut what img).extend 5 img.digest) := by
    show execPldmFirmwareUpdate ⟨what, img⟩ s = _
    unfold execPldmFirmwareUpdate
    rw [if_neg (by rw [h]; decide)]
    rfl
  have hmeas : ∀ i, (s.imagePut what img).measurement i = s.measurement i := fun i => rfl
  have hflash : (s.imagePut what img).flash = s.flash.modBanks what (fun x => if x.run = true then { x with a := img } else { x with b := img }) := rfl
  generalize s.imagePut what img = u at *
  exact ⟨_, hexec, (u.flash_extend 5 _).trans hflash, by rw [u.measurement_extend, hmeas],
    fun i _ hi => (u.measurement_extend_other hi _).trans (hmeas i)⟩

theorem exec_mctpControl_spec {s : State} (h : s.mgmtServes = true) (req : List Byte) : ∃ (t : State) (bs : List Byte),
    exec (.mctpControl req) s = .next t ∧ t.out = .mctp bs :: s.out ∧ (req.headD 0 = 1 → t.boot.eid = (req.getD 2 0).toNat) ∧
    (req.headD 0 ≠ 1 → t.boot = s.boot) := by
  show ∃ t bs, execMctpControl req s = .next t ∧ _
  unfold execMctpControl
  rw [if_neg (by rw [h]; decide)]
  dsimp only
  have hiff : ((req.headD 0).toNat == 1) = true ↔ req.headD 0 = 1 := by
    rw [beq_iff_eq, ← BitVec.toNat_inj]
    rfl
  by_cases h1 : req.headD 0 = 1
  · rw [if_pos (hiff.mpr h1)]
    exact ⟨_, _, rfl, rfl, fun _ => rfl, fun hn => absurd h1 hn⟩
  · rw [if_neg (fun hc => h1 (hiff.mp hc))]
    split
    · exact ⟨_, _, rfl, rfl, fun hc => absurd hc h1, fun _ => rfl⟩
    · exact ⟨_, _, rfl, rfl, fun hc => absurd hc h1, fun _ => rfl⟩

/-- Settles O52: a served request is answered by the function of its row, a signed response takes one signature of the attestation key, and an image extends
measurement register 5. -/
theorem managementServicesComplete : Obligations.management_services_complete := by
  refine ⟨fun s => ?_, fun s => ⟨fun addr ha => ⟨_, if_pos ha, rfl⟩, fun hs => ⟨fun d => ?_, fun d => ?_, ?_,
    fun what img => exec_pldmFirmwareUpdate_spec hs what img, fun req => exec_mctpControl_spec hs req⟩⟩⟩
  · intro left up sends signs
    have hsigns : ∀ (c : Instr) (code : Nat) (body : List Byte) (what : Nat) (req : List Byte), left ≠ 0 →
        exec c s = .next (s.spdmSign code body what req) → signs c code := fun c code body what req hl hc => by
      obtain ⟨⟨bs, hout⟩, hleft, htree⟩ := s.spdmSign_spec code body what req hl
      exact ⟨_, bs, hc, hout, hleft, htree⟩
    refine ⟨fun hp hpuf hid => ⟨exec_aliasTreeGenerate_first hp hpuf hid, exec_aliasTreeGenerate_next hp hpuf hid⟩, s.length_certChain,
      fun req => ⟨fun hs => ⟨[2, 0x00, 0x12, 0x00, 0x13], ?_⟩, fun c hc => ?_, fun ⟨hs, hr⟩ => ?_, fun slot offset length ⟨hs, hr⟩ hslot => exec_getCertificate_slot hslot hs hr offset length rfl,
        fun slot ⟨hs, hr⟩ hslot hl => hsigns _ _ _ _ _ hl (exec_challenge_slot hslot hs hr req),
        fun index ⟨hs, hr⟩ h1 h8 => ⟨exec_getMeasurements_one h1 h8 hs hr false req,
          fun hl => hsigns _ _ _ _ _ hl (exec_getMeasurements_one h1 h8 hs hr true req)⟩⟩⟩
    · show execGetVersion req s = _
      unfold execGetVersion
      rw [if_pos hs]
      rfl
    · obtain ⟨f, hf⟩ := exec_spdmServed req c hc
      exact ⟨fun hs => (hf s).trans (State.spdmServe_down hs f), fun hs hr => (hf s).trans (State.spdmServe_busy hs hr f)⟩
    · obtain ⟨h1, h2, h3⟩ := exec_spdm_up hs hr req
      exact ⟨⟨_, h1⟩, ⟨_, h2⟩, ⟨_, h3⟩⟩
  · show execPldmPlatformRequest (.temperature d) s = _
    unfold execPldmPlatformRequest
    rw [if_neg (by rw [hs]; decide)]
  · show execPldmPlatformRequest (.railPower d) s = _
    unfold execPldmPlatformRequest
    rw [if_neg (by rw [hs]; decide)]
  · show execPldmPlatformRequest .energy s = _
    unfold execPldmPlatformRequest
    rw [if_neg (by rw [hs]; decide)]

end Sys2Proof.Machine

set_option linter.all false

/-! ## The mailbox (R386, R401, R402, Table 24-5) -/

namespace Sys2Proof.Machine
open Sys2Proof

/-! ### The end of a command -/

/-- PF0 vector 0 has been sent, or waits behind its mask. -/
def Vector0 (s : State) : Prop := Out.msix 0 0 0 ∈ s.out ∨ (Map.getD s.msix 0 ⟨0, 0, true, false⟩).pend = true

theorem vector0_fire (s : State) : Vector0 (s.fire 0 0) := by
  unfold State.fire
  dsimp only
  split
  · refine .inr ?_
    show (Map.getD (Map.put s.msix 0 _) 0 _).pend = true
    unfold Map.getD
    rw [Map.find?_put_same]
    rfl
  · exact .inl (List.mem_cons_self ..)

/-- The mailbox has ended its command with an ERR and a response of n bytes, and reports it (R401). -/
def MboxEnded (t : State) (err n : Nat) : Prop :=
  t.mbox = none ∧ t.rf .mboxSts 3 0 = 2 ∧ t.rf .mboxSts 23 16 = err ∧ t.rf .mboxSts 39 24 = n ∧ Vector0 t

/-- The three status writes at the end of a command. -/
def State.mboxStatus (s : State) (err n : Nat) : State := ((s.setRf .mboxSts 39 24 n).setRf .mboxSts 23 16 err).setRf .mboxSts 3 0 2

theorem State.mboxStatus_spec (s : State) {err n : Nat} (he : err < 256) (hn : n < 65536) :
    LogsOnly s (s.mboxStatus err n) ∧ (s.mboxStatus err n).rf .mboxSts 3 0 = 2 ∧ (s.mboxStatus err n).rf .mboxSts 23 16 = err ∧
    (s.mboxStatus err n).rf .mboxSts 39 24 = n ∧ ∀ r : Reg, r.key ≠ Reg.key .mboxSts → (s.mboxStatus err n).reg r = s.reg r := by
  unfold State.mboxStatus
  have h1 := logsOnly_setRf s .mboxSts 39 24 n
  have r1 : ∀ r : Reg, r.key ≠ Reg.key .mboxSts → (s.setRf .mboxSts 39 24 n).reg r = s.reg r := fun r h => State.reg_setRf_of_ne _ _ _ _ h
  have f1 : (s.setRf .mboxSts 39 24 n).rf .mboxSts 39 24 = n := State.rf_setRf_of_lt _ _ (by omega) hn
  generalize s.setRf .mboxSts 39 24 n = u at *
  have h2 := logsOnly_setRf u .mboxSts 23 16 err
  have r2 : ∀ r : Reg, r.key ≠ Reg.key .mboxSts → (u.setRf .mboxSts 23 16 err).reg r = u.reg r := fun r h => State.reg_setRf_of_ne _ _ _ _ h
  have f2 : (u.setRf .mboxSts 23 16 err).rf .mboxSts 23 16 = err := State.rf_setRf_of_lt _ _ (by omega) he
  have g2 : (u.setRf .mboxSts 23 16 err).rf .mboxSts 39 24 = u.rf .mboxSts 39 24 := State.rf_setRf_other _ _ _ (by omega) (by omega)
  generalize u.setRf .mboxSts 23 16 err = v at *
  have h3 := logsOnly_setRf v .mboxSts 3 0 2
  have r3 : ∀ r : Reg, r.key ≠ Reg.key .mboxSts → (v.setRf .mboxSts 3 0 2).reg r = v.reg r := fun r h => State.reg_setRf_of_ne _ _ _ _ h
  have f3 : (v.setRf .mboxSts 3 0 2).rf .mboxSts 3 0 = 2 := State.rf_setRf_of_lt _ _ (by omega) (by decide)
  have g3 : ∀ hi lo, 4 ≤ lo → lo ≤ hi → (v.setRf .mboxSts 3 0 2).rf .mboxSts hi lo = v.rf .mboxSts hi lo := fun hi lo hl hle =>
    State.rf_setRf_other _ _ _ (by omega) (by omega)
  generalize v.setRf .mboxSts 3 0 2 = w at *
  exact ⟨h1.trans (h2.trans h3), f3, (g3 _ _ (by omega) (by omega)).trans f2, ((g3 _ _ (by omega) (by omega)).trans g2).trans f1,
    fun r hr => ((r3 r hr).trans (r2 r hr)).trans (r1 r hr)⟩

/-- What the end of a mailbox command leaves. -/
theorem State.mboxEnd_spec (s : State) {err : Nat} {rsp : List Byte} (he : err < 256) (hn : rsp.length < 65536) :
    MboxEnded (s.mboxEnd err rsp) err rsp.length ∧ (s.mboxEnd err rsp).flash = s.flash ∧
    (s.mboxEnd err rsp).mboxRsp = s.mboxRsp.writeBytes 0 rsp ∧
    ∀ i, (s.mboxEnd err rsp).measurement i = s.measurement i := by
  have heq : s.mboxEnd err rsp = ((s.mboxDone rsp).mboxStatus err rsp.length).fire 0 0 := rfl
  have hdone : (s.mboxDone rsp).mbox = none ∧ (s.mboxDone rsp).flash = s.flash ∧ (s.mboxDone rsp).mboxRsp = s.mboxRsp.writeBytes 0 rsp ∧
      (s.mboxDone rsp).regs = s.regs := ⟨rfl, rfl, rfl, rfl⟩
  obtain ⟨hm, hf, hr, hregs⟩ := hdone
  rw [heq]
  generalize s.mboxDone rsp = u at *
  obtain ⟨hlog, f1, f2, f3, hreg⟩ := u.mboxStatus_spec he hn
  generalize u.mboxStatus err rsp.length = v at *
  have hlog' := hlog.trans (logsOnly_fire v 0 0)
  have hvec := vector0_fire v
  have hfire : (v.fire 0 0).regs = v.regs := regs_fire v 0 0
  generalize v.fire 0 0 = t at *
  have hrf : ∀ hi lo, t.rf .mboxSts hi lo = v.rf .mboxSts hi lo := State.rf_congr (State.reg_congr hfire _)
  refine ⟨⟨by rw [hlog']; exact hm, (hrf _ _).trans f1, (hrf _ _).trans f2, (hrf _ _).trans f3, hvec⟩, hlog'.flash.trans hf,
    by rw [hlog']; exact hr, fun i => State.measurement_congr (fun w hw => ?_)⟩
  have hne : Reg.key (.secMeas i w) ≠ Reg.key .mboxSts := by
    simp only [Reg.key]
    omega
  rw [State.reg_congr hfire, hreg _ hne, State.reg_congr hregs]

/-! ### What each command does (Table 24-5) -/

/-- Written device records are accepted at the next generation (R386). -/
theorem Flash.writeRecords_spec (f : Flash) (mapouts : NSet) (repairs : List Byte) : (f.writeRecords mapouts repairs).recordGen = f.recordGen + 1 ∧
    (f.writeRecords mapouts repairs).mapouts = mapouts ∧
    (f.writeRecords mapouts repairs).accepted DevSlot.chanTag = some ⟨f.recordGen + 1, true, true, true, repairs, mapouts⟩ := by
  refine ⟨rfl, rfl, ?_⟩
  have hold : ((f.slots.filter (fun (x : DevSlot) => x.gen == f.recordGen)).take 1).find? (fun (x : DevSlot) => x.gen == f.recordGen + 1 && x.chanTag) = none := by
    rw [List.find?_eq_none]
    intro x hx
    have hgen := beq_iff_eq.mp (List.mem_filter.mp (List.mem_of_mem_take hx)).2
    rw [hgen, Bool.and_eq_true, beq_iff_eq]
    omega
  show (((f.slots.filter (fun (x : DevSlot) => x.gen == f.recordGen)).take 1) ++ [_]).find? (fun (x : DevSlot) => x.gen == f.recordGen + 1 && x.chanTag) = _
  rw [List.find?_append, hold, Option.none_or, List.find?_cons_of_pos (by simp)]

/-- Pieces of one length, one after another. -/
theorem length_flatMap_chunks {f : Nat → List Byte} {n : Nat} (h : ∀ i, (f i).length = n) (k : Nat) : ((List.range k).flatMap f).length = n * k := by
  induction k with
  | zero => rfl
  | succ k ih => rw [List.range_succ, List.flatMap_append, List.length_append, ih, List.flatMap_singleton, h, Nat.mul_succ]

theorem getD_flatMap_chunks {f : Nat → List Byte} {n k i j : Nat} (h : ∀ i, (f i).length = n) (hi : i < k) (hj : j < n) :
    ((List.range k).flatMap f).getD (n * i + j) 0 = (f i).getD j 0 := by
  induction k with
  | zero => omega
  | succ k ih =>
    have hlen := length_flatMap_chunks h k
    rw [List.range_succ, List.flatMap_append, List.flatMap_singleton]
    by_cases hik : i < k
    · have hle : n * (i + 1) ≤ n * k := Nat.mul_le_mul_left n hik
      rw [Nat.mul_succ] at hle
      rw [List.getD_append _ _ _ _ (by omega), ih hik]
    · obtain rfl : i = k := by omega
      rw [List.getD_append_right _ _ _ _ (by omega), hlen, Nat.add_sub_cancel_left]

section
variable (s : State) {m : MboxCmd} (ok : Bool)

theorem State.mboxRun_mapout (h : m.cmd = 1) : s.mboxRun m ok =
    if m.req.length != 2 || ofLe m.req > 383 then (3, [], s) else if s.flash.mapouts.contains (ofLe m.req) then (4, [], s)
    else if !ok then (5, [], s) else (0, [], s.setMapouts (NSet.ins s.flash.mapouts (ofLe m.req))) := by
  unfold State.mboxRun
  rw [h]
  rfl

theorem State.mboxRun_clear (h : m.cmd = 2) : s.mboxRun m ok =
    if m.req.length != 2 || ofLe m.req > 383 then (3, [], s) else if !s.flash.mapouts.contains (ofLe m.req) then (4, [], s)
    else if !ok then (5, [], s) else (0, [], s.setMapouts (NSet.del s.flash.mapouts (ofLe m.req))) := by
  unfold State.mboxRun
  rw [h]
  rfl

theorem State.mboxRun_table (h : m.cmd = 0x10) : s.mboxRun m ok =
    if m.req.length != 1 || (m.req.headD 0).toNat > 63 then (3, [], s)
    else (0, (List.range 16).flatMap (fun i => leBytes (s.pTab (m.req.headD 0).toNat i) 4), s) := by
  unfold State.mboxRun
  rw [h]
  rfl

/-- The state in which the SVN of the firmware that runs is the least that may run. -/
def State.svnCommitted (s : State) : State := { s with flash := { s.flash with fwSvn := s.rf .secSts 23 16 } }

theorem State.mboxRun_svn (h : m.cmd = 0x20) : s.mboxRun m ok =
    if m.req.length != 0 then (3, [], s) else if s.rf .secSts 0 0 == 0 then (4, [], s) else if !ok then (5, [], s)
    else (0, [BitVec.ofNat 8 (s.rf .secSts 23 16)], s.svnCommitted.noteFirmware) := by
  unfold State.mboxRun
  rw [h]
  rfl

theorem State.mboxRun_extend (h : m.cmd = 0x21) : s.mboxRun m ok =
    if m.req.length != 49 || ((m.req.headD 0).toNat != 6 && (m.req.headD 0).toNat != 7) then (3, [], s)
    else (0, [], s.extend (m.req.headD 0).toNat (m.req.drop 1)) := by
  unfold State.mboxRun
  rw [h]
  rfl

theorem State.mboxRun_directory (h : m.cmd = 0x30) : s.mboxRun m ok =
    if m.req.length != 1 || (m.req.headD 0).toNat != 1 then (3, [], s)
    else (0, (Config.itemDirectory (m.req.headD 0).toNat).take 4096, s) := by
  unfold State.mboxRun
  rw [h]
  rfl

theorem State.mboxRun_unknown (h : m.cmd ∉ [1, 2, 0x10, 0x20, 0x21, 0x30]) : s.mboxRun m ok = (2, [], s) := by
  simp only [List.mem_cons, List.not_mem_nil, or_false, not_or] at h
  obtain ⟨h1, h2, h10, h20, h21, h30⟩ := h
  unfold State.mboxRun
  dsimp only
  split
  · exact absurd ‹_› h1
  · exact absurd ‹_› h2
  · exact absurd ‹_› h10
  · exact absurd ‹_› h20
  · exact absurd ‹_› h21
  · exact absurd ‹_› h30
  · rfl

/-- The state that MBOX_COMPLETE leaves. -/
def State.mboxResult (m : MboxCmd) : State := (s.mboxRun m ok).2.2.mboxEnd (s.mboxRun m ok).1 (s.mboxRun m ok).2.1

theorem exec_mboxComplete (h : s.mbox = some m) : exec (.mboxComplete ok) s = .next (s.mboxResult ok m) := by
  show execMboxComplete ok s = _
  unfold execMboxComplete
  rw [h]
  rfl

variable {s ok}

theorem State.mboxResult_of {err : Nat} {rsp : List Byte} {u : State} (hrun : s.mboxRun m ok = (err, rsp, u)) (he : err < 256)
    (hn : rsp.length < 65536) : MboxEnded (s.mboxResult ok m) err rsp.length ∧ (s.mboxResult ok m).flash = u.flash ∧
    (s.mboxResult ok m).mboxRsp = u.mboxRsp.writeBytes 0 rsp ∧ ∀ i, (s.mboxResult ok m).measurement i = u.measurement i := by
  unfold State.mboxResult
  rw [hrun]
  exact u.mboxEnd_spec he hn

/-- A command that ends with an ERR changes no flash and no measurement. -/
theorem State.mboxResult_err {err : Nat} (hrun : s.mboxRun m ok = (err, [], s)) (he : err < 256) :
    MboxEnded (s.mboxResult ok m) err 0 ∧ (s.mboxResult ok m).flash = s.flash ∧
    ∀ i, (s.mboxResult ok m).measurement i = s.measurement i := by
  obtain ⟨h1, h2, -, h4⟩ := State.mboxResult_of hrun he (by decide)
  exact ⟨h1, h2, h4⟩

/-- The channel record has been rewritten with the given channels. -/
def Recorded (s t : State) : Prop := t.flash.recordGen = s.flash.recordGen + 1 ∧
  ∃ x, t.flash.accepted DevSlot.chanTag = some x ∧ x.mapouts = t.flash.mapouts ∧ x.repairs = s.flash.repairs

theorem State.mboxResult_recorded {set : NSet} (hrun : s.mboxRun m ok = (0, [], s.setMapouts set)) :
    MboxEnded (s.mboxResult ok m) 0 0 ∧ Recorded s (s.mboxResult ok m) ∧ (s.mboxResult ok m).flash.mapouts = set := by
  obtain ⟨h1, h2, -, -⟩ := State.mboxResult_of hrun (by decide) (by decide)
  have hset : (s.setMapouts set).flash = s.flash.writeRecords set s.flash.repairs := rfl
  obtain ⟨hgen, hmap, hacc⟩ := s.flash.writeRecords_spec set s.flash.repairs
  generalize s.mboxResult ok m = t at *
  rw [hset] at h2
  rw [← h2] at hgen hmap hacc
  exact ⟨h1, ⟨hgen, _, hacc, hmap.symm, rfl⟩, hmap⟩

/-- A channel command in bad form ends with ERR 3. -/
theorem State.mboxRun_chan_bad (h : m.cmd = 1 ∨ m.cmd = 2) (hbad : m.req.length ≠ 2 ∨ 383 < ofLe m.req) : s.mboxRun m ok = (3, [], s) := by
  have hc : (m.req.length != 2 || ofLe m.req > 383) = true := by
    rw [Bool.or_eq_true, bne_iff_ne, decide_eq_true_eq]
    exact hbad
  rcases h with h | h
  · rw [s.mboxRun_mapout ok h, if_pos hc]
  · rw [s.mboxRun_clear ok h, if_pos hc]

theorem State.mboxResult_mapout (h : m.cmd = 1) (hlen : m.req.length = 2) (hchan : ofLe m.req ≤ 383) :
    (ofLe m.req ∈ s.flash.mapouts → MboxEnded (s.mboxResult ok m) 4 0 ∧ (s.mboxResult ok m).flash = s.flash) ∧
    (ofLe m.req ∉ s.flash.mapouts → ok = false → MboxEnded (s.mboxResult ok m) 5 0 ∧ (s.mboxResult ok m).flash = s.flash) ∧
    (ofLe m.req ∉ s.flash.mapouts → ok = true → MboxEnded (s.mboxResult ok m) 0 0 ∧ Recorded s (s.mboxResult ok m) ∧
      ∀ c, c ∈ (s.mboxResult ok m).flash.mapouts ↔ c = ofLe m.req ∨ c ∈ s.flash.mapouts) := by
  have hform : ¬ (m.req.length != 2 || ofLe m.req > 383) = true := by
    rw [Bool.or_eq_true, bne_iff_ne, decide_eq_true_eq]
    omega
  have hrun := s.mboxRun_mapout ok h
  rw [if_neg hform] at hrun
  refine ⟨fun hc => ?_, fun hc hok => ?_, fun hc hok => ?_⟩
  · rw [if_pos (List.contains_iff_mem.mpr hc)] at hrun
    obtain ⟨h1, h2, -⟩ := State.mboxResult_err hrun (by decide)
    exact ⟨h1, h2⟩
  · rw [if_neg (fun h => hc (List.contains_iff_mem.mp h)), if_pos (by rw [hok]; rfl)] at hrun
    obtain ⟨h1, h2, -⟩ := State.mboxResult_err hrun (by decide)
    exact ⟨h1, h2⟩
  · rw [if_neg (fun h => hc (List.contains_iff_mem.mp h)), if_neg (by rw [hok]; decide)] at hrun
    obtain ⟨h1, h2, h3⟩ := State.mboxResult_recorded hrun
    exact ⟨h1, h2, fun c => by rw [h3, NSet.mem_ins]⟩

theorem State.mboxResult_clear (h : m.cmd = 2) (hlen : m.req.length = 2) (hchan : ofLe m.req ≤ 383) :
    (ofLe m.req ∉ s.flash.mapouts → MboxEnded (s.mboxResult ok m) 4 0 ∧ (s.mboxResult ok m).flash = s.flash) ∧
    (ofLe m.req ∈ s.flash.mapouts → ok = false → MboxEnded (s.mboxResult ok m) 5 0 ∧ (s.mboxResult ok m).flash = s.flash) ∧
    (ofLe m.req ∈ s.flash.mapouts → ok = true → MboxEnded (s.mboxResult ok m) 0 0 ∧ Recorded s (s.mboxResult ok m) ∧
      ∀ c, c ∈ (s.mboxResult ok m).flash.mapouts ↔ c ≠ ofLe m.req ∧ c ∈ s.flash.mapouts) := by
  have hform : ¬ (m.req.length != 2 || ofLe m.req > 383) = true := by
    rw [Bool.or_eq_true, bne_iff_ne, decide_eq_true_eq]
    omega
  have hrun := s.mboxRun_clear ok h
  rw [if_neg hform] at hrun
  have hin : ofLe m.req ∈ s.flash.mapouts → ¬ (!s.flash.mapouts.contains (ofLe m.req)) = true := fun hc => by
    rw [List.contains_iff_mem.mpr hc]
    decide
  refine ⟨fun hc => ?_, fun hc hok => ?_, fun hc hok => ?_⟩
  · rw [if_pos (by rw [Bool.not_eq_true', ← Bool.not_eq_true, List.contains_iff_mem]; exact hc)] at hrun
    obtain ⟨h1, h2, -⟩ := State.mboxResult_err hrun (by decide)
    exact ⟨h1, h2⟩
  · rw [if_neg (hin hc), if_pos (by rw [hok]; rfl)] at hrun
    obtain ⟨h1, h2, -⟩ := State.mboxResult_err hrun (by decide)
    exact ⟨h1, h2⟩
  · rw [if_neg (hin hc), if_neg (by rw [hok]; decide)] at hrun
    obtain ⟨h1, h2, h3⟩ := State.mboxResult_recorded hrun
    exact ⟨h1, h2, fun c => by rw [h3, NSet.mem_del, and_comm]⟩

theorem State.mboxResult_table (h : m.cmd = 0x10) :
    (m.req.length ≠ 1 ∨ 63 < (m.req.headD 0).toNat → MboxEnded (s.mboxResult ok m) 3 0) ∧
    (m.req.length = 1 → (m.req.headD 0).toNat ≤ 63 → MboxEnded (s.mboxResult ok m) 0 64 ∧ ∀ i j, i < 16 → j < 4 →
      (s.mboxResult ok m).mboxRsp.read (4 * i + j) = BitVec.ofNat 8 (s.pTab (m.req.headD 0).toNat i / 256 ^ j)) := by
  have hrun := s.mboxRun_table ok h
  have hiff : (m.req.length != 1 || (m.req.headD 0).toNat > 63) = true ↔ m.req.length ≠ 1 ∨ 63 < (m.req.headD 0).toNat := by
    rw [Bool.or_eq_true, bne_iff_ne, decide_eq_true_eq]
  refine ⟨fun hbad => ?_, fun hlen hb => ?_⟩
  · rw [if_pos (hiff.mpr hbad)] at hrun
    exact (State.mboxResult_err hrun (by decide)).1
  · rw [if_neg (fun hc => by have := hiff.mp hc; omega)] at hrun
    have hsize := fun k => length_flatMap_chunks (f := fun i => leBytes (s.pTab (m.req.headD 0).toNat i) 4) (n := 4)
      (fun i => length_leBytes _ _) k
    have hlen64 := hsize 16
    obtain ⟨h1, -, h3, -⟩ := State.mboxResult_of hrun (by decide) (by rw [hlen64]; decide)
    rw [hlen64] at h1
    refine ⟨h1, fun i j hi hj => ?_⟩
    rw [h3, Memory.read_writeBytes, if_pos ⟨Nat.zero_le _, by rw [hlen64]; omega⟩, Nat.sub_zero,
      getD_flatMap_chunks (fun i => length_leBytes _ _) hi hj, getD_leBytes _ _ _ hj]

theorem State.mboxResult_svn (h : m.cmd = 0x20) :
    (m.req.length ≠ 0 → MboxEnded (s.mboxResult ok m) 3 0) ∧
    (m.req.length = 0 → s.rf .secSts 0 0 = 0 → MboxEnded (s.mboxResult ok m) 4 0) ∧
    (m.req.length = 0 → s.rf .secSts 0 0 = 1 → ok = true → MboxEnded (s.mboxResult ok m) 0 1 ∧
      (s.mboxResult ok m).flash.fwSvn = s.rf .secSts 23 16) := by
  have hrun := s.mboxRun_svn ok h
  refine ⟨fun hbad => ?_, fun hlen hsts => ?_, fun hlen hsts hok => ?_⟩
  · rw [if_pos (by rwa [bne_iff_ne])] at hrun
    exact (State.mboxResult_err hrun (by decide)).1
  · rw [if_neg (by rw [hlen]; decide), if_pos (by rw [hsts]; rfl)] at hrun
    exact (State.mboxResult_err hrun (by decide)).1
  · rw [if_neg (by rw [hlen]; decide), if_neg (by rw [hsts]; decide), if_neg (by rw [hok]; decide)] at hrun
    obtain ⟨h1, h2, -, -⟩ := State.mboxResult_of hrun (by decide) (by rw [List.length_singleton]; decide)
    have hset : s.svnCommitted.flash.fwSvn = s.rf .secSts 23 16 := rfl
    exact ⟨h1, by rw [h2, (logsOnly_noteFirmware s.svnCommitted).flash, hset]⟩

theorem State.mboxResult_extend (h : m.cmd = 0x21) :
    (m.req.length ≠ 49 ∨ ((m.req.headD 0).toNat ≠ 6 ∧ (m.req.headD 0).toNat ≠ 7) →
      MboxEnded (s.mboxResult ok m) 3 0 ∧ ∀ i, i < 8 → (s.mboxResult ok m).measurement i = s.measurement i) ∧
    (m.req.length = 49 → (m.req.headD 0).toNat = 6 ∨ (m.req.headD 0).toNat = 7 → MboxEnded (s.mboxResult ok m) 0 0 ∧
      (s.mboxResult ok m).measurement (m.req.headD 0).toNat = sha384 (s.measurement (m.req.headD 0).toNat ++ m.req.drop 1)) := by
  have hrun := s.mboxRun_extend ok h
  have hiff : (m.req.length != 49 || ((m.req.headD 0).toNat != 6 && (m.req.headD 0).toNat != 7)) = true ↔
      m.req.length ≠ 49 ∨ ((m.req.headD 0).toNat ≠ 6 ∧ (m.req.headD 0).toNat ≠ 7) := by
    rw [Bool.or_eq_true, Bool.and_eq_true, bne_iff_ne, bne_iff_ne, bne_iff_ne]
  refine ⟨fun hbad => ?_, fun hlen hb => ?_⟩
  · rw [if_pos (hiff.mpr hbad)] at hrun
    obtain ⟨h1, -, h3⟩ := State.mboxResult_err hrun (by decide)
    exact ⟨h1, fun i _ => h3 i⟩
  · rw [if_neg (fun hc => by have := hiff.mp hc; omega)] at hrun
    obtain ⟨h1, -, -, h4⟩ := State.mboxResult_of hrun (by decide) (by decide)
    exact ⟨h1, by rw [h4, State.measurement_extend]⟩

theorem State.mboxResult_directory (h : m.cmd = 0x30) :
    (m.req.length ≠ 1 ∨ (m.req.headD 0).toNat ≠ 1 → MboxEnded (s.mboxResult ok m) 3 0) ∧
    (m.req.length = 1 → (m.req.headD 0).toNat = 1 →
      MboxEnded (s.mboxResult ok m) 0 (min 4096 (Config.itemDirectory 1).length)) := by
  have hrun := s.mboxRun_directory ok h
  have hiff : (m.req.length != 1 || (m.req.headD 0).toNat != 1) = true ↔ m.req.length ≠ 1 ∨ (m.req.headD 0).toNat ≠ 1 := by
    rw [Bool.or_eq_true, bne_iff_ne, bne_iff_ne]
  refine ⟨fun hbad => ?_, fun hlen hb => ?_⟩
  · rw [if_pos (hiff.mpr hbad)] at hrun
    exact (State.mboxResult_err hrun (by decide)).1
  · rw [if_neg (fun hc => by have := hiff.mp hc; omega), hb] at hrun
    have hsize := List.length_take (i := 4096) (l := Config.itemDirectory 1)
    obtain ⟨h1, -⟩ := State.mboxResult_of hrun (by decide) (by rw [hsize]; omega)
    rwa [hsize] at h1

end

/-! ### The doorbell (R401) -/

/-- The state in which a command runs. -/
def State.mboxStarted (s : State) (cmd tok len : Nat) : State :=
  { s with mbox := some ⟨cmd, tok, if len ≤ 4096 then (List.range (min len 4096)).map s.mboxReq.read
    else (List.range (min len 4096)).map s.mboxReq.read ++ [0]⟩ }

theorem State.mboxDoorbell_busy {s : State} {cmd tok len : Nat} (h : s.rf .mboxSts 3 0 = 1 ∨ s.readyFn 2 = false) :
    s.mboxDoorbell cmd tok len = s.dropped 401 0x7F := by
  unfold State.mboxDoorbell
  rw [if_pos]
  rw [Bool.or_eq_true, beq_iff_eq, Bool.not_eq_true']
  exact h

/-- A doorbell that is not dropped shows its token, and starts its command or ends it at once. -/
theorem State.mboxDoorbell_spec {s : State} {cmd len : Nat} (tok : BitVec 8) (h : ¬ (s.rf .mboxSts 3 0 = 1 ∨ s.readyFn 2 = false)) :
    (s.mgmtServes = true → ∃ m : MboxCmd, (s.mboxDoorbell cmd tok.toNat len).mbox = some m ∧ m.cmd = cmd ∧
      (s.mboxDoorbell cmd tok.toNat len).rf .mboxSts 47 40 = tok.toNat ∧ (s.mboxDoorbell cmd tok.toNat len).rf .mboxSts 3 0 = 1 ∧
      (len ≤ 4096 → m.req = (List.range len).map s.mboxReq.read)) ∧
    (s.mgmtServes = false → MboxEnded (s.mboxDoorbell cmd tok.toNat len) 1 0) := by
  have hgo : ¬ (s.rf .mboxSts 3 0 == 1 || !s.readyFn 2) = true := by
    rw [Bool.or_eq_true, beq_iff_eq, Bool.not_eq_true']
    exact h
  have heq : s.mboxDoorbell cmd tok.toNat len = if !(s.setRf .mboxSts 47 40 tok.toNat).mgmtServes then
      (s.setRf .mboxSts 47 40 tok.toNat).mboxEnd 1 []
      else ((s.setRf .mboxSts 47 40 tok.toNat).mboxStarted cmd tok.toNat len).setRf .mboxSts 3 0 1 := if_neg hgo
  rw [heq]
  have hlog := logsOnly_setRf s .mboxSts 47 40 tok.toNat
  have htok : (s.setRf .mboxSts 47 40 tok.toNat).rf .mboxSts 47 40 = tok.toNat := State.rf_setRf_of_lt _ _ (by omega) tok.isLt
  have hready : (s.setRf .mboxSts 47 40 tok.toNat).reg .glbReadyFn = s.reg .glbReadyFn := State.reg_setRf_of_ne _ _ _ _ (by decide)
  generalize s.setRf .mboxSts 47 40 tok.toNat = u at *
  have hserves : u.mgmtServes = s.mgmtServes := by
    unfold State.mgmtServes State.readyFn
    rw [LogsOnly.boot hlog, hready]
  rw [hserves]
  refine ⟨fun hs => ?_, fun hs => ?_⟩
  · rw [if_neg (by rw [hs]; decide)]
    have hreq : u.mboxReq = s.mboxReq := by rw [hlog]
    have hstart : (u.mboxStarted cmd tok.toNat len).mbox = some ⟨cmd, tok.toNat, if len ≤ 4096 then
        (List.range (min len 4096)).map u.mboxReq.read else (List.range (min len 4096)).map u.mboxReq.read ++ [0]⟩ ∧
        (u.mboxStarted cmd tok.toNat len).regs = u.regs := ⟨rfl, rfl⟩
    obtain ⟨hmbox, hregs⟩ := hstart
    generalize u.mboxStarted cmd tok.toNat len = v at *
    have hlog' := logsOnly_setRf v .mboxSts 3 0 1
    have hone : (v.setRf .mboxSts 3 0 1).rf .mboxSts 3 0 = 1 := State.rf_setRf_of_lt _ _ (by omega) (by decide)
    have hkeep : (v.setRf .mboxSts 3 0 1).rf .mboxSts 47 40 = v.rf .mboxSts 47 40 := State.rf_setRf_other _ _ _ (by omega) (by omega)
    generalize v.setRf .mboxSts 3 0 1 = t at *
    refine ⟨_, by rw [hlog']; exact hmbox, rfl, hkeep.trans ((State.rf_congr (State.reg_congr hregs _) _ _).trans htok), hone, fun hl => ?_⟩
    rw [if_pos hl, Nat.min_eq_left hl, hreq]
  · rw [if_pos (by rw [hs]; rfl)]
    exact (u.mboxEnd_spec (by decide) (by decide)).1

/-- The six doorbells ring for the command codes of Table 24-5. -/
theorem exec_mboxDoorbell (s : State) (tok : BitVec 8) (len : BitVec 16) : ∀ p ∈ [(Instr.chanMapout tok len, 0x0001), (.chanClear tok len, 0x0002),
    (.pwrTable tok len, 0x0010), (.svnCommit tok len, 0x0020), (.measExtend tok len, 0x0021), (.btnDirectory tok len, 0x0030)],
    exec p.1 s = .next (s.mboxDoorbell p.2 tok.toNat len.toNat) := by
  intro p hp
  simp only [List.mem_cons, List.not_mem_nil, or_false] at hp
  rcases hp with rfl | rfl | rfl | rfl | rfl | rfl <;> rfl

/-- Settles O53: a doorbell is dropped, ended or started, and each command's end is that of its row of Table 24-5. -/
theorem mailboxCompletes : Obligations.mailbox_completes := by
  refine fun s => ⟨fun tok len p hp => ?_, fun m hm ok => ?_⟩
  · intro busy
    have hexec := exec_mboxDoorbell s tok len p hp
    refine ⟨fun hb => hexec.trans (congrArg _ (State.mboxDoorbell_busy hb)), fun hb hs => ?_, fun hb hs => ?_⟩
    · obtain ⟨m, h1, h2, h3, h4, h5⟩ := (State.mboxDoorbell_spec (cmd := p.2) (len := len.toNat) tok hb).1 hs
      exact ⟨_, m, hexec, h1, h2, h3, h4, h5⟩
    · obtain ⟨h1, h2, h3, h4, -⟩ := (State.mboxDoorbell_spec (cmd := p.2) (len := len.toNat) tok hb).2 hs
      exact ⟨_, hexec, h1, h2, h3, h4⟩
  · exact ⟨_, exec_mboxComplete s ok hm, fun h hbad => (fun ⟨h1, h2, _⟩ => ⟨h1, h2⟩) (State.mboxResult_err (State.mboxRun_chan_bad h hbad) (by decide)),
      fun h hl hc => State.mboxResult_mapout h hl hc, fun h hl hc => State.mboxResult_clear h hl hc, fun h => State.mboxResult_table h,
      fun h => State.mboxResult_svn h, fun h => State.mboxResult_extend h, fun h => State.mboxResult_directory h,
      fun h => (State.mboxResult_err (s.mboxRun_unknown ok h) (by decide)).1⟩

end Sys2Proof.Machine

set_option linter.all false

/-! ## The scheduler: a preempted launch that its own incoming item ends (R254 to R256, R353) -/

namespace Sys2Proof.Machine
open Sys2Proof

/-- A launch of PF0 on core 0. -/
def preemptedLaunch (ctx : Nat) : Launch where
  ctx := ctx
  part := 127
  queue := 0
  seq := 0
  core := 0
  entry := 0
  arg := 0
  threads := 1
  phase := .preempting
  tag := 0
  status := 0
  cycles := 0
  ran := 0
  live := []
  fixed := false
  slot0 := 0
  suspect := false
  replay := false
  saved := []
  savedAcc := []
  saveSlot := 0
  root := 0
  seed := 0
  pasid := 0

/-- A queue of context 2 with a launch packet at its start point. -/
def launchQueue : Queue where
  host := true
  size := 6
  ring := 0
  ctx := 2
  owner := 127
  head := 0
  tail := 0
  cmpl := 0
  st := 1
  last := 0
  phase := 0
  fetched := [⟨0, [1], none⟩]
  started := []
  disabledBy := none
  since := 0
  barAdded := false

/-- Launch 0 is being preempted for the queue. The map of launches lists number 0 twice, first for context 1 and then for context 2; the
record of context 2, marked by RELOAD, lies in a poisoned sector. Page 0 of PF0's IPAs is host memory. -/
def doubledLaunch : State := { State.reset with
  regs := Map.put (Map.put (Map.put [] (Reg.key .glbReadyFn) 0x10) (Reg.key (.schPsave 127)) 1) (Reg.key (.schCtab 127)) 1
  launches := [(0, preemptedLaunch 1), (0, preemptedLaunch 2)]
  nextId := 1
  queues := [(0, launchQueue)]
  ctxs := [(1, ⟨127, 0, 0, 0, 0, 0, 0, 0, 0, false, true, false⟩), (2, ⟨127, 0, 0, 0, 0, 0, 0, 0, 0, true, true, false⟩)]
  switching := [(0, ⟨some 0, some 0, none, none⟩)]
  wc2 := [⟨15, 127, 0, 2 ^ 63 + 2 ^ 60 + 2 ^ 59 + 3 * 2 ^ 48, 0, 65536, 0⟩]
  hostPoison := [4] }

/-- The phase of launch 0 after its preemption point. -/
def phaseAfter (r : Res) : Option LPhase :=
  match r with
  | .next t => (Map.find? t.launches 0).map Launch.phase
  | _ => none

theorem doubledLaunch_fails : phaseAfter (exec (.preemptionPoint 0) doubledLaunch) = some .failing := by decide +kernel

theorem doubledLaunch_saveOk :
    let u := ({ doubledLaunch with switching := Map.drop doubledLaunch.switching 0 } : State).charge
    u.saveOk 127 0 (u.saveSlotFor 0) (saveLen (doubledLaunch.groups.filter (fun kv => kv.2.launch == 0)).length 0) true = true := by
  decide +kernel

/-- Refutes O34: the clause on a preempted launch fails where the map of launches lists its number twice. The save succeeds, but the incoming
packet's context is reread from a poisoned record and fails, and with it every launch that the map lists under that context, so the saved
launch ends instead of staying preempted. -/
theorem not_schedulingCompletes : ¬ Obligations.scheduling_completes := by
  rintro ⟨-, hpreempt⟩
  obtain ⟨hpoint, -⟩ := hpreempt doubledLaunch 0 (preemptedLaunch 1) ⟨some 0, some 0, none, none⟩
  obtain ⟨-, hsaved, -⟩ := hpoint rfl rfl rfl rfl (by decide) (by decide) (fun c hc => by cases hc) (fun c hc => by cases hc)
    (fun c hc => by cases hc) (fun kv hkv => by cases hkv)
  obtain ⟨t, l', hexec, hfind, hphase, -⟩ := hsaved doubledLaunch_saveOk ⟨_, rfl, rfl⟩
  have hfails : (Map.find? t.launches 0).map Launch.phase = some .failing := by
    have hafter := doubledLaunch_fails
    rw [hexec] at hafter
    exact hafter
  rw [hfind, Option.map_some, hphase] at hfails
  exact absurd hfails (by decide)

end Sys2Proof.Machine

set_option linter.all false

/-! ## The memories stay canonical: the predicate, and what keeps it -/

namespace Sys2Proof.Machine
open Sys2Proof

/-- Every state that a result can be has its memories in canonical form. -/
def ResOk (r : Res) : Prop := ∀ t, r = .next t → t.memOk
/-- The same of an optional state, of one with a value beside it, and of one that may be an error instead. -/
def OptOk (o : Option State) : Prop := ∀ t, o = some t → t.memOk
def OptFst {α : Type} (o : Option (State × α)) : Prop := ∀ t a, o = some (t, a) → t.memOk
def ExcOk {ε : Type} (x : Except ε State) : Prop := ∀ t, x = .ok t → t.memOk
def ExcFst {ε α : Type} (x : Except ε (State × α)) : Prop := ∀ t a, x = .ok (t, a) → t.memOk

/-- The canonical form speaks of the four memories alone. -/
theorem memOk_with {s t : State} (h : s.memOk) (hheap : t.heap = s.heap := by with_reducible rfl)
    (hpool : t.pool = s.pool := by with_reducible rfl)
    (hreq : t.mboxReq = s.mboxReq := by with_reducible rfl) (hrsp : t.mboxRsp = s.mboxRsp := by with_reducible rfl) : t.memOk := by
  unfold State.memOk at *
  rwa [hheap, hpool, hreq, hrsp]

/-- The canonical form speaks of the four memories alone: every other field of the state is free. -/
theorem memOk_mk {u : State} {regs accCtx mtxHolder lastServed rakeCe lastTag adopted deficits cfg panCtr : Map Nat}
    {heapPoison repair poolPoison hostPoison badSectors outOfService failed cmdBusy evictedFrom posted
      hung guilty dieReset quarantined sluiced : NSet}
    {hostMem : Map Byte} {badRows : List (Nat × Nat)} {groups : Map Group} {launches : Map Launch} {acc : Map Half}
    {mtx : List MtxCmd} {dma : List DmaCmd} {rmo : List RmoCmd} {routes : List RouteCmd} {modeChg : Map ModeChange}
    {sharedChg : Option Nat} {residents : Map (List Resident)} {ctxs : Map ActiveCtx} {queues : Map Queue}
    {switching : Map Switch} {tlb : List TlbEntry} {utlb : List (Nat × TlbEntry)} {wc1 : List Wc1} {wc2 : List Wc2}
    {walkQ : Map (List Nat)} {invs : Map (List Inval)} {heldRecs : Map (List (List Word))} {windows : Map Window} {coh : Coh}
    {narrow : List NFrame} {nmiss : List Nat} {ncacheChg : Map (Nat × Nat)} {icache : Map ILine}
    {ras bitternLog : List RasEntry} {bittern : List Collection} {suspects : List Suspect} {resetQ : List ResetReq}
    {partOps : Map PartOp} {commit : Option Commit} {sessions : Map Session} {txq : Map (List (Nat × Msg))} {power : Power}
    {boot : Boot} {flash : Flash} {silicon : Silicon} {msix : Map Msix} {pins : Pins} {weirCtr : BitVec 64}
    {mbox : Option MboxCmd} {nextId freeIx : Nat} {out : List Out} {pending : List Instr} (h : u.memOk) :
    State.memOk ⟨regs, u.mboxReq, u.mboxRsp, u.heap, heapPoison, repair, u.pool, poolPoison, hostMem, hostPoison, badSectors,
      badRows, groups, launches, acc, accCtx, mtxHolder, mtx, dma, rmo, routes, modeChg, outOfService, sharedChg, residents,
      ctxs, failed, queues, lastServed, cmdBusy, switching, evictedFrom, tlb, utlb, wc1, wc2, walkQ, invs, heldRecs, posted,
      windows, coh, narrow, nmiss, ncacheChg, icache, ras, bitternLog, rakeCe, bittern, suspects, resetQ, hung, guilty,
      dieReset, quarantined, sluiced, partOps, lastTag, commit, adopted, sessions, txq, deficits, power, boot, flash, silicon,
      msix, cfg, pins, weirCtr, panCtr, mbox, nextId, freeIx, out, pending⟩ := h

/-- With another Heap in canonical form, every field but the pool and the mailbox's buffers is free. -/
theorem memOk_mkHeap {u : State} {regs accCtx mtxHolder lastServed rakeCe lastTag adopted deficits cfg panCtr : Map Nat}
    {heap : Memory} {heapPoison repair poolPoison hostPoison badSectors outOfService failed cmdBusy evictedFrom posted
      hung guilty dieReset quarantined sluiced : NSet}
    {hostMem : Map Byte} {badRows : List (Nat × Nat)} {groups : Map Group} {launches : Map Launch} {acc : Map Half}
    {mtx : List MtxCmd} {dma : List DmaCmd} {rmo : List RmoCmd} {routes : List RouteCmd} {modeChg : Map ModeChange}
    {sharedChg : Option Nat} {residents : Map (List Resident)} {ctxs : Map ActiveCtx} {queues : Map Queue}
    {switching : Map Switch} {tlb : List TlbEntry} {utlb : List (Nat × TlbEntry)} {wc1 : List Wc1} {wc2 : List Wc2}
    {walkQ : Map (List Nat)} {invs : Map (List Inval)} {heldRecs : Map (List (List Word))} {windows : Map Window} {coh : Coh}
    {narrow : List NFrame} {nmiss : List Nat} {ncacheChg : Map (Nat × Nat)} {icache : Map ILine}
    {ras bitternLog : List RasEntry} {bittern : List Collection} {suspects : List Suspect} {resetQ : List ResetReq}
    {partOps : Map PartOp} {commit : Option Commit} {sessions : Map Session} {txq : Map (List (Nat × Msg))} {power : Power}
    {boot : Boot} {flash : Flash} {silicon : Silicon} {msix : Map Msix} {pins : Pins} {weirCtr : BitVec 64}
    {mbox : Option MboxCmd} {nextId freeIx : Nat} {out : List Out} {pending : List Instr} (h : u.memOk)
    (hheap : Memory.wf heap = true) :
    State.memOk ⟨regs, u.mboxReq, u.mboxRsp, heap, heapPoison, repair, u.pool, poolPoison, hostMem, hostPoison, badSectors,
      badRows, groups, launches, acc, accCtx, mtxHolder, mtx, dma, rmo, routes, modeChg, outOfService, sharedChg, residents,
      ctxs, failed, queues, lastServed, cmdBusy, switching, evictedFrom, tlb, utlb, wc1, wc2, walkQ, invs, heldRecs, posted,
      windows, coh, narrow, nmiss, ncacheChg, icache, ras, bitternLog, rakeCe, bittern, suspects, resetQ, hung, guilty,
      dieReset, quarantined, sluiced, partOps, lastTag, commit, adopted, sessions, txq, deficits, power, boot, flash, silicon,
      msix, cfg, pins, weirCtr, panCtr, mbox, nextId, freeIx, out, pending⟩ := ⟨hheap, h.2⟩

theorem memOk_ite {c : Prop} [Decidable c] {s t : State} (hs : s.memOk) (ht : t.memOk) : (if c then s else t).memOk := by
  split
  · exact hs
  · exact ht

theorem memOk_foldl {α : Type} {f : State → α → State} {l : List α} {s : State} (hf : ∀ u x, u.memOk → (f u x).memOk) (h : s.memOk) :
    (l.foldl f s).memOk :=
  foldl_keeps (P := State.memOk) hf l s h

theorem resOk_next {s : State} (h : s.memOk) : ResOk (.next s) := by
  rintro t ⟨⟩
  exact h

theorem resOk_fault {f : Fault} : ResOk (.fault f) := by rintro t ⟨⟩

theorem resOk_ite {c : Prop} [Decidable c] {r q : Res} (hr : ResOk r) (hq : ResOk q) : ResOk (if c then r else q) := by
  split
  · exact hr
  · exact hq

theorem resOk_idle {s : State} {why : String} (h : s.memOk) : ResOk (s.idle why) := resOk_next h

theorem optOk_none : OptOk none := by rintro t ⟨⟩

theorem optOk_some {s : State} (h : s.memOk) : OptOk (some s) := by
  rintro t ⟨⟩
  exact h

theorem optOk_ite {c : Prop} [Decidable c] {r q : Option State} (hr : OptOk r) (hq : OptOk q) : OptOk (if c then r else q) := by
  split
  · exact hr
  · exact hq

theorem optOk_map {o : Option State} {f : State → State} (ho : OptOk o) (hf : ∀ u, u.memOk → (f u).memOk) : OptOk (o.map f) := by
  cases o with
  | none => exact optOk_none
  | some s => exact optOk_some (hf s (ho s rfl))

theorem optOk_map_of {α : Type} {o : Option α} {f : α → State} (hf : ∀ a, (f a).memOk) : OptOk (o.map f) := by
  cases o with
  | none => exact optOk_none
  | some a => exact optOk_some (hf a)

theorem memOk_of_some {o : Option State} {t : State} (h : OptOk o) (e : o = some t) : t.memOk := h t e

theorem memOk_of_some_fst {α : Type} {o : Option (State × α)} {t : State} {a : α} (h : OptFst o) (e : o = some (t, a)) : t.memOk := h t a e

theorem memOk_of_ok {ε : Type} {x : Except ε State} {t : State} (h : ExcOk x) (e : x = .ok t) : t.memOk := h t e

theorem memOk_of_ok_fst {ε α : Type} {x : Except ε (State × α)} {t : State} {a : α} (h : ExcFst x) (e : x = .ok (t, a)) : t.memOk := h t a e

theorem memOk_of_next {r : Res} {t : State} (h : ResOk r) (e : r = .next t) : t.memOk := h t e

theorem optOk_bind {o : Option State} {f : State → Option State} (ho : OptOk o) (hf : ∀ u, u.memOk → OptOk (f u)) : OptOk (o.bind f) := by
  cases o with
  | none => exact optOk_none
  | some s => exact hf s (ho s rfl)

theorem optOk_filter {o : Option State} {p : State → Bool} (ho : OptOk o) : OptOk (o.filter p) :=
  fun t ht => ho t (Option.filter_eq_some_iff.mp ht).1

theorem optFst_none {α : Type} : OptFst (none : Option (State × α)) := by rintro t a ⟨⟩

theorem optFst_some {α : Type} {x : State × α} (h : x.1.memOk) : OptFst (some x) := by
  rintro t a ⟨⟩
  exact h

theorem optFst_ite {α : Type} {c : Prop} [Decidable c] {r q : Option (State × α)} (hr : OptFst r) (hq : OptFst q) :
    OptFst (if c then r else q) := by
  split
  · exact hr
  · exact hq

theorem optFst_map {α : Type} {o : Option State} {f : State → State × α} (ho : OptOk o) (hf : ∀ u, u.memOk → (f u).1.memOk) :
    OptFst (o.map f) := by
  cases o with
  | none => exact optFst_none
  | some s => exact optFst_some (hf s (ho s rfl))

/-- A fold over states that may end early. -/
theorem optOk_foldl {α : Type} {f : Option State → α → Option State} {l : List α} {o : Option State}
    (hf : ∀ u x, OptOk u → OptOk (f u x)) (ho : OptOk o) : OptOk (l.foldl f o) :=
  foldl_keeps (P := OptOk) hf l o ho

theorem excOk_error {ε : Type} {e : ε} : ExcOk (.error e : Except ε State) := by rintro t ⟨⟩

theorem excOk_ok {ε : Type} {s : State} (h : s.memOk) : ExcOk (.ok s : Except ε State) := by
  rintro t ⟨⟩
  exact h

theorem excFst_error {ε α : Type} {e : ε} : ExcFst (.error e : Except ε (State × α)) := by rintro t a ⟨⟩

theorem excFst_ok {ε α : Type} {x : State × α} (h : x.1.memOk) : ExcFst (.ok x : Except ε (State × α)) := by
  rintro t a ⟨⟩
  exact h

/-! ### Frames that hold the memories -/

theorem LogsOnly.memOk {s t : State} (k : LogsOnly s t) (h : s.memOk) : t.memOk := by
  rw [k]
  exact memOk_with h

theorem EndsOnly.memOk {s t : State} (k : EndsOnly s t) (h : s.memOk) : t.memOk := by
  rw [k]
  exact memOk_with h

theorem RegsOnly.memOk {s t : State} (k : RegsOnly s t) (h : s.memOk) : t.memOk := by
  rw [k]
  exact memOk_with h

theorem XlatPosts.memOk {s t : State} (k : XlatPosts s t) (h : s.memOk) : t.memOk := LogsOnly.memOk k (memOk_with h)

theorem CachesOnly.memOk {s t : State} (k : CachesOnly s t) (h : s.memOk) : t.memOk := by
  rw [k]
  exact memOk_with h

theorem CohOnly.memOk {s t : State} (k : CohOnly s t) (h : s.memOk) : t.memOk := by
  rw [k]
  exact memOk_with h

theorem ZerosOnly.memOk {s t : State} (k : ZerosOnly s t) (h : s.memOk) : t.memOk := by
  rw [k]
  exact memOk_with h

theorem memOk_setReg {s : State} {r : Reg} {v : Nat} (h : s.memOk) : (s.setReg r v).memOk := memOk_with h rfl rfl rfl rfl

theorem memOk_setRf {s : State} {r : Reg} {hi lo v : Nat} (h : s.memOk) : (s.setRf r hi lo v).memOk := memOk_with h rfl rfl rfl rfl

theorem memOk_fresh {s : State} (h : s.memOk) : s.fresh.2.memOk := memOk_with h rfl rfl rfl rfl

/-! ### The writes -/

/-- The state with another Heap or pool in canonical form. -/
theorem memOk_heap {s t : State} (h : s.memOk) (hheap : Memory.wf t.heap = true) (hpool : t.pool = s.pool := by with_reducible rfl)
    (hreq : t.mboxReq = s.mboxReq := by with_reducible rfl) (hrsp : t.mboxRsp = s.mboxRsp := by with_reducible rfl) : t.memOk := by
  obtain ⟨-, h2, h3, h4⟩ := h
  exact ⟨hheap, hpool ▸ h2, hreq ▸ h3, hrsp ▸ h4⟩

theorem memOk_pool {s t : State} (h : s.memOk) (hpool : Memory.wf t.pool = true) (hheap : t.heap = s.heap := by with_reducible rfl)
    (hreq : t.mboxReq = s.mboxReq := by with_reducible rfl) (hrsp : t.mboxRsp = s.mboxRsp := by with_reducible rfl) : t.memOk := by
  obtain ⟨h1, -, h3, h4⟩ := h
  exact ⟨hheap ▸ h1, hpool, hreq ▸ h3, hrsp ▸ h4⟩

theorem State.memOk.heap {s : State} (h : s.memOk) : Memory.wf s.heap = true := h.1
theorem State.memOk.pool {s : State} (h : s.memOk) : Memory.wf s.pool = true := h.2.1
theorem State.memOk.req {s : State} (h : s.memOk) : Memory.wf s.mboxReq = true := h.2.2.1
theorem State.memOk.rsp {s : State} (h : s.memOk) : Memory.wf s.mboxRsp = true := h.2.2.2

theorem memOk_writeLoc {s : State} {pasid : Nat} {l : Loc} {b : Byte} (h : s.memOk) : (s.writeLoc pasid l b).memOk := by
  cases l with
  | heap k => exact memOk_ite h (memOk_heap h (Memory.wf_write _ _ _ h.heap))
  | pool k => exact memOk_pool h (t := { s with pool := s.pool.write k b }) (Memory.wf_write _ _ _ h.pool)
  | host a => exact memOk_with h (t := { s with hostMem := Map.put s.hostMem (pasid * 2 ^ 48 + a) b })
  | mmio a => exact h

theorem memOk_zeroPool {s : State} {phys : Nat} (h : s.memOk) : (s.zeroPool phys).memOk := by
  unfold State.zeroPool
  exact memOk_pool h (Memory.wf_filter _ _ h.pool)

theorem memOk_zeroDeep {s : State} {cs : List Nat} (h : s.memOk) : (s.zeroDeep cs).memOk := by
  unfold State.zeroDeep
  exact memOk_heap h (Memory.wf_filter _ _ h.heap)

theorem memOk_zeroShared {s : State} {o n : Nat} (h : s.memOk) : (s.zeroShared o n).memOk := by
  unfold State.zeroShared
  exact memOk_heap h (Memory.wf_filter _ _ h.heap)

theorem memOk_mboxEnd {s : State} {err : Nat} {rsp : List Byte} (h : s.memOk) : (s.mboxEnd err rsp).memOk :=
  (logsOnly_mboxEnd s err rsp).memOk ⟨h.heap, h.pool, h.req, Memory.wf_writeBytes _ _ _ h.rsp⟩

end Sys2Proof.Machine

set_option linter.all false

/-! ## The memories stay canonical: every function of the model keeps them

One lemma per function that changes the state, in the order of the model's files: `memOk_f` where `f` answers a state, `resOk_f` where it
answers a result, and `optOk_`, `optFst_`, `excOk_` and `excFst_` where it answers a state, alone or with more, or nothing. Only the writes
of bytes, the zeroing of pools and spaces, the resets and the mailbox change a memory; everything else keeps all four. -/

namespace Sys2Proof.Machine
open Sys2Proof

/-! ### State -/

theorem memOk_reset : State.reset.memOk := ⟨rfl, rfl, rfl, rfl⟩

/-! ### Ops -/

theorem memOk_restore {s : State} {r : Reg} {ds : List Domain} (h : s.memOk) : (s.restore r ds).memOk := by
  unfold State.restore
  exact (logsOnly_setReg _ _ _).memOk h

theorem memOk_newId {s : State} (h : s.memOk) : s.newId.2.memOk := by
  unfold State.newId
  exact memOk_mk h

theorem memOk_alert {s : State} (h : s.memOk) : s.alert.memOk := by
  unfold State.alert
  dsimp only
  exact memOk_mk h

theorem resOk_throughVf {s : State} {fn off : Nat} {act : Host.Outcome State Fault Refusal} (h : s.memOk) (h1 : ResOk act) :
    ResOk (s.throughVf fn off act) := by
  unfold State.throughVf
  exact resOk_ite (resOk_next ((logsOnly_accessError _ _ _ _).memOk h)) h1

theorem memOk_countSquash {s : State} {p n : Nat} (h : s.memOk) : (s.countSquash p n).memOk := by
  unfold State.countSquash
  dsimp only
  exact (logsOnly_setRf _ _ _ _ _).memOk h

theorem resOk_clocked {s : State} {act : Host.Outcome State Fault Refusal} (h : s.memOk) (h1 : ResOk act) : ResOk
    (s.clocked act) := by
  unfold State.clocked
  exact resOk_ite (resOk_next h) h1

theorem memOk_writeAll {s : State} {pasid : Nat} {ls : List Loc} {bs : List Byte} (h : s.memOk) :
    (s.writeAll pasid ls bs).memOk := by
  induction ls generalizing s bs with
  | nil => exact h
  | cons l ls ih =>
    cases bs with
    | nil => exact h
    | cons b bs => exact ih (memOk_writeLoc h)

theorem memOk_writeLocs {s : State} {pasid : Nat} {ls : List Loc} {bs : List Byte} (h : s.memOk) :
    (s.writeLocs pasid ls bs).memOk := by
  unfold State.writeLocs
  dsimp only
  exact (logsOnly_discardNote _ _).memOk (memOk_mk (memOk_writeAll h))

theorem memOk_poisonLocs {s : State} {ls : List Loc} (h : s.memOk) : (s.poisonLocs ls).memOk := by
  unfold State.poisonLocs
  exact memOk_mk h

theorem memOk_poolWrite {s : State} {core off : Nat} {bs : List Byte} (h : s.memOk) : (s.poolWrite core off bs).memOk := by
  unfold State.poolWrite
  exact memOk_writeLocs h

theorem memOk_zeroAcc {s : State} {b : Nat} (h : s.memOk) : (s.zeroAcc b).memOk := by
  unfold State.zeroAcc
  exact memOk_mk h

/-! ### Commit -/

theorem memOk_adoptVals {s : State} {u : Nat} {es : List (Word × Word)} (h : s.memOk) : (s.adoptVals u es).memOk := by
  unfold State.adoptVals
  refine memOk_foldl ?_ h
  intro u1 x h1
  split
  · exact memOk_ite (memOk_mk h1) h1
  · exact h1

theorem memOk_commitNext {s : State} {c : Commit} {u final : Nat} (h : s.memOk) : (s.commitNext c u final).memOk := by
  unfold State.commitNext
  dsimp only
  exact memOk_ite ((logsOnly_setRf _ _ _ _ _).memOk (memOk_mk h)) ((logsOnly_setRf _ _ _ _ _).memOk (memOk_mk h))

theorem memOk_adoptUnit {s : State} {u : Nat} (h : s.memOk) : (s.adoptUnit u).memOk := by
  unfold State.adoptUnit
  split
  · exact h
  · exact memOk_ite (memOk_commitNext ((logsOnly_setRf _ _ _ _ _).memOk (memOk_adoptVals h))) h

theorem resOk_execCfgCommit {val : BitVec 64} {s : State} (h : s.memOk) : ResOk (execCfgCommit val s) := by
  have hset (u : State) (hu : u.memOk) : ((s.staged.map (fun x => x.2)).foldl
      (fun (t : State) x => match entryReg x.1 with | some r => t.setReg r x.2.toNat | none => t) u).memOk := by
    refine memOk_foldl (fun v x hv => ?_) hu
    split
    · exact memOk_setReg hv
    · exact hv
  unfold execCfgCommit
  dsimp only
  refine resOk_ite (resOk_next (memOk_setRf (memOk_setRf h))) ?_
  split
  · exact resOk_next (memOk_setRf (memOk_setRf (memOk_setRf h)))
  · exact resOk_ite (resOk_next (memOk_setRf (memOk_setRf (hset _ (memOk_setRf h)))))
      (resOk_next (memOk_setRf (memOk_mk (memOk_setRf (hset _ (memOk_setRf h))))))

theorem resOk_execCommitPartialTimeout {unit : Fin 25} {s : State} (h : s.memOk) : ResOk
    (execCommitPartialTimeout unit s) := by
  unfold execCommitPartialTimeout
  split
  · exact resOk_idle h
  · exact resOk_ite (resOk_next (memOk_commitNext h)) (resOk_idle h)

/-! ### Coherence -/

theorem memOk_setL1 {s : State} {c line : Nat} {x : L1Line} (h : s.memOk) : (s.setL1 c line x).memOk := by
  unfold State.setL1
  dsimp only
  exact memOk_mk h

theorem memOk_dropL1 {s : State} {c line : Nat} (h : s.memOk) : (s.dropL1 c line).memOk := by
  unfold State.dropL1
  dsimp only
  exact memOk_mk h

theorem memOk_setMiss {s : State} {c line : Nat} {m : Mshr} (h : s.memOk) : (s.setMiss c line m).memOk := by
  unfold State.setMiss
  dsimp only
  exact memOk_mk h

theorem memOk_endMiss {s : State} {c line : Nat} (h : s.memOk) : (s.endMiss c line).memOk := by
  unfold State.endMiss
  dsimp only
  exact memOk_mk h

theorem memOk_take {s : State} {m : CMsg} (h : s.memOk) : (s.take m).memOk := by
  unfold State.take
  dsimp only
  exact memOk_mk h

theorem memOk_noteLeft {s : State} {c line : Nat} (h : s.memOk) : (s.noteLeft c line).memOk := by
  unfold State.noteLeft
  exact memOk_ite h ((cohOnly_send _ _ _ _).memOk h)

theorem optOk_frameFor {s : State} {line : Nat} {secs : BitVec 4} (h : s.memOk) : OptOk (s.frameFor line secs) := by
  unfold State.frameFor
  dsimp only
  refine optOk_ite (optOk_some ((cachesOnly_fillSecs _ _ _).memOk h)) ?_
  split
  · exact optOk_some ((cachesOnly_fillSecs _ _ _).memOk ((cachesOnly_setDir _ _ _).memOk h))
  · exact optOk_map_of (fun x => (cachesOnly_fillSecs _ _ _).memOk ((cachesOnly_setDir _ _ _).memOk
      ((cachesOnly_evictFrame _ _).memOk ((cachesOnly_fresh _).memOk h))))

theorem memOk_putHome {s : State} {c line : Nat} (h : s.memOk) : (s.putHome c line).memOk := by
  unfold State.putHome
  dsimp only
  exact memOk_ite ((cohOnly_modDir _ _ _).memOk h) h

theorem memOk_freeWb {s : State} {c line : Nat} (h : s.memOk) : (s.freeWb c line).memOk := by
  unfold State.freeWb
  dsimp only
  exact memOk_mk h

theorem memOk_drainPut {s : State} {c : Nat} (h : s.memOk) : (s.drainPut c).memOk := by
  unfold State.drainPut
  split
  · exact memOk_ite (memOk_freeWb (memOk_take h)) (memOk_freeWb (memOk_putHome (memOk_take h)))
  · exact h

theorem memOk_evictLine {s : State} {c line : Nat} (h : s.memOk) : (s.evictLine c line).memOk := by
  unfold State.evictLine
  dsimp only
  split
  · exact h
  · split
    · exact memOk_noteLeft (memOk_dropL1 h)
    · exact memOk_noteLeft ((cohOnly_send _ _ _ _).memOk (memOk_mk (memOk_dropL1 (memOk_ite h (memOk_drainPut h)))))

theorem optOk_makeRoom {s : State} {c line : Nat} (h : s.memOk) : OptOk (s.makeRoom c line) := by
  unfold State.makeRoom
  dsimp only
  exact optOk_ite (optOk_some h) (optOk_map_of (fun x => memOk_evictLine ((cachesOnly_fresh _).memOk h)))

theorem memOk_voidClears {s : State} {d line : Nat} (h : s.memOk) : (s.voidClears d line).memOk := by
  unfold State.voidClears
  dsimp only
  exact memOk_mk h

theorem optOk_cohRead {s : State} {c line : Nat} (h : s.memOk) : OptOk (s.cohRead c line) := by
  unfold State.cohRead
  dsimp only
  refine optOk_ite (optOk_some h) ?_
  refine optOk_ite optOk_none ?_
  refine optOk_map (optOk_bind (optOk_makeRoom h) (fun u h1 => optOk_frameFor h1)) ?_
  intro u h1
  split
  · refine (cohOnly_present _ _ _).memOk ?_
    refine memOk_setL1 ?_
    split
    · exact memOk_ite ((cohOnly_modDir _ _ _).memOk (memOk_setL1 h1)) (memOk_setL1 h1)
    · exact memOk_mk ((cohOnly_modDir _ _ _).memOk h1)
  · exact memOk_ite ((cohOnly_modDir _ _ _).memOk ((cohOnly_present _ _ _).memOk (memOk_setL1 h1)))
      ((cohOnly_present _ _ _).memOk (memOk_setL1 h1))

theorem memOk_forwardLine {s : State} {c line dest : Nat} {excl : Bool} {x : L1Line} (h : s.memOk) :
    (s.forwardLine c line dest excl x).memOk := by
  unfold State.forwardLine
  dsimp only
  refine memOk_ite (memOk_noteLeft ((cohOnly_send _ _ _ _).memOk (memOk_dropL1 (memOk_mk h)))) ?_
  refine (cohOnly_send _ _ _ _).memOk ?_
  split
  · exact (cohOnly_modDir _ _ _).memOk (memOk_setL1 h)
  · exact h
  · exact memOk_setL1 h

theorem memOk_forward {s : State} {c line dest : Nat} {excl : Bool} (h : s.memOk) : (s.forward c line dest excl).memOk := by
  unfold State.forward
  dsimp only
  split
  · exact memOk_forwardLine h
  · split
    · exact memOk_ite ((cohOnly_send _ _ _ _).memOk h) (memOk_ite ((cohOnly_send _ _ _ _).memOk (memOk_mk h))
        ((cohOnly_send _ _ _ _).memOk ((cohOnly_modDir _ _ _).memOk (memOk_mk h))))
    · exact (cohOnly_send _ _ _ _).memOk h

theorem memOk_serveHeld {s : State} {c line : Nat} {fs : List Fwd} (h : s.memOk) : (s.serveHeld c line fs).memOk := by
  unfold State.serveHeld
  exact memOk_foldl (fun u x h1 => memOk_forward h1) h

theorem memOk_storeHit {s : State} {c line : Nat} {secs : BitVec 4} {x : L1Line} (h : s.memOk) :
    (s.storeHit c line secs x).memOk := by
  unfold State.storeHit
  exact memOk_serveHeld (memOk_setL1 h)

theorem optOk_cohWrite {s : State} {c line : Nat} {secs : BitVec 4} (h : s.memOk) : OptOk (s.cohWrite c line secs) := by
  unfold State.cohWrite
  dsimp only
  split
  · exact optOk_some (memOk_storeHit h)
  · exact optOk_some (memOk_storeHit h)
  · exact optOk_ite optOk_none (optOk_map (optOk_bind (optOk_makeRoom h) (fun u h1 => optOk_frameFor h1)) (fun u h1 =>
      (cohOnly_modDir _ _ _).memOk (memOk_voidClears (memOk_setL1 (memOk_mk h1)))))

theorem optOk_cohRecall {s : State} {line : Nat} {secs : BitVec 4} (h : s.memOk) : OptOk (s.cohRecall line secs) := by
  unfold State.cohRecall
  exact optOk_ite optOk_none (optOk_map (optOk_frameFor h) (fun u h1 => (cohOnly_modDir _ _ _).memOk
    ((cachesOnly_recallLine _ _).memOk h1)))

theorem optOk_cohSnoop {s : State} {line : Nat} {secs : BitVec 4} (h : s.memOk) : OptOk (s.cohSnoop line secs) := by
  unfold State.cohSnoop
  exact optOk_ite optOk_none (optOk_frameFor h)

theorem optOk_overLines {f : State → Nat → Option State} {ls : List Nat} {s : State}
    (hf : ∀ (u : State) (x : Nat), u.memOk → OptOk (f u x))
    (h : s.memOk) : OptOk (overLines f ls s) := by
  induction ls generalizing s with
  | nil => exact optOk_some h
  | cons x xs ih => exact optOk_bind (hf s x h) (fun u hu => ih hu)

theorem optOk_homeWrite {s : State} {dpas : List Nat} (h : s.memOk) : OptOk (s.homeWrite dpas) := by
  unfold State.homeWrite
  exact optOk_overLines (fun u x h1 => optOk_cohRecall h1) h

theorem optOk_homeRead {s : State} {dpas : List Nat} (h : s.memOk) : OptOk (s.homeRead dpas) := by
  unfold State.homeRead
  exact optOk_overLines (fun u x h1 => optOk_cohSnoop h1) h

theorem memOk_flushBasin {s : State} {b : Nat} (h : s.memOk) : (s.flushBasin b).memOk := by
  unfold State.flushBasin
  exact (cohOnly_dropCaches _ _ _).memOk h

theorem resOk_request {s : State} {line c : Nat} {excl : Bool} (h : s.memOk) : ResOk (s.request line c excl) := by
  unfold State.request
  dsimp only
  refine resOk_ite (resOk_idle h) ?_
  split
  · exact resOk_idle h
  · rename_i x t e
    have ht : t.memOk := memOk_of_some (optOk_frameFor h) e
    exact resOk_ite (resOk_next ((cohOnly_modDir _ _ _).memOk (memOk_setMiss ht))) (resOk_next
      ((cohOnly_serve _ _ _ _).memOk (memOk_setMiss ht)))

theorem resOk_execGets {c : Fin 672} {line : Nat} {s : State} (h : s.memOk) : ResOk (execGets c line s) := by
  unfold execGets
  exact resOk_clocked h (resOk_ite (resOk_request h) (resOk_idle h))

theorem resOk_execGetm {c : Fin 672} {line : Nat} {s : State} (h : s.memOk) : ResOk (execGetm c line s) := by
  unfold execGetm
  dsimp only
  exact resOk_clocked h (resOk_ite (resOk_request h) (resOk_idle h))

theorem resOk_putArrives {s : State} {k : Put} {c line : Nat} (h : s.memOk) : ResOk (s.putArrives k c line) := by
  unfold State.putArrives
  dsimp only
  split
  · exact resOk_idle h
  · refine resOk_ite ?_ (resOk_idle h)
    refine resOk_next ?_
    refine (cohOnly_send _ _ _ _).memOk ?_
    refine memOk_putHome ?_
    refine memOk_take ?_
    split
    · exact memOk_ite (memOk_evictLine h) h
    · exact h

theorem resOk_execPute {c : Fin 672} {line : Nat} {s : State} (h : s.memOk) : ResOk (execPute c line s) := by
  unfold execPute
  exact resOk_clocked h (resOk_putArrives h)

theorem resOk_execPuto {c : Fin 672} {line : Nat} {s : State} (h : s.memOk) : ResOk (execPuto c line s) := by
  unfold execPuto
  exact resOk_clocked h (resOk_putArrives h)

theorem resOk_execPutm {c : Fin 672} {line : Nat} {s : State} (h : s.memOk) : ResOk (execPutm c line s) := by
  unfold execPutm
  exact resOk_clocked h (resOk_putArrives h)

theorem resOk_arrive {s : State} {c line : Nat} {want : CKind → Bool} {k : State → CMsg → Res} (h : s.memOk)
    (h1 : ∀ (a : State) (a_1 : CMsg), a.memOk → ResOk (k a a_1)) : ResOk (s.arrive c line want k) := by
  unfold State.arrive
  split
  · exact resOk_idle h
  · exact resOk_ite (h1 _ _ (memOk_take h)) (resOk_idle h)

theorem resOk_execPutAck {c : Fin 672} {line : Nat} {s : State} (h : s.memOk) : ResOk (execPutAck c line s) := by
  unfold execPutAck
  exact resOk_clocked h (resOk_arrive h (fun u x h1 => resOk_next (memOk_freeWb h1)))

theorem memOk_forwardAt {s : State} {c line dest : Nat} {excl : Bool} (h : s.memOk) :
    (s.forwardAt c line dest excl).memOk := by
  unfold State.forwardAt
  split
  · exact memOk_ite (memOk_setMiss h) (memOk_forward (memOk_setMiss h))
  · split
    · exact memOk_ite (memOk_forward h) (memOk_setL1 h)
    · exact memOk_forward h

theorem resOk_execFwdgets {c : Fin 672} {line : Nat} {s : State} (h : s.memOk) : ResOk (execFwdgets c line s) := by
  unfold execFwdgets
  refine resOk_clocked h ?_
  split
  · exact resOk_next (memOk_forwardAt (memOk_take h))
  · exact resOk_idle h

theorem resOk_execFwdgetm {c : Fin 672} {line : Nat} {s : State} (h : s.memOk) : ResOk (execFwdgetm c line s) := by
  unfold execFwdgetm
  refine resOk_clocked h ?_
  split
  · exact resOk_next (memOk_forwardAt (memOk_take h))
  · exact resOk_idle h

theorem resOk_execInv {c : Fin 672} {line : Nat} {s : State} (h : s.memOk) : ResOk (execInv c line s) := by
  unfold execInv
  dsimp only
  exact resOk_clocked h (resOk_arrive h (fun u x h1 => resOk_next (memOk_ite
    (memOk_noteLeft (memOk_dropL1 (memOk_mk ((cohOnly_send _ _ _ _).memOk h1)))) (memOk_mk
      ((cohOnly_send _ _ _ _).memOk h1)))))

theorem memOk_endWaits {s : State} {line : Nat} (h : s.memOk) : (s.endWaits line).memOk := by
  unfold State.endWaits
  dsimp only
  refine (cohOnly_serveQueue _ _ _).memOk ?_
  refine (cohOnly_modDir _ _ _).memOk ?_
  refine memOk_foldl ?_ h
  intro u x h1
  split
  · exact (cohOnly_send _ _ _ _).memOk h1
  · exact h1

theorem resOk_execInvAck {c : Fin 672} {line : Nat} {s : State} (h : s.memOk) : ResOk (execInvAck c line s) := by
  unfold execInvAck
  refine resOk_clocked h ?_
  split
  · exact resOk_idle h
  · exact resOk_next (memOk_endWaits ((cohOnly_modDir _ _ _).memOk (memOk_take h)))

theorem resOk_execGetmGrant {c : Fin 672} {line : Nat} {s : State} (h : s.memOk) : ResOk (execGetmGrant c line s) := by
  unfold execGetmGrant
  dsimp only
  refine resOk_clocked h ?_
  split
  · split
    · exact resOk_next h
    · rename_i x t e
      have ht : t.memOk := memOk_of_some (optOk_makeRoom (memOk_take (memOk_take h))) e
      exact resOk_next (memOk_setL1 (memOk_endMiss ht))
  · exact resOk_idle h

theorem resOk_execGetsData {c : Fin 672} {line : Nat} {s : State} (h : s.memOk) : ResOk (execGetsData c line s) := by
  unfold execGetsData
  refine resOk_clocked h ?_
  split
  · refine resOk_ite (resOk_next (memOk_serveHeld (memOk_noteLeft (memOk_endMiss (memOk_take h))))) ?_
    split
    · exact resOk_next h
    · rename_i x t e
      have ht : t.memOk := memOk_of_some (optOk_makeRoom (memOk_take h)) e
      exact resOk_next (memOk_serveHeld (memOk_setL1 (memOk_endMiss ht)))
  · exact resOk_idle h

theorem memOk_beginRecall {s : State} {line : Nat} {k : CKind} {cs : List Nat} (h : s.memOk) :
    (s.beginRecall line k cs).memOk := by
  unfold State.beginRecall
  exact (cohOnly_modDir _ _ _).memOk (memOk_foldl (fun u x h1 => (cohOnly_send _ _ _ _).memOk h1) h)

theorem memOk_snoopReady {s : State} {k : CKind} {c line : Nat} {cs : List Nat} (h : s.memOk) :
    (s.snoopReady k c line cs).memOk := by
  unfold State.snoopReady
  exact memOk_ite (memOk_beginRecall h) h

theorem resOk_execSnpinvdata {c : Fin 672} {line : Nat} {s : State} (h : s.memOk) : ResOk (execSnpinvdata c line s) := by
  unfold execSnpinvdata
  dsimp only
  exact resOk_clocked h (resOk_ite (resOk_arrive (memOk_snoopReady h) (fun u x h1 => resOk_next
    (memOk_ite (memOk_noteLeft (memOk_dropL1 ((cohOnly_send _ _ _ _).memOk h1))) ((cohOnly_send _ _ _ _).memOk h1))))
      (resOk_idle h))

theorem resOk_execSnprd {c : Fin 672} {line : Nat} {s : State} (h : s.memOk) : ResOk (execSnprd c line s) := by
  unfold execSnprd
  dsimp only
  exact resOk_clocked h (resOk_ite (resOk_arrive (memOk_snoopReady h) (fun u x h1 => resOk_next
    ((cohOnly_send _ _ _ _).memOk h1))) (resOk_idle h))

theorem resOk_execSnoopResponse {c : Fin 672} {line : Nat} {s : State} (h : s.memOk) : ResOk
    (execSnoopResponse c line s) := by
  unfold execSnoopResponse
  dsimp only
  refine resOk_clocked h ?_
  split
  · exact resOk_idle h
  · exact resOk_next (memOk_endWaits ((cohOnly_modDir _ _ _).memOk (memOk_take h)))

theorem resOk_execPresenceClear {d : Fin 12} {line : Nat} {s : State} (h : s.memOk) : ResOk
    (execPresenceClear d line s) := by
  unfold execPresenceClear
  dsimp only
  refine resOk_clocked h ?_
  split
  · exact resOk_idle h
  · exact resOk_ite (resOk_next (memOk_take h)) (resOk_next ((cohOnly_modDir _ _ _).memOk (memOk_take h)))

theorem memOk_narrowFill {s : State} {f : NFrame} (h : s.memOk) : (s.narrowFill f).memOk := by
  unfold State.narrowFill
  exact memOk_mk h

theorem memOk_narrowTouch {s : State} {sec : Nat} (h : s.memOk) : (s.narrowTouch sec).memOk := by
  unfold State.narrowTouch
  dsimp only
  split
  · exact (logsOnly_setReg _ _ _).memOk (memOk_narrowFill h)
  · refine memOk_ite (memOk_mk h) ?_
    split
    · exact memOk_narrowFill (memOk_mk h)
    · split
      · exact memOk_narrowFill (memOk_mk h)
      · split
        · exact memOk_narrowFill (memOk_mk h)
        · exact memOk_mk h

theorem resOk_execNcacheConfig {d : Fin 12} {val : BitVec 32} {s : State} (h : s.memOk) : ResOk
    (execNcacheConfig d val s) := by
  unfold execNcacheConfig
  dsimp only
  exact resOk_ite (resOk_next ((logsOnly_dropped _ _ _).memOk h)) (resOk_ite
    (resOk_next ((logsOnly_setRf _ _ _ _ _).memOk h)) (resOk_next (memOk_mk
      ((logsOnly_setRf _ _ _ _ _).memOk ((logsOnly_setRf _ _ _ _ _).memOk ((logsOnly_setRf _ _ _ _ _).memOk h))))))

theorem resOk_execNcacheConversionComplete {d : Fin 12} {s : State} (h : s.memOk) : ResOk
    (execNcacheConversionComplete d s) := by
  unfold execNcacheConversionComplete
  dsimp only
  exact resOk_clocked h (resOk_ite (resOk_idle h) (resOk_ite (resOk_idle h) (resOk_next
    ((logsOnly_setRf _ _ _ _ _).memOk (memOk_mk (memOk_foldl (fun u x h1 => (cachesOnly_evictFrame _ _).memOk h1) h))))))

/-! ### Xlate -/

theorem memOk_drainHeld {s : State} {p n : Nat} (h : s.memOk) : (s.drainHeld p n).memOk := by
  induction n generalizing s with
  | zero => exact h
  | succ n ih =>
    rw [State.drainHeld]
    split
    · exact h
    · exact memOk_ite h (ih ((logsOnly_fringWrite _ _ _).memOk (memOk_with h)))

theorem memOk_addTlb {s : State} {x : TlbEntry} (h : s.memOk) : (s.addTlb x).memOk := by
  unfold State.addTlb
  dsimp only
  exact memOk_mk h

theorem memOk_addWalk {s : State} {c1 : List Wc1} {c2 : List Wc2} (h : s.memOk) : (s.addWalk c1 c2).memOk := by
  unfold State.addWalk
  exact memOk_mk h

theorem memOk_dropXlat {s : State} {gone : TlbEntry → Bool} {gone1 : Wc1 → Bool} {gone2 : Wc2 → Bool} (h : s.memOk) :
    (s.dropXlat gone gone1 gone2).memOk := by
  unfold State.dropXlat
  exact memOk_mk h

theorem memOk_walkAsk {s : State} {die key : Nat} (h : s.memOk) : (s.walkAsk die key).memOk := by
  unfold State.walkAsk
  exact memOk_ite h (memOk_mk h)

theorem memOk_walkEnd {s : State} {die key : Nat} (h : s.memOk) : (s.walkEnd die key).memOk := by
  unfold State.walkEnd
  exact memOk_mk h

theorem memOk_noteIpa {s : State} {p ipa n : Nat} {write : Bool} (h : s.memOk) : (s.noteIpa p ipa n write).memOk := by
  unfold State.noteIpa
  split
  · exact memOk_addWalk ((logsOnly_noteMet _ _ _).memOk h)
  · exact h

theorem excOk_ipaWrite {s : State} {p ipa : Nat} {bs : List Byte} (h : s.memOk) : ExcOk (s.ipaWrite p ipa bs) := by
  unfold State.ipaWrite
  cases s.translate2 p ipa bs.length true with
  | error f => exact excOk_error
  | ok x =>
    change ExcOk (match s.locateN x.1 bs.length with | some ls => _ | none => _)
    split
    · split
      · exact excOk_error
      · split
        · exact excOk_error
        · exact excOk_ok (memOk_writeLocs (memOk_noteIpa h))
    · exact excOk_error

theorem memOk_noteRecord {s : State} {ctx : Nat} (h : s.memOk) : (s.noteRecord ctx).memOk := by
  unfold State.noteRecord
  exact memOk_ite h (memOk_noteIpa h)

theorem memOk_install {s : State} {x : Xlat} (h : s.memOk) : (s.install x).memOk := by
  unfold State.install
  exact memOk_addWalk (memOk_addTlb ((logsOnly_noteMet _ _ _).memOk h))

theorem excFst_ctxPage {s : State} {die ctx va : Nat} {need : Need} (h : s.memOk) : ExcFst (s.ctxPage die ctx va need) := by
  unfold State.ctxPage
  cases s.recordE ctx with
  | error f => exact excFst_error
  | ok r =>
    cases r with
    | none => exact excFst_error
    | some c =>
      change ExcFst (match s.tlbFind die ctx va need with | some e => _ | none => _)
      split
      · split
        · exact excFst_ok (memOk_noteRecord h)
        · exact excFst_error
      · cases s.translate die c.part ctx (fld c.w0.toNat 51 16) va 1 need with
        | error f => exact excFst_error
        | ok x => exact excFst_ok (memOk_install (memOk_noteRecord h))

theorem excFst_ctxAccess {s : State} {die ctx va n : Nat} {need : Need} (h : s.memOk) : ExcFst
    (s.ctxAccess die ctx va n need) := by
  unfold State.ctxAccess
  cases hp : s.ctxPage die ctx va need with
  | error f => exact excFst_error
  | ok x =>
    obtain ⟨t, c, dpa⟩ := x
    change ExcFst (match t.locateN dpa n with | some ls => _ | none => _)
    split
    · exact excFst_ok (memOk_of_ok_fst (excFst_ctxPage h) hp)
    · exact excFst_error

/-! ### Groups -/

theorem memOk_putGroup {s : State} {r : GroupRef} {g : Group} (h : s.memOk) : (s.putGroup r g).memOk := by
  unfold State.putGroup
  exact memOk_mk h

theorem memOk_postGroup {s : State} {r : GroupRef} {g : Group} {l : Launch} {f : FaultInfo} {w0 w1 : Word} (h : s.memOk) :
    (s.postGroup r g l f w0 w1).memOk := by
  unfold State.postGroup
  dsimp only
  exact (logsOnly_post _ _ _).memOk h

theorem memOk_fatal {s : State} {r : GroupRef} {g : Group} {l : Launch} {f : FaultInfo} {w0 w1 : Word} (h : s.memOk) :
    (s.fatal r g l f w0 w1).memOk := by
  unfold State.fatal
  dsimp only
  exact memOk_ite ((endsOnly_failCtx _ _).memOk ((logsOnly_ras _ _).memOk ((endsOnly_failLaunch _ _ _).memOk
    (memOk_postGroup h)))) ((endsOnly_failLaunch _ _ _).memOk (memOk_postGroup h))

theorem memOk_suspend {s : State} {r : GroupRef} {g : Group} {l : Launch} {fetch write atomic : Bool} {va : BitVec 64}
    {lanes : Half} {w0 w1 : Word} (h : s.memOk) : (s.suspend r g l fetch write atomic va lanes w0 w1).memOk := by
  unfold State.suspend
  dsimp only
  exact memOk_putGroup ((logsOnly_post _ _ _).memOk h)

theorem memOk_awaitWalk {s : State} {r : GroupRef} {g : Group} {ctx : Nat} {fetch write atomic : Bool} {va : Nat}
    {lanes : Half} {w0 w1 : Word} (h : s.memOk) : (s.awaitWalk r g ctx fetch write atomic va lanes w0 w1).memOk := by
  unfold State.awaitWalk
  dsimp only
  exact memOk_ite (memOk_putGroup (memOk_walkAsk h)) h

theorem memOk_dropIcache {s : State} {gone : Nat → Bool} (h : s.memOk) : (s.dropIcache gone).memOk := by
  unfold State.dropIcache
  exact memOk_mk h

/-- A fetch leaves the memories as they are. -/
theorem memOk_of_fetchInsn {s t : State} {core ctx pc : Nat} {w0 w1 : Word} {bad : Option Nat} (h : s.memOk)
    (e : s.fetchInsn core ctx pc = .got t w0 w1 bad) : t.memOk := by
  unfold State.fetchInsn at e
  split at e
  · cases e
  · cases e
  · cases e
  · rename_i u v ubad hu
    have huOk := (cachesOnly_fetchWord hu).memOk h
    split at e
    · cases e
      exact huOk
    · split at e
      · cases e
        exact huOk
      · split at e
        · cases e
        · cases e
        · cases e
        · rename_i hv
          cases e
          exact (cachesOnly_fetchWord hv).memOk huOk

theorem resOk_issue {s : State} {r : GroupRef} {e : Enc} {i : Ins} {k : State → Group → Launch → Res} (h : s.memOk)
    (hk : ∀ (u : State) (g : Group) (l : Launch), u.memOk → ResOk (k u g l)) : ResOk (issue s r e i k) := by
  unfold issue
  split
  · exact resOk_idle h
  split
  · exact resOk_idle h
  refine resOk_ite (resOk_next h) (resOk_ite (resOk_next (memOk_fatal h)) ?_)
  split
  · exact resOk_next (memOk_awaitWalk h)
  · exact resOk_next (memOk_fatal h)
  · exact resOk_next h
  · rename_i hf
    exact resOk_next (memOk_fatal (memOk_of_fetchInsn h hf))
  · rename_i hf
    have ht := memOk_of_fetchInsn h hf
    refine resOk_ite ?_ (resOk_ite (resOk_next (memOk_fatal ht)) (resOk_idle h))
    split
    · exact resOk_next (memOk_fatal ht)
    · exact resOk_ite (resOk_next ht) (hk _ _ _ ht)

theorem resOk_finish {s : State} {r : GroupRef} {e : Enc} {g : Group} (h : s.memOk) : ResOk (s.finish r e g) := by
  unfold State.finish
  exact resOk_next (memOk_putGroup h)

theorem resOk_raise {s : State} {r : GroupRef} {e : Enc} {i : Ins} {g : Group} {l : Launch} {code : Nat} {lanes : Half}
    {addr : Nat} (h : s.memOk) : ResOk (raise s r e i g l code lanes addr) := by
  unfold raise
  exact resOk_next (memOk_fatal h)

/-! ### Access -/

theorem memOk_noteUnreplayable {s : State} {launch : Nat} (h : s.memOk) : (s.noteUnreplayable launch).memOk := by
  unfold State.noteUnreplayable
  exact memOk_mk h

theorem optOk_cohAccess {s : State} {u : CohUse} {cache : Nat} {bs : List LaneBytes} {n : Nat} (h : s.memOk) : OptOk
    (s.cohAccess u cache bs n) := by
  unfold State.cohAccess
  refine optOk_overLines ?_ h
  intro u1 x h1
  split
  · exact optOk_cohRead h1
  · exact optOk_cohWrite h1
  · exact optOk_cohRecall h1

theorem resOk_access {s : State} {r : GroupRef} {e : Enc} {i : Ins} {g : Group} {l : Launch} {spc : Bool} {need : Need}
    {u : CohUse} {writes reads scalar : Bool} {n : Nat} {bad : Half} {xs : List LaneAcc} {k : State → List LaneBytes → Res}
      (h : s.memOk) (h1 : ∀ (a : State) (a_1 : List LaneBytes), a.memOk → ResOk (k a a_1)) : ResOk
        (access s r e i g l spc need u writes reads scalar n bad xs k) := by
  unfold access
  dsimp only
  refine resOk_ite (resOk_raise h) ?_
  refine resOk_ite (resOk_ite (resOk_raise h) (resOk_ite (resOk_raise h) (resOk_ite (resOk_next h)
    (resOk_ite (resOk_raise h) (h1 _ _ h))))) ?_
  refine resOk_ite (resOk_raise h) ?_
  refine resOk_ite (resOk_next (memOk_awaitWalk h)) ?_
  refine resOk_ite (resOk_next (memOk_awaitWalk h)) ?_
  refine resOk_ite (resOk_next h) ?_
  refine resOk_ite (resOk_raise h) ?_
  split
  · exact resOk_next h
  · rename_i x t e1
    have ht : t.memOk := memOk_of_some (optOk_cohAccess h) e1
    exact h1 _ _ (memOk_foldl (fun u1 x1 h2 => (cachesOnly_touch _ _ _ _ _ _).memOk h2) ht)

theorem memOk_writeLanes {s : State} {bs : List LaneBytes} {val : LaneBytes → List Byte} (h : s.memOk) :
    (s.writeLanes bs val).memOk := by
  unfold State.writeLanes
  exact memOk_writeLocs h

/-! ### Matrix -/

theorem memOk_zeroSets {s : State} {ps : List Nat} (h : s.memOk) : (s.zeroSets ps).memOk := by
  unfold State.zeroSets
  exact memOk_mk h

theorem memOk_noteSets {s : State} {ps : List Nat} {launch : Option Nat} {ctx : Nat} (h : s.memOk) :
    (s.noteSets ps launch ctx).memOk := by
  unfold State.noteSets
  exact memOk_mk h

theorem memOk_takeEngine {s : State} {core launch ctx : Nat} (h : s.memOk) : (s.takeEngine core launch ctx).memOk := by
  unfold State.takeEngine
  dsimp only
  split
  · exact h
  · exact memOk_mk (memOk_zeroSets h)

theorem memOk_mmaApply {s : State} {c : MtxCmd} (h : s.memOk) : (s.mmaApply c).memOk := by
  unfold State.mmaApply
  dsimp only
  exact memOk_noteSets (memOk_foldl (fun u x h1 => memOk_foldl (fun u1 x1 h2 => memOk_mk h2) h1) (memOk_ite
    (memOk_zeroSets h) h))

theorem memOk_readDrains {s : State} {c : MtxCmd} (h : s.memOk) : (s.readDrains c).memOk := by
  unfold State.readDrains
  dsimp only
  exact memOk_mk h

theorem memOk_dropMtx {s : State} {id : Nat} (h : s.memOk) : (s.dropMtx id).memOk := by
  unfold State.dropMtx
  exact memOk_mk h

theorem memOk_mtxFail {s : State} {c : MtxCmd} {code cols addr : Nat} (h : s.memOk) :
    (s.mtxFail c code cols addr).memOk := by
  unfold State.mtxFail
  dsimp only
  exact (zerosOnly_runZeros _ _).memOk (memOk_ite ((endsOnly_failCtx _ _).memOk ((logsOnly_ras _ _).memOk
    ((endsOnly_failLaunch _ _ _).memOk ((logsOnly_post _ _ _).memOk (memOk_mk h))))) ((endsOnly_failLaunch _ _ _).memOk
      ((logsOnly_post _ _ _).memOk (memOk_mk h))))

theorem resOk_runSolo {s : State} {r : GroupRef} {e : Enc} {i : Ins} {k : State → Group → Launch → Res} (h : s.memOk)
    (h1 : ∀ (a : State) (a_1 : Group) (a_2 : Launch), a.memOk → ResOk (k a a_1 a_2)) : ResOk (runSolo s r e i k) := by
  unfold runSolo
  exact resOk_issue h (fun u x x1 h2 => resOk_ite (resOk_finish h2) (h1 _ _ _ h2))

theorem resOk_queueMtx {s : State} {r : GroupRef} {e : Enc} {i : Ins} {g : Group} {l : Launch} {kind : MtxKind}
    {arr set : Nat} {ta tb tm : BitVec 128} (h : s.memOk) : ResOk (queueMtx s r e i g l kind arr set ta tb tm) := by
  unfold queueMtx
  dsimp only
  exact resOk_ite (resOk_next h) (resOk_finish ((zerosOnly_runZeros _ _).memOk (memOk_mk
    (memOk_takeEngine (memOk_newId h)))))

theorem resOk_execMma {g : GroupRef} {e : Enc} {s : State} (h : s.memOk) : ResOk (execMma g e s) := by
  unfold execMma
  dsimp only
  refine resOk_runSolo h ?_
  intro u x x1 h1
  refine resOk_ite (resOk_next h1) ?_
  split
  · exact resOk_raise h1
  · exact resOk_queueMtx h1

theorem resOk_execMzero {g : GroupRef} {e : Enc} {s : State} (h : s.memOk) : ResOk (execMzero g e s) := by
  unfold execMzero
  dsimp only
  exact resOk_runSolo h (fun u x x1 h1 => resOk_queueMtx h1)

theorem resOk_execMdrain {g : GroupRef} {e : Enc} {s : State} (h : s.memOk) : ResOk (execMdrain g e s) := by
  unfold execMdrain
  dsimp only
  refine resOk_runSolo h ?_
  intro u x x1 h1
  refine resOk_ite (resOk_next h1) ?_
  split
  · exact resOk_raise h1
  · exact resOk_queueMtx h1

theorem resOk_execMmaComplete {id : Nat} {s : State} (h : s.memOk) : ResOk (execMmaComplete id s) := by
  unfold execMmaComplete
  dsimp only
  refine resOk_clocked h ?_
  split
  · exact resOk_idle h
  · refine resOk_ite (resOk_idle h) ?_
    split
    · exact resOk_next ((zerosOnly_runZeros _ _).memOk (memOk_dropMtx (memOk_mmaApply (memOk_readDrains h))))
    · exact resOk_next (memOk_mtxFail h)

theorem memOk_noteResidue {s : State} {c : MtxCmd} {x : Nat × Nat × Nat} (h : s.memOk) : (s.noteResidue c x).memOk := by
  unfold State.noteResidue
  dsimp only
  exact (logsOnly_ras _ _).memOk ((logsOnly_setReg _ _ _).memOk h)

theorem resOk_execMdrainComplete {id : Nat} {bad : BitVec 512} {s : State} (h : s.memOk) : ResOk
    (execMdrainComplete id bad s) := by
  unfold execMdrainComplete
  dsimp only
  refine resOk_clocked h ?_
  split
  · exact resOk_idle h
  · refine resOk_ite (resOk_idle h) ?_
    split
    · exact resOk_next ((zerosOnly_runZeros _ _).memOk (memOk_foldl (fun u x h1 => memOk_poolWrite h1) (memOk_dropMtx h)))
    · exact resOk_next (memOk_mtxFail (memOk_noteResidue h))

theorem resOk_execTldF {g : GroupRef} {e : Enc} {s : State} (h : s.memOk) : ResOk (execTldF g e s) := by
  unfold execTldF
  dsimp only
  refine resOk_issue h ?_
  intro u x x1 h1
  split
  · exact resOk_raise h1
  · exact resOk_ite (resOk_raise h1) (resOk_ite (resOk_next h1) (resOk_ite (resOk_raise h1) (resOk_finish h1)))

theorem resOk_execTstF {g : GroupRef} {e : Enc} {s : State} (h : s.memOk) : ResOk (execTstF g e s) := by
  unfold execTstF
  dsimp only
  refine resOk_issue h ?_
  intro u x x1 h1
  split
  · exact resOk_raise h1
  · exact resOk_ite (resOk_raise h1) (resOk_ite (resOk_raise h1) (resOk_ite (resOk_next h1)
      (resOk_finish (memOk_writeLocs h1))))

/-! ### Dma -/

theorem memOk_holdSides {s : State} {c : DmaCmd} {xs : List DmaSide} (h : s.memOk) : (s.holdSides c xs).memOk := by
  unfold State.holdSides
  exact memOk_foldl (fun u x h1 => (cachesOnly_touch _ _ _ _ _ _).memOk h1) h

theorem memOk_addRow {s : State} {dom ty : Nat} {locs : List Loc} {new : List Byte} (h : s.memOk) :
    (s.addRow dom ty locs new).memOk := by
  unfold State.addRow
  dsimp only
  exact memOk_foldl (fun u x h1 => memOk_writeLocs h1) h

theorem optOk_dmaWrite {s : State} {c : DmaCmd} {dst : DmaSide} {bs : List Byte} (h : s.memOk) : OptOk
    (s.dmaWrite c dst bs) := by
  unfold State.dmaWrite
  exact optOk_map (optOk_homeWrite h) (fun u h1 => memOk_writeLocs h1)

theorem optFst_dmaRead {s : State} {c : DmaCmd} {src : DmaSide} (h : s.memOk) : OptFst (s.dmaRead c src) := by
  unfold State.dmaRead
  exact optFst_map (optOk_homeRead h) (fun u h1 => h1)

theorem memOk_hostAborts {s : State} {locs : List Loc} (h : s.memOk) : (s.hostAborts locs).2.memOk := by
  unfold State.hostAborts
  split
  · exact (cachesOnly_fresh _).memOk h
  · exact h

theorem memOk_noteHost {s : State} {c : DmaCmd} {locs : List Loc} (h : s.memOk) : (s.noteHost c locs).memOk := by
  unfold State.noteHost
  split
  · exact memOk_ite (memOk_noteUnreplayable h) h
  · exact h

theorem optOk_rowWrite {s : State} {c : DmaCmd} {d : List Word} {n : Nat} {das : List Nat} {dst : DmaSide} {out : List Byte}
    (h : s.memOk) : OptOk (s.rowWrite c d n das dst out) := by
  unfold State.rowWrite
  dsimp only
  exact optOk_ite (optOk_map (optOk_homeWrite h) (fun u h1 => memOk_addRow h1)) (optOk_dmaWrite h)

theorem memOk_putDma {s : State} {c : DmaCmd} (h : s.memOk) : (s.putDma c).memOk := by
  unfold State.putDma
  exact memOk_mk h

theorem memOk_dmaDone {s : State} {c : DmaCmd} {status detail : Nat} (h : s.memOk) : (s.dmaDone c status detail).memOk := by
  unfold State.dmaDone
  dsimp only
  refine memOk_ite ?_ ?_
  · refine (endsOnly_failCtx _ _).memOk ?_
    refine (logsOnly_ras _ _).memOk ?_
    refine memOk_ite ?_ ?_
    · split
      · split
        · exact memOk_mk (memOk_ite (memOk_mk h) (memOk_poolWrite (memOk_mk h)))
        · exact memOk_mk h
      · split
        · exact memOk_mk ((logsOnly_setRf _ _ _ _ _).memOk ((logsOnly_setRf _ _ _ _ _).memOk
            (memOk_ite (memOk_mk h) (memOk_poolWrite (memOk_mk h)))))
        · exact memOk_mk ((logsOnly_setRf _ _ _ _ _).memOk ((logsOnly_setRf _ _ _ _ _).memOk (memOk_mk h)))
    · refine memOk_ite ?_ ?_
      · split
        · exact memOk_ite (memOk_mk h) (memOk_poolWrite (memOk_mk h))
        · exact memOk_mk h
      · refine (logsOnly_setRf _ _ _ _ _).memOk ?_
        refine (logsOnly_setRf _ _ _ _ _).memOk ?_
        split
        · exact memOk_ite (memOk_mk h) (memOk_poolWrite (memOk_mk h))
        · exact memOk_mk h
  · refine memOk_ite ?_ ?_
    · split
      · split
        · exact memOk_mk (memOk_ite (memOk_mk h) (memOk_poolWrite (memOk_mk h)))
        · exact memOk_mk h
      · split
        · exact memOk_mk ((logsOnly_setRf _ _ _ _ _).memOk ((logsOnly_setRf _ _ _ _ _).memOk
            (memOk_ite (memOk_mk h) (memOk_poolWrite (memOk_mk h)))))
        · exact memOk_mk ((logsOnly_setRf _ _ _ _ _).memOk ((logsOnly_setRf _ _ _ _ _).memOk (memOk_mk h)))
    · refine memOk_ite ?_ ?_
      · split
        · exact memOk_ite (memOk_mk h) (memOk_poolWrite (memOk_mk h))
        · exact memOk_mk h
      · refine (logsOnly_setRf _ _ _ _ _).memOk ?_
        refine (logsOnly_setRf _ _ _ _ _).memOk ?_
        split
        · exact memOk_ite (memOk_mk h) (memOk_poolWrite (memOk_mk h))
        · exact memOk_mk h

theorem memOk_dmaLost {s : State} {c : DmaCmd} {code : Nat} (h : s.memOk) : (s.dmaLost c code).memOk := by
  unfold State.dmaLost
  dsimp only
  exact memOk_ite (memOk_dmaDone h) ((endsOnly_failLaunch _ _ _).memOk (memOk_dmaDone ((logsOnly_post _ _ _).memOk h)))

theorem memOk_dmaSuspend {s : State} {c : DmaCmd} {n va : Nat} {write onDesc : Bool} (h : s.memOk) :
    (s.dmaSuspend c n va write onDesc).memOk := by
  unfold State.dmaSuspend
  dsimp only
  exact (logsOnly_post _ _ _).memOk (memOk_putDma h)

theorem memOk_dmaFault {s : State} {c : DmaCmd} {n : Nat} {onDesc : Bool} {f : XFault} {va : Nat} {need : Need}
    (h : s.memOk) : (s.dmaFault c n onDesc f va need).memOk := by
  unfold State.dmaFault
  dsimp only
  exact memOk_ite h (memOk_ite (memOk_ite (memOk_dmaLost ((xlatPosts_postXlat _ _ _ _ _ _ _ _ _ _ _ _).memOk h))
    (memOk_putDma ((xlatPosts_postXlat _ _ _ _ _ _ _ _ _ _ _ _).memOk h))) (memOk_dmaSuspend
      ((xlatPosts_postXlat _ _ _ _ _ _ _ _ _ _ _ _).memOk h)))

theorem memOk_dmaMiss {s : State} {c : DmaCmd} {n : Nat} {onDesc : Bool} {va : Nat} {need : Need} (h : s.memOk) :
    (s.dmaMiss c n onDesc va need).memOk := by
  unfold State.dmaMiss
  dsimp only
  exact memOk_ite (memOk_putDma h) (memOk_putDma (memOk_walkAsk h))

theorem memOk_dmaStop {s : State} {c : DmaCmd} {n : Nat} {y3 : DmaStop} (h : s.memOk) : (s.dmaStop c n y3).memOk := by
  unfold State.dmaStop
  split
  · exact memOk_putDma h
  · exact memOk_dmaFault h
  · exact memOk_dmaMiss h

theorem resOk_execDmaCommandStart {id : Nat} {s : State} (h : s.memOk) : ResOk (execDmaCommandStart id s) := by
  unfold execDmaCommandStart
  dsimp only
  refine resOk_clocked h ?_
  split
  · exact resOk_idle h
  · refine resOk_ite (resOk_idle h) ?_
    split
    · exact resOk_next (memOk_dmaLost h)
    · exact resOk_next (memOk_dmaFault h)
    · exact resOk_next (memOk_dmaMiss h)
    · refine resOk_ite (resOk_idle h) ?_
      split
      · exact resOk_idle h
      · rename_i x t e
        have ht : t.memOk := memOk_of_some (optOk_homeRead h) e
        refine resOk_ite (resOk_next (memOk_dmaLost (memOk_holdSides ht))) ?_
        refine resOk_ite (resOk_next (memOk_dmaLost (memOk_holdSides ht))) ?_
        split
        · refine resOk_next ?_
          refine memOk_dmaDone ?_
          refine memOk_putDma ?_
          split
          · exact memOk_ite (memOk_noteUnreplayable (memOk_holdSides ht)) (memOk_holdSides ht)
          · exact memOk_holdSides ht
        · refine resOk_ite ?_ ?_
          · refine resOk_idle ?_
            split
            · exact memOk_ite (memOk_noteUnreplayable (memOk_holdSides ht)) (memOk_holdSides ht)
            · exact memOk_holdSides ht
          · refine resOk_next ?_
            refine memOk_putDma ?_
            split
            · exact memOk_ite (memOk_noteUnreplayable (memOk_holdSides ht)) (memOk_holdSides ht)
            · exact memOk_holdSides ht

theorem resOk_queueDma {kind : Nat} {r : GroupRef} {e : Enc} {s : State} (h : s.memOk) : ResOk (queueDma kind r e s) := by
  unfold queueDma
  dsimp only
  exact resOk_runSolo h (fun u x x1 h1 => resOk_ite (resOk_next h1) (resOk_ite (resOk_raise h1)
    (resOk_ite (resOk_raise h1) (resOk_ite (resOk_raise h1) (resOk_ite (resOk_raise h1)
      (resOk_finish (memOk_mk (memOk_ite (memOk_noteUnreplayable (memOk_newId h1)) (memOk_newId h1)))))))))

theorem resOk_execDmaCopy {g : GroupRef} {e : Enc} {s : State} (h : s.memOk) : ResOk (execDmaCopy g e s) := by
  unfold execDmaCopy
  exact resOk_queueDma h

theorem resOk_execDmaGather {g : GroupRef} {e : Enc} {s : State} (h : s.memOk) : ResOk (execDmaGather g e s) := by
  unfold execDmaGather
  exact resOk_queueDma h

theorem resOk_execDmaScatter {g : GroupRef} {e : Enc} {s : State} (h : s.memOk) : ResOk (execDmaScatter g e s) := by
  unfold execDmaScatter
  exact resOk_queueDma h

theorem resOk_execDmaXpose {g : GroupRef} {e : Enc} {s : State} (h : s.memOk) : ResOk (execDmaXpose g e s) := by
  unfold execDmaXpose
  exact resOk_queueDma h

theorem resOk_execDmaNarrow {g : GroupRef} {e : Enc} {s : State} (h : s.memOk) : ResOk (execDmaNarrow g e s) := by
  unfold execDmaNarrow
  exact resOk_queueDma h

theorem resOk_execDmaBucket {g : GroupRef} {e : Enc} {s : State} (h : s.memOk) : ResOk (execDmaBucket g e s) := by
  unfold execDmaBucket
  exact resOk_queueDma h

theorem memOk_rowDone {s : State} {c : DmaCmd} {d : List Word} {n : Nat} (h : s.memOk) : (s.rowDone c d n).memOk := by
  unfold State.rowDone
  dsimp only
  exact memOk_ite (memOk_poolWrite (memOk_putDma h)) (memOk_putDma h)

theorem memOk_waits {s : State} {c : DmaCmd} (h : s.memOk) : (waits s c).s.memOk := h

theorem memOk_stopped {s : State} {c : DmaCmd} {st : DmaStop} (h : s.memOk) : (stopped s c st).s.memOk := h

theorem memOk_delivered {s : State} {c : DmaCmd} (h : s.memOk) : (delivered s c).s.memOk := h

theorem memOk_stepIte {p : Prop} [Decidable p] {x y : DmaStep} (hx : x.s.memOk) (hy : y.s.memOk) :
    (if p then x else y).s.memOk := by
  split
  · exact hx
  · exact hy

theorem memOk_plainRow {s : State} {c : DmaCmd} {d : List Word} {n : Nat} (h : s.memOk) : (s.plainRow c d n).s.memOk := by
  unfold State.plainRow
  dsimp only
  refine memOk_stepIte (memOk_stopped h) ?_
  split
  · exact memOk_delivered h
  refine memOk_stepIte (memOk_stopped h) (memOk_stepIte (memOk_stopped h) ?_)
  split
  · exact memOk_stopped h
  split
  · exact memOk_waits h
  rename_i hread
  have ht := memOk_of_some_fst (optFst_dmaRead h) hread
  split
  · exact memOk_stopped h
  refine memOk_stepIte (memOk_waits h) (memOk_stepIte (memOk_stopped (memOk_holdSides h))
    (memOk_stepIte (memOk_stopped (memOk_holdSides (memOk_hostAborts ht))) ?_))
  split
  · exact memOk_waits h
  · rename_i hwrite
    have hu := memOk_of_some (optOk_rowWrite (memOk_ite
      (memOk_foldl (fun u x hu => memOk_narrowTouch hu) (memOk_hostAborts ht)) (memOk_hostAborts ht))) hwrite
    exact memOk_delivered (memOk_noteHost (memOk_holdSides (memOk_ite hu (memOk_poolWrite hu))))

theorem memOk_openPacked {s : State} {c : DmaCmd} {d : List Word} (h : s.memOk) : (s.openPacked c d).s.memOk := by
  unfold State.openPacked
  split
  · exact memOk_stopped h
  dsimp only
  refine memOk_stepIte (memOk_waits h) (memOk_stepIte (memOk_stopped h) (memOk_stepIte (memOk_stopped h) ?_))
  split
  · exact memOk_stopped h
  refine memOk_stepIte (memOk_waits h) (memOk_stepIte (memOk_stopped h) (memOk_stepIte (memOk_stopped h) ?_))
  split
  · exact memOk_waits h
  · rename_i hread
    have ht := memOk_of_some (optOk_homeRead h) hread
    exact memOk_stepIte (memOk_stopped (memOk_holdSides (memOk_hostAborts ht)))
      (memOk_delivered (memOk_poolWrite (memOk_holdSides (memOk_hostAborts ht))))

theorem memOk_packedRow {s : State} {c : DmaCmd} {d : List Word} {n : Nat} (h : s.memOk) : (s.packedRow c d n).s.memOk := by
  unfold State.packedRow
  dsimp only
  split
  · exact memOk_stopped h
  refine memOk_stepIte (memOk_waits h) (memOk_stepIte (memOk_stopped h) ?_)
  split
  · exact memOk_waits h
  · rename_i hread
    have ht := memOk_of_some (optOk_homeRead h) hread
    exact memOk_stepIte (memOk_stopped (memOk_holdSides (memOk_hostAborts ht)))
      (memOk_delivered (memOk_holdSides (memOk_foldl (fun u r hu => memOk_poolWrite hu) (memOk_hostAborts ht))))

theorem memOk_bucketCopy {s : State} {c : DmaCmd} {d : List Word} {entry slot : Nat} {tab : List Byte} (h : s.memOk) :
    (s.bucketCopy c d entry slot tab).s.memOk := by
  unfold State.bucketCopy
  dsimp only
  refine memOk_stepIte (memOk_delivered h) ?_
  split
  · exact memOk_stopped h
  · exact memOk_stopped h
  · exact memOk_stopped h
  split
  · exact memOk_waits h
  rename_i hread
  have ht := memOk_of_some_fst (optFst_dmaRead h) hread
  refine memOk_stepIte (memOk_waits h) (memOk_stepIte (memOk_stopped h) (memOk_stepIte
    (memOk_stopped (memOk_hostAborts ht)) ?_))
  split
  · exact memOk_waits h
  · rename_i hwrite
    exact memOk_delivered (memOk_holdSides (memOk_of_some
      (optOk_bind (optOk_dmaWrite (memOk_hostAborts ht)) (fun u hu => optOk_dmaWrite hu)) hwrite))

theorem memOk_bucketRow {s : State} {c : DmaCmd} {d : List Word} {n : Nat} (h : s.memOk) : (s.bucketRow c d n).s.memOk := by
  unfold State.bucketRow
  dsimp only
  refine memOk_stepIte (memOk_stopped h) ?_
  split
  · exact memOk_stopped h
  refine memOk_stepIte (memOk_waits h) (memOk_stepIte (memOk_stopped (memOk_holdSides h))
    (memOk_stepIte (memOk_stopped (memOk_holdSides h)) ?_))
  split
  · exact memOk_bucketCopy h
  split
  · exact memOk_stopped h
  · exact memOk_waits h
  · rename_i hwrite
    have ht := memOk_of_some (optOk_homeWrite h) hwrite
    exact memOk_stepIte (memOk_stopped (memOk_holdSides h)) (memOk_bucketCopy (memOk_holdSides (memOk_writeLocs ht)))

theorem memOk_dmaRow {s : State} {c : DmaCmd} {d : List Word} {n : Nat} (h : s.memOk) : (s.dmaRow c d n).s.memOk := by
  unfold State.dmaRow
  exact memOk_stepIte (memOk_bucketRow h) (memOk_stepIte (memOk_packedRow h) (memOk_plainRow h))

theorem resOk_DmaStep_after {x : DmaStep} {d : List Word} {n : Nat} {s : State} (hx : x.s.memOk) (h : s.memOk) : ResOk
    (x.after d n s) := by
  unfold DmaStep.after
  split
  · exact resOk_idle h
  · exact resOk_ite (resOk_idle h) (resOk_next (memOk_dmaStop hx))
  · exact resOk_next (memOk_dmaStop hx)
  · exact resOk_next (memOk_rowDone hx)

theorem resOk_execDmaRowDelivered {id row : Nat} {s : State} (h : s.memOk) : ResOk (execDmaRowDelivered id row s) := by
  unfold execDmaRowDelivered
  refine resOk_clocked h ?_
  split
  · exact resOk_idle h
  split
  · exact resOk_idle h
  refine resOk_ite (resOk_idle h) (resOk_ite (resOk_ite (resOk_idle h) ?_) (resOk_ite (resOk_idle h)
    (resOk_ite (resOk_idle h)
    (resOk_DmaStep_after (memOk_dmaRow h) h))))
  have hx (d : List Word) (c : DmaCmd) := memOk_openPacked (c := c) (d := d) h
  dsimp only
  split
  · exact resOk_idle h
  · exact resOk_next (memOk_dmaStop (hx _ _))
  · exact resOk_next (memOk_putDma (hx _ _))

theorem resOk_execDmaCommandComplete {id : Nat} {s : State} (h : s.memOk) : ResOk (execDmaCommandComplete id s) := by
  unfold execDmaCommandComplete
  refine resOk_clocked h ?_
  split
  · exact resOk_idle h
  · split
    · exact resOk_idle h
    · refine resOk_ite (resOk_idle h) ?_
      split
      · exact resOk_next (memOk_dmaDone h)
      · exact resOk_ite (resOk_idle h) (resOk_next (memOk_dmaDone h))

/-! ### Vector -/

theorem resOk_runVec {s : State} {r : GroupRef} {e : Enc} {i : Ins} {suse : List Nat} {vuse : Group → Nat → List Nat}
    {k : Group → Launch → Half → Group} (h : s.memOk) : ResOk (runVec s r e i suse vuse k) := by
  unfold runVec
  dsimp only
  exact resOk_issue h (fun u x x1 h1 => resOk_ite (resOk_raise h1) (resOk_finish h1))

theorem resOk_vectorAlu {fn : Nat} {r : GroupRef} {e : Enc} {s : State} (h : s.memOk) : ResOk (vectorAlu fn r e s) := by
  unfold vectorAlu
  exact resOk_runVec h

theorem resOk_vectorSfu {fn : Nat} {r : GroupRef} {e : Enc} {s : State} (h : s.memOk) : ResOk (vectorSfu fn r e s) := by
  unfold vectorSfu
  exact resOk_runVec h

theorem resOk_execVcvt {g : GroupRef} {e : Enc} {s : State} (h : s.memOk) : ResOk (execVcvt g e s) := by
  unfold execVcvt
  dsimp only
  exact resOk_runVec h

theorem resOk_execVcmp {g : GroupRef} {e : Enc} {s : State} (h : s.memOk) : ResOk (execVcmp g e s) := by
  unfold execVcmp
  dsimp only
  exact resOk_runVec h

theorem resOk_predOp {fn : Nat} {r : GroupRef} {e : Enc} {s : State} {f : Group → Half} {suse : List Nat} (h : s.memOk) :
    ResOk (predOp fn r e s f suse) := by
  unfold predOp
  exact resOk_runVec h

theorem resOk_execPand {g : GroupRef} {e : Enc} {s : State} (h : s.memOk) : ResOk (execPand g e s) := by
  unfold execPand
  exact resOk_predOp h

theorem resOk_execPor {g : GroupRef} {e : Enc} {s : State} (h : s.memOk) : ResOk (execPor g e s) := by
  unfold execPor
  exact resOk_predOp h

theorem resOk_execPxor {g : GroupRef} {e : Enc} {s : State} (h : s.memOk) : ResOk (execPxor g e s) := by
  unfold execPxor
  exact resOk_predOp h

theorem resOk_execPnot {g : GroupRef} {e : Enc} {s : State} (h : s.memOk) : ResOk (execPnot g e s) := by
  unfold execPnot
  exact resOk_predOp h

theorem resOk_execPmov {g : GroupRef} {e : Enc} {s : State} (h : s.memOk) : ResOk (execPmov g e s) := by
  unfold execPmov
  exact resOk_predOp h

theorem resOk_execPtos {g : GroupRef} {e : Enc} {s : State} (h : s.memOk) : ResOk (execPtos g e s) := by
  unfold execPtos
  exact resOk_issue h (fun u x x1 h1 => resOk_finish h1)

theorem resOk_execPcnt {g : GroupRef} {e : Enc} {s : State} (h : s.memOk) : ResOk (execPcnt g e s) := by
  unfold execPcnt
  exact resOk_issue h (fun u x x1 h1 => resOk_finish h1)

theorem resOk_execVadd {g : GroupRef} {e : Enc} {s : State} (h : s.memOk) : ResOk (execVadd g e s) := by
  unfold execVadd
  exact resOk_vectorAlu h

theorem resOk_execVsub {g : GroupRef} {e : Enc} {s : State} (h : s.memOk) : ResOk (execVsub g e s) := by
  unfold execVsub
  exact resOk_vectorAlu h

theorem resOk_execVmul {g : GroupRef} {e : Enc} {s : State} (h : s.memOk) : ResOk (execVmul g e s) := by
  unfold execVmul
  exact resOk_vectorAlu h

theorem resOk_execVmad {g : GroupRef} {e : Enc} {s : State} (h : s.memOk) : ResOk (execVmad g e s) := by
  unfold execVmad
  exact resOk_vectorAlu h

theorem resOk_execVmin {g : GroupRef} {e : Enc} {s : State} (h : s.memOk) : ResOk (execVmin g e s) := by
  unfold execVmin
  exact resOk_vectorAlu h

theorem resOk_execVmax {g : GroupRef} {e : Enc} {s : State} (h : s.memOk) : ResOk (execVmax g e s) := by
  unfold execVmax
  exact resOk_vectorAlu h

theorem resOk_execVabs {g : GroupRef} {e : Enc} {s : State} (h : s.memOk) : ResOk (execVabs g e s) := by
  unfold execVabs
  exact resOk_vectorAlu h

theorem resOk_execVneg {g : GroupRef} {e : Enc} {s : State} (h : s.memOk) : ResOk (execVneg g e s) := by
  unfold execVneg
  exact resOk_vectorAlu h

theorem resOk_execVand {g : GroupRef} {e : Enc} {s : State} (h : s.memOk) : ResOk (execVand g e s) := by
  unfold execVand
  exact resOk_vectorAlu h

theorem resOk_execVor {g : GroupRef} {e : Enc} {s : State} (h : s.memOk) : ResOk (execVor g e s) := by
  unfold execVor
  exact resOk_vectorAlu h

theorem resOk_execVxor {g : GroupRef} {e : Enc} {s : State} (h : s.memOk) : ResOk (execVxor g e s) := by
  unfold execVxor
  exact resOk_vectorAlu h

theorem resOk_execVnot {g : GroupRef} {e : Enc} {s : State} (h : s.memOk) : ResOk (execVnot g e s) := by
  unfold execVnot
  exact resOk_vectorAlu h

theorem resOk_execVshl {g : GroupRef} {e : Enc} {s : State} (h : s.memOk) : ResOk (execVshl g e s) := by
  unfold execVshl
  exact resOk_vectorAlu h

theorem resOk_execVshr {g : GroupRef} {e : Enc} {s : State} (h : s.memOk) : ResOk (execVshr g e s) := by
  unfold execVshr
  exact resOk_vectorAlu h

theorem resOk_execVsra {g : GroupRef} {e : Enc} {s : State} (h : s.memOk) : ResOk (execVsra g e s) := by
  unfold execVsra
  exact resOk_vectorAlu h

theorem resOk_execVsel {g : GroupRef} {e : Enc} {s : State} (h : s.memOk) : ResOk (execVsel g e s) := by
  unfold execVsel
  exact resOk_vectorAlu h

theorem resOk_execVclz {g : GroupRef} {e : Enc} {s : State} (h : s.memOk) : ResOk (execVclz g e s) := by
  unfold execVclz
  exact resOk_vectorAlu h

theorem resOk_execVpopc {g : GroupRef} {e : Enc} {s : State} (h : s.memOk) : ResOk (execVpopc g e s) := by
  unfold execVpopc
  exact resOk_vectorAlu h

theorem resOk_execVmov {g : GroupRef} {e : Enc} {s : State} (h : s.memOk) : ResOk (execVmov g e s) := by
  unfold execVmov
  exact resOk_vectorAlu h

theorem resOk_execVrcp {g : GroupRef} {e : Enc} {s : State} (h : s.memOk) : ResOk (execVrcp g e s) := by
  unfold execVrcp
  exact resOk_vectorSfu h

theorem resOk_execVrsq {g : GroupRef} {e : Enc} {s : State} (h : s.memOk) : ResOk (execVrsq g e s) := by
  unfold execVrsq
  exact resOk_vectorSfu h

theorem resOk_execVsqrt {g : GroupRef} {e : Enc} {s : State} (h : s.memOk) : ResOk (execVsqrt g e s) := by
  unfold execVsqrt
  exact resOk_vectorSfu h

theorem resOk_execVexp2 {g : GroupRef} {e : Enc} {s : State} (h : s.memOk) : ResOk (execVexp2 g e s) := by
  unfold execVexp2
  exact resOk_vectorSfu h

theorem resOk_execVlog2 {g : GroupRef} {e : Enc} {s : State} (h : s.memOk) : ResOk (execVlog2 g e s) := by
  unfold execVlog2
  exact resOk_vectorSfu h

theorem resOk_execVsin {g : GroupRef} {e : Enc} {s : State} (h : s.memOk) : ResOk (execVsin g e s) := by
  unfold execVsin
  exact resOk_vectorSfu h

theorem resOk_execVcos {g : GroupRef} {e : Enc} {s : State} (h : s.memOk) : ResOk (execVcos g e s) := by
  unfold execVcos
  exact resOk_vectorSfu h

theorem resOk_execVtanh {g : GroupRef} {e : Enc} {s : State} (h : s.memOk) : ResOk (execVtanh g e s) := by
  unfold execVtanh
  exact resOk_vectorSfu h

theorem resOk_execVsigmoid {g : GroupRef} {e : Enc} {s : State} (h : s.memOk) : ResOk (execVsigmoid g e s) := by
  unfold execVsigmoid
  exact resOk_vectorSfu h

/-! ### Permute -/

theorem resOk_permOp {fn : Nat} {r : GroupRef} {e : Enc} {s : State} (h : s.memOk) : ResOk (permOp fn r e s) := by
  unfold permOp
  dsimp only
  exact resOk_runVec h

theorem resOk_execShfl {g : GroupRef} {e : Enc} {s : State} (h : s.memOk) : ResOk (execShfl g e s) := by
  unfold execShfl
  exact resOk_permOp h

theorem resOk_execBcast {g : GroupRef} {e : Enc} {s : State} (h : s.memOk) : ResOk (execBcast g e s) := by
  unfold execBcast
  exact resOk_permOp h

theorem resOk_execRot {g : GroupRef} {e : Enc} {s : State} (h : s.memOk) : ResOk (execRot g e s) := by
  unfold execRot
  exact resOk_permOp h

theorem resOk_execVtos {g : GroupRef} {e : Enc} {s : State} (h : s.memOk) : ResOk (execVtos g e s) := by
  unfold execVtos
  dsimp only
  exact resOk_issue h (fun u x x1 h1 => resOk_ite (resOk_raise h1) (resOk_finish h1))

theorem resOk_execStov {g : GroupRef} {e : Enc} {s : State} (h : s.memOk) : ResOk (execStov g e s) := by
  unfold execStov
  dsimp only
  exact resOk_runVec h

theorem resOk_redOp {fn : Nat} {r : GroupRef} {e : Enc} {s : State} (h : s.memOk) : ResOk (redOp fn r e s) := by
  unfold redOp
  dsimp only
  exact resOk_issue h (fun u x x1 h1 => resOk_ite (resOk_raise h1) (resOk_finish h1))

theorem resOk_execRedadd {g : GroupRef} {e : Enc} {s : State} (h : s.memOk) : ResOk (execRedadd g e s) := by
  unfold execRedadd
  exact resOk_redOp h

theorem resOk_execRedmin {g : GroupRef} {e : Enc} {s : State} (h : s.memOk) : ResOk (execRedmin g e s) := by
  unfold execRedmin
  exact resOk_redOp h

theorem resOk_execRedmax {g : GroupRef} {e : Enc} {s : State} (h : s.memOk) : ResOk (execRedmax g e s) := by
  unfold execRedmax
  exact resOk_redOp h

theorem resOk_execScanadd {g : GroupRef} {e : Enc} {s : State} (h : s.memOk) : ResOk (execScanadd g e s) := by
  unfold execScanadd
  dsimp only
  exact resOk_runVec h

/-! ### LoadStore -/

theorem resOk_execVld {g : GroupRef} {e : Enc} {s : State} (h : s.memOk) : ResOk (execVld g e s) := by
  unfold execVld
  dsimp only
  exact resOk_issue h (fun u x x1 h1 => resOk_access h1 (fun u1 x2 h2 => resOk_finish h2))

theorem resOk_execVst {g : GroupRef} {e : Enc} {s : State} (h : s.memOk) : ResOk (execVst g e s) := by
  unfold execVst
  dsimp only
  exact resOk_issue h (fun u x x1 h1 => resOk_access h1 (fun u1 x2 h2 => resOk_finish (memOk_writeLanes h2)))

theorem resOk_execSld {g : GroupRef} {e : Enc} {s : State} (h : s.memOk) : ResOk (execSld g e s) := by
  unfold execSld
  dsimp only
  exact resOk_issue h (fun u x x1 h1 => resOk_access h1 (fun u1 x2 h2 => resOk_finish h2))

theorem resOk_execSst {g : GroupRef} {e : Enc} {s : State} (h : s.memOk) : ResOk (execSst g e s) := by
  unfold execSst
  dsimp only
  exact resOk_issue h (fun u x x1 h1 => resOk_access h1 (fun u1 x2 h2 => resOk_finish (memOk_writeLanes h2)))

theorem memOk_atomLanes {aop n ty : Nat} {opd cmp : Nat → Nat} {s : State} {bs : List LaneBytes} (h : s.memOk) :
    (State.atomLanes aop n ty opd cmp s bs).1.memOk := by
  induction bs generalizing s with
  | nil => exact h
  | cons b bs ih => exact ih (memOk_writeLocs h)

theorem resOk_execAtom {g : GroupRef} {e : Enc} {s : State} (h : s.memOk) : ResOk (execAtom g e s) := by
  unfold execAtom
  dsimp only
  exact resOk_issue h (fun u x x1 h1 => resOk_ite (resOk_next h1) (resOk_access h1
    (fun u1 x2 h2 => resOk_ite (resOk_finish (memOk_ite (memOk_atomLanes h2) (memOk_noteUnreplayable (memOk_atomLanes h2))))
      (resOk_finish (memOk_ite (memOk_atomLanes h2) (memOk_noteUnreplayable (memOk_atomLanes h2)))))))

theorem resOk_execFence {g : GroupRef} {e : Enc} {s : State} (h : s.memOk) : ResOk (execFence g e s) := by
  unfold execFence
  exact resOk_issue h (fun u x x1 h1 => resOk_ite (resOk_next h1) (resOk_finish h1))

/-! ### RmoTarget -/

theorem memOk_rmoResult {s : State} {c : RmoCmd} {off : Nat} {bs : List Byte} (h : s.memOk) :
    (s.rmoResult c off bs).memOk := by
  unfold State.rmoResult
  split
  · exact memOk_poolWrite h
  · exact memOk_poolWrite h
  · exact h

theorem memOk_failRmo {s : State} {c : RmoCmd} {f : RmoFail} (h : s.memOk) : (s.failRmo c f).memOk := by
  unfold State.failRmo
  dsimp only
  exact memOk_ite ((endsOnly_failCtx _ _).memOk ((logsOnly_ras _ _).memOk ((endsOnly_failLaunch _ _ _).memOk
    ((logsOnly_post _ _ _).memOk (memOk_mk h))))) ((endsOnly_failLaunch _ _ _).memOk ((logsOnly_post _ _ _).memOk
      (memOk_mk h)))

theorem memOk_failRmoAs {s : State} {c : RmoCmd} {code : Nat} (h : s.memOk) : (s.failRmoAs c code).memOk := by
  unfold State.failRmoAs
  dsimp only
  exact memOk_failRmo h

theorem memOk_failRmos {s : State} {code : Nat} {p : RmoCmd → Bool} (h : s.memOk) : (s.failRmos code p).memOk := by
  unfold State.failRmos
  exact memOk_foldl (fun u x h1 => memOk_ite (memOk_failRmoAs h1) h1) h

theorem memOk_putRmo {s : State} {c : RmoCmd} (h : s.memOk) : (s.putRmo c).memOk := by
  unfold State.putRmo
  exact memOk_mk h

theorem memOk_endLaunch {s : State} {launch status : Nat} (h : s.memOk) : (s.endLaunch launch status).memOk := by
  unfold State.endLaunch
  dsimp only
  exact memOk_failRmos (memOk_foldl (fun u x h1 => memOk_ite (memOk_ite (memOk_dmaLost h1) (memOk_dmaDone h1)) h1) (memOk_mk
    ((endsOnly_failLaunch _ _ _).memOk h)))

theorem memOk_markSuspect {s : State} {launch : Nat} (h : s.memOk) : (s.markSuspect launch).memOk := by
  unfold State.markSuspect
  exact memOk_mk h

theorem memOk_watchdogEnd {s : State} {launch event : Nat} (h : s.memOk) : (s.watchdogEnd launch event).memOk := by
  unfold State.watchdogEnd
  dsimp only
  split
  · exact h
  · exact memOk_markSuspect (memOk_endLaunch ((logsOnly_ras _ _).memOk ((logsOnly_hangRecord _ _ _).memOk h)))

/-! ### Session -/

theorem memOk_putSess {s : State} {i : Nat} {ss : Session} (h : s.memOk) : (s.putSess i ss).memOk := by
  unfold State.putSess
  exact memOk_mk h

theorem memOk_modSess {s : State} {i : Nat} {f : Session → Session} (h : s.memOk) : (s.modSess i f).memOk := by
  unfold State.modSess
  exact memOk_mk h

theorem memOk_sendCtl {s : State} {i opc psn : Nat} {b : Body} {payload : List Byte} (h : s.memOk) :
    (s.sendCtl i opc psn b payload).memOk := by
  unfold State.sendCtl
  dsimp only
  split
  · exact h
  · split
    · exact h
    · exact (logsOnly_emit _ _).memOk (memOk_putSess h)

theorem memOk_sendHello {s : State} {i : Nat} (h : s.memOk) : (s.sendHello i).memOk := by
  unfold State.sendHello
  split
  · exact h
  · exact memOk_sendCtl h

theorem memOk_sendAck {s : State} {i : Nat} (h : s.memOk) : (s.sendAck i).memOk := by
  unfold State.sendAck
  split
  · exact h
  · exact memOk_sendCtl (memOk_modSess h)

theorem memOk_tableFault {s : State} {rule p : Nat} {f : XFault} {write : Bool} (h : s.memOk) :
    (s.tableFault rule p f write).memOk := by
  unfold State.tableFault
  exact (logsOnly_dropped _ _ _).memOk ((xlatPosts_weirFault _ _ _ _ _).memOk h)

theorem memOk_sessStatus {s : State} {i st : Nat} {act : State → State} (h : s.memOk)
    (h1 : ∀ (a : State), a.memOk → (act a).memOk) : (s.sessStatus i st act).memOk := by
  unfold State.sessStatus
  split
  · rename_i x t e
    have ht : t.memOk := memOk_of_ok (excOk_ipaWrite h) e
    exact h1 _ ht
  · exact memOk_ite h (memOk_tableFault h)

theorem memOk_setSessSt {s : State} {i st : Nat} (h : s.memOk) : (s.setSessSt i st).memOk := by
  unfold State.setSessSt
  exact memOk_sessStatus (memOk_modSess h) (fun u h1 => h1)

theorem memOk_failSess {s : State} {i code st : Nat} (h : s.memOk) : (s.failSess i code st).memOk := by
  unfold State.failSess
  dsimp only
  split
  · exact h
  · exact memOk_ite ((logsOnly_fire _ _ _).memOk (memOk_setSessSt (memOk_modSess (memOk_failRmos h)))) (memOk_setSessSt
      (memOk_modSess (memOk_failRmos h)))

theorem memOk_startHello {s : State} {i : Nat} (h : s.memOk) : (s.startHello i).memOk := by
  unfold State.startHello
  dsimp only
  exact memOk_sendHello (memOk_setSessSt (memOk_modSess ((cachesOnly_fresh _).memOk h)))

theorem optOk_sendSeq {s : State} {i opc : Nat} {b : Body} {payload : List Byte} (h : s.memOk) : OptOk
    (s.sendSeq i opc b payload) := by
  unfold State.sendSeq
  dsimp only
  split
  · exact optOk_none
  · refine optOk_ite optOk_none ?_
    split
    · exact optOk_none
    · exact optOk_some (memOk_putSess (memOk_mk h))

/-- What an RMO's next message leaves. -/
theorem memOk_of_sendNext {s t : State} {i : Nat} {ss : Session} {c : RmoCmd} (h : s.memOk)
    (e : s.sendNext i ss c = .more t) : t.memOk := by
  unfold State.sendNext at e
  split at e
  · cases e
  split at e
  · cases e
    exact memOk_failRmoAs h
  split at e
  · cases e
    exact memOk_putRmo h
  · cases e
    exact memOk_failRmo h
  · dsimp only at e
    split at e
    · cases e
    · rename_i hs
      cases e
      exact memOk_putRmo (memOk_of_some (optOk_sendSeq h) hs)

theorem memOk_pump {s : State} {i n : Nat} (h : s.memOk) : (s.pump i n).memOk := by
  induction n generalizing s with
  | zero => exact h
  | succ n ih =>
    rw [State.pump]
    split
    · exact h
    split
    · exact h
    split
    · dsimp only
      split
      · exact h
      · rename_i hs
        exact ih (memOk_modSess (memOk_of_some (optOk_sendSeq h) hs))
    · split
      · exact h
      · split
        · exact h
        · rename_i hs
          exact ih (memOk_of_sendNext h hs)

theorem memOk_pumpAll {s : State} {i : Nat} (h : s.memOk) : (s.pumpAll i).memOk := by
  unfold State.pumpAll
  exact memOk_pump h

theorem memOk_respond {s : State} {i opc : Nat} {b : Body} {payload : List Byte} (h : s.memOk) :
    (s.respond i opc b payload).memOk := by
  unfold State.respond
  dsimp only
  exact memOk_pumpAll (memOk_modSess h)

theorem memOk_tryOpen {s : State} {i : Nat} (h : s.memOk) : (s.tryOpen i).memOk := by
  unfold State.tryOpen
  split
  · exact h
  · exact memOk_ite (memOk_pumpAll (memOk_setSessSt h)) h

theorem memOk_endSess {s : State} {i : Nat} (h : s.memOk) : (s.endSess i).memOk := by
  unfold State.endSess
  dsimp only
  split
  · exact memOk_mk (memOk_failRmos h)
  · exact h

theorem memOk_sessOpen {s : State} {i : Nat} {ws : List Word} (h : s.memOk) : (s.sessOpen i ws).memOk := by
  unfold State.sessOpen
  dsimp only
  exact memOk_ite (memOk_sessStatus h (fun u h1 => memOk_endSess h1)) (memOk_ite
    (memOk_sessStatus h (fun u h1 => memOk_endSess h1)) (memOk_sessStatus h (fun u h1 => memOk_startHello
      (memOk_putSess (memOk_endSess h1)))))

theorem memOk_sessClose {s : State} {i : Nat} (h : s.memOk) : (s.sessClose i).memOk := by
  unfold State.sessClose
  split
  · exact memOk_sessStatus h (fun u h1 => h1)
  · exact memOk_modSess (memOk_failRmos h)

theorem memOk_sessDoorbell {s : State} {val : BitVec 64} (h : s.memOk) : (s.sessDoorbell val).memOk := by
  unfold State.sessDoorbell
  dsimp only
  refine memOk_ite ((logsOnly_dropped _ _ _).memOk h) ?_
  split
  · exact memOk_ite h (memOk_tableFault h)
  · exact memOk_ite ((logsOnly_dropped _ _ _).memOk ((logsOnly_ras _ _).memOk h)) (memOk_ite
      (memOk_sessOpen (memOk_noteIpa h)) (memOk_sessClose (memOk_noteIpa h)))

theorem resOk_execSessionOpen {val : BitVec 64} {s : State} (h : s.memOk) : ResOk (execSessionOpen val s) := by
  unfold execSessionOpen
  exact resOk_next (memOk_sessDoorbell h)

theorem resOk_execSessionClose {val : BitVec 64} {s : State} (h : s.memOk) : ResOk (execSessionClose val s) := by
  unfold execSessionClose
  exact resOk_next (memOk_sessDoorbell h)

theorem resOk_execSessionCloseComplete {idx : Nat} {s : State} (h : s.memOk) : ResOk (execSessionCloseComplete idx s) := by
  unfold execSessionCloseComplete
  split
  · exact resOk_idle h
  · exact resOk_ite (resOk_idle h) (resOk_next (memOk_sessStatus (memOk_modSess (memOk_sendCtl h)) (fun u h1 =>
      memOk_mk h1)))

theorem resOk_execHelloRetry {idx : Nat} {s : State} (h : s.memOk) : ResOk (execHelloRetry idx s) := by
  unfold execHelloRetry
  split
  · exact resOk_idle h
  · exact resOk_ite (resOk_next (memOk_sendHello h)) (resOk_idle h)

theorem memOk_resend {s : State} {i : Nat} {m : SentMsg} (h : s.memOk) : (s.resend i m).memOk := by
  unfold State.resend
  dsimp only
  split
  · exact h
  · split
    · exact h
    · exact (logsOnly_setReg _ _ _).memOk (memOk_putSess (memOk_mk h))

theorem resOk_execRetransmitTimeout {idx : Nat} {s : State} (h : s.memOk) : ResOk (execRetransmitTimeout idx s) := by
  unfold execRetransmitTimeout
  dsimp only
  split
  · exact resOk_idle h
  · refine resOk_ite (resOk_ite (resOk_next (memOk_failSess h)) (resOk_next (memOk_sendHello (memOk_modSess h)))) ?_
    refine resOk_ite (resOk_idle h) ?_
    split
    · exact resOk_idle h
    · exact resOk_ite (resOk_next (memOk_failSess h)) (resOk_next (memOk_foldl (fun u x h1 => memOk_resend h1)
        (memOk_modSess h)))

theorem resOk_execKeepaliveInterval {idx : Nat} {s : State} (h : s.memOk) : ResOk (execKeepaliveInterval idx s) := by
  unfold execKeepaliveInterval
  split
  · exact resOk_idle h
  · exact resOk_ite (resOk_idle h) (resOk_ite (resOk_next (memOk_sendCtl h)) (resOk_next h))

theorem resOk_execPeerSilence {idx : Nat} {s : State} (h : s.memOk) : ResOk (execPeerSilence idx s) := by
  unfold execPeerSilence
  split
  · exact resOk_idle h
  · exact resOk_ite (resOk_next (memOk_failSess h)) (resOk_idle h)

theorem memOk_transmit {s : State} {n : Nat} (h : s.memOk) : (s.transmit n).memOk := by
  unfold State.transmit
  dsimp only
  exact memOk_foldl (fun u x h1 => (logsOnly_emit _ _).memOk h1) (memOk_mk h)

theorem resOk_execArbitrationRoundEnd {n : Fin 48} {s : State} (h : s.memOk) : ResOk (execArbitrationRoundEnd n s) := by
  unfold execArbitrationRoundEnd
  dsimp only
  exact resOk_ite (resOk_ite (resOk_idle h) (resOk_next (memOk_adoptUnit h))) (resOk_next
    (memOk_adoptUnit (memOk_transmit (memOk_foldl (fun u x h1 => memOk_pumpAll h1) h))))

/-! ### Rmo -/

theorem memOk_rmoStart {s : State} {c : RmoCmd} (h : s.memOk) : (s.rmoStart c).memOk := by
  unfold State.rmoStart
  refine memOk_ite h ?_
  split
  · exact memOk_failRmoAs h
  · exact memOk_ite (memOk_failRmoAs h) (memOk_ite (memOk_pumpAll h) (memOk_ite h (memOk_failRmoAs h)))

theorem resOk_queueRmo {fn : Nat} {r : GroupRef} {e : Enc} {s : State} (h : s.memOk) : ResOk (queueRmo fn r e s) := by
  unfold queueRmo
  dsimp only
  refine resOk_runSolo h ?_
  intro u x x1 h1
  refine resOk_ite (resOk_next h1) ?_
  split
  · exact resOk_raise h1
  · exact resOk_ite (resOk_raise h1) (resOk_ite (resOk_finish h1) (resOk_next
      (memOk_rmoStart (memOk_putGroup (memOk_mk (memOk_noteUnreplayable (memOk_newId h1)))))))

theorem resOk_execPut {g : GroupRef} {e : Enc} {s : State} (h : s.memOk) : ResOk (execPut g e s) := by
  unfold execPut
  exact resOk_queueRmo h

theorem resOk_execGet {g : GroupRef} {e : Enc} {s : State} (h : s.memOk) : ResOk (execGet g e s) := by
  unfold execGet
  exact resOk_queueRmo h

theorem resOk_execRatom {g : GroupRef} {e : Enc} {s : State} (h : s.memOk) : ResOk (execRatom g e s) := by
  unfold execRatom
  exact resOk_queueRmo h

theorem resOk_execSig {g : GroupRef} {e : Enc} {s : State} (h : s.memOk) : ResOk (execSig g e s) := by
  unfold execSig
  exact resOk_queueRmo h

theorem resOk_execPuts {g : GroupRef} {e : Enc} {s : State} (h : s.memOk) : ResOk (execPuts g e s) := by
  unfold execPuts
  exact resOk_queueRmo h

theorem resOk_execIput {g : GroupRef} {e : Enc} {s : State} (h : s.memOk) : ResOk (execIput g e s) := by
  unfold execIput
  exact resOk_queueRmo h

theorem resOk_execRed {g : GroupRef} {e : Enc} {s : State} (h : s.memOk) : ResOk (execRed g e s) := by
  unfold execRed
  exact resOk_queueRmo h

/-- What looking up a part of a window's range leaves, whether or not it is refused. -/
theorem memOk_of_targetPart {s : State} {w : Window} {va n : Nat} {need : Need} (h : s.memOk) :
    (∀ a, s.targetPart w va n need = .ok a → a.s.memOk) ∧ ∀ t code off, s.targetPart w va n need = .error
      (t, code, off) → t.memOk := by
  have hrefused {t : State} (f : XFault) (p va : Nat) (ht : t.memOk) : (if f.code == 10 then t
      else t.postXlat f (t.met 15 p w.ctx (t.rootOf none w.ctx) va) need p w.ctx va 0 4 0 0 15).memOk :=
    memOk_ite ht ((xlatPosts_postXlat _ _ _ _ _ _ _ _ _ _ _ _).memOk ht)
  unfold State.targetPart
  dsimp only
  split
  · refine ⟨by rintro a ⟨⟩, ?_⟩
    rintro t code off ⟨⟩
    exact h
  split
  · refine ⟨by rintro a ⟨⟩, ?_⟩
    rintro t code off ⟨⟩
    exact hrefused _ _ _ h
  rename_i hp
  have ht := memOk_of_ok_fst (excFst_ctxPage h) hp
  split
  · refine ⟨by rintro a ⟨⟩, ?_⟩
    rintro t code off ⟨⟩
    exact ht
  split
  · refine ⟨by rintro a ⟨⟩, ?_⟩
    rintro t code off ⟨⟩
    exact hrefused _ _ _ ht
  split
  · refine ⟨by rintro a ⟨⟩, ?_⟩
    rintro t code off ⟨⟩
    exact ht
  · refine ⟨?_, by rintro t code off ⟨⟩⟩
    rintro a ⟨⟩
    exact ht

theorem memOk_of_targetParts {s : State} {w : Window} {need : Need} {ps : List (Nat × Nat)} (h : s.memOk) :
    (∀ a, s.targetParts w need ps = .ok a → a.s.memOk) ∧ ∀ r, s.targetParts w need ps = .error r → r.s.memOk := by
  induction ps generalizing s with
  | nil =>
    refine ⟨?_, by rintro r ⟨⟩⟩
    rintro a ⟨⟩
    exact h
  | cons p ps ih =>
    obtain ⟨va, n⟩ := p
    rw [State.targetParts]
    split
    · rename_i hp
      refine ⟨by rintro a ⟨⟩, ?_⟩
      rintro r ⟨⟩
      exact (memOk_of_targetPart h).2 _ _ _ hp
    · rename_i a hp
      have ha := (memOk_of_targetPart h).1 _ hp
      split
      · rename_i r hr
        refine ⟨by rintro a ⟨⟩, ?_⟩
        rintro r' ⟨⟩
        exact (ih ha).2 _ hr
      · rename_i b hb
        refine ⟨?_, by rintro r ⟨⟩⟩
        rintro b' ⟨⟩
        exact (ih ha).1 b hb

theorem memOk_of_target {s : State} {p win off n : Nat} {right : Window → Bool} {need : Need} (h : s.memOk) :
    (∀ a, s.target p win off n right need = .ok a → a.s.memOk) ∧ ∀ r, s.target p win off n right need = .error r → r.s.memOk := by
  have herror (code o : Nat) : (∀ a, (.error ⟨s, code, o⟩ : Except Refused Target) = .ok a → a.s.memOk) ∧
      ∀ r, (.error ⟨s, code, o⟩ : Except Refused Target) = .error r → r.s.memOk := by
    refine ⟨by rintro a ⟨⟩, ?_⟩
    rintro r ⟨⟩
    exact h
  unfold State.target
  split
  · exact herror _ _
  split
  · exact herror _ _
  split
  · exact herror _ _
  split
  · split
    · refine ⟨?_, by rintro r ⟨⟩⟩
      rintro a ⟨⟩
      exact h
    · exact herror _ _
  · exact memOk_of_targetParts h

/-- What a message leaves at its target, applied or refused. -/
theorem memOk_of_applyT {s : State} {p win off : Nat} {o : TOp} (h : s.memOk) :
    (∀ t bs, s.applyT p win off o = .ok t bs → t.memOk) ∧ ∀ r, s.applyT p win off o = .fail r → r.s.memOk := by
  unfold State.applyT
  split
  · rename_i r hr
    split
    · exact ⟨by rintro t bs ⟨⟩, by rintro r ⟨⟩⟩
    · refine ⟨by rintro t bs ⟨⟩, ?_⟩
      rintro r' ⟨⟩
      exact (memOk_of_target h).2 _ hr
  · rename_i a ha
    have hat := (memOk_of_target h).1 _ ha
    split
    · exact ⟨by rintro t bs ⟨⟩, by rintro r ⟨⟩⟩
    · dsimp only
      split
      · exact ⟨by rintro t bs ⟨⟩, by rintro r ⟨⟩⟩
      · rename_i u hu
        have hut : u.memOk := by
          split at hu
          · exact memOk_of_some (optOk_homeRead hat) hu
          · exact memOk_of_some (optOk_homeWrite hat) hu
        split
        · refine ⟨by rintro t bs ⟨⟩, ?_⟩
          rintro r ⟨⟩
          exact hut
        · refine ⟨fun t bs e => ?_, fun r e => ?_⟩
          · split at e
            · cases e
              exact hut
            · cases e
              exact memOk_writeLocs hut
          · split at e <;> cases e

theorem resOk_execRmoTargetApply {id : Nat} {s : State} (h : s.memOk) : ResOk (execRmoTargetApply id s) := by
  unfold execRmoTargetApply
  refine resOk_clocked h ?_
  split
  · exact resOk_idle h
  refine resOk_ite (resOk_idle h) ?_
  split
  · exact resOk_next (memOk_putRmo h)
  · exact resOk_next (memOk_putRmo h)
  split
  · exact resOk_idle h
  · rename_i hr
    exact resOk_next (memOk_putRmo ((memOk_of_applyT h).2 _ hr))
  · rename_i ht
    exact resOk_next (memOk_putRmo (memOk_rmoResult ((memOk_of_applyT h).1 _ _ ht)))

theorem resOk_execRmoComplete {id : Nat} {s : State} (h : s.memOk) : ResOk (execRmoComplete id s) := by
  unfold execRmoComplete
  split
  · exact resOk_idle h
  · split
    · exact resOk_next (memOk_failRmo h)
    · exact resOk_ite (resOk_next (memOk_mk h)) (resOk_idle h)

theorem resOk_execRmoTimeout {id : Nat} {s : State} (h : s.memOk) : ResOk (execRmoTimeout id s) := by
  unfold execRmoTimeout
  dsimp only
  split
  · exact resOk_idle h
  · refine resOk_next ?_
    refine memOk_markSuspect ?_
    refine memOk_endLaunch ?_
    refine memOk_failRmoAs ?_
    refine (logsOnly_ras _ _).memOk ?_
    split
    · exact (logsOnly_hangRecord _ _ _).memOk h
    · exact h

/-! ### Windows -/

theorem memOk_winStatus {s : State} {p w st : Nat} {act : State → State} (h : s.memOk)
    (h1 : ∀ (a : State), a.memOk → (act a).memOk) : (s.winStatus p w st act).memOk := by
  unfold State.winStatus
  split
  · rename_i x t e
    have ht : t.memOk := memOk_of_ok (excOk_ipaWrite h) e
    exact h1 _ ht
  · exact memOk_ite h (memOk_tableFault h)

theorem memOk_winAct {s : State} {p n : Nat} {w : Nat → Nat} (h : s.memOk) : (s.winAct p n w).memOk := by
  unfold State.winAct
  dsimp only
  refine memOk_ite (memOk_winStatus h (fun u h1 => memOk_mk h1)) ?_
  split
  · exact memOk_mk h
  · exact memOk_winStatus h (fun u h1 => h1)

theorem memOk_winDoorbell {s : State} {fn : Nat} {val : BitVec 32} (h : s.memOk) : (s.winDoorbell fn val).memOk := by
  unfold State.winDoorbell
  dsimp only
  refine memOk_ite ((logsOnly_dropped _ _ _).memOk h) ?_
  split
  · exact memOk_ite h (memOk_tableFault h)
  · exact memOk_ite ((logsOnly_dropped _ _ _).memOk ((logsOnly_ras _ _).memOk h)) (memOk_winAct (memOk_noteIpa h))

theorem resOk_execWindowExport {fn : Nat} {val : BitVec 32} {s : State} (h : s.memOk) : ResOk
    (execWindowExport fn val s) := by
  unfold execWindowExport
  exact resOk_ite (resOk_throughVf h (resOk_next (memOk_winDoorbell h))) resOk_fault

theorem resOk_execWindowWithdraw {fn : Nat} {val : BitVec 32} {s : State} (h : s.memOk) : ResOk
    (execWindowWithdraw fn val s) := by
  unfold execWindowWithdraw
  exact resOk_ite (resOk_throughVf h (resOk_next (memOk_winDoorbell h))) resOk_fault

theorem resOk_execWindowWithdrawComplete {part window : Nat} {s : State} (h : s.memOk) : ResOk
    (execWindowWithdrawComplete part window s) := by
  unfold execWindowWithdrawComplete
  dsimp only
  split
  · exact resOk_idle h
  · refine resOk_ite ?_ (resOk_idle h)
    split
    · rename_i x t e
      have ht : t.memOk := memOk_of_ok (excOk_ipaWrite (memOk_mk h)) e
      exact resOk_next (memOk_mk ht)
    · exact resOk_ite (resOk_idle h) (resOk_next (memOk_tableFault (memOk_mk h)))

/-! ### Invalidate -/

theorem memOk_walkGroup {s : State} {r : GroupRef} {g : Group} {l : Launch} {fetch write atomic : Bool} {va : BitVec 64}
    {lanes : Half} {w0 w1 : Word} (h : s.memOk) : (s.walkGroup r g l fetch write atomic va lanes w0 w1).memOk := by
  unfold State.walkGroup
  dsimp only
  split
  · exact memOk_putGroup (memOk_install h)
  · exact memOk_suspend ((xlatPosts_postXlat _ _ _ _ _ _ _ _ _ _ _ _).memOk h)

theorem memOk_walkDma {s : State} {id : Nat} {a : DmaAsk} (h : s.memOk) : (s.walkDma id a).memOk := by
  unfold State.walkDma
  split
  · exact h
  · refine memOk_ite h ?_
    split
    · exact memOk_putDma (memOk_install h)
    · exact memOk_dmaFault h

theorem memOk_finishWalk {s : State} {die key : Nat} (h : s.memOk) : (s.finishWalk die key).memOk := by
  unfold State.finishWalk
  dsimp only
  refine memOk_foldl (fun u x h1 => memOk_walkDma h1) ?_
  refine memOk_foldl ?_ (memOk_walkEnd h)
  intro u x h1
  split
  · exact memOk_walkGroup h1
  · exact h1

theorem resOk_execWalkComplete {u : WalkUnit} {s : State} (h : s.memOk) : ResOk (execWalkComplete u s) := by
  unfold execWalkComplete
  dsimp only
  refine resOk_ite (resOk_next h) ?_
  split
  · split
    · exact resOk_idle h
    · split
      · exact resOk_ite (resOk_idle h) (resOk_ite (resOk_idle h) (resOk_next (memOk_finishWalk h)))
      · exact resOk_idle h
  · split
    · exact resOk_idle h
    · split
      · exact resOk_next (memOk_finishWalk h)
      · exact resOk_idle h
  · refine resOk_ite (resOk_idle h) ?_
    refine resOk_ite (resOk_idle h) ?_
    refine resOk_next ?_
    refine memOk_finishWalk ?_
    split
    · exact memOk_install h
    · exact memOk_ite ((xlatPosts_postXlat _ _ _ _ _ _ _ _ _ _ _ _).memOk h) h

theorem memOk_invDone {s : State} {p : Nat} {i : Inval} (h : s.memOk) : (s.invDone p i).memOk := by
  unfold State.invDone
  dsimp only
  exact memOk_ite ((logsOnly_setRf _ _ _ _ _).memOk h) ((logsOnly_setRf _ _ _ _ _).memOk
    ((logsOnly_setRf _ _ _ _ _).memOk h))

theorem memOk_invSettle {s : State} {p n : Nat} (h : s.memOk) : (s.invSettle p n).memOk := by
  induction n generalizing s with
  | zero => exact h
  | succ n ih =>
    rw [State.invSettle]
    split
    · exact h
    · exact memOk_ite h (ih (memOk_invDone (memOk_with h)))

theorem memOk_submitInv {s : State} {fn p : Nat} {hi : BitVec 64} (h : s.memOk) : (s.submitInv fn p hi).memOk := by
  unfold State.submitInv
  dsimp only
  exact memOk_ite ((logsOnly_dropped _ _ _).memOk h) (memOk_invSettle (memOk_mk ((logsOnly_setRf _ _ _ _ _).memOk h)))

theorem memOk_squashRows {s : State} {i : Inval} (h : s.memOk) : (s.squashRows i).memOk := by
  unfold State.squashRows
  dsimp only
  refine memOk_foldl ?_ h
  intro u x h1
  split
  · exact h1
  · exact (logsOnly_post _ _ _).memOk (memOk_putDma h1)

theorem optOk_invComplete {s : State} {p : Nat} (h : s.memOk) : OptOk (s.invComplete p) := by
  unfold State.invComplete
  dsimp only
  split
  · exact optOk_none
  · refine optOk_some ?_
    refine memOk_invSettle ?_
    refine memOk_invDone ?_
    split
    · exact memOk_mk (memOk_dropIcache (memOk_dropXlat (memOk_squashRows h)))
    · exact memOk_mk (memOk_dropXlat (memOk_squashRows h))

theorem resOk_execS1Range {fn p : Nat} {hi : BitVec 64} {s : State} (h : s.memOk) : ResOk (execS1Range fn p hi s) := by
  unfold execS1Range
  exact resOk_throughVf h (resOk_next (memOk_submitInv h))

theorem resOk_execS1Ctx {fn p : Nat} {hi : BitVec 64} {s : State} (h : s.memOk) : ResOk (execS1Ctx fn p hi s) := by
  unfold execS1Ctx
  exact resOk_throughVf h (resOk_next (memOk_submitInv h))

theorem resOk_execS1All {fn p : Nat} {hi : BitVec 64} {s : State} (h : s.memOk) : ResOk (execS1All fn p hi s) := by
  unfold execS1All
  exact resOk_throughVf h (resOk_next (memOk_submitInv h))

theorem resOk_execS2Range {fn p : Nat} {hi : BitVec 64} {s : State} (h : s.memOk) : ResOk (execS2Range fn p hi s) := by
  unfold execS2Range
  exact resOk_throughVf h (resOk_next (memOk_submitInv h))

theorem resOk_execS2Part {fn p : Nat} {hi : BitVec 64} {s : State} (h : s.memOk) : ResOk (execS2Part fn p hi s) := by
  unfold execS2Part
  exact resOk_throughVf h (resOk_next (memOk_submitInv h))

theorem resOk_execInvalidateAll {fn p : Nat} {hi : BitVec 64} {s : State} (h : s.memOk) : ResOk
    (execInvalidateAll fn p hi s) := by
  unfold execInvalidateAll
  exact resOk_throughVf h (resOk_next (memOk_submitInv h))

theorem resOk_execInvalidationComplete {owner : Nat} {s : State} (h : s.memOk) : ResOk
    (execInvalidationComplete owner s) := by
  unfold execInvalidationComplete
  split
  · rename_i x t e
    have ht : t.memOk := memOk_of_some (optOk_invComplete h) e
    exact resOk_next ht
  · exact resOk_idle h

theorem resOk_execInvalidationWatchdog {owner : Nat} {s : State} (h : s.memOk) : ResOk
    (execInvalidationWatchdog owner s) := by
  unfold execInvalidationWatchdog
  dsimp only
  split
  · rename_i x t e
    have ht : t.memOk := memOk_of_some (optOk_invComplete h) e
    exact resOk_next ((logsOnly_ras _ _).memOk ht)
  · exact resOk_idle h

theorem memOk_failSusp {s : State} {xs : List (Nat × Group × Launch)} (h : s.memOk) : (s.failSusp xs).memOk := by
  unfold State.failSusp
  dsimp only
  exact memOk_foldl (fun u x h1 => (endsOnly_failLaunch _ _ _).memOk h1) (memOk_foldl
    (fun u x h1 => (logsOnly_postSusp _ _ _ _).memOk h1) h)

theorem memOk_failUnits {s : State} {ctx : Nat} {p : Nat → Bool} (h : s.memOk) : (s.failUnits ctx p).memOk := by
  unfold State.failUnits
  dsimp only
  refine memOk_foldl ?_ (memOk_failSusp h)
  intro u x h1
  split
  · exact memOk_ite h1 (memOk_ite (memOk_dmaLost h1) (memOk_dmaDone h1))
  · exact h1

theorem memOk_retryUnits {s : State} {ctx : Nat} (h : s.memOk) : (s.retryUnits ctx).memOk := by
  unfold State.retryUnits
  dsimp only
  exact memOk_mk h

theorem memOk_fresp {s : State} {p ctx : Nat} {act : State → State} (h : s.memOk)
    (h1 : ∀ (a : State), a.memOk → (act a).memOk) : (s.fresp p ctx act).memOk := by
  unfold State.fresp
  exact memOk_ite ((logsOnly_dropped _ _ _).memOk h) (h1 _ (memOk_mk h))

theorem resOk_execFrespRetry {fn p : Nat} {y2 : BitVec 32} {ctx : Ctx} {s : State} (h : s.memOk) : ResOk
    (execFrespRetry fn p y2 ctx s) := by
  unfold execFrespRetry
  exact resOk_throughVf h (resOk_next (memOk_fresp h (fun u h1 => memOk_retryUnits h1)))

theorem resOk_execFrespFailPage {fn p : Nat} {page : BitVec 32} {ctx : Ctx} {s : State} (h : s.memOk) : ResOk
    (execFrespFailPage fn p page ctx s) := by
  unfold execFrespFailPage
  exact resOk_throughVf h (resOk_next (memOk_fresp h (fun u h1 => memOk_failUnits h1)))

theorem resOk_execFrespFailContext {fn p : Nat} {y2 : BitVec 32} {ctx : Ctx} {s : State} (h : s.memOk) : ResOk
    (execFrespFailContext fn p y2 ctx s) := by
  unfold execFrespFailContext
  exact resOk_throughVf h (resOk_next (memOk_fresp h (fun u h1 => memOk_failUnits h1)))

theorem resOk_execFringHeadWrite {fn p : Nat} {val : BitVec 32} {s : State} (h : s.memOk) : ResOk
    (execFringHeadWrite fn p val s) := by
  unfold execFringHeadWrite
  exact resOk_throughVf h (resOk_next (memOk_drainHeld ((logsOnly_setReg _ _ _).memOk h)))

/-! ### Queues -/

theorem memOk_setQueue {s : State} {q : Nat} {x : Queue} (h : s.memOk) : (s.setQueue q x).memOk := by
  unfold State.setQueue
  exact memOk_mk h

theorem memOk_modQueue {s : State} {q : Nat} {f : Queue → Queue} (h : s.memOk) : (s.modQueue q f).memOk := by
  unfold State.modQueue
  exact memOk_mk h

theorem resOk_queRun {s : State} {fn : Nat} {k : State → State} (h : s.memOk) (h1 : ∀ (a : State), a.memOk → (k a).memOk) :
    ResOk (s.queRun fn k) := by
  unfold State.queRun
  exact resOk_ite resOk_fault (resOk_throughVf h (resOk_ite (resOk_next ((logsOnly_dropped _ _ _).memOk h)) (resOk_next
    (h1 _ h))))

theorem memOk_enableQueue {s : State} {fn q : Nat} (h : s.memOk) : (s.enableQueue fn q).memOk := by
  unfold State.enableQueue
  dsimp only
  refine memOk_ite ((regsOnly_queDone _ _ _).memOk (memOk_mk h)) ?_
  refine memOk_ite ((regsOnly_queDone _ _ _).memOk (memOk_mk h)) ?_
  split
  · exact memOk_ite h ((regsOnly_queDone _ _ _).memOk (memOk_mk ((xlatPosts_weirFault _ _ _ _ _).memOk h)))
  · exact memOk_ite ((regsOnly_queDone _ _ _).memOk (memOk_mk ((logsOnly_ras _ _).memOk (memOk_noteIpa h)))) (memOk_ite
      ((regsOnly_queDone _ _ _).memOk (memOk_mk (memOk_noteIpa h))) ((regsOnly_queDone _ _ _).memOk
        (memOk_mk (memOk_setQueue (memOk_noteIpa h)))))

theorem resOk_execEnable {fn : Nat} {queue : BitVec 18} {s : State} (h : s.memOk) : ResOk (execEnable fn queue s) := by
  unfold execEnable
  refine resOk_queRun h ?_
  intro u h1
  split
  · exact (regsOnly_queDone _ _ _).memOk (memOk_mk h1)
  · exact memOk_enableQueue h1

theorem resOk_execResume {fn : Nat} {queue : BitVec 18} {s : State} (h : s.memOk) : ResOk (execResume fn queue s) := by
  unfold execResume
  refine resOk_queRun h ?_
  intro u h1
  split
  · exact (regsOnly_queDone _ _ _).memOk (memOk_mk h1)
  · exact memOk_ite ((regsOnly_queDone _ _ _).memOk (memOk_mk (memOk_modQueue h1))) ((regsOnly_queDone _ _ _).memOk
      (memOk_mk h1))

theorem resOk_execReload {fn : Nat} {ctx : Ctx} {s : State} (h : s.memOk) : ResOk (execReload fn ctx s) := by
  unfold execReload
  exact resOk_queRun h (fun u h1 => memOk_ite ((regsOnly_queDone _ _ _).memOk (memOk_mk h1)) ((regsOnly_queDone _ _ _).memOk
    (memOk_mk h1)))

theorem resOk_execDoorbell {fn idx size : Nat} {val : BitVec 64} {s : State} (h : s.memOk) : ResOk
    (execDoorbell fn idx size val s) := by
  unfold execDoorbell
  dsimp only
  refine resOk_ite resOk_fault ?_
  refine resOk_throughVf h ?_
  refine resOk_ite (resOk_next ((logsOnly_accessError _ _ _ _).memOk h)) ?_
  refine resOk_ite (resOk_next ((logsOnly_dropped _ _ _).memOk h)) ?_
  split
  · exact resOk_next ((logsOnly_dropped _ _ _).memOk h)
  · exact resOk_ite (resOk_next ((logsOnly_dropped _ _ _).memOk h)) (resOk_next (memOk_setQueue h))

theorem memOk_quePoison {s : State} {p ctx : Nat} (h : s.memOk) : (s.quePoison p ctx).memOk := by
  unfold State.quePoison
  dsimp only
  exact (endsOnly_failCtx _ _).memOk ((logsOnly_ras _ _).memOk h)

theorem memOk_queFault {s : State} {x : Queue} {va : Nat} {need : Need} {f : XFault} (h : s.memOk) :
    (s.queFault x va need f).memOk := by
  unfold State.queFault
  dsimp only
  exact memOk_ite (memOk_quePoison h) (memOk_ite ((endsOnly_failCtx _ _).memOk
    ((xlatPosts_postXlat _ _ _ _ _ _ _ _ _ _ _ _).memOk h)) ((xlatPosts_postXlat _ _ _ _ _ _ _ _ _ _ _ _).memOk h))

theorem optFst_readActive {s : State} {ctx : Nat} (h : s.memOk) : OptFst (s.readActive ctx) := by
  unfold State.readActive
  dsimp only
  split
  · exact optFst_some (memOk_ite (memOk_quePoison (memOk_noteRecord h)) (memOk_noteRecord h))
  · exact optFst_ite optFst_none (optFst_some (memOk_ite ((endsOnly_failCtx _ _).memOk
      ((xlatPosts_weirFault _ _ _ _ _).memOk h)) ((xlatPosts_weirFault _ _ _ _ _).memOk h)))

theorem memOk_activate {s : State} {ctx : Nat} (h : s.memOk) : (s.activate ctx).memOk := by
  unfold State.activate
  dsimp only
  refine memOk_ite h ?_
  split
  · exact h
  · rename_i x t x1 e
    have ht : t.memOk := memOk_of_some_fst (optFst_readActive h) e
    exact memOk_mk ht

theorem memOk_activateFront {s : State} {q : Nat} (h : s.memOk) : (s.activateFront q).memOk := by
  unfold State.activateFront
  dsimp only
  exact memOk_ite (memOk_activate (memOk_modQueue h)) h

theorem memOk_writeBack {s : State} {ctx : Nat} (h : s.memOk) : (s.writeBack ctx).memOk := by
  unfold State.writeBack
  split
  · exact h
  · refine memOk_ite h ?_
    split
    · rename_i x t e
      have ht : t.memOk := memOk_of_ok (excOk_ipaWrite h) e
      exact ht
    · exact memOk_ite h ((xlatPosts_weirFault _ _ _ _ _).memOk h)

theorem memOk_activateWaiting {s : State} (h : s.memOk) : s.activateWaiting.memOk := by
  unfold State.activateWaiting
  exact memOk_foldl (fun u x h1 => memOk_activate h1) h

theorem memOk_settleCtx {s : State} {ctx : Nat} (h : s.memOk) : (s.settleCtx ctx).memOk := by
  unfold State.settleCtx
  dsimp only
  exact memOk_ite h (memOk_activateWaiting (memOk_mk (memOk_writeBack h)))

theorem resOk_execDisable {fn : Nat} {queue : BitVec 18} {s : State} (h : s.memOk) : ResOk (execDisable fn queue s) := by
  unfold execDisable
  dsimp only
  refine resOk_queRun h ?_
  intro u h1
  split
  · exact (regsOnly_queDone _ _ _).memOk (memOk_mk h1)
  · exact memOk_ite ((regsOnly_queDone _ _ _).memOk (memOk_mk h1)) (memOk_settleCtx
      ((logsOnly_setRf _ _ _ _ _).memOk (memOk_setQueue (memOk_mk h1))))

theorem resOk_execDisableComplete {q : Nat} {s : State} (h : s.memOk) : ResOk (execDisableComplete q s) := by
  unfold execDisableComplete
  dsimp only
  split
  · exact resOk_idle h
  · exact resOk_ite (resOk_idle h) (resOk_next (memOk_settleCtx ((regsOnly_queDone _ _ _).memOk
      (memOk_mk (memOk_setQueue h)))))

theorem memOk_charge {s : State} (h : s.memOk) : s.charge.memOk := by
  unfold State.charge
  exact memOk_mk h

theorem resOk_execContextRecordWriteback {s : State} (h : s.memOk) : ResOk (execContextRecordWriteback s) := by
  unfold execContextRecordWriteback
  dsimp only
  exact resOk_next (memOk_foldl (fun u x h1 => memOk_settleCtx (memOk_writeBack h1)) (memOk_charge h))

theorem optFst_ringRead {s : State} {x : Queue} {a : Nat} (h : s.memOk) : OptFst (s.ringRead x a) := by
  unfold State.ringRead
  dsimp only
  refine optFst_ite ?_ ?_
  · refine optFst_ite (optFst_some h) ?_
    refine optFst_some ?_
    split
    · exact memOk_quePoison h
    · exact h
  · split
    · exact optFst_ite optFst_none (optFst_some (memOk_queFault h))
    · rename_i x1 t x2 x3 e
      have ht : t.memOk := memOk_of_ok_fst (excFst_ctxAccess h) e
      refine optFst_ite (optFst_some ht) ?_
      refine optFst_ite optFst_none ?_
      refine optFst_map (optOk_homeRead ht) ?_
      intro u h1
      split
      · exact memOk_quePoison h1
      · exact h1

theorem resOk_execPacketRead {q : Nat} {s : State} (h : s.memOk) : ResOk (execPacketRead q s) := by
  unfold execPacketRead
  dsimp only
  refine resOk_ite (resOk_idle h) ?_
  split
  · exact resOk_idle h
  · rename_i x t x1 e
    have ht : t.memOk := memOk_of_some_fst (optFst_ringRead h) e
    exact resOk_next (memOk_ite (memOk_activateFront (memOk_modQueue ht)) (memOk_modQueue ht))

theorem memOk_freshRecord {s : State} {ctx : Nat} (h : s.memOk) : (s.freshRecord ctx).memOk := by
  unfold State.freshRecord
  split
  · exact h
  · refine memOk_ite ?_ h
    split
    · exact h
    · rename_i x t x1 e
      have ht : t.memOk := memOk_of_some_fst (optFst_readActive h) e
      exact memOk_mk ht

theorem memOk_freshFront {s : State} {q : Nat} (h : s.memOk) : (s.freshFront q).memOk := by
  unfold State.freshFront
  dsimp only
  exact memOk_ite (memOk_freshRecord (memOk_ite (memOk_activate h) h)) (memOk_ite (memOk_activate h) h)

theorem memOk_startFront {s : State} {q : Nat} {e : Started} (h : s.memOk) : (s.startFront q e).memOk := by
  unfold State.startFront
  exact memOk_activateFront (memOk_modQueue h)

/-! ### Sched -/

theorem optOk_copySectors {s : State} {src dst : Nat → Option (List Loc)} {is : List Nat} (h : s.memOk) : OptOk
    (s.copySectors src dst is) := by
  induction is generalizing s with
  | nil => exact optOk_some h
  | cons i is ih =>
    rw [State.copySectors]
    split
    · dsimp only
      exact ih (memOk_ite (memOk_poisonLocs (memOk_writeLocs h)) (memOk_writeLocs h))
    · exact optOk_none

theorem memOk_noteImage {s : State} {a : ActiveCtx} (h : s.memOk) : (s.noteImage a).memOk := by
  unfold State.noteImage
  exact memOk_foldl (fun u x h1 => memOk_noteIpa h1) h

theorem optOk_evict {s : State} {core : Nat} {r : Resident} (h : s.memOk) : OptOk (s.evict core r) := by
  unfold State.evict
  dsimp only
  split
  · exact optOk_none
  · exact optOk_map (optOk_copySectors h) (fun u h1 => memOk_mk (memOk_noteImage h1))

theorem optOk_reside {s : State} {core ctx : Nat} {a : ActiveCtx} (h : s.memOk) : OptOk (s.reside core ctx a) := by
  unfold State.reside
  dsimp only
  exact optOk_ite (optOk_some h) (optOk_map (optOk_ite (optOk_map (optOk_copySectors h) (fun u h1 => memOk_noteImage h1))
    (optOk_some h)) (fun u h1 => memOk_mk h1))

theorem memOk_putGroups {s : State} {core : Nat} {gs : List Group} (h : s.memOk) : (s.putGroups core gs).memOk := by
  unfold State.putGroups
  exact memOk_mk h

theorem memOk_chargeSwitch {s : State} {ctx t : Nat} (h : s.memOk) : (s.chargeSwitch ctx t).memOk := by
  unfold State.chargeSwitch
  exact memOk_mk h

theorem memOk_placeNew {s : State} {core q : Nat} {p : Packet} {child : Nat} (h : s.memOk) :
    (s.placeNew core q p child).1.memOk := by
  unfold State.placeNew
  dsimp only
  exact memOk_ite (memOk_activateFront (memOk_ite (memOk_modQueue (memOk_putGroups
    (memOk_mk (memOk_ite (memOk_dropIcache (memOk_newId h)) (memOk_newId h))))) (memOk_startFront
      (memOk_putGroups (memOk_mk (memOk_ite (memOk_dropIcache (memOk_newId h)) (memOk_newId h))))))) (memOk_ite
        (memOk_modQueue (memOk_putGroups (memOk_mk (memOk_ite (memOk_dropIcache (memOk_newId h)) (memOk_newId h)))))
          (memOk_startFront (memOk_putGroups (memOk_mk (memOk_ite (memOk_dropIcache (memOk_newId h)) (memOk_newId h))))))

theorem memOk_freshSet {s : State} {n : Nat} (h : s.memOk) : (s.freshSet n).2.memOk := by
  induction n with
  | zero => exact h
  | succ n ih => exact memOk_fresh ih

theorem memOk_writeSave {s : State} {p base : Nat} {is : List Nat} (h : s.memOk) : (s.writeSave p base is).memOk := by
  induction is generalizing s with
  | nil => exact h
  | cons i is ih =>
    rw [State.writeSave]
    refine ih ?_
    split
    · split
      · exact memOk_writeLocs (memOk_noteIpa (s := (s.freshBytes 32).2) ((logsOnly_freshBytes s 32).memOk h))
      · exact h
    · exact h

theorem memOk_poisonSaved {s : State} {gs : List Group} (h : s.memOk) : (s.poisonSaved gs).2.memOk := by
  induction gs generalizing s with
  | nil => exact h
  | cons g gs ih =>
    have hs : ((s.freshSet 2048).2.freshSet 64).2.memOk := memOk_freshSet (memOk_freshSet h)
    unfold State.poisonSaved
    dsimp only
    exact ih hs

theorem memOk_savedGroups {s : State} {l : Launch} (h : s.memOk) : (s.savedGroups l).2.memOk := by
  unfold State.savedGroups
  dsimp only
  split
  · exact memOk_poisonSaved h
  · exact h

theorem memOk_placeResume {s : State} {id : Nat} (h : s.memOk) : (s.placeResume id).memOk := by
  unfold State.placeResume
  dsimp only
  split
  · exact h
  · exact memOk_mk (memOk_ite (memOk_putGroups (memOk_savedGroups h)) (memOk_takeEngine
      (memOk_putGroups (memOk_savedGroups h))))

theorem memOk_putItem {s : State} {core : Nat} {i : Item} (h : s.memOk) : (s.putItem core i).1.memOk := by
  unfold State.putItem
  dsimp only
  split
  · exact memOk_placeResume h
  · split
    · exact h
    · exact memOk_placeNew h

theorem memOk_failItem {s : State} {i : Item} {st : Nat} (h : s.memOk) : (s.failItem i st).memOk := by
  unfold State.failItem
  dsimp only
  split
  · exact (endsOnly_failLaunch _ _ _).memOk h
  · split
    · exact h
    · exact memOk_ite (memOk_activateFront (memOk_modQueue (memOk_newId h))) (memOk_startFront h)

theorem memOk_placeFault {s : State} {core ctx : Nat} {a : ActiveCtx} {i : Item} {out : List Resident} (h : s.memOk) :
    (s.placeFault core ctx a i out).memOk := by
  unfold State.placeFault
  dsimp only
  split
  · exact memOk_ite h (memOk_failItem ((xlatPosts_weirFault _ _ _ _ _).memOk h))
  · split
    · exact memOk_failItem h
    · split
      · exact h
      · split
        · exact memOk_ite h (memOk_failItem ((xlatPosts_weirFault _ _ _ _ _).memOk h))
        · exact memOk_failItem h

theorem optOk_evictAll {s : State} {core : Nat} {out : List Resident} (h : s.memOk) : OptOk (s.evictAll core out) := by
  unfold State.evictAll
  exact optOk_foldl (fun x x1 h1 => optOk_bind h1 (fun u h2 => optOk_evict h2)) (optOk_some h)

theorem memOk_placeOn {s : State} {core ctx : Nat} {i : Item} {out : List Resident} (h : s.memOk) :
    (s.placeOn core ctx i out).memOk := by
  unfold State.placeOn
  dsimp only
  split
  · exact h
  · split
    · exact memOk_placeFault h
    · rename_i x t e
      have ht : t.memOk := memOk_of_some (optOk_filter (optOk_bind (optOk_evictAll h) (fun u h1 => optOk_reside h1))) e
      exact memOk_ite (memOk_foldl (fun u x1 h1 => memOk_settleCtx h1) (memOk_putItem ht)) (memOk_chargeSwitch
        (memOk_mk (memOk_foldl (fun u x1 h1 => memOk_settleCtx h1) (memOk_putItem ht))))

theorem memOk_itemStop {s : State} {i : Item} {kind ctx : Nat} (h : s.memOk) : (s.itemStop i kind ctx).1.memOk := by
  unfold State.itemStop
  dsimp only
  split
  · exact h
  · exact memOk_freshRecord h

theorem memOk_scheduleItem {s : State} {p : Nat} {i : Item} (h : s.memOk) : (s.scheduleItem p i).memOk := by
  unfold State.scheduleItem
  dsimp only
  split
  · exact h
  · refine memOk_ite h ?_
    split
    · exact memOk_itemStop h
    · exact memOk_failItem (memOk_itemStop h)
    · split
      · exact memOk_ite (memOk_placeOn (memOk_itemStop h)) (memOk_itemStop h)
      · split
        · exact memOk_ite (memOk_placeOn (memOk_itemStop h)) (memOk_itemStop h)
        · split
          · exact memOk_itemStop h
          · exact memOk_ite (memOk_itemStop h) (memOk_mk (memOk_itemStop h))

theorem memOk_schedulePart {s : State} {p : Nat} (h : s.memOk) : (s.schedulePart p).memOk := by
  unfold State.schedulePart
  dsimp only
  exact memOk_foldl (fun u x h1 => memOk_scheduleItem h1) (memOk_charge h)

theorem resOk_execSchedule {p : Nat} {s : State} (h : s.memOk) : ResOk (execSchedule p s) := by
  unfold execSchedule
  exact resOk_next (memOk_schedulePart h)

theorem resOk_execSchedulerTick {s : State} (h : s.memOk) : ResOk (execSchedulerTick s) := by
  unfold execSchedulerTick
  exact resOk_next (memOk_foldl (fun u x h1 => memOk_schedulePart h1) (memOk_charge (memOk_adoptUnit h)))

theorem memOk_savePreempted {s : State} {id : Nat} {l : Launch} (h : s.memOk) : (s.savePreempted id l).memOk := by
  unfold State.savePreempted
  dsimp only
  exact memOk_mk (memOk_writeSave h)

theorem resOk_execPreemptionPoint {id : Nat} {s : State} (h : s.memOk) : ResOk (execPreemptionPoint id s) := by
  unfold execPreemptionPoint
  dsimp only
  split
  · exact resOk_idle h
  · split
    · exact resOk_idle h
    · refine resOk_ite (resOk_idle h) ?_
      refine resOk_ite ?_ ?_
      · split
        · exact resOk_ite (resOk_idle h) (resOk_next ((endsOnly_failLaunch _ _ _).memOk
            ((xlatPosts_weirFault _ _ _ _ _).memOk (memOk_charge (memOk_mk h)))))
        · exact resOk_next ((endsOnly_failLaunch _ _ _).memOk (memOk_charge (memOk_mk h)))
      · split
        · exact resOk_next (memOk_writeBack (memOk_savePreempted (memOk_charge (memOk_mk h))))
        · split
          · exact resOk_next (memOk_writeBack (memOk_savePreempted (memOk_charge (memOk_mk h))))
          · split
            · exact resOk_next (memOk_itemStop (memOk_writeBack (memOk_savePreempted (memOk_charge (memOk_mk h)))))
            · exact resOk_next (memOk_failItem (memOk_itemStop (memOk_writeBack
                (memOk_savePreempted (memOk_charge (memOk_mk h))))))
            · refine resOk_ite (resOk_next (memOk_itemStop (memOk_writeBack
                (memOk_savePreempted (memOk_charge (memOk_mk h)))))) ?_
              split
              · exact resOk_next (memOk_itemStop (memOk_writeBack (memOk_savePreempted (memOk_charge (memOk_mk h)))))
              · split
                · exact resOk_next (memOk_placeFault (memOk_itemStop (memOk_writeBack
                    (memOk_savePreempted (memOk_charge (memOk_mk h))))))
                · rename_i x t e
                  have ht : t.memOk := memOk_of_some (optOk_filter (optOk_bind
                    (optOk_evictAll (memOk_itemStop (memOk_writeBack (memOk_savePreempted (memOk_charge (memOk_mk h))))))
                      (fun u h1 => optOk_reside h1))) e
                  exact resOk_next (memOk_chargeSwitch (memOk_mk (memOk_foldl (fun u x1 h1 => memOk_settleCtx h1)
                    (memOk_putItem ht))))

theorem resOk_execSwitchComplete {core : CoreRef} {s : State} (h : s.memOk) : ResOk (execSwitchComplete core s) := by
  unfold execSwitchComplete
  split
  · exact resOk_idle h
  · exact resOk_ite (resOk_idle h) (resOk_next (memOk_mk h))

/-! ### Packets -/

/-- What finding a queue's bytes leaves. -/
theorem memOk_of_queAccess {s t : State} {x : Queue} {va n : Nat} {need : Need} (h : s.memOk)
    (e : (∃ st, s.queAccess x va n need = .fail t st) ∨ ∃ ls dpas, s.queAccess x va n need = .ok t ls dpas) : t.memOk := by
  unfold State.queAccess at e
  split at e
  · split at e
    · simp at e
    · simp only [QAcc.fail.injEq, reduceCtorEq, exists_false, or_false] at e
      obtain ⟨st, rfl, -⟩ := e
      exact memOk_queFault h
  · rename_i u dpa ls hc
    have hu := memOk_of_ok_fst (excFst_ctxAccess h) hc
    split at e
    · simp only [QAcc.fail.injEq, reduceCtorEq, exists_false, or_false] at e
      obtain ⟨st, rfl, -⟩ := e
      exact hu
    · split at e
      · simp at e
      · simp only [QAcc.ok.injEq, reduceCtorEq, exists_false, false_or] at e
        obtain ⟨ls, dpas, rfl, -⟩ := e
        exact hu

theorem optFst_queRead {s : State} {x : Queue} {va : Nat} (h : s.memOk) : OptFst (s.queRead x va) := by
  unfold State.queRead
  split
  · exact optFst_none
  · rename_i ha
    exact optFst_some (memOk_of_queAccess h (.inl ⟨_, ha⟩))
  · rename_i ha
    refine optFst_map (optOk_homeRead (memOk_of_queAccess h (.inr ⟨_, _, ha⟩))) (fun u hu => ?_)
    dsimp only
    split
    · exact memOk_quePoison hu
    · exact hu

theorem optFst_queUpdate {s : State} {x : Queue} {va n : Nat} {need : Need} {f : List Byte → List Byte} (h : s.memOk) :
    OptFst (s.queUpdate x va n need f) := by
  unfold State.queUpdate
  split
  · exact optFst_none
  · rename_i ha
    exact optFst_some (memOk_of_queAccess h (.inl ⟨_, ha⟩))
  · rename_i ha
    split
    · exact optFst_none
    · rename_i hw
      have hu := memOk_of_some (optOk_homeWrite (memOk_of_queAccess h (.inr ⟨_, _, ha⟩))) hw
      exact optFst_ite (optFst_some (memOk_quePoison hu)) (optFst_some (memOk_writeLocs hu))

theorem resOk_execCondLaunch {q : Nat} {s : State} (h : s.memOk) : ResOk (execCondLaunch q s) := by
  unfold execCondLaunch
  dsimp only
  split
  · exact resOk_idle (memOk_freshFront h)
  · split
    · exact resOk_idle (memOk_freshFront h)
    · rename_i x t x1 e
      have ht : t.memOk := memOk_of_some_fst (optFst_queRead (memOk_freshFront h)) e
      exact resOk_next (memOk_startFront ht)
    · rename_i x t x1 e
      have ht : t.memOk := memOk_of_some_fst (optFst_queRead (memOk_freshFront h)) e
      exact resOk_next (memOk_ite (memOk_startFront ht) (memOk_startFront ht))

theorem optFst_fanoutRows {s : State} {x : Queue} {p : Packet} {is : List Nat} (h : s.memOk) : OptFst
    (s.fanoutRows x p is) := by
  induction is generalizing s with
  | nil => exact optFst_some h
  | cons i is ih =>
    rw [State.fanoutRows]
    split
    · exact optFst_none
    · rename_i hq
      exact optFst_some (memOk_of_some_fst (optFst_queRead h) hq)
    · rename_i hq
      have ht := memOk_of_some_fst (optFst_queRead h) hq
      split
      · exact optFst_none
      · rename_i hf
        exact optFst_some (memOk_of_some_fst (ih ht) hf)
      · rename_i hf
        exact optFst_some (memOk_of_some_fst (ih ht) hf)

theorem resOk_execFanout {q : Nat} {s : State} (h : s.memOk) : ResOk (execFanout q s) := by
  unfold execFanout
  dsimp only
  split
  · exact resOk_idle (memOk_freshFront h)
  · split
    · exact resOk_idle (memOk_freshFront h)
    · rename_i x t x1 e
      have ht : t.memOk := memOk_of_some_fst (optFst_fanoutRows (memOk_freshFront h)) e
      exact resOk_next (memOk_startFront ht)
    · rename_i x t e
      have ht : t.memOk := memOk_of_some_fst (optFst_fanoutRows (memOk_freshFront h)) e
      exact resOk_next (memOk_startFront ht)
    · rename_i x t x1 hc e
      have ht : t.memOk := memOk_of_some_fst (optFst_fanoutRows (memOk_freshFront h)) e
      exact resOk_next (memOk_startFront ht)

theorem resOk_execDmaPacket {q : Nat} {s : State} (h : s.memOk) : ResOk (execDmaPacket q s) := by
  unfold execDmaPacket
  dsimp only
  split
  · exact resOk_idle (memOk_freshFront h)
  · split
    · exact resOk_idle (memOk_freshFront h)
    · exact resOk_ite (resOk_idle (memOk_freshFront h)) (resOk_next (memOk_startFront
        (memOk_mk (memOk_newId (memOk_freshFront h)))))

theorem resOk_execSignalPacket {q : Nat} {s : State} (h : s.memOk) : ResOk (execSignalPacket q s) := by
  unfold execSignalPacket
  dsimp only
  split
  · exact resOk_idle h
  · refine resOk_ite (resOk_idle h) ?_
    split
    · exact resOk_idle h
    · rename_i x t x1 e
      have ht : t.memOk := memOk_of_some_fst (optFst_queUpdate h) e
      exact resOk_next (memOk_startFront ht)

theorem resOk_execWaitPacket {q : Nat} {s : State} (h : s.memOk) : ResOk (execWaitPacket q s) := by
  unfold execWaitPacket
  split
  · exact resOk_idle h
  · split
    · exact resOk_idle h
    · rename_i x t x1 e
      have ht : t.memOk := memOk_of_some_fst (optFst_queRead h) e
      exact resOk_next (memOk_startFront ht)
    · rename_i x t x1 e
      have ht : t.memOk := memOk_of_some_fst (optFst_queRead h) e
      exact resOk_ite (resOk_next (memOk_startFront ht)) (resOk_next ht)

theorem resOk_execWaitTimeout {q : Nat} {s : State} (h : s.memOk) : ResOk (execWaitTimeout q s) := by
  unfold execWaitTimeout
  split
  · exact resOk_idle h
  · exact resOk_ite (resOk_idle h) (resOk_next (memOk_startFront h))

theorem resOk_execPhasePacket {q : Nat} {s : State} (h : s.memOk) : ResOk (execPhasePacket q s) := by
  unfold execPhasePacket
  split
  · exact resOk_idle h
  · exact resOk_next (memOk_startFront (memOk_modQueue h))

theorem resOk_execBarrierPacket {q : Nat} {s : State} (h : s.memOk) : ResOk (execBarrierPacket q s) := by
  unfold execBarrierPacket
  dsimp only
  split
  · exact resOk_idle h
  · refine resOk_ite (resOk_idle h) ?_
    split
    · exact resOk_idle h
    · rename_i x t x1 e
      have ht : t.memOk := memOk_of_some_fst (optFst_ite (optFst_some h) (optFst_queUpdate h)) e
      exact resOk_next (memOk_startFront ht)
    · rename_i x t e
      have ht : t.memOk := memOk_of_some_fst (optFst_ite (optFst_some h) (optFst_queUpdate h)) e
      split
      · exact resOk_next (memOk_modQueue ht)
      · rename_i x1 t1 x2 e1
        have ht1 : t1.memOk := memOk_of_some_fst (optFst_queRead (memOk_modQueue ht)) e1
        exact resOk_next (memOk_startFront ht1)
      · rename_i x1 t1 x2 e1
        have ht1 : t1.memOk := memOk_of_some_fst (optFst_queRead (memOk_modQueue ht)) e1
        exact resOk_next (memOk_ite (memOk_startFront ht1) ht1)

theorem optFst_writeCompletion {s : State} {x : Queue} {e : Started} (h : s.memOk) : OptFst (s.writeCompletion x e) := by
  unfold State.writeCompletion
  dsimp only
  split
  · exact optFst_none
  · rename_i x1 t x2 e1
    have ht : t.memOk := memOk_of_some_fst (optFst_ite (optFst_some h) (optFst_queUpdate h)) e1
    exact optFst_some ht
  · rename_i x1 t e1
    have ht : t.memOk := memOk_of_some_fst (optFst_ite (optFst_some h) (optFst_queUpdate h)) e1
    refine optFst_ite (optFst_some ht) ?_
    split
    · exact optFst_none
    · rename_i x2 t1 x3 e2
      have ht1 : t1.memOk := memOk_of_some_fst (optFst_queUpdate ht) e2
      exact optFst_some ht1
    · rename_i x2 t1 e2
      have ht1 : t1.memOk := memOk_of_some_fst (optFst_queUpdate ht) e2
      exact optFst_some ht1

theorem memOk_queueInterrupt {s : State} {q : Nat} {x : Queue} (h : s.memOk) : (s.queueInterrupt q x).memOk := by
  unfold State.queueInterrupt
  exact memOk_ite ((logsOnly_fire _ _ _).memOk h) ((logsOnly_fire _ _ _).memOk h)

theorem memOk_retire {s : State} {q : Nat} {e : Started} {status : Nat} (h : s.memOk) : (s.retire q e status).memOk := by
  unfold State.retire
  dsimp only
  exact memOk_settleCtx (memOk_writeBack (memOk_charge (memOk_ite (memOk_mk
    (memOk_ite (memOk_queueInterrupt (memOk_modQueue h)) (memOk_modQueue h))) (memOk_ite
      (memOk_queueInterrupt (memOk_modQueue h)) (memOk_modQueue h)))))

theorem resOk_execPacketComplete {q seq : Nat} {s : State} (h : s.memOk) : ResOk (execPacketComplete q seq s) := by
  unfold execPacketComplete
  dsimp only
  split
  · refine resOk_ite ?_ (resOk_idle (memOk_freshFront h))
    split
    · exact resOk_idle (memOk_freshFront h)
    · rename_i x t x1 e
      have ht : t.memOk := memOk_of_some_fst (optFst_writeCompletion (memOk_freshFront h)) e
      exact resOk_next (memOk_retire ht)
  · split
    · split
      · refine resOk_ite ?_ (resOk_idle (memOk_freshFront h))
        split
        · exact resOk_idle (memOk_startFront (memOk_freshFront h))
        · rename_i x t x1 e
          have ht : t.memOk := memOk_of_some_fst (optFst_writeCompletion (memOk_startFront (memOk_freshFront h))) e
          exact resOk_next (memOk_retire ht)
      · exact resOk_idle (memOk_freshFront h)
    · exact resOk_idle (memOk_freshFront h)

/-! ### Basins -/

theorem memOk_emptyCaches {s : State} {b : Nat} (h : s.memOk) : (s.emptyCaches b).memOk := by
  unfold State.emptyCaches
  exact memOk_dropIcache (memOk_flushBasin h)

theorem memOk_zeroPools {s : State} {b : Nat} (h : s.memOk) : (s.zeroPools b).memOk := by
  unfold State.zeroPools
  exact memOk_foldl (fun u x h1 => memOk_zeroPool h1) h

theorem memOk_wake {s : State} {b : Nat} (h : s.memOk) : (s.wake b).memOk := by
  unfold State.wake
  exact memOk_ite h ((logsOnly_setRf _ _ _ _ _).memOk h)

theorem memOk_wakeEnd {s : State} {b : Nat} (h : s.memOk) : (s.wakeEnd b).memOk := by
  unfold State.wakeEnd
  exact (logsOnly_setRf _ _ _ _ _).memOk ((logsOnly_setRf _ _ _ _ _).memOk h)

theorem optOk_evictBasin {s : State} {b : Nat} (h : s.memOk) : OptOk (s.evictBasin b) := by
  unfold State.evictBasin
  exact optOk_foldl (fun x x1 h1 => optOk_bind h1 (fun u h2 => optOk_foldl (fun x2 x3 h3 => optOk_bind h3
    (fun u1 h4 => optOk_map (optOk_evict h4) (fun u2 h5 => memOk_settleCtx h5))) (optOk_some h2))) (optOk_some h)

theorem memOk_retain {s : State} {b : Nat} (h : s.memOk) : (s.retain b).memOk := by
  unfold State.retain
  exact (logsOnly_setRf _ _ _ _ _).memOk (memOk_zeroAcc (memOk_emptyCaches h))

theorem memOk_enterSleep {s : State} {b st : Nat} (h : s.memOk) : (s.enterSleep b st).memOk := by
  unfold State.enterSleep
  refine memOk_ite ((logsOnly_setRf _ _ _ _ _).memOk h) ?_
  refine memOk_ite (memOk_retain h) ?_
  split
  · rename_i x t e
    have ht : t.memOk := memOk_of_some (optOk_evictBasin h) e
    exact (logsOnly_setRf _ _ _ _ _).memOk (memOk_zeroPools (memOk_retain ht))
  · exact memOk_retain h

theorem resOk_execBasinIdle {b : Fin 96} {s : State} (h : s.memOk) : ResOk (execBasinIdle b s) := by
  unfold execBasinIdle
  dsimp only
  exact resOk_ite (resOk_idle h) (resOk_ite (resOk_next h) (resOk_next (memOk_enterSleep h)))

theorem resOk_execGatedToRetained {b : Fin 96} {s : State} (h : s.memOk) : ResOk (execGatedToRetained b s) := by
  unfold execGatedToRetained
  exact resOk_ite (resOk_idle h) (resOk_next (memOk_retain h))

theorem resOk_execIdleExpiryWake {b : Fin 96} {s : State} (h : s.memOk) : ResOk (execIdleExpiryWake b s) := by
  unfold execIdleExpiryWake
  exact resOk_ite (resOk_idle h) (resOk_next (memOk_wake h))

theorem resOk_execBasinWake {b : Fin 96} {why : WakeEvent} {s : State} (h : s.memOk) : ResOk (execBasinWake b why s) := by
  unfold execBasinWake
  exact resOk_ite (resOk_idle h) (resOk_next (memOk_wake h))

theorem resOk_execBasinWakeComplete {b : Fin 96} {s : State} (h : s.memOk) : ResOk (execBasinWakeComplete b s) := by
  unfold execBasinWakeComplete
  exact resOk_ite (resOk_next (memOk_wakeEnd h)) (resOk_idle h)

theorem memOk_writeHint {s : State} {p us : Nat} (h : s.memOk) : (s.writeHint p us).memOk := by
  unfold State.writeHint
  dsimp only
  exact memOk_ite (memOk_foldl (fun u x h1 => memOk_wake h1) (memOk_mk ((logsOnly_setRf _ _ _ _ _).memOk h))) (memOk_mk
    ((logsOnly_setRf _ _ _ _ _).memOk h))

theorem resOk_execIdleHintWrite {p : Nat} {val : BitVec 64} {s : State} (h : s.memOk) : ResOk
    (execIdleHintWrite p val s) := by
  unfold execIdleHintWrite
  exact resOk_ite (resOk_next (memOk_writeHint h)) resOk_fault

theorem memOk_sharedResult {s : State} {tok res : Nat} (h : s.memOk) : (s.sharedResult tok res).memOk := by
  unfold State.sharedResult
  exact (logsOnly_setRf _ _ _ _ _).memOk ((logsOnly_setRf _ _ _ _ _).memOk h)

theorem resOk_execSharedSizeChange {val : BitVec 32} {s : State} (h : s.memOk) : ResOk (execSharedSizeChange val s) := by
  unfold execSharedSizeChange
  dsimp only
  exact resOk_ite (resOk_next (memOk_sharedResult h)) (resOk_ite (resOk_next (memOk_sharedResult h)) (resOk_next
    (memOk_sharedResult (memOk_mk h))))

theorem memOk_formShared {s : State} {size k : Nat} (h : s.memOk) : (s.formShared size k).memOk := by
  unfold State.formShared
  exact memOk_heap (memOk_setRf (memOk_setRf h)) Memory.wf_nil

theorem resOk_execSharedSizeChangeComplete {s : State} (h : s.memOk) : ResOk (execSharedSizeChangeComplete s) := by
  unfold execSharedSizeChangeComplete
  refine resOk_clocked h ?_
  split
  · exact resOk_idle h
  · exact resOk_next ((logsOnly_setRf _ _ _ _ _).memOk (memOk_formShared (memOk_mk h)))

/-! ### Heaps -/

theorem memOk_failChannel {s : State} {c : Nat} (h : s.memOk) : (s.failChannel c).memOk := by
  unfold State.failChannel
  dsimp only
  exact memOk_foldl (fun u x h1 => (logsOnly_post _ _ _).memOk h1) ((logsOnly_ras _ _).memOk
    (memOk_ite ((logsOnly_setRf _ _ _ _ _).memOk h) ((logsOnly_setChanReady _ _ _).memOk
      ((logsOnly_setRf _ _ _ _ _).memOk h))))

theorem resOk_execWholeChannelFailure {ch : Fin 384} {s : State} (h : s.memOk) : ResOk (execWholeChannelFailure ch s) := by
  unfold execWholeChannelFailure
  dsimp only
  exact resOk_ite (resOk_idle h) (resOk_next (memOk_failChannel h))

theorem memOk_rakeWrite {s : State} {key : Option Nat} (h : s.memOk) : (s.rakeWrite key).memOk := by
  unfold State.rakeWrite
  split
  · exact memOk_mk h
  · exact h

theorem memOk_beginRepair {s : State} {key : Nat} (h : s.memOk) : (s.beginRepair key).memOk := by
  unfold State.beginRepair
  exact memOk_mk h

theorem memOk_poisonChannel {s : State} {key : Nat} (h : s.memOk) : (s.poisonChannel key).memOk := by
  unfold State.poisonChannel
  dsimp only
  split
  · exact memOk_ite ((cohOnly_modDir _ _ _).memOk h) (memOk_mk h)
  · exact memOk_mk h

theorem memOk_badSector {s : State} {c key : Nat} (h : s.memOk) : (s.badSector c key).memOk := by
  unfold State.badSector
  dsimp only
  split
  · exact memOk_beginRepair h
  · exact (logsOnly_post _ _ _).memOk (memOk_poisonChannel h)

theorem memOk_countCorrected {s : State} {d : Nat} {patrol : Bool} (h : s.memOk) : (s.countCorrected d patrol).memOk := by
  unfold State.countCorrected
  exact memOk_ite ((logsOnly_setRf _ _ _ _ _).memOk h) h

theorem memOk_corrected {s : State} {c addr : Nat} {patrol : Bool} {key : Option Nat} (h : s.memOk) :
    (s.corrected c addr patrol key).memOk := by
  unfold State.corrected
  dsimp only
  exact memOk_ite ((logsOnly_ras _ _).memOk (memOk_countCorrected h)) (memOk_ite
    ((logsOnly_ras _ _).memOk (memOk_rakeWrite (memOk_mk ((logsOnly_ras _ _).memOk (memOk_countCorrected h)))))
      (memOk_rakeWrite (memOk_mk ((logsOnly_ras _ _).memOk (memOk_countCorrected h)))))

theorem memOk_badRow {s : State} {c sector : Nat} (h : s.memOk) : (s.badRow c sector).memOk := by
  unfold State.badRow
  dsimp only
  exact memOk_ite (memOk_failChannel (memOk_mk h)) (memOk_mk h)

theorem memOk_passEnd {s : State} {c sector : Nat} (h : s.memOk) : (s.passEnd c sector).memOk := by
  unfold State.passEnd
  dsimp only
  exact memOk_ite (memOk_mk ((logsOnly_setRf _ _ _ _ _).memOk h)) h

theorem memOk_channelRead {s : State} {c sector : Nat} {patrol : Bool} {found : SectorState} (h : s.memOk) :
    (s.channelRead c sector patrol found).memOk := by
  unfold State.channelRead
  dsimp only
  split
  · exact h
  · exact memOk_corrected h
  · refine memOk_badRow ?_
    refine memOk_ite (memOk_rakeWrite ((logsOnly_ras _ _).memOk h)) ?_
    split
    · exact memOk_rakeWrite (memOk_badSector (memOk_ite ((logsOnly_ras _ _).memOk h) ((logsOnly_ras _ _).memOk h)))
    · exact memOk_ite ((logsOnly_ras _ _).memOk h) ((logsOnly_ras _ _).memOk h)

theorem memOk_noteError {s : State} {d unit index : Nat} {patrol : Bool} {symbols detail : Nat} {found : SectorState}
    (h : s.memOk) : (s.noteError d unit index patrol symbols detail found).memOk := by
  unfold State.noteError
  split
  · exact h
  · exact (logsOnly_ras _ _).memOk (memOk_countCorrected h)
  · exact (logsOnly_ras _ _).memOk h

theorem memOk_sharedError {s : State} {line sec : Nat} {patrol : Bool} {found : SectorState} (h : s.memOk) :
    (s.sharedError line sec patrol found).memOk := by
  unfold State.sharedError
  dsimp only
  split
  · exact h
  · split
    · exact memOk_ite (memOk_noteError h) (memOk_mk ((cohOnly_modDir _ _ _).memOk (memOk_noteError h)))
    · exact memOk_noteError h

theorem memOk_narrowError {s : State} {region sec : Nat} {patrol : Bool} {found : SectorState} (h : s.memOk) :
    (s.narrowError region sec patrol found).memOk := by
  unfold State.narrowError
  dsimp only
  split
  · exact memOk_mk (memOk_noteError h)
  · exact memOk_noteError h

theorem memOk_l1Error {s : State} {cache line sec : Nat} {x : L1Line} {found : SectorState} (h : s.memOk) :
    (s.l1Error cache line sec x found).memOk := by
  unfold State.l1Error
  dsimp only
  split
  · exact h
  · exact memOk_noteError h
  · refine memOk_ite (memOk_evictLine (memOk_noteError h)) ?_
    split
    · exact memOk_mk (memOk_noteError h)
    · exact memOk_noteError h

theorem memOk_laneError {s : State} {r : GroupRef} {g : Group} {residue : Bool} (h : s.memOk) :
    (s.laneError r g residue).memOk := by
  unfold State.laneError
  dsimp only
  exact memOk_noteError (memOk_putGroup h)

theorem memOk_dropEntry {s : State} {store : ParityStore} {n : Nat} (h : s.memOk) : (s.dropEntry store n).memOk := by
  unfold State.dropEntry
  split
  · exact memOk_mk h
  · exact memOk_mk h
  · exact memOk_mk h
  · exact memOk_mk h
  · exact memOk_mk h

theorem memOk_queueWordLost {s : State} {q : Nat} (h : s.memOk) : (s.queueWordLost q).memOk := by
  unfold State.queueWordLost
  dsimp only
  exact memOk_ite (memOk_queueInterrupt (memOk_modQueue (memOk_quePoison (memOk_noteError h)))) (memOk_modQueue
    (memOk_quePoison (memOk_noteError h)))

theorem resOk_execRakePatrol {site : ErrorSite} {patrol : Bool} {found : SectorState} {s : State} (h : s.memOk) : ResOk
    (execRakePatrol site patrol found s) := by
  unfold execRakePatrol
  dsimp only
  refine resOk_ite (resOk_next h) ?_
  split
  · exact resOk_ite (resOk_idle h) (resOk_next (memOk_ite (memOk_passEnd (memOk_channelRead h)) (memOk_channelRead h)))
  · exact resOk_ite (resOk_idle h) (resOk_next (memOk_sharedError h))
  · exact resOk_ite (resOk_idle h) (resOk_next (memOk_narrowError h))
  · refine resOk_ite (resOk_idle h) ?_
    refine resOk_next ?_
    split
    · exact memOk_poisonLocs (memOk_noteError h)
    · exact memOk_noteError h
  · split
    · exact resOk_next (memOk_l1Error h)
    · exact resOk_idle h
  · split
    · exact resOk_next (memOk_laneError h)
    · exact resOk_idle h
  · split
    · exact resOk_ite (resOk_idle h) (resOk_next (memOk_laneError h))
    · exact resOk_idle h
  · split
    · exact resOk_next (memOk_dropEntry h)
    · exact resOk_idle h
  · split
    · exact resOk_idle h
    · exact resOk_next (memOk_queueWordLost h)
    · exact resOk_next (memOk_noteError h)
  · exact resOk_next (memOk_ite ((logsOnly_setRf _ _ _ _ _).memOk (memOk_noteError h)) (memOk_noteError h))
  · split
    · exact resOk_next (memOk_mk h)
    · exact resOk_idle h

theorem memOk_repairFailed {s clean : State} {bad : NSet} {n off key c : Nat} (h : s.memOk) (h1 : clean.memOk) :
    (s.repairFailed clean bad n off key c).memOk := by
  unfold State.repairFailed
  dsimp only
  exact (logsOnly_ras _ _).memOk (memOk_foldl (fun u x h2 => (logsOnly_post _ _ _).memOk h2) (memOk_mk h1))

theorem resOk_execCommonRepairComplete {row : Nat} {readbackOk : Bool} {s : State} (h : s.memOk) : ResOk
    (execCommonRepairComplete row readbackOk s) := by
  unfold execCommonRepairComplete
  dsimp only
  refine resOk_clocked h ?_
  refine resOk_ite (resOk_idle h) ?_
  split
  · exact resOk_ite (resOk_next ((logsOnly_ras _ _).memOk ((logsOnly_post _ _ _).memOk (memOk_writeLocs (memOk_mk h)))))
      (resOk_next (memOk_repairFailed (memOk_mk h) (memOk_mk h)))
  · exact resOk_next (memOk_repairFailed (memOk_mk h) (memOk_mk h))

theorem memOk_writeCommon {s : State} {n v : Nat} (h : s.memOk) : (s.writeCommon n v).memOk := by
  unfold State.writeCommon
  exact memOk_ite ((logsOnly_accessError _ _ _ _).memOk h) ((logsOnly_setReg _ _ _).memOk h)

theorem resOk_execCommonRangeWrite {n : Fin 8} {val : BitVec 64} {s : State} (h : s.memOk) : ResOk
    (execCommonRangeWrite n val s) := by
  unfold execCommonRangeWrite
  exact resOk_next (memOk_writeCommon h)

/-! ### Partitions -/

theorem memOk_partResult {s : State} {p res why : Nat} (h : s.memOk) : (s.partResult p res why).memOk := by
  unfold State.partResult
  exact (logsOnly_partStatus _ _ _ _ _).memOk h

theorem memOk_partToken {s : State} {p tok : Nat} (h : s.memOk) : (s.partToken p tok).memOk := by
  unfold State.partToken
  exact (logsOnly_setRf _ _ _ _ _).memOk h

theorem memOk_scrubPart {s : State} {p : Nat} (h : s.memOk) : (s.scrubPart p).memOk := by
  unfold State.scrubPart
  dsimp only
  exact memOk_zeroShared (memOk_zeroDeep (memOk_foldl (fun u x h1 => memOk_zeroPools h1) h))

theorem memOk_writeRange {s : State} {p : Nat} {contexts : Bool} {v : Nat} (h : s.memOk) :
    (s.writeRange p contexts v).memOk := by
  unfold State.writeRange
  dsimp only
  exact memOk_ite ((logsOnly_accessError _ _ _ _).memOk h) (memOk_ite ((logsOnly_accessError _ _ _ _).memOk h)
    ((logsOnly_setReg _ _ _).memOk h))

theorem resOk_execSchedRangeWrite {p : Fin 96} {contexts : Bool} {val : BitVec 64} {s : State} (h : s.memOk) : ResOk
    (execSchedRangeWrite p contexts val s) := by
  unfold execSchedRangeWrite
  exact resOk_next (memOk_writeRange h)

theorem memOk_writePartCtl {s : State} {p v : Nat} (h : s.memOk) : (s.writePartCtl p v).memOk := by
  unfold State.writePartCtl
  dsimp only
  exact memOk_ite (memOk_partResult (memOk_ite (memOk_partToken h) h)) (memOk_ite
    (memOk_ite (memOk_partToken ((logsOnly_setRf _ _ _ _ _).memOk h)) ((logsOnly_setRf _ _ _ _ _).memOk h)) (memOk_ite
      (memOk_partResult (memOk_ite (memOk_partToken ((logsOnly_setRf _ _ _ _ _).memOk h))
        ((logsOnly_setRf _ _ _ _ _).memOk h))) (memOk_ite (memOk_partResult
          (memOk_ite (memOk_partToken ((logsOnly_setRf _ _ _ _ _).memOk h)) ((logsOnly_setRf _ _ _ _ _).memOk h))) (memOk_ite
            (memOk_partResult (memOk_ite (memOk_partToken ((logsOnly_setRf _ _ _ _ _).memOk h))
              ((logsOnly_setRf _ _ _ _ _).memOk h))) (memOk_ite (memOk_partResult
                (memOk_ite (memOk_partToken ((logsOnly_setRf _ _ _ _ _).memOk h)) ((logsOnly_setRf _ _ _ _ _).memOk h)))
                  (memOk_mk (memOk_ite ((logsOnly_partStatus _ _ _ _ _).memOk (memOk_ite
                    (memOk_partToken ((logsOnly_setRf _ _ _ _ _).memOk h)) ((logsOnly_setRf _ _ _ _ _).memOk h)))
                      (memOk_foldl (fun u x h1 => memOk_zeroAcc h1) (memOk_scrubPart
                        ((logsOnly_partStatus _ _ _ _ _).memOk (memOk_ite
                          (memOk_partToken ((logsOnly_setRf _ _ _ _ _).memOk h))
                            ((logsOnly_setRf _ _ _ _ _).memOk h))))))))))))

theorem resOk_execPartitionEnable {p : Fin 96} {val : BitVec 64} {s : State} (h : s.memOk) : ResOk
    (execPartitionEnable p val s) := by
  unfold execPartitionEnable
  exact resOk_next (memOk_writePartCtl h)

theorem memOk_writePartBasins {s : State} {p : Nat} {high : Bool} {v : Nat} (h : s.memOk) :
    (s.writePartBasins p high v).memOk := by
  unfold State.writePartBasins
  dsimp only
  split
  · exact (logsOnly_setReg _ _ _).memOk h
  · exact memOk_ite (memOk_partResult h) (memOk_partResult ((logsOnly_setReg _ _ _).memOk h))
  · exact memOk_partResult h
  · exact memOk_partResult h

theorem memOk_writePartTag {s : State} {p v : Nat} (h : s.memOk) : (s.writePartTag p v).memOk := by
  unfold State.writePartTag
  exact memOk_ite (memOk_partResult h) ((logsOnly_setReg _ _ _).memOk h)

theorem resOk_execPartitionBasinWrite {p : Fin 96} {high : Bool} {val : BitVec 64} {s : State} (h : s.memOk) : ResOk
    (execPartitionBasinWrite p high val s) := by
  unfold execPartitionBasinWrite
  exact resOk_next (memOk_writePartBasins h)

theorem memOk_writePartResource {s : State} {p reg v : Nat} (h : s.memOk) : (s.writePartResource p reg v).memOk := by
  unfold State.writePartResource
  dsimp only
  split
  · exact (logsOnly_setReg _ _ _).memOk h
  · exact memOk_partResult h
  · exact memOk_partResult h
  · exact memOk_partResult h

theorem resOk_execPartitionResourceWrite {p : Fin 96} {reg : Fin 7} {val : BitVec 64} {s : State} (h : s.memOk) : ResOk
    (execPartitionResourceWrite p reg val s) := by
  unfold execPartitionResourceWrite
  exact resOk_next (memOk_writePartResource h)

theorem memOk_noteActive {s : State} (h : s.memOk) : s.noteActive.memOk := by
  unfold State.noteActive
  exact (logsOnly_setRf _ _ _ _ _).memOk h

theorem memOk_squash {s : State} {p : Nat} (h : s.memOk) : (s.squash p).memOk := by
  unfold State.squash
  dsimp only
  exact memOk_mk (memOk_countSquash (memOk_failRmos (memOk_mk (memOk_foldl
    (fun u x h1 => memOk_ite (memOk_ite (memOk_dmaLost h1) (memOk_dmaDone h1)) h1) (memOk_mk h)))))

theorem memOk_beginPart {s : State} {p : Nat} (h : s.memOk) : (s.beginPart p).memOk := by
  unfold State.beginPart
  dsimp only
  split
  · exact h
  · exact memOk_ite (memOk_squash (memOk_foldl (fun u x h1 => memOk_wake h1) (memOk_foldl
      (fun u x h1 => (endsOnly_failLaunch _ _ _).memOk h1) (memOk_mk h)))) (memOk_foldl (fun u x h1 => memOk_wake h1)
        (memOk_foldl (fun u x h1 => (endsOnly_failLaunch _ _ _).memOk h1) (memOk_mk h)))

theorem memOk_hurryPart {s : State} {p : Nat} (h : s.memOk) : (s.hurryPart p).memOk := by
  unfold State.hurryPart
  dsimp only
  split
  · exact h
  · exact memOk_ite (memOk_squash (memOk_mk h)) (memOk_mk h)

theorem memOk_startPart {s : State} {p action timeout : Nat} {flr : Bool} (h : s.memOk) :
    (s.startPart p action timeout flr).memOk := by
  unfold State.startPart
  dsimp only
  exact memOk_ite (memOk_noteActive (memOk_mk ((logsOnly_partStatus _ _ _ _ _).memOk ((logsOnly_setRf _ _ _ _ _).memOk h))))
    (memOk_beginPart (memOk_noteActive (memOk_mk ((logsOnly_partStatus _ _ _ _ _).memOk
      ((logsOnly_setRf _ _ _ _ _).memOk h)))))

theorem memOk_writePartRst {s : State} {p v : Nat} (h : s.memOk) : (s.writePartRst p v).memOk := by
  unfold State.writePartRst
  dsimp only
  exact memOk_ite (memOk_partResult (memOk_partToken h)) (memOk_ite (memOk_partResult (memOk_partToken h)) (memOk_startPart
    (memOk_partToken h)))

theorem resOk_execPartitionReset {p : Fin 96} {val : BitVec 64} {s : State} (h : s.memOk) : ResOk
    (execPartitionReset p val s) := by
  unfold execPartitionReset
  exact resOk_next (memOk_writePartRst h)

theorem resOk_execPartitionRemove {p : Fin 96} {val : BitVec 64} {s : State} (h : s.memOk) : ResOk
    (execPartitionRemove p val s) := by
  unfold execPartitionRemove
  exact resOk_next (memOk_writePartRst h)

theorem resOk_execFlr {p : Fin 96} {s : State} (h : s.memOk) : ResOk (execFlr p s) := by
  unfold execFlr
  exact resOk_ite (resOk_next (memOk_startPart (memOk_mk h))) (resOk_ite (resOk_next h) (resOk_next (memOk_partResult h)))

theorem resOk_execPartitionDrainTimeout {p : Fin 96} {s : State} (h : s.memOk) : ResOk (execPartitionDrainTimeout p s) := by
  unfold execPartitionDrainTimeout
  split
  · exact resOk_ite (resOk_next (memOk_squash h)) (resOk_idle h)
  · exact resOk_idle h

theorem memOk_dropWindows {s : State} {p : Nat} (h : s.memOk) : (s.dropWindows p).memOk := by
  unfold State.dropWindows
  dsimp only
  exact memOk_mk (memOk_dropXlat (memOk_foldl (fun u x h1 => memOk_winStatus h1 (fun u1 h2 => h2)) (memOk_mk h)))

theorem memOk_clearPart {s : State} {p : Nat} (h : s.memOk) : (s.clearPart p).memOk := by
  unfold State.clearPart
  dsimp only
  exact memOk_mk (memOk_foldl (fun u x h1 => memOk_restore h1) h)

theorem memOk_closeSessions {s : State} {p : Nat} (h : s.memOk) : (s.closeSessions p).memOk := by
  unfold State.closeSessions
  dsimp only
  refine memOk_foldl ?_ h
  intro u x h1
  refine memOk_sessStatus ?_ (fun u1 h2 => h2)
  split
  · exact memOk_mk (memOk_ite (memOk_sendCtl h1) h1)
  · exact memOk_mk h1

theorem memOk_finishPart {s : State} {p : Nat} {o : PartOp} (h : s.memOk) : (s.finishPart p o).memOk := by
  unfold State.finishPart
  dsimp only
  exact memOk_ite ((logsOnly_partStatus _ _ _ _ _).memOk ((logsOnly_clearCommon _ _).memOk (memOk_dropXlat
    (memOk_activateWaiting (memOk_ite (memOk_closeSessions (memOk_mk
      (memOk_clearPart (memOk_ite (memOk_mk (memOk_scrubPart (memOk_foldl
        (fun u x h1 => memOk_zeroAcc (memOk_emptyCaches (memOk_wakeEnd h1))) (memOk_dropWindows h)))) (memOk_foldl
          (fun u x h1 => memOk_zeroAcc (memOk_emptyCaches (memOk_wakeEnd h1))) (memOk_dropWindows h)))))) (memOk_mk
            (memOk_clearPart (memOk_ite (memOk_mk (memOk_scrubPart (memOk_foldl
              (fun u x h1 => memOk_zeroAcc (memOk_emptyCaches (memOk_wakeEnd h1))) (memOk_dropWindows h)))) (memOk_foldl
                (fun u x h1 => memOk_zeroAcc (memOk_emptyCaches (memOk_wakeEnd h1))) (memOk_dropWindows h))))))))))
                  ((logsOnly_partStatus _ _ _ _ _).memOk (memOk_mk (memOk_dropXlat
                    (memOk_activateWaiting (memOk_ite (memOk_closeSessions (memOk_mk
                      (memOk_clearPart (memOk_ite (memOk_mk (memOk_scrubPart
                        (memOk_foldl (fun u x h1 => memOk_zeroAcc (memOk_emptyCaches (memOk_wakeEnd h1)))
                          (memOk_dropWindows h)))) (memOk_foldl (fun u x h1 => memOk_zeroAcc
                            (memOk_emptyCaches (memOk_wakeEnd h1))) (memOk_dropWindows h)))))) (memOk_mk
                              (memOk_clearPart (memOk_ite (memOk_mk
                                (memOk_scrubPart (memOk_foldl (fun u x h1 => memOk_zeroAcc
                                  (memOk_emptyCaches (memOk_wakeEnd h1))) (memOk_dropWindows h)))) (memOk_foldl
                                    (fun u x h1 => memOk_zeroAcc (memOk_emptyCaches (memOk_wakeEnd h1)))
                                      (memOk_dropWindows h))))))))))

theorem resOk_execPartitionResetComplete {p : Fin 96} {s : State} (h : s.memOk) : ResOk
    (execPartitionResetComplete p s) := by
  unfold execPartitionResetComplete
  split
  · exact resOk_idle h
  · exact resOk_ite (resOk_idle h) (resOk_next (memOk_finishPart h))

theorem memOk_cutOff {s : State} {p : Nat} (h : s.memOk) : (s.cutOff p).memOk := by
  unfold State.cutOff
  exact memOk_mk h

theorem memOk_quarantine {s : State} {p : Nat} (h : s.memOk) : (s.quarantine p).memOk := by
  unfold State.quarantine
  dsimp only
  exact (logsOnly_ras _ _).memOk ((logsOnly_partStatus _ _ _ _ _).memOk (memOk_mk
    (memOk_ite ((logsOnly_setRf _ _ _ _ _).memOk (memOk_foldl (fun u x h1 => (logsOnly_setBasinReady _ _ _).memOk h1)
      (memOk_cutOff (memOk_closeSessions h)))) ((logsOnly_setRf _ _ _ _ _).memOk (memOk_foldl
        (fun u x h1 => (logsOnly_setBasinReady _ _ _).memOk h1) (memOk_cutOff (memOk_closeSessions h)))))))

theorem resOk_execPartitionResetHang {p : Fin 96} {s : State} (h : s.memOk) : ResOk (execPartitionResetHang p s) := by
  unfold execPartitionResetHang
  split
  · exact resOk_idle h
  · exact resOk_ite (resOk_idle h) (resOk_next (memOk_quarantine h))

/-! ### ModeChange -/

theorem memOk_modeStatus {s : State} {b tok res why : Nat} (h : s.memOk) : (s.modeStatus b tok res why).memOk := by
  unfold State.modeStatus
  dsimp only
  exact (logsOnly_setRf _ _ _ _ _).memOk ((logsOnly_setRf _ _ _ _ _).memOk ((logsOnly_setRf _ _ _ _ _).memOk h))

theorem memOk_beginMode {s : State} {b tok mode : Nat} (h : s.memOk) : (s.beginMode b tok mode).memOk := by
  unfold State.beginMode
  dsimp only
  exact memOk_wake (memOk_mk ((logsOnly_setRf _ _ _ _ _).memOk (memOk_modeStatus ((logsOnly_setBasinReady _ _ _).memOk h))))

theorem memOk_writeMode {s : State} {b v : Nat} (h : s.memOk) : (s.writeMode b v).memOk := by
  unfold State.writeMode
  dsimp only
  exact memOk_ite ((logsOnly_dropped _ _ _).memOk h) (memOk_ite (memOk_modeStatus h) (memOk_ite (memOk_modeStatus h)
    (memOk_ite (memOk_modeStatus h) (memOk_ite (memOk_modeStatus h) (memOk_beginMode h)))))

theorem resOk_execModeChangeWrite {b : Fin 96} {val : BitVec 32} {s : State} (h : s.memOk) : ResOk
    (execModeChangeWrite b val s) := by
  unfold execModeChangeWrite
  exact resOk_next (memOk_writeMode h)

theorem memOk_wipeBasin {s : State} {b : Nat} (h : s.memOk) : (s.wipeBasin b).memOk := by
  unfold State.wipeBasin
  dsimp only
  exact memOk_mk (memOk_zeroAcc (memOk_zeroPools (memOk_emptyCaches h)))

theorem memOk_releaseParts {s : State} (h : s.memOk) : s.releaseParts.memOk := by
  unfold State.releaseParts
  exact memOk_foldl (fun u x h1 => memOk_ite h1 (memOk_beginPart h1)) h

theorem memOk_endMode {s : State} {b mode res : Nat} {ready : Bool} (h : s.memOk) : (s.endMode b mode res ready).memOk := by
  unfold State.endMode
  dsimp only
  exact memOk_releaseParts ((logsOnly_setBasinReady _ _ _).memOk (memOk_wakeEnd
    ((logsOnly_setRf _ _ _ _ _).memOk ((logsOnly_setRf _ _ _ _ _).memOk ((logsOnly_setRf _ _ _ _ _).memOk (memOk_mk h))))))

theorem resOk_execModeChangeComplete {b : Fin 96} {selfTestOk : Bool} {s : State} (h : s.memOk) : ResOk
    (execModeChangeComplete b selfTestOk s) := by
  unfold execModeChangeComplete
  dsimp only
  refine resOk_clocked h ?_
  split
  · exact resOk_idle h
  · exact resOk_ite (resOk_idle h) (resOk_ite (resOk_next (memOk_endMode (memOk_wipeBasin h))) (resOk_next
      ((logsOnly_setRf _ _ _ _ _).memOk (memOk_mk (memOk_wipeBasin h)))))

theorem resOk_execPondFallbackComplete {b : Fin 96} {selfTestOk : Bool} {s : State} (h : s.memOk) : ResOk
    (execPondFallbackComplete b selfTestOk s) := by
  unfold execPondFallbackComplete
  dsimp only
  refine resOk_clocked h ?_
  split
  · exact resOk_idle h
  · exact resOk_ite (resOk_idle h) (resOk_ite (resOk_next ((logsOnly_ras _ _).memOk (memOk_endMode (memOk_wipeBasin h))))
      (resOk_next ((logsOnly_ras _ _).memOk (memOk_endMode (memOk_mk (memOk_wipeBasin h))))))

/-! ### Balance -/

theorem memOk_balStop {s : State} (h : s.memOk) : s.balStop.memOk := by
  unfold State.balStop
  dsimp only
  exact memOk_mk ((logsOnly_setRf _ _ _ _ _).memOk ((logsOnly_setRf _ _ _ _ _).memOk h))

theorem memOk_writeBal {s : State} {v : Nat} (h : s.memOk) : (s.writeBal v).memOk := by
  unfold State.writeBal
  dsimp only
  exact memOk_ite ((logsOnly_setRf _ _ _ _ _).memOk (memOk_balStop ((logsOnly_setReg _ _ _).memOk h))) (memOk_ite
    (memOk_mk ((logsOnly_setRf _ _ _ _ _).memOk ((logsOnly_setRf _ _ _ _ _).memOk ((logsOnly_setReg _ _ _).memOk h))))
      ((logsOnly_setRf _ _ _ _ _).memOk (memOk_balStop ((logsOnly_setReg _ _ _).memOk h))))

theorem resOk_execBalanceEnable {val : BitVec 64} {s : State} (h : s.memOk) : ResOk (execBalanceEnable val s) := by
  unfold execBalanceEnable
  exact resOk_next (memOk_writeBal h)

theorem memOk_balSend {s : State} {bs : List Byte} {i : Nat} (h : s.memOk) : (s.balSend bs i).memOk := by
  unfold State.balSend
  dsimp only
  split
  · exact h
  · exact memOk_ite h (memOk_respond (memOk_newId h))

theorem resOk_execBalancePeriod {s : State} (h : s.memOk) : ResOk (execBalancePeriod s) := by
  unfold execBalancePeriod
  dsimp only
  split
  · exact resOk_idle h
  · exact resOk_ite (resOk_idle h) (resOk_next (memOk_mk ((logsOnly_setRf _ _ _ _ _).memOk ((logsOnly_setRf _ _ _ _ _).memOk
      ((logsOnly_setRf _ _ _ _ _).memOk (memOk_foldl (fun u x h1 => memOk_balSend h1) h))))))

/-! ### Fabric -/

theorem memOk_startEdge {s : State} {d e : Nat} (h : s.memOk) : (s.startEdge d e).memOk := by
  unfold State.startEdge
  dsimp only
  exact memOk_ite ((logsOnly_setRf _ _ _ _ _).memOk h) ((logsOnly_setRf _ _ _ _ _).memOk ((logsOnly_setRf _ _ _ _ _).memOk
    ((logsOnly_setRf _ _ _ _ _).memOk h)))

theorem memOk_stopEdge {s : State} {d e : Nat} (h : s.memOk) : (s.stopEdge d e).memOk := by
  unfold State.stopEdge
  exact (logsOnly_setRf _ _ _ _ _).memOk ((logsOnly_setRf _ _ _ _ _).memOk h)

theorem memOk_edgesAsync {s : State} {d : Nat} (h : s.memOk) : (s.edgesAsync d).memOk := by
  unfold State.edgesAsync
  dsimp only
  exact memOk_foldl (fun u x h1 => memOk_ite ((logsOnly_setRf _ _ _ _ _).memOk (memOk_ite
    ((logsOnly_setRf _ _ _ _ _).memOk h1) h1)) (memOk_ite ((logsOnly_setRf _ _ _ _ _).memOk h1) h1)) h

theorem resOk_execEdgeFlitReplay {d : Fin 12} {edge : Fin 3} {s : State} (h : s.memOk) : ResOk
    (execEdgeFlitReplay d edge s) := by
  unfold execEdgeFlitReplay
  dsimp only
  exact resOk_ite (resOk_next ((logsOnly_setRf _ _ _ _ _).memOk h)) (resOk_idle h)

theorem memOk_loseLink {s : State} {d e : Nat} (h : s.memOk) : (s.loseLink d e).memOk := by
  unfold State.loseLink
  dsimp only
  exact memOk_ite (memOk_stopEdge ((logsOnly_setRf _ _ _ _ _).memOk (memOk_mk h))) ((logsOnly_setRf _ _ _ _ _).memOk
    (memOk_mk h))

theorem resOk_execEdgeLinkOutOfService {d : Fin 12} {edge : Fin 3} {s : State} (h : s.memOk) : ResOk
    (execEdgeLinkOutOfService d edge s) := by
  unfold execEdgeLinkOutOfService
  exact resOk_ite (resOk_next ((logsOnly_ras _ _).memOk (memOk_foldl (fun u x h1 => memOk_loseLink h1) h))) (resOk_idle h)

theorem resOk_execEdgeMesochronousReturn {d : Fin 12} {edge : Fin 2} {s : State} (h : s.memOk) : ResOk
    (execEdgeMesochronousReturn d edge s) := by
  unfold execEdgeMesochronousReturn
  dsimp only
  exact resOk_ite (resOk_next ((logsOnly_setRf _ _ _ _ _).memOk ((logsOnly_setRf _ _ _ _ _).memOk h))) (resOk_idle h)

theorem memOk_setDie {s : State} {d ver : Nat} (h : s.memOk) : (s.setDie d ver).memOk := by
  unfold State.setDie
  dsimp only
  exact memOk_foldl (fun u x h1 => memOk_ite h1 (memOk_ite ((logsOnly_logPlain _ _ _ _ _).memOk h1) (memOk_ite
    (memOk_startEdge (memOk_startEdge h1)) h1))) (memOk_startEdge (memOk_foldl
      (fun u x h1 => (logsOnly_setRf _ _ _ _ _).memOk h1) h))

theorem resOk_execD2dOffer {d : Fin 12} {vmin vmax : BitVec 8} {s : State} (h : s.memOk) : ResOk
    (execD2dOffer d vmin vmax s) := by
  unfold execD2dOffer
  dsimp only
  exact resOk_ite (resOk_idle h) (resOk_ite (resOk_next (memOk_mk h)) (resOk_ite (resOk_next (memOk_mk h))
    (resOk_ite (resOk_next (memOk_setDie (memOk_mk h))) (resOk_next (memOk_mk h)))))

theorem resOk_execD2dHandshakeEnd {s : State} (h : s.memOk) : ResOk (execD2dHandshakeEnd s) := by
  unfold execD2dHandshakeEnd
  dsimp only
  exact resOk_ite (resOk_idle h) (resOk_ite (resOk_next h) (resOk_next
    ((logsOnly_setRf _ _ _ _ _).memOk (memOk_foldl (fun u x h1 => memOk_setDie h1) (memOk_mk h)))))

theorem resOk_execCorrelationSample {s : State} (h : s.memOk) : ResOk (execCorrelationSample s) := by
  unfold execCorrelationSample
  dsimp only
  exact resOk_ite (resOk_idle h) (resOk_next ((logsOnly_ras _ _).memOk (memOk_mk
    ((logsOnly_setReg _ _ _).memOk (memOk_foldl (fun u x h1 => (logsOnly_setReg _ _ _).memOk h1)
      ((logsOnly_setReg _ _ _).memOk h))))))

/-! ### Ladder -/

theorem memOk_stepCode {s : State} {level : Nat} (h : s.memOk) : (s.stepCode level).2.memOk := by
  unfold State.stepCode
  split
  · exact h
  · exact h
  · exact h
  · exact h
  · exact h
  · exact (cachesOnly_fresh _).memOk h

theorem memOk_slotCount {s : State} {skipped : Bool} (h : s.memOk) : (s.slotCount skipped).2.memOk := by
  unfold State.slotCount
  split
  · exact h
  · exact (cachesOnly_fresh _).memOk h

theorem memOk_collect {s : State} {r : ResetReq} {skipped missing : Bool} (h : s.memOk) :
    (s.collect r skipped missing).memOk := by
  unfold State.collect
  dsimp only
  exact (logsOnly_setRf _ _ _ _ _).memOk ((logsOnly_setRf _ _ _ _ _).memOk (memOk_mk (memOk_slotCount (memOk_stepCode h))))

theorem memOk_abandon {s : State} {xs : List Suspect} (h : s.memOk) : (s.abandon xs).memOk := by
  unfold State.abandon
  dsimp only
  exact memOk_mk h

theorem memOk_askReset {s : State} {r : ResetReq} {skip : Bool} (h : s.memOk) : (s.askReset r skip).memOk := by
  unfold State.askReset
  dsimp only
  exact memOk_ite h (memOk_ite (memOk_mk h) (memOk_noteActive (memOk_mk
    (memOk_ite (memOk_collect (memOk_abandon h)) (memOk_abandon h)))))

theorem resOk_execCollectionComplete {partial_ : Bool} {s : State} (h : s.memOk) : ResOk
    (execCollectionComplete partial_ s) := by
  unfold execCollectionComplete
  dsimp only
  split
  · exact resOk_idle h
  · exact resOk_next (memOk_ite (memOk_ite (memOk_startPart (memOk_mk (memOk_collect h))) (memOk_hurryPart
      (memOk_mk (memOk_collect h)))) (memOk_mk (memOk_collect h)))

theorem memOk_requestLogged {s : State} {level unit event die unitCode : Nat} (h : s.memOk) :
    (s.requestLogged level unit event die unitCode).memOk := by
  unfold State.requestLogged
  dsimp only
  exact memOk_askReset ((logsOnly_ras _ _).memOk h)

theorem resOk_execWeirNoResponse {s : State} (h : s.memOk) : ResOk (execWeirNoResponse s) := by
  unfold execWeirNoResponse
  exact resOk_next (memOk_requestLogged h)

theorem resOk_execSharedUnitNoResponse {d : Fin 12} {s : State} (h : s.memOk) : ResOk (execSharedUnitNoResponse d s) := by
  unfold execSharedUnitNoResponse
  exact resOk_next (memOk_requestLogged h)

theorem resOk_execSluiceTimeout {p : Fin 96} {s : State} (h : s.memOk) : ResOk (execSluiceTimeout p s) := by
  unfold execSluiceTimeout
  exact resOk_ite (resOk_next (memOk_askReset h)) (resOk_idle h)

theorem memOk_writeRstReq {s : State} {v : Nat} (h : s.memOk) : (s.writeRstReq v).memOk := by
  unfold State.writeRstReq
  dsimp only
  exact memOk_ite ((logsOnly_setRf _ _ _ _ _).memOk ((logsOnly_setRf _ _ _ _ _).memOk h)) (memOk_ite
    ((logsOnly_setRf _ _ _ _ _).memOk ((logsOnly_setRf _ _ _ _ _).memOk h)) (memOk_askReset
      ((logsOnly_setRf _ _ _ _ _).memOk ((logsOnly_setRf _ _ _ _ _).memOk h))))

theorem resOk_execRstReqEngine {val : BitVec 64} {s : State} (h : s.memOk) : ResOk (execRstReqEngine val s) := by
  unfold execRstReqEngine
  exact resOk_next (memOk_writeRstReq h)

theorem resOk_execRstReqCore {val : BitVec 64} {s : State} (h : s.memOk) : ResOk (execRstReqCore val s) := by
  unfold execRstReqCore
  exact resOk_next (memOk_writeRstReq h)

theorem resOk_execRstReqDie {val : BitVec 64} {s : State} (h : s.memOk) : ResOk (execRstReqDie val s) := by
  unfold execRstReqDie
  exact resOk_next (memOk_writeRstReq h)

theorem resOk_execRstReqWarm {val : BitVec 64} {s : State} (h : s.memOk) : ResOk (execRstReqWarm val s) := by
  unfold execRstReqWarm
  exact resOk_next (memOk_writeRstReq h)

theorem resOk_execRstReqCold {val : BitVec 64} {s : State} (h : s.memOk) : ResOk (execRstReqCold val s) := by
  unfold execRstReqCold
  exact resOk_next (memOk_writeRstReq h)

/-! ### Messages -/

theorem memOk_rxDrop {s : State} {k : Nat} (h : s.memOk) : (s.rxDrop k).memOk := by
  unfold State.rxDrop
  exact (logsOnly_setReg _ _ _).memOk h

theorem memOk_answer {s : State} {m : Msg} {opc reason : Nat} (h : s.memOk) : (s.answer m opc reason).memOk := by
  unfold State.answer
  exact (logsOnly_emit _ _).memOk h

theorem memOk_endRmo {s : State} {i tag : Nat} (h : s.memOk) : (s.endRmo i tag).memOk := by
  unfold State.endRmo
  dsimp only
  split
  · exact h
  · exact memOk_ite (memOk_respond (memOk_modSess h)) (memOk_modSess h)

theorem memOk_opFailed {s : State} {i : Nat} {m : Msg} {code off : Nat} (h : s.memOk) : (s.opFailed i m code off).memOk := by
  unfold State.opFailed
  dsimp only
  split
  · exact h
  · exact memOk_ite (memOk_modSess (memOk_ite h (memOk_respond (memOk_modSess h)))) (memOk_ite h
      (memOk_respond (memOk_modSess h)))

theorem memOk_opApplied {s : State} {i : Nat} {m : Msg} {bs : List Byte} (h : s.memOk) : (s.opApplied i m bs).memOk := by
  unfold State.opApplied
  dsimp only
  split
  · exact h
  · split
    · exact memOk_respond h
    · exact memOk_respond h
    · exact memOk_respond h
    · exact memOk_modSess h
    · exact memOk_endRmo h
    · exact memOk_ite (memOk_endRmo h) (memOk_modSess h)

theorem memOk_targetPoison {s : State} {p win : Nat} (h : s.memOk) : (s.targetPoison p win).memOk := by
  unfold State.targetPoison
  dsimp only
  exact (logsOnly_ras _ _).memOk h

theorem optOk_applyOp {s : State} {i : Nat} {ss : Session} {m : Msg} {o : TOp} (h : s.memOk) : OptOk
    (s.applyOp i ss m o) := by
  unfold State.applyOp
  dsimp only
  refine optOk_ite (optOk_some (memOk_opFailed (memOk_ite (memOk_countSquash h) h))) (optOk_ite
    (optOk_some (memOk_modSess h))
    (optOk_ite optOk_none ?_))
  split
  · exact optOk_none
  · rename_i hr
    have hrs := (memOk_of_applyT h).2 _ hr
    exact optOk_some (memOk_opFailed (memOk_ite (memOk_targetPoison hrs) hrs))
  · rename_i ht
    exact optOk_some (memOk_opApplied ((memOk_of_applyT h).1 _ _ ht))

theorem memOk_applyAnswer {s : State} {ss : Session} {m : Msg} (h : s.memOk) : (s.applyAnswer ss m).memOk := by
  unfold State.applyAnswer
  dsimp only
  split
  · exact h
  · refine memOk_ite (memOk_failRmo h) ?_
    split
    · exact memOk_ite (memOk_mk (memOk_rmoResult h)) (memOk_putRmo (memOk_rmoResult h))
    · exact memOk_mk (memOk_rmoResult h)
    · exact memOk_mk h

theorem optOk_applyMsg {s : State} {i : Nat} {ss : Session} {m : Msg} (h : s.memOk) : OptOk (s.applyMsg i ss m) := by
  unfold State.applyMsg
  split
  · exact optOk_applyOp h
  · exact optOk_some (memOk_applyAnswer h)

theorem memOk_drainSess {s : State} {i n : Nat} (h : s.memOk) : (s.drainSess i n).memOk := by
  induction n generalizing s with
  | zero => exact h
  | succ n ih =>
    rw [State.drainSess]
    split
    · exact h
    split
    · exact h
    split
    · exact h
    · rename_i hm
      exact ih (memOk_modSess (memOk_of_some (optOk_applyMsg h) hm))

theorem memOk_acceptSeq {s : State} {i : Nat} {ss : Session} {m : Msg} (h : s.memOk) : (s.acceptSeq i ss m).memOk := by
  unfold State.acceptSeq
  dsimp only
  refine memOk_ite (memOk_ite (memOk_sendAck h) h) ?_
  refine memOk_ite (memOk_sendAck (memOk_drainSess h)) ?_
  refine memOk_ite (memOk_rxDrop h) ?_
  split
  · exact memOk_ite (memOk_sendAck (memOk_drainSess (memOk_modSess h))) (memOk_drainSess (memOk_modSess h))
  · exact memOk_drainSess (memOk_modSess h)

theorem memOk_recvSeq {s : State} {m : Msg} (h : s.memOk) : (s.recvSeq m).memOk := by
  unfold State.recvSeq
  dsimp only
  refine memOk_ite (memOk_rxDrop h) ?_
  refine memOk_ite (memOk_answer h) ?_
  split
  · exact memOk_answer h
  · exact memOk_ite (memOk_answer h) (memOk_ite (memOk_answer h) (memOk_ite (memOk_rxDrop h) (memOk_acceptSeq h)))

theorem resOk_recv {opc : Nat} {m : Msg} {s : State} {k : State → State} (h : s.memOk)
    (h1 : ∀ (a : State), a.memOk → (k a).memOk) : ResOk (recv opc m s k) := by
  unfold recv
  exact resOk_ite (resOk_idle h) (resOk_ite (resOk_idle h) (resOk_next (h1 _ h)))

theorem resOk_execPutData {m : Msg} {s : State} (h : s.memOk) : ResOk (execPutData m s) := by
  unfold execPutData
  exact resOk_recv h (fun u h1 => memOk_recvSeq h1)

theorem resOk_execGetRequest {m : Msg} {s : State} (h : s.memOk) : ResOk (execGetRequest m s) := by
  unfold execGetRequest
  exact resOk_recv h (fun u h1 => memOk_recvSeq h1)

theorem resOk_execGetResponse {m : Msg} {s : State} (h : s.memOk) : ResOk (execGetResponse m s) := by
  unfold execGetResponse
  exact resOk_recv h (fun u h1 => memOk_recvSeq h1)

theorem resOk_execRatomMessage {m : Msg} {s : State} (h : s.memOk) : ResOk (execRatomMessage m s) := by
  unfold execRatomMessage
  exact resOk_recv h (fun u h1 => memOk_recvSeq h1)

theorem resOk_execRatomResponse {m : Msg} {s : State} (h : s.memOk) : ResOk (execRatomResponse m s) := by
  unfold execRatomResponse
  exact resOk_recv h (fun u h1 => memOk_recvSeq h1)

theorem resOk_execSigMessage {m : Msg} {s : State} (h : s.memOk) : ResOk (execSigMessage m s) := by
  unfold execSigMessage
  exact resOk_recv h (fun u h1 => memOk_recvSeq h1)

theorem resOk_execPutsData {m : Msg} {s : State} (h : s.memOk) : ResOk (execPutsData m s) := by
  unfold execPutsData
  exact resOk_recv h (fun u h1 => memOk_recvSeq h1)

theorem resOk_execPutsSignal {m : Msg} {s : State} (h : s.memOk) : ResOk (execPutsSignal m s) := by
  unfold execPutsSignal
  exact resOk_recv h (fun u h1 => memOk_recvSeq h1)

theorem resOk_execIputRow {m : Msg} {s : State} (h : s.memOk) : ResOk (execIputRow m s) := by
  unfold execIputRow
  exact resOk_recv h (fun u h1 => memOk_recvSeq h1)

theorem resOk_execRedMessage {m : Msg} {s : State} (h : s.memOk) : ResOk (execRedMessage m s) := by
  unfold execRedMessage
  exact resOk_recv h (fun u h1 => memOk_recvSeq h1)

theorem resOk_execComp {m : Msg} {s : State} (h : s.memOk) : ResOk (execComp m s) := by
  unfold execComp
  exact resOk_recv h (fun u h1 => memOk_recvSeq h1)

theorem resOk_execAckTimer {idx : Nat} {s : State} (h : s.memOk) : ResOk (execAckTimer idx s) := by
  unfold execAckTimer
  split
  · exact resOk_idle h
  · exact resOk_ite (resOk_idle h) (resOk_next (memOk_sendAck (memOk_drainSess h)))

theorem memOk_recvCtl {s : State} {m : Msg} {k : Session → State} (h : s.memOk) (h1 : ∀ (a : Session), (k a).memOk) :
    (s.recvCtl m k).memOk := by
  unfold State.recvCtl
  dsimp only
  refine memOk_ite (memOk_rxDrop h) ?_
  refine memOk_ite (memOk_ite h (memOk_answer h)) ?_
  split
  · exact h
  · exact memOk_ite (memOk_ite h (memOk_answer h)) (h1 _)

theorem resOk_execAck {m : Msg} {s : State} (h : s.memOk) : ResOk (execAck m s) := by
  unfold execAck
  dsimp only
  exact resOk_recv h (fun u h1 => memOk_recvCtl h1 (fun x => memOk_ite (memOk_rxDrop h1) (memOk_pumpAll (memOk_modSess h1))))

theorem resOk_execNak {m : Msg} {s : State} (h : s.memOk) : ResOk (execNak m s) := by
  unfold execNak
  exact resOk_recv h (fun u h1 => memOk_recvCtl h1 (fun x => memOk_ite h1 (memOk_ite (memOk_startHello (memOk_failRmos h1))
    (memOk_ite (memOk_failSess h1) h1))))

theorem memOk_logRefusal {s : State} {peer reason : Nat} (h : s.memOk) : (s.logRefusal peer reason).memOk := by
  unfold State.logRefusal
  dsimp only
  exact (logsOnly_ras _ _).memOk h

theorem memOk_sendHelloAck {s : State} {i : Nat} (h : s.memOk) : (s.sendHelloAck i).memOk := by
  unfold State.sendHelloAck
  split
  · exact h
  · exact memOk_sendCtl h

theorem memOk_takeHello {s : State} {m : Msg} {ss : Session} (h : s.memOk) : (s.takeHello m ss).memOk := by
  unfold State.takeHello
  dsimp only
  exact memOk_ite (memOk_ite (memOk_sendHelloAck h) (memOk_ite (memOk_sendHelloAck (memOk_modSess (memOk_modSess h)))
    (memOk_pumpAll (memOk_sendHelloAck (memOk_modSess (memOk_modSess ((cachesOnly_fresh _).memOk (memOk_failRmos h))))))))
      (memOk_tryOpen (memOk_ite (memOk_sendHello (memOk_setSessSt (memOk_sendHelloAck
        (memOk_modSess (memOk_ite h (memOk_startHello h)))))) (memOk_sendHelloAck
          (memOk_modSess (memOk_ite h (memOk_startHello h))))))

theorem resOk_execHello {m : Msg} {s : State} (h : s.memOk) : ResOk (execHello m s) := by
  unfold execHello
  refine resOk_recv h ?_
  intro u h1
  refine memOk_ite (memOk_rxDrop h1) ?_
  split
  · exact memOk_logRefusal (memOk_answer h1)
  · split
    · exact memOk_takeHello h1
    · exact h1

theorem resOk_execHelloAck {m : Msg} {s : State} (h : s.memOk) : ResOk (execHelloAck m s) := by
  unfold execHelloAck
  dsimp only
  refine resOk_recv h ?_
  intro u h1
  refine memOk_ite (memOk_rxDrop h1) ?_
  refine memOk_ite (memOk_answer h1) ?_
  split
  · exact h1
  · exact memOk_ite h1 (memOk_tryOpen (memOk_modSess (memOk_ite h1 (memOk_modSess h1))))

theorem resOk_execRefuse {m : Msg} {s : State} (h : s.memOk) : ResOk (execRefuse m s) := by
  unfold execRefuse
  dsimp only
  exact resOk_recv h (fun u h1 => memOk_recvCtl h1 (fun x => memOk_ite h1 (memOk_ite
    (memOk_modSess (memOk_setSessSt (memOk_logRefusal h1))) (memOk_failRmos (memOk_setSessSt (memOk_logRefusal h1))))))

theorem resOk_execClose {m : Msg} {s : State} (h : s.memOk) : ResOk (execClose m s) := by
  unfold execClose
  exact resOk_recv h (fun u h1 => memOk_recvCtl h1 (fun x => memOk_ite (memOk_failSess h1) h1))

theorem resOk_execKeepalive {m : Msg} {s : State} (h : s.memOk) : ResOk (execKeepalive m s) := by
  unfold execKeepalive
  exact resOk_recv h (fun u h1 => memOk_recvCtl h1 (fun x => h1))

theorem resOk_execReservedOpcMessage {m : Msg} {s : State} (h : s.memOk) : ResOk (execReservedOpcMessage m s) := by
  unfold execReservedOpcMessage
  exact resOk_ite (resOk_idle h) (resOk_ite (resOk_idle h) (resOk_next (memOk_rxDrop h)))

/-! ### Ports -/

theorem memOk_subDown {s : State} {n : Nat} (h : s.memOk) : (s.subDown n).memOk := by
  unfold State.subDown
  dsimp only
  exact memOk_mk ((logsOnly_setRf _ _ _ _ _).memOk ((logsOnly_setRf _ _ _ _ _).memOk h))

theorem resOk_execPortControlWrite {k : Fin 12} {val : BitVec 32} {s : State} (h : s.memOk) : ResOk
    (execPortControlWrite k val s) := by
  unfold execPortControlWrite
  dsimp only
  exact resOk_next ((logsOnly_setRf _ _ _ _ _).memOk (memOk_ite (memOk_foldl (fun u x h1 => memOk_subDown h1)
    (memOk_ite (memOk_ite ((logsOnly_accessError _ _ _ _).memOk h) h) ((logsOnly_setRf _ _ _ _ _).memOk
      ((logsOnly_setRf _ _ _ _ _).memOk h)))) (memOk_ite (memOk_ite ((logsOnly_accessError _ _ _ _).memOk h) h)
        ((logsOnly_setRf _ _ _ _ _).memOk ((logsOnly_setRf _ _ _ _ _).memOk h)))))

theorem resOk_execSubportLinkUp {n : Fin 48} {s : State} (h : s.memOk) : ResOk (execSubportLinkUp n s) := by
  unfold execSubportLinkUp
  dsimp only
  exact resOk_ite (resOk_next ((logsOnly_setRf _ _ _ _ _).memOk ((logsOnly_setRf _ _ _ _ _).memOk h))) (resOk_idle h)

theorem resOk_execSubportLinkDown {n : Fin 48} {s : State} (h : s.memOk) : ResOk (execSubportLinkDown n s) := by
  unfold execSubportLinkDown
  exact resOk_ite (resOk_next (memOk_subDown h)) (resOk_idle h)

theorem memOk_writeIdentity {s : State} {r : Reg} {whi wlo v : Nat} (h : s.memOk) : (s.writeIdentity r whi wlo v).memOk := by
  unfold State.writeIdentity
  dsimp only
  exact memOk_ite ((logsOnly_accessError _ _ _ _).memOk h) ((logsOnly_setReg _ _ _).memOk h)

theorem resOk_execLinkIdentityWrite {reg : Fin 4} {val : BitVec 64} {s : State} (h : s.memOk) : ResOk
    (execLinkIdentityWrite reg val s) := by
  unfold execLinkIdentityWrite
  exact resOk_next (memOk_writeIdentity h)

theorem resOk_execControlFrame {k : Fin 12} {s : State} (h : s.memOk) : ResOk (execControlFrame k s) := by
  unfold execControlFrame
  exact resOk_ite (resOk_next (memOk_rxDrop h)) (resOk_idle h)

theorem resOk_execForeignFrame {k : Fin 12} {s : State} (h : s.memOk) : ResOk (execForeignFrame k s) := by
  unfold execForeignFrame
  exact resOk_ite (resOk_next (memOk_rxDrop h)) (resOk_idle h)

theorem resOk_execFecUncorrectableFrame {k : Fin 12} {s : State} (h : s.memOk) : ResOk (execFecUncorrectableFrame k s) := by
  unfold execFecUncorrectableFrame
  exact resOk_ite (resOk_next ((logsOnly_setReg _ _ _).memOk h)) (resOk_idle h)

/-! ### Boot -/

theorem memOk_restoreAll {s : State} {ds : List Domain} (h : s.memOk) : (s.restoreAll ds).memOk := by
  unfold State.restoreAll
  refine memOk_foldl ?_ h
  intro u x h1
  split
  · exact memOk_restore h1
  · exact h1

theorem memOk_setMeasurement {s : State} {i : Nat} {m : List Byte} (h : s.memOk) : (s.setMeasurement i m).memOk := by
  unfold State.setMeasurement
  exact memOk_foldl (fun u x h1 => (logsOnly_setReg _ _ _).memOk h1) h

theorem memOk_extend {s : State} {i : Nat} {d : List Byte} (h : s.memOk) : (s.extend i d).memOk := by
  unfold State.extend
  exact memOk_setMeasurement h

theorem memOk_clearMeasurements {s : State} (h : s.memOk) : s.clearMeasurements.memOk := by
  unfold State.clearMeasurements
  exact memOk_foldl (fun u x h1 => memOk_setMeasurement h1) h

theorem memOk_measureBoot {s : State} (h : s.memOk) : s.measureBoot.memOk := by
  unfold State.measureBoot
  dsimp only
  exact memOk_extend (memOk_extend (memOk_extend (memOk_extend (memOk_extend
    (memOk_extend (memOk_extend (memOk_extend (memOk_clearMeasurements h))))))))

theorem memOk_mapOut {s : State} {c : Nat} (h : s.memOk) : (s.mapOut c).memOk := by
  unfold State.mapOut
  dsimp only
  exact (logsOnly_ras _ _).memOk (memOk_mk ((logsOnly_setRf _ _ _ _ _).memOk h))

theorem memOk_bootChan {s : State} {cold tested : Bool} {c : Nat} (h : s.memOk) : (s.bootChan cold tested c).memOk := by
  unfold State.bootChan
  dsimp only
  exact memOk_ite ((logsOnly_setRf _ _ _ _ _).memOk h) (memOk_ite (memOk_mapOut h) ((logsOnly_setRf _ _ _ _ _).memOk h))

theorem memOk_takeProt {s : State} (h : s.memOk) : s.takeProt.memOk := by
  unfold State.takeProt
  exact memOk_foldl (fun u x h1 => (logsOnly_setRf _ _ _ _ _).memOk h1) h

theorem memOk_formK {s : State} (h : s.memOk) : s.formK.memOk := by
  unfold State.formK
  dsimp only
  split
  · exact (logsOnly_ras _ _).memOk ((logsOnly_setRf _ _ _ _ _).memOk ((logsOnly_setRf _ _ _ _ _).memOk h))
  · exact memOk_ite ((logsOnly_setRf _ _ _ _ _).memOk ((logsOnly_setRf _ _ _ _ _).memOk h)) ((logsOnly_ras _ _).memOk
      ((logsOnly_setRf _ _ _ _ _).memOk ((logsOnly_setRf _ _ _ _ _).memOk h)))

theorem memOk_heapFaults {s : State} (h : s.memOk) : s.heapFaults.memOk := by
  unfold State.heapFaults
  exact memOk_foldl (fun u x h1 => (logsOnly_ras _ _).memOk h1) h

theorem memOk_bootHeaps {s : State} {cold tested : Bool} (h : s.memOk) : (s.bootHeaps cold tested).memOk := by
  have hchans := memOk_foldl (f := fun (t : State) c => t.bootChan cold tested c) (l := List.range 384) (fun u c hu =>
    memOk_bootChan hu) h
  have ht := memOk_heapFaults (memOk_formK (memOk_ite (c := cold = true) hchans (memOk_takeProt hchans)))
  unfold State.bootHeaps
  dsimp only
  exact memOk_mkHeap ht (Memory.wf_keep _ _ ht.heap)

theorem memOk_loadFlash {s : State} {cold : Bool} (h : s.memOk) : (s.loadFlash cold).memOk := by
  unfold State.loadFlash
  dsimp only
  exact (logsOnly_setRf _ _ _ _ _).memOk ((logsOnly_setRf _ _ _ _ _).memOk (memOk_ite
    ((logsOnly_setRf _ _ _ _ _).memOk ((logsOnly_setRf _ _ _ _ _).memOk ((logsOnly_setRf _ _ _ _ _).memOk
      ((logsOnly_setRf _ _ _ _ _).memOk h)))) h))

theorem memOk_enterRecovery {s : State} (h : s.memOk) : s.enterRecovery.memOk := by
  unfold State.enterRecovery
  dsimp only
  exact memOk_mk (memOk_alert ((logsOnly_setRf _ _ _ _ _).memOk h))

theorem memOk_notePresent {s : State} (h : s.memOk) : s.notePresent.memOk := by
  unfold State.notePresent
  exact memOk_foldl (fun u x h1 => (logsOnly_setRf _ _ _ _ _).memOk h1) h

theorem memOk_takeRecords {s : State} {cold : Bool} (h : s.memOk) : (s.takeRecords cold).memOk := by
  unfold State.takeRecords
  dsimp only
  split
  · exact memOk_mk h
  · exact memOk_ite (memOk_mk h) (memOk_mk h)

theorem memOk_bringUp {s : State} {cold pufOk : Bool} (h : s.memOk) : (s.bringUp cold pufOk).memOk := by
  unfold State.bringUp
  dsimp only
  split
  · exact memOk_enterRecovery (memOk_mk h)
  · exact memOk_mk (memOk_notePresent (memOk_measureBoot ((logsOnly_setRf _ _ _ _ _).memOk ((logsOnly_setRf _ _ _ _ _).memOk
      ((logsOnly_setRf _ _ _ _ _).memOk ((logsOnly_noteFirmware _).memOk (memOk_bootHeaps
        (memOk_ite (memOk_loadFlash (memOk_takeRecords (memOk_mk h))) ((logsOnly_ras _ _).memOk
          (memOk_loadFlash (memOk_takeRecords (memOk_mk h))))))))))))

theorem memOk_survivors {s : State} (h : s.memOk) : s.survivors.memOk := by
  unfold State.survivors
  dsimp only
  exact memOk_mk memOk_reset

theorem memOk_settleBad {s : State} (h : s.memOk) : s.settleBad.memOk := by
  unfold State.settleBad
  exact memOk_mk h

theorem memOk_readyLost {s : State} (h : s.memOk) : s.readyLost.memOk := by
  unfold State.readyLost
  exact memOk_ite ((logsOnly_fire _ _ _).memOk h) h

theorem memOk_warmReset {s : State} (h : s.memOk) : s.warmReset.memOk := by
  have ht := memOk_restoreAll (ds := [.w, .p]) (memOk_settleBad (memOk_readyLost h))
  have hu : { (s.readyLost.settleBad.restoreAll [.w, .p]).survivors with
      regs := (s.readyLost.settleBad.restoreAll [.w, .p]).regs
      heap := (s.readyLost.settleBad.restoreAll [.w, .p]).heap
      heapPoison := (s.readyLost.settleBad.restoreAll [.w, .p]).heapPoison }.memOk := memOk_heap (memOk_survivors ht) ht.heap
  unfold State.warmReset
  dsimp only
  exact memOk_bringUp (memOk_ite (memOk_alert (memOk_fresh hu)) (memOk_fresh hu))

theorem memOk_mapOutFailed {s : State} (h : s.memOk) : s.mapOutFailed.memOk := by
  unfold State.mapOutFailed
  exact memOk_foldl (fun u x h1 => memOk_mapOut h1) h

theorem memOk_coldReset {s : State} (h : s.memOk) : s.coldReset.memOk := by
  unfold State.coldReset
  dsimp only
  exact memOk_bringUp ((cachesOnly_fresh _).memOk (memOk_mk (memOk_survivors (memOk_mapOutFailed (memOk_readyLost h)))))

theorem memOk_powerLoss {s : State} (h : s.memOk) : s.powerLoss.memOk := by
  unfold State.powerLoss
  dsimp only
  exact memOk_mk memOk_reset

theorem resOk_execPowerGoodRise {r : BootReport} {s : State} (h : s.memOk) : ResOk (execPowerGoodRise r s) := by
  unfold execPowerGoodRise
  dsimp only
  exact resOk_ite (resOk_idle h) (resOk_ite (resOk_next (memOk_mk h)) (resOk_next (memOk_bringUp (memOk_mk h))))

theorem resOk_execPowerGoodFall {s : State} (h : s.memOk) : ResOk (execPowerGoodFall s) := by
  unfold execPowerGoodFall
  exact resOk_ite (resOk_next (memOk_powerLoss h)) (resOk_idle h)

theorem resOk_execColdRstAssert {s : State} (h : s.memOk) : ResOk (execColdRstAssert s) := by
  unfold execColdRstAssert
  dsimp only
  exact resOk_next (memOk_ite (memOk_askReset (memOk_mk h)) (memOk_mk h))

theorem memOk_portLost {s : State} {k : Nat} (h : s.memOk) : (s.portLost k).memOk := by
  unfold State.portLost
  exact (logsOnly_setReadyFn _ _ _).memOk (memOk_foldl (fun u x h1 => memOk_subDown h1) h)

theorem memOk_hostLinkLost {s : State} {i : Nat} (h : s.memOk) : (s.hostLinkLost i).memOk := by
  unfold State.hostLinkLost
  dsimp only
  exact memOk_mk ((logsOnly_setReadyFn _ _ _).memOk ((logsOnly_setRf _ _ _ _ _).memOk ((logsOnly_setRf _ _ _ _ _).memOk
    ((logsOnly_setRf _ _ _ _ _).memOk h))))

theorem memOk_supplyReset {s : State} {die : Nat} {skip : Bool} (h : s.memOk) : (s.supplyReset die skip).memOk := by
  unfold State.supplyReset
  dsimp only
  exact memOk_askReset (memOk_ite ((logsOnly_ras _ _).memOk h) ((logsOnly_ras _ _).memOk h))

theorem resOk_execRailFault {r : Rail} {s : State} (h : s.memOk) : ResOk (execRailFault r s) := by
  unfold execRailFault
  dsimp only
  refine resOk_ite (resOk_idle h) ?_
  split
  · exact resOk_next h
  · exact resOk_next (memOk_supplyReset h)
  · exact resOk_next (memOk_supplyReset h)
  · exact resOk_next (memOk_portLost h)
  · exact resOk_next (memOk_portLost h)
  · exact resOk_next (memOk_hostLinkLost (memOk_hostLinkLost (memOk_mk h)))
  · exact resOk_next (memOk_supplyReset h)
  · exact resOk_next (memOk_powerLoss h)
  · exact resOk_next h

theorem resOk_execEbbReset {die : Fin 13} {s : State} (h : s.memOk) : ResOk (execEbbReset die s) := by
  unfold execEbbReset
  exact resOk_ite (resOk_next (memOk_supplyReset h)) (resOk_idle h)

theorem resOk_execPllLockLoss {die : Fin 13} {s : State} (h : s.memOk) : ResOk (execPllLockLoss die s) := by
  unfold execPllLockLoss
  exact resOk_ite (resOk_next (memOk_supplyReset h)) (resOk_idle h)

theorem resOk_execMgmtStartTimeout {s : State} (h : s.memOk) : ResOk (execMgmtStartTimeout s) := by
  unfold execMgmtStartTimeout
  dsimp only
  exact resOk_ite (resOk_idle h) (resOk_next (memOk_ite (memOk_measureBoot ((logsOnly_noteFirmware _).memOk
    (memOk_mk ((logsOnly_logPlain _ _ _ _ _).memOk h)))) (memOk_enterRecovery ((logsOnly_logPlain _ _ _ _ _).memOk h))))

theorem resOk_execRecoveryImage {file : ImageFile} {s : State} (h : s.memOk) : ResOk (execRecoveryImage file s) := by
  unfold execRecoveryImage
  dsimp only
  exact resOk_ite (resOk_idle h) (resOk_next (memOk_ite (memOk_coldReset (memOk_mk h)) (memOk_mk h)))

theorem memOk_returnDie {s : State} {d : Nat} (h : s.memOk) : (s.returnDie d).memOk := by
  unfold State.returnDie
  dsimp only
  exact memOk_mk (memOk_foldl (fun u x h1 => (cohOnly_poisonLine _ _).memOk h1) h)

theorem resOk_execReadyBitSet {b : ReadyBit} {s : State} (h : s.memOk) : ResOk (execReadyBitSet b s) := by
  unfold execReadyBitSet
  refine resOk_ite (resOk_idle h) ?_
  cases b with
  | link k => exact resOk_next (memOk_adoptUnit ((logsOnly_setReadyFn _ _ _).memOk h))
  | pan d => exact resOk_next (memOk_adoptUnit ((logsOnly_setReadyFn _ _ _).memOk (memOk_ite (memOk_returnDie h) h)))
  | shared => exact resOk_next ((logsOnly_setReadyFn _ _ _).memOk (memOk_mkHeap h (Memory.wf_keep _ _ h.heap)))
  | security => exact resOk_next ((logsOnly_setReadyFn _ _ _).memOk h)
  | mgmt => exact resOk_next ((logsOnly_setReadyFn _ _ _).memOk h)
  | basin b => exact resOk_next ((logsOnly_setBasinReady _ _ _).memOk h)
  | chan c => exact resOk_next ((logsOnly_setChanReady _ _ _).memOk h)

theorem resOk_execBootDone {s : State} (h : s.memOk) : ResOk (execBootDone s) := by
  unfold execBootDone
  dsimp only
  exact resOk_ite (resOk_idle h) (resOk_next (memOk_ite (memOk_mk (memOk_foldl
    (fun u x h1 => (logsOnly_logPlain _ _ _ _ _).memOk h1) ((logsOnly_setReadyFn _ _ _).memOk h))) ((logsOnly_emit _ _).memOk
      (memOk_mk (memOk_foldl (fun u x h1 => (logsOnly_logPlain _ _ _ _ _).memOk h1)
        ((logsOnly_setReadyFn _ _ _).memOk h))))))

/-! ### Scalar -/

theorem resOk_runScalar {s : State} {r : GroupRef} {e : Enc} {i : Ins} {k : Group → Launch → Group} (h : s.memOk) : ResOk
    (runScalar s r e i k) := by
  unfold runScalar
  exact resOk_issue h (fun u x x1 h1 => resOk_ite (resOk_raise h1) (resOk_finish h1))

theorem resOk_scalarAlu {fn : Nat} {r : GroupRef} {e : Enc} {s : State} (h : s.memOk) : ResOk (scalarAlu fn r e s) := by
  unfold scalarAlu
  exact resOk_runScalar h

theorem resOk_execScmp {g : GroupRef} {e : Enc} {s : State} (h : s.memOk) : ResOk (execScmp g e s) := by
  unfold execScmp
  exact resOk_runScalar h

theorem resOk_execRdctr {g : GroupRef} {e : Enc} {s : State} (h : s.memOk) : ResOk (execRdctr g e s) := by
  unfold execRdctr
  exact resOk_runScalar h

theorem resOk_execRdctx {g : GroupRef} {e : Enc} {s : State} (h : s.memOk) : ResOk (execRdctx g e s) := by
  unfold execRdctx
  exact resOk_runScalar h

theorem resOk_execTset {g : GroupRef} {e : Enc} {s : State} (h : s.memOk) : ResOk (execTset g e s) := by
  unfold execTset
  exact resOk_runScalar h

theorem resOk_execSadd {g : GroupRef} {e : Enc} {s : State} (h : s.memOk) : ResOk (execSadd g e s) := by
  unfold execSadd
  exact resOk_scalarAlu h

theorem resOk_execSsub {g : GroupRef} {e : Enc} {s : State} (h : s.memOk) : ResOk (execSsub g e s) := by
  unfold execSsub
  exact resOk_scalarAlu h

theorem resOk_execSmul {g : GroupRef} {e : Enc} {s : State} (h : s.memOk) : ResOk (execSmul g e s) := by
  unfold execSmul
  exact resOk_scalarAlu h

theorem resOk_execSmad {g : GroupRef} {e : Enc} {s : State} (h : s.memOk) : ResOk (execSmad g e s) := by
  unfold execSmad
  exact resOk_scalarAlu h

theorem resOk_execSmin {g : GroupRef} {e : Enc} {s : State} (h : s.memOk) : ResOk (execSmin g e s) := by
  unfold execSmin
  exact resOk_scalarAlu h

theorem resOk_execSmax {g : GroupRef} {e : Enc} {s : State} (h : s.memOk) : ResOk (execSmax g e s) := by
  unfold execSmax
  exact resOk_scalarAlu h

theorem resOk_execSabs {g : GroupRef} {e : Enc} {s : State} (h : s.memOk) : ResOk (execSabs g e s) := by
  unfold execSabs
  exact resOk_scalarAlu h

theorem resOk_execSneg {g : GroupRef} {e : Enc} {s : State} (h : s.memOk) : ResOk (execSneg g e s) := by
  unfold execSneg
  exact resOk_scalarAlu h

theorem resOk_execSand {g : GroupRef} {e : Enc} {s : State} (h : s.memOk) : ResOk (execSand g e s) := by
  unfold execSand
  exact resOk_scalarAlu h

theorem resOk_execSor {g : GroupRef} {e : Enc} {s : State} (h : s.memOk) : ResOk (execSor g e s) := by
  unfold execSor
  exact resOk_scalarAlu h

theorem resOk_execSxor {g : GroupRef} {e : Enc} {s : State} (h : s.memOk) : ResOk (execSxor g e s) := by
  unfold execSxor
  exact resOk_scalarAlu h

theorem resOk_execSnot {g : GroupRef} {e : Enc} {s : State} (h : s.memOk) : ResOk (execSnot g e s) := by
  unfold execSnot
  exact resOk_scalarAlu h

theorem resOk_execSshl {g : GroupRef} {e : Enc} {s : State} (h : s.memOk) : ResOk (execSshl g e s) := by
  unfold execSshl
  exact resOk_scalarAlu h

theorem resOk_execSshr {g : GroupRef} {e : Enc} {s : State} (h : s.memOk) : ResOk (execSshr g e s) := by
  unfold execSshr
  exact resOk_scalarAlu h

theorem resOk_execSsra {g : GroupRef} {e : Enc} {s : State} (h : s.memOk) : ResOk (execSsra g e s) := by
  unfold execSsra
  exact resOk_scalarAlu h

theorem resOk_execSsel {g : GroupRef} {e : Enc} {s : State} (h : s.memOk) : ResOk (execSsel g e s) := by
  unfold execSsel
  exact resOk_scalarAlu h

theorem resOk_execSclz {g : GroupRef} {e : Enc} {s : State} (h : s.memOk) : ResOk (execSclz g e s) := by
  unfold execSclz
  exact resOk_scalarAlu h

theorem resOk_execSpopc {g : GroupRef} {e : Enc} {s : State} (h : s.memOk) : ResOk (execSpopc g e s) := by
  unfold execSpopc
  exact resOk_scalarAlu h

theorem resOk_execSmov {g : GroupRef} {e : Enc} {s : State} (h : s.memOk) : ResOk (execSmov g e s) := by
  unfold execSmov
  exact resOk_scalarAlu h

theorem resOk_execSdiv {g : GroupRef} {e : Enc} {s : State} (h : s.memOk) : ResOk (execSdiv g e s) := by
  unfold execSdiv
  exact resOk_scalarAlu h

theorem resOk_execSrem {g : GroupRef} {e : Enc} {s : State} (h : s.memOk) : ResOk (execSrem g e s) := by
  unfold execSrem
  exact resOk_scalarAlu h

theorem resOk_execSdivu {g : GroupRef} {e : Enc} {s : State} (h : s.memOk) : ResOk (execSdivu g e s) := by
  unfold execSdivu
  exact resOk_scalarAlu h

theorem resOk_execSremu {g : GroupRef} {e : Enc} {s : State} (h : s.memOk) : ResOk (execSremu g e s) := by
  unfold execSremu
  exact resOk_scalarAlu h

/-! ### Control -/

theorem resOk_execNop {g : GroupRef} {e : Enc} {s : State} (h : s.memOk) : ResOk (execNop g e s) := by
  unfold execNop
  exact resOk_issue h (fun u x x1 h1 => resOk_finish h1)

theorem resOk_execBra {g : GroupRef} {e : Enc} {s : State} (h : s.memOk) : ResOk (execBra g e s) := by
  unfold execBra
  exact resOk_issue h (fun u x x1 h1 => resOk_next (memOk_putGroup h1))

theorem resOk_runBranch {s : State} {r : GroupRef} {e : Enc} {i : Ins} {k : State → Group → Launch → Res} (h : s.memOk)
    (h1 : ∀ (a : State) (a_1 : Group) (a_2 : Launch), a.memOk → ResOk (k a a_1 a_2)) : ResOk (runBranch s r e i k) := by
  unfold runBranch
  exact resOk_issue h (fun u x x1 h2 => resOk_ite (resOk_raise h2) (h1 _ _ _ h2))

theorem resOk_execBCc {g : GroupRef} {e : Enc} {s : State} (h : s.memOk) : ResOk (execBCc g e s) := by
  unfold execBCc
  exact resOk_runBranch h (fun u x x1 h1 => resOk_ite (resOk_next (memOk_putGroup h1)) (resOk_finish h1))

theorem resOk_execCall {g : GroupRef} {e : Enc} {s : State} (h : s.memOk) : ResOk (execCall g e s) := by
  unfold execCall
  exact resOk_issue h (fun u x x1 h1 => resOk_next (memOk_putGroup h1))

theorem resOk_jumpReg {fn : Nat} {r : GroupRef} {e : Enc} {s : State} (h : s.memOk) : ResOk (jumpReg fn r e s) := by
  unfold jumpReg
  dsimp only
  exact resOk_runBranch h (fun u x x1 h1 => resOk_ite (resOk_raise h1) (resOk_next (memOk_putGroup h1)))

theorem resOk_execJr {g : GroupRef} {e : Enc} {s : State} (h : s.memOk) : ResOk (execJr g e s) := by
  unfold execJr
  exact resOk_jumpReg h

theorem resOk_execRet {g : GroupRef} {e : Enc} {s : State} (h : s.memOk) : ResOk (execRet g e s) := by
  unfold execRet
  exact resOk_jumpReg h

theorem resOk_execSplit {g : GroupRef} {e : Enc} {s : State} (h : s.memOk) : ResOk (execSplit g e s) := by
  unfold execSplit
  dsimp only
  exact resOk_issue h (fun u x x1 h1 => resOk_ite (resOk_raise h1) (resOk_ite (resOk_finish h1)
    (resOk_next (memOk_putGroup h1))))

theorem resOk_execElseMask {g : GroupRef} {e : Enc} {s : State} (h : s.memOk) : ResOk (execElseMask g e s) := by
  unfold execElseMask
  dsimp only
  refine resOk_issue h ?_
  intro u x x1 h1
  split
  · exact resOk_raise h1
  · exact resOk_ite (resOk_next (memOk_putGroup h1)) (resOk_next (memOk_putGroup h1))

theorem resOk_execJoin {g : GroupRef} {e : Enc} {s : State} (h : s.memOk) : ResOk (execJoin g e s) := by
  unfold execJoin
  dsimp only
  refine resOk_issue h ?_
  intro u x x1 h1
  split
  · exact resOk_raise h1
  · exact resOk_finish h1

theorem resOk_execCut {g : GroupRef} {e : Enc} {s : State} (h : s.memOk) : ResOk (execCut g e s) := by
  unfold execCut
  dsimp only
  refine resOk_issue h ?_
  intro u x x1 h1
  split
  · exact resOk_raise h1
  · exact resOk_ite (resOk_finish h1) (resOk_next (memOk_putGroup h1))

theorem resOk_execElect {g : GroupRef} {e : Enc} {s : State} (h : s.memOk) : ResOk (execElect g e s) := by
  unfold execElect
  dsimp only
  exact resOk_issue h (fun u x x1 h1 => resOk_finish h1)

theorem resOk_execTwait {g : GroupRef} {e : Enc} {s : State} (h : s.memOk) : ResOk (execTwait g e s) := by
  unfold execTwait
  exact resOk_issue h (fun u x x1 h1 => resOk_ite (resOk_next (memOk_putGroup h1)) (resOk_finish h1))

theorem resOk_execTwaitReturn {g : GroupRef} {s : State} (h : s.memOk) : ResOk (execTwaitReturn g s) := by
  unfold execTwaitReturn
  refine resOk_clocked h ?_
  split
  · exact resOk_idle h
  · split
    · exact resOk_ite (resOk_idle h) (resOk_next (memOk_putGroup h))
    · exact resOk_idle h

theorem resOk_execSwait {g : GroupRef} {e : Enc} {s : State} (h : s.memOk) : ResOk (execSwait g e s) := by
  unfold execSwait
  dsimp only
  exact resOk_issue h (fun u x x1 h1 => resOk_ite (resOk_raise h1) (resOk_ite (resOk_raise h1)
    (resOk_ite (resOk_raise h1) (resOk_ite (resOk_raise h1) (resOk_ite (resOk_finish h1)
      (resOk_next (memOk_putGroup h1)))))))

theorem resOk_execSwaitReturn {g : GroupRef} {s : State} (h : s.memOk) : ResOk (execSwaitReturn g s) := by
  unfold execSwaitReturn
  dsimp only
  refine resOk_clocked h ?_
  split
  · exact resOk_idle h
  · split
    · exact resOk_ite (resOk_next (memOk_fatal h)) (resOk_ite (resOk_next (memOk_putGroup h)) (resOk_idle h))
    · exact resOk_idle h

theorem resOk_execEndGroup {g : GroupRef} {e : Enc} {s : State} (h : s.memOk) : ResOk (execEndGroup g e s) := by
  unfold execEndGroup
  dsimp only
  exact resOk_issue h (fun u x x1 h1 => resOk_ite (resOk_raise h1) (resOk_next (memOk_mk h1)))

theorem memOk_finishLaunch {s : State} {id : Nat} {l : Launch} (h : s.memOk) : (s.finishLaunch id l).memOk := by
  unfold State.finishLaunch
  exact memOk_mk h

/-! ### HostSite -/

theorem resOk_execHostPowerGood {pin : PowerPin} {s : State} (h : s.memOk) : ResOk (execHostPowerGood pin s) := by
  unfold execHostPowerGood
  dsimp only
  exact resOk_ite (resOk_idle h) (resOk_ite (resOk_next (memOk_ite ((logsOnly_setRf _ _ _ _ _).memOk
    (memOk_ite (memOk_hostLinkLost (memOk_mk h)) (memOk_mk h))) (memOk_ite (memOk_hostLinkLost (memOk_mk h)) (memOk_mk h))))
      (resOk_next (memOk_ite ((logsOnly_setRf _ _ _ _ _).memOk (memOk_mk h)) (memOk_mk h))))

theorem resOk_execHostLinkUp {site : Fin 2} {trained : BitVec 4} {fast : Bool} {s : State} (h : s.memOk) : ResOk
    (execHostLinkUp site trained fast s) := by
  unfold execHostLinkUp
  dsimp only
  exact resOk_ite (resOk_idle h) (resOk_ite (resOk_next (memOk_foldl (fun u x h1 => (logsOnly_ras _ _).memOk h1)
    ((logsOnly_setRf _ _ _ _ _).memOk h))) (resOk_next ((logsOnly_setReadyFn _ _ _).memOk (memOk_mk
      ((logsOnly_setRf _ _ _ _ _).memOk ((logsOnly_setRf _ _ _ _ _).memOk ((logsOnly_setRf _ _ _ _ _).memOk
        (memOk_foldl (fun u x h1 => (logsOnly_ras _ _).memOk h1) ((logsOnly_setRf _ _ _ _ _).memOk h)))))))))

theorem resOk_execHostLinkRetrain {site : Fin 2} {s : State} (h : s.memOk) : ResOk (execHostLinkRetrain site s) := by
  unfold execHostLinkRetrain
  dsimp only
  exact resOk_ite (resOk_idle h) (resOk_next ((logsOnly_setRf _ _ _ _ _).memOk (memOk_mk h)))

theorem resOk_execHostLinkDown {site : Fin 2} {s : State} (h : s.memOk) : ResOk (execHostLinkDown site s) := by
  unfold execHostLinkDown
  exact resOk_ite (resOk_next (memOk_hostLinkLost h)) (resOk_idle h)

theorem resOk_execUcieFlitReplay {site : Fin 2} {s : State} (h : s.memOk) : ResOk (execUcieFlitReplay site s) := by
  unfold execUcieFlitReplay
  exact resOk_ite (resOk_idle h) (resOk_next ((logsOnly_setReg _ _ _).memOk h))

theorem resOk_execSiteAPerst {s : State} (h : s.memOk) : ResOk (execSiteAPerst s) := by
  unfold execSiteAPerst
  dsimp only
  exact resOk_next (memOk_ite (memOk_askReset (memOk_mk h)) (memOk_mk h))

theorem resOk_execSiteBPerst {s : State} (h : s.memOk) : ResOk (execSiteBPerst s) := by
  unfold execSiteBPerst
  dsimp only
  exact resOk_next (memOk_ite (memOk_hostLinkLost (memOk_mk h)) (memOk_mk h))

theorem resOk_execSitebTrainRequest {y0 : Fin 2} {s : State} (h : s.memOk) : ResOk (execSitebTrainRequest y0 s) := by
  unfold execSitebTrainRequest
  exact resOk_next (memOk_ite h ((logsOnly_emit _ _).memOk h))

theorem resOk_execSitebConfigAccess {y0 : Nat} {y1 : Bool} {s : State} (h : s.memOk) : ResOk
    (execSitebConfigAccess y0 y1 s) := by
  unfold execSitebConfigAccess
  exact resOk_next ((logsOnly_dropped _ _ _).memOk ((logsOnly_emit _ _).memOk h))

theorem resOk_execConfigRequest {fn off : Nat} {write : Option (BitVec 32)} {s : State} (h : s.memOk) : ResOk
    (execConfigRequest fn off write s) := by
  unfold execConfigRequest
  dsimp only
  refine resOk_ite (resOk_next ((logsOnly_emit _ _).memOk h)) ?_
  refine resOk_ite (resOk_next ((logsOnly_emit _ _).memOk h)) ?_
  split
  · exact resOk_next ((logsOnly_emit _ _).memOk (memOk_mk h))
  · exact resOk_next ((logsOnly_emit _ _).memOk ((cachesOnly_fresh _).memOk h))

theorem resOk_execUnsupportedRequest {site : Fin 2} {fn : Nat} {y2 : Unsupported} {s : State} (h : s.memOk) : ResOk
    (execUnsupportedRequest site fn y2 s) := by
  unfold execUnsupportedRequest
  exact resOk_next ((logsOnly_dropped _ _ _).memOk ((logsOnly_emit _ _).memOk h))

theorem memOk_writeSiteMap {s : State} {high : Bool} {val : Nat} (h : s.memOk) : (s.writeSiteMap high val).memOk := by
  unfold State.writeSiteMap
  dsimp only
  exact memOk_ite h ((logsOnly_setReg _ _ _).memOk (memOk_ite ((logsOnly_accessError _ _ _ _).memOk h) h))

theorem resOk_execSitebMapWrite {high : Bool} {val : BitVec 64} {s : State} (h : s.memOk) : ResOk
    (execSitebMapWrite high val s) := by
  unfold execSitebMapWrite
  exact resOk_next (memOk_writeSiteMap h)

theorem memOk_unmask {s : State} {fn vector : Nat} (h : s.memOk) : (s.unmask fn vector).memOk := by
  unfold State.unmask
  dsimp only
  exact memOk_ite ((logsOnly_emit _ _).memOk (memOk_mk h)) (memOk_mk h)

theorem resOk_execMsixUnmask {fn vector : Nat} {s : State} (h : s.memOk) : ResOk (execMsixUnmask fn vector s) := by
  unfold execMsixUnmask
  exact resOk_ite resOk_fault (resOk_next (memOk_unmask h))

theorem resOk_execAtsInvalidation {site : Fin 2} {pasid page pages : Nat} {s : State} (h : s.memOk) : ResOk
    (execAtsInvalidation site pasid page pages s) := by
  unfold execAtsInvalidation
  dsimp only
  exact resOk_next ((logsOnly_emit _ _).memOk (memOk_mk h))

/-! ### PowerCtl -/

theorem memOk_noteFixed {s : State} (h : s.memOk) : s.noteFixed.memOk := by
  unfold State.noteFixed
  exact (logsOnly_setRf _ _ _ _ _).memOk h

theorem memOk_sendFrame {s : State} {d step : Nat} (h : s.memOk) : (s.sendFrame d step).memOk := by
  unfold State.sendFrame
  dsimp only
  exact (logsOnly_emit _ _).memOk (memOk_mk h)

theorem memOk_beginStep {s : State} {d step : Nat} (h : s.memOk) : (s.beginStep d step).memOk := by
  unfold State.beginStep
  dsimp only
  exact memOk_ite (memOk_sendFrame (memOk_mk (memOk_edgesAsync h))) (memOk_mk (memOk_edgesAsync h))

theorem memOk_takeStep {s : State} {d step : Nat} (h : s.memOk) : (s.takeStep d step).memOk := by
  unfold State.takeStep
  dsimp only
  exact memOk_noteFixed (memOk_mk ((logsOnly_setRf _ _ _ _ _).memOk h))

theorem resOk_execStepChangeComplete {d : Fin 12} {s : State} (h : s.memOk) : ResOk (execStepChangeComplete d s) := by
  unfold execStepChangeComplete
  split
  · exact resOk_idle h
  · exact resOk_ite (resOk_idle h) (resOk_ite (resOk_next (memOk_sendFrame (memOk_takeStep h))) (resOk_next
      (memOk_takeStep h)))

theorem resOk_execVcmdAck {d : Fin 12} {s : State} (h : s.memOk) : ResOk (execVcmdAck d s) := by
  unfold execVcmdAck
  dsimp only
  exact resOk_ite (resOk_next (memOk_mk h)) (resOk_idle h)

theorem resOk_execVcmdAckTimeout {d : Fin 12} {s : State} (h : s.memOk) : ResOk (execVcmdAckTimeout d s) := by
  unfold execVcmdAckTimeout
  dsimp only
  split
  · exact resOk_idle h
  · exact resOk_ite (resOk_next ((logsOnly_emit _ _).memOk (memOk_mk h))) (resOk_next
      ((logsOnly_ras _ _).memOk (memOk_mk h)))

theorem memOk_rangeErr {s : State} (h : s.memOk) : s.rangeErr.memOk := by
  unfold State.rangeErr
  exact (logsOnly_setRf _ _ _ _ _).memOk h

theorem resOk_execPwrCapWrite {val : BitVec 32} {s : State} (h : s.memOk) : ResOk (execPwrCapWrite val s) := by
  unfold execPwrCapWrite
  dsimp only
  exact resOk_ite (resOk_next ((logsOnly_setRf _ _ _ _ _).memOk h)) (resOk_next (memOk_rangeErr h))

theorem resOk_execPwrFixedWrite {val : BitVec 32} {s : State} (h : s.memOk) : ResOk (execPwrFixedWrite val s) := by
  unfold execPwrFixedWrite
  exact resOk_ite (resOk_next (memOk_rangeErr h)) (resOk_next (memOk_noteFixed ((logsOnly_setReg _ _ _).memOk h)))

theorem memOk_brakeDie {s : State} {d : Nat} (h : s.memOk) : (s.brakeDie d).memOk := by
  unfold State.brakeDie
  exact memOk_ite h (memOk_sendFrame (memOk_takeStep (memOk_edgesAsync h)))

theorem resOk_execBrakeAssert {s : State} (h : s.memOk) : ResOk (execBrakeAssert s) := by
  unfold execBrakeAssert
  dsimp only
  exact resOk_next (memOk_foldl (fun u x h1 => memOk_brakeDie h1) (memOk_mk h))

theorem resOk_execBrakeDeassert {s : State} (h : s.memOk) : ResOk (execBrakeDeassert s) := by
  unfold execBrakeDeassert
  dsimp only
  exact resOk_next (memOk_mk h)

theorem resOk_execEbbStretch {d : Fin 12} {s : State} (h : s.memOk) : ResOk (execEbbStretch d s) := by
  unfold execEbbStretch
  dsimp only
  exact resOk_ite (resOk_idle h) (resOk_next (memOk_mk ((logsOnly_ras _ _).memOk ((logsOnly_setReg _ _ _).memOk h))))

theorem resOk_execEbbStretchEnd {d : Fin 12} {s : State} (h : s.memOk) : ResOk (execEbbStretchEnd d s) := by
  unfold execEbbStretchEnd
  dsimp only
  exact resOk_ite (resOk_next (memOk_mk h)) (resOk_idle h)

theorem resOk_execEbbLimitExpiry {d : Fin 12} {s : State} (h : s.memOk) : ResOk (execEbbLimitExpiry d s) := by
  unfold execEbbLimitExpiry
  dsimp only
  exact resOk_ite (resOk_next (memOk_mk h)) (resOk_idle h)

theorem resOk_execThermalSample {d : Fin 12} {tempC : Nat} {s : State} (h : s.memOk) : ResOk
    (execThermalSample d tempC s) := by
  unfold execThermalSample
  dsimp only
  exact resOk_ite (resOk_next (memOk_mk ((logsOnly_setRf _ _ _ _ _).memOk h))) (resOk_ite
    (resOk_next ((logsOnly_setRf _ _ _ _ _).memOk h)) (resOk_ite (resOk_next (memOk_mk ((logsOnly_setRf _ _ _ _ _).memOk h)))
      (resOk_ite (resOk_next ((logsOnly_ras _ _).memOk (memOk_mk ((logsOnly_setRf _ _ _ _ _).memOk h)))) (resOk_next
        (memOk_alert ((logsOnly_setRf _ _ _ _ _).memOk ((logsOnly_ras _ _).memOk (memOk_mk
          ((logsOnly_setRf _ _ _ _ _).memOk h)))))))))

theorem memOk_learnAll {s : State} {dies : List Nat} (h : s.memOk) : (s.learnAll dies).memOk := by
  unfold State.learnAll
  dsimp only
  exact memOk_foldl (fun u x h1 => memOk_ite h1 (memOk_mk h1)) h

theorem memOk_lowerHot {s : State} (h : s.memOk) : s.lowerHot.memOk := by
  unfold State.lowerHot
  dsimp only
  exact memOk_mk h

theorem resOk_execControlInterval {m : PowerSample} {s : State} (h : s.memOk) : ResOk (execControlInterval m s) := by
  unfold execControlInterval
  dsimp only
  exact resOk_next (memOk_ite ((logsOnly_ras _ _).memOk ((logsOnly_setRf _ _ _ _ _).memOk (memOk_noteFixed
    ((logsOnly_setReg _ _ _).memOk (memOk_mk ((logsOnly_setRf _ _ _ _ _).memOk (memOk_foldl
      (fun u x h1 => memOk_ite ((logsOnly_setRf _ _ _ _ _).memOk ((logsOnly_setRf _ _ _ _ _).memOk
        ((logsOnly_setRf _ _ _ _ _).memOk h1))) (memOk_beginStep ((logsOnly_setRf _ _ _ _ _).memOk
          ((logsOnly_setRf _ _ _ _ _).memOk ((logsOnly_setRf _ _ _ _ _).memOk h1))))) (memOk_mk
            (memOk_lowerHot (memOk_foldl (fun u x h1 => memOk_adoptUnit h1) (memOk_learnAll h))))))))))) (memOk_noteFixed
              ((logsOnly_setReg _ _ _).memOk (memOk_mk ((logsOnly_setRf _ _ _ _ _).memOk (memOk_foldl
                (fun u x h1 => memOk_ite ((logsOnly_setRf _ _ _ _ _).memOk ((logsOnly_setRf _ _ _ _ _).memOk
                  ((logsOnly_setRf _ _ _ _ _).memOk h1))) (memOk_beginStep
                    ((logsOnly_setRf _ _ _ _ _).memOk ((logsOnly_setRf _ _ _ _ _).memOk
                      ((logsOnly_setRf _ _ _ _ _).memOk h1))))) (memOk_mk
                        (memOk_lowerHot (memOk_foldl (fun u x h1 => memOk_adoptUnit h1) (memOk_learnAll h))))))))))

/-! ### Mgmt -/

theorem resOk_execLockstepMismatch {s : State} (h : s.memOk) : ResOk (execLockstepMismatch s) := by
  unfold execLockstepMismatch
  dsimp only
  exact resOk_ite (resOk_idle h) (resOk_next (memOk_ite (memOk_alert (memOk_ite
    (memOk_mboxEnd ((logsOnly_ras _ _).memOk (memOk_mk h))) ((logsOnly_ras _ _).memOk (memOk_mk h)))) (memOk_ite
      (memOk_mboxEnd ((logsOnly_ras _ _).memOk (memOk_mk h))) ((logsOnly_ras _ _).memOk (memOk_mk h)))))

theorem resOk_execMgmtRestartComplete {s : State} (h : s.memOk) : ResOk (execMgmtRestartComplete s) := by
  unfold execMgmtRestartComplete
  dsimp only
  exact resOk_ite (resOk_next (memOk_mk h)) (resOk_idle h)

theorem memOk_useLeaf {s : State} (h : s.memOk) : s.useLeaf.memOk := by
  unfold State.useLeaf
  dsimp only
  exact memOk_ite ((logsOnly_setRf _ _ _ _ _).memOk ((logsOnly_setRf _ _ _ _ _).memOk (memOk_mk h)))
    ((logsOnly_setRf _ _ _ _ _).memOk (memOk_mk h))

theorem memOk_switchTree {s : State} (h : s.memOk) : s.switchTree.memOk := by
  unfold State.switchTree
  dsimp only
  exact memOk_ite ((logsOnly_setRf _ _ _ _ _).memOk (memOk_mk h)) h

theorem resOk_execAliasTreeGenerate {s : State} (h : s.memOk) : ResOk (execAliasTreeGenerate s) := by
  unfold execAliasTreeGenerate
  dsimp only
  exact resOk_ite (resOk_idle h) (resOk_ite (resOk_next ((logsOnly_setRf _ _ _ _ _).memOk (memOk_useLeaf (memOk_mk h))))
    (resOk_ite (resOk_next (memOk_switchTree (memOk_useLeaf (memOk_mk h)))) (resOk_idle h)))

theorem memOk_spdmSend {s : State} {code : Nat} {body : List Byte} (h : s.memOk) : (s.spdmSend code body).memOk := by
  unfold State.spdmSend
  exact (logsOnly_emit _ _).memOk h

theorem memOk_spdmError {s : State} {e : Nat} (h : s.memOk) : (s.spdmError e).memOk := by
  unfold State.spdmError
  exact memOk_spdmSend h

theorem resOk_spdmServe {s : State} {f : State → State} (h : s.memOk) (h1 : ∀ (a : State), a.memOk → (f a).memOk) : ResOk
    (s.spdmServe f) := by
  unfold State.spdmServe
  exact resOk_ite (resOk_next h) (resOk_ite (resOk_next (memOk_spdmError h)) (resOk_next (h1 _ h)))

theorem memOk_spdmSign {s : State} {code : Nat} {body : List Byte} {what : Nat} {req : List Byte} (h : s.memOk) :
    (s.spdmSign code body what req).memOk := by
  unfold State.spdmSign
  dsimp only
  exact memOk_ite (memOk_spdmError h) (memOk_spdmSend (memOk_switchTree ((logsOnly_setRf _ _ _ _ _).memOk h)))

theorem resOk_execGetVersion {y0 : List Byte} {s : State} (h : s.memOk) : ResOk (execGetVersion y0 s) := by
  unfold execGetVersion
  exact resOk_next (memOk_ite (memOk_spdmSend h) h)

theorem resOk_execGetCapabilities {y0 : List Byte} {s : State} (h : s.memOk) : ResOk (execGetCapabilities y0 s) := by
  unfold execGetCapabilities
  exact resOk_spdmServe h (fun u h1 => memOk_spdmSend h1)

theorem resOk_execNegotiateAlgorithms {y0 : List Byte} {s : State} (h : s.memOk) : ResOk (execNegotiateAlgorithms y0 s) := by
  unfold execNegotiateAlgorithms
  exact resOk_spdmServe h (fun u h1 => memOk_spdmSend h1)

theorem resOk_execGetDigests {y0 : List Byte} {s : State} (h : s.memOk) : ResOk (execGetDigests y0 s) := by
  unfold execGetDigests
  exact resOk_spdmServe h (fun u h1 => memOk_spdmSend h1)

theorem resOk_execGetCertificate {slot offset length : Nat} {s : State} (h : s.memOk) : ResOk
    (execGetCertificate slot offset length s) := by
  unfold execGetCertificate
  dsimp only
  exact resOk_spdmServe h (fun u h1 => memOk_ite (memOk_spdmError h1) (memOk_spdmSend h1))

theorem resOk_execChallenge {slot : Nat} {req : List Byte} {s : State} (h : s.memOk) : ResOk (execChallenge slot req s) := by
  unfold execChallenge
  exact resOk_spdmServe h (fun u h1 => memOk_ite (memOk_spdmError h1) (memOk_spdmSign h1))

theorem resOk_execGetMeasurements {index : Nat} {signed : Bool} {req : List Byte} {s : State} (h : s.memOk) : ResOk
    (execGetMeasurements index signed req s) := by
  unfold execGetMeasurements
  refine resOk_spdmServe h ?_
  intro u h1
  split
  · exact memOk_spdmError h1
  · exact memOk_ite (memOk_spdmSign h1) (memOk_spdmSend h1)

theorem resOk_execPldmPlatformRequest {sensor : PldmSensor} {s : State} (h : s.memOk) : ResOk
    (execPldmPlatformRequest sensor s) := by
  unfold execPldmPlatformRequest
  refine resOk_next ?_
  refine memOk_ite h ?_
  split
  · exact (logsOnly_emit _ _).memOk h
  · exact (logsOnly_emit _ _).memOk h
  · exact (logsOnly_emit _ _).memOk h

theorem resOk_execPldmFirmwareUpdate {file : ImageFile} {s : State} (h : s.memOk) : ResOk
    (execPldmFirmwareUpdate file s) := by
  unfold execPldmFirmwareUpdate
  dsimp only
  exact resOk_next (memOk_ite h (memOk_extend (memOk_mk h)))

theorem resOk_execMctpControl {req : List Byte} {s : State} (h : s.memOk) : ResOk (execMctpControl req s) := by
  unfold execMctpControl
  dsimp only
  exact resOk_next (memOk_ite h (memOk_ite ((logsOnly_emit _ _).memOk (memOk_mk h)) (memOk_ite ((logsOnly_emit _ _).memOk h)
    ((logsOnly_emit _ _).memOk h))))

theorem resOk_execI3cDynamicAddress {addr : BitVec 7} {s : State} (h : s.memOk) : ResOk (execI3cDynamicAddress addr s) := by
  unfold execI3cDynamicAddress
  dsimp only
  exact resOk_ite (resOk_next (memOk_mk h)) (resOk_idle h)

theorem memOk_mboxDoorbell {s : State} {cmd tok len : Nat} (h : s.memOk) : (s.mboxDoorbell cmd tok len).memOk := by
  unfold State.mboxDoorbell
  dsimp only
  exact memOk_ite ((logsOnly_dropped _ _ _).memOk h) (memOk_ite (memOk_mboxEnd ((logsOnly_setRf _ _ _ _ _).memOk h))
    ((logsOnly_setRf _ _ _ _ _).memOk (memOk_mk ((logsOnly_setRf _ _ _ _ _).memOk h))))

theorem resOk_execChanMapout {tok : BitVec 8} {len : BitVec 16} {s : State} (h : s.memOk) : ResOk
    (execChanMapout tok len s) := by
  unfold execChanMapout
  exact resOk_next (memOk_mboxDoorbell h)

theorem resOk_execChanClear {tok : BitVec 8} {len : BitVec 16} {s : State} (h : s.memOk) : ResOk
    (execChanClear tok len s) := by
  unfold execChanClear
  exact resOk_next (memOk_mboxDoorbell h)

theorem resOk_execPwrTable {tok : BitVec 8} {len : BitVec 16} {s : State} (h : s.memOk) : ResOk
    (execPwrTable tok len s) := by
  unfold execPwrTable
  exact resOk_next (memOk_mboxDoorbell h)

theorem resOk_execSvnCommit {tok : BitVec 8} {len : BitVec 16} {s : State} (h : s.memOk) : ResOk
    (execSvnCommit tok len s) := by
  unfold execSvnCommit
  exact resOk_next (memOk_mboxDoorbell h)

theorem resOk_execMeasExtend {tok : BitVec 8} {len : BitVec 16} {s : State} (h : s.memOk) : ResOk
    (execMeasExtend tok len s) := by
  unfold execMeasExtend
  exact resOk_next (memOk_mboxDoorbell h)

theorem resOk_execBtnDirectory {tok : BitVec 8} {len : BitVec 16} {s : State} (h : s.memOk) : ResOk
    (execBtnDirectory tok len s) := by
  unfold execBtnDirectory
  exact resOk_next (memOk_mboxDoorbell h)

theorem memOk_setMapouts {s : State} {m : NSet} (h : s.memOk) : (s.setMapouts m).memOk := by
  unfold State.setMapouts
  exact memOk_mk h

/-- What a mailbox command leaves. -/
theorem memOk_mboxRun {s : State} {m : MboxCmd} {flashOk : Bool} (h : s.memOk) : (s.mboxRun m flashOk).2.2.memOk := by
  unfold State.mboxRun
  dsimp only
  split
  · split_ifs
    · exact h
    · exact h
    · exact h
    · exact memOk_setMapouts h
  · split_ifs
    · exact h
    · exact h
    · exact h
    · exact memOk_setMapouts h
  · split_ifs <;> exact h
  · split_ifs
    · exact h
    · exact h
    · exact h
    · exact (logsOnly_noteFirmware _).memOk (memOk_mk h)
  · split_ifs
    · exact h
    · exact memOk_extend h
  · split_ifs <;> exact h
  · exact h

theorem resOk_execMboxComplete {flashOk : Bool} {s : State} (h : s.memOk) : ResOk (execMboxComplete flashOk s) := by
  unfold execMboxComplete
  split
  · exact resOk_idle h
  · exact resOk_next (memOk_mboxEnd (memOk_mboxRun h))

/-! ### Route -/

theorem resOk_execRoute {g : GroupRef} {e : Enc} {s : State} (h : s.memOk) : ResOk (execRoute g e s) := by
  unfold execRoute
  dsimp only
  exact resOk_issue h (fun u x x1 h1 => resOk_ite (resOk_next h1) (resOk_ite (resOk_raise h1)
    (resOk_ite (resOk_raise h1) (resOk_ite (resOk_raise h1) (resOk_ite (resOk_raise h1)
      (resOk_ite (resOk_finish h1) (resOk_ite (resOk_next h1) (resOk_ite (resOk_raise h1)
        (resOk_finish (memOk_mk (memOk_newId h1)))))))))))

theorem resOk_execRouteComplete {id : Nat} {s : State} (h : s.memOk) : ResOk (execRouteComplete id s) := by
  unfold execRouteComplete
  dsimp only
  refine resOk_clocked h ?_
  split
  · exact resOk_idle h
  · split
    · exact resOk_next (memOk_poolWrite (memOk_mk h))
    · exact resOk_ite (resOk_next (memOk_mk (memOk_poolWrite (memOk_mk h)))) (resOk_next (memOk_poolWrite (memOk_mk h)))

/-! ### Recovery -/

theorem memOk_hangEvent {s : State} {core sev event ctx : Nat} (h : s.memOk) : (s.hangEvent core sev event ctx).memOk := by
  unfold State.hangEvent
  dsimp only
  exact (logsOnly_ras _ _).memOk h

theorem memOk_dropSuspect {s : State} {x : Suspect} (h : s.memOk) : (s.dropSuspect x).memOk := by
  unfold State.dropSuspect
  exact memOk_mk h

theorem memOk_failSuspect {s : State} {x : Suspect} (h : s.memOk) : (s.failSuspect x).memOk := by
  unfold State.failSuspect
  dsimp only
  exact (endsOnly_failCtx _ _).memOk (memOk_ite (memOk_mk (memOk_dropSuspect h)) (memOk_endLaunch (memOk_dropSuspect h)))

theorem memOk_settleCore {s : State} {core n : Nat} (h : s.memOk) : (s.settleCore core n).memOk := by
  induction n generalizing s with
  | zero => exact h
  | succ n ih =>
    rw [State.settleCore]
    split
    · exact h
    · exact ih (memOk_failSuspect (memOk_hangEvent h))

theorem memOk_startReplay {s : State} {x : Suspect} (h : s.memOk) : (s.startReplay x).memOk := by
  unfold State.startReplay
  dsimp only
  refine memOk_ite (memOk_mk h) ?_
  split
  · exact memOk_mk h
  · exact memOk_putGroups (memOk_mk (memOk_ite (memOk_dropIcache (memOk_mk h)) (memOk_mk h)))

theorem memOk_nextReplay {s : State} {core : Nat} (h : s.memOk) : (s.nextReplay core).memOk := by
  unfold State.nextReplay
  dsimp only
  refine memOk_ite h ?_
  split
  · exact h
  · exact memOk_startReplay h

theorem memOk_replayEnded {s : State} {core : Nat} (h : s.memOk) : (s.replayEnded core).memOk := by
  unfold State.replayEnded
  dsimp only
  exact memOk_ite (memOk_nextReplay (memOk_settleCore h)) (memOk_mk
    (memOk_ite (memOk_settleCore h) (memOk_hangEvent (memOk_settleCore h))))

theorem resOk_execLaunchComplete {id : Nat} {s : State} (h : s.memOk) : ResOk (execLaunchComplete id s) := by
  unfold execLaunchComplete
  split
  · exact resOk_idle h
  · exact resOk_ite (resOk_idle h) (resOk_ite (resOk_idle h) (resOk_ite
      (resOk_next (memOk_nextReplay (memOk_finishLaunch h))) (resOk_ite (resOk_next (memOk_nextReplay (memOk_mk h)))
        (resOk_next ((endsOnly_failCtx _ _).memOk (memOk_finishLaunch (memOk_hangEvent h)))))))

theorem resOk_execReplayComplete {id : Nat} {s : State} (h : s.memOk) : ResOk (execReplayComplete id s) := by
  unfold execReplayComplete
  split
  · exact resOk_idle h
  · refine resOk_ite (resOk_ite (resOk_idle h) (resOk_next (memOk_replayEnded (memOk_dropSuspect (memOk_hangEvent h))))) ?_
    split
    · exact resOk_idle h
    · exact resOk_ite (resOk_idle h) (resOk_next (memOk_replayEnded (memOk_finishLaunch
        (memOk_dropSuspect (memOk_hangEvent h)))))

theorem resOk_execReplayWatchdog {id : Nat} {s : State} (h : s.memOk) : ResOk (execReplayWatchdog id s) := by
  unfold execReplayWatchdog
  dsimp only
  split
  · exact resOk_idle h
  · exact resOk_next (memOk_replayEnded (memOk_mk (memOk_failSuspect (memOk_hangEvent h))))

theorem memOk_commandHang {s : State} {launch event : Nat} (h : s.memOk) : (s.commandHang launch event).memOk := by
  unfold State.commandHang
  split
  · exact h
  · exact memOk_ite (memOk_markSuspect (memOk_endLaunch (memOk_hangEvent h))) (memOk_watchdogEnd h)

theorem resOk_execLaunchWatchdog {id : Nat} {s : State} (h : s.memOk) : ResOk (execLaunchWatchdog id s) := by
  unfold execLaunchWatchdog
  split
  · exact resOk_idle h
  · exact resOk_ite (resOk_idle h) (resOk_next (memOk_commandHang h))

theorem resOk_execDmaWatchdog {id : Nat} {s : State} (h : s.memOk) : ResOk (execDmaWatchdog id s) := by
  unfold execDmaWatchdog
  split
  · exact resOk_idle h
  · exact resOk_ite (resOk_idle h) (resOk_ite (resOk_next (memOk_dmaDone (memOk_hangEvent h))) (resOk_next
      (memOk_commandHang h)))

theorem resOk_execMatrixWatchdog {id : Nat} {s : State} (h : s.memOk) : ResOk (execMatrixWatchdog id s) := by
  unfold execMatrixWatchdog
  split
  · exact resOk_idle h
  · exact resOk_ite (resOk_idle h) (resOk_next (memOk_commandHang h))

theorem resOk_execSuspendWatchdog {g : GroupRef} {s : State} (h : s.memOk) : ResOk (execSuspendWatchdog g s) := by
  unfold execSuspendWatchdog
  split
  · split
    · exact resOk_idle h
    · exact resOk_next (memOk_watchdogEnd h)
  · split
    · exact resOk_ite (resOk_idle h) (resOk_next (memOk_watchdogEnd h))
    · exact resOk_idle h

theorem memOk_hangCore {s : State} {core ctx : Nat} {es : List (BitVec 3 × BitVec 4)} (h : s.memOk) :
    (s.hangCore core ctx es).memOk := by
  unfold State.hangCore
  dsimp only
  exact memOk_foldl (fun u x h1 => memOk_askReset h1) (memOk_foldl (fun u x h1 => memOk_markSuspect
    ((endsOnly_failLaunch _ _ _).memOk h1)) (memOk_mk (memOk_hangEvent h)))

theorem resOk_execStopTimeout {hang : CoreHang} {s : State} (h : s.memOk) : ResOk (execStopTimeout hang s) := by
  unfold execStopTimeout
  dsimp only
  refine resOk_ite (resOk_idle h) ?_
  split
  · exact resOk_next (memOk_askReset (memOk_hangEvent (memOk_mk h)))
  · split
    · exact resOk_next (memOk_hangCore h)
    · exact resOk_idle h

theorem memOk_markApplied {s : State} {r : ResetReq} (h : s.memOk) : (s.markApplied r).memOk := by
  unfold State.markApplied
  exact memOk_mk h

theorem memOk_endPackets {s : State} {p : DmaCmd → Bool} (h : s.memOk) : (s.endPackets p).memOk := by
  unfold State.endPackets
  dsimp only
  exact memOk_foldl (fun u x h1 => memOk_ite (memOk_mk h1) (memOk_dmaDone h1)) h

theorem memOk_zeroCore {s : State} {core : Nat} (h : s.memOk) : (s.zeroCore core).memOk := by
  unfold State.zeroCore
  dsimp only
  exact memOk_mk (memOk_zeroSets h)

theorem resOk_execEngineReset {u : EngineRef} {s : State} (h : s.memOk) : ResOk (execEngineReset u s) := by
  unfold execEngineReset
  dsimp only
  split
  · exact resOk_idle h
  · exact resOk_next (memOk_ite (memOk_endPackets (memOk_ite (memOk_zeroCore
      (memOk_foldl (fun u1 x h1 => memOk_endLaunch h1) (memOk_markApplied h))) (memOk_foldl
        (fun u1 x h1 => memOk_endLaunch h1) (memOk_markApplied h)))) (memOk_ite
          (memOk_zeroCore (memOk_foldl (fun u1 x h1 => memOk_endLaunch h1) (memOk_markApplied h))) (memOk_foldl
            (fun u1 x h1 => memOk_endLaunch h1) (memOk_markApplied h))))

theorem memOk_endCores {s : State} {p : Nat → Bool} (h : s.memOk) : (s.endCores p).memOk := by
  unfold State.endCores
  dsimp only
  exact memOk_mk (memOk_endPackets (memOk_foldl (fun u x h1 => memOk_endLaunch h1) h))

theorem resOk_execCoreReset {core : CoreRef} {l1Answers : Bool} {s : State} (h : s.memOk) : ResOk
    (execCoreReset core l1Answers s) := by
  unfold execCoreReset
  dsimp only
  split
  · exact resOk_idle h
  · exact resOk_ite (resOk_idle h) (resOk_next (memOk_foldl (fun u x h1 => memOk_dropIcache
      ((cohOnly_dropCaches _ _ _).memOk (memOk_zeroCore (memOk_endCores h1)))) (memOk_markApplied h)))

theorem memOk_restorePan {s : State} {d : Nat} (h : s.memOk) : (s.restorePan d).memOk := by
  unfold State.restorePan
  refine memOk_foldl ?_ h
  intro u x h1
  refine memOk_ite ?_ h1
  split
  · exact memOk_restore h1
  · exact h1

theorem memOk_diesBits {s : State} {d : Nat} (h : s.memOk) : (s.diesBits d).memOk := by
  unfold State.diesBits
  dsimp only
  exact memOk_foldl (fun u x h1 => (logsOnly_setChanReady _ _ _).memOk h1) (memOk_foldl
    (fun u x h1 => (logsOnly_setBasinReady _ _ _).memOk h1) (memOk_portLost ((logsOnly_setReadyFn _ _ _).memOk h)))

theorem memOk_loseDie {s : State} {d : Nat} (h : s.memOk) : (s.loseDie d).memOk := by
  unfold State.loseDie
  dsimp only
  exact memOk_foldl (fun u x h1 => memOk_settleCtx h1) (memOk_mk (memOk_foldl (fun u x h1 => memOk_stopEdge h1)
    (memOk_restorePan (memOk_foldl (fun u x h1 => memOk_zeroAcc (memOk_zeroPools h1)) (memOk_dropXlat
      (memOk_dropIcache ((cohOnly_dropCaches _ _ _).memOk h)))))))

theorem resOk_execDieReset {d : Fin 12} {s : State} (h : s.memOk) : ResOk (execDieReset d s) := by
  unfold execDieReset
  dsimp only
  split
  · exact resOk_idle h
  · exact resOk_next (memOk_loseDie (memOk_endCores (memOk_foldl (fun u x h1 => memOk_ite (memOk_hurryPart h1)
      (memOk_startPart h1)) (memOk_abandon (memOk_releaseParts (memOk_mk (memOk_diesBits (memOk_markApplied h))))))))

theorem resOk_execWarmDeviceReset {s : State} (h : s.memOk) : ResOk (execWarmDeviceReset s) := by
  unfold execWarmDeviceReset
  dsimp only
  split
  · exact resOk_idle h
  · exact resOk_next (memOk_mk (memOk_warmReset h))

theorem resOk_execColdReset {s : State} (h : s.memOk) : ResOk (execColdReset s) := by
  unfold execColdReset
  dsimp only
  split
  · exact resOk_idle h
  · exact resOk_next (memOk_mk (memOk_coldReset h))

theorem memOk_stepEvent {s : State} {r : ResetReq} {sev event : Nat} (h : s.memOk) : (s.stepEvent r sev event).memOk := by
  unfold State.stepEvent
  dsimp only
  exact (logsOnly_ras _ _).memOk h

theorem memOk_noteDone {s : State} {r : ResetReq} (h : s.memOk) : (s.noteDone r).memOk := by
  unfold State.noteDone
  dsimp only
  exact memOk_ite h (memOk_ite ((logsOnly_setRf _ _ _ _ _).memOk ((logsOnly_setRf _ _ _ _ _).memOk h))
    ((logsOnly_setRf _ _ _ _ _).memOk h))

theorem memOk_endSuspects {s : State} {core : Nat} (h : s.memOk) : (s.endSuspects core).memOk := by
  unfold State.endSuspects
  exact memOk_foldl (fun u x h1 => memOk_ite (memOk_mk h1) (memOk_endLaunch h1)) h

theorem resOk_execResetStepComplete {s : State} (h : s.memOk) : ResOk (execResetStepComplete s) := by
  unfold execResetStepComplete
  dsimp only
  split
  · exact resOk_idle h
  · exact resOk_ite (resOk_next (memOk_ite (memOk_noteDone (memOk_stepEvent (memOk_mk h))) (memOk_noteActive
      (memOk_noteDone (memOk_stepEvent (memOk_mk h)))))) (resOk_ite (resOk_next
        (memOk_nextReplay (memOk_settleCore (memOk_endSuspects (memOk_mk
          (memOk_ite (memOk_noteDone (memOk_stepEvent (memOk_mk h))) (memOk_noteActive
            (memOk_noteDone (memOk_stepEvent (memOk_mk h)))))))))) (resOk_next
              (memOk_ite (memOk_noteDone (memOk_stepEvent (memOk_mk h))) (memOk_noteActive
                (memOk_noteDone (memOk_stepEvent (memOk_mk h)))))))

theorem resOk_execResetEscalation {s : State} (h : s.memOk) : ResOk (execResetEscalation s) := by
  unfold execResetEscalation
  dsimp only
  split
  · exact resOk_idle h
  · split
    · exact resOk_next (memOk_noteActive (memOk_quarantine (memOk_stepEvent (memOk_mk h))))
    · exact resOk_next (memOk_mk (memOk_alert (memOk_stepEvent (memOk_mk h))))
    · exact resOk_next (memOk_askReset (memOk_ite ((logsOnly_setRf _ _ _ _ _).memOk (memOk_stepEvent (memOk_mk h)))
        (memOk_stepEvent (memOk_mk h))))

/-! ### RegisterFile -/

theorem resOk_writeQueCmd {s : State} {fn v : Nat} (h : s.memOk) : ResOk (s.writeQueCmd fn v) := by
  unfold State.writeQueCmd
  split
  · exact resOk_execEnable h
  · exact resOk_execDisable h
  · exact resOk_execResume h
  · exact resOk_execReload h
  · exact resOk_queRun h (fun u h1 => (regsOnly_queDone _ _ _).memOk (memOk_mk h1))

theorem resOk_writeFresp {s : State} {fn p v : Nat} (h : s.memOk) : ResOk (s.writeFresp fn p v) := by
  unfold State.writeFresp
  dsimp only
  split
  · exact resOk_execFrespRetry h
  · exact resOk_execFrespFailPage h
  · exact resOk_execFrespFailContext h
  · exact resOk_next ((logsOnly_dropped _ _ _).memOk h)

theorem resOk_writeReg {s : State} {fn : Nat} {r : Reg} {whi wlo v : Nat} (h : s.memOk) : ResOk
    (s.writeReg fn r whi wlo v) := by
  unfold State.writeReg
  dsimp only
  split
  · exact resOk_execSharedSizeChange h
  · exact resOk_next (memOk_writeSiteMap h)
  · exact resOk_next (memOk_writeSiteMap h)
  · exact resOk_next (memOk_mboxDoorbell h)
  · exact resOk_next (memOk_writeRange h)
  · exact resOk_next (memOk_writeRange h)
  · exact resOk_writeQueCmd h
  · exact resOk_next (memOk_submitInv h)
  · exact resOk_execFringHeadWrite h
  · exact resOk_next (memOk_drainHeld ((logsOnly_setReg _ _ _).memOk h))
  · exact resOk_writeFresp h
  · exact resOk_next (memOk_winDoorbell h)
  · exact resOk_execPwrCapWrite h
  · exact resOk_execPwrFixedWrite h
  · exact resOk_next (memOk_writeBal h)
  · exact resOk_next (memOk_ite (memOk_writeHint h) h)
  · exact resOk_next (memOk_writeRstReq h)
  · exact resOk_next (memOk_writeMode h)
  · split
    · exact resOk_execNcacheConfig h
    · exact resOk_fault
  · exact resOk_next (memOk_writeIdentity h)
  · exact resOk_next (memOk_writeIdentity h)
  · exact resOk_next (memOk_writeIdentity h)
  · exact resOk_next (memOk_writeIdentity h)
  · exact resOk_next (memOk_sessDoorbell h)
  · split
    · exact resOk_execPortControlWrite h
    · exact resOk_fault
  · exact resOk_execCfgCommit h
  · exact resOk_next (memOk_writeCommon h)
  · exact resOk_next (memOk_writePartCtl h)
  · exact resOk_next (memOk_writePartTag h)
  · exact resOk_next (memOk_writePartBasins h)
  · exact resOk_next (memOk_writePartBasins h)
  · exact resOk_next (memOk_writePartResource h)
  · exact resOk_next (memOk_writePartResource h)
  · exact resOk_next (memOk_writePartRst h)
  · exact resOk_next ((logsOnly_setReg _ _ _).memOk h)

theorem resOk_reply {s : State} {a : RegAccess} {v : Nat} (h : s.memOk) : ResOk (s.reply a v) := by
  unfold State.reply
  exact resOk_next ((logsOnly_emit _ _).memOk h)

theorem resOk_reject {s : State} {a : RegAccess} (h : s.memOk) : ResOk (s.reject a) := by
  unfold State.reject
  dsimp only
  exact resOk_ite (resOk_reply ((logsOnly_accessError _ _ _ _).memOk h)) (resOk_next
    ((logsOnly_accessError _ _ _ _).memOk h))

theorem resOk_unassigned {s : State} {a : RegAccess} {rule : Nat} (h : s.memOk) : ResOk (s.unassigned a rule) := by
  unfold State.unassigned
  exact resOk_ite (resOk_reply h) (resOk_next ((logsOnly_accessError _ _ _ _).memOk h))

theorem resOk_accessReg {s : State} {a : RegAccess} {r : Reg} {high : Bool} (h : s.memOk) : ResOk
    (s.accessReg a r high) := by
  unfold State.accessReg
  dsimp only
  exact resOk_ite (resOk_reject h) (resOk_ite (resOk_reply h) (resOk_ite (resOk_next ((logsOnly_dropped _ _ _).memOk h))
    (resOk_ite (resOk_next ((logsOnly_accessError _ _ _ _).memOk h)) (resOk_writeReg h))))

theorem resOk_accessMbox {s : State} {a : RegAccess} (h : s.memOk) : ResOk (s.accessMbox a) := by
  unfold State.accessMbox
  exact resOk_ite (resOk_reply h) (resOk_ite (resOk_next ⟨h.heap, h.pool, Memory.wf_writeBytes _ _ _ h.req, h.rsp⟩)
    (resOk_next h))

theorem resOk_accessMirror {s : State} {a : RegAccess} {i : Nat} (h : s.memOk) : ResOk (s.accessMirror a i) := by
  unfold State.accessMirror
  dsimp only
  exact resOk_ite (resOk_reject h) (resOk_ite (resOk_next h) (resOk_ite (resOk_reply h)
    (resOk_next ((logsOnly_emit _ _).memOk ((logsOnly_emit _ _).memOk h)))))

theorem resOk_accessBittern {s : State} {a : RegAccess} (h : s.memOk) : ResOk (s.accessBittern a) := by
  unfold State.accessBittern
  dsimp only
  split
  · exact resOk_reply h
  · exact resOk_ite (resOk_reply h) (resOk_reply h)

theorem resOk_accessPf {s : State} {a : RegAccess} (h : s.memOk) : ResOk (s.accessPf a) := by
  unfold State.accessPf
  refine resOk_ite (resOk_accessMirror h) ?_
  refine resOk_ite (resOk_reject h) ?_
  refine resOk_ite (resOk_accessMbox h) ?_
  refine resOk_ite (resOk_ite (resOk_reply h) (resOk_execDoorbell h)) ?_
  refine resOk_ite (resOk_ite (resOk_reply h) (resOk_next h)) ?_
  refine resOk_ite (resOk_ite (resOk_accessBittern h) (resOk_next h)) ?_
  split
  · exact resOk_accessReg h
  · exact resOk_unassigned h

theorem resOk_accessVf {s : State} {a : RegAccess} {p : Nat} (h : s.memOk) : ResOk (s.accessVf a p) := by
  unfold State.accessVf
  dsimp only
  refine resOk_ite (resOk_reject h) ?_
  split
  · exact resOk_ite (resOk_accessReg h) (resOk_next ((logsOnly_accessError _ _ _ _).memOk h))
  · refine resOk_ite (resOk_unassigned h) ?_
    refine resOk_ite (resOk_accessMirror h) ?_
    refine resOk_ite (resOk_reject h) ?_
    refine resOk_ite (resOk_ite (resOk_reply h) (resOk_execDoorbell h)) ?_
    split
    · exact resOk_accessReg h
    · exact resOk_unassigned h

theorem resOk_accessBar2 {s : State} {a : RegAccess} (h : s.memOk) : ResOk (s.accessBar2 a) := by
  unfold State.accessBar2
  dsimp only
  exact resOk_ite (resOk_ite (resOk_reply h) (resOk_next h)) (resOk_ite
    (resOk_ite (resOk_reply h) (resOk_next (memOk_ite (memOk_unmask (memOk_mk h)) (memOk_mk h)))) (resOk_ite (resOk_reply h)
      (resOk_ite (resOk_reply h) (resOk_next h))))

theorem resOk_execRegisterWrite {a : RegAccess} {s : State} (h : s.memOk) : ResOk (execRegisterWrite a s) := by
  unfold execRegisterWrite
  exact resOk_ite (resOk_ite (resOk_accessBar2 h) (resOk_ite (resOk_accessPf h) (resOk_accessVf h))) resOk_fault

theorem resOk_execSitebMmio {a : RegAccess} {s : State} (h : s.memOk) : ResOk (execSitebMmio a s) := by
  unfold execSitebMmio
  exact resOk_ite resOk_fault (resOk_ite (resOk_ite (resOk_accessBar2 h) (resOk_ite (resOk_accessPf h) (resOk_accessVf h)))
    (resOk_next ((logsOnly_dropped _ _ _).memOk ((logsOnly_emit _ _).memOk h))))

/-! ### Dispatch -/

theorem resOk_exec {i : Instr} {s : State} (h : s.memOk) : ResOk (exec i s) := by
  unfold exec
  split
  · exact resOk_execRegisterWrite h
  · exact resOk_execSitebTrainRequest h
  · exact resOk_execSitebConfigAccess h
  · exact resOk_execModeChangeWrite h
  · exact resOk_execModeChangeComplete h
  · exact resOk_execPondFallbackComplete h
  · exact resOk_execSharedSizeChange h
  · exact resOk_execSharedSizeChangeComplete h
  · exact resOk_execWholeChannelFailure h
  · exact resOk_execNop h
  · exact resOk_execVadd h
  · exact resOk_execVsub h
  · exact resOk_execVmul h
  · exact resOk_execVmad h
  · exact resOk_execVmin h
  · exact resOk_execVmax h
  · exact resOk_execVabs h
  · exact resOk_execVneg h
  · exact resOk_execVand h
  · exact resOk_execVor h
  · exact resOk_execVxor h
  · exact resOk_execVnot h
  · exact resOk_execVshl h
  · exact resOk_execVshr h
  · exact resOk_execVsra h
  · exact resOk_execVsel h
  · exact resOk_execVclz h
  · exact resOk_execVpopc h
  · exact resOk_execVmov h
  · exact resOk_execVrcp h
  · exact resOk_execVrsq h
  · exact resOk_execVsqrt h
  · exact resOk_execVexp2 h
  · exact resOk_execVlog2 h
  · exact resOk_execVsin h
  · exact resOk_execVcos h
  · exact resOk_execVtanh h
  · exact resOk_execVsigmoid h
  · exact resOk_execVcvt h
  · exact resOk_execVcmp h
  · exact resOk_execPand h
  · exact resOk_execPor h
  · exact resOk_execPxor h
  · exact resOk_execPnot h
  · exact resOk_execPmov h
  · exact resOk_execPtos h
  · exact resOk_execPcnt h
  · exact resOk_execShfl h
  · exact resOk_execBcast h
  · exact resOk_execRot h
  · exact resOk_execRedadd h
  · exact resOk_execRedmin h
  · exact resOk_execRedmax h
  · exact resOk_execScanadd h
  · exact resOk_execVtos h
  · exact resOk_execStov h
  · exact resOk_execRoute h
  · exact resOk_execRouteComplete h
  · exact resOk_execVld h
  · exact resOk_execVst h
  · exact resOk_execAtom h
  · exact resOk_execFence h
  · exact resOk_execTldF h
  · exact resOk_execTstF h
  · exact resOk_execSadd h
  · exact resOk_execSsub h
  · exact resOk_execSmul h
  · exact resOk_execSmad h
  · exact resOk_execSmin h
  · exact resOk_execSmax h
  · exact resOk_execSabs h
  · exact resOk_execSneg h
  · exact resOk_execSand h
  · exact resOk_execSor h
  · exact resOk_execSxor h
  · exact resOk_execSnot h
  · exact resOk_execSshl h
  · exact resOk_execSshr h
  · exact resOk_execSsra h
  · exact resOk_execSsel h
  · exact resOk_execSclz h
  · exact resOk_execSpopc h
  · exact resOk_execSmov h
  · exact resOk_execSdiv h
  · exact resOk_execSrem h
  · exact resOk_execSdivu h
  · exact resOk_execSremu h
  · exact resOk_execScmp h
  · exact resOk_execRdctr h
  · exact resOk_execRdctx h
  · exact resOk_execTset h
  · exact resOk_execSld h
  · exact resOk_execSst h
  · exact resOk_execBra h
  · exact resOk_execBCc h
  · exact resOk_execCall h
  · exact resOk_execJr h
  · exact resOk_execRet h
  · exact resOk_execSplit h
  · exact resOk_execElseMask h
  · exact resOk_execJoin h
  · exact resOk_execCut h
  · exact resOk_execElect h
  · exact resOk_execTwait h
  · exact resOk_execTwaitReturn h
  · exact resOk_execSwait h
  · exact resOk_execSwaitReturn h
  · exact resOk_execEndGroup h
  · exact resOk_execLaunchComplete h
  · exact resOk_execMma h
  · exact resOk_execMmaComplete h
  · exact resOk_execMzero h
  · exact resOk_execMdrain h
  · exact resOk_execMdrainComplete h
  · exact resOk_execDmaCopy h
  · exact resOk_execDmaGather h
  · exact resOk_execDmaScatter h
  · exact resOk_execDmaXpose h
  · exact resOk_execDmaNarrow h
  · exact resOk_execDmaBucket h
  · exact resOk_execDmaCommandStart h
  · exact resOk_execDmaRowDelivered h
  · exact resOk_execDmaCommandComplete h
  · exact resOk_execPut h
  · exact resOk_execGet h
  · exact resOk_execRatom h
  · exact resOk_execSig h
  · exact resOk_execPuts h
  · exact resOk_execIput h
  · exact resOk_execRed h
  · exact resOk_execRmoTargetApply h
  · exact resOk_execRmoComplete h
  · exact resOk_execRmoTimeout h
  · exact resOk_execWindowExport h
  · exact resOk_execWindowWithdraw h
  · exact resOk_execWindowWithdrawComplete h
  · exact resOk_execGets h
  · exact resOk_execGetm h
  · exact resOk_execPute h
  · exact resOk_execPuto h
  · exact resOk_execPutm h
  · exact resOk_execPutAck h
  · exact resOk_execFwdgets h
  · exact resOk_execFwdgetm h
  · exact resOk_execInv h
  · exact resOk_execSnpinvdata h
  · exact resOk_execSnprd h
  · exact resOk_execInvAck h
  · exact resOk_execGetmGrant h
  · exact resOk_execPresenceClear h
  · exact resOk_execNcacheConfig h
  · exact resOk_execNcacheConversionComplete h
  · exact resOk_execWalkComplete h
  · exact resOk_execS1Range h
  · exact resOk_execS1Ctx h
  · exact resOk_execS1All h
  · exact resOk_execS2Range h
  · exact resOk_execS2Part h
  · exact resOk_execInvalidateAll h
  · exact resOk_execInvalidationComplete h
  · exact resOk_execFrespRetry h
  · exact resOk_execFrespFailPage h
  · exact resOk_execFrespFailContext h
  · exact resOk_execFringHeadWrite h
  · exact resOk_execSchedRangeWrite h
  · exact resOk_execDoorbell h
  · exact resOk_execPacketRead h
  · exact resOk_execSchedule h
  · exact resOk_execSchedulerTick h
  · exact resOk_execPreemptionPoint h
  · exact resOk_execSwitchComplete h
  · exact resOk_execContextRecordWriteback h
  · exact resOk_execCondLaunch h
  · exact resOk_execFanout h
  · exact resOk_execDmaPacket h
  · exact resOk_execSignalPacket h
  · exact resOk_execWaitPacket h
  · exact resOk_execWaitTimeout h
  · exact resOk_execPhasePacket h
  · exact resOk_execBarrierPacket h
  · exact resOk_execPacketComplete h
  · exact resOk_execEnable h
  · exact resOk_execDisable h
  · exact resOk_execDisableComplete h
  · exact resOk_execResume h
  · exact resOk_execReload h
  · exact resOk_execPartitionEnable h
  · exact resOk_execPartitionBasinWrite h
  · exact resOk_execPartitionResourceWrite h
  · exact resOk_execPartitionReset h
  · exact resOk_execPartitionRemove h
  · exact resOk_execPartitionDrainTimeout h
  · exact resOk_execPartitionResetComplete h
  · exact resOk_execPartitionResetHang h
  · exact resOk_execFlr h
  · exact resOk_execCommonRangeWrite h
  · exact resOk_execCfgCommit h
  · exact resOk_execCommitPartialTimeout h
  · exact resOk_execPortControlWrite h
  · exact resOk_execSubportLinkUp h
  · exact resOk_execSubportLinkDown h
  · exact resOk_execLinkIdentityWrite h
  · exact resOk_execControlFrame h
  · exact resOk_execForeignFrame h
  · exact resOk_execSessionOpen h
  · exact resOk_execSessionClose h
  · exact resOk_execSessionCloseComplete h
  · exact resOk_execPutData h
  · exact resOk_execGetRequest h
  · exact resOk_execGetResponse h
  · exact resOk_execRatomMessage h
  · exact resOk_execRatomResponse h
  · exact resOk_execSigMessage h
  · exact resOk_execPutsData h
  · exact resOk_execPutsSignal h
  · exact resOk_execIputRow h
  · exact resOk_execRedMessage h
  · exact resOk_execComp h
  · exact resOk_execAck h
  · exact resOk_execNak h
  · exact resOk_execHello h
  · exact resOk_execHelloAck h
  · exact resOk_execRefuse h
  · exact resOk_execClose h
  · exact resOk_execKeepalive h
  · exact resOk_execHelloRetry h
  · exact resOk_execRetransmitTimeout h
  · exact resOk_execAckTimer h
  · exact resOk_execKeepaliveInterval h
  · exact resOk_execPeerSilence h
  · exact resOk_execArbitrationRoundEnd h
  · exact resOk_execHostPowerGood h
  · exact resOk_execHostLinkUp h
  · exact resOk_execHostLinkDown h
  · exact resOk_execUcieFlitReplay h
  · exact resOk_execConfigRequest h
  · exact resOk_execUnsupportedRequest h
  · exact resOk_execSitebMmio h
  · exact resOk_execSitebMapWrite h
  · exact resOk_execSiteAPerst h
  · exact resOk_execSiteBPerst h
  · exact resOk_execMsixUnmask h
  · exact resOk_execEdgeFlitReplay h
  · exact resOk_execEdgeLinkOutOfService h
  · exact resOk_execCorrelationSample h
  · exact resOk_execD2dOffer h
  · exact resOk_execD2dHandshakeEnd h
  · exact resOk_execControlInterval h
  · exact resOk_execStepChangeComplete h
  · exact resOk_execPwrCapWrite h
  · exact resOk_execPwrFixedWrite h
  · exact resOk_execBrakeAssert h
  · exact resOk_execBrakeDeassert h
  · exact resOk_execEbbStretch h
  · exact resOk_execEbbStretchEnd h
  · exact resOk_execEbbLimitExpiry h
  · exact resOk_execEbbReset h
  · exact resOk_execThermalSample h
  · exact resOk_execBalanceEnable h
  · exact resOk_execBalancePeriod h
  · exact resOk_execBasinIdle h
  · exact resOk_execGatedToRetained h
  · exact resOk_execIdleExpiryWake h
  · exact resOk_execBasinWake h
  · exact resOk_execBasinWakeComplete h
  · exact resOk_execIdleHintWrite h
  · exact resOk_execVcmdAck h
  · exact resOk_execVcmdAckTimeout h
  · exact resOk_execRakePatrol h
  · exact resOk_execCommonRepairComplete h
  · exact resOk_execLockstepMismatch h
  · exact resOk_execMgmtRestartComplete h
  · exact resOk_execLaunchWatchdog h
  · exact resOk_execDmaWatchdog h
  · exact resOk_execMatrixWatchdog h
  · exact resOk_execSuspendWatchdog h
  · exact resOk_execInvalidationWatchdog h
  · exact resOk_execWeirNoResponse h
  · exact resOk_execSharedUnitNoResponse h
  · exact resOk_execStopTimeout h
  · exact resOk_execCollectionComplete h
  · exact resOk_execEngineReset h
  · exact resOk_execCoreReset h
  · exact resOk_execDieReset h
  · exact resOk_execWarmDeviceReset h
  · exact resOk_execColdReset h
  · exact resOk_execResetStepComplete h
  · exact resOk_execResetEscalation h
  · exact resOk_execReplayComplete h
  · exact resOk_execReplayWatchdog h
  · exact resOk_execSluiceTimeout h
  · exact resOk_execRstReqEngine h
  · exact resOk_execRstReqCore h
  · exact resOk_execRstReqDie h
  · exact resOk_execRstReqWarm h
  · exact resOk_execRstReqCold h
  · exact resOk_execPowerGoodRise h
  · exact resOk_execPowerGoodFall h
  · exact resOk_execColdRstAssert h
  · exact resOk_execRailFault h
  · exact resOk_execMgmtStartTimeout h
  · exact resOk_execRecoveryImage h
  · exact resOk_execReadyBitSet h
  · exact resOk_execBootDone h
  · exact resOk_execAliasTreeGenerate h
  · exact resOk_execGetVersion h
  · exact resOk_execGetCapabilities h
  · exact resOk_execNegotiateAlgorithms h
  · exact resOk_execGetDigests h
  · exact resOk_execGetCertificate h
  · exact resOk_execChallenge h
  · exact resOk_execGetMeasurements h
  · exact resOk_execPldmPlatformRequest h
  · exact resOk_execPldmFirmwareUpdate h
  · exact resOk_execMctpControl h
  · exact resOk_execI3cDynamicAddress h
  · exact resOk_execChanMapout h
  · exact resOk_execChanClear h
  · exact resOk_execPwrTable h
  · exact resOk_execSvnCommit h
  · exact resOk_execMeasExtend h
  · exact resOk_execBtnDirectory h
  · exact resOk_execMboxComplete h
  · exact resOk_execPllLockLoss h
  · exact resOk_execHostLinkRetrain h
  · exact resOk_execAtsInvalidation h
  · exact resOk_execEdgeMesochronousReturn h
  · exact resOk_execGetsData h
  · exact resOk_execSnoopResponse h
  · exact resOk_execFecUncorrectableFrame h
  · exact resOk_execReservedOpcMessage h

/-! ### Tick -/

theorem memOk_chargeCore {s : State} {core : Nat} (h : s.memOk) : (s.chargeCore core).memOk := by
  unfold State.chargeCore
  dsimp only
  refine memOk_mk (memOk_foldl (fun u c hu => memOk_mk hu) (memOk_foldl (fun u l hu => ?_) h))
  split
  · exact hu
  · exact memOk_mk hu

theorem memOk_tick {s : State} (h : s.memOk) : s.tick.memOk := by
  unfold State.tick
  dsimp only
  exact memOk_ite h (memOk_mk (memOk_ite h (memOk_mk (memOk_foldl (fun u x h1 => memOk_chargeCore h1) h))))

/-! ### Step -/

theorem resOk_step {s : State} (h : s.memOk) : ResOk (step s) := by
  unfold step
  split
  · exact resOk_next (memOk_tick h)
  · exact resOk_exec (memOk_mk h)

end Sys2Proof.Machine

namespace Sys2Proof
open Sys2Proof.Machine

/-- Settles O58: every function that a step runs keeps the four memories in canonical form, the commands one by one. -/
theorem memoriesStayCanonical : Obligations.memories_stay_canonical := by
  unfold Obligations.memories_stay_canonical
  intro s t h ht
  exact memOk_of_next (resOk_step h) ht

end Sys2Proof
